-- ==== Sys2Proof/Word.lean ====
section
/-! DEFINITION. The word types of the machine (R8, R10) and their plainest arithmetic. -/

namespace Sys2Proof

/-- A byte (R8). -/
abbrev Byte := BitVec 8
/-- A doubleword, the width of a G register, a system register and an address while it is computed (R8, R42). -/
abbrev Word := BitVec 64
/-- A 32-bit word, the width of most unit registers (R8, R33). -/
abbrev W32 := BitVec 32
/-- A Y-core, 0 to 63 (R19, R37). -/
abbrev CoreId := Fin 64
/-- The number of a G or F register (R42). -/
abbrev RegNo := Fin 32
/-- The PID tag {VMID[28:16], ASID[15:0]} (R10). -/
abbrev Pid := BitVec 29

end Sys2Proof
end

