-- ==== Sys2Proof/Syntax.lean ====
section
/-! DEFINITION. The commands of the block, one constructor per row of spec/opcode_table.json, with their operands. -/

namespace Sys2Proof

/-- A sector number: a 46-bit physical address (R28) divided by 64. -/
abbrev SecNo := Fin (2 ^ 40)
/-- A 256-byte block number: a 46-bit physical address divided by 256. -/
abbrev BlockNo := Fin (2 ^ 38)

/-- A cache instance (R174). -/
inductive CacheName where
  | l1i (c : CoreId) | l1d (c : CoreId) | l2 (q : Fin 16) | l3 (h : Fin 8)
  deriving DecidableEq, Repr

/-- What a check of a cache array finds (R199): an error in a sector's data, or in an entry's tag and tracking, that the
code of the array corrects or cannot correct. -/
inductive ArrayFault where
  | dataCorrected | dataLost | tagCorrected | tagLost
  deriving DecidableEq, Repr

/-- An error that a cache array shows (R199): the cache, set and way of its frame, and the sector of the frame's block. -/
structure ArrayErr where
  cache : CacheName
  set : Fin 1024
  way : Fin 16
  sector : Fin 4
  found : ArrayFault
  deriving DecidableEq, Repr

/-- What a data packet brings with its sector: its poison bit (R200), and the error, if any, that a cache array shows while
the sector is delivered (R199; log entry 86). -/
structure Arrival where
  poison : Bool
  err : Option ArrayErr := none
  deriving DecidableEq, Repr

/-- An error that the slice engine meets in its own state (R306, R308, R309). -/
inductive EngineErr where
  | corrected | queue | common
  deriving DecidableEq, Repr

/-- The queue that the slice engine turns to, and the error, if any, that its own state shows then (log entry 97). -/
structure FetchAt where
  q : Fin 64
  err : Option EngineErr := none
  deriving DecidableEq, Repr

/-- What calls for the absorption of a failure of a core (R424, R426, R429): the oldest check reported to Fetas; an error in a
register, 0 to 31 of G and 32 to 63 of F, that its code corrects or does not; or a compare mismatch of the stayed pair with this
lead, the first at an instruction or one that comes again. -/
inductive CoreFailure where
  | reported
  | register (core : CoreId) (n : Fin 64) (corrected : Bool)
  | compare (lead : CoreId) (again : Bool)
  deriving DecidableEq, Repr

/-- What the power-fail logic has seen (R392): VIN_SENSE no higher than so many mV, as its comparator takes it, or PFW_N low,
for so many µs. -/
inductive PowerFail where
  | vin (mv us : Nat)
  | pfw (us : Nat)
  deriving DecidableEq, Repr

/-- How a received PCI Express packet is: good, poisoned, or with a wrong ECRC (R324). -/
inductive Tlp where
  | good | poisoned | badEcrc
  deriving DecidableEq, Repr

/-- How an outbound read ends: with its data, or refused (Unsupported Request or Completer Abort), in a completion that is good,
poisoned or has a wrong ECRC (R325). -/
structure CplEnd where
  refused : Bool
  tlp : Tlp := .good
  deriving DecidableEq, Repr

/-- Who sends a request to a unit (R11, R166): a core, at the level it runs at, Fetas, or the unit at a stop. -/
inductive Sender where
  | core (c : CoreId) | fetas | unit (stop : Fin 30)
  deriving DecidableEq, Repr

/-- Who writes a register: a sender on the main side, or Shroud firmware at K, in the Shroud's own space (R440). -/
inductive Writer where
  | main (by' : Sender) | shroud
  deriving DecidableEq, Repr

/-- A reset of the Shroud that its watchdog does not make (R436). -/
inductive ShroudCause where
  | pin | supply | mismatch
  deriving DecidableEq, Repr

/-- What the main side of the Shroud port meets: the oldest window that the Shroud has rung, a message of its firmware, or
a window with any contents (R445). -/
inductive SmIn where
  | next | firmware (typ : BitVec 16) (pay : List Byte) | raw (w : List Byte)
  deriving DecidableEq, Repr

/-- The size of an access to a register (R33). -/
inductive AccSize where
  | b1 | b2 | b4 | b8
  deriving DecidableEq, Repr

/-- The commands of the block: one constructor per row of the table of operations and events. An instruction carries the
core that executes it. An operand with a default may be left out: the command then names the event alone. -/
inductive Instr where
  /-- ADD (R50): Gd receives Ga plus Gb modulo 2^64. -/
  | add (c : CoreId) (rd : RegNo) (ra : RegNo) (rb : RegNo)
  /-- SUB (R50): Gd receives Ga minus Gb modulo 2^64. -/
  | sub (c : CoreId) (rd : RegNo) (ra : RegNo) (rb : RegNo)
  /-- AND (R50): Gd receives the bitwise AND of Ga and Gb. -/
  | and (c : CoreId) (rd : RegNo) (ra : RegNo) (rb : RegNo)
  /-- OR (R50): Gd receives the bitwise OR of Ga and Gb. -/
  | or (c : CoreId) (rd : RegNo) (ra : RegNo) (rb : RegNo)
  /-- XOR (R50): Gd receives the bitwise XOR of Ga and Gb. -/
  | xor (c : CoreId) (rd : RegNo) (ra : RegNo) (rb : RegNo)
  /-- SLL (R50): Gd receives Ga shifted left by Gb[5:0]. -/
  | sll (c : CoreId) (rd : RegNo) (ra : RegNo) (rb : RegNo)
  /-- SRL (R50): Gd receives Ga shifted right by Gb[5:0] with zero fill. -/
  | srl (c : CoreId) (rd : RegNo) (ra : RegNo) (rb : RegNo)
  /-- SRA (R50): Gd receives Ga shifted right by Gb[5:0] with sign fill. -/
  | sra (c : CoreId) (rd : RegNo) (ra : RegNo) (rb : RegNo)
  /-- SLT (R50): Gd receives 1 if Ga is less than Gb signed, else 0. -/
  | slt (c : CoreId) (rd : RegNo) (ra : RegNo) (rb : RegNo)
  /-- SLTU (R50): Gd receives 1 if Ga is less than Gb unsigned, else 0. -/
  | sltu (c : CoreId) (rd : RegNo) (ra : RegNo) (rb : RegNo)
  /-- SEQ (R50): Gd receives 1 if Ga equals Gb, else 0. -/
  | seq (c : CoreId) (rd : RegNo) (ra : RegNo) (rb : RegNo)
  /-- SNE (R50): Gd receives 1 if Ga differs from Gb, else 0. -/
  | sne (c : CoreId) (rd : RegNo) (ra : RegNo) (rb : RegNo)
  /-- MIN (R50): Gd receives the signed minimum of Ga and Gb. -/
  | min (c : CoreId) (rd : RegNo) (ra : RegNo) (rb : RegNo)
  /-- MAX (R50): Gd receives the signed maximum of Ga and Gb. -/
  | max (c : CoreId) (rd : RegNo) (ra : RegNo) (rb : RegNo)
  /-- MINU (R50): Gd receives the unsigned minimum of Ga and Gb. -/
  | minu (c : CoreId) (rd : RegNo) (ra : RegNo) (rb : RegNo)
  /-- MAXU (R50): Gd receives the unsigned maximum of Ga and Gb. -/
  | maxu (c : CoreId) (rd : RegNo) (ra : RegNo) (rb : RegNo)
  /-- ADDW (R50): Gd receives the sign-extended low 32 bits of Ga plus Gb. -/
  | addw (c : CoreId) (rd : RegNo) (ra : RegNo) (rb : RegNo)
  /-- SLLW (R50): Gd receives the sign-extended 32-bit left shift of Ga by Gb[4:0]. -/
  | sllw (c : CoreId) (rd : RegNo) (ra : RegNo) (rb : RegNo)
  /-- SRLW (R50): Gd receives the sign-extended 32-bit logical right shift of Ga by Gb[4:0]. -/
  | srlw (c : CoreId) (rd : RegNo) (ra : RegNo) (rb : RegNo)
  /-- SRAW (R50): Gd receives the sign-extended 32-bit arithmetic right shift of Ga by Gb[4:0]. -/
  | sraw (c : CoreId) (rd : RegNo) (ra : RegNo) (rb : RegNo)
  /-- CLZ (R50): Gd receives the count of leading zeros of Ga, 64 for zero. -/
  | clz (c : CoreId) (rd : RegNo) (ra : RegNo)
  /-- CTZ (R50): Gd receives the count of trailing zeros of Ga, 64 for zero. -/
  | ctz (c : CoreId) (rd : RegNo) (ra : RegNo)
  /-- POPC (R50): Gd receives the number of one bits in Ga. -/
  | popc (c : CoreId) (rd : RegNo) (ra : RegNo)
  /-- SEL (R50): Gd receives Ga if Gc is nonzero, else Gb, without a branch. -/
  | sel (c : CoreId) (rd : RegNo) (ra : RegNo) (rb : RegNo) (rc : RegNo)
  /-- ADDI (R51): Gd receives Ga plus the sign-extended immediate. -/
  | addi (c : CoreId) (rd : RegNo) (ra : RegNo) (imm : BitVec 16)
  /-- ANDI (R51): Gd receives Ga AND the zero-extended immediate. -/
  | andi (c : CoreId) (rd : RegNo) (ra : RegNo) (imm : BitVec 16)
  /-- ORI (R51): Gd receives Ga OR the zero-extended immediate. -/
  | ori (c : CoreId) (rd : RegNo) (ra : RegNo) (imm : BitVec 16)
  /-- XORI (R51): Gd receives Ga XOR the zero-extended immediate. -/
  | xori (c : CoreId) (rd : RegNo) (ra : RegNo) (imm : BitVec 16)
  /-- SLTI (R51): Gd receives 1 if Ga is less than the signed immediate. -/
  | slti (c : CoreId) (rd : RegNo) (ra : RegNo) (imm : BitVec 16)
  /-- SLTIU (R51): Gd receives 1 if Ga is below the sign-extended immediate unsigned. -/
  | sltiu (c : CoreId) (rd : RegNo) (ra : RegNo) (imm : BitVec 16)
  /-- LUI (R51): Gd receives the sign-extended immediate shifted left by 16. -/
  | lui (c : CoreId) (rd : RegNo) (imm : BitVec 16)
  /-- AUIPC (R51): Gd receives PC plus the sign-extended immediate shifted left by 16. -/
  | auipc (c : CoreId) (rd : RegNo) (imm : BitVec 16)
  /-- SLLI (R51): Gd receives Ga shifted left by IMM16[5:0]. -/
  | slli (c : CoreId) (rd : RegNo) (ra : RegNo) (sh : BitVec 6)
  /-- SRLI (R51): Gd receives Ga shifted right by IMM16[5:0] with zero fill. -/
  | srli (c : CoreId) (rd : RegNo) (ra : RegNo) (sh : BitVec 6)
  /-- SRAI (R51): Gd receives Ga shifted right by IMM16[5:0] with sign fill. -/
  | srai (c : CoreId) (rd : RegNo) (ra : RegNo) (sh : BitVec 6)
  /-- ADDIW (R51): Gd receives the sign-extended low 32 bits of Ga plus the immediate. -/
  | addiw (c : CoreId) (rd : RegNo) (ra : RegNo) (imm : BitVec 16)
  /-- MUL (R52): Gd receives the low 64 bits of Ga times Gb. -/
  | mul (c : CoreId) (rd : RegNo) (ra : RegNo) (rb : RegNo)
  /-- MULH (R52): Gd receives the high 64 bits of the signed product. -/
  | mulh (c : CoreId) (rd : RegNo) (ra : RegNo) (rb : RegNo)
  /-- MULHU (R52): Gd receives the high 64 bits of the unsigned product. -/
  | mulhu (c : CoreId) (rd : RegNo) (ra : RegNo) (rb : RegNo)
  /-- MULW (R52): Gd receives the sign-extended low 32 bits of Ga times Gb. -/
  | mulw (c : CoreId) (rd : RegNo) (ra : RegNo) (rb : RegNo)
  /-- DIV (R52): Starts a signed 64-bit divide on the divider as a long operation. -/
  | div (c : CoreId) (rd : RegNo) (ra : RegNo) (rb : RegNo)
  /-- DIVU (R52): Starts an unsigned 64-bit divide on the divider as a long operation. -/
  | divu (c : CoreId) (rd : RegNo) (ra : RegNo) (rb : RegNo)
  /-- REM (R52): Starts a signed 64-bit remainder on the divider as a long operation. -/
  | rem (c : CoreId) (rd : RegNo) (ra : RegNo) (rb : RegNo)
  /-- REMU (R52): Starts an unsigned 64-bit remainder on the divider as a long operation. -/
  | remu (c : CoreId) (rd : RegNo) (ra : RegNo) (rb : RegNo)
  /-- DIVW (R52): Starts a signed 32-bit divide on the divider as a long operation. -/
  | divw (c : CoreId) (rd : RegNo) (ra : RegNo) (rb : RegNo)
  /-- DIVUW (R52): Starts an unsigned 32-bit divide on the divider as a long operation. -/
  | divuw (c : CoreId) (rd : RegNo) (ra : RegNo) (rb : RegNo)
  /-- LONG_OP_COMPLETE (R85): A long operation writes its result after its fixed latency, setting IDZ for a zero divisor. -/
  | longOpComplete (c : CoreId)
  /-- FADD_S (R55): Binary32 addition with the selected rounding mode. -/
  | faddS (c : CoreId) (fd : RegNo) (fa : RegNo) (fb : RegNo) (rm : BitVec 5)
  /-- FADD_D (R55): Binary64 addition with the selected rounding mode. -/
  | faddD (c : CoreId) (fd : RegNo) (fa : RegNo) (fb : RegNo) (rm : BitVec 5)
  /-- FSUB_S (R55): Binary32 subtraction. -/
  | fsubS (c : CoreId) (fd : RegNo) (fa : RegNo) (fb : RegNo) (rm : BitVec 5)
  /-- FSUB_D (R55): Binary64 subtraction. -/
  | fsubD (c : CoreId) (fd : RegNo) (fa : RegNo) (fb : RegNo) (rm : BitVec 5)
  /-- FMUL_S (R55): Binary32 multiplication. -/
  | fmulS (c : CoreId) (fd : RegNo) (fa : RegNo) (fb : RegNo) (rm : BitVec 5)
  /-- FMUL_D (R55): Binary64 multiplication. -/
  | fmulD (c : CoreId) (fd : RegNo) (fa : RegNo) (fb : RegNo) (rm : BitVec 5)
  /-- FDIV_S (R55): Starts a binary32 division on the divider as a long operation. -/
  | fdivS (c : CoreId) (fd : RegNo) (fa : RegNo) (fb : RegNo) (rm : BitVec 5)
  /-- FDIV_D (R55): Starts a binary64 division on the divider as a long operation. -/
  | fdivD (c : CoreId) (fd : RegNo) (fa : RegNo) (fb : RegNo) (rm : BitVec 5)
  /-- FSQRT_S (R55): Starts a binary32 square root on the divider as a long operation. -/
  | fsqrtS (c : CoreId) (fd : RegNo) (fa : RegNo) (rm : BitVec 5)
  /-- FSQRT_D (R55): Starts a binary64 square root on the divider as a long operation. -/
  | fsqrtD (c : CoreId) (fd : RegNo) (fa : RegNo) (rm : BitVec 5)
  /-- FMIN_S (R55): Binary32 minimumNumber. -/
  | fminS (c : CoreId) (fd : RegNo) (fa : RegNo) (fb : RegNo)
  /-- FMIN_D (R55): Binary64 minimumNumber. -/
  | fminD (c : CoreId) (fd : RegNo) (fa : RegNo) (fb : RegNo)
  /-- FMAX_S (R55): Binary32 maximumNumber. -/
  | fmaxS (c : CoreId) (fd : RegNo) (fa : RegNo) (fb : RegNo)
  /-- FMAX_D (R55): Binary64 maximumNumber. -/
  | fmaxD (c : CoreId) (fd : RegNo) (fa : RegNo) (fb : RegNo)
  /-- FSGNJ_S (R55): Binary32 magnitude of Fa with sign of Fb. -/
  | fsgnjS (c : CoreId) (fd : RegNo) (fa : RegNo) (fb : RegNo)
  /-- FSGNJ_D (R55): Binary64 magnitude of Fa with sign of Fb. -/
  | fsgnjD (c : CoreId) (fd : RegNo) (fa : RegNo) (fb : RegNo)
  /-- FSGNJN_S (R55): Binary32 magnitude of Fa with inverted sign of Fb. -/
  | fsgnjnS (c : CoreId) (fd : RegNo) (fa : RegNo) (fb : RegNo)
  /-- FSGNJN_D (R55): Binary64 magnitude of Fa with inverted sign of Fb. -/
  | fsgnjnD (c : CoreId) (fd : RegNo) (fa : RegNo) (fb : RegNo)
  /-- FSGNJX_S (R55): Binary32 magnitude of Fa with XOR of both signs. -/
  | fsgnjxS (c : CoreId) (fd : RegNo) (fa : RegNo) (fb : RegNo)
  /-- FSGNJX_D (R55): Binary64 magnitude of Fa with XOR of both signs. -/
  | fsgnjxD (c : CoreId) (fd : RegNo) (fa : RegNo) (fb : RegNo)
  /-- FEQ_S (R55): Gd receives 1 if the binary32 operands are equal, quiet compare. -/
  | feqS (c : CoreId) (fd : RegNo) (fa : RegNo) (fb : RegNo)
  /-- FEQ_D (R55): Gd receives 1 if the binary64 operands are equal, quiet compare. -/
  | feqD (c : CoreId) (fd : RegNo) (fa : RegNo) (fb : RegNo)
  /-- FLT_S (R55): Gd receives 1 if binary32 Fa is less than Fb, signalling compare. -/
  | fltS (c : CoreId) (fd : RegNo) (fa : RegNo) (fb : RegNo)
  /-- FLT_D (R55): Gd receives 1 if binary64 Fa is less than Fb, signalling compare. -/
  | fltD (c : CoreId) (fd : RegNo) (fa : RegNo) (fb : RegNo)
  /-- FLE_S (R55): Gd receives 1 if binary32 Fa is at most Fb, signalling compare. -/
  | fleS (c : CoreId) (fd : RegNo) (fa : RegNo) (fb : RegNo)
  /-- FLE_D (R55): Gd receives 1 if binary64 Fa is at most Fb, signalling compare. -/
  | fleD (c : CoreId) (fd : RegNo) (fa : RegNo) (fb : RegNo)
  /-- FCLASS_S (R55): Gd receives the class mask of a binary32 operand. -/
  | fclassS (c : CoreId) (fd : RegNo) (fa : RegNo)
  /-- FCLASS_D (R55): Gd receives the class mask of a binary64 operand. -/
  | fclassD (c : CoreId) (fd : RegNo) (fa : RegNo)
  /-- FCVT_S_D (R55): Converts binary64 to binary32. -/
  | fcvtSD (c : CoreId) (fd : RegNo) (fa : RegNo) (rm : BitVec 5)
  /-- FCVT_D_S (R55): Converts binary32 to binary64. -/
  | fcvtDS (c : CoreId) (fd : RegNo) (fa : RegNo) (rm : BitVec 5)
  /-- FCVT_L_S (R94): Converts binary32 to a signed 64-bit integer. -/
  | fcvtLS (c : CoreId) (fd : RegNo) (fa : RegNo) (rm : BitVec 5)
  /-- FCVT_L_D (R94): Converts binary64 to a signed 64-bit integer. -/
  | fcvtLD (c : CoreId) (fd : RegNo) (fa : RegNo) (rm : BitVec 5)
  /-- FCVT_W_S (R94): Converts binary32 to a sign-extended signed 32-bit integer. -/
  | fcvtWS (c : CoreId) (fd : RegNo) (fa : RegNo) (rm : BitVec 5)
  /-- FCVT_W_D (R94): Converts binary64 to a sign-extended signed 32-bit integer. -/
  | fcvtWD (c : CoreId) (fd : RegNo) (fa : RegNo) (rm : BitVec 5)
  /-- FCVT_S_L (R55): Converts a signed 64-bit integer to binary32. -/
  | fcvtSL (c : CoreId) (fd : RegNo) (fa : RegNo) (rm : BitVec 5)
  /-- FCVT_D_L (R55): Converts a signed 64-bit integer to binary64. -/
  | fcvtDL (c : CoreId) (fd : RegNo) (fa : RegNo) (rm : BitVec 5)
  /-- FCVT_S_W (R55): Converts a signed 32-bit integer to binary32. -/
  | fcvtSW (c : CoreId) (fd : RegNo) (fa : RegNo) (rm : BitVec 5)
  /-- FCVT_D_W (R55): Converts a signed 32-bit integer to binary64 exactly. -/
  | fcvtDW (c : CoreId) (fd : RegNo) (fa : RegNo) (rm : BitVec 5)
  /-- FMV_X_S (R55): Gd receives the sign-extended bits Fa[31:0]. -/
  | fmvXS (c : CoreId) (fd : RegNo) (fa : RegNo)
  /-- FMV_X_D (R55): Gd receives the bits of Fa unchanged. -/
  | fmvXD (c : CoreId) (fd : RegNo) (fa : RegNo)
  /-- FMV_S_X (R55): Fd receives Ga[31:0], NaN-boxed. -/
  | fmvSX (c : CoreId) (fd : RegNo) (fa : RegNo)
  /-- FMV_D_X (R55): Fd receives the bits of Ga unchanged. -/
  | fmvDX (c : CoreId) (fd : RegNo) (fa : RegNo)
  /-- FMADD_S (R57): Binary32 fused (Fa times Fb) plus Fc. -/
  | fmaddS (c : CoreId) (rd : RegNo) (ra : RegNo) (rb : RegNo) (rc : RegNo)
  /-- FMADD_D (R57): Binary64 fused (Fa times Fb) plus Fc. -/
  | fmaddD (c : CoreId) (rd : RegNo) (ra : RegNo) (rb : RegNo) (rc : RegNo)
  /-- FMSUB_S (R57): Binary32 fused (Fa times Fb) minus Fc. -/
  | fmsubS (c : CoreId) (rd : RegNo) (ra : RegNo) (rb : RegNo) (rc : RegNo)
  /-- FMSUB_D (R57): Binary64 fused (Fa times Fb) minus Fc. -/
  | fmsubD (c : CoreId) (rd : RegNo) (ra : RegNo) (rb : RegNo) (rc : RegNo)
  /-- FNMADD_S (R57): Binary32 fused minus (Fa times Fb) minus Fc. -/
  | fnmaddS (c : CoreId) (rd : RegNo) (ra : RegNo) (rb : RegNo) (rc : RegNo)
  /-- FNMADD_D (R57): Binary64 fused minus (Fa times Fb) minus Fc. -/
  | fnmaddD (c : CoreId) (rd : RegNo) (ra : RegNo) (rb : RegNo) (rc : RegNo)
  /-- FNMSUB_S (R57): Binary32 fused minus (Fa times Fb) plus Fc. -/
  | fnmsubS (c : CoreId) (rd : RegNo) (ra : RegNo) (rb : RegNo) (rc : RegNo)
  /-- FNMSUB_D (R57): Binary64 fused minus (Fa times Fb) plus Fc. -/
  | fnmsubD (c : CoreId) (rd : RegNo) (ra : RegNo) (rb : RegNo) (rc : RegNo)
  /-- LB (R58): Loads a sign-extended byte. -/
  | lb (c : CoreId) (rd : RegNo) (ra : RegNo) (imm : BitVec 16)
  /-- LBU (R58): Loads a zero-extended byte. -/
  | lbu (c : CoreId) (rd : RegNo) (ra : RegNo) (imm : BitVec 16)
  /-- LH (R58): Loads a sign-extended halfword. -/
  | lh (c : CoreId) (rd : RegNo) (ra : RegNo) (imm : BitVec 16)
  /-- LHU (R58): Loads a zero-extended halfword. -/
  | lhu (c : CoreId) (rd : RegNo) (ra : RegNo) (imm : BitVec 16)
  /-- LW (R58): Loads a sign-extended word. -/
  | lw (c : CoreId) (rd : RegNo) (ra : RegNo) (imm : BitVec 16)
  /-- LWU (R58): Loads a zero-extended word. -/
  | lwu (c : CoreId) (rd : RegNo) (ra : RegNo) (imm : BitVec 16)
  /-- LD (R58): Loads a doubleword. -/
  | ld (c : CoreId) (rd : RegNo) (ra : RegNo) (imm : BitVec 16)
  /-- FLW (R58): Loads a word into an F register, NaN-boxed. -/
  | flw (c : CoreId) (rd : RegNo) (ra : RegNo) (imm : BitVec 16)
  /-- FLD (R58): Loads a doubleword into an F register. -/
  | fld (c : CoreId) (rd : RegNo) (ra : RegNo) (imm : BitVec 16)
  /-- SB (R58): Stores a byte into the store buffer at retire. -/
  | sb (c : CoreId) (rb : RegNo) (ra : RegNo) (imm : BitVec 16)
  /-- SH (R58): Stores a halfword into the store buffer at retire. -/
  | sh (c : CoreId) (rb : RegNo) (ra : RegNo) (imm : BitVec 16)
  /-- SW (R58): Stores a word into the store buffer at retire. -/
  | sw (c : CoreId) (rb : RegNo) (ra : RegNo) (imm : BitVec 16)
  /-- SD (R58): Stores a doubleword into the store buffer at retire. -/
  | sd (c : CoreId) (rb : RegNo) (ra : RegNo) (imm : BitVec 16)
  /-- FSW (R58): Stores Fb[31:0] into the store buffer at retire. -/
  | fsw (c : CoreId) (rb : RegNo) (ra : RegNo) (imm : BitVec 16)
  /-- FSD (R58): Stores Fb into the store buffer at retire. -/
  | fsd (c : CoreId) (rb : RegNo) (ra : RegNo) (imm : BitVec 16)
  /-- STORE_BUFFER_DRAIN (R115): The head store-buffer entry drains into L1D once its sector is owned, or is injected as a Device or Uncached write. -/
  | storeBufferDrain (c : CoreId)
  /-- DEVICE_LOAD_RESPONSE (R213): The response to an outstanding Device load returns its data and unblocks the core. -/
  | deviceLoadResponse (c : CoreId)
  /-- DEVICE_STORE_ACK (R214): The target's acknowledgement completes a Device store. -/
  | deviceStoreAck (c : CoreId) (idx : Nat)
  /-- UNCACHED_STORE_ACK (R216): The home's acknowledgement makes an Uncached store globally visible and frees its entry. -/
  | uncachedStoreAck (c : CoreId)
  /-- BEQ (R59): Branches if Ga equals Gb. -/
  | beq (c : CoreId) (ra : RegNo) (rb : RegNo) (h : Bool) (disp : BitVec 15)
  /-- BNE (R59): Branches if Ga differs from Gb. -/
  | bne (c : CoreId) (ra : RegNo) (rb : RegNo) (h : Bool) (disp : BitVec 15)
  /-- BLT (R59): Branches if Ga is less than Gb signed. -/
  | blt (c : CoreId) (ra : RegNo) (rb : RegNo) (h : Bool) (disp : BitVec 15)
  /-- BGE (R59): Branches if Ga is at least Gb signed. -/
  | bge (c : CoreId) (ra : RegNo) (rb : RegNo) (h : Bool) (disp : BitVec 15)
  /-- BLTU (R59): Branches if Ga is less than Gb unsigned. -/
  | bltu (c : CoreId) (ra : RegNo) (rb : RegNo) (h : Bool) (disp : BitVec 15)
  /-- BGEU (R59): Branches if Ga is at least Gb unsigned. -/
  | bgeu (c : CoreId) (ra : RegNo) (rb : RegNo) (h : Bool) (disp : BitVec 15)
  /-- J (R59): Jumps by the scaled 26-bit displacement. -/
  | j (c : CoreId) (disp : BitVec 26)
  /-- JAL (R59): Jumps and writes the return address to G26, pushing the return stack. -/
  | jal (c : CoreId) (disp : BitVec 26)
  /-- JALR (R59): Jumps to a register target and writes the link, with return-stack action per R60. -/
  | jalr (c : CoreId) (rd : RegNo) (ra : RegNo) (imm : BitVec 16)
  /-- PREFETCH (R62): Requests a sector for read, write or fetch, dropped silently on any obstacle. -/
  | prefetch (c : CoreId) (kind : RegNo) (ra : RegNo) (imm : BitVec 16)
  /-- LL_W (R63): Loads a word and sets the sector reservation. -/
  | llW (c : CoreId) (rd : RegNo) (ra : RegNo)
  /-- LL_D (R63): Loads a doubleword and sets the sector reservation. -/
  | llD (c : CoreId) (rd : RegNo) (ra : RegNo)
  /-- SC_W (R63): Stores a word if the reservation holds, reporting success in Gd. -/
  | scW (c : CoreId) (rd : RegNo) (ra : RegNo) (rb : RegNo)
  /-- SC_D (R63): Stores a doubleword if the reservation holds, reporting success in Gd. -/
  | scD (c : CoreId) (rd : RegNo) (ra : RegNo) (rb : RegNo)
  /-- CAS_W (R63): Compares and swaps a word indivisibly. -/
  | casW (c : CoreId) (rd : RegNo) (ra : RegNo) (rb : RegNo) (rc : RegNo)
  /-- CAS_D (R63): Compares and swaps a doubleword indivisibly. -/
  | casD (c : CoreId) (rd : RegNo) (ra : RegNo) (rb : RegNo) (rc : RegNo)
  /-- SWAP_W (R63): Exchanges a word with memory. -/
  | swapW (c : CoreId) (rd : RegNo) (ra : RegNo) (rb : RegNo)
  /-- SWAP_D (R63): Exchanges a doubleword with memory. -/
  | swapD (c : CoreId) (rd : RegNo) (ra : RegNo) (rb : RegNo)
  /-- AMOADD_W (R63): Atomically adds to a word and returns the old value. -/
  | amoaddW (c : CoreId) (rd : RegNo) (ra : RegNo) (rb : RegNo)
  /-- AMOADD_D (R63): Atomically adds to a doubleword and returns the old value. -/
  | amoaddD (c : CoreId) (rd : RegNo) (ra : RegNo) (rb : RegNo)
  /-- FENCE (R212): Acts as FENCE.SL and FENCE.IO together. -/
  | fence (c : CoreId)
  /-- FENCE_SL (R212): Holds later loads until every earlier store is globally visible. -/
  | fenceSl (c : CoreId)
  /-- FENCE_IO (R212): Holds later instructions until earlier Device accesses complete. -/
  | fenceIo (c : CoreId)
  /-- FENCE_I (R72): Drains the store buffer and invalidates the core's L1I and prefetch queue. -/
  | fenceI (c : CoreId)
  /-- LSYNC (R54): Waits for every earlier long operation. -/
  | lsync (c : CoreId)
  /-- PSYNC (R68): Waits until the core's earlier MRAM stores and write-backs are durable. -/
  | psync (c : CoreId)
  /-- ZLINE (R71): Obtains a sector owned without reading memory and writes zeros. -/
  | zline (c : CoreId) (ra : RegNo)
  /-- CLEAN (R69): Writes back the sector if dirty anywhere, leaving it valid. -/
  | clean (c : CoreId) (ra : RegNo)
  /-- INVAL (R69): Removes the sector from every cache, discarding dirty data. -/
  | inval (c : CoreId) (ra : RegNo)
  /-- FLUSH (R69): Writes back the sector if dirty and removes it from every cache. -/
  | flush (c : CoreId) (ra : RegNo)
  /-- CLEAN_SW (R196): Cleans the block named by set and way in one cache. -/
  | cleanSw (c : CoreId) (ra : RegNo)
  /-- INVAL_SW (R196): Invalidates the block named by set and way in one cache. -/
  | invalSw (c : CoreId) (ra : RegNo)
  /-- FLUSH_SW (R196): Cleans then invalidates the block named by set and way. -/
  | flushSw (c : CoreId) (ra : RegNo)
  /-- TLBI (R74): Removes TLB entries selected by the flags on this or every core. -/
  | tlbi (c : CoreId) (rx : RegNo) (ra : RegNo) (flags : BitVec 12)
  /-- SLBI (R74): Removes segment look-aside entries selected by the flags. -/
  | slbi (c : CoreId) (rx : RegNo) (ra : RegNo) (flags : BitVec 12)
  /-- WCINV (R74): Removes walk-cache entries selected by the flags. -/
  | wcinv (c : CoreId) (rx : RegNo) (flags : BitVec 12)
  /-- TLBSYNC (R76): Waits until this core's earlier invalidations have completed on every core. -/
  | tlbsync (c : CoreId)
  /-- REMOTE_INVALIDATION (R173): An invalidation reaches another core, removing its entries and discarding results of walks in progress. -/
  | remoteInvalidation (c : CoreId)
  /-- SYSCALL (R77): Raises cause 0x10 recording XIMM. -/
  | syscall (c : CoreId) (code : BitVec 12)
  /-- HCALL (R77): Raises cause 0x11 to H recording XIMM. -/
  | hcall (c : CoreId) (code : BitVec 12)
  /-- BRK (R77): Raises cause 0x12 recording XIMM. -/
  | brk (c : CoreId) (code : BitVec 12)
  /-- TRET (R140): Unstacks the frame at the current stack pointer and returns. -/
  | tret (c : CoreId)
  /-- RSFLUSH (R61): Empties the return stack. -/
  | rsflush (c : CoreId)
  /-- BAR_PRED (R61): Empties the return stack and sets the prediction-barred state. -/
  | barPred (c : CoreId)
  /-- CLR_PRED (R61): Clears the prediction-barred state. -/
  | clrPred (c : CoreId)
  /-- WFI (R275): Stops issue until an interrupt offer or core cause is pending. -/
  | wfi (c : CoreId)
  /-- MFS (R77): Reads a system register into Gx. -/
  | mfs (c : CoreId) (rx : RegNo) (num : BitVec 12)
  /-- MTS (R78): Writes a system register, serialising. -/
  | mts (c : CoreId) (ra : RegNo) (num : BitVec 12)
  /-- MSSET (R79): Reads a system register and ORs Ga into it as one action. -/
  | msset (c : CoreId) (rx : RegNo) (ra : RegNo) (num : BitVec 12)
  /-- MSCLR (R79): Reads a system register and clears the bits of Ga as one action. -/
  | msclr (c : CoreId) (rx : RegNo) (ra : RegNo) (num : BitVec 12)
  /-- FRAME_BUFFER_DRAIN (R137): The stacked frame drains to L1D as ten doubleword stores after earlier buffered stores. -/
  | frameBufferDrain (c : CoreId)
  /-- RD (R185): A home receives a read for sharing and serves it per the directory state. -/
  | rd (q : Fin 16) (sec : SecNo) (cls : Fin 8)
  /-- RFO (R185): A home receives a read with ownership and invalidates other holders. -/
  | rfo (q : Fin 16) (sec : SecNo) (cls : Fin 8)
  /-- UPG (R185): A home grants ownership of a sector already held in S or O. -/
  | upg (q : Fin 16) (sec : SecNo) (cls : Fin 8)
  /-- ZREQ (R193): A home grants ownership without data for ZLINE, discarding other copies. -/
  | zreq (q : Fin 16) (sec : SecNo) (cls : Fin 8)
  /-- WBREQ (R189): A home receives a victim announcement and answers WBGO in its turn. -/
  | wbreq (q : Fin 16) (block : BlockNo) (dmask : BitVec 4) (cmask : BitVec 4)
  /-- EVC (R185): A home removes a clean victim's holder from the directory. -/
  | evc (q : Fin 16) (block : BlockNo)
  /-- CLN (R194): A home cleans a sector across all quads and memory, then sends DONE. -/
  | cln (q : Fin 16) (sec : SecNo)
  /-- INV (R194): A home invalidates a sector everywhere, discarding dirty data. -/
  | inv (q : Fin 16) (sec : SecNo)
  /-- FLS (R194): A home writes back and invalidates a sector everywhere. -/
  | fls (q : Fin 16) (sec : SecNo)
  /-- UCR (R188): A home serves an uncached read of cacheable memory coherently. -/
  | ucr (who : Fin 19) (sec : SecNo)
  /-- UCW (R188): A home merges an uncached write after invalidating quad copies. -/
  | ucw (who : Fin 19) (sec : SecNo) (data : BitVec 512) (mask : BitVec 64)
  /-- SNP_S (R184): A quad downgrades a sector to S or O, returning dirty data. -/
  | snpS (q : Fin 16) (sec : SecNo)
  /-- SNP_I (R184): A quad invalidates a sector, returning dirty data unless marked discard. -/
  | snpI (q : Fin 16) (sec : SecNo) (discard : Bool)
  /-- SNP_C (R184): A quad writes back a dirty sector and keeps it clean. -/
  | snpC (q : Fin 16) (sec : SecNo)
  /-- WBGO (R189): A quad receives permission to write back its victim's dirty sectors. -/
  | wbgo (q : Fin 16) (sec : SecNo)
  /-- GRANT (R184): A quad receives ownership of a sector. -/
  | grant (q : Fin 16) (sec : SecNo) (dirty : Bool)
  /-- DONE (R194): A quad receives completion of a request, completing a maintenance instruction. -/
  | done (q : Fin 16) (sec : SecNo)
  /-- ACK (R184): A home receives a snoop answer without data. -/
  | ack (q : Fin 16) (sec : SecNo)
  /-- MISS (R186): A home learns a snooped quad does not hold the sector. -/
  | miss (q : Fin 16) (sec : SecNo)
  /-- WBCANCEL (R192): A home receives withdrawal of a dirty sector's writeback. -/
  | wbcancel (q : Fin 16) (sec : SecNo)
  /-- SECTOR_DATA (R184): A data packet delivers one sector to its receiver, which fills or merges it. -/
  | sectorData (q : Fin 19) (toHome : Bool) (sec : SecNo) (data : BitVec 512) (dirty : Bool) (excl : Bool) (mark : Arrival)
  /-- CACHE_RESET_INVAL_DONE (R197): A cache's power-up invalidation sequence ends and its READY bits set. -/
  | cacheResetInvalDone (unit : CacheName)
  /-- DRAM_ACCESS_REQUEST (R233): A memory group receives a block access and issues it to all nine channels. -/
  | dramAccessRequest (block : BlockNo)
  /-- DRAM_READ_RETURN (R237): A DRAM burst returns and each sector is decoded by the symbol code. -/
  | dramReadReturn (block : BlockNo) (errs : List (Fin 16 × Fin 18 × BitVec 8)) (pattern : BitVec 9)
  /-- DRAM_WRITE (R241): A memory group writes valid sectors, merging narrow writes by read-modify-write. -/
  | dramWrite (sec : SecNo) (data : BitVec 512) (mask : BitVec 64) (poison : Bool)
  /-- DRAM_REFRESH (R242): A per-bank refresh command is issued at the interval set by the hottest die. -/
  | dramRefresh (g : Fin 2)
  /-- DIE_TEMP_READ (R242): The controller reads every die temperature once per millisecond and sets the refresh rate. -/
  | dieTempRead (g : Fin 2) (hottest : BitVec 8)
  /-- DRIFT_TRACKING_WINDOW (R244): A channel's periodic window measures and corrects timing and applies pending switches. -/
  | driftTrackingWindow (g : Fin 2) (ch : Fin 9) (busy : Fin 101) (drift : Fin 64) (wrong : Bool)
  /-- RETRAIN_WINDOW (R245): An extra window retrains one channel's stale active set. -/
  | retrainWindow (g : Fin 2) (ch : Fin 9)
  /-- DRAM_PATROL_SCRUB (R247): A scrub access reads a block and rewrites corrected sectors. -/
  | dramPatrolScrub (block : BlockNo) (errs : List (Fin 16 × Fin 18 × BitVec 8)) (pattern : BitVec 9)
  /-- MRAM_READ (R251): An MRAM die reads and BCH-decodes a sector. -/
  | mramRead (sec : SecNo) (errs : Fin 513)
  /-- MRAM_WRITE_ACCEPT (R252): An MRAM write enters its die's queue and is acknowledged. -/
  | mramWriteAccept (sec : SecNo) (data : BitVec 512) (poison : Bool)
  /-- MRAM_WRITE_VERIFY (R254): A die write completes with read-back, retry, remap or poison. -/
  | mramWriteVerify (die : Fin 4) (wrong0 : Fin 513) (wrong1 : Fin 513) (wrong2 : Fin 513)
  /-- DURABILITY_PROBE (R252): The MRAM controller receives a probe that is answered once earlier writes are durable. -/
  | durabilityProbe (who : Fin 65)
  /-- MRAM_PATROL_SCRUB (R255): An MRAM scrub read rewrites sectors with two or more corrected bits. -/
  | mramPatrolScrub (sec : SecNo) (errs : Fin 513)
  /-- ADDR_ERR_REPORT (R36): An address-decode error report reaches the map registers and is captured or counted. -/
  | addrErrReport (stop : Fin 30)
  /-- REGISTER_WRITE (R14): A write to a register without a row of its own acts on each field by its access code. -/
  | registerWrite (by' : Writer) (addr : BitVec 46) (size : AccSize) (v : BitVec 64)
  /-- ADDR_ERR_COUNT_READ (R36): Reading ADDR_ERR_COUNT returns and clears the error count. -/
  | addrErrCountRead (by' : Sender)
  /-- L3_ERR_COUNT_READ (R204): Reading L3_ERR_COUNT returns and clears the counts. -/
  | l3ErrCountRead (by' : Sender) (h : Fin 8)
  /-- MG_ERR_COUNT_READ (R259): Reading MG_ERR_COUNT returns and clears the counts. -/
  | mgErrCountRead (by' : Sender) (g : Fin 2)
  /-- MR_ERR_COUNT_READ (R259): Reading MR_ERR_COUNT returns and clears the counts. -/
  | mrErrCountRead (by' : Sender)
  /-- MR_DIE_READ (R254): Reading MR_DIE returns spares and clears RETRIES. -/
  | mrDieRead (by' : Sender) (d : Fin 4)
  /-- PDQ_READ (R258): Reading PDQ returns the quota count and clears RECLAIMS. -/
  | pdqRead (by' : Sender) (h : Fin 8) (d : Fin 4)
  /-- CLEAT_TAKE (R224): A take request for a cleat is submitted to the current window. -/
  | cleatTake (by' : Sender) (n : Fin 4096)
  /-- CLEAT_GIVE (R225): A give request releases a cleat if sent by its owner. -/
  | cleatGive (by' : Sender) (n : Fin 4096)
  /-- CLEAT_FORCE (R225): A force-free releases a cleat whatever its owner. -/
  | cleatForce (by' : Sender) (n : Fin 4096)
  /-- CLEAT_WINDOW (R223): At the end of each 4-MCLK window the cleat unit resolves force-frees, gives and takes and answers them. -/
  | cleatWindow
  /-- WIRED_SOURCE_LINE (R262): A wired interrupt line changes level or edges, updating PENDING. -/
  | wiredSourceLine (n : Fin 1024) (level : Bool)
  /-- SRC_SET (R263): A write of 1 to SRC_SET sets the source's PENDING. -/
  | srcSet (by' : Sender) (n : Fin 17408)
  /-- SRC_CLR_PENDING (R262): A write clears a source's PENDING bit. -/
  | srcClrPending (by' : Sender) (n : Fin 17408)
  /-- SRC_CLR_ACTIVE (R268): A write clears a source's ACTIVE bit. -/
  | srcClrActive (by' : Sender) (n : Fin 17408)
  /-- SRC_CFG_WRITE (R269): A write to SRC_CFG routes, enables or masks a source with the 8-DCLK masking window. -/
  | srcCfgWrite (by' : Sender) (n : Fin 17408) (v : BitVec 32)
  /-- DIST_CTL_WRITE (R270): A write of GDIS globally disables or re-enables delivery. -/
  | distCtlWrite (by' : Sender) (v : BitVec 32)
  /-- DB_NEXT_READ (R273): Reading DB_NEXT returns the lowest doorbell VMID and clears its flag. -/
  | dbNextRead (by' : Sender) (l : Fin 64)
  /-- INTERRUPT_OFFER (R265): A core receives an offer replacing its previous offer of that kind. -/
  | interruptOffer (c : CoreId)
  /-- OFFER_WITHDRAWAL (R265): A core receives a withdrawal of its held offer. -/
  | offerWithdrawal (c : CoreId)
  /-- INTERRUPT_ACCEPT (R267): A core accepts an acceptable offer at an instruction boundary and enters the handler. -/
  | interruptAccept (c : CoreId)
  /-- ACCEPTANCE (R267): The distributor receives an acceptance, setting ACTIVE and clearing PENDING. -/
  | acceptance (c : CoreId)
  /-- DECLINE (R272): A core not resident for the VMID declines a virtual offer, and the distributor re-chooses. -/
  | decline (c : CoreId)
  /-- IRQ_EOI (R268): A write to IRQ_EOI clears the highest active priority and sends the EOI. -/
  | irqEoi (c : CoreId) (v : BitVec 64)
  /-- VIRQ_EOI (R268): A write to VIRQ_EOI clears the highest virtual active priority and sends the EOI. -/
  | virqEoi (c : CoreId) (v : BitVec 64)
  /-- EOI_MESSAGE (R268): The distributor receives an EOI and clears ACTIVE of the source if permitted. -/
  | eoiMessage (c : CoreId)
  /-- RESIDENCY_MESSAGE (R272): The distributor learns a core's new VMID residency. -/
  | residencyMessage (c : CoreId)
  /-- OUT_MSG_WRITE (R285): A write to OUT_MSG is stored only while OUT_BUSY is 0. -/
  | outMsgWrite (by' : Sender) (n : Fin 8192) (w : Fin 16) (v : BitVec 32)
  /-- IN_MSG_WRITE (R286): A far-end write to IN_MSG is stored only while IN_FULL is 0. -/
  | inMsgWrite (by' : Sender) (n : Fin 8192) (w : Fin 16) (v : BitVec 32)
  /-- MBX_OUT_RING (R285): The tenant rings the outbound mailbox, counting and setting OUT_BUSY. -/
  | mbxOutRing (by' : Sender) (n : Fin 8192)
  /-- MBX_OUT_ACK (R285): The far end acknowledges the outbound message, clearing OUT_BUSY. -/
  | mbxOutAck (by' : Sender) (n : Fin 8192)
  /-- MBX_IN_RING (R286): The far end rings the inbound mailbox, setting IN_FULL and vector 0. -/
  | mbxInRing (by' : Sender) (n : Fin 8192)
  /-- MBX_IN_ACK (R286): The tenant acknowledges the inbound message, clearing IN_FULL. -/
  | mbxInAck (by' : Sender) (n : Fin 8192)
  /-- Q_ENABLE (R290): Writing EN 1 enables a queue if every condition holds, else sets ERR. -/
  | qEnable (by' : Sender) (n : Fin 8192) (q : Fin 64) (cfg : BitVec 32)
  /-- Q_DISABLE (R290): Writing EN 0 stops fetching and drains the queue. -/
  | qDisable (by' : Sender) (n : Fin 8192) (q : Fin 64)
  /-- Q_SQ_DB (R291): A doorbell write adds to PROD, detecting overrun. -/
  | qSqDb (by' : Sender) (n : Fin 8192) (q : Fin 64) (add : BitVec 12)
  /-- Q_CQ_HEAD_WRITE (R293): The tenant advances the completion head, freeing completion slots. -/
  | qCqHeadWrite (by' : Sender) (n : Fin 8192) (q : Fin 64) (head : BitVec 16)
  /-- SLICE_ERR_COUNT_READ (R309): Reading SLICE_ERR_COUNT returns and clears the count. -/
  | sliceErrCountRead (by' : Sender) (n : Fin 8192)
  /-- SE_ERR_COUNT_READ (R309): Reading SE_ERR_COUNT returns and clears the counts. -/
  | seErrCountRead (by' : Sender)
  /-- DESCRIPTOR_FETCH (R292): The engine fetches the next descriptor of a queue within the in-flight limits. -/
  | descriptorFetch (n : Fin 8192) (q : FetchAt)
  /-- COPY (R297): DMA copies LEN bytes from SRC to DST and completes. -/
  | copy (n : Fin 8192) (q : Fin 64) (idx : Fin 4)
  /-- FILL (R297): DMA fills DST with the 8-byte pattern and completes. -/
  | fill (n : Fin 8192) (q : Fin 64) (idx : Fin 4)
  /-- CRC (R297): DMA computes CRC-32C of the input and completes. -/
  | crc (n : Fin 8192) (q : Fin 64) (idx : Fin 4)
  /-- AES_GCM_ENCRYPT (R298): Encrypts with AES-GCM by key handle, writing ciphertext and tag. -/
  | aesGcmEncrypt (n : Fin 8192) (q : Fin 64) (idx : Fin 4)
  /-- AES_GCM_DECRYPT (R298): Decrypts with AES-GCM, zeroing output on tag failure. -/
  | aesGcmDecrypt (n : Fin 8192) (q : Fin 64) (idx : Fin 4)
  /-- SHA_256 (R298): Computes a SHA-256 digest. -/
  | sha256 (n : Fin 8192) (q : Fin 64) (idx : Fin 4)
  /-- SHA_384 (R298): Computes a SHA-384 digest. -/
  | sha384 (n : Fin 8192) (q : Fin 64) (idx : Fin 4)
  /-- SHA_512 (R298): Computes a SHA-512 digest. -/
  | sha512 (n : Fin 8192) (q : Fin 64) (idx : Fin 4)
  /-- SHA3_256 (R298): Computes a SHA3-256 digest. -/
  | sha3256 (n : Fin 8192) (q : Fin 64) (idx : Fin 4)
  /-- SHA3_384 (R298): Computes a SHA3-384 digest. -/
  | sha3384 (n : Fin 8192) (q : Fin 64) (idx : Fin 4)
  /-- SHA3_512 (R298): Computes a SHA3-512 digest. -/
  | sha3512 (n : Fin 8192) (q : Fin 64) (idx : Fin 4)
  /-- ECDSA_P384_SIGN (R298): Signs a digest with an ECDSA P-384 key handle. -/
  | ecdsaP384Sign (n : Fin 8192) (q : Fin 64) (idx : Fin 4)
  /-- ECDSA_P384_VERIFY (R298): Verifies an ECDSA P-384 signature. -/
  | ecdsaP384Verify (n : Fin 8192) (q : Fin 64) (idx : Fin 4)
  /-- ML_DSA_65_SIGN (R298): Signs a message with ML-DSA-65, retrying up to 256 attempts. -/
  | mlDsa65Sign (n : Fin 8192) (q : Fin 64) (idx : Fin 4)
  /-- ML_DSA_65_VERIFY (R298): Verifies an ML-DSA-65 signature. -/
  | mlDsa65Verify (n : Fin 8192) (q : Fin 64) (idx : Fin 4)
  /-- COMPRESS_FIXED (R299): Compresses to a raw DEFLATE stream with fixed Huffman codes. -/
  | compressFixed (n : Fin 8192) (q : Fin 64) (idx : Fin 4)
  /-- COMPRESS_DYNAMIC (R299): Compresses to a raw DEFLATE stream with dynamic Huffman codes. -/
  | compressDynamic (n : Fin 8192) (q : Fin 64) (idx : Fin 4)
  /-- DECOMPRESS (R299): Decompresses a raw DEFLATE stream. -/
  | decompress (n : Fin 8192) (q : Fin 64) (idx : Fin 4)
  /-- SEND (R300): The slice's virtual port sends a frame, optionally timestamped. -/
  | send (n : Fin 8192) (q : Fin 64) (idx : Fin 4)
  /-- POST (R300): Posts a receive buffer on the slice's virtual port. -/
  | post (n : Fin 8192) (q : Fin 64) (idx : Fin 4)
  /-- RECORD_SVC_WRITE (R301): Writes a dual-bank record durably into the other bank and commits it. -/
  | recordSvcWrite (n : Fin 8192) (q : Fin 64) (idx : Fin 4)
  /-- RECORD_SVC_READ (R301): Copies the payload of the newest valid bank. -/
  | recordSvcRead (n : Fin 8192) (q : Fin 64) (idx : Fin 4)
  /-- BW_CAP_WINDOW (R303): Each 10 µs window restarts slices' cap accounting for engine bytes. -/
  | bwCapWindow
  /-- GRANT_DRAIN_COMPLETE (R305): The last affected pre-commit descriptor completes, ending the decrease. -/
  | grantDrainComplete (n : Fin 8192)
  /-- GRANT_DRAIN_TIMEOUT (R305): After 10 ms the engine abandons undrained descriptors and sets ABANDONED. -/
  | grantDrainTimeout (n : Fin 8192)
  /-- FRAME_RECEIVE (R313): A frame received on a port is filtered, learned and forwarded or flooded. -/
  | frameReceive (p : Fin 12) (frame : List Byte) (good : Bool)
  /-- FRAME_TRANSMIT (R317): An egress port starts a frame when its gate admits it whole. -/
  | frameTransmit (p : Fin 12)
  /-- FDB_AGEING (R313): A dynamic forwarding entry ages out after FDB_AGE seconds. -/
  | fdbAgeing (vid : BitVec 12) (mac : BitVec 48)
  /-- SW_CTL_FLUSH (R313): Writing FLUSH removes every dynamic forwarding entry. -/
  | swCtlFlush (by' : Sender) (en : Bool)
  /-- QBV_BASE_HI_WRITE (R335): Writing QBV_BASE_HI commits the administrative gate list as pending. -/
  | qbvBaseHiWrite (by' : Sender) (p : Fin 12) (v : BitVec 32)
  /-- QBV_CHANGEOVER (R317): A pending gate list becomes operational at a cycle start at or after its base time. -/
  | qbvChangeover (p : Fin 12)
  /-- QBV_ENTRY_EXPIRY (R335): A gate entry's interval ends and the next entry's gate states apply. -/
  | qbvEntryExpiry (p : Fin 12)
  /-- STREAM_GATE_ENTRY_EXPIRY (R318): A Qci stream gate entry's interval ends. -/
  | streamGateEntryExpiry (g : Fin 256)
  /-- FRER_RESET_TIMEOUT (R319): A sequence recovery function resets after its timeout. -/
  | frerResetTimeout (f : Fin 512)
  /-- DUPLICATE_ENTRY_FORGET (R321): A duplicate-discard entry is forgotten after EntryForgetTime. -/
  | duplicateEntryForget (idx : Fin 2)
  /-- SUPERVISION_FRAME_SEND (R321): Fetas sends an HSR or PRP supervision frame every LifeCheckInterval. -/
  | supervisionFrameSend (idx : Fin 2)
  /-- LINK_CHANGE (R311): A port's link goes up or down, setting LINK_CHG. -/
  | linkChange (p : Fin 12) (up : Bool) (amp : Bool)
  /-- T1L_MSE_UPDATE (R312): A single-pair PHY updates its mean-square error every millisecond, dropping the link after 20 ms above limit. -/
  | t1lMseUpdate (p : Fin 2) (mse : Nat)
  /-- PTP_APPLY (R323): Writing APPLY makes staged RATE and OFFSET take effect together. -/
  | ptpApply (by' : Sender) (k : Fin 4) (v : BitVec 32)
  /-- PORT_COUNTER_READ (R311): Reading a port counter returns and clears it. -/
  | portCounterRead (by' : Sender) (p : Fin 12) (idx : Fin 8)
  /-- PCIE_OUTBOUND_WRITE (R325): A Device store to a PCIe window enters the posted queue. -/
  | pcieOutboundWrite (c : CoreId) (idx : Nat)
  /-- PCIE_OUTBOUND_READ (R325): A Device read to a PCIe window is sent as a read request. -/
  | pcieOutboundRead (c : CoreId)
  /-- PCIE_READ_COMPLETION (R325): A completion returns read data, or an error as a load bus error. -/
  | pcieReadCompletion (c : CoreId) (how : CplEnd) (data : BitVec 64)
  /-- PCIE_COMPLETION_TIMEOUT (R325): An outstanding PCIe read times out as a load bus error. -/
  | pcieCompletionTimeout (c : CoreId)
  /-- PCIE_INBOUND_REQUEST (R326): An inbound memory request is checked against the inbound windows. -/
  | pcieInboundRequest (write : Bool) (addr : BitVec 64) (len : Fin 4097) (data : List Byte) (tlp : Tlp := .good)
  /-- PCIE_MSI_WRITE (R326): An MSI or MSI-X write sets a granted message vector. -/
  | pcieMsiWrite (v : BitVec 32)
  /-- PCIE_LINK_CHANGE (R327): The PCIe link goes up or down, setting LINK_CHG. -/
  | pcieLinkChange (up : Bool) (speed : Fin 4) (width : Fin 4)
  /-- UART_TXD_WRITE (R329): A write pushes a character onto the transmit FIFO or sets TXOVR. -/
  | uartTxdWrite (by' : Sender) (u : Fin 6) (v : BitVec 8)
  /-- UART_RXD_READ (R329): A read pops one received character. -/
  | uartRxdRead (by' : Sender) (u : Fin 6)
  /-- UART_RX_CHARACTER (R329): A character is received into the FIFO with parity and framing status. -/
  | uartRxCharacter (u : Fin 6) (data : BitVec 8) (perr : Bool) (ferr : Bool)
  /-- UART_TX_CHARACTER (R330): A character finishes transmission and the next is taken from the FIFO. -/
  | uartTxCharacter (u : Fin 6)
  /-- DE_LEAD_EXPIRY (R330): The DE lead time ends and the first start bit is sent. -/
  | deLeadExpiry (u : Fin 6)
  /-- DE_TAIL_EXPIRY (R330): The DE tail time ends and DE is deasserted. -/
  | deTailExpiry (u : Fin 6)
  /-- UART_IDLE_DETECT (R331): The line stays idle for IDLE_BITS, setting IDLE. -/
  | uartIdleDetect (u : Fin 6)
  /-- CAN_TX_REQUEST (R336): Writing STATE 0b01 makes a transmit buffer pending. -/
  | canTxRequest (by' : Sender) (k : Fin 2) (b : Fin 64) (v : BitVec 32)
  /-- CAN_RX_BUFFER_FREE (R336): Writing STATE 0b00 frees a receive buffer. -/
  | canRxBufferFree (by' : Sender) (k : Fin 2) (b : Fin 64) (v : BitVec 32)
  /-- CAN_ABORT (R336): Writing ABORT aborts a pending transmit not on the bus. -/
  | canAbort (by' : Sender) (k : Fin 2) (b : Fin 64) (v : BitVec 32)
  /-- CAN_FRAME_SENT (R336): A frame is sent, setting STATE 0b10 and its timestamp. -/
  | canFrameSent (k : Fin 2) (sof : BitVec 64)
  /-- CAN_FRAME_RECEIVED (R336): A frame is filtered and stored in the lowest free receive buffer. -/
  | canFrameReceived (k : Fin 2) (ide : Bool) (rtr : Bool) (fdf : Bool) (brs : Bool) (esi : Bool) (id : BitVec 29) (dlc : Fin 16) (data : BitVec 512) (sof : BitVec 64)
  /-- CAN_BUS_ERROR (R336): A bus error updates the error counters and state. -/
  | canBusError (k : Fin 2) (tx : Bool) (heavy : Bool)
  /-- CAN_BUSOFF_RECOVERY (R336): After 128 recessive sequences the controller leaves bus-off. -/
  | canBusoffRecovery (k : Fin 2)
  /-- CAN_BUSOFF_RESTART (R336): Writing EN from 0 to 1 starts bus-off recovery with ABOR 0. -/
  | canBusoffRestart (by' : Sender) (k : Fin 2) (v : BitVec 32)
  /-- SPI_XFER_GO (R337): Writing GO asserts chip select and starts a transfer of LEN bytes. -/
  | spiXferGo (by' : Sender) (k : Fin 4) (v : BitVec 32)
  /-- SPI_BYTE (R337): One SPI byte is shifted, or SCLK held for lack of FIFO room. -/
  | spiByte (k : Fin 4) (miso : BitVec 8)
  /-- SPI_TRANSFER_DONE (R337): The last byte ends the transfer, setting DONE. -/
  | spiTransferDone (k : Fin 4)
  /-- SPI_TXD_WRITE (R337): A write pushes a byte or sets TXOVR. -/
  | spiTxdWrite (by' : Sender) (k : Fin 4) (v : BitVec 8)
  /-- SPI_RXD_READ (R337): A read pops one received byte. -/
  | spiRxdRead (by' : Sender) (k : Fin 4)
  /-- I2C_CMD_GO (R338): Writing GO starts a controller command with START and address. -/
  | i2cCmdGo (by' : Sender) (k : Fin 4) (v : BitVec 32)
  /-- I2C_COMMAND_END (R338): A controller command ends by completion, NACK or lost arbitration, setting DONE. -/
  | i2cCommandEnd (k : Fin 4) (nack : Bool) (arb : Bool)
  /-- I2C_TARGET_MATCH (R338): In target mode the own address matches, setting ADDRD. -/
  | i2cTargetMatch (k : Fin 4) (addr : Fin 1024) (a10 : Bool := false) (read : Bool := false)
  /-- I2C_BYTE (R338): One I²C byte is transferred or SCL is stretched. -/
  | i2cByte (k : Fin 4) (data : BitVec 8)
  /-- I2C_TXD_WRITE (R338): A write pushes a byte or sets TXOVR. -/
  | i2cTxdWrite (by' : Sender) (k : Fin 4) (v : BitVec 8)
  /-- I2C_RXD_READ (R338): A read pops one received byte. -/
  | i2cRxdRead (by' : Sender) (k : Fin 4)
  /-- GPIO_SET_WRITE (R339): Writing GPIO_SET sets output bits. -/
  | gpioSetWrite (by' : Sender) (k : Fin 2) (v : BitVec 32)
  /-- GPIO_CLR_WRITE (R339): Writing GPIO_CLR clears output bits. -/
  | gpioClrWrite (by' : Sender) (k : Fin 2) (v : BitVec 32)
  /-- GPIO_PIN_EDGE (R339): A pin edge or level meets its interrupt condition and sets ISTAT. -/
  | gpioPinEdge (n : Fin 64) (level : Bool)
  /-- QSPI_WINDOW_READ (R332): A read of the QSPI window issues a flash read command for the sector. -/
  | qspiWindowRead (by' : Sender) (addr : BitVec 28) (size : AccSize)
  /-- REQ_MSG_WRITE (R341): A write to REQ_MSG is stored only while REQ_BUSY is 0. -/
  | reqMsgWrite (by' : Sender) (m : Fin 8) (w : Fin 16) (v : BitVec 32)
  /-- REQ_RING (R341): H-level software rings a control mailbox, counting and setting REQ_BUSY. -/
  | reqRing (by' : Sender) (m : Fin 8)
  /-- RSP_ACK (R341): H-level software acknowledges a response, clearing RSP_FULL. -/
  | rspAck (by' : Sender) (m : Fin 8)
  /-- EVT_ACK (R341): H-level software acknowledges an event, clearing EVT_FULL. -/
  | evtAck (by' : Sender) (m : Fin 8)
  /-- REQUEST_ACCEPT (R352): Fetas copies a request and clears REQ_BUSY within 2 µs of the ring. -/
  | requestAccept (box : Nat)
  /-- RESPONSE_POST (R341): Fetas posts a ready response once RSP_FULL or IN_FULL is clear. -/
  | responsePost (box : Nat)
  /-- EVENT_POST (R350): Fetas delivers the next queued event once the event window is free. -/
  | eventPost (box : Nat)
  /-- INFO_PART (R360): Returns the ordering code, capacity, Shroud presence and versions. -/
  | infoPart
  /-- INFO_CORES (R360): Writes one entry per physical core to the descriptor. -/
  | infoCores
  /-- INFO_LIMITS (R360): Returns counts of bound slices and free pools. -/
  | infoLimits
  /-- PLAN_LOAD (R361): Verifies and stores a sail-plan container as a new generation. -/
  | planLoad
  /-- PLAN_COMMIT (R361): Arms a plan generation and trim to take effect at a tick. -/
  | planCommit
  /-- PLAN_DIGEST (R361): Returns the SHA-384 plan digest. -/
  | planDigest
  /-- PLAN_SCAN (R403): Scans every CFG_CRC and repairs drifted held units. -/
  | planScan
  /-- PLAN_CANCEL (R361): Cancels a pending commit. -/
  | planCancel
  /-- POWER_SET_MODE (R362): Requests a mode transition now or at a tick. -/
  | powerSetMode
  /-- POWER_SET_REEF (R381): Changes a quad's reef level within the mode's envelope. -/
  | powerSetReef
  /-- POWER_DOMAIN (R362): Switches a power domain on or off. -/
  | powerDomain
  /-- POWER_FURL (R384): Furls a logical core into its furl record. -/
  | powerFurl
  /-- POWER_UNFURL (R386): Unfurls a logical core from its furl record. -/
  | powerUnfurl
  /-- POWER_STATE (R362): Returns mode, reef levels, case temperature and MCLK. -/
  | powerState
  /-- SLICE_BIND (R363): Binds a slice to a PID tag with its far-end settings. -/
  | sliceBind
  /-- SLICE_UNBIND (R282): Removes a slice's grant, drains and resets its page. -/
  | sliceUnbind
  /-- SLICE_GRANT_Q (R363): Changes a slice's queue grant. -/
  | sliceGrantQ
  /-- SLICE_GRANT_V (R363): Changes a slice's vector grant. -/
  | sliceGrantV
  /-- SLICE_GRANT_BW (R363): Sets a slice's weight and cap. -/
  | sliceGrantBw
  /-- SLICE_WINDOW (R363): Sets or removes a slice buffer window. -/
  | sliceWindow
  /-- SLICE_VPORT (R363): Sets a virtual port's PVID and member VLANs. -/
  | sliceVport
  /-- SLICE_GET (R363): Returns a slice's binding and grant registers. -/
  | sliceGet
  /-- SLICE_PCIE_WINDOW (R363): Sets a PCIe inbound window. -/
  | slicePcieWindow
  /-- SLICE_PCIE_VECTORS (R363): Grants message vectors to PCIe MSI. -/
  | slicePcieVectors
  /-- TENANT_CREATE (R364): Creates a VMID with persistent-only and resume flags. -/
  | tenantCreate
  /-- TENANT_REMOVE (R364): Unbinds slices, frees cleats, erases keys and forgets a VMID. -/
  | tenantRemove
  /-- TENANT_MIGRATE (R364): Moves a logical core to a backstay or named core. -/
  | tenantMigrate
  /-- TENANT_CORE_RESET (R230): Warm-resets a logical core, flushing its buffer as UCWs, and restarts it at the boot entry. -/
  | tenantCoreReset
  /-- TENANT_CORE_RESUME (R364): Lets a core stopped by a double fault continue. -/
  | tenantCoreResume
  /-- TENANT_RESUMED_LIST (R364): Writes the resume status of each tenant to the descriptor. -/
  | tenantResumedList
  /-- TENANT_SELF (R364): Returns the calling tenant's VMID, flags and GAP_TIME. -/
  | tenantSelf
  /-- HEALTH_SUMMARY (R365): Returns the HEALTH pin state and reserve counts. -/
  | healthSummary
  /-- HEALTH_LOG (R365): Returns health-log entries from a sequence number. -/
  | healthLog
  /-- HEALTH_SELF_TEST (R365): Self-tests a retired object in mode M7. -/
  | healthSelfTest
  /-- HEALTH_RETURN (R365): Returns a tested object to service, clearing its retirement record. -/
  | healthReturn
  /-- RECORD_WRITE (R366): Writes a host record durably. -/
  | recordWrite
  /-- RECORD_READ (R366): Reads the newest valid bank of a host record. -/
  | recordRead
  /-- RECORD_DOUSE (R422): Returns the douse summary. -/
  | recordDouse
  /-- TIME_NOW (R367): Returns device time and Mast tick at one instant. -/
  | timeNow
  /-- TIME_PTP (R367): Returns a PTP clock's parameters. -/
  | timePtp
  /-- TIME_ALARM (R390): Arms or cancels a Mast alarm. -/
  | timeAlarm
  /-- TIME_PTP_CONFIG (R367): Configures a PTP clock's profile and ports. -/
  | timePtpConfig
  /-- FIRMWARE_STAGE (R507): Verifies and writes a signed image into the inactive bank. -/
  | firmwareStage
  /-- FIRMWARE_ACTIVATE (R508): Arms activation of the staged bank now or at a tick. -/
  | firmwareActivate
  /-- FIRMWARE_STATUS (R368): Returns bank versions, active banks and image hash. -/
  | firmwareStatus
  /-- FIRMWARE_FLASH (R368): Erases or programs the QSPI flash. -/
  | firmwareFlash
  /-- FIRMWARE_ROLLBACK (R508): Makes the other valid bank active. -/
  | firmwareRollback
  /-- SHROUD_STATUS (R369): Returns seal state, event counter and firmware identification. -/
  | shroudStatus
  /-- SHROUD_SEND (R369): Sends an authenticated message to the Shroud and awaits its ACK. -/
  | shroudSend
  /-- SHROUD_RECEIVE (R369): Returns a held Shroud firmware message. -/
  | shroudReceive
  /-- SHROUD_AUDIT (R369): Reads audit entries through one AUDIT_READ. -/
  | shroudAudit
  /-- TRACE_AUTHORISE (R370): Issues a trace token and writes TRC_AUTH of covered cores. -/
  | traceAuthorise
  /-- TRACE_REVOKE (R370): Withdraws a trace token at once. -/
  | traceRevoke
  /-- TRACE_LIST (R370): Lists live trace tokens. -/
  | traceList
  /-- KEY_MEM_KEY (R371): Loads a memory key slot randomly or from a wrapped key. -/
  | keyMemKey
  /-- KEY_MAP (R371): Flushes regions then changes their key-map entries. -/
  | keyMap
  /-- KEY_SLICE_KEY (R371): Loads or generates a slice key handle. -/
  | keySliceKey
  /-- KEY_ERASE (R371): Erases a memory slot or slice handle. -/
  | keyErase
  /-- KEY_PUBLIC (R371): Returns the public key of a signing handle. -/
  | keyPublic
  /-- MEMORY_STATUS (R372): Returns a memory group's status registers. -/
  | memoryStatus
  /-- MEMORY_MARK_FAILED (R372): Marks a DRAM die failed, degrading its group. -/
  | memoryMarkFailed
  /-- MEMORY_RETRAIN (R372): Retrains a memory group. -/
  | memoryRetrain
  /-- MEMORY_POISON_LIST (R372): Returns a group's poison list. -/
  | memoryPoisonList
  /-- MEMORY_MRAM (R372): Returns MRAM status and clears retry counts. -/
  | memoryMram
  /-- FETAS_RESTART (R358): Fetas restarts from ROM, reloads state, settles the journal and raises FETAS_UP. -/
  | fetasRestart (good : Bool)
  /-- WATCHDOG_EXPIRY (R396): The Fetas watchdog expires, resetting PD 2 and setting WDOG. -/
  | watchdogExpiry
  /-- WDOG_KICK (R396): Fetas writes KICK, restarting the watchdog count. -/
  | wdogKick (by' : Sender)
  /-- FETAS_LOCKSTEP_MISMATCH (R431): A Fetas lockstep mismatch restarts Fetas and counts against its reserve. -/
  | fetasLockstepMismatch
  /-- COMMIT_TICK (R400): At the commit tick every unit copies its staged values in its switch cycle. -/
  | commitTick
  /-- PLAN_SCAN_PERIODIC (R403): Every 10 s Fetas scans CFG_CRC and repairs held units. -/
  | planScanPeriodic
  /-- LOAD_LINE_GUARD (R380): Output current above the trim threshold raises a quad's set point. -/
  | loadLineGuard (q : Fin 16) (ma : Nat)
  /-- GUARD_RELEASE (R380): The guard is released after 1 ms below 90 % of the threshold. -/
  | guardRelease (q : Fin 16)
  /-- DROOP_STRETCH (R382): A droop event stretches the next CCLK cycle of the quad. -/
  | droopStretch (q : Fin 16)
  /-- JUNCTION_SENSOR_READ (R534): Every 100 µs the sensors are read and temperature estimates formed. -/
  | junctionSensorRead (tj : Int) (mw : Nat)
  /-- THROTTLE_STEP (R383): Every 10 ms at or above 145 °C Fetas lowers quads one more level. -/
  | throttleStep
  /-- THROTTLE_RELEASE_STEP (R383): Every 100 ms below 140 °C Fetas raises quads one level. -/
  | throttleReleaseStep
  /-- THERMAL_WAKE (R383): After 1 s below 125 °C the Crow's nest makes a cold wake. -/
  | thermalWake
  /-- PLL_REFERENCE_SWITCH (R431): A quad PLL missing 4 reference edges switches to its other path. -/
  | pllReferenceSwitch (q : Fin 16)
  /-- XT32_FAIL (R387): No XT32 edge for 62.5 µs switches ticks to LPO4M and sets XT_FAIL. -/
  | xt32Fail
  /-- MAST_TICK_LO_READ (R387): Reading MAST_TICK_LO latches the upper tick bits. -/
  | mastTickLoRead (by' : Sender)
  /-- WAKE_COMPARATOR (R389): A comparator condition holds through its debounce and sets OUT and WAKE_STAT. -/
  | wakeComparator (n : Fin 8) (mv : Nat := 0) (edges : Nat := 16)
  /-- ALARM_FIRE (R390): The Mast count reaches an armed alarm, which fires and disarms. -/
  | alarmFire (n : Fin 4)
  /-- UART_ACTIVITY_DETECT (R391): A low level on a UART receive pin sets the activity wake bit. -/
  | uartActivityDetect (u : Fin 6)
  /-- POWER_FAIL_WARNING (R392): VIN_SENSE or PFW_N falls for the filter time, asserting the warning. -/
  | powerFailWarning (what : PowerFail)
  /-- EARLY_POWER_WARNING (R392): VIN_SENSE below EARLY_TH raises source 306. -/
  | earlyPowerWarning (mv : Nat) (us : Nat := 16)
  /-- POWER_FAIL_RECOVERY (R392): After 64 good tick edges the warning ends and the Crow's nest may start Fetas. -/
  | powerFailRecovery (mv : Nat := 2046) (pfwHigh : Bool := true) (edges : Nat := 64)
  /-- PWR_EN_DELAY (R395): A sequence delay expires and the next PWR_EN output changes. -/
  | pwrEnDelay
  /-- HEALTH_PIN_RETURN (R433): After 10 s with every condition clear the HEALTH pin returns high. -/
  | healthPinReturn
  /-- HSR_PATH_RESERVE_EXPIRY (R431): A redundancy path lost for more than 10 s exhausts its reserve. -/
  | hsrPathReserveExpiry (idx : Fin 2)
  /-- DOUSE_SEAL (R406): The commit word of the douse record becomes durable and domains switch off. -/
  | douseSeal
  /-- RESUME_START (R415): Resumed logical cores start together at a tick edge after restore. -/
  | resumeStart (bad : BitVec 64 := 0)
  /-- BOOT_PCIE_STAGED (R493): The remote root complex writes the ready word and the ROM reads the staged images. -/
  | bootPcieStaged (img : List Byte) (man : List Byte)
  /-- BOOT_PCIE_TIMEOUT (R493): No ready word within 60 s ends the PCIe boot source. -/
  | bootPcieTimeout
  /-- BOOT_RETRY (R494): With no valid host image Fetas retries the search every 10 s. -/
  | bootRetry
  /-- FW_TRIAL_SUCCESS (R508): FETAS_UP holding 1 for 60 s ends a firmware trial in success. -/
  | fwTrialSuccess
  /-- FIRMWARE_ACTIVATE_TICK (R508): At its tick a staged bank becomes active, restarting Fetas or the host. -/
  | firmwareActivateTick
  /-- FLOOR_RAISE (R509): After 24 h without fallback Fetas raises the OTP floor. -/
  | floorRaise
  /-- RESET_N (R520): A pin reset resets every domain but PD 0 and PD 1 and restarts the boot. -/
  | resetN (ns : Nat)
  /-- PAD_HOLD_RELEASE (R521): Writing 1 to a PAD_HOLD bit releases a bank's held pads. -/
  | padHoldRelease (by' : Sender) (v : BitVec 2)
  /-- PAD_HOLD_SUPPLY_LOSS (R521): A bank supply falls, releasing held balls to Hi-Z and clearing its bit. -/
  | padHoldSupplyLoss (io33 : Bool)
  /-- MIGRATION (R426): Fetas quarantines a failed core and moves its logical core to a backstay core. -/
  | migration (what : CoreFailure := .reported)
  /-- SELF_TEST_COMPLETE (R427): The 100 µs self-test of a failed core ends, resuming or furling its logical core. -/
  | selfTestComplete (passed : Bool)
  /-- QUAD_REEF_READ (R382): Reading QUAD_REEF returns the reef state and clears DROOP. -/
  | quadReefRead (by' : Sender) (q : Fin 16)
  /-- SHROUD_RESET (R436): SHR_RST_N, low supply, watchdog or mismatch resets the Shroud to ROM. -/
  | shroudReset (cause : ShroudCause)
  /-- SHROUD_SUPPLY_LOW (R436): VDD_SHR below 3.0 V stops new eMRAM writes. -/
  | shroudSupplyLow
  /-- SHROUD_WATCHDOG_EXPIRY (R436): The Shroud watchdog expires and resets the Shroud. -/
  | shroudWatchdogExpiry
  /-- SHR_XT32_FAIL (R439): No SHR_XT32 edge for 64 µs switches to the internal oscillator with an audit entry. -/
  | shrXt32Fail
  /-- ADC_SAMPLE (R441): Enabled ADC channels take a sample into their FIFOs. -/
  | adcSample (v : BitVec 192)
  /-- ADC_DATA_READ (R441): Reading ADC_DATA pops one sample. -/
  | adcDataRead (n : Fin 8)
  /-- PULSE_EDGE (R442): An accepted pulse edge counts and timestamps. -/
  | pulseEdge (n : Fin 8) (rising : Bool) (ts : BitVec 64)
  /-- PULSE_SNAP (R443): Writing GO snapshots the named inputs in one cycle. -/
  | pulseSnap (go : BitVec 8)
  /-- MS_MESSAGE (R446): A main-to-Shroud message is copied, authenticated and passed to firmware or refused. -/
  | msMessage (w : Option (List Byte))
  /-- SHR_ACK (R446): The Shroud answers an MS message with one ACK in the SM window. -/
  | shrAck (reason : BitVec 16)
  /-- SHR_ACK_TIMEOUT (R446): Firmware not answering within 1 ms makes the engine answer 0x00FE. -/
  | shrAckTimeout
  /-- SM_MESSAGE (R448): A Shroud-to-main message is authenticated and consumed or held by Fetas. -/
  | smMessage (m : SmIn)
  /-- LINK_BEACON (R448): The port engines exchange a link beacon every 1 ms. -/
  | linkBeacon
  /-- LINK_LOSS (R448): 4 ms without a beacon clears SHR_PORT_STAT.LINK. -/
  | linkLoss
  /-- PROVISION (R449): The ROM stores the maker key hash in OTP as a counted change. -/
  | provision
  /-- LOAD (R449): The ROM writes image bytes to the inactive Shroud bank. -/
  | load
  /-- ACTIVATE (R449): The ROM verifies the inactive bank, makes it active and resets. -/
  | activate
  /-- AUDIT_READ (R449): The ROM returns up to 63 audit entries. -/
  | auditRead
  /-- SEAL_CHANGE (R450): The filtered SEAL_N changes, appending an audit entry and closing any session. -/
  | sealChange (asserted : Bool)
  /-- SEAL_OPEN (R451): Writing OPEN opens a change session when permitted. -/
  | sealOpen
  /-- SEAL_CLOSE (R452): Writing CLOSE ends the session and counts a dirty change. -/
  | sealClose
  /-- SHR_ERR_COUNT_READ (R445): Reading SHR_ERR_COUNT returns and clears the discard count. -/
  | shrErrCountRead (by' : Sender)
  /-- CTIM_CMP_WRITE (R460): Writing a compare value clears PEND and arms the compare. -/
  | ctimCmpWrite (c : CoreId) (n : Fin 2) (v : BitVec 64)
  /-- CTIM_COMPARE_FIRE (R460): Device time reaches an armed compare, setting PEND. -/
  | ctimCompareFire (c : CoreId) (n : Fin 2)
  /-- TIMER_STEP (R467): A running channel steps its count, wrapping or reversing. -/
  | timerStep (c : Fin 16)
  /-- TIMER_CAPTURE_EDGE (R469): A level change on CAPSEL captures COUNT into RISE or FALL. -/
  | timerCaptureEdge (c : Fin 16) (rising : Bool)
  /-- TMR_START (R472): Runs the channel. -/
  | tmrStart (by' : Sender) (ch : Fin 16)
  /-- TMR_STOP (R472): Halts the channel. -/
  | tmrStop (by' : Sender) (ch : Fin 16)
  /-- TMR_ZERO (R472): Sets COUNT to 0 and the direction to up. -/
  | tmrZero (by' : Sender) (ch : Fin 16)
  /-- TMR_CAPTURE (R470): Latches COUNT, RISE, FALL and status and bumps SEQ. -/
  | tmrCapture (by' : Sender) (ch : Fin 16)
  /-- TMR_GO_START (R472): Starts the named channels together. -/
  | tmrGoStart (by' : Sender) (mask : BitVec 16)
  /-- TMR_GO_STOP (R472): Stops the named channels together. -/
  | tmrGoStop (by' : Sender) (mask : BitVec 16)
  /-- TMR_RLD_COMMIT (R471): Writing the HI half commits the reload value. -/
  | tmrRldCommit (by' : Sender) (ch : Fin 16) (v : BitVec 32)
  /-- TMR_CMP_COMMIT (R471): Writing the HI half commits and arms a compare. -/
  | tmrCmpCommit (by' : Sender) (ch : Fin 16) (k : Fin 4) (v : BitVec 32)
  /-- TT_WINDOW_END (R476): At a window end the telltale updates LAST, MIN, MAX, SEQ and its threshold bit. -/
  | ttWindowEnd (m : Fin 32) (bytes : BitVec 40)
  /-- TT_CFG_WRITE (R476): Writing TT_CFG or TT_WIN while enabled abandons the window. -/
  | ttCfgWrite (by' : Sender) (m : Fin 32) (win : Bool) (v : BitVec 32)
  /-- TT_CMD_CLR (R476): Writing CLR resets MIN, MAX and SEQ. -/
  | ttCmdClr (by' : Sender) (m : Fin 32)
  /-- TRACE_IDLE_FLUSH (R481): After 1 µs without a packet the encoder sends its partial frame. -/
  | traceIdleFlush (c : CoreId)
  /-- TRACE_FRAME_ARRIVE (R484): The Halyard writes a frame into its ring or drops or holds it. -/
  | traceFrameArrive (c : CoreId)
  /-- TRACE_LOSS_NOTICE (R484): The source core learns of a dropped frame and sets LOSS. -/
  | traceLossNotice (c : CoreId)
  /-- HY_RING_RP_WRITE (R483): Software advances a ring's read pointer, freeing space. -/
  | hyRingRpWrite (by' : Sender) (r : Fin 16) (v : BitVec 32)
  /-- HY_RING_DROP_READ (R484): Reading HY_RING_DROP returns and clears the drop count. -/
  | hyRingDropRead (by' : Sender) (r : Fin 16)
  /-- TRIG_IN_EDGE (R485): An edge on a TRIG_IN pin is broadcast to every core. -/
  | trigInEdge (n : Fin 4)
  /-- TOKEN_EXPIRY (R487): A trace token's duration ends and its authorisation is withdrawn. -/
  | tokenExpiry (t : BitVec 32)
  /-- DBG_HALT (R492): Requests the core to halt at the next admitted boundary. -/
  | dbgHalt (by' : Sender) (c : CoreId)
  /-- DBG_STEP (R492): Runs one instruction then halts. -/
  | dbgStep (by' : Sender) (c : CoreId)
  /-- DBG_RESUME (R492): Resumes a halted core. -/
  | dbgResume (by' : Sender) (c : CoreId)
  /-- IDCODE (R490): Selects the IDCODE register of the TAP. -/
  | idcode
  /-- SAMPLE_PRELOAD (R490): Samples or preloads the boundary-scan chain. -/
  | samplePreload (pins : BitVec 169) (v : BitVec 169)
  /-- EXTEST (R490): Drives pins from the boundary-scan chain. -/
  | extest (pins : BitVec 169) (v : BitVec 169)
  /-- CLAMP (R490): Clamps outputs with the bypass register selected. -/
  | clamp
  /-- HIGHZ (R490): Places outputs in high impedance. -/
  | highz
  /-- DAP (R490): Performs a debug access through the 80-bit access register. -/
  | dap (v : BitVec 80)
  /-- CHALLENGE (R491): Returns a nonce and ends any open session. -/
  | challenge
  /-- RESPONSE (R491): A verified signed answer opens a Ratline session with its token. -/
  | response (b : List Byte)
  /-- BYPASS (R490): Selects the bypass register. -/
  | bypass
  /-- TRST_N (R491): The TAP reset pin ends any Ratline session. -/
  | trstN
  /-- ILLEGAL_INSTRUCTION (R48): Decoding a reserved opcode, unlisted FN or XFN, reserved RM or XIMM, a nonzero field that must be zero, or the word 0x0000_0000 raises cause 0x03 with no state change. -/
  | illegalInstruction (c : CoreId) (word : BitVec 32)
  /-- LL_SNOOP_HOLD_END (R65): 32 CCLK after an LL retires, the core stops holding back snoops to the reserved sector, and a snoop held meanwhile acts. -/
  | llSnoopHoldEnd (c : CoreId)
  /-- MESH_SELF_TEST (R40): In M7 Fetas, of its own accord, powers PD 92 down for self-test or tests west-half routers one at a time, holding each router's traffic for at most 100 µs. -/
  | meshSelfTest (east : Bool) (down : Bool)
  /-- COMPARATOR_RELEASE (R389): When a wake comparator's pin passes back beyond THRESH moved by HYST, WAKE_CMP_n.OUT returns to 0. -/
  | comparatorRelease (n : Fin 8) (mv : Nat := 0)
  /-- RESET_N_RELEASE (R520): When RESET_N rises and the recovery condition holds, the Crow's nest runs the PWR_EN sequence if in M0 and starts Fetas from ROM for a cold boot. -/
  | resetNRelease
  /-- POWER_LOSS (R524): Removing input power without a warning, or any supply out of step order, acts as RESET_N and leaves MRAM as R219 states, with the Mast state lost if VDD_MAST goes. -/
  | powerLoss (mast : Bool)
  /-- MAST_POWER_UP (R433): On power-up of VDD_MAST, PD 0 starts the Mast tick count, holds HEALTH and PWR_EN low, and waits for the recovery condition. -/
  | mastPowerUp (sel : Fin 8)
  /-- SHROUD_RESET_RELEASE (R436): On the release of Shroud reset, from SHR_RST_N rising or VDD_SHR returning, the ROM checks the banks, appends any KIND 0x04 entry and starts firmware within 100 ms. -/
  | shroudResetRelease
  /-- SHROUD_SUPPLY_RECOVERY (R436): Once VDD_SHR has stayed above 3.1 V for 1 ms, the supervisor accepts eMRAM writes again. -/
  | shroudSupplyRecovery
  deriving DecidableEq, Repr

end Sys2Proof
end

