-- ==== Sys2Proof/Decode.lean ====
section
/-! DEFINITION. Words that spell commands. The table of operations and events gives no row any bits, so no word spells a
command by the table. A Y-core's instruction word does by the formats and opcodes of chapter 2 (R46 to R77): decodeWord. -/

namespace Sys2Proof

/-- The command a word spells by the table's bits: none, for the table gives none. -/
def decodeTableWord (_nbits _w : Nat) : Option Instr := none

/-! ### Formats (R46) -/

/-- Bits [hi:lo] of an instruction word. -/
def wordBits (hi lo : Nat) (w : BitVec 32) : Nat := w.toNat / 2 ^ lo % 2 ^ (hi + 1 - lo)

def wordOp (w : BitVec 32) : Nat := wordBits 31 26 w
/-- RD of Formats A and I, RX of Format X. -/
def wordRd (w : BitVec 32) : RegNo := Fin.ofNat 32 (wordBits 25 21 w)
/-- RA of Formats A, I, S and X. -/
def wordRa (w : BitVec 32) : RegNo := Fin.ofNat 32 (wordBits 20 16 w)
/-- RB of Formats A and S. -/
def wordRb (w : BitVec 32) : RegNo := Fin.ofNat 32 (wordBits 15 11 w)
/-- RC of Format A, where it is a register. -/
def wordRc (w : BitVec 32) : RegNo := Fin.ofNat 32 (wordBits 10 6 w)
/-- RM, in the place of RC. -/
def wordRm (w : BitVec 32) : BitVec 5 := BitVec.ofNat 5 (wordBits 10 6 w)
def wordFn (w : BitVec 32) : Nat := wordBits 5 0 w
/-- IMM16 of Format I. -/
def wordImm (w : BitVec 32) : BitVec 16 := BitVec.ofNat 16 (wordBits 15 0 w)
/-- IMM16 of Format S: IMMHI above IMMLO. -/
def wordImmS (w : BitVec 32) : BitVec 16 := BitVec.ofNat 16 (wordBits 25 21 w * 2 ^ 11 + wordBits 10 0 w)
/-- RA and RB of Format B. -/
def wordBa (w : BitVec 32) : RegNo := Fin.ofNat 32 (wordBits 25 21 w)
def wordBb (w : BitVec 32) : RegNo := Fin.ofNat 32 (wordBits 20 16 w)
def wordH (w : BitVec 32) : Bool := w.getLsbD 15
def wordDisp (w : BitVec 32) : BitVec 15 := BitVec.ofNat 15 (wordBits 14 0 w)
def wordDispJ (w : BitVec 32) : BitVec 26 := BitVec.ofNat 26 (wordBits 25 0 w)
def wordXfn (w : BitVec 32) : Nat := wordBits 15 12 w
def wordXimm (w : BitVec 32) : BitVec 12 := BitVec.ofNat 12 (wordBits 11 0 w)

/-- An instruction whose fields marked 0 hold zero (R48). -/
def given (ok : Bool) (i : Instr) : Option Instr := if ok then some i else none

/-! ### Major opcodes (R49) -/

/-- ALU (R50). -/
def decodeAlu (c : CoreId) (w : BitVec 32) : Option Instr :=
  let d := wordRd w
  let a := wordRa w
  let b := wordRb w
  let two (i : Instr) : Option Instr := given (wordRc w == 0) i
  let one (i : Instr) : Option Instr := given (wordRc w == 0 && b == 0) i
  match wordFn w with
  | 0x00 => two (.add c d a b)
  | 0x01 => two (.sub c d a b)
  | 0x02 => two (.and c d a b)
  | 0x03 => two (.or c d a b)
  | 0x04 => two (.xor c d a b)
  | 0x05 => two (.sll c d a b)
  | 0x06 => two (.srl c d a b)
  | 0x07 => two (.sra c d a b)
  | 0x08 => two (.slt c d a b)
  | 0x09 => two (.sltu c d a b)
  | 0x0A => two (.seq c d a b)
  | 0x0B => two (.sne c d a b)
  | 0x0C => two (.min c d a b)
  | 0x0D => two (.max c d a b)
  | 0x0E => two (.minu c d a b)
  | 0x0F => two (.maxu c d a b)
  | 0x10 => two (.addw c d a b)
  | 0x11 => two (.sllw c d a b)
  | 0x12 => two (.srlw c d a b)
  | 0x13 => two (.sraw c d a b)
  | 0x14 => one (.clz c d a)
  | 0x15 => one (.ctz c d a)
  | 0x16 => one (.popc c d a)
  | 0x17 => some (.sel c d a b (wordRc w))
  | _ => none

/-- MULDIV (R52). -/
def decodeMulDiv (c : CoreId) (w : BitVec 32) : Option Instr :=
  let d := wordRd w
  let a := wordRa w
  let b := wordRb w
  let two (i : Instr) : Option Instr := given (wordRc w == 0) i
  match wordFn w with
  | 0x00 => two (.mul c d a b)
  | 0x01 => two (.mulh c d a b)
  | 0x02 => two (.mulhu c d a b)
  | 0x03 => two (.mulw c d a b)
  | 0x08 => two (.div c d a b)
  | 0x09 => two (.divu c d a b)
  | 0x0A => two (.rem c d a b)
  | 0x0B => two (.remu c d a b)
  | 0x0C => two (.divw c d a b)
  | 0x0D => two (.divuw c d a b)
  | _ => none

/-- A rounding mode that is not reserved (R56). -/
def rmListed (rm : BitVec 5) : Bool := decide (rm.toNat ≤ 4) || rm == 7

/-- FP (R55). -/
def decodeFp (c : CoreId) (w : BitVec 32) : Option Instr :=
  let d := wordRd w
  let a := wordRa w
  let b := wordRb w
  let m := wordRm w
  let two (i : Instr) : Option Instr := given (m == 0) i
  let one (i : Instr) : Option Instr := given (m == 0 && b == 0) i
  let twoRm (i : Instr) : Option Instr := given (rmListed m) i
  let oneRm (i : Instr) : Option Instr := given (rmListed m && b == 0) i
  match wordFn w with
  | 0x00 => twoRm (.faddS c d a b m)
  | 0x01 => twoRm (.faddD c d a b m)
  | 0x02 => twoRm (.fsubS c d a b m)
  | 0x03 => twoRm (.fsubD c d a b m)
  | 0x04 => twoRm (.fmulS c d a b m)
  | 0x05 => twoRm (.fmulD c d a b m)
  | 0x06 => twoRm (.fdivS c d a b m)
  | 0x07 => twoRm (.fdivD c d a b m)
  | 0x08 => oneRm (.fsqrtS c d a m)
  | 0x09 => oneRm (.fsqrtD c d a m)
  | 0x0A => two (.fminS c d a b)
  | 0x0B => two (.fminD c d a b)
  | 0x0C => two (.fmaxS c d a b)
  | 0x0D => two (.fmaxD c d a b)
  | 0x0E => two (.fsgnjS c d a b)
  | 0x0F => two (.fsgnjD c d a b)
  | 0x10 => two (.fsgnjnS c d a b)
  | 0x11 => two (.fsgnjnD c d a b)
  | 0x12 => two (.fsgnjxS c d a b)
  | 0x13 => two (.fsgnjxD c d a b)
  | 0x14 => two (.feqS c d a b)
  | 0x15 => two (.feqD c d a b)
  | 0x16 => two (.fltS c d a b)
  | 0x17 => two (.fltD c d a b)
  | 0x18 => two (.fleS c d a b)
  | 0x19 => two (.fleD c d a b)
  | 0x1A => one (.fclassS c d a)
  | 0x1B => one (.fclassD c d a)
  | 0x1C => oneRm (.fcvtSD c d a m)
  | 0x1D => oneRm (.fcvtDS c d a m)
  | 0x1E => oneRm (.fcvtLS c d a m)
  | 0x1F => oneRm (.fcvtLD c d a m)
  | 0x20 => oneRm (.fcvtWS c d a m)
  | 0x21 => oneRm (.fcvtWD c d a m)
  | 0x22 => oneRm (.fcvtSL c d a m)
  | 0x23 => oneRm (.fcvtDL c d a m)
  | 0x24 => oneRm (.fcvtSW c d a m)
  | 0x25 => oneRm (.fcvtDW c d a m)
  | 0x26 => one (.fmvXS c d a)
  | 0x27 => one (.fmvXD c d a)
  | 0x28 => one (.fmvSX c d a)
  | 0x29 => one (.fmvDX c d a)
  | _ => none

/-- FMA (R57). -/
def decodeFma (c : CoreId) (w : BitVec 32) : Option Instr :=
  let d := wordRd w
  let a := wordRa w
  let b := wordRb w
  let e := wordRc w
  match wordFn w with
  | 0x00 => some (.fmaddS c d a b e)
  | 0x01 => some (.fmaddD c d a b e)
  | 0x02 => some (.fmsubS c d a b e)
  | 0x03 => some (.fmsubD c d a b e)
  | 0x04 => some (.fnmaddS c d a b e)
  | 0x05 => some (.fnmaddD c d a b e)
  | 0x06 => some (.fnmsubS c d a b e)
  | 0x07 => some (.fnmsubD c d a b e)
  | _ => none

/-- ATOM (R63). -/
def decodeAtom (c : CoreId) (w : BitVec 32) : Option Instr :=
  let d := wordRd w
  let a := wordRa w
  let b := wordRb w
  let z := wordRc w == 0
  match wordFn w with
  | 0x00 => given (z && b == 0) (.llW c d a)
  | 0x01 => given (z && b == 0) (.llD c d a)
  | 0x02 => given z (.scW c d a b)
  | 0x03 => given z (.scD c d a b)
  | 0x04 => some (.casW c d a b (wordRc w))
  | 0x05 => some (.casD c d a b (wordRc w))
  | 0x06 => given z (.swapW c d a b)
  | 0x07 => given z (.swapD c d a b)
  | 0x08 => given z (.amoaddW c d a b)
  | 0x09 => given z (.amoaddD c d a b)
  | _ => none

/-- SYS (R77). -/
def decodeSys (c : CoreId) (w : BitVec 32) : Option Instr :=
  let m := wordXimm w
  let regs := wordRd w == 0 && wordRa w == 0
  let bare (i : Instr) : Option Instr := given (regs && m == 0) i
  match wordXfn w with
  | 0x0 => given regs (.syscall c m)
  | 0x1 => given regs (.hcall c m)
  | 0x2 => given regs (.brk c m)
  | 0x3 => bare (.tret c)
  | 0x4 => bare (.rsflush c)
  | 0x5 => bare (.barPred c)
  | 0x6 => bare (.clrPred c)
  | 0x7 => bare (.wfi c)
  | _ => none

/-- MEMSYS (R68). -/
def decodeMemSys (c : CoreId) (w : BitVec 32) : Option Instr :=
  let a := wordRa w
  let z := wordRd w == 0 && wordXimm w == 0
  let bare (i : Instr) : Option Instr := given (z && a == 0) i
  match wordXfn w with
  | 0x0 => bare (.fence c)
  | 0x1 => bare (.fenceSl c)
  | 0x2 => bare (.fenceIo c)
  | 0x3 => bare (.fenceI c)
  | 0x4 => bare (.lsync c)
  | 0x5 => bare (.psync c)
  | 0x6 => given z (.zline c a)
  | 0x7 => given z (.clean c a)
  | 0x8 => given z (.inval c a)
  | 0x9 => given z (.flush c a)
  | 0xA => given z (.cleanSw c a)
  | 0xB => given z (.invalSw c a)
  | 0xC => given z (.flushSw c a)
  | _ => none

/-- The flags of an invalidation are permitted (R74). op: 0 TLBI, 1 SLBI, 2 WCINV. -/
def invalFlagsOk (op : Nat) (fl : BitVec 12) : Bool :=
  let scope := fl.toNat % 8
  let g := fl.getLsbD 3
  let st := fl.getLsbD 4
  let w := fl.getLsbD 5
  fl.toNat < 128 &&
  match op with
  | 0 => (if st then scope == 0 || scope == 1 || scope == 3 else scope ≤ 4) && (!g || (scope == 2 || scope == 4))
  | 1 => !st && !w && scope ≤ 3 && (!g || scope == 2 || scope == 3)
  | _ => !st && !w && !g && scope ≤ 1

/-- TLB (R73, R74). -/
def decodeTlb (c : CoreId) (w : BitVec 32) : Option Instr :=
  let x := wordRd w
  let a := wordRa w
  let m := wordXimm w
  match wordXfn w with
  | 0x0 => given (invalFlagsOk 0 m) (.tlbi c x a m)
  | 0x1 => given (invalFlagsOk 1 m) (.slbi c x a m)
  | 0x2 => given (invalFlagsOk 2 m && a == 0) (.wcinv c x m)
  | 0x3 => given (x == 0 && a == 0 && m == 0) (.tlbsync c)
  | _ => none

/-- SREG (R77). -/
def decodeSreg (c : CoreId) (w : BitVec 32) : Option Instr :=
  let x := wordRd w
  let a := wordRa w
  let m := wordXimm w
  match wordXfn w with
  | 0x0 => given (a == 0) (.mfs c x m)
  | 0x1 => given (x == 0) (.mts c a m)
  | 0x2 => some (.msset c x a m)
  | 0x3 => some (.msclr c x a m)
  | _ => none

/-- A shift immediate: IMM16[15:6] is zero (R49). -/
def wordSh (w : BitVec 32) (i : BitVec 6 → Instr) : Option Instr :=
  given (wordBits 15 6 w == 0) (i (BitVec.ofNat 6 (wordBits 5 0 w)))

/-- The instruction that a word is when a core executes it, by the major-opcode map; none for an illegal word (R48, R49). -/
def decodeWord (c : CoreId) (w : BitVec 32) : Option Instr :=
  let d := wordRd w
  let a := wordRa w
  let b := wordRb w
  let imm := wordImm w
  let immS := wordImmS w
  let br (i : CoreId → RegNo → RegNo → Bool → BitVec 15 → Instr) : Option Instr :=
    some (i c (wordBa w) (wordBb w) (wordH w) (wordDisp w))
  match wordOp w with
  | 0x01 => decodeAlu c w
  | 0x02 => decodeMulDiv c w
  | 0x03 => decodeFp c w
  | 0x04 => decodeFma c w
  | 0x05 => decodeAtom c w
  | 0x08 => some (.addi c d a imm)
  | 0x09 => some (.andi c d a imm)
  | 0x0A => some (.ori c d a imm)
  | 0x0B => some (.xori c d a imm)
  | 0x0C => some (.slti c d a imm)
  | 0x0D => some (.sltiu c d a imm)
  | 0x0E => given (a == 0) (.lui c d imm)
  | 0x0F => given (a == 0) (.auipc c d imm)
  | 0x10 => wordSh w (.slli c d a)
  | 0x11 => wordSh w (.srli c d a)
  | 0x12 => wordSh w (.srai c d a)
  | 0x13 => some (.addiw c d a imm)
  | 0x18 => some (.lb c d a imm)
  | 0x19 => some (.lbu c d a imm)
  | 0x1A => some (.lh c d a imm)
  | 0x1B => some (.lhu c d a imm)
  | 0x1C => some (.lw c d a imm)
  | 0x1D => some (.lwu c d a imm)
  | 0x1E => some (.ld c d a imm)
  | 0x1F => some (.flw c d a imm)
  | 0x20 => some (.fld c d a imm)
  | 0x21 => some (.sb c b a immS)
  | 0x22 => some (.sh c b a immS)
  | 0x23 => some (.sw c b a immS)
  | 0x24 => some (.sd c b a immS)
  | 0x25 => some (.fsw c b a immS)
  | 0x26 => some (.fsd c b a immS)
  | 0x28 => br .beq
  | 0x29 => br .bne
  | 0x2A => br .blt
  | 0x2B => br .bge
  | 0x2C => br .bltu
  | 0x2D => br .bgeu
  | 0x2E => some (.j c (wordDispJ w))
  | 0x2F => some (.jal c (wordDispJ w))
  | 0x30 => some (.jalr c d a imm)
  | 0x31 => some (.prefetch c d a imm)
  | 0x3C => decodeSys c w
  | 0x3D => decodeMemSys c w
  | 0x3E => decodeTlb c w
  | 0x3F => decodeSreg c w
  | _ => none

end Sys2Proof
end

