-- ==== Sys2Proof/Machine/SMap.lean ====
section
/-! DEFINITION. Sparse maps by number in one canonical form: keys strictly rising, and no entry equal to the value an
unlisted key has. Memory, register files, cleats, cores and caches are such maps. -/

namespace Sys2Proof.Machine

/-- A sparse map: key and value pairs, keys strictly rising. -/
abbrev SMap (α : Type) := List (Nat × α)

/-- The listed value of a key, if it is listed. -/
def SMap.find {α : Type} (k : Nat) : SMap α → Option α
  | [] => none
  | (j, v) :: m => if j = k then some v else SMap.find k m

/-- The value of a key; an unlisted key has the value d. -/
def SMap.get {α : Type} (d : α) (m : SMap α) (k : Nat) : α := (SMap.find k m).getD d

/-- Put an entry in its place, replacing the one the key has. -/
def SMap.insert {α : Type} (k : Nat) (v : α) : SMap α → SMap α
  | [] => [(k, v)]
  | (j, w) :: m => if k < j then (k, v) :: (j, w) :: m else if j = k then (k, v) :: m else (j, w) :: SMap.insert k v m

/-- Take a key out of the list. -/
def SMap.erase {α : Type} (k : Nat) : SMap α → SMap α
  | [] => []
  | (j, w) :: m => if j = k then SMap.erase k m else (j, w) :: SMap.erase k m

/-- Write a key: writing the value d of an unlisted key removes the entry. -/
def SMap.set {α : Type} [DecidableEq α] (d : α) (m : SMap α) (k : Nat) (v : α) : SMap α :=
  if v = d then SMap.erase k m else SMap.insert k v m

/-- The keys rise strictly, all above the bound. -/
def SMap.rising {α : Type} : Option Nat → SMap α → Bool
  | _, [] => true
  | b, (j, _) :: m => (match b with | none => true | some a => decide (a < j)) && SMap.rising (some j) m

/-- The canonical form for the default d. -/
def SMap.wf {α : Type} [DecidableEq α] (d : α) (m : SMap α) : Bool :=
  SMap.rising none m && m.all fun e => decide (e.2 ≠ d)

end Sys2Proof.Machine
end

