-- ==== Sys2Proof/Machine/StateCore.lean ====
section
/-! DEFINITION. The state of a Y-core, of a cache and of the coherence protocol, as plain data (chapters 2 to 8). -/

namespace Sys2Proof.Machine

/-- The privilege levels (R124); H is the highest. -/
inductive Level where
  | u | k | h
  deriving DecidableEq, Repr

/-- STATUS.LEVEL of a level (R124). -/
def Level.toNat : Level → Nat
  | .u => 0
  | .k => 1
  | .h => 2

/-- Memory types (R158), from the weakest to the strongest. -/
inductive MType where
  | normal | persistent | uncached | device
  deriving DecidableEq, Repr

/-- Why a core is stopped without being off (R100, R139, R199, R384, R492). -/
inductive StopReason where
  /-- a stacking fault on entry to H (R139) -/
  | doubleFault
  /-- an uncorrectable check of the core (R100, R199) -/
  | machineCheck
  /-- stopped by Fetas: quarantine, capture, douse or reset (R229) -/
  | fetas
  deriving DecidableEq, Repr

/-- What a core is doing at an instruction boundary. -/
inductive CoreRun where
  /-- the domain PD 3 + c is off (R37) -/
  | off
  | running
  /-- issue stopped by WFI (R275) -/
  | wfi
  /-- halted by a debug request (R492) -/
  | halted
  | stopped (r : StopReason)
  deriving DecidableEq, Repr

/-- MOESI states of a sector in L1D and L2 (R175); L1I uses i and s. -/
inductive CSt where
  | i | s | e | o | m
  deriving DecidableEq, Repr

/-- Directory states of a sector at its home (R184). -/
inductive DirSt where
  | u | s | x | o
  deriving DecidableEq, Repr

/-- One 64-byte sector of a frame (R175). L1 uses st, data and poison; L2 also dv and pres (its L1Ds); L3 uses dv,
dirty, data, poison and the directory: dir, owner and pres (quads). -/
structure Sec where
  st : CSt := .i
  dv : Bool := false
  dirty : Bool := false
  poison : Bool := false
  data : BitVec 512 := 0
  pres : BitVec 16 := 0
  dir : DirSt := .u
  owner : Nat := 0
  deriving DecidableEq, Repr

/-- A resident block: its number (address divided by the block size) and its sectors (R175). -/
structure Frame where
  block : Nat
  secs : SMap Sec := []
  deriving DecidableEq, Repr

/-- A cache instance: frames by set and way (unlisted: free), its LFSR (R178), retired and suspect frames (R201) and
the end of reset invalidation (R198). -/
structure Cache where
  frames : SMap (Option Frame) := []
  lfsr : BitVec 16 := 1
  retired : List Nat := []
  suspects : List Nat := []
  ready : Bool := false
  deriving DecidableEq, Repr

/-- A valid segment descriptor (R151) as the look-aside buffer holds it. -/
structure Desc where
  base : Nat
  limit : Nat
  ua : Bool
  x : Bool
  w : Bool
  r : Bool
  psc : Nat
  mt : MType
  g : Bool
  deriving DecidableEq, Repr

/-- A segment look-aside entry (R167). -/
structure SlbEntry where
  vmid : Nat
  asid : Nat
  seg : Nat
  d : Desc
  deriving DecidableEq, Repr

/-- A leaf in a TLB (R167): a host or combined leaf (stage 1), or an H-stage leaf. -/
structure TlbEntry where
  hstage : Bool
  vmid : Nat
  asid : Nat
  g : Bool
  /-- first address mapped, log2 of the size, and the physical address it maps to -/
  va : Nat
  lg : Nat
  pa : Nat
  /-- guest physical address of the page, for a combined entry -/
  gpa : Nat
  ua : Bool
  x : Bool
  w : Bool
  r : Bool
  /-- H-stage rights; all true without an H stage -/
  hx : Bool
  hw : Bool
  hr : Bool
  mto : Bool
  mt : MType
  /-- H-stage type; normal without an H stage -/
  hmt : MType
  /-- D of stage 1 and of the H stage (R168) -/
  d : Bool
  hd : Bool
  deriving DecidableEq, Repr

/-- A walk-cache pointer to the table of level lvl (R160). -/
structure WcEntry where
  hstage : Bool
  vmid : Nat
  asid : Nat
  /-- level of the table pointed to, and the address bits above what that table indexes -/
  lvl : Nat
  pfx : Nat
  addr : Nat
  deriving DecidableEq, Repr

/-- A store-buffer or frame-buffer entry (R209): 1 to 8 bytes in one sector, or 64 for ZLINE. -/
structure StoreEntry where
  pa : Nat
  size : Nat
  data : BitVec 64
  typ : MType
  lvl : Level
  pid : BitVec 29
  cls : Nat
  /-- a ZLINE whose grant has arrived: the sector was zeroed then (R193) -/
  zeroed : Bool := false
  deriving DecidableEq, Repr

/-- The load instructions (R58). -/
inductive LoadKind where
  | lb | lbu | lh | lhu | lw | lwu | ld | flw | fld
  deriving DecidableEq, Repr

/-- A Device or PCI Express load that was sent and awaits its response (R213). -/
structure DevLoad where
  kind : LoadKind
  rd : Fin 32
  pa : Nat
  size : Nat
  ea : Word
  lvl : Level
  pid : BitVec 29
  deriving DecidableEq, Repr

/-- The long operation in flight (R84): where it writes, what, and the flags it raises at its end. -/
structure LongOp where
  fp : Bool
  fn : Nat
  rd : Fin 32
  result : Word
  flags : BitVec 6
  pc : Word
  deriving DecidableEq, Repr

/-- An invalidation of translation entries (R74). op: 0 TLBI, 1 SLBI, 2 WCINV. -/
structure Inval where
  op : Nat
  scope : Nat
  g : Bool
  s : Bool
  w : Bool
  vmid : Nat
  asid : Nat
  addr : Word
  deriving DecidableEq, Repr

/-- An offer of the distributor held by a core (R265). -/
structure Offer where
  src : Nat
  pri : Nat
  /-- the VMID of a virtual offer -/
  vmid : Nat := 0
  deriving DecidableEq, Repr

/-- A 64-byte trace frame (R481): its sequence number, the LOSS mark and its packet bytes, at most 60. -/
structure TraceFrame where
  source : Nat
  seq : Nat
  loss : Bool
  body : List Byte
  deriving DecidableEq, Repr

/-- The trace encoder of a core (R478 to R481): packet bytes not yet framed, the open BR packet (oldest outcome first),
the addresses and the time against which packets are compressed, the bytes since the last SYNC, and the frames that
wait to be sent. -/
structure Tracer where
  buf : List Byte := []
  br : List Bool := []
  lastAddr : Word := 0
  lastData : Word := 0
  lastTime : Nat := 0
  since : Nat := 0
  syncOwed : Bool := false
  /-- SYNC is owed at the start of the next frame (R484) -/
  syncFrame : Bool := false
  seq : Nat := 0
  lossMark : Bool := false
  excluded : Bool := false
  /-- PID tag and level of the last CTX or SYNC -/
  ctx : Nat := 0
  /-- comparators made true since the sequencer was last evaluated (R485) -/
  hits : BitVec 8 := 0
  /-- cause 0x45 is pending (R485) -/
  irq : Bool := false
  /-- a frame was dropped and the core has not been told yet (R484) -/
  noticeDue : Bool := false
  frames : List TraceFrame := []
  deriving DecidableEq, Repr

/-- A Y-core (R41 and the chapters named at each field). An unlisted G, F or system register has its reset value. -/
structure Core where
  run : CoreRun := .off
  g : SMap Word := []
  f : SMap Word := []
  pc : Word := 0
  /-- stack pointer of H; those of U and K are the system registers SP_U and SP_K (R43) -/
  spH : Word := 0
  /-- LL reservation: the reserved sector (R64) -/
  resv : Option Nat := none
  /-- sector whose snoops are held back (R65) -/
  hold : Option Nat := none
  /-- return stack, youngest first, at most 8 (R60) -/
  rstack : List Word := []
  sys : SMap Word := []
  /-- store buffer, oldest first (R115) -/
  sb : List StoreEntry := []
  /-- Device stores injected and not yet acknowledged (R214) -/
  devOut : List StoreEntry := []
  /-- an Uncached store at the head that was sent to its home (R216) -/
  ucwSent : Bool := false
  /-- fill slots (R105, R114): the sector a load waits for and the PC of that load, the sector the store head waits for,
  those of prefetches with whether ownership was asked for, and the one that fetch waits for -/
  ldWait : Option Nat := none
  ldPc : Word := 0
  stWait : Option Nat := none
  pfWait : List (Nat × Bool) := []
  ifWait : Option Nat := none
  /-- frame buffer (R137) -/
  frame : List StoreEntry := []
  long : Option LongOp := none
  /-- a long operation that has written its result and whose deferred fault is still to be taken (R89) -/
  owed : Option LongOp := none
  /-- sequential fetch has gone beyond the last OFFSET of the segment (R150) -/
  seqEnd : Bool := false
  devLoad : Option DevLoad := none
  /-- a single-step trap is owed at this boundary; and the frames stacked while one was owed, which owe it again after
  their TRET (R146) -/
  stepDue : Bool := false
  stepFrames : List (Level × Word) := []
  /-- halted in a WFI that has not completed (R275, R492) -/
  inWfi : Bool := false
  /-- a machine check that Fetas returned to the core (R128) -/
  mcheck : Bool := false
  /-- a debug halt is requested and waits for an admitted boundary (R492) -/
  haltReq : Bool := false
  l1i : Cache := {}
  l1d : Cache := {}
  slb : SMap (Option SlbEntry) := []
  itlb : SMap (Option TlbEntry) := []
  dtlb : SMap (Option TlbEntry) := []
  l2tlb : SMap (Option TlbEntry) := []
  wc : SMap (Option WcEntry) := []
  slbSeed : BitVec 16 := 1
  itlbSeed : BitVec 16 := 1
  dtlbSeed : BitVec 16 := 1
  l2tlbSeed : BitVec 16 := 1
  wcSeed : BitVec 16 := 1
  /-- MRAM sectors this core wrote or cleaned and has not made durable (R68) -/
  mramOpen : List Nat := []
  /-- physical and virtual offers held (R265, R272) -/
  offer : Option Offer := none
  voffer : Option Offer := none
  /-- armed state of the compare timers (R460) -/
  armed0 : Bool := false
  armed1 : Bool := false
  trace : Tracer := {}
  deriving DecidableEq, Repr

/-- An eviction-buffer entry (R189): the victim block, the sectors it still holds, the dirty sectors its WBREQ named,
and the clean ones that a reclaim took back (R190). live: the write-back of a set/way operation, whose block stays in
the L2 (R196). -/
structure Evict where
  block : Nat
  secs : SMap Sec
  named : List Nat
  back : List Nat := []
  live : Bool := false
  deriving DecidableEq, Repr


/-- The requests and answers of the protocol (R184). -/
inductive MsgKind where
  | rd | rfo | upg | zreq | wbreq | evc | cln | inv | fls | ucr | ucw
  | snpS | snpI | snpIdiscard | snpC
  | wbgo | grant | done
  | ack | miss | wbcancel | data
  /-- the home's own work on a block: the eviction of a frame (R187), the reclaim of a counted sector (R258) -/
  | evict | reclaim
  deriving DecidableEq, Repr

/-- A packet in flight between a quad (0 to 15), or a unit (16: I/O, 17: trace, 18: Fetas), and a home. -/
structure Msg where
  kind : MsgKind
  /-- the quad or unit concerned, as sender or receiver -/
  quad : Nat
  /-- true when it travels to the home -/
  toHome : Bool
  /-- sector number: physical address divided by 64 -/
  sec : Nat
  cls : Nat := 0
  /-- sector data, for data and UCW -/
  data : BitVec 512 := 0
  /-- byte mask of a UCW; all ones in the grant of a ZREQ -/
  mask : BitVec 64 := 0
  /-- the data is dirty with its sender, or makes its receiver M -/
  dirty : Bool := false
  poison : Bool := false
  /-- the receiver gets E or M, not S; of a UCW and its answer: the compare failed; of a WBREQ: its sender keeps the
  block, clean (R196) -/
  excl : Bool := false
  /-- masks of dirty and clean sectors of a victim block (WBREQ); of a WBGO: the sectors that its sender shares with no
  other quad -/
  dmask : BitVec 4 := 0
  cmask : BitVec 4 := 0
  /-- data that answers a UCR, which leaves no copy (R188) -/
  uc : Bool := false
  /-- who made a request, for its answer: core c (an uncached access or a ZREQ), 64 nobody who waits for it, 65 a unit,
  128 + c the walker of core c (R163), 192 + c a maintenance instruction of core c (R194), 256 + c a Device access of
  core c (R188) -/
  core : Nat := 64
  /-- a UCW that acts only where the sector holds these bytes under its mask: compare-and-set (R163) -/
  expect : Option (BitVec 512) := none
  /-- the PID tag a request carries (R166, R281) -/
  pid : BitVec 29 := 0
  deriving DecidableEq, Repr

/-- A quad: its L2 and eviction buffer (R174, R189), and the data and grants it has accepted whose sector waits for a
frame, or for the hold of an LL (R22, R65). -/
structure Quad where
  l2 : Cache := {}
  evict : List Evict := []
  fills : List Msg := []
  deriving DecidableEq, Repr

/-- The home's transaction for a block (R186): the request; the answers it awaits, by sector and quad; the quads that
answered MISS; the data a snoop has returned; for WBREQ the dirty sectors awaited and the clean ones cancelled; the
frame it has chosen and waits for (R187); whether it waits for its quota (R258), or for an access of its block that is
under way in a memory group (R237); and the MRAM writes it waits for, to be accepted or, for a reclaim, durable (R252). -/
structure Trans where
  req : Msg
  snoops : List (Nat × Nat) := []
  missed : List Nat := []
  got : Option Msg := none
  wbAwait : List Nat := []
  kept : List Nat := []
  frame : Option Nat := none
  quota : Bool := false
  fill : Bool := false
  ids : List Nat := []
  deriving DecidableEq, Repr

/-- A home slice: L3 with its directory, transactions in progress, requests that wait, and the order in which dirty
MRAM sectors of each die were counted (R257, R258). -/
structure Home where
  l3 : Cache := {}
  trans : List Trans := []
  waiting : List Msg := []
  pdq : SMap (List Nat) := []
  deriving DecidableEq, Repr

/-- What the complex reports to Fetas, for Fetas to act on (R100, R139, R199, R202). -/
inductive Report where
  | machineCheck (core : Nat)
  | doubleFault (core : Nat)
  /-- a check of a unit that no core carries, by its mesh stop: an L3 slice (R199), the slice engine (R308) -/
  | unitCheck (stop : Nat)
  /-- a compare mismatch of a stayed pair that comes again, by its lead (R429) -/
  | pairCheck (lead : Nat)
  deriving DecidableEq, Repr

/-- What the distributor sends to a core (R265), and what a core sends back (R267, R268, R272). -/
inductive DistMsg where
  | offer (virt : Bool) (o : Offer)
  | withdraw (virt : Bool)
  | accept (virt : Bool) (src : Nat)
  | decline (src : Nat)
  /-- after: how many older Device stores of the core to the distributor's unit block it follows still (R268) -/
  | eoi (virt : Bool) (vmid src after : Nat)
  | residency (vmid : Option Nat)
  deriving DecidableEq, Repr

/-- The interrupt distributor, beside its registers (R262 to R273): the messages between it and the cores, each pair's
in order (R23); what each core was last offered; each core's residency as the distributor knows it; and the VMIDs
whose doorbell flag is set. -/
structure Dist where
  toCore : List (Nat × DistMsg) := []
  toDist : List (Nat × DistMsg) := []
  sent : SMap (Option Offer) := []
  vsent : SMap (Option Offer) := []
  resident : SMap (Option Nat) := []
  doorbells : List Nat := []
  /-- virtual candidates whose VMID is resident nowhere, each with that VMID, that the doorbell has taken note of (R273) -/
  noted : List (Nat × Nat) := []
  deriving DecidableEq, Repr

/-- The requests a cleat takes, in the order of a window (R223). -/
inductive CleatOp where
  | force | give | take
  deriving DecidableEq, Repr

/-- A request to the cleat unit (R221 to R225): the requester's arbitration ID and its FETAS bit and PID tag, as the
OWNER fields hold them. -/
structure CleatReq where
  op : CleatOp
  n : Nat
  id : Nat
  owner : BitVec 30
  deriving DecidableEq, Repr

/-- The cleat unit beside its registers: arbitration pointers, the requests of the current window, and the answers to
takes that their senders have not yet read (ID, cleat, value). -/
structure Cleats where
  ptr : SMap Nat := []
  reqs : List CleatReq := []
  answers : List (Nat × Nat × Word) := []
  deriving DecidableEq, Repr

/-- The memory-group controllers beside their registers (R232 to R249). -/
structure Dram where
  /-- groups with a second failed die, and that die (R239) -/
  failed : List Nat := []
  second : SMap Nat := []
  /-- blocks requested and not yet returned, oldest first (R233) -/
  reads : List Nat := []
  /-- sectors of the block that an access returns just now, as they were decoded: number, data, poison (R237) -/
  back : List (Nat × BitVec 512 × Bool) := []
  /-- wrong bits of MRAM sectors, as they were last read or written (R253, R254) -/
  mrErrs : SMap Nat := []
  /-- data rate a group is to change to, and the device time since which the case estimate has been at or below 95 °C
  (R235) -/
  ratePend : SMap (Option Nat) := []
  coolSince : Option Nat := none
  /-- a group's channels are to use the hot/loaded set; the busy share of its buses as last measured (R243) -/
  hot : SMap Bool := []
  busy : SMap Nat := []
  /-- timing values by channel, set, data rate and direction (R243, R244), as trainKey numbers them -/
  timing : SMap Word := []
  /-- device times of a group's corrected errors within the last 10 ms (R245) -/
  ceTimes : SMap (List Nat) := []
  /-- channel indexes of a group still to be retrained (R245) -/
  retrain : SMap (List Nat) := []
  /-- drift-tracking windows of a group since its power-up (R372) -/
  windows : SMap Nat := []
  /-- corrected errors of the current scrub pass: channel, bank, row, block (R248) -/
  scrubHits : List (Nat × Nat × Nat × Nat) := []
  /-- spare rows used, by channel * 16 + bank; rows redirected: channel, bank, row -/
  sparesUsed : SMap Nat := []
  spared : List (Nat × Nat × Nat) := []
  /-- the key a sector was last written under, 0 for none, and the key in each slot (log entry 23) -/
  writtenKey : SMap Nat := []
  slotKey : SMap (Option Nat) := []
  keyNext : Nat := 8192
  /-- the identity of the key of slot 0, for slots with no key of their own -/
  keyBase : Nat := 0
  deriving DecidableEq, Repr

/-- A requester of a unit register or a memory location (R11, R166). -/
inductive Who where
  | core (c : Fin 64) (l : Level) (pid : BitVec 29)
  | fetas
  | unit (stop : Nat)
  /-- the DAP of an open Ratline session -/
  | dap
  /-- the PCI Express side, which reaches a slice page under the PID tag that the slice is bound to (R327; log entry 98) -/
  | far (pid : BitVec 29)
  deriving DecidableEq, Repr

end Sys2Proof.Machine
end

