-- ==== Sys2Proof/Machine/StateUnits.lean ====
section
/-! DEFINITION. The state of the units beside their registers, as plain data: the slice engine (chapter 11) and the
units of the later chapters. -/

namespace Sys2Proof.Machine

/-! ### Slice engine (chapter 11) -/

/-- A buffer window as a descriptor was fetched under it (R288). -/
structure Win where
  iova : Nat
  size : Nat
  pa : Nat
  r : Bool
  w : Bool
  deriving DecidableEq, Repr

/-- What a descriptor completes with (R296). -/
structure Cpl where
  status : Nat
  outLen : Nat := 0
  result : Word := 0
  deriving DecidableEq, Repr

/-- A fetched descriptor that has not completed (R292, R295). -/
structure Job where
  id : Nat
  slice : Nat
  q : Nat
  svc : Nat
  op : Nat
  tag : Nat
  silent : Bool
  irq : Bool
  fence : Bool
  len : Nat
  src : Nat
  dst : Nat
  dstLen : Nat
  auxLen : Nat
  aux : Nat
  key : Nat
  param : BitVec 128
  /-- a reserved bit or byte is set -/
  rsv : Bool
  wins : List Win
  /-- source of the queue's vector, when it is granted (R294) -/
  vec : Option Nat
  /-- the buffer of a POST is posted (R300) -/
  posted : Bool := false
  result : Option Cpl := none
  /-- accepted MRAM writes that must be durable before the next stage (R289, R301) -/
  waits : List Nat := []
  /-- the commit word still to be written, and where (R301) -/
  commit : Option (Nat × Nat) := none
  deriving DecidableEq, Repr

/-- A slice key (R298). -/
inductive SliceKey where
  | aes (k : List Byte)
  | ecdsa (d : Nat)
  | mldsa (sk : List Byte)
  deriving DecidableEq, Repr

/-- A grant decrease that drains (R305): the slice, the descriptors it waits for, the queues and sources it removes, and
the mailbox request it answers (none: unanswered). -/
structure Drain where
  slice : Nat
  jobs : List Nat
  queues : List Nat
  vecs : List Nat
  req : Option Nat
  /-- device time of the commit point -/
  start : Nat := 0
  /-- the removal of the whole grant of an unbinding: the page resets at its end (R282) -/
  unbind : Bool := false
  deriving DecidableEq, Repr

/-- The slice engine beside its pages. -/
structure SliceEng where
  jobs : List Job := []
  jobNext : Nat := 0
  /-- keys by slice * 16 + handle -/
  keys : SMap (Option SliceKey) := []
  drains : List Drain := []
  /-- credit of a slice at an engine, and its engine bytes in the current window, by engine * 8192 + slice (R303) -/
  credit : SMap Int := []
  used : SMap Nat := []
  /-- a douse has begun: no descriptor is fetched (R310) -/
  stopped : Bool := false
  deriving DecidableEq, Repr

/-! ### Switch (chapter 12) -/

/-- A frame inside the switch, without its FCS: addresses, the tag it carries (PCP, VID), the bytes from its EtherType
on, the port it came from and its receive stamp (R322). -/
structure Eth where
  dst : Nat
  src : Nat
  tag : Option (Nat × Nat)
  body : List Byte
  rx : Nat
  stamp : Nat
  /-- drop eligible indicator of the tag, or a mark given inside the switch -/
  dei : Bool := false
  deriving DecidableEq, Repr

/-- A forwarding entry (R313): static ones come from the plan's tables; age: device time of the latest learn. -/
structure Fdb where
  vid : Nat
  mac : Nat
  port : Nat
  static : Bool := false
  age : Nat := 0
  deriving DecidableEq, Repr

/-- A gate control list (R335). -/
structure GateList where
  entries : List (BitVec 8 × Nat)
  cycle : Nat
  base : Nat
  deriving DecidableEq, Repr

/-- The gate lists of a port: pending and operational, the entry in force, and the start of the current cycle; since: device
time of the commit or of EN, whichever was later. -/
structure Qbv where
  pend : Option GateList := none
  since : Nat := 0
  oper : Option GateList := none
  cur : Nat := 0
  start : Nat := 0
  deriving DecidableEq, Repr

/-- Stream identification (R318): null (destination and VLAN) or source MAC with VLAN. -/
structure StreamId where
  bySource : Bool
  mac : Nat
  vid : Nat
  deriving DecidableEq, Repr

/-- A stream filter: port (none: every external port), stream, priority, gate, meter, longest frame. -/
structure StreamFilter where
  port : Option Nat
  id : StreamId
  pcp : Option Nat
  gate : Option Nat
  meter : Option Nat
  maxLen : Option Nat
  deriving DecidableEq, Repr

/-- A stream gate: its list of open states and intervals. -/
structure StreamGate where
  entries : List (Bool × Nat)
  deriving DecidableEq, Repr

/-- A two-rate three-colour flow meter: rates in bit/s, bursts in bytes. -/
structure Meter where
  cir : Nat
  cbs : Nat
  eir : Nat
  ebs : Nat
  /-- coupling flag: committed credit that overflows becomes excess credit -/
  cf : Bool := false
  /-- colour-aware: a drop-eligible frame comes in yellow -/
  cm : Bool := false
  dropYellow : Bool := false
  /-- after one red frame every frame is red -/
  allRed : Bool := false
  deriving DecidableEq, Repr

/-- FRER functions (R319): the streams whose frames get sequence numbers and the ports they are replicated onto, and the
streams whose sequences are recovered at a port. -/
structure FrerGen where
  id : StreamId
  ports : List Nat
  deriving DecidableEq, Repr

/-- history: 2 to 32; timeout in ms. -/
structure FrerRec where
  id : StreamId
  history : Nat
  timeout : Nat
  deriving DecidableEq, Repr

/-- The tables of the switch that the sail plan loads and whose layout the spec does not give (R313 to R319). -/
structure SwTables where
  /-- external member ports and untag set of a VID -/
  members : List (Nat × List Nat) := []
  untag : List (Nat × List Nat) := []
  /-- static forwarding entries: VID, address, port -/
  statics : List (Nat × Nat × Nat) := []
  /-- bytes of frame memory of port * 8 + class -/
  shares : List (Nat × Nat) := []
  /-- bytes of frame memory of a port -/
  portShares : List (Nat × Nat) := []
  filters : List StreamFilter := []
  gates : List StreamGate := []
  meters : List Meter := []
  gens : List FrerGen := []
  recs : List FrerRec := []
  deriving DecidableEq, Repr, Inhabited

/-- The tables within the resources of the switch (R318, R319). -/
def SwTables.fit (t : SwTables) : SwTables :=
  { t with filters := t.filters.take 1024, gates := (t.gates.take 256).map fun g => { entries := g.entries.take 64 },
           meters := t.meters.take 512, gens := t.gens.take 512,
           recs := (t.recs.take 512).map fun r => { r with history := max 2 (min 32 r.history), timeout := max 1 (min 4000 r.timeout) } }

/-- The state of a sequence recovery function; last: device time of the last frame it accepted. -/
structure FrerState where
  takeAny : Bool := true
  seq : Nat := 0
  last : Nat := 0
  /-- numbers below seq that were seen, as distances -/
  seen : List Nat := []
  deriving DecidableEq, Repr

/-- Token buckets of a meter, in units of bit ns, and when they were filled. -/
structure Bucket where
  c : Nat := 0
  e : Nat := 0
  at' : Nat := 0
  /-- a red frame has been met, and the meter marks all frames red from then on -/
  red : Bool := false
  deriving DecidableEq, Repr

/-- A virtual port (R314). -/
structure VPort where
  pvid : Nat := 1
  members : List Nat := []
  deriving DecidableEq, Repr

/-- A redundancy instance (R321): duplicates seen (source, sequence number, time), frames it sent, its next sequence
numbers, the device time from which its next supervision frame is due, and the nodes it has heard (address, last time on A,
on B). -/
structure Redun where
  dups : List (Nat × Nat × Nat) := []
  own : List (Nat × Nat) := []
  seq : Nat := 0
  supSeq : Nat := 0
  supNext : Nat := 0
  nodes : List (Nat × Option Nat × Option Nat) := []
  /-- frames of this instant kept from port B (source, sequence number, time) -/
  fromB : List (Nat × Nat × Nat) := []
  /-- its ports (0 A, 1 B) by which no node is heard any more -/
  lost : List Nat := []
  deriving DecidableEq, Repr

/-- The switch beside its registers. -/
structure Switch where
  /-- words of the tables' windows, by offset (R334) -/
  words : SMap Word := []
  fdb : List Fdb := []
  /-- queued frames of port * 8 + class, oldest first -/
  queues : SMap (List Eth) := []
  tables : SwTables := {}
  vports : SMap VPort := []
  qbv : SMap Qbv := []
  /-- entry in force of a stream gate, and its start on device time (R318) -/
  sgate : SMap (Nat × Nat) := []
  buckets : SMap Bucket := []
  frerSeq : SMap Nat := []
  frer : SMap FrerState := []
  redun : SMap Redun := []
  /-- values in force of the PTP clocks: RATE and OFFSET (R323) -/
  ptp : SMap (Word × BitVec 96) := []
  /-- consecutive milliseconds above the limit at ports 10 and 11 (R312) -/
  mse : SMap Nat := []
  /-- residence times owed to a later message (R323): port * 16 + kind of the event message, the identity of its source port, its
  sequence id, ns -/
  residence : List (Nat × Nat × Nat × Nat) := []
  /-- the frame that left last, and by which port -/
  lastTx : Option (Nat × List Byte) := none
  /-- transmit stamp of the last frame of a port (R322) -/
  txStamp : SMap Nat := []
  deriving DecidableEq, Repr

/-! ### PCI Express (R324 to R327) -/

/-- An inbound window (R326): PCI Express address, size, physical address and rights, for a PID tag. -/
structure PcieIn where
  pid : BitVec 29
  base : Nat
  size : Nat
  pa : Nat
  r : Bool
  w : Bool
  deriving DecidableEq, Repr

/-- The tables of the PCI Express unit whose layout the spec does not give: outbound windows (complex address, size, PCI
Express address), and in endpoint mode BAR0 (its PCI Express address and the slices that Fetas names) and BAR2 (its PCI
Express address and the inbound window it maps) (R325, R327). -/
structure PcieTables where
  out : List (Nat × Nat × Nat) := []
  bar0 : Option (Nat × List Nat) := none
  bar2 : Option (Nat × Nat) := none
  deriving DecidableEq, Repr, Inhabited

structure Pcie where
  words : SMap Word := []
  tables : PcieTables := {}
  inWins : SMap (Option PcieIn) := []
  /-- message vectors granted: BASE and COUNT -/
  msi : Nat × Nat := (0, 0)
  /-- posted writes not yet sent: PCI Express address, size, data (R325) -/
  posted : List (Nat × Nat × Word) := []
  /-- cores whose read request is outstanding -/
  reads : List Nat := []
  /-- inbound requests refused and MSI values dropped, oldest first (R326) -/
  errLog : List Nat := []
  deriving DecidableEq, Repr

/-! ### Field serial ports (R328 to R340) -/

/-- What a UART's transmitter does (R330). -/
inductive TxPhase where
  | idle | lead | active | tail
  deriving DecidableEq, Repr

structure Uart where
  /-- received characters: data, parity error in bit 8, framing error in bit 9 -/
  rx : List (BitVec 10) := []
  tx : List Byte := []
  shifting : Option Byte := none
  phase : TxPhase := .idle
  /-- the transmit FIFO has emptied and its last stop bit was sent -/
  sent : Bool := false
  /-- a character was received since the idle detector last fired -/
  heard : Bool := false
  deriving DecidableEq, Repr

/-- A CAN controller beside its registers: recovery from bus-off asked by software, buffers whose abort waits for the
frame on the bus, and the full error counters. -/
structure Can where
  restart : Bool := false
  aborting : List Nat := []
  tec : Nat := 0
  rec' : Nat := 0
  deriving DecidableEq, Repr

structure Spi where
  tx : List Byte := []
  rx : List Byte := []
  left : Nat := 0
  cs : Option Nat := none
  hold : Bool := false
  deriving DecidableEq, Repr

structure I2c where
  tx : List Byte := []
  rx : List Byte := []
  left : Nat := 0
  read : Bool := false
  stop : Bool := true
  /-- the bus is held between commands -/
  held : Bool := false
  /-- target mode: the direction of the addressed transfer; true when the other side reads -/
  tgt : Option Bool := none
  /-- the address that the command sends, and whether it has 10 bits -/
  addr : Nat × Bool := (0, false)
  deriving DecidableEq, Repr

structure LowSpeed where
  uart : SMap Uart := []
  can : SMap Can := []
  spi : SMap Spi := []
  i2c : SMap I2c := []
  /-- levels that the board drives on the GPIO pins -/
  ext : BitVec 64 := 0
  /-- flash contents; an unlisted byte is erased (log entry 34) -/
  flash : SMap Byte := []
  /-- words of the QSPI program and erase registers, which Fetas alone reaches (R340; log entry 100) -/
  qspiProg : SMap Word := []
  deriving DecidableEq, Repr

/-! ### Timers, telltales and the Ratline (chapters 17 and 18) -/

/-- A timer channel beside its registers (R467 to R471): counts, the RELOAD in force, the halves held, the armed
compares, and RISE written since the last falling edge. -/
structure Tmr where
  count : Nat := 0
  rise : Nat := 0
  fall : Nat := 0
  risen : Bool := false
  reload : Nat := 0
  rldLo : Nat := 0
  cmpLo : SMap Nat := []
  armed : BitVec 4 := 0
  deriving DecidableEq, Repr

/-- The Ratline TAP (R490, R491): the instruction selected, what the boundary-scan chain drives and what it last captured
(log entry 50), the nonce of the latest CHALLENGE, and the token of the open session. -/
structure Jtag where
  ir : Nat := 1
  chain : BitVec 169 := 0
  captured : BitVec 169 := 0
  nonce : Option (List Byte) := none
  token : Option Nat := none
  deriving DecidableEq, Repr

/-! ### Shroud (chapter 16) -/

/-- A pulse input beside its registers (R442): the count, the latest timestamps, PAIR, and whether RISE was written since
the last falling edge. -/
structure PulseIn where
  count : BitVec 64 := 0
  rise : BitVec 64 := 0
  fall : BitVec 64 := 0
  pair : Bool := false
  risen : Bool := false
  deriving DecidableEq, Repr

/-- An entry of the audit trail but for what its place gives: INDEX and CRC (R454). -/
structure AuditEntry where
  kind : Nat
  areas : Nat
  tick : Nat
  evcnt : Nat
  detail : Nat
  ident : BitVec 256
  deriving DecidableEq, Repr

/-- The Shroud beside its registers (R434 to R457). -/
structure Shroud where
  /-- VDD_SHR is absent or too low to run; below 3.0 V, so that no eMRAM write is accepted; reset is held -/
  off : Bool := false
  low : Bool := false
  held : Bool := true
  /-- the ROM waits for the supply before its checks -/
  booting : Bool := false
  /-- causes of the resets since firmware last started, as KIND 0x05 numbers them -/
  cause : Nat := 2
  /-- the count of SHR_XT32 periods, and whether it goes on from the internal oscillator (R439) -/
  tick : Nat := 0
  xtFail : Bool := false
  /-- SRAM and eMRAM bytes by Shroud address -/
  mem : List (Nat × Byte) := []
  /-- samples of a channel, oldest first -/
  adc : SMap (List (BitVec 24)) := []
  pulse : SMap PulseIn := []
  /-- the maker key hash, once provisioned; bank B is active; identification of the firmware that runs -/
  maker : Option (BitVec 384) := none
  useB : Bool := false
  ident : Option (BitVec 256) := none
  /-- SEAL_N as filtered; the session marker, with the areas written (R451) -/
  pin : Bool := false
  marker : Option Nat := none
  trail : List AuditEntry := []
  lost : Nat := 0
  evcnt : Nat := 0
  /-- authentication failures since the last KIND 0x07 entry, and the tick of that (R445) -/
  fails : Nat := 0
  failTick : Option Nat := none
  /-- the last counter accepted, and the last used (R445) -/
  msLast : Nat := 0
  smCount : Nat := 0
  /-- the MS window has been rung; firmware messages not answered, and ROM services not handled, oldest first -/
  rung : Bool := false
  waiting : List Nat := []
  rom : List (Nat × Nat × List Byte) := []
  /-- windows that wait to be taken by the main side, oldest first -/
  sm : List (List Byte) := []
  deriving DecidableEq, Repr

/-! ### Fetas Service Interface (chapter 13) -/

/-- An object that a command holds (R355). -/
inductive Obj where
  | slice (n : Nat) | vmid (v : Nat) | lcore (l : Nat) | pd (d : Nat) | memKey (k : Nat) | sliceKey (k : Nat)
  | mem (g : Nat) | plan | shroud | token (t : Nat) | firmware (t : Nat) | flash
  deriving DecidableEq, Repr

/-- A request that Fetas has copied (R352): its mailbox (0 to 7 control, 8 + n the slice n) and its 16 words. -/
structure FsiReq where
  id : Nat
  box : Nat
  words : List Nat
  deriving DecidableEq, Repr

/-- A command in progress that waits on hardware (R353), with the objects it holds; deferred: its result is a completion
event; replay: a restart or a douse has interrupted it (R357). -/
structure FsiOp where
  req : FsiReq
  deferred : Bool
  objs : List Obj
  replay : Bool := false
  /-- results so far, and whether one of its drains was abandoned -/
  res : List Nat := []
  late : Bool := false
  /-- it waits on hardware before its first effect, to be tried again (R353) -/
  parked : Bool := false
  deriving DecidableEq, Repr

/-- A queued event (R349): word 0 without EVENT and REPLAY, word 1, whether it is a completion, its sequence number and
its data. -/
structure FsiEvent where
  code : Nat
  tag : Nat := 0
  completion : Bool := false
  status : Nat := 0
  seq : Nat := 0
  data : List Nat
  replay : Bool := false
  deriving DecidableEq, Repr

/-- The Fetas side of the mailboxes. -/
structure Fsi where
  /-- requests copied and not yet executed, in acceptance order -/
  accepted : List FsiReq := []
  reqNext : Nat := 0
  /-- responses ready to be posted: mailbox and words -/
  ready : List (Nat × List Nat) := []
  /-- mailboxes whose ready response ends a command that had begun (R357) -/
  firm : List Nat := []
  /-- mailboxes in the order of their rings (R352) -/
  rings : List Nat := []
  queues : SMap (List FsiEvent) := []
  lost : SMap Nat := []
  ops : List FsiOp := []
  /-- the number of the latest unsolicited event, and the health log, oldest first (R365) -/
  seq : Nat := 0
  log : List (Nat × List Nat) := []
  /-- the slice that comes first in the next rotation (R353) -/
  rot : Nat := 0
  deriving DecidableEq, Repr

end Sys2Proof.Machine
end

