-- ==== Sys2Proof/Machine/StateFetas.lean ====
section
/-! DEFINITION. The state of Fetas and of the Crow's nest beside their registers, as plain data (chapters 13 to 15 and
19). What Fetas keeps in its MRAM partition (R256) is held here as the values it means, not as bytes, except host
records, whose banks are bytes. -/

namespace Sys2Proof.Machine

/-! ### Sail plans (R397 to R399) -/

/-- An entry of a register image. -/
structure RegImg where
  off : Nat
  size : Nat
  value : Word
  deriving DecidableEq, Repr

/-- A register-image section: trim 0xFF is the base. -/
structure PlanSec where
  trim : Nat
  held : Bool
  unit : Nat
  regs : List RegImg
  deriving DecidableEq, Repr

/-- A mode definition: place gives, for each logical core, its physical core and stayed partner, 0x7F for none. -/
structure ModeDef where
  mode : Nat
  domains : Nat
  reef : Nat
  place : List (Nat × Nat)
  guardMa : Nat
  pool : List Nat
  deriving DecidableEq, Repr

/-- A verified container. Generation 0 is the default plan (R495). -/
structure Plan where
  gen : Nat := 0
  hostPersistent : Bool := false
  lfsrDrawn : Bool := false
  dramM0 : Bool := false
  bootTrim : Nat := 4
  secs : List PlanSec := []
  modes : List ModeDef := []
  deriving DecidableEq, Repr

/-- What a plan names beside its sections: the sealed VMIDs (R486), the Shroud client slice (R369) and the memory key slots
it assigns (R360); the container's layout has no place for them (log entry 44). -/
structure PlanNames where
  sealed : List Nat := []
  client : Option Nat := none
  slots : List Nat := []
  deriving DecidableEq, Repr, Inhabited

/-- A commit that waits for its tick (R361, R400): the plan and trim that take effect there, and the request it answers. A SET_MODE
with a tick waits in the same form, with the plan in force. -/
structure Commit where
  plan : Plan
  trim : Nat
  tick : Nat
  req : Nat
  deriving DecidableEq, Repr

/-- A mode transition under way (R376): its trim, the SET_MODE that asked for it, its next step, and the transition that a
switch meanwhile calls for (R378). -/
structure Passage where
  trim : Nat
  req : Option Nat
  step : Nat
  next : Option (Nat × Option Nat) := none
  deriving DecidableEq, Repr

/-! ### Cores and tenants -/

/-- The saved state of a logical core (R385): its core with nothing but architected state, run saying how it goes on;
the device time of its stop. -/
structure Saved where
  core : Core
  stop : Nat := 0
  /-- it was stopped by a douse, and its gap is still to be told (R413) -/
  doused : Bool := false
  /-- the Mast count restarted since the stop (R413) -/
  unknown : Bool := false
  deriving DecidableEq, Repr

/-- A tenant (R364): its flags, its entry in the RESUMED list, and the gap of its last resume. -/
structure Tenant where
  persistent : Bool
  resume : Bool
  status : Option Nat := none
  resumed : Bool := false
  gap : Word := 0
  deriving DecidableEq, Repr

/-- A trace token (R370, R487): what it covers, its cores, and the device time at which it ends. -/
structure Token where
  num : Nat
  vmid : Nat
  k : Bool
  h : Bool
  sealedOk : Bool
  all : Bool
  mask : BitVec 64
  ends : Nat
  deriving DecidableEq, Repr

/-! ### Douse (R404 to R422) -/

/-- The douse record: the summary of R422 and what R421 saves; a core saved by reference to its furl record has none. -/
structure Douse where
  epoch : Nat
  gen : Nat
  tick : Nat
  time : Nat
  mode : Nat
  source : Nat
  sectors : Nat
  seq : Nat
  /-- the sequence number of the bank that holds the record: field 0x00 keeps the value written at the douse (R422) -/
  bankSeq : Nat
  took : Nat := 0
  cores : List (Nat × Option Saved)
  payload : Nat := 0
  /-- slice, queue and vector registers, and cleats, by address -/
  regs : SMap Word
  backTick : Nat := 0
  backTime : Nat := 0
  resumed : Nat := 0
  refused : Nat := 0
  cold : Nat := 0
  genAfter : Nat := 0
  deriving DecidableEq, Repr

/-! ### Firmware (R497 to R509) -/

/-- A bank: whether it is valid, and its header's VERSION and FLOOR and image hash; shipped: the image that the part
came with, whose version and hash are facts of the part (log entry 42). -/
structure Bank where
  valid : Bool := true
  shipped : Bool := true
  version : Nat := 0
  floor : Nat := 0
  hash : BitVec 384 := 0
  deriving DecidableEq, Repr

/-- The banks of a target: B is active or not, on trial, failed trial starts, a staged bank waits, and the tick since
which the active bank has been active without fallback. -/
structure Banks where
  a : Bank := {}
  b : Bank := {}
  useB : Bool := false
  trial : Bool := false
  failed : Nat := 0
  staged : Bool := false
  since : Nat := 0
  deriving DecidableEq, Repr

/-- The OTP fields programmed over the life of the part (R499). -/
structure Otp where
  lifecycle : Nat := 0
  srcLock : Nat := 0
  cusImg : BitVec 384 := 0
  cusDbg : BitVec 384 := 0
  fwFloor : Nat := 0
  hostFloor : Nat := 0
  deriving DecidableEq, Repr

/-- What a host image header gives the boot entry (R496, R498), with the source it came from and its bank (0xFF: none). -/
structure HostImage where
  entry : Nat
  seg : Nat
  pt : Nat
  vec : Nat
  handoff : Nat
  source : Nat
  bank : Nat
  hash : BitVec 384
  deriving DecidableEq, Repr

/-- How far a boot has come (R493 to R495). -/
inductive BootPhase where
  | idle
  /-- saved cores are restored and wait for their tick edge -/
  | resuming
  /-- waiting for the remote root complex to stage its images -/
  | pcie
  /-- no valid host image was found: the search is retried -/
  | noHost
  | done
  deriving DecidableEq, Repr

/-- What Fetas keeps, beside the mailboxes. -/
structure Fetas where
  tenants : SMap (Option Tenant) := []
  /-- physical core that carries a logical core, and the stayed partner of a lead physical core -/
  place : SMap (Option Nat) := []
  partner : SMap (Option Nat) := []
  furled : SMap (Option Saved) := []
  /-- logical cores held furled for want of a core (R427) -/
  held : List Nat := []
  quarantined : List Nat := []
  /-- cores brought back into service join the pool (R425) -/
  returned : List Nat := []
  /-- objects that passed a self-test since they were retired (R365) -/
  tested : List (Nat × Nat) := []
  plan : Plan := {}
  names : PlanNames := {}
  /-- key slots that the plan in force assigns and that were erased since (R360) -/
  erased : List Nat := []
  loaded : Option Plan := none
  commit : Option Commit := none
  modeTick : Option Commit := none
  passage : Option Passage := none
  /-- staging copies, by address or 2^46 + logical core * 4096 + number (R400) -/
  staged : SMap (Option Word) := []
  trim : Nat := 4
  digest : BitVec 384 := 0
  /-- identification of the Shroud's legally relevant firmware, as Fetas last learnt it (R369) -/
  shroudId : BitVec 256 := 0
  digestTick : Nat := 0
  /-- Shroud port (R445, R448): the last counter used and the last accepted, firmware messages held for RECEIVE, messages that
  wait to be sent with the request each is for, and the one that waits for its answer: request, counter, TYPE -/
  msCount : Nat := 0
  smLast : Nat := 0
  shrHeld : List (Nat × List Byte) := []
  shrOut : List (Nat × Nat × List Byte) := []
  shrWait : Option (Nat × Nat × Nat) := none
  epoch : Nat := 0
  /-- the newest sealed douse record; the one a running douse writes; the tick of a later douse that was cut short -/
  douse : Option Douse := none
  sealing : Option Douse := none
  douseCut : Option Nat := none
  /-- registers and distributor saved on entry to M0 (R375) -/
  m0 : SMap Word := []
  m0dist : Dist := {}
  records : SMap (List Byte × List Byte) := []
  fw : Banks := {}
  hostBanks : Banks := {}
  /-- an activation of the firmware or host target that waits: its tick, and the request it answers (R508) -/
  fwAct : Option (Nat × Nat) := none
  hostAct : Option (Nat × Nat) := none
  otp : Otp := {}
  dbgKey : List Byte := []
  host : Option HostImage := none
  boot : BootPhase := .idle
  /-- the reason that the handoff block of this boot gives (R496) -/
  bootWhy : Nat := 0
  /-- Fetas restarts (R356); tick since which FETAS_UP has been 1 -/
  down : Bool := false
  upSince : Nat := 0
  /-- memory key slots loaded by KEY MEM_KEY (R360), and tokens -/
  slots : List Nat := []
  tokens : List Token := []
  tokenNext : Nat := 1
  /-- ticks of lockstep mismatches (R431) -/
  lockstep : List Nat := []
  doubleFaults : Nat := 0
  unrepaired : List Nat := []
  /-- home slices reported degraded (R202) -/
  l3Degraded : List Nat := []
  /-- quads on their last PLL reference; device time at which a port of a redundancy instance lost its path; ports
  beyond their 10 s (R431) -/
  lastRef : List Nat := []
  pathLost : SMap (Option Nat) := []
  pathOut : List Nat := []
  split : List Nat := []
  /-- the timing values that the training record of a group holds; none: no valid record (R246, R256) -/
  training : SMap (Option (SMap Word)) := []
  /-- tick since which every health condition is clear; none before the first condition (R433) -/
  healthClear : Option Nat := none
  /-- the tick at which the search for a host image ended without one, or began to wait for staged images (R493, R494) -/
  searchAt : Nat := 0
  healthKnown : Bool := false
  /-- levels that a throttle has taken off a quad, and levels recorded while it holds (R383) -/
  throttled : SMap Nat := []
  /-- device time from which the next step down, or up, of the throttle is due (R383) -/
  coolAt : Nat := 0
  warmAt : Nat := 0
  reefWait : SMap (Option Nat) := []
  /-- the free values that the characterised set points of the quads' levels are, by quad * 8 + level (R379) -/
  voltBase : Nat := 0
  /-- junction estimate, in tenths of a degree (R534) -/
  junction : Int := 250
  caseTemp : Int := 250
  selfTest : Option Nat := none
  deriving DecidableEq, Repr

/-- What follows when a PWR_EN sequence ends (R394, R395). -/
inductive SeqEnd where
  | nothing | wake | boot
  deriving DecidableEq, Repr

/-- The Crow's nest beside its registers (R389 to R396). -/
structure Crow where
  /-- outputs asserted, and those still to change, in order -/
  out : BitVec 6 := 0
  todo : List (Nat × Bool) := []
  after : SeqEnd := .nothing
  resetLow : Bool := false
  /-- the complex waits for the recovery condition to start from ROM (R395) -/
  waitGood : Bool := true
  /-- the recovery condition of R392 holds -/
  good : Bool := false
  /-- a pin reset calls for a cold boot whatever the douse record (R520) -/
  cold : Bool := false
  /-- the Mast count has restarted since the last boot (R413) -/
  mastLost : Bool := false
  /-- tick of the latest recovery condition -/
  goodTick : Nat := 0
  /-- a thermal shutdown holds (R383) -/
  cut : Bool := false
  /-- tick of the last watchdog kick -/
  kicked : Nat := 0
  /-- a douse runs (R404); its source -/
  dousing : Bool := false
  source : Nat := 0
  /-- the pending entry to M0 answers this request after the wake -/
  m0req : Option Nat := none
  /-- wakes held off by a power-fail warning, and the power of the Mast lost (R404, R394) -/
  heldWake : Bool := false
  /-- wired sources to be raised after the wake, for WAKE_STAT bits set in M0 (R375, R393) -/
  wakes : List Nat := []
  /-- alarms that fired while Fetas was down, for it to report (R367) -/
  alarms : List Nat := []
  mastOff : Bool := false
  /-- boot select pins -/
  sel : Nat := 0
  /-- pads of the IO18 and IO33 banks held at these output registers (R521) -/
  pads : SMap Word := []
  deriving DecidableEq, Repr

end Sys2Proof.Machine
end

