-- ==== Sys2Proof/Config.lean ====
section
/-! DEFINITION. What the spec leaves open: opaque constants with no body, so that nothing can be proved of their
values. Each is named in a log entry under notes/assumptions/. -/

namespace Sys2Proof.Config

/-- A fresh free value: the n-th undetermined word of a run (log entry 5). -/
opaque freeWord : Nat → BitVec 64

/-- What a sector reads as under another key than the one it was written with (R249): the keys' identities, the data
written and the sector (log entry 23). -/
opaque wrongKey : Nat → Nat → BitVec 512 → Nat → BitVec 512

/-- The 64 bytes of a random memory key, by its identity (R249, R250; log entry 23). -/
opaque memKey : Nat → BitVec 512

/-- The stream a compression engine writes for an input, by the descriptor's operation (R299): which matches and codes
an encoder chooses is open; the model takes this one when it is a complete stream of the operation's kind that gives
the input back (log entry 31). -/
opaque deflated : Nat → List (BitVec 8) → List (BitVec 8)

/-- What the words of the switch's tables mean: the spec gives their offsets and not their layout (R334; log entry 35). -/
opaque switchTables : List (Nat × BitVec 64) → Machine.SwTables

/-- How the dynamic entries of the forwarding database read in the words of its window that hold no static entry (R334; log
entry 35). -/
opaque dynamicWord : List Machine.Fdb → Nat → BitVec 64

/-- What the words of the PCI Express windows and configuration space mean (R334; log entry 35). -/
opaque pcieTables : List (Nat × BitVec 64) → Machine.PcieTables

/-- The complex's own MAC address as a redundancy node (R321; log entry 35). -/
opaque nodeMac : Nat

/-- DIE_ID, programmed into each part at test (R499; log entry 42). -/
opaque dieId : BitVec 128

/-- The die revision, counted from 1 (R360; log entry 42). -/
opaque dieRev : Nat

/-- What a PTP profile descriptor asks for: gPTP or not, and the domain number (R367; log entry 46). -/
opaque ptpProfile : List (BitVec 8) → Bool × Nat

/-- The device root secret, DRS (R499; log entry 42). -/
opaque drs : BitVec 256

/-- The Shroud port key, K_P (R444, R499; log entry 42). -/
opaque portKey : BitVec 256

/-- The hashes of the Tilelacia keys for Fetas firmware and for the Returned state (R499; log entry 42). -/
opaque tilFwKh : BitVec 384
opaque tilRetKh : BitVec 384

/-- The Tilelacia debug public keys, in the order of a signature block (R491; log entry 42). -/
opaque tilDbgKey : List (BitVec 8)

/-- The TYPE that a message sent by SHROUD SEND carries, by its payload: no argument of the command gives it (R369, R444;
log entry 47). -/
opaque sendType : List (BitVec 8) → Nat

/-- The event code and data words of the health-log entry of a counted event, by its kind and sequence number: the spec
gives the entry and its layout, and no code (R365, R432; log entry 99). -/
opaque telemetryEntry : Nat → Nat → List Nat

/-- What the plan of a generation names (log entry 44). -/
opaque planNames : Nat → Machine.PlanNames

/-- The image hash and VERSION of the images in the banks as the part is shipped: host image or firmware, bank B or A
(log entry 42). -/
opaque shipHash : Bool → Bool → BitVec 384
opaque shipVersion : Bool → Bool → Nat
opaque shipFloor : Bool → Bool → Nat

/-- Whether a credential descriptor with words 1 to 4 of an AUTHORISE is a valid one (R370; log entry 46). -/
opaque credential : List (BitVec 8) → List Nat → Bool

/-- The files that the boot server gives, by the number that R494 gives each and the boot attempt (log entry 42). -/
opaque netFile : Nat → Nat → List (BitVec 8)

end Sys2Proof.Config
end

