-- ==== Sys2Proof/Machine/Regs.lean ====
section
/-! DEFINITION. The registers of the complex, from the header lines and field tables of the chapters (R11 to R16).
`Reg` names every register (array) once; `Reg.spec` gives its address, index ranges, width, reset value, access
levels, domain and the masks of its access codes (R14); the `Fld` definitions give the places of its fields. -/

namespace Sys2Proof.Machine

/-- The names of the registers, one constructor per register or register array. Two names are the model's: the FSI
mailbox status and count carry the prefix FSI_, because the slice mailbox of chapter 11 has the same names. -/
inductive Reg where
  | ADDR_ERR_STATUS | ADDR_ERR_ADDR_LO | ADDR_ERR_ADDR_HI | ADDR_ERR_PID | ADDR_ERR_COUNT | CORE_ID | ISA_FEAT
  | SP_U | SP_K | CORE_PHYS | FPCTL | FPFLAGS | FPCAUSE | LONG_INFO | RES_CTL | RES_STAT | PRED_CTL | PIPE_CTL
  | STATUS | TRAP_CAUSE_K | TRAP_CAUSE_H | TRAP_ADDR_K | TRAP_ADDR_H | TRAP_INFO_K | TRAP_INFO_H | TRAP_LONGPC_K
  | TRAP_LONGPC_H | VECBASE_K | VECBASE_H | DELEG | TRAP_GPA | SEG_ROOT | PT_ROOT | ASID | STG1_CTL | XLAT_INFO_K
  | XLAT_INFO_H | VMID | PONLY_CTL | HSTG_ROOT | HSTG_CTL | H_SEG_ROOT | H_PT_ROOT | H_ASID | WAY_CLASS | L1_SEED
  | L2_SEED | CACHE_STAT | CACHE_READY | L3_WG_MASK | L3_WG_MAP | L3_SEED | L3_WG_EFF | L3_RETIRED | L3_ERR_STATUS
  | L3_ERR_COUNT | CLEAT_TAKE | CLEAT_GIVE | CLEAT_STATE | CLEAT_FORCE | CLEAT_ERR_STATUS | CLEAT_ERR_PID
  | MG_STATUS | MG_ERR_STATUS | MG_ERR_ADDR_LO | MG_ERR_ADDR_HI | MG_ERR_COUNT | MG_SPARE | MG_SCRUB | DKEY_MAP
  | MR_STATUS | MR_ERR_STATUS | MR_ERR_ADDR_LO | MR_ERR_ADDR_HI | MR_ERR_COUNT | MR_DIE | MKEY_MAP | PDQ | DIST_CTL
  | LCORE_MAP | DB_NEXT | SRC_CFG | SRC_STAT | SRC_SET | SRC_CLR | VM_CFG | IRQ_CTL | IRQ_SRC | VIRQ_SRC | IRQ_EOI
  | VIRQ_EOI | IRQ_ACTPRI | V_THRESH | V_ACTPRI | VCTL | IN_MSG | OUT_MSG | MBX_STAT | MBX_OUT_RING | MBX_OUT_ACK
  | MBX_IN_RING | MBX_IN_ACK | MBX_COUNT | SLICE_BIND | SLICE_GRANT_Q | SLICE_GRANT_V | SLICE_GRANT_BW | SLICE_GEN
  | SLICE_FAR | WIN_A | WIN_B | SLICE_ERR_STATUS | SLICE_ERR_COUNT | SE_STATUS | SE_ERR_STATUS | SE_ERR_COUNT
  | Q_SQ_BASE | Q_CQ_BASE | Q_CFG | Q_SQ_DB | Q_SQ | Q_CQ | PORT_CFG | PORT_STATUS | T1L_DIAG | QBV_CTL | QBV_CYCLE
  | QBV_BASE_LO | QBV_BASE_HI | CNT_RX | CNT_TX | CNT_DROP_LEN | CNT_DROP_FCS | CNT_DROP_OFF | CNT_DROP_VLAN
  | CNT_DROP_FULL | CNT_LEARN_FULL | QBV_GATES | QBV_IVL | SW_CTL | FDB_AGE | HSR_CFG | PTP_RATE | PTP_OFS
  | PTP_CTL | PTP_COMMIT_LO | PTP_COMMIT_HI | UART_CFG | UART_BAUD | UART_STAT | UART_RXD | UART_TXD | CAN_CTL
  | CAN_NBT | CAN_DBT | CAN_TDC | CAN_STAT | CAN_IRQ | CAN_IEN | CAN_MBIRQ | CAN_MBIEN | CAN_FLT_ID | CAN_FLT_MASK
  | CAN_MB_ID | CAN_MB_CTRL | CAN_MB_DATA | CAN_MB_TS | SPI_CFG | SPI_XFER | SPI_TXD | SPI_RXD | SPI_STAT | I2C_CFG | I2C_CMD | I2C_TXD
  | I2C_RXD | I2C_STAT | GPIO_IN | GPIO_OUT | GPIO_SET | GPIO_CLR | GPIO_OE | GPIO_OD | GPIO_ISTAT | GPIO_ICFG
  | QSPI_CFG | QSPI_STAT | PCIE_CTL | PCIE_LINK | REQ_MSG | RSP_MSG | EVT_MSG | FSI_MBX_STAT | REQ_RING | RSP_ACK
  | EVT_ACK | FSI_MBX_COUNT | EVT_MASK | FSI_STATUS | MAST_TICK_LO | MAST_TICK_HI | MAST_MODE | WAKE_STAT | WAKE_EN
  | WAKE_CMP | ALARM_LO | ALARM_HI | UART_ACT | PF_CFG | PWR_SEQ | WDOG_CFG | QUAD_REEF | CFG_CRC | CFG_GEN
  | CFG_STAT | CORE_CFG_CRC | HEALTH_STAT | GAP_TIME | SHR_PORT_STAT | SHR_EVCNT | SHR_CFG | SHR_ERR_STATUS
  | SHR_ERR_COUNT | SHR_MS | SHR_SM | SEAL_CTL | SEAL_STAT | ADC_CTL | ADC_CFG | ADC_DATA | PULSE_CFG
  | PULSE_SNAP_CNT | PULSE_SNAP_RISE | PULSE_SNAP_FALL | PULSE_SNAP | DTIME | EVCNT | EVSEL | EV_CTL | EV_OVF
  | CTIM_CMP | CTIM_CTL | TMR_GO | TMR_CFG | TMR_CMD | TMR_STAT | TMR_CTL | TMR_RLD_LO | TMR_RLD_HI | TMR_CMP_LO
  | TMR_CMP_HI | TMR_LAT | TMR_LAT_INFO | TT_IRQ | TT_CFG | TT_WIN | TT_SEQ | TT_CMD | TT_LAST | TT_MIN | TT_MAX
  | TT_THR | TRC_CTL | TRC_RING | TRC_STAT | TSEQ_STATE | TSEQ_ACT | TSEQ_TRANS | TCMP_CFG | TCMP_VAL | TCMP_MASK
  | TRC_AUTH | DBG_CTL | DBG_STAT | HY_CTL | HY_RING_BASE | HY_RING_CTL | HY_RING_WP | HY_RING_RP | HY_RING_DROP
  | BOOT_STAT | PAD_HOLD
  deriving DecidableEq, Repr

/-- Where a register is reached: by system-register number (R35), in the physical map (R32), or in the Shroud's own
map (R19). -/
inductive RegSpace where
  | sys | phys | shroud
  deriving DecidableEq, Repr

/-- One dimension of a register array (R13): the stride, and the first and last index. -/
structure RegDim where
  stride : Nat
  first : Nat
  last : Nat
  deriving DecidableEq, Repr

/-- The header line and the access masks of a register (R11, R14). -/
structure RegDef where
  space : RegSpace
  base : Nat
  dims : List RegDim
  wide : Bool
  reset : Word
  u : Bool
  k : Bool
  h : Bool
  /-- the power domain of the instance with first index 0, and its step with the first index (R37) -/
  pd : Nat
  pdStep : Nat
  rw : Word
  ro : Word
  w1c : Word
  w1s : Word
  rc : Word
  wo : Word
  deriving DecidableEq, Repr

/-- A field: its highest and lowest bit (R7). -/
structure Fld where
  hi : Nat
  lo : Nat
  deriving DecidableEq, Repr

/-- The header and access masks of every register, from the tables of the chapters. -/
def Reg.spec : Reg → RegDef
  -- 01 R36: Offset 0x0000_0000 · Reset 0x0000_0000 · Domain PD 91 · Access level H · ADDR_ERR_STATUS
  | .ADDR_ERR_STATUS => ⟨.phys, 0x3006000000, [], false, 0x0, false, false, true, 91, 0, 0x0, 0xffc0, 0x3, 0x0, 0x0, 0x0⟩
  -- 01 R36: Offset 0x0000_0004 · Reset 0x0000_0000 · Domain PD 91 · Access level H · ADDR_ERR_ADDR_LO
  | .ADDR_ERR_ADDR_LO => ⟨.phys, 0x3006000004, [], false, 0x0, false, false, true, 91, 0, 0x0, 0xffffffff, 0x0, 0x0, 0x0, 0x0⟩
  -- 01 R36: Offset 0x0000_0008 · Reset 0x0000_0000 · Domain PD 91 · Access level H · ADDR_ERR_ADDR_HI
  | .ADDR_ERR_ADDR_HI => ⟨.phys, 0x3006000008, [], false, 0x0, false, false, true, 91, 0, 0x0, 0x3fff, 0x0, 0x0, 0x0, 0x0⟩
  -- 01 R36: Offset 0x0000_000C · Reset 0x0000_0000 · Domain PD 91 · Access level H · ADDR_ERR_PID
  | .ADDR_ERR_PID => ⟨.phys, 0x300600000c, [], false, 0x0, false, false, true, 91, 0, 0x0, 0x1fffffff, 0x0, 0x0, 0x0, 0x0⟩
  -- 01 R36: Offset 0x0000_0010 · Reset 0x0000_0000 · Domain PD 91 · Access level H · ADDR_ERR_COUNT
  | .ADDR_ERR_COUNT => ⟨.phys, 0x3006000010, [], false, 0x0, false, false, true, 91, 0, 0x0, 0x0, 0x0, 0x0, 0xffff, 0x0⟩
  -- 02 R81: Offset 0x000 · Reset 0x0000_0000_9640_0000 · Domain PD 3 + c · Access level U, K, H · CORE_ID
  | .CORE_ID => ⟨.sys, 0x0, [], true, 0x96400000, true, true, true, 3, 0, 0x0, 0xffff003f, 0x0, 0x0, 0x0, 0x0⟩
  -- 02 R81: Offset 0x001 · Reset 0x0000_0000_0100_001F · Domain PD 3 + c · Access level U, K, H · ISA_FEAT
  | .ISA_FEAT => ⟨.sys, 0x1, [], true, 0x100001f, true, true, true, 3, 0, 0x0, 0xffff001f, 0x0, 0x0, 0x0, 0x0⟩
  -- 02 R81: Offset 0x400 · Reset 0x0000_0000_0000_0000 · Domain PD 3 + c · Access level K, H · SP_U
  | .SP_U => ⟨.sys, 0x400, [], true, 0x0, false, true, true, 3, 0, 0xffffffffffffffff, 0x0, 0x0, 0x0, 0x0, 0x0⟩
  -- 02 R81: Offset 0x800 · Reset 0x0000_0000_0000_0000 · Domain PD 3 + c · Access level H · SP_K
  | .SP_K => ⟨.sys, 0x800, [], true, 0x0, false, false, true, 3, 0, 0xffffffffffffffff, 0x0, 0x0, 0x0, 0x0, 0x0⟩
  -- 02 R81: Offset 0x801 · Reset 0x0000_0000_0000_0000 · Domain PD 3 + c · Access level H · CORE_PHYS
  | .CORE_PHYS => ⟨.sys, 0x801, [], true, 0x0, false, false, true, 3, 0, 0x0, 0x3f, 0x0, 0x0, 0x0, 0x0⟩
  -- 03 R98: Offset 0x010 · Reset 0x0000_0000_0000_0000 · Domain PD 3 + c · Access level U, K, H · FPCTL
  | .FPCTL => ⟨.sys, 0x10, [], true, 0x0, true, true, true, 3, 0, 0x11f7, 0x0, 0x0, 0x0, 0x0, 0x0⟩
  -- 03 R98: Offset 0x011 · Reset 0x0000_0000_0000_0000 · Domain PD 3 + c · Access level U, K, H · FPFLAGS
  | .FPFLAGS => ⟨.sys, 0x11, [], true, 0x0, true, true, true, 3, 0, 0x3f, 0x0, 0x0, 0x0, 0x0, 0x0⟩
  -- 03 R98: Offset 0x012 · Reset 0x0000_0000_0000_0000 · Domain PD 3 + c · Access level U, K, H · FPCAUSE
  | .FPCAUSE => ⟨.sys, 0x12, [], true, 0x0, true, true, true, 3, 0, 0x0, 0x1f, 0x0, 0x0, 0x0, 0x0⟩
  -- 03 R98: Offset 0x013 · Reset 0x0000_0000_0000_0000 · Domain PD 3 + c · Access level K, H · LONG_INFO
  | .LONG_INFO => ⟨.sys, 0x13, [], true, 0x0, false, true, true, 3, 0, 0x0, 0x1f3f, 0x8000, 0x0, 0x0, 0x0⟩
  -- 03 R100: Offset 0x9C0 · Reset 0x0000_0000_0000_0000 · Domain PD 3 + c · Access level H · RES_CTL
  | .RES_CTL => ⟨.sys, 0x9c0, [], true, 0x0, false, false, true, 3, 0, 0xf, 0x0, 0x0, 0x0, 0x0, 0x0⟩
  -- 03 R101: Offset 0x9C1 · Reset 0x0000_0000_0000_0000 · Domain PD 3 + c · Access level H · RES_STAT
  | .RES_STAT => ⟨.sys, 0x9c1, [], true, 0x0, false, false, true, 3, 0, 0x0, 0x0, 0x0, 0x0, 0xffffffffffff, 0x0⟩
  -- 04 R123: Offset 0x980 · Reset 0x0000_0000_0000_0001 · Domain PD 3 + c · Access level H · PRED_CTL
  | .PRED_CTL => ⟨.sys, 0x980, [], true, 0x1, false, false, true, 3, 0, 0x1, 0x2, 0x0, 0x0, 0x0, 0x0⟩
  -- 04 R123: Offset 0x981 · Reset 0x0000_0000_0000_0000 · Domain PD 3 + c · Access level H · PIPE_CTL
  | .PIPE_CTL => ⟨.sys, 0x981, [], true, 0x0, false, false, true, 3, 0, 0x3, 0x0, 0x0, 0x0, 0x0, 0x0⟩
  -- 05 R146: Offset 0x410 · Reset 0x0000_0000_0000_0002 · Domain PD 3 + c · Access level K, H · STATUS
  | .STATUS => ⟨.sys, 0x410, [], true, 0x2, false, true, true, 3, 0, 0x110, 0x3, 0x0, 0x0, 0x0, 0x0⟩
  -- 05 R146: Offset 0x411 · Reset 0x0000_0000_0000_0000 · Domain PD 3 + c · Access level K, H · TRAP_CAUSE_K
  | .TRAP_CAUSE_K => ⟨.sys, 0x411, [], true, 0x0, false, true, true, 3, 0, 0x0, 0x83ff, 0x0, 0x0, 0x0, 0x0⟩
  -- 05 R146: Offset 0x811 · Reset 0x0000_0000_0000_0000 · Domain PD 3 + c · Access level H · TRAP_CAUSE_H
  | .TRAP_CAUSE_H => ⟨.sys, 0x811, [], true, 0x0, false, false, true, 3, 0, 0x0, 0x83ff, 0x0, 0x0, 0x0, 0x0⟩
  -- 05 R146: Offset 0x412 · Reset 0x0000_0000_0000_0000 · Domain PD 3 + c · Access level K, H · TRAP_ADDR_K
  | .TRAP_ADDR_K => ⟨.sys, 0x412, [], true, 0x0, false, true, true, 3, 0, 0x0, 0xffffffffffffffff, 0x0, 0x0, 0x0, 0x0⟩
  -- 05 R146: Offset 0x812 · Reset 0x0000_0000_0000_0000 · Domain PD 3 + c · Access level H · TRAP_ADDR_H
  | .TRAP_ADDR_H => ⟨.sys, 0x812, [], true, 0x0, false, false, true, 3, 0, 0x0, 0xffffffffffffffff, 0x0, 0x0, 0x0, 0x0⟩
  -- 05 R146: Offset 0x413 · Reset 0x0000_0000_0000_0000 · Domain PD 3 + c · Access level K, H · TRAP_INFO_K
  | .TRAP_INFO_K => ⟨.sys, 0x413, [], true, 0x0, false, true, true, 3, 0, 0x0, 0xffffbfff, 0x0, 0x0, 0x0, 0x0⟩
  -- 05 R146: Offset 0x813 · Reset 0x0000_0000_0000_0000 · Domain PD 3 + c · Access level H · TRAP_INFO_H
  | .TRAP_INFO_H => ⟨.sys, 0x813, [], true, 0x0, false, false, true, 3, 0, 0x0, 0xffffbfff, 0x0, 0x0, 0x0, 0x0⟩
  -- 05 R146: Offset 0x414 · Reset 0x0000_0000_0000_0000 · Domain PD 3 + c · Access level K, H · TRAP_LONGPC_K
  | .TRAP_LONGPC_K => ⟨.sys, 0x414, [], true, 0x0, false, true, true, 3, 0, 0x0, 0xffffffffffffffff, 0x0, 0x0, 0x0, 0x0⟩
  -- 05 R146: Offset 0x814 · Reset 0x0000_0000_0000_0000 · Domain PD 3 + c · Access level H · TRAP_LONGPC_H
  | .TRAP_LONGPC_H => ⟨.sys, 0x814, [], true, 0x0, false, false, true, 3, 0, 0x0, 0xffffffffffffffff, 0x0, 0x0, 0x0, 0x0⟩
  -- 05 R146: Offset 0x415 · Reset 0x0000_0000_0000_0000 · Domain PD 3 + c · Access level K, H · VECBASE_K
  | .VECBASE_K => ⟨.sys, 0x415, [], true, 0x0, false, true, true, 3, 0, 0xfffffffffffff000, 0x0, 0x0, 0x0, 0x0, 0x0⟩
  -- 05 R146: Offset 0x815 · Reset 0x0000_0000_0000_0000 · Domain PD 3 + c · Access level H · VECBASE_H
  | .VECBASE_H => ⟨.sys, 0x815, [], true, 0x0, false, false, true, 3, 0, 0xfffffffffffff000, 0x0, 0x0, 0x0, 0x0, 0x0⟩
  -- 05 R146: Offset 0x810 · Reset 0x0000_0000_0000_0000 · Domain PD 3 + c · Access level H · DELEG
  | .DELEG => ⟨.sys, 0x810, [], true, 0x0, false, false, true, 3, 0, 0x5fffe, 0x7a0000, 0x0, 0x0, 0x0, 0x0⟩
  -- 05 R146: Offset 0x816 · Reset 0x0000_0000_0000_0000 · Domain PD 3 + c · Access level H · TRAP_GPA
  | .TRAP_GPA => ⟨.sys, 0x816, [], true, 0x0, false, false, true, 3, 0, 0x0, 0x3fffffffffff, 0x0, 0x0, 0x0, 0x0⟩
  -- 06 R173: Offset 0x480 · Reset 0x0000_0000_0000_0000 · Domain PD 3 + c · Access level K, H · SEG_ROOT
  | .SEG_ROOT => ⟨.sys, 0x480, [], true, 0x0, false, true, true, 3, 0, 0x3fffffffffcf, 0x0, 0x0, 0x0, 0x0, 0x0⟩
  -- 06 R173: Offset 0x481 · Reset 0x0000_0000_0000_0000 · Domain PD 3 + c · Access level K, H · PT_ROOT
  | .PT_ROOT => ⟨.sys, 0x481, [], true, 0x0, false, true, true, 3, 0, 0x3ffffffff000, 0x0, 0x0, 0x0, 0x0, 0x0⟩
  -- 06 R173: Offset 0x482 · Reset 0x0000_0000_0000_0000 · Domain PD 3 + c · Access level K, H · ASID
  | .ASID => ⟨.sys, 0x482, [], true, 0x0, false, true, true, 3, 0, 0xffff, 0x0, 0x0, 0x0, 0x0, 0x0⟩
  -- 06 R173: Offset 0x483 · Reset 0x0000_0000_0000_0000 · Domain PD 3 + c · Access level K, H · STG1_CTL
  | .STG1_CTL => ⟨.sys, 0x483, [], true, 0x0, false, true, true, 3, 0, 0x1, 0x0, 0x0, 0x0, 0x0, 0x0⟩
  -- 06 R173: Offset 0x484 · Reset 0x0000_0000_0000_0000 · Domain PD 3 + c · Access level K, H · XLAT_INFO_K
  | .XLAT_INFO_K => ⟨.sys, 0x484, [], true, 0x0, false, true, true, 3, 0, 0x0, 0xff80, 0x0, 0x0, 0x0, 0x0⟩
  -- 06 R173: Offset 0x887 · Reset 0x0000_0000_0000_0000 · Domain PD 3 + c · Access level H · XLAT_INFO_H
  | .XLAT_INFO_H => ⟨.sys, 0x887, [], true, 0x0, false, false, true, 3, 0, 0x0, 0xff80, 0x0, 0x0, 0x0, 0x0⟩
  -- 06 R173: Offset 0x880 · Reset 0x0000_0000_0000_0000 · Domain PD 3 + c · Access level H · VMID
  | .VMID => ⟨.sys, 0x880, [], true, 0x0, false, false, true, 3, 0, 0x1fff, 0x0, 0x0, 0x0, 0x0, 0x0⟩
  -- 06 R173: Offset 0x881 · Reset 0x0000_0000_0000_0000 · Domain PD 3 + c · Access level H · PONLY_CTL
  | .PONLY_CTL => ⟨.sys, 0x881, [], true, 0x0, false, false, true, 3, 0, 0x1, 0x0, 0x0, 0x0, 0x0, 0x0⟩
  -- 06 R173: Offset 0x882 · Reset 0x0000_0000_0000_0000 · Domain PD 3 + c · Access level H · HSTG_ROOT
  | .HSTG_ROOT => ⟨.sys, 0x882, [], true, 0x0, false, false, true, 3, 0, 0x3ffffffff000, 0x0, 0x0, 0x0, 0x0, 0x0⟩
  -- 06 R173: Offset 0x883 · Reset 0x0000_0000_0000_0000 · Domain PD 3 + c · Access level H · HSTG_CTL
  | .HSTG_CTL => ⟨.sys, 0x883, [], true, 0x0, false, false, true, 3, 0, 0x3, 0x0, 0x0, 0x0, 0x0, 0x0⟩
  -- 06 R173: Offset 0x884 · Reset 0x0000_0000_0000_0000 · Domain PD 3 + c · Access level H · H_SEG_ROOT
  | .H_SEG_ROOT => ⟨.sys, 0x884, [], true, 0x0, false, false, true, 3, 0, 0x3fffffffffcf, 0x0, 0x0, 0x0, 0x0, 0x0⟩
  -- 06 R173: Offset 0x885 · Reset 0x0000_0000_0000_0000 · Domain PD 3 + c · Access level H · H_PT_ROOT
  | .H_PT_ROOT => ⟨.sys, 0x885, [], true, 0x0, false, false, true, 3, 0, 0x3ffffffff000, 0x0, 0x0, 0x0, 0x0, 0x0⟩
  -- 06 R173: Offset 0x886 · Reset 0x0000_0000_0000_FFFF · Domain PD 3 + c · Access level H · H_ASID
  | .H_ASID => ⟨.sys, 0x886, [], true, 0xffff, false, false, true, 3, 0, 0xffff, 0x0, 0x0, 0x0, 0x0, 0x0⟩
  -- 07 R203: Offset 0x940 · Reset 0x0000_0000_0000_0000 · Domain PD 3 + c · Access level H · WAY_CLASS
  | .WAY_CLASS => ⟨.sys, 0x940, [], true, 0x0, false, false, true, 3, 0, 0x77, 0x0, 0x0, 0x0, 0x0, 0x0⟩
  -- 07 R203: Offset 0x941 · Reset 0x0000_0000_0001_0001 · Domain PD 3 + c · Access level H · L1_SEED
  | .L1_SEED => ⟨.sys, 0x941, [], true, 0x10001, false, false, true, 3, 0, 0xffffffff, 0x0, 0x0, 0x0, 0x0, 0x0⟩
  -- 07 R203: Offset 0x942 · Reset 0x0000_0000_0000_0001 · Domain PD 67 + q · Access level H · L2_SEED
  | .L2_SEED => ⟨.sys, 0x942, [], true, 0x1, false, false, true, 67, 0, 0xffff, 0x0, 0x0, 0x0, 0x0, 0x0⟩
  -- 07 R203: Offset 0x943 · Reset 0x0000_0000_0000_0000 · Domain PD 3 + c · Access level H · CACHE_STAT
  | .CACHE_STAT => ⟨.sys, 0x943, [], true, 0x0, false, false, true, 3, 0, 0x0, 0xffff07, 0x0, 0x0, 0x0, 0x0⟩
  -- 07 R203: Offset 0x0000_0100 · Reset 0x0000_0000 · Domain PD 91 · Access level H · CACHE_READY
  | .CACHE_READY => ⟨.phys, 0x3006000100, [], false, 0x0, false, false, true, 91, 0, 0x0, 0xffffff, 0x0, 0x0, 0x0, 0x0⟩
  -- 07 R203: Offset 0x0010_0000 + h × 0x0001_0000 + (n − 1) × 0x4, n = 1 to 3 · Reset 0x0000_0000 · Domain PD 83 + h · Acce
  | .L3_WG_MASK => ⟨.phys, 0x30060ffffc, [⟨0x10000, 0, 7⟩, ⟨0x4, 1, 3⟩], false, 0x0, false, false, true, 83, 1, 0x0, 0xffff, 0x0, 0x0, 0x0, 0x0⟩
  -- 07 R203: Offset 0x0010_000C + h × 0x0001_0000 · Reset 0x0000_0000 · Domain PD 83 + h · Access level H · L3_WG_MAP
  | .L3_WG_MAP => ⟨.phys, 0x300610000c, [⟨0x10000, 0, 7⟩], false, 0x0, false, false, true, 83, 1, 0x0, 0xffff, 0x0, 0x0, 0x0, 0x0⟩
  -- 07 R203: Offset 0x0010_0010 + h × 0x0001_0000 · Reset 0x0000_0001 · Domain PD 83 + h · Access level H · L3_SEED
  | .L3_SEED => ⟨.phys, 0x3006100010, [⟨0x10000, 0, 7⟩], false, 0x1, false, false, true, 83, 1, 0x0, 0xffff, 0x0, 0x0, 0x0, 0x0⟩
  -- 07 R203: Offset 0x0010_0014 + h × 0x0001_0000 · Reset 0x0000_FFFF · Domain PD 83 + h · Access level H · L3_WG_EFF
  | .L3_WG_EFF => ⟨.phys, 0x3006100014, [⟨0x10000, 0, 7⟩], false, 0xffff, false, false, true, 83, 1, 0x0, 0xffff, 0x0, 0x0, 0x0, 0x0⟩
  -- 07 R203: Offset 0x0010_0018 + h × 0x0001_0000 · Reset 0x0000_0000 · Domain PD 83 + h · Access level H · L3_RETIRED
  | .L3_RETIRED => ⟨.phys, 0x3006100018, [⟨0x10000, 0, 7⟩], false, 0x0, false, false, true, 83, 1, 0x0, 0x7f, 0x0, 0x0, 0x0, 0x0⟩
  -- 07 R203: Offset 0x0010_0020 + h × 0x0001_0000 · Reset 0x0000_0000 · Domain PD 83 + h · Access level H · L3_ERR_STATUS
  | .L3_ERR_STATUS => ⟨.phys, 0x3006100020, [⟨0x10000, 0, 7⟩], false, 0x0, false, false, true, 83, 1, 0x0, 0xfffff000, 0x3, 0x0, 0x0, 0x0⟩
  -- 07 R204: Offset 0x0010_0024 + h × 0x0001_0000 · Reset 0x0000_0000 · Domain PD 83 + h · Access level H · L3_ERR_COUNT
  | .L3_ERR_COUNT => ⟨.phys, 0x3006100024, [⟨0x10000, 0, 7⟩], false, 0x0, false, false, true, 83, 1, 0x0, 0x0, 0x0, 0x0, 0xffffffff, 0x0⟩
  -- 08 R228: Offset 0x0001_0000 + n × 0x10, n = 0 to 4,095 · Reset 0x0000_0000 · Domain PD 91 · Access level U, K, H · CLEA
  | .CLEAT_TAKE => ⟨.phys, 0x300d010000, [⟨0x10, 0, 4095⟩], false, 0x0, true, true, true, 91, 0, 0x0, 0xffffffff, 0x0, 0x0, 0x0, 0x0⟩
  -- 08 R228: Offset 0x0001_0004 + n × 0x10, n = 0 to 4,095 · Reset 0x0000_0000 · Domain PD 91 · Access level U, K, H · CLEA
  | .CLEAT_GIVE => ⟨.phys, 0x300d010004, [⟨0x10, 0, 4095⟩], false, 0x0, true, true, true, 91, 0, 0x0, 0x0, 0x0, 0x0, 0x0, 0x1⟩
  -- 08 R228: Offset 0x0001_0008 + n × 0x10, n = 0 to 4,095 · Reset 0x0000_0000 · Domain PD 91 · Access level U, K, H · CLEA
  | .CLEAT_STATE => ⟨.phys, 0x300d010008, [⟨0x10, 0, 4095⟩], false, 0x0, true, true, true, 91, 0, 0x0, 0xffffffff, 0x0, 0x0, 0x0, 0x0⟩
  -- 08 R228: Offset 0x0001_000C + n × 0x10, n = 0 to 4,095 · Reset 0x0000_0000 · Domain PD 91 · Access level H · CLEAT_FORC
  | .CLEAT_FORCE => ⟨.phys, 0x300d01000c, [⟨0x10, 0, 4095⟩], false, 0x0, false, false, true, 91, 0, 0x0, 0x0, 0x0, 0x0, 0x0, 0x1⟩
  -- 08 R228: Offset 0x0000_0000 · Reset 0x0000_0000 · Domain PD 91 · Access level H · CLEAT_ERR_STATUS
  | .CLEAT_ERR_STATUS => ⟨.phys, 0x300d000000, [], false, 0x0, false, false, true, 91, 0, 0x0, 0xfff000c, 0x3, 0x0, 0x0, 0x0⟩
  -- 08 R228: Offset 0x0000_0004 · Reset 0x0000_0000 · Domain PD 91 · Access level H · CLEAT_ERR_PID
  | .CLEAT_ERR_PID => ⟨.phys, 0x300d000004, [], false, 0x0, false, false, true, 91, 0, 0x0, 0x3fffffff, 0x0, 0x0, 0x0, 0x0⟩
  -- 09 R260: Offset 0x0000_0000 + g × 0x0080_0000 · Reset 0x7800_0000 · Domain PD 93 + 2g · Access level H · MG_STATUS_g
  | .MG_STATUS => ⟨.phys, 0x3004000000, [⟨0x800000, 0, 1⟩], false, 0x78000000, false, false, true, 93, 2, 0x0, 0xffffff81, 0x0, 0x0, 0x0, 0x0⟩
  -- 09 R260: Offset 0x0000_0010 + g × 0x0080_0000 · Reset 0x0F00_0000 · Domain PD 93 + 2g · Access level H · MG_ERR_STATUS_
  | .MG_ERR_STATUS => ⟨.phys, 0x3004000010, [⟨0x800000, 0, 1⟩], false, 0xf000000, false, false, true, 93, 2, 0x0, 0xffc00000, 0x3, 0x0, 0x0, 0x0⟩
  -- 09 R260: Offset 0x0000_0014 + g × 0x0080_0000 · Reset 0x0000_0000 · Domain PD 93 + 2g · Access level H · MG_ERR_ADDR_LO
  | .MG_ERR_ADDR_LO => ⟨.phys, 0x3004000014, [⟨0x800000, 0, 1⟩], false, 0x0, false, false, true, 93, 2, 0x0, 0xffffffff, 0x0, 0x0, 0x0, 0x0⟩
  -- 09 R260: Offset 0x0000_0018 + g × 0x0080_0000 · Reset 0x0000_0000 · Domain PD 93 + 2g · Access level H · MG_ERR_ADDR_HI
  | .MG_ERR_ADDR_HI => ⟨.phys, 0x3004000018, [⟨0x800000, 0, 1⟩], false, 0x0, false, false, true, 93, 2, 0x0, 0x3fff, 0x0, 0x0, 0x0, 0x0⟩
  -- 09 R260: Offset 0x0000_001C + g × 0x0080_0000 · Reset 0x0000_0000 · Domain PD 93 + 2g · Access level H · MG_ERR_COUNT_g
  | .MG_ERR_COUNT => ⟨.phys, 0x300400001c, [⟨0x800000, 0, 1⟩], false, 0x0, false, false, true, 93, 2, 0x0, 0x0, 0x0, 0x0, 0xffffffff, 0x0⟩
  -- 09 R260: Offset 0x0000_0020 + g × 0x0080_0000 · Reset 0x0000_0000 · Domain PD 93 + 2g · Access level H · MG_SPARE_g
  | .MG_SPARE => ⟨.phys, 0x3004000020, [⟨0x800000, 0, 1⟩], false, 0x0, false, false, true, 93, 2, 0x0, 0x1ff00ff, 0x0, 0x0, 0x0, 0x0⟩
  -- 09 R260: Offset 0x0000_0024 + g × 0x0080_0000 · Reset 0x0000_0000 · Domain PD 93 + 2g · Access level H · MG_SCRUB_g
  | .MG_SCRUB => ⟨.phys, 0x3004000024, [⟨0x800000, 0, 1⟩], false, 0x0, false, false, true, 93, 2, 0x0, 0xffff03ff, 0x0, 0x0, 0x0, 0x0⟩
  -- 09 R260: Offset 0x0001_0000 + i × 0x4, i = 0 to 32,767 · Reset 0x0000_0000 · Domain PD 93 · Access level H · DKEY_MAP_i
  | .DKEY_MAP => ⟨.phys, 0x3004010000, [⟨0x4, 0, 32767⟩], false, 0x0, false, false, true, 93, 0, 0x0, 0x80001fff, 0x0, 0x0, 0x0, 0x0⟩
  -- 09 R260: Offset 0x0000_0000 · Reset 0x0000_0000 · Domain PD 97 · Access level H · MR_STATUS
  | .MR_STATUS => ⟨.phys, 0x3005000000, [], false, 0x0, false, false, true, 97, 0, 0x0, 0x1ff, 0x0, 0x0, 0x0, 0x0⟩
  -- 09 R260: Offset 0x0000_0010 · Reset 0x0000_0000 · Domain PD 97 · Access level H · MR_ERR_STATUS
  | .MR_ERR_STATUS => ⟨.phys, 0x3005000010, [], false, 0x0, false, false, true, 97, 0, 0x0, 0xffc00000, 0x3, 0x0, 0x0, 0x0⟩
  -- 09 R260: Offset 0x0000_0014 · Reset 0x0000_0000 · Domain PD 97 · Access level H · MR_ERR_ADDR_LO
  | .MR_ERR_ADDR_LO => ⟨.phys, 0x3005000014, [], false, 0x0, false, false, true, 97, 0, 0x0, 0xffffffff, 0x0, 0x0, 0x0, 0x0⟩
  -- 09 R260: Offset 0x0000_0018 · Reset 0x0000_0000 · Domain PD 97 · Access level H · MR_ERR_ADDR_HI
  | .MR_ERR_ADDR_HI => ⟨.phys, 0x3005000018, [], false, 0x0, false, false, true, 97, 0, 0x0, 0x3fff, 0x0, 0x0, 0x0, 0x0⟩
  -- 09 R260: Offset 0x0000_001C · Reset 0x0000_0000 · Domain PD 97 · Access level H · MR_ERR_COUNT
  | .MR_ERR_COUNT => ⟨.phys, 0x300500001c, [], false, 0x0, false, false, true, 97, 0, 0x0, 0x0, 0x0, 0x0, 0xffffffff, 0x0⟩
  -- 09 R260: Offset 0x0000_0040 + n × 0x4, n = 0 to 3 · Reset 0x0000_2000 · Domain PD 97 · Access level H · MR_DIE_n
  | .MR_DIE => ⟨.phys, 0x3005000040, [⟨0x4, 0, 3⟩], false, 0x2000, false, false, true, 97, 0, 0x0, 0x3fff, 0x0, 0x0, 0xffff0000, 0x0⟩
  -- 09 R260: Offset 0x0001_0000 + i × 0x4, i = 0 to 8,191 · Reset 0x0000_0000 · Domain PD 97 · Access level H · MKEY_MAP_i
  | .MKEY_MAP => ⟨.phys, 0x3005010000, [⟨0x4, 0, 8191⟩], false, 0x0, false, false, true, 97, 0, 0x0, 0x80001fff, 0x0, 0x0, 0x0, 0x0⟩
  -- 09 R260: Offset 0x0010_0030 + h × 0x0001_0000 + n × 0x4, n = 0 to 3 · Reset 0x0000_0000 · Domain PD 83 + h · Access lev
  | .PDQ => ⟨.phys, 0x3006100030, [⟨0x10000, 0, 7⟩, ⟨0x4, 0, 3⟩], false, 0x0, false, false, true, 83, 1, 0x0, 0x7ff, 0x0, 0x0, 0xffff0000, 0x0⟩
  -- 10 R278: Offset 0x0000_0000 · Reset 0x0000_0000 · Domain PD 91 · Access level H · DIST_CTL
  | .DIST_CTL => ⟨.phys, 0x3002000000, [], false, 0x0, false, false, true, 91, 0, 0x1, 0x2, 0x0, 0x0, 0x0, 0x0⟩
  -- 10 R278: Offset 0x0000_0100 + l × 0x4, l = 0 to 63 · Reset 0x0000_0000 · Domain PD 91 · Access level H · LCORE_MAP_l
  | .LCORE_MAP => ⟨.phys, 0x3002000100, [⟨0x4, 0, 63⟩], false, 0x0, false, false, true, 91, 0, 0x0, 0x7f, 0x0, 0x0, 0x0, 0x0⟩
  -- 10 R278: Offset 0x0000_0200 + l × 0x4, l = 0 to 63 · Reset 0x0000_0000 · Domain PD 91 · Access level H · DB_NEXT_l
  | .DB_NEXT => ⟨.phys, 0x3002000200, [⟨0x4, 0, 63⟩], false, 0x0, false, false, true, 91, 0, 0x0, 0x0, 0x0, 0x0, 0x80001fff, 0x0⟩
  -- 10 R278: Offset 0x0010_0000 + n × 0x10, n = 0 to 17,407 · Reset 0x0000_0000 · Domain PD 91 · Access level H · SRC_CFG_n
  | .SRC_CFG => ⟨.phys, 0x3002100000, [⟨0x10, 0, 17407⟩], false, 0x0, false, false, true, 91, 0, 0xe03f1fff, 0x0, 0x0, 0x0, 0x0, 0x0⟩
  -- 10 R278: Offset 0x0010_0004 + n × 0x10, n = 0 to 17,407 · Reset 0x0000_0000 · Domain PD 91 · Access level H · SRC_STAT_
  | .SRC_STAT => ⟨.phys, 0x3002100004, [⟨0x10, 0, 17407⟩], false, 0x0, false, false, true, 91, 0, 0x0, 0x7, 0x0, 0x0, 0x0, 0x0⟩
  -- 10 R278: Offset 0x0010_0008 + n × 0x10, n = 0 to 17,407 · Reset 0x0000_0000 · Domain PD 91 · Access level H · SRC_SET_n
  | .SRC_SET => ⟨.phys, 0x3002100008, [⟨0x10, 0, 17407⟩], false, 0x0, false, false, true, 91, 0, 0x0, 0x0, 0x0, 0x0, 0x0, 0x1⟩
  -- 10 R278: Offset 0x0010_000C + n × 0x10, n = 0 to 17,407 · Reset 0x0000_0000 · Domain PD 91 · Access level H · SRC_CLR_n
  | .SRC_CLR => ⟨.phys, 0x300210000c, [⟨0x10, 0, 17407⟩], false, 0x0, false, false, true, 91, 0, 0x0, 0x0, 0x0, 0x0, 0x0, 0x3⟩
  -- 10 R278: Offset 0x0020_0000 + v × 0x4, v = 0 to 8,191 · Reset 0x0000_0000 · Domain PD 91 · Access level H · VM_CFG_v
  | .VM_CFG => ⟨.phys, 0x3002200000, [⟨0x4, 0, 8191⟩], false, 0x0, false, false, true, 91, 0, 0x8000003f, 0x0, 0x0, 0x0, 0x0, 0x0⟩
  -- 10 R278: Offset 0x540 · Reset 0x0000_0000_0000_0000 · Domain PD 3 + c · Access level H · IRQ_CTL
  | .IRQ_CTL => ⟨.sys, 0x540, [], true, 0x0, false, false, true, 3, 0, 0x3f, 0x0, 0x0, 0x0, 0x0, 0x0⟩
  -- 10 R278: Offset 0x541 · Reset 0x0000_0000_0000_0000 · Domain PD 3 + c · Access level H · IRQ_SRC
  | .IRQ_SRC => ⟨.sys, 0x541, [], true, 0x0, false, false, true, 3, 0, 0x0, 0x3f7fff, 0x0, 0x0, 0x0, 0x0⟩
  -- 10 R278: Offset 0x545 · Reset 0x0000_0000_0000_0000 · Domain PD 3 + c · Access level K, H · VIRQ_SRC
  | .VIRQ_SRC => ⟨.sys, 0x545, [], true, 0x0, false, true, true, 3, 0, 0x0, 0x3f7fff, 0x0, 0x0, 0x0, 0x0⟩
  -- 10 R278: Offset 0x542 · Reset 0x0000_0000_0000_0000 · Domain PD 3 + c · Access level H · IRQ_EOI
  | .IRQ_EOI => ⟨.sys, 0x542, [], true, 0x0, false, false, true, 3, 0, 0x0, 0x0, 0x0, 0x0, 0x0, 0x7fff⟩
  -- 10 R278: Offset 0x546 · Reset 0x0000_0000_0000_0000 · Domain PD 3 + c · Access level K, H · VIRQ_EOI
  | .VIRQ_EOI => ⟨.sys, 0x546, [], true, 0x0, false, true, true, 3, 0, 0x0, 0x0, 0x0, 0x0, 0x0, 0x7fff⟩
  -- 10 R278: Offset 0x543 · Reset 0x0000_0000_0000_0000 · Domain PD 3 + c · Access level H · IRQ_ACTPRI
  | .IRQ_ACTPRI => ⟨.sys, 0x543, [], true, 0x0, false, false, true, 3, 0, 0x0, 0xffffffffffffffff, 0x0, 0x0, 0x0, 0x0⟩
  -- 10 R278: Offset 0x544 · Reset 0x0000_0000_0000_0000 · Domain PD 3 + c · Access level K, H · V_THRESH
  | .V_THRESH => ⟨.sys, 0x544, [], true, 0x0, false, true, true, 3, 0, 0x3f, 0x0, 0x0, 0x0, 0x0, 0x0⟩
  -- 10 R278: Offset 0x547 · Reset 0x0000_0000_0000_0000 · Domain PD 3 + c · Access level K, H · V_ACTPRI
  | .V_ACTPRI => ⟨.sys, 0x547, [], true, 0x0, false, true, true, 3, 0, 0xffffffffffffffff, 0x0, 0x0, 0x0, 0x0, 0x0⟩
  -- 10 R278: Offset 0x900 · Reset 0x0000_0000_0000_0000 · Domain PD 3 + c · Access level H · VCTL
  | .VCTL => ⟨.sys, 0x900, [], true, 0x0, false, false, true, 3, 0, 0x1, 0x0, 0x0, 0x0, 0x0, 0x0⟩
  -- 11 R310: Offset 0x000 + w × 0x4, w = 0 to 15 · Reset 0x0000_0000 · Domain PD 103 · Access level U, K, H · IN_MSG_w
  | .IN_MSG => ⟨.phys, 0x3100000000, [⟨0x1000, 0, 8191⟩, ⟨0x4, 0, 15⟩], false, 0x0, true, true, true, 103, 0, 0xffffffff, 0x0, 0x0, 0x0, 0x0, 0x0⟩
  -- 11 R310: Offset 0x040 + w × 0x4, w = 0 to 15 · Reset 0x0000_0000 · Domain PD 103 · Access level U, K, H · OUT_MSG_w
  | .OUT_MSG => ⟨.phys, 0x3100000040, [⟨0x1000, 0, 8191⟩, ⟨0x4, 0, 15⟩], false, 0x0, true, true, true, 103, 0, 0xffffffff, 0x0, 0x0, 0x0, 0x0, 0x0⟩
  -- 11 R310: Offset 0x080 · Reset 0x0000_0000 · Domain PD 103 · Access level U, K, H · MBX_STAT
  | .MBX_STAT => ⟨.phys, 0x3100000080, [⟨0x1000, 0, 8191⟩], false, 0x0, true, true, true, 103, 0, 0x0, 0x3, 0x4, 0x0, 0x0, 0x0⟩
  -- 11 R310: Offset 0x084 · Reset 0x0000_0000 · Domain PD 103 · Access level U, K, H · MBX_OUT_RING
  | .MBX_OUT_RING => ⟨.phys, 0x3100000084, [⟨0x1000, 0, 8191⟩], false, 0x0, true, true, true, 103, 0, 0x0, 0x0, 0x0, 0x0, 0x0, 0x1⟩
  -- 11 R310: Offset 0x088 · Reset 0x0000_0000 · Domain PD 103 · Access level H · MBX_OUT_ACK
  | .MBX_OUT_ACK => ⟨.phys, 0x3100000088, [⟨0x1000, 0, 8191⟩], false, 0x0, false, false, true, 103, 0, 0x0, 0x0, 0x0, 0x0, 0x0, 0x1⟩
  -- 11 R310: Offset 0x08C · Reset 0x0000_0000 · Domain PD 103 · Access level H · MBX_IN_RING
  | .MBX_IN_RING => ⟨.phys, 0x310000008c, [⟨0x1000, 0, 8191⟩], false, 0x0, false, false, true, 103, 0, 0x0, 0x0, 0x0, 0x0, 0x0, 0x1⟩
  -- 11 R310: Offset 0x090 · Reset 0x0000_0000 · Domain PD 103 · Access level U, K, H · MBX_IN_ACK
  | .MBX_IN_ACK => ⟨.phys, 0x3100000090, [⟨0x1000, 0, 8191⟩], false, 0x0, true, true, true, 103, 0, 0x0, 0x0, 0x0, 0x0, 0x0, 0x1⟩
  -- 11 R310: Offset 0x094 · Reset 0x0000_0000 · Domain PD 103 · Access level U, K, H · MBX_COUNT
  | .MBX_COUNT => ⟨.phys, 0x3100000094, [⟨0x1000, 0, 8191⟩], false, 0x0, true, true, true, 103, 0, 0x0, 0xffffffff, 0x0, 0x0, 0x0, 0x0⟩
  -- 11 R310: Offset 0x100 · Reset 0x0000_0000 · Domain PD 103 · Access level U, K, H · SLICE_BIND
  | .SLICE_BIND => ⟨.phys, 0x3100000100, [⟨0x1000, 0, 8191⟩], false, 0x0, true, true, true, 103, 0, 0x0, 0xffffffff, 0x0, 0x0, 0x0, 0x0⟩
  -- 11 R310: Offset 0x104 · Reset 0x0000_0000 · Domain PD 103 · Access level U, K, H · SLICE_GRANT_Q
  | .SLICE_GRANT_Q => ⟨.phys, 0x3100000104, [⟨0x1000, 0, 8191⟩], false, 0x0, true, true, true, 103, 0, 0x0, 0x7f, 0x0, 0x0, 0x0, 0x0⟩
  -- 11 R310: Offset 0x108 · Reset 0x0000_0000 · Domain PD 103 · Access level U, K, H · SLICE_GRANT_V
  | .SLICE_GRANT_V => ⟨.phys, 0x3100000108, [⟨0x1000, 0, 8191⟩], false, 0x0, true, true, true, 103, 0, 0x0, 0x7f3fff, 0x0, 0x0, 0x0, 0x0⟩
  -- 11 R310: Offset 0x10C · Reset 0x0000_0000 · Domain PD 103 · Access level U, K, H · SLICE_GRANT_BW
  | .SLICE_GRANT_BW => ⟨.phys, 0x310000010c, [⟨0x1000, 0, 8191⟩], false, 0x0, true, true, true, 103, 0, 0x0, 0xffffff, 0x0, 0x0, 0x0, 0x0⟩
  -- 11 R310: Offset 0x110 · Reset 0x0000_0000 · Domain PD 103 · Access level U, K, H · SLICE_GEN
  | .SLICE_GEN => ⟨.phys, 0x3100000110, [⟨0x1000, 0, 8191⟩], false, 0x0, true, true, true, 103, 0, 0x0, 0x1ffff, 0x0, 0x0, 0x0, 0x0⟩
  -- 11 R310: Offset 0x114 · Reset 0x0000_0000 · Domain PD 103 · Access level U, K, H · SLICE_FAR
  | .SLICE_FAR => ⟨.phys, 0x3100000114, [⟨0x1000, 0, 8191⟩], false, 0x0, true, true, true, 103, 0, 0x0, 0x80003fff, 0x0, 0x0, 0x0, 0x0⟩
  -- 11 R310: Offset 0x120 + w × 0x10, w = 0 to 7 · Reset 0x0000_0000_0000_0000 · Domain PD 103 · Access level U, K, H · WIN
  | .WIN_A => ⟨.phys, 0x3100000120, [⟨0x1000, 0, 8191⟩, ⟨0x10, 0, 7⟩], true, 0x0, true, true, true, 103, 0, 0x0, 0xfffffffff007, 0x0, 0x0, 0x0, 0x0⟩
  -- 11 R310: Offset 0x128 + w × 0x10, w = 0 to 7 · Reset 0x0000_0000_0000_0000 · Domain PD 103 · Access level U, K, H · WIN
  | .WIN_B => ⟨.phys, 0x3100000128, [⟨0x1000, 0, 8191⟩, ⟨0x10, 0, 7⟩], true, 0x0, true, true, true, 103, 0, 0x0, 0xfffffffffffff000, 0x0, 0x0, 0x0, 0x0⟩
  -- 11 R310: Offset 0x1A0 · Reset 0x0000_0000 · Domain PD 103 · Access level U, K, H · SLICE_ERR_STATUS
  | .SLICE_ERR_STATUS => ⟨.phys, 0x31000001a0, [⟨0x1000, 0, 8191⟩], false, 0x0, true, true, true, 103, 0, 0x0, 0x3ff000, 0x3, 0x0, 0x0, 0x0⟩
  -- 11 R310: Offset 0x1A4 · Reset 0x0000_0000 · Domain PD 103 · Access level U, K, H · SLICE_ERR_COUNT
  | .SLICE_ERR_COUNT => ⟨.phys, 0x31000001a4, [⟨0x1000, 0, 8191⟩], false, 0x0, true, true, true, 103, 0, 0x0, 0x0, 0x0, 0x0, 0xffff, 0x0⟩
  -- 11 R310: Offset 0x300 · Reset 0x0000_8000 · Domain PD 103 · Access level H · SE_STATUS (slice 0 only)
  | .SE_STATUS => ⟨.phys, 0x3100000300, [⟨0x1000, 0, 0⟩], false, 0x8000, false, false, true, 103, 0, 0x0, 0x3ffff, 0x0, 0x0, 0x0, 0x0⟩
  -- 11 R310: Offset 0x304 · Reset 0x0000_0000 · Domain PD 103 · Access level H · SE_ERR_STATUS (slice 0 only)
  | .SE_ERR_STATUS => ⟨.phys, 0x3100000304, [⟨0x1000, 0, 0⟩], false, 0x0, false, false, true, 103, 0, 0x0, 0xffff8000, 0x3, 0x0, 0x0, 0x0⟩
  -- 11 R310: Offset 0x308 · Reset 0x0000_0000 · Domain PD 103 · Access level H · SE_ERR_COUNT (slice 0 only)
  | .SE_ERR_COUNT => ⟨.phys, 0x3100000308, [⟨0x1000, 0, 0⟩], false, 0x0, false, false, true, 103, 0, 0x0, 0x0, 0x0, 0x0, 0xffffffff, 0x0⟩
  -- 11 R310: Offset 0x800 + q × 0x20, q = 0 to 63 · Reset 0x0000_0000_0000_0000 · Domain PD 103 · Access level U, K, H · Q_
  | .Q_SQ_BASE => ⟨.phys, 0x3100000800, [⟨0x1000, 0, 8191⟩, ⟨0x20, 0, 63⟩], true, 0x0, true, true, true, 103, 0, 0xffffffffffc0, 0x0, 0x0, 0x0, 0x0, 0x0⟩
  -- 11 R310: Offset 0x808 + q × 0x20, q = 0 to 63 · Reset 0x0000_0000_0000_0000 · Domain PD 103 · Access level U, K, H · Q_
  | .Q_CQ_BASE => ⟨.phys, 0x3100000808, [⟨0x1000, 0, 8191⟩, ⟨0x20, 0, 63⟩], true, 0x0, true, true, true, 103, 0, 0xfffffffffff0, 0x0, 0x0, 0x0, 0x0, 0x0⟩
  -- 11 R310: Offset 0x810 + q × 0x20, q = 0 to 63 · Reset 0x0000_0000 · Domain PD 103 · Access level U, K, H · Q_CFG_q
  | .Q_CFG => ⟨.phys, 0x3100000810, [⟨0x1000, 0, 8191⟩, ⟨0x20, 0, 63⟩], false, 0x0, true, true, true, 103, 0, 0x90fcf00f, 0x6f000000, 0x0, 0x0, 0x0, 0x0⟩
  -- 11 R310: Offset 0x814 + q × 0x20, q = 0 to 63 · Reset 0x0000_0000 · Domain PD 103 · Access level U, K, H · Q_SQ_DB_q
  | .Q_SQ_DB => ⟨.phys, 0x3100000814, [⟨0x1000, 0, 8191⟩, ⟨0x20, 0, 63⟩], false, 0x0, true, true, true, 103, 0, 0x0, 0x0, 0x0, 0x0, 0x0, 0xfff⟩
  -- 11 R310: Offset 0x818 + q × 0x20, q = 0 to 63 · Reset 0x0000_0000 · Domain PD 103 · Access level U, K, H · Q_SQ_q
  | .Q_SQ => ⟨.phys, 0x3100000818, [⟨0x1000, 0, 8191⟩, ⟨0x20, 0, 63⟩], false, 0x0, true, true, true, 103, 0, 0x0, 0xffffffff, 0x0, 0x0, 0x0, 0x0⟩
  -- 11 R310: Offset 0x81C + q × 0x20, q = 0 to 63 · Reset 0x0000_0000 · Domain PD 103 · Access level U, K, H · Q_CQ_q
  | .Q_CQ => ⟨.phys, 0x310000081c, [⟨0x1000, 0, 8191⟩, ⟨0x20, 0, 63⟩], false, 0x0, true, true, true, 103, 0, 0xffff, 0xffff0000, 0x0, 0x0, 0x0, 0x0⟩
  -- 12 R334: Offset 0x0000_1000 + p × 0x100, p = 0 to 11 · Reset 0x0001_0000 · Domain PD 98 · Access level H · PORT_CFG_p
  | .PORT_CFG => ⟨.phys, 0x3007001000, [⟨0x100, 0, 11⟩], false, 0x10000, false, false, true, 98, 0, 0xfffffc00, 0x0, 0x0, 0x0, 0x0, 0x0⟩
  -- 12 R334: Offset 0x0000_1004 + p × 0x100, p = 0 to 11 · Reset 0x0000_0000 · Domain PD 98 · Access level H · PORT_STATUS_
  | .PORT_STATUS => ⟨.phys, 0x3007001004, [⟨0x100, 0, 11⟩], false, 0x0, false, false, true, 98, 0, 0x0, 0x1f, 0x20, 0x0, 0x0, 0x0⟩
  -- 12 R334: Offset 0x0000_1008 + p × 0x100, p = 10 to 11 · Reset 0x0000_0000 · Domain PD 98 · Access level H · T1L_DIAG_p
  | .T1L_DIAG => ⟨.phys, 0x3007001008, [⟨0x100, 10, 11⟩], false, 0x0, false, false, true, 98, 0, 0x0, 0x1ffff, 0x0, 0x0, 0x0, 0x0⟩
  -- 12 R335: Offset 0x0000_1010 + p × 0x100, p = 0 to 11 · Reset 0x0000_0001 · Domain PD 98 · Access level H · QBV_CTL_p
  | .QBV_CTL => ⟨.phys, 0x3007001010, [⟨0x100, 0, 11⟩], false, 0x1, false, false, true, 98, 0, 0x800001ff, 0x41ff0000, 0x0, 0x0, 0x0, 0x0⟩
  -- 12 R335: Offset 0x0000_1014 + p × 0x100, p = 0 to 11 · Reset 0x000F_4240 · Domain PD 98 · Access level H · QBV_CYCLE_p
  | .QBV_CYCLE => ⟨.phys, 0x3007001014, [⟨0x100, 0, 11⟩], false, 0xf4240, false, false, true, 98, 0, 0x3fffffff, 0x0, 0x0, 0x0, 0x0, 0x0⟩
  -- 12 R335: Offset 0x0000_1018 + p × 0x100 and 0x0000_101C + p × 0x100, p = 0 to 11 · Reset 0x0000_0000 · Domain PD 98 · A
  | .QBV_BASE_LO => ⟨.phys, 0x3007001018, [⟨0x100, 0, 11⟩], false, 0x0, false, false, true, 98, 0, 0xffffffff, 0x0, 0x0, 0x0, 0x0, 0x0⟩
  -- 12 R335: Offset 0x0000_1018 + p × 0x100 and 0x0000_101C + p × 0x100, p = 0 to 11 · Reset 0x0000_0000 · Domain PD 98 · A
  | .QBV_BASE_HI => ⟨.phys, 0x300700101c, [⟨0x100, 0, 11⟩], false, 0x0, false, false, true, 98, 0, 0xffffffff, 0x0, 0x0, 0x0, 0x0, 0x0⟩
  -- 12 R335: Offset 0x0000_1040 + p × 0x100 · CNT_RX_p; 0x0000_1044 + p × 0x100 · CNT_TX_p; 0x0000_1048 + p × 0x100 · CNT_D
  | .CNT_RX => ⟨.phys, 0x3007001040, [⟨0x100, 0, 11⟩], false, 0x0, false, false, true, 98, 0, 0x0, 0x0, 0x0, 0x0, 0xffffffff, 0x0⟩
  -- 12 R335: Offset 0x0000_1040 + p × 0x100 · CNT_RX_p; 0x0000_1044 + p × 0x100 · CNT_TX_p; 0x0000_1048 + p × 0x100 · CNT_D
  | .CNT_TX => ⟨.phys, 0x3007001044, [⟨0x100, 0, 11⟩], false, 0x0, false, false, true, 98, 0, 0x0, 0x0, 0x0, 0x0, 0xffffffff, 0x0⟩
  -- 12 R335: Offset 0x0000_1040 + p × 0x100 · CNT_RX_p; 0x0000_1044 + p × 0x100 · CNT_TX_p; 0x0000_1048 + p × 0x100 · CNT_D
  | .CNT_DROP_LEN => ⟨.phys, 0x3007001048, [⟨0x100, 0, 11⟩], false, 0x0, false, false, true, 98, 0, 0x0, 0x0, 0x0, 0x0, 0xffffffff, 0x0⟩
  -- 12 R335: Offset 0x0000_1040 + p × 0x100 · CNT_RX_p; 0x0000_1044 + p × 0x100 · CNT_TX_p; 0x0000_1048 + p × 0x100 · CNT_D
  | .CNT_DROP_FCS => ⟨.phys, 0x300700104c, [⟨0x100, 0, 11⟩], false, 0x0, false, false, true, 98, 0, 0x0, 0x0, 0x0, 0x0, 0xffffffff, 0x0⟩
  -- 12 R335: Offset 0x0000_1040 + p × 0x100 · CNT_RX_p; 0x0000_1044 + p × 0x100 · CNT_TX_p; 0x0000_1048 + p × 0x100 · CNT_D
  | .CNT_DROP_OFF => ⟨.phys, 0x3007001050, [⟨0x100, 0, 11⟩], false, 0x0, false, false, true, 98, 0, 0x0, 0x0, 0x0, 0x0, 0xffffffff, 0x0⟩
  -- 12 R335: Offset 0x0000_1040 + p × 0x100 · CNT_RX_p; 0x0000_1044 + p × 0x100 · CNT_TX_p; 0x0000_1048 + p × 0x100 · CNT_D
  | .CNT_DROP_VLAN => ⟨.phys, 0x3007001054, [⟨0x100, 0, 11⟩], false, 0x0, false, false, true, 98, 0, 0x0, 0x0, 0x0, 0x0, 0xffffffff, 0x0⟩
  -- 12 R335: Offset 0x0000_1040 + p × 0x100 · CNT_RX_p; 0x0000_1044 + p × 0x100 · CNT_TX_p; 0x0000_1048 + p × 0x100 · CNT_D
  | .CNT_DROP_FULL => ⟨.phys, 0x3007001058, [⟨0x100, 0, 11⟩], false, 0x0, false, false, true, 98, 0, 0x0, 0x0, 0x0, 0x0, 0xffffffff, 0x0⟩
  -- 12 R335: Offset 0x0000_1040 + p × 0x100 · CNT_RX_p; 0x0000_1044 + p × 0x100 · CNT_TX_p; 0x0000_1048 + p × 0x100 · CNT_D
  | .CNT_LEARN_FULL => ⟨.phys, 0x300700105c, [⟨0x100, 0, 11⟩], false, 0x0, false, false, true, 98, 0, 0x0, 0x0, 0x0, 0x0, 0xffffffff, 0x0⟩
  -- 12 R335: Offset 0x0000_8000 + p × 0x800 + e × 0x8, p = 0 to 11, e = 0 to 255 · Reset 0x0000_00FF · Domain PD 98 · Acces
  | .QBV_GATES => ⟨.phys, 0x3007008000, [⟨0x800, 0, 11⟩, ⟨0x8, 0, 255⟩], false, 0xff, false, false, true, 98, 0, 0xff, 0x0, 0x0, 0x0, 0x0, 0x0⟩
  -- 12 R335: Offset 0x0000_8004 + p × 0x800 + e × 0x8, p = 0 to 11, e = 0 to 255 · Reset 0x0000_03E8 · Domain PD 98 · Acces
  | .QBV_IVL => ⟨.phys, 0x3007008004, [⟨0x800, 0, 11⟩, ⟨0x8, 0, 255⟩], false, 0x3e8, false, false, true, 98, 0, 0xffffffff, 0x0, 0x0, 0x0, 0x0, 0x0⟩
  -- 12 R335: Offset 0x0000_0000 · Reset 0x0000_0000 · Domain PD 98 · Access level H · SW_CTL
  | .SW_CTL => ⟨.phys, 0x3007000000, [], false, 0x0, false, false, true, 98, 0, 0x1, 0x0, 0x0, 0x0, 0x0, 0x2⟩
  -- 12 R335: Offset 0x0000_0004 · Reset 0x0000_012C · Domain PD 98 · Access level H · FDB_AGE
  | .FDB_AGE => ⟨.phys, 0x3007000004, [], false, 0x12c, false, false, true, 98, 0, 0xffff, 0x0, 0x0, 0x0, 0x0, 0x0⟩
  -- 12 R335: Offset 0x0000_0010 + i × 0x4, i = 0 to 1 · Reset 0x0190_07D0 · Domain PD 98 · Access level H · HSR_CFG_i
  | .HSR_CFG => ⟨.phys, 0x3007000010, [⟨0x4, 0, 1⟩], false, 0x19007d0, false, false, true, 98, 0, 0xffffffff, 0x0, 0x0, 0x0, 0x0, 0x0⟩
  -- 12 R335: Offset 0x0000_0100 + k × 0x40, k = 0 to 3 · Reset 0x0000_0000 · Domain PD 98 · Access level Fetas · PTP_RATE_k
  | .PTP_RATE => ⟨.phys, 0x3007000100, [⟨0x40, 0, 3⟩], false, 0x0, false, false, false, 98, 0, 0xffffffff, 0x0, 0x0, 0x0, 0x0, 0x0⟩
  -- 12 R335: Offset 0x0000_0104 + k × 0x40 + i × 0x4, k = 0 to 3, i = 0 to 2 · Reset 0x0000_0000 · Domain PD 98 · Access le
  | .PTP_OFS => ⟨.phys, 0x3007000104, [⟨0x40, 0, 3⟩, ⟨0x4, 0, 2⟩], false, 0x0, false, false, false, 98, 0, 0xffffffff, 0x0, 0x0, 0x0, 0x0, 0x0⟩
  -- 12 R335: Offset 0x0000_0110 + k × 0x40, k = 0 to 3 · Reset 0x0000_0000 · Domain PD 98 · Access level Fetas · PTP_CTL_k
  | .PTP_CTL => ⟨.phys, 0x3007000110, [⟨0x40, 0, 3⟩], false, 0x0, false, false, false, 98, 0, 0xff02, 0x0, 0x0, 0x0, 0x0, 0x1⟩
  -- 12 R335: Offset 0x0000_0118 + k × 0x40 and 0x0000_011C + k × 0x40, k = 0 to 3 · Reset 0x0000_0000 · Domain PD 98 · Acce
  | .PTP_COMMIT_LO => ⟨.phys, 0x3007000118, [⟨0x40, 0, 3⟩], false, 0x0, false, false, true, 98, 0, 0x0, 0xffffffff, 0x0, 0x0, 0x0, 0x0⟩
  -- 12 R335: Offset 0x0000_0118 + k × 0x40 and 0x0000_011C + k × 0x40, k = 0 to 3 · Reset 0x0000_0000 · Domain PD 98 · Acce
  | .PTP_COMMIT_HI => ⟨.phys, 0x300700011c, [⟨0x40, 0, 3⟩], false, 0x0, false, false, true, 98, 0, 0x0, 0xffffffff, 0x0, 0x0, 0x0, 0x0⟩
  -- 12 R335: Offset 0x0000_0000 + u × 0x1000, u = 0 to 5 · Reset 0x0000_0000 · Domain PD 106 · Access level H · UART_CFG_u
  | .UART_CFG => ⟨.phys, 0x3009000000, [⟨0x1000, 0, 5⟩], false, 0x0, false, false, true, 106, 0, 0xe0ffff39, 0x0, 0x0, 0x0, 0x0, 0x0⟩
  -- 12 R335: Offset 0x0000_0004 + u × 0x1000, u = 0 to 5 · Reset 0x0000_0000 · Domain PD 106 · Access level H · UART_BAUD_u
  | .UART_BAUD => ⟨.phys, 0x3009000004, [⟨0x1000, 0, 5⟩], false, 0x0, false, false, true, 106, 0, 0xfffff, 0x0, 0x0, 0x0, 0x0, 0x0⟩
  -- 12 R335: Offset 0x0000_000C + u × 0x1000, u = 0 to 5 · Reset 0x0000_0000 · Domain PD 106 · Access level H · UART_STAT_u
  | .UART_STAT => ⟨.phys, 0x300900000c, [⟨0x1000, 0, 5⟩], false, 0x0, false, false, true, 106, 0, 0x0, 0xffff0003, 0x7c, 0x0, 0x0, 0x0⟩
  -- 12 R335: Offset 0x0000_0008 + u × 0x1000, u = 0 to 5 · Reset 0x0000_0000 · Domain PD 106 · Access level H · UART_RXD_u
  | .UART_RXD => ⟨.phys, 0x3009000008, [⟨0x1000, 0, 5⟩], false, 0x0, false, false, true, 106, 0, 0x0, 0x0, 0x0, 0x0, 0x800003ff, 0x0⟩
  -- 12 R335: Offset 0x0000_0010 + u × 0x1000, u = 0 to 5 · Reset 0x0000_0000 · Domain PD 106 · Access level H · UART_TXD_u
  | .UART_TXD => ⟨.phys, 0x3009000010, [⟨0x1000, 0, 5⟩], false, 0x0, false, false, true, 106, 0, 0x0, 0x0, 0x0, 0x0, 0x0, 0xff⟩
  -- 12 R336: Offset 0x0001_0000 + k × 0x4000, k = 0 to 1 · Reset 0x0000_0000 · Domain PD 106 · Access level H · CAN_CTL_k
  | .CAN_CTL => ⟨.phys, 0x3009010000, [⟨0x4000, 0, 1⟩], false, 0x0, false, false, true, 106, 0, 0xfc000000, 0x0, 0x0, 0x0, 0x0, 0x0⟩
  -- 12 R336: Offset 0x0001_0004 + k × 0x4000, k = 0 to 1 · Reset 0x0000_0000 · Domain PD 106 · Access level H · CAN_NBT_k
  | .CAN_NBT => ⟨.phys, 0x3009010004, [⟨0x4000, 0, 1⟩], false, 0x0, false, false, true, 106, 0, 0xffffffff, 0x0, 0x0, 0x0, 0x0, 0x0⟩
  -- 12 R336: Offset 0x0001_0008 + k × 0x4000, k = 0 to 1 · Reset 0x0000_0000 · Domain PD 106 · Access level H · CAN_DBT_k
  | .CAN_DBT => ⟨.phys, 0x3009010008, [⟨0x4000, 0, 1⟩], false, 0x0, false, false, true, 106, 0, 0xffffc000, 0x0, 0x0, 0x0, 0x0, 0x0⟩
  -- 12 R336: Offset 0x0001_000C + k × 0x4000, k = 0 to 1 · Reset 0x0000_0000 · Domain PD 106 · Access level H · CAN_TDC_k
  | .CAN_TDC => ⟨.phys, 0x300901000c, [⟨0x4000, 0, 1⟩], false, 0x0, false, false, true, 106, 0, 0x3f80, 0x0, 0x0, 0x0, 0x0, 0x0⟩
  -- 12 R336: Offset 0x0001_0010 + k × 0x4000, k = 0 to 1 · Reset 0x0000_0000 · Domain PD 106 · Access level H · CAN_STAT_k
  | .CAN_STAT => ⟨.phys, 0x3009010010, [⟨0x4000, 0, 1⟩], false, 0x0, false, false, true, 106, 0, 0x0, 0xffff0d, 0x12, 0x0, 0x0, 0x0⟩
  -- 12 R336: Offset 0x0001_0014 + k × 0x4000 · CAN_IRQ_k (W1C); 0x0001_0018 + k × 0x4000 · CAN_IEN_k (RW); k = 0 to 1 · Res
  | .CAN_IRQ => ⟨.phys, 0x3009010014, [⟨0x4000, 0, 1⟩], false, 0x0, false, false, true, 106, 0, 0x0, 0x0, 0xf, 0x0, 0x0, 0x0⟩
  -- 12 R336: Offset 0x0001_0014 + k × 0x4000 · CAN_IRQ_k (W1C); 0x0001_0018 + k × 0x4000 · CAN_IEN_k (RW); k = 0 to 1 · Res
  | .CAN_IEN => ⟨.phys, 0x3009010018, [⟨0x4000, 0, 1⟩], false, 0x0, false, false, true, 106, 0, 0xf, 0x0, 0x0, 0x0, 0x0, 0x0⟩
  -- 12 R336: Offset 0x0001_0020 + k × 0x4000 + i × 0x4 · CAN_MBIRQ_k_i (W1C); 0x0001_0028 + k × 0x4000 + i × 0x4 · CAN_MBIE
  | .CAN_MBIRQ => ⟨.phys, 0x3009010020, [⟨0x4000, 0, 1⟩, ⟨0x4, 0, 1⟩], false, 0x0, false, false, true, 106, 0, 0x0, 0x0, 0xffffffff, 0x0, 0x0, 0x0⟩
  -- 12 R336: Offset 0x0001_0020 + k × 0x4000 + i × 0x4 · CAN_MBIRQ_k_i (W1C); 0x0001_0028 + k × 0x4000 + i × 0x4 · CAN_MBIE
  | .CAN_MBIEN => ⟨.phys, 0x3009010028, [⟨0x4000, 0, 1⟩, ⟨0x4, 0, 1⟩], false, 0x0, false, false, true, 106, 0, 0xffffffff, 0x0, 0x0, 0x0, 0x0, 0x0⟩
  -- 12 R336: Offset 0x0001_0400 + k × 0x4000 + f × 0x8, k = 0 to 1, f = 0 to 127 · Reset 0x0000_0000 · Domain PD 106 · Acce
  | .CAN_FLT_ID => ⟨.phys, 0x3009010400, [⟨0x4000, 0, 1⟩, ⟨0x8, 0, 127⟩], false, 0x0, false, false, true, 106, 0, 0xdfffffff, 0x0, 0x0, 0x0, 0x0, 0x0⟩
  -- 12 R336: Offset 0x0001_0404 + k × 0x4000 + f × 0x8, k = 0 to 1, f = 0 to 127 · Reset 0x0000_0000 · Domain PD 106 · Acce
  | .CAN_FLT_MASK => ⟨.phys, 0x3009010404, [⟨0x4000, 0, 1⟩, ⟨0x8, 0, 127⟩], false, 0x0, false, false, true, 106, 0, 0x1fffffff, 0x0, 0x0, 0x0, 0x0, 0x0⟩
  -- 12 R336: Offset 0x0001_1000 + k × 0x4000 + b × 0x50 · Reset 0x0000_0000 · Domain PD 106 · Access level H · CAN_MB_ID_k_
  | .CAN_MB_ID => ⟨.phys, 0x3009011000, [⟨0x4000, 0, 1⟩, ⟨0x50, 0, 63⟩], false, 0x0, false, false, true, 106, 0, 0xdfffffff, 0x0, 0x0, 0x0, 0x0, 0x0⟩
  -- 12 R336: Offset 0x0001_1004 + k × 0x4000 + b × 0x50 · Reset 0x0000_0000 · Domain PD 106 · Access level H · CAN_MB_CTRL_
  | .CAN_MB_CTRL => ⟨.phys, 0x3009011004, [⟨0x4000, 0, 1⟩, ⟨0x50, 0, 63⟩], false, 0x0, false, false, true, 106, 0, 0xfc0f0000, 0x2000000, 0x0, 0x0, 0x0, 0x1000000⟩
  -- 12 R336: message buffer data words 0 to 15 at 0x08, RW
  | .CAN_MB_DATA => ⟨.phys, 0x3009011008, [⟨0x4000, 0, 1⟩, ⟨0x50, 0, 63⟩, ⟨0x4, 0, 15⟩], false, 0x0, false, false, true, 106, 0, 0xffffffff, 0x0, 0x0, 0x0, 0x0, 0x0⟩
  -- 12 R336: message buffer timestamp words 0 and 1 at 0x48, RO
  | .CAN_MB_TS => ⟨.phys, 0x3009011048, [⟨0x4000, 0, 1⟩, ⟨0x50, 0, 63⟩, ⟨0x4, 0, 1⟩], false, 0x0, false, false, true, 106, 0, 0x0, 0xffffffff, 0x0, 0x0, 0x0, 0x0⟩
  -- 12 R337: Offset 0x0001_8000 + k × 0x1000, k = 0 to 3 · Reset 0x0001_0000 · Domain PD 106 · Access level H · SPI_CFG_k
  | .SPI_CFG => ⟨.phys, 0x3009018000, [⟨0x1000, 0, 3⟩], false, 0x10000, false, false, true, 106, 0, 0xf8ff000f, 0x0, 0x0, 0x0, 0x0, 0x0⟩
  -- 12 R337: Offset 0x0001_8004 + k × 0x1000, k = 0 to 3 · Reset 0x0000_0000 · Domain PD 106 · Access level H · SPI_XFER_k
  | .SPI_XFER => ⟨.phys, 0x3009018004, [⟨0x1000, 0, 3⟩], false, 0x0, false, false, true, 106, 0, 0x0, 0x0, 0x0, 0x0, 0x0, 0x8e001fff⟩
  -- 12 R337: Offset 0x0001_8008 + k × 0x1000, k = 0 to 3 · Reset 0x0000_0000 · Domain PD 106 · Access level H · SPI_TXD_k
  | .SPI_TXD => ⟨.phys, 0x3009018008, [⟨0x1000, 0, 3⟩], false, 0x0, false, false, true, 106, 0, 0x0, 0x0, 0x0, 0x0, 0x0, 0xff⟩
  -- 12 R337: Offset 0x0001_800C + k × 0x1000, k = 0 to 3 · Reset 0x0000_0000 · Domain PD 106 · Access level H · SPI_RXD_k
  | .SPI_RXD => ⟨.phys, 0x300901800c, [⟨0x1000, 0, 3⟩], false, 0x0, false, false, true, 106, 0, 0x0, 0x0, 0x0, 0x0, 0x800000ff, 0x0⟩
  -- 12 R337: Offset 0x0001_8010 + k × 0x1000, k = 0 to 3 · Reset 0x0000_0000 · Domain PD 106 · Access level H · SPI_STAT_k
  | .SPI_STAT => ⟨.phys, 0x3009018010, [⟨0x1000, 0, 3⟩], false, 0x0, false, false, true, 106, 0, 0x0, 0xffff0001, 0x6, 0x0, 0x0, 0x0⟩
  -- 12 R338: Offset 0x0001_C000 + k × 0x1000, k = 0 to 3 · Reset 0x0000_0000 · Domain PD 106 · Access level H · I2C_CFG_k
  | .I2C_CFG => ⟨.phys, 0x300901c000, [⟨0x1000, 0, 3⟩], false, 0x0, false, false, true, 106, 0, 0xfc0003ff, 0x0, 0x0, 0x0, 0x0, 0x0⟩
  -- 12 R338: Offset 0x0001_C004 + k × 0x1000, k = 0 to 3 · Reset 0x0000_0000 · Domain PD 106 · Access level H · I2C_CMD_k
  | .I2C_CMD => ⟨.phys, 0x300901c004, [⟨0x1000, 0, 3⟩], false, 0x0, false, false, true, 106, 0, 0x0, 0x0, 0x0, 0x0, 0x0, 0xf3ff1fff⟩
  -- 12 R338: Offset 0x0001_C008 + k × 0x1000 · I2C_TXD_k (layout of SPI_TXD_k); 0x0001_C00C + k × 0x1000 · I2C_RXD_k (layou
  | .I2C_TXD => ⟨.phys, 0x300901c008, [⟨0x1000, 0, 3⟩], false, 0x0, false, false, true, 106, 0, 0x0, 0x0, 0x0, 0x0, 0x0, 0xff⟩
  -- 12 R338: Offset 0x0001_C008 + k × 0x1000 · I2C_TXD_k (layout of SPI_TXD_k); 0x0001_C00C + k × 0x1000 · I2C_RXD_k (layou
  | .I2C_RXD => ⟨.phys, 0x300901c00c, [⟨0x1000, 0, 3⟩], false, 0x0, false, false, true, 106, 0, 0x0, 0x0, 0x0, 0x0, 0x800000ff, 0x0⟩
  -- 12 R338: Offset 0x0001_C010 + k × 0x1000, k = 0 to 3 · Reset 0x0000_0000 · Domain PD 106 · Access level H · I2C_STAT_k
  | .I2C_STAT => ⟨.phys, 0x300901c010, [⟨0x1000, 0, 3⟩], false, 0x0, false, false, true, 106, 0, 0x0, 0xffff0001, 0x3e, 0x0, 0x0, 0x0⟩
  -- 12 R339: Offset 0x0002_0000 + k × 0x4 · GPIO_IN_k (RO); 0x0002_0008 + k × 0x4 · GPIO_OUT_k (RW); 0x0002_0010 + k × 0x4 
  | .GPIO_IN => ⟨.phys, 0x3009020000, [⟨0x4, 0, 1⟩], false, 0x0, false, false, true, 106, 0, 0x0, 0xffffffff, 0x0, 0x0, 0x0, 0x0⟩
  -- 12 R339: Offset 0x0002_0000 + k × 0x4 · GPIO_IN_k (RO); 0x0002_0008 + k × 0x4 · GPIO_OUT_k (RW); 0x0002_0010 + k × 0x4 
  | .GPIO_OUT => ⟨.phys, 0x3009020008, [⟨0x4, 0, 1⟩], false, 0x0, false, false, true, 106, 0, 0xffffffff, 0x0, 0x0, 0x0, 0x0, 0x0⟩
  -- 12 R339: Offset 0x0002_0000 + k × 0x4 · GPIO_IN_k (RO); 0x0002_0008 + k × 0x4 · GPIO_OUT_k (RW); 0x0002_0010 + k × 0x4 
  | .GPIO_SET => ⟨.phys, 0x3009020010, [⟨0x4, 0, 1⟩], false, 0x0, false, false, true, 106, 0, 0x0, 0x0, 0x0, 0x0, 0x0, 0xffffffff⟩
  -- 12 R339: Offset 0x0002_0000 + k × 0x4 · GPIO_IN_k (RO); 0x0002_0008 + k × 0x4 · GPIO_OUT_k (RW); 0x0002_0010 + k × 0x4 
  | .GPIO_CLR => ⟨.phys, 0x3009020018, [⟨0x4, 0, 1⟩], false, 0x0, false, false, true, 106, 0, 0x0, 0x0, 0x0, 0x0, 0x0, 0xffffffff⟩
  -- 12 R339: Offset 0x0002_0000 + k × 0x4 · GPIO_IN_k (RO); 0x0002_0008 + k × 0x4 · GPIO_OUT_k (RW); 0x0002_0010 + k × 0x4 
  | .GPIO_OE => ⟨.phys, 0x3009020020, [⟨0x4, 0, 1⟩], false, 0x0, false, false, true, 106, 0, 0xffffffff, 0x0, 0x0, 0x0, 0x0, 0x0⟩
  -- 12 R339: Offset 0x0002_0000 + k × 0x4 · GPIO_IN_k (RO); 0x0002_0008 + k × 0x4 · GPIO_OUT_k (RW); 0x0002_0010 + k × 0x4 
  | .GPIO_OD => ⟨.phys, 0x3009020028, [⟨0x4, 0, 1⟩], false, 0x0, false, false, true, 106, 0, 0xffffffff, 0x0, 0x0, 0x0, 0x0, 0x0⟩
  -- 12 R339: Offset 0x0002_0000 + k × 0x4 · GPIO_IN_k (RO); 0x0002_0008 + k × 0x4 · GPIO_OUT_k (RW); 0x0002_0010 + k × 0x4 
  | .GPIO_ISTAT => ⟨.phys, 0x3009020030, [⟨0x4, 0, 1⟩], false, 0x0, false, false, true, 106, 0, 0x0, 0x0, 0xffffffff, 0x0, 0x0, 0x0⟩
  -- 12 R339: Offset 0x0002_0100 + n × 0x4, n = 0 to 63 · Reset 0x0000_0000 · Domain PD 106 · Access level H · GPIO_ICFG_n
  | .GPIO_ICFG => ⟨.phys, 0x3009020100, [⟨0x4, 0, 63⟩], false, 0x0, false, false, true, 106, 0, 0xf, 0x0, 0x0, 0x0, 0x0, 0x0⟩
  -- 12 R340: Offset 0x0003_0000 · Reset 0x0003_0300 · Domain PD 106 · Access level H · QSPI_CFG
  | .QSPI_CFG => ⟨.phys, 0x3009030000, [], false, 0x30300, false, false, true, 106, 0, 0xffffff1f, 0x0, 0x0, 0x0, 0x0, 0x0⟩
  -- 12 R340: Offset 0x0003_0004 · Reset 0x0000_0000 · Domain PD 106 · Access level H · QSPI_STAT
  | .QSPI_STAT => ⟨.phys, 0x3009030004, [], false, 0x0, false, false, true, 106, 0, 0x0, 0x1, 0x0, 0x0, 0x0, 0x0⟩
  -- 12 R340: Offset 0x0000_0000 · Reset 0x0F00_03E8 · Domain PD 102 · Access level H · PCIE_CTL
  | .PCIE_CTL => ⟨.phys, 0x3008000000, [], false, 0xf0003e8, false, false, true, 102, 0, 0x8f001fff, 0x40000000, 0x0, 0x0, 0x0, 0x0⟩
  -- 12 R340: Offset 0x0000_0004 · Reset 0x0000_0000 · Domain PD 102 · Access level H · PCIE_LINK
  | .PCIE_LINK => ⟨.phys, 0x3008000004, [], false, 0x0, false, false, true, 102, 0, 0x0, 0x3d, 0x2, 0x0, 0x0, 0x0⟩
  -- 13 R372: Offset 0x000 + m × 0x1000 + w × 0x4, w = 0 to 15 · Reset 0x0000_0000 · Domain PD 2 · Access level H · REQ_MSG_
  | .REQ_MSG => ⟨.phys, 0x3001000000, [⟨0x1000, 0, 7⟩, ⟨0x4, 0, 15⟩], false, 0x0, false, false, true, 2, 0, 0xffffffff, 0x0, 0x0, 0x0, 0x0, 0x0⟩
  -- 13 R372: Offset 0x040 + m × 0x1000 + w × 0x4, w = 0 to 15 · Reset 0x0000_0000 · Domain PD 2 · Access level H · RSP_MSG_
  | .RSP_MSG => ⟨.phys, 0x3001000040, [⟨0x1000, 0, 7⟩, ⟨0x4, 0, 15⟩], false, 0x0, false, false, true, 2, 0, 0x0, 0xffffffff, 0x0, 0x0, 0x0, 0x0⟩
  -- 13 R372: Offset 0x080 + m × 0x1000 + w × 0x4, w = 0 to 15 · Reset 0x0000_0000 · Domain PD 2 · Access level H · EVT_MSG_
  | .EVT_MSG => ⟨.phys, 0x3001000080, [⟨0x1000, 0, 7⟩, ⟨0x4, 0, 15⟩], false, 0x0, false, false, true, 2, 0, 0x0, 0xffffffff, 0x0, 0x0, 0x0, 0x0⟩
  -- 13 R372: Offset 0x0C0 + m × 0x1000 · Reset 0x0000_0000 · Domain PD 2 · Access level H · MBX_STAT_m
  | .FSI_MBX_STAT => ⟨.phys, 0x30010000c0, [⟨0x1000, 0, 7⟩], false, 0x0, false, false, true, 2, 0, 0x0, 0x7, 0x8, 0x0, 0x0, 0x0⟩
  -- 13 R372: Offset 0x0C4 + m × 0x1000 · Reset 0x0000_0000 · Domain PD 2 · Access level H · REQ_RING_m
  | .REQ_RING => ⟨.phys, 0x30010000c4, [⟨0x1000, 0, 7⟩], false, 0x0, false, false, true, 2, 0, 0x0, 0x0, 0x0, 0x0, 0x0, 0x1⟩
  -- 13 R372: Offset 0x0C8 + m × 0x1000 · Reset 0x0000_0000 · Domain PD 2 · Access level H · RSP_ACK_m
  | .RSP_ACK => ⟨.phys, 0x30010000c8, [⟨0x1000, 0, 7⟩], false, 0x0, false, false, true, 2, 0, 0x0, 0x0, 0x0, 0x0, 0x0, 0x1⟩
  -- 13 R372: Offset 0x0CC + m × 0x1000 · Reset 0x0000_0000 · Domain PD 2 · Access level H · EVT_ACK_m
  | .EVT_ACK => ⟨.phys, 0x30010000cc, [⟨0x1000, 0, 7⟩], false, 0x0, false, false, true, 2, 0, 0x0, 0x0, 0x0, 0x0, 0x0, 0x1⟩
  -- 13 R372: Offset 0x0D0 + m × 0x1000 · Reset 0x0000_0000 · Domain PD 2 · Access level H · MBX_COUNT_m
  | .FSI_MBX_COUNT => ⟨.phys, 0x30010000d0, [⟨0x1000, 0, 7⟩], false, 0x0, false, false, true, 2, 0, 0x0, 0xffffffff, 0x0, 0x0, 0x0, 0x0⟩
  -- 13 R372: Offset 0x0D4 + m × 0x1000 · Reset 0x0000_0000 · Domain PD 2 · Access level H · EVT_MASK_m
  | .EVT_MASK => ⟨.phys, 0x30010000d4, [⟨0x1000, 0, 7⟩], false, 0x0, false, false, true, 2, 0, 0x3ffe, 0x0, 0x0, 0x0, 0x0, 0x0⟩
  -- 13 R372: Offset 0x8000 · Reset 0x0000_0000 · Domain PD 2 · Access level H · FSI_STATUS
  | .FSI_STATUS => ⟨.phys, 0x3001008000, [], false, 0x0, false, false, true, 2, 0, 0x0, 0xffff0003, 0x0, 0x0, 0x0, 0x0⟩
  -- 14 R403: Offset 0x0000_0000 · Reset 0x0000_0000 · Domain PD 0 · Access level H · MAST_TICK_LO
  | .MAST_TICK_LO => ⟨.phys, 0x3000000000, [], false, 0x0, false, false, true, 0, 0, 0x0, 0xffffffff, 0x0, 0x0, 0x0, 0x0⟩
  -- 14 R403: Offset 0x0000_0004 · Reset 0x0000_0000 · Domain PD 0 · Access level H · MAST_TICK_HI
  | .MAST_TICK_HI => ⟨.phys, 0x3000000004, [], false, 0x0, false, false, true, 0, 0, 0x0, 0xffff, 0x0, 0x0, 0x0, 0x0⟩
  -- 14 R403: Offset 0x0000_0008 · Reset 0x0000_0000 · Domain PD 0 · Access level H · MAST_MODE
  | .MAST_MODE => ⟨.phys, 0x3000000008, [], false, 0x0, false, false, true, 0, 0, 0x0, 0xf70007, 0x0, 0x0, 0x0, 0x0⟩
  -- 14 R403: Offset 0x0000_0010 · Reset 0x0000_0000 · Domain PD 0 · Access level H · WAKE_STAT
  | .WAKE_STAT => ⟨.phys, 0x3000000010, [], false, 0x0, false, false, true, 0, 0, 0x0, 0x0, 0x3fffff, 0x0, 0x0, 0x0⟩
  -- 14 R403: Offset 0x0000_0014 · Reset 0x0000_0000 · Domain PD 0 · Access level H · WAKE_EN
  | .WAKE_EN => ⟨.phys, 0x3000000014, [], false, 0x0, false, false, true, 0, 0, 0x0, 0x3ffff, 0x0, 0x0, 0x0, 0x0⟩
  -- 14 R403: Offset 0x0000_0020 + n × 0x4, n = 0 to 7 · Reset 0x0000_0000 · Domain PD 0 · Access level H · WAKE_CMP_n
  | .WAKE_CMP => ⟨.phys, 0x3000000020, [⟨0x4, 0, 7⟩], false, 0x0, false, false, true, 0, 0, 0x0, 0xffc000ff, 0x0, 0x0, 0x0, 0x0⟩
  -- 14 R403: Offset 0x0000_0040 + n × 0x8, n = 0 to 3 · Reset 0x0000_0000 · Domain PD 0 · Access level H · ALARM_n_LO
  | .ALARM_LO => ⟨.phys, 0x3000000040, [⟨0x8, 0, 3⟩], false, 0x0, false, false, true, 0, 0, 0x0, 0xffffffff, 0x0, 0x0, 0x0, 0x0⟩
  -- 14 R403: Offset 0x0000_0044 + n × 0x8, n = 0 to 3 · Reset 0x0000_0000 · Domain PD 0 · Access level H · ALARM_n_HI
  | .ALARM_HI => ⟨.phys, 0x3000000044, [⟨0x8, 0, 3⟩], false, 0x0, false, false, true, 0, 0, 0x0, 0xc000ffff, 0x0, 0x0, 0x0, 0x0⟩
  -- 14 R403: Offset 0x0000_0060 · Reset 0x0000_0000 · Domain PD 0 · Access level H · UART_ACT
  | .UART_ACT => ⟨.phys, 0x3000000060, [], false, 0x0, false, false, true, 0, 0, 0x0, 0x3f, 0x0, 0x0, 0x0, 0x0⟩
  -- 14 R403: Offset 0x0000_0064 · Reset 0x0226_01F4 · Domain PD 0 · Access level H · PF_CFG
  | .PF_CFG => ⟨.phys, 0x3000000064, [], false, 0x22601f4, false, false, true, 0, 0, 0x0, 0xe3ffe3ff, 0x0, 0x0, 0x0, 0x0⟩
  -- 14 R403: Offset 0x0000_0070 + n × 0x4, n = 0 to 5 · Reset 0x00FE_0064 · Domain PD 0 · Access level H · PWR_SEQ_n
  | .PWR_SEQ => ⟨.phys, 0x3000000070, [⟨0x4, 0, 5⟩], false, 0xfe0064, false, false, true, 0, 0, 0x0, 0x80ff00ff, 0x0, 0x0, 0x0, 0x0⟩
  -- 14 R403: Offset 0x0000_0090 · Reset 0x0000_0040 · Domain PD 0 · Access level Fetas · WDOG_CFG
  | .WDOG_CFG => ⟨.phys, 0x3000000090, [], false, 0x40, false, false, false, 0, 0, 0xff, 0x0, 0x0, 0x0, 0x0, 0x80000000⟩
  -- 14 R403: Offset 0x0000_0100 + q × 0x4, q = 0 to 15 · Reset 0x0000_0000 · Domain PD 0 · Access level H · QUAD_REEF_q
  | .QUAD_REEF => ⟨.phys, 0x3000000100, [⟨0x4, 0, 15⟩], false, 0x0, false, false, true, 0, 0, 0x0, 0xf003ff, 0x0, 0x0, 0xff000000, 0x0⟩
  -- 14 R403: Offset 0x00FF_FF00 · Reset 0x0000_0000 · Domain as the unit · Access level H · CFG_CRC
  | .CFG_CRC => ⟨.phys, 0x3000ffff00, [⟨0x1000000, 0, 31⟩], false, 0x0, false, false, true, 999, 0, 0x0, 0xffffffff, 0x0, 0x0, 0x0, 0x0⟩
  -- 14 R403: Offset 0x00FF_FF04 · Reset 0x0000_0000 · Domain as the unit · Access level H · CFG_GEN
  | .CFG_GEN => ⟨.phys, 0x3000ffff04, [⟨0x1000000, 0, 31⟩], false, 0x0, false, false, true, 999, 0, 0x0, 0xffffffff, 0x0, 0x0, 0x0, 0x0⟩
  -- 14 R403: Offset 0x00FF_FF08 · Reset 0x0000_0000 · Domain as the unit · Access level H · CFG_STAT
  | .CFG_STAT => ⟨.phys, 0x3000ffff08, [⟨0x1000000, 0, 31⟩], false, 0x0, false, false, true, 999, 0, 0x0, 0x1f, 0x0, 0x0, 0x0, 0x0⟩
  -- 14 R403: Offset 0xC01 · Reset 0x0000_0000_0000_0000 · Domain PD 3 + c · Access level Fetas · CORE_CFG_CRC
  | .CORE_CFG_CRC => ⟨.sys, 0xc01, [], true, 0x0, false, false, false, 3, 0, 0x0, 0xffffffffffffffff, 0x0, 0x0, 0x0, 0x0⟩
  -- 15 R433: Offset 0x0000_0200 · Reset 0x0000_0000 · Domain PD 0 · Access level H · HEALTH_STAT
  | .HEALTH_STAT => ⟨.phys, 0x3000000200, [], false, 0x0, false, false, true, 0, 0, 0x0, 0x3ff1, 0x0, 0x0, 0x0, 0x0⟩
  -- 15 R433: Offset 0x0000_0400 + l × 0x8, l = 0 to 63 · Reset 0x0000_0000_0000_0000 · Domain PD 0 · Access level H · GAP_T
  | .GAP_TIME => ⟨.phys, 0x3000000400, [⟨0x8, 0, 63⟩], true, 0x0, false, false, true, 0, 0, 0x0, 0xffffffffffffffff, 0x0, 0x0, 0x0, 0x0⟩
  -- 16 R458: Offset 0x0000_0000 · Reset 0x0000_0000 · Domain PD 2 · Access level H · SHR_PORT_STAT
  | .SHR_PORT_STAT => ⟨.phys, 0x300c000000, [], false, 0x0, false, false, true, 2, 0, 0x0, 0x1f, 0x0, 0x0, 0x0, 0x0⟩
  -- 16 R458: Offset 0x0000_0004 · Reset 0x0000_0000 · Domain PD 2 · Access level H · SHR_EVCNT
  | .SHR_EVCNT => ⟨.phys, 0x300c000004, [], false, 0x0, false, false, true, 2, 0, 0x0, 0xffffffff, 0x0, 0x0, 0x0, 0x0⟩
  -- 16 R458: Offset 0x0000_0008 · Reset 0x0000_0000 · Domain PD 2 · Access level H · SHR_CFG
  | .SHR_CFG => ⟨.phys, 0x300c000008, [], false, 0x0, false, false, true, 2, 0, 0x8000000f, 0x0, 0x0, 0x0, 0x0, 0x0⟩
  -- 16 R458: Offset 0x0000_0010 · Reset 0x0000_0000 · Domain PD 2 · Access level H · SHR_ERR_STATUS
  | .SHR_ERR_STATUS => ⟨.phys, 0x300c000010, [], false, 0x0, false, false, true, 2, 0, 0x0, 0xc, 0x3, 0x0, 0x0, 0x0⟩
  -- 16 R458: Offset 0x0000_0014 · Reset 0x0000_0000 · Domain PD 2 · Access level H · SHR_ERR_COUNT
  | .SHR_ERR_COUNT => ⟨.phys, 0x300c000014, [], false, 0x0, false, false, true, 2, 0, 0x0, 0x0, 0x0, 0x0, 0xffff, 0x0⟩
  -- 16 R458: Offset 0x0000_1000 + w × 0x4, w = 0 to 1,023 · Reset 0x0000_0000 · Domain PD 2 · Access level Fetas · SHR_MS_w
  | .SHR_MS => ⟨.phys, 0x300c001000, [⟨0x4, 0, 1023⟩], false, 0x0, false, false, false, 2, 0, 0xffffffff, 0x0, 0x0, 0x0, 0x0, 0x0⟩
  -- 16 R458: Offset 0x0000_2000 + w × 0x4, w = 0 to 1,023 · Reset 0x0000_0000 · Domain PD 2 · Access level Fetas · SHR_SM_w
  | .SHR_SM => ⟨.phys, 0x300c002000, [⟨0x4, 0, 1023⟩], false, 0x0, false, false, false, 2, 0, 0x0, 0xffffffff, 0x0, 0x0, 0x0, 0x0⟩
  -- 16 R458: Offset 0x0000_0000 · Reset 0x0000_0000 · Domain PD 1 · Access level K · SEAL_CTL
  | .SEAL_CTL => ⟨.shroud, 0x0, [], false, 0x0, false, true, false, 1, 0, 0x0, 0x0, 0x0, 0x0, 0x0, 0x3⟩
  -- 16 R458: Offset 0x0000_0004 · Reset 0x0000_0000 · Domain PD 1 · Access level K · SEAL_STAT
  | .SEAL_STAT => ⟨.shroud, 0x4, [], false, 0x0, false, true, false, 1, 0, 0x0, 0xf, 0x0, 0x0, 0x0, 0x0⟩
  -- 16 R458: Offset 0x0001_0000 · Reset 0x0000_0000 · Domain PD 1 · Access level K · ADC_CTL
  | .ADC_CTL => ⟨.shroud, 0x10000, [], false, 0x0, false, true, false, 1, 0, 0x7, 0x0, 0x0, 0x0, 0x0, 0x0⟩
  -- 16 R458: Offset 0x0001_0100 + n × 0x10, n = 0 to 7 · Reset 0x0000_0000 · Domain PD 1 · Access level K · ADC_CFG_n
  | .ADC_CFG => ⟨.shroud, 0x10100, [⟨0x10, 0, 7⟩], false, 0x0, false, true, false, 1, 0, 0xb83f0000, 0xfff, 0x40000000, 0x0, 0x0, 0x0⟩
  -- 16 R458: Offset 0x0001_0104 + n × 0x10, n = 0 to 7 · Reset 0x8000_0000 · Domain PD 1 · Access level K · ADC_DATA_n
  | .ADC_DATA => ⟨.shroud, 0x10104, [⟨0x10, 0, 7⟩], false, 0x80000000, false, true, false, 1, 0, 0x0, 0x0, 0x0, 0x0, 0xffffffff, 0x0⟩
  -- 16 R458: Offset 0x0002_0000 + n × 0x40, n = 0 to 7 · Reset 0x0000_0000 · Domain PD 1 · Access level K · PULSE_CFG_n
  | .PULSE_CFG => ⟨.shroud, 0x20000, [⟨0x40, 0, 7⟩], false, 0x0, false, true, false, 1, 0, 0xc000ffff, 0x20000000, 0x0, 0x0, 0x0, 0x0⟩
  -- 16 R458: Offset 0x0002_0008 + n × 0x40, n = 0 to 7 · Reset 0x0000_0000_0000_0000 · Domain PD 1 · Access level K · PULSE
  | .PULSE_SNAP_CNT => ⟨.shroud, 0x20008, [⟨0x40, 0, 7⟩], true, 0x0, false, true, false, 1, 0, 0x0, 0xffffffffffffffff, 0x0, 0x0, 0x0, 0x0⟩
  -- 16 R458: Offset 0x0002_0010 + n × 0x40, n = 0 to 7 · Reset 0x0000_0000_0000_0000 · Domain PD 1 · Access level K · PULSE
  | .PULSE_SNAP_RISE => ⟨.shroud, 0x20010, [⟨0x40, 0, 7⟩], true, 0x0, false, true, false, 1, 0, 0x0, 0xffffffffffffffff, 0x0, 0x0, 0x0, 0x0⟩
  -- 16 R458: Offset 0x0002_0018 + n × 0x40, n = 0 to 7 · Reset 0x0000_0000_0000_0000 · Domain PD 1 · Access level K · PULSE
  | .PULSE_SNAP_FALL => ⟨.shroud, 0x20018, [⟨0x40, 0, 7⟩], true, 0x0, false, true, false, 1, 0, 0x0, 0xffffffffffffffff, 0x0, 0x0, 0x0, 0x0⟩
  -- 16 R458: Offset 0x0002_0400 · Reset 0x0000_0000 · Domain PD 1 · Access level K · PULSE_SNAP
  | .PULSE_SNAP => ⟨.shroud, 0x20400, [], false, 0x0, false, true, false, 1, 0, 0x0, 0x0, 0x0, 0x0, 0x0, 0xff⟩
  -- 17 R477: Offset 0x020 · Reset 0x0000_0000_0000_0000 · Domain PD 3 + c · Access level U, K, H · DTIME
  | .DTIME => ⟨.sys, 0x20, [], true, 0x0, true, true, true, 3, 0, 0x0, 0xffffffffffffffff, 0x0, 0x0, 0x0, 0x0⟩
  -- 17 R477: Offset 0x028 + n, n = 0 to 7 · Reset 0x0000_0000_0000_0000 · Domain PD 3 + c · Access level U, K, H · EVCNT_n
  | .EVCNT => ⟨.sys, 0x28, [⟨0x1, 0, 7⟩], true, 0x0, true, true, true, 3, 0, 0xffffffffffff, 0x0, 0x0, 0x0, 0x0, 0x0⟩
  -- 17 R477: Offset 0x500 + n, n = 0 to 7 · Reset 0x0000_0000_0000_0000 · Domain PD 3 + c · Access level K, H · EVSEL_n
  | .EVSEL => ⟨.sys, 0x500, [⟨0x1, 0, 7⟩], true, 0x0, false, true, true, 3, 0, 0xf87f, 0x0, 0x0, 0x0, 0x0, 0x0⟩
  -- 17 R477: Offset 0x508 · Reset 0x0000_0000_0000_0200 · Domain PD 3 + c · Access level K, H · EV_CTL
  | .EV_CTL => ⟨.sys, 0x508, [], true, 0x200, false, true, true, 3, 0, 0x2ff, 0x0, 0x0, 0x0, 0x0, 0x0⟩
  -- 17 R477: Offset 0x509 · Reset 0x0000_0000_0000_0000 · Domain PD 3 + c · Access level K, H · EV_OVF
  | .EV_OVF => ⟨.sys, 0x509, [], true, 0x0, false, true, true, 3, 0, 0x0, 0x0, 0xff, 0x0, 0x0, 0x0⟩
  -- 17 R477: Offset 0x510 + k, k = 0 to 1 · Reset 0x0000_0000_0000_0000 · Domain PD 3 + c · Access level K, H · CTIM_CMP_k
  | .CTIM_CMP => ⟨.sys, 0x510, [⟨0x1, 0, 1⟩], true, 0x0, false, true, true, 3, 0, 0xffffffffffffffff, 0x0, 0x0, 0x0, 0x0, 0x0⟩
  -- 17 R477: Offset 0x512 · Reset 0x0000_0000_0000_0020 · Domain PD 3 + c · Access level K, H · CTIM_CTL
  | .CTIM_CTL => ⟨.sys, 0x512, [], true, 0x20, false, true, true, 3, 0, 0x33, 0x0, 0xc, 0x0, 0x0, 0x0⟩
  -- 17 R477: Offset 0x0000_0000 · Reset 0x0000_0000 · Domain PD 106 · Access level H · TMR_GO
  | .TMR_GO => ⟨.phys, 0x3003000000, [], false, 0x0, false, false, true, 106, 0, 0x0, 0x0, 0x0, 0x0, 0x0, 0xffffffff⟩
  -- 17 R477: Offset 0x0001_0000 + c × 0x1000, c = 0 to 15 · Reset 0x0000_0000 · Domain PD 106 · Access level K, H · TMR_CFG
  | .TMR_CFG => ⟨.phys, 0x3003010000, [⟨0x1000, 0, 15⟩], false, 0x0, false, true, true, 106, 0, 0xffff01bf, 0x0, 0x0, 0x0, 0x0, 0x0⟩
  -- 17 R477: Offset 0x0001_0004 + c × 0x1000, c = 0 to 15 · Reset 0x0000_0000 · Domain PD 106 · Access level K, H · TMR_CMD
  | .TMR_CMD => ⟨.phys, 0x3003010004, [⟨0x1000, 0, 15⟩], false, 0x0, false, true, true, 106, 0, 0x0, 0x0, 0x0, 0x0, 0x0, 0xf⟩
  -- 17 R477: Offset 0x0001_0008 + c × 0x1000, c = 0 to 15 · Reset 0x0000_0000 · Domain PD 106 · Access level K, H · TMR_STA
  | .TMR_STAT => ⟨.phys, 0x3003010008, [⟨0x1000, 0, 15⟩], false, 0x0, false, true, true, 106, 0, 0x0, 0x700, 0xff, 0x0, 0x0, 0x0⟩
  -- 17 R477: Offset 0x0001_000C + c × 0x1000, c = 0 to 15 · Reset 0x0000_0000 · Domain PD 106 · Access level K, H · TMR_CTL
  | .TMR_CTL => ⟨.phys, 0x300301000c, [⟨0x1000, 0, 15⟩], false, 0x0, false, true, true, 106, 0, 0xff0f, 0x0, 0x0, 0x0, 0x0, 0x0⟩
  -- 17 R477: Offset 0x0001_0010 + c × 0x1000 and 0x0001_0014 + c × 0x1000, c = 0 to 15 · Reset 0x0000_0000 · Domain PD 106 
  | .TMR_RLD_LO => ⟨.phys, 0x3003010010, [⟨0x1000, 0, 15⟩], false, 0x0, false, true, true, 106, 0, 0xffffffff, 0x0, 0x0, 0x0, 0x0, 0x0⟩
  -- 17 R477: Offset 0x0001_0010 + c × 0x1000 and 0x0001_0014 + c × 0x1000, c = 0 to 15 · Reset 0x0000_0000 · Domain PD 106 
  | .TMR_RLD_HI => ⟨.phys, 0x3003010014, [⟨0x1000, 0, 15⟩], false, 0x0, false, true, true, 106, 0, 0xffffffff, 0x0, 0x0, 0x0, 0x0, 0x0⟩
  -- 17 R477: Offset 0x0001_0020 + c × 0x1000 + k × 0x8 and 0x0001_0024 + c × 0x1000 + k × 0x8, c = 0 to 15, k = 0 to 3 · Re
  | .TMR_CMP_LO => ⟨.phys, 0x3003010020, [⟨0x1000, 0, 15⟩, ⟨0x8, 0, 3⟩], false, 0x0, false, true, true, 106, 0, 0xffffffff, 0x0, 0x0, 0x0, 0x0, 0x0⟩
  -- 17 R477: Offset 0x0001_0020 + c × 0x1000 + k × 0x8 and 0x0001_0024 + c × 0x1000 + k × 0x8, c = 0 to 15, k = 0 to 3 · Re
  | .TMR_CMP_HI => ⟨.phys, 0x3003010024, [⟨0x1000, 0, 15⟩, ⟨0x8, 0, 3⟩], false, 0x0, false, true, true, 106, 0, 0xffffffff, 0x0, 0x0, 0x0, 0x0, 0x0⟩
  -- 17 R477: Offset 0x0001_0050 + c × 0x1000 + i × 0x4, c = 0 to 15, i = 0 to 5 · Reset 0x0000_0000 · Domain PD 106 · Acces
  | .TMR_LAT => ⟨.phys, 0x3003010050, [⟨0x1000, 0, 15⟩, ⟨0x4, 0, 5⟩], false, 0x0, false, true, true, 106, 0, 0x0, 0xffffffff, 0x0, 0x0, 0x0, 0x0⟩
  -- 17 R477: Offset 0x0001_0068 + c × 0x1000, c = 0 to 15 · Reset 0x0000_0000 · Domain PD 106 · Access level K, H · TMR_LAT
  | .TMR_LAT_INFO => ⟨.phys, 0x3003010068, [⟨0x1000, 0, 15⟩], false, 0x0, false, true, true, 106, 0, 0x0, 0xffff0007, 0x0, 0x0, 0x0, 0x0⟩
  -- 17 R477: Offset 0x0000_0000 · Reset 0x0000_0000 · Domain PD 105 · Access level H · TT_IRQ
  | .TT_IRQ => ⟨.phys, 0x300b000000, [], false, 0x0, false, false, true, 105, 0, 0x0, 0x0, 0xffffffff, 0x0, 0x0, 0x0⟩
  -- 17 R477: Offset 0x0000_1000 + m × 0x40, m = 0 to 31 · Reset 0x0000_0000 · Domain PD 105 · Access level H · TT_CFG_m
  | .TT_CFG => ⟨.phys, 0x300b001000, [⟨0x40, 0, 31⟩], false, 0x0, false, false, true, 105, 0, 0xf01fffff, 0x0, 0x0, 0x0, 0x0, 0x0⟩
  -- 17 R477: Offset 0x0000_1004 + m × 0x40, m = 0 to 31 · Reset 0x0000_03E8 · Domain PD 105 · Access level H · TT_WIN_m
  | .TT_WIN => ⟨.phys, 0x300b001004, [⟨0x40, 0, 31⟩], false, 0x3e8, false, false, true, 105, 0, 0x3fffff, 0x0, 0x0, 0x0, 0x0, 0x0⟩
  -- 17 R477: Offset 0x0000_1008 + m × 0x40, m = 0 to 31 · Reset 0x0000_0000 · Domain PD 105 · Access level H · TT_SEQ_m
  | .TT_SEQ => ⟨.phys, 0x300b001008, [⟨0x40, 0, 31⟩], false, 0x0, false, false, true, 105, 0, 0x0, 0xffffffff, 0x0, 0x0, 0x0, 0x0⟩
  -- 17 R477: Offset 0x0000_100C + m × 0x40, m = 0 to 31 · Reset 0x0000_0000 · Domain PD 105 · Access level H · TT_CMD_m
  | .TT_CMD => ⟨.phys, 0x300b00100c, [⟨0x40, 0, 31⟩], false, 0x0, false, false, true, 105, 0, 0x0, 0x0, 0x0, 0x0, 0x0, 0x1⟩
  -- 17 R477: Offset 0x0000_1010 + m × 0x40, 0x0000_1018 + m × 0x40, 0x0000_1020 + m × 0x40, m = 0 to 31 · Reset 0x0000_0000
  | .TT_LAST => ⟨.phys, 0x300b001010, [⟨0x40, 0, 31⟩], true, 0x0, false, false, true, 105, 0, 0x0, 0xffffffffff, 0x0, 0x0, 0x0, 0x0⟩
  -- 17 R477: Offset 0x0000_1010 + m × 0x40, 0x0000_1018 + m × 0x40, 0x0000_1020 + m × 0x40, m = 0 to 31 · Reset 0x0000_0000
  | .TT_MIN => ⟨.phys, 0x300b001018, [⟨0x40, 0, 31⟩], true, 0xffffffffff, false, false, true, 105, 0, 0x0, 0xffffffffff, 0x0, 0x0, 0x0, 0x0⟩
  -- 17 R477: Offset 0x0000_1010 + m × 0x40, 0x0000_1018 + m × 0x40, 0x0000_1020 + m × 0x40, m = 0 to 31 · Reset 0x0000_0000
  | .TT_MAX => ⟨.phys, 0x300b001020, [⟨0x40, 0, 31⟩], true, 0x0, false, false, true, 105, 0, 0x0, 0xffffffffff, 0x0, 0x0, 0x0, 0x0⟩
  -- 17 R477: Offset 0x0000_1028 + m × 0x40, m = 0 to 31 · Reset 0x0000_0000_0000_0000 · Domain PD 105 · Access level H · TT
  | .TT_THR => ⟨.phys, 0x300b001028, [⟨0x40, 0, 31⟩], true, 0x0, false, false, true, 105, 0, 0xffffffffff, 0x0, 0x0, 0x0, 0x0, 0x0⟩
  -- 18 R492: Offset 0x580 · Reset 0x0000_0000_0000_4000 · Domain PD 3 + c · Access level K, H · TRC_CTL
  | .TRC_CTL => ⟨.sys, 0x580, [], true, 0x4000, false, true, true, 3, 0, 0xff81, 0x0, 0x0, 0x0, 0x0, 0x0⟩
  -- 18 R492: Offset 0x581 · Reset 0x0000_0000_0000_0000 · Domain PD 3 + c · Access level H · TRC_RING
  | .TRC_RING => ⟨.sys, 0x581, [], true, 0x0, false, false, true, 3, 0, 0x1f, 0x0, 0x0, 0x0, 0x0, 0x0⟩
  -- 18 R492: Offset 0x582 · Reset 0x0000_0000_0000_0000 · Domain PD 3 + c · Access level K, H · TRC_STAT
  | .TRC_STAT => ⟨.sys, 0x582, [], true, 0x0, false, true, true, 3, 0, 0x0, 0xd, 0x2, 0x0, 0x0, 0x0⟩
  -- 18 R492: Offset 0x583 · Reset 0x0000_0000_0000_0000 · Domain PD 3 + c · Access level K, H · TSEQ_STATE
  | .TSEQ_STATE => ⟨.sys, 0x583, [], true, 0x0, false, true, true, 3, 0, 0x3, 0x0, 0x0, 0x0, 0x0, 0x0⟩
  -- 18 R492: Offset 0x584 + s, s = 0 to 3 · Reset 0x0000_0000_0000_0000 · Domain PD 3 + c · Access level K, H · TSEQ_ACT_s
  | .TSEQ_ACT => ⟨.sys, 0x584, [⟨0x1, 0, 3⟩], true, 0x0, false, true, true, 3, 0, 0x1fe, 0x0, 0x0, 0x0, 0x0, 0x0⟩
  -- 18 R492: Offset 0x588 + 2s + j, s = 0 to 3, j = 0 to 1 · Reset 0x0000_0000_0000_0000 · Domain PD 3 + c · Access level K
  | .TSEQ_TRANS => ⟨.sys, 0x588, [⟨0x2, 0, 3⟩, ⟨0x1, 0, 1⟩], true, 0x0, false, true, true, 3, 0, 0x8eff, 0x0, 0x0, 0x0, 0x0, 0x0⟩
  -- 18 R492: Offset 0x590 + n, n = 0 to 7 · Reset 0x0000_0000_0000_0000 · Domain PD 3 + c · Access level K, H · TCMP_CFG_n
  | .TCMP_CFG => ⟨.sys, 0x590, [⟨0x1, 0, 7⟩], true, 0x0, false, true, true, 3, 0, 0xff07, 0x0, 0x0, 0x0, 0x0, 0x0⟩
  -- 18 R492: Offset 0x598 + n and 0x5A0 + n, n = 0 to 7 · Reset 0x0000_0000_0000_0000 · Domain PD 3 + c · Access level K, H
  | .TCMP_VAL => ⟨.sys, 0x598, [⟨0x1, 0, 7⟩], true, 0x0, false, true, true, 3, 0, 0xffffffffffffffff, 0x0, 0x0, 0x0, 0x0, 0x0⟩
  -- 18 R492: Offset 0x598 + n and 0x5A0 + n, n = 0 to 7 · Reset 0x0000_0000_0000_0000 · Domain PD 3 + c · Access level K, H
  | .TCMP_MASK => ⟨.sys, 0x5a0, [⟨0x1, 0, 7⟩], true, 0x0, false, true, true, 3, 0, 0xffffffffffffffff, 0x0, 0x0, 0x0, 0x0, 0x0⟩
  -- 18 R492: Offset 0xC00 · Reset 0x0000_0000_0000_0000 · Domain PD 3 + c · Access level Fetas · TRC_AUTH
  | .TRC_AUTH => ⟨.sys, 0xc00, [], true, 0x0, false, false, false, 3, 0, 0x1ffff, 0x0, 0x0, 0x0, 0x0, 0x0⟩
  -- 18 R492: Offset 0x00_0000 + i × 0x0040_0000, i = 0 to 3 · Reset 0x0000_0000 · Domain PD 67 + q · Access level H · DBG_C
  | .DBG_CTL => ⟨.phys, 0x3010000000, [⟨0x1000000, 0, 15⟩, ⟨0x400000, 0, 3⟩], false, 0x0, false, false, true, 67, 1, 0x0, 0x0, 0x0, 0x0, 0x0, 0x7⟩
  -- 18 R492: Offset 0x00_0004 + i × 0x0040_0000, i = 0 to 3 · Reset 0x0000_0000 · Domain PD 67 + q · Access level H · DBG_S
  | .DBG_STAT => ⟨.phys, 0x3010000004, [⟨0x1000000, 0, 15⟩, ⟨0x400000, 0, 3⟩], false, 0x0, false, false, true, 67, 1, 0x0, 0x3, 0x0, 0x0, 0x0, 0x0⟩
  -- 18 R492: Offset 0x0000_0000 · Reset 0x0000_0000 · Domain PD 105 · Access level H · HY_CTL
  | .HY_CTL => ⟨.phys, 0x300a000000, [], false, 0x0, false, false, true, 105, 0, 0xf, 0x0, 0x0, 0x0, 0x0, 0x0⟩
  -- 18 R492: Offset 0x0000_1000 + r × 0x40, r = 0 to 15 · Reset 0x0000_0000_0000_0000 · Domain PD 105 · Access level H · HY
  | .HY_RING_BASE => ⟨.phys, 0x300a001000, [⟨0x40, 0, 15⟩], true, 0x0, false, false, true, 105, 0, 0x3ffffffff000, 0x0, 0x0, 0x0, 0x0, 0x0⟩
  -- 18 R492: Offset 0x0000_1008 + r × 0x40, r = 0 to 15 · Reset 0x0000_000C · Domain PD 105 · Access level H · HY_RING_CTL_
  | .HY_RING_CTL => ⟨.phys, 0x300a001008, [⟨0x40, 0, 15⟩], false, 0xc, false, false, true, 105, 0, 0xc0ffff1f, 0x0, 0x0, 0x0, 0x0, 0x0⟩
  -- 18 R492: Offset 0x0000_1010 + r × 0x40 and 0x0000_1014 + r × 0x40, r = 0 to 15 · Reset 0x0000_0000 · Domain PD 105 · Ac
  | .HY_RING_WP => ⟨.phys, 0x300a001010, [⟨0x40, 0, 15⟩], false, 0x0, false, false, true, 105, 0, 0x0, 0x7fffffff, 0x0, 0x0, 0x0, 0x0⟩
  -- 18 R492: Offset 0x0000_1010 + r × 0x40 and 0x0000_1014 + r × 0x40, r = 0 to 15 · Reset 0x0000_0000 · Domain PD 105 · Ac
  | .HY_RING_RP => ⟨.phys, 0x300a001014, [⟨0x40, 0, 15⟩], false, 0x0, false, false, true, 105, 0, 0x7fffffff, 0x0, 0x0, 0x0, 0x0, 0x0⟩
  -- 18 R492: Offset 0x0000_1018 + r × 0x40, r = 0 to 15 · Reset 0x0000_0000 · Domain PD 105 · Access level H · HY_RING_DROP
  | .HY_RING_DROP => ⟨.phys, 0x300a001018, [⟨0x40, 0, 15⟩], false, 0x0, false, false, true, 105, 0, 0x0, 0x0, 0x0, 0x0, 0xffffffff, 0x0⟩
  -- 19 R509: Offset 0x8004 · Reset 0x0000_0000 · Domain PD 2 · Access level H · BOOT_STAT
  | .BOOT_STAT => ⟨.phys, 0x3001008004, [], false, 0x0, false, false, true, 2, 0, 0x0, 0x3f707, 0x0, 0x0, 0x0, 0x0⟩
  -- 20 R521: Offset 0x0000_0300 · Reset 0x0000_0000 · Domain PD 0 · Access level H · PAD_HOLD
  | .PAD_HOLD => ⟨.phys, 0x3000000300, [], false, 0x0, false, false, true, 0, 0, 0x0, 0x0, 0x3, 0x0, 0x0, 0x0⟩

/-- ADDR_ERR_STATUS.SRC_STOP, bits 15:11, RO. -/
def Fld.ADDR_ERR_STATUS_SRC_STOP : Fld := ⟨15, 11⟩
/-- ADDR_ERR_STATUS.WRITE, bits 10, RO. -/
def Fld.ADDR_ERR_STATUS_WRITE : Fld := ⟨10, 10⟩
/-- ADDR_ERR_STATUS.KIND, bits 9:6, RO. -/
def Fld.ADDR_ERR_STATUS_KIND : Fld := ⟨9, 6⟩
/-- ADDR_ERR_STATUS.OVERFLOW, bits 1, W1C. -/
def Fld.ADDR_ERR_STATUS_OVERFLOW : Fld := ⟨1, 1⟩
/-- ADDR_ERR_STATUS.VALID, bits 0, W1C. -/
def Fld.ADDR_ERR_STATUS_VALID : Fld := ⟨0, 0⟩
/-- ADDR_ERR_ADDR_LO.PA_LO, bits 31:0, RO. -/
def Fld.ADDR_ERR_ADDR_LO_PA_LO : Fld := ⟨31, 0⟩
/-- ADDR_ERR_ADDR_HI.PA_HI, bits 13:0, RO. -/
def Fld.ADDR_ERR_ADDR_HI_PA_HI : Fld := ⟨13, 0⟩
/-- ADDR_ERR_PID.PID, bits 28:0, RO. -/
def Fld.ADDR_ERR_PID_PID : Fld := ⟨28, 0⟩
/-- ADDR_ERR_COUNT.COUNT, bits 15:0, RC. -/
def Fld.ADDR_ERR_COUNT_COUNT : Fld := ⟨15, 0⟩
/-- CORE_ID.PART, bits 31:16, RO. -/
def Fld.CORE_ID_PART : Fld := ⟨31, 16⟩
/-- CORE_ID.LCORE, bits 5:0, RO. -/
def Fld.CORE_ID_LCORE : Fld := ⟨5, 0⟩
/-- ISA_FEAT.MAJOR, bits 31:24, RO. -/
def Fld.ISA_FEAT_MAJOR : Fld := ⟨31, 24⟩
/-- ISA_FEAT.MINOR, bits 23:16, RO. -/
def Fld.ISA_FEAT_MINOR : Fld := ⟨23, 16⟩
/-- ISA_FEAT.PMEM, bits 4, RO. -/
def Fld.ISA_FEAT_PMEM : Fld := ⟨4, 4⟩
/-- ISA_FEAT.ATOM, bits 3, RO. -/
def Fld.ISA_FEAT_ATOM : Fld := ⟨3, 3⟩
/-- ISA_FEAT.FMA, bits 2, RO. -/
def Fld.ISA_FEAT_FMA : Fld := ⟨2, 2⟩
/-- ISA_FEAT.FP64, bits 1, RO. -/
def Fld.ISA_FEAT_FP64 : Fld := ⟨1, 1⟩
/-- ISA_FEAT.FP32, bits 0, RO. -/
def Fld.ISA_FEAT_FP32 : Fld := ⟨0, 0⟩
/-- SP_U.SP, bits 63:0, RW. -/
def Fld.SP_U_SP : Fld := ⟨63, 0⟩
/-- SP_K.SP, bits 63:0, RW. -/
def Fld.SP_K_SP : Fld := ⟨63, 0⟩
/-- CORE_PHYS.PCORE, bits 5:0, RO. -/
def Fld.CORE_PHYS_PCORE : Fld := ⟨5, 0⟩
/-- FPCTL.IDZE, bits 12, RW. -/
def Fld.FPCTL_IDZE : Fld := ⟨12, 12⟩
/-- FPCTL.NVE, bits 8, RW. -/
def Fld.FPCTL_NVE : Fld := ⟨8, 8⟩
/-- FPCTL.DZE, bits 7, RW. -/
def Fld.FPCTL_DZE : Fld := ⟨7, 7⟩
/-- FPCTL.OFE, bits 6, RW. -/
def Fld.FPCTL_OFE : Fld := ⟨6, 6⟩
/-- FPCTL.UFE, bits 5, RW. -/
def Fld.FPCTL_UFE : Fld := ⟨5, 5⟩
/-- FPCTL.NXE, bits 4, RW. -/
def Fld.FPCTL_NXE : Fld := ⟨4, 4⟩
/-- FPCTL.RM, bits 2:0, RW. -/
def Fld.FPCTL_RM : Fld := ⟨2, 0⟩
/-- FPFLAGS.IDZ, bits 5, RW. -/
def Fld.FPFLAGS_IDZ : Fld := ⟨5, 5⟩
/-- FPFLAGS.NV, bits 4, RW. -/
def Fld.FPFLAGS_NV : Fld := ⟨4, 4⟩
/-- FPFLAGS.DZ, bits 3, RW. -/
def Fld.FPFLAGS_DZ : Fld := ⟨3, 3⟩
/-- FPFLAGS.OF, bits 2, RW. -/
def Fld.FPFLAGS_OF : Fld := ⟨2, 2⟩
/-- FPFLAGS.UF, bits 1, RW. -/
def Fld.FPFLAGS_UF : Fld := ⟨1, 1⟩
/-- FPFLAGS.NX, bits 0, RW. -/
def Fld.FPFLAGS_NX : Fld := ⟨0, 0⟩
/-- FPCAUSE.CAUSE, bits 4:0, RO. -/
def Fld.FPCAUSE_CAUSE : Fld := ⟨4, 0⟩
/-- LONG_INFO.VALID, bits 15, W1C. -/
def Fld.LONG_INFO_VALID : Fld := ⟨15, 15⟩
/-- LONG_INFO.RD, bits 12:8, RO. -/
def Fld.LONG_INFO_RD : Fld := ⟨12, 8⟩
/-- LONG_INFO.FN, bits 5:0, RO. -/
def Fld.LONG_INFO_FN : Fld := ⟨5, 0⟩
/-- RES_CTL.TWICE, bits 3, RW. -/
def Fld.RES_CTL_TWICE : Fld := ⟨3, 3⟩
/-- RES_CTL.INJ, bits 2:0, RW. -/
def Fld.RES_CTL_INJ : Fld := ⟨2, 0⟩
/-- RES_STAT.DIV_CNT, bits 47:32, RC. -/
def Fld.RES_STAT_DIV_CNT : Fld := ⟨47, 32⟩
/-- RES_STAT.MUL_CNT, bits 31:16, RC. -/
def Fld.RES_STAT_MUL_CNT : Fld := ⟨31, 16⟩
/-- RES_STAT.ADD_CNT, bits 15:0, RC. -/
def Fld.RES_STAT_ADD_CNT : Fld := ⟨15, 0⟩
/-- PRED_CTL.BARRED, bits 1, RO. -/
def Fld.PRED_CTL_BARRED : Fld := ⟨1, 1⟩
/-- PRED_CTL.MODE, bits 0, RW. -/
def Fld.PRED_CTL_MODE : Fld := ⟨0, 0⟩
/-- PIPE_CTL.DPF, bits 1, RW. -/
def Fld.PIPE_CTL_DPF : Fld := ⟨1, 1⟩
/-- PIPE_CTL.SINGLE, bits 0, RW. -/
def Fld.PIPE_CTL_SINGLE : Fld := ⟨0, 0⟩
/-- STATUS.SS, bits 8, RW. -/
def Fld.STATUS_SS : Fld := ⟨8, 8⟩
/-- STATUS.IE, bits 4, RW. -/
def Fld.STATUS_IE : Fld := ⟨4, 4⟩
/-- STATUS.LEVEL, bits 1:0, RO. -/
def Fld.STATUS_LEVEL : Fld := ⟨1, 0⟩
/-- TRAP_CAUSE_K.IMPRECISE, bits 15, RO. -/
def Fld.TRAP_CAUSE_K_IMPRECISE : Fld := ⟨15, 15⟩
/-- TRAP_CAUSE_K.PLEVEL, bits 9:8, RO. -/
def Fld.TRAP_CAUSE_K_PLEVEL : Fld := ⟨9, 8⟩
/-- TRAP_CAUSE_K.CAUSE, bits 7:0, RO. -/
def Fld.TRAP_CAUSE_K_CAUSE : Fld := ⟨7, 0⟩
/-- TRAP_CAUSE_H.IMPRECISE, bits 15, RO. -/
def Fld.TRAP_CAUSE_H_IMPRECISE : Fld := ⟨15, 15⟩
/-- TRAP_CAUSE_H.PLEVEL, bits 9:8, RO. -/
def Fld.TRAP_CAUSE_H_PLEVEL : Fld := ⟨9, 8⟩
/-- TRAP_CAUSE_H.CAUSE, bits 7:0, RO. -/
def Fld.TRAP_CAUSE_H_CAUSE : Fld := ⟨7, 0⟩
/-- TRAP_ADDR_K.ADDR, bits 63:0, RO. -/
def Fld.TRAP_ADDR_K_ADDR : Fld := ⟨63, 0⟩
/-- TRAP_ADDR_H.ADDR, bits 63:0, RO. -/
def Fld.TRAP_ADDR_H_ADDR : Fld := ⟨63, 0⟩
/-- TRAP_INFO_K.ORIG, bits 31:24, RO. -/
def Fld.TRAP_INFO_K_ORIG : Fld := ⟨31, 24⟩
/-- TRAP_INFO_K.DIR, bits 23, RO. -/
def Fld.TRAP_INFO_K_DIR : Fld := ⟨23, 23⟩
/-- TRAP_INFO_K.SREASON, bits 22:20, RO. -/
def Fld.TRAP_INFO_K_SREASON : Fld := ⟨22, 20⟩
/-- TRAP_INFO_K.STEP, bits 19, RO. -/
def Fld.TRAP_INFO_K_STEP : Fld := ⟨19, 19⟩
/-- TRAP_INFO_K.SPLIT, bits 18, RO. -/
def Fld.TRAP_INFO_K_SPLIT : Fld := ⟨18, 18⟩
/-- TRAP_INFO_K.HALF, bits 17, RO. -/
def Fld.TRAP_INFO_K_HALF : Fld := ⟨17, 17⟩
/-- TRAP_INFO_K.WRITE, bits 16, RO. -/
def Fld.TRAP_INFO_K_WRITE : Fld := ⟨16, 16⟩
/-- TRAP_INFO_K.FETCH, bits 15, RO. -/
def Fld.TRAP_INFO_K_FETCH : Fld := ⟨15, 15⟩
/-- TRAP_INFO_K.SIZE, bits 13:12, RO. -/
def Fld.TRAP_INFO_K_SIZE : Fld := ⟨13, 12⟩
/-- TRAP_INFO_K.CODE, bits 11:0, RO. -/
def Fld.TRAP_INFO_K_CODE : Fld := ⟨11, 0⟩
/-- TRAP_INFO_H.ORIG, bits 31:24, RO. -/
def Fld.TRAP_INFO_H_ORIG : Fld := ⟨31, 24⟩
/-- TRAP_INFO_H.DIR, bits 23, RO. -/
def Fld.TRAP_INFO_H_DIR : Fld := ⟨23, 23⟩
/-- TRAP_INFO_H.SREASON, bits 22:20, RO. -/
def Fld.TRAP_INFO_H_SREASON : Fld := ⟨22, 20⟩
/-- TRAP_INFO_H.STEP, bits 19, RO. -/
def Fld.TRAP_INFO_H_STEP : Fld := ⟨19, 19⟩
/-- TRAP_INFO_H.SPLIT, bits 18, RO. -/
def Fld.TRAP_INFO_H_SPLIT : Fld := ⟨18, 18⟩
/-- TRAP_INFO_H.HALF, bits 17, RO. -/
def Fld.TRAP_INFO_H_HALF : Fld := ⟨17, 17⟩
/-- TRAP_INFO_H.WRITE, bits 16, RO. -/
def Fld.TRAP_INFO_H_WRITE : Fld := ⟨16, 16⟩
/-- TRAP_INFO_H.FETCH, bits 15, RO. -/
def Fld.TRAP_INFO_H_FETCH : Fld := ⟨15, 15⟩
/-- TRAP_INFO_H.SIZE, bits 13:12, RO. -/
def Fld.TRAP_INFO_H_SIZE : Fld := ⟨13, 12⟩
/-- TRAP_INFO_H.CODE, bits 11:0, RO. -/
def Fld.TRAP_INFO_H_CODE : Fld := ⟨11, 0⟩
/-- TRAP_LONGPC_K.PC, bits 63:0, RO. -/
def Fld.TRAP_LONGPC_K_PC : Fld := ⟨63, 0⟩
/-- TRAP_LONGPC_H.PC, bits 63:0, RO. -/
def Fld.TRAP_LONGPC_H_PC : Fld := ⟨63, 0⟩
/-- VECBASE_K.BASE, bits 63:12, RW. -/
def Fld.VECBASE_K_BASE : Fld := ⟨63, 12⟩
/-- VECBASE_H.BASE, bits 63:12, RW. -/
def Fld.VECBASE_H_BASE : Fld := ⟨63, 12⟩
/-- DELEG.DEL_BRK, bits 18, RW. -/
def Fld.DELEG_DEL_BRK : Fld := ⟨18, 18⟩
/-- DELEG.DEL, bits 16:1, RW. -/
def Fld.DELEG_DEL : Fld := ⟨16, 1⟩
/-- TRAP_GPA.GPA, bits 45:0, RO. -/
def Fld.TRAP_GPA_GPA : Fld := ⟨45, 0⟩
/-- SEG_ROOT.BASE, bits 45:6, RW. -/
def Fld.SEG_ROOT_BASE : Fld := ⟨45, 6⟩
/-- SEG_ROOT.LEN, bits 3:0, RW. -/
def Fld.SEG_ROOT_LEN : Fld := ⟨3, 0⟩
/-- PT_ROOT.BASE, bits 45:12, RW. -/
def Fld.PT_ROOT_BASE : Fld := ⟨45, 12⟩
/-- ASID.ASID, bits 15:0, RW. -/
def Fld.ASID_ASID : Fld := ⟨15, 0⟩
/-- STG1_CTL.HAD, bits 0, RW. -/
def Fld.STG1_CTL_HAD : Fld := ⟨0, 0⟩
/-- XLAT_INFO_K.SUB, bits 15:12, RO. -/
def Fld.XLAT_INFO_K_SUB : Fld := ⟨15, 12⟩
/-- XLAT_INFO_K.STAGE, bits 11:10, RO. -/
def Fld.XLAT_INFO_K_STAGE : Fld := ⟨11, 10⟩
/-- XLAT_INFO_K.LEVEL, bits 9:8, RO. -/
def Fld.XLAT_INFO_K_LEVEL : Fld := ⟨9, 8⟩
/-- XLAT_INFO_K.TREAD, bits 7, RO. -/
def Fld.XLAT_INFO_K_TREAD : Fld := ⟨7, 7⟩
/-- XLAT_INFO_H.SUB, bits 15:12, RO. -/
def Fld.XLAT_INFO_H_SUB : Fld := ⟨15, 12⟩
/-- XLAT_INFO_H.STAGE, bits 11:10, RO. -/
def Fld.XLAT_INFO_H_STAGE : Fld := ⟨11, 10⟩
/-- XLAT_INFO_H.LEVEL, bits 9:8, RO. -/
def Fld.XLAT_INFO_H_LEVEL : Fld := ⟨9, 8⟩
/-- XLAT_INFO_H.TREAD, bits 7, RO. -/
def Fld.XLAT_INFO_H_TREAD : Fld := ⟨7, 7⟩
/-- VMID.VMID, bits 12:0, RW. -/
def Fld.VMID_VMID : Fld := ⟨12, 0⟩
/-- PONLY_CTL.PONLY, bits 0, RW. -/
def Fld.PONLY_CTL_PONLY : Fld := ⟨0, 0⟩
/-- HSTG_ROOT.BASE, bits 45:12, RW. -/
def Fld.HSTG_ROOT_BASE : Fld := ⟨45, 12⟩
/-- HSTG_CTL.H1HAD, bits 1, RW. -/
def Fld.HSTG_CTL_H1HAD : Fld := ⟨1, 1⟩
/-- HSTG_CTL.HAD, bits 0, RW. -/
def Fld.HSTG_CTL_HAD : Fld := ⟨0, 0⟩
/-- H_SEG_ROOT.BASE, bits 45:6, RW. -/
def Fld.H_SEG_ROOT_BASE : Fld := ⟨45, 6⟩
/-- H_SEG_ROOT.LEN, bits 3:0, RW. -/
def Fld.H_SEG_ROOT_LEN : Fld := ⟨3, 0⟩
/-- H_PT_ROOT.BASE, bits 45:12, RW. -/
def Fld.H_PT_ROOT_BASE : Fld := ⟨45, 12⟩
/-- H_ASID.BASE, bits 15:0, RW. -/
def Fld.H_ASID_BASE : Fld := ⟨15, 0⟩
/-- WAY_CLASS.H_CLASS, bits 6:4, RW. -/
def Fld.WAY_CLASS_H_CLASS : Fld := ⟨6, 4⟩
/-- WAY_CLASS.CLASS, bits 2:0, RW. -/
def Fld.WAY_CLASS_CLASS : Fld := ⟨2, 0⟩
/-- L1_SEED.L1I, bits 31:16, RW. -/
def Fld.L1_SEED_L1I : Fld := ⟨31, 16⟩
/-- L1_SEED.L1D, bits 15:0, RW. -/
def Fld.L1_SEED_L1D : Fld := ⟨15, 0⟩
/-- L2_SEED.SEED, bits 15:0, RW. -/
def Fld.L2_SEED_SEED : Fld := ⟨15, 0⟩
/-- CACHE_STAT.L2_RETIRED, bits 23:16, RO. -/
def Fld.CACHE_STAT_L2_RETIRED : Fld := ⟨23, 16⟩
/-- CACHE_STAT.L1_RETIRED, bits 15:8, RO. -/
def Fld.CACHE_STAT_L1_RETIRED : Fld := ⟨15, 8⟩
/-- CACHE_STAT.L2_READY, bits 2, RO. -/
def Fld.CACHE_STAT_L2_READY : Fld := ⟨2, 2⟩
/-- CACHE_STAT.L1D_READY, bits 1, RO. -/
def Fld.CACHE_STAT_L1D_READY : Fld := ⟨1, 1⟩
/-- CACHE_STAT.L1I_READY, bits 0, RO. -/
def Fld.CACHE_STAT_L1I_READY : Fld := ⟨0, 0⟩
/-- CACHE_READY.L2, bits 23:8, RO. -/
def Fld.CACHE_READY_L2 : Fld := ⟨23, 8⟩
/-- CACHE_READY.L3, bits 7:0, RO. -/
def Fld.CACHE_READY_L3 : Fld := ⟨7, 0⟩
/-- L3_WG_MASK.WAYS, bits 15:0, RO. -/
def Fld.L3_WG_MASK_WAYS : Fld := ⟨15, 0⟩
/-- L3_WG_MAP.MAP, bits 15:0, RO. -/
def Fld.L3_WG_MAP_MAP : Fld := ⟨15, 0⟩
/-- L3_SEED.STATE, bits 15:0, RO. -/
def Fld.L3_SEED_STATE : Fld := ⟨15, 0⟩
/-- L3_WG_EFF.GROUP0, bits 15:0, RO. -/
def Fld.L3_WG_EFF_GROUP0 : Fld := ⟨15, 0⟩
/-- L3_RETIRED.COUNT, bits 6:0, RO. -/
def Fld.L3_RETIRED_COUNT : Fld := ⟨6, 0⟩
/-- L3_ERR_STATUS.SET, bits 31:22, RO. -/
def Fld.L3_ERR_STATUS_SET : Fld := ⟨31, 22⟩
/-- L3_ERR_STATUS.WAY, bits 21:18, RO. -/
def Fld.L3_ERR_STATUS_WAY : Fld := ⟨21, 18⟩
/-- L3_ERR_STATUS.SECTOR, bits 17:16, RO. -/
def Fld.L3_ERR_STATUS_SECTOR : Fld := ⟨17, 16⟩
/-- L3_ERR_STATUS.KIND, bits 15:12, RO. -/
def Fld.L3_ERR_STATUS_KIND : Fld := ⟨15, 12⟩
/-- L3_ERR_STATUS.OVERFLOW, bits 1, W1C. -/
def Fld.L3_ERR_STATUS_OVERFLOW : Fld := ⟨1, 1⟩
/-- L3_ERR_STATUS.VALID, bits 0, W1C. -/
def Fld.L3_ERR_STATUS_VALID : Fld := ⟨0, 0⟩
/-- L3_ERR_COUNT.UE, bits 31:16, RC. -/
def Fld.L3_ERR_COUNT_UE : Fld := ⟨31, 16⟩
/-- L3_ERR_COUNT.CE, bits 15:0, RC. -/
def Fld.L3_ERR_COUNT_CE : Fld := ⟨15, 0⟩
/-- CLEAT_TAKE.STATUS, bits 31:30, RO. -/
def Fld.CLEAT_TAKE_STATUS : Fld := ⟨31, 30⟩
/-- CLEAT_TAKE.FETAS, bits 29, RO. -/
def Fld.CLEAT_TAKE_FETAS : Fld := ⟨29, 29⟩
/-- CLEAT_TAKE.OWNER, bits 28:0, RO. -/
def Fld.CLEAT_TAKE_OWNER : Fld := ⟨28, 0⟩
/-- CLEAT_GIVE.RELEASE, bits 0, WO. -/
def Fld.CLEAT_GIVE_RELEASE : Fld := ⟨0, 0⟩
/-- CLEAT_STATE.STATE, bits 31:30, RO. -/
def Fld.CLEAT_STATE_STATE : Fld := ⟨31, 30⟩
/-- CLEAT_STATE.FETAS, bits 29, RO. -/
def Fld.CLEAT_STATE_FETAS : Fld := ⟨29, 29⟩
/-- CLEAT_STATE.OWNER, bits 28:0, RO. -/
def Fld.CLEAT_STATE_OWNER : Fld := ⟨28, 0⟩
/-- CLEAT_FORCE.FREE, bits 0, WO. -/
def Fld.CLEAT_FORCE_FREE : Fld := ⟨0, 0⟩
/-- CLEAT_ERR_STATUS.CLEAT, bits 27:16, RO. -/
def Fld.CLEAT_ERR_STATUS_CLEAT : Fld := ⟨27, 16⟩
/-- CLEAT_ERR_STATUS.KIND, bits 3:2, RO. -/
def Fld.CLEAT_ERR_STATUS_KIND : Fld := ⟨3, 2⟩
/-- CLEAT_ERR_STATUS.OVERFLOW, bits 1, W1C. -/
def Fld.CLEAT_ERR_STATUS_OVERFLOW : Fld := ⟨1, 1⟩
/-- CLEAT_ERR_STATUS.VALID, bits 0, W1C. -/
def Fld.CLEAT_ERR_STATUS_VALID : Fld := ⟨0, 0⟩
/-- CLEAT_ERR_PID.FETAS, bits 29, RO. -/
def Fld.CLEAT_ERR_PID_FETAS : Fld := ⟨29, 29⟩
/-- CLEAT_ERR_PID.PID, bits 28:0, RO. -/
def Fld.CLEAT_ERR_PID_PID : Fld := ⟨28, 0⟩
/-- MG_STATUS.DEGRADED, bits 31, RO. -/
def Fld.MG_STATUS_DEGRADED : Fld := ⟨31, 31⟩
/-- MG_STATUS.FAILED, bits 30:27, RO. -/
def Fld.MG_STATUS_FAILED : Fld := ⟨30, 27⟩
/-- MG_STATUS.RATE, bits 26, RO. -/
def Fld.MG_STATUS_RATE : Fld := ⟨26, 26⟩
/-- MG_STATUS.SET, bits 25:17, RO. -/
def Fld.MG_STATUS_SET : Fld := ⟨25, 17⟩
/-- MG_STATUS.REFMUL, bits 16:15, RO. -/
def Fld.MG_STATUS_REFMUL : Fld := ⟨16, 15⟩
/-- MG_STATUS.TEMP, bits 14:7, RO. -/
def Fld.MG_STATUS_TEMP : Fld := ⟨14, 7⟩
/-- MG_STATUS.READY, bits 0, RO. -/
def Fld.MG_STATUS_READY : Fld := ⟨0, 0⟩
/-- MG_ERR_STATUS.KIND, bits 31:28, RO. -/
def Fld.MG_ERR_STATUS_KIND : Fld := ⟨31, 28⟩
/-- MG_ERR_STATUS.CHANNEL, bits 27:24, RO. -/
def Fld.MG_ERR_STATUS_CHANNEL : Fld := ⟨27, 24⟩
/-- MG_ERR_STATUS.SECTOR, bits 23:22, RO. -/
def Fld.MG_ERR_STATUS_SECTOR : Fld := ⟨23, 22⟩
/-- MG_ERR_STATUS.OVERFLOW, bits 1, W1C. -/
def Fld.MG_ERR_STATUS_OVERFLOW : Fld := ⟨1, 1⟩
/-- MG_ERR_STATUS.VALID, bits 0, W1C. -/
def Fld.MG_ERR_STATUS_VALID : Fld := ⟨0, 0⟩
/-- MG_ERR_ADDR_LO.PA_LO, bits 31:0, RO. -/
def Fld.MG_ERR_ADDR_LO_PA_LO : Fld := ⟨31, 0⟩
/-- MG_ERR_ADDR_HI.PA_HI, bits 13:0, RO. -/
def Fld.MG_ERR_ADDR_HI_PA_HI : Fld := ⟨13, 0⟩
/-- MG_ERR_COUNT.UE, bits 31:16, RC. -/
def Fld.MG_ERR_COUNT_UE : Fld := ⟨31, 16⟩
/-- MG_ERR_COUNT.CE, bits 15:0, RC. -/
def Fld.MG_ERR_COUNT_CE : Fld := ⟨15, 0⟩
/-- MG_SPARE.POISONED, bits 24:16, RO. -/
def Fld.MG_SPARE_POISONED : Fld := ⟨24, 16⟩
/-- MG_SPARE.ROWS, bits 7:0, RO. -/
def Fld.MG_SPARE_ROWS : Fld := ⟨7, 0⟩
/-- MG_SCRUB.PASSES, bits 31:16, RO. -/
def Fld.MG_SCRUB_PASSES : Fld := ⟨31, 16⟩
/-- MG_SCRUB.PROGRESS, bits 9:0, RO. -/
def Fld.MG_SCRUB_PROGRESS : Fld := ⟨9, 0⟩
/-- DKEY_MAP.EN, bits 31, RO. -/
def Fld.DKEY_MAP_EN : Fld := ⟨31, 31⟩
/-- DKEY_MAP.SLOT, bits 12:0, RO. -/
def Fld.DKEY_MAP_SLOT : Fld := ⟨12, 0⟩
/-- MR_STATUS.READY, bits 8, RO. -/
def Fld.MR_STATUS_READY : Fld := ⟨8, 8⟩
/-- MR_STATUS.LOW_SPARES, bits 7:4, RO. -/
def Fld.MR_STATUS_LOW_SPARES : Fld := ⟨7, 4⟩
/-- MR_STATUS.EXHAUSTED, bits 3:0, RO. -/
def Fld.MR_STATUS_EXHAUSTED : Fld := ⟨3, 0⟩
/-- MR_ERR_STATUS.KIND, bits 31:28, RO. -/
def Fld.MR_ERR_STATUS_KIND : Fld := ⟨31, 28⟩
/-- MR_ERR_STATUS.DIE, bits 27:26, RO. -/
def Fld.MR_ERR_STATUS_DIE : Fld := ⟨27, 26⟩
/-- MR_ERR_STATUS.SECTOR, bits 25:22, RO. -/
def Fld.MR_ERR_STATUS_SECTOR : Fld := ⟨25, 22⟩
/-- MR_ERR_STATUS.OVERFLOW, bits 1, W1C. -/
def Fld.MR_ERR_STATUS_OVERFLOW : Fld := ⟨1, 1⟩
/-- MR_ERR_STATUS.VALID, bits 0, W1C. -/
def Fld.MR_ERR_STATUS_VALID : Fld := ⟨0, 0⟩
/-- MR_ERR_ADDR_LO.PA_LO, bits 31:0, RO. -/
def Fld.MR_ERR_ADDR_LO_PA_LO : Fld := ⟨31, 0⟩
/-- MR_ERR_ADDR_HI.PA_HI, bits 13:0, RO. -/
def Fld.MR_ERR_ADDR_HI_PA_HI : Fld := ⟨13, 0⟩
/-- MR_ERR_COUNT.UE, bits 31:16, RC. -/
def Fld.MR_ERR_COUNT_UE : Fld := ⟨31, 16⟩
/-- MR_ERR_COUNT.CE, bits 15:0, RC. -/
def Fld.MR_ERR_COUNT_CE : Fld := ⟨15, 0⟩
/-- MR_DIE.RETRIES, bits 31:16, RC. -/
def Fld.MR_DIE_RETRIES : Fld := ⟨31, 16⟩
/-- MR_DIE.SPARES_FREE, bits 13:0, RO. -/
def Fld.MR_DIE_SPARES_FREE : Fld := ⟨13, 0⟩
/-- MKEY_MAP.EN, bits 31, RO. -/
def Fld.MKEY_MAP_EN : Fld := ⟨31, 31⟩
/-- MKEY_MAP.SLOT, bits 12:0, RO. -/
def Fld.MKEY_MAP_SLOT : Fld := ⟨12, 0⟩
/-- PDQ.RECLAIMS, bits 31:16, RC. -/
def Fld.PDQ_RECLAIMS : Fld := ⟨31, 16⟩
/-- PDQ.COUNT, bits 10:0, RO. -/
def Fld.PDQ_COUNT : Fld := ⟨10, 0⟩
/-- DIST_CTL.QUIET, bits 1, RO. -/
def Fld.DIST_CTL_QUIET : Fld := ⟨1, 1⟩
/-- DIST_CTL.GDIS, bits 0, RW. -/
def Fld.DIST_CTL_GDIS : Fld := ⟨0, 0⟩
/-- LCORE_MAP.VALID, bits 6, RO. -/
def Fld.LCORE_MAP_VALID : Fld := ⟨6, 6⟩
/-- LCORE_MAP.PCORE, bits 5:0, RO. -/
def Fld.LCORE_MAP_PCORE : Fld := ⟨5, 0⟩
/-- DB_NEXT.VALID, bits 31, RC. -/
def Fld.DB_NEXT_VALID : Fld := ⟨31, 31⟩
/-- DB_NEXT.VMID, bits 12:0, RC. -/
def Fld.DB_NEXT_VMID : Fld := ⟨12, 0⟩
/-- SRC_CFG.EN, bits 31, RW. -/
def Fld.SRC_CFG_EN : Fld := ⟨31, 31⟩
/-- SRC_CFG.VIRT, bits 30, RW. -/
def Fld.SRC_CFG_VIRT : Fld := ⟨30, 30⟩
/-- SRC_CFG.TRIG, bits 29, RW. -/
def Fld.SRC_CFG_TRIG : Fld := ⟨29, 29⟩
/-- SRC_CFG.PRIORITY, bits 21:16, RW. -/
def Fld.SRC_CFG_PRIORITY : Fld := ⟨21, 16⟩
/-- SRC_CFG.TARGET, bits 12:0, RW. -/
def Fld.SRC_CFG_TARGET : Fld := ⟨12, 0⟩
/-- SRC_STAT.LINE, bits 2, RO. -/
def Fld.SRC_STAT_LINE : Fld := ⟨2, 2⟩
/-- SRC_STAT.ACTIVE, bits 1, RO. -/
def Fld.SRC_STAT_ACTIVE : Fld := ⟨1, 1⟩
/-- SRC_STAT.PENDING, bits 0, RO. -/
def Fld.SRC_STAT_PENDING : Fld := ⟨0, 0⟩
/-- SRC_SET.SET, bits 0, WO. -/
def Fld.SRC_SET_SET : Fld := ⟨0, 0⟩
/-- SRC_CLR.ACTIVE, bits 1, WO. -/
def Fld.SRC_CLR_ACTIVE : Fld := ⟨1, 1⟩
/-- SRC_CLR.PENDING, bits 0, WO. -/
def Fld.SRC_CLR_PENDING : Fld := ⟨0, 0⟩
/-- VM_CFG.DB_EN, bits 31, RW. -/
def Fld.VM_CFG_DB_EN : Fld := ⟨31, 31⟩
/-- VM_CFG.HOME, bits 5:0, RW. -/
def Fld.VM_CFG_HOME : Fld := ⟨5, 0⟩
/-- IRQ_CTL.THRESH, bits 5:0, RW. -/
def Fld.IRQ_CTL_THRESH : Fld := ⟨5, 0⟩
/-- IRQ_SRC.PRIORITY, bits 21:16, RO. -/
def Fld.IRQ_SRC_PRIORITY : Fld := ⟨21, 16⟩
/-- IRQ_SRC.SRC, bits 14:0, RO. -/
def Fld.IRQ_SRC_SRC : Fld := ⟨14, 0⟩
/-- VIRQ_SRC.PRIORITY, bits 21:16, RO. -/
def Fld.VIRQ_SRC_PRIORITY : Fld := ⟨21, 16⟩
/-- VIRQ_SRC.SRC, bits 14:0, RO. -/
def Fld.VIRQ_SRC_SRC : Fld := ⟨14, 0⟩
/-- IRQ_EOI.SRC, bits 14:0, WO. -/
def Fld.IRQ_EOI_SRC : Fld := ⟨14, 0⟩
/-- VIRQ_EOI.SRC, bits 14:0, WO. -/
def Fld.VIRQ_EOI_SRC : Fld := ⟨14, 0⟩
/-- IRQ_ACTPRI.ACT, bits 63:0, RO. -/
def Fld.IRQ_ACTPRI_ACT : Fld := ⟨63, 0⟩
/-- V_THRESH.THRESH, bits 5:0, RW. -/
def Fld.V_THRESH_THRESH : Fld := ⟨5, 0⟩
/-- V_ACTPRI.ACT, bits 63:0, RW. -/
def Fld.V_ACTPRI_ACT : Fld := ⟨63, 0⟩
/-- VCTL.RES, bits 0, RW. -/
def Fld.VCTL_RES : Fld := ⟨0, 0⟩
/-- IN_MSG.DATA, bits 31:0, RW. -/
def Fld.IN_MSG_DATA : Fld := ⟨31, 0⟩
/-- OUT_MSG.DATA, bits 31:0, RW. -/
def Fld.OUT_MSG_DATA : Fld := ⟨31, 0⟩
/-- MBX_STAT.OVERRUN, bits 2, W1C. -/
def Fld.MBX_STAT_OVERRUN : Fld := ⟨2, 2⟩
/-- MBX_STAT.IN_FULL, bits 1, RO. -/
def Fld.MBX_STAT_IN_FULL : Fld := ⟨1, 1⟩
/-- MBX_STAT.OUT_BUSY, bits 0, RO. -/
def Fld.MBX_STAT_OUT_BUSY : Fld := ⟨0, 0⟩
/-- MBX_OUT_RING.GO, bits 0, WO. -/
def Fld.MBX_OUT_RING_GO : Fld := ⟨0, 0⟩
/-- MBX_OUT_ACK.GO, bits 0, WO. -/
def Fld.MBX_OUT_ACK_GO : Fld := ⟨0, 0⟩
/-- MBX_IN_RING.GO, bits 0, WO. -/
def Fld.MBX_IN_RING_GO : Fld := ⟨0, 0⟩
/-- MBX_IN_ACK.GO, bits 0, WO. -/
def Fld.MBX_IN_ACK_GO : Fld := ⟨0, 0⟩
/-- MBX_COUNT.IN, bits 31:16, RO. -/
def Fld.MBX_COUNT_IN : Fld := ⟨31, 16⟩
/-- MBX_COUNT.OUT, bits 15:0, RO. -/
def Fld.MBX_COUNT_OUT : Fld := ⟨15, 0⟩
/-- SLICE_BIND.VALID, bits 31, RO. -/
def Fld.SLICE_BIND_VALID : Fld := ⟨31, 31⟩
/-- SLICE_BIND.ASID_ANY, bits 30, RO. -/
def Fld.SLICE_BIND_ASID_ANY : Fld := ⟨30, 30⟩
/-- SLICE_BIND.U_OK, bits 29, RO. -/
def Fld.SLICE_BIND_U_OK : Fld := ⟨29, 29⟩
/-- SLICE_BIND.PID, bits 28:0, RO. -/
def Fld.SLICE_BIND_PID : Fld := ⟨28, 0⟩
/-- SLICE_GRANT_Q.COUNT, bits 6:0, RO. -/
def Fld.SLICE_GRANT_Q_COUNT : Fld := ⟨6, 0⟩
/-- SLICE_GRANT_V.COUNT, bits 22:16, RO. -/
def Fld.SLICE_GRANT_V_COUNT : Fld := ⟨22, 16⟩
/-- SLICE_GRANT_V.BASE, bits 13:0, RO. -/
def Fld.SLICE_GRANT_V_BASE : Fld := ⟨13, 0⟩
/-- SLICE_GRANT_BW.CAP, bits 23:8, RO. -/
def Fld.SLICE_GRANT_BW_CAP : Fld := ⟨23, 8⟩
/-- SLICE_GRANT_BW.WEIGHT, bits 7:0, RO. -/
def Fld.SLICE_GRANT_BW_WEIGHT : Fld := ⟨7, 0⟩
/-- SLICE_GEN.PENDING, bits 16, RO. -/
def Fld.SLICE_GEN_PENDING : Fld := ⟨16, 16⟩
/-- SLICE_GEN.GEN, bits 15:0, RO. -/
def Fld.SLICE_GEN_GEN : Fld := ⟨15, 0⟩
/-- SLICE_FAR.FAR, bits 31, RO. -/
def Fld.SLICE_FAR_FAR : Fld := ⟨31, 31⟩
/-- SLICE_FAR.HVEC, bits 13:0, RO. -/
def Fld.SLICE_FAR_HVEC : Fld := ⟨13, 0⟩
/-- WIN_A.IOVA, bits 47:12, RO. -/
def Fld.WIN_A_IOVA : Fld := ⟨47, 12⟩
/-- WIN_A.W, bits 2, RO. -/
def Fld.WIN_A_W : Fld := ⟨2, 2⟩
/-- WIN_A.R, bits 1, RO. -/
def Fld.WIN_A_R : Fld := ⟨1, 1⟩
/-- WIN_A.V, bits 0, RO. -/
def Fld.WIN_A_V : Fld := ⟨0, 0⟩
/-- WIN_B.PAGES, bits 63:46, RO. -/
def Fld.WIN_B_PAGES : Fld := ⟨63, 46⟩
/-- WIN_B.PA, bits 45:12, RO. -/
def Fld.WIN_B_PA : Fld := ⟨45, 12⟩
/-- SLICE_ERR_STATUS.QUEUE, bits 21:16, RO. -/
def Fld.SLICE_ERR_STATUS_QUEUE : Fld := ⟨21, 16⟩
/-- SLICE_ERR_STATUS.KIND, bits 15:12, RO. -/
def Fld.SLICE_ERR_STATUS_KIND : Fld := ⟨15, 12⟩
/-- SLICE_ERR_STATUS.OVERFLOW, bits 1, W1C. -/
def Fld.SLICE_ERR_STATUS_OVERFLOW : Fld := ⟨1, 1⟩
/-- SLICE_ERR_STATUS.VALID, bits 0, W1C. -/
def Fld.SLICE_ERR_STATUS_VALID : Fld := ⟨0, 0⟩
/-- SLICE_ERR_COUNT.COUNT, bits 15:0, RC. -/
def Fld.SLICE_ERR_COUNT_COUNT : Fld := ⟨15, 0⟩
/-- SE_STATUS.VPORT, bits 17, RO. -/
def Fld.SE_STATUS_VPORT : Fld := ⟨17, 17⟩
/-- SE_STATUS.CRYPTO, bits 16, RO. -/
def Fld.SE_STATUS_CRYPTO : Fld := ⟨16, 16⟩
/-- SE_STATUS.POOL_FREE, bits 15:0, RO. -/
def Fld.SE_STATUS_POOL_FREE : Fld := ⟨15, 0⟩
/-- SE_ERR_STATUS.SLICE, bits 31:19, RO. -/
def Fld.SE_ERR_STATUS_SLICE : Fld := ⟨31, 19⟩
/-- SE_ERR_STATUS.KIND, bits 18:15, RO. -/
def Fld.SE_ERR_STATUS_KIND : Fld := ⟨18, 15⟩
/-- SE_ERR_STATUS.OVERFLOW, bits 1, W1C. -/
def Fld.SE_ERR_STATUS_OVERFLOW : Fld := ⟨1, 1⟩
/-- SE_ERR_STATUS.VALID, bits 0, W1C. -/
def Fld.SE_ERR_STATUS_VALID : Fld := ⟨0, 0⟩
/-- SE_ERR_COUNT.UE, bits 31:16, RC. -/
def Fld.SE_ERR_COUNT_UE : Fld := ⟨31, 16⟩
/-- SE_ERR_COUNT.CE, bits 15:0, RC. -/
def Fld.SE_ERR_COUNT_CE : Fld := ⟨15, 0⟩
/-- Q_SQ_BASE.IOVA, bits 47:6, RW. -/
def Fld.Q_SQ_BASE_IOVA : Fld := ⟨47, 6⟩
/-- Q_CQ_BASE.IOVA, bits 47:4, RW. -/
def Fld.Q_CQ_BASE_IOVA : Fld := ⟨47, 4⟩
/-- Q_CFG.EN, bits 31, RW. -/
def Fld.Q_CFG_EN : Fld := ⟨31, 31⟩
/-- Q_CFG.ERR, bits 30, RO. -/
def Fld.Q_CFG_ERR : Fld := ⟨30, 30⟩
/-- Q_CFG.DRAINING, bits 29, RO. -/
def Fld.Q_CFG_DRAINING : Fld := ⟨29, 29⟩
/-- Q_CFG.IRQ, bits 28, RW. -/
def Fld.Q_CFG_IRQ : Fld := ⟨28, 28⟩
/-- Q_CFG.ERRKIND, bits 27:24, RO. -/
def Fld.Q_CFG_ERRKIND : Fld := ⟨27, 24⟩
/-- Q_CFG.VEC, bits 23:18, RW. -/
def Fld.Q_CFG_VEC : Fld := ⟨23, 18⟩
/-- Q_CFG.SIZE, bits 15:12, RW. -/
def Fld.Q_CFG_SIZE : Fld := ⟨15, 12⟩
/-- Q_CFG.SVC, bits 3:0, RW. -/
def Fld.Q_CFG_SVC : Fld := ⟨3, 0⟩
/-- Q_SQ_DB.ADD, bits 11:0, WO. -/
def Fld.Q_SQ_DB_ADD : Fld := ⟨11, 0⟩
/-- Q_SQ.PROD, bits 31:16, RO. -/
def Fld.Q_SQ_PROD : Fld := ⟨31, 16⟩
/-- Q_SQ.HEAD, bits 15:0, RO. -/
def Fld.Q_SQ_HEAD : Fld := ⟨15, 0⟩
/-- Q_CQ.TAIL, bits 31:16, RO. -/
def Fld.Q_CQ_TAIL : Fld := ⟨31, 16⟩
/-- Q_CQ.HEAD, bits 15:0, RW. -/
def Fld.Q_CQ_HEAD : Fld := ⟨15, 0⟩
/-- PORT_CFG.EN, bits 31, RW. -/
def Fld.PORT_CFG_EN : Fld := ⟨31, 31⟩
/-- PORT_CFG.MODE, bits 30:28, RW. -/
def Fld.PORT_CFG_MODE : Fld := ⟨30, 28⟩
/-- PORT_CFG.PVID, bits 27:16, RW. -/
def Fld.PORT_CFG_PVID : Fld := ⟨27, 16⟩
/-- PORT_CFG.PRI, bits 15:13, RW. -/
def Fld.PORT_CFG_PRI : Fld := ⟨15, 13⟩
/-- PORT_CFG.FEC, bits 12:11, RW. -/
def Fld.PORT_CFG_FEC : Fld := ⟨12, 11⟩
/-- PORT_CFG.LEARN, bits 10, RW. -/
def Fld.PORT_CFG_LEARN : Fld := ⟨10, 10⟩
/-- PORT_STATUS.LINK_CHG, bits 5, W1C. -/
def Fld.PORT_STATUS_LINK_CHG : Fld := ⟨5, 5⟩
/-- PORT_STATUS.SPEED, bits 4:2, RO. -/
def Fld.PORT_STATUS_SPEED : Fld := ⟨4, 2⟩
/-- PORT_STATUS.AMP, bits 1, RO. -/
def Fld.PORT_STATUS_AMP : Fld := ⟨1, 1⟩
/-- PORT_STATUS.LINK, bits 0, RO. -/
def Fld.PORT_STATUS_LINK : Fld := ⟨0, 0⟩
/-- T1L_DIAG.ABOVE, bits 16, RO. -/
def Fld.T1L_DIAG_ABOVE : Fld := ⟨16, 16⟩
/-- T1L_DIAG.MSE, bits 15:0, RO. -/
def Fld.T1L_DIAG_MSE : Fld := ⟨15, 0⟩
/-- QBV_CTL.EN, bits 31, RW. -/
def Fld.QBV_CTL_EN : Fld := ⟨31, 31⟩
/-- QBV_CTL.PEND, bits 30, RO. -/
def Fld.QBV_CTL_PEND : Fld := ⟨30, 30⟩
/-- QBV_CTL.OPER_LEN, bits 24:16, RO. -/
def Fld.QBV_CTL_OPER_LEN : Fld := ⟨24, 16⟩
/-- QBV_CTL.ADMIN_LEN, bits 8:0, RW. -/
def Fld.QBV_CTL_ADMIN_LEN : Fld := ⟨8, 0⟩
/-- QBV_CYCLE.NS, bits 29:0, RW. -/
def Fld.QBV_CYCLE_NS : Fld := ⟨29, 0⟩
/-- QBV_BASE_LO.TIME, bits 31:0, RW. -/
def Fld.QBV_BASE_LO_TIME : Fld := ⟨31, 0⟩
/-- QBV_BASE_HI.TIME, bits 31:0, RW. -/
def Fld.QBV_BASE_HI_TIME : Fld := ⟨31, 0⟩
/-- CNT_RX.COUNT, bits 31:0, RC. -/
def Fld.CNT_RX_COUNT : Fld := ⟨31, 0⟩
/-- CNT_TX.COUNT, bits 31:0, RC. -/
def Fld.CNT_TX_COUNT : Fld := ⟨31, 0⟩
/-- CNT_DROP_LEN.COUNT, bits 31:0, RC. -/
def Fld.CNT_DROP_LEN_COUNT : Fld := ⟨31, 0⟩
/-- CNT_DROP_FCS.COUNT, bits 31:0, RC. -/
def Fld.CNT_DROP_FCS_COUNT : Fld := ⟨31, 0⟩
/-- CNT_DROP_OFF.COUNT, bits 31:0, RC. -/
def Fld.CNT_DROP_OFF_COUNT : Fld := ⟨31, 0⟩
/-- CNT_DROP_VLAN.COUNT, bits 31:0, RC. -/
def Fld.CNT_DROP_VLAN_COUNT : Fld := ⟨31, 0⟩
/-- CNT_DROP_FULL.COUNT, bits 31:0, RC. -/
def Fld.CNT_DROP_FULL_COUNT : Fld := ⟨31, 0⟩
/-- CNT_LEARN_FULL.COUNT, bits 31:0, RC. -/
def Fld.CNT_LEARN_FULL_COUNT : Fld := ⟨31, 0⟩
/-- QBV_GATES.GATES, bits 7:0, RW. -/
def Fld.QBV_GATES_GATES : Fld := ⟨7, 0⟩
/-- QBV_IVL.NS, bits 31:0, RW. -/
def Fld.QBV_IVL_NS : Fld := ⟨31, 0⟩
/-- SW_CTL.FLUSH, bits 1, WO. -/
def Fld.SW_CTL_FLUSH : Fld := ⟨1, 1⟩
/-- SW_CTL.EN, bits 0, RW. -/
def Fld.SW_CTL_EN : Fld := ⟨0, 0⟩
/-- FDB_AGE.SECONDS, bits 15:0, RW. -/
def Fld.FDB_AGE_SECONDS : Fld := ⟨15, 0⟩
/-- HSR_CFG.MODE, bits 31:30, RW. -/
def Fld.HSR_CFG_MODE : Fld := ⟨31, 30⟩
/-- HSR_CFG.FORGET, bits 29:16, RW. -/
def Fld.HSR_CFG_FORGET : Fld := ⟨29, 16⟩
/-- HSR_CFG.LIFECHECK, bits 15:0, RW. -/
def Fld.HSR_CFG_LIFECHECK : Fld := ⟨15, 0⟩
/-- PTP_RATE.RATE, bits 31:0, RW. -/
def Fld.PTP_RATE_RATE : Fld := ⟨31, 0⟩
/-- PTP_OFS.OFS, bits 31:0, RW. -/
def Fld.PTP_OFS_OFS : Fld := ⟨31, 0⟩
/-- PTP_CTL.DOMAIN, bits 15:8, RW. -/
def Fld.PTP_CTL_DOMAIN : Fld := ⟨15, 8⟩
/-- PTP_CTL.GPTP, bits 1, RW. -/
def Fld.PTP_CTL_GPTP : Fld := ⟨1, 1⟩
/-- PTP_CTL.APPLY, bits 0, WO. -/
def Fld.PTP_CTL_APPLY : Fld := ⟨0, 0⟩
/-- PTP_COMMIT_LO.TIME, bits 31:0, RO. -/
def Fld.PTP_COMMIT_LO_TIME : Fld := ⟨31, 0⟩
/-- PTP_COMMIT_HI.TIME, bits 31:0, RO. -/
def Fld.PTP_COMMIT_HI_TIME : Fld := ⟨31, 0⟩
/-- UART_CFG.EN, bits 31, RW. -/
def Fld.UART_CFG_EN : Fld := ⟨31, 31⟩
/-- UART_CFG.RS485, bits 30, RW. -/
def Fld.UART_CFG_RS485 : Fld := ⟨30, 30⟩
/-- UART_CFG.DEPOL, bits 29, RW. -/
def Fld.UART_CFG_DEPOL : Fld := ⟨29, 29⟩
/-- UART_CFG.IDLE_BITS, bits 23:16, RW. -/
def Fld.UART_CFG_IDLE_BITS : Fld := ⟨23, 16⟩
/-- UART_CFG.DE_LEAD, bits 15:12, RW. -/
def Fld.UART_CFG_DE_LEAD : Fld := ⟨15, 12⟩
/-- UART_CFG.DE_TAIL, bits 11:8, RW. -/
def Fld.UART_CFG_DE_TAIL : Fld := ⟨11, 8⟩
/-- UART_CFG.PARITY, bits 5:4, RW. -/
def Fld.UART_CFG_PARITY : Fld := ⟨5, 4⟩
/-- UART_CFG.STOP2, bits 3, RW. -/
def Fld.UART_CFG_STOP2 : Fld := ⟨3, 3⟩
/-- UART_CFG.BITS7, bits 0, RW. -/
def Fld.UART_CFG_BITS7 : Fld := ⟨0, 0⟩
/-- UART_BAUD.DIV_INT, bits 19:4, RW. -/
def Fld.UART_BAUD_DIV_INT : Fld := ⟨19, 4⟩
/-- UART_BAUD.DIV_FRAC, bits 3:0, RW. -/
def Fld.UART_BAUD_DIV_FRAC : Fld := ⟨3, 0⟩
/-- UART_STAT.RXLVL, bits 31:24, RO. -/
def Fld.UART_STAT_RXLVL : Fld := ⟨31, 24⟩
/-- UART_STAT.TXLVL, bits 23:16, RO. -/
def Fld.UART_STAT_TXLVL : Fld := ⟨23, 16⟩
/-- UART_STAT.TXOVR, bits 6, W1C. -/
def Fld.UART_STAT_TXOVR : Fld := ⟨6, 6⟩
/-- UART_STAT.IDLE, bits 5, W1C. -/
def Fld.UART_STAT_IDLE : Fld := ⟨5, 5⟩
/-- UART_STAT.OVR, bits 4, W1C. -/
def Fld.UART_STAT_OVR : Fld := ⟨4, 4⟩
/-- UART_STAT.FERR, bits 3, W1C. -/
def Fld.UART_STAT_FERR : Fld := ⟨3, 3⟩
/-- UART_STAT.PERR, bits 2, W1C. -/
def Fld.UART_STAT_PERR : Fld := ⟨2, 2⟩
/-- UART_STAT.TXDONE, bits 1, RO. -/
def Fld.UART_STAT_TXDONE : Fld := ⟨1, 1⟩
/-- UART_STAT.DE, bits 0, RO. -/
def Fld.UART_STAT_DE : Fld := ⟨0, 0⟩
/-- UART_RXD.VALID, bits 31, RC. -/
def Fld.UART_RXD_VALID : Fld := ⟨31, 31⟩
/-- UART_RXD.FERR, bits 9, RC. -/
def Fld.UART_RXD_FERR : Fld := ⟨9, 9⟩
/-- UART_RXD.PERR, bits 8, RC. -/
def Fld.UART_RXD_PERR : Fld := ⟨8, 8⟩
/-- UART_RXD.DATA, bits 7:0, RC. -/
def Fld.UART_RXD_DATA : Fld := ⟨7, 0⟩
/-- UART_TXD.DATA, bits 7:0, WO. -/
def Fld.UART_TXD_DATA : Fld := ⟨7, 0⟩
/-- CAN_CTL.EN, bits 31, RW. -/
def Fld.CAN_CTL_EN : Fld := ⟨31, 31⟩
/-- CAN_CTL.FD, bits 30, RW. -/
def Fld.CAN_CTL_FD : Fld := ⟨30, 30⟩
/-- CAN_CTL.LOOP, bits 29, RW. -/
def Fld.CAN_CTL_LOOP : Fld := ⟨29, 29⟩
/-- CAN_CTL.LISTEN, bits 28, RW. -/
def Fld.CAN_CTL_LISTEN : Fld := ⟨28, 28⟩
/-- CAN_CTL.TDC_EN, bits 27, RW. -/
def Fld.CAN_CTL_TDC_EN : Fld := ⟨27, 27⟩
/-- CAN_CTL.ABOR, bits 26, RW. -/
def Fld.CAN_CTL_ABOR : Fld := ⟨26, 26⟩
/-- CAN_NBT.BRP, bits 31:22, RW. -/
def Fld.CAN_NBT_BRP : Fld := ⟨31, 22⟩
/-- CAN_NBT.TSEG1, bits 21:14, RW. -/
def Fld.CAN_NBT_TSEG1 : Fld := ⟨21, 14⟩
/-- CAN_NBT.TSEG2, bits 13:7, RW. -/
def Fld.CAN_NBT_TSEG2 : Fld := ⟨13, 7⟩
/-- CAN_NBT.SJW, bits 6:0, RW. -/
def Fld.CAN_NBT_SJW : Fld := ⟨6, 0⟩
/-- CAN_DBT.BRP, bits 31:27, RW. -/
def Fld.CAN_DBT_BRP : Fld := ⟨31, 27⟩
/-- CAN_DBT.TSEG1, bits 26:22, RW. -/
def Fld.CAN_DBT_TSEG1 : Fld := ⟨26, 22⟩
/-- CAN_DBT.TSEG2, bits 21:18, RW. -/
def Fld.CAN_DBT_TSEG2 : Fld := ⟨21, 18⟩
/-- CAN_DBT.SJW, bits 17:14, RW. -/
def Fld.CAN_DBT_SJW : Fld := ⟨17, 14⟩
/-- CAN_TDC.SSPO, bits 13:7, RW. -/
def Fld.CAN_TDC_SSPO : Fld := ⟨13, 7⟩
/-- CAN_STAT.REC, bits 23:16, RO. -/
def Fld.CAN_STAT_REC : Fld := ⟨23, 16⟩
/-- CAN_STAT.TEC, bits 15:8, RO. -/
def Fld.CAN_STAT_TEC : Fld := ⟨15, 8⟩
/-- CAN_STAT.RXOVR, bits 4, W1C. -/
def Fld.CAN_STAT_RXOVR : Fld := ⟨4, 4⟩
/-- CAN_STAT.STATE, bits 3:2, RO. -/
def Fld.CAN_STAT_STATE : Fld := ⟨3, 2⟩
/-- CAN_STAT.BERR, bits 1, W1C. -/
def Fld.CAN_STAT_BERR : Fld := ⟨1, 1⟩
/-- CAN_STAT.SYNC, bits 0, RO. -/
def Fld.CAN_STAT_SYNC : Fld := ⟨0, 0⟩
/-- CAN_IRQ.RXOVR, bits 3, W1C. -/
def Fld.CAN_IRQ_RXOVR : Fld := ⟨3, 3⟩
/-- CAN_IRQ.BOFF, bits 2, W1C. -/
def Fld.CAN_IRQ_BOFF : Fld := ⟨2, 2⟩
/-- CAN_IRQ.PASSIVE, bits 1, W1C. -/
def Fld.CAN_IRQ_PASSIVE : Fld := ⟨1, 1⟩
/-- CAN_IRQ.BERR, bits 0, W1C. -/
def Fld.CAN_IRQ_BERR : Fld := ⟨0, 0⟩
/-- CAN_IEN.RXOVR, bits 3, RW. -/
def Fld.CAN_IEN_RXOVR : Fld := ⟨3, 3⟩
/-- CAN_IEN.BOFF, bits 2, RW. -/
def Fld.CAN_IEN_BOFF : Fld := ⟨2, 2⟩
/-- CAN_IEN.PASSIVE, bits 1, RW. -/
def Fld.CAN_IEN_PASSIVE : Fld := ⟨1, 1⟩
/-- CAN_IEN.BERR, bits 0, RW. -/
def Fld.CAN_IEN_BERR : Fld := ⟨0, 0⟩
/-- CAN_MBIRQ.MB, bits 31:0, W1C. -/
def Fld.CAN_MBIRQ_MB : Fld := ⟨31, 0⟩
/-- CAN_MBIEN.MB, bits 31:0, RW. -/
def Fld.CAN_MBIEN_MB : Fld := ⟨31, 0⟩
/-- CAN_FLT_ID.EN, bits 31, RW. -/
def Fld.CAN_FLT_ID_EN : Fld := ⟨31, 31⟩
/-- CAN_FLT_ID.IDE, bits 30, RW. -/
def Fld.CAN_FLT_ID_IDE : Fld := ⟨30, 30⟩
/-- CAN_FLT_ID.ID, bits 28:0, RW. -/
def Fld.CAN_FLT_ID_ID : Fld := ⟨28, 0⟩
/-- CAN_FLT_MASK.MASK, bits 28:0, RW. -/
def Fld.CAN_FLT_MASK_MASK : Fld := ⟨28, 0⟩
/-- CAN_MB_ID.IDE, bits 31, RW. -/
def Fld.CAN_MB_ID_IDE : Fld := ⟨31, 31⟩
/-- CAN_MB_ID.RTR, bits 30, RW. -/
def Fld.CAN_MB_ID_RTR : Fld := ⟨30, 30⟩
/-- CAN_MB_ID.ID, bits 28:0, RW. -/
def Fld.CAN_MB_ID_ID : Fld := ⟨28, 0⟩
/-- CAN_MB_CTRL.MODE, bits 31:30, RW. -/
def Fld.CAN_MB_CTRL_MODE : Fld := ⟨31, 30⟩
/-- CAN_MB_CTRL.STATE, bits 29:28, RW. -/
def Fld.CAN_MB_CTRL_STATE : Fld := ⟨29, 28⟩
/-- CAN_MB_CTRL.FDF, bits 27, RW. -/
def Fld.CAN_MB_CTRL_FDF : Fld := ⟨27, 27⟩
/-- CAN_MB_CTRL.BRS, bits 26, RW. -/
def Fld.CAN_MB_CTRL_BRS : Fld := ⟨26, 26⟩
/-- CAN_MB_CTRL.ESI, bits 25, RO. -/
def Fld.CAN_MB_CTRL_ESI : Fld := ⟨25, 25⟩
/-- CAN_MB_CTRL.ABORT, bits 24, WO. -/
def Fld.CAN_MB_CTRL_ABORT : Fld := ⟨24, 24⟩
/-- CAN_MB_CTRL.DLC, bits 19:16, RW. -/
def Fld.CAN_MB_CTRL_DLC : Fld := ⟨19, 16⟩
/-- SPI_CFG.EN, bits 31, RW. -/
def Fld.SPI_CFG_EN : Fld := ⟨31, 31⟩
/-- SPI_CFG.MODE, bits 30:29, RW. -/
def Fld.SPI_CFG_MODE : Fld := ⟨30, 29⟩
/-- SPI_CFG.LSB, bits 28, RW. -/
def Fld.SPI_CFG_LSB : Fld := ⟨28, 28⟩
/-- SPI_CFG.IEN, bits 27, RW. -/
def Fld.SPI_CFG_IEN : Fld := ⟨27, 27⟩
/-- SPI_CFG.DIV, bits 23:16, RW. -/
def Fld.SPI_CFG_DIV : Fld := ⟨23, 16⟩
/-- SPI_CFG.CSPOL, bits 3:0, RW. -/
def Fld.SPI_CFG_CSPOL : Fld := ⟨3, 0⟩
/-- SPI_XFER.GO, bits 31, WO. -/
def Fld.SPI_XFER_GO : Fld := ⟨31, 31⟩
/-- SPI_XFER.CS, bits 27:26, WO. -/
def Fld.SPI_XFER_CS : Fld := ⟨27, 26⟩
/-- SPI_XFER.HOLD, bits 25, WO. -/
def Fld.SPI_XFER_HOLD : Fld := ⟨25, 25⟩
/-- SPI_XFER.LEN, bits 12:0, WO. -/
def Fld.SPI_XFER_LEN : Fld := ⟨12, 0⟩
/-- SPI_TXD.DATA, bits 7:0, WO. -/
def Fld.SPI_TXD_DATA : Fld := ⟨7, 0⟩
/-- SPI_RXD.VALID, bits 31, RC. -/
def Fld.SPI_RXD_VALID : Fld := ⟨31, 31⟩
/-- SPI_RXD.DATA, bits 7:0, RC. -/
def Fld.SPI_RXD_DATA : Fld := ⟨7, 0⟩
/-- SPI_STAT.RXLVL, bits 31:24, RO. -/
def Fld.SPI_STAT_RXLVL : Fld := ⟨31, 24⟩
/-- SPI_STAT.TXLVL, bits 23:16, RO. -/
def Fld.SPI_STAT_TXLVL : Fld := ⟨23, 16⟩
/-- SPI_STAT.TXOVR, bits 2, W1C. -/
def Fld.SPI_STAT_TXOVR : Fld := ⟨2, 2⟩
/-- SPI_STAT.DONE, bits 1, W1C. -/
def Fld.SPI_STAT_DONE : Fld := ⟨1, 1⟩
/-- SPI_STAT.BUSY, bits 0, RO. -/
def Fld.SPI_STAT_BUSY : Fld := ⟨0, 0⟩
/-- I2C_CFG.EN, bits 31, RW. -/
def Fld.I2C_CFG_EN : Fld := ⟨31, 31⟩
/-- I2C_CFG.TARGET, bits 30, RW. -/
def Fld.I2C_CFG_TARGET : Fld := ⟨30, 30⟩
/-- I2C_CFG.SPEED, bits 29:28, RW. -/
def Fld.I2C_CFG_SPEED : Fld := ⟨29, 28⟩
/-- I2C_CFG.IEN, bits 27, RW. -/
def Fld.I2C_CFG_IEN : Fld := ⟨27, 27⟩
/-- I2C_CFG.A10, bits 26, RW. -/
def Fld.I2C_CFG_A10 : Fld := ⟨26, 26⟩
/-- I2C_CFG.TADDR, bits 9:0, RW. -/
def Fld.I2C_CFG_TADDR : Fld := ⟨9, 0⟩
/-- I2C_CMD.GO, bits 31, WO. -/
def Fld.I2C_CMD_GO : Fld := ⟨31, 31⟩
/-- I2C_CMD.STOP, bits 30, WO. -/
def Fld.I2C_CMD_STOP : Fld := ⟨30, 30⟩
/-- I2C_CMD.A10, bits 29, WO. -/
def Fld.I2C_CMD_A10 : Fld := ⟨29, 29⟩
/-- I2C_CMD.READ, bits 28, WO. -/
def Fld.I2C_CMD_READ : Fld := ⟨28, 28⟩
/-- I2C_CMD.ADDR, bits 25:16, WO. -/
def Fld.I2C_CMD_ADDR : Fld := ⟨25, 16⟩
/-- I2C_CMD.LEN, bits 12:0, WO. -/
def Fld.I2C_CMD_LEN : Fld := ⟨12, 0⟩
/-- I2C_TXD.DATA, bits 7:0, WO. -/
def Fld.I2C_TXD_DATA : Fld := ⟨7, 0⟩
/-- I2C_RXD.VALID, bits 31, RC. -/
def Fld.I2C_RXD_VALID : Fld := ⟨31, 31⟩
/-- I2C_RXD.DATA, bits 7:0, RC. -/
def Fld.I2C_RXD_DATA : Fld := ⟨7, 0⟩
/-- I2C_STAT.RXLVL, bits 31:24, RO. -/
def Fld.I2C_STAT_RXLVL : Fld := ⟨31, 24⟩
/-- I2C_STAT.TXLVL, bits 23:16, RO. -/
def Fld.I2C_STAT_TXLVL : Fld := ⟨23, 16⟩
/-- I2C_STAT.TXOVR, bits 5, W1C. -/
def Fld.I2C_STAT_TXOVR : Fld := ⟨5, 5⟩
/-- I2C_STAT.ADDRD, bits 4, W1C. -/
def Fld.I2C_STAT_ADDRD : Fld := ⟨4, 4⟩
/-- I2C_STAT.ARB, bits 3, W1C. -/
def Fld.I2C_STAT_ARB : Fld := ⟨3, 3⟩
/-- I2C_STAT.NACK, bits 2, W1C. -/
def Fld.I2C_STAT_NACK : Fld := ⟨2, 2⟩
/-- I2C_STAT.DONE, bits 1, W1C. -/
def Fld.I2C_STAT_DONE : Fld := ⟨1, 1⟩
/-- I2C_STAT.BUSY, bits 0, RO. -/
def Fld.I2C_STAT_BUSY : Fld := ⟨0, 0⟩
/-- GPIO_IN.PINS, bits 31:0, RO. -/
def Fld.GPIO_IN_PINS : Fld := ⟨31, 0⟩
/-- GPIO_OUT.PINS, bits 31:0, RW. -/
def Fld.GPIO_OUT_PINS : Fld := ⟨31, 0⟩
/-- GPIO_SET.PINS, bits 31:0, WO. -/
def Fld.GPIO_SET_PINS : Fld := ⟨31, 0⟩
/-- GPIO_CLR.PINS, bits 31:0, WO. -/
def Fld.GPIO_CLR_PINS : Fld := ⟨31, 0⟩
/-- GPIO_OE.PINS, bits 31:0, RW. -/
def Fld.GPIO_OE_PINS : Fld := ⟨31, 0⟩
/-- GPIO_OD.PINS, bits 31:0, RW. -/
def Fld.GPIO_OD_PINS : Fld := ⟨31, 0⟩
/-- GPIO_ISTAT.PINS, bits 31:0, W1C. -/
def Fld.GPIO_ISTAT_PINS : Fld := ⟨31, 0⟩
/-- GPIO_ICFG.IEN, bits 3, RW. -/
def Fld.GPIO_ICFG_IEN : Fld := ⟨3, 3⟩
/-- GPIO_ICFG.MODE, bits 2:0, RW. -/
def Fld.GPIO_ICFG_MODE : Fld := ⟨2, 0⟩
/-- QSPI_CFG.EN, bits 31, RW. -/
def Fld.QSPI_CFG_EN : Fld := ⟨31, 31⟩
/-- QSPI_CFG.WIDTH, bits 30:29, RW. -/
def Fld.QSPI_CFG_WIDTH : Fld := ⟨30, 29⟩
/-- QSPI_CFG.ADDR4, bits 28, RW. -/
def Fld.QSPI_CFG_ADDR4 : Fld := ⟨28, 28⟩
/-- QSPI_CFG.DUMMY, bits 27:24, RW. -/
def Fld.QSPI_CFG_DUMMY : Fld := ⟨27, 24⟩
/-- QSPI_CFG.CMD, bits 23:16, RW. -/
def Fld.QSPI_CFG_CMD : Fld := ⟨23, 16⟩
/-- QSPI_CFG.DIV, bits 15:8, RW. -/
def Fld.QSPI_CFG_DIV : Fld := ⟨15, 8⟩
/-- QSPI_CFG.SIZE, bits 4:0, RW. -/
def Fld.QSPI_CFG_SIZE : Fld := ⟨4, 0⟩
/-- QSPI_STAT.BUSY, bits 0, RO. -/
def Fld.QSPI_STAT_BUSY : Fld := ⟨0, 0⟩
/-- PCIE_CTL.EN, bits 31, RW. -/
def Fld.PCIE_CTL_EN : Fld := ⟨31, 31⟩
/-- PCIE_CTL.ROLE, bits 30, RO. -/
def Fld.PCIE_CTL_ROLE : Fld := ⟨30, 30⟩
/-- PCIE_CTL.SPEED, bits 27:26, RW. -/
def Fld.PCIE_CTL_SPEED : Fld := ⟨27, 26⟩
/-- PCIE_CTL.WIDTH, bits 25:24, RW. -/
def Fld.PCIE_CTL_WIDTH : Fld := ⟨25, 24⟩
/-- PCIE_CTL.CTO, bits 12:0, RW. -/
def Fld.PCIE_CTL_CTO : Fld := ⟨12, 0⟩
/-- PCIE_LINK.SPEED, bits 5:4, RO. -/
def Fld.PCIE_LINK_SPEED : Fld := ⟨5, 4⟩
/-- PCIE_LINK.WIDTH, bits 3:2, RO. -/
def Fld.PCIE_LINK_WIDTH : Fld := ⟨3, 2⟩
/-- PCIE_LINK.LINK_CHG, bits 1, W1C. -/
def Fld.PCIE_LINK_LINK_CHG : Fld := ⟨1, 1⟩
/-- PCIE_LINK.UP, bits 0, RO. -/
def Fld.PCIE_LINK_UP : Fld := ⟨0, 0⟩
/-- REQ_MSG.DATA, bits 31:0, RW. -/
def Fld.REQ_MSG_DATA : Fld := ⟨31, 0⟩
/-- RSP_MSG.DATA, bits 31:0, RO. -/
def Fld.RSP_MSG_DATA : Fld := ⟨31, 0⟩
/-- EVT_MSG.DATA, bits 31:0, RO. -/
def Fld.EVT_MSG_DATA : Fld := ⟨31, 0⟩
/-- FSI_MBX_STAT.OVERRUN, bits 3, W1C. -/
def Fld.FSI_MBX_STAT_OVERRUN : Fld := ⟨3, 3⟩
/-- FSI_MBX_STAT.EVT_FULL, bits 2, RO. -/
def Fld.FSI_MBX_STAT_EVT_FULL : Fld := ⟨2, 2⟩
/-- FSI_MBX_STAT.RSP_FULL, bits 1, RO. -/
def Fld.FSI_MBX_STAT_RSP_FULL : Fld := ⟨1, 1⟩
/-- FSI_MBX_STAT.REQ_BUSY, bits 0, RO. -/
def Fld.FSI_MBX_STAT_REQ_BUSY : Fld := ⟨0, 0⟩
/-- REQ_RING.GO, bits 0, WO. -/
def Fld.REQ_RING_GO : Fld := ⟨0, 0⟩
/-- RSP_ACK.GO, bits 0, WO. -/
def Fld.RSP_ACK_GO : Fld := ⟨0, 0⟩
/-- EVT_ACK.GO, bits 0, WO. -/
def Fld.EVT_ACK_GO : Fld := ⟨0, 0⟩
/-- FSI_MBX_COUNT.EVT, bits 31:16, RO. -/
def Fld.FSI_MBX_COUNT_EVT : Fld := ⟨31, 16⟩
/-- FSI_MBX_COUNT.REQ, bits 15:0, RO. -/
def Fld.FSI_MBX_COUNT_REQ : Fld := ⟨15, 0⟩
/-- EVT_MASK.GROUPS, bits 13:1, RW. -/
def Fld.EVT_MASK_GROUPS : Fld := ⟨13, 1⟩
/-- FSI_STATUS.RESTARTS, bits 31:16, RO. -/
def Fld.FSI_STATUS_RESTARTS : Fld := ⟨31, 16⟩
/-- FSI_STATUS.BANK, bits 1, RO. -/
def Fld.FSI_STATUS_BANK : Fld := ⟨1, 1⟩
/-- FSI_STATUS.FETAS_UP, bits 0, RO. -/
def Fld.FSI_STATUS_FETAS_UP : Fld := ⟨0, 0⟩
/-- MAST_TICK_LO.TICK, bits 31:0, RO. -/
def Fld.MAST_TICK_LO_TICK : Fld := ⟨31, 0⟩
/-- MAST_TICK_HI.TICK, bits 15:0, RO. -/
def Fld.MAST_TICK_HI_TICK : Fld := ⟨15, 0⟩
/-- MAST_MODE.XT_FAIL, bits 23, RO. -/
def Fld.MAST_MODE_XT_FAIL : Fld := ⟨23, 23⟩
/-- MAST_MODE.THROTTLE, bits 22, RO. -/
def Fld.MAST_MODE_THROTTLE : Fld := ⟨22, 22⟩
/-- MAST_MODE.DRAM_M0, bits 21, RO. -/
def Fld.MAST_MODE_DRAM_M0 : Fld := ⟨21, 21⟩
/-- MAST_MODE.BUSY, bits 20, RO. -/
def Fld.MAST_MODE_BUSY : Fld := ⟨20, 20⟩
/-- MAST_MODE.TARGET, bits 18:16, RO. -/
def Fld.MAST_MODE_TARGET : Fld := ⟨18, 16⟩
/-- MAST_MODE.MODE, bits 2:0, RO. -/
def Fld.MAST_MODE_MODE : Fld := ⟨2, 0⟩
/-- WAKE_STAT.THERM, bits 21, W1C. -/
def Fld.WAKE_STAT_THERM : Fld := ⟨21, 21⟩
/-- WAKE_STAT.WDOG, bits 20, W1C. -/
def Fld.WAKE_STAT_WDOG : Fld := ⟨20, 20⟩
/-- WAKE_STAT.EARLY, bits 19, W1C. -/
def Fld.WAKE_STAT_EARLY : Fld := ⟨19, 19⟩
/-- WAKE_STAT.PF, bits 18, W1C. -/
def Fld.WAKE_STAT_PF : Fld := ⟨18, 18⟩
/-- WAKE_STAT.UART, bits 17:12, W1C. -/
def Fld.WAKE_STAT_UART : Fld := ⟨17, 12⟩
/-- WAKE_STAT.ALARM, bits 11:8, W1C. -/
def Fld.WAKE_STAT_ALARM : Fld := ⟨11, 8⟩
/-- WAKE_STAT.CMP, bits 7:0, W1C. -/
def Fld.WAKE_STAT_CMP : Fld := ⟨7, 0⟩
/-- WAKE_EN.EN, bits 17:0, RO. -/
def Fld.WAKE_EN_EN : Fld := ⟨17, 0⟩
/-- WAKE_CMP.EN, bits 31, RO. -/
def Fld.WAKE_CMP_EN : Fld := ⟨31, 31⟩
/-- WAKE_CMP.POL, bits 30, RO. -/
def Fld.WAKE_CMP_POL : Fld := ⟨30, 30⟩
/-- WAKE_CMP.IRQ, bits 29, RO. -/
def Fld.WAKE_CMP_IRQ : Fld := ⟨29, 29⟩
/-- WAKE_CMP.OUT, bits 28, RO. -/
def Fld.WAKE_CMP_OUT : Fld := ⟨28, 28⟩
/-- WAKE_CMP.DEB, bits 27:24, RO. -/
def Fld.WAKE_CMP_DEB : Fld := ⟨27, 24⟩
/-- WAKE_CMP.HYST, bits 23:22, RO. -/
def Fld.WAKE_CMP_HYST : Fld := ⟨23, 22⟩
/-- WAKE_CMP.THRESH, bits 7:0, RO. -/
def Fld.WAKE_CMP_THRESH : Fld := ⟨7, 0⟩
/-- ALARM_LO.TICK, bits 31:0, RO. -/
def Fld.ALARM_LO_TICK : Fld := ⟨31, 0⟩
/-- ALARM_HI.EN, bits 31, RO. -/
def Fld.ALARM_HI_EN : Fld := ⟨31, 31⟩
/-- ALARM_HI.WAKE, bits 30, RO. -/
def Fld.ALARM_HI_WAKE : Fld := ⟨30, 30⟩
/-- ALARM_HI.TICK, bits 15:0, RO. -/
def Fld.ALARM_HI_TICK : Fld := ⟨15, 0⟩
/-- UART_ACT.EN, bits 5:0, RO. -/
def Fld.UART_ACT_EN : Fld := ⟨5, 0⟩
/-- PF_CFG.PFW_EN, bits 31, RO. -/
def Fld.PF_CFG_PFW_EN : Fld := ⟨31, 31⟩
/-- PF_CFG.PF, bits 30, RO. -/
def Fld.PF_CFG_PF : Fld := ⟨30, 30⟩
/-- PF_CFG.EARLY, bits 29, RO. -/
def Fld.PF_CFG_EARLY : Fld := ⟨29, 29⟩
/-- PF_CFG.EARLY_TH, bits 25:16, RO. -/
def Fld.PF_CFG_EARLY_TH : Fld := ⟨25, 16⟩
/-- PF_CFG.FILT, bits 15:13, RO. -/
def Fld.PF_CFG_FILT : Fld := ⟨15, 13⟩
/-- PF_CFG.DOUSE_TH, bits 9:0, RO. -/
def Fld.PF_CFG_DOUSE_TH : Fld := ⟨9, 0⟩
/-- PWR_SEQ.POL, bits 31, RO. -/
def Fld.PWR_SEQ_POL : Fld := ⟨31, 31⟩
/-- PWR_SEQ.MODES, bits 23:16, RO. -/
def Fld.PWR_SEQ_MODES : Fld := ⟨23, 16⟩
/-- PWR_SEQ.DELAY, bits 7:0, RO. -/
def Fld.PWR_SEQ_DELAY : Fld := ⟨7, 0⟩
/-- WDOG_CFG.KICK, bits 31, WO. -/
def Fld.WDOG_CFG_KICK : Fld := ⟨31, 31⟩
/-- WDOG_CFG.TIMEOUT, bits 7:0, RW. -/
def Fld.WDOG_CFG_TIMEOUT : Fld := ⟨7, 0⟩
/-- QUAD_REEF.DROOP, bits 31:24, RC. -/
def Fld.QUAD_REEF_DROOP : Fld := ⟨31, 24⟩
/-- QUAD_REEF.GUARD, bits 23, RO. -/
def Fld.QUAD_REEF_GUARD : Fld := ⟨23, 23⟩
/-- QUAD_REEF.LEVEL, bits 22:20, RO. -/
def Fld.QUAD_REEF_LEVEL : Fld := ⟨22, 20⟩
/-- QUAD_REEF.VOLT, bits 9:0, RO. -/
def Fld.QUAD_REEF_VOLT : Fld := ⟨9, 0⟩
/-- CFG_CRC.CRC, bits 31:0, RO. -/
def Fld.CFG_CRC_CRC : Fld := ⟨31, 0⟩
/-- CFG_GEN.GEN, bits 31:0, RO. -/
def Fld.CFG_GEN_GEN : Fld := ⟨31, 0⟩
/-- CFG_STAT.STAGED, bits 4, RO. -/
def Fld.CFG_STAT_STAGED : Fld := ⟨4, 4⟩
/-- CFG_STAT.HELD, bits 3, RO. -/
def Fld.CFG_STAT_HELD : Fld := ⟨3, 3⟩
/-- CFG_STAT.TRIM, bits 2:0, RO. -/
def Fld.CFG_STAT_TRIM : Fld := ⟨2, 0⟩
/-- CORE_CFG_CRC.GEN, bits 63:32, RO. -/
def Fld.CORE_CFG_CRC_GEN : Fld := ⟨63, 32⟩
/-- CORE_CFG_CRC.CRC, bits 31:0, RO. -/
def Fld.CORE_CFG_CRC_CRC : Fld := ⟨31, 0⟩
/-- HEALTH_STAT.FETAS, bits 13, RO. -/
def Fld.HEALTH_STAT_FETAS : Fld := ⟨13, 13⟩
/-- HEALTH_STAT.SPLIT, bits 12, RO. -/
def Fld.HEALTH_STAT_SPLIT : Fld := ⟨12, 12⟩
/-- HEALTH_STAT.PATH, bits 11, RO. -/
def Fld.HEALTH_STAT_PATH : Fld := ⟨11, 11⟩
/-- HEALTH_STAT.PLLREF, bits 10, RO. -/
def Fld.HEALTH_STAT_PLLREF : Fld := ⟨10, 10⟩
/-- HEALTH_STAT.UNIT, bits 9, RO. -/
def Fld.HEALTH_STAT_UNIT : Fld := ⟨9, 9⟩
/-- HEALTH_STAT.MRAM, bits 8, RO. -/
def Fld.HEALTH_STAT_MRAM : Fld := ⟨8, 8⟩
/-- HEALTH_STAT.DRAM, bits 7, RO. -/
def Fld.HEALTH_STAT_DRAM : Fld := ⟨7, 7⟩
/-- HEALTH_STAT.BACKSTAY, bits 6, RO. -/
def Fld.HEALTH_STAT_BACKSTAY : Fld := ⟨6, 6⟩
/-- HEALTH_STAT.CLOCK, bits 5, RO. -/
def Fld.HEALTH_STAT_CLOCK : Fld := ⟨5, 5⟩
/-- HEALTH_STAT.QUAR, bits 4, RO. -/
def Fld.HEALTH_STAT_QUAR : Fld := ⟨4, 4⟩
/-- HEALTH_STAT.PIN, bits 0, RO. -/
def Fld.HEALTH_STAT_PIN : Fld := ⟨0, 0⟩
/-- GAP_TIME.UNKNOWN, bits 63, RO. -/
def Fld.GAP_TIME_UNKNOWN : Fld := ⟨63, 63⟩
/-- GAP_TIME.GAP, bits 62:0, RO. -/
def Fld.GAP_TIME_GAP : Fld := ⟨62, 0⟩
/-- SHR_PORT_STAT.RX_HELD, bits 4, RO. -/
def Fld.SHR_PORT_STAT_RX_HELD : Fld := ⟨4, 4⟩
/-- SHR_PORT_STAT.FW, bits 3, RO. -/
def Fld.SHR_PORT_STAT_FW : Fld := ⟨3, 3⟩
/-- SHR_PORT_STAT.SEAL, bits 2, RO. -/
def Fld.SHR_PORT_STAT_SEAL : Fld := ⟨2, 2⟩
/-- SHR_PORT_STAT.LINK, bits 1, RO. -/
def Fld.SHR_PORT_STAT_LINK : Fld := ⟨1, 1⟩
/-- SHR_PORT_STAT.PRESENT, bits 0, RO. -/
def Fld.SHR_PORT_STAT_PRESENT : Fld := ⟨0, 0⟩
/-- SHR_EVCNT.COUNT, bits 31:0, RO. -/
def Fld.SHR_EVCNT_COUNT : Fld := ⟨31, 0⟩
/-- SHR_CFG.EN, bits 31, RW. -/
def Fld.SHR_CFG_EN : Fld := ⟨31, 31⟩
/-- SHR_CFG.IRQ, bits 3:0, RW. -/
def Fld.SHR_CFG_IRQ : Fld := ⟨3, 0⟩
/-- SHR_ERR_STATUS.KIND, bits 3:2, RO. -/
def Fld.SHR_ERR_STATUS_KIND : Fld := ⟨3, 2⟩
/-- SHR_ERR_STATUS.OVERFLOW, bits 1, W1C. -/
def Fld.SHR_ERR_STATUS_OVERFLOW : Fld := ⟨1, 1⟩
/-- SHR_ERR_STATUS.VALID, bits 0, W1C. -/
def Fld.SHR_ERR_STATUS_VALID : Fld := ⟨0, 0⟩
/-- SHR_ERR_COUNT.COUNT, bits 15:0, RC. -/
def Fld.SHR_ERR_COUNT_COUNT : Fld := ⟨15, 0⟩
/-- SHR_MS.DATA, bits 31:0, RW. -/
def Fld.SHR_MS_DATA : Fld := ⟨31, 0⟩
/-- SHR_SM.DATA, bits 31:0, RO. -/
def Fld.SHR_SM_DATA : Fld := ⟨31, 0⟩
/-- SEAL_CTL.CLOSE, bits 1, WO. -/
def Fld.SEAL_CTL_CLOSE : Fld := ⟨1, 1⟩
/-- SEAL_CTL.OPEN, bits 0, WO. -/
def Fld.SEAL_CTL_OPEN : Fld := ⟨0, 0⟩
/-- SEAL_STAT.FULL, bits 3, RO. -/
def Fld.SEAL_STAT_FULL : Fld := ⟨3, 3⟩
/-- SEAL_STAT.DIRTY, bits 2, RO. -/
def Fld.SEAL_STAT_DIRTY : Fld := ⟨2, 2⟩
/-- SEAL_STAT.SESSION, bits 1, RO. -/
def Fld.SEAL_STAT_SESSION : Fld := ⟨1, 1⟩
/-- SEAL_STAT.SEAL, bits 0, RO. -/
def Fld.SEAL_STAT_SEAL : Fld := ⟨0, 0⟩
/-- ADC_CTL.RATE, bits 2:0, RW. -/
def Fld.ADC_CTL_RATE : Fld := ⟨2, 0⟩
/-- ADC_CFG.EN, bits 31, RW. -/
def Fld.ADC_CFG_EN : Fld := ⟨31, 31⟩
/-- ADC_CFG.OVR, bits 30, W1C. -/
def Fld.ADC_CFG_OVR : Fld := ⟨30, 30⟩
/-- ADC_CFG.GAIN, bits 29:27, RW. -/
def Fld.ADC_CFG_GAIN : Fld := ⟨29, 27⟩
/-- ADC_CFG.DELAY, bits 21:16, RW. -/
def Fld.ADC_CFG_DELAY : Fld := ⟨21, 16⟩
/-- ADC_CFG.LEVEL, bits 11:0, RO. -/
def Fld.ADC_CFG_LEVEL : Fld := ⟨11, 0⟩
/-- ADC_DATA.SAMPLE, bits 31:0, RC. -/
def Fld.ADC_DATA_SAMPLE : Fld := ⟨31, 0⟩
/-- PULSE_CFG.EN, bits 31, RW. -/
def Fld.PULSE_CFG_EN : Fld := ⟨31, 31⟩
/-- PULSE_CFG.POL, bits 30, RW. -/
def Fld.PULSE_CFG_POL : Fld := ⟨30, 30⟩
/-- PULSE_CFG.PAIR, bits 29, RO. -/
def Fld.PULSE_CFG_PAIR : Fld := ⟨29, 29⟩
/-- PULSE_CFG.FILT, bits 15:0, RW. -/
def Fld.PULSE_CFG_FILT : Fld := ⟨15, 0⟩
/-- PULSE_SNAP_CNT.VALUE, bits 63:0, RO. -/
def Fld.PULSE_SNAP_CNT_VALUE : Fld := ⟨63, 0⟩
/-- PULSE_SNAP_RISE.VALUE, bits 63:0, RO. -/
def Fld.PULSE_SNAP_RISE_VALUE : Fld := ⟨63, 0⟩
/-- PULSE_SNAP_FALL.VALUE, bits 63:0, RO. -/
def Fld.PULSE_SNAP_FALL_VALUE : Fld := ⟨63, 0⟩
/-- PULSE_SNAP.GO, bits 7:0, WO. -/
def Fld.PULSE_SNAP_GO : Fld := ⟨7, 0⟩
/-- DTIME.TIME, bits 63:0, RO. -/
def Fld.DTIME_TIME : Fld := ⟨63, 0⟩
/-- EVCNT.COUNT, bits 47:0, RW. -/
def Fld.EVCNT_COUNT : Fld := ⟨47, 0⟩
/-- EVSEL.IRQ, bits 15, RW. -/
def Fld.EVSEL_IRQ : Fld := ⟨15, 15⟩
/-- EVSEL.EDGE, bits 14, RW. -/
def Fld.EVSEL_EDGE : Fld := ⟨14, 14⟩
/-- EVSEL.CNT_H, bits 13, RW. -/
def Fld.EVSEL_CNT_H : Fld := ⟨13, 13⟩
/-- EVSEL.CNT_K, bits 12, RW. -/
def Fld.EVSEL_CNT_K : Fld := ⟨12, 12⟩
/-- EVSEL.CNT_U, bits 11, RW. -/
def Fld.EVSEL_CNT_U : Fld := ⟨11, 11⟩
/-- EVSEL.EVENT, bits 6:0, RW. -/
def Fld.EVSEL_EVENT : Fld := ⟨6, 0⟩
/-- EV_CTL.OVF_TGT, bits 9, RW. -/
def Fld.EV_CTL_OVF_TGT : Fld := ⟨9, 9⟩
/-- EV_CTL.UEN, bits 7:0, RW. -/
def Fld.EV_CTL_UEN : Fld := ⟨7, 0⟩
/-- EV_OVF.OVF, bits 7:0, W1C. -/
def Fld.EV_OVF_OVF : Fld := ⟨7, 0⟩
/-- CTIM_CMP.TIME, bits 63:0, RW. -/
def Fld.CTIM_CMP_TIME : Fld := ⟨63, 0⟩
/-- CTIM_CTL.TGT_1, bits 5, RW. -/
def Fld.CTIM_CTL_TGT_1 : Fld := ⟨5, 5⟩
/-- CTIM_CTL.TGT_0, bits 4, RW. -/
def Fld.CTIM_CTL_TGT_0 : Fld := ⟨4, 4⟩
/-- CTIM_CTL.PEND_1, bits 3, W1C. -/
def Fld.CTIM_CTL_PEND_1 : Fld := ⟨3, 3⟩
/-- CTIM_CTL.PEND_0, bits 2, W1C. -/
def Fld.CTIM_CTL_PEND_0 : Fld := ⟨2, 2⟩
/-- CTIM_CTL.EN_1, bits 1, RW. -/
def Fld.CTIM_CTL_EN_1 : Fld := ⟨1, 1⟩
/-- CTIM_CTL.EN_0, bits 0, RW. -/
def Fld.CTIM_CTL_EN_0 : Fld := ⟨0, 0⟩
/-- TMR_GO.STOP, bits 31:16, WO. -/
def Fld.TMR_GO_STOP : Fld := ⟨31, 16⟩
/-- TMR_GO.START, bits 15:0, WO. -/
def Fld.TMR_GO_START : Fld := ⟨15, 0⟩
/-- TMR_CFG.PRESCALE, bits 31:16, RW. -/
def Fld.TMR_CFG_PRESCALE : Fld := ⟨31, 16⟩
/-- TMR_CFG.SHAPE, bits 8, RW. -/
def Fld.TMR_CFG_SHAPE : Fld := ⟨8, 8⟩
/-- TMR_CFG.CAPEN, bits 7, RW. -/
def Fld.TMR_CFG_CAPEN : Fld := ⟨7, 7⟩
/-- TMR_CFG.CAPSEL, bits 5:0, RW. -/
def Fld.TMR_CFG_CAPSEL : Fld := ⟨5, 0⟩
/-- TMR_CMD.CAPTURE, bits 3, WO. -/
def Fld.TMR_CMD_CAPTURE : Fld := ⟨3, 3⟩
/-- TMR_CMD.ZERO, bits 2, WO. -/
def Fld.TMR_CMD_ZERO : Fld := ⟨2, 2⟩
/-- TMR_CMD.STOP, bits 1, WO. -/
def Fld.TMR_CMD_STOP : Fld := ⟨1, 1⟩
/-- TMR_CMD.START, bits 0, WO. -/
def Fld.TMR_CMD_START : Fld := ⟨0, 0⟩
/-- TMR_STAT.RUN, bits 10, RO. -/
def Fld.TMR_STAT_RUN : Fld := ⟨10, 10⟩
/-- TMR_STAT.DOWN, bits 9, RO. -/
def Fld.TMR_STAT_DOWN : Fld := ⟨9, 9⟩
/-- TMR_STAT.PAIR, bits 8, RO. -/
def Fld.TMR_STAT_PAIR : Fld := ⟨8, 8⟩
/-- TMR_STAT.TOP, bits 7, W1C. -/
def Fld.TMR_STAT_TOP : Fld := ⟨7, 7⟩
/-- TMR_STAT.WRAP, bits 6, W1C. -/
def Fld.TMR_STAT_WRAP : Fld := ⟨6, 6⟩
/-- TMR_STAT.FALL, bits 5, W1C. -/
def Fld.TMR_STAT_FALL : Fld := ⟨5, 5⟩
/-- TMR_STAT.RISE, bits 4, W1C. -/
def Fld.TMR_STAT_RISE : Fld := ⟨4, 4⟩
/-- TMR_STAT.CMP, bits 3:0, W1C. -/
def Fld.TMR_STAT_CMP : Fld := ⟨3, 0⟩
/-- TMR_CTL.DIR, bits 15:8, RW. -/
def Fld.TMR_CTL_DIR : Fld := ⟨15, 8⟩
/-- TMR_CTL.IEN, bits 3:0, RW. -/
def Fld.TMR_CTL_IEN : Fld := ⟨3, 0⟩
/-- TMR_RLD_LO.VALUE, bits 31:0, RW. -/
def Fld.TMR_RLD_LO_VALUE : Fld := ⟨31, 0⟩
/-- TMR_RLD_HI.VALUE, bits 31:0, RW. -/
def Fld.TMR_RLD_HI_VALUE : Fld := ⟨31, 0⟩
/-- TMR_CMP_LO.VALUE, bits 31:0, RW. -/
def Fld.TMR_CMP_LO_VALUE : Fld := ⟨31, 0⟩
/-- TMR_CMP_HI.VALUE, bits 31:0, RW. -/
def Fld.TMR_CMP_HI_VALUE : Fld := ⟨31, 0⟩
/-- TMR_LAT.VALUE, bits 31:0, RO. -/
def Fld.TMR_LAT_VALUE : Fld := ⟨31, 0⟩
/-- TMR_LAT_INFO.SEQ, bits 31:16, RO. -/
def Fld.TMR_LAT_INFO_SEQ : Fld := ⟨31, 16⟩
/-- TMR_LAT_INFO.PAIR, bits 2, RO. -/
def Fld.TMR_LAT_INFO_PAIR : Fld := ⟨2, 2⟩
/-- TMR_LAT_INFO.DOWN, bits 1, RO. -/
def Fld.TMR_LAT_INFO_DOWN : Fld := ⟨1, 1⟩
/-- TMR_LAT_INFO.RUN, bits 0, RO. -/
def Fld.TMR_LAT_INFO_RUN : Fld := ⟨0, 0⟩
/-- TT_IRQ.HIT, bits 31:0, W1C. -/
def Fld.TT_IRQ_HIT : Fld := ⟨31, 0⟩
/-- TT_CFG.EN, bits 31, RW. -/
def Fld.TT_CFG_EN : Fld := ⟨31, 31⟩
/-- TT_CFG.VFILT, bits 30, RW. -/
def Fld.TT_CFG_VFILT : Fld := ⟨30, 30⟩
/-- TT_CFG.DIR, bits 29:28, RW. -/
def Fld.TT_CFG_DIR : Fld := ⟨29, 28⟩
/-- TT_CFG.VMID, bits 20:8, RW. -/
def Fld.TT_CFG_VMID : Fld := ⟨20, 8⟩
/-- TT_CFG.PORT, bits 7:0, RW. -/
def Fld.TT_CFG_PORT : Fld := ⟨7, 0⟩
/-- TT_WIN.US, bits 21:0, RW. -/
def Fld.TT_WIN_US : Fld := ⟨21, 0⟩
/-- TT_SEQ.SEQ, bits 31:0, RO. -/
def Fld.TT_SEQ_SEQ : Fld := ⟨31, 0⟩
/-- TT_CMD.CLR, bits 0, WO. -/
def Fld.TT_CMD_CLR : Fld := ⟨0, 0⟩
/-- TT_LAST.BYTES, bits 39:0, RO. -/
def Fld.TT_LAST_BYTES : Fld := ⟨39, 0⟩
/-- TT_MIN.BYTES, bits 39:0, RO. -/
def Fld.TT_MIN_BYTES : Fld := ⟨39, 0⟩
/-- TT_MAX.BYTES, bits 39:0, RO. -/
def Fld.TT_MAX_BYTES : Fld := ⟨39, 0⟩
/-- TT_THR.BYTES, bits 39:0, RW. -/
def Fld.TT_THR_BYTES : Fld := ⟨39, 0⟩
/-- TRC_CTL.SYNCP, bits 15:12, RW. -/
def Fld.TRC_CTL_SYNCP : Fld := ⟨15, 12⟩
/-- TRC_CTL.TSMODE, bits 11:10, RW. -/
def Fld.TRC_CTL_TSMODE : Fld := ⟨11, 10⟩
/-- TRC_CTL.DVAL, bits 9, RW. -/
def Fld.TRC_CTL_DVAL : Fld := ⟨9, 9⟩
/-- TRC_CTL.DADDR, bits 8:7, RW. -/
def Fld.TRC_CTL_DADDR : Fld := ⟨8, 7⟩
/-- TRC_CTL.EN, bits 0, RW. -/
def Fld.TRC_CTL_EN : Fld := ⟨0, 0⟩
/-- TRC_RING.VALID, bits 4, RW. -/
def Fld.TRC_RING_VALID : Fld := ⟨4, 4⟩
/-- TRC_RING.RING, bits 3:0, RW. -/
def Fld.TRC_RING_RING : Fld := ⟨3, 0⟩
/-- TRC_STAT.EXCL, bits 3, RO. -/
def Fld.TRC_STAT_EXCL : Fld := ⟨3, 3⟩
/-- TRC_STAT.STALL, bits 2, RO. -/
def Fld.TRC_STAT_STALL : Fld := ⟨2, 2⟩
/-- TRC_STAT.LOSS, bits 1, W1C. -/
def Fld.TRC_STAT_LOSS : Fld := ⟨1, 1⟩
/-- TRC_STAT.BUSY, bits 0, RO. -/
def Fld.TRC_STAT_BUSY : Fld := ⟨0, 0⟩
/-- TSEQ_STATE.STATE, bits 1:0, RW. -/
def Fld.TSEQ_STATE_STATE : Fld := ⟨1, 0⟩
/-- TSEQ_ACT.IRQ, bits 8, RW. -/
def Fld.TSEQ_ACT_IRQ : Fld := ⟨8, 8⟩
/-- TSEQ_ACT.TOUT, bits 7:4, RW. -/
def Fld.TSEQ_ACT_TOUT : Fld := ⟨7, 4⟩
/-- TSEQ_ACT.MARK, bits 3, RW. -/
def Fld.TSEQ_ACT_MARK : Fld := ⟨3, 3⟩
/-- TSEQ_ACT.DATA, bits 2, RW. -/
def Fld.TSEQ_ACT_DATA : Fld := ⟨2, 2⟩
/-- TSEQ_ACT.INSTR, bits 1, RW. -/
def Fld.TSEQ_ACT_INSTR : Fld := ⟨1, 1⟩
/-- TSEQ_TRANS.EN, bits 15, RW. -/
def Fld.TSEQ_TRANS_EN : Fld := ⟨15, 15⟩
/-- TSEQ_TRANS.NEXT, bits 11:10, RW. -/
def Fld.TSEQ_TRANS_NEXT : Fld := ⟨11, 10⟩
/-- TSEQ_TRANS.ALL, bits 9, RW. -/
def Fld.TSEQ_TRANS_ALL : Fld := ⟨9, 9⟩
/-- TSEQ_TRANS.SEL, bits 7:0, RW. -/
def Fld.TSEQ_TRANS_SEL : Fld := ⟨7, 0⟩
/-- TCMP_CFG.ARG, bits 15:8, RW. -/
def Fld.TCMP_CFG_ARG : Fld := ⟨15, 8⟩
/-- TCMP_CFG.KIND, bits 2:0, RW. -/
def Fld.TCMP_CFG_KIND : Fld := ⟨2, 0⟩
/-- TCMP_VAL.VALUE, bits 63:0, RW. -/
def Fld.TCMP_VAL_VALUE : Fld := ⟨63, 0⟩
/-- TCMP_MASK.VALUE, bits 63:0, RW. -/
def Fld.TCMP_MASK_VALUE : Fld := ⟨63, 0⟩
/-- TRC_AUTH.ALLV, bits 16, RW. -/
def Fld.TRC_AUTH_ALLV : Fld := ⟨16, 16⟩
/-- TRC_AUTH.SEALED, bits 15, RW. -/
def Fld.TRC_AUTH_SEALED : Fld := ⟨15, 15⟩
/-- TRC_AUTH.H, bits 14, RW. -/
def Fld.TRC_AUTH_H : Fld := ⟨14, 14⟩
/-- TRC_AUTH.K, bits 13, RW. -/
def Fld.TRC_AUTH_K : Fld := ⟨13, 13⟩
/-- TRC_AUTH.VMID, bits 12:0, RW. -/
def Fld.TRC_AUTH_VMID : Fld := ⟨12, 0⟩
/-- DBG_CTL.RESUME, bits 2, WO. -/
def Fld.DBG_CTL_RESUME : Fld := ⟨2, 2⟩
/-- DBG_CTL.STEP, bits 1, WO. -/
def Fld.DBG_CTL_STEP : Fld := ⟨1, 1⟩
/-- DBG_CTL.HALT, bits 0, WO. -/
def Fld.DBG_CTL_HALT : Fld := ⟨0, 0⟩
/-- DBG_STAT.PENDING, bits 1, RO. -/
def Fld.DBG_STAT_PENDING : Fld := ⟨1, 1⟩
/-- DBG_STAT.HALTED, bits 0, RO. -/
def Fld.DBG_STAT_HALTED : Fld := ⟨0, 0⟩
/-- HY_CTL.TOUT, bits 3:0, RW. -/
def Fld.HY_CTL_TOUT : Fld := ⟨3, 0⟩
/-- HY_RING_BASE.PA, bits 45:12, RW. -/
def Fld.HY_RING_BASE_PA : Fld := ⟨45, 12⟩
/-- HY_RING_CTL.EN, bits 31, RW. -/
def Fld.HY_RING_CTL_EN : Fld := ⟨31, 31⟩
/-- HY_RING_CTL.LOSSLESS, bits 30, RW. -/
def Fld.HY_RING_CTL_LOSSLESS : Fld := ⟨30, 30⟩
/-- HY_RING_CTL.THRESH, bits 23:8, RW. -/
def Fld.HY_RING_CTL_THRESH : Fld := ⟨23, 8⟩
/-- HY_RING_CTL.SIZE, bits 4:0, RW. -/
def Fld.HY_RING_CTL_SIZE : Fld := ⟨4, 0⟩
/-- HY_RING_WP.WRAP, bits 30, RO. -/
def Fld.HY_RING_WP_WRAP : Fld := ⟨30, 30⟩
/-- HY_RING_WP.OFFSET, bits 29:0, RO. -/
def Fld.HY_RING_WP_OFFSET : Fld := ⟨29, 0⟩
/-- HY_RING_RP.WRAP, bits 30, RW. -/
def Fld.HY_RING_RP_WRAP : Fld := ⟨30, 30⟩
/-- HY_RING_RP.OFFSET, bits 29:0, RW. -/
def Fld.HY_RING_RP_OFFSET : Fld := ⟨29, 0⟩
/-- HY_RING_DROP.FRAMES, bits 31:0, RC. -/
def Fld.HY_RING_DROP_FRAMES : Fld := ⟨31, 0⟩
/-- BOOT_STAT.LIFECYCLE, bits 17:16, RO. -/
def Fld.BOOT_STAT_LIFECYCLE : Fld := ⟨17, 16⟩
/-- BOOT_STAT.TRIAL, bits 15, RO. -/
def Fld.BOOT_STAT_TRIAL : Fld := ⟨15, 15⟩
/-- BOOT_STAT.FALLBACK_FW, bits 14, RO. -/
def Fld.BOOT_STAT_FALLBACK_FW : Fld := ⟨14, 14⟩
/-- BOOT_STAT.FALLBACK_HOST, bits 13, RO. -/
def Fld.BOOT_STAT_FALLBACK_HOST : Fld := ⟨13, 13⟩
/-- BOOT_STAT.MANIFEST, bits 12, RO. -/
def Fld.BOOT_STAT_MANIFEST : Fld := ⟨12, 12⟩
/-- BOOT_STAT.SOURCE, bits 10:8, RO. -/
def Fld.BOOT_STAT_SOURCE : Fld := ⟨10, 8⟩
/-- BOOT_STAT.SEL, bits 2:0, RO. -/
def Fld.BOOT_STAT_SEL : Fld := ⟨2, 0⟩
/-- PAD_HOLD.IO33, bits 1, W1C. -/
def Fld.PAD_HOLD_IO33 : Fld := ⟨1, 1⟩
/-- PAD_HOLD.IO18, bits 0, W1C. -/
def Fld.PAD_HOLD_IO18 : Fld := ⟨0, 0⟩

/-- The system registers, reached by MFS and MTS (R35). -/
def regsSys : List Reg :=
  [.CORE_ID, .ISA_FEAT, .SP_U, .SP_K, .CORE_PHYS, .FPCTL, .FPFLAGS, .FPCAUSE, .LONG_INFO, .RES_CTL, .RES_STAT,
   .PRED_CTL, .PIPE_CTL, .STATUS, .TRAP_CAUSE_K, .TRAP_CAUSE_H, .TRAP_ADDR_K, .TRAP_ADDR_H, .TRAP_INFO_K,
   .TRAP_INFO_H, .TRAP_LONGPC_K, .TRAP_LONGPC_H, .VECBASE_K, .VECBASE_H, .DELEG, .TRAP_GPA, .SEG_ROOT, .PT_ROOT,
   .ASID, .STG1_CTL, .XLAT_INFO_K, .XLAT_INFO_H, .VMID, .PONLY_CTL, .HSTG_ROOT, .HSTG_CTL, .H_SEG_ROOT, .H_PT_ROOT,
   .H_ASID, .WAY_CLASS, .L1_SEED, .L2_SEED, .CACHE_STAT, .IRQ_CTL, .IRQ_SRC, .VIRQ_SRC, .IRQ_EOI, .VIRQ_EOI,
   .IRQ_ACTPRI, .V_THRESH, .V_ACTPRI, .VCTL, .CORE_CFG_CRC, .DTIME, .EVCNT, .EVSEL, .EV_CTL, .EV_OVF, .CTIM_CMP,
   .CTIM_CTL, .TRC_CTL, .TRC_RING, .TRC_STAT, .TSEQ_STATE, .TSEQ_ACT, .TSEQ_TRANS, .TCMP_CFG, .TCMP_VAL,
   .TCMP_MASK, .TRC_AUTH]
/-- The registers of the Shroud's own map (chapter 16). -/
def regsShroud : List Reg :=
  [.SEAL_CTL, .SEAL_STAT, .ADC_CTL, .ADC_CFG, .ADC_DATA, .PULSE_CFG, .PULSE_SNAP_CNT, .PULSE_SNAP_RISE,
   .PULSE_SNAP_FALL, .PULSE_SNAP]
/-- The registers of a slice page (chapter 11). -/
def regsSlice : List Reg :=
  [.IN_MSG, .OUT_MSG, .MBX_STAT, .MBX_OUT_RING, .MBX_OUT_ACK, .MBX_IN_RING, .MBX_IN_ACK, .MBX_COUNT, .SLICE_BIND,
   .SLICE_GRANT_Q, .SLICE_GRANT_V, .SLICE_GRANT_BW, .SLICE_GEN, .SLICE_FAR, .WIN_A, .WIN_B, .SLICE_ERR_STATUS,
   .SLICE_ERR_COUNT, .SE_STATUS, .SE_ERR_STATUS, .SE_ERR_COUNT, .Q_SQ_BASE, .Q_CQ_BASE, .Q_CFG, .Q_SQ_DB, .Q_SQ,
   .Q_CQ]
/-- The registers of the unit at base 0x0000_0000 (R32). -/
def regsUnit00 : List Reg :=
  [.MAST_TICK_LO, .MAST_TICK_HI, .MAST_MODE, .WAKE_STAT, .WAKE_EN, .WAKE_CMP, .ALARM_LO, .ALARM_HI, .UART_ACT,
   .PF_CFG, .PWR_SEQ, .WDOG_CFG, .QUAD_REEF, .CFG_CRC, .CFG_GEN, .CFG_STAT, .HEALTH_STAT, .GAP_TIME, .PAD_HOLD]
/-- The registers of the unit at base 0x0100_0000 (R32). -/
def regsUnit01 : List Reg :=
  [.REQ_MSG, .RSP_MSG, .EVT_MSG, .FSI_MBX_STAT, .REQ_RING, .RSP_ACK, .EVT_ACK, .FSI_MBX_COUNT, .EVT_MASK,
   .FSI_STATUS, .BOOT_STAT]
/-- The registers of the unit at base 0x0200_0000 (R32). -/
def regsUnit02 : List Reg :=
  [.DIST_CTL, .LCORE_MAP, .DB_NEXT, .SRC_CFG, .SRC_STAT, .SRC_SET, .SRC_CLR, .VM_CFG]
/-- The registers of the unit at base 0x0300_0000 (R32). -/
def regsUnit03 : List Reg :=
  [.TMR_GO, .TMR_CFG, .TMR_CMD, .TMR_STAT, .TMR_CTL, .TMR_RLD_LO, .TMR_RLD_HI, .TMR_CMP_LO, .TMR_CMP_HI, .TMR_LAT,
   .TMR_LAT_INFO]
/-- The registers of the unit at base 0x0400_0000 (R32). -/
def regsUnit04 : List Reg :=
  [.MG_STATUS, .MG_ERR_STATUS, .MG_ERR_ADDR_LO, .MG_ERR_ADDR_HI, .MG_ERR_COUNT, .MG_SPARE, .MG_SCRUB, .DKEY_MAP]
/-- The registers of the unit at base 0x0500_0000 (R32). -/
def regsUnit05 : List Reg :=
  [.MR_STATUS, .MR_ERR_STATUS, .MR_ERR_ADDR_LO, .MR_ERR_ADDR_HI, .MR_ERR_COUNT, .MR_DIE, .MKEY_MAP]
/-- The registers of the unit at base 0x0600_0000 (R32). -/
def regsUnit06 : List Reg :=
  [.ADDR_ERR_STATUS, .ADDR_ERR_ADDR_LO, .ADDR_ERR_ADDR_HI, .ADDR_ERR_PID, .ADDR_ERR_COUNT, .CACHE_READY,
   .L3_WG_MASK, .L3_WG_MAP, .L3_SEED, .L3_WG_EFF, .L3_RETIRED, .L3_ERR_STATUS, .L3_ERR_COUNT, .PDQ]
/-- The registers of the unit at base 0x0700_0000 (R32). -/
def regsUnit07 : List Reg :=
  [.PORT_CFG, .PORT_STATUS, .T1L_DIAG, .QBV_CTL, .QBV_CYCLE, .QBV_BASE_LO, .QBV_BASE_HI, .CNT_RX, .CNT_TX,
   .CNT_DROP_LEN, .CNT_DROP_FCS, .CNT_DROP_OFF, .CNT_DROP_VLAN, .CNT_DROP_FULL, .CNT_LEARN_FULL, .QBV_GATES,
   .QBV_IVL, .SW_CTL, .FDB_AGE, .HSR_CFG, .PTP_RATE, .PTP_OFS, .PTP_CTL, .PTP_COMMIT_LO, .PTP_COMMIT_HI]
/-- The registers of the unit at base 0x0800_0000 (R32). -/
def regsUnit08 : List Reg :=
  [.PCIE_CTL, .PCIE_LINK]
/-- The registers of the unit at base 0x0900_0000 (R32). -/
def regsUnit09 : List Reg :=
  [.UART_CFG, .UART_BAUD, .UART_STAT, .UART_RXD, .UART_TXD, .CAN_CTL, .CAN_NBT, .CAN_DBT, .CAN_TDC, .CAN_STAT,
   .CAN_IRQ, .CAN_IEN, .CAN_MBIRQ, .CAN_MBIEN, .CAN_FLT_ID, .CAN_FLT_MASK, .CAN_MB_ID, .CAN_MB_CTRL, .CAN_MB_DATA,
   .CAN_MB_TS, .SPI_CFG,
   .SPI_XFER, .SPI_TXD, .SPI_RXD, .SPI_STAT, .I2C_CFG, .I2C_CMD, .I2C_TXD, .I2C_RXD, .I2C_STAT, .GPIO_IN,
   .GPIO_OUT, .GPIO_SET, .GPIO_CLR, .GPIO_OE, .GPIO_OD, .GPIO_ISTAT, .GPIO_ICFG, .QSPI_CFG, .QSPI_STAT]
/-- The registers of the unit at base 0x0A00_0000 (R32). -/
def regsUnit0A : List Reg :=
  [.HY_CTL, .HY_RING_BASE, .HY_RING_CTL, .HY_RING_WP, .HY_RING_RP, .HY_RING_DROP]
/-- The registers of the unit at base 0x0B00_0000 (R32). -/
def regsUnit0B : List Reg :=
  [.TT_IRQ, .TT_CFG, .TT_WIN, .TT_SEQ, .TT_CMD, .TT_LAST, .TT_MIN, .TT_MAX, .TT_THR]
/-- The registers of the unit at base 0x0C00_0000 (R32). -/
def regsUnit0C : List Reg :=
  [.SHR_PORT_STAT, .SHR_EVCNT, .SHR_CFG, .SHR_ERR_STATUS, .SHR_ERR_COUNT, .SHR_MS, .SHR_SM]
/-- The registers of the unit at base 0x0D00_0000 (R32). -/
def regsUnit0D : List Reg :=
  [.CLEAT_TAKE, .CLEAT_GIVE, .CLEAT_STATE, .CLEAT_FORCE, .CLEAT_ERR_STATUS, .CLEAT_ERR_PID]
/-- The registers of the unit at base 0x1000_0000 (R32). -/
def regsUnit10 : List Reg :=
  [.DBG_CTL, .DBG_STAT]

end Sys2Proof.Machine
end

