-- ==== Sys2Proof/Machine/State.lean ====
section
/-! DEFINITION. The state of the complex as plain data, and the state after reset. -/

namespace Sys2Proof.Machine

/-- The operating modes (R373). -/
inductive Mode where
  | m0 | m1 | m2 | m3 | m4 | m5 | m6 | m7
  deriving DecidableEq, Repr

/-- Memory contents: cells in strictly rising address order, none holding the byte of an unlisted address. -/
abbrev Memory := List Host.Cell

/-- An address-decode error report on its way to the log (R36). -/
structure ErrReport where
  stop : Nat
  write : Bool
  kind : Nat
  pa : Nat
  pid : BitVec 29
  deriving DecidableEq, Repr

/-- Why the model stops with a fault: never. The spec gives every access and every command a behaviour (R30), so no
meaning faults and the type has no constructor. -/
inductive Fault where
  deriving DecidableEq, Repr

/-- Why the model has no meaning for a command. -/
inductive Refusal where
  /-- raised by Dispatch for a command whose meaning is not written; safe -/
  | notModelled (mnemonic : String)
  deriving DecidableEq, Repr

/-- The ordering codes (R3): Shroud present (s) or fused off (n), and the DRAM capacity in GiB. -/
inductive Part where
  | s64 | s32 | n64 | n32
  deriving DecidableEq, Repr

/-- A write the MRAM controller accepted and has not yet made durable (R252): the sector and what it held before. -/
structure MramWrite where
  id : Nat := 0
  sec : Nat
  old : BitVec 512
  oldPoison : Bool := false
  deriving DecidableEq, Repr

/-- A durability probe (R252): its sender, a core by number or 64 for Fetas; whether the controller has received it;
and the accepted writes it waits for. -/
structure Probe where
  who : Nat
  received : Bool := false
  waits : List Nat := []
  answered : Bool := false
  deriving DecidableEq, Repr

/-- The complex. -/
structure State where
  /-- the commands that wait, first in, first out -/
  pending : List Instr := []
  /-- the model's counter of free values (log entry 5) -/
  free : Nat := 0
  /-- the ordering code, a fact of the part (log entry 6) -/
  part : Part := .s64
  mode : Mode := .m0
  /-- device time in nanoseconds (R459) -/
  time : Nat := 0
  /-- power domains that are on (R37): PD 0 always is, and PD 1 has its own supply -/
  pdOn : List Nat := [0]
  /-- power domains in transition (R39) -/
  pdMoving : List Nat := []
  mem : Memory := []
  /-- poisoned sectors in memory, by sector number, rising (R240) -/
  poisoned : List Nat := []
  /-- memory-mapped registers by address; an unlisted register has its reset value (R11, R16) -/
  regs : SMap Word := []
  cores : SMap Core := []
  quads : SMap Quad := []
  homes : SMap Home := []
  /-- packets of the protocol in flight (R184), in order of injection -/
  net : List Msg := []
  dist : Dist := {}
  cleats : Cleats := {}
  dram : Dram := {}
  slices : SliceEng := {}
  sw : Switch := {}
  pcie : Pcie := {}
  low : LowSpeed := {}
  fsi : Fsi := {}
  shr : Shroud := {}
  fe : Fetas := {}
  timers : SMap Tmr := []
  /-- telltales whose window has begun (R476) -/
  telltales : List Nat := []
  jtag : Jtag := {}
  crow : Crow := {}
  /-- the Mast count of ticks (R387) -/
  tick : Nat := 0
  /-- edges that units have raised and the distributor has not seen (R260, R262) -/
  pulses : List Nat := []
  errReports : List ErrReport := []
  /-- what the latest read or answer command returned -/
  answer : Word := 0
  /-- reports Fetas has not acted on, and its health telemetry counts by kind -/
  reports : List Report := []
  telemetry : SMap Nat := []
  /-- invalidations not yet completed: issuing core, core, what (R76) -/
  remoteInv : List (Nat × Nat × Inval) := []
  /-- MRAM write queue of the controller, oldest first (R252) -/
  mramQ : List MramWrite := []
  /-- the number the next accepted MRAM write gets, and the probes not yet consumed by their senders -/
  mramNext : Nat := 0
  probes : List Probe := []
  deriving DecidableEq, Repr

/-- The complex after power-up of the Mast domain. -/
def State.reset : State := {}

end Sys2Proof.Machine
end

