-- ==== Sys2Proof/Machine/Ops.lean ====
section
/-! DEFINITION. The named operations over registers, memory, cores and free values that every meaning uses. -/

namespace Sys2Proof.Machine

/-! ### Bit fields (R7) -/

/-- The value of a field. -/
def bits (w : Word) (f : Fld) : Nat := (w.toNat >>> f.lo) % 2 ^ (f.hi + 1 - f.lo)

/-- The field set to a value, taken modulo the field's range. -/
def putBits (w : Word) (f : Fld) (v : Nat) : Word :=
  let m : Word := BitVec.ofNat 64 ((2 ^ (f.hi + 1 - f.lo) - 1) <<< f.lo)
  (w &&& ~~~m) ||| (BitVec.ofNat 64 (v <<< f.lo) &&& m)

/-- A single-bit field as a truth value. -/
def flag (w : Word) (f : Fld) : Bool := w.getLsbD f.lo

/-- A truth value as a bit. -/
def b2n (b : Bool) : Nat := if b then 1 else 0

/-- A counter that saturates. -/
def satAdd (cap a b : Nat) : Nat := if cap ≤ a + b then cap else a + b

/-- Sign extension of the low n bits of a word. -/
def sext (n : Nat) (w : Word) : Word := (w.setWidth n).signExtend 64

/-- Zero extension of the low n bits of a word. -/
def zext (n : Nat) (w : Word) : Word := (w.setWidth n).setWidth 64

/-! ### Cores, quads and homes -/

def State.core (s : State) (c : Fin 64) : Core := s.cores.get {} c.val
def State.setCore (s : State) (c : Fin 64) (k : Core) : State := { s with cores := s.cores.set {} c.val k }
def State.updCore (s : State) (c : Fin 64) (f : Core → Core) : State := s.setCore c (f (s.core c))
def State.quad (s : State) (q : Nat) : Quad := s.quads.get {} q
def State.setQuad (s : State) (q : Nat) (k : Quad) : State := { s with quads := s.quads.set {} q k }
def State.home (s : State) (h : Nat) : Home := s.homes.get {} h
def State.setHome (s : State) (h : Nat) (k : Home) : State := { s with homes := s.homes.set {} h k }

/-- The quad of a core (R20). -/
def quadOf (c : Fin 64) : Nat := c.val / 4

/-- The mesh stop of a quad (R20). -/
def quadStop (q : Nat) : Nat := 1 + q % 4 + (if q < 4 then 0 else if q < 8 then 6 else if q < 12 then 18 else 24)

/-- The mesh stop of a home slice (R20). -/
def homeStop (h : Nat) : Nat := [13, 14, 6, 18, 15, 16, 11, 23].getD h 13

/-! ### Registers (R11 to R16) -/

/-- Address, or system-register number, of an instance of a register (R13). -/
def Reg.at (r : Reg) (idx : List Nat) : Nat :=
  r.spec.base + ((r.spec.dims.zip idx).map fun p => p.1.stride * p.2).sum

/-- The stored value of a memory-mapped register. -/
def State.reg (s : State) (r : Reg) (idx : List Nat := []) : Word :=
  (SMap.find (r.at idx) s.regs).getD r.spec.reset

/-- Store a memory-mapped register. -/
def State.setReg (s : State) (r : Reg) (idx : List Nat) (v : Word) : State :=
  { s with regs := s.regs.set r.spec.reset (r.at idx) v }

/-- A field of a memory-mapped register. -/
def State.fld (s : State) (r : Reg) (idx : List Nat) (f : Fld) : Nat := bits (s.reg r idx) f

/-- A hardware update of a field of a memory-mapped register. -/
def State.setFld (s : State) (r : Reg) (idx : List Nat) (f : Fld) (v : Nat) : State :=
  s.setReg r idx (putBits (s.reg r idx) f v)

/-- A counter field that saturates at its largest value (the RC counters of the manual). -/
def State.countFld (s : State) (r : Reg) (idx : List Nat) (f : Fld) (n : Nat := 1) : State :=
  s.setFld r idx f (satAdd (2 ^ (f.hi + 1 - f.lo) - 1) (s.fld r idx f) n)

/-- The stored value of a system register of a core. -/
def Core.reg (k : Core) (r : Reg) (idx : List Nat := []) : Word := (SMap.find (r.at idx) k.sys).getD r.spec.reset

/-- Store a system register of a core. -/
def Core.setReg (k : Core) (r : Reg) (idx : List Nat) (v : Word) : Core :=
  { k with sys := k.sys.set r.spec.reset (r.at idx) v }

def Core.fld (k : Core) (r : Reg) (f : Fld) (idx : List Nat := []) : Nat := bits (k.reg r idx) f

def Core.setFld (k : Core) (r : Reg) (idx : List Nat) (f : Fld) (v : Nat) : Core :=
  k.setReg r idx (putBits (k.reg r idx) f v)

/-- An error reaches a log with VALID in bit 0 and OVERFLOW in bit 1 (R36, R204, R225, R259, R309): captured while VALID
is 0, else only OVERFLOW is set. True: it was captured. -/
def State.capture (s : State) (r : Reg) (idx : List Nat) (fields : Nat) : Bool × State :=
  let old := s.reg r idx
  if old.getLsbD 0 then (false, s.setReg r idx (old ||| 2))
  else (true, s.setReg r idx (BitVec.ofNat 64 fields ||| (old &&& 2) ||| 1))

/-- The value a register takes when software writes v to the byte lanes lanes (R14, R536). -/
def RegDef.written (d : RegDef) (old v lanes : Word) : Word :=
  let rw := d.rw &&& lanes
  (((old &&& ~~~rw) ||| (v &&& rw)) &&& ~~~(v &&& d.w1c &&& lanes)) ||| (v &&& d.w1s &&& lanes)

/-- The value a read returns: reserved and write-only bits read as zero (R14, R15). -/
def RegDef.readable (d : RegDef) (v : Word) : Word := v &&& (d.rw ||| d.ro ||| d.w1c ||| d.w1s ||| d.rc)

/-- What a register holds after a read of the byte lanes lanes: RC fields clear (R14). -/
def RegDef.afterRead (d : RegDef) (v lanes : Word) : Word := v &&& ~~~(d.rc &&& lanes)

/-- Find the indexes of an array instance: the offset from the base, split by the strides in falling order. -/
def RegDim.split : List RegDim → Nat → Option (List Nat × Nat)
  | [], off => some ([], off)
  | d :: ds, off =>
    if off / d.stride < d.first ∨ d.last < off / d.stride then none
    else (RegDim.split ds (off % d.stride)).map fun r => (off / d.stride :: r.1, r.2)

/-- The instance of a register that holds an address, with the byte offset inside it. -/
def Reg.match? (r : Reg) (a : Nat) : Option (List Nat × Nat) :=
  if a < r.spec.base then none
  else match RegDim.split r.spec.dims (a - r.spec.base) with
    | some (idx, off) => if off < (if r.spec.space = .sys then 1 else if r.spec.wide then 8 else 4) then some (idx, off) else none
    | none => none

/-- Look an address up in a list of registers. -/
def lookReg : List Reg → Nat → Option (Reg × List Nat × Nat)
  | [], _ => none
  | r :: rs, a => match r.match? a with
    | some (idx, off) => some (r, idx, off)
    | none => lookReg rs a

/-! ### Free values -/

/-- A fresh free value and the state that has used it (log entry 5). -/
def State.fresh (s : State) : Word × State := (Config.freeWord s.free, { s with free := s.free + 1 })

/-! ### Memory (R8, R28) -/

/-- The byte of an unlisted address (log entry 4). -/
def Memory.blank : Byte := 0

/-- The canonical form of a memory. -/
def Memory.wf (m : Memory) : Bool := SMap.wf Memory.blank m

def Memory.read (m : Memory) (a : Nat) : Byte := SMap.get Memory.blank m a
def Memory.write (m : Memory) (a : Nat) (b : Byte) : Memory := SMap.set Memory.blank m a b

/-- n bytes from address a as a little-endian number (R8). -/
def Memory.readN (m : Memory) (a : Nat) : Nat → Nat
  | 0 => 0
  | n + 1 => (Memory.read m a).toNat + 256 * Memory.readN m (a + 1) n

/-- Write n bytes of a little-endian number. -/
def Memory.writeN (m : Memory) (a : Nat) (v : Nat) : Nat → Memory
  | 0 => m
  | n + 1 => Memory.writeN (Memory.write m a (BitVec.ofNat 8 v)) (a + 1) (v / 256) n

/-- Write the bytes of a 64-byte sector that the mask names. -/
def Memory.writeMask (m : Memory) (a : Nat) (v : Nat) (mask : Nat) : Nat → Memory
  | 0 => m
  | n + 1 =>
    Memory.writeMask (if mask % 2 = 1 then Memory.write m a (BitVec.ofNat 8 v) else m) (a + 1) (v / 256) (mask / 2) n

/-- Insert a number into a rising list. -/
def insertRising (n : Nat) : List Nat → List Nat
  | [] => [n]
  | m :: l => if n < m then n :: m :: l else if n = m then m :: l else m :: insertRising n l

/-! ### The physical map (R26, R28) -/

def dramEnd : Nat := 0x10_0000_0000
def mramBase : Nat := 0x10_0000_0000
def mramEnd : Nat := 0x10_2000_0000
def pcieBase : Nat := 0x20_0000_0000
def pcieEnd : Nat := 0x30_0000_0000
def unitBase : Nat := 0x30_0000_0000
def unitEnd : Nat := 0x31_0000_0000
def sliceBase : Nat := 0x31_0000_0000
def sliceEnd : Nat := 0x31_0200_0000
def qspiBase : Nat := 0x33_0000_0000
def qspiEnd : Nat := 0x33_1000_0000

def inDram (pa : Nat) : Bool := decide (pa < dramEnd)
def inMram (pa : Nat) : Bool := decide (mramBase ≤ pa) && decide (pa < mramEnd)

/-! ### Sectors of memory (R236 to R249) -/

/-- The key in a slot (R250): the random key of boot until Fetas loads another. -/
def State.slotKeyOf (s : State) (slot : Nat) : Nat := (s.dram.slotKey.get none slot).getD (s.dram.keyBase + slot)

/-- The key that the maps name for a sector, plus 1; 0 when it is not encrypted (R249, R250). -/
def State.keyAt (s : State) (sec : Nat) : Nat :=
  let r := if sec * 64 < dramEnd then s.reg .DKEY_MAP [sec * 64 / 2 ^ 21 % 32768]
    else s.reg .MKEY_MAP [(sec * 64 - mramBase) / 65536 % 8192]
  if flag r .DKEY_MAP_EN then s.slotKeyOf (bits r .DKEY_MAP_SLOT) + 1 else 0

/-- A 64-byte sector of memory as a read under the key in force returns it. -/
def State.memSec (s : State) (sec : Nat) : BitVec 512 :=
  let d := BitVec.ofNat 512 (Memory.readN s.mem (sec * 64) 64)
  let was := s.dram.writtenKey.get 0 sec
  if was = s.keyAt sec then d else Config.wrongKey was (s.keyAt sec) d sec

/-- The memory group of a DRAM sector (R233). -/
def groupOf (sec : Nat) : Nat := sec / 4 % 2

/-- A sector reads as poisoned: it is poisoned, or its group has failed (R239, R240). -/
def State.secPoison (s : State) (sec : Nat) : Bool :=
  s.poisoned.contains sec || (inDram (sec * 64) && s.dram.failed.contains (groupOf sec))

/-- Set or clear the poison of a sector in memory. -/
def State.setPoison (s : State) (sec : Nat) (p : Bool) : State :=
  { s with poisoned := if p then insertRising sec s.poisoned else s.poisoned.erase sec }

/-- Write a 64-byte sector to memory, under the key in force; a poisoned one holds zeros (R240). -/
def State.setMemSec (s : State) (sec : Nat) (v : BitVec 512) (p : Bool) : State :=
  let w := if p && inDram (sec * 64) then 0 else v
  let s := { s with mem := Memory.writeN s.mem (sec * 64) w.toNat 64,
                    dram := { s.dram with writtenKey := s.dram.writtenKey.set 0 sec (s.keyAt sec) } }
  s.setPoison sec p

/-- The home slice of a DRAM or MRAM address (R26). -/
def homeOf (pa : Nat) : Nat :=
  (pa / 256 % 2) * 4 + ((pa / 512 % 4) ^^^ (pa / 2 ^ 19 % 4))

/-- What Fetas counts in its health telemetry (R36, R101, R204, R225, R259, R445). -/
inductive Tele where
  | addrErr | cleatGive | residue | l1Error | l2Error | l3Error | memory | mram | slice | shroud | retired | reference
  | lockstep | path | migration | quarantine | douse | doubleFault | unit | rollback
  /-- of a register of a core; 0: one that was corrected -/
  | register (n : Nat)
  deriving DecidableEq, Repr

def Tele.code : Tele → Nat
  | .addrErr => 0 | .cleatGive => 1 | .residue => 2 | .l1Error => 3 | .l2Error => 4 | .l3Error => 5 | .memory => 6
  | .mram => 7 | .slice => 8 | .shroud => 9 | .retired => 10 | .reference => 11 | .lockstep => 12 | .path => 13 | .migration => 14
  | .quarantine => 15 | .douse => 16 | .doubleFault => 17 | .unit => 18
  | .rollback => 19 | .register n => 20 + n

/-- The health log takes an entry under the next sequence number; it holds the latest 65,536 (R349, R365). -/
def State.logEntry (s : State) (words : Nat → List Nat) : State :=
  let seq := s.fsi.seq + 1
  let log := s.fsi.log ++ [(seq, words seq)]
  { s with fsi := { s.fsi with seq := seq, log := if 65536 < log.length then log.drop 1 else log } }

/-- Fetas counts one more in its health telemetry, and records it in the health log (R432; log entry 99). -/
def State.count (s : State) (t : Tele) : State :=
  { s with telemetry := s.telemetry.set 0 t.code (s.telemetry.get 0 t.code + 1) }.logEntry (Config.telemetryEntry t.code)

/-- A unit raises an edge on a wired source (R260, R262). -/
def State.pulse (s : State) (n : Nat) : State := { s with pulses := s.pulses ++ [n] }

/-- Report to Fetas. -/
def State.report (s : State) (r : Report) : State := { s with reports := s.reports ++ [r] }

/-- The first DRAM address beyond the fitted capacity (R3, R4). -/
def Part.dramEnd : Part → Nat
  | .s64 | .n64 => 0x10_0000_0000
  | .s32 | .n32 => 0x8_0000_0000

def Part.shroud : Part → Bool
  | .s64 | .s32 => true
  | _ => false

/-- An address that memory holds: fitted DRAM, or MRAM. -/
def State.isMem (s : State) (pa : Nat) : Bool := decide (pa < s.part.dramEnd) || inMram pa

/-- Device time at a tick of the Mast, which counts at 32.768 kHz (R387, R459). -/
def tickTime (n : Nat) : Nat := n * 1953125 / 64

/-- The Mast count after one more tick: it is 48 bits wide (R387). -/
def nextTick (n : Nat) : Nat := (n + 1) % 2 ^ 48

/-- Ticks that have passed since a tick, through a wrap of the count (R387). -/
def State.ticksSince (s : State) (t : Nat) : Nat := (s.tick + 2 ^ 48 - t % 2 ^ 48) % 2 ^ 48

/-- The Mast count has reached a tick: it is no more than half the count behind. -/
def State.tickReached (s : State) (t : Nat) : Bool := decide (s.ticksSince t < 2 ^ 47)

/-- Time goes on on an empty queue (log entry 10): by one DCLK cycle (1 ns) with the tick that falls due, in a mode with
a DCLK; by one tick in M0; by one Shroud tick alone while the Mast has no supply. The ticks of the Shroud pass with those of
the Mast. -/
def State.idle (s : State) : State :=
  let shr := if s.shr.off then s.shr else { s.shr with tick := s.shr.tick + 1 }
  if s.crow.mastOff then { s with shr := shr }
  else if s.mode = .m0 then { s with tick := nextTick s.tick, shr := shr }
  else if tickTime (s.tick + 1) = s.time + 1 then { s with time := tickTime (nextTick s.tick), tick := nextTick s.tick, shr := shr }
  else { s with time := s.time + 1 }

/-- A domain is on and not in transition (R30, R39). -/
def State.pdUp (s : State) (pd : Nat) : Bool := s.pdOn.contains pd && !s.pdMoving.contains pd

/-- The router of a stop is powered (R20, R37). -/
def State.stopUp (s : State) (stop : Nat) : Bool := s.pdUp (if stop % 6 < 3 then 91 else 92)

/-- A report of an access that meets reserved space or a refusal, on its way to the log (R36). -/
def State.addrErr (s : State) (stop : Nat) (write : Bool) (kind pa : Nat) (pid : BitVec 29) : State :=
  { s with errReports := s.errReports ++ [{ stop := stop, write := write, kind := kind, pa := pa, pid := pid }] }

end Sys2Proof.Machine
end

