-- ==== Sys2Proof/Machine/FsiEvents.lean ====
section
/-! DEFINITION. Events of Fetas (R349, R350): numbering, the health log, and the queues of the mailboxes. -/

namespace Sys2Proof.Machine

def State.fsiQueue (s : State) (box : Nat) : List FsiEvent := s.fsi.queues.get [] box

/-- Drop the oldest unsolicited event of a queue; true when there was one. -/
def dropOldest : List FsiEvent → Option (List FsiEvent)
  | [] => none
  | e :: l => if e.completion then (dropOldest l).map fun r => e :: r else some l

/-- Queue an event for a mailbox: a full queue drops its oldest unsolicited event and counts it (R350). DESIGN CHOICE (log entry
45): the reserved places of completion events lie outside the 64 or 4, and the delivery of one leaves LOST as it is. -/
def State.pushEvent (s : State) (box : Nat) (e : FsiEvent) : State :=
  let q := s.fsiQueue box
  let cap := if box < 8 then 64 else 4
  let put (s : State) (q : List FsiEvent) : State :=
    { s with fsi := { s.fsi with queues := s.fsi.queues.set [] box (q ++ [e]) } }
  if e.completion || decide ((q.filter fun x => !x.completion).length < cap) then put s q
  else
    match dropOldest q with
    | none => put s q
    | some q =>
      put { s with fsi := { s.fsi with lost := s.fsi.lost.set 0 box (satAdd 0xFFFF (s.fsi.lost.get 0 box) 1) } } q

/-- An unsolicited event (R349): it takes the next sequence number, enters the health log, and is queued for every
control mailbox whose mask names its group and for the slices given. -/
def State.feEvent (s : State) (code : Nat) (data : List Nat) (slices : List Nat := []) : State :=
  let s := s.logEntry fun _ => code :: data
  let e : FsiEvent := { code := code, seq := s.fsi.seq, data := data }
  let boxes := ((List.range 8).filter fun m => (s.reg .EVT_MASK [m]).getLsbD (code / 256)) ++
    (slices.filter fun n => flag (s.reg .SLICE_BIND [n]) .SLICE_BIND_VALID && !flag (s.reg .SLICE_FAR [n]) .SLICE_FAR_FAR).map
      fun n => 8 + n
  boxes.foldl (fun s b => s.pushEvent b e) s

/-- The slices bound to a VMID whose far end is Fetas. -/
def State.slicesOf (s : State) (vmid : Nat) : List Nat :=
  let base := Reg.spec .SLICE_BIND |>.base
  s.regs.filterMap fun e =>
    if base ≤ e.1 ∧ (e.1 - base) % 0x1000 = 0 ∧ (e.1 - base) / 0x1000 < 8192 ∧ flag e.2 .SLICE_BIND_VALID ∧
        bits e.2 .SLICE_BIND_PID / 2 ^ 16 = vmid then some ((e.1 - base) / 0x1000) else none

end Sys2Proof.Machine
end

