-- ==== Sys2Proof/Machine/FsiReply.lean ====
section
/-! DEFINITION. Responses and completion events of the Fetas Service Interface (R346, R348, R349, R351, R353, R357). -/

namespace Sys2Proof.Machine

/-- The status codes (R348). -/
def stOk : Nat := 0
def stBusy : Nat := 1
def stBadCommand : Nat := 2
def stBadArgument : Nat := 3
def stDenied : Nat := 4
def stNoResource : Nat := 5
def stStale : Nat := 6
def stTimeout : Nat := 7
def stDeferred : Nat := 8
def stDegraded : Nat := 9

/-- The final status of a command: status, detail and results from word 2. -/
structure Ans where
  status : Nat := 0
  detail : Nat := 0
  res : List Nat := []
  deriving DecidableEq, Repr

/-- The words of a response. -/
def Ans.words (a : Ans) (w0 : Nat) (replay : Bool) : List Nat :=
  [w0 % 2 ^ 24 + (if replay then 2 ^ 25 else 0), a.status + a.detail * 2 ^ 16] ++ a.res

/-- A response is ready to be posted. -/
def State.reply (s : State) (box w0 : Nat) (a : Ans) (replay : Bool := false) : State :=
  { s with fsi := { s.fsi with ready := s.fsi.ready ++ [(box, a.words w0 replay)] } }

/-- A completion event is queued (R351). -/
def State.complete (s : State) (box w0 : Nat) (a : Ans) (replay : Bool := false) : State :=
  s.pushEvent box { code := w0 % 2 ^ 16, tag := w0 / 2 ^ 16 % 2 ^ 8, completion := true, status := a.status + a.detail * 2 ^ 16,
                    data := a.res, replay := replay }

/-- The box of a command in progress whose slice has been unbound since: its answer goes to nobody (R282). -/
def noBox : Nat := 8200

/-- A command in progress ends: its response, or the completion event of a deferred one; nothing when no command of that
number is in progress. -/
def State.opEnd (s : State) (id : Nat) (a : Ans) (replay : Bool := false) : State :=
  match s.fsi.ops.find? fun o => o.req.id == id with
  | none => s
  | some o =>
    let s := { s with fsi := { s.fsi with ops := s.fsi.ops.erase o } }
    let w0 := o.req.words.headD 0
    let replay := replay || o.replay
    if o.req.box = noBox then s
    else if o.deferred then s.complete o.req.box w0 a replay
    else { s with fsi := { s.fsi with firm := s.fsi.firm ++ [o.req.box] } }.reply o.req.box w0 a replay

/-- The commands in progress of a code that hold an object end. -/
def State.endHolding (s : State) (code : Nat) (o : Obj) (a : Ans) : State :=
  (s.fsi.ops.filter fun x => decide (x.req.words.headD 0 % 2 ^ 16 = code) && x.objs.contains o).foldl (fun s x => s.opEnd x.req.id a) s

end Sys2Proof.Machine
end

