-- ==== Sys2Proof/Machine/Operands.lean ====
section
/-! DEFINITION. Operand forms of the instructions: G and F registers, boxing, effective addresses and the context in
which a core executes (R42 to R47, R147). -/

namespace Sys2Proof.Machine

/-- The current level of a core (R124). -/
def Core.level (k : Core) : Level :=
  match k.fld .STATUS .STATUS_LEVEL with
  | 0 => .u
  | 1 => .k
  | _ => .h

/-- The stack pointer of a level (R43). -/
def Core.sp (k : Core) : Level → Word
  | .u => k.reg .SP_U
  | .k => k.reg .SP_K
  | .h => k.spH

def Core.setSp (k : Core) (l : Level) (v : Word) : Core :=
  match l with
  | .u => k.setReg .SP_U [] v
  | .k => k.setReg .SP_K [] v
  | .h => { k with spH := v }

/-- Read a G register: G0 is zero, G30 the stack pointer of the current level (R42, R43). -/
def Core.readG (k : Core) (r : Fin 32) : Word :=
  if r.val = 0 then 0 else if r.val = 30 then k.sp k.level else k.g.get 0 r.val

/-- Write a G register: a write of G0 is discarded (R42). -/
def Core.writeG (k : Core) (r : Fin 32) (v : Word) : Core :=
  if r.val = 0 then k else if r.val = 30 then k.setSp k.level v else { k with g := k.g.set 0 r.val v }

def Core.readF (k : Core) (r : Fin 32) : Word := k.f.get 0 r.val
def Core.writeF (k : Core) (r : Fin 32) (v : Word) : Core := { k with f := k.f.set 0 r.val v }

/-- A binary32 value boxed in an F register (R44). -/
def boxS (v : BitVec 32) : Word := (0xFFFFFFFF#32 ++ v)

/-- The binary32 operand an F register presents (R44). -/
def unboxS (v : Word) : BitVec 32 := if v.extractLsb 63 32 = 0xFFFFFFFF#32 then v.setWidth 32 else 0x7FC00000#32

/-- Sign-extended IMM16 (R47). -/
def immS (i : BitVec 16) : Word := i.signExtend 64
/-- Zero-extended IMM16 (R47). -/
def immZ (i : BitVec 16) : Word := i.setWidth 64

/-- The branch target (R47). -/
def branchTarget (pc : Word) (d : BitVec 15) : Word := pc + (d.signExtend 64 <<< 2)
/-- The jump target (R47). -/
def jumpTarget (pc : Word) (d : BitVec 26) : Word := pc + (d.signExtend 64 <<< 2)

/-- The PID tag of a level's accesses (R147, R10). -/
def Core.pid (k : Core) (l : Level) : BitVec 29 :=
  if l = .h then BitVec.ofNat 29 (k.fld .H_ASID .H_ASID_BASE)
  else BitVec.ofNat 29 (k.fld .VMID .VMID_VMID * 65536 + k.fld .ASID .ASID_ASID)

/-- The core as a requester (R166, R182). -/
def Core.who (k : Core) (c : Fin 64) : Who := .core c k.level (k.pid k.level)

end Sys2Proof.Machine
end

