-- ==== Sys2Proof/Machine/Events.lean ====
section
/-! DEFINITION. The event counters of a core (R462, R463, R466). Events of kind "per cycle" belong to the timing the
model leaves out; each occurrence of a counted event is a cycle of its own (log entry 8). -/

namespace Sys2Proof.Machine

/-- The event codes the model counts (R466). -/
def evRetired : Nat := 0x01
def evOrderedFp : Nat := 0x0A
def evLongOp : Nat := 0x0B
def evSplitLoad : Nat := 0x0C
def evSplitStore : Nat := 0x0D
def evBranch : Nat := 0x10
def evTaken : Nat := 0x11
def evMispredict : Nat := 0x12
def evJalr : Nat := 0x13
def evJalrWrong : Nat := 0x14
def evPush : Nat := 0x15
def evPop : Nat := 0x16
def evWrongFetch : Nat := 0x17
def evFetch : Nat := 0x20
def evFetchMiss : Nat := 0x21
def evLoad : Nat := 0x23
def evLoadMiss : Nat := 0x24
def evDrain : Nat := 0x25
def evOwnReq : Nat := 0x26
def evForward : Nat := 0x29
def evOverlapWait : Nat := 0x2A
def evPrefetch : Nat := 0x2B
def evPrefetchDrop : Nat := 0x2C
def evNextSector : Nat := 0x2D
def evScFail : Nat := 0x2E
def evAtomic : Nat := 0x2F
def evSnoop : Nat := 0x34
def evZline : Nat := 0x36
def evMaint : Nat := 0x37
def evDeviceLoad : Nat := 0x45
def evUncachedLoad : Nat := 0x46
def evPoisoned : Nat := 0x47
def evL1Corrected : Nat := 0x35
def evDroop : Nat := 0x0E
def evDtlbMiss : Nat := 0x48
def evItlbMiss : Nat := 0x49
def evL2TlbMiss : Nat := 0x4A
def evSlbMiss : Nat := 0x4B
def evWalkRead : Nat := 0x4C
def evWalkCacheHit : Nat := 0x4D
def evWalkReadL2 : Nat := 0x50
def evAdUpdate : Nat := 0x4E
def evTlbInval : Nat := 0x53
def evRewalk : Nat := 0x54
def evException : Nat := 0x58
def evInterrupt : Nat := 0x59
def evSyscall : Nat := 0x5A
def evHcall : Nat := 0x5B
def evResidue : Nat := 0x60
def evRegister : Nat := 0x63
def evRollback : Nat := 0x64
def evL1dAlloc : Nat := 0x27
def evL1dDirtyVictim : Nat := 0x28
def evL2 : Nat := 0x30
def evL2Miss : Nat := 0x31
def evHome : Nat := 0x38
def evServed : Nat := 0x40
def evCleatTake : Nat := 0x68
def evCleatBusy : Nat := 0x69
def evDeviceStore : Nat := 0x6A

/-- The codes the table of R466 defines; a write of another leaves EVSEL.EVENT as it was. -/
def evDefined (e : Nat) : Bool :=
  (e ≤ 0x0E) || (0x10 ≤ e && e ≤ 0x19) || (0x20 ≤ e && e ≤ 0x54) || (0x58 ≤ e && e ≤ 0x65) || (0x68 ≤ e && e ≤ 0x6F)

/-- EVSEL enables counting at a level (R462). -/
def evCounts (sel : Word) : Level → Bool
  | .u => flag sel .EVSEL_CNT_U
  | .k => flag sel .EVSEL_CNT_K
  | .h => flag sel .EVSEL_CNT_H

/-- Counter n takes an increment: it wraps at 2^48, keeps the carry and sets its overflow bit (R463). -/
def Core.addCounter (k : Core) (n v : Nat) : Core :=
  let x := (k.reg .EVCNT [n]).toNat + v
  let k' := k.setReg .EVCNT [n] (BitVec.ofNat 64 (x % 2 ^ 48))
  if x < 2 ^ 48 then k' else k'.setReg .EV_OVF [] (k'.reg .EV_OVF ||| (1#64 <<< n))

/-- Comparators of KIND 4 that an event makes true (R485). -/
def Core.eventHits (k : Core) (e : Nat) : BitVec 8 :=
  (List.range 8).foldl (fun m n =>
    let r := k.reg .TCMP_CFG [n]
    if bits r .TCMP_CFG_KIND = 4 ∧ bits r .TCMP_CFG_ARG % 128 = e then m ||| (1#8 <<< n) else m) 0

/-- The core counts v occurrences of an event at a level (R462). -/
def Core.countEvent (k : Core) (l : Level) (e v : Nat) : Core :=
  let h := k.eventHits e
  let k := if h = 0 then k else { k with trace := { k.trace with hits := k.trace.hits ||| h } }
  (List.range 8).foldl (fun k n =>
    let sel := k.reg .EVSEL [n]
    if bits sel .EVSEL_EVENT = e ∧ evCounts sel l then
      k.addCounter n (if flag sel .EVSEL_EDGE then min v 1 else v) else k) k

/-- An event-counter overflow is pending (R463). -/
def Core.ovfReady (k : Core) : Bool :=
  (List.range 8).any fun n => (k.reg .EV_OVF).getLsbD n && flag (k.reg .EVSEL [n]) .EVSEL_IRQ

/-- A core that waits in WFI goes on when an overflow is pending (R275, R463). -/
def Core.ovfWake (k : Core) : Core := if k.run = .wfi ∧ k.ovfReady then { k with run := .running } else k

/-- Count an event of a core at its current level; a core in WFI may wake by it. -/
def State.event (s : State) (c : Fin 64) (e : Nat) (v : Nat := 1) : State :=
  s.updCore c fun k => (k.countEvent k.level e v).ovfWake

end Sys2Proof.Machine
end

