-- ==== Sys2Proof/Machine/Hash.lean ====
section
/-! DEFINITION. The hash functions and block cipher that the spec names by their standards: CRC-32C with the parameters
of R401, SHA-2, SHA-3 and SHAKE256, HMAC, AES and AES-GCM (R298; log entry 30). -/

namespace Sys2Proof.Machine

/-- A string of bytes. -/
abbrev Bytes := List Byte

/-- Little-endian value of a byte string. -/
def leNat : Bytes → Nat
  | [] => 0
  | b :: l => b.toNat + 256 * leNat l

/-- Big-endian value of a byte string. -/
def beNat (l : Bytes) : Nat := l.foldl (fun n b => n * 256 + b.toNat) 0

/-- n bytes of a number, least significant first. -/
def toLe (v : Nat) : Nat → Bytes
  | 0 => []
  | n + 1 => BitVec.ofNat 8 v :: toLe (v / 256) n

/-- n bytes of a number, most significant first. -/
def toBe (v n : Nat) : Bytes := (toLe v n).reverse

/-- A piece of a byte string. -/
def piece (l : Bytes) (off n : Nat) : Bytes := (l.drop off).take n

/-- n zero bytes. -/
def zeros (n : Nat) : Bytes := List.replicate n 0

/-- Cut a string into pieces of n bytes; fuel bounds their number. -/
def chunks (n : Nat) : Nat → Bytes → List Bytes
  | 0, _ => []
  | fuel + 1, l => if l.isEmpty then [] else l.take n :: chunks n fuel (l.drop n)

/-! ### CRC-32C (R401): polynomial 0x1EDC6F41 reflected, initial value zero, no final inversion -/

def crcBit (c : BitVec 32) : BitVec 32 := (c >>> 1) ^^^ (if c.getLsbD 0 then 0x82F63B78#32 else 0)

def crcByte (c : BitVec 32) (b : Byte) : BitVec 32 := Nat.repeat crcBit 8 (c ^^^ b.setWidth 32)

def crc32c (l : Bytes) : BitVec 32 := l.foldl crcByte 0

/-! ### SHA-2 -/

/-- Integer k-th root. -/
def iroot (k n : Nat) : Nat := ((List.range 220).reverse).foldl (fun r i => if (r + 2 ^ i) ^ k ≤ n then r + 2 ^ i else r) 0

def isPrime (n : Nat) : Bool := decide (2 ≤ n) && (List.range n).all fun d => decide (d < 2) || n % d != 0

def primes80 : List Nat := (List.range 410).filter isPrime

/-- The parameters of a SHA-2 function: word width, rounds, and the rotations of its four functions. -/
structure Sha2 where
  w : Nat
  rounds : Nat
  s0 : Nat × Nat × Nat
  s1 : Nat × Nat × Nat
  t0 : Nat × Nat × Nat
  t1 : Nat × Nat × Nat

def sha2w32 : Sha2 := ⟨32, 64, (2, 13, 22), (6, 11, 25), (7, 18, 3), (17, 19, 10)⟩
def sha2w64 : Sha2 := ⟨64, 80, (28, 34, 39), (14, 18, 41), (1, 8, 7), (19, 61, 6)⟩

def Sha2.big (p : Sha2) (r : Nat × Nat × Nat) (x : BitVec p.w) : BitVec p.w :=
  x.rotateRight r.1 ^^^ x.rotateRight r.2.1 ^^^ x.rotateRight r.2.2
def Sha2.small (p : Sha2) (r : Nat × Nat × Nat) (x : BitVec p.w) : BitVec p.w :=
  x.rotateRight r.1 ^^^ x.rotateRight r.2.1 ^^^ (x >>> r.2.2)

def Sha2.k (p : Sha2) : List (BitVec p.w) := (primes80.take p.rounds).map fun q => BitVec.ofNat p.w (iroot 3 (q * 2 ^ (3 * p.w)))
def Sha2.iv (p : Sha2) (skip : Nat) : List (BitVec p.w) :=
  ((primes80.drop skip).take 8).map fun q => BitVec.ofNat p.w (iroot 2 (q * 2 ^ (2 * p.w)))

/-- The message schedule of a block, latest word first. -/
def Sha2.schedule (p : Sha2) (block : Bytes) : List (BitVec p.w) :=
  let first := (chunks (p.w / 8) 16 block).map fun b => BitVec.ofNat p.w (beNat b)
  (List.range (p.rounds - 16)).foldl (fun l _ =>
    (p.small p.t1 (l.getD 1 0) + l.getD 6 0 + p.small p.t0 (l.getD 14 0) + l.getD 15 0) :: l) first.reverse

def Sha2.round (p : Sha2) (h : List (BitVec p.w)) (kw : BitVec p.w × BitVec p.w) : List (BitVec p.w) :=
  match h with
  | [a, b, c, d, e, f, g, hh] =>
    let t1 := hh + p.big p.s1 e + ((e &&& f) ^^^ (~~~e &&& g)) + kw.1 + kw.2
    let t2 := p.big p.s0 a + ((a &&& b) ^^^ (a &&& c) ^^^ (b &&& c))
    [t1 + t2, a, b, c, d + t1, e, f, g]
  | l => l

def Sha2.block (p : Sha2) (k : List (BitVec p.w)) (h : List (BitVec p.w)) (b : Bytes) : List (BitVec p.w) :=
  let r := (k.zip (p.schedule b).reverse).foldl p.round h
  (h.zip r).map fun x => x.1 + x.2

def Sha2.hash (p : Sha2) (skip outBytes : Nat) (m : Bytes) : Bytes :=
  let bb := p.w * 2
  let lb := p.w / 4
  let padded := m ++ [0x80#8] ++ zeros ((bb - (m.length + 1 + lb) % bb) % bb) ++ toBe (m.length * 8) lb
  let k := p.k
  (((chunks bb (padded.length / bb) padded).foldl (p.block k) (p.iv skip)).flatMap fun w => toBe w.toNat (p.w / 8)).take outBytes

def sha256 (m : Bytes) : Bytes := sha2w32.hash 0 32 m
def sha384 (m : Bytes) : Bytes := sha2w64.hash 8 48 m
def sha512 (m : Bytes) : Bytes := sha2w64.hash 0 64 m

/-- HMAC with SHA-384. -/
def hmac384 (key m : Bytes) : Bytes :=
  let k := if 128 < key.length then sha384 key else key
  let k := k ++ zeros (128 - k.length)
  sha384 (k.map (fun b => b ^^^ 0x5c#8) ++ sha384 (k.map (fun b => b ^^^ 0x36#8) ++ m))

/-- HMAC with SHA-256. -/
def hmac256 (key m : Bytes) : Bytes :=
  let k := if 64 < key.length then sha256 key else key
  let k := k ++ zeros (64 - k.length)
  sha256 (k.map (fun b => b ^^^ 0x5c#8) ++ sha256 (k.map (fun b => b ^^^ 0x36#8) ++ m))

/-! ### SHA-3 and SHAKE -/

/-- Rotation of lane (x, y) and the walk that visits the lanes. -/
def keccakRot : List (Nat × Nat) :=
  ((List.range 24).foldl (fun (s : (Nat × Nat) × List (Nat × Nat)) t =>
    let (x, y) := s.1
    ((y, (2 * x + 3 * y) % 5), s.2 ++ [(x + 5 * y, (t + 1) * (t + 2) / 2 % 64)])) ((1, 0), [])).2

/-- The bit of the round-constant generator after t steps. -/
def keccakRc (t : Nat) : Bool :=
  ((List.range (t % 255)).foldl (fun (r : BitVec 8) _ => (r <<< 1) ^^^ (if r.msb then 0x71#8 else 0)) 1).getLsbD 0

def keccakConst (r : Nat) : BitVec 64 :=
  (List.range 7).foldl (fun c j => if keccakRc (j + 7 * r) then c ||| (1#64 <<< (2 ^ j - 1)) else c) 0

def lane (a : Array (BitVec 64)) (x y : Nat) : BitVec 64 := a.getD (x % 5 + 5 * (y % 5)) 0

def keccakRound (rots : List (Nat × Nat)) (a : Array (BitVec 64)) (rc : BitVec 64) : Array (BitVec 64) :=
  let c := (List.range 5).map fun x => lane a x 0 ^^^ lane a x 1 ^^^ lane a x 2 ^^^ lane a x 3 ^^^ lane a x 4
  let d := (List.range 5).map fun x => c.getD ((x + 4) % 5) 0 ^^^ (c.getD ((x + 1) % 5) 0).rotateLeft 1
  let a := ((List.range 25).map fun i => a.getD i 0 ^^^ d.getD (i % 5) 0).toArray
  let rot (i : Nat) : Nat := ((rots.find? fun p => p.1 == i).map fun p => p.2).getD 0
  -- rho and pi: B[y, 2x + 3y] = rot(A[x, y])
  let b := (List.range 25).foldl (fun (b : Array (BitVec 64)) i =>
    let x := i % 5
    let y := i / 5
    b.setIfInBounds (y + 5 * ((2 * x + 3 * y) % 5)) ((a.getD i 0).rotateLeft (rot i))) (Array.replicate 25 0)
  let e := ((List.range 25).map fun i =>
    lane b (i % 5) (i / 5) ^^^ (~~~lane b (i % 5 + 1) (i / 5) &&& lane b (i % 5 + 2) (i / 5))).toArray
  e.setIfInBounds 0 (e.getD 0 0 ^^^ rc)

def keccakF (a : Array (BitVec 64)) : Array (BitVec 64) :=
  let rots := keccakRot
  (List.range 24).foldl (fun a r => keccakRound rots a (keccakConst r)) a

/-- XOR a block of rate bytes into the state and permute. -/
def absorb (a : Array (BitVec 64)) (block : Bytes) : Array (BitVec 64) :=
  let ls := (chunks 8 25 block).map fun b => BitVec.ofNat 64 (leNat b)
  keccakF (((List.range 25).map fun i => a.getD i 0 ^^^ ls.getD i 0).toArray)

def squeeze (rate : Nat) : Nat → Array (BitVec 64) → Bytes
  | 0, _ => []
  | n + 1, a => ((List.range 25).flatMap fun i => toLe (a.getD i 0).toNat 8).take rate ++ squeeze rate n (keccakF a)

/-- The sponge with a rate in bytes, a domain suffix, and n output bytes. -/
def sponge (rate : Nat) (suffix : Byte) (m : Bytes) (n : Nat) : Bytes :=
  let padLen := rate - m.length % rate
  let pad := if padLen = 1 then [suffix ||| 0x80#8] else [suffix] ++ zeros (padLen - 2) ++ [0x80#8]
  let p := m ++ pad
  let a := (chunks rate (p.length / rate) p).foldl absorb (Array.replicate 25 0)
  (squeeze rate (n / rate + 1) a).take n

def sha3 (bits : Nat) (m : Bytes) : Bytes := sponge (200 - bits / 4) 0x06 m (bits / 8)
def shake128 (m : Bytes) (n : Nat) : Bytes := sponge 168 0x1F m n
def shake256 (m : Bytes) (n : Nat) : Bytes := sponge 136 0x1F m n

/-! ### AES and AES-GCM -/

def aesDouble (x : Byte) : Byte := (x <<< 1) ^^^ (if x.msb then 0x1B#8 else 0)

def aesMul (a b : Byte) : Byte :=
  ((List.range 8).foldl (fun (s : Byte × Byte) i => (if b.getLsbD i then s.1 ^^^ s.2 else s.1, aesDouble s.2)) (0, a)).1

/-- The S-box: the inverse in GF(2^8), then the affine map. -/
def sbox (x : Byte) : Byte :=
  let p2 := fun (y : Byte) => aesMul y y
  -- x^254
  let inv := ((List.range 7).foldl (fun (s : Byte × Byte) _ => let q := p2 s.2; (aesMul s.1 q, q)) (1, x)).1
  inv ^^^ inv.rotateLeft 1 ^^^ inv.rotateLeft 2 ^^^ inv.rotateLeft 3 ^^^ inv.rotateLeft 4 ^^^ 0x63#8

def xorBytes (a b : Bytes) : Bytes := (a.zip b).map fun p => p.1 ^^^ p.2

/-- Round keys: 4 words for each of rounds + 1 keys; key of 16 or 32 bytes. -/
def aesKeys (key : Bytes) : List Bytes :=
  let nk := key.length / 4
  let rounds := nk + 6
  let ws := (List.range (4 * (rounds + 1) - nk)).foldl (fun (s : List Bytes × Byte) j =>
    let i := j + nk
    let prev := s.1.getD 0 []
    let back := s.1.getD (nk - 1) []
    if i % nk = 0 then
      let t := (prev.drop 1 ++ prev.take 1).map sbox
      let t := match t with | b :: r => (b ^^^ s.2) :: r | [] => []
      (xorBytes back t :: s.1, aesDouble s.2)
    else if nk = 8 ∧ i % nk = 4 then (xorBytes back (prev.map sbox) :: s.1, s.2)
    else (xorBytes back prev :: s.1, s.2)) ((chunks 4 nk key).reverse, 1#8)
  chunks 16 (rounds + 1) (ws.1.reverse.flatMap id)

def shiftRows (s : Bytes) : Bytes := (List.range 16).map fun i => s.getD ((i + 4 * (i % 4)) % 16) 0

def mixColumns (s : Bytes) : Bytes :=
  (List.range 16).map fun i =>
    let c := i / 4 * 4
    let at' (j : Nat) : Byte := s.getD (c + (i + j) % 4) 0
    aesDouble (at' 0) ^^^ aesDouble (at' 1) ^^^ at' 1 ^^^ at' 2 ^^^ at' 3

/-- Encrypt one block of 16 bytes. -/
def aesBlock (keys : List Bytes) (b : Bytes) : Bytes :=
  match keys with
  | [] => b
  | k0 :: ks =>
    let n := ks.length
    (ks.zipIdx).foldl (fun s k =>
      let s := shiftRows (s.map sbox)
      xorBytes (if k.2 + 1 = n then s else mixColumns s) k.1) (xorBytes b k0)

/-- The inverse S-box: the inverse affine map, then the inverse in GF(2^8). -/
def sboxInv (x : Byte) : Byte :=
  let y := x.rotateLeft 1 ^^^ x.rotateLeft 3 ^^^ x.rotateLeft 6 ^^^ 0x05#8
  ((List.range 7).foldl (fun (s : Byte × Byte) _ => let q := aesMul s.2 s.2; (aesMul s.1 q, q)) (1, y)).1

def unshiftRows (s : Bytes) : Bytes := (List.range 16).map fun i => s.getD ((i + 12 * (i % 4)) % 16) 0

def unmixColumns (s : Bytes) : Bytes :=
  (List.range 16).map fun i =>
    let c := i / 4 * 4
    let at' (j : Nat) : Byte := s.getD (c + (i + j) % 4) 0
    aesMul 14 (at' 0) ^^^ aesMul 11 (at' 1) ^^^ aesMul 13 (at' 2) ^^^ aesMul 9 (at' 3)

/-- Decrypt one block of 16 bytes. -/
def aesUnblock (keys : List Bytes) (b : Bytes) : Bytes :=
  match keys.reverse with
  | [] => b
  | kn :: ks =>
    let n := ks.length
    (ks.zipIdx).foldl (fun s k =>
      let s := xorBytes ((unshiftRows s).map sboxInv) k.1
      if k.2 + 1 = n then s else unmixColumns s) (xorBytes b kn)

/-- The next tweak of XTS: multiplication by α, the blocks little-endian. -/
def xtsDouble (t : Bytes) : Bytes :=
  let v := leNat t
  toLe (v * 2 % 2 ^ 128) 16 |>.zipIdx |>.map fun p => if p.2 = 0 ∧ 2 ^ 127 ≤ v then p.1 ^^^ 0x87#8 else p.1

/-- AES-256-XTS over whole blocks under a key of 64 bytes: the first half for the data, the second for the tweak. -/
def xts (enc : Bool) (key : Bytes) (tweak : Nat) (m : Bytes) : Bytes :=
  let keys := aesKeys (key.take 32)
  let t0 := aesBlock (aesKeys (key.drop 32)) (toLe tweak 16)
  ((chunks 16 (m.length / 16) m).foldl (fun (s : Bytes × Bytes) b =>
    let x := xorBytes b s.2
    (s.1 ++ xorBytes (if enc then aesBlock keys x else aesUnblock keys x) s.2, xtsDouble s.2)) ([], t0)).1

/-- Multiplication in GF(2^128) with GCM's bit order; both arguments are big-endian numbers. -/
def gcmMul (x y : BitVec 128) : BitVec 128 :=
  ((List.range 128).foldl (fun (s : BitVec 128 × BitVec 128) i =>
    let z := if x.getLsbD (127 - i) then s.1 ^^^ s.2 else s.1
    let v := (s.2 >>> 1) ^^^ (if s.2.getLsbD 0 then 0xE1#128 <<< 120 else 0)
    (z, v)) (0, y)).1

def pad16 (m : Bytes) : Bytes := m ++ zeros ((16 - m.length % 16) % 16)

def ghash (h : BitVec 128) (aad c : Bytes) : BitVec 128 :=
  let d := pad16 aad ++ pad16 c ++ toBe (aad.length * 8) 8 ++ toBe (c.length * 8) 8
  (chunks 16 (d.length / 16) d).foldl (fun y b => gcmMul (y ^^^ BitVec.ofNat 128 (beNat b)) h) 0

/-- Counter mode from a counter block. -/
def gctr (keys : List Bytes) (iv : Bytes) (m : Bytes) : Bytes :=
  ((chunks 16 (m.length / 16 + 1) m).zipIdx).flatMap fun p => xorBytes p.1 (aesBlock keys (iv ++ toBe (p.2 + 2) 4))

/-- AES-GCM tag of a ciphertext. -/
def gcmTag (key iv aad c : Bytes) : Bytes :=
  let keys := aesKeys key
  let h := BitVec.ofNat 128 (beNat (aesBlock keys (zeros 16)))
  xorBytes (toBe (ghash h aad c).toNat 16) (aesBlock keys (iv ++ toBe 1 4))

def gcmEncrypt (key iv aad m : Bytes) : Bytes :=
  let c := gctr (aesKeys key) iv m
  c ++ gcmTag key iv aad c

/-- The plaintext, or none when the tag does not match. -/
def gcmDecrypt (key iv aad ct : Bytes) : Option Bytes :=
  let c := ct.take (ct.length - 16)
  if gcmTag key iv aad c = ct.drop (ct.length - 16) then some (gctr (aesKeys key) iv c) else none

end Sys2Proof.Machine
end

