-- ==== Sys2Proof/Machine/Crypto.lean ====
section
/-! DEFINITION. The public-key functions and the compressed format that the spec names by their standards: ECDSA over
P-384 with the nonce of RFC 6979, ML-DSA-65 of FIPS 204, and raw streams of RFC 1951 (R298, R299; log entry 30). -/

namespace Sys2Proof.Machine

/-! ### ECDSA over P-384 -/

def p384p : Nat := 2 ^ 384 - 2 ^ 128 - 2 ^ 96 + 2 ^ 32 - 1
def p384n : Nat :=
  0xFFFFFFFFFFFFFFFFFFFFFFFFFFFFFFFFFFFFFFFFFFFFFFFFC7634D81F4372DDF581A0DB248B0A77AECEC196ACCC52973
def p384b : Nat :=
  0xB3312FA7E23EE7E4988E056BE3F82D19181D9C6EFE8141120314088F5013875AC656398D8A2ED19D2A85C8EDD3EC2AEF
def p384g : Nat × Nat :=
  (0xAA87CA22BE8B05378EB1C71EF320AD746E1D3B628BA79B9859F741E082542A385502F25DBF55296C3A545E3872760AB7,
   0x3617DE4A96262C6F5D9E98BF9292DC29F8F41DBD289A147CE9DA3113B5F0B8C00A60B1CE1D7E819D7A431D7C90EA0E5F)

/-- Modular exponentiation; fuel is the number of exponent bits. -/
def powMod (m : Nat) : Nat → Nat → Nat → Nat
  | 0, _, _ => 1 % m
  | f + 1, b, e =>
    let r := powMod m f (b * b % m) (e / 2)
    if e % 2 = 1 then r * b % m else r

/-- Inverse modulo a prime of 384 bits. -/
def invMod (m a : Nat) : Nat := powMod m 384 (a % m) (m - 2)

def subMod (m a b : Nat) : Nat := (a + m - b % m) % m

/-- Sum of two points; none is the point at infinity. -/
def p384add (a b : Option (Nat × Nat)) : Option (Nat × Nat) :=
  match a, b with
  | none, x => x
  | x, none => x
  | some (x1, y1), some (x2, y2) =>
    let line (l : Nat) : Option (Nat × Nat) :=
      let x := subMod p384p (l * l) (x1 + x2)
      some (x, subMod p384p (l * subMod p384p x1 x) y1)
    if x1 = x2 then
      if (y1 + y2) % p384p = 0 then none
      else line ((3 * x1 * x1 + (p384p - 3)) * invMod p384p (2 * y1) % p384p)
    else line (subMod p384p y2 y1 * invMod p384p (subMod p384p x2 x1) % p384p)

/-- A multiple of a point; fuel is the number of bits of the factor. -/
def p384mul : Nat → Nat → Option (Nat × Nat) → Option (Nat × Nat)
  | 0, _, _ => none
  | f + 1, k, a =>
    let r := p384mul f (k / 2) (p384add a a)
    if k % 2 = 1 then p384add r a else r

def p384on (x y : Nat) : Bool :=
  decide (x < p384p) && decide (y < p384p) && (y * y) % p384p == (x * x * x + (p384p - 3) * x + p384b) % p384p

/-- The public key of a private key: uncompressed, 97 bytes. -/
def ecdsaPublic (d : Nat) : Bytes :=
  match p384mul 384 (d % p384n) (some p384g) with
  | some (x, y) => 4 :: (toBe x 48 ++ toBe y 48)
  | none => 0 :: zeros 96

/-- The nonces of RFC 6979, in the order in which they are tried. -/
def rfc6979 (x : Nat) (h : Bytes) : List Nat :=
  let seed := toBe x 48 ++ toBe (beNat h % p384n) 48
  let v := List.replicate 48 (1 : Byte)
  let k := hmac384 (zeros 48) (v ++ [0] ++ seed)
  let v := hmac384 k v
  let k := hmac384 k (v ++ [1] ++ seed)
  let v := hmac384 k v
  (((List.range 8).foldl (fun (s : (Bytes × Bytes) × List Nat) _ =>
    let v := hmac384 s.1.1 s.1.2
    let k := hmac384 s.1.1 (v ++ [0])
    ((k, hmac384 k v), s.2 ++ [beNat v])) ((k, v), [])).2).filter fun c => decide (0 < c) && decide (c < p384n)

/-- Signature of a 48-byte digest: r then s. -/
def ecdsaSign (d : Nat) (h : Bytes) : Bytes :=
  let e := beNat h
  let try' (k : Nat) : Option Bytes :=
    match p384mul 384 k (some p384g) with
    | none => none
    | some (x, _) =>
      let r := x % p384n
      let s := invMod p384n k * (e + r * d) % p384n
      if r = 0 ∨ s = 0 then none else some (toBe r 48 ++ toBe s 48)
  ((rfc6979 d h).findSome? try').getD (zeros 96)

def ecdsaVerify (pk h sig : Bytes) : Bool :=
  let x := beNat (piece pk 1 48)
  let y := beNat (piece pk 49 48)
  let r := beNat (piece sig 0 48)
  let s := beNat (piece sig 48 48)
  if pk.head? ≠ some 4 ∨ !p384on x y ∨ r = 0 ∨ p384n ≤ r ∨ s = 0 ∨ p384n ≤ s then false
  else
    let w := invMod p384n s
    match p384add (p384mul 384 (beNat h * w % p384n) (some p384g)) (p384mul 384 (r * w % p384n) (some (x, y))) with
    | none => false
    | some (x, _) => x % p384n == r

/-! ### ML-DSA-65 (FIPS 204) -/

def mlQ : Nat := 8380417
def mlG1 : Nat := 2 ^ 19
def mlG2 : Nat := 261888
def mlBeta : Nat := 196
def mlOmega : Nat := 55

/-- A polynomial: 256 coefficients modulo q. -/
abbrev Poly := Array Nat

def poly (f : Nat → Nat) : Poly := ((List.range 256).map f).toArray
def Poly.at (p : Poly) (i : Nat) : Nat := p.getD i 0
def polyAdd (a b : Poly) : Poly := poly fun i => (a.at i + b.at i) % mlQ
def polySub (a b : Poly) : Poly := poly fun i => (a.at i + mlQ - b.at i) % mlQ
def polyMul (a b : Poly) : Poly := poly fun i => a.at i * b.at i % mlQ

/-- Absolute value of the centred representative. -/
def mlAbs (x : Nat) : Nat := if x ≤ (mlQ - 1) / 2 then x else mlQ - x
def polyNorm (a : Poly) : Nat := a.foldl (fun m x => max m (mlAbs x)) 0

def bitRev8 (n : Nat) : Nat := (List.range 8).foldl (fun r i => r * 2 + n / 2 ^ i % 2) 0
def mlZetas : Array Nat := ((List.range 256).map fun k => 1753 ^ bitRev8 k % mlQ).toArray

def ntt (p : Poly) : Poly :=
  [128, 64, 32, 16, 8, 4, 2, 1].foldl (fun w len => poly fun i =>
    let z := mlZetas.getD (128 / len + i / (2 * len)) 0
    if i % (2 * len) < len then (w.at i + z * w.at (i + len)) % mlQ
    else (w.at (i - len) + (mlQ - z) * w.at i) % mlQ) p

def nttInv (p : Poly) : Poly :=
  let w := [1, 2, 4, 8, 16, 32, 64, 128].foldl (fun w len => poly fun i =>
    let z := mlZetas.getD (256 / len - 1 - i / (2 * len)) 0
    if i % (2 * len) < len then (w.at i + w.at (i + len)) % mlQ
    else (mlQ - z) * (w.at (i - len) + mlQ - w.at i) % mlQ) p
  poly fun i => w.at i * 8347681 % mlQ

/-- Pack coefficients of n bits, lowest first. -/
def packBits (n : Nat) (l : List Nat) : Bytes :=
  toLe ((l.zipIdx).foldl (fun a p => a + p.1 * 2 ^ (n * p.2)) 0) (l.length * n / 8)

def unpackBits (n count : Nat) (b : Bytes) : List Nat :=
  let v := leNat b
  (List.range count).map fun i => v / 2 ^ (n * i) % 2 ^ n

/-- Coefficients stored as off − w (BitPack and BitUnpack). -/
def packOff (n off : Nat) (p : Poly) : Bytes := packBits n (p.toList.map fun x => (off + mlQ - x) % mlQ)
def unpackOff (n off : Nat) (b : Bytes) : Poly := ((unpackBits n 256 b).map fun x => (off + mlQ - x) % mlQ).toArray

/-- The matrix A in the transform domain, entry (r, s). -/
def expandA (rho : Bytes) (r s : Nat) : Poly :=
  let b := shake128 (rho ++ [BitVec.ofNat 8 s, BitVec.ofNat 8 r]) 1344
  let c := ((chunks 3 448 b).map fun t => leNat t % 2 ^ 23).filter fun z => decide (z < mlQ)
  (c.take 256).toArray

def expandS (rho : Bytes) (r : Nat) : Poly :=
  let b := shake256 (rho ++ toLe r 2) 816
  let c := (b.flatMap fun z => [z.toNat % 16, z.toNat / 16]).filter fun z => decide (z < 9)
  ((c.take 256).map fun z => (mlQ + 4 - z) % mlQ).toArray

def expandMask (rho : Bytes) (n : Nat) : Poly := unpackOff 20 mlG1 (shake256 (rho ++ toLe n 2) 640)

/-- The challenge polynomial: 49 coefficients of 1 or −1. -/
def sampleInBall (c : Bytes) : Poly :=
  let b := shake256 c 1096
  let signs := leNat (b.take 8)
  let step (s : Poly × List Byte) (k : Nat) : Poly × List Byte :=
    let i := 207 + k
    let rest := s.2.dropWhile fun x => decide (i < x.toNat)
    let j := ((rest.head?).getD 0).toNat
    let p := s.1.setIfInBounds i (s.1.at j)
    (p.setIfInBounds j (if signs.testBit k then mlQ - 1 else 1), rest.drop 1)
  ((List.range 49).foldl step (Array.replicate 256 0, b.drop 8)).1

/-- r1 and r0 of Decompose; r0 as its residue modulo q. -/
def decompose (r : Nat) : Nat × Nat :=
  let m := r % (2 * mlG2)
  if m ≤ mlG2 then
    if r - m = mlQ - 1 then (0, (m + mlQ - 1) % mlQ) else ((r - m) / (2 * mlG2), m)
  else
    let t := r + 2 * mlG2 - m
    if t = mlQ - 1 then (0, (m + mlQ - 2 * mlG2 - 1) % mlQ) else (t / (2 * mlG2), m + mlQ - 2 * mlG2)

def highBits (p : Poly) : Poly := poly fun i => (decompose (p.at i)).1
def lowBits (p : Poly) : Poly := poly fun i => (decompose (p.at i)).2
def w1Encode (w : List Poly) : Bytes := w.flatMap fun p => packBits 4 p.toList

/-- A matrix-vector product: A times a vector in the transform domain, out of it. -/
def mulA (rho : Bytes) (v : List Poly) : List Poly :=
  (List.range 6).map fun r =>
    (v.zipIdx).foldl (fun a p => polyAdd a (polyMul (expandA rho r p.2) p.1)) (poly fun _ => 0)

/-- An ML-DSA-65 private key taken apart. -/
structure MlKey where
  rho : Bytes
  k : Bytes
  tr : Bytes
  s1 : List Poly
  s2 : List Poly
  t0 : List Poly

def MlKey.decode (sk : Bytes) : MlKey :=
  { rho := piece sk 0 32, k := piece sk 32 32, tr := piece sk 64 64,
    s1 := (List.range 5).map fun i => unpackOff 4 4 (piece sk (128 + 128 * i) 128),
    s2 := (List.range 6).map fun i => unpackOff 4 4 (piece sk (768 + 128 * i) 128),
    t0 := (List.range 6).map fun i => unpackOff 13 4096 (piece sk (1536 + 416 * i) 416) }

/-- t = A s1 + s2, split by Power2Round: high part and low part modulo q. -/
def mlT (rho : Bytes) (s1 s2 : List Poly) : List (Poly × Poly) :=
  (((mulA rho (s1.map ntt)).map nttInv).zip s2).map fun p =>
    let t := polyAdd p.1 p.2
    let lo (r : Nat) : Nat := let m := r % 8192; if m ≤ 4096 then m else m + mlQ - 8192
    (poly fun i => (t.at i + mlQ - lo (t.at i)) % mlQ / 8192, poly fun i => lo (t.at i))

/-- Public key, 1,952 bytes. -/
def mlPack (rho : Bytes) (t : List (Poly × Poly)) : Bytes := rho ++ t.flatMap fun p => packBits 10 p.1.toList

def mldsaPublic (sk : Bytes) : Bytes :=
  let k := MlKey.decode sk
  mlPack k.rho (mlT k.rho k.s1 k.s2)

/-- Key generation from a 32-byte seed: the private key, 4,032 bytes. -/
def mldsaKeygen (xi : Bytes) : Bytes :=
  let h := shake256 (xi ++ [6, 5]) 128
  let rho := piece h 0 32
  let s1 := (List.range 5).map fun i => expandS (piece h 32 64) i
  let s2 := (List.range 6).map fun i => expandS (piece h 32 64) (5 + i)
  let t := mlT rho s1 s2
  rho ++ piece h 96 32 ++ shake256 (mlPack rho t) 64 ++ (s1 ++ s2).flatMap (packOff 4 4) ++
    t.flatMap fun p => packOff 13 4096 p.2

/-- The hints of a vector: 61 bytes. -/
def hintPack (h : List (List Bool)) : Bytes :=
  let idx (l : List Bool) : Bytes := ((l.zipIdx).filter fun p => p.1).map fun p => BitVec.ofNat 8 p.2
  let all := h.flatMap idx
  let ends := (List.range 6).map fun i => BitVec.ofNat 8 ((h.take (i + 1)).flatMap idx).length
  all ++ zeros (mlOmega - all.length) ++ ends

def hintUnpack (b : Bytes) : Option (List (List Nat)) :=
  let ends := (List.range 6).map fun i => (b.getD (mlOmega + i) 0).toNat
  let cut (i : Nat) : List Nat :=
    let lo := if i = 0 then 0 else ends.getD (i - 1) 0
    (piece b lo (ends.getD i 0 - lo)).map fun x => x.toNat
  let rising (l : List Nat) : Bool := (l.zip (l.drop 1)).all fun p => decide (p.1 < p.2)
  let okEnds := (ends.zip (ends.drop 1)).all (fun p => decide (p.1 ≤ p.2)) && ends.all fun e => decide (e ≤ mlOmega)
  let rest := piece b (ends.getD 5 0) (mlOmega - ends.getD 5 0)
  let rows := (List.range 6).map cut
  if okEnds && rest.all (fun x => x == 0) && rows.all rising then some rows else none

/-- One attempt of the signing loop. -/
def mlAttempt (k : MlKey) (mu rho : Bytes) (kappa : Nat) : Option Bytes :=
  let y := (List.range 5).map fun i => expandMask rho (kappa + i)
  let w := (mulA k.rho (y.map ntt)).map nttInv
  let c := shake256 (mu ++ w1Encode (w.map highBits)) 48
  let ch := ntt (sampleInBall c)
  let times (v : List Poly) : List Poly := v.map fun p => nttInv (polyMul ch (ntt p))
  let z := (y.zip (times k.s1)).map fun p => polyAdd p.1 p.2
  let wc := (w.zip (times k.s2)).map fun p => polySub p.1 p.2
  if (z.any fun p => decide (mlG1 - mlBeta ≤ polyNorm p)) ||
      (wc.any fun p => decide (mlG2 - mlBeta ≤ polyNorm (lowBits p))) then none
  else
    let ct0 := times k.t0
    let h := (wc.zip ct0).map fun p => (List.range 256).map fun i =>
      (decompose ((p.1.at i + p.2.at i) % mlQ)).1 != (decompose (p.1.at i)).1
    if (ct0.any fun p => decide (mlG2 ≤ polyNorm p)) || decide (mlOmega < (h.flatMap id).countP fun b => b) then none
    else some (c ++ z.flatMap (packOff 20 mlG1) ++ hintPack h)

/-- The signing loop: the signature and the attempts used. -/
def mlLoop (k : MlKey) (mu rho : Bytes) : Nat → Nat → Option (Bytes × Nat)
  | 0, _ => none
  | fuel + 1, n =>
    match mlAttempt k mu rho (5 * n) with
    | some s => some (s, n + 1)
    | none => mlLoop k mu rho fuel (n + 1)

/-- Hedged signature with an empty context: rnd is 32 random bytes; none after 256 attempts (R298). -/
def mldsaSign (sk rnd m : Bytes) : Option (Bytes × Nat) :=
  let k := MlKey.decode sk
  let mu := shake256 (k.tr ++ [0, 0] ++ m) 64
  mlLoop k mu (shake256 (k.k ++ rnd ++ mu) 64) 256 0

def mldsaVerify (pk m sig : Bytes) : Bool :=
  let rho := pk.take 32
  let c := sig.take 48
  let z := (List.range 5).map fun i => unpackOff 20 mlG1 (piece sig (48 + 640 * i) 640)
  match hintUnpack (sig.drop 3248) with
  | none => false
  | some h =>
    let mu := shake256 (shake256 pk 64 ++ [0, 0] ++ m) 64
    let ch := ntt (sampleInBall c)
    let az := mulA rho (z.map ntt)
    let w := (List.range 6).map fun i =>
      let t1 := (unpackBits 10 256 (piece pk (32 + 320 * i) 320)).map fun x => x * 8192 % mlQ
      let u := nttInv (polySub (az.getD i #[]) (polyMul ch (ntt t1.toArray)))
      let hi := h.getD i []
      poly fun j =>
        let (r1, r0) := decompose (u.at j)
        if !hi.contains j then r1
        else if 0 < r0 ∧ r0 ≤ (mlQ - 1) / 2 then (r1 + 1) % 16 else (r1 + 15) % 16
    (z.all fun p => decide (polyNorm p < mlG1 - mlBeta)) && shake256 (mu ++ w1Encode w) 48 == c

/-! ### DEFLATE (RFC 1951) -/

/-- What an inflater has done: bit position, output in reverse, and the kinds of the blocks seen. -/
structure Infl where
  pos : Nat := 0
  out : Array Byte := #[]
  kinds : List Nat := []

/-- n bits from a position, lowest first; none beyond the end. -/
def getBits (a : Array Byte) (pos n : Nat) : Option Nat :=
  if a.size * 8 < pos + n then none
  else some ((List.range n).foldl (fun v i => v + b2 ((a.getD ((pos + i) / 8) 0).getLsbD ((pos + i) % 8)) * 2 ^ i) 0)
where b2 (b : Bool) : Nat := if b then 1 else 0

/-- A canonical code: symbols by length, then by number. -/
structure Huff where
  counts : List Nat
  syms : List Nat

def Huff.make (lens : List Nat) : Huff :=
  { counts := (List.range 16).map fun l => if l = 0 then 0 else lens.countP fun x => x == l,
    syms := (List.range 16).flatMap fun l =>
      if l = 0 then [] else ((lens.zipIdx).filter fun p => p.1 == l).map fun p => p.2 }

/-- No more codes than there is room for. -/
def Huff.ok (h : Huff) : Bool :=
  decide (((h.counts.zipIdx).foldl (fun s p => s + p.1 * 2 ^ (15 - p.2)) 0) ≤ 2 ^ 15)

/-- Read one symbol: the position after it and the symbol. -/
def Huff.read (h : Huff) (a : Array Byte) : Nat → Nat → Nat → Nat → Nat → Nat → Option (Nat × Nat)
  | 0, _, _, _, _, _ => none
  | fuel + 1, len, pos, code, first, index =>
    match getBits a pos 1 with
    | none => none
    | some b =>
      let code := code + b
      let n := h.counts.getD len 0
      if code < first + n then (h.syms[index + (code - first)]?).map fun s => (pos + 1, s)
      else Huff.read h a fuel (len + 1) (pos + 1) (code * 2) ((first + n) * 2) (index + n)

def Huff.next (h : Huff) (a : Array Byte) (pos : Nat) : Option (Nat × Nat) := h.read a 15 1 pos 0 0 0

/-- Base and extra bits of a length symbol less 257. -/
def lenBase (i : Nat) : Nat × Nat :=
  if i < 8 then (3 + i, 0) else if i = 28 then (258, 0)
  else ((4 + i % 4) * 2 ^ (i / 4 - 1) + 3, i / 4 - 1)

/-- Base and extra bits of a distance symbol. -/
def distBase (i : Nat) : Nat × Nat :=
  if i < 4 then (1 + i, 0) else ((2 + i % 2) * 2 ^ (i / 2 - 1) + 1, i / 2 - 1)

/-- Copy n bytes from a distance back. -/
def copyBack (dist : Nat) : Nat → Array Byte → Array Byte
  | 0, o => o
  | n + 1, o => copyBack dist n (o.push (o.getD (o.size - dist) 0))

/-- The symbols of a compressed block up to its end. -/
def inflCodes (a : Array Byte) (l d : Huff) : Nat → Infl → Option Infl
  | 0, _ => none
  | fuel + 1, s =>
    match l.next a s.pos with
    | none => none
    | some (p, sym) =>
      if sym < 256 then inflCodes a l d fuel { s with pos := p, out := s.out.push (BitVec.ofNat 8 sym) }
      else if sym = 256 then some { s with pos := p }
      else if 286 ≤ sym then none
      else
        let (lb, le) := lenBase (sym - 257)
        match getBits a p le with
        | none => none
        | some x =>
          match d.next a (p + le) with
          | none => none
          | some (p, ds) =>
            if 30 ≤ ds then none else
            let (db, de) := distBase ds
            match getBits a p de with
            | none => none
            | some y =>
              if s.out.size < db + y ∨ 32768 < db + y then none
              else inflCodes a l d fuel { s with pos := p + de, out := copyBack (db + y) (lb + x) s.out }

/-- The code lengths of a dynamic block. -/
def readLens (a : Array Byte) (h : Huff) (n : Nat) : Nat → Nat → List Nat → Option (Nat × List Nat)
  | 0, _, _ => none
  | fuel + 1, pos, done =>
    if n < done.length then none
    else if done.length = n then some (pos, done.reverse)
    else match h.next a pos with
      | none => none
      | some (p, sym) =>
        let rep (v base bits : Nat) : Option (Nat × List Nat) :=
          match getBits a p bits with
          | none => none
          | some x => readLens a h n fuel (p + bits) (List.replicate (base + x) v ++ done)
        if sym < 16 then readLens a h n fuel p (sym :: done)
        else if sym = 16 then (match done with | [] => none | v :: _ => rep v 3 2)
        else if sym = 17 then rep 0 3 3
        else rep 0 11 7

def lensOrder : List Nat := [16, 17, 18, 0, 8, 7, 9, 6, 10, 5, 11, 4, 12, 3, 13, 2, 14, 1, 15]

def fixedLens : List Nat :=
  List.replicate 144 8 ++ List.replicate 112 9 ++ List.replicate 24 7 ++ List.replicate 8 8

/-- The two codes of a dynamic block and the position after them. -/
def readTables (a : Array Byte) (pos : Nat) : Option (Nat × Huff × Huff) :=
  match getBits a pos 5, getBits a (pos + 5) 5, getBits a (pos + 10) 4 with
  | some hl, some hd, some hc =>
    let n := hc + 4
    match (List.range n).mapM fun i => getBits a (pos + 14 + 3 * i) 3 with
    | none => none
    | some ls =>
      let lens := (List.range 19).map fun s => ((lensOrder.zip ls).find? fun p => p.1 == s).elim 0 fun p => p.2
      let h := Huff.make lens
      if !h.ok || 29 < hl then none
      else match readLens a h (hl + 257 + hd + 1) 400 (pos + 14 + 3 * n) [] with
        | none => none
        | some (p, all) =>
          let l := Huff.make (all.take (hl + 257))
          let d := Huff.make (all.drop (hl + 257))
          if l.ok && d.ok && (all.getD 256 0) != 0 then some (p, l, d) else none
  | _, _, _ => none

/-- The blocks of a stream up to the one with BFINAL set; none for a malformed or truncated stream. -/
def inflBlocks (a : Array Byte) : Nat → Infl → Option Infl
  | 0, _ => none
  | fuel + 1, s =>
    match getBits a s.pos 1, getBits a (s.pos + 1) 2 with
    | some fin, some kind =>
      let s := { s with pos := s.pos + 3, kinds := kind :: s.kinds }
      let r : Option Infl :=
        if kind = 0 then
          let p := (s.pos + 7) / 8
          match getBits a (p * 8) 16, getBits a (p * 8 + 16) 16 with
          | some len, some nlen =>
            if len + nlen ≠ 65535 ∨ a.size < p + 4 + len then none
            else some { s with pos := (p + 4 + len) * 8, out := s.out ++ a.extract (p + 4) (p + 4 + len) }
          | _, _ => none
        else if kind = 1 then
          inflCodes a (Huff.make fixedLens) (Huff.make (List.replicate 32 5)) (a.size * 8 + 1) s
        else if kind = 2 then
          match readTables a s.pos with
          | none => none
          | some (p, l, d) => inflCodes a l d (a.size * 8 + 1) { s with pos := p }
        else none
      match r with
      | none => none
      | some s => if fin = 1 then some s else inflBlocks a fuel s
    | _, _ => none

/-- A decompressed stream: its data, the input bytes consumed and the kinds of its blocks. -/
def inflate (m : Bytes) : Option (Bytes × Nat × List Nat) :=
  (inflBlocks m.toArray (m.length * 8 + 1) {}).map fun s => (s.out.toList, (s.pos + 7) / 8, s.kinds)

/-- Bits to bytes, lowest first. -/
def bitsToBytes (l : List Bool) : Bytes :=
  (List.range ((l.length + 7) / 8)).map fun i =>
    BitVec.ofNat 8 (((l.drop (8 * i)).take 8).zipIdx.foldl (fun v p => v + (if p.1 then 2 ^ p.2 else 0)) 0)

/-- A code of n bits, highest first; and a number of n bits, lowest first. -/
def codeBits (v n : Nat) : List Bool := (List.range n).map fun i => v.testBit (n - 1 - i)
def numBits (v n : Nat) : List Bool := (List.range n).map fun i => v.testBit i

/-- A stream of literals only: one fixed block, or one dynamic block in which bytes below 255 have 8-bit codes. -/
def literalStream (dyn : Bool) (m : Bytes) : Bytes :=
  let fixedSym (v : Nat) : List Bool := if v < 144 then codeBits (48 + v) 8 else codeBits (400 + (v - 144)) 9
  let dynSym (v : Nat) : List Bool := if v < 255 then codeBits v 8 else codeBits (510 + (v - 255)) 9
  if dyn then
    let lens := [0, 0, 0, 2, 1, 0, 2].flatMap fun v => numBits v 3
    bitsToBytes (numBits 5 3 ++ numBits 0 5 ++ numBits 0 5 ++ numBits 3 4 ++ lens ++
      List.replicate 255 false ++ codeBits 3 2 ++ codeBits 3 2 ++ codeBits 2 2 ++
      (m.flatMap fun b => dynSym b.toNat) ++ dynSym 256)
  else bitsToBytes (numBits 3 3 ++ (m.flatMap fun b => fixedSym b.toNat) ++ codeBits 0 7)

/-- The stream a compression writes (R299; log entry 31): the engine's choice when it is a complete stream of the
operation's kind for the input, else literals only. -/
def compressed (dyn : Bool) (m : Bytes) : Bytes :=
  let kind := if dyn then 2 else 1
  let c := Config.deflated kind m
  match inflate c with
  | some (d, used, kinds) =>
    if d = m ∧ used = c.length ∧ kinds.all (fun k => k == kind) then c else literalStream dyn m
  | none => literalStream dyn m

end Sys2Proof.Machine
end

