-- ==== Sys2Proof/Machine/Health.lean ====
section
/-! DEFINITION. The trim in force, the backstay pool, and the HEALTH pin with the conditions behind it (R373, R398, R425,
R431 to R433, R495). -/

namespace Sys2Proof.Machine

/-! ### Modes and trims -/

def Mode.toNat : Mode → Nat
  | .m0 => 0 | .m1 => 1 | .m2 => 2 | .m3 => 3 | .m4 => 4 | .m5 => 5 | .m6 => 6 | .m7 => 7

def modeOf : Nat → Mode
  | 1 => .m1 | 2 => .m2 | 3 => .m3 | 4 => .m4 | 5 => .m5 | 6 => .m6 | 7 => .m7 | _ => .m0

/-- The backstay pool that a trim with no pool of its own has (R425). -/
def defaultPool (m : Nat) : List Nat := if m = 6 then [60, 61, 62, 63] else [3, 19, 35, 51]

/-- Quads that run in a mode when no trim names them, and their level (R373; log entry 40). -/
def defaultQuads (m : Nat) : Nat := [0, 1, 4, 8, 16, 16, 16, 16].getD m 0
def defaultLevel (m q : Nat) : Nat :=
  if m = 5 then (if q < 4 then 7 else 3) else [0, 1, 2, 3, 5, 5, 4, 5].getD m 0

/-- Bits of a list of numbers. -/
def bitsOf (l : List Nat) : Nat := l.foldl (fun m i => m ||| 2 ^ i) 0

def range' (a n : Nat) : List Nat := (List.range n).map fun i => a + i

/-- The mode definition of a mode that the plan gives none (log entry 40). -/
def defaultMode (m : Nat) : ModeDef :=
  let n := defaultQuads m
  let pool := defaultPool m
  let cores := (List.range (4 * n)).filter fun p => !pool.contains p
  let place := (List.range 64).map fun l =>
    if m = 6 then (if l < 30 then (2 * l, 2 * l + 1) else (0x7F, 0x7F)) else (cores.getD l 0x7F, 0x7F)
  let units := if m = 0 then [] else
    [2] ++ range' 83 10 ++ [97, 103, 106] ++ (if m = 1 then [93, 94, 95, 96, 98, 100] else range' 93 4 ++ [98, 99, 100, 101, 102, 104, 105])
  { mode := m
    domains := bitsOf (units ++ range' 67 n ++ range' 3 (4 * n))
    reef := (List.range 16).foldl (fun a q => a + (if q < n then defaultLevel m q else 15) * 16 ^ q) 0
    place := place
    guardMa := 0
    pool := pool }

/-- The mode definition of a trim of the plan in force. -/
def State.trimDef (s : State) (m : Nat) : ModeDef :=
  match s.fe.plan.modes.find? fun d => d.mode == m with
  | some d => if d.pool.all fun p => p == 0x7F then { d with pool := defaultPool m } else d
  | none => defaultMode m

def ModeDef.quadOn (d : ModeDef) (q : Nat) : Bool := d.reef / 16 ^ q % 16 != 15
def ModeDef.level (d : ModeDef) (q : Nat) : Nat := d.reef / 16 ^ q % 16
/-- Where a logical core is placed. -/
def ModeDef.placeOf (d : ModeDef) (l : Nat) : Option Nat :=
  let p := (d.place.getD l (0x7F, 0x7F)).1
  if p = 0x7F then none else some p
def ModeDef.partnerOf (d : ModeDef) (l : Nat) : Option Nat :=
  let p := (d.place.getD l (0x7F, 0x7F)).2
  if p = 0x7F then none else some p

/-! ### The backstay pool (R425) -/

/-- The physical core that carries a logical core. -/
def State.placeOf (s : State) (l : Nat) : Option Nat := s.fe.place.get none l

/-- The logical core that a physical core carries. -/
def State.carried (s : State) (p : Nat) : Option Nat := (s.fe.place.find? fun e => e.2 == some p).map fun e => e.1

/-- The lead of the pair that a physical core is the partner of. -/
def State.leadOf (s : State) (p : Nat) : Option Nat := (s.fe.partner.find? fun e => e.2 == some p).map fun e => e.1

/-- Backstay cores that are free, in rising order. -/
def State.freeBackstays (s : State) : List Nat :=
  let pool := (s.trimDef s.fe.trim).pool ++ s.fe.returned
  (List.range 64).filter fun p =>
    pool.contains p && !s.fe.quarantined.contains p && (s.carried p).isNone && (s.leadOf p).isNone

/-- Hops between two stops of the mesh (R22). -/
def hops (a b : Nat) : Nat :=
  let d (x y : Nat) : Nat := (x - y) + (y - x)
  d (a % 6) (b % 6) + d (a / 6) (b / 6)

/-- The backstay core for a migration from a quad (R425). -/
def State.pickBackstay (s : State) (q : Nat) : Option Nat :=
  let free := s.freeBackstays
  let near (l : List Nat) : Option Nat :=
    l.foldl (fun b p => match b with
      | none => some p
      | some x => if hops (quadStop q) (quadStop (p / 4)) < hops (quadStop q) (quadStop (x / 4)) then some p else some x) none
  match near (free.filter fun p => p / 4 == q) with
  | some p => some p
  | none =>
    match near (free.filter fun p => s.pdOn.contains (67 + p / 4)) with
    | some p => some p
    | none => near free

/-! ### Health (R431 to R433) -/

/-- Ticks of 24 h, of 60 s and of 10 s of Mast time. -/
def ticks24h : Nat := 2831155200
def ticks60s : Nat := 1966080
def ticks10s : Nat := 327680

/-- HEALTH_STAT[13:4] from the conditions. -/
def State.healthBits (s : State) : Nat :=
  let st (f : Fld) (b : Bool) : Nat := if b then 2 ^ f.lo else 0
  st .HEALTH_STAT_FETAS (!s.fe.fw.a.valid || !s.fe.fw.b.valid ||
      decide (3 ≤ (s.fe.lockstep.filter fun t => decide (s.ticksSince t < ticks24h)).length)) +
  st .HEALTH_STAT_SPLIT (!s.fe.split.isEmpty) +
  st .HEALTH_STAT_PATH (!s.fe.pathOut.isEmpty) +
  st .HEALTH_STAT_PLLREF (!s.fe.lastRef.isEmpty) +
  st .HEALTH_STAT_UNIT (!s.fe.unrepaired.isEmpty || !s.fe.l3Degraded.isEmpty) +
  st .HEALTH_STAT_MRAM ((List.range 4).any fun d => decide (s.fld .MR_DIE [d] .MR_DIE_SPARES_FREE < 256)) +
  st .HEALTH_STAT_DRAM ((List.range 2).any fun g => flag (s.reg .MG_STATUS [g]) .MG_STATUS_DEGRADED) +
  st .HEALTH_STAT_BACKSTAY (decide (s.freeBackstays.length ≤ 1)) +
  st .HEALTH_STAT_CLOCK (flag (s.reg .MAST_MODE) .MAST_MODE_XT_FAIL) +
  st .HEALTH_STAT_QUAR (!s.fe.held.isEmpty)

def State.setHealth (s : State) (v : Nat) : State := s.setReg .HEALTH_STAT [] (BitVec.ofNat 64 v)

def State.healthPin (s : State) : Nat := s.fld .HEALTH_STAT [] .HEALTH_STAT_PIN

def State.healthEvent (s : State) : State := s.feEvent 0x0680 [s.healthPin, s.freeBackstays.length]

/-- Fetas evaluates the conditions: one that arises drives the pin low, and HEALTH_CHANGE is queued. Nothing is
evaluated before the first evaluation of a boot (R433). -/
def State.healthEval (s : State) : State :=
  if !s.fe.healthKnown then s else
  let old := s.reg .HEALTH_STAT
  let new := s.healthBits
  let risen := BitVec.ofNat 64 new &&& ~~~old
  let s := s.setHealth (if new = 0 then b2n (old.getLsbD 0) else new)
  let s := { s with fe := { s.fe with healthClear :=
    if new ≠ 0 then none else if old.getLsbD 0 then none else some (s.fe.healthClear.getD s.tick) } }
  if risen ≠ 0 then s.healthEvent else s

/-- The first evaluation after PD 0 powers up: the pin goes high at once if no condition holds (R433). -/
def State.healthFirst (s : State) : State :=
  if s.fe.healthKnown then s.healthEval else
  let new := s.healthBits
  let s := { s with fe := { s.fe with healthKnown := true } }
  s.setHealth (if new = 0 then 1 else new)

end Sys2Proof.Machine
end

