-- ==== Sys2Proof/Machine/MemCtl.lean ====
section
/-! DEFINITION. The controllers of the DRAM groups and of the MRAM (chapter 9): their logs, the symbol code and the
location of a failing die, poison and encryption, and what one read or one verified write of a sector does. -/

namespace Sys2Proof.Machine

/-! ### Dies and logs (R251, R259) -/

/-- The MRAM die of a sector (R251). -/
def mramDie (n : Nat) : Nat := n / 4 % 4

/-- An error of a memory group is logged, counted and reported (R259; log entry 24 for the field that counts it). -/
def State.logMg (s : State) (g kind ch sec : Nat) : State :=
  let s := s.count .memory
  let s := if kind = 3 ∨ kind = 4 ∨ kind = 7 then s.countFld .MG_ERR_COUNT [g] .MG_ERR_COUNT_UE
    else s.countFld .MG_ERR_COUNT [g] .MG_ERR_COUNT_CE
  match s.capture .MG_ERR_STATUS [g] (kind * 2 ^ 28 + ch * 2 ^ 24 + sec % 4 * 2 ^ 22) with
  | (true, s) =>
    let pa := sec / 4 * 256
    (s.setReg .MG_ERR_ADDR_LO [g] (BitVec.ofNat 64 (pa % 2 ^ 32))).setReg .MG_ERR_ADDR_HI [g] (BitVec.ofNat 64 (pa / 2 ^ 32))
  | (false, s) => s

/-- An MRAM error is logged, counted and reported (R259; log entry 24). -/
def State.logMr (s : State) (kind die sec : Nat) : State :=
  let s := s.count .mram
  let s := if kind = 2 ∨ kind = 3 ∨ kind = 6 then s.countFld .MR_ERR_COUNT [] .MR_ERR_COUNT_UE
    else s.countFld .MR_ERR_COUNT [] .MR_ERR_COUNT_CE
  match s.capture .MR_ERR_STATUS [] (kind * 2 ^ 28 + die * 2 ^ 26 + sec % 4 * 2 ^ 22) with
  | (true, s) =>
    let pa := sec / 4 * 256
    (s.setReg .MR_ERR_ADDR_LO [] (BitVec.ofNat 64 (pa % 2 ^ 32))).setReg .MR_ERR_ADDR_HI [] (BitVec.ofNat 64 (pa / 2 ^ 32))
  | (false, s) => s

/-- The check die of a group has failed, so its poison is kept in the poison list (R240). -/
def State.checkFailed (s : State) (g : Nat) : Bool := s.fld .MG_STATUS [g] .MG_STATUS_FAILED == 8

/-- Entries used in the poison list of a group. DESIGN CHOICE (log entry 94): a sector that was stored as the poison pattern
before the check die failed counts as an entry from then on, so the list may hold more than the 256 it takes by writes. -/
def State.poisonListed (s : State) (g : Nat) : List Nat :=
  if s.checkFailed g then s.poisoned.filter fun n => inDram (n * 64) && groupOf n == g else []

/-- A memory group and its dies are powered. -/
def State.groupUp (s : State) (g : Nat) : Bool := s.pdUp (93 + 2 * g) && s.pdUp (94 + 2 * g)

/-! ### The symbol code (R236 to R239) -/

/-- Multiplication by α in GF(2^8) with x^8 + x^4 + x^3 + x^2 + 1. -/
def gfDouble (x : Byte) : Byte := (x <<< 1) ^^^ (if x.msb then 0x1D#8 else 0)

/-- α^i times a byte. -/
def gfScale : Nat → Byte → Byte
  | 0, x => x
  | i + 1, x => gfScale i (gfDouble x)

/-- Errors of a burst: beat (0 to 15), byte position (0 to 17), and the bits inverted. -/
abbrev BurstErrs := List (Fin 16 × Fin 18 × BitVec 8)

/-- An error of a received word: beat, position, bits. -/
abbrev ErrList := List (Nat × Nat × Byte)

/-- The errors of one beat. -/
def beatErrs (l : ErrList) (beat : Nat) : List (Nat × Byte) := l.filterMap fun x => if x.1 = beat then some x.2 else none

/-- Syndromes S0 and S1 of a beat; the stored word contributes zero. -/
def synd (l : List (Nat × Byte)) : Byte × Byte :=
  l.foldl (fun p x => (p.1 ^^^ x.2, p.2 ^^^ gfScale x.1 x.2)) (0, 0)

/-- The position whose error explains a beat: S0 ≠ 0 and S1 = α^j S0. -/
def locate (p : Byte × Byte) : Option Nat :=
  if p.1 = 0 then none else (List.range 18).find? fun j => gfScale j p.1 == p.2

/-- The bytes x and y at positions a and a + 1 with given syndromes: x + y = S0 and α^a x + α^(a+1) y = S1. -/
def solvePair (a : Nat) (p : Byte × Byte) : Byte × Byte :=
  let y := (List.range 256).findSome? fun v =>
    let y : Byte := BitVec.ofNat 8 v
    if gfScale a (p.1 ^^^ y) ^^^ gfScale (a + 1) y = p.2 then some y else none
  (p.1 ^^^ y.getD 0, y.getD 0)

/-- How a sector of a group that is not degraded decodes, poison apart. -/
inductive Decoded where
  | clean
  /-- corrected, by the bytes given: beat, position, bits -/
  | corrected (die : Nat) (fix : ErrList)
  | other
  deriving DecidableEq, Repr

/-- Decode the four beats of sector k of a block (R237). -/
def decodeSec (e : ErrList) (k : Nat) : Decoded :=
  let beats := (List.range 4).map fun i => (k * 4 + i, synd (beatErrs e (k * 4 + i)))
  let bad := beats.filter fun b => b.2.1 != 0 || b.2.2 != 0
  if bad.isEmpty then .clean
  else
    let fixes := bad.map fun b => (locate b.2).map fun j => (b.1, j, b.2.1)
    if fixes.any Option.isNone then .other
    else
      let fs := fixes.filterMap id
      match fs with
      | [] => .clean
      | f :: _ => if fs.all fun g => g.2.1 / 2 == f.2.1 / 2 then .corrected (f.2.1 / 2) fs else .other

/-- Bits that errors and corrections of data bytes invert in a sector: byte o of the block travels in beat o div 16 at
position o mod 16. -/
def flipBits (k : Nat) (l : ErrList) : BitVec 512 :=
  l.foldl (fun (d : BitVec 512) x =>
    let b := BitVec.ofNat 512 (x.2.2.toNat * 256 ^ (x.1 % 4 * 16 + x.2.1))
    if x.1 / 4 = k ∧ x.2.1 < 16 then d ^^^ b else d) 0

/-- The errors of a burst that fall into sector k. -/
def errList (e : BurstErrs) (k : Nat) : ErrList :=
  (e.map fun x => (x.1.val, x.2.1.val, x.2.2)).filter fun x => x.1 / 4 == k && x.2.2 != 0

/-- What is wrong in a sector after the failed die's bytes were computed from the others (R239): the errors of the other
dies, and the bytes they make of the erased pair. -/
def erasureWrong (e : ErrList) (k f : Nat) : ErrList :=
  (List.range 4).flatMap fun i =>
    let beat := k * 4 + i
    let others := (beatErrs e beat).filter fun x => x.1 / 2 != f
    let p := solvePair (2 * f) (synd others)
    (others.map fun x => (beat, x.1, x.2)) ++ [(beat, 2 * f, p.1), (beat, 2 * f + 1, p.2)]

/-! ### The poison pattern and encryption (R240, R249) -/

/-- The poison pattern against the codewords of zeros: the check bytes of every beat of sector k. -/
def patternErrs (k : Nat) : ErrList := (List.range 4).flatMap fun i => [(k * 4 + i, 16, 0x5A#8), (k * 4 + i, 17, 0xA5#8)]

/-- A sector whose dies hold raw, read with errors e, shows the poison pattern, the bytes of die f ignored (R240). -/
def isPattern (raw : BitVec 512) (e : ErrList) (k : Nat) (f : Option Nat) : Bool :=
  (List.range 4).all fun i =>
    let data (j : Nat) : Byte := BitVec.ofNat 8 (raw.toNat / 256 ^ (i * 16 + j))
    let errs := beatErrs e (k * 4 + i)
    let err (j : Nat) : Byte := errs.foldl (fun b x => if x.1 = j then b ^^^ x.2 else b) 0
    ((List.range 16).all fun j => f == some (j / 2) || data j == err j) &&
      (f == some 8 ||
        (let chk := solvePair 16 (synd ((List.range 16).map fun j => (j, data j)))
         (chk.1 ^^^ err 16 == 0x5A#8) && (chk.2 ^^^ err 17 == 0xA5#8)))

/-- The 64 bytes of a memory key, by its identity (log entry 23). -/
def keyBytes (id : Nat) : Bytes := toLe (if 2 ^ 600 ≤ id then id - 2 ^ 600 else (Config.memKey id).toNat) 64

/-- A sector encrypted or decrypted under a key, as keyAt numbers it (R249). The data unit's number is PA[45:6]. -/
def xtsSec (enc : Bool) (key n : Nat) (d : BitVec 512) : BitVec 512 :=
  match key with
  | 0 => d
  | k + 1 => BitVec.ofNat 512 (leNat (xts enc (keyBytes k) (n % 2 ^ 40) (toLe d.toNat 64)))

/-- The data of a sector as its dies hold it. -/
def State.rawSec (s : State) (n : Nat) : BitVec 512 :=
  if s.poisoned.contains n && inDram (n * 64) then 0
  else xtsSec true (s.dram.writtenKey.get 0 n) n (BitVec.ofNat 512 (Memory.readN s.mem (n * 64) 64))

/-- What a read gives when bits of a sector stay inverted after correction: they act before decryption (R249). -/
def State.secFlipped (s : State) (n : Nat) (flips : BitVec 512) : BitVec 512 :=
  let was := s.dram.writtenKey.get 0 n
  if flips = 0 ∧ !s.poisoned.contains n then s.memSec n
  else if was ≠ s.keyAt n ∧ !s.poisoned.contains n then
    Config.wrongKey was (s.keyAt n) (BitVec.ofNat 512 (Memory.readN s.mem (n * 64) 64) ^^^ flips) n
  else xtsSec false (s.keyAt n) n (s.rawSec n ^^^ flips)

/-- A die of a group is marked failed: the group becomes degraded, or failed when another was before (R238, R239). -/
def State.markDie (s : State) (g ch : Nat) : State :=
  let r := s.reg .MG_STATUS [g]
  let s := { s with fe := { s.fe with tested := s.fe.tested.erase (5, g * 16 + ch) } }
  if !flag r .MG_STATUS_DEGRADED then
    (((s.setReg .MG_STATUS [g] (putBits (putBits r .MG_STATUS_DEGRADED 1) .MG_STATUS_FAILED ch)).pulse (322 + g)).feEvent
      0x0683 [g + ch * 16]).healthEval
  else if bits r .MG_STATUS_FAILED = ch ∨ s.dram.failed.contains g then s
  else (({ s with dram := { s.dram with failed := insertRising g s.dram.failed, second := s.dram.second.set 0 g ch } }.pulse (322 + g)).feEvent
      0x0683 [g + ch * 16 + 256]).healthEval

/-- A corrected error's time is kept; 32 within 10 ms in a group not degraded make its active set stale (R245). -/
def State.noteCe (s : State) (g : Nat) : State :=
  if flag (s.reg .MG_STATUS [g]) .MG_STATUS_DEGRADED then s
  else
    let l := ((s.dram.ceTimes.get [] g) ++ [s.time]).filter fun t => decide (s.time < t + 10000000)
    let s := { s with dram := { s.dram with ceTimes := s.dram.ceTimes.set [] g l } }
    if 32 ≤ l.length ∧ (s.dram.retrain.get [] g).isEmpty then
      { s with dram := { s.dram with retrain := s.dram.retrain.set [] g (List.range 9) } }
    else s

/-- How the read of a DRAM sector ends (R237 to R240). -/
inductive ReadEnd where
  | good
  /-- corrected by the symbol code, in one die -/
  | fixed (die : Nat)
  /-- stored as poison, or listed -/
  | poison
  /-- beyond the code, or of a failed group -/
  | lost
  deriving DecidableEq, Repr

def ReadEnd.bad (r : ReadEnd) : Bool := r == .poison || r == .lost

/-- A sector of a group with a failed die f, read with errors e relative to codewords (R239, R240). What a failed check die held
cannot be read, so poison is then known by the list (log entry 94). -/
def State.degradedRead (s : State) (n k : Nat) (e : ErrList) (f : Nat) : (BitVec 512 × ReadEnd) × State :=
  if (if f = 8 then s.poisoned.contains n else isPattern (s.rawSec n) e k (some f)) then ((0, .poison), s.logMg (groupOf n) 4 0xF n)
  else ((s.secFlipped n (flipBits k (erasureWrong e k f)), .good), s)

/-- One sector of a returned burst: its data and how its read ends, with what the decoder logs and marks.
pattern: the dies that returned a wrong calibration pattern on both reads of R238. -/
def State.decodeBurst (s : State) (block k : Nat) (e : BurstErrs) (pattern : BitVec 9) : (BitVec 512 × ReadEnd) × State :=
  let n := block * 4 + k
  let g := groupOf n
  let r := s.reg .MG_STATUS [g]
  if s.dram.failed.contains g then ((0, .lost), s)
  else if s.poisoned.contains n && (s.checkFailed g || (errList e k).isEmpty) then ((0, .poison), s.logMg g 4 0xF n)
  else
    let e := errList e k ++ (if s.poisoned.contains n then patternErrs k else [])
    if flag r .MG_STATUS_DEGRADED then s.degradedRead n k e (bits r .MG_STATUS_FAILED)
    else if !e.isEmpty && isPattern (s.rawSec n) e k none then ((0, .poison), s.logMg g 4 0xF n)
    else
      match decodeSec e k with
      | .clean => ((s.secFlipped n (flipBits k e), .good), s)
      | .corrected die fix => ((s.secFlipped n (flipBits k (e ++ fix)), .fixed die), (s.logMg g 1 die n).noteCe g)
      | .other =>
        match (List.range 9).filter fun c => pattern.getLsbD c with
        | [c] => ((s.markDie g c).logMg g 2 c n).degradedRead n k e c
        | _ => ((0, .lost), s.logMg g 3 0xF n)

/-- One sector of a returned burst: its data and whether it is poisoned. -/
def State.decodeRead (s : State) (block k : Nat) (e : BurstErrs) (pattern : BitVec 9) : (BitVec 512 × Bool) × State :=
  match s.decodeBurst block k e pattern with
  | ((d, r), s) => ((d, r.bad), s)

/-! ### MRAM sectors (R252 to R254) -/

/-- What a read of an MRAM sector with bit errors returns (R253). -/
def State.mramDecode (s : State) (n errs : Nat) : (BitVec 512 × Bool) × State :=
  if 4 < errs then ((0, true), s.logMr 2 (mramDie n) n)
  else
    let s := if 0 < errs then s.logMr 1 (mramDie n) n else s
    if s.poisoned.contains n then ((s.memSec n, true), s.logMr 3 (mramDie n) n) else ((s.memSec n, false), s)

/-- The data of an accepted write is poisoned on its die; the newest data stays when a later write of the sector has been
accepted (R252, R254). -/
def State.mramSpoil (s : State) (w : MramWrite) : State :=
  match (s.mramQ.dropWhile fun v => v.id != w.id).drop 1 |>.find? fun v => v.sec == w.sec with
  | some v => { s with mramQ := s.mramQ.map fun u => if u.id = v.id then { u with oldPoison := true } else u }
  | none => s.setMemSec w.sec (s.memSec w.sec) true

/-- A block is remapped to a spare, or with none left the sector is poisoned (R254). -/
def State.mramRemap (s : State) (w : MramWrite) : State :=
  let n := w.sec
  let die := mramDie n
  let free := s.fld .MR_DIE [die] .MR_DIE_SPARES_FREE
  if free = 0 then (s.mramSpoil w).logMr 6 die n
  else
    let s := (s.setFld .MR_DIE [die] .MR_DIE_SPARES_FREE (free - 1)).logMr 5 die n
    let st := s.reg .MR_STATUS
    let low := bits st .MR_STATUS_LOW_SPARES
    let exh := bits st .MR_STATUS_EXHAUSTED
    let low' := if free - 1 < 256 then low ||| 2 ^ die else low
    let exh' := if free = 1 then exh ||| 2 ^ die else exh
    let s := s.setReg .MR_STATUS [] (putBits (putBits st .MR_STATUS_LOW_SPARES low') .MR_STATUS_EXHAUSTED exh')
    (if low' ≠ low ∨ exh' ≠ exh then s.pulse 325 else s).healthEval

end Sys2Proof.Machine
end

