-- ==== Sys2Proof/Machine/Coherence.lean ====
section
/-! DEFINITION. Caches, random replacement and the MOESI protocol between quads and home slices (chapter 7). Sectors
are named by their number: the physical address divided by 64. -/

namespace Sys2Proof.Machine

/-! ### Geometry and replacement (R174, R178, R179) -/

inductive CacheKind where
  | l1 | l2 | l3
  deriving DecidableEq, Repr

def CacheKind.ways : CacheKind → Nat
  | .l1 => 4
  | _ => 16

def CacheKind.sectors : CacheKind → Nat
  | .l1 => 2
  | _ => 4

/-- Set index of a sector (R174). -/
def CacheKind.set : CacheKind → Nat → Nat
  | .l1, n => n / 2 % 64
  | .l2, n => n / 4 % 512
  | .l3, n => n / 32 % 1024

def CacheKind.sets : CacheKind → Nat
  | .l1 => 64
  | .l2 => 512
  | .l3 => 1024

/-- One shift step of a replacement generator (R178). -/
def lfsrShift (s : BitVec 16) : BitVec 16 :=
  (s <<< 1) ||| BitVec.ofNat 16 (b2n (s.getLsbD 15 ^^ s.getLsbD 13 ^^ s.getLsbD 12 ^^ s.getLsbD 10))

/-- One advance: sixteen shift steps (R178). -/
def lfsrAdvance (s : BitVec 16) : BitVec 16 := Nat.repeat lfsrShift 16 s

/-- The way an advanced generator picks among the permitted ways (R179). -/
def pickWay (s : BitVec 16) (permitted : List Nat) : Nat := permitted.getD (s.toNat * permitted.length / 65536) 0

/-- Number of a frame: set and way. -/
def frameNo (set way : Nat) : Nat := set * 16 + way

def Cache.frame (c : Cache) (f : Nat) : Option Frame := c.frames.get none f
def Cache.setFrame (c : Cache) (f : Nat) (v : Option Frame) : Cache := { c with frames := c.frames.set none f v }

/-- The frame that holds a sector's block. -/
def Cache.find (kd : CacheKind) (c : Cache) (n : Nat) : Option Nat :=
  ((List.range kd.ways).map fun w => frameNo (kd.set n) w).find? fun f =>
    match c.frame f with
    | some fr => fr.block == n / kd.sectors
    | none => false

/-- The sector entry of a sector whose block is resident. -/
def Cache.sec (kd : CacheKind) (c : Cache) (n : Nat) : Option Sec :=
  match c.find kd n with
  | some f => (c.frame f).map fun fr => fr.secs.get {} (n % kd.sectors)
  | none => none

/-- The sector entry, invalid when the block is not resident. -/
def Cache.secD (kd : CacheKind) (c : Cache) (n : Nat) : Sec := (c.sec kd n).getD {}

/-- Change the sector entry of a resident block. -/
def Cache.updSec (kd : CacheKind) (c : Cache) (n : Nat) (g : Sec → Sec) : Cache :=
  match c.find kd n with
  | some f => match c.frame f with
    | some fr =>
      c.setFrame f (some { fr with secs := fr.secs.set {} (n % kd.sectors) (g (fr.secs.get {} (n % kd.sectors))) })
    | none => c
  | none => c

/-- Choose the frame of an allocation among a group's ways that are not retired; none when every way is retired. -/
def Cache.choose (kd : CacheKind) (c : Cache) (n : Nat) (group : List Nat) : Option Nat × Cache :=
  let permitted := group.filter fun w => !c.retired.contains (frameNo (kd.set n) w)
  let s := lfsrAdvance c.lfsr
  if permitted.isEmpty then (none, c) else (some (frameNo (kd.set n) (pickWay s permitted)), { c with lfsr := s })

/-- The four or two sector numbers of a block with the entries a frame holds for them. -/
def Frame.list (kd : CacheKind) (fr : Frame) : List (Nat × Sec) :=
  (List.range kd.sectors).map fun i => (fr.block * kd.sectors + i, fr.secs.get {} i)

/-! ### Inside a quad (R175, R176) -/

def State.updQuad (s : State) (q : Nat) (f : Quad → Quad) : State := s.setQuad q (f (s.quad q))
def State.updHome (s : State) (h : Nat) (f : Home → Home) : State := s.setHome h (f (s.home h))
def State.updL2 (s : State) (q : Nat) (f : Cache → Cache) : State := s.updQuad q fun k => { k with l2 := f k.l2 }
def State.updL3 (s : State) (h : Nat) (f : Cache → Cache) : State := s.updHome h fun k => { k with l3 := f k.l3 }

/-- The cores of a quad. -/
def coresOf (q : Nat) : List (Fin 64) := (List.range 4).map fun i => Fin.ofNat 64 (q * 4 + i)

/-- A core loses a sector of its L1D: the reservation on it and its hold end (R64). -/
def Core.lostSector (k : Core) (n : Nat) : Core :=
  { k with resv := if k.resv = some n then none else k.resv, hold := if k.hold = some n then none else k.hold }

/-- Dirty data of an L1D copy goes to the L2 (R176). -/
def Sec.takeDirty (x e : Sec) : Sec :=
  { x with dv := true, data := e.data, poison := e.poison, st := if x.st = .e then .m else x.st }

/-- Remove a sector from a core's L1D; dirty data goes to the L2 (R176). -/
def State.l1dDrop (s : State) (c : Fin 64) (n : Nat) : State :=
  match (s.core c).l1d.sec .l1 n with
  | none => s
  | some e =>
    if e.st = .i then s else
    let s := if e.st = .m then s.updL2 (quadOf c) fun l => l.updSec .l2 n fun x => x.takeDirty e else s
    let s := s.updCore c fun k => { k with l1d := k.l1d.updSec .l1 n fun _ => {} }.lostSector n
    s.updL2 (quadOf c) fun l => l.updSec .l2 n fun x => { x with pres := x.pres &&& ~~~(1#16 <<< (c.val % 4)) }

/-- Make a core's L1D copy read-only or clean; dirty data goes to the L2. -/
def State.l1dDown (s : State) (c : Fin 64) (n : Nat) (st : CSt) : State :=
  match (s.core c).l1d.sec .l1 n with
  | none => s
  | some e =>
    if e.st = .i ∨ e.st = .s then s else
    let s := if e.st = .m then s.updL2 (quadOf c) fun l => l.updSec .l2 n fun x => x.takeDirty e else s
    s.updCore c fun k => { k with l1d := k.l1d.updSec .l1 n fun x => { x with st := st } }

/-- Remove a sector from a core's L1I. -/
def State.l1iDrop (s : State) (c : Fin 64) (n : Nat) : State :=
  s.updCore c fun k => { k with l1i := k.l1i.updSec .l1 n fun _ => {} }

/-- Remove a sector from every L1I. -/
def State.l1iDropAll (s : State) (n : Nat) : State :=
  (List.range 64).foldl (fun s i =>
    if ((s.core (Fin.ofNat 64 i)).l1i.find .l1 n).isSome then s.l1iDrop (Fin.ofNat 64 i) n else s) s

/-! ### Packets (R22, R23, R184) -/

/-- The home slice of a sector. -/
def homeSec (n : Nat) : Nat := homeOf (n * 64)

/-- The mesh class of a packet: 0 REQ, 1 SNP, 2 RSP, 3 DAT (R22, R184). -/
def MsgKind.mesh : MsgKind → Nat
  | .rd | .rfo | .upg | .zreq | .wbreq | .evc | .cln | .inv | .fls | .ucr | .ucw | .evict | .reclaim => 0
  | .snpS | .snpI | .snpIdiscard | .snpC => 1
  | .wbgo | .grant | .done | .ack | .miss | .wbcancel => 2
  | .data => 3

/-- Two packets of one class between the same stops in the same direction (R23). -/
def Msg.samePath (a b : Msg) : Bool :=
  a.kind.mesh == b.kind.mesh && a.quad == b.quad && a.toHome == b.toHome && homeSec a.sec == homeSec b.sec

/-- A packet in flight is the one a command names, whatever its requester within the stop, its class if it is a request
that allocates nothing, and what only this model marks on it. -/
def Msg.matches (a m : Msg) : Bool :=
  let cls := match m.kind with
    | .rd | .rfo | .upg | .zreq => m.cls
    | _ => a.cls
  m == { a with core := m.core, uc := m.uc, expect := m.expect, pid := m.pid, cls := cls,
                mask := if m.kind = .grant ∨ m.kind = .done then m.mask else a.mask,
                data := if m.kind = .done then m.data else a.data,
                cmask := if m.kind = .wbgo then m.cmask else a.cmask,
                excl := if m.kind = .done ∨ m.kind = .ucw ∨ m.kind = .wbreq then m.excl else a.excl }

/-- Send a packet. -/
def State.send (s : State) (m : Msg) : State := { s with net := s.net ++ [m] }

/-- A packet brings a quad the data or the ownership of a sector. -/
def Msg.fills (m : Msg) (q n : Nat) : Bool :=
  m.quad == q && m.sec == n && !m.toHome && !m.uc && (m.kind == .data || m.kind == .grant)

/-- A request of a quad for a sector's data or ownership is under way: at its home, or its answer in flight. -/
def State.fillPending (s : State) (q n : Nat) : Bool :=
  let asks (m : Msg) : Bool := m.quad == q && m.sec == n &&
    (m.kind == .rd || m.kind == .rfo || m.kind == .upg || m.kind == .zreq)
  let k := s.home (homeSec n)
  (s.net.any fun m => asks m || m.fills q n) || ((s.quad q).fills.any fun m => m.sec == n) ||
    (k.trans.any fun t => asks t.req) || k.waiting.any asks

/-- The home still works on a request of a stop for a sector. -/
def State.pendingAt (s : State) (kind : MsgKind) (q n : Nat) : Bool :=
  (s.net.any fun m => m.kind == kind && m.quad == q && m.sec == n) ||
  ((s.home (homeSec n)).trans.any fun t => t.req.kind == kind && t.req.sec == n && t.req.quad == q) ||
  (s.home (homeSec n)).waiting.any fun m => m.kind == kind && m.sec == n && m.quad == q

/-- A core of a quad holds back snoops of a sector (R65). -/
def State.heldBack (s : State) (q n : Nat) : Bool := (coresOf q).any fun c => (s.core c).hold == some n

/-- The memory that holds a sector answers: its controller and the router of its stop are powered (R30, R37, R40). -/
def State.memUp (s : State) (n : Nat) : Bool :=
  if inMram (n * 64) then s.pdUp 97 && s.stopUp 5
  else s.groupUp (groupOf n) && s.stopUp (if groupOf n = 0 then 12 else 17)

/-- The home of a sector answers: its domain and the router of its stop are powered (R30, R37, R40). -/
def State.homeUp (s : State) (n : Nat) : Bool := s.pdUp (83 + homeSec n) && s.stopUp (homeStop (homeSec n))

/-- An access to a sector is answered: by its home, and by the memory behind it unless the home has the data or a quad owns
it (R30). -/
def State.homeAnswers (s : State) (n : Nat) : Bool :=
  let x := (s.home (homeSec n)).l3.secD .l3 n
  s.homeUp n && (s.memUp n || x.dv || x.dir == .x || x.dir == .o)

/-! ### Victims of an L2 (R176, R189) -/

/-- A block may leave an L2 now: no core of the quad holds one of its sectors for an LL (R65), no request of the quad
for one of them is under way (log entry 91), and an entry of the eviction buffer is free for its dirty data (R189). -/
def State.l2MayEvict (s : State) (q : Nat) (fr : Frame) : Bool :=
  let ns := fr.list .l2
  let dirty := ns.any fun p => p.2.st == .m || p.2.st == .o ||
    (coresOf q).any fun c => ((s.core c).l1d.secD .l1 p.1).st == .m
  !(ns.any fun p => s.heldBack q p.1 || s.fillPending q p.1) && (!dirty || decide ((s.quad q).evict.length < 8))

/-- Evict a block from an L2 (R176, R189): its L1 copies go first; a clean block announces EVC, a dirty one moves to
the eviction buffer and announces WBREQ. A home that is off takes nothing (R30, R40). -/
def State.l2Evict (s : State) (q : Nat) (f : Nat) : State :=
  match (s.quad q).l2.frame f with
  | none => s
  | some fr =>
    let ns := (List.range 4).map fun i => fr.block * 4 + i
    let s := ns.foldl (fun s n => (coresOf q).foldl (fun s c => (s.l1dDrop c n).l1iDrop c n) s) s
    match (s.quad q).l2.frame f with
    | none => s
    | some fr =>
      let s := s.updL2 q fun l => l.setFrame f none
      let held := (fr.list .l2).filter fun p => p.2.st ≠ .i ∧ p.2.dv
      let dirty := held.filter fun p => p.2.st = .m ∨ p.2.st = .o
      let mask (l : List (Nat × Sec)) : BitVec 4 := l.foldl (fun m p => m ||| (1#4 <<< (p.1 % 4))) 0
      if !s.homeUp (fr.block * 4) then s.addrErr (quadStop q) true 4 (fr.block * 256) 0
      else if dirty.isEmpty then s.send { kind := .evc, quad := q, toHome := true, sec := fr.block * 4 }
      else
        let s := s.updQuad q fun k => { k with evict := k.evict ++
          [{ block := fr.block, secs := held.foldl (fun m p => m.set {} (p.1 % 4) p.2) [],
             named := dirty.map fun p => p.1 % 4 }] }
        s.send { kind := .wbreq, quad := q, toHome := true, sec := fr.block * 4, dmask := mask dirty,
                 cmask := mask ((fr.list .l2).filter fun p => p.2.st ≠ .i ∧ !dirty.contains p) }

/-- Allocate a block in an L2 when it is not resident (R179); false, with nothing changed, while the victim cannot
leave or when every way is retired. -/
def State.l2Alloc (s : State) (q : Nat) (n : Nat) : Bool × State :=
  match (s.quad q).l2.find .l2 n with
  | some _ => (true, s)
  | none =>
    match (s.quad q).l2.choose .l2 n (List.range 16) with
    | (none, _) => (false, s)
    | (some f, l2) =>
      if ((s.quad q).l2.frame f).all fun fr => s.l2MayEvict q fr then
        let s := (s.updL2 q fun _ => l2).l2Evict q f
        (true, s.updL2 q fun l => l.setFrame f (some { block := n / 4 }))
      else (false, s)

/-- Reclaim a victim block from the eviction buffer (R190): its sectors return to the L2 by a new allocation, in the
states they held; the entry stays to answer WBGO with WBCANCEL (log entry 91 for the clean ones). False: it must
wait. -/
def State.reclaim (s : State) (q : Nat) (n : Nat) : Bool × State :=
  match (s.quad q).evict.find? fun e => e.block == n / 4 && !e.secs.isEmpty with
  | none => (true, s)
  | some e =>
    match s.l2Alloc q n with
    | (false, s) => (false, s)
    | (true, s) =>
      let s := e.secs.foldl (fun s p => s.updL2 q fun l => l.updSec .l2 (e.block * 4 + p.1) fun _ => p.2) s
      (true, s.updQuad q fun k => { k with evict := k.evict.map fun x => if x = e then
        { x with secs := [], back := (e.secs.map fun p => p.1).filter fun i => !e.named.contains i } else x })

/-- The newest valid data of a sector in a quad (R175, R176): a modified L1D copy, else the L2's, else a clean L1 copy. -/
def State.quadData (s : State) (q : Nat) (n : Nat) : Option (BitVec 512 × Bool) :=
  let y := (s.quad q).l2.secD .l2 n
  let pick (e : Sec) : BitVec 512 × Bool := (e.data, e.poison)
  match (coresOf q).find? fun c => ((s.core c).l1d.secD .l1 n).st == .m with
  | some c => some (pick ((s.core c).l1d.secD .l1 n))
  | none =>
    if y.st ≠ .i ∧ y.dv then some (pick y)
    else
      match (coresOf q).find? fun c => ((s.core c).l1d.secD .l1 n).st != .i with
      | some c => some (pick ((s.core c).l1d.secD .l1 n))
      | none => none

/-! ### Snoops at a quad (R184, R186, R191) -/

/-- What a quad answers to a snoop: nothing yet (it waits), MISS, ACK, or data. -/
inductive SnoopAns where
  | wait | miss | ack | data (d : BitVec 512) (poison : Bool)
  deriving DecidableEq, Repr

/-- A snoop waits for a fill the quad still awaits and for the hold of an LL (R65, R186). -/
def State.snoopBlocked (s : State) (q : Nat) (n : Nat) : Bool :=
  (s.net.any fun m => m.fills q n) || ((s.quad q).fills.any fun m => m.sec == n) || s.heldBack q n

/-- A snoop acts on an entry of the eviction buffer (R191). After SNP_C the sector is clean, so that its writeback is
withdrawn (R184). -/
def State.snoopEntry (s : State) (q n : Nat) (kind : MsgKind) (e : Evict) (x : Sec) : SnoopAns × State :=
  let dirty := x.st = .m ∨ x.st = .o
  let put (v : Option Sec) : State := s.updQuad q fun k => { k with evict := k.evict.map fun y =>
    if y = e then { y with secs := match v with | some z => y.secs.set {} (n % 4) z | none => SMap.erase (n % 4) y.secs } else y }
  let ans := if dirty then SnoopAns.data x.data x.poison else .ack
  match kind with
  | .snpS => (ans, put (some { x with st := if dirty then .o else .s }))
  | .snpC => (ans, put (some { x with st := match x.st with | .m => .e | .o => .s | z => z }))
  | .snpIdiscard => (.ack, put none)
  | _ => (ans, put none)

/-- A snoop acts on a quad: L1D copies first, each of which counts it (R466), then the L2, or the eviction buffer. A
sector whose data is valid nowhere in the quad is in no cache of it (R186). -/
def State.snoop (s : State) (q : Nat) (n : Nat) (kind : MsgKind) : SnoopAns × State :=
  if s.snoopBlocked q n then (.wait, s) else
  match (s.quad q).evict.find? fun e => e.block == n / 4 && ((SMap.find (n % 4) e.secs).isSome) with
  | some e => s.snoopEntry q n kind e (e.secs.get {} (n % 4))
  | none =>
    let x := (s.quad q).l2.secD .l2 n
    match (if x.st = .i then none else s.quadData q n) with
    | none => (.miss, s.updL2 q fun l => l.updSec .l2 n fun _ => {})
    | some (d, p) =>
      let inner := (coresOf q).any fun c => ((s.core c).l1d.secD .l1 n).st == .m
      let dirty := x.st = .m ∨ x.st = .o ∨ inner
      let s := (coresOf q).foldl (fun s c => if ((s.core c).l1d.secD .l1 n).st = .i then s else s.event c evSnoop) s
      let ans := if dirty then SnoopAns.data d p else .ack
      match kind with
      | .snpS =>
        let s := (coresOf q).foldl (fun s c => s.l1dDown c n .s) s
        (ans, s.updL2 q fun l => l.updSec .l2 n fun y => { y with st := if dirty then .o else .s })
      | .snpC =>
        let s := (coresOf q).foldl (fun s c => s.l1dDown c n .e) s
        (ans, s.updL2 q fun l => l.updSec .l2 n fun y =>
          { y with st := match y.st with | .m => .e | .o => .s | z => z })
      | .snpIdiscard =>
        let s := (coresOf q).foldl (fun s c => s.l1dDrop c n) s
        (.ack, s.updL2 q fun l => l.updSec .l2 n fun _ => {})
      | _ =>
        let s := (coresOf q).foldl (fun s c => s.l1dDrop c n) s
        (ans, s.updL2 q fun l => l.updSec .l2 n fun _ => {})

/-! ### The home slice (R181 to R187) -/


/-- The ways of a way group of a home slice (R181); group 0 is what no mask names. -/
def State.wayGroup (s : State) (h g : Nat) : List Nat :=
  let inMask (i w : Nat) : Bool := (s.reg .L3_WG_MASK [h, i]).getLsbD w
  (List.range 16).filter fun w =>
    if g = 0 then !inMask 1 w && !inMask 2 w && !inMask 3 w
    else inMask g w && !(List.range g).any fun i => decide (0 < i) && inMask i w

/-- The ways in which a requester class allocates (R181). -/
def State.classWays (s : State) (h cls : Nat) : List Nat :=
  let g := (s.reg .L3_WG_MAP [h]).toNat / 4 ^ cls % 4
  let l := s.wayGroup h g
  if !l.isEmpty then l
  else if !(s.wayGroup h 0).isEmpty then s.wayGroup h 0
  else (([1, 2, 3].map fun i => s.wayGroup h i).find? fun l => !l.isEmpty).getD []

/-! ### Memory behind a home -/

/-- The probes that are answered once no accepted write they wait for is left (R252). -/
def State.answerProbes (s : State) : State :=
  { s with probes := s.probes.map fun p =>
      if p.received && p.waits.all fun i => !(s.mramQ.any fun w => w.id == i) then { p with answered := true } else p }

/-- A write reaches the MRAM controller (R252): it stands in its die's queue of 16, or behind it. -/
def State.mramAccept (s : State) (n : Nat) : State :=
  { s with mramQ := s.mramQ ++ [{ id := s.mramNext, sec := n, old := s.memSec n, oldPoison := s.poisoned.contains n }],
           mramNext := s.mramNext + 1 }

/-- A write has entered its die's queue of 16 sectors, or is durable already: it is accepted (R252). -/
def State.mramIn (s : State) (id : Nat) : Bool :=
  match s.mramQ.find? fun w => w.id == id with
  | none => true
  | some w => decide (((s.mramQ.filter fun v => mramDie v.sec == mramDie w.sec).takeWhile fun v => v.id != id).length < 16)

/-- The writes of a die that are accepted and not durable: the 16 oldest. -/
def State.mramOf (s : State) (die : Nat) : List MramWrite := (s.mramQ.filter fun w => mramDie w.sec == die).take 16

/-- What a read of an MRAM sector gives: the newest accepted data while a write of it is queued (R252), else what the die
holds, with its wrong bits (R253). -/
def State.mramRead (s : State) (n : Nat) : (BitVec 512 × Bool) × State :=
  s.mramDecode n (if s.mramQ.any fun w => w.sec == n then 0 else s.dram.mrErrs.get 0 n)

/-- What a home gets when it reads a sector of memory: what an access of its block has just returned, else what one read
decodes to (R237, R253); zeros from a controller that is off (R30). DESIGN CHOICE (log entry 91): the error of a home's own
read or write of a memory that is off names the home's stop and PID 0. -/
def State.memRead (s : State) (n : Nat) : (BitVec 512 × Bool) × State :=
  if !s.memUp n then ((0, false), s.addrErr (homeStop (homeSec n)) false 4 (n * 64) 0)
  else if inMram (n * 64) then s.mramRead n
  else match s.dram.back.find? fun b => b.1 == n with
    | some b => (b.2, s)
    | none => s.decodeRead (n / 4) (n % 4) [] 0

/-- Write a sector back to memory; in the MRAM range the write goes to the controller's queue to become durable
(R185, R252); in a DRAM group whose poison list is full its poison is lost (R240); a controller that is off takes
nothing (R30). -/
def State.writeBack (s : State) (n : Nat) (d : BitVec 512) (poison : Bool) : State :=
  if !s.memUp n then s.addrErr (homeStop (homeSec n)) true 4 (n * 64) 0
  else if inMram (n * 64) then (s.mramAccept n).setMemSec n d poison
  else
    let g := groupOf n
    let s := { s with dram := { s.dram with back := s.dram.back.filter fun b => b.1 != n } }
    if poison && s.checkFailed g && decide (256 ≤ (s.poisonListed g).length) && !s.poisoned.contains n then
      (s.setMemSec n 0 false).logMg g 7 0xF n
    else s.setMemSec n d poison

/-! ### The directory (R184, R185) -/

/-- The quads a directory entry lists. -/
def Sec.holders (x : Sec) : List Nat := (List.range 16).filter fun q => x.pres.getLsbD q

def bitOf (q : Nat) : BitVec 16 := 1#16 <<< q

/-- Remove a quad from a sector's directory entry (R185, last row). -/
def Sec.without (x : Sec) (q : Nat) : Sec :=
  let p := x.pres &&& ~~~bitOf q
  if p = 0 then { x with pres := 0, dir := .u }
  else { x with pres := p, dir := if (x.dir = .x ∨ x.dir = .o) ∧ x.owner = q then .s else x.dir }

/-- A sector that one quad alone holds, and may own. -/
def Sec.owned (x : Sec) (q : Nat) : Sec := { x with dir := .x, owner := q, pres := bitOf q }

/-- The quads to be snooped for a request and the snoop they get (R185, R188, R194). -/
def snoopPlan (x : Sec) (m : Msg) : MsgKind × List Nat :=
  let others := x.holders.filter fun q => q ≠ m.quad
  let owner := if x.dir = .x ∨ x.dir = .o then [x.owner] else []
  match m.kind with
  | .rd => (.snpS, owner.filter fun q => q ≠ m.quad)
  | .ucr => (.snpS, owner)
  | .rfo | .upg => (.snpI, others)
  | .zreq => (.snpIdiscard, others)
  | .cln => (.snpC, x.holders)
  | .inv => (.snpIdiscard, x.holders)
  | .fls | .ucw | .reclaim => (.snpI, x.holders)
  | _ => (.snpI, [])

/-- Merge bytes under a mask into a sector. -/
def mergeBytes (old new : BitVec 512) (mask : BitVec 64) : BitVec 512 :=
  (List.range 64).foldl (fun d i => if mask.getLsbD i then
    (d &&& ~~~(0xff#512 <<< (8 * i))) ||| (new &&& (0xff#512 <<< (8 * i))) else d) old

/-- Fill the sectors of a resident block whose data is not valid from memory, the requested one first (R177). -/
def State.l3Fill (s : State) (h n : Nat) : State :=
  (List.range 4).foldl (fun s i =>
    let m := n / 4 * 4 + (n + i) % 4
    match (s.home h).l3.sec .l3 m with
    | none => s
    | some x =>
      if x.dv then s
      else match s.memRead m with
        | ((d, p), s) => s.updL3 h fun l => l.updSec .l3 m fun x => { x with dv := true, dirty := false, data := d, poison := p }) s

/-- The L3 data of a sector, read from memory when it is not valid there. -/
def State.l3Data (s : State) (h n : Nat) : (BitVec 512 × Bool) × State :=
  let x := (s.home h).l3.secD .l3 n
  if x.dv then ((x.data, x.poison), s) else s.memRead n

/-- Free a frame in which no sector is valid or tracked. -/
def State.l3Free (s : State) (h n : Nat) : State :=
  match (s.home h).l3.find .l3 n with
  | none => s
  | some f => match (s.home h).l3.frame f with
    | none => s
    | some fr => if (fr.list .l3).all fun p => !p.2.dv && p.2.dir == .u then s.updL3 h fun l => l.setFrame f none else s

/-! ### The dirty-persistent quota (R257, R258) -/

/-- A sector counts against the quota: X or O, or dirty in the L3 (R257). -/
def Sec.counted (x : Sec) : Bool := x.dir == .x || x.dir == .o || (x.dv && x.dirty)

/-- Keep the list of counted sectors of a home, oldest first, in step with a sector. -/
def State.pdqSync (s : State) (h n : Nat) : State :=
  if !inMram (n * 64) then s else
  let die := mramDie n
  let l := (s.home h).pdq.get [] die
  let keep (l : List Nat) : State := s.updHome h fun k => { k with pdq := k.pdq.set [] die l }
  if !((s.home h).l3.secD .l3 n).counted then keep (l.erase n)
  else if l.contains n then s
  else keep (l ++ [n])

/-- A request would make its sector count. -/
def Sec.wouldCount (x : Sec) (m : Msg) : Bool :=
  !x.counted && match m.kind with
    | .rd => x.dir == .u
    | .rfo | .upg | .zreq => true
    | .ucw => x.dv
    | _ => false

/-- The requests a home has begun that will make a sector of a die count, but for one block. -/
def Home.begun (k : Home) (die block : Nat) : Nat :=
  (k.trans.filter fun t => !t.quota && !t.fill && t.frame.isNone && inMram (t.req.sec * 64) && mramDie t.req.sec == die &&
    t.req.sec / 4 != block && (k.l3.secD .l3 t.req.sec).wouldCount t.req).length

/-- A request must wait for the reclaim of another sector (R258): the die's counted sectors, and those that begun requests
will make count, are 1,024. -/
def State.quotaFull (s : State) (h : Nat) (m : Msg) : Bool :=
  let k := s.home h
  let die := mramDie m.sec
  inMram (m.sec * 64) && decide (1024 ≤ (k.pdq.get [] die).length + k.begun die (m.sec / 4)) &&
    (k.l3.secD .l3 m.sec).wouldCount m

/-! ### The work of a home on a request (R185 to R188, R192, R194, R258) -/

/-- What a request does at the home once its snoops are answered: directory, data, memory, and the answers that carry
data or ownership. -/
def State.homeApply (s : State) (h : Nat) (t : Trans) : State :=
  let m := t.req
  let n := m.sec
  let x := (s.home h).l3.secD .l3 n
  let q := m.quad
  let put (s : State) (g : Sec → Sec) : State := s.updL3 h fun l => l.updSec .l3 n g
  let data (s : State) (d : BitVec 512 × Bool) (excl dirty uc : Bool) : State :=
    s.send { kind := .data, quad := q, toHome := false, sec := n, data := d.1, poison := d.2, excl := excl, dirty := dirty,
             uc := uc, core := m.core }
  let grant (s : State) (dirty : Bool) (mask : BitVec 64) : State :=
    s.send { kind := .grant, quad := q, toHome := false, sec := n, excl := true, dirty := dirty, core := m.core, mask := mask }
  match m.kind with
  | .rd =>
    (match x.dir with
    | .u => match s.l3Data h n with
      | (d, s) => data (put s fun y => { y with dir := .x, owner := q, pres := bitOf q }) d true false false
    | .s => match s.l3Data h n with
      | (d, s) => data (put s fun y => { y with pres := y.pres ||| bitOf q }) d false false false
    | _ =>
      match t.got with
      | some g => data (put s fun y => { y with dir := .o, pres := y.pres ||| bitOf q }) (g.data, g.poison) false false false
      | none => match s.l3Data h n with
        | (d, s) => data (put s fun y => { y with dir := .s, pres := y.pres ||| bitOf q }) d false false false)
  | .ucr =>
    (match t.got with
    | some g => data (put s fun y => { y with dir := .o }) (g.data, g.poison) false false true
    | none => match s.l3Data h n with
      | (d, s) => data (put s fun y => { y with dir := if y.dir = .x then .s else y.dir }) d false false true)
  | .rfo =>
    (match t.got with
    | some g => data (put s fun y => { y with dir := .x, owner := q, pres := bitOf q }) (g.data, g.poison) true true false
    | none => match s.l3Data h n with
      | (d, s) => data (put s fun y => { y with dir := .x, owner := q, pres := bitOf q }) d true false false)
  | .upg => grant (put s fun y => { y with dir := .x, owner := q, pres := bitOf q }) (x.dir == DirSt.o) 0
  | .zreq => grant (put s fun y => { y with dir := .x, owner := q, pres := bitOf q, dv := false, dirty := false }) true (BitVec.allOnes 64)
  | .cln =>
    (match t.got with
    | some g => put (s.writeBack n g.data g.poison) fun y =>
        { y with dv := true, dirty := false, data := g.data, poison := g.poison, dir := if y.dir = DirSt.o then .s else y.dir }
    | none => if x.dv && x.dirty then put (s.writeBack n x.data x.poison) fun y => { y with dirty := false } else s)
  | .fls =>
    let s := match t.got with
      | some g => s.writeBack n g.data g.poison
      | none => if x.dv && x.dirty then s.writeBack n x.data x.poison else s
    (put s fun _ => {}).l3Free h n
  | .inv => (put s fun _ => {}).l3Free h n
  | .ucw =>
    let s := match t.got with
      | some g => put s fun y => { y with dv := true, dirty := true, data := g.data, poison := g.poison }
      | none => s
    let s := put s fun y => { y with dir := .u, pres := 0 }
    match s.l3Data h n with
    | (old, s') =>
      if m.excl then s'
      else
        -- a write of the whole sector replaces its poison; a narrower one leaves it (R200, R240)
        let po (p : Bool) : Bool := m.poison || (p && m.mask != BitVec.allOnes 64)
        if ((s.home h).l3.secD .l3 n).dv then
          put s fun z => { z with dirty := true, data := mergeBytes z.data m.data m.mask, poison := po z.poison }
        else if m.mask = BitVec.allOnes 64 then s.writeBack n m.data m.poison
        else s'.writeBack n (mergeBytes old.1 m.data m.mask) (po old.2)
  | .evict =>
    let dirty := (List.range 4).filter fun i =>
      let y := (s.home h).l3.secD .l3 (n + i)
      y.dv && y.dirty
    -- one access of the block (R187): one error when the memory is off (R36)
    let s := if !dirty.isEmpty && !s.memUp n then s.addrErr (homeStop h) true 4 (n * 64) 0 else s
    dirty.foldl (fun s i =>
      let y := (s.home h).l3.secD .l3 (n + i)
      (if s.memUp n then s.writeBack (n + i) y.data y.poison else s).updL3 h fun l =>
        l.updSec .l3 (n + i) fun z => { z with dirty := false }) s
  | .reclaim => if x.dv && x.dirty then s.writeBack n x.data x.poison else s
  | _ => s

/-- The end of a request: the answer DONE, or the home's own step. The block of an evicted frame leaves the L1Is too (R176). -/
def State.homeReply (s : State) (h : Nat) (m : Msg) : State :=
  let n := m.sec
  match m.kind with
  | .cln | .fls | .inv | .ucw =>
    -- the answer to a compare-and-set names the update
    let m := if m.expect.isSome then m else { m with data := 0, mask := 0 }
    s.send { kind := .done, quad := m.quad, toHome := false, sec := n, core := m.core, excl := m.excl, data := m.data,
             mask := m.mask, expect := m.expect }
  | .evict =>
    let s := match (s.home h).l3.find .l3 n with
      | some f => s.updL3 h fun l => l.setFrame f none
      | none => s
    (List.range 4).foldl (fun s i => (s.l1iDropAll (n + i)).pdqSync h (n + i)) s
  | .reclaim =>
    ((s.updL3 h fun l => l.updSec .l3 n fun y => { y with dirty := false, dir := .u, pres := 0 }).countFld .PDQ [h, mramDie n]
      .PDQ_RECLAIMS).pdqSync h n
  | _ => s

/-- What a request waits for at memory has come about: acceptance, or for a reclaim durability (R194, R252, R258). -/
def State.memDone (s : State) (t : Trans) : Bool :=
  t.ids.all fun i => if t.req.kind = .reclaim then !(s.mramQ.any fun w => w.id == i) else s.mramIn i

/-- A compare-and-set meets other bytes than it expects (R163). -/
def State.casFails (s : State) (h : Nat) (t : Trans) : Bool :=
  t.req.expect.any fun e =>
    let old := match t.got with
      | some g => g.data
      | none => (s.l3Data h t.req.sec).1.1
    mergeBytes old e t.req.mask != old

/-- The snoops of a request are answered: it takes effect, and ends once its writes are accepted. -/
def State.homeFinish (s : State) (h : Nat) (t : Trans) : State :=
  let t := { t with req := { t.req with excl := s.casFails h t } }
  let first := s.mramNext
  let s := (s.homeApply h t).pdqSync h t.req.sec
  let t := { t with snoops := [], ids := (List.range (s.mramNext - first)).map fun i => first + i }
  if s.memDone t then s.homeReply h t.req else s.updHome h fun k => { k with trans := k.trans ++ [t] }

/-- A request needs data of memory, and an access of its block is under way in the memory group: it takes what that access
returns (R237; log entry 94). -/
def State.fillWaits (s : State) (h : Nat) (m : Msg) : Bool :=
  let x := (s.home h).l3.secD .l3 m.sec
  let needs := match m.kind with
    | .rd | .rfo | .ucr => true
    | .ucw => m.mask != BitVec.allOnes 64
    | _ => false
  needs && !x.dv && (x.dir == .u || x.dir == .s) && s.memUp m.sec && s.dram.reads.contains (m.sec / 4)

/-- The home has what a request needs of its own: it snoops, or finishes at once. A request that must wait for the quota,
or for an access under way, waits with its transaction (R237, R258). -/
def State.homeSnoop (s : State) (h : Nat) (m : Msg) : State :=
  let x := (s.home h).l3.secD .l3 m.sec
  -- a UPG from a quad the directory does not list is an RFO (R185)
  let m := if m.kind = .upg ∧ !x.pres.getLsbD m.quad then { m with kind := .rfo } else m
  if s.quotaFull h m then s.updHome h fun k => { k with trans := k.trans ++ [{ req := m, quota := true }] }
  else if s.fillWaits h m then s.updHome h fun k => { k with trans := k.trans ++ [{ req := m, fill := true }] }
  else
    let s := if (m.kind = .rd ∨ m.kind = .rfo) ∧ (x.dir = .u ∨ x.dir = .s) ∧ !x.dv then s.l3Fill h m.sec else s
    let plan := snoopPlan x m
    let snoops := if m.kind = .evict then
        (List.range 4).flatMap fun i => (((s.home h).l3.secD .l3 (m.sec + i)).holders.map fun q => (i, q))
      else plan.2.map fun q => (m.sec % 4, q)
    if snoops.isEmpty then s.homeFinish h { req := m }
    else
      snoops.foldl (fun s p => s.send { kind := plan.1, quad := p.2, toHome := false, sec := m.sec / 4 * 4 + p.1 })
        (s.updHome h fun k => { k with trans := k.trans ++ [{ req := m, snoops := snoops }] })

/-- A request that places its block: it has a frame, or chooses one and waits until what that holds is evicted (R177,
R179, R187). With its memory off it is not served, and its requester meets the error (R30). -/
def State.homePlace (s : State) (h : Nat) (m : Msg) : State :=
  if !s.homeAnswers m.sec then s else
  match (s.home h).l3.find .l3 m.sec with
  | some _ => s.homeSnoop h m
  | none =>
    match (s.home h).l3.choose .l3 m.sec (s.classWays h m.cls) with
    | (none, _) => s.homeSnoop h m
    | (some f, l3) =>
      let s := s.updL3 h fun _ => l3
      if ((s.home h).l3.frame f).isSome then s.updHome h fun k => { k with trans := k.trans ++ [{ req := m, frame := some f }] }
      else (s.updL3 h fun l => l.setFrame f (some { block := m.sec / 4 })).homeSnoop h m

/-- The sectors of a block that a quad shares with no other quad. -/
def State.aloneIn (s : State) (h q block : Nat) : BitVec 4 :=
  (List.range 4).foldl (fun m i =>
    if ((s.home h).l3.secD .l3 (block * 4 + i)).pres = bitOf q then m ||| (1#4 <<< i) else m) 0

/-- The home starts a request for a block that has no transaction (R185). -/
def State.homeStart (s : State) (h : Nat) (m : Msg) : State :=
  match m.kind with
  | .evc =>
    (List.range 4).foldl (fun s i =>
      (s.updL3 h fun l => l.updSec .l3 (m.sec / 4 * 4 + i) fun x => x.without m.quad).pdqSync h (m.sec / 4 * 4 + i)) s
  | .wbreq =>
    (s.updHome h fun k => { k with trans := k.trans ++ [{ req := m, wbAwait := (List.range 4).filter fun i => m.dmask.getLsbD i }] }).send
      { kind := .wbgo, quad := m.quad, toHome := false, sec := m.sec, cmask := s.aloneIn h m.quad (m.sec / 4) }
  | .rd | .rfo | .upg | .zreq => s.homePlace h m
  | .evict => if ((s.home h).l3.find .l3 m.sec).isSome then s.homeSnoop h m else s
  | .cln | .inv | .fls | .ucr | .ucw | .reclaim => s.homeSnoop h m
  | _ => s

/-- The home has a transaction for the block of a sector. -/
def Home.busy (k : Home) (n : Nat) : Bool := k.trans.any fun t => t.req.sec / 4 == n / 4

/-- The home has its own work of a kind on a block, begun or waiting. -/
def Home.has (k : Home) (kind : MsgKind) (block : Nat) : Bool :=
  (k.trans.any fun t => t.req.kind == kind && t.req.sec / 4 == block) || k.waiting.any fun m => m.kind == kind && m.sec / 4 == block

/-- The home reclaims a sector, for one die at a time (R258). -/
def Home.reclaiming (k : Home) : Option Msg :=
  match k.trans.find? fun t => t.req.kind == .reclaim with
  | some t => some t.req
  | none => k.waiting.find? fun m => m.kind == .reclaim

/-- What a transaction that waits for something of the home can do next. -/
inductive HomeMove where
  | finish | place (f : Nat) | ask (block : Nat) | go | behind (r : Msg) | reclaim (sec : Nat)

/-- The home's own work on a block, as a request for it under R186. -/
def ownWork (kind : MsgKind) (sec : Nat) : Msg := { kind := kind, quad := 19, toHome := true, sec := sec }

/-- The next move of a transaction, if it has one. -/
def State.homeMove (s : State) (h : Nat) (t : Trans) : Option HomeMove :=
  let k := s.home h
  match t.frame with
  | some f => match k.l3.frame f with
    | none => some (.place f)
    | some fr => if k.has .evict fr.block then none else some (.ask fr.block)
  | none =>
    if t.quota then
      if !s.quotaFull h t.req then some .go
      else match k.reclaiming with
        | some r => if r.sec / 4 = t.req.sec / 4 then some (.behind r) else none
        | none => match k.pdq.get [] (mramDie t.req.sec) with
          | n :: _ => some (.reclaim n)
          | [] => none
    else if t.fill then if s.fillWaits h t.req then none else some .go
    else if !t.ids.isEmpty && s.memDone t then some .finish
    else none

/-- Make a move. -/
def State.homeAct (s : State) (h : Nat) (t : Trans) : HomeMove → State
  | .finish => (s.updHome h fun k => { k with trans := k.trans.erase t }).homeReply h t.req
  | .place f => ((s.updHome h fun k => { k with trans := k.trans.erase t }).updL3 h fun l =>
      l.setFrame f (some { block := t.req.sec / 4 })).homeSnoop h t.req
  | .ask b => s.updHome h fun k => { k with waiting := k.waiting ++ [ownWork .evict (b * 4)] }
  | .go => (s.updHome h fun k => { k with trans := k.trans.erase t }).homeSnoop h t.req
  | .behind r => s.updHome h fun k => { k with trans := k.trans.erase t, waiting := r :: t.req :: k.waiting.erase r }
  | .reclaim n => s.updHome h fun k => { k with waiting := ownWork .reclaim n :: k.waiting }

/-- Let a home do what it can: start the requests that wait for a block with no transaction, and move its transactions
on (R186). -/
def State.homeKick (s : State) (h : Nat) : Nat → State
  | 0 => s
  | fuel + 1 =>
    match (s.home h).trans.findSome? fun t => (s.homeMove h t).map fun v => (t, v) with
    | some (t, v) => (s.homeAct h t v).homeKick h fuel
    | none =>
      match (s.home h).waiting.find? fun m => !(s.home h).busy m.sec with
      | none => s
      | some m => ((s.updHome h fun k => { k with waiting := k.waiting.erase m }).homeStart h m).homeKick h fuel

/-- Enough moves for what one arrival sets free. -/
def kickFuel : Nat := 256

/-- A request reaches its home (R186). -/
def State.homeRequest (s : State) (m : Msg) : State :=
  (s.updHome (homeSec m.sec) fun k => { k with waiting := k.waiting ++ [m] }).homeKick (homeSec m.sec) kickFuel

/-- A write to MRAM has been accepted or made durable: the homes that wait for it go on. -/
def State.homesGo (s : State) : State := (List.range 8).foldl (fun s h => s.homeKick h kickFuel) s

/-- The end of a WBREQ (R185, R192): its clean sectors, but those withdrawn, leave the directory. -/
def State.wbEnd (s : State) (h : Nat) (t : Trans) : State :=
  (List.range 4).foldl (fun s i => if t.req.cmask.getLsbD i && !t.kept.contains i then
    (s.updL3 h fun l => l.updSec .l3 (t.req.sec + i) fun x => x.without t.req.quad).pdqSync h (t.req.sec + i) else s) s

/-- An answer to a WBREQ reaches the home (R192). A sender that keeps its block clean stays listed: alone in E, else in S
(R196). -/
def State.wbAnswer (s : State) (h : Nat) (t : Trans) (m : Msg) : State :=
  let i := m.sec % 4
  if !t.wbAwait.contains i then
    if m.kind = .wbcancel ∧ t.req.cmask.getLsbD i then
      s.updHome h fun k => { k with trans := k.trans.map fun u => if u = t then { u with kept := i :: u.kept } else u }
    else s
  else
    let s := if m.kind = .data then
        (s.updL3 h fun l => l.updSec .l3 m.sec fun x =>
          let y := if t.req.excl then (if x.pres = bitOf m.quad then x.owned m.quad else { x with dir := .s }) else x.without m.quad
          { y with dv := true, dirty := true, data := m.data, poison := m.poison }).pdqSync h m.sec
      else s
    let t' := { t with wbAwait := t.wbAwait.erase i }
    let s := s.updHome h fun k => { k with trans := k.trans.map fun u => if u = t then t' else u }
    if t'.wbAwait.isEmpty then (s.updHome h fun k => { k with trans := k.trans.erase t' }).wbEnd h t' else s

/-- An answer to a snoop reaches the home: a quad that misses is treated as not holding the sector (R186); what the
home's own work is given goes into the L3. -/
def State.snoopAnswer (s : State) (h : Nat) (t : Trans) (m : Msg) : State :=
  let own := t.req.kind = .evict ∨ t.req.kind = .reclaim
  let s := s.updL3 h fun l => l.updSec .l3 m.sec fun x =>
    let y := if own ∨ m.kind = .miss then x.without m.quad else x
    if own ∧ m.kind = .data then { y with dv := true, dirty := true, data := m.data, poison := m.poison } else y
  let t' := { t with snoops := t.snoops.erase (m.sec % 4, m.quad)
                     missed := if m.kind = .miss then m.quad :: t.missed else t.missed
                     got := if m.kind = MsgKind.data then some m else t.got }
  if !t'.snoops.isEmpty then s.updHome h fun k => { k with trans := k.trans.map fun u => if u = t then t' else u }
  else
    let s := s.updHome h fun k => { k with trans := k.trans.erase t }
    -- a read whose snooped owner gave no data takes the L3 data
    let s := if t'.got.isNone ∧ (t.req.kind = .rd ∨ t.req.kind = .rfo) then s.l3Fill h m.sec else s
    s.homeFinish h t'

/-- An answer reaches a home: a snoop answer, writeback data or WBCANCEL (R186, R192). -/
def State.homeAnswer (s : State) (m : Msg) : State :=
  let h := homeSec m.sec
  match (s.home h).trans.find? fun t => t.req.sec / 4 == m.sec / 4 with
  | none => s
  | some t =>
    if t.req.kind = .wbreq then (s.wbAnswer h t m).homeKick h kickFuel
    else if t.snoops.contains (m.sec % 4, m.quad) then (s.snoopAnswer h t m).homeKick h kickFuel
    else s

/-! ### Inside a quad: from the L2 into the L1s (R105, R114, R177) -/

/-- Retire the victim frame of an L1 allocation: dirty sectors go to the L2, reservations on them end (R176, R64). -/
def State.l1dEvict (s : State) (c : Fin 64) (f : Nat) : State :=
  match (s.core c).l1d.frame f with
  | none => s
  | some fr =>
    let s := (fr.list .l1).foldl (fun s p => s.l1dDrop c p.1) s
    s.updCore c fun k => { k with l1d := k.l1d.setFrame f none }

/-- Give a block a frame in a core's L1D (R177, R179). -/
def State.l1dAlloc (s : State) (c : Fin 64) (n : Nat) : State :=
  match (s.core c).l1d.find .l1 n with
  | some _ => s
  | none =>
    match (s.core c).l1d.choose .l1 n (List.range 4) with
    | (none, _) => s
    | (some f, d) =>
      let s := (s.updCore c fun k => { k with l1d := d }).event c evL1dAlloc
      let s := if ((s.core c).l1d.frame f).any fun (fr : Frame) => (fr.list .l1).any fun (p : Nat × Sec) => p.2.st == CSt.m then
          s.event c evL1dDirtyVictim else s
      (s.l1dEvict c f).updCore c fun k => { k with l1d := k.l1d.setFrame f (some { block := n / 2 }) }

/-- The other L1Ds of the quad that must give a sector up, or share it, hold it back for an LL (R65). -/
def State.innerBlocked (s : State) (c : Fin 64) (n : Nat) (own : Bool) : Bool :=
  (coresOf (quadOf c)).any fun d => d != c && (s.core d).hold == some n &&
    (let st := ((s.core d).l1d.secD .l1 n).st; st != .i && (own || st != .s))

/-- A core's L1D has a frame for a sector, or the victim of its allocation is not the frame that it holds for an LL (R65). -/
def State.l1dMayAlloc (s : State) (c : Fin 64) (n : Nat) : Bool :=
  let k := s.core c
  (k.l1d.find .l1 n).isSome ||
    match k.l1d.choose .l1 n (List.range 4) with
    | (some f, _) => !((k.l1d.frame f).any fun fr => k.hold.any fun m => m / 2 == fr.block)
    | _ => true

/-- Take a sector that the quad holds into a core's L1D (R114, R175, R177): the other L1Ds of the quad give it up, or
share it. False: it is held back, the quad does not hold it so, or its frame must stay for an LL. -/
def State.l1dTake (s : State) (c : Fin 64) (n : Nat) (own : Bool) : Bool × State :=
  let q := quadOf c
  let x := (s.quad q).l2.secD .l2 n
  let has := if own then x.st == .e || x.st == .m else x.st != .i
  match (if has && !s.innerBlocked c n own && s.l1dMayAlloc c n then s.quadData q n else none) with
  | none => (false, s)
  | some _ =>
    let s := (coresOf q).foldl (fun s d => if d = c then s else if own then s.l1dDrop d n else s.l1dDown d n .s) s
    let s := s.l1dAlloc c n
    let x := (s.quad q).l2.secD .l2 n
    let data := (s.quadData q n).getD (x.data, x.poison)
    let alone := x.pres &&& ~~~bitOf (c.val % 4) = 0
    let st : CSt := if own || ((x.st == .e || x.st == .m) && decide alone) then .e else .s
    let s := s.updCore c fun k => { k with l1d := k.l1d.updSec .l1 n fun y =>
      if y.st = .i then { st := st, dv := true, data := data.1, poison := data.2 }
      else { y with st := if y.st = .m then .m else st } }
    let s := s.updL2 q fun l => l.updSec .l2 n fun y => { y with pres := y.pres ||| bitOf (c.val % 4) }
    (((s.core c).l1d.secD .l1 n).st != .i, s)

/-- Take a sector that the quad holds into a core's L1I (R105, R177). -/
def State.l1iTake (s : State) (c : Fin 64) (n : Nat) : Bool × State :=
  let x := (s.quad (quadOf c)).l2.secD .l2 n
  match (if x.st = .i then none else s.quadData (quadOf c) n) with
  | none => (false, s)
  | some (d, p) =>
    let s := match (s.core c).l1i.find .l1 n with
      | some _ => s
      | none =>
        match (s.core c).l1i.choose .l1 n (List.range 4) with
        | (none, _) => s
        | (some f, i) => s.updCore c fun k => { k with l1i := i.setFrame f (some { block := n / 2 }) }
    (true, s.updCore c fun k => { k with l1i := k.l1i.updSec .l1 n fun _ => { st := .s, dv := true, data := d, poison := p } })

/-- Fill the slots of a core that wait for a sector its quad now holds (R105, R114). -/
def State.fillSlots (s : State) (c : Fin 64) (n : Nat) : State :=
  let s := if (s.core c).ifWait = some n then
      match s.l1iTake c n with
      | (true, s) => s.updCore c fun k => { k with ifWait := none }
      | (false, s) => s
    else s
  let s := if (s.core c).ldWait = some n then
      match s.l1dTake c n false with
      | (true, s) => s.updCore c fun k => { k with ldWait := none }
      | (false, s) => s
    else s
  let s := if (s.core c).stWait = some n then
      match s.l1dTake c n true with
      | (true, s) => s.updCore c fun k => { k with stWait := none }
      | (false, s) => s
    else s
  match (s.core c).pfWait.find? fun p => p.1 == n with
  | none => s
  | some p =>
    match s.l1dTake c n p.2 with
    | (true, s) => s.updCore c fun k => { k with pfWait := k.pfWait.erase p }
    | (false, s) => s

/-- The slots of the cores of a quad that wait for a sector. -/
def State.fillQuad (s : State) (q n : Nat) : State := (coresOf q).foldl (fun s c => s.fillSlots c n) s

/-- The grant of a ZREQ zeroes its sector in the L2, and in the L1D of the core whose ZLINE waits for it (R193, R200);
every other L1D copy of the quad goes. -/
def State.zeroGrant (s : State) (q n core : Nat) : State :=
  let c := Fin.ofNat 64 core
  let waits := decide (core < 64) && match (s.core c).sb with
    | e :: _ => e.size == 64 && e.pa / 64 == n && !e.zeroed
    | [] => false
  let s := (coresOf q).foldl (fun s d => if waits && d == c then s else s.l1dDrop d n) s
  let s := s.updL2 q fun l => l.updSec .l2 n fun x => { x with st := .m, dv := true, data := 0, poison := false }
  if !waits then s
  else match s.l1dTake c n true with
    | (true, s) => s.updCore c fun k =>
        { k with l1d := k.l1d.updSec .l1 n fun y => { y with st := .m, data := 0, poison := false },
                 sb := k.sb.modifyHead fun e => { e with zeroed := true }, stWait := none }
    | (false, s) => s

/-! ### Arrivals at a quad -/

/-- Another core of a quad than the one a grant is for holds its sector back (R65). -/
def State.heldByOther (s : State) (m : Msg) : Bool :=
  (coresOf m.quad).any fun c => c.val != m.core && (s.core c).hold == some m.sec

/-- Fill data or a grant goes into the L2 of a quad (R185, R189, R193); false while the L2 invalidates itself (R197), while
its block cannot be placed, or while another core of the quad holds the sector of a ZREQ back. -/
def State.quadFill (s : State) (m : Msg) : Bool × State :=
  if !(s.quad m.quad).l2.ready then (false, s) else
  match s.l2Alloc m.quad m.sec with
  | (false, s) => (false, s)
  | (true, s) =>
    if m.kind = .grant ∧ m.mask ≠ 0 then
      if s.heldByOther m then (false, s) else (true, (s.zeroGrant m.quad m.sec m.core).fillQuad m.quad m.sec)
    else
      let s := s.updL2 m.quad fun l => l.updSec .l2 m.sec fun x =>
        if m.kind = .grant then { x with st := if m.dirty ∨ x.st = .m then .m else .e }
        else { x with st := if m.dirty then .m else if m.excl then .e else .s, dv := true, data := m.data, poison := m.poison }
      (true, s.fillQuad m.quad m.sec)

/-- The accepted data and grants of a quad go into its L2 as far as they can. -/
def State.quadGo (s : State) (q : Nat) : State :=
  (s.quad q).fills.foldl (fun s m =>
    match s.quadFill m with
    | (true, s) => s.updQuad q fun k => { k with fills := k.fills.erase m }
    | (false, _) => s) s

/-- A quad always accepts data and grants (R22): they go into its L2 now or later. -/
def State.quadTake (s : State) (m : Msg) : State :=
  (s.updQuad m.quad fun k => { k with fills := k.fills ++ [m] }).quadGo m.quad

/-- A sector of a block that a set/way operation writes back: it stays in the L2, clean (R196). -/
def State.liveBack (s : State) (m : Msg) (n : Nat) : State :=
  let x := (s.quad m.quad).l2.secD .l2 n
  if (x.st = .m ∨ x.st = .o) ∧ x.dv then
    (s.updL2 m.quad fun l => l.updSec .l2 n fun y => { y with st := if m.cmask.getLsbD (n % 4) then .e else .s }).send
      { kind := .data, quad := m.quad, toHome := true, sec := n, data := x.data, poison := x.poison, dirty := true }
  else s.send { kind := .wbcancel, quad := m.quad, toHome := true, sec := n }

/-- WBGO reaches a quad (R189 to R191): the clean sectors taken back are withdrawn first, then each dirty sector named is
written back, or withdrawn with WBCANCEL. The entry it frees lets accepted data take a frame. -/
def State.quadWbgo (s : State) (m : Msg) : State :=
  match (s.quad m.quad).evict.find? fun e => e.block == m.sec / 4 with
  | none => s
  | some e =>
    let cancel (s : State) (i : Nat) : State := s.send { kind := .wbcancel, quad := m.quad, toHome := true, sec := e.block * 4 + i }
    let s := e.back.foldl cancel s
    let s := e.named.foldl (fun s i =>
      if e.live then s.liveBack m (e.block * 4 + i) else
      match SMap.find i e.secs with
      | some x =>
        if x.st = .m ∨ x.st = .o then
          s.send { kind := .data, quad := m.quad, toHome := true, sec := e.block * 4 + i, data := x.data,
                   poison := x.poison, dirty := true }
        else cancel s i
      | none => cancel s i) s
    (s.updQuad m.quad fun k => { k with evict := k.evict.erase e }).quadGo m.quad

/-- A snoop reaches a quad and is answered; false when it must wait. -/
def State.quadSnoop (s : State) (m : Msg) : Bool × State :=
  match s.snoop m.quad m.sec m.kind with
  | (.wait, s) => (false, s)
  | (.miss, s) => (true, s.send { kind := .miss, quad := m.quad, toHome := true, sec := m.sec })
  | (.ack, s) => (true, s.send { kind := .ack, quad := m.quad, toHome := true, sec := m.sec })
  | (.data d p, s) =>
    (true, s.send { kind := .data, quad := m.quad, toHome := true, sec := m.sec, data := d, poison := p, dirty := true })

/-- The cache a request or a snoop goes to is past its reset invalidation (R197). -/
def State.receiverReady (s : State) (m : Msg) : Bool :=
  match m.kind.mesh with
  | 0 => (s.home (homeSec m.sec)).l3.ready
  | 1 => (s.quad m.quad).l2.ready
  | _ => true

/-- A request meets a home, or a router, that is off: its source meets the error (R30, R40). What a quad gave up is lost. -/
def State.offAnswer (s : State) (m : Msg) : State :=
  match m.kind with
  | .wbreq =>
    let s := s.updQuad m.quad fun k => { k with evict := match k.evict.find? fun e => e.block == m.sec / 4 with
      | some e => k.evict.erase e
      | none => k.evict }
    (s.addrErr (quadStop m.quad) true 4 (m.sec * 64) 0).quadGo m.quad
  | .evc => s.addrErr (quadStop m.quad) true 4 (m.sec * 64) 0
  | _ => s

/-- A packet arrives at its receiver; false when a request or a snoop cannot act yet and stays. Answers to units and to
uncached requests carry their data to the requester (R188), which takes it from the packet. -/
def State.arrive (s : State) (m : Msg) : Bool × State :=
  if m.kind.mesh = 0 ∧ !s.homeUp m.sec then (true, s.offAnswer m) else
  if !s.receiverReady m then (false, s) else
  match m.kind with
  | .snpS | .snpI | .snpIdiscard | .snpC => s.quadSnoop m
  | .wbgo => (true, s.quadWbgo m)
  | .grant => (true, s.quadTake m)
  | .done => (true, s)
  | .data => (true, if m.toHome then s.homeAnswer m else if m.quad < 16 && !m.uc then s.quadTake m else s)
  | .ack | .miss | .wbcancel => (true, s.homeAnswer m)
  | _ => (true, s.homeRequest m)

/-- A snoop that has reached its quad and waits there. -/
def State.held (s : State) (m : Msg) : Bool := m.kind.mesh == 1 && s.snoopBlocked m.quad m.sec

/-- An answer that stays for the requester it names. -/
def Msg.stays (m : Msg) : Bool :=
  !m.toHome && (decide (16 ≤ m.quad) || (m.core != 64 && (m.kind == .done || m.uc)))

/-- No earlier packet of its class is on its way between the same stops (R23). A snoop that waits at its quad, and an
answer that waits for its requester, have arrived. -/
def State.first (s : State) (m : Msg) : Bool :=
  (s.net.takeWhile fun p => p != m).all fun p => !p.samePath m || s.held p || p.stays

/-- Take one packet out of flight and let it arrive. -/
def State.deliver (s : State) (m : Msg) : State :=
  if !s.first m then s else
  match ({ s with net := s.net.erase m }).arrive m with
  | (true, s') => s'
  | (false, _) => s

/-- A requester takes the answer it waits for, if it is there; the packets before it on its path arrive first (R23). -/
def State.collect (s : State) (mine : Msg → Bool) : Option Msg × State :=
  match s.net.find? mine with
  | none => (none, s)
  | some m =>
    let s := ((s.net.takeWhile fun p => p != m).filter fun p => p.samePath m && !p.stays).foldl State.deliver s
    (some m, { s with net := s.net.erase m })

/-- The packets that move within a transaction on a block: those of the block, those of blocks on which the homes do their
own work, and those that free the oldest entry of a full eviction buffer. -/
def State.moves (s : State) (n : Nat) (m : Msg) : Bool :=
  m.sec / 4 == n / 4 ||
  ((s.home (homeSec m.sec)).trans.any fun t => t.req.sec / 4 == m.sec / 4 && (t.req.kind == .evict || t.req.kind == .reclaim)) ||
  (s.quads.any fun e => decide (8 ≤ e.2.evict.length) && e.2.evict.head?.any fun v => v.block == m.sec / 4)

/-- A packet in flight can act: it is the first on its path, its receiver is ready, and neither a hold nor a fill stops
it. -/
def State.canArrive (s : State) (m : Msg) : Bool := s.first m && s.receiverReady m && !s.held m && !m.stays

/-- Let the packets of a transaction arrive, in order of injection, until none can act or the fuel ends. -/
def State.settle (s : State) (n : Nat) : Nat → State
  | 0 => s
  | fuel + 1 =>
    match s.net.find? fun m => s.moves n m && s.canArrive m with
    | none => s
    | some m => (s.deliver m).settle n fuel

/-- Enough arrivals for a transaction that meets every quad and the evictions it needs. -/
def settleFuel : Nat := 256

/-- What can go on for a sector does: data that quads have accepted takes its frames, and packets arrive. -/
def State.progress (s : State) (n : Nat) : State :=
  (s.quads.foldl (fun s e => if e.2.fills.isEmpty then s else s.quadGo e.1) s).settle n settleFuel

/-! ### Whole accesses of a quad and of a core -/

/-- The answer of a request for a sector: it is there, it must wait, or its home does not answer (R30, R40). -/
inductive GetAns where
  | ok | wait | err
  deriving DecidableEq, Repr

/-- The requester class of a core's access (R182). -/
def Core.cls (k : Core) (l : Level) : Nat :=
  if l = .h then k.fld .WAY_CLASS .WAY_CLASS_H_CLASS else k.fld .WAY_CLASS .WAY_CLASS_CLASS

/-- The quad holds a sector's data so, for reading or with ownership. -/
def State.quadHolds (s : State) (q n : Nat) (own : Bool) : Bool :=
  let x := (s.quad q).l2.secD .l2 n
  (if own then x.st == .e || x.st == .m else x.st != .i) && (s.quadData q n).isSome

/-- Send a request unless one for the sector is under way, and let what can arrive do so. -/
def State.askHome (s : State) (m : Msg) : State :=
  (if s.fillPending m.quad m.sec then s else s.send m).progress m.sec

/-- Obtain a sector in the L2 of a quad, for reading or with ownership (R177, R185, R190, R197). -/
def State.l2Get (s : State) (q n cls : Nat) (own : Bool) : GetAns × State :=
  if !(s.quad q).l2.ready then (.wait, s) else
  match (s.quadGo q).reclaim q n with
  | (false, s) => (.wait, s)
  | (true, s) =>
    if s.quadHolds q n own then (.ok, s)
    else if !s.homeAnswers n then (.err, s)
    else
      -- a sector whose data is valid nowhere in the quad is not held
      let s := if (s.quadData q n).isNone then s.updL2 q fun l => l.updSec .l2 n fun _ => {} else s
      let ask (s : State) : State :=
        let st := ((s.quad q).l2.secD .l2 n).st
        let kind : MsgKind := if !own then .rd else if st = .s ∨ st = .o then .upg else .rfo
        s.askHome { kind := kind, quad := q, toHome := true, sec := n, cls := cls }
      let s := ask s
      -- a request that was under way may have brought the sector without ownership
      let s := if s.quadHolds q n own || s.fillPending q n then s else ask s
      (if s.quadHolds q n own then .ok else .wait, s)

/-- The events of an access that misses L1D: an L2 miss, the home it goes to, and what will serve it (R466). -/
def State.missEvents (s : State) (c : Fin 64) (q n : Nat) : State :=
  if ((s.quad q).l2.secD .l2 n).st ≠ .i then s else
  let h := homeSec n
  let x := (s.home h).l3.secD .l3 n
  let src := if (x.dir = .x ∨ x.dir = .o) ∧ x.owner ≠ q then 4 else if x.dv then 0
    else if inMram (n * 64) then 3 else 1 + n / 4 % 2
  ((s.event c evL2Miss).event c (evHome + h)).event c (evServed + src)

/-- Obtain a sector in a core's L1D (R114, R177): from the quad's other L1Ds and the L2, or through the home. -/
def State.l1dGet (s : State) (c : Fin 64) (n : Nat) (l : Level) (own : Bool) : GetAns × State :=
  let st := ((s.core c).l1d.secD .l1 n).st
  if (own && (st == .e || st == .m)) || (!own && st != .i) then (.ok, s)
  else if !(s.core c).l1d.ready then (.wait, s)
  else
    let q := quadOf c
    let s := if s.fillPending q n then s else (s.event c evL2).missEvents c q n
    match s.l2Get q n ((s.core c).cls l) own with
    | (.ok, s) =>
      let st := ((s.core c).l1d.secD .l1 n).st
      if (own && (st == .e || st == .m)) || (!own && st != .i) then (.ok, s)
      else match s.l1dTake c n own with
        | (true, s) => (.ok, s)
        | (false, s) => (.wait, s)
    | r => r

/-- A fill is under way or held back inside the quad, so that its slot stays busy. -/
def State.slotBusy (s : State) (c : Fin 64) (n : Nat) : Bool :=
  s.fillPending (quadOf c) n || s.innerBlocked c n true

/-- Write bytes into a sector that a core's L1D owns (R205). -/
def State.l1dWrite (s : State) (c : Fin 64) (n : Nat) (d : BitVec 512) (mask : BitVec 64) : State :=
  let s := s.updCore c fun k => { k with l1d := k.l1d.updSec .l1 n fun y =>
    { y with st := .m, data := mergeBytes y.data d mask } }
  s.updL2 (quadOf c) fun l => l.updSec .l2 n fun y => { y with st := .m }

/-- Read a sector through a quad's L2, as a table walk does (R162). A home that does not answer gives zeros (R30). -/
def State.l2Read (s : State) (q n cls : Nat) (pid : BitVec 29) : Option (BitVec 512 × Bool) × State :=
  match s.l2Get q n cls false with
  | (.wait, s) => (none, s)
  | (.err, s) => (some (0, false), s.addrErr (quadStop q) false 4 (n * 64) pid)
  | (.ok, s) => (some ((s.quadData q n).getD (0, false)), s)

/-- The mesh stop of a requester: a quad, or a unit (16: I/O, 17: trace, 18: Fetas). -/
def whoStop (who : Nat) : Nat := if who < 16 then quadStop who else if who = 16 then 0 else if who = 17 then 29 else 24

/-- A request of one requester of a stop is under way, or its home still works on it. -/
def State.asked (s : State) (m : Msg) : Bool :=
  let same (r : Msg) : Bool := r.kind == m.kind && r.quad == m.quad && r.sec == m.sec && r.core == m.core
  s.net.any same || ((s.home (homeSec m.sec)).trans.any fun t => same t.req) || (s.home (homeSec m.sec)).waiting.any same

/-- An uncached request of a requester reaches its home once, and what can arrive does so. -/
def State.ucAsk (s : State) (m : Msg) : State :=
  (if s.asked m then s else s.send m).progress m.sec

/-- An uncached read of a sector by a core of a quad, or by a unit (core 65) (R188). A sector that is not answered for
gives zeros (R30, R40). -/
def State.ucRead (s : State) (who n : Nat) (cls : Nat := 7) (core : Nat := 65) (pid : BitVec 29 := 0) :
    Option (BitVec 512 × Bool) × State :=
  if !s.homeAnswers n then (some (0, false), s.addrErr (whoStop who) false 4 (n * 64) (if core = 65 then 0 else pid))
  else
    let mine (m : Msg) : Bool := m.kind == .data && m.quad == who && m.core == core && m.uc && m.sec == n
    let s := if s.net.any mine then s
      else s.ucAsk { kind := .ucr, quad := who, toHome := true, sec := n, cls := cls, core := core, pid := pid }
    match s.collect mine with
    | (some m, s) => (some (m.data, m.poison), s)
    | (none, s) => (none, s)

/-- An uncached write of bytes of a sector by a core of a quad, or by a unit (core 65) (R188): true when the home has
acknowledged it. sent: it was sent before and only its acknowledgement is awaited. -/
def State.ucWrite (s : State) (who n : Nat) (d : BitVec 512) (mask : BitVec 64) (poison : Bool := false) (cls : Nat := 7)
    (core : Nat := 65) (pid : BitVec 29 := 0) (sent : Bool := false) : Bool × State :=
  if !s.homeAnswers n then (true, s.addrErr (whoStop who) true 4 (n * 64) (if core = 65 then 0 else pid))
  else
    let m : Msg := { kind := .ucw, quad := who, toHome := true, sec := n, data := d, mask := mask, poison := poison,
                     cls := cls, core := core, pid := pid }
    let s := if sent then s.progress n else s.ucAsk m
    match s.collect fun m => m.kind == .done && m.quad == who && m.core == core && m.sec == n with
    | (some _, s) => (true, s)
    | (none, s) => (sent && !s.asked m, s)

/-- The table updates of a core's walker that are under way, but for those of p, are nobody's any more (R163). -/
def State.forsakeWalk (s : State) (c : Fin 64) (p : Msg → Bool) : State :=
  let f (m : Msg) : Msg := if m.core = 128 + c.val ∧ !p m then { m with core := 64 } else m
  { s with net := s.net.map f,
           homes := s.homes.map fun e => (e.1, { e.2 with waiting := e.2.waiting.map f, trans := e.2.trans.map fun t => { t with req := f t.req } }) }

/-- A compare-and-set of bytes of a sector at its home by the walker of a core, under the core's class (R163, R182): none
while it waits, else whether the bytes were as expected. -/
def State.ucCas (s : State) (c : Fin 64) (n cls : Nat) (old new : BitVec 512) (mask : BitVec 64) (pid : BitVec 29) :
    Option Bool × State :=
  let q := quadOf c
  if !s.homeAnswers n then (some true, s.addrErr (quadStop q) true 4 (n * 64) pid)
  else
    let same (m : Msg) : Bool := m.sec == n && m.expect == some old && m.data == new && m.mask == mask
    let s := s.forsakeWalk c same
    -- its answer may be there already, from before the walk was begun again
    let mine (m : Msg) : Bool := m.kind == .done && m.quad == q && m.core == 128 + c.val && same m
    let s := if s.net.any mine then s
      else s.ucAsk { kind := .ucw, quad := q, toHome := true, sec := n, data := new, mask := mask, cls := cls,
                     core := 128 + c.val, expect := some old, pid := pid }
    match s.collect mine with
    | (some m, s) => (some !m.excl, s)
    | (none, s) => (none, s)

/-- The answers to an uncached read, a table update or a maintenance request whose instruction was discarded go to nobody
(R135). -/
def State.forsake (s : State) (c : Fin 64) : State :=
  let f (m : Msg) : Msg :=
    if m.core = 128 + c.val ∨ m.core = 192 + c.val ∨
        (m.quad = quadOf c ∧ m.core = c.val ∧ (m.kind = .ucr ∨ (m.kind = .data ∧ m.uc))) then { m with core := 64 } else m
  { s with net := s.net.map f,
           homes := s.homes.map fun p => (p.1, { p.2 with waiting := p.2.waiting.map f, trans := p.2.trans.map fun t => { t with req := f t.req } }) }

/-! ### Whole evictions inside a longer operation -/

/-- The holds of LLs on a block's sectors have run out: an operation that takes longer than 32 CCLK goes on (R65). -/
def State.endHolds (s : State) (block : Nat) : State :=
  (List.range 64).foldl (fun s i =>
    if ((s.core (Fin.ofNat 64 i)).hold).any fun n => n / 4 == block then
      s.updCore (Fin.ofNat 64 i) fun k => { k with hold := none }
    else s) s

/-- The oldest write of an MRAM die ends (R254). wrong: the wrong bits after its first pass and after each of two retries. -/
def State.mramVerify (s : State) (die : Nat) (wrong : Nat × Nat × Nat) : State :=
  match s.mramQ.find? fun w => mramDie w.sec == die with
  | none => s
  | some w =>
    let retries := if wrong.1 = 0 then 0 else if wrong.2.1 = 0 then 1 else 2
    let last := if retries = 2 then wrong.2.2 else 0
    let s := (List.range retries).foldl (fun s _ => s.logMr 4 die w.sec) s
    let s := if 0 < retries then s.countFld .MR_DIE [die] .MR_DIE_RETRIES else s
    let s := if last ≤ 1 then s else s.mramRemap w
    let s := { s with dram := { s.dram with mrErrs := s.dram.mrErrs.set 0 w.sec (if last = 1 then 1 else 0) } }
    ({ s with mramQ := s.mramQ.filter fun v => v.id != w.id } : State).answerProbes.homesGo

/-- The oldest write of a die ends within an operation that takes longer: how many bits its passes leave wrong is free (log
entry 94). -/
def State.mramStep (s : State) (die : Nat) : State :=
  match s.fresh with
  | (w, s) => s.mramVerify die (w.toNat % 513, w.toNat / 2 ^ 16 % 513, w.toNat / 2 ^ 32 % 513)

/-- The writes of a die end, oldest first, until none is left or the fuel ends. -/
def State.mramSteps (s : State) (die : Nat) : Nat → State
  | 0 => s
  | fuel + 1 => if s.mramQ.any fun w => mramDie w.sec == die then (s.mramStep die).mramSteps die fuel else s

/-- Every MRAM write in the queues passes its write-verify (R252, R254). -/
def State.mramAll (s : State) : State :=
  (List.range 4).foldl (fun s die => s.mramSteps die (s.mramQ.length + 256)) s

/-! ### Accesses of units that go on until they are done -/

/-- What an access of a sector waits for comes about while a longer operation goes on: the holds of LLs run out (R65), and the
full queues of MRAM dies, and that of its own die, move on by one write (R252). -/
def State.waitOn (s : State) (n : Nat) : State :=
  let s := s.endHolds (n / 4)
  ((List.range 4).foldl (fun s die =>
    if decide (16 < (s.mramQ.filter fun w => mramDie w.sec == die).length) || (inMram (n * 64) && mramDie n == die) then s.mramStep die
    else s) s).progress n

/-- An uncached read by a unit, retried while it waits. -/
def State.agentRead (s : State) (who n : Nat) (pid : BitVec 29) : Nat → Option (BitVec 512 × Bool) × State
  | 0 => s.ucRead who n 7 65 pid
  | fuel + 1 => match s.ucRead who n 7 65 pid with
    | (none, s) => (s.waitOn n).agentRead who n pid fuel
    | r => r

/-- An uncached write by a unit, retried until its home has accepted it (R217). -/
def State.agentWrite (s : State) (who n : Nat) (d : BitVec 512) (mask : BitVec 64) (poison : Bool) (pid : BitVec 29) : Nat → Bool × State
  | 0 => s.ucWrite who n d mask poison 7 65 pid
  | fuel + 1 => match s.ucWrite who n d mask poison 7 65 pid with
    | (false, s) => (s.waitOn n).agentWrite who n d mask poison pid fuel
    | r => r

/-- A clean of a sector by a unit: its dirty data goes to memory and its caches keep it clean (R182, R194). -/
def State.cleanOnce (s : State) (who n : Nat) (pid : BitVec 29) : Bool × State :=
  if !s.homeAnswers n then (true, s.addrErr (whoStop who) false 4 (n * 64) 0) else
  let s := s.ucAsk { kind := .cln, quad := who, toHome := true, sec := n, cls := 7, core := 65, pid := pid }
  match s.collect fun m => m.kind == .done && m.quad == who && m.core == 65 && m.sec == n with
  | (some _, s) => (true, s)
  | (none, s) => (false, s)

/-- A clean by a unit, retried until the memory has accepted what it writes (R194). -/
def State.agentClean (s : State) (who n : Nat) (pid : BitVec 29) : Nat → Bool × State
  | 0 => s.cleanOnce who n pid
  | fuel + 1 => match s.cleanOnce who n pid with
    | (false, s) => (s.waitOn n).agentClean who n pid fuel
    | r => r

/-- Enough tries for an access that meets full queues. -/
def agentFuel : Nat := 64

/-- The home does its own work on a block at once, within an operation that waits for it (R187, R258). -/
def State.ownNow (s : State) (kind : MsgKind) (sec : Nat) : State :=
  let s := (s.endHolds (sec / 4)).progress sec
  let s := (s.homeRequest (ownWork kind sec)).progress sec
  if (s.home (homeSec sec)).has kind (sec / 4) then (s.mramSteps (mramDie sec) (s.mramQ.length + 16)).progress sec else s

/-- A home evicts the block of a frame at once (R187). -/
def State.l3Evict (s : State) (h : Nat) (f : Nat) : State :=
  match (s.home h).l3.frame f with
  | none => s
  | some fr => s.ownNow .evict (fr.block * 4)

/-- A home reclaims a counted sector at once (R258). -/
def State.reclaimSec (s : State) (n : Nat) : State := s.ownNow .reclaim n

/-- A quad evicts the block of an L2 frame at once, its writeback included (R189). -/
def State.l2EvictNow (s : State) (q f : Nat) : State :=
  match (s.quad q).l2.frame f with
  | none => s
  | some fr =>
    let s := (s.endHolds fr.block).progress (fr.block * 4)
    (s.l2Evict q f).progress (fr.block * 4)

end Sys2Proof.Machine
end

