-- ==== Sys2Proof/Machine/Translate.lean ====
section
/-! DEFINITION. Segments, page tables, translation caches and the walk (chapter 6). -/

namespace Sys2Proof.Machine

/-- The kinds of access a translation is made for (R159, R160). -/
inductive Acc where
  | fetch | load | store | rmw
  deriving DecidableEq, Repr

def Acc.needR : Acc → Bool
  | .load | .rmw => true
  | _ => false
def Acc.needW : Acc → Bool
  | .store | .rmw => true
  | _ => false
def Acc.needX : Acc → Bool
  | .fetch => true
  | _ => false

/-- The translation cause of an access (R160). -/
def Acc.trans : Acc → Nat
  | .fetch => 0x01
  | .load => 0x05
  | _ => 0x06

/-- The rights cause of an access (R159). -/
def Acc.rights : Acc → Nat
  | .fetch => 0x02
  | _ => 0x07

/-- A fault of a translation: its cause, and what XLAT_INFO and TRAP_GPA hold (R165). -/
structure XFault where
  cause : Nat
  sub : Nat
  stage : Nat := 0
  level : Nat := 0
  tread : Bool := false
  gpa : Nat := 0
  deriving DecidableEq, Repr

/-- XLAT_INFO of a fault. -/
def XFault.info (f : XFault) : Word :=
  BitVec.ofNat 64 (f.sub * 2 ^ 12 + f.stage * 2 ^ 10 + f.level * 2 ^ 8 + b2n f.tread * 2 ^ 7)

/-- The answer of a translation step. -/
inductive XAns (α : Type) where
  | ok (a : α)
  | fault (f : XFault)
  /-- a walk read waits for a transaction that other agents hold up -/
  | wait
  deriving Repr

/-- A translation context (R147). -/
structure Ctx where
  lvl : Level
  vmid : Nat
  asid : Nat
  segBase : Nat
  segLen : Nat
  ptRoot : Nat
  hstage : Bool
  hRoot : Nat
  had : Bool
  hHad : Bool
  ponly : Bool
  collide : Bool
  deriving Repr

/-- The context of a level of a core (R147, R148, R163, R164). -/
def Core.ctx (k : Core) (l : Level) : Ctx :=
  let vm := k.fld .VMID .VMID_VMID
  let asid := k.fld .ASID .ASID_ASID
  let hAsid := k.fld .H_ASID .H_ASID_BASE
  if l = .h then
    { lvl := l, vmid := 0, asid := hAsid, segBase := k.fld .H_SEG_ROOT .H_SEG_ROOT_BASE * 64,
      segLen := k.fld .H_SEG_ROOT .H_SEG_ROOT_LEN, ptRoot := k.fld .H_PT_ROOT .H_PT_ROOT_BASE * 4096, hstage := false,
      hRoot := 0, had := flag (k.reg .HSTG_CTL) .HSTG_CTL_H1HAD, hHad := false, ponly := false, collide := false }
  else
    { lvl := l, vmid := vm, asid := asid, segBase := k.fld .SEG_ROOT .SEG_ROOT_BASE * 64,
      segLen := k.fld .SEG_ROOT .SEG_ROOT_LEN, ptRoot := k.fld .PT_ROOT .PT_ROOT_BASE * 4096, hstage := vm != 0,
      hRoot := k.fld .HSTG_ROOT .HSTG_ROOT_BASE * 4096, had := flag (k.reg .STG1_CTL) .STG1_CTL_HAD,
      hHad := flag (k.reg .HSTG_CTL) .HSTG_CTL_HAD, ponly := vm != 0 && flag (k.reg .PONLY_CTL) .PONLY_CTL_PONLY,
      collide := vm == 0 && asid == hAsid }

/-- What a translation has done so far: the state, the cache entries it used (structure, slot), what it recorded for
installation, the A and D bits it is to set (entry's address, value read, new value), and the stage-1 read in the DRAM
range it made (R160, R163, R164, R171). Structures: 0 segment look-aside, 1 ITLB, 2 DTLB, 3 L2 TLB, 4 walk cache. -/
structure Walk where
  s : State
  used : List (Nat × Nat) := []
  slb : Option SlbEntry := none
  leaves : List TlbEntry := []
  wcs : List WcEntry := []
  marks : List (Nat × Nat × Nat) := []
  dram : Option XFault := none
  /-- an entry to be updated has changed: the walk starts again (R163) -/
  again : Bool := false

/-! ### Translation caches (R167, R168) -/

def findSlot {α : Type} (m : SMap (Option α)) (p : α → Bool) : Option (Nat × α) :=
  match m.find? fun e => match e.2 with | some x => p x | none => false with
  | some (i, some x) => some (i, x)
  | _ => none

/-- A TLB entry serves an address in a context. -/
def TlbEntry.serves (e : TlbEntry) (hs : Bool) (vmid asid a : Nat) : Bool :=
  e.hstage == hs && e.vmid == vmid && (hs || e.g || e.asid == asid) && e.va == a / 2 ^ e.lg * 2 ^ e.lg

/-- Put an entry in a fully associative structure: in place of one with the same tag, else where the generator says. -/
def installIn {α : Type} [DecidableEq α] (m : SMap (Option α)) (seed : BitVec 16) (slots : List Nat) (same : α → Bool)
    (e : α) : SMap (Option α) × BitVec 16 :=
  match findSlot m same with
  | some (i, _) => (m.set none i (some e), seed)
  | none => let s := lfsrAdvance seed; (m.set none (pickWay s slots) (some e), s)

def TlbEntry.sameTag (e x : TlbEntry) : Bool :=
  x.hstage == e.hstage && x.vmid == e.vmid && x.va == e.va && x.lg == e.lg && x.g == e.g && (e.hstage || e.g || x.asid == e.asid)

def Core.putSlb (k : Core) (e : SlbEntry) : Core :=
  let r := installIn k.slb k.slbSeed (List.range 16)
    (fun x => x.vmid == e.vmid && x.seg == e.seg && x.d.g == e.d.g && (e.d.g || x.asid == e.asid)) e
  { k with slb := r.1, slbSeed := r.2 }

def Core.putItlb (k : Core) (e : TlbEntry) : Core :=
  let r := installIn k.itlb k.itlbSeed (List.range 32) e.sameTag e
  { k with itlb := r.1, itlbSeed := r.2 }

def Core.putDtlb (k : Core) (e : TlbEntry) : Core :=
  let r := installIn k.dtlb k.dtlbSeed (List.range 32) e.sameTag e
  { k with dtlb := r.1, dtlbSeed := r.2 }

/-- The L2 TLB: 256 sets of 8 ways, indexed by the page number (R167). -/
def l2Set (a lg : Nat) : List Nat := (List.range 8).map fun w => a / 2 ^ lg % 256 * 8 + w

def Core.putL2tlb (k : Core) (e : TlbEntry) : Core :=
  let r := installIn k.l2tlb k.l2tlbSeed (l2Set e.va e.lg) e.sameTag e
  { k with l2tlb := r.1, l2tlbSeed := r.2 }

def Core.putWc (k : Core) (e : WcEntry) : Core :=
  let r := installIn k.wc k.wcSeed (List.range 32)
    (fun x => x.hstage == e.hstage && x.vmid == e.vmid && (e.hstage || x.asid == e.asid) && x.lvl == e.lvl && x.pfx == e.pfx) e
  { k with wc := r.1, wcSeed := r.2 }

/-- Remove one slot of a structure. -/
def Core.dropSlot (k : Core) (u : Nat × Nat) : Core :=
  match u.1 with
  | 0 => { k with slb := k.slb.set none u.2 none }
  | 1 => { k with itlb := k.itlb.set none u.2 none }
  | 2 => { k with dtlb := k.dtlb.set none u.2 none }
  | 3 => { k with l2tlb := k.l2tlb.set none u.2 none }
  | _ => { k with wc := k.wc.set none u.2 none }

/-! ### Walk reads (R162) -/

/-- A number of bytes out of a sector's data. -/
def secBytes (d : BitVec 512) (off size : Nat) : Nat := d.toNat / 256 ^ off % 256 ^ size

/-- A walk read of size bytes, through the quad's L2. -/
def Walk.read (w : Walk) (c : Fin 64) (x : Ctx) (pa size : Nat) (hs tread : Bool) (gpa lvl : Nat) : XAns Nat × Walk :=
  let flt (cause sub : Nat) : XFault :=
    if hs then { cause := 0x14, sub := sub, stage := 2, level := lvl - 1, tread := tread, gpa := gpa }
    else { cause := cause, sub := sub, stage := if size = 16 then 0 else 1, level := if size = 16 then 0 else lvl - 1,
           tread := true }
  if !w.s.isMem pa then (.fault (flt 0x0B 0xA), w)
  else
    let hit := ((w.s.quad (quadOf c)).l2.secD .l2 (pa / 64)).st != .i
    let u := w.s.event c evWalkRead
    let u := if hit then u.event c evWalkReadL2 else u
    let k := w.s.core c
    match u.l2Read (quadOf c) (pa / 64) (k.cls x.lvl) (k.pid x.lvl) with
    | (none, s) => (.wait, { w with s := s })
    | (some (d, poison), s) =>
      let w := { w with s := s }
      if poison then (.fault (flt 0x0C 0xB), w) else (.ok (secBytes d (pa % 64) size), w)

/-! ### Table entries (R155, R156) -/

def nbit (p i : Nat) : Bool := p.testBit i
def pteAddr (p : Nat) : Nat := p / 2 ^ 12 % 2 ^ 34 * 2 ^ 12
def mtOf : Nat → MType
  | 0 => .normal
  | 1 => .persistent
  | 2 => .uncached
  | _ => .device
def MType.rank : MType → Nat
  | .normal => 0
  | .persistent => 1
  | .uncached => 2
  | .device => 3
/-- The stronger of two types (R158). -/
def MType.stronger (a b : MType) : MType := if a.rank < b.rank then b else a

/-- log2 of the size a leaf at a level maps (R154). -/
def leafLg (lvl : Nat) : Nat := 12 + 9 * (lvl - 1)

/-- A valid entry is malformed (R156). -/
def pteBad (p lvl : Nat) (hs : Bool) : Bool :=
  let leaf := nbit p 1
  decide (p / 2 ^ 47 % 32 ≠ 0) || (leaf && lvl == 4) || (!leaf && lvl == 1) ||
  (!leaf && (nbit p 2 || nbit p 3 || nbit p 4 || nbit p 5 || nbit p 6 || nbit p 7 || nbit p 8 || nbit p 9 || nbit p 10 ||
    nbit p 11 || nbit p 46)) ||
  (leaf && nbit p 3 && !nbit p 2) ||
  (leaf && lvl == 2 && decide (pteAddr p % 2 ^ 21 ≠ 0)) || (leaf && lvl == 3 && decide (pteAddr p % 2 ^ 30 ≠ 0)) ||
  (leaf && hs && (nbit p 6 || nbit p 5 || nbit p 11 || nbit p 46))

/-- Set bits of a table entry by compare-and-set at its home (R163): none while it waits, else whether the entry still
held what the walk read. -/
def State.setPteBits (s : State) (c : Fin 64) (l : Level) (pa old new : Nat) : Option Bool × State :=
  if old = new then (some true, s) else
  let at_ (v : Nat) : BitVec 512 := BitVec.ofNat 512 (v * 256 ^ (pa % 64))
  let k := s.core c
  match s.ucCas c (pa / 64) (k.cls l) (at_ old) (at_ new) (BitVec.ofNat 64 (255 * 2 ^ (pa % 64))) (k.pid l) with
  | (some true, s) => (some true, s.event c evAdUpdate)
  | r => r

/-- Record A and D bits to set in an entry, with those already recorded for it (R163). -/
def Walk.mark (w : Walk) (pa old new : Nat) : Walk :=
  if old = new then w
  else
    { w with marks := if w.marks.any (fun m => m.1 == pa) then
        w.marks.map fun m => if m.1 = pa then (m.1, m.2.1, m.2.2 ||| new) else m
      else w.marks ++ [(pa, old, new)] }

/-- Set the recorded A and D bits: the rights checks of the access have passed (R163). The answer to an update that another
walk of the core sent is taken by nobody. -/
def State.setMarks (s : State) (c : Fin 64) (l : Level) : List (Nat × Nat × Nat) → Option Bool × State
  | [] => (some true, s.forsakeWalk c fun _ => false)
  | (pa, old, new) :: ms =>
    match s.setPteBits c l pa old new with
    | (some true, s) => s.setMarks c l ms
    | r => r

/-- What an H-stage translation gives: the page, its rights, type and D (R161). -/
structure HLeaf where
  pa : Nat
  lg : Nat
  r : Bool
  w : Bool
  x : Bool
  mt : MType
  d : Bool
  /-- address and value of the entry, when a walk has just read it -/
  src : Option (Nat × Nat) := none
  deriving Repr

/-- Why an H-stage translation is made: for a table read, for the update of a stage-1 entry, or for the access. -/
inductive HWhy where
  | table | update | access (a : Acc)
  deriving DecidableEq, Repr

def HWhy.right (y : HWhy) (e : HLeaf) : Bool :=
  match y with
  | .table => e.r
  | .update => e.w
  | .access a => (!a.needR || e.r) && (!a.needW || e.w) && (!a.needX || e.x)

def HWhy.writes : HWhy → Bool
  | .table => false
  | .update => true
  | .access a => a.needW

/-- The H-stage walk from a table (R161, R163). quiet: a prefetch, which sets no A or D. -/
def hWalk (c : Fin 64) (x : Ctx) (gpa : Nat) (y : HWhy) (quiet : Bool) (table : Nat) : Nat → Walk → XAns HLeaf × Walk
  | 0, w => (.wait, w)
  | lvl + 1, w =>
    let lv := lvl + 1
    let tread := y != .access .fetch && y != .access .load && y != .access .store && y != .access .rmw
    let flt (sub : Nat) : XFault := { cause := 0x14, sub := sub, stage := 2, level := lvl, tread := tread, gpa := gpa }
    let pa := table + gpa / 2 ^ leafLg lv % 512 * 8
    match w.read c x pa 8 true tread gpa lv with
    | (.wait, w) => (.wait, w)
    | (.fault f, w) => (.fault f, w)
    | (.ok p, w) =>
      if !nbit p 0 then (.fault (flt 1), w)
      else if pteBad p lv true then (.fault (flt 2), w)
      else if !nbit p 1 then
        let w := { w with wcs := w.wcs ++ [{ hstage := true, vmid := x.vmid, asid := 0, lvl := lvl, pfx := gpa / 2 ^ leafLg lv,
                                             addr := pteAddr p }] }
        hWalk c x gpa y quiet (pteAddr p) lvl w
      else
        let leaf : HLeaf := { pa := pteAddr p, lg := leafLg lv, r := nbit p 2, w := nbit p 3, x := nbit p 4,
                              mt := mtOf (p / 2 ^ 9 % 4), d := nbit p 8, src := some (pa, p) }
        let needD := y.writes && !nbit p 8
        if !nbit p 7 && (!x.hHad || quiet) then (.fault (flt 4), w)
        else if needD && (!x.hHad || quiet) then (.fault (flt 5), w)
        else if !y.right leaf then
          (.fault { flt (if y = .update then 0xF else 0xC) with level := 0 }, w)
        else
          let new := p ||| 0x80 ||| (if needD then 0x100 else 0)
          let leaf := { leaf with d := leaf.d || needD }
          let w := w.mark pa p new
          let w := { w with leaves := w.leaves ++
            [{ hstage := true, vmid := x.vmid, asid := 0, g := false, va := gpa / 2 ^ leafLg lv * 2 ^ leafLg lv,
               lg := leafLg lv, pa := leaf.pa, gpa := 0, ua := false, x := false, w := false, r := false, hx := leaf.x,
               hw := leaf.w, hr := leaf.r, mto := false, mt := .normal, hmt := leaf.mt, d := true, hd := leaf.d }] }
          (.ok leaf, w)

/-- The deepest walk-cache pointer for an address: the level and address of the table to go on from. -/
def Core.wcDeepest (k : Core) (hs : Bool) (vmid asid a : Nat) : Option (Nat × WcEntry) :=
  ([1, 2, 3].filterMap fun l =>
    findSlot k.wc fun e => e.hstage == hs && e.vmid == vmid && (hs || e.asid == asid) && e.lvl == l &&
      e.pfx == a / 2 ^ leafLg (l + 1)).head?

def hLeafOf (e : TlbEntry) : HLeaf :=
  { pa := e.pa, lg := e.lg, r := e.hr, w := e.hw, x := e.hx, mt := e.hmt, d := e.hd }

/-- Translate a guest physical address (R161); the identity in a context without an H stage. caches: false for the
re-walk of R171. -/
def stage2 (c : Fin 64) (x : Ctx) (gpa : Nat) (y : HWhy) (quiet caches : Bool) (w : Walk) : XAns HLeaf × Walk :=
  if !x.hstage then
    (.ok { pa := gpa / 4096 * 4096, lg := 12, r := true, w := true, x := true, mt := .normal, d := true }, w)
  else
    let k := w.s.core c
    match (if caches then findSlot k.l2tlb fun e => e.serves true x.vmid 0 gpa && (!y.writes || e.hd) else none) with
    | some (i, e) =>
      let w := { w with used := w.used ++ [(3, i)] }
      if y.right (hLeafOf e) then (.ok (hLeafOf e), w)
      else (.fault { cause := 0x14, sub := if y = .update then 0xF else 0xC, stage := 2, level := 0,
                     tread := y == .table || y == .update, gpa := gpa }, w)
    | none =>
      let w := if caches then { w with s := w.s.event c evL2TlbMiss } else w
      match (if caches then k.wcDeepest true x.vmid 0 gpa else none) with
      | some (i, e) => hWalk c x gpa y quiet e.addr e.lvl { w with used := w.used ++ [(4, i)], s := w.s.event c evWalkCacheHit }
      | none => hWalk c x gpa y quiet x.hRoot 4 w

def HLeaf.addr (e : HLeaf) (gpa : Nat) : Nat := e.pa + gpa % 2 ^ e.lg

/-! ### Stage 1 -/

/-- Remember the first stage-1 or descriptor read in the DRAM range (R164). -/
def Walk.noteDram (w : Walk) (pa gpa : Nat) (desc : Bool) (lvl : Nat) : Walk :=
  if inDram pa && w.dram.isNone then
    { w with dram := some { cause := 0x15, sub := 0xE, stage := if desc then 0 else 1, level := if desc then 0 else lvl - 1,
                            tread := true, gpa := gpa } }
  else w

/-- Stage-1 rights of a descriptor and a leaf (R159). -/
def rightsOk (x : Ctx) (a : Acc) (d : Desc) (ua lx lw lr : Bool) : Bool :=
  (!a.needR || (d.r && lr)) && (!a.needW || (d.w && lw)) && (!a.needX || (d.x && lx)) &&
  (match x.lvl with
   | .u => d.ua && ua
   | _ => !a.needX || (!d.ua && !ua))

/-- Page sizes a segment permits (R151). -/
def pscOk (psc lvl : Nat) : Bool := psc == 0 || psc == lvl

/-- The H stage permits the update of a stage-1 entry that it mapped: its W right, and D (R159, R163). What the read of the
entry found serves again, so that the update makes no further read (R119); only a clean entry of the L2 TLB is walked
again. -/
def updateOk (c : Fin 64) (x : Ctx) (gpa : Nat) (h : HLeaf) (quiet caches : Bool) (w : Walk) : XAns HLeaf × Walk :=
  let flt (sub lvl : Nat) : XFault := { cause := 0x14, sub := sub, stage := 2, level := lvl, tread := true, gpa := gpa }
  if !x.hstage then (.ok h, w)
  else if !h.w then (.fault (flt 0xF 0), w)
  else if h.d then (.ok h, w)
  else match h.src with
    | none => stage2 c x gpa .update quiet caches w
    | some (pa, p) =>
      if !x.hHad || quiet then (.fault (flt 5 ((h.lg - 12) / 9)), w) else (.ok { h with d := true }, w.mark pa p (p ||| 0x180))

/-- The stage-1 walk from a table (R160, walk1). DESIGN CHOICE (log entry 93): TRAP_GPA of a fault on the final address holds
its page offset too; a PREFETCH that reaches a leaf with A clear, or D clear for kind 1, is dropped; a fault of the final
address comes before the refusal of the A or D update by the H stage. -/
def walk1 (c : Fin 64) (x : Ctx) (la : Nat) (a : Acc) (d : Desc) (quiet caches : Bool) (table : Nat) :
    Nat → Walk → XAns TlbEntry × Walk
  | 0, w => (.wait, w)
  | lvl + 1, w =>
    let lv := lvl + 1
    let flt (sub : Nat) : XFault := { cause := a.trans, sub := sub, stage := 1, level := lvl, tread := true }
    let gpa := table + la / 2 ^ leafLg lv % 512 * 8
    match stage2 c x gpa .table quiet caches w with
    | (.wait, w) => (.wait, w)
    | (.fault f, w) => (.fault f, w)
    | (.ok h, w) =>
      let pa := h.addr gpa
      match w.read c x pa 8 false true gpa lv with
      | (.wait, w) => (.wait, w)
      | (.fault f, w) => (.fault f, w)
      | (.ok p, w) =>
        let w := w.noteDram pa gpa false lv
        if !nbit p 0 then (.fault (flt 1), w)
        else if pteBad p lv false then (.fault (flt 2), w)
        else if !nbit p 1 then
          let w := { w with wcs := w.wcs ++ [{ hstage := false, vmid := x.vmid, asid := x.asid, lvl := lvl,
                                               pfx := la / 2 ^ leafLg lv, addr := pteAddr p }] }
          walk1 c x la a d quiet caches (pteAddr p) lvl w
        else if !pscOk d.psc lv then (.fault (flt 3), w)
        else
          let needD := a.needW && !nbit p 8
          if !nbit p 7 && (!x.had || quiet) then (.fault (flt 4), w)
          else if needD && (!x.had || quiet) then (.fault (flt 5), w)
          else
            let lg := leafLg lv
            let pgpa := pteAddr p + la % 2 ^ lg
            match stage2 c x pgpa (.access a) quiet caches w with
            | (.wait, w) => (.wait, w)
            | (.fault f, w) => (.fault f, w)
            | (.ok h2, w) =>
              let rok := rightsOk x a d (nbit p 5) (nbit p 4) (nbit p 3) (nbit p 2)
              let new := if rok then p ||| 0x80 ||| (if needD then 0x100 else 0) else p
              -- an update of a guest's entry needs the H-stage W right
              match (if new = p then (XAns.ok h, w) else updateOk c x gpa h quiet caches w) with
              | (.wait, w) => (.wait, w)
              | (.fault f, w) => (.fault f, w)
              | (.ok _, w) =>
                let lg' := if x.hstage then min lg h2.lg else lg
                let base := la / 2 ^ lg' * 2 ^ lg'
                let e : TlbEntry :=
                  { hstage := false, vmid := x.vmid, asid := x.asid, g := nbit p 6, va := base, lg := lg',
                    pa := if x.hstage then h2.addr pgpa / 2 ^ lg' * 2 ^ lg' else pteAddr p + base % 2 ^ lg,
                    gpa := pgpa / 2 ^ lg' * 2 ^ lg', ua := nbit p 5, x := nbit p 4, w := nbit p 3, r := nbit p 2,
                    hx := h2.x, hw := h2.w, hr := h2.r, mto := nbit p 11, mt := mtOf (p / 2 ^ 9 % 4),
                    hmt := h2.mt, d := nbit p 8 || (rok && needD), hd := h2.d }
                let w := w.mark pa p new
                -- a leaf whose A stays clear is never installed (R168)
                let w := { w with leaves := if nbit new 7 then w.leaves ++ [e] else w.leaves }
                (.ok e, w)

/-- A descriptor from its two doublewords, or none when malformed (R151, R152). -/
def descOf (lo hi : Nat) : Option Desc :=
  let base := lo / 2 ^ 12 % 2 ^ 36 * 2 ^ 12
  let limit := hi % 2 ^ 36
  if !nbit lo 0 || decide (lo / 2 ^ 48 ≠ 0) || nbit lo 11 || nbit lo 6 || decide (hi / 2 ^ 36 ≠ 0) ||
     (nbit lo 8 && !nbit lo 7) || decide (2 ^ 48 < base + (limit + 1) * 4096) then none
  else some { base := base, limit := limit, ua := nbit lo 10, x := nbit lo 9, w := nbit lo 8, r := nbit lo 7,
              psc := lo / 16 % 4, mt := mtOf (lo / 4 % 4), g := nbit lo 1 }

/-- The descriptor of a segment (R160). -/
def getDesc (c : Fin 64) (x : Ctx) (seg : Nat) (quiet caches : Bool) (w : Walk) : XAns Desc × Walk :=
  let hit := if caches then
    findSlot (w.s.core c).slb fun e => e.vmid == x.vmid && e.seg == seg && (e.d.g || e.asid == x.asid) else none
  match hit with
  | some (i, e) => (.ok e.d, { w with used := w.used ++ [(0, i)] })
  | none =>
    let w := { w with s := w.s.event c evSlbMiss }
    if 2 ^ x.segLen ≤ seg then (.fault { cause := 0x0A, sub := 7 }, w) else
    let gpa := x.segBase + seg * 16
    match stage2 c x gpa .table quiet caches w with
    | (.wait, w) => (.wait, w)
    | (.fault f, w) => (.fault f, w)
    | (.ok h, w) =>
      let pa := h.addr gpa
      match w.read c x pa 16 false true gpa 1 with
      | (.wait, w) => (.wait, w)
      | (.fault f, w) => (.fault f, w)
      | (.ok v, w) =>
        let w := w.noteDram pa gpa true 1
        match descOf (v % 2 ^ 64) (v / 2 ^ 64) with
        | none => (.fault { cause := 0x0A, sub := 8, tread := true }, w)
        | some d => (.ok d, { w with slb := some { vmid := x.vmid, asid := x.asid, seg := seg, d := d } })

/-- How a translated access acts (R158): the physical address and the type that its range gives it. -/
structure Xlat where
  pa : Nat
  /-- the combined type -/
  mt : MType
  deriving Repr

/-- A location is cached: DRAM or MRAM of type Normal or Persistent (R158). -/
def State.cached (s : State) (t : Xlat) : Bool := s.isMem t.pa && (t.mt == .normal || t.mt == .persistent)

/-- A location has Device ordering (R29, R158). -/
def State.isDevice (s : State) (t : Xlat) : Bool := !s.isMem t.pa || t.mt == .device

/-- Install what a translation recorded (R168). toTlb: install leaves in the ITLB or DTLB too (R169). -/
def Walk.install (w : Walk) (c : Fin 64) (a : Acc) (toTlb : Bool) : State :=
  w.s.updCore c fun k =>
    let k := match w.slb with | some e => k.putSlb e | none => k
    let k := w.wcs.foldl (fun k e => k.putWc e) k
    let k := w.leaves.foldl (fun k e => k.putL2tlb e) k
    if toTlb then
      (w.leaves.filter fun e => !e.hstage).foldl (fun k e => if a = .fetch then k.putItlb e else k.putDtlb e) k
    else k

/-- The rights and type checks of a data access or fetch that reached a leaf (R158, R159). must: the access must reach
a location that is cached (R67, R71). -/
def State.leafFault (s : State) (x : Ctx) (a : Acc) (must : Bool) (d : Desc) (e : TlbEntry) (t : Xlat) (gpa : Nat) :
    Option XFault :=
  if !((!a.needR || e.hr) && (!a.needW || e.hw) && (!a.needX || e.hx)) then
    some { cause := 0x14, sub := 0xC, stage := 2, gpa := gpa }
  else if !rightsOk x a d e.ua e.x e.w e.r || (a = .fetch && t.mt = .device) || (must && !s.cached t) then
    some { cause := a.rights, sub := 0xC, stage := 1 }
  else none

/-- The persistent-only checks (R164). DESIGN CHOICE (log entry 93): where both hold, a read of a table in DRAM is reported
before the final address, and of several reads the first. -/
def Walk.ponlyFault (w : Walk) (x : Ctx) (a : Acc) (pa gpa : Nat) : Option XFault :=
  let cause := if a = .fetch then 0x14 else 0x15
  if !x.ponly then none
  else match w.dram with
    | some f => some { f with cause := cause }
    | none => if inDram pa then some { cause := cause, sub := 0xD, stage := 2, gpa := gpa } else none

/-- The checks after the walk, in the order of R129: a fetch meets the persistent-only checks (cause 0x14) before 0x02,
a data access after 0x07. -/
def Walk.endFault (w : Walk) (x : Ctx) (a : Acc) (must : Bool) (d : Desc) (e : TlbEntry) (t : Xlat) (gpa : Nat) :
    Option XFault :=
  let first := w.s.leafFault x a must d e t gpa
  let second := w.ponlyFault x a t.pa gpa
  match first, second with
  | none, f => f
  | some f, none => some f
  | some f, some g => if a = .fetch && f.cause = 0x02 then some g else some f

/-- One translation (R160). A and D are set once the rights and type checks have passed (R163). DESIGN CHOICE (log entry
93): an EA with bits [63:58] set is reported before an ASID collision (R148). -/
def translateOnce (c : Fin 64) (x : Ctx) (ea : Word) (a : Acc) (must quiet caches : Bool) (s : State) :
    XAns Xlat × Walk × State :=
  let w : Walk := { s := s }
  let seg := ea.toNat / 2 ^ 48 % 1024
  let off := ea.toNat % 2 ^ 48
  if ea.toNat / 2 ^ 58 ≠ 0 then (.fault { cause := 0x0A, sub := 6 }, w, s)
  else if x.collide then (.fault { cause := 0x0A, sub := 9 }, w, s)
  else
    match getDesc c x seg quiet caches w with
    | (.wait, w) => (.wait, w, w.s)
    | (.fault f, w) => (.fault f, w, w.s)
    | (.ok d, w) =>
      if d.limit < off / 4096 then (.fault { cause := 0x09, sub := 0 }, w, w.s)
      else
        let la := d.base + off
        let k := w.s.core c
        let ok (e : TlbEntry) : Bool := e.serves false x.vmid x.asid la && (!a.needW || (e.d && e.hd))
        let first := if !caches then none else findSlot (if a = .fetch then k.itlb else k.dtlb) ok
        let ans : XAns TlbEntry × Walk :=
          match first with
          | some (i, e) => (.ok e, { w with used := w.used ++ [(if a = .fetch then 1 else 2, i)] })
          | none =>
            let w := { w with s := w.s.event c (if a = .fetch then evItlbMiss else evDtlbMiss) }
            match (if caches then findSlot k.l2tlb ok else none) with
            | some (i, e) => (.ok e, { w with used := w.used ++ [(3, i)], leaves := [e] })
            | none =>
              let w := if caches then { w with s := w.s.event c evL2TlbMiss } else w
              match (if caches then k.wcDeepest false x.vmid x.asid la else none) with
              | some (i, e) =>
                walk1 c x la a d quiet caches e.addr e.lvl { w with used := w.used ++ [(4, i)], s := w.s.event c evWalkCacheHit }
              | none => walk1 c x la a d quiet caches x.ptRoot 4 w
        match ans with
        | (.wait, w) => (.wait, w, w.s)
        | (.fault f, w) => (.fault f, w, w.s)
        | (.ok e, w) =>
          let gpa := e.gpa + (la - e.va)
          let t : Xlat := { pa := e.pa + (la - e.va), mt := (if e.mto then e.mt else d.mt).stronger e.hmt }
          let fault := w.endFault x a must d e t gpa
          match (if (w.s.leafFault x a must d e t gpa).isSome then (some true, w.s) else w.s.setMarks c x.lvl w.marks) with
          | (none, s) => (.wait, w, s)
          | (some false, s) => (.wait, { w with again := true }, s)
          | (some true, s) =>
            match fault with
            | some f => (.fault f, w, s)
            | none => (.ok t, w, { w with s := s }.install c a (!quiet))

/-- A fault for which cached entries are discarded and the tables read afresh (R171). -/
def XFault.rewalks (f : XFault) : Bool :=
  f.cause == 0x02 || f.cause == 0x07 || f.sub == 4 || f.sub == 5

/-- One translation, begun again once when an entry changed under it (R163). -/
def translateTwice (c : Fin 64) (x : Ctx) (ea : Word) (a : Acc) (must quiet caches : Bool) (s : State) :
    XAns Xlat × Walk × State :=
  match translateOnce c x ea a must quiet caches s with
  | (r, w, s) => if w.again then translateOnce c x ea a must quiet caches s else (r, w, s)

/-- Translate an effective address for an access at a level of a core (R160, R171). must: the access must reach a
location that is cached (R67, R71). quiet: for a prefetch, which sets no A or D and does not fill the ITLB or DTLB (R62,
R169). -/
def translateFor (c : Fin 64) (l : Level) (ea : Word) (a : Acc) (must quiet : Bool) (s : State) : XAns Xlat × State :=
  let x := (s.core c).ctx l
  match translateTwice c x ea a must quiet true s with
  | (.ok t, _, s) => (.ok t, s)
  | (.wait, _, s) => (.wait, s)
  | (.fault f, w, s) =>
    if f.rewalks && !w.used.isEmpty && !quiet then
      let s := (s.updCore c fun k => w.used.foldl (fun k u => k.dropSlot u) k).event c evRewalk
      match translateTwice c x ea a must quiet false s with
      | (r, _, s) => (r, s)
    else (.fault f, s)

/-- Translate for an access that any location may serve. -/
def translate (c : Fin 64) (l : Level) (ea : Word) (a : Acc) (quiet : Bool) (s : State) : XAns Xlat × State :=
  translateFor c l ea a false quiet s

end Sys2Proof.Machine
end

