-- ==== Sys2Proof/Machine/TraceOps.lean ====
section
/-! DEFINITION. The trace encoder of a core, its frames and its sequencer (R478 to R486). -/

namespace Sys2Proof.Machine

/-! ### Exclusion (R486) -/

/-- TRC_AUTH admits code at a level of the running VMID (log entry 20). -/
def State.admitsAt (s : State) (c : Fin 64) (l : Level) : Bool :=
  let k := s.core c
  let a := k.reg .TRC_AUTH
  let vm := k.fld .VMID .VMID_VMID
  let sealed := s.fe.names.sealed.contains vm
  if l = .u ∧ !sealed then true
  else
    (flag a .TRC_AUTH_ALLV || bits a .TRC_AUTH_VMID == vm) && (!sealed || flag a .TRC_AUTH_SEALED) &&
    (match l with
     | .u => true
     | .k => flag a .TRC_AUTH_K
     | .h => flag a .TRC_AUTH_H)

def State.admits (s : State) (c : Fin 64) : Bool := s.admitsAt c (s.core c).level

/-! ### Bytes and frames (R479, R481) -/

/-- The n low bytes of a number, least significant first. -/
def leBytes (v : Nat) : Nat → List Byte
  | 0 => []
  | n + 1 => BitVec.ofNat 8 v :: leBytes (v / 256) n

/-- Make the frame of the packet bytes in hand, when there are any: it waits to be sent. -/
def Tracer.cut (t : Tracer) (c : Nat) : Tracer :=
  if t.buf.isEmpty then t
  else
    let f : TraceFrame := { source := c, seq := t.seq, loss := t.lossMark, body := t.buf }
    { t with frames := t.frames ++ [f], seq := (t.seq + 1) % 65536, lossMark := false, buf := [] }

/-- Add one byte of a packet; a full frame is sent. -/
def Tracer.byte (c : Nat) (t : Tracer) (b : Byte) : Tracer :=
  let t := { t with buf := t.buf ++ [b], since := t.since + 1 }
  if t.buf.length = 60 then t.cut c else t

/-- The TS packet (R479). -/
def Tracer.tsBytes (t : Tracer) (now : Nat) : List Byte := 0x10#8 :: leBytes (now - t.lastTime) 4

/-- Add a packet. With TSMODE 0b10 a frame that could not hold it and a closing TS is ended by TS first (R480; log
entry 21). -/
def Tracer.raw (t : Tracer) (c now : Nat) (tsEnd : Bool) (bs : List Byte) : Tracer :=
  let t := if tsEnd && !t.buf.isEmpty && decide (60 < t.buf.length + bs.length + 5) then
      let u := (t.tsBytes now).foldl (Tracer.byte c) t
      { u.cut c with lastTime := now }
    else t
  bs.foldl (Tracer.byte c) t

/-- Header byte of the open BR packet (R479). -/
def brByte (l : List Bool) : Byte :=
  BitVec.ofNat 8 (1 + 2 * (l.foldr (fun b n => b2n b + 2 * n) 1))

/-- The context in which the encoder works: the core's number, the time and the fields it copies. -/
structure TraceCtx where
  core : Nat
  now : Nat
  tsEnd : Bool
  tsEvent : Bool
  syncLimit : Nat
  pc : Word
  tag : Nat
  lcore : Nat
  seqState : Nat

/-- Close the open BR packet. -/
def Tracer.closeBr (t : Tracer) (x : TraceCtx) : Tracer :=
  if t.br.isEmpty then t else { t.raw x.core x.now x.tsEnd [brByte t.br] with br := [] }

/-- Add a packet other than BR. -/
def Tracer.packet (t : Tracer) (x : TraceCtx) (bs : List Byte) : Tracer := (t.closeBr x).raw x.core x.now x.tsEnd bs

/-- SYNC (R479): the addresses and times of later packets are compressed against it. -/
def Tracer.sync (t : Tracer) (x : TraceCtx) : Tracer :=
  let t := t.packet x ([0x02#8] ++ leBytes x.pc.toNat 8 ++ leBytes x.now 8 ++ leBytes x.tag 4 ++
    [BitVec.ofNat 8 x.lcore, BitVec.ofNat 8 x.seqState, 0, 0])
  { t with lastAddr := x.pc, lastTime := x.now, since := 0, syncOwed := false, syncFrame := false, ctx := x.tag }

/-- Length and low bytes of an address compressed against another (R479). -/
def addrBytes (last a : Word) : List Byte :=
  let n := ((List.range 8).find? fun i => (a >>> (8 * (i + 1))) == (last >>> (8 * (i + 1)))).getD 7 + 1
  BitVec.ofNat 8 n :: leBytes a.toNat n

/-- TS after EXC and TRIG (R480). -/
def Tracer.ts (t : Tracer) (x : TraceCtx) : Tracer :=
  if x.tsEvent then { t.packet x (t.tsBytes x.now) with lastTime := x.now } else t

def Tracer.ind (t : Tracer) (x : TraceCtx) (a : Word) : Tracer :=
  { t.packet x (0x04#8 :: addrBytes t.lastAddr a) with lastAddr := a }

/-- A branch outcome; a seventh opens a new packet (R479). -/
def Tracer.outcome (t : Tracer) (x : TraceCtx) (taken : Bool) : Tracer :=
  let t := if t.br.length = 6 then t.closeBr x else t
  { t with br := t.br ++ [taken] }

/-! ### The encoder of a core -/

def State.traceCtxOf (s : State) (c : Fin 64) : TraceCtx :=
  let k := s.core c
  let r := k.reg .TRC_CTL
  { core := c.val, now := s.time, tsEnd := bits r .TRC_CTL_TSMODE == 2,
    tsEvent := bits r .TRC_CTL_TSMODE == 1 || bits r .TRC_CTL_TSMODE == 2,
    syncLimit := 2 ^ (bits r .TRC_CTL_SYNCP + 8), pc := k.pc,
    tag := (k.pid k.level).toNat + k.level.toNat * 2 ^ 29, lcore := k.fld .CORE_ID .CORE_ID_LCORE,
    seqState := k.fld .TSEQ_STATE .TSEQ_STATE_STATE }

def State.updTrace (s : State) (c : Fin 64) (f : Tracer → Tracer) : State :=
  s.updCore c fun k => { k with trace := f k.trace }

/-- The actions of the sequencer state of a core. -/
def Core.tsAct (k : Core) : Word := k.reg .TSEQ_ACT [k.fld .TSEQ_STATE .TSEQ_STATE_STATE]

def Core.tracing (k : Core) : Bool := flag (k.reg .TRC_CTL) .TRC_CTL_EN

/-- Before the packets of a retiring instruction: EXCL once when it is excluded; otherwise the SYNC and CTX that are
owed. True when its packets may be emitted (R480, R486). -/
def State.tracePre (s : State) (c : Fin 64) : Bool × State :=
  let k := s.core c
  let x := s.traceCtxOf c
  if !s.admits c then
    let s := s.updCore c fun k => k.setFld .TRC_STAT [] .TRC_STAT_EXCL 1
    if k.tracing && !k.trace.excluded then
      (false, s.updTrace c fun t => { t.packet x [0x1A#8] with excluded := true })
    else (false, s)
  else
    let s := s.updCore c fun k => k.setFld .TRC_STAT [] .TRC_STAT_EXCL 0
    if !k.tracing then (false, s) else
    let t := k.trace
    let t := if t.excluded then { t with syncOwed := true, excluded := false } else t
    let t := if decide (x.syncLimit < t.since) || t.syncOwed then t.sync x
      else if t.syncFrame && t.buf.isEmpty then t.sync x
      else if t.ctx ≠ x.tag && flag k.tsAct .TSEQ_ACT_INSTR then
        { t.packet x (0x0A#8 :: leBytes x.tag 4) with ctx := x.tag }
      else t
    (true, s.updTrace c fun _ => t)

/-- A conditional branch outcome. -/
def State.traceBr (s : State) (c : Fin 64) (taken : Bool) : State :=
  match s.tracePre c with
  | (true, s) =>
    if flag (s.core c).tsAct .TSEQ_ACT_INSTR then s.updTrace c fun t => t.outcome (s.traceCtxOf c) taken else s
  | (false, s) => s

/-- The target of a JALR. -/
def State.traceInd (s : State) (c : Fin 64) (target : Word) : State :=
  match s.tracePre c with
  | (true, s) =>
    if flag (s.core c).tsAct .TSEQ_ACT_INSTR then s.updTrace c fun t => t.ind (s.traceCtxOf c) target else s
  | (false, s) => s

/-- A trap entry: EXC, IND with the handler, and TS when it is asked for. before: the level the trap was raised at. -/
def State.traceExc (s : State) (c : Fin 64) (cause : Nat) (before after : Level) (pc handler : Word) : State :=
  let k := s.core c
  if !k.tracing || !s.admitsAt c before || !flag k.tsAct .TSEQ_ACT_INSTR then s
  else
    let x := s.traceCtxOf c
    s.updTrace c fun t =>
      let t := { t.packet x ([0x06#8, BitVec.ofNat 8 cause, BitVec.ofNat 8 (before.toNat + 4 * after.toNat)] ++
        addrBytes t.lastAddr pc) with lastAddr := pc }
      (t.ind x handler).ts x

/-- Comparators of KIND 2 that an access makes true (R485). -/
def Core.memHits (k : Core) (store : Bool) (ea : Word) : BitVec 8 :=
  (List.range 8).foldl (fun m n =>
    let r := k.reg .TCMP_CFG [n]
    let mask := k.reg .TCMP_MASK [n]
    if bits r .TCMP_CFG_KIND = 2 ∧ (bits r .TCMP_CFG_ARG).testBit (b2n store) ∧ ea &&& mask = k.reg .TCMP_VAL [n] &&& mask
    then m ||| (1#8 <<< n) else m) 0

/-- The effective address and value of a load or store (R478). -/
def State.traceMem (s : State) (c : Fin 64) (store : Bool) (ea : Word) (size : Nat) (v : Word) : State :=
  let h := (s.core c).memHits store ea
  let s := if h = 0 then s else s.updTrace c fun t => { t with hits := t.hits ||| h }
  match s.tracePre c with
  | (false, s) => s
  | (true, s) =>
    let k := s.core c
    let r := k.reg .TRC_CTL
    if flag k.tsAct .TSEQ_ACT_DATA && (bits r .TRC_CTL_DADDR).testBit (b2n store) then
      let x := s.traceCtxOf c
      s.updTrace c fun t =>
        let t := { t.packet x (0x0C#8 :: addrBytes t.lastData ea) with lastData := ea }
        if flag r .TRC_CTL_DVAL then
          t.packet x (0x0E#8 :: BitVec.ofNat 8 (Nat.log2 size) :: leBytes v.toNat size)
        else t
    else s

/-! ### The sequencer (R485) -/

/-- Comparators of a KIND for which a test of mask and value holds. -/
def Core.cmpHits (k : Core) (kind : Nat) (test : Word → Word → Bool) : BitVec 8 :=
  (List.range 8).foldl (fun m n =>
    if k.fld .TCMP_CFG .TCMP_CFG_KIND [n] = kind ∧ test (k.reg .TCMP_MASK [n]) (k.reg .TCMP_VAL [n]) then m ||| (1#8 <<< n) else m) 0

/-- Comparators of KIND 3 that are true for the current PID tag. -/
def Core.tagHits (k : Core) : BitVec 8 :=
  k.cmpHits 3 fun mask val => (k.pid k.level) &&& mask.setWidth 29 == val.setWidth 29 &&& mask.setWidth 29

/-- Comparators of KIND 1 and 3 that are true for an instruction at a PC. -/
def Core.pcHits (k : Core) (pc : Word) : BitVec 8 :=
  k.cmpHits 1 (fun mask val => pc &&& mask == val &&& mask) ||| k.tagHits

/-- A transition fires for a set of true comparators. -/
def Core.transFires (k : Core) (st j : Nat) (h : BitVec 8) : Bool :=
  let r := k.reg .TSEQ_TRANS [st, j]
  let sel := BitVec.ofNat 8 (bits r .TSEQ_TRANS_SEL)
  flag r .TSEQ_TRANS_EN && (if flag r .TSEQ_TRANS_ALL then h &&& sel == sel else h &&& sel != 0)

/-- Evaluate the transitions of the current state once; the new state's entry actions apply. -/
def State.seqEval (s : State) (c : Fin 64) (h : BitVec 8) : State :=
  let k := s.core c
  let st := k.fld .TSEQ_STATE .TSEQ_STATE_STATE
  match (if k.transFires st 0 h then some 0 else if k.transFires st 1 h then some 1 else none) with
  | none => s
  | some j =>
    let next := k.fld .TSEQ_TRANS .TSEQ_TRANS_NEXT [st, j]
    let s := s.updCore c fun k => k.setFld .TSEQ_STATE [] .TSEQ_STATE_STATE next
    let act := (s.core c).tsAct
    let x := s.traceCtxOf c
    let s := if flag act .TSEQ_ACT_MARK && (s.core c).tracing then
        s.updTrace c fun t => (t.packet x [0x14#8, BitVec.ofNat 8 next]).ts x
      else s
    if flag act .TSEQ_ACT_IRQ then s.updTrace c fun t => { t with irq := true } else s

/-- At the retirement of the instruction at pc: the packets owed, and one evaluation of the sequencer with every
comparator that became true (log entry 22). -/
def State.traceRetire (s : State) (c : Fin 64) (pc : Word) : State :=
  match s.admits c with
  | false =>
    let s := (s.tracePre c).2
    s.updTrace c fun t => { t with hits := 0 }
  | true =>
    let s := (s.tracePre c).2
    let h := (s.core c).trace.hits ||| (s.core c).pcHits pc
    (s.updTrace c fun t => { t with hits := 0 }).seqEval c h

/-- Something outside any instruction made comparators true, those of h beside the ones of its events: the sequencer is
evaluated at once, and its interrupt ends a WFI (R275, R485). -/
def State.seqEdge (s : State) (c : Fin 64) (h : BitVec 8) : State :=
  let k := s.core c
  let s := s.updTrace c fun t => { t with hits := 0 }
  if !s.admits c then s
  else
    (s.seqEval c (k.trace.hits ||| h ||| k.tagHits)).updCore c fun k =>
      if k.run = .wfi ∧ k.trace.irq then { k with run := .running } else k

/-- Send the partial frame, the open BR packet closed (R481). -/
def State.traceFlush (s : State) (c : Fin 64) : State :=
  let x := s.traceCtxOf c
  s.updTrace c fun t => (t.closeBr x).cut c.val

/-- FURL with the device time of the stop, and every buffered frame sent (R488). -/
def State.traceFurl (s : State) (c : Fin 64) : State :=
  if !(s.core c).tracing then s else
  let x := s.traceCtxOf c
  s.updTrace c fun t => ((t.packet x (0x16#8 :: leBytes s.time 8)).closeBr x).cut c.val

/-- SYNC and then GAP at unfurl, after migration and at resume (R489). -/
def State.traceGap (s : State) (c : Fin 64) (gap : Nat) : State :=
  if !(s.core c).tracing then s else
  let x := s.traceCtxOf c
  s.updTrace c fun t => (t.sync x).packet x (0x18#8 :: leBytes gap 8)

/-- Issue is held because the core feeds a lossless ring and its buffer of 16 frames is full (R484). -/
def State.traceStalled (s : State) (c : Fin 64) : Bool :=
  let k := s.core c
  let r := k.fld .TRC_RING .TRC_RING_RING
  decide (16 ≤ k.trace.frames.length) && flag (k.reg .TRC_RING) .TRC_RING_VALID &&
  flag (s.reg .HY_RING_CTL [r]) .HY_RING_CTL_EN && flag (s.reg .HY_RING_CTL [r]) .HY_RING_CTL_LOSSLESS

end Sys2Proof.Machine
end

