-- ==== Sys2Proof/Machine/Irq.lean ====
section
/-! DEFINITION. The interrupt distributor and the core interrupt units (chapter 10): pending and active sources,
candidates, offers, and what a core may accept (R132, R262 to R275). -/

namespace Sys2Proof.Machine

/-! ### The core interrupt unit (R266, R267) -/

/-- The highest set bit of a word, 0 when there is none. -/
def highBit (w : Word) : Nat := (List.range 64).foldl (fun m i => if w.getLsbD i then i else m) 0

/-- The level rule for an interrupt whose target is a level (R132). -/
def Core.levelAdmits (k : Core) (target : Level) : Bool :=
  let ie := flag (k.reg .STATUS) .STATUS_IE
  match target, k.level with
  | .h, .h => ie
  | .h, _ => true
  | _, .u => true
  | _, .k => ie
  | _, .h => false

/-- The physical offer held meets the conditions of R266 but the level rule. -/
def Core.physReady (k : Core) : Bool :=
  match k.offer with
  | some o => decide (k.fld .IRQ_CTL .IRQ_CTL_THRESH < o.pri) && decide (highBit (k.reg .IRQ_ACTPRI) < o.pri)
  | none => false

/-- The core is resident for a VMID (R272). -/
def Core.residentFor (k : Core) (v : Nat) : Bool :=
  flag (k.reg .VCTL) .VCTL_RES && k.fld .VMID .VMID_VMID == v

/-- The virtual offer held meets the conditions of R266 but the level rule. -/
def Core.virtReady (k : Core) : Bool :=
  match k.voffer with
  | some o => decide (k.fld .V_THRESH .V_THRESH_THRESH < o.pri) && decide (highBit (k.reg .V_ACTPRI) < o.pri) &&
      k.residentFor o.vmid
  | none => false

/-- Causes 0x42 to 0x45 that are pending, with the level that takes each (R460, R463, R127). -/
def Core.localCauses (k : Core) : List (Nat × Level) :=
  let ct := k.reg .CTIM_CTL
  let lvl (h : Bool) : Level := if h then .h else .k
  (if flag ct .CTIM_CTL_PEND_0 && flag ct .CTIM_CTL_EN_0 then [(0x42, lvl (flag ct .CTIM_CTL_TGT_0))] else []) ++
  (if flag ct .CTIM_CTL_PEND_1 && flag ct .CTIM_CTL_EN_1 then [(0x43, lvl (flag ct .CTIM_CTL_TGT_1))] else []) ++
  (if k.ovfReady then [(0x44, lvl (flag (k.reg .EV_CTL) .EV_CTL_OVF_TGT))] else []) ++
  (if k.trace.irq then [(0x45, .h)] else [])

/-- The interrupt the core takes at this boundary, in the order of R267. -/
def Core.irqNext (k : Core) : Option (Nat × Level) :=
  ((if k.physReady then [(0x40, Level.h)] else []) ++ k.localCauses ++ (if k.virtReady then [(0x41, Level.k)] else [])).find?
    fun p => k.levelAdmits p.2

/-- An interrupt is pending that the core may accept now. -/
def Core.irqReady (k : Core) : Bool := k.irqNext.isSome

/-- What completes a WFI (R275). -/
def Core.wakes (k : Core) : Bool := k.physReady || k.virtReady || !k.localCauses.isEmpty

/-- A core that waits in WFI goes on when its condition holds. -/
def State.wakeCheck (s : State) (c : Fin 64) : State :=
  if (s.core c).run = .wfi ∧ (s.core c).wakes then s.updCore c fun k => { k with run := .running } else s

/-! ### Sources (R262 to R264) -/

def srcCount : Nat := 17408

def State.pending? (s : State) (n : Nat) : Bool := flag (s.reg .SRC_STAT [n]) .SRC_STAT_PENDING
def State.active? (s : State) (n : Nat) : Bool := flag (s.reg .SRC_STAT [n]) .SRC_STAT_ACTIVE
def State.line? (s : State) (n : Nat) : Bool := flag (s.reg .SRC_STAT [n]) .SRC_STAT_LINE

/-- A wired source that is level-sensitive. -/
def State.levelSrc (s : State) (n : Nat) : Bool := decide (n < 1024) && !flag (s.reg .SRC_CFG [n]) .SRC_CFG_TRIG

def State.setPend (s : State) (n : Nat) (b : Bool) : State := s.setFld .SRC_STAT [n] .SRC_STAT_PENDING (b2n b)

/-- PENDING of a level-sensitive source follows its line while it is not ACTIVE. -/
def State.followLine (s : State) (n : Nat) : State :=
  if s.levelSrc n && s.line? n && !s.active? n then s.setPend n true else s

/-- The sources that are pending, in rising order. -/
def State.pendingSrcs (s : State) : List Nat :=
  let base := Reg.spec .SRC_STAT |>.base
  s.regs.filterMap fun e =>
    if base ≤ e.1 ∧ (e.1 - base) % 16 = 0 ∧ (e.1 - base) / 16 < srcCount ∧ flag e.2 .SRC_STAT_PENDING then
      some ((e.1 - base) / 16) else none

/-- The logical core in service on a physical core (LCORE_MAP). -/
def State.lcoreAt (s : State) (p : Nat) : Option Nat :=
  (List.range 64).find? fun l => flag (s.reg .LCORE_MAP [l]) .LCORE_MAP_VALID && s.fld .LCORE_MAP [l] .LCORE_MAP_PCORE == p

/-- A source that may be offered: pending, not active, enabled, of nonzero priority. -/
def State.offerable (s : State) (n : Nat) : Bool :=
  let r := s.reg .SRC_CFG [n]
  s.pending? n && !s.active? n && flag r .SRC_CFG_EN && bits r .SRC_CFG_PRIORITY != 0

/-- The core a virtual source is offered to: among those resident for the VMID, the lowest logical number (R272). -/
def State.residentCore (s : State) (v : Nat) : Option Nat :=
  let cs := (List.range 64).filter fun p => SMap.get none s.dist.resident p == some v
  (List.range 64).findSome? fun l => cs.find? fun p => s.lcoreAt p == some l

/-- The physical core a source is routed to, and whether as a virtual interrupt (R264). -/
def State.routeSrc (s : State) (n : Nat) : Option (Nat × Bool) :=
  let r := s.reg .SRC_CFG [n]
  let t := bits r .SRC_CFG_TARGET
  if flag r .SRC_CFG_VIRT then
    if t = 0 then none else (s.residentCore t).map fun p => (p, true)
  else if 64 ≤ t then none
  else if flag (s.reg .LCORE_MAP [t]) .LCORE_MAP_VALID then some (s.fld .LCORE_MAP [t] .LCORE_MAP_PCORE, false) else none

/-- The more urgent of two candidates; the lower source number at equal priority (R265). -/
def better (a : Option Offer) (o : Offer) : Option Offer :=
  match a with
  | none => some o
  | some b => if b.pri < o.pri ∨ (b.pri = o.pri ∧ o.src < b.src) then some o else some b

/-- The candidate of a physical core. -/
def State.candidate (s : State) (p : Nat) (virt : Bool) : Option Offer :=
  if flag (s.reg .DIST_CTL) .DIST_CTL_GDIS then none
  else
    (s.pendingSrcs.filter fun n => s.offerable n && s.routeSrc n == some (p, virt)).foldl (fun a n =>
      let r := s.reg .SRC_CFG [n]
      better a { src := n, pri := bits r .SRC_CFG_PRIORITY, vmid := if virt then bits r .SRC_CFG_TARGET else 0 }) none

def State.toCore (s : State) (p : Nat) (m : DistMsg) : State :=
  { s with dist := { s.dist with toCore := s.dist.toCore ++ [(p, m)] } }

def State.toDist (s : State) (c : Fin 64) (m : DistMsg) : State :=
  { s with dist := { s.dist with toDist := s.dist.toDist ++ [(c.val, m)] } }

/-- Choose the candidate of one core and kind again, and tell the core when it changed (R265). -/
def State.reofferOne (s : State) (p : Nat) (virt : Bool) : State :=
  let new := s.candidate p virt
  let old := SMap.get none (if virt then s.dist.vsent else s.dist.sent) p
  if new = old then s
  else
    let d := if virt then { s.dist with vsent := s.dist.vsent.set none p new }
      else { s.dist with sent := s.dist.sent.set none p new }
    ({ s with dist := d }).toCore p (match new with | some o => .offer virt o | none => .withdraw virt)

/-- The doorbell flags of virtual candidates whose VMID is resident nowhere (R273). -/
def State.ringDoorbells (s : State) : State :=
  let lone := s.pendingSrcs.filter fun n =>
    let r := s.reg .SRC_CFG [n]
    s.offerable n && flag r .SRC_CFG_VIRT && bits r .SRC_CFG_TARGET != 0 && (s.residentCore (bits r .SRC_CFG_TARGET)).isNone
  let lone := lone.map fun n => (n, s.fld .SRC_CFG [n] .SRC_CFG_TARGET)
  let fresh := lone.filter fun e => !s.dist.noted.contains e
  let d := fresh.foldl (fun d e => if flag (s.reg .VM_CFG [e.2]) .VM_CFG_DB_EN then insertRising e.2 d else d) s.dist.doorbells
  { s with dist := { s.dist with doorbells := d, noted := lone } }

/-- The distributor chooses again for every core (R265, R272, R273). -/
def State.rechoose (s : State) : State :=
  ((List.range 64).foldl (fun s p => (s.reofferOne p false).reofferOne p true) s).ringDoorbells

/-- Sources that are never pending (R260, R261, R344, and the registers of the Shroud port and the Halyard). -/
def reservedSrc (n : Nat) : Bool :=
  decide ((337 ≤ n ∧ n < 384) ∨ (402 ≤ n ∧ n < 448) ∨ (452 ≤ n ∧ n < 480) ∨ (497 ≤ n ∧ n < 511) ∨ (512 ≤ n ∧ n < 960))

/-- A set of PENDING by SRC_SET or an edge (R261, R262). -/
def State.srcSet (s : State) (n : Nat) : State := if reservedSrc n then s else (s.setPend n true).rechoose

/-- Clear ACTIVE of a source; a level-sensitive source whose line is asserted pends again (R262, R268). -/
def State.srcDeact (s : State) (n : Nat) : State :=
  ((s.setFld .SRC_STAT [n] .SRC_STAT_ACTIVE 0).followLine n).rechoose

/-- Clear PENDING of a source; a level-sensitive one follows its line. -/
def State.srcUnpend (s : State) (n : Nat) : State := ((s.setPend n false).followLine n).rechoose

/-- The line of a wired source takes a level (R262). -/
def State.srcLine (s : State) (n : Nat) (lv : Bool) : State :=
  let old := s.line? n
  let s := s.setFld .SRC_STAT [n] .SRC_STAT_LINE (b2n lv)
  let s :=
    if s.levelSrc n then
      (if lv then s.followLine n else if old then s.setPend n false else s)
    else if lv && !old then s.setPend n true
    else s
  s.rechoose

/-- An offer is unanswered while a core holds it or it is on its way (R270). -/
def State.offersOut (s : State) : Bool :=
  (s.dist.toCore.any fun m => match m.2 with | .offer _ _ => true | _ => false) ||
  s.cores.any fun e => e.2.offer.isSome || e.2.voffer.isSome

/-- DB_NEXT_l: the lowest flagged VMID whose HOME is l. -/
def State.dbNext (s : State) (l : Nat) : Option Nat :=
  s.dist.doorbells.find? fun v => s.fld .VM_CFG [v] .VM_CFG_HOME == l

/-! ### Messages at a core and at the distributor -/

/-- Take the oldest message to a core when it is of the wanted kind. -/
def Dist.nextToCore (d : Dist) (p : Nat) : Option DistMsg := (d.toCore.find? fun m => m.1 == p).map fun m => m.2
def Dist.nextToDist (d : Dist) (p : Nat) : Option DistMsg := (d.toDist.find? fun m => m.1 == p).map fun m => m.2

def State.popToCore (s : State) (p : Nat) (m : DistMsg) : State :=
  { s with dist := { s.dist with toCore := s.dist.toCore.erase (p, m) } }
def State.popToDist (s : State) (p : Nat) (m : DistMsg) : State :=
  { s with dist := { s.dist with toDist := s.dist.toDist.erase (p, m) } }

/-- A core that holds a virtual offer for which it is not resident declines it (R272). -/
def State.declineStale (s : State) (c : Fin 64) : State :=
  match (s.core c).voffer with
  | none => s
  | some o =>
    if (s.core c).residentFor o.vmid then s
    else (s.updCore c fun k => { k with voffer := none }).toDist c (.decline o.src)

/-- The core tells the distributor its residency (R272). -/
def State.sendResidency (s : State) (c : Fin 64) : State :=
  let k := s.core c
  (s.toDist c (.residency (if flag (k.reg .VCTL) .VCTL_RES then some (k.fld .VMID .VMID_VMID) else none))).declineStale c

/-- An offer reaches a core (R265, R272). -/
def State.offerArrives (s : State) (c : Fin 64) (virt : Bool) (o : Offer) : State :=
  if virt then
    ((s.updCore c fun k => { k with voffer := some o }).declineStale c).wakeCheck c
  else (s.updCore c fun k => { k with offer := some o }).wakeCheck c

/-- A withdrawal reaches a core. -/
def State.withdrawArrives (s : State) (c : Fin 64) (virt : Bool) : State :=
  s.updCore c fun k => if virt then { k with voffer := none } else { k with offer := none }

/-- An acceptance reaches the distributor: ACTIVE is set and PENDING cleared (R267). The source is no candidate any more, so
the choice that follows sends the core another offer or a withdrawal wherever the offer last sent was of that source (R265). -/
def State.acceptArrives (s : State) (n : Nat) : State := ((s.setFld .SRC_STAT [n] .SRC_STAT_ACTIVE 1).setPend n false).rechoose

/-- A decline of a source reaches the distributor, which chooses again; an offer of another source that it has sent since
stands (R272). -/
def State.declineArrives (s : State) (p n : Nat) : State :=
  let held := (s.dist.vsent.get none p).any fun o => o.src == n
  (if held then { s with dist := { s.dist with vsent := s.dist.vsent.set none p none } } else s).rechoose

/-- An EOI reaches the distributor (R268). -/
def State.eoiArrives (s : State) (virt : Bool) (vmid n : Nat) : State :=
  let r := s.reg .SRC_CFG [n]
  if srcCount ≤ n then s
  else if virt && !(flag r .SRC_CFG_VIRT && bits r .SRC_CFG_TARGET == vmid) then s
  else s.srcDeact n

/-- The distributor learns a core's residency (R272). -/
def State.residencyArrives (s : State) (p : Nat) (v : Option Nat) : State :=
  { s with dist := { s.dist with resident := s.dist.resident.set none p v } }.rechoose

/-- The distributor takes a message of a core. -/
def State.distTake (s : State) (p : Nat) : DistMsg → State
  | .accept _ n => s.acceptArrives n
  | .decline n => s.declineArrives p n
  | .eoi v vmid n _ => s.eoiArrives v vmid n
  | .residency v => s.residencyArrives p v
  | _ => s

/-- A core takes a message of the distributor. -/
def State.coreTake (s : State) (c : Fin 64) : DistMsg → State
  | .offer v o => s.offerArrives c v o
  | .withdraw v => s.withdrawArrives c v
  | _ => s

/-! ### Device accesses to the distributor (R268, R269) -/

/-- The unit block of the distributor. -/
def inDist (pa : Nat) : Bool := pa / 2 ^ 24 == Reg.DIST_CTL.at [] / 2 ^ 24

/-- A Device store of a core to the distributor that its target has not yet acted on. -/
def StoreEntry.toDist (e : StoreEntry) : Bool := e.typ == .device && inDist e.pa

/-- An EOI of a core is under way that no older Device store to the distributor is ahead of: a younger Device access waits
for it (R268). -/
def State.eoiDue (s : State) (p : Nat) : Bool :=
  s.dist.toDist.any fun m => m.1 == p && match m.2 with | .eoi _ _ _ a => a == 0 | _ => false

/-- The oldest Device store of a core to the distributor has acted: its EOIs follow one fewer. -/
def State.distActed (s : State) (p : Nat) : State :=
  { s with dist := { s.dist with toDist := s.dist.toDist.map fun m => match m with
      | (q, .eoi v vmid n a) => (q, .eoi v vmid n (if q = p then a - 1 else a))
      | m => m } }

/-- The messages of a core arrive, up to its last EOI that is due. -/
def State.distFlush (s : State) (p : Nat) : Nat → State
  | 0 => s
  | n + 1 =>
    if s.eoiDue p then
      match s.dist.nextToDist p with
      | some m => ((s.popToDist p m).distTake p m).distFlush p n
      | none => s
    else s

/-- The messages of the distributor to a core arrive. -/
def State.coreFlush (s : State) (c : Fin 64) : State :=
  let ms := s.dist.toCore.filter fun m => m.1 == c.val
  ms.foldl (fun s m => s.coreTake c m.2) { s with dist := { s.dist with toCore := s.dist.toCore.filter fun m => m.1 != c.val } }

/-- The core accepts a physical or virtual offer: IRQ_SRC or VIRQ_SRC, the active priority, and the acceptance sent to
the distributor (R267). -/
def State.takeOffer (s : State) (c : Fin 64) (virt : Bool) : State :=
  let k := s.core c
  match (if virt then k.voffer else k.offer) with
  | none => s
  | some o =>
    let w : Word := BitVec.ofNat 64 (o.pri * 2 ^ 16 + o.src)
    let k := if virt then
        { (k.setReg .VIRQ_SRC [] w).setReg .V_ACTPRI [] (k.reg .V_ACTPRI ||| (1#64 <<< o.pri)) with voffer := none }
      else { (k.setReg .IRQ_SRC [] w).setReg .IRQ_ACTPRI [] (k.reg .IRQ_ACTPRI ||| (1#64 <<< o.pri)) with offer := none }
    (s.setCore c k).toDist c (.accept virt o.src)

/-- A write of IRQ_EOI or VIRQ_EOI: the highest active priority ends, and the source number goes to the distributor. -/
def State.coreEoi (s : State) (c : Fin 64) (virt : Bool) (n : Nat) : State :=
  let r := if virt then Reg.V_ACTPRI else Reg.IRQ_ACTPRI
  let s := s.updCore c fun k => k.setReg r [] (k.reg r &&& ~~~(1#64 <<< highBit (k.reg r)))
  let older := ((s.core c).devOut ++ (s.core c).sb).countP fun e => e.toDist
  s.toDist c (.eoi virt ((s.core c).fld .VMID .VMID_VMID) n older)

end Sys2Proof.Machine
end

