-- ==== Sys2Proof/Machine/Exec.lean ====
section
/-! DEFINITION. What every instruction shares: the store buffer and loads (R205 to R216), split accesses (R141 to
R145), taking a trap (R128 to R139), long operations (R84 to R89), residue checks (R99, R100), the fetch of the
instruction, and its retirement. -/

namespace Sys2Proof.Machine

/-! ### Traps -/

/-- A synchronous trap: its cause and what the trap record holds (R126, R133, R165). -/
structure Trap where
  cause : Nat
  addr : Word := 0
  /-- TRAP_INFO without ORIG, DIR and SREASON -/
  info : Word := 0
  xlat : Word := 0
  gpa : Nat := 0
  longpc : Word := 0
  /-- what cause 0x0F writes to FPCAUSE (R97) -/
  fpcause : Word := 0
  deriving DecidableEq, Repr

/-- How an instruction ends: it retires and the PC goes on in sequence, or where it jumps; it traps; or it waits and is
executed again. -/
inductive Ex where
  | done (s : State) (npc : Word)
  | jump (s : State) (npc : Word)
  | trap (t : Trap) (s : State)
  | wait (s : State)

/-- TRAP_INFO of an access (R146's table). -/
def accInfo (split half write fetch : Bool) (lg : Nat) : Word :=
  BitVec.ofNat 64 (b2n split * 2 ^ 18 + b2n (split && half) * 2 ^ 17 + b2n write * 2 ^ 16 + b2n fetch * 2 ^ 15 + lg * 2 ^ 12)

def lg2 : Nat → Nat
  | 1 => 0
  | 2 => 1
  | 4 => 2
  | _ => 3

/-- The trap of a translation fault of a data access: causes 0x05 to 0x07, 0x09 and 0x0D name the half, the others the
access (R126). -/
def XFault.trap (f : XFault) (ea half : Word) (info : Word) : Trap :=
  { cause := f.cause, addr := if f.cause = 0x05 ∨ f.cause = 0x06 ∨ f.cause = 0x07 ∨ f.cause = 0x09 then half else ea,
    info := info, xlat := f.info, gpa := f.gpa }

/-! ### Store buffer (R115, R209 to R216) -/

/-- Bytes of a store entry overlap an access. -/
def StoreEntry.overlaps (e : StoreEntry) (pa n : Nat) : Bool := decide (pa < e.pa + e.size) && decide (e.pa < pa + n)
def StoreEntry.covers (e : StoreEntry) (pa n : Nat) : Bool := decide (e.pa ≤ pa) && decide (pa + n ≤ e.pa + e.size)

/-- The entry's data and byte mask placed in its sector. -/
def StoreEntry.placed (e : StoreEntry) : BitVec 512 × BitVec 64 :=
  if e.size = 64 then (0, BitVec.allOnes 64)
  else ((e.data.setWidth 512) <<< (8 * (e.pa % 64)), BitVec.ofNat 64 ((2 ^ e.size - 1) * 2 ^ (e.pa % 64)))

/-- A store to the MRAM range is open until PSYNC (R68, R218). -/
def State.openMram (s : State) (c : Fin 64) (pa : Nat) : State :=
  if inMram pa then s.updCore c fun k => { k with mramOpen := insertRising (pa / 64) k.mramOpen } else s

/-- Write an entry into the sector that the L1D owns; a ZLINE clears the sector's poison (R193, R200). -/
def State.storeWrite (s : State) (c : Fin 64) (e : StoreEntry) : State :=
  let n := e.pa / 64
  let s := (s.l1dWrite c n e.placed.1 e.placed.2).openMram c e.pa
  s.updCore c fun k =>
    { k with stWait := none,
             l1d := if e.size = 64 then k.l1d.updSec .l1 n fun y => { y with poison := false } else k.l1d }

/-- The store at the head keeps its fill slot while its fill is under way (R114, R115). -/
def State.holdStore (s : State) (c : Fin 64) (n : Nat) : State :=
  if s.slotBusy c n then s.updCore c fun k => { k with stWait := some n } else s

/-- The L1D of a core holds a sector in E or M. -/
def State.ownsSec (s : State) (c : Fin 64) (n : Nat) : Bool :=
  let st := ((s.core c).l1d.secD .l1 n).st
  st == .e || st == .m

/-- The home of a ZLINE's sector is asked for it with ZREQ unless the L1D owns it already (R193). True: the L1D owns the
sector, or the grant has zeroed it, or its home does not answer. -/
def State.zlineAsk (s : State) (c : Fin 64) (e : StoreEntry) : Bool × State :=
  let q := quadOf c
  let n := e.pa / 64
  if !(s.core c).l1d.ready || !(s.quad q).l2.ready then (false, s)
  else match s.reclaim q n with
    | (false, s) => (false, s)
    | (true, s) =>
      if !s.homeAnswers n then (true, s)
      else
        let s := s.askHome { kind := .zreq, quad := q, toHome := true, sec := n, cls := (s.core c).cls e.lvl, core := c.val }
        (s.ownsSec c n || ((s.core c).sb.head?.any fun x => x.zeroed), s)

/-- Write one cacheable entry into the L1D when the core can own the sector (R205, R115). A sector whose home does not
answer takes nothing (R30). -/
def State.storeCached (s : State) (c : Fin 64) (e : StoreEntry) : Bool × State :=
  let n := e.pa / 64
  if e.zeroed then (true, s.openMram c e.pa)
  else if s.ownsSec c n then (true, s.storeWrite c e)
  else
    let s := if (s.core c).stWait = some n then s else s.event c evOwnReq
    match (if e.size = 64 then s.zlineAsk c e else (true, s)) with
    | (false, s) => (false, s.holdStore c n)
    | (true, s) =>
      if e.size = 64 ∧ (s.core c).sb.head?.any fun x => x.zeroed then
        (true, (s.openMram c e.pa).updCore c fun k => { k with stWait := none })
      else
        match s.l1dGet c n e.lvl true with
        | (.ok, s) => (true, s.storeWrite c e)
        | (.wait, s) => (false, s.holdStore c n)
        | (.err, s) => (true, (s.addrErr (quadStop (quadOf c)) true 4 e.pa e.pid).updCore c fun k => { k with stWait := none })

/-- Send the Uncached store at the head of the buffer to its home, once (R216). -/
def State.headSend (s : State) (c : Fin 64) (e : StoreEntry) : State :=
  if (s.core c).ucwSent then s
  else
    let s := if s.homeAnswers (e.pa / 64) then
        s.ucAsk { kind := .ucw, quad := quadOf c, toHome := true, sec := e.pa / 64, data := e.placed.1, mask := e.placed.2,
                  cls := e.cls, core := c.val, pid := e.pid }
      else s
    s.updCore c fun k => { k with ucwSent := true }

/-- The home has acknowledged the Uncached store at the head, which leaves the buffer (R216). -/
def State.headAck (s : State) (c : Fin 64) (e : StoreEntry) : Bool × State :=
  match s.ucWrite (quadOf c) (e.pa / 64) e.placed.1 e.placed.2 false e.cls c.val e.pid true with
  | (true, s) =>
    (true, ((s.updCore c fun k => { k with sb := k.sb.tail, ucwSent := false }).event c evDrain).openMram c e.pa)
  | (false, s) => (false, s)

/-- Drain the oldest store-buffer entry whole: a cacheable one into L1D, an Uncached one through its acknowledgement,
a Device one by injection. -/
def State.drainHead (s : State) (c : Fin 64) : Bool × State :=
  match (s.core c).sb with
  | [] => (true, s)
  | e :: _ =>
    let pop (s : State) : State := (s.updCore c fun k => { k with sb := k.sb.tail }).event c evDrain
    match e.typ with
    | .device => (true, pop ((s.openMram c e.pa).updCore c fun k => { k with devOut := k.devOut ++ [e] }))
    | .uncached => (s.headSend c e).headAck c e
    | _ =>
      match s.storeCached c e with
      | (true, s) => (true, pop s)
      | (false, s) => (false, s)

/-- Drain n entries. -/
def State.drainN (s : State) (c : Fin 64) : Nat → Bool × State
  | 0 => (true, s)
  | n + 1 =>
    match s.drainHead c with
    | (true, s) => s.drainN c n
    | (false, s) => (false, s)

/-- Drain the whole store buffer. -/
def State.drainAll (s : State) (c : Fin 64) : Bool × State := s.drainN c (s.core c).sb.length

/-- Drain the frame buffer: ten doubleword stores in ascending order, after every store already buffered (R137). -/
def State.drainFrameN (s : State) (c : Fin 64) : Nat → Bool × State
  | 0 => (true, s)
  | n + 1 =>
    match (s.core c).frame with
    | [] => (true, s)
    | e :: rest =>
      match s.storeCached c e with
      | (true, s) => (s.updCore c fun k => { k with frame := rest }).drainFrameN c n
      | (false, s) => (false, s)

def State.drainFrame (s : State) (c : Fin 64) : Bool × State :=
  if (s.core c).frame.isEmpty then (true, s) else
  match s.drainAll c with
  | (true, s) => s.drainFrameN c 10
  | (false, s) => (false, s)

/-- Drain the store buffer, and the frame behind it. -/
def State.drainBuffers (s : State) (c : Fin 64) : Bool × State :=
  match s.drainAll c with
  | (true, s) => s.drainFrame c
  | r => r

/-- Wait until every buffered store that overlaps an access has drained; stores behind the youngest of them are not waited
for (R115, R194, R209). -/
def State.drainOver (s : State) (c : Fin 64) (pa n : Nat) : Bool × State :=
  let upTo (l : List StoreEntry) : Nat := (l.zipIdx.filter fun p => p.1.overlaps pa n).foldl (fun _ p => p.2 + 1) 0
  if 0 < upTo (s.core c).frame then
    match s.drainAll c with
    | (true, s) => s.drainFrameN c (upTo (s.core c).frame)
    | (false, s) => (false, s)
  else s.drainN c (upTo (s.core c).sb)

/-- The buffered stores that an access overlaps, oldest first: of the store buffer, then of the frame buffer. -/
def Core.overlapping (k : Core) (pa n : Nat) : List StoreEntry :=
  k.sb.filter (fun e => e.overlaps pa n) ++ k.frame.filter fun e => e.overlaps pa n

/-- Enter a store in the store buffer at retire (R205): an older frame and, when the buffer is full, older entries
drain first. -/
def State.pushStore (s : State) (c : Fin 64) (es : List StoreEntry) : Bool × State :=
  match s.drainFrame c with
  | (false, s) => (false, s)
  | (true, s) =>
    match s.drainN c ((s.core c).sb.length + es.length - 16) with
    | (false, s) => (false, s)
    | (true, s) =>
      (true, s.updCore c fun k =>
        { k with sb := k.sb ++ es, resv := if es.any fun e => k.resv == some (e.pa / 64) then none else k.resv })

/-! ### Loads -/

/-- Free the prefetch slots whose fills have ended (R114). -/
def State.pfSweep (s : State) (c : Fin 64) : State :=
  (s.core c).pfWait.foldl (fun s p => if s.slotBusy c p.1 then s else s.updCore c fun k => { k with pfWait := k.pfWait.erase p }) s

/-- Request a sector for the L1D through a prefetch slot (R62, R114). False: both slots are busy, and it is dropped. -/
def State.prefetch (s : State) (c : Fin 64) (l : Level) (n : Nat) (own : Bool) : Bool × State :=
  let st := ((s.core c).l1d.secD .l1 n).st
  if (if own then s.ownsSec c n else st != .i) then (true, s) else
  let s := s.pfSweep c
  if decide (2 ≤ (s.core c).pfWait.length) then (false, s)
  else match s.l1dGet c n l own with
    | (.ok, s) => (true, s)
    | (.wait, s) =>
      (true, if s.slotBusy c n && !((s.core c).pfWait.any fun p => p.1 == n) then
        s.updCore c fun k => { k with pfWait := k.pfWait ++ [(n, own)] } else s)
    | (.err, s) => (true, s.addrErr (quadStop (quadOf c)) false 4 (n * 64) ((s.core c).pid l))

/-- The next-sector prefetch of a demand miss, within its 4 KiB page (R123, R169). -/
def State.nextSector (s : State) (c : Fin 64) (l : Level) (n : Nat) : State :=
  if flag ((s.core c).reg .PIPE_CTL) .PIPE_CTL_DPF && n % 64 != 63 then
    match (s.event c evNextSector).prefetch c l (n + 1) false with
    | (true, s) => s
    | (false, s) => s.event c evPrefetchDrop
  else s

/-- The load that waits for its miss lets what can arrive do so; true while its slot stays busy (R114). -/
def State.missWait (s : State) (c : Fin 64) : Bool × State :=
  match (s.core c).ldWait with
  | none => (false, s)
  | some n =>
    let s := (s.progress n).fillSlots c n
    if (s.core c).ldWait.isSome && !s.slotBusy c n then (false, s.updCore c fun k => { k with ldWait := none })
    else ((s.core c).ldWait.isSome, s)

/-- The answer of a load of bytes that lie in one sector. -/
inductive LdAns where
  | val (v : Nat)
  /-- an uncorrectable error: cause 0x0D -/
  | poison
  | wait

/-- Bytes of a sector that was read, or what its poison leads to. -/
def State.gotSec (s : State) (c : Fin 64) (d : BitVec 512) (poison : Bool) (off n : Nat) : LdAns × State :=
  let s := s.event c evLoad
  if poison then (.poison, s.event c evPoisoned) else (.val (secBytes d off n), s)

/-- Read bytes of a cached sector through the L1D (R114): a miss takes the demand slot, and waits for the fill of a
discarded load that still has it. A home that does not answer gives zeros (R30). -/
def State.loadCached (s : State) (c : Fin 64) (l : Level) (pa n : Nat) : LdAns × State :=
  let sec := pa / 64
  let take (s : State) : LdAns × State :=
    let x := (s.core c).l1d.secD .l1 sec
    s.gotSec c x.data x.poison (pa % 64) n
  if ((s.core c).l1d.secD .l1 sec).st ≠ .i then take s
  else
    let again := (s.core c).ldWait = some sec
    match (if again then (false, s) else s.missWait c) with
    | (true, s) => (.wait, s)
    | (false, s) =>
      let s := if again then s else s.event c evLoadMiss
      match s.l1dGet c sec l false with
      | (a, s) =>
        let s := if again then s else s.nextSector c l sec
        match a with
        | .ok => take (s.updCore c fun k => { k with ldWait := none })
        | .wait =>
          (.wait, if s.slotBusy c sec then s.updCore c fun k => { k with ldWait := some sec, ldPc := k.pc } else s)
        | .err => (.val 0, s.addrErr (quadStop (quadOf c)) false 4 pa ((s.core c).pid l))

/-- Read n bytes at a translated address that is not Device, forwarding from the youngest overlapping entry when it
covers them, else after the overlapping entries have drained (R207, R209, R216). fwd: false for the instructions that
never forward; an Uncached load does not either. -/
def State.loadBytes (s : State) (c : Fin 64) (l : Level) (t : Xlat) (n : Nat) (fwd : Bool) : LdAns × State :=
  let ov := (s.core c).overlapping t.pa n
  match (if fwd then ov.getLast? else none) with
  | some e =>
    if e.covers t.pa n && (e.typ == .normal || e.typ == .persistent) && s.cached t then
      (.val (secBytes e.placed.1 (t.pa % 64) n), (s.event c evLoad).event c evForward)
    else rest (s.event c evOverlapWait) ov
  | none => rest s ov
where
  rest (s : State) (ov : List StoreEntry) : LdAns × State :=
    match (if ov.isEmpty then (true, s) else s.drainOver c t.pa n) with
    | (false, s) => (.wait, s)
    | (true, s) =>
      if s.cached t then s.loadCached c l t.pa n
      else
        match s.ucRead (quadOf c) (t.pa / 64) ((s.core c).cls l) c.val ((s.core c).pid l) with
        | (none, s) => (.wait, s)
        | (some (d, p), s) => (s.event c evUncachedLoad).gotSec c d p (t.pa % 64) n

/-! ### The halves of an access (R141) -/

/-- The parts of an access: one, or two when its bytes lie in two sectors. -/
def halves (ea : Word) (n : Nat) : List (Word × Nat) :=
  let k := 64 - ea.toNat % 64
  if n ≤ k then [(ea, n)] else [(ea, k), (ea + BitVec.ofNat 64 k, n - k)]

/-- The answer of the checks of a data access. -/
inductive AccAns where
  | ok (parts : List (Xlat × Nat))
  /-- a trap; low: the lower half, when that passed its checks -/
  | trap (t : Trap) (low : Option (Xlat × Nat) := none)
  | wait

/-- Translate and check the parts of an access in order, before any touches memory (R129, R141, R145). -/
def State.checkParts (s : State) (c : Fin 64) (l : Level) (ea : Word) (size : Nat) (a : Acc) (split : Bool) :
    List (Word × Nat) → Bool → List (Xlat × Nat) → AccAns × State
  | [], _, done => (.ok done.reverse, s)
  | (h, n) :: more, upper, done =>
    let info := accInfo split upper a.needW false (lg2 size)
    -- the part of an access beyond the end of its segment's offset space (R141)
    if upper && decide (2 ^ 48 < ea.toNat % 2 ^ 48 + size) then
      (.trap { cause := 0x09, addr := h, info := info, xlat := 0 } done.head?, s)
    else
      match translate c l h a false s with
      | (.wait, s) => (.wait, s)
      | (.fault f, s) => (.trap (f.trap ea h info) done.head?, s)
      | (.ok t, s) =>
        -- such an access is never split (R145)
        if s.isDevice t && ea.toNat % size ≠ 0 then
          (.trap { cause := 0x08, addr := ea, info := accInfo false false a.needW false (lg2 size) } done.head?, s)
        else s.checkParts c l ea size a split more true ((t, n) :: done)

def State.checkAccess (s : State) (c : Fin 64) (l : Level) (ea : Word) (size : Nat) (a : Acc) : AccAns × State :=
  let hs := halves ea size
  s.checkParts c l ea size a (decide (1 < hs.length)) hs false []

/-! ### Reading doublewords for traps and returns -/

/-- Why a doubleword of a frame or vector table could not be used (R138). -/
inductive DwAns where
  | ok (pa : Nat)
  | bad
  | wait

/-- Translate an aligned doubleword that must be cached (R138, R140). -/
def State.frameDw (s : State) (c : Fin 64) (l : Level) (ea : Word) (a : Acc) : DwAns × State :=
  match translate c l ea a false s with
  | (.wait, s) => (.wait, s)
  | (.fault _, s) => (.bad, s)
  | (.ok t, s) => if s.cached t then (.ok t.pa, s) else (.bad, s)

/-- Read an aligned doubleword that must be cached: none when it faults, is not cached or is poisoned. -/
def State.readDw (s : State) (c : Fin 64) (l : Level) (ea : Word) : Option (Option Word) × State :=
  match translate c l ea .load false s with
  | (.wait, s) => (none, s)
  | (.fault _, s) => (some none, s)
  | (.ok t, s) =>
    if !s.cached t then (some none, s) else
    match s.loadBytes c l t 8 true with
    | (.val v, s) => (some (some (BitVec.ofNat 64 v)), s)
    | (.poison, s) => (some none, s)
    | (.wait, s) => (none, s)

/-! ### Trap entry (R131 to R139) -/

/-- H-level software may delegate a cause raised at K (R126). -/
def delegableK (cause : Nat) : Bool :=
  decide (0x01 ≤ cause ∧ cause ≤ 0x12) && cause != 0x04 && cause != 0x11
/-- H-level software may delegate a cause raised at U (R126). -/
def delegableU (cause : Nat) : Bool := decide (0x01 ≤ cause ∧ cause ≤ 0x12) && cause != 0x11

/-- The level that takes a synchronous exception (R131). -/
def Core.route (k : Core) (cause : Nat) : Level :=
  let del := (k.reg .DELEG).getLsbD cause
  match k.level with
  | .h => .h
  | .k => if del && delegableK cause then .k else .h
  | .u => if del && delegableU cause then .k else .h

/-- A cause that is imprecise (R126): 0x0E, 0x16 and every interrupt. -/
def imprecise (cause : Nat) : Bool := cause == 0x0E || cause == 0x16 || decide (0x40 ≤ cause)

def Core.putRecord (k : Core) (l : Level) (t : Trap) (info : Word) (plevel : Level) : Core :=
  let cause := BitVec.ofNat 64 (b2n (imprecise t.cause) * 2 ^ 15 + plevel.toNat * 2 ^ 8 + t.cause)
  let k := if t.cause = 0x0F then k.setReg .FPCAUSE [] t.fpcause else k
  if l = .k then
    let k := (((k.setReg .TRAP_CAUSE_K [] cause).setReg .TRAP_ADDR_K [] t.addr).setReg .TRAP_INFO_K [] info).setReg
      .XLAT_INFO_K [] t.xlat
    if t.cause = 0x0E then k.setReg .TRAP_LONGPC_K [] t.longpc else k
  else
    let k := (((k.setReg .TRAP_CAUSE_H [] cause).setReg .TRAP_ADDR_H [] t.addr).setReg .TRAP_INFO_H [] info).setReg
      .XLAT_INFO_H [] t.xlat
    let k := if t.cause = 0x0E then k.setReg .TRAP_LONGPC_H [] t.longpc else k
    if t.cause = 0x14 then k.setReg .TRAP_GPA [] (BitVec.ofNat 64 t.gpa) else k

/-- The outcome of the checks of an entry: the frame's physical addresses and the handler, or the reason and failing
EA of a stacking fault. -/
inductive EntryAns where
  | ok (pas : List Nat) (handler : Word)
  | bad (reason : Nat) (ea : Word)
  | wait

/-- Check the ten doublewords of the frame in ascending order. -/
def State.checkFrame (s : State) (c : Fin 64) (l : Level) (ea : Word) : Nat → List Nat → (Except (Option Word) (List Nat)) × State
  | 0, done => (.ok done.reverse, s)
  | n + 1, done =>
    match s.frameDw c l ea .store with
    | (.wait, s) => (.error none, s)
    | (.bad, s) => (.error (some ea), s)
    | (.ok pa, s) => s.checkFrame c l (ea + 8) n (pa :: done)

/-- The checks of an entry to a level, in the order of R138. -/
def State.checkEntry (s : State) (c : Fin 64) (l : Level) (cause : Nat) : EntryAns × State :=
  let k := s.core c
  let sp := k.sp l
  let vec := (if l = .k then k.reg .VECBASE_K else k.reg .VECBASE_H) + BitVec.ofNat 64 (cause * 8)
  if sp.toNat % 16 ≠ 0 then (.bad 1 sp, s) else
  match s.checkFrame c l (sp - 80) 10 [] with
  | (.error none, s) => (.wait, s)
  | (.error (some ea), s) => (.bad 2 ea, s)
  | (.ok pas, s) =>
    match s.readDw c l vec with
    | (none, s) => (.wait, s)
    | (some none, s) => (.bad 3 vec, s)
    | (some (some e), s) => if e = 0 ∨ e.toNat % 4 ≠ 0 then (.bad 4 vec, s) else (.ok pas e, s)

/-- The frame's ten doublewords: PC, STATUS, G1 to G8 (R134). -/
def Core.frameWords (k : Core) (pc : Word) : List Word :=
  [pc, k.reg .STATUS] ++ (List.range 8).map fun i => k.readG (Fin.ofNat 32 (i + 1))

/-- Complete an entry whose checks passed (R133). A step trap that is owed is owed again after the TRET of the frame (R146;
log entry 92). -/
def State.finishEntry (s : State) (c : Fin 64) (l : Level) (t : Trap) (info : Word) (plevel : Level) (pc : Word)
    (pas : List Nat) (handler : Word) : State :=
  let k := s.core c
  let old := k.level
  let entries := (pas.zip (k.frameWords pc)).map fun p =>
    ({ pa := p.1, size := 8, data := p.2, typ := .normal, lvl := l, pid := k.pid l, cls := k.cls l } : StoreEntry)
  let k := (k.putRecord l t info plevel)
  let base := k.sp l - 80
  let k := k.setSp l base
  let ties := (k.stepFrames.filter fun x => x != (l, base)) ++ if k.stepDue && t.cause != 0x12 then [(l, base)] else []
  let st := putBits (putBits (putBits (k.reg .STATUS) .STATUS_LEVEL l.toNat) .STATUS_IE 0) .STATUS_SS 0
  let k := { (k.setReg .STATUS [] st) with frame := entries, resv := none, hold := none, pc := handler, seqEnd := false,
                                              stepDue := false, stepFrames := ties }
  -- a load or PSYNC that waited is discarded (R135)
  let s := (s.setCore c k).forsake c
  let s := { s with probes := s.probes.filter fun p => p.who ≠ c.val }
  let s := s.traceExc c t.cause old l pc handler
  if t.cause < 0x40 then s.event c evException else s.event c evInterrupt

/-- TRAP_INFO of cause 0x13 (R138, R140). DESIGN CHOICE (log entry 92): WRITE and SIZE of the frame access stay 0. -/
def stackInfo (orig reason dir : Nat) : Word := BitVec.ofNat 64 (orig * 2 ^ 24 + dir * 2 ^ 23 + reason * 2 ^ 20)

/-- A double fault (R139): the core stops and reports to Fetas. -/
def State.doubleFault (s : State) (c : Fin 64) (orig reason : Nat) (ea : Word) (plevel : Level) : State :=
  (s.updCore c fun k => { (k.putRecord .h { cause := 0x13, addr := ea } (stackInfo orig reason 0) plevel) with
      run := .stopped .doubleFault }).report (.doubleFault c.val)

/-- The outcomes of taking a trap. direct: the handler of its own cause was entered, not that of a stacking fault. -/
inductive TrapAns where
  | taken (s : State) (direct : Bool)
  | wait (s : State)

/-- Enter H; a stacking fault there is a double fault (R139). -/
def State.enterH (s : State) (c : Fin 64) (t : Trap) (info : Word) (plevel : Level) (pc : Word) : TrapAns :=
  match s.checkEntry c .h t.cause with
  | (.wait, s) => .wait s
  | (.bad r ea, s) => .taken (s.doubleFault c t.cause r ea plevel) false
  | (.ok pas e, s) => .taken (s.finishEntry c .h t info plevel pc pas e) true

/-- Enter a level with a trap raised at plevel; pc is the stacked PC. A stacking fault on entry to K enters H with
cause 0x13 (R138). -/
def State.enter (s : State) (c : Fin 64) (l : Level) (t : Trap) (pc : Word) : TrapAns :=
  let plevel := (s.core c).level
  match s.drainFrame c with
  | (false, s) => .wait s
  | (true, s) =>
    if l = .h then s.enterH c t t.info plevel pc
    else
      match s.checkEntry c .k t.cause with
      | (.wait, s) => .wait s
      | (.ok pas e, s) => .taken (s.finishEntry c .k t t.info plevel pc pas e) true
      | (.bad r ea, s) =>
        let s := s.updCore c fun k => k.putRecord .k t t.info plevel
        match s.enterH c { cause := 0x13, addr := ea } (stackInfo t.cause r 0) plevel pc with
        | .taken s _ => .taken s false
        | .wait s => .wait s

/-! ### Residue checks (R99 to R101) -/

/-- The unit an operation is checked in: 0 adder, 1 multiplier, 2 divider. -/
def resCnt : Nat → Fld
  | 0 => .RES_STAT_ADD_CNT
  | 1 => .RES_STAT_MUL_CNT
  | _ => .RES_STAT_DIV_CNT

/-- An operation of a unit meets the injected mismatch, if one is armed for it: it is counted and replayed; a second
mismatch, in mode M7, stops the core with cause 0x16 to Fetas. False: the core stopped. -/
def State.residue (s : State) (c : Fin 64) (unit : Nat) : Bool × State :=
  let k := s.core c
  if k.fld .RES_CTL .RES_CTL_INJ ≠ unit + 1 then (true, s)
  else
    let cnt (k : Core) : Core := k.setFld .RES_STAT [] (resCnt unit) (satAdd 0xFFFF (k.fld .RES_STAT (resCnt unit)) 1)
    let s := ((s.setCore c ((cnt k).setFld .RES_CTL [] .RES_CTL_INJ 0)).event c (evResidue + unit)).count .residue
    if flag (k.reg .RES_CTL) .RES_CTL_TWICE && s.mode == .m7 then
      let s := ((s.updCore c fun k => (cnt k).setFld .RES_CTL [] .RES_CTL_TWICE 0).event c (evResidue + unit)).count .residue
      (false, (s.updCore c fun k => { k with run := .stopped .machineCheck }).report (.machineCheck c.val))
    else (true, s)

/-! ### Long operations (R84 to R89) -/

/-- The divider ends the operation in flight, if any (R87): its residue check, its result and its flags; a fault it
raises is owed from then on (R88, R89). False: the check stopped the core with the operation in flight (R100). -/
def State.longEnd (s : State) (c : Fin 64) : Bool × State :=
  match (s.core c).long with
  | none => (true, s)
  | some o =>
    match s.residue c 2 with
    | (false, s) => (false, s)
    | (true, s) => (true, s.updCore c fun k =>
        let k := if o.fp then k.writeF o.rd o.result else k.writeG o.rd o.result
        let k := k.setReg .FPFLAGS [] (k.reg .FPFLAGS ||| o.flags.setWidth 64)
        let due := !o.fp && o.flags.getLsbD 5 && flag (k.reg .FPCTL) .FPCTL_IDZE
        { k with long := none, owed := if due then some o else k.owed })

/-- Take the deferred fault that is owed (R89); the stacked PC is the oldest unretired instruction. True: none is owed. -/
def State.takeOwed (s : State) (c : Fin 64) : Bool × State :=
  let k := s.core c
  match k.owed with
  | none => (true, s)
  | some o =>
    let info := putBits (putBits (putBits (k.reg .LONG_INFO) .LONG_INFO_VALID 1) .LONG_INFO_RD o.rd.val) .LONG_INFO_FN o.fn
    match s.enter c (k.route 0x0E) { cause := 0x0E, longpc := o.pc } k.pc with
    | .taken s _ => (false, s.updCore c fun k => { (k.setReg .LONG_INFO [] info) with owed := none })
    | .wait s => (false, s)

/-- Wait for the long operation in flight, if any, and take the fault it leaves (R78, R87, R89). True: the core goes on
with the same instruction. -/
def State.longFinish (s : State) (c : Fin 64) : Bool × State :=
  match s.longEnd c with
  | (true, s) => s.takeOwed c
  | (false, s) => (false, s)

/-! ### The fetch of an instruction -/

/-- The answer of a fetch. -/
inductive FetchAns where
  | ok
  | trap (t : Trap)
  | wait

/-- Both L1s of a core are past their reset invalidation: until then it does not fetch (R197). -/
def Core.l1Ready (k : Core) : Bool := k.l1i.ready && k.l1d.ready

/-- Obtain a sector in a core's L1I (R105, R177): its fill slot serves one miss at a time, and fetch waits for both L1s
of the core after power-up (R197). -/
def State.l1iGet (s : State) (c : Fin 64) (n : Nat) (l : Level) : GetAns × State :=
  if ((s.core c).l1i.secD .l1 n).st ≠ .i then (.ok, s)
  else if !(s.core c).l1Ready then (.wait, s)
  else
    let again := (s.core c).ifWait = some n
    let s := match (s.core c).ifWait with
      | some m =>
        let s := (s.progress m).fillSlots c m
        if s.fillPending (quadOf c) m then s else s.updCore c fun k => { k with ifWait := none }
      | none => s
    if (s.core c).ifWait.isSome then (.wait, s)
    else if ((s.core c).l1i.secD .l1 n).st ≠ .i then (.ok, s)
    else
      let s := if again then s else s.event c evFetchMiss
      match s.l2Get (quadOf c) n ((s.core c).cls l) false with
      | (.ok, s) =>
        match s.l1iTake c n with
        | (true, s) => (.ok, s)
        | (false, s) => (.wait, s)
      | (.wait, s) =>
        (.wait, if s.fillPending (quadOf c) n then s.updCore c fun k => { k with ifWait := some n } else s)
      | (.err, s) => (.err, s)

/-- A read of the QSPI window finds flash: the window is enabled and the offset lies in the fitted flash (R30, R340). -/
def qspiOk (s : State) (pa : Nat) : Bool :=
  let r := s.reg .QSPI_CFG
  s.pdUp 106 && flag r .QSPI_CFG_EN && bits r .QSPI_CFG_SIZE != 0 && decide (qspiBase ≤ pa) && decide (pa < qspiEnd) &&
    decide (pa - qspiBase < 2 ^ bits r .QSPI_CFG_SIZE)

/-- Read the sector of a fetch in memory: none while it waits, else whether it is poisoned. A home that does not answer
gives zeros (R30). -/
def State.fetchMem (s : State) (c : Fin 64) (l : Level) (t : Xlat) : Option Bool × State :=
  let n := t.pa / 64
  if s.cached t then
    match s.l1iGet c n l with
    | (.ok, s) => (some ((s.core c).l1i.secD .l1 n).poison, s)
    | (.wait, s) => (none, s)
    | (.err, s) => (some false, s.addrErr (quadStop (quadOf c)) false 4 t.pa ((s.core c).pid l))
  else if !(s.core c).l1Ready then (none, s)
  else
    match s.ucRead (quadOf c) n ((s.core c).cls l) c.val ((s.core c).pid l) with
    | (none, s) => (none, s)
    | (some (_, p), s) => (some p, s)

/-- The fetch of the instruction at the PC: the fetch checks of R129, and the fill of L1I (R31, R105). Sequential fetch
that has left the segment's offset space raises cause 0x09 (R150). -/
def State.fetch (s : State) (c : Fin 64) : FetchAns × State :=
  let k := s.core c
  let pc := k.pc
  let info := accInfo false false false true 2
  let err (kind : Nat) (t : Xlat) (s : State) : State := s.addrErr (quadStop (quadOf c)) false kind t.pa (k.pid k.level)
  if k.seqEnd then (.trap { cause := 0x09, addr := pc, info := info }, s) else
  match translate c k.level pc .fetch false s with
  | (.wait, s) => (.wait, s)
  | (.fault f, s) => (.trap { (f.trap pc pc info) with addr := pc }, s)
  | (.ok t, s) =>
    let s := s.event c evFetch
    if s.isMem t.pa then
      match s.fetchMem c k.level t with
      | (none, s) => (.wait, s)
      | (some true, s) => (.trap { cause := 0x0D, addr := pc, info := info }, s.event c evPoisoned)
      | (some false, s) => (.ok, s)
    else if qspiBase ≤ t.pa ∧ t.pa < qspiEnd then
      -- flash that does not answer reads as zero (R30, R340)
      if !(s.core c).l1Ready then (.wait, s) else if qspiOk s t.pa then (.ok, s) else (.ok, err 5 t s)
    else
      -- a fetch from a range that is not executable never reaches the target (R31, R36)
      (.trap { cause := 0x0D, addr := pc, info := info }, err 8 t s)

/-! ### The frame of every instruction -/

/-- At an instruction boundary a core with a debug halt requested halts once the code it is to run is admitted and no
long operation is in flight (R492). -/
def State.haltCheck (s : State) (c : Fin 64) : State :=
  let k := s.core c
  if k.haltReq && (k.run == .running || k.run == .wfi) && k.devLoad.isNone && s.admits c then
    match s.longFinish c with
    | (true, s) => s.updCore c fun k => { k with run := .halted, haltReq := false, inWfi := k.run == .wfi }
    | (false, s) => s
  else s

/-- Take a trap with no long operation in flight; done: what is settled once it is taken. -/
def State.trapNow (s : State) (c : Fin 64) (t : Trap) (pc : Word) (done : Core → Core := id) : State :=
  match s.enter c ((s.core c).route t.cause) t pc with
  | .taken s _ => (s.updCore c done).haltCheck c
  | .wait s => s

/-- A trap raised by the instruction at the PC, or by the one before the given stacked PC (R87, R128, R131). -/
def State.raise (s : State) (c : Fin 64) (t : Trap) (pc : Word) : State :=
  match s.longFinish c with
  | (true, s) => s.trapNow c t pc
  | (false, s) => s

/-- What the acceptance of a cause does before the handler's first instruction (R267, R485). -/
def State.accepted (s : State) (c : Fin 64) (cause : Nat) : State :=
  if cause = 0x40 then s.takeOffer c false
  else if cause = 0x41 then s.takeOffer c true
  else if cause = 0x45 then s.updTrace c fun t => { t with irq := false }
  else s

/-- Take the first acceptable interrupt with no long operation in flight (R132, R266, R267). A stacking fault does not
consume it (R138). -/
def State.interrupt (s : State) (c : Fin 64) : State :=
  match (s.core c).irqNext with
  | none => s
  | some (cause, l) =>
    match s.enter c l { cause := cause } (s.core c).pc with
    | .taken s true => (s.accepted c cause).haltCheck c
    | .taken s false => s.haltCheck c
    | .wait s => s

/-- The step trap, with no long operation in flight (R87, R146). -/
def State.stepTrap (s : State) (c : Fin 64) : State :=
  match s.longFinish c with
  | (false, s) => s
  | (true, s) => s.trapNow c { cause := 0x12, info := BitVec.ofNat 64 (2 ^ 19) } (s.core c).pc

/-- What is owed at an instruction boundary comes before the next instruction, in the order of R130: a machine check that
Fetas returned (R128), the fault of a long operation (R89), an acceptable interrupt (R132, R140), and the step trap (R146).
True: nothing was owed. -/
def State.boundary (s : State) (c : Fin 64) : Bool × State :=
  let k := s.core c
  if k.mcheck then
    match s.longEnd c with
    | (true, s) => (false, s.trapNow c { cause := 0x16 } k.pc fun k => { k with mcheck := false })
    | (false, s) => (false, s)
  else if k.owed.isSome then s.takeOwed c
  else if k.irqReady then
    match s.longFinish c with
    | (true, s) => (false, s.interrupt c)
    | (false, s) => (false, s)
  else if k.stepDue then (false, s.stepTrap c)
  else (true, s)

/-- A precise exception of the instruction at the PC gives way to an acceptable interrupt at the same boundary, which
finds the state before the instruction (R130). -/
def State.except (s : State) (c : Fin 64) (t : Trap) (pc : Word) (before : State) : State :=
  if (before.core c).irqReady then
    match before.longFinish c with
    | (true, s) => s.interrupt c
    | (false, s) => s
  else s.raise c t pc

/-- What an instruction needs of the long operation in flight: the registers it uses, or that it waits for it. -/
structure Needs where
  g : List (Fin 32) := []
  f : List (Fin 32) := []
  /-- serialising instructions and LSYNC wait for it (R54, R78) -/
  all : Bool := false
  /-- units whose residue check the instruction passes (R99) -/
  units : List Nat := []

/-- The instruction must wait for the long operation. -/
def Needs.blocked (n : Needs) (o : LongOp) : Bool :=
  n.all || (if o.fp then n.f.contains o.rd else n.g.contains o.rd)

/-- Wait for the long operation in flight when the instruction must. -/
def State.longClear (s : State) (c : Fin 64) (n : Needs) : Bool × State :=
  match (s.core c).long with
  | some o => if n.blocked o then s.longFinish c else (true, s)
  | none => (true, s)

/-- The residue checks of an instruction, one unit after the other. -/
def State.residues (s : State) (c : Fin 64) : List Nat → Bool × State
  | [] => (true, s)
  | u :: us =>
    match s.residue c u with
    | (true, s) => s.residues c us
    | (false, s) => (false, s)

/-- The last instruction of a segment's offset space (R150). -/
def lastPc (pc : Word) : Bool := pc.toNat % 2 ^ 48 == 2 ^ 48 - 4

/-- Retire an instruction: the PC goes on, in sequence without a carry into SEG (R150; log entry 92), and the step trap
is owed when it was single-stepped, behind what comes before it at the boundary; a WFI that waits is stepped once it
completes (R130, R146). -/
def State.retire (s : State) (c : Fin 64) (pc npc : Word) (ss seq : Bool) : State :=
  let last := seq && lastPc pc
  let s := (s.updCore c fun k => { k with pc := if last then pc - BitVec.ofNat 64 (2 ^ 48 - 4) else npc, seqEnd := last }).event c evRetired
  let s := s.traceRetire c pc
  let s := if ss then s.updCore c fun k => { k with stepDue := true } else s
  if ss && (s.core c).run == .running then (s.boundary c).2 else s.haltCheck c

/-- A core that executes instructions: running, with no load outstanding. -/
def Core.ready (k : Core) : Bool := k.run == .running && k.devLoad.isNone

/-- A load at the PC waits for its miss (R114). -/
def State.loadHeld (s : State) (c : Fin 64) : Bool × State :=
  let r := s.missWait c
  (r.1 && (s.core c).ldPc == (s.core c).pc, r.2)

/-- Execute one instruction on a core: what is owed at its boundary, fetch, wait for the divider, checks, effect,
retirement or trap. A core that is not ready executes nothing (log entry 7). -/
def State.runInstr (s : State) (c : Fin 64) (n : Needs) (body : State → Ex) : State :=
  let k := s.core c
  if !k.ready || s.traceStalled c then s
  else
    match s.boundary c with
    | (false, s) => s
    | (true, s) =>
      match s.loadHeld c with
      | (true, s) => s
      | (false, s) =>
        match s.fetch c with
        | (.wait, s) => s
        | (.trap t, s) => s.except c t k.pc s
        | (.ok, s) =>
          match s.longClear c n with
          | (false, s) => s
          | (true, s) =>
            match s.residues c n.units with
            | (false, s) => s
            | (true, s) =>
              let ss := flag (k.reg .STATUS) .STATUS_SS
              match body s with
              | .wait s => s
              | .trap t s' =>
                -- SYSCALL, HCALL and BRK stack the address after them (R128)
                s'.except c t (if t.cause = 0x10 ∨ t.cause = 0x11 ∨ t.cause = 0x12 then k.pc + 4 else k.pc) s
              | .done s npc => s.retire c k.pc npc ss true
              | .jump s npc => s.retire c k.pc npc ss false

/-- The PC of a core. -/
def State.pcOf (s : State) (c : Fin 64) : Word := (s.core c).pc

/-- An instruction that writes a G register and goes on. -/
def State.doneG (s : State) (c : Fin 64) (rd : Fin 32) (v : Word) : Ex :=
  .done (s.updCore c fun k => k.writeG rd v) (s.pcOf c + 4)

/-- An instruction that writes an F register and goes on. -/
def State.doneF (s : State) (c : Fin 64) (fd : Fin 32) (v : Word) : Ex :=
  .done (s.updCore c fun k => k.writeF fd v) (s.pcOf c + 4)

/-- Every command of this model has a next state. -/
def ok (s : State) : Host.Outcome State Fault Refusal := .next s

end Sys2Proof.Machine
end

