-- ==== Sys2Proof/Machine/Flags.lean ====
section
/-! DEFINITION. Flag computations: the floating-point exceptions, their enables, and the rounding modes (R56, R91 to
R97). -/

namespace Sys2Proof.Machine

/-- Exceptions in the bit order of FPFLAGS[4:0] (R98's table). -/
abbrev FFlags := BitVec 5
def fNV : FFlags := 0b10000#5
def fDZ : FFlags := 0b01000#5
def fOF : FFlags := 0b00100#5
def fUF : FFlags := 0b00010#5
def fNX : FFlags := 0b00001#5
def fIf (b : Bool) (f : FFlags) : FFlags := if b then f else 0

/-- Rounding modes (R56). -/
inductive RMode where
  | even | zero | down | up | away
  deriving DecidableEq, Repr

/-- A mode from the encodings 0 to 4. -/
def RMode.of : Nat → Option RMode
  | 0 => some .even
  | 1 => some .zero
  | 2 => some .down
  | 3 => some .up
  | 4 => some .away
  | _ => none

/-- The dynamic mode (R91). -/
def Core.dynMode (k : Core) : RMode := (RMode.of (k.fld .FPCTL .FPCTL_RM)).getD .even

/-- The mode an RM field selects; none when it is reserved (R56). -/
def Core.rmode (k : Core) (rm : BitVec 5) : Option RMode :=
  if rm = 7 then some k.dynMode else RMode.of rm.toNat

/-- The trap enables of FPCTL, in the order of the flags. -/
def Core.fpEnables (k : Core) : FFlags := BitVec.ofNat 5 ((k.reg .FPCTL).toNat / 16)

/-- Underflow is signalled whenever the result is tiny (R93). -/
def Core.ufe (k : Core) : Bool := flag (k.reg .FPCTL) .FPCTL_UFE

/-- Set sticky flags (R97). -/
def Core.setFlags (k : Core) (f : FFlags) : Core := k.setReg .FPFLAGS [] (k.reg .FPFLAGS ||| f.setWidth 64)

end Sys2Proof.Machine
end

