-- ==== Sys2Proof/Machine/Float.lean ====
section
/-! DEFINITION. IEEE 754-2019 arithmetic in binary32 and binary64 (R55 to R57, R90 to R96), computed exactly and then
rounded once. -/

namespace Sys2Proof.Machine

/-- A format: exponent and fraction widths (R90). -/
structure FFmt where
  eb : Nat
  mb : Nat
  deriving DecidableEq, Repr

def fmtS : FFmt := ⟨8, 23⟩
def fmtD : FFmt := ⟨11, 52⟩
def FFmt.width (f : FFmt) : Nat := 1 + f.eb + f.mb
def FFmt.bias (f : FFmt) : Nat := 2 ^ (f.eb - 1) - 1
def FFmt.emax (f : FFmt) : Nat := 2 ^ f.eb - 1
/-- Exponent of the last place of a subnormal. -/
def FFmt.emin (f : FFmt) : Int := 1 - (f.bias : Int) - f.mb
def FFmt.inf (f : FFmt) (s : Bool) : Nat := b2n s * 2 ^ (f.eb + f.mb) + f.emax * 2 ^ f.mb
def FFmt.big (f : FFmt) (s : Bool) : Nat := f.inf s - 1
def FFmt.zero (f : FFmt) (s : Bool) : Nat := b2n s * 2 ^ (f.eb + f.mb)
/-- The canonical quiet NaN (R90, R92). -/
def FFmt.nan (f : FFmt) : Nat := f.emax * 2 ^ f.mb + 2 ^ (f.mb - 1)

/-- What a bit pattern means: a NaN, an infinity, or (-1)^s * m * 2^e. -/
inductive FVal where
  | nan (signalling : Bool)
  | inf (s : Bool)
  | fin (s : Bool) (m : Nat) (e : Int)
  deriving DecidableEq, Repr

def FFmt.decode (f : FFmt) (b : Nat) : FVal :=
  let s := b.testBit (f.eb + f.mb)
  let ex := b / 2 ^ f.mb % 2 ^ f.eb
  let fr := b % 2 ^ f.mb
  if ex = f.emax then (if fr = 0 then .inf s else .nan (!fr.testBit (f.mb - 1)))
  else if ex = 0 then .fin s fr f.emin
  else .fin s (2 ^ f.mb + fr) ((ex : Int) - f.bias - f.mb)

def FVal.isNan : FVal → Bool
  | .nan _ => true
  | _ => false
def FVal.isSnan : FVal → Bool
  | .nan b => b
  | _ => false

/-- Round up in magnitude: the kept part is odd, and the rest compared with a half (0 less, 1 equal, 2 more; none
exact). -/
def RMode.up? (r : RMode) (s odd : Bool) (cmp : Option Nat) : Bool :=
  match cmp with
  | none => false
  | some h =>
    match r with
    | .even => h == 2 || (h == 1 && odd)
    | .zero => false
    | .down => s
    | .up => !s
    | .away => h != 0

/-- How the d low bits of m, with a sticky bit below them, compare with a half. -/
def restCmp (m d : Nat) (sticky : Bool) : Option Nat :=
  let r := m % 2 ^ d
  if d = 0 then (if sticky then some 0 else none)
  else
    let h := 2 ^ (d - 1)
    if r = 0 && !sticky then none
    else if r < h then some 0
    else if r = h && !sticky then some 1
    else some 2

/-- Round m * 2^e, plus a sticky amount below, to a multiple of 2^t. -/
def roundTo (r : RMode) (s : Bool) (m : Nat) (e t : Int) (sticky : Bool) : Nat × Bool :=
  if t ≤ e then (m * 2 ^ (e - t).toNat, sticky)
  else
    let d := (t - e).toNat
    let q := m / 2 ^ d
    let c := restCmp m d sticky
    (if r.up? s (q % 2 == 1) c then q + 1 else q, c.isSome)

/-- Round an exact nonzero magnitude to a format (R90, R93): the bits and the flags. -/
def FFmt.round (f : FFmt) (r : RMode) (ufe : Bool) (s : Bool) (m : Nat) (e : Int) (sticky : Bool) : Nat × FFlags :=
  let p : Int := f.mb + 1
  let top : Int := e + (m.log2 + 1)
  let t0 := top - p
  let t := if t0 < f.emin then f.emin else t0
  let (q, nx) := roundTo r s m e t sticky
  -- tininess after rounding, with an unbounded exponent
  let (q0, _) := roundTo r s m e t0 sticky
  let tiny := decide ((q0.log2 : Int) + t0 < 1 - (f.bias : Int))
  let (q, t) := if q = 2 ^ (f.mb + 1) then (2 ^ f.mb, t + 1) else (q, t)
  let ex : Int := t + f.mb + f.bias
  if 2 ^ f.mb ≤ q ∧ (f.emax : Int) ≤ ex then
    let toInf := match r with
      | .even | .away => true
      | .zero => false
      | .down => s
      | .up => !s
    (if toInf then f.inf s else f.big s, fOF ||| fNX)
  else
    let bits := if q < 2 ^ f.mb then q else ex.toNat * 2 ^ f.mb + (q - 2 ^ f.mb)
    (f.zero s + bits, fIf nx fNX ||| fIf (tiny && (nx || ufe)) fUF)

/-- The exact sum of two finite values. -/
def addFin (r : RMode) (s1 : Bool) (m1 : Nat) (e1 : Int) (s2 : Bool) (m2 : Nat) (e2 : Int) : Bool × Nat × Int :=
  let e := if e1 ≤ e2 then e1 else e2
  let x : Int := (m1 : Int) * 2 ^ (e1 - e).toNat * (if s1 then -1 else 1)
  let y : Int := (m2 : Int) * 2 ^ (e2 - e).toNat * (if s2 then -1 else 1)
  let z := x + y
  -- an exact zero keeps a common sign, and else is +0, or -0 when rounding down
  let s := if z = 0 then (if s1 = s2 then s1 else r == .down) else decide (z < 0)
  (s, z.natAbs, e)

def FFmt.pack (f : FFmt) (r : RMode) (ufe : Bool) (v : Bool × Nat × Int) : Nat × FFlags :=
  if v.2.1 = 0 then (f.zero v.1, 0) else f.round r ufe v.1 v.2.1 v.2.2 false

def FVal.neg : FVal → FVal
  | .fin s m e => .fin (!s) m e
  | .inf s => .inf (!s)
  | v => v

def FFmt.nanRes (f : FFmt) (inv : Bool) : Nat × FFlags := (f.nan, fIf inv fNV)

/-- FADD; FSUB negates its second operand. -/
def FFmt.add (f : FFmt) (r : RMode) (ufe : Bool) (a b : FVal) : Nat × FFlags :=
  if a.isNan || b.isNan then f.nanRes (a.isSnan || b.isSnan) else
  match a, b with
  | .inf s, .inf t => if s = t then (f.inf s, 0) else f.nanRes true
  | .inf s, _ => (f.inf s, 0)
  | _, .inf t => (f.inf t, 0)
  | .fin s1 m1 e1, .fin s2 m2 e2 => f.pack r ufe (addFin r s1 m1 e1 s2 m2 e2)
  | _, _ => f.nanRes false

def FFmt.mul (f : FFmt) (r : RMode) (ufe : Bool) (a b : FVal) : Nat × FFlags :=
  if a.isNan || b.isNan then f.nanRes (a.isSnan || b.isSnan) else
  match a, b with
  | .inf s, .inf t => (f.inf (s ^^ t), 0)
  | .inf s, .fin t m _ => if m = 0 then f.nanRes true else (f.inf (s ^^ t), 0)
  | .fin s m _, .inf t => if m = 0 then f.nanRes true else (f.inf (s ^^ t), 0)
  | .fin s1 m1 e1, .fin s2 m2 e2 => f.pack r ufe (s1 ^^ s2, m1 * m2, e1 + e2)
  | _, _ => f.nanRes false

/-- (a * b) + c, rounded once (R57); 0 times infinity is invalid whatever the addend (R92). -/
def FFmt.fma (f : FFmt) (r : RMode) (ufe : Bool) (a b c : FVal) : Nat × FFlags :=
  let zeroInf := match a, b with
    | .inf _, .fin _ m _ => m == 0
    | .fin _ m _, .inf _ => m == 0
    | _, _ => false
  if a.isNan || b.isNan || c.isNan || zeroInf then
    f.nanRes (a.isSnan || b.isSnan || c.isSnan || zeroInf)
  else
    let prod : FVal := match a, b with
      | .fin s1 m1 e1, .fin s2 m2 e2 => .fin (s1 ^^ s2) (m1 * m2) (e1 + e2)
      | .fin s _ _, .inf t => .inf (s ^^ t)
      | .inf s, .fin t _ _ => .inf (s ^^ t)
      | .inf s, .inf t => .inf (s ^^ t)
      | _, _ => .nan false
    match prod, c with
    | .inf s, .inf t => if s = t then (f.inf s, 0) else f.nanRes true
    | .inf s, _ => (f.inf s, 0)
    | _, .inf t => (f.inf t, 0)
    | .fin s1 m1 e1, .fin s2 m2 e2 => f.pack r ufe (addFin r s1 m1 e1 s2 m2 e2)
    | _, _ => f.nanRes false

def FFmt.div (f : FFmt) (r : RMode) (ufe : Bool) (a b : FVal) : Nat × FFlags :=
  if a.isNan || b.isNan then f.nanRes (a.isSnan || b.isSnan) else
  match a, b with
  | .inf _, .inf _ => f.nanRes true
  | .inf s, .fin t _ _ => (f.inf (s ^^ t), 0)
  | .fin s _ _, .inf t => (f.zero (s ^^ t), 0)
  | .fin s m1 e1, .fin t m2 e2 =>
    if m2 = 0 then (if m1 = 0 then f.nanRes true else (f.inf (s ^^ t), fDZ))
    else if m1 = 0 then (f.zero (s ^^ t), 0)
    else
      let k := f.mb + 4 + (m2.log2 + 1)
      let n := m1 * 2 ^ k
      f.round r ufe (s ^^ t) (n / m2) (e1 - e2 - k) (n % m2 != 0)
  | _, _ => f.nanRes false

/-- Integer square root, one result bit at a time from bit n - 1 down. -/
def isqrt (x : Nat) : Nat → Nat → Nat
  | 0, r => r
  | n + 1, r => isqrt x n (if (r + 2 ^ n) * (r + 2 ^ n) ≤ x then r + 2 ^ n else r)

def FFmt.sqrt (f : FFmt) (r : RMode) (ufe : Bool) (a : FVal) : Nat × FFlags :=
  match a with
  | .nan b => f.nanRes b
  | .inf s => if s then f.nanRes true else (f.inf false, 0)
  | .fin s m e =>
    if m = 0 then (f.zero s, 0)
    else if s then f.nanRes true
    else
      let k := 2 * (f.mb + 3)
      -- the exponent under the root is made even
      let m' := if (e - k) % 2 = 0 then m * 2 ^ k else m * 2 ^ (k + 1)
      let e' := if (e - k) % 2 = 0 then e - k else e - k - 1
      let q := isqrt m' (m'.log2 / 2 + 1) 0
      f.round r ufe false q (e' / 2) (q * q != m')

/-- Compare two non-NaN values: -1, 0 or 1; both zeros are equal. -/
def FVal.cmp (a b : FVal) : Int :=
  match a, b with
  | .inf s, .inf t => if s = t then 0 else if s then -1 else 1
  | .inf s, _ => if s then -1 else 1
  | _, .inf t => if t then 1 else -1
  | .fin s1 m1 e1, .fin s2 m2 e2 =>
    let e := if e1 ≤ e2 then e1 else e2
    let x : Int := (m1 : Int) * 2 ^ (e1 - e).toNat * (if s1 then -1 else 1)
    let y : Int := (m2 : Int) * 2 ^ (e2 - e).toNat * (if s2 then -1 else 1)
    if x < y then -1 else if x = y then 0 else 1
  | _, _ => 0

def FVal.sign : FVal → Bool
  | .fin s _ _ => s
  | .inf s => s
  | .nan _ => false

/-- minimumNumber or maximumNumber (R55, R92): -0 is below +0; the other operand when exactly one is a NaN. -/
def FFmt.minMax (f : FFmt) (max : Bool) (x y : Nat) : Nat × FFlags :=
  let a := f.decode x
  let b := f.decode y
  let fl := fIf (a.isSnan || b.isSnan) fNV
  if a.isNan && b.isNan then (f.nan, fl)
  else if a.isNan then (y, fl)
  else if b.isNan then (x, fl)
  else
    let c := a.cmp b
    let less := decide (c < 0) || (decide (c = 0) && a.sign && !b.sign)
    (if less != max then x else y, fl)

/-- FEQ, FLT, FLE (R55): the truth value and the flags. -/
def FFmt.compare (f : FFmt) (op : Nat) (x y : Nat) : Bool × FFlags :=
  let a := f.decode x
  let b := f.decode y
  if a.isNan || b.isNan then (false, fIf (if op = 0 then a.isSnan || b.isSnan else true) fNV)
  else
    let c := a.cmp b
    (match op with
     | 0 => decide (c = 0)
     | 1 => decide (c < 0)
     | _ => decide (c ≤ 0), 0)

/-- FCLASS (R55). -/
def FFmt.class (f : FFmt) (x : Nat) : Nat :=
  match f.decode x with
  | .nan s => if s then 2 ^ 8 else 2 ^ 9
  | .inf s => if s then 1 else 2 ^ 7
  | .fin s m e =>
    let sub := decide (m < 2 ^ f.mb) && decide (e = f.emin)
    if m = 0 then (if s then 2 ^ 3 else 2 ^ 4)
    else if sub then (if s then 2 ^ 2 else 2 ^ 5)
    else if s then 2 ^ 1 else 2 ^ 6

/-- Sign injection (R55): 0 the sign of b, 1 its inverse, 2 the exclusive or. -/
def FFmt.sgnj (f : FFmt) (op x y : Nat) : Nat :=
  let top := f.eb + f.mb
  let sb := y.testBit top
  let s := match op with
    | 0 => sb
    | 1 => !sb
    | _ => x.testBit top ^^ sb
  x % 2 ^ top + b2n s * 2 ^ top

/-- Conversion between the formats (R55, R94). -/
def FFmt.convert (f : FFmt) (r : RMode) (ufe : Bool) (v : FVal) : Nat × FFlags :=
  match v with
  | .nan b => f.nanRes b
  | .inf s => (f.inf s, 0)
  | .fin s m e => f.pack r ufe (s, m, e)

/-- Conversion to a signed integer of n bits (R94). -/
def toIntN (n : Nat) (r : RMode) (v : FVal) : Int × FFlags :=
  let hi : Int := 2 ^ (n - 1) - 1
  let lo : Int := -(2 ^ (n - 1))
  match v with
  | .nan _ => (hi, fNV)
  | .inf s => (if s then lo else hi, fNV)
  | .fin s m e =>
    let (q, nx) := if m = 0 then (0, false) else roundTo r s m e 0 false
    let z : Int := if s then -(q : Int) else q
    if z < lo then (lo, fNV) else if hi < z then (hi, fNV) else (z, fIf nx fNX)

/-- Conversion from a signed integer. -/
def FFmt.ofInt (f : FFmt) (r : RMode) (z : Int) : Nat × FFlags := f.pack r false (decide (z < 0), z.natAbs, 0)

end Sys2Proof.Machine
end

