-- ==== Sys2Proof/Machine/Integer.lean ====
section
/-! DEFINITION. Integer instructions: register-register (R50), immediate (R51), multiply (R52, R82) and the long
integer operations (R52 to R54, R84 to R89). -/

namespace Sys2Proof.Machine

/-! ### Operations -/

def boolW (b : Bool) : Word := if b then 1 else 0

/-- sext32 of the manual. -/
def sext32 (w : Word) : Word := (w.setWidth 32).signExtend 64

/-- Number of leading zeros of the low n bits. -/
def leadingZeros (w : Word) : Nat → Nat
  | 0 => 0
  | n + 1 => if w.getLsbD n then 0 else 1 + leadingZeros w n

/-- Number of zeros below the lowest 1 among bits 64 - n to 63. -/
def trailingZeros (w : Word) : Nat → Nat
  | 0 => 0
  | n + 1 => if w.getLsbD (63 - n) then 0 else 1 + trailingZeros w n

/-- Number of 1 bits among the low n bits. -/
def onesBelow (w : Word) : Nat → Nat
  | 0 => 0
  | n + 1 => b2n (w.getLsbD n) + onesBelow w n

def mulHighS (a b : Word) : Word := BitVec.ofInt 64 (a.toInt * b.toInt / 2 ^ 64)
def mulHighU (a b : Word) : Word := BitVec.ofNat 64 (a.toNat * b.toNat / 2 ^ 64)

/-- Signed division of w-bit numbers, rounded toward zero, with the special operands of R53. -/
def divS {w : Nat} (a b : BitVec w) : BitVec w := if b = 0 then BitVec.allOnes w else BitVec.ofInt w (a.toInt.tdiv b.toInt)
/-- Unsigned division, with the special operands of R53. -/
def divU {w : Nat} (a b : BitVec w) : BitVec w := if b = 0 then BitVec.allOnes w else BitVec.ofNat w (a.toNat / b.toNat)
/-- Signed remainder, with the sign of the dividend (R52, R53). -/
def remS {w : Nat} (a b : BitVec w) : BitVec w := if b = 0 then a else BitVec.ofInt w (a.toInt.tmod b.toInt)
/-- Unsigned remainder (R52, R53). -/
def remU {w : Nat} (a b : BitVec w) : BitVec w := if b = 0 then a else BitVec.ofNat w (a.toNat % b.toNat)

/-! ### Instruction shapes -/

/-- Gd from Ga and Gb. -/
def State.opRR (s : State) (c : Fin 64) (units : List Nat) (rd ra rb : Fin 32) (f : Word → Word → Word) : State :=
  s.runInstr c { g := [rd, ra, rb], units := units } fun s =>
    s.doneG c rd (f ((s.core c).readG ra) ((s.core c).readG rb))

/-- Gd from Ga. -/
def State.opR (s : State) (c : Fin 64) (units : List Nat) (rd ra : Fin 32) (f : Word → Word) : State :=
  s.runInstr c { g := [rd, ra], units := units } fun s => s.doneG c rd (f ((s.core c).readG ra))

/-- Gd from the PC. -/
def State.opPc (s : State) (c : Fin 64) (units : List Nat) (rd : Fin 32) (f : Word → Word) : State :=
  s.runInstr c { g := [rd], units := units } fun s => s.doneG c rd (f (s.pcOf c))

/-- Issue a long operation: one already in flight completes first (R84). -/
def State.issueLong (s : State) (c : Fin 64) (o : LongOp) : Ex :=
  .done ((s.updCore c fun k => { k with long := some o }).event c evLongOp) (s.pcOf c + 4)

/-- An integer divide or remainder (R52, R53, R88): the result is written, and IDZ set for a zero divisor, when the
operation completes. -/
def State.opDiv (s : State) (c : Fin 64) (fn : Nat) (rd ra rb : Fin 32) (zero : Word → Bool) (f : Word → Word → Word) : State :=
  s.runInstr c { g := [rd, ra, rb], all := true } fun s =>
    let a := (s.core c).readG ra
    let b := (s.core c).readG rb
    s.issueLong c { fp := false, fn := fn, rd := rd, result := f a b, flags := if zero b then 0b100000 else 0, pc := s.pcOf c }

/-! ### Meanings -/

/-- ADD (R50). -/
def execAdd (c : CoreId) (rd ra rb : RegNo) (s : State) : Host.Outcome State Fault Refusal :=
  ok (s.opRR c [0] rd ra rb fun a b => a + b)

/-- SUB (R50). -/
def execSub (c : CoreId) (rd ra rb : RegNo) (s : State) : Host.Outcome State Fault Refusal :=
  ok (s.opRR c [0] rd ra rb fun a b => a - b)

/-- AND (R50). -/
def execAnd (c : CoreId) (rd ra rb : RegNo) (s : State) : Host.Outcome State Fault Refusal :=
  ok (s.opRR c [] rd ra rb fun a b => a &&& b)

/-- OR (R50). -/
def execOr (c : CoreId) (rd ra rb : RegNo) (s : State) : Host.Outcome State Fault Refusal :=
  ok (s.opRR c [] rd ra rb fun a b => a ||| b)

/-- XOR (R50). -/
def execXor (c : CoreId) (rd ra rb : RegNo) (s : State) : Host.Outcome State Fault Refusal :=
  ok (s.opRR c [] rd ra rb fun a b => a ^^^ b)

/-- SLL (R50). -/
def execSll (c : CoreId) (rd ra rb : RegNo) (s : State) : Host.Outcome State Fault Refusal :=
  ok (s.opRR c [] rd ra rb fun a b => a <<< (b.toNat % 64))

/-- SRL (R50). -/
def execSrl (c : CoreId) (rd ra rb : RegNo) (s : State) : Host.Outcome State Fault Refusal :=
  ok (s.opRR c [] rd ra rb fun a b => a >>> (b.toNat % 64))

/-- SRA (R50). -/
def execSra (c : CoreId) (rd ra rb : RegNo) (s : State) : Host.Outcome State Fault Refusal :=
  ok (s.opRR c [] rd ra rb fun a b => a.sshiftRight (b.toNat % 64))

/-- SLT (R50). -/
def execSlt (c : CoreId) (rd ra rb : RegNo) (s : State) : Host.Outcome State Fault Refusal :=
  ok (s.opRR c [0] rd ra rb fun a b => boolW (a.slt b))

/-- SLTU (R50). -/
def execSltu (c : CoreId) (rd ra rb : RegNo) (s : State) : Host.Outcome State Fault Refusal :=
  ok (s.opRR c [0] rd ra rb fun a b => boolW (a.ult b))

/-- SEQ (R50). -/
def execSeq (c : CoreId) (rd ra rb : RegNo) (s : State) : Host.Outcome State Fault Refusal :=
  ok (s.opRR c [0] rd ra rb fun a b => boolW (a == b))

/-- SNE (R50). -/
def execSne (c : CoreId) (rd ra rb : RegNo) (s : State) : Host.Outcome State Fault Refusal :=
  ok (s.opRR c [0] rd ra rb fun a b => boolW (a != b))

/-- MIN (R50). -/
def execMin (c : CoreId) (rd ra rb : RegNo) (s : State) : Host.Outcome State Fault Refusal :=
  ok (s.opRR c [0] rd ra rb fun a b => if a.slt b then a else b)

/-- MAX (R50). -/
def execMax (c : CoreId) (rd ra rb : RegNo) (s : State) : Host.Outcome State Fault Refusal :=
  ok (s.opRR c [0] rd ra rb fun a b => if a.slt b then b else a)

/-- MINU (R50). -/
def execMinu (c : CoreId) (rd ra rb : RegNo) (s : State) : Host.Outcome State Fault Refusal :=
  ok (s.opRR c [0] rd ra rb fun a b => if a.ult b then a else b)

/-- MAXU (R50). -/
def execMaxu (c : CoreId) (rd ra rb : RegNo) (s : State) : Host.Outcome State Fault Refusal :=
  ok (s.opRR c [0] rd ra rb fun a b => if a.ult b then b else a)

/-- ADDW (R50). -/
def execAddw (c : CoreId) (rd ra rb : RegNo) (s : State) : Host.Outcome State Fault Refusal :=
  ok (s.opRR c [0] rd ra rb fun a b => sext32 (a + b))

/-- SLLW (R50). -/
def execSllw (c : CoreId) (rd ra rb : RegNo) (s : State) : Host.Outcome State Fault Refusal :=
  ok (s.opRR c [] rd ra rb fun a b => ((a.setWidth 32) <<< (b.toNat % 32)).signExtend 64)

/-- SRLW (R50). -/
def execSrlw (c : CoreId) (rd ra rb : RegNo) (s : State) : Host.Outcome State Fault Refusal :=
  ok (s.opRR c [] rd ra rb fun a b => ((a.setWidth 32) >>> (b.toNat % 32)).signExtend 64)

/-- SRAW (R50). -/
def execSraw (c : CoreId) (rd ra rb : RegNo) (s : State) : Host.Outcome State Fault Refusal :=
  ok (s.opRR c [] rd ra rb fun a b => ((a.setWidth 32).sshiftRight (b.toNat % 32)).signExtend 64)

/-- CLZ (R50). -/
def execClz (c : CoreId) (rd ra : RegNo) (s : State) : Host.Outcome State Fault Refusal :=
  ok (s.opR c [] rd ra fun a => BitVec.ofNat 64 (leadingZeros a 64))

/-- CTZ (R50). -/
def execCtz (c : CoreId) (rd ra : RegNo) (s : State) : Host.Outcome State Fault Refusal :=
  ok (s.opR c [] rd ra fun a => BitVec.ofNat 64 (trailingZeros a 64))

/-- POPC (R50). -/
def execPopc (c : CoreId) (rd ra : RegNo) (s : State) : Host.Outcome State Fault Refusal :=
  ok (s.opR c [] rd ra fun a => BitVec.ofNat 64 (onesBelow a 64))

/-- SEL (R50). -/
def execSel (c : CoreId) (rd ra rb rc : RegNo) (s : State) : Host.Outcome State Fault Refusal :=
  ok (s.runInstr c { g := [rd, ra, rb, rc] } fun s =>
    let k := s.core c
    s.doneG c rd (if k.readG rc = 0 then k.readG rb else k.readG ra))

/-- ADDI (R51). -/
def execAddi (c : CoreId) (rd ra : RegNo) (imm : BitVec 16) (s : State) : Host.Outcome State Fault Refusal :=
  ok (s.opR c [0] rd ra fun a => a + immS imm)

/-- ANDI (R51). -/
def execAndi (c : CoreId) (rd ra : RegNo) (imm : BitVec 16) (s : State) : Host.Outcome State Fault Refusal :=
  ok (s.opR c [] rd ra fun a => a &&& immZ imm)

/-- ORI (R51). -/
def execOri (c : CoreId) (rd ra : RegNo) (imm : BitVec 16) (s : State) : Host.Outcome State Fault Refusal :=
  ok (s.opR c [] rd ra fun a => a ||| immZ imm)

/-- XORI (R51). -/
def execXori (c : CoreId) (rd ra : RegNo) (imm : BitVec 16) (s : State) : Host.Outcome State Fault Refusal :=
  ok (s.opR c [] rd ra fun a => a ^^^ immZ imm)

/-- SLTI (R51). -/
def execSlti (c : CoreId) (rd ra : RegNo) (imm : BitVec 16) (s : State) : Host.Outcome State Fault Refusal :=
  ok (s.opR c [0] rd ra fun a => boolW (a.slt (immS imm)))

/-- SLTIU (R51). -/
def execSltiu (c : CoreId) (rd ra : RegNo) (imm : BitVec 16) (s : State) : Host.Outcome State Fault Refusal :=
  ok (s.opR c [0] rd ra fun a => boolW (a.ult (immS imm)))

/-- ADDIW (R51). -/
def execAddiw (c : CoreId) (rd ra : RegNo) (imm : BitVec 16) (s : State) : Host.Outcome State Fault Refusal :=
  ok (s.opR c [0] rd ra fun a => sext32 (a + immS imm))

/-- LUI (R51). -/
def execLui (c : CoreId) (rd : RegNo) (imm : BitVec 16) (s : State) : Host.Outcome State Fault Refusal :=
  ok (s.opPc c [] rd fun _ => immS imm <<< 16)

/-- AUIPC (R51). -/
def execAuipc (c : CoreId) (rd : RegNo) (imm : BitVec 16) (s : State) : Host.Outcome State Fault Refusal :=
  ok (s.opPc c [0] rd fun pc => pc + (immS imm <<< 16))

/-- SLLI (R51). -/
def execSlli (c : CoreId) (rd ra : RegNo) (sh : BitVec 6) (s : State) : Host.Outcome State Fault Refusal :=
  ok (s.opR c [] rd ra fun a => a <<< sh.toNat)

/-- SRLI (R51). -/
def execSrli (c : CoreId) (rd ra : RegNo) (sh : BitVec 6) (s : State) : Host.Outcome State Fault Refusal :=
  ok (s.opR c [] rd ra fun a => a >>> sh.toNat)

/-- SRAI (R51). -/
def execSrai (c : CoreId) (rd ra : RegNo) (sh : BitVec 6) (s : State) : Host.Outcome State Fault Refusal :=
  ok (s.opR c [] rd ra fun a => a.sshiftRight sh.toNat)

/-- MUL (R52). -/
def execMul (c : CoreId) (rd ra rb : RegNo) (s : State) : Host.Outcome State Fault Refusal :=
  ok (s.opRR c [1] rd ra rb fun a b => a * b)

/-- MULH (R52). -/
def execMulh (c : CoreId) (rd ra rb : RegNo) (s : State) : Host.Outcome State Fault Refusal :=
  ok (s.opRR c [1] rd ra rb fun a b => mulHighS a b)

/-- MULHU (R52). -/
def execMulhu (c : CoreId) (rd ra rb : RegNo) (s : State) : Host.Outcome State Fault Refusal :=
  ok (s.opRR c [1] rd ra rb fun a b => mulHighU a b)

/-- MULW (R52). -/
def execMulw (c : CoreId) (rd ra rb : RegNo) (s : State) : Host.Outcome State Fault Refusal :=
  ok (s.opRR c [1] rd ra rb fun a b => sext32 (a * b))

/-- DIV (R52, R53): a long operation. -/
def execDiv (c : CoreId) (rd ra rb : RegNo) (s : State) : Host.Outcome State Fault Refusal :=
  ok (s.opDiv c 8 rd ra rb (fun b => b == 0) fun a b => divS a b)

/-- DIVU (R52, R53): a long operation. -/
def execDivu (c : CoreId) (rd ra rb : RegNo) (s : State) : Host.Outcome State Fault Refusal :=
  ok (s.opDiv c 9 rd ra rb (fun b => b == 0) fun a b => divU a b)

/-- REM (R52, R53): a long operation. -/
def execRem (c : CoreId) (rd ra rb : RegNo) (s : State) : Host.Outcome State Fault Refusal :=
  ok (s.opDiv c 10 rd ra rb (fun b => b == 0) fun a b => remS a b)

/-- REMU (R52, R53): a long operation. -/
def execRemu (c : CoreId) (rd ra rb : RegNo) (s : State) : Host.Outcome State Fault Refusal :=
  ok (s.opDiv c 11 rd ra rb (fun b => b == 0) fun a b => remU a b)

/-- DIVW (R52, R53): a long operation. -/
def execDivw (c : CoreId) (rd ra rb : RegNo) (s : State) : Host.Outcome State Fault Refusal :=
  ok (s.opDiv c 12 rd ra rb (fun b => b.setWidth 32 == 0#32) fun a b => (divS (a.setWidth 32) (b.setWidth 32)).signExtend 64)

/-- DIVUW (R52, R53): a long operation. -/
def execDivuw (c : CoreId) (rd ra rb : RegNo) (s : State) : Host.Outcome State Fault Refusal :=
  ok (s.opDiv c 13 rd ra rb (fun b => b.setWidth 32 == 0#32) fun a b => (divU (a.setWidth 32) (b.setWidth 32)).signExtend 64)

/-- LONG_OP_COMPLETE (R85): the divider writes its result; a zero divisor sets IDZ and, when enabled, the deferred
fault is taken at this boundary (R88, R89), or at the next one when the core is not at a boundary: while a Device load is
outstanding (R213), or when it does not run. The divider of a core that has stopped ends nothing (R100). -/
def execLongOpComplete (c : CoreId) (s : State) : Host.Outcome State Fault Refusal :=
  ok (match (s.core c).run with
    | .stopped _ => s
    | _ =>
      match s.longEnd c with
      | (true, s) => if (s.core c).ready && !(s.core c).mcheck then (s.takeOwed c).2 else s
      | (false, s) => s)

end Sys2Proof.Machine
end

