-- ==== Sys2Proof/Machine/FloatInstr.lean ====
section
/-! DEFINITION. Floating-point instructions (R55 to R57, R90 to R98). -/

namespace Sys2Proof.Machine

/-- The word of a Format A instruction (R46). -/
def wordA (op fn : Nat) (rd ra rb : Fin 32) (rc : Nat) : Word :=
  BitVec.ofNat 64 (op * 2 ^ 26 + rd.val * 2 ^ 21 + ra.val * 2 ^ 16 + rb.val * 2 ^ 11 + rc * 2 ^ 6 + fn)

/-- The word of a Format X instruction (R46). -/
def wordX (op xfn : Nat) (rx ra : Fin 32) (ximm : BitVec 12) : Word :=
  BitVec.ofNat 64 (op * 2 ^ 26 + rx.val * 2 ^ 21 + ra.val * 2 ^ 16 + xfn * 2 ^ 12 + ximm.toNat)

/-- An illegal instruction (R48): cause 0x03 with the word. -/
def illegal (word : Word) (s : State) : Ex := .trap { cause := 0x03, addr := word } s

/-- An instruction of a level too low (R12, R125): cause 0x04 with the word. -/
def privileged (word : Word) (s : State) : Ex := .trap { cause := 0x04, addr := word } s

/-- Where a floating-point instruction puts its result. -/
inductive FDest where
  | f (r : Fin 32) (single : Bool)
  | g (r : Fin 32)
  deriving DecidableEq, Repr

def FDest.word (d : FDest) (v : Nat) : Word :=
  match d with
  | .f _ single => if single then boxS (BitVec.ofNat 32 v) else BitVec.ofNat 64 v
  | .g _ => BitVec.ofNat 64 v

/-- Deliver a result and its flags (R97): an enabled exception traps, which writes FPCAUSE, and nothing else. can: what the
class of the instruction can signal (R96). -/
def State.fpDone (s : State) (c : Fin 64) (d : FDest) (v : Nat) (fl can : FFlags) : Ex :=
  let k := s.core c
  let s := if k.fpEnables &&& can ≠ 0 then s.event c evOrderedFp else s
  if fl &&& k.fpEnables ≠ 0 then
    .trap { cause := 0x0F, fpcause := fl.setWidth 64 } s
  else
    let s := s.updCore c fun k => k.setFlags fl
    match d with
    | .f r _ => s.doneF c r (d.word v)
    | .g r => s.doneG c r (d.word v)

/-- Deliver the result of FDIV or FSQRT (R54, R96): as a long operation, or in order when an exception it can signal is
enabled. -/
def State.fpLong (s : State) (c : Fin 64) (fn : Nat) (fd : Fin 32) (single : Bool) (v : Nat) (fl can : FFlags) : Ex :=
  let d := FDest.f fd single
  if (s.core c).fpEnables &&& can ≠ 0 then s.fpDone c d v fl can
  else s.issueLong c { fp := true, fn := fn, rd := fd, result := d.word v, flags := fl.setWidth 6, pc := s.pcOf c }

/-- The operand an F register presents in a format (R44). -/
def Core.operand (k : Core) (single : Bool) (r : Fin 32) : Nat :=
  if single then (unboxS (k.readF r)).toNat else (k.readF r).toNat

def fmtOf (single : Bool) : FFmt := if single then fmtS else fmtD

def allF : FFlags := 0b11111#5

/-- The units whose residue check an instruction with a rounding mode passes: none when the mode is reserved (R99). -/
def State.rmUnits (s : State) (c : Fin 64) (rm : BitVec 5) (units : List Nat) : List Nat :=
  if ((s.core c).rmode rm).isSome then units else []

/-- An ordered divide or square root passes the divider's residue check in order (R96, R99). can: what it can signal. -/
def State.divUnits (s : State) (c : Fin 64) (rm : BitVec 5) (can : FFlags) : List Nat :=
  if (s.core c).fpEnables &&& can ≠ 0 then s.rmUnits c rm [2] else []

/-- Fd from Fa and Fb with a rounding mode. It may retire while an older operation is in the divider, also when it is
ordered (R54, R96; DESIGN CHOICE, log entry 92). -/
def State.opF3 (s : State) (c : Fin 64) (fn : Nat) (single : Bool) (units : List Nat) (fd fa fb : Fin 32) (rm : BitVec 5)
    (can : FFlags) (op : FFmt → RMode → Bool → FVal → FVal → Nat × FFlags) : State :=
  s.runInstr c { f := [fd, fa, fb], units := s.rmUnits c rm units } fun s =>
    let k := s.core c
    let f := fmtOf single
    match k.rmode rm with
    | none => illegal (wordA 0x03 fn fd fa fb rm.toNat) s
    | some r =>
      let v := op f r k.ufe (f.decode (k.operand single fa)) (f.decode (k.operand single fb))
      s.fpDone c (.f fd single) v.1 v.2 can

/-- FDIV (R54, R55). -/
def State.opFdiv (s : State) (c : Fin 64) (fn : Nat) (single : Bool) (fd fa fb : Fin 32) (rm : BitVec 5) : State :=
  s.runInstr c { f := [fd, fa, fb], all := true, units := s.divUnits c rm allF } fun s =>
    let k := s.core c
    let f := fmtOf single
    match k.rmode rm with
    | none => illegal (wordA 0x03 fn fd fa fb rm.toNat) s
    | some r =>
      let v := f.div r k.ufe (f.decode (k.operand single fa)) (f.decode (k.operand single fb))
      s.fpLong c fn fd single v.1 v.2 allF

/-- FSQRT (R54, R55). -/
def State.opFsqrt (s : State) (c : Fin 64) (fn : Nat) (single : Bool) (fd fa : Fin 32) (rm : BitVec 5) : State :=
  s.runInstr c { f := [fd, fa], all := true, units := s.divUnits c rm (fNV ||| fNX) } fun s =>
    let k := s.core c
    let f := fmtOf single
    match k.rmode rm with
    | none => illegal (wordA 0x03 fn fd fa 0 rm.toNat) s
    | some r =>
      let v := f.sqrt r k.ufe (f.decode (k.operand single fa))
      s.fpLong c fn fd single v.1 v.2 (fNV ||| fNX)

/-- A fused multiply-add in the dynamic mode (R57): np negates the product, nc the addend. -/
def State.opFma (s : State) (c : Fin 64) (single np nc : Bool) (fd fa fb fc : Fin 32) : State :=
  s.runInstr c { f := [fd, fa, fb, fc], units := [1] } fun s =>
    let k := s.core c
    let f := fmtOf single
    let a := f.decode (k.operand single fa)
    let x := f.decode (k.operand single fc)
    let v := f.fma k.dynMode k.ufe (if np then a.neg else a) (f.decode (k.operand single fb)) (if nc then x.neg else x)
    s.fpDone c (.f fd single) v.1 v.2 (fNV ||| fOF ||| fUF ||| fNX)

/-- FMIN, FMAX (R55, R92). -/
def State.opFminMax (s : State) (c : Fin 64) (single max : Bool) (fd fa fb : Fin 32) : State :=
  s.runInstr c { f := [fd, fa, fb] } fun s =>
    let k := s.core c
    let v := (fmtOf single).minMax max (k.operand single fa) (k.operand single fb)
    s.fpDone c (.f fd single) v.1 v.2 fNV

/-- FSGNJ, FSGNJN, FSGNJX (R55). -/
def State.opFsgnj (s : State) (c : Fin 64) (single : Bool) (op : Nat) (fd fa fb : Fin 32) : State :=
  s.runInstr c { f := [fd, fa, fb] } fun s =>
    let k := s.core c
    s.fpDone c (.f fd single) ((fmtOf single).sgnj op (k.operand single fa) (k.operand single fb)) 0 0

/-- FEQ, FLT, FLE (R55). -/
def State.opFcmp (s : State) (c : Fin 64) (single : Bool) (op : Nat) (gd fa fb : Fin 32) : State :=
  s.runInstr c { f := [fa, fb], g := [gd] } fun s =>
    let k := s.core c
    let v := (fmtOf single).compare op (k.operand single fa) (k.operand single fb)
    s.fpDone c (.g gd) (b2n v.1) v.2 fNV

/-- FCLASS (R55). -/
def State.opFclass (s : State) (c : Fin 64) (single : Bool) (gd fa : Fin 32) : State :=
  s.runInstr c { f := [fa], g := [gd] } fun s =>
    s.fpDone c (.g gd) ((fmtOf single).class ((s.core c).operand single fa)) 0 0

/-- Conversion between the formats (R55, R94); dst: the format of the result is binary32. -/
def State.opFcvtF (s : State) (c : Fin 64) (fn : Nat) (dst : Bool) (fd fa : Fin 32) (rm : BitVec 5) : State :=
  s.runInstr c { f := [fd, fa] } fun s =>
    let k := s.core c
    match k.rmode rm with
    | none => illegal (wordA 0x03 fn fd fa 0 rm.toNat) s
    | some r =>
      let v := (fmtOf dst).convert r k.ufe ((fmtOf !dst).decode (k.operand (!dst) fa))
      s.fpDone c (.f fd dst) v.1 v.2 (if dst then fNV ||| fOF ||| fUF ||| fNX else fNV)

/-- Conversion to a signed integer of n bits (R55, R94). -/
def State.opFcvtI (s : State) (c : Fin 64) (fn : Nat) (single : Bool) (n : Nat) (gd fa : Fin 32) (rm : BitVec 5) : State :=
  s.runInstr c { f := [fa], g := [gd] } fun s =>
    let k := s.core c
    match k.rmode rm with
    | none => illegal (wordA 0x03 fn gd fa 0 rm.toNat) s
    | some r =>
      let v := toIntN n r ((fmtOf single).decode (k.operand single fa))
      s.fpDone c (.g gd) (BitVec.ofInt 64 v.1).toNat v.2 (fNV ||| fNX)

/-- Conversion from a signed integer of n bits (R55, R96). -/
def State.opFcvtFromI (s : State) (c : Fin 64) (fn : Nat) (single : Bool) (n : Nat) (fd ga : Fin 32) (rm : BitVec 5) : State :=
  s.runInstr c { f := [fd], g := [ga] } fun s =>
    let k := s.core c
    match k.rmode rm with
    | none => illegal (wordA 0x03 fn fd ga 0 rm.toNat) s
    | some r =>
      let v := (fmtOf single).ofInt r ((k.readG ga).setWidth n).toInt
      s.fpDone c (.f fd single) v.1 v.2 (if single || n == 64 then fNX else 0)

/-! ### Meanings -/

/-- FADD_S (R55). -/
def execFaddS (c : CoreId) (fd fa fb : RegNo) (rm : BitVec 5) (s : State) : Host.Outcome State Fault Refusal :=
  ok (s.opF3 c 0 true [0] fd fa fb rm (fNV ||| fOF ||| fUF ||| fNX) fun f r u a b => f.add r u a b)

/-- FSUB_S (R55). -/
def execFsubS (c : CoreId) (fd fa fb : RegNo) (rm : BitVec 5) (s : State) : Host.Outcome State Fault Refusal :=
  ok (s.opF3 c 2 true [0] fd fa fb rm (fNV ||| fOF ||| fUF ||| fNX) fun f r u a b => f.add r u a b.neg)

/-- FMUL_S (R55). -/
def execFmulS (c : CoreId) (fd fa fb : RegNo) (rm : BitVec 5) (s : State) : Host.Outcome State Fault Refusal :=
  ok (s.opF3 c 4 true [1] fd fa fb rm (fNV ||| fOF ||| fUF ||| fNX) fun f r u a b => f.mul r u a b)

/-- FDIV_S (R55, R54). -/
def execFdivS (c : CoreId) (fd fa fb : RegNo) (rm : BitVec 5) (s : State) : Host.Outcome State Fault Refusal :=
  ok (s.opFdiv c 6 true fd fa fb rm)

/-- FSQRT_S (R55, R54). -/
def execFsqrtS (c : CoreId) (fd fa : RegNo) (rm : BitVec 5) (s : State) : Host.Outcome State Fault Refusal :=
  ok (s.opFsqrt c 8 true fd fa rm)

/-- FMIN_S (R55, R92). -/
def execFminS (c : CoreId) (fd fa fb : RegNo) (s : State) : Host.Outcome State Fault Refusal :=
  ok (s.opFminMax c true false fd fa fb)

/-- FMAX_S (R55, R92). -/
def execFmaxS (c : CoreId) (fd fa fb : RegNo) (s : State) : Host.Outcome State Fault Refusal :=
  ok (s.opFminMax c true true fd fa fb)

/-- FSGNJ_S (R55). -/
def execFsgnjS (c : CoreId) (fd fa fb : RegNo) (s : State) : Host.Outcome State Fault Refusal :=
  ok (s.opFsgnj c true 0 fd fa fb)

/-- FSGNJN_S (R55). -/
def execFsgnjnS (c : CoreId) (fd fa fb : RegNo) (s : State) : Host.Outcome State Fault Refusal :=
  ok (s.opFsgnj c true 1 fd fa fb)

/-- FSGNJX_S (R55). -/
def execFsgnjxS (c : CoreId) (fd fa fb : RegNo) (s : State) : Host.Outcome State Fault Refusal :=
  ok (s.opFsgnj c true 2 fd fa fb)

/-- FEQ_S (R55). -/
def execFeqS (c : CoreId) (fd fa fb : RegNo) (s : State) : Host.Outcome State Fault Refusal :=
  ok (s.opFcmp c true 0 fd fa fb)

/-- FLT_S (R55). -/
def execFltS (c : CoreId) (fd fa fb : RegNo) (s : State) : Host.Outcome State Fault Refusal :=
  ok (s.opFcmp c true 1 fd fa fb)

/-- FLE_S (R55). -/
def execFleS (c : CoreId) (fd fa fb : RegNo) (s : State) : Host.Outcome State Fault Refusal :=
  ok (s.opFcmp c true 2 fd fa fb)

/-- FCLASS_S (R55). -/
def execFclassS (c : CoreId) (fd fa : RegNo) (s : State) : Host.Outcome State Fault Refusal :=
  ok (s.opFclass c true fd fa)

/-- FCVT_L_S (R55, R94). -/
def execFcvtLS (c : CoreId) (fd fa : RegNo) (rm : BitVec 5) (s : State) : Host.Outcome State Fault Refusal :=
  ok (s.opFcvtI c 30 true 64 fd fa rm)

/-- FCVT_W_S (R55, R94). -/
def execFcvtWS (c : CoreId) (fd fa : RegNo) (rm : BitVec 5) (s : State) : Host.Outcome State Fault Refusal :=
  ok (s.opFcvtI c 32 true 32 fd fa rm)

/-- FCVT_S_L (R55). -/
def execFcvtSL (c : CoreId) (fd fa : RegNo) (rm : BitVec 5) (s : State) : Host.Outcome State Fault Refusal :=
  ok (s.opFcvtFromI c 34 true 64 fd fa rm)

/-- FCVT_S_W (R55). -/
def execFcvtSW (c : CoreId) (fd fa : RegNo) (rm : BitVec 5) (s : State) : Host.Outcome State Fault Refusal :=
  ok (s.opFcvtFromI c 36 true 32 fd fa rm)

/-- FMADD_S (R57). -/
def execFmaddS (c : CoreId) (rd ra rb rc : RegNo) (s : State) : Host.Outcome State Fault Refusal :=
  ok (s.opFma c true false false rd ra rb rc)

/-- FMSUB_S (R57). -/
def execFmsubS (c : CoreId) (rd ra rb rc : RegNo) (s : State) : Host.Outcome State Fault Refusal :=
  ok (s.opFma c true false true rd ra rb rc)

/-- FNMADD_S (R57). -/
def execFnmaddS (c : CoreId) (rd ra rb rc : RegNo) (s : State) : Host.Outcome State Fault Refusal :=
  ok (s.opFma c true true true rd ra rb rc)

/-- FNMSUB_S (R57). -/
def execFnmsubS (c : CoreId) (rd ra rb rc : RegNo) (s : State) : Host.Outcome State Fault Refusal :=
  ok (s.opFma c true true false rd ra rb rc)

/-- FADD_D (R55). -/
def execFaddD (c : CoreId) (fd fa fb : RegNo) (rm : BitVec 5) (s : State) : Host.Outcome State Fault Refusal :=
  ok (s.opF3 c 1 false [0] fd fa fb rm (fNV ||| fOF ||| fUF ||| fNX) fun f r u a b => f.add r u a b)

/-- FSUB_D (R55). -/
def execFsubD (c : CoreId) (fd fa fb : RegNo) (rm : BitVec 5) (s : State) : Host.Outcome State Fault Refusal :=
  ok (s.opF3 c 3 false [0] fd fa fb rm (fNV ||| fOF ||| fUF ||| fNX) fun f r u a b => f.add r u a b.neg)

/-- FMUL_D (R55). -/
def execFmulD (c : CoreId) (fd fa fb : RegNo) (rm : BitVec 5) (s : State) : Host.Outcome State Fault Refusal :=
  ok (s.opF3 c 5 false [1] fd fa fb rm (fNV ||| fOF ||| fUF ||| fNX) fun f r u a b => f.mul r u a b)

/-- FDIV_D (R55, R54). -/
def execFdivD (c : CoreId) (fd fa fb : RegNo) (rm : BitVec 5) (s : State) : Host.Outcome State Fault Refusal :=
  ok (s.opFdiv c 7 false fd fa fb rm)

/-- FSQRT_D (R55, R54). -/
def execFsqrtD (c : CoreId) (fd fa : RegNo) (rm : BitVec 5) (s : State) : Host.Outcome State Fault Refusal :=
  ok (s.opFsqrt c 9 false fd fa rm)

/-- FMIN_D (R55, R92). -/
def execFminD (c : CoreId) (fd fa fb : RegNo) (s : State) : Host.Outcome State Fault Refusal :=
  ok (s.opFminMax c false false fd fa fb)

/-- FMAX_D (R55, R92). -/
def execFmaxD (c : CoreId) (fd fa fb : RegNo) (s : State) : Host.Outcome State Fault Refusal :=
  ok (s.opFminMax c false true fd fa fb)

/-- FSGNJ_D (R55). -/
def execFsgnjD (c : CoreId) (fd fa fb : RegNo) (s : State) : Host.Outcome State Fault Refusal :=
  ok (s.opFsgnj c false 0 fd fa fb)

/-- FSGNJN_D (R55). -/
def execFsgnjnD (c : CoreId) (fd fa fb : RegNo) (s : State) : Host.Outcome State Fault Refusal :=
  ok (s.opFsgnj c false 1 fd fa fb)

/-- FSGNJX_D (R55). -/
def execFsgnjxD (c : CoreId) (fd fa fb : RegNo) (s : State) : Host.Outcome State Fault Refusal :=
  ok (s.opFsgnj c false 2 fd fa fb)

/-- FEQ_D (R55). -/
def execFeqD (c : CoreId) (fd fa fb : RegNo) (s : State) : Host.Outcome State Fault Refusal :=
  ok (s.opFcmp c false 0 fd fa fb)

/-- FLT_D (R55). -/
def execFltD (c : CoreId) (fd fa fb : RegNo) (s : State) : Host.Outcome State Fault Refusal :=
  ok (s.opFcmp c false 1 fd fa fb)

/-- FLE_D (R55). -/
def execFleD (c : CoreId) (fd fa fb : RegNo) (s : State) : Host.Outcome State Fault Refusal :=
  ok (s.opFcmp c false 2 fd fa fb)

/-- FCLASS_D (R55). -/
def execFclassD (c : CoreId) (fd fa : RegNo) (s : State) : Host.Outcome State Fault Refusal :=
  ok (s.opFclass c false fd fa)

/-- FCVT_L_D (R55, R94). -/
def execFcvtLD (c : CoreId) (fd fa : RegNo) (rm : BitVec 5) (s : State) : Host.Outcome State Fault Refusal :=
  ok (s.opFcvtI c 31 false 64 fd fa rm)

/-- FCVT_W_D (R55, R94). -/
def execFcvtWD (c : CoreId) (fd fa : RegNo) (rm : BitVec 5) (s : State) : Host.Outcome State Fault Refusal :=
  ok (s.opFcvtI c 33 false 32 fd fa rm)

/-- FCVT_D_L (R55). -/
def execFcvtDL (c : CoreId) (fd fa : RegNo) (rm : BitVec 5) (s : State) : Host.Outcome State Fault Refusal :=
  ok (s.opFcvtFromI c 35 false 64 fd fa rm)

/-- FCVT_D_W (R55). -/
def execFcvtDW (c : CoreId) (fd fa : RegNo) (rm : BitVec 5) (s : State) : Host.Outcome State Fault Refusal :=
  ok (s.opFcvtFromI c 37 false 32 fd fa rm)

/-- FMADD_D (R57). -/
def execFmaddD (c : CoreId) (rd ra rb rc : RegNo) (s : State) : Host.Outcome State Fault Refusal :=
  ok (s.opFma c false false false rd ra rb rc)

/-- FMSUB_D (R57). -/
def execFmsubD (c : CoreId) (rd ra rb rc : RegNo) (s : State) : Host.Outcome State Fault Refusal :=
  ok (s.opFma c false false true rd ra rb rc)

/-- FNMADD_D (R57). -/
def execFnmaddD (c : CoreId) (rd ra rb rc : RegNo) (s : State) : Host.Outcome State Fault Refusal :=
  ok (s.opFma c false true true rd ra rb rc)

/-- FNMSUB_D (R57). -/
def execFnmsubD (c : CoreId) (rd ra rb rc : RegNo) (s : State) : Host.Outcome State Fault Refusal :=
  ok (s.opFma c false true false rd ra rb rc)

/-- FCVT_S_D (R55). -/
def execFcvtSD (c : CoreId) (fd fa : RegNo) (rm : BitVec 5) (s : State) : Host.Outcome State Fault Refusal :=
  ok (s.opFcvtF c 0x1C true fd fa rm)

/-- FCVT_D_S (R55). -/
def execFcvtDS (c : CoreId) (fd fa : RegNo) (rm : BitVec 5) (s : State) : Host.Outcome State Fault Refusal :=
  ok (s.opFcvtF c 0x1D false fd fa rm)

/-- FMV_X_S (R55, R44). -/
def execFmvXS (c : CoreId) (fd fa : RegNo) (s : State) : Host.Outcome State Fault Refusal :=
  ok (s.runInstr c { f := [fa], g := [fd] } fun s => s.doneG c fd (sext32 ((s.core c).readF fa)))

/-- FMV_X_D (R55). -/
def execFmvXD (c : CoreId) (fd fa : RegNo) (s : State) : Host.Outcome State Fault Refusal :=
  ok (s.runInstr c { f := [fa], g := [fd] } fun s => s.doneG c fd ((s.core c).readF fa))

/-- FMV_S_X (R55, R44). -/
def execFmvSX (c : CoreId) (fd fa : RegNo) (s : State) : Host.Outcome State Fault Refusal :=
  ok (s.runInstr c { g := [fa], f := [fd] } fun s => s.doneF c fd (boxS (((s.core c).readG fa).setWidth 32)))

/-- FMV_D_X (R55). -/
def execFmvDX (c : CoreId) (fd fa : RegNo) (s : State) : Host.Outcome State Fault Refusal :=
  ok (s.runInstr c { g := [fa], f := [fd] } fun s => s.doneF c fd ((s.core c).readG fa))

end Sys2Proof.Machine
end

