-- ==== Sys2Proof/Machine/LoadStore.lean ====
section
/-! DEFINITION. Loads and stores (R58, R141 to R145, R205 to R216), branches and jumps (R59, R60, R108 to R110) and
PREFETCH (R62). -/

namespace Sys2Proof.Machine

/-! ### Loads -/

def LoadKind.size : LoadKind → Nat
  | .lb | .lbu => 1
  | .lh | .lhu => 2
  | .lw | .lwu | .flw => 4
  | .ld | .fld => 8

/-- Write the destination of a load (R58, R44). -/
def Core.putLoad (k : Core) (kd : LoadKind) (rd : Fin 32) (v : Nat) : Core :=
  let w := BitVec.ofNat 64 v
  match kd with
  | .lb => k.writeG rd (sext 8 w)
  | .lh => k.writeG rd (sext 16 w)
  | .lw => k.writeG rd (sext 32 w)
  | .lbu | .lhu | .lwu | .ld => k.writeG rd w
  | .flw => k.writeF rd (boxS (w.setWidth 32))
  | .fld => k.writeF rd w

/-- Read the parts of an access, lower first, into a little-endian number. -/
def State.readParts (s : State) (c : Fin 64) (l : Level) : List (Xlat × Nat) → Nat → LdAns × State
  | [], _ => (.val 0, s)
  | (t, n) :: more, sh =>
    match s.loadBytes c l t n true with
    | (.val v, s) =>
      (match s.readParts c l more (sh + n) with
       | (.val u, s) => (.val (v + 256 ^ n * u), s)
       | r => r)
    | r => r

/-- A load (R58). A Device load is sent, and retires with its response (R213); others read their parts in order. -/
def State.opLoad (s : State) (c : Fin 64) (kd : LoadKind) (rd ra : Fin 32) (imm : BitVec 16) : State :=
  let n : Needs := match kd with
    | .flw | .fld => { g := [ra], f := [rd], units := [0] }
    | _ => { g := [rd, ra], units := [0] }
  s.runInstr c n fun s =>
    let k := s.core c
    let l := k.level
    let ea := k.readG ra + immS imm
    match s.checkAccess c l ea kd.size .load with
    | (.wait, s) => .wait s
    | (.trap t none, s) => .trap t s
    | (.trap t (some low), s) =>
      -- every check of the lower half comes before those of the upper one (R129, R141)
      (match s.loadBytes c l low.1 low.2 true with
       | (.wait, s) => .wait s
       | (.poison, s) => .trap { cause := 0x0D, addr := ea, info := accInfo true false false false (lg2 kd.size) } s
       | (.val _, s) => .trap t s)
    | (.ok parts, s) =>
      let info := accInfo (decide (1 < parts.length)) false false false (lg2 kd.size)
      match parts with
      | [] => .wait s
      | (t, _) :: _ =>
        if s.isDevice t then
          -- it is sent once every older instruction has retired and every older store is visible or injected
          match s.longFinish c with
          | (false, s) => .wait s
          | (true, s) =>
            match s.drainBuffers c with
            | (false, s) => .wait s
            | (true, s) =>
              let dl : DevLoad := { kind := kd, rd := rd, pa := t.pa, size := kd.size, ea := ea, lvl := l, pid := k.pid l }
              .wait ((s.event c evDeviceLoad).updCore c fun k => { k with devLoad := some dl })
        else
          let s := if parts.length = 2 then s.event c evSplitLoad else s
          match s.readParts c l parts 0 with
          | (.wait, s) => .wait s
          | (.poison, s) =>
            -- the half that is poisoned is named: the lower one unless it can be read
            let upper := match s.loadBytes c l t (parts.headD (t, 0)).2 true with
              | (.val _, _) => true
              | _ => false
            let half := if upper then ea + BitVec.ofNat 64 (parts.headD (t, 0)).2 else ea
            .trap { cause := 0x0D, addr := half, info := if upper then putBits info .TRAP_INFO_K_HALF 1 else info } s
          | (.val v, s) =>
            let s := s.updCore c fun k => k.putLoad kd rd v
            .done (s.traceMem c false ea kd.size (BitVec.ofNat 64 v)) (s.pcOf c + 4)

/-! ### Stores -/

/-- The type with which a store acts (R158, R209). -/
def State.storeType (s : State) (t : Xlat) : MType := if s.isDevice t then .device else t.mt

/-- The store-buffer entries of a store's parts (R143). -/
def State.storeEntries (s : State) (l : Level) (pid : BitVec 29) (cls : Nat) : List (Xlat × Nat) → Nat → List StoreEntry
  | [], _ => []
  | (t, n) :: more, v =>
    { pa := t.pa, size := n, data := BitVec.ofNat 64 (v % 256 ^ n), typ := s.storeType t, lvl := l, pid := pid, cls := cls }
      :: s.storeEntries l pid cls more (v / 256 ^ n)

/-- A store of size bytes of a value (R58): it enters the store buffer at retire. -/
def State.opStore (s : State) (c : Fin 64) (n : Needs) (size : Nat) (ra : Fin 32) (imm : BitVec 16) (val : Core → Word) : State :=
  s.runInstr c { n with units := [0] } fun s =>
    let k := s.core c
    let l := k.level
    let ea := k.readG ra + immS imm
    match s.checkAccess c l ea size .store with
    | (.wait, s) => .wait s
    | (.trap t _, s) => .trap t s
    | (.ok parts, s) =>
      let v := (val k).toNat % 256 ^ size
      match s.pushStore c (s.storeEntries l (k.pid l) (k.cls l) parts v) with
      | (false, s) => .wait s
      | (true, s) =>
        let s := if parts.length = 2 then s.event c evSplitStore else s
        let s := if parts.any fun p => s.isDevice p.1 then s.event c evDeviceStore else s
        .done (s.traceMem c true ea size (BitVec.ofNat 64 v)) (s.pcOf c + 4)

/-! ### Branches and jumps -/

/-- The static guess of a branch (R108). -/
def Core.guess (k : Core) (h : Bool) (d : BitVec 15) : Bool :=
  if flag (k.reg .PRED_CTL) .PRED_CTL_BARRED then false
  else (flag (k.reg .PRED_CTL) .PRED_CTL_MODE && d.msb) != h

/-- Push on the return stack (R60); nothing touches it while prediction is barred. -/
def Core.pushRet (k : Core) (a : Word) : Core :=
  if flag (k.reg .PRED_CTL) .PRED_CTL_BARRED then k else { k with rstack := (a :: k.rstack).take 8 }

def Core.popRet (k : Core) : Core :=
  if flag (k.reg .PRED_CTL) .PRED_CTL_BARRED then k else { k with rstack := k.rstack.tail }

/-- Run a fetch-side action on a core without counting its events (R111). -/
def State.uncounted (s : State) (c : Fin 64) (f : State → State) : State :=
  let k := s.core c
  (f s).updCore c fun x => { x with sys := k.sys, trace := k.trace }

/-- A wrong-path fetch (R105, R111): it may fill the ITLB, the walk cache and the L1I, and sets no A or D. -/
def State.wrongFetch (s : State) (c : Fin 64) (ea : Word) : State :=
  let l := (s.core c).level
  (s.uncounted c fun s =>
    match translateOnce c ((s.core c).ctx l) ea .fetch false true true s with
    | (.ok t, w, _) =>
      let s := w.s.updCore c fun k =>
        (w.leaves.filter fun e => !e.hstage).foldl (fun k e => k.putItlb e) (w.wcs.foldl (fun k e => k.putWc e) k)
      if s.cached t then (s.l1iGet c (t.pa / 64) l).2 else s
    | (_, w, _) => w.s).event c evWrongFetch

/-- What the wrong path of a misprediction leaves (R110, R111): a free choice of up to three return-stack actions and of up
to three fetches at free addresses (log entry 87). -/
def State.wrongPath (s : State) (c : Fin 64) : State :=
  let (w, s) := s.fresh
  let s := (List.range (w.toNat % 4)).foldl (fun s i =>
    if w.getLsbD (2 + i) then let (a, s) := s.fresh; s.updCore c fun k => k.pushRet (a &&& ~~~3#64)
    else s.updCore c fun k => k.popRet) s
  (List.range (w.toNat / 32 % 4)).foldl (fun s _ => let (a, s) := s.fresh; s.wrongFetch c (a &&& ~~~3#64)) s

/-- A conditional branch (R59). -/
def State.opBranch (s : State) (c : Fin 64) (ra rb : Fin 32) (h : Bool) (d : BitVec 15) (p : Word → Word → Bool) : State :=
  s.runInstr c { g := [ra, rb] } fun s =>
    let k := s.core c
    let taken := p (k.readG ra) (k.readG rb)
    let s := s.event c evBranch
    let s := if taken then s.event c evTaken else s
    let s := if k.guess h d = taken then s else (s.event c evMispredict).wrongPath c
    if taken then .jump (s.traceBr c taken) (branchTarget k.pc d) else .done (s.traceBr c taken) (k.pc + 4)

/-- J and JAL (R59). -/
def State.opJump (s : State) (c : Fin 64) (d : BitVec 26) (link : Bool) : State :=
  s.runInstr c { g := if link then [26] else [] } fun s =>
    let pc := s.pcOf c
    let s := if link then (s.updCore c fun k => (k.writeG 26 (pc + 4)).pushRet (pc + 4)).event c evPush else s
    .jump s (jumpTarget pc d)

/-- JALR (R59, R60): the target is read before the link is written. -/
def State.opJalr (s : State) (c : Fin 64) (rd ra : Fin 32) (imm : BitVec 16) : State :=
  s.runInstr c { g := [rd, ra], units := [0] } fun s =>
    let k := s.core c
    let t := (k.readG ra + immS imm) &&& ~~~3#64
    let pops := (rd = 0 ∧ ra = 26 ∧ imm = 0) ∨ (rd = 26 ∧ ra = 26)
    let pushes := rd = 26
    let barred := flag (k.reg .PRED_CTL) .PRED_CTL_BARRED
    let right := decide pops && !barred && k.rstack.head? == some t
    let k1 := if pops then k.popRet else k
    let k2 := if pushes then k1.pushRet (k.pc + 4) else k1
    let s := (s.setCore c (k2.writeG rd (k.pc + 4))).event c evJalr
    let s := if right then s else s.event c evJalrWrong
    let s := if pops then s.event c evPop else s
    let s := if pushes then s.event c evPush else s
    let guessed := decide pops && !barred && !k.rstack.isEmpty
    let s := if guessed && !right then s.wrongPath c else s
    .jump (s.traceInd c t) t

/-! ### Meanings -/

/-- LB (R58). -/
def execLb (c : CoreId) (rd ra : RegNo) (imm : BitVec 16) (s : State) : Host.Outcome State Fault Refusal :=
  ok (s.opLoad c .lb rd ra imm)

/-- LBU (R58). -/
def execLbu (c : CoreId) (rd ra : RegNo) (imm : BitVec 16) (s : State) : Host.Outcome State Fault Refusal :=
  ok (s.opLoad c .lbu rd ra imm)

/-- LH (R58). -/
def execLh (c : CoreId) (rd ra : RegNo) (imm : BitVec 16) (s : State) : Host.Outcome State Fault Refusal :=
  ok (s.opLoad c .lh rd ra imm)

/-- LHU (R58). -/
def execLhu (c : CoreId) (rd ra : RegNo) (imm : BitVec 16) (s : State) : Host.Outcome State Fault Refusal :=
  ok (s.opLoad c .lhu rd ra imm)

/-- LW (R58). -/
def execLw (c : CoreId) (rd ra : RegNo) (imm : BitVec 16) (s : State) : Host.Outcome State Fault Refusal :=
  ok (s.opLoad c .lw rd ra imm)

/-- LWU (R58). -/
def execLwu (c : CoreId) (rd ra : RegNo) (imm : BitVec 16) (s : State) : Host.Outcome State Fault Refusal :=
  ok (s.opLoad c .lwu rd ra imm)

/-- LD (R58). -/
def execLd (c : CoreId) (rd ra : RegNo) (imm : BitVec 16) (s : State) : Host.Outcome State Fault Refusal :=
  ok (s.opLoad c .ld rd ra imm)

/-- FLW (R58). -/
def execFlw (c : CoreId) (rd ra : RegNo) (imm : BitVec 16) (s : State) : Host.Outcome State Fault Refusal :=
  ok (s.opLoad c .flw rd ra imm)

/-- FLD (R58). -/
def execFld (c : CoreId) (rd ra : RegNo) (imm : BitVec 16) (s : State) : Host.Outcome State Fault Refusal :=
  ok (s.opLoad c .fld rd ra imm)

/-- SB (R58). -/
def execSb (c : CoreId) (rb ra : RegNo) (imm : BitVec 16) (s : State) : Host.Outcome State Fault Refusal :=
  ok (s.opStore c { g := [ra, rb] } 1 ra imm fun k => k.readG rb)

/-- SH (R58). -/
def execSh (c : CoreId) (rb ra : RegNo) (imm : BitVec 16) (s : State) : Host.Outcome State Fault Refusal :=
  ok (s.opStore c { g := [ra, rb] } 2 ra imm fun k => k.readG rb)

/-- SW (R58). -/
def execSw (c : CoreId) (rb ra : RegNo) (imm : BitVec 16) (s : State) : Host.Outcome State Fault Refusal :=
  ok (s.opStore c { g := [ra, rb] } 4 ra imm fun k => k.readG rb)

/-- SD (R58). -/
def execSd (c : CoreId) (rb ra : RegNo) (imm : BitVec 16) (s : State) : Host.Outcome State Fault Refusal :=
  ok (s.opStore c { g := [ra, rb] } 8 ra imm fun k => k.readG rb)

/-- FSW (R58). -/
def execFsw (c : CoreId) (rb ra : RegNo) (imm : BitVec 16) (s : State) : Host.Outcome State Fault Refusal :=
  ok (s.opStore c { g := [ra], f := [rb] } 4 ra imm fun k => k.readF rb)

/-- FSD (R58). -/
def execFsd (c : CoreId) (rb ra : RegNo) (imm : BitVec 16) (s : State) : Host.Outcome State Fault Refusal :=
  ok (s.opStore c { g := [ra], f := [rb] } 8 ra imm fun k => k.readF rb)

/-- BEQ (R59). -/
def execBeq (c : CoreId) (ra rb : RegNo) (h : Bool) (disp : BitVec 15) (s : State) : Host.Outcome State Fault Refusal :=
  ok (s.opBranch c ra rb h disp fun a b => a == b)

/-- BNE (R59). -/
def execBne (c : CoreId) (ra rb : RegNo) (h : Bool) (disp : BitVec 15) (s : State) : Host.Outcome State Fault Refusal :=
  ok (s.opBranch c ra rb h disp fun a b => a != b)

/-- BLT (R59). -/
def execBlt (c : CoreId) (ra rb : RegNo) (h : Bool) (disp : BitVec 15) (s : State) : Host.Outcome State Fault Refusal :=
  ok (s.opBranch c ra rb h disp fun a b => a.slt b)

/-- BGE (R59). -/
def execBge (c : CoreId) (ra rb : RegNo) (h : Bool) (disp : BitVec 15) (s : State) : Host.Outcome State Fault Refusal :=
  ok (s.opBranch c ra rb h disp fun a b => !a.slt b)

/-- BLTU (R59). -/
def execBltu (c : CoreId) (ra rb : RegNo) (h : Bool) (disp : BitVec 15) (s : State) : Host.Outcome State Fault Refusal :=
  ok (s.opBranch c ra rb h disp fun a b => a.ult b)

/-- BGEU (R59). -/
def execBgeu (c : CoreId) (ra rb : RegNo) (h : Bool) (disp : BitVec 15) (s : State) : Host.Outcome State Fault Refusal :=
  ok (s.opBranch c ra rb h disp fun a b => !a.ult b)

/-- J (R59). -/
def execJ (c : CoreId) (disp : BitVec 26) (s : State) : Host.Outcome State Fault Refusal :=
  ok (s.opJump c disp false)

/-- JAL (R59, R60). -/
def execJal (c : CoreId) (disp : BitVec 26) (s : State) : Host.Outcome State Fault Refusal :=
  ok (s.opJump c disp true)

/-- JALR (R59, R60). -/
def execJalr (c : CoreId) (rd ra : RegNo) (imm : BitVec 16) (s : State) : Host.Outcome State Fault Refusal :=
  ok (s.opJalr c rd ra imm)

/-- Request a sector for the L1I through its fill slot (R62, R105). False: the slot is busy, and it is dropped. -/
def State.prefetchI (s : State) (c : Fin 64) (l : Level) (n : Nat) : Bool × State :=
  if (s.core c).ifWait.isSome then (false, s)
  else match s.l1iGet c n l with
    | (.err, s) => (true, s.addrErr (quadStop (quadOf c)) false 4 (n * 64) ((s.core c).pid l))
    | (_, s) => (true, s)

/-- PREFETCH (R62): kinds 0 data read, 1 data write, 2 instruction; others have no effect. It never traps; what it
cannot do it drops. -/
def execPrefetch (c : CoreId) (kind ra : RegNo) (imm : BitVec 16) (s : State) : Host.Outcome State Fault Refusal :=
  ok (s.runInstr c { g := [ra], units := [0] } fun s =>
    let k := s.core c
    let l := k.level
    let ea := k.readG ra + immS imm
    let next := k.pc + 4
    if 2 < kind.val then .done s next else
    let s := s.event c evPrefetch
    match translate c l ea (if kind.val = 0 then .load else if kind.val = 1 then .store else .fetch) true s with
    | (.ok t, s) =>
      if !s.cached t then .done (s.event c evPrefetchDrop) next
      else
        match (if kind.val = 2 then s.prefetchI c l (t.pa / 64) else s.prefetch c l (t.pa / 64) (kind.val == 1)) with
        | (true, s) => .done s next
        | (false, s) => .done (s.event c evPrefetchDrop) next
    | (_, s) => .done (s.event c evPrefetchDrop) next)

/-- STORE_BUFFER_DRAIN (R206, R210, R214, R216): the oldest entry becomes visible in L1D once its sector is owned; an
Uncached one is sent to its home and stays until acknowledged; a Device one is injected. An older frame waits its
turn (R137). -/
def execStoreBufferDrain (c : CoreId) (s : State) : Host.Outcome State Fault Refusal :=
  match (s.core c).sb with
  | [] => ok s
  | e :: _ => if e.typ = .uncached then ok (s.headSend c e) else ok (s.drainHead c).2

/-- UNCACHED_STORE_ACK (R216): the home has acknowledged the Uncached store at the head, which leaves the buffer. -/
def execUncachedStoreAck (c : CoreId) (s : State) : Host.Outcome State Fault Refusal :=
  match (s.core c).sb with
  | e :: _ => if e.typ = .uncached ∧ (s.core c).ucwSent then ok (s.headAck c e).2 else ok s
  | [] => ok s

/-- FRAME_BUFFER_DRAIN (R137): the frame drains after every store already in the store buffer. -/
def execFrameBufferDrain (c : CoreId) (s : State) : Host.Outcome State Fault Refusal :=
  ok (s.drainFrame c).2

end Sys2Proof.Machine
end

