-- ==== Sys2Proof/Machine/Atomic.lean ====
section
/-! DEFINITION. Atomics (R63 to R67), ZLINE and cache maintenance (R68 to R71, R193 to R196), and translation
maintenance (R73 to R76). -/

namespace Sys2Proof.Machine

/-! ### Atomics -/

/-- Translate an atomic's address, which must be cached (cause 0x07, R67), and check that it is aligned, in the order of
R129. -/
def State.atomAddr (s : State) (c : Fin 64) (ea : Word) (size : Nat) (a : Acc) : AccAns × State :=
  let info := accInfo false false a.needW false (lg2 size)
  match translateFor c (s.core c).level ea a true false s with
  | (.wait, s) => (.wait, s)
  | (.fault f, s) => (.trap (f.trap ea ea info), s)
  | (.ok t, s) =>
    if ea.toNat % size ≠ 0 then (.trap { cause := 0x08, addr := ea, info := info }, s)
    else (.ok [(t, size)], s)

/-- The value an atomic returns: W forms sign-extend (R63). -/
def atomRet (size v : Nat) : Word := if size = 4 then sext 32 (BitVec.ofNat 64 v) else BitVec.ofNat 64 v

/-- Wait until every earlier store of the core is globally visible, a Device one injected and completed (R66, R212). -/
def State.drainStores (s : State) (c : Fin 64) : Bool × State :=
  match s.drainBuffers c with
  | (true, s) => ((s.core c).devOut.isEmpty, s)
  | (false, s) => (false, s)

/-- Own the sector of an atomic; its fill keeps the store head's slot, which the drained buffer has left free (R66, R114).
A home that does not answer takes nothing (R30). -/
def State.atomOwn (s : State) (c : Fin 64) (pa : Nat) (write : Bool) : GetAns × State :=
  match s.l1dGet c (pa / 64) (s.core c).level true with
  | (.ok, s) => (.ok, s.updCore c fun k => { k with stWait := none })
  | (.wait, s) => (.wait, s.holdStore c (pa / 64))
  | (.err, s) => (.err, s.addrErr (quadStop (quadOf c)) write 4 pa ((s.core c).pid (s.core c).level))

/-- LL (R63 to R66, R209): every earlier store drains first, and it never forwards. It obtains its sector with ownership, so
that only its own core can write it while the hold of snoops lasts (R65); the reservation and the hold begin. -/
def State.opLl (s : State) (c : Fin 64) (size : Nat) (rd ra : Fin 32) : State :=
  s.runInstr c { g := [rd, ra] } fun s =>
    let ea := (s.core c).readG ra
    match s.atomAddr c ea size .load with
    | (.wait, s) => .wait s
    | (.trap t _, s) => .trap t s
    | (.ok parts, s) =>
      match parts with
      | [] => .wait s
      | (t, _) :: _ =>
        match s.drainBuffers c with
        | (false, s) => .wait s
        | (true, s) =>
          match s.atomOwn c t.pa false with
          | (.wait, s) => .wait s
          | (r, s) =>
            let x := if r = .err then {} else (s.core c).l1d.secD .l1 (t.pa / 64)
            match s.gotSec c x.data x.poison (t.pa % 64) size with
            | (.poison, s) => .trap { cause := 0x0D, addr := ea, info := accInfo false false false false (lg2 size) } s
            | (.wait, s) => .wait s
            | (.val v, s) =>
              let held := if r = .err then none else some (t.pa / 64)
              let s := (s.updCore c fun k =>
                { (k.writeG rd (atomRet size v)) with resv := some (t.pa / 64), hold := held }).event c evAtomic
              .done (s.traceMem c false ea size (BitVec.ofNat 64 v)) (s.pcOf c + 4)

/-- Write a value into a sector that the L1D owns, and end a reservation on it (R64). -/
def State.atomWrite (s : State) (c : Fin 64) (pa size : Nat) (v : Word) : State :=
  let n := pa / 64
  let s := (s.l1dWrite c n ((v.setWidth 512) <<< (8 * (pa % 64))) (BitVec.ofNat 64 ((2 ^ size - 1) * 2 ^ (pa % 64)))).openMram c pa
  s.updCore c fun k => { k with resv := if k.resv = some n then none else k.resv }

/-- SC (R63, R64, R66). DESIGN CHOICE (log entry 92): an SC under a valid reservation to a sector that is not answered for (R30)
reports failure. -/
def State.opSc (s : State) (c : Fin 64) (size : Nat) (rd ra rb : Fin 32) : State :=
  s.runInstr c { g := [rd, ra, rb] } fun s =>
    let ea := (s.core c).readG ra
    match s.atomAddr c ea size .store with
    | (.wait, s) => .wait s
    | (.trap t _, s) => .trap t s
    | (.ok parts, s) =>
      match parts with
      | [] => .wait s
      | (t, _) :: _ =>
        match s.drainStores c with
        | (false, s) => .wait s
        | (true, s) =>
          let v := (s.core c).readG rb
          let fail (s : State) : Ex :=
            .done (((s.updCore c fun k => { (k.writeG rd 1) with resv := none }).event c evScFail).event c evAtomic) (s.pcOf c + 4)
          if (s.core c).resv ≠ some (t.pa / 64) then fail s
          else
            match s.atomOwn c t.pa true with
            | (.wait, s) => if (s.core c).resv ≠ some (t.pa / 64) then fail s else .wait s
            | (.err, s) => fail s
            | (.ok, s) =>
              if (s.core c).resv ≠ some (t.pa / 64) then fail s else
              let s := ((s.atomWrite c t.pa size v).updCore c fun k => { (k.writeG rd 0) with resv := none }).event c evAtomic
              .done (s.traceMem c true ea size v) (s.pcOf c + 4)

/-- CAS, SWAP and AMOADD (R63, R66): read and conditional write are one action at the sector. new: what is stored, if
anything, from the old value. -/
def State.opAmo (s : State) (c : Fin 64) (size : Nat) (rd ra : Fin 32) (uses : List (Fin 32))
    (new : Core → Nat → Option Word) : State :=
  s.runInstr c { g := rd :: ra :: uses } fun s =>
    let ea := (s.core c).readG ra
    match s.atomAddr c ea size .rmw with
    | (.wait, s) => .wait s
    | (.trap t _, s) => .trap t s
    | (.ok parts, s) =>
      match parts with
      | [] => .wait s
      | (t, _) :: _ =>
        match s.drainStores c with
        | (false, s) => .wait s
        | (true, s) =>
          match s.atomOwn c t.pa true with
          | (.wait, s) => .wait s
          | (r, s) =>
            let old := if r = .err then 0 else secBytes ((s.core c).l1d.secD .l1 (t.pa / 64)).data (t.pa % 64) size
            let s := match (if r = .err then none else new (s.core c) old) with
              | some v => s.atomWrite c t.pa size v
              | none => s
            let s := (s.updCore c fun k =>
              { (k.writeG rd (atomRet size old)) with resv := if k.resv = some (t.pa / 64) then none else k.resv }).event c evAtomic
            .done (s.traceMem c true ea size (BitVec.ofNat 64 old)) (s.pcOf c + 4)

/-! ### ZLINE and maintenance by address -/

/-- ZLINE (R71): a 64-byte store of zeros. DESIGN CHOICE (log entry 92): TRAP_INFO.SIZE of its fault is 0, since 64 bytes have
no code. -/
def State.opZline (s : State) (c : Fin 64) (ra : Fin 32) : State :=
  s.runInstr c { g := [ra] } fun s =>
    let k := s.core c
    let ea := k.readG ra &&& ~~~0x3F#64
    let info := accInfo false false true false 0
    match translateFor c k.level ea .store true false s with
    | (.wait, s) => .wait s
    | (.fault f, s) => .trap (f.trap ea ea info) s
    | (.ok t, s) =>
      match s.pushStore c [{ pa := t.pa, size := 64, data := 0, typ := t.mt, lvl := k.level, pid := k.pid k.level,
                             cls := k.cls k.level }] with
      | (false, s) => .wait s
      | (true, s) => .done (s.event c evZline) (s.pcOf c + 4)

/-- Maintenance of a sector by address (R182, R194): true once the home has answered DONE. INV and FLS also empty the L1Is
(R195; log entry 9). A home that does not answer does nothing (R30). -/
def State.maint (s : State) (c : Fin 64) (n : Nat) (kind : MsgKind) : Bool × State :=
  let q := quadOf c
  let k := s.core c
  if !s.homeUp n then (true, s.addrErr (quadStop q) (kind == .inv) 4 (n * 64) (k.pid k.level))
  else
    let s := s.ucAsk { kind := kind, quad := q, toHome := true, sec := n, cls := k.cls k.level, core := 192 + c.val }
    match s.collect fun m => m.kind == .done && m.quad == q && m.core == 192 + c.val && m.sec == n with
    | (none, s) => (false, s)
    | (some _, s) => (true, if kind = .cln then s else s.l1iDropAll n)

/-- CLEAN, INVAL and FLUSH (R69, R194). DESIGN CHOICE (log entry 92): TRAP_INFO.SIZE of their faults is 0. -/
def State.opMaint (s : State) (c : Fin 64) (xfn : Nat) (kind : MsgKind) (a : Acc) (ra : Fin 32) : State :=
  s.runInstr c { g := [ra] } fun s =>
    let k := s.core c
    if kind = .inv ∧ k.level = .u then privileged (wordX 0x3D xfn 0 ra 0) s else
    let ea := k.readG ra
    match translate c k.level ea a false s with
    | (.wait, s) => .wait s
    | (.fault f, s) => .trap (f.trap ea ea (accInfo false false a.needW false 0)) s
    | (.ok t, s) =>
      let s := s.event c evMaint
      if !s.isMem t.pa then .done s (s.pcOf c + 4)
      else
        let n := t.pa / 64
        match s.drainOver c (n * 64) 64 with
        | (false, s) => .wait s
        | (true, s) =>
          match s.maint c n kind with
          | (false, s) => .wait s
          | (true, s) => .done (if kind = .inv then s else s.openMram c t.pa) (s.pcOf c + 4)

/-! ### Maintenance by set and way (R70, R196) -/

inductive SwOp where
  | clean | inval | flush
  deriving DecidableEq, Repr

/-- L1D frame: dirty sectors into the L2, or discarded. A sector that CLEAN.SW leaves in E keeps its reservation (R64). -/
def State.swL1d (s : State) (c : Fin 64) (f : Nat) (op : SwOp) : State :=
  match (s.core c).l1d.frame f with
  | none => s
  | some fr =>
    let s := (fr.list .l1).foldl (fun s p =>
      match op with
      | .clean => s.l1dDown c p.1 .e
      | .flush => s.l1dDrop c p.1
      | .inval =>
        let s := s.updCore c fun k => { k with l1d := k.l1d.updSec .l1 p.1 fun _ => {} }.lostSector p.1
        s.updL2 (quadOf c) fun l => l.updSec .l2 p.1 fun x => { x with pres := x.pres &&& ~~~bitOf (c.val % 4) }) s
    if op = .clean then s else s.updCore c fun k => { k with l1d := k.l1d.setFrame f none }

/-- The dirty sectors of an L2 frame are written back under R189, the block staying in the L2 (R196): true once every one is.
A home that is off takes nothing (R30). -/
def State.swBack (s : State) (q f : Nat) : Bool × State :=
  match (s.quad q).l2.frame f with
  | none => (true, s)
  | some fr =>
    let busy (s : State) : Bool := (s.quad q).evict.any fun e => e.live && e.block == fr.block
    let dirty := (fr.list .l2).filter fun p => (p.2.st == .m || p.2.st == .o) && p.2.dv
    if busy s then
      let s := s.progress (fr.block * 4)
      (!busy s, s)
    else if dirty.isEmpty then (true, s)
    else if !s.homeUp (fr.block * 4) then
      (true, dirty.foldl (fun s p => s.updL2 q fun l => l.updSec .l2 p.1 fun y => { y with st := .e })
        (s.addrErr (quadStop q) true 4 (fr.block * 256) 0))
    else if 8 ≤ (s.quad q).evict.length then (false, s.progress (fr.block * 4))
    else
      let s := s.updQuad q fun k => { k with evict := k.evict ++
        [{ block := fr.block, secs := [], named := dirty.map fun p => p.1 % 4, live := true }] }
      let mask : BitVec 4 := dirty.foldl (fun m p => m ||| (1#4 <<< (p.1 % 4))) 0
      let s := (s.send { kind := .wbreq, quad := q, toHome := true, sec := fr.block * 4, dmask := mask, excl := true }).progress
        (fr.block * 4)
      (!busy s, s)

/-- The data of an L2 frame becomes not valid (R196): the tag stays while an L1 holds any sector of the block; otherwise the
frame is freed and the home is told with EVC. -/
def State.swGone (s : State) (q f : Nat) : State :=
  match (s.quad q).l2.frame f with
  | none => s
  | some fr =>
    let s := (fr.list .l2).foldl (fun s p => s.updL2 q fun l => l.updSec .l2 p.1 fun y =>
      let gone : CSt := if y.pres = 0 then .i else y.st
      { y with dv := false, data := 0, poison := false, st := gone }) s
    let inner := (fr.list .l2).any fun p => (coresOf q).any fun c =>
      ((s.core c).l1d.secD .l1 p.1).st != .i || ((s.core c).l1i.secD .l1 p.1).st != .i
    if inner then s
    else (s.updL2 q fun l => l.setFrame f none).send { kind := .evc, quad := q, toHome := true, sec := fr.block * 4 }

/-- L2 frame (R196): dirty data to the home, or discarded. False: its write-back is under way. -/
def State.swL2 (s : State) (q f : Nat) (op : SwOp) : Bool × State :=
  match op with
  | .clean => s.swBack q f
  | .inval => (true, s.swGone q f)
  | .flush => match s.swBack q f with
    | (true, s) => (true, s.swGone q f)
    | (false, s) => (false, s)

/-- L3 frame (R196): dirty data to memory; the tag stays while a quad is listed for any sector. -/
def State.swL3 (s : State) (h f : Nat) (op : SwOp) : State :=
  match (s.home h).l3.frame f with
  | none => s
  | some fr =>
    (fr.list .l3).foldl (fun s p =>
      let s := if p.2.dv && p.2.dirty && op != .inval then s.writeBack p.1 p.2.data p.2.poison else s
      (s.updL3 h fun l => l.updSec .l3 p.1 fun y =>
        if op = .clean then { y with dirty := false } else { y with dv := false, dirty := false, data := 0, poison := false }).pdqSync h p.1) s
      |>.l3Free h (fr.block * 4) |>.homeKick h kickFuel

/-- CLEAN.SW, INVAL.SW and FLUSH.SW (R70): the descriptor checks in their order, its illegal values before the level
(R129), then the frame. -/
def State.opSw (s : State) (c : Fin 64) (xfn : Nat) (op : SwOp) (ra : Fin 32) : State :=
  s.runInstr c { g := [ra] } fun s =>
    let k := s.core c
    let word := wordX 0x3D xfn 0 ra 0
    let d := (k.readG ra).toNat
    let cache := d / 2 ^ 28 % 16
    let slice := d / 2 ^ 24 % 8
    let set := d / 2 ^ 14 % 1024
    let way := d % 16
    let next := k.pc + 4
    let other := cache = 0 ∨ 4 < cache
    if d / 2 ^ 32 ≠ 0 ∨ d.testBit 27 ∨ d / 16 % 1024 ≠ 0 ∨ (¬other ∧ slice ≠ 0 ∧ cache ≠ 4) then illegal word s
    else if k.level ≠ .h then privileged word s
    else if other then .done s next
    else
      let f := frameNo set way
      match cache with
      | 1 => if 64 ≤ set ∨ 4 ≤ way then .done s next else .done (s.swL1d c f op) next
      | 2 => if 64 ≤ set ∨ 4 ≤ way then .done s next
        else .done (s.updCore c fun k => { k with l1i := k.l1i.setFrame f none }) next
      | 3 => if 512 ≤ set then .done s next
        else match s.swL2 (quadOf c) f op with
          | (true, s) => .done s next
          | (false, s) => .wait s
      | _ => .done (s.swL3 slice f op) next

/-! ### Translation maintenance (R73 to R76) -/

/-- A TLB entry is selected by a TLBI (R74). -/
def Inval.hitsTlb (v : Inval) (e : TlbEntry) : Bool :=
  let mine := e.vmid == v.vmid
  let page := e.va == v.addr.toNat % 2 ^ 48 / 2 ^ e.lg * 2 ^ e.lg
  if v.s then
    match v.scope with
    | 0 => e.hstage || e.vmid != 0
    | 1 => mine
    | _ => if e.hstage then mine && page else mine && e.vmid != 0
  else
    match v.scope with
    | 0 => true
    | 1 => mine
    | 2 => mine && !e.hstage && (if e.g then v.g else e.asid == v.asid)
    | 3 => mine && !e.hstage && page
    | _ => mine && !e.hstage && page && (if e.g then v.g else e.asid == v.asid)

/-- A segment look-aside entry is selected by an SLBI. -/
def Inval.hitsSlb (v : Inval) (e : SlbEntry) : Bool :=
  let mine := e.vmid == v.vmid
  match v.scope with
  | 0 => true
  | 1 => mine
  | 2 => mine && (if e.d.g then v.g else e.asid == v.asid)
  | _ => mine && e.seg == v.addr.toNat / 2 ^ 48 % 1024 && (if e.d.g then v.g else e.asid == v.asid)

/-- A walk-cache entry is selected by a WCINV, or by a TLBI with W. -/
def Inval.hitsWc (v : Inval) (e : WcEntry) : Bool := v.scope == 0 || e.vmid == v.vmid

def keepUnless {α : Type} (p : α → Bool) (m : SMap (Option α)) : SMap (Option α) :=
  m.filter fun e => match e.2 with
    | some x => !p x
    | none => true

/-- Complete an invalidation on a core. -/
def Core.inval (k : Core) (v : Inval) : Core :=
  match v.op with
  | 0 =>
    let k := { k with itlb := keepUnless v.hitsTlb k.itlb, dtlb := keepUnless v.hitsTlb k.dtlb,
                      l2tlb := keepUnless v.hitsTlb k.l2tlb }
    if v.w then { k with wc := keepUnless v.hitsWc k.wc } else k
  | 1 => { k with slb := keepUnless v.hitsSlb k.slb }
  | _ => { k with wc := keepUnless v.hitsWc k.wc }

/-- The other cores an invalidation without L goes to. -/
def State.invalTargets (s : State) (c : Fin 64) : List Nat :=
  (List.range 64).filter fun i => i ≠ c.val ∧ (s.core (Fin.ofNat 64 i)).run ≠ .off

/-- TLBI, SLBI and WCINV (R73 to R76): complete on this core at retire, on the others later. DESIGN CHOICE (log entry 92): a
nonzero RX or RA that the SCOPE does not use is ignored. -/
def State.opInval (s : State) (c : Fin 64) (op : Nat) (rx ra : Fin 32) (fl : BitVec 12) : State :=
  s.runInstr c { g := [rx, ra] } fun s =>
    let k := s.core c
    let word := wordX 0x3E op rx ra fl
    if !invalFlagsOk op fl then illegal word s
    else if k.level = .u then privileged word s
    else if k.level = .k ∧ fl.getLsbD 4 then privileged word s
    else
      let pid := (k.readG rx).toNat
      let scope := fl.toNat % 8
      let v : Inval :=
        { op := op, scope := if k.level = .k ∧ scope = 0 then 1 else scope, g := fl.getLsbD 3, s := fl.getLsbD 4,
          w := fl.getLsbD 5, vmid := if k.level = .k then k.fld .VMID .VMID_VMID else pid / 65536 % 8192,
          asid := pid % 65536, addr := k.readG ra }
      let s := (s.updCore c fun k => k.inval v).event c evTlbInval
      let s := if fl.getLsbD 6 then s
        else { s with remoteInv := s.remoteInv ++ (s.invalTargets c).map fun i => (c.val, i, v) }
      .done s (s.pcOf c + 4)

/-- Complete every invalidation an issuer has outstanding. -/
def State.finishInvals (s : State) (p : Nat × Nat × Inval → Bool) : State :=
  let s' := (s.remoteInv.filter p).foldl (fun s r => s.updCore (Fin.ofNat 64 r.2.1) fun k => k.inval r.2.2) s
  { s' with remoteInv := s.remoteInv.filter fun r => !p r }

/-! ### Meanings -/

/-- LL_W (R63). -/
def execLlW (c : CoreId) (rd ra : RegNo) (s : State) : Host.Outcome State Fault Refusal :=
  ok (s.opLl c 4 rd ra)

/-- SC_W (R63). -/
def execScW (c : CoreId) (rd ra rb : RegNo) (s : State) : Host.Outcome State Fault Refusal :=
  ok (s.opSc c 4 rd ra rb)

/-- CAS_W (R63). -/
def execCasW (c : CoreId) (rd ra rb rc : RegNo) (s : State) : Host.Outcome State Fault Refusal :=
  ok (s.opAmo c 4 rd ra [rb, rc] fun k old => if old = (k.readG rc).toNat % 256 ^ 4 then some (k.readG rb) else none)

/-- SWAP_W (R63). -/
def execSwapW (c : CoreId) (rd ra rb : RegNo) (s : State) : Host.Outcome State Fault Refusal :=
  ok (s.opAmo c 4 rd ra [rb] fun k _ => some (k.readG rb))

/-- AMOADD_W (R63). -/
def execAmoaddW (c : CoreId) (rd ra rb : RegNo) (s : State) : Host.Outcome State Fault Refusal :=
  ok (s.opAmo c 4 rd ra [rb] fun k old => some (BitVec.ofNat 64 old + k.readG rb))

/-- LL_D (R63). -/
def execLlD (c : CoreId) (rd ra : RegNo) (s : State) : Host.Outcome State Fault Refusal :=
  ok (s.opLl c 8 rd ra)

/-- SC_D (R63). -/
def execScD (c : CoreId) (rd ra rb : RegNo) (s : State) : Host.Outcome State Fault Refusal :=
  ok (s.opSc c 8 rd ra rb)

/-- CAS_D (R63). -/
def execCasD (c : CoreId) (rd ra rb rc : RegNo) (s : State) : Host.Outcome State Fault Refusal :=
  ok (s.opAmo c 8 rd ra [rb, rc] fun k old => if old = (k.readG rc).toNat % 256 ^ 8 then some (k.readG rb) else none)

/-- SWAP_D (R63). -/
def execSwapD (c : CoreId) (rd ra rb : RegNo) (s : State) : Host.Outcome State Fault Refusal :=
  ok (s.opAmo c 8 rd ra [rb] fun k _ => some (k.readG rb))

/-- AMOADD_D (R63). -/
def execAmoaddD (c : CoreId) (rd ra rb : RegNo) (s : State) : Host.Outcome State Fault Refusal :=
  ok (s.opAmo c 8 rd ra [rb] fun k old => some (BitVec.ofNat 64 old + k.readG rb))

/-- ZLINE (R71). -/
def execZline (c : CoreId) (ra : RegNo) (s : State) : Host.Outcome State Fault Refusal :=
  ok (s.opZline c ra)

/-- CLEAN (R69, R194). -/
def execClean (c : CoreId) (ra : RegNo) (s : State) : Host.Outcome State Fault Refusal :=
  ok (s.opMaint c 7 .cln .load ra)

/-- INVAL (R69, R194). -/
def execInval (c : CoreId) (ra : RegNo) (s : State) : Host.Outcome State Fault Refusal :=
  ok (s.opMaint c 8 .inv .store ra)

/-- FLUSH (R69, R194). -/
def execFlush (c : CoreId) (ra : RegNo) (s : State) : Host.Outcome State Fault Refusal :=
  ok (s.opMaint c 9 .fls .load ra)

/-- CLEAN_SW (R70, R196). -/
def execCleanSw (c : CoreId) (ra : RegNo) (s : State) : Host.Outcome State Fault Refusal :=
  ok (s.opSw c 10 .clean ra)

/-- INVAL_SW (R70, R196). -/
def execInvalSw (c : CoreId) (ra : RegNo) (s : State) : Host.Outcome State Fault Refusal :=
  ok (s.opSw c 11 .inval ra)

/-- FLUSH_SW (R70, R196). -/
def execFlushSw (c : CoreId) (ra : RegNo) (s : State) : Host.Outcome State Fault Refusal :=
  ok (s.opSw c 12 .flush ra)

/-- TLBI (R73 to R76). -/
def execTlbi (c : CoreId) (rx ra : RegNo) (flags : BitVec 12) (s : State) : Host.Outcome State Fault Refusal :=
  ok (s.opInval c 0 rx ra flags)

/-- SLBI (R73 to R76). -/
def execSlbi (c : CoreId) (rx ra : RegNo) (flags : BitVec 12) (s : State) : Host.Outcome State Fault Refusal :=
  ok (s.opInval c 1 rx ra flags)

/-- WCINV (R73 to R76). -/
def execWcinv (c : CoreId) (rx : RegNo) (flags : BitVec 12) (s : State) : Host.Outcome State Fault Refusal :=
  ok (s.opInval c 2 rx 0 flags)

/-- TLBSYNC (R73, R76): it returns once every earlier invalidation of the core has completed on every core. -/
def execTlbsync (c : CoreId) (s : State) : Host.Outcome State Fault Refusal :=
  ok (s.runInstr c { all := true } fun s =>
    if (s.core c).level = .u then privileged (wordX 0x3E 3 0 0 0) s
    else .done (s.finishInvals fun r => r.1 == c.val) (s.pcOf c + 4))

/-- REMOTE_INVALIDATION (R76): the oldest invalidation on its way to a core completes there. -/
def execRemoteInvalidation (c : CoreId) (s : State) : Host.Outcome State Fault Refusal :=
  match s.remoteInv.find? fun r => r.2.1 == c.val with
  | none => ok s
  | some r => ok { (s.updCore c fun k => k.inval r.2.2) with remoteInv := s.remoteInv.erase r }

/-- LL_SNOOP_HOLD_END (R65): 32 CCLK after the LL, held snoops may act, other cores of the quad may take the sector, and
data that waited takes its frame. -/
def execLlSnoopHoldEnd (c : CoreId) (s : State) : Host.Outcome State Fault Refusal :=
  let free := s.updCore c fun k => { k with hold := none }
  ok (match (s.core c).hold with
    | none => s
    | some n => (free.fillQuad (quadOf c) n).quadGo (quadOf c))

end Sys2Proof.Machine
end

