-- ==== Sys2Proof/Machine/Sys.lean ====
section
/-! DEFINITION. System instructions and system registers (R61, R77 to R81), barriers (R68, R72, R212) and illegal
instructions (R48). -/

namespace Sys2Proof.Machine

/-! ### Reading and writing a system register (R14, R79, R81) -/

/-- The value of a system register as a read returns it; some are views of other state. -/
def State.sysRead (s : State) (c : Fin 64) (r : Reg) (idx : List Nat) : Word :=
  let k := s.core c
  let q := s.quad (quadOf c)
  match r with
  | .CORE_PHYS => BitVec.ofNat 64 c.val
  | .DTIME => BitVec.ofNat 64 s.time
  | .L1_SEED => BitVec.ofNat 64 (k.l1i.lfsr.toNat * 65536 + k.l1d.lfsr.toNat)
  | .L2_SEED => BitVec.ofNat 64 q.l2.lfsr.toNat
  | .CACHE_STAT => BitVec.ofNat 64 (q.l2.retired.length * 65536 + (k.l1i.retired.length + k.l1d.retired.length) * 256 +
      b2n q.l2.ready * 4 + b2n k.l1d.ready * 2 + b2n k.l1i.ready)
  | .TRC_STAT => (k.reg .TRC_STAT &&& 0xA) ||| BitVec.ofNat 64 (b2n (s.traceStalled c) * 4 + b2n (!k.trace.buf.isEmpty || !k.trace.frames.isEmpty))
  | _ => r.spec.readable (k.reg r idx)

/-- Fields that keep their value when a write would give them one that the register does not take. -/
def sysKeep (r : Reg) (l : Level) (old new : Word) : Word :=
  let keepIf (b : Bool) (f : Fld) (w : Word) : Word := if b then putBits w f (bits old f) else w
  match r with
  | .FPCTL => keepIf (decide (5 ≤ bits new .FPCTL_RM)) .FPCTL_RM new
  | .RES_CTL => keepIf (decide (4 ≤ bits new .RES_CTL_INJ)) .RES_CTL_INJ new
  | .SEG_ROOT => keepIf (decide (11 ≤ bits new .SEG_ROOT_LEN)) .SEG_ROOT_LEN new
  | .H_SEG_ROOT => keepIf (decide (11 ≤ bits new .H_SEG_ROOT_LEN)) .H_SEG_ROOT_LEN new
  | .EVSEL => keepIf (!evDefined (bits new .EVSEL_EVENT)) .EVSEL_EVENT (keepIf (l == .k) .EVSEL_CNT_H new)
  | .EV_CTL => keepIf (l == .k) .EV_CTL_OVF_TGT new
  | .CTIM_CTL => keepIf (l == .k) .CTIM_CTL_TGT_0 (keepIf (l == .k) .CTIM_CTL_TGT_1 new)
  | .TRC_CTL => keepIf (bits new .TRC_CTL_TSMODE == 3) .TRC_CTL_TSMODE new
  | .TCMP_CFG => keepIf (decide (6 ≤ bits new .TCMP_CFG_KIND)) .TCMP_CFG_KIND new
  | .V_ACTPRI => new &&& ~~~1#64
  | _ => new

/-- A nonzero seed replaces a generator's state (R180). -/
def Cache.seed (c : Cache) (v : Nat) : Cache := if v % 65536 = 0 then c else { c with lfsr := BitVec.ofNat 16 v }

/-- What a write does beyond storing its value. old and new: the stored values before and after; v: the value written,
which WO fields act on. -/
def State.sysEffect (s : State) (c : Fin 64) (r : Reg) (idx : List Nat) (old new v : Word) : State :=
  match r with
  | .L1_SEED => s.updCore c fun k => { k with l1i := k.l1i.seed (v.toNat / 65536), l1d := k.l1d.seed v.toNat }
  | .L2_SEED => s.updL2 (quadOf c) fun l => l.seed v.toNat
  | .CTIM_CMP =>
    s.updCore c fun k =>
      if idx = [0] then { (k.setFld .CTIM_CTL [] .CTIM_CTL_PEND_0 0) with armed0 := true }
      else { (k.setFld .CTIM_CTL [] .CTIM_CTL_PEND_1 0) with armed1 := true }
  | .IRQ_EOI => s.coreEoi c false (v.toNat % 2 ^ 15)
  | .VIRQ_EOI => s.coreEoi c true (v.toNat % 2 ^ 15)
  | .VCTL | .VMID => s.sendResidency c
  | .TRC_CTL =>
    if flag new .TRC_CTL_EN && !flag old .TRC_CTL_EN then
      s.updTrace c fun t => { t with syncOwed := true }
    else if flag old .TRC_CTL_EN && !flag new .TRC_CTL_EN then s.traceFlush c
    else s
  | _ => s

/-- Store what a write leaves and carry out its effects. -/
def State.sysStore (s : State) (c : Fin 64) (r : Reg) (idx : List Nat) (new v : Word) : State :=
  let k := s.core c
  let old := k.reg r idx
  let new := sysKeep r k.level old new
  (s.setCore c (k.setReg r idx new)).sysEffect c r idx old new v

/-- MTS (R14). -/
def State.sysWrite (s : State) (c : Fin 64) (r : Reg) (idx : List Nat) (v : Word) : State :=
  s.sysStore c r idx (r.spec.written ((s.core c).reg r idx) v (BitVec.allOnes 64)) v

/-- The stored value after MSSET or MSCLR leave a computed value (R79). -/
def RegDef.computed (d : RegDef) (old v : Word) : Word :=
  ((old &&& ~~~d.rw) ||| (v &&& d.rw)) &&& (v ||| ~~~d.w1c) ||| (v &&& d.w1s)

/-- MSSET and MSCLR (R79): the value read and the state. RC fields clear by the read; seeds read live. -/
def State.sysModify (s : State) (c : Fin 64) (r : Reg) (idx : List Nat) (f : Word → Word) (wo : Word) : Word × State :=
  let read := s.sysRead c r idx
  let v := f read
  let old := r.spec.afterRead ((s.core c).reg r idx) (BitVec.allOnes 64)
  (read, (s.updCore c fun k => k.setReg r idx old).sysStore c r idx (r.spec.computed old v) (if r.spec.wo = 0 then v else wo))

/-- The level of a core may access a register by its number and header (R81). None: the access is allowed; otherwise
the cause it raises. -/
def sysCheck (l : Level) (num : Nat) : Except Nat (Reg × List Nat) :=
  if l.toNat < num / 1024 then .error 0x04
  else match lookReg regsSys num with
    | none => .error 0x03
    | some (r, idx, _) =>
      let d := r.spec
      if (match l with | .u => d.u | .k => d.k | .h => d.h) then .ok (r, idx) else .error 0x04

/-- U reads an event counter only when UEN names it, and never writes one (R464). -/
def Core.evBarred (k : Core) (r : Reg) (idx : List Nat) (write : Bool) : Bool :=
  r == .EVCNT && k.level == .u && (write || !(k.reg .EV_CTL).getLsbD (idx.headD 0))

/-- The trap of a refused system-register access. -/
def sysRefused (cause : Nat) (word : Word) (s : State) : Ex := if cause = 0x03 then illegal word s else privileged word s

/-- An MFS of FPFLAGS or FPCAUSE waits for every earlier long operation (R98). -/
def mfsWaits (num : Nat) : Bool := num == Reg.FPFLAGS.at [] || num == Reg.FPCAUSE.at []

/-- MFS (R77, R81): not serialising (R78). -/
def State.opMfs (s : State) (c : Fin 64) (rx : Fin 32) (num : BitVec 12) : State :=
  s.runInstr c { g := [rx], all := mfsWaits num.toNat } fun s =>
    let k := s.core c
    let word := wordX 0x3F 0 rx 0 num
    match sysCheck k.level num.toNat with
    | .error e => sysRefused e word s
    | .ok (r, idx) =>
      if k.evBarred r idx false then privileged word s
      else
        let v := s.sysRead c r idx
        let s := s.updCore c fun k => k.setReg r idx (r.spec.afterRead (k.reg r idx) (BitVec.allOnes 64))
        s.doneG c rx v

/-- MTS (R77, R78, R81). -/
def State.opMts (s : State) (c : Fin 64) (ra : Fin 32) (num : BitVec 12) : State :=
  s.runInstr c { g := [ra], all := true } fun s =>
    let k := s.core c
    let word := wordX 0x3F 1 0 ra num
    match sysCheck k.level num.toNat with
    | .error e => sysRefused e word s
    | .ok (r, idx) =>
      if k.evBarred r idx true then privileged word s
      else .done (s.sysWrite c r idx (k.readG ra)) (k.pc + 4)

/-- MSSET and MSCLR (R77 to R81). -/
def State.opMs (s : State) (c : Fin 64) (xfn : Nat) (rx ra : Fin 32) (num : BitVec 12) (f : Word → Word → Word) (set : Bool) : State :=
  s.runInstr c { g := [rx, ra], all := true } fun s =>
    let k := s.core c
    let word := wordX 0x3F xfn rx ra num
    match sysCheck k.level num.toNat with
    | .error e => sysRefused e word s
    | .ok (r, idx) =>
      if k.evBarred r idx true then privileged word s
      else
        let a := k.readG ra
        match s.sysModify c r idx (fun old => f old a) (if set then a else 0) with
        | (old, s) => .done (s.updCore c fun k => k.writeG rx old) (k.pc + 4)

/-! ### Return from a trap (R140) -/

/-- The doublewords of a frame, ascending; the failing EA when one cannot be read. -/
def State.readFrame (s : State) (c : Fin 64) (l : Level) (ea : Word) :
    Nat → List Word → (Except (Option Word) (List Word)) × State
  | 0, done => (.ok done.reverse, s)
  | n + 1, done =>
    match s.readDw c l ea with
    | (none, s) => (.error none, s)
    | (some none, s) => (.error (some ea), s)
    | (some (some v), s) => s.readFrame c l (ea + 8) n (v :: done)

/-- STATUS with its reserved bits cleared. -/
def statusBits (w : Word) : Word := w &&& ((Reg.spec .STATUS).rw ||| (Reg.spec .STATUS).ro)

/-- TRET (R140): the level is checked before the rest of the frame is read. A step trap that an interrupt or a deferred
fault came before is owed again (R146). -/
def State.opTret (s : State) (c : Fin 64) : State :=
  s.runInstr c { all := true } fun s =>
    let k := s.core c
    let l := k.level
    let word := wordX 0x3C 3 0 0 0
    if l = .u then privileged word s else
    let sp := k.sp l
    if sp.toNat % 16 ≠ 0 then .trap { cause := 0x13, addr := sp, info := stackInfo 0 1 1 } s else
    let bad (ea : Word) (s : State) : Ex := .trap { cause := 0x13, addr := ea, info := stackInfo 0 2 1 } s
    match s.readFrame c l sp 2 [] with
    | (.error none, s) => .wait s
    | (.error (some ea), s) => bad ea s
    | (.ok top, s) =>
      let st := top.getD 1 0
      let nl := bits st .STATUS_LEVEL
      if l.toNat < nl ∨ nl = 3 then privileged word s else
      match s.readFrame c l (sp + 16) 8 [] with
      | (.error none, s) => .wait s
      | (.error (some ea), s) => bad ea s
      | (.ok gs, s) =>
        let s := s.updCore c fun k =>
          let k := (List.range 8).foldl (fun k i => k.writeG (Fin.ofNat 32 (i + 1)) (gs.getD i 0)) k
          { ((k.setSp l (sp + 80)).setReg .STATUS [] (statusBits st)) with
            resv := none, hold := none, stepDue := k.stepFrames.contains (l, sp), stepFrames := k.stepFrames.erase (l, sp) }
        .jump s (top.getD 0 0 &&& ~~~3#64)

/-! ### Durability (R68, R218, R252) -/

/-- Clean the MRAM sectors a core has stored to. -/
def State.cleanOpen (s : State) (c : Fin 64) : List Nat → Bool × State
  | [] => (true, s)
  | n :: ns =>
    match s.maint c n .cln with
    | (true, s) => s.cleanOpen c ns
    | (false, s) => (false, s)

/-- PSYNC: drain, write back the MRAM sectors stored to, and wait until a durability probe sent after them is answered. A
trap takes the probe back, and the PSYNC that is executed again sends its own. -/
def State.opPsync (s : State) (c : Fin 64) : State :=
  s.runInstr c {} fun s =>
    let finish (s : State) : Ex :=
      .done { (s.updCore c fun k => { k with mramOpen := [] }) with probes := s.probes.filter fun p => p.who ≠ c.val } (s.pcOf c + 4)
    match s.drainStores c with
    | (false, s) => .wait s
    | (true, s) =>
      match s.probes.find? fun p => p.who == c.val with
      | some p => if p.answered then finish s else .wait s
      | none =>
        match s.cleanOpen c (s.core c).mramOpen with
        | (false, s) => .wait s
        | (true, s) =>
          if (s.core c).mramOpen.isEmpty || s.mramQ.isEmpty then finish s
          else .wait { s with probes := s.probes ++ [{ who := c.val }] }

/-! ### Meanings -/

/-- SYSCALL (R77, R131): cause 0x10 with the code. -/
def execSyscall (c : CoreId) (code : BitVec 12) (s : State) : Host.Outcome State Fault Refusal :=
  ok (s.runInstr c { all := true } fun s => .trap { cause := 0x10, info := code.setWidth 64 } (s.event c evSyscall))

/-- HCALL (R77): cause 0x11 with the code. -/
def execHcall (c : CoreId) (code : BitVec 12) (s : State) : Host.Outcome State Fault Refusal :=
  ok (s.runInstr c { all := true } fun s =>
    if (s.core c).level = .u then privileged (wordX 0x3C 1 0 0 code) s
    else .trap { cause := 0x11, info := code.setWidth 64 } (s.event c evHcall))

/-- BRK (R77): cause 0x12 with the code. -/
def execBrk (c : CoreId) (code : BitVec 12) (s : State) : Host.Outcome State Fault Refusal :=
  ok (s.runInstr c { all := true } fun s => .trap { cause := 0x12, info := code.setWidth 64 } s)

/-- TRET (R140). -/
def execTret (c : CoreId) (s : State) : Host.Outcome State Fault Refusal := ok (s.opTret c)

/-- RSFLUSH (R61). -/
def execRsflush (c : CoreId) (s : State) : Host.Outcome State Fault Refusal :=
  ok (s.runInstr c {} fun s => .done (s.updCore c fun k => { k with rstack := [] }) (s.pcOf c + 4))

/-- BAR_PRED (R61, R122). -/
def execBarPred (c : CoreId) (s : State) : Host.Outcome State Fault Refusal :=
  ok (s.runInstr c {} fun s =>
    .done (s.updCore c fun k => { (k.setFld .PRED_CTL [] .PRED_CTL_BARRED 1) with rstack := [] }) (s.pcOf c + 4))

/-- CLR_PRED (R61, R122). -/
def execClrPred (c : CoreId) (s : State) : Host.Outcome State Fault Refusal :=
  ok (s.runInstr c {} fun s =>
    .done (s.updCore c fun k => { (k.setFld .PRED_CTL [] .PRED_CTL_BARRED 0) with rstack := [] }) (s.pcOf c + 4))

/-- WFI (R77, R275): issue stops unless the condition that completes it already holds, or its own retirement brings it. -/
def execWfi (c : CoreId) (s : State) : Host.Outcome State Fault Refusal :=
  ok ((s.runInstr c { all := true } fun s =>
    if (s.core c).level = .u then privileged (wordX 0x3C 7 0 0 0) s
    else .done (s.updCore c fun k => { k with run := if k.wakes then .running else .wfi }) (s.pcOf c + 4)).wakeCheck c)

/-- MFS (R77). -/
def execMfs (c : CoreId) (rx : RegNo) (num : BitVec 12) (s : State) : Host.Outcome State Fault Refusal := ok (s.opMfs c rx num)

/-- MTS (R77). -/
def execMts (c : CoreId) (ra : RegNo) (num : BitVec 12) (s : State) : Host.Outcome State Fault Refusal := ok (s.opMts c ra num)

/-- MSSET (R77, R79). -/
def execMsset (c : CoreId) (rx ra : RegNo) (num : BitVec 12) (s : State) : Host.Outcome State Fault Refusal :=
  ok (s.opMs c 2 rx ra num (fun old a => old ||| a) true)

/-- MSCLR (R77, R79). -/
def execMsclr (c : CoreId) (rx ra : RegNo) (num : BitVec 12) (s : State) : Host.Outcome State Fault Refusal :=
  ok (s.opMs c 3 rx ra num (fun old a => old &&& ~~~a) false)

/-- FENCE (R68, R212): FENCE.SL and FENCE.IO together; it waits while a Device store of the core is not acknowledged. -/
def execFence (c : CoreId) (s : State) : Host.Outcome State Fault Refusal :=
  ok (s.runInstr c {} fun s =>
    match s.drainStores c with
    | (true, s) => .done s (s.pcOf c + 4)
    | (false, s) => .wait s)

/-- FENCE_SL (R68, R212): every earlier store globally visible, a Device one injected and completed. -/
def execFenceSl (c : CoreId) (s : State) : Host.Outcome State Fault Refusal :=
  ok (s.runInstr c {} fun s =>
    match s.drainStores c with
    | (true, s) => .done s (s.pcOf c + 4)
    | (false, s) => .wait s)

/-- FENCE_IO (R68, R212, R113): every earlier Device access has completed. A cacheable store behind the last Device store
may stay buffered: a later Device store follows it in the buffer. -/
def execFenceIo (c : CoreId) (s : State) : Host.Outcome State Fault Refusal :=
  ok (s.runInstr c {} fun s =>
    let n := ((s.core c).sb.zipIdx.filter fun p => p.1.typ == .device).foldl (fun _ p => p.2 + 1) 0
    match s.drainN c n with
    | (true, s) => if (s.core c).devOut.isEmpty then .done s (s.pcOf c + 4) else .wait s
    | (false, s) => .wait s)

/-- FENCE_I (R68, R72): the store buffer drains and this core's L1I empties. -/
def execFenceI (c : CoreId) (s : State) : Host.Outcome State Fault Refusal :=
  ok (s.runInstr c { all := true } fun s =>
    match s.drainAll c with
    | (true, s) => .done (s.updCore c fun k => { k with l1i := { k.l1i with frames := [] } }) (s.pcOf c + 4)
    | (false, s) => .wait s)

/-- LSYNC (R54, R68): it waits for every earlier long operation. -/
def execLsync (c : CoreId) (s : State) : Host.Outcome State Fault Refusal :=
  ok (s.runInstr c { all := true } fun s => .done s (s.pcOf c + 4))

/-- PSYNC (R68, R218). -/
def execPsync (c : CoreId) (s : State) : Host.Outcome State Fault Refusal := ok (s.opPsync c)

/-- ILLEGAL_INSTRUCTION (R48): an illegal word raises cause 0x03 with the word; of a word that is an instruction the command
tells nothing. -/
def execIllegalInstruction (c : CoreId) (word : BitVec 32) (s : State) : Host.Outcome State Fault Refusal :=
  ok (if (decodeWord c word).isSome then s else s.runInstr c {} fun s => illegal (word.setWidth 64) s)

end Sys2Proof.Machine
end

