-- ==== Sys2Proof/Machine/Cleat.lean ====
section
/-! DEFINITION. The cleat unit (R221 to R228). -/

namespace Sys2Proof.Machine

/-- The requester of a command. -/
def State.who (s : State) : Sender → Who
  | .core c => (s.core c).who c
  | .fetas => .fetas
  | .unit n => .unit n.val

/-- The stop that injects a requester's accesses. -/
def Who.stop : Who → Nat
  | .core c _ _ => quadStop (quadOf c)
  | .fetas => 24
  | .unit n => n
  | .dap => 24
  | .far _ => 0

/-- The PID tag that ADDR_ERR_PID records. -/
def Who.pidTag : Who → BitVec 29
  | .core _ _ p => p
  | .far p => p
  | _ => 0

/-- An access of a requester is logged (R36). -/
def State.busErr (s : State) (w : Who) (write : Bool) (kind pa : Nat) : State := s.addrErr w.stop write kind pa w.pidTag

/-- Arbitration ID (R222). -/
def Who.cleatId : Who → Nat
  | .core c _ _ => c.val
  | .fetas => 64
  | .unit stop => if stop = 29 then 66 else 65
  | .dap => 64
  | .far _ => 65

/-- FETAS bit and PID tag of a request (R222). -/
def Who.cleatOwner : Who → BitVec 30
  | .core _ _ pid => pid.setWidth 30
  | _ => 1#30 <<< 29

/-- A request joins the current window; a requester has at most one take per cleat in it (R223). -/
def State.cleatSubmit (s : State) (op : CleatOp) (w : Who) (n : Nat) : State :=
  let r : CleatReq := { op := op, n := n, id := w.cleatId, owner := w.cleatOwner }
  if op = .take ∧ s.cleats.reqs.any (fun q => q.op == .take && q.n == n && q.id == r.id) then s
  else { s with cleats := { s.cleats with reqs := s.cleats.reqs ++ [r] } }

def State.cleatFree (s : State) (n : Nat) : Bool := s.fld .CLEAT_STATE [n] .CLEAT_STATE_STATE == 0

/-- CLEAT_STATE of a cleat held by an owner. -/
def cleatHeld (o : BitVec 30) : Word := BitVec.ofNat 64 (3 * 2 ^ 30 + o.toNat)

/-- A give (R225): an ignored one is logged and counted. -/
def State.cleatGive (s : State) (r : CleatReq) : State :=
  let log (kind : Nat) : State :=
    let s := s.count .cleatGive
    match s.capture .CLEAT_ERR_STATUS [] (r.n * 2 ^ 16 + kind * 4) with
    | (true, s) => s.setReg .CLEAT_ERR_PID [] (r.owner.setWidth 64)
    | (false, s) => s
  if s.cleatFree r.n then log 2
  else if s.reg .CLEAT_STATE [r.n] = cleatHeld r.owner then s.setReg .CLEAT_STATE [r.n] 0
  else log 1

/-- Requests by rising requester ID. -/
def byId (l : List CleatReq) : List CleatReq :=
  (List.range 128).flatMap fun i => l.filter fun r => r.id == i

/-- The take that comes first, counting upward from the pointer (R224). -/
def firstTake (ptr : Nat) (l : List CleatReq) : Option CleatReq :=
  (List.range 128).findSome? fun i => l.find? fun r => r.id == (ptr + i) % 128

/-- The takes of a cleat in a window (R224). -/
def State.cleatTakes (s : State) (n : Nat) (l : List CleatReq) : State :=
  let ptr := s.cleats.ptr.get 0 n
  let win := if s.cleatFree n then firstTake ptr l else none
  let s := match win with
    | none => s
    | some r =>
      let s := s.setReg .CLEAT_STATE [n] (cleatHeld r.owner)
      if 1 < l.length then
        { s with cleats := { s.cleats with ptr := s.cleats.ptr.set 0 n ((r.id + 1) % 128) } }
      else s
  let owner := (s.reg .CLEAT_STATE [n]).toNat % 2 ^ 30
  l.foldl (fun s r =>
    let won := win == some r
    let s := { s with cleats := { s.cleats with answers :=
      s.cleats.answers ++ [(r.id, n, BitVec.ofNat 64 ((if won then 1 else 2) * 2 ^ 30 + owner))] } }
    if r.id < 64 then
      let c := Fin.ofNat 64 r.id
      let s := s.event c evCleatTake
      if won then s else s.event c evCleatBusy
    else s) s

/-- The end of a window: for every cleat, force-frees, then gives, then takes (R223). -/
def State.cleatWindow (s : State) : State :=
  let reqs := s.cleats.reqs
  let ns := reqs.foldl (fun l r => insertRising r.n l) []
  ns.foldl (fun s n =>
    let mine := reqs.filter fun r => r.n == n
    let s := if mine.any fun r => r.op == .force then s.setReg .CLEAT_STATE [n] 0 else s
    let s := (byId (mine.filter fun r => r.op == .give)).foldl (fun s r => s.cleatGive r) s
    s.cleatTakes n (mine.filter fun r => r.op == .take)) { s with cleats := { s.cleats with reqs := [] } }

/-- The answer to a take of a requester, and the state that has given it out. -/
def State.cleatAnswer (s : State) (id n : Nat) : Option (Word × State) :=
  match s.cleats.answers.find? fun a => a.1 == id && a.2.1 == n with
  | none => none
  | some a => some (a.2.2, { s with cleats := { s.cleats with answers := s.cleats.answers.erase a } })

/-- A take read over the bus: its window ends before it is answered. -/
def State.cleatTakeNow (s : State) (w : Who) (n : Nat) : Word × State :=
  match s.cleatAnswer w.cleatId n with
  | some r => r
  | none =>
    let s := (s.cleatSubmit .take w n).cleatWindow
    (s.cleatAnswer w.cleatId n).getD (0, s)

/-- The level of a requester is listed for a register (R11, R166). -/
def Reg.admits (r : Reg) : Who → Bool
  | .core _ l _ => match l with | .u => r.spec.u | .k => r.spec.k | .h => r.spec.h
  | .fetas => true
  | .dap => r.spec.h
  | .far _ => r.spec.k
  | .unit _ => match r with
    | .CLEAT_TAKE | .CLEAT_GIVE | .CLEAT_STATE | .CLEAT_FORCE | .SRC_SET => true
    | _ => false

/-- A request to the cleat unit by a command: with the unit off, or from a requester whose level the register does not list, it
has no effect and is logged (R30, R36, R166). -/
def State.cleatCommand (s : State) (op : CleatOp) (r : Reg) (w : Who) (n : Nat) : State :=
  let err (kind : Nat) : State := s.busErr w (op != .take) kind (r.at [n])
  if !s.pdUp 91 then err 4 else if !r.admits w then err 3 else s.cleatSubmit op w n

/-- CLEAT_TAKE (R224): the request joins the current window. -/
def execCleatTake (by' : Sender) (n : Fin 4096) (s : State) : Host.Outcome State Fault Refusal :=
  ok (s.cleatCommand .take .CLEAT_TAKE (s.who by') n.val)

/-- CLEAT_GIVE (R225). -/
def execCleatGive (by' : Sender) (n : Fin 4096) (s : State) : Host.Outcome State Fault Refusal :=
  ok (s.cleatCommand .give .CLEAT_GIVE (s.who by') n.val)

/-- CLEAT_FORCE (R225, R166). -/
def execCleatForce (by' : Sender) (n : Fin 4096) (s : State) : Host.Outcome State Fault Refusal :=
  ok (s.cleatCommand .force .CLEAT_FORCE (s.who by') n.val)

/-- CLEAT_WINDOW (R223): the unit resolves while its domain is on. -/
def execCleatWindow (s : State) : Host.Outcome State Fault Refusal := ok (if s.pdUp 91 then s.cleatWindow else s)

end Sys2Proof.Machine
end

