-- ==== Sys2Proof/Machine/Cover.lean ====
section
/-! DEFINITION. Configuration units, what CFG_CRC covers in each, and the CRC of a coverage image (R334, R401, R402). -/

namespace Sys2Proof.Machine

/-- A register array, or a window of table words, that a unit's CFG_CRC covers. -/
structure Cov where
  base : Nat
  dims : List RegDim
  wide : Bool
  reset : Word
  mask : Word
  deriving DecidableEq, Repr

/-- A covered register with its coverage mask. -/
def covReg (r : Reg) (mask : Word) : Cov :=
  { base := r.spec.base, dims := r.spec.dims, wide := r.spec.wide, reset := r.spec.reset, mask := mask }

/-- A covered register whose RW fields are its coverage mask. -/
def covRw (r : Reg) : Cov := covReg r r.spec.rw

/-- One home slice's instance of a register array. -/
def covHome (r : Reg) (h : Nat) (mask : Word) : Cov :=
  { base := r.spec.base + h * 0x10000, dims := r.spec.dims.drop 1, wide := r.spec.wide, reset := r.spec.reset, mask := mask }

/-- The words of a table window (log entry 35). -/
def covWords (base n : Nat) : Cov := { base := base, dims := [⟨4, 0, n - 1⟩], wide := false, reset := 0, mask := 0xFFFFFFFF }

/-- The registers that a configuration unit covers (R401, R402; R278, R334, R474, R477). Cores follow from index 21. -/
def covered : Nat → List Cov
  | 0 => [covReg .WAKE_EN 0x3FFFF, covReg .WAKE_CMP 0xEFC000FF, covReg .UART_ACT 0x3F, covReg .PF_CFG 0x83FFE3FF,
      covReg .PWR_SEQ 0x80FF00FF]
  | 1 => [covRw .EVT_MASK]
  | 2 => [covReg .SRC_CFG 0x603F1FFF, covRw .VM_CFG, covReg .LCORE_MAP 0x7F]
  | 3 => [covRw .TMR_CFG, covRw .TMR_CTL]
  | 15 => [covRw .SW_CTL, covRw .FDB_AGE, covRw .HSR_CFG, covRw .PORT_CFG, covRw .QBV_CTL, covRw .QBV_CYCLE,
      covRw .QBV_BASE_LO, covRw .QBV_BASE_HI, covRw .QBV_GATES, covRw .QBV_IVL,
      covWords 0x3007100000 131072, covWords 0x3007200000 4096, covWords 0x3007300000 262144]
  | 16 => [covReg .PCIE_CTL 0xCF001FFF, covWords 0x3008100000 1024]
  | 17 => [covRw .UART_CFG, covRw .UART_BAUD, covRw .CAN_CTL, covRw .CAN_NBT, covRw .CAN_DBT, covRw .CAN_TDC, covRw .CAN_IEN,
      covRw .CAN_MBIEN, covRw .CAN_FLT_ID, covRw .CAN_FLT_MASK, covRw .SPI_CFG, covRw .I2C_CFG, covRw .GPIO_OE, covRw .GPIO_OD,
      covRw .GPIO_ICFG, covRw .QSPI_CFG]
  | 18 => [covRw .HY_RING_BASE, covRw .HY_RING_CTL]
  | 19 => [covRw .TT_CFG, covRw .TT_WIN, covRw .TT_THR]
  | 20 => [covRw .SHR_CFG]
  | u =>
    if 7 ≤ u ∧ u < 15 then [covHome .L3_WG_MASK (u - 7) 0xFFFF, covHome .L3_WG_MAP (u - 7) 0xFFFF]
    else if 21 ≤ u then
      [covReg .CORE_ID 0x3F, covReg .PRED_CTL 1, covRw .PIPE_CTL, covReg .WAY_CLASS 0x70, covRw .VECBASE_H, covRw .H_SEG_ROOT,
        covRw .H_PT_ROOT]
    else []

/-- The domain of a configuration unit that is not a core (R32, R402). -/
def unitPdOf (u : Nat) : Nat :=
  if 7 ≤ u ∧ u < 15 then 83 + (u - 7)
  else [0, 2, 91, 106, 93, 95, 97, 0, 0, 0, 0, 0, 0, 0, 0, 98, 102, 106, 105, 105, 2].getD u 0

/-- Where a configuration unit that is not a core holds CFG_CRC, CFG_GEN and CFG_STAT. -/
def cfgAt (u : Nat) : Nat :=
  if 7 ≤ u ∧ u < 15 then 0x30061000F0 + (u - 7) * 0x10000
  else if u = 4 ∨ u = 5 then 0x30047FFF00 + (u - 4) * 0x800000
  else 0x3000FFFF00 + ([0, 1, 2, 3, 4, 4, 5, 6, 6, 6, 6, 6, 6, 6, 6, 7, 8, 9, 10, 11, 12].getD u 0) * 0x1000000

def Cov.width (c : Cov) : Nat := if c.wide then 8 else 4

/-- Instances of an array below an offset from its base. -/
def covBelow : List RegDim → Nat → Nat
  | [], off => if 0 < off then 1 else 0
  | d :: ds, off =>
    let inner := (ds.map fun x => x.last + 1 - x.first).prod
    let q := off / d.stride
    (if q < d.first then 0 else min (q - d.first) (d.last + 1 - d.first)) * inner +
      (if d.first ≤ q ∧ q ≤ d.last then covBelow ds (off % d.stride) else 0)

/-- An address is an instance of an array. -/
def Cov.has (c : Cov) (a : Nat) : Bool :=
  decide (c.base ≤ a) && (match RegDim.split c.dims (a - c.base) with | some (_, 0) => true | _ => false)

/-- Bytes of the coverage image before an address. -/
def covPos (cs : List Cov) (a : Nat) : Nat :=
  (cs.map fun c => (if a ≤ c.base then 0 else covBelow c.dims (a - c.base)) * c.width).sum

/-- Bytes of the whole coverage image. -/
def covSize (cs : List Cov) : Nat := (cs.map fun c => (c.dims.map fun x => x.last + 1 - x.first).prod * c.width).sum

/-- CRC-32C over n zero bytes. -/
def crcZeros (c : BitVec 32) (n : Nat) : BitVec 32 := if c = 0 then 0 else Nat.repeat (fun c => crcByte c 0) n c

/-- The CRC of the coverage image of the registers cs, whose stored values are listed by address in m: every other
covered register is at its reset value and gives zero bytes (R401). -/
def covCrc (cs : List Cov) (m : SMap Word) : BitVec 32 :=
  let go (st : BitVec 32 × Nat) (e : Nat × Word) : BitVec 32 × Nat :=
    match cs.find? fun c => c.has e.1 with
    | none => st
    | some c =>
      let p := covPos cs e.1
      ((toLe ((e.2 ^^^ c.reset) &&& c.mask).toNat c.width).foldl crcByte (crcZeros st.1 (p - st.2)), p + c.width)
  let r := m.foldl go (0, 0)
  crcZeros r.1 (covSize cs - r.2)

/-- The stored words that a memory-mapped unit's coverage can list, by address. -/
def State.cfgWords (s : State) (u : Nat) : SMap Word :=
  let lo := if u = 15 then 0x3007000000 else 0x3008000000
  if u = 15 then s.regs ++ s.sw.words.map fun e => (lo + e.1, e.2)
  else if u = 16 then s.regs ++ s.pcie.words.map fun e => (lo + e.1, e.2)
  else s.regs

/-- CFG_CRC of a unit that is not a core; zero while its domain is off (R401, R402). -/
def State.cfgCrc (s : State) (u : Nat) : BitVec 32 :=
  if !s.pdUp (unitPdOf u) then 0
  else
    let cs := covered u
    -- only covered entries count, in rising address order
    let m := (s.cfgWords u).foldl (fun (a : SMap Word) e => if cs.any fun c => c.has e.1 then a.insert e.1 e.2 else a) []
    covCrc cs m

/-- The CRC of a core's coverage image. -/
def Core.cfgCrc (k : Core) : BitVec 32 := covCrc (covered 21) k.sys

/-- The configuration unit, not a core, that an address belongs to by coverage. -/
def covUnit (a : Nat) : Option Nat := (List.range 21).find? fun u => (covered u).any fun c => c.has a

end Sys2Proof.Machine
end

