-- ==== Sys2Proof/Machine/SliceOps.lean ====
section
/-! DEFINITION. Operations of the slice engine (chapter 11): mailbox doorbells, windows and memory accesses, queues,
completions, errors, and the sharing of the engines. -/

namespace Sys2Proof.Machine

/-! ### Errors and vectors (R294, R309) -/

/-- PENDING of vector index i of a slice, when that vector is granted. -/
def State.sliceVec (s : State) (n i : Nat) : State :=
  let g := s.reg .SLICE_GRANT_V [n]
  if i < bits g .SLICE_GRANT_V_COUNT then s.srcSet (1024 + bits g .SLICE_GRANT_V_BASE + i) else s

/-- An error of a slice is counted, and captured while no capture is held (R309). -/
def State.sliceErr (s : State) (n q kind : Nat) : State :=
  let s := (s.count .slice).countFld .SLICE_ERR_COUNT [n] .SLICE_ERR_COUNT_COUNT
  match s.capture .SLICE_ERR_STATUS [n] (q * 2 ^ 16 + kind * 2 ^ 12) with
  | (true, s) => s.sliceVec n 0
  | (false, s) => s

/-- An engine-wide error that names a slice (R309). -/
def State.seErr (s : State) (n kind : Nat) : State :=
  let s := (s.count .slice).countFld .SE_ERR_COUNT [0] (if kind = 1 then .SE_ERR_COUNT_CE else .SE_ERR_COUNT_UE)
  (s.capture .SE_ERR_STATUS [0] (n * 2 ^ 19 + kind * 2 ^ 15)).2

/-- A queue stops with an error of its own (R306). -/
def State.queueErr (s : State) (n q kind : Nat) : State :=
  s.setReg .Q_CFG [n, q] (putBits (putBits (s.reg .Q_CFG [n, q]) .Q_CFG_ERR 1) .Q_CFG_ERRKIND kind)

/-! ### Mailbox (R285 to R287) -/

/-- A ring of the outbound doorbell; true when it makes a message (R285). -/
def State.outRing (s : State) (n : Nat) : Bool × State :=
  let s := s.setFld .MBX_COUNT [n] .MBX_COUNT_OUT (s.fld .MBX_COUNT [n] .MBX_COUNT_OUT + 1)
  if s.fld .MBX_STAT [n] .MBX_STAT_OUT_BUSY = 1 then (false, (s.setFld .MBX_STAT [n] .MBX_STAT_OVERRUN 1).sliceErr n 0 2)
  else
    let s := s.setFld .MBX_STAT [n] .MBX_STAT_OUT_BUSY 1
    let far := s.reg .SLICE_FAR [n]
    (true, if flag far .SLICE_FAR_FAR then s.srcSet (1024 + bits far .SLICE_FAR_HVEC) else s)

/-- A ring of the inbound doorbell by the far end (R286). -/
def State.inRing (s : State) (n : Nat) : State :=
  let s := s.setFld .MBX_COUNT [n] .MBX_COUNT_IN (s.fld .MBX_COUNT [n] .MBX_COUNT_IN + 1)
  (s.setFld .MBX_STAT [n] .MBX_STAT_IN_FULL 1).sliceVec n 0

/-! ### Windows and memory (R288, R289, R281) -/

/-- The valid windows of a slice. -/
def State.windows (s : State) (n : Nat) : List Win :=
  (List.range 8).filterMap fun w =>
    let a := s.reg .WIN_A [n, w]
    let b := s.reg .WIN_B [n, w]
    if flag a .WIN_A_V then
      some { iova := bits a .WIN_A_IOVA * 4096, size := (bits b .WIN_B_PAGES + 1) * 4096, pa := bits b .WIN_B_PA * 4096,
             r := flag a .WIN_A_R, w := flag a .WIN_A_W }
    else none

/-- The physical address of a range that lies wholly within one window with the rights needed. -/
def winFind (ws : List Win) (iova len : Nat) (r w : Bool) : Option Nat :=
  (ws.find? fun x => decide (x.iova ≤ iova) && decide (iova + len ≤ x.iova + x.size) && (x.r || !r) && (x.w || !w)).map
    fun x => x.pa + (iova - x.iova)

/-- What a read of memory by the engine gives. -/
inductive IoAns where
  /-- the bytes, and whether a sector of each byte is poisoned -/
  | ok (d : Bytes) (poison : List Bool)
  | bus
  | wait

/-- Bytes [lo, hi) of a sector's data. -/
def secSlice (d : BitVec 512) (lo hi : Nat) : Bytes := toLe (d.toNat / 256 ^ lo) (hi - lo)

/-- The PID tag that the accesses of a slice carry: ASID 0 when every ASID of its VMID matches (R281). -/
def State.slicePid (s : State) (n : Nat) : BitVec 29 :=
  let b := s.reg .SLICE_BIND [n]
  let p := bits b .SLICE_BIND_PID
  BitVec.ofNat 29 (if flag b .SLICE_BIND_ASID_ANY then p / 2 ^ 16 * 2 ^ 16 else p)

/-- An access of a unit meets an address that no memory holds (R4, R30, R36): the kind of its error. -/
def State.noMemKind (s : State) (pa : Nat) : Nat :=
  if pa < dramEnd then 2
  else if pcieBase ≤ pa ∧ pa < pcieEnd then (if s.pdUp 102 then 1 else 4)
  else if unitBase ≤ pa ∧ pa < sliceEnd then 3
  else if qspiBase ≤ pa ∧ pa < qspiEnd then 5
  else 1

/-- That error on its way to the log: the PID of a unit's access is zero (R36). -/
def State.unitErr (s : State) (who : Nat) (write : Bool) (pa : Nat) : State :=
  s.addrErr (whoStop who) write (s.noMemKind pa) pa 0

/-- Read bytes sector by sector as the unit who (16 I/O stop, 17 trace stop, 18 Fetas); fuel bounds the sectors. -/
def State.ioReadSecs (s : State) (who : Nat) (pid : BitVec 29) (pa stop : Nat) : Nat → Bytes → List Bool → IoAns × State
  | 0, d, p => (.ok d p, s)
  | fuel + 1, d, p =>
    if stop ≤ pa then (.ok d p, s) else
    if !s.isMem pa then (.bus, s.unitErr who false pa) else
    let n := pa / 64
    let hi := min (n * 64 + 64) stop
    match s.agentRead who n pid agentFuel with
    | (none, s) => (.wait, s)
    | (some (v, po), s) =>
      s.ioReadSecs who pid hi stop fuel (d ++ secSlice v (pa % 64) (hi - n * 64)) (p ++ List.replicate (hi - pa) po)

/-- Read len bytes of memory at a physical address. -/
def State.ioRead (s : State) (pa len : Nat) (who : Nat := 16) (pid : BitVec 29 := 0) : IoAns × State :=
  s.ioReadSecs who pid pa (pa + len) (len / 64 + 2) [] []

/-- Write bytes sector by sector; p marks poisoned bytes. none while it must wait; false after a bus error. -/
def State.ioWriteSecs (s : State) (who : Nat) (pid : BitVec 29) (pa : Nat) : Nat → Bytes → List Bool → Option Bool × State
  | 0, _, _ => (some true, s)
  | fuel + 1, d, p =>
    if d.isEmpty then (some true, s) else
    if !s.isMem pa then (some false, s.unitErr who true pa) else
    let k := min d.length (64 - pa % 64)
    let v : BitVec 512 := BitVec.ofNat 512 (leNat (d.take k) * 256 ^ (pa % 64))
    let mask : BitVec 64 := BitVec.ofNat 64 ((2 ^ k - 1) * 2 ^ (pa % 64))
    match s.agentWrite who (pa / 64) v mask ((p.take k).any id) pid agentFuel with
    | (false, s) => (none, s)
    | (true, s) => s.ioWriteSecs who pid (pa + k) fuel (d.drop k) (p.drop k)

/-- Write bytes to memory at a physical address: none when it must wait, some false after a bus error. -/
def State.ioWrite (s : State) (pa : Nat) (d : Bytes) (p : List Bool := []) (who : Nat := 16) (pid : BitVec 29 := 0) :
    Option Bool × State :=
  s.ioWriteSecs who pid pa (d.length / 64 + 2) d p

/-- The MRAM sectors of a range. -/
def mramSecs (pa len : Nat) : List Nat :=
  if len = 0 ∨ !inMram pa then [] else (List.range ((pa + len - 1) / 64 + 1 - pa / 64)).map fun i => pa / 64 + i

/-- Clean the MRAM sectors the engine wrote, so that a durability probe covers them (R281, R289). -/
def State.ioClean (s : State) (pid : BitVec 29) (pa len : Nat) : State :=
  (mramSecs pa len).foldl (fun s n => (s.agentClean 16 n pid agentFuel).2) s

/-- The accepted writes a durability probe sent now waits for: the sixteen oldest of each die; what waits behind a full queue is
not accepted yet (R252). -/
def State.probeWaits (s : State) : List Nat :=
  (List.range 4).flatMap fun die => ((s.mramQ.filter fun w => mramDie w.sec == die).take 16).map fun w => w.id

/-- Every accepted write of a list is durable. -/
def State.durable (s : State) (l : List Nat) : Bool := l.all fun i => !(s.mramQ.any fun w => w.id == i)

/-! ### Queues (R290 to R293) -/

def State.setJobs (s : State) (l : List Job) : State := { s with slices := { s.slices with jobs := l } }

def State.updJob (s : State) (id : Nat) (f : Job → Job) : State :=
  s.setJobs (s.slices.jobs.map fun j => if j.id = id then f j else j)

/-- The descriptors of a queue that are fetched and not completed, in fetch order. -/
def State.queueJobs (s : State) (n q : Nat) : List Job := s.slices.jobs.filter fun j => j.slice == n && j.q == q

/-- A queue whose fetched descriptors are all complete stops draining (R290). -/
def State.drainEnd (s : State) (n q : Nat) : State :=
  if flag (s.reg .Q_CFG [n, q]) .Q_CFG_DRAINING && (s.queueJobs n q).isEmpty then s.setFld .Q_CFG [n, q] .Q_CFG_DRAINING 0
  else s

/-- The completion ring of a queue is full (R293). -/
def State.cqFull (s : State) (n q : Nat) : Bool :=
  let r := s.reg .Q_CQ [n, q]
  decide (2 ^ s.fld .Q_CFG [n, q] .Q_CFG_SIZE ≤ (bits r .Q_CQ_TAIL + 2 ^ 16 - bits r .Q_CQ_HEAD) % 2 ^ 16)

/-- The source of a queue's vector, when it is granted (R294). -/
def State.queueVec (s : State) (n q : Nat) : Option Nat :=
  let g := s.reg .SLICE_GRANT_V [n]
  let v := s.fld .Q_CFG [n, q] .Q_CFG_VEC
  if v < bits g .SLICE_GRANT_V_COUNT then some (1024 + bits g .SLICE_GRANT_V_BASE + v) else none

/-- Write the commit word of a RECORD descriptor whose header and payload are durable (R301): true when the write was done. -/
def State.commitJob (s : State) (n : Nat) (j : Job) (pa v : Nat) : Bool × State :=
  match s.ioWrite pa (toLe v 8 ++ zeros 56) [] 16 (s.slicePid n) with
  | (some true, s) =>
    let s := s.ioClean (s.slicePid n) pa 64
    (true, s.updJob j.id fun j => { j with commit := none, waits := s.probeWaits })
  | (some false, s) => (true, s.updJob j.id fun j => { j with commit := none, result := some { status := 4 } })
  | (none, s) => (false, s)

/-- Complete the oldest descriptor of a queue if it can complete; true when it, or the commit of a record, did (R289, R292
to R294, R301). The vector it raises was granted when the descriptor was fetched, or is granted now (R304). -/
def State.completeOne (s : State) (n q : Nat) : Bool × State :=
  match (s.queueJobs n q).findSome? fun j => if j.result.isSome && s.durable j.waits then j.commit.map fun c => (j, c) else none with
  | some (j, c) => s.commitJob n j c.1 c.2
  | none =>
  match s.queueJobs n q with
  | [] => (false, s)
  | j :: _ =>
    match j.result with
    | none => (false, s)
    | some c =>
      if !s.durable j.waits then (false, s) else
        let drop (s : State) : State := (s.setJobs (s.slices.jobs.filter fun k => k.id != j.id)).drainEnd n q
        if j.silent && c.status == 0 then (true, drop s)
        else if s.cqFull n q then (false, s)
        else
          let cfg := s.reg .Q_CFG [n, q]
          let size := 2 ^ bits cfg .Q_CFG_SIZE
          let tail := s.fld .Q_CQ [n, q] .Q_CQ_TAIL
          let phase := if tail / size % 2 = 0 then 1 else 0
          let e := toLe (phase * 2 ^ 31 + c.status * 2 ^ 16 + j.tag) 4 ++ toLe c.outLen 4 ++ toLe c.result.toNat 8
          let at' := s.fld .Q_CQ_BASE [n, q] .Q_CQ_BASE_IOVA * 16 + tail % size * 16
          let fail (s : State) : State := ((drop s).queueErr n q 8).sliceErr n q 7
          match winFind j.wins at' 16 false true with
          | none => (true, fail s)
          | some pa =>
            match s.ioWrite pa e [] 16 (s.slicePid n) with
            | (none, s) => (false, s)
            | (some false, s) => (true, fail s)
            | (some true, s) =>
              let s := (drop s).setFld .Q_CQ [n, q] .Q_CQ_TAIL (tail + 1)
              (true, match j.vec.or (s.queueVec n q) with
                | some v => if flag cfg .Q_CFG_IRQ || j.irq then s.srcSet v else s
                | none => s)

/-- Complete descriptors of a queue in fetch order while they can complete. -/
def State.pump (s : State) (n q : Nat) : Nat → State
  | 0 => s
  | fuel + 1 =>
    match s.completeOne n q with
    | (true, s) => s.pump n q fuel
    | (false, s) => s

/-- Enough rounds for every stage of every descriptor of a queue. -/
def pumpFuel : Nat := 16

/-- Descriptors that waited for durability complete as far as they can. -/
def State.pumpDurable (s : State) : State :=
  (s.slices.jobs.filter fun j => !j.waits.isEmpty || j.commit.isSome).foldl (fun s j => s.pump j.slice j.q pumpFuel) s

/-- The VPORT_RX descriptors of queues that wait for a frame complete with CANCELLED (R290, R305). -/
def State.cancelPosts (s : State) (n : Nat) (q : Nat → Bool) : State :=
  s.setJobs (s.slices.jobs.map fun j =>
    if j.slice = n ∧ q j.q ∧ j.svc = 5 ∧ j.result.isNone then { j with result := some { status := 8 } } else j)

/-- A queue stops: it fetches no further descriptors and drains (R290). -/
def State.queueStop (s : State) (n q : Nat) : State :=
  let r := putBits (putBits (s.reg .Q_CFG [n, q]) .Q_CFG_EN 0) .Q_CFG_DRAINING 1
  (((s.setReg .Q_CFG [n, q] r).cancelPosts n fun x => x == q).pump n q pumpFuel).drainEnd n q

/-- Why an enable is refused: ERRKIND, or none (R290). -/
def State.enableFault (s : State) (n q : Nat) (cfg : Word) : Option Nat :=
  let size := bits cfg .Q_CFG_SIZE
  let sq := (s.reg .Q_SQ_BASE [n, q]).toNat
  let cq := (s.reg .Q_CQ_BASE [n, q]).toNat
  let ws := s.windows n
  if s.fld .SLICE_GRANT_Q [n] .SLICE_GRANT_Q_COUNT ≤ q then some 5
  else if bits cfg .Q_CFG_SVC = 0 ∨ 6 < bits cfg .Q_CFG_SVC then some 1
  else if size < 2 ∨ 12 < size then some 2
  else if (winFind ws sq (64 * 2 ^ size) true false).isNone || (winFind ws cq (16 * 2 ^ size) false true).isNone then some 3
  else if flag cfg .Q_CFG_IRQ && decide (s.fld .SLICE_GRANT_V [n] .SLICE_GRANT_V_COUNT ≤ bits cfg .Q_CFG_VEC) then some 4
  else none

/-- A write of Q_CFG (R290). -/
def State.wQCfg (s : State) (n q : Nat) (v : Word) : State :=
  let d := Reg.spec .Q_CFG
  let old := s.reg .Q_CFG [n, q]
  let busy := flag old .Q_CFG_EN || flag old .Q_CFG_DRAINING
  let en := flag v .Q_CFG_EN
  let cfg := if busy then old else putBits ((old &&& ~~~d.rw) ||| (v &&& d.rw)) .Q_CFG_EN 0
  if flag old .Q_CFG_EN then (if en then s else s.queueStop n q)
  else if !en || flag old .Q_CFG_DRAINING then s.setReg .Q_CFG [n, q] cfg
  else
    match s.enableFault n q cfg with
    | some k => ((s.setReg .Q_CFG [n, q] cfg).queueErr n q k).sliceErr n q 3
    | none =>
      let cfg := putBits (putBits (putBits cfg .Q_CFG_EN 1) .Q_CFG_ERR 0) .Q_CFG_ERRKIND 0
      (((s.setReg .Q_CFG [n, q] cfg).setReg .Q_SQ [n, q] 0).setReg .Q_CQ [n, q] 0)

/-- A write of the submission doorbell (R287, R291). -/
def State.wSqDb (s : State) (n q add : Nat) : State :=
  let cfg := s.reg .Q_CFG [n, q]
  if add = 0 then s
  else if !flag cfg .Q_CFG_EN || decide (s.fld .SLICE_GRANT_Q [n] .SLICE_GRANT_Q_COUNT ≤ q) then s.sliceErr n q 8
  else
    let r := s.reg .Q_SQ [n, q]
    let prod := (bits r .Q_SQ_PROD + add) % 2 ^ 16
    let s := s.setReg .Q_SQ [n, q] (putBits r .Q_SQ_PROD prod)
    if 2 ^ bits cfg .Q_CFG_SIZE < (prod + 2 ^ 16 - bits r .Q_SQ_HEAD) % 2 ^ 16 then (s.queueErr n q 6).sliceErr n q 4
    else s

/-- A write of the completion head (R293). -/
def State.wCqHead (s : State) (n q v : Nat) : State :=
  let r := s.reg .Q_CQ [n, q]
  let held := (bits r .Q_CQ_TAIL + 2 ^ 16 - bits r .Q_CQ_HEAD) % 2 ^ 16
  let adv := (v % 2 ^ 16 + 2 ^ 16 - bits r .Q_CQ_HEAD) % 2 ^ 16
  if held < adv then s.sliceErr n q 5
  else (s.setFld .Q_CQ [n, q] .Q_CQ_HEAD v).pump n q pumpFuel

/-- A descriptor from its 64 bytes (R295). -/
def Job.ofBytes (id n q svc : Nat) (b : Bytes) (wins : List Win) (vec : Option Nat) : Job :=
  let f (off len : Nat) : Nat := leNat (piece b off len)
  let w := f 0 4
  { id := id, slice := n, q := q, svc := svc, op := w % 256, tag := w / 2 ^ 16, silent := w.testBit 10, irq := w.testBit 9,
    fence := w.testBit 8, len := f 4 4, src := f 8 8, dst := f 16 8, dstLen := f 24 4, auxLen := f 28 4, aux := f 32 8,
    key := f 40 1, param := BitVec.ofNat 128 (f 48 16), wins := wins, vec := vec,
    rsv := w / 2 ^ 11 % 32 != 0 || f 41 7 != 0 }

/-- The operations of a service (R297 to R301). -/
def svcOps : Nat → List Nat
  | 1 => [1, 2, 3]
  | 2 => [0x01, 0x02, 0x10, 0x11, 0x12, 0x13, 0x14, 0x15, 0x20, 0x21, 0x30, 0x31]
  | 3 => [1, 2, 3]
  | 4 => [1]
  | 5 => [1]
  | 6 => [1, 2]
  | _ => []

/-- Fetch the next descriptor of a queue when it may be fetched (R290 to R293, R306, R310). A descriptor whose operation
its service does not list completes with BAD_OP. -/
def State.fetchDesc (s : State) (n q : Nat) : State :=
  let cfg := s.reg .Q_CFG [n, q]
  let r := s.reg .Q_SQ [n, q]
  let head := bits r .Q_SQ_HEAD
  if !s.pdUp 103 || s.slices.stopped || !flag cfg .Q_CFG_EN || flag cfg .Q_CFG_ERR || head == bits r .Q_SQ_PROD ||
      decide (4 ≤ (s.queueJobs n q).length) || decide (8 ≤ s.slices.jobs.countP fun j => j.slice == n) ||
      decide (512 ≤ s.slices.jobs.length) || s.cqFull n q then s
  else
    let at' := s.fld .Q_SQ_BASE [n, q] .Q_SQ_BASE_IOVA * 64 + head % 2 ^ bits cfg .Q_CFG_SIZE * 64
    let fail (s : State) : State := (s.queueErr n q 7).sliceErr n q 6
    match winFind (s.windows n) at' 64 true false with
    | none => fail s
    | some pa =>
      match s.ioRead pa 64 16 (s.slicePid n) with
      | (.wait, s) => s
      | (.bus, s) => fail s
      | (.ok b p, s) =>
        if p.any id then fail s
        else
          let j := Job.ofBytes s.slices.jobNext n q (bits cfg .Q_CFG_SVC) b (s.windows n) (s.queueVec n q)
          let j := if (svcOps j.svc).contains j.op then j else { j with result := some { status := 1 } }
          let s := s.setReg .Q_SQ [n, q] (putBits r .Q_SQ_HEAD (head + 1))
          let s := { s with slices := { s.slices with jobs := s.slices.jobs ++ [j], jobNext := s.slices.jobNext + 1 } }
          s.pump n q pumpFuel

/-! ### Sharing the engines (R303) -/

/-- The engine of an operation: 0 DMA, 1 AES, 2 SHA-2, 3 SHA-3, 4 DEFLATE, 5 ECDSA, 6 ML-DSA, 7 RECORD, 8 transmit. -/
def Job.engine (j : Job) : Nat :=
  if j.svc = 1 then 0
  else if j.svc = 2 then
    if j.op ≤ 2 then 1 else if j.op ≤ 0x12 then 2 else if j.op ≤ 0x15 then 3 else if j.op ≤ 0x21 then 5 else 6
  else if j.svc = 3 then 4
  else if j.svc = 6 then 7
  else 8

/-- Input bytes of a descriptor. A FILL has no input; its output counts (log entry 32). -/
def Job.bytes (j : Job) : Nat := if j.svc = 1 ∧ j.op = 2 then j.dstLen else j.len

/-- A descriptor may start: nothing orders it after an earlier one (R292, R301). -/
def State.mayStart (s : State) (j : Job) : Bool :=
  let before := s.slices.jobs.takeWhile fun k => k.id != j.id
  j.result.isNone &&
  (!(j.fence || j.svc == 6) || !(before.any fun k => k.slice == j.slice && k.q == j.q)) &&
  (j.svc != 6 || !(before.any fun k => k.slice == j.slice && k.svc == 6 && k.dst == j.dst &&
    (k.result.isNone || k.commit.isSome || !s.durable k.waits)))

/-- The slices with descriptors that may start and wait for an engine. One that an earlier descriptor holds back, of a queue
whose completion ring is full say, keeps no other slice waiting (R293, R308). -/
def State.waitingSlices (s : State) (e : Nat) : List Nat :=
  (s.slices.jobs.filter fun j => s.mayStart j && j.engine == e && j.svc != 5).foldl (fun l j => insertRising j.slice l) []

def State.weight (s : State) (n : Nat) : Nat := s.fld .SLICE_GRANT_BW [n] .SLICE_GRANT_BW_WEIGHT

/-- A slice has used its cap in the current window. -/
def State.capped (s : State) (e n : Nat) : Bool :=
  let cap := s.fld .SLICE_GRANT_BW [n] .SLICE_GRANT_BW_CAP
  cap != 0 && decide (cap * 160 ≤ s.slices.used.get 0 (e * 8192 + n))

def State.creditOf (s : State) (e n : Nat) : Int := s.slices.credit.get 0 (e * 8192 + n)

/-- The rounds that pass until one of the slices that wait has credit: those at weight 0 or at their cap take none; none when
no slice takes any. -/
def State.roundsDue (s : State) (e unit : Nat) (l : List Nat) : Option Nat :=
  ((l.filter fun m => s.weight m != 0 && !s.capped e m).map fun m => (-(s.creditOf e m)).toNat / (s.weight m * unit) + 1).foldl
    (fun b r => some (match b with | some x => min x r | none => r)) none

/-- The credit that starts a descriptor of a slice at an engine: held, or given by the rounds that begin when no waiting
slice has credit left, a shortfall carried from each into the next; none while the slice must wait. A weight changed acts
from the next round (R304). -/
def State.startCredit (s : State) (e n : Nat) : Option State :=
  let others := (s.waitingSlices e).filter fun m => m != n
  let unit := if e = 5 ∨ e = 6 then 1 else 4096
  let all := insertRising n others
  if 0 < s.creditOf e n then some s
  else if others.any fun m => decide (0 < s.creditOf e m) then none
  else if s.weight n = 0 then (if (others.any fun m => s.weight m != 0) || s.capped e n then none else some s)
  else match s.roundsDue e unit all with
    | none => none
    | some r =>
      let give (s : State) (m : Nat) : State :=
        if s.weight m = 0 ∨ s.capped e m then s
        else
          let credit := s.slices.credit.set 0 (e * 8192 + m) (s.creditOf e m + (r * s.weight m * unit : Nat))
          { s with slices := { s.slices with credit := credit } }
      let s := all.foldl give s
      if 0 < s.creditOf e n then some s else none

/-- A started descriptor is charged to its slice; one that started without credit, at weight 0, owes none. -/
def State.charge (s : State) (j : Job) : State :=
  let e := j.engine
  let k := e * 8192 + j.slice
  let cost : Int := if e = 5 ∨ e = 6 then 1 else (j.bytes : Int)
  let credit := if 0 < s.creditOf e j.slice then s.slices.credit.set 0 k (s.creditOf e j.slice - cost) else s.slices.credit
  { s with slices := { s.slices with credit := credit, used := s.slices.used.set 0 k (s.slices.used.get 0 k + j.bytes) } }

/-! ### Ranges (R289, R295) -/

/-- A byte range a descriptor names: address, length, read, written. -/
structure Rng where
  iova : Nat
  len : Nat
  r : Bool
  w : Bool
  deriving DecidableEq, Repr

def Rng.overlap (a b : Rng) : Bool := decide (0 < a.len) && decide (0 < b.len) &&
  decide (a.iova < b.iova + b.len) && decide (b.iova < a.iova + a.len)

/-- Two ranges overlap where one is written. -/
def clash : List Rng → Bool
  | [] => false
  | a :: l => (l.any fun b => a.overlap b && (a.w || b.w)) || clash l

/-- The physical addresses of the ranges; none when one fails its windows. -/
def Job.ranges (j : Job) (l : List Rng) : Option (List Nat) :=
  l.mapM fun a => if a.len = 0 then some 0 else winFind j.wins a.iova a.len a.r a.w

/-- A new grant, or the end of an old one, is counted in SLICE_GEN and told to the tenant (R304). -/
def State.bumpGen (s : State) (n : Nat) : State :=
  (s.setFld .SLICE_GEN [n] .SLICE_GEN_GEN (s.fld .SLICE_GEN [n] .SLICE_GEN_GEN + 1)).sliceVec n 0

/-- At a douse the engine fetches no more and abandons what is in flight (R310). -/
def State.sliceDouse (s : State) : State :=
  { s with slices := { s.slices with jobs := [], stopped := true } }

end Sys2Proof.Machine
end

