-- ==== Sys2Proof/Machine/FsiBox.lean ====
section
/-! DEFINITION. The mailboxes of the Fetas Service Interface as the mailbox unit and the slice engine hold them (R341 to
R346, R356). Mailbox m is a control mailbox; 8 + n is the mailbox of slice n. -/

namespace Sys2Proof.Machine

/-- FETAS_UP. -/
def State.fetasUp (s : State) : Bool := flag (s.reg .FSI_STATUS) .FSI_STATUS_FETAS_UP

/-- The request window of a mailbox. -/
def State.boxWords (s : State) (box : Nat) : List Nat :=
  (List.range 16).map fun w => (if box < 8 then s.reg .REQ_MSG [box, w] else s.reg .OUT_MSG [box - 8, w]).toNat

/-- A response, or an event of a slice, may be posted: its window is empty. -/
def State.boxFree (s : State) (box : Nat) : Bool :=
  if box < 8 then !flag (s.reg .FSI_MBX_STAT [box]) .FSI_MBX_STAT_RSP_FULL
  else !flag (s.reg .MBX_STAT [box - 8]) .MBX_STAT_IN_FULL

/-- REQ_BUSY or OUT_BUSY. -/
def State.boxBusy (s : State) (box : Nat) : Bool :=
  if box < 8 then flag (s.reg .FSI_MBX_STAT [box]) .FSI_MBX_STAT_REQ_BUSY
  else flag (s.reg .MBX_STAT [box - 8]) .MBX_STAT_OUT_BUSY

/-- Clear REQ_BUSY or OUT_BUSY. -/
def State.boxClear (s : State) (box : Nat) : State :=
  if box < 8 then s.setFld .FSI_MBX_STAT [box] .FSI_MBX_STAT_REQ_BUSY 0
  else s.setFld .MBX_STAT [box - 8] .MBX_STAT_OUT_BUSY 0

/-- Write the 16 words of a window. -/
def State.putWords (s : State) (r : Reg) (i : Nat) (ws : List Nat) : State :=
  (List.range 16).foldl (fun s w => s.setReg r [i, w] (BitVec.ofNat 64 (ws.getD w 0 % 2 ^ 32))) s

/-- Post a response (R341, R342). -/
def State.boxPost (s : State) (box : Nat) (ws : List Nat) : State :=
  if box < 8 then (s.putWords .RSP_MSG box ws).setFld .FSI_MBX_STAT [box] .FSI_MBX_STAT_RSP_FULL 1
  else (s.putWords .IN_MSG (box - 8) ws).inRing (box - 8)

/-- The mailbox unit answers a ring itself while FETAS_UP is 0 (R356). -/
def State.boxAuto (s : State) (box : Nat) : State :=
  if s.fetasUp || !s.boxFree box then s
  else (s.boxClear box).boxPost box [(s.boxWords box).headD 0 % 2 ^ 24 + 2 ^ 26, 1]

/-- A mailbox has rung: it comes last in the order of rings (R352). -/
def State.rung (s : State) (box : Nat) : State := { s with fsi := { s.fsi with rings := s.fsi.rings.erase box ++ [box] } }

/-- A ring of a control mailbox (R341, R343). -/
def State.reqRing (s : State) (m : Nat) : State :=
  let s := s.setFld .FSI_MBX_COUNT [m] .FSI_MBX_COUNT_REQ (s.fld .FSI_MBX_COUNT [m] .FSI_MBX_COUNT_REQ + 1)
  if s.boxBusy m then s.setFld .FSI_MBX_STAT [m] .FSI_MBX_STAT_OVERRUN 1
  else ((s.setFld .FSI_MBX_STAT [m] .FSI_MBX_STAT_REQ_BUSY 1).rung m).boxAuto m

/-- A ring of the outbound doorbell of a slice (R285, R356). -/
def State.slcRing (s : State) (n : Nat) : State :=
  match s.outRing n with
  | (true, s) => if flag (s.reg .SLICE_FAR [n]) .SLICE_FAR_FAR then s else (s.rung (8 + n)).boxAuto (8 + n)
  | (false, s) => s

end Sys2Proof.Machine
end

