-- ==== Sys2Proof/Machine/Halyard.lean ====
section
/-! DEFINITION. The Halyard router and its rings (R481 to R484), trigger pins (R485), trace tokens (R487) and the halting
of a core (R492). -/

namespace Sys2Proof.Machine

/-! ### Rings -/

/-- Bytes used of a ring (R483). -/
def State.hyUsed (s : State) (r : Nat) : Nat :=
  let size := 2 ^ s.fld .HY_RING_CTL [r] .HY_RING_CTL_SIZE
  let wp := s.reg .HY_RING_WP [r]
  let rp := s.reg .HY_RING_RP [r]
  let w := bits wp .HY_RING_WP_OFFSET + size * b2n (flag wp .HY_RING_WP_WRAP)
  let p := bits rp .HY_RING_RP_OFFSET + size * b2n (flag rp .HY_RING_RP_WRAP)
  (w + 2 * size - p) % (2 * size)

/-- The 64 bytes of a frame (R481). -/
def TraceFrame.bytes (f : TraceFrame) : Bytes :=
  leBytes (f.seq % 65536 * 2 ^ 16 + b2n f.loss * 2 ^ 14 + f.body.length * 2 ^ 8 + f.source) 4 ++ f.body ++
    zeros (60 - f.body.length)

/-- A frame is dropped (R484): the ring counts it, and its core is still to be told. -/
def State.hyDrop (s : State) (c : Fin 64) (r : Nat) : State :=
  (s.countFld .HY_RING_DROP [r] .HY_RING_DROP_FRAMES).updTrace c fun t => { t with noticeDue := true }

/-- Write a frame at WP and advance WP once it is visible (R483); false when the write must wait. -/
def State.hyPut (s : State) (r : Nat) (f : TraceFrame) : Bool × State :=
  let size := 2 ^ s.fld .HY_RING_CTL [r] .HY_RING_CTL_SIZE
  let wp := s.reg .HY_RING_WP [r]
  let off := bits wp .HY_RING_WP_OFFSET
  match s.ioWrite ((s.reg .HY_RING_BASE [r]).toNat + off) f.bytes [] 17 with
  | (none, s) => (false, s)
  | (some _, s) =>
    let wp := if off + 64 < size then putBits wp .HY_RING_WP_OFFSET (off + 64)
      else putBits (putBits wp .HY_RING_WP_OFFSET 0) .HY_RING_WP_WRAP (1 - b2n (flag wp .HY_RING_WP_WRAP))
    (true, s.setReg .HY_RING_WP [r] wp)

/-- The oldest frame of a core reaches the Halyard (R484): lossy treats a full ring as a lossy one does; false when it is
held or must wait. -/
def State.hyArrive (s : State) (c : Fin 64) (lossy : Bool) : Bool × State :=
  let k := s.core c
  match k.trace.frames with
  | [] => (false, s)
  | f :: rest =>
    let r := k.fld .TRC_RING .TRC_RING_RING
    let ctl := s.reg .HY_RING_CTL [r]
    let pop (s : State) : State := s.updTrace c fun t => { t with frames := rest }
    if !s.pdUp 105 then (false, s)
    else if !flag (k.reg .TRC_RING) .TRC_RING_VALID || !flag ctl .HY_RING_CTL_EN then (true, (pop s).hyDrop c r)
    else if s.hyUsed r < 2 ^ bits ctl .HY_RING_CTL_SIZE then
      match s.hyPut r f with
      | (true, s) => (true, pop s)
      | (false, s) => (false, s)
    else if flag ctl .HY_RING_CTL_LOSSLESS && !lossy then (false, s)
    else (true, (pop s).hyDrop c r)

/-- Every frame of a core is sent, as before a furl or a migration (R488). -/
def State.hyFlush (s : State) (c : Fin 64) : Nat → State
  | 0 => s
  | fuel + 1 =>
    match s.hyArrive c true with
    | (true, s) => s.hyFlush c fuel
    | (false, s) => s

/-- TRACE_FRAME_ARRIVE (R482 to R484). -/
def execTraceFrameArrive (c : CoreId) (s : State) : Host.Outcome State Fault Refusal := ok (s.hyArrive c false).2

/-- TRACE_LOSS_NOTICE (R484): the core learns of a dropped frame. -/
def execTraceLossNotice (c : CoreId) (s : State) : Host.Outcome State Fault Refusal :=
  if !(s.core c).trace.noticeDue then ok s
  else ok (s.updCore c fun k =>
    { (k.setFld .TRC_STAT [] .TRC_STAT_LOSS 1) with trace := { k.trace with noticeDue := false, lossMark := true, syncFrame := true } })

/-- TRACE_IDLE_FLUSH (R481): nothing was added for 1 µs, and the partial frame is sent. -/
def execTraceIdleFlush (c : CoreId) (s : State) : Host.Outcome State Fault Refusal :=
  ok (if (s.core c).tracing then s.traceFlush c else s)

/-- Comparators of KIND 5 that an edge of TRIG_IN_n makes true (R485). -/
def Core.trigHits (k : Core) (n : Nat) : BitVec 8 :=
  (List.range 8).foldl (fun (m : BitVec 8) j =>
    let r := k.reg .TCMP_CFG [j]
    if bits r .TCMP_CFG_KIND = 5 ∧ bits r .TCMP_CFG_ARG % 4 = n then m ||| BitVec.ofNat 8 (2 ^ j) else m) 0

/-- TRIG_IN_EDGE (R485): an edge of TRIG_IN_n reaches every core: events 0x6D to 0x6F, and comparators of KIND 5. -/
def execTrigInEdge (n : Fin 4) (s : State) : Host.Outcome State Fault Refusal :=
  ok ((List.range 64).foldl (fun s i =>
    let c := Fin.ofNat 64 i
    if (s.core c).run == .off then s else
    let s := if n.val < 3 then s.event c (0x6D + n.val) else s
    s.seqEdge c ((s.core c).trigHits n.val)) s)

/-- Level of pin TRIG_OUT_k (R485). -/
def State.trigOut (s : State) (k : Nat) : Bool :=
  (s.reg .HY_CTL).getLsbD k || s.cores.any fun e => e.2.run != .off && (bits e.2.tsAct .TSEQ_ACT_TOUT).testBit k

/-! ### Tokens (R370, R487) -/

/-- TRC_AUTH of a core from the live tokens that cover it. -/
def State.tokenWord (s : State) (c : Fin 64) : Word :=
  (s.fe.tokens.filter fun t => t.mask.getLsbD c.val).foldl (fun (w : Word) t =>
    let w := if t.all then putBits w .TRC_AUTH_ALLV 1 else putBits w .TRC_AUTH_VMID t.vmid
    let w := if t.k then putBits w .TRC_AUTH_K 1 else w
    let w := if t.h then putBits w .TRC_AUTH_H 1 else w
    if t.sealedOk then putBits w .TRC_AUTH_SEALED 1 else w) 0

/-- A core leaves a halt; one halted in a WFI waits on, unless its condition has come (R275). -/
def State.unhalt (s : State) (c : Fin 64) : State :=
  (s.updCore c fun k => if k.run = .halted then { k with run := if k.inWfi then .wfi else .running, inWfi := false } else k).wakeCheck c

/-- A halted core goes on, and a pending request to halt ends. -/
def State.dbgResume (s : State) (c : Fin 64) : State := (s.unhalt c).updCore c fun k => { k with haltReq := false }

/-- Fetas writes TRC_AUTH of every core from the live tokens; a core whose halt no token admits any more resumes. -/
def State.applyTokens (s : State) : State :=
  (List.range 64).foldl (fun s i =>
    let c := Fin.ofNat 64 i
    if (s.core c).run == .off then s else
    let old := (s.core c).reg .TRC_AUTH
    let s := s.updCore c fun k => k.setReg .TRC_AUTH [] (s.tokenWord c)
    if old != s.tokenWord c && !s.admits c then s.dbgResume c else s) s

/-- A token ends: its authorisation is withdrawn, and a Ratline session that holds it ends (R487, R491). -/
def State.endToken (s : State) (n : Nat) : State :=
  let s := { s with fe := { s.fe with tokens := s.fe.tokens.filter fun t => t.num != n },
                    jtag := if s.jtag.token = some n then { s.jtag with token := none } else s.jtag }
  s.applyTokens

/-- TOKEN_EXPIRY (R370, R487). -/
def execTokenExpiry (t : BitVec 32) (s : State) : Host.Outcome State Fault Refusal :=
  match s.fe.tokens.find? fun x => x.num == t.toNat && decide (x.ends ≤ s.time) with
  | none => ok s
  | some _ => ok ((s.endToken t.toNat).feEvent 0x0B80 [t.toNat])

/-! ### Halt, step and resume (R492) -/

/-- The write of DBG_CTL of a core. -/
def State.wDbgCtl (s : State) (c : Fin 64) (v : Word) : State :=
  let k := s.core c
  if k.run == .off then s else
  let s := if v.getLsbD 0 && k.run != .halted then (s.updCore c fun k => { k with haltReq := true }).haltCheck c else s
  let s := if v.getLsbD 1 && (s.core c).run == .halted then (s.unhalt c).updCore c fun k => { k with haltReq := true } else s
  if v.getLsbD 2 then s.dbgResume c else s

end Sys2Proof.Machine
end

