-- ==== Sys2Proof/Machine/Record.lean ====
section
/-! DEFINITION. The dual-bank record format (R418 to R420). -/

namespace Sys2Proof.Machine

def recMagic : Nat := 0x59444C50

/-- The 32-byte header with its CRC field as given (R418). -/
def recHeader (kind seq len crc : Nat) : Bytes :=
  toLe recMagic 4 ++ toLe 1 2 ++ toLe kind 2 ++ toLe seq 8 ++ toLe len 4 ++ toLe crc 4 ++ zeros 8

def recCrc (kind seq : Nat) (payload : Bytes) : Nat := (crc32c (recHeader kind seq payload.length 0 ++ payload)).toNat

/-- The commit word (R418). -/
def recCommit (kind seq : Nat) (payload : Bytes) : Nat := seq % 2 ^ 32 * 2 ^ 32 + recCrc kind seq payload

/-- The payload length of a bank of a size whose first bytes are these, when they are the header of a record (R419). -/
def recHead (kind size : Nat) (h : Bytes) : Option Nat :=
  let f (off len : Nat) : Nat := leNat (piece h off len)
  if size < 128 ∨ f 0 4 ≠ recMagic ∨ f 4 2 ≠ 1 ∨ f 6 2 ≠ kind ∨ size < f 16 4 + 96 ∨ f 24 8 ≠ 0 then none else some (f 16 4)

/-- The sequence number and payload of a bank, when it is valid (R419). -/
def recBank (kind : Nat) (b : Bytes) : Option (Nat × Bytes) :=
  let f (off len : Nat) : Nat := leNat (piece b off len)
  match recHead kind b.length b with
  | none => none
  | some len =>
    let p := piece b 32 len
    if f 20 4 = recCrc kind (f 8 8) p ∧ f (b.length - 64) 8 = recCommit kind (f 8 8) p then some (f 8 8, p) else none

/-- The valid bank a reader takes: bank B or not, its sequence number and its payload (R419). -/
def recNewest (kind : Nat) (a b : Bytes) : Option (Bool × Nat × Bytes) :=
  match recBank kind a, recBank kind b with
  | some x, some y => if x.1 < y.1 then some (true, y) else some (false, x)
  | some x, none => some (false, x)
  | none, some y => some (true, y)
  | none, none => none

/-- The bank a writer writes, B or not, and its sequence number (R420). -/
def recNext (kind : Nat) (a b : Bytes) : Bool × Nat :=
  match recNewest kind a b with
  | some (inB, seq, _) => (!inB, seq + 1)
  | none => (false, 1)

end Sys2Proof.Machine
end

