-- ==== Sys2Proof/Machine/Slice.lean ====
section
/-! DEFINITION. The services of the slice engine (R292, R297 to R303). A service command names the slice, the queue and
the position of the descriptor among the queue's fetched descriptors. -/

namespace Sys2Proof.Machine

/-- n free bytes. -/
def State.freshBytes (s : State) : Nat → Bytes × State
  | 0 => ([], s)
  | n + 1 =>
    let (b, s) := s.freshBytes n
    let (w, s) := s.fresh
    (w.setWidth 8 :: b, s)

/-- A free number up to n. -/
def State.freshUpTo (s : State) (n : Nat) : Nat × State :=
  let (w, s) := s.fresh
  (w.toNat % (n + 1), s)

/-- What an operation ends with: none while it must wait. -/
abbrev JobAns := Option (Cpl × State)

/-- Read an input (R306, R307) and go on with its bytes. -/
def State.withIn (s : State) (j : Job) (pa len : Nat) (k : Bytes → State → JobAns) : JobAns :=
  if len = 0 then k [] s else
  match s.ioRead pa len 16 (s.slicePid j.slice) with
  | (.wait, _) => none
  | (.bus, s) => some ({ status := 4 }, s)
  | (.ok d p, s) => if p.any id then some ({ status := 3 }, s.sliceErr j.slice j.q 9) else k d s

/-- Write an output of an operation that ends with a status. -/
def State.putOut (s : State) (j : Job) (pa : Nat) (d : Bytes) (status : Nat) (result : Word) (p : List Bool := []) : JobAns :=
  match s.ioWrite pa d p 16 (s.slicePid j.slice) with
  | (none, _) => none
  | (some false, s) => some ({ status := 4 }, s)
  | (some true, s) => some ({ status := status, outLen := d.length, result := result }, s)

/-- Write an output that may be too long: then OVERFLOW, with a free part of it written (R296, R299); of a COPY that met poison
the status is POISON all the same (R307). -/
def State.putFit (s : State) (j : Job) (pa : Nat) (d : Bytes) (result : Word) (status : Nat := 0) (p : List Bool := []) :
    JobAns :=
  if j.dstLen < d.length then
    let (k, s) := s.freshUpTo j.dstLen
    s.putOut j pa (d.take k) (if status = 3 then 3 else 5) 0 p
  else s.putOut j pa d status result p

/-- An input of another length than the operation needs: nothing is written, and the status is free (log entry 33). -/
def State.badLength (s : State) : JobAns :=
  let (k, s) := s.freshUpTo 12
  some ({ status := k + 1 }, s)

/-- Run a descriptor: the checks every operation shares, then the operation. rngs: its ranges; zeroed: a field it does
not use is nonzero; fit: the domain of its engine is on. -/
def State.runJob (s : State) (n q i svc op : Nat) (rngs : Job → List Rng) (unused : Job → Bool) (fit keyOk : Job → State → Bool)
    (act : Job → List Nat → State → JobAns) : State :=
  match (s.queueJobs n q)[i]? with
  | none => s
  | some j =>
    if j.svc ≠ svc ∨ j.op ≠ op ∨ !s.pdUp 103 ∨ !s.mayStart j then s.pump n q pumpFuel
    else
      match s.startCredit j.engine n with
      | none => s
      | some s1 =>
        let s1 := s1.charge j
        let done (c : Cpl) (s : State) : State :=
          ((s.updJob j.id fun j => { j with result := some c }).pump n q pumpFuel).pumpDurable
        if j.rsv || unused j || clash (rngs j) then done { status := 1 } s1
        else if !fit j s then done { status := 9 } s1
        else
          match j.ranges (rngs j) with
          | none => done { status := 2 } s1
          | some pas =>
            if !keyOk j s then done { status := 7 } s1
            else
              match act j pas s1 with
              | none => s
              | some (c, s) =>
                let outs := ((rngs j).zip pas).filter fun p => p.1.w && !(mramSecs p.2 p.1.len).isEmpty
                -- a record's header must be durable even when its payload is empty (R301)
                if outs.isEmpty ∨ (c.outLen = 0 ∧ ¬(svc = 6 ∧ op = 1 ∧ c.status = 0)) then done c s
                else
                  let s := outs.foldl (fun s p => s.ioClean (s.slicePid n) p.2 p.1.len) s
                  let w := s.probeWaits
                  done c (s.updJob j.id fun j => { j with waits := w })

def Job.rSrc (j : Job) : Rng := ⟨j.src, j.len, true, false⟩
def Job.rAux (j : Job) : Rng := ⟨j.aux, j.auxLen, true, false⟩
def Job.wDst (j : Job) : Rng := ⟨j.dst, j.dstLen, false, true⟩

def always (_ : Job) (_ : State) : Bool := true
def cryptoOn (_ : Job) (s : State) : Bool := s.pdUp 104

/-! ### DMA (R297) -/

/-- COPY. -/
def execCopy (n : Fin 8192) (q : Fin 64) (i : Fin 4) (s : State) : Host.Outcome State Fault Refusal :=
  ok (s.runJob n.val q.val i.val 1 1 (fun j => [j.rSrc, j.wDst])
    (fun j => j.auxLen != 0 || j.aux != 0 || j.key != 0 || j.param != 0) always always
    fun j pas s =>
      let dst := pas.getD 1 0
      if j.len = 0 then s.putFit j dst [] 0 else
      match s.ioRead (pas.getD 0 0) j.len 16 (s.slicePid n.val) with
      | (.wait, _) => none
      | (.bus, s) => some ({ status := 4 }, s)
      | (.ok d p, s) =>
        let bad := p.any id
        (s.putFit j dst d 0 (if bad then 3 else 0) p).map fun r =>
          (r.1, if bad then r.2.sliceErr n.val q.val 9 else r.2))

/-- FILL. -/
def execFill (n : Fin 8192) (q : Fin 64) (i : Fin 4) (s : State) : Host.Outcome State Fault Refusal :=
  ok (s.runJob n.val q.val i.val 1 2 (fun j => [j.wDst])
    (fun j => j.len != 0 || j.src != 0 || j.auxLen != 0 || j.aux != 0 || j.key != 0 || decide (2 ^ 64 ≤ j.param.toNat))
    always always fun j pas s =>
      s.putFit j (pas.getD 0 0) ((List.range j.dstLen).map fun k => BitVec.ofNat 8 (j.param.toNat / 256 ^ (k % 8))) 0)

/-- CRC. -/
def execCrc (n : Fin 8192) (q : Fin 64) (i : Fin 4) (s : State) : Host.Outcome State Fault Refusal :=
  ok (s.runJob n.val q.val i.val 1 3 (fun j => [j.rSrc])
    (fun j => j.dst != 0 || j.dstLen != 0 || j.auxLen != 0 || j.aux != 0 || j.key != 0 || j.param != 0) always always
    fun j pas s => s.withIn j (pas.getD 0 0) j.len fun d s => some ({ status := 0, result := (crc32c d).setWidth 64 }, s))

/-! ### Crypto (R298) -/

/-- The key a descriptor names. -/
def State.jobKey (s : State) (j : Job) : Option SliceKey := if 15 < j.key then none else s.slices.keys.get none (j.slice * 16 + j.key)

def State.aesKey (s : State) (j : Job) : Option Bytes :=
  match s.jobKey j with | some (.aes k) => some k | _ => none
def State.ecKey (s : State) (j : Job) : Option Nat :=
  match s.jobKey j with | some (.ecdsa d) => some d | _ => none
def State.mlKey (s : State) (j : Job) : Option Bytes :=
  match s.jobKey j with | some (.mldsa k) => some k | _ => none

def Job.paramBytes (j : Job) (off len : Nat) : Bytes := piece (toLe j.param.toNat 16) off len

/-- AES-GCM encrypt. -/
def execAesGcmEncrypt (n : Fin 8192) (q : Fin 64) (i : Fin 4) (s : State) : Host.Outcome State Fault Refusal :=
  ok (s.runJob n.val q.val i.val 2 1 (fun j => [j.rSrc, j.wDst, j.rAux]) (fun j => decide (2 ^ 96 ≤ j.param.toNat))
    cryptoOn (fun j s => (s.aesKey j).isSome) fun j pas s =>
      s.withIn j (pas.getD 0 0) j.len fun m s => s.withIn j (pas.getD 2 0) j.auxLen fun a s =>
        s.putFit j (pas.getD 1 0) (gcmEncrypt ((s.aesKey j).getD []) (j.paramBytes 0 12) a m) 0)

/-- AES-GCM decrypt: a tag that does not match writes zeros over the plaintext range. -/
def execAesGcmDecrypt (n : Fin 8192) (q : Fin 64) (i : Fin 4) (s : State) : Host.Outcome State Fault Refusal :=
  ok (s.runJob n.val q.val i.val 2 2 (fun j => [j.rSrc, j.wDst, j.rAux]) (fun j => decide (2 ^ 96 ≤ j.param.toNat))
    cryptoOn (fun j s => (s.aesKey j).isSome) fun j pas s =>
      if j.len < 16 then s.badLength else
      s.withIn j (pas.getD 0 0) j.len fun m s => s.withIn j (pas.getD 2 0) j.auxLen fun a s =>
        match gcmDecrypt ((s.aesKey j).getD []) (j.paramBytes 0 12) a m with
        | some p => s.putFit j (pas.getD 1 0) p 0
        | none => s.putFit j (pas.getD 1 0) (zeros (j.len - 16)) 0 6)

/-- A digest operation. -/
def State.hashJob (s : State) (n : Fin 8192) (q : Fin 64) (i : Fin 4) (op : Nat) (h : Bytes → Bytes) : State :=
  s.runJob n.val q.val i.val 2 op (fun j => [j.rSrc, j.wDst])
    (fun j => j.auxLen != 0 || j.aux != 0 || j.key != 0 || j.param != 0) cryptoOn always
    fun j pas s => s.withIn j (pas.getD 0 0) j.len fun m s => s.putFit j (pas.getD 1 0) (h m) 0

def execSha256 (n : Fin 8192) (q : Fin 64) (i : Fin 4) (s : State) : Host.Outcome State Fault Refusal :=
  ok (s.hashJob n q i 0x10 sha256)
def execSha384 (n : Fin 8192) (q : Fin 64) (i : Fin 4) (s : State) : Host.Outcome State Fault Refusal :=
  ok (s.hashJob n q i 0x11 sha384)
def execSha512 (n : Fin 8192) (q : Fin 64) (i : Fin 4) (s : State) : Host.Outcome State Fault Refusal :=
  ok (s.hashJob n q i 0x12 sha512)
def execSha3256 (n : Fin 8192) (q : Fin 64) (i : Fin 4) (s : State) : Host.Outcome State Fault Refusal :=
  ok (s.hashJob n q i 0x13 (sha3 256))
def execSha3384 (n : Fin 8192) (q : Fin 64) (i : Fin 4) (s : State) : Host.Outcome State Fault Refusal :=
  ok (s.hashJob n q i 0x14 (sha3 384))
def execSha3512 (n : Fin 8192) (q : Fin 64) (i : Fin 4) (s : State) : Host.Outcome State Fault Refusal :=
  ok (s.hashJob n q i 0x15 (sha3 512))

/-- ECDSA P-384 sign. -/
def execEcdsaP384Sign (n : Fin 8192) (q : Fin 64) (i : Fin 4) (s : State) : Host.Outcome State Fault Refusal :=
  ok (s.runJob n.val q.val i.val 2 0x20 (fun j => [j.rSrc, j.wDst])
    (fun j => j.auxLen != 0 || j.aux != 0 || j.param != 0) cryptoOn (fun j s => (s.ecKey j).isSome) fun j pas s =>
      if j.len ≠ 48 then s.badLength else
      s.withIn j (pas.getD 0 0) 48 fun m s => s.putFit j (pas.getD 1 0) (ecdsaSign ((s.ecKey j).getD 1) m) 0)

/-- A verify operation: the digest or message at SRC, the public key at AUX, and the signature read at DST. -/
def State.verifyJob (s : State) (n : Fin 8192) (q : Fin 64) (i : Fin 4) (op pkLen sigLen : Nat) (msgLen : Option Nat)
    (verify : Bytes → Bytes → Bytes → Bool) : State :=
  s.runJob n.val q.val i.val 2 op (fun j => [j.rSrc, ⟨j.dst, j.dstLen, true, false⟩, j.rAux])
    (fun j => j.key != 0 || j.param != 0) cryptoOn always fun j pas s =>
      if j.auxLen ≠ pkLen ∨ j.dstLen ≠ sigLen ∨ (msgLen.any fun l => j.len != l) then s.badLength else
      s.withIn j (pas.getD 0 0) j.len fun m s => s.withIn j (pas.getD 2 0) pkLen fun pk s =>
        s.withIn j (pas.getD 1 0) sigLen fun sig s =>
          some ({ status := if verify pk m sig then 0 else 6 }, s)

/-- ECDSA P-384 verify. -/
def execEcdsaP384Verify (n : Fin 8192) (q : Fin 64) (i : Fin 4) (s : State) : Host.Outcome State Fault Refusal :=
  ok (s.verifyJob n q i 0x21 97 96 (some 48) ecdsaVerify)

/-- Write a signature, or complete with status 0xD when none was found. -/
def State.putSig (s : State) (j : Job) (pa : Nat) : Option (Bytes × Nat) → JobAns
  | none => some ({ status := 0xD }, s)
  | some (sig, k) => s.putFit j pa sig (BitVec.ofNat 64 k)

/-- ML-DSA-65 sign: hedged with 32 free bytes; RETRY after 256 attempts. -/
def execMlDsa65Sign (n : Fin 8192) (q : Fin 64) (i : Fin 4) (s : State) : Host.Outcome State Fault Refusal :=
  ok (s.runJob n.val q.val i.val 2 0x30 (fun j => [j.rSrc, j.wDst])
    (fun j => j.auxLen != 0 || j.aux != 0 || j.param != 0) cryptoOn (fun j s => (s.mlKey j).isSome) fun j pas s =>
      s.withIn j (pas.getD 0 0) j.len fun m s =>
        let (rnd, s) := s.freshBytes 32
        s.putSig j (pas.getD 1 0) (mldsaSign ((s.mlKey j).getD []) rnd m))

/-- ML-DSA-65 verify. -/
def execMlDsa65Verify (n : Fin 8192) (q : Fin 64) (i : Fin 4) (s : State) : Host.Outcome State Fault Refusal :=
  ok (s.verifyJob n q i 0x31 1952 3309 none mldsaVerify)

/-! ### DEFLATE (R299) -/

/-- A compression. -/
def State.compressJob (s : State) (n : Fin 8192) (q : Fin 64) (i : Fin 4) (op : Nat) (dyn : Bool) : State :=
  s.runJob n.val q.val i.val 3 op (fun j => [j.rSrc, j.wDst])
    (fun j => j.auxLen != 0 || j.aux != 0 || j.key != 0 || j.param != 0) cryptoOn always
    fun j pas s => s.withIn j (pas.getD 0 0) j.len fun m s =>
      s.putFit j (pas.getD 1 0) (compressed dyn m) ((crc32c m).setWidth 64)

def execCompressFixed (n : Fin 8192) (q : Fin 64) (i : Fin 4) (s : State) : Host.Outcome State Fault Refusal :=
  ok (s.compressJob n q i 1 false)
def execCompressDynamic (n : Fin 8192) (q : Fin 64) (i : Fin 4) (s : State) : Host.Outcome State Fault Refusal :=
  ok (s.compressJob n q i 2 true)

/-- DECOMPRESS: a malformed or truncated input gives DATA, with a free part of DST written. -/
def execDecompress (n : Fin 8192) (q : Fin 64) (i : Fin 4) (s : State) : Host.Outcome State Fault Refusal :=
  ok (s.runJob n.val q.val i.val 3 3 (fun j => [j.rSrc, j.wDst])
    (fun j => j.auxLen != 0 || j.aux != 0 || j.key != 0 || j.param != 0) cryptoOn always
    fun j pas s => s.withIn j (pas.getD 0 0) j.len fun m s =>
      match inflate m with
      | some (d, used, _) => s.putFit j (pas.getD 1 0) d (BitVec.ofNat 64 (used * 2 ^ 32 + (crc32c d).toNat))
      | none =>
        let (k, s) := s.freshUpTo j.dstLen
        let (d, s) := s.freshBytes k
        s.putOut j (pas.getD 1 0) d 0xA 0)

/-! ### Records (R301) -/

def Job.banks (j : Job) (w : Bool) : List Rng := [⟨j.dst, j.dstLen, true, w⟩, ⟨j.aux, j.dstLen, true, w⟩]

/-- The bytes of a bank that its validity rests on, the others as zeros: its header, and where that is one of a record, the
payload and the commit word (R301, R419). -/
def State.withBank (s : State) (j : Job) (pa : Nat) (k : Bytes → State → JobAns) : JobAns :=
  s.withIn j pa 32 fun h s =>
    match recHead 0x20 j.dstLen h with
    | none => k (h ++ zeros (j.dstLen - 32)) s
    | some len => s.withIn j (pa + 32) len fun p s => s.withIn j (pa + j.dstLen - 64) 8 fun c s =>
        k (h ++ p ++ zeros (j.dstLen - 96 - len) ++ c ++ zeros 56) s

/-- RECORD write: the bank that is not newest gets header and payload; its commit word follows once they are durable. -/
def execRecordSvcWrite (n : Fin 8192) (q : Fin 64) (i : Fin 4) (s : State) : Host.Outcome State Fault Refusal :=
  ok (s.runJob n.val q.val i.val 6 1 (fun j => j.rSrc :: j.banks true)
    (fun j => j.auxLen != 0 || j.key != 0 || j.param != 0) always always fun j pas s =>
      let a := pas.getD 1 0
      let b := pas.getD 2 0
      let whole (pa : Nat) : Bool := inMram pa && decide (pa + j.dstLen ≤ mramEnd)
      if !whole a || !whole b then some ({ status := 0xC }, s)
      else if j.dstLen < 128 ∨ j.dstLen % 64 ≠ 0 ∨ j.dstLen < j.len + 96 then s.badLength
      else
        s.withBank j a fun ba s => s.withBank j b fun bb s => s.withIn j (pas.getD 0 0) j.len fun m s =>
          let (inB, seq) := recNext 0x20 ba bb
          let pa := if inB then b else a
          let crc := recCrc 0x20 seq m
          (s.putOut j pa (recHeader 0x20 seq m.length crc ++ m) 0 (BitVec.ofNat 64 seq)).map fun r =>
            if r.1.status ≠ 0 then r else
            let c := { r.1 with outLen := m.length }
            (c, r.2.updJob j.id fun j => { j with commit := some (pa + j.dstLen - 64, recCommit 0x20 seq m) }))

/-- RECORD read. -/
def execRecordSvcRead (n : Fin 8192) (q : Fin 64) (i : Fin 4) (s : State) : Host.Outcome State Fault Refusal :=
  ok (s.runJob n.val q.val i.val 6 2
    (fun j => ⟨j.param.toNat % 2 ^ 64, j.len, false, true⟩ :: j.banks false)
    (fun j => j.auxLen != 0 || j.src != 0 || j.key != 0 || decide (2 ^ 64 ≤ j.param.toNat)) always always fun j pas s =>
      let a := pas.getD 1 0
      let b := pas.getD 2 0
      let whole (pa : Nat) : Bool := inMram pa && decide (pa + j.dstLen ≤ mramEnd)
      if !whole a || !whole b then some ({ status := 0xC }, s)
      else
        s.withBank j a fun ba s => s.withBank j b fun bb s =>
          match recNewest 0x20 ba bb with
          | none => some ({ status := 0xB }, s)
          | some (_, seq, m) => s.putFit { j with dstLen := j.len } (pas.getD 0 0) m (BitVec.ofNat 64 seq))

/-! ### Fetch and sharing -/

/-- An error that the engine meets in its own state as it turns to a queue (R306, R308, R309): a corrected one is logged; one of
the queue's state stops the queue, with ERRKIND INTERNAL; one of the state common to all slices is a machine check to Fetas. -/
def State.engineErr (s : State) (n q : Nat) : EngineErr → State
  | .corrected => (s.seErr n 1).fetchDesc n q
  | .queue => (s.queueErr n q 0xA).seErr n 2
  | .common => (s.seErr n 3).report (.unitCheck 0)

/-- DESCRIPTOR_FETCH (R292; log entry 97). -/
def execDescriptorFetch (n : Fin 8192) (q : FetchAt) (s : State) : Host.Outcome State Fault Refusal :=
  ok (match q.err with
    | none => s.fetchDesc n.val q.q.val
    | some e => if s.pdUp 103 then s.engineErr n.val q.q.val e else s)

/-- BW_CAP_WINDOW: a 10 µs window ends and every slice's engine bytes start again. -/
def execBwCapWindow (s : State) : Host.Outcome State Fault Refusal :=
  ok { s with slices := { s.slices with used := [] } }

end Sys2Proof.Machine
end

