-- ==== Sys2Proof/Machine/Net.lean ====
section
/-! DEFINITION. The network switch (R311 to R323, R335): reception, filtering, learning, forwarding, gates and
transmission, redundancy instances, frame replication, and the virtual ports of the slices. A frame is its bytes from
the destination address to the last byte before the FCS; its length counts the 4 bytes of the FCS (log entry 36). -/

namespace Sys2Proof.Machine

/-! ### Frames -/

/-- A frame from its bytes. -/
def Eth.parse (b : Bytes) (rx stamp : Nat) : Option Eth :=
  if b.length < 14 then none
  else
    let tagged := decide (beNat (piece b 12 2) = 0x8100) && decide (18 ≤ b.length)
    let tci := beNat (piece b 14 2)
    some { dst := beNat (piece b 0 6), src := beNat (piece b 6 6),
           tag := if tagged then some (tci / 8192, tci % 4096) else none, dei := tagged && tci.testBit 12,
           body := if tagged then b.drop 16 else b.drop 12, rx := rx, stamp := stamp }

def Eth.bytes (e : Eth) : Bytes :=
  toBe e.dst 6 ++ toBe e.src 6 ++
    (match e.tag with | some (p, v) => [0x81, 0] ++ toBe (p * 8192 + b2n e.dei * 4096 + v) 2 | none => []) ++ e.body

/-- Length on the wire, FCS included. -/
def Eth.len (e : Eth) : Nat := e.bytes.length + 4

def Eth.etherType (e : Eth) : Nat := beNat (e.body.take 2)

def Eth.multicast (e : Eth) : Bool := (e.dst / 2 ^ 40).testBit 0

/-! ### Ports (R311, R314) -/

/-- The power domain of an external port. -/
def portPd (p : Nat) : Nat := if p < 2 then 99 else if p < 10 then 100 else 101

def portLimit (p : Nat) : Nat := if p = 10 ∨ p = 11 then 1522 else 9216

/-- A port is enabled in a mode other than off. -/
def State.portSet (s : State) (p : Nat) : Bool := flag (s.reg .PORT_CFG [p]) .PORT_CFG_EN && s.fld .PORT_CFG [p] .PORT_CFG_MODE != 0

/-- An external port receives and sends: its domain and the switch's are on, and it and the switch are enabled. -/
def State.portOn (s : State) (p : Nat) : Bool :=
  s.pdUp 98 && s.pdUp (portPd p) && flag (s.reg .SW_CTL) .SW_CTL_EN && s.portSet p

/-- Count one in a counter of a receiving external port; virtual ports have none. -/
def State.portCount (s : State) (r : Reg) (p : Nat) : State := if p < 12 then s.countFld r [p] ⟨31, 0⟩ else s

def State.vport (s : State) (p : Nat) : VPort := s.sw.vports.get {} (p - 16)

/-- A VID is a member VLAN of a port. -/
def State.member (s : State) (p vid : Nat) : Bool :=
  if p < 12 then s.sw.tables.members.any fun e => e.1 == vid && e.2.contains p else (s.vport p).members.contains vid

/-- The VID of a frame at its receiving port. -/
def State.vidOf (s : State) (e : Eth) : Nat :=
  match e.tag with
  | some (_, v) => if v = 0 then pvid else v
  | none => pvid
where pvid : Nat := if e.rx < 12 then s.fld .PORT_CFG [e.rx] .PORT_CFG_PVID else (s.vport e.rx).pvid

/-- The traffic class of a frame (R316). -/
def State.classOf (s : State) (e : Eth) : Nat :=
  match e.tag with
  | some (p, _) => p
  | none => if e.rx < 12 then s.fld .PORT_CFG [e.rx] .PORT_CFG_PRI else 0

def State.setSw (s : State) (f : Switch → Switch) : State := { s with sw := f s.sw }

def State.swQueue (s : State) (p c : Nat) : List Eth := s.sw.queues.get [] (p * 8 + c)
def State.setQueue (s : State) (p c : Nat) (l : List Eth) : State :=
  s.setSw fun w => { w with queues := w.queues.set [] (p * 8 + c) l }

/-- Bytes of frame memory (R316). -/
def frameMem : Nat := 4 * 2 ^ 20

/-- Bytes of frame memory a class of a port may hold; without a plan's share, the whole frame memory (R316). -/
def State.share (s : State) (p c : Nat) : Nat :=
  ((s.sw.tables.shares.find? fun e => e.1 == p * 8 + c).map fun e => e.2).getD frameMem

/-- Bytes of frame memory a port may hold; without a plan's share, the whole frame memory (R316). -/
def State.portShare (s : State) (p : Nat) : Nat :=
  ((s.sw.tables.portShares.find? fun e => e.1 == p).map fun e => e.2).getD frameMem

/-- Bytes of frame memory in use, of the queues whose keys pass. -/
def State.memUsed (s : State) (f : Nat → Bool) : Nat :=
  (s.sw.queues.map fun e => if f e.1 then (e.2.map Eth.len).sum else 0).sum

/-- A frame of some bytes finds room in its class's share, its port's, and the frame memory (R316). -/
def State.fits (s : State) (p c n : Nat) : Bool :=
  decide (s.memUsed (fun k => k == p * 8 + c) + n ≤ s.share p c) && decide (s.memUsed (fun k => k / 8 == p) + n ≤ s.portShare p) &&
    decide (s.memUsed (fun _ => true) + n ≤ frameMem)

/-! ### Virtual ports (R300) -/

/-- The oldest posted buffer of a slice. -/
def State.posted (s : State) (n : Nat) : Option Job :=
  s.slices.jobs.find? fun j => j.slice == n && j.svc == 5 && j.posted && j.result.isNone

/-- The next frame queued at a port, highest class first. -/
def State.nextFrame (s : State) (p : Nat) : Option (Nat × Eth) :=
  (List.range 8).reverse.findSome? fun c => ((s.swQueue p c).head?).map fun e => (c, e)

/-- The newest entries of a bounded table. -/
def lastN {α : Type} (n : Nat) (l : List α) : List α := l.drop (l.length - n)

/-- The PTP message of a frame behind an HSR or a redundancy tag: its place in the body and its bytes. -/
def Eth.ptp (e : Eth) : Option (Nat × Bytes) :=
  let k := if e.etherType = 0x892F ∨ e.etherType = 0xF1C1 then 6 else 0
  let m := e.body.drop (k + 2)
  if beNat (piece e.body k 2) ≠ 0x88F7 ∨ m.length < 34 then none else some (k, m)

/-- Ports 10 and 11 stamp in two steps only (R322). -/
def twoStepPort (p : Nat) : Bool := p == 10 || p == 11

/-- A PTP message with ns added to its correction field, and its two-step flag set or as it is. -/
def Eth.corrected (e : Eth) (ns : Nat) (flag : Bool := false) : Eth :=
  match e.ptp with
  | none => e
  | some (k, m) =>
    let c := (beNat (piece m 8 8) + ns * 2 ^ 16) % 2 ^ 64
    { e with body := e.body.take (k + 8) ++ [if flag then m.getD 6 0 ||| 2 else m.getD 6 0, m.getD 7 0] ++ toBe c 8 ++ m.drop 16 }

/-- The follow-up that a two-step port makes for an event message that came in the one-step form, with the residence time (log
entry 101). -/
def Eth.followUp (e : Eth) (p now : Nat) : Option Eth :=
  match e.ptp with
  | none => none
  | some (k, m) =>
    let kind := (m.getD 0 0).toNat % 16
    if !twoStepPort p || (kind != 0 && kind != 3) || (m.getD 6 0).getLsbD 1 then none
    else some { e with body := e.body.take (k + 2) ++ [m.getD 0 0 ||| (if kind = 0 then 8 else 9)] ++ piece m 1 7 ++
                               toBe ((now - e.stamp) * 2 ^ 16 % 2 ^ 64) 8 ++ m.drop 16 }

/-- The residence times owed under some keys are paid. -/
def Switch.payResidence (w : Switch) (keys : List (Nat × Nat × Nat)) : Nat × Switch :=
  let mine (r : Nat × Nat × Nat × Nat) : Bool := keys.contains (r.1, r.2.1, r.2.2.1)
  (((w.residence.filter mine).map fun r => r.2.2.2).sum, { w with residence := w.residence.filter fun r => !mine r })

/-- Transparent-clock correction of the event messages that leave by a port, and of the messages that carry the correction of a
two-step form (R323; log entry 101). -/
def State.ptpCorrect (s : State) (p : Nat) (e : Eth) : Eth × State :=
  match e.ptp with
  | none => (e, s)
  | some (_, m) =>
    let kind := (m.getD 0 0).toNat % 16
    let id := beNat (piece m 30 2)
    let src := beNat (piece m 20 10)
    let asker := beNat (piece m 44 10)
    let stay := s.time - e.stamp
    let two := (m.getD 6 0).getLsbD 1
    let pay (s : State) (keys : List (Nat × Nat × Nat)) (ns : Nat) (setTwo : Bool := false) : Eth × State :=
      let r := s.sw.payResidence keys
      (e.corrected (r.1 + ns) setTwo, s.setSw fun _ => r.2)
    let owe (s : State) : State := s.setSw fun w => { w with residence := lastN 64 (w.residence ++ [(p * 16 + kind, src, id, stay)]) }
    match kind with
    | 0 => if two then (e, owe s) else pay s [] (if twoStepPort p then 0 else stay) (twoStepPort p)
    | 1 | 2 => if twoStepPort p then (e, owe s) else pay s [] stay
    | 3 =>
      if two then (e, owe s)
      else pay s [(e.rx * 16 + 2, asker, id)] (if twoStepPort p then 0 else stay) (twoStepPort p)
    | 8 => pay s [(p * 16, src, id)] 0
    | 9 => pay s [(e.rx * 16 + 1, asker, id)] 0
    | 10 => pay s [(p * 16 + 3, src, id), (e.rx * 16 + 2, asker, id)] 0
    | _ => (e, s)

/-- Frames of a virtual port fill the oldest posted buffers; one that is too long is dropped and counted. -/
def State.vportPump (s : State) (n : Nat) : Nat → State
  | 0 => s
  | fuel + 1 =>
    match s.posted n, s.nextFrame (16 + n) with
    | some j, some (c, e) =>
      let pop (s : State) : State := s.setQueue (16 + n) c ((s.swQueue (16 + n) c).drop 1)
      let e := (s.ptpCorrect (16 + n) e).1
      let d := e.bytes
      if j.dstLen < d.length then ((pop s).portCount .CNT_DROP_LEN e.rx).vportPump n fuel
      else
        match winFind j.wins j.dst j.dstLen false true with
        | none => ((s.updJob j.id fun j => { j with result := some { status := 2 } }).pump n j.q pumpFuel).vportPump n fuel
        | some pa =>
          match s.ioWrite pa d [] 16 (s.slicePid n) with
          | (none, _) => s
          | (some okWrite, s) =>
            let s := (pop s).ioClean (s.slicePid n) pa d.length
            let c : Cpl := if okWrite then { status := 0, outLen := d.length, result := BitVec.ofNat 64 e.stamp } else { status := 4 }
            let w := if (mramSecs pa d.length).isEmpty then [] else s.probeWaits
            ((s.updJob j.id fun j => { j with result := some c, waits := w }).pump n j.q pumpFuel).vportPump n fuel
    | _, _ => s

/-! ### Egress -/

/-- Put a frame into the queue of a class of an egress port; the class is the frame's where it came in (R316). A frame too long
for the port, or one that finds a share or the frame memory full, is dropped and counted at its receiving port. -/
def State.enqueue (s : State) (p c : Nat) (e : Eth) : State :=
  let q := s.swQueue p c
  if portLimit p < e.len then s.portCount .CNT_DROP_LEN e.rx
  else if !s.fits p c e.len then s.portCount .CNT_DROP_FULL e.rx
  else
    let s := s.setQueue p c (q ++ [e])
    if p < 16 then s else s.vportPump (p - 16) ((s.slices.jobs.length) + q.length + 2)

/-! ### Redundancy instances (R320, R321) -/

def State.redun (s : State) (i : Nat) : Redun := s.sw.redun.get {} i
def State.setRedun (s : State) (i : Nat) (r : Redun) : State := s.setSw fun w => { w with redun := w.redun.set {} i r }

/-- The instance that an external port serves, with its mode 1 HSR or 2 PRP. -/
def State.instOf (s : State) (p : Nat) : Option (Nat × Nat) :=
  if p < 4 then
    let m := s.fld .HSR_CFG [p / 2] .HSR_CFG_MODE
    if m = 1 ∨ m = 2 then some (p / 2, m) else none
  else none

/-- A frame leaves by an instance: both copies carry the next sequence number. -/
def State.redunSend (s : State) (i m c : Nat) (e : Eth) : State :=
  let r := s.redun i
  let s := s.setRedun i { r with seq := (r.seq + 1) % 2 ^ 16, own := lastN 1024 (r.own ++ [(e.src, r.seq)]) }
  let copy (lan : Nat) : Eth :=
    if m = 1 then { e with body := toBe 0x892F 2 ++ toBe (lan * 4096 + (e.body.length + 4) % 4096) 2 ++ toBe r.seq 2 ++ e.body }
    else { e with body := e.body ++ toBe r.seq 2 ++ toBe ((0xA + lan) * 4096 + (e.body.length + 4) % 4096) 2 ++ toBe 0x88FB 2 }
  (s.enqueue (2 * i) c (copy 0)).enqueue (2 * i + 1) c (copy 1)

/-- The sequence number and the frame without its HSR tag or PRP trailer. -/
def Eth.redunTag (e : Eth) (m : Nat) : Option (Nat × Eth) :=
  if m = 1 then
    if e.etherType = 0x892F ∧ 8 ≤ e.body.length then some (beNat (piece e.body 4 2), { e with body := e.body.drop 6 }) else none
  else
    let k := e.body.length - 6
    if 8 ≤ e.body.length ∧ beNat (e.body.drop (k + 4)) = 0x88FB then
      some (beNat (piece e.body k 2), { e with body := e.body.take k }) else none

/-- The forwarding entries: the static ones of the plan, and the dynamic ones (R313). -/
def State.fdbAll (s : State) : List Fdb :=
  (s.sw.tables.statics.map fun x => { vid := x.1, mac := x.2.1, port := x.2.2, static := true }) ++ s.sw.fdb

/-- A frame is for an address behind another port than an instance's pair. -/
def State.local? (s : State) (i vid dst : Nat) : Bool :=
  s.fdbAll.any fun f => f.vid == vid && f.mac == dst && f.port / 2 != i

/-- A path of an instance is lost or restored: Fetas reports it (R321). -/
def State.pathReport (s : State) (i p : Nat) (up : Bool) : State :=
  let s := { s with fe := { s.fe with pathLost := s.fe.pathLost.set none p (if up then none else some s.time),
                                      pathOut := if up then s.fe.pathOut.erase p else s.fe.pathOut } }
  ((s.feEvent 0x0682 [i + 2 * b2n (!up)]).pulse (40 + i)).healthEval

/-- A node is heard by a port of an instance: the node table, and a path that had fallen silent is back (R321). -/
def State.redunHeard (s : State) (i src x : Nat) : State :=
  let r := s.redun i
  let heard := (r.nodes.find? fun n => n.1 == src).getD (src, none, none)
  let heard := if x = 0 then (src, some s.time, heard.2.2) else (src, heard.2.1, some s.time)
  let back := r.lost.contains x
  let s := s.setRedun i { r with nodes := lastN 512 ((r.nodes.filter fun n => n.1 != src) ++ [heard]), lost := r.lost.erase x }
  if back then s.pathReport i (2 * i + x) true else s

/-- The other copy of a frame arrives at port A at the instant at which port B's was kept: A's is kept in its place (R321). -/
def State.redunPrefer (s : State) (e : Eth) : State :=
  let f (x : Eth) : Eth := if x.rx = e.rx + 1 ∧ x.stamp = s.time ∧ x.src = e.src ∧ x.dst = e.dst then { x with rx := e.rx } else x
  let s := s.setSw fun w => { w with queues := w.queues.map fun q => (q.1, q.2.map f) }
  let learnt : Fdb := { vid := s.vidOf e, mac := e.src, port := e.rx + 1, age := s.time }
  if flag (s.reg .PORT_CFG [e.rx]) .PORT_CFG_LEARN then
    s.setSw fun w => { w with fdb := w.fdb.map fun x => if x = learnt then { x with port := e.rx } else x }
  else s

/-- An instance receives a frame: a returning one is removed, the ring's other port forwards it, and a duplicate is
discarded. The frame goes on into the switch without its tag. -/
def State.redunReceive (s : State) (i m : Nat) (e : Eth) : Option Eth × State :=
  let s := s.redunHeard i e.src (e.rx % 2)
  match e.redunTag m with
  | none => (some e, s)
  | some (seq, inner) =>
    let r := s.redun i
    if m = 1 ∧ r.own.contains (e.src, seq) then (none, s)
    else
      let s := if m = 1 ∧ (e.multicast ∨ !s.local? i (s.vidOf e) e.dst) then s.enqueue (e.rx + 1 - 2 * (e.rx % 2)) (s.classOf e) e else s
      let r := s.redun i
      if r.dups.any fun d => d.1 == e.src && d.2.1 == seq then
        (none, if (e.rx % 2 == 0 && r.fromB.contains (e.src, seq, s.time)) then s.redunPrefer inner else s)
      else
        let fromB := (if e.rx % 2 = 1 then [(e.src, seq, s.time)] else []) ++ r.fromB.filter fun x => x.2.2 == s.time
        (some inner, s.setRedun i { r with dups := lastN 1024 (r.dups ++ [(e.src, seq, s.time)]), fromB := fromB })

/-! ### Stream filtering and FRER (R318, R319) -/

def StreamId.matches (i : StreamId) (e : Eth) (vid : Nat) : Bool :=
  i.vid == vid && i.mac == (if i.bySource then e.src else e.dst)

/-- The colour a meter gives a frame (R318; log entry 101). -/
inductive Colour where
  | green | yellow | red
  deriving DecidableEq, Repr

/-- A meter at an instant, before it meets a frame: its buckets, in bits times nanoseconds per second. -/
def State.meterFill (s : State) (k : Nat) (m : Meter) : Bucket :=
  let unit := 8 * 10 ^ 9
  let b := (SMap.find k s.sw.buckets).getD { c := m.cbs * unit, e := m.ebs * unit, at' := s.time }
  let dt := s.time - b.at'
  let c := b.c + m.cir * dt
  let spill := if m.cf then c - m.cbs * unit else 0
  { b with c := min (m.cbs * unit) c, e := min (m.ebs * unit) (b.e + m.eir * dt + spill), at' := s.time }

/-- A meter colours a frame (R318). -/
def State.meterColour (s : State) (k : Nat) (m : Meter) (bytes : Nat) (yellow : Bool) : Colour × State :=
  let b := s.meterFill k m
  let need := bytes * (8 * 10 ^ 9)
  let put (b : Bucket) : State := s.setSw fun w => { w with buckets := SMap.insert k b w.buckets }
  if b.red then (.red, put b)
  else if need ≤ b.c ∧ !(m.cm && yellow) then (.green, put { b with c := b.c - need })
  else if need ≤ b.e then (.yellow, put { b with e := b.e - need })
  else (.red, put { b with red := m.allRed })

/-- A meter passes a frame, marked drop eligible when it is yellow, unless it is red, or yellow where such frames are dropped
(R318). -/
def State.meterPass (s : State) (k : Nat) (m : Meter) (e : Eth) : Option Eth × State :=
  match s.meterColour k m e.len e.dei with
  | (.green, s) => (some e, s)
  | (.yellow, s) => (if m.dropYellow then none else some { e with dei := true }, s)
  | (.red, s) => (none, s)

/-- Per-stream filtering at an external port (R318): the first filter that matches decides. -/
def State.streamPass (s : State) (e : Eth) (vid : Nat) : Option Eth × State :=
  let hit (f : StreamFilter) : Bool := f.id.matches e vid && (f.port.all fun p => p == e.rx) &&
    (f.pcp.all fun p => p == s.classOf e)
  match s.sw.tables.filters.find? hit with
  | none => (some e, s)
  | some f =>
    let gateOpen := match f.gate with
      | none => true
      | some g => match s.sw.tables.gates[g]? with
        | none => true
        | some l => match l.entries[(s.sw.sgate.get (0, 0) g).1]? with
          | some x => x.1
          | none => true
    if !gateOpen || (f.maxLen.any fun m => decide (m < e.len)) then (none, s)
    else match f.meter.bind fun k => (s.sw.tables.meters[k]?).map fun m => (k, m) with
      | none => (some e, s)
      | some (k, m) => s.meterPass k m e

/-- Vector recovery (R319): a number within the history is accepted once; one beyond it is discarded. -/
def FrerState.take (h : Nat) (f : FrerState) (seq : Nat) : Bool × FrerState :=
  if f.takeAny then (true, { takeAny := false, seq := seq, seen := [] })
  else
    let d := (seq + 2 ^ 16 - f.seq) % 2 ^ 16
    if d = 0 then (false, f)
    else if d < 2 ^ 15 then
      if h ≤ d then (false, f)
      else (true, { f with seq := seq, seen := (d :: f.seen.map fun x => x + d).filter fun x => decide (x < h) })
    else
      let back := 2 ^ 16 - d
      if h ≤ back ∨ f.seen.contains back then (false, f) else (true, { f with seen := back :: f.seen })

/-- Sequence recovery of a frame that carries a redundancy tag; none when it is a duplicate. -/
def State.frerRecover (s : State) (e : Eth) (vid : Nat) : Option Eth × State :=
  if e.etherType ≠ 0xF1C1 then (some e, s) else
  match (s.sw.tables.recs.zipIdx).find? fun r => r.1.id.matches e vid with
  | none => (some e, s)
  | some (r, i) =>
    let (good, f) := (s.sw.frer.get {} i).take r.history (beNat (piece e.body 4 2))
    let f := if good then { f with last := s.time } else f
    let s := s.setSw fun w => { w with frer := w.frer.set {} i f }
    (if good then some { e with body := e.body.drop 6 } else none, s)

/-- Sequence generation: the tagged frame and the ports it is replicated onto. -/
def State.frerGenerate (s : State) (e : Eth) (vid : Nat) : Option (Eth × List Nat) × State :=
  match (s.sw.tables.gens.zipIdx).find? fun g => g.1.id.matches e vid with
  | none => (none, s)
  | some (g, i) =>
    let seq := s.sw.frerSeq.get 0 i
    let s := s.setSw fun w => { w with frerSeq := w.frerSeq.set 0 i ((seq + 1) % 2 ^ 16) }
    (some ({ e with body := toBe 0xF1C1 2 ++ toBe 0 2 ++ toBe seq 2 ++ e.body }, g.ports.take 4), s)

/-! ### Learning and forwarding (R313, R315) -/

/-- The bucket of an address. -/
def fdbBucket (vid mac : Nat) : Nat := (crc32c (toBe vid 2 ++ toBe mac 6)).toNat % 4096

/-- Learn a source address. -/
def State.learn (s : State) (vid : Nat) (e : Eth) : State :=
  if !(decide (e.rx < 12) && flag (s.reg .PORT_CFG [e.rx]) .PORT_CFG_LEARN) then s
  else
    let known := s.fdbAll.find? fun f => f.vid == vid && f.mac == e.src
    match known with
    | some f =>
      -- of two learns at one instant the lower port is recorded (R315)
      if f.static ∨ (f.age = s.time ∧ f.port < e.rx) then s
      else s.setSw fun w => { w with fdb := w.fdb.map fun x => if x = f then { x with port := e.rx, age := s.time } else x }
    | none =>
      if 8 ≤ s.fdbAll.countP fun f => fdbBucket f.vid f.mac == fdbBucket vid e.src then s.portCount .CNT_LEARN_FULL e.rx
      else s.setSw fun w => { w with fdb := w.fdb ++ [{ vid := vid, mac := e.src, port := e.rx, age := s.time }] }

/-- Every port that has a VID as member VLAN. -/
def State.vlanPorts (s : State) (vid : Nat) : List Nat :=
  ((List.range 12).filter fun p => s.member p vid) ++
    (s.sw.vports.filter fun v => v.2.members.contains vid).map fun v => 16 + v.1

/-- The egress ports of a frame. -/
def State.egress (s : State) (vid : Nat) (e : Eth) : List Nat :=
  let all := (s.vlanPorts vid).filter fun p => p != e.rx
  if e.multicast then
    let reg := s.fdbAll.filter fun f => f.vid == vid && f.mac == e.dst
    if reg.isEmpty then all else (reg.map fun f => f.port).filter fun p => p != e.rx
  else
    match s.fdbAll.find? fun f => f.vid == vid && f.mac == e.dst with
    | some f => if f.port = e.rx then [] else if s.member f.port vid then [f.port] else []
    | none => all

/-- Send a frame out of a set of ports: tagged by the untag set of the VLAN, untagged to a virtual port, and once to a
redundancy instance. -/
def State.sendOut (s : State) (vid : Nat) (e : Eth) (ports : List Nat) : State :=
  let c := s.classOf e
  ports.foldl (fun s p =>
    let bare := decide (16 ≤ p) || s.sw.tables.untag.any fun u => u.1 == vid && u.2.contains p
    let f := { e with tag := if bare then none else some (c, vid) }
    match s.instOf p with
    | some (i, m) =>
      if p % 2 = 1 ∧ ports.contains (p - 1) then s
      else if e.rx / 2 = i ∧ e.rx < 12 then s
      else s.redunSend i m c f
    | none => s.enqueue p c f) s

/-- A frame inside the switch: ingress filtering, stream filtering, recovery, generation, look-up, learning and
forwarding. -/
def State.switchFrame (s : State) (e : Eth) : State :=
  let vid := s.vidOf e
  if !s.member e.rx vid then s.portCount .CNT_DROP_VLAN e.rx
  else
    match (if e.rx < 12 then s.streamPass e vid else (some e, s)) with
    | (none, s) => s
    | (some e, s) =>
      let paired := (s.instOf e.rx).isSome
      let (kept, s) := if paired then (some e, s) else s.frerRecover e vid
      match kept with
      | none => s
      | some e =>
        let (gen, s) := s.frerGenerate e vid
        let ports := s.egress vid e
        let s := s.learn vid e
        match gen with
        | some (f, ps) => s.sendOut vid f (ps.filter fun p => (s.instOf p).isNone)
        | none => s.sendOut vid e ports

/-- FRAME_RECEIVE (R311, R313): a frame reaches an external port; good tells whether its FCS is.
With the switch off there is no counter. -/
def execFrameReceive (p : Fin 12) (frame : List Byte) (good : Bool) (s : State) : Host.Outcome State Fault Refusal :=
  let p := p.val
  if !s.pdUp 98 then ok s
  else if !s.portOn p then ok (s.portCount .CNT_DROP_OFF p)
  else
    let s := s.portCount .CNT_RX p
    if portLimit p < frame.length + 4 then ok (s.portCount .CNT_DROP_LEN p)
    else if !good then ok (s.portCount .CNT_DROP_FCS p)
    else
      match Eth.parse frame p s.time with
      | none => ok (s.portCount .CNT_DROP_LEN p)
      | some e =>
        match s.instOf p with
        | none => ok (s.switchFrame e)
        | some (i, m) =>
          match s.redunReceive i m e with
          | (none, s) => ok s
          | (some e, s) => ok (s.switchFrame e)

/-! ### Gates and transmission (R317, R322, R335) -/

def State.qbv (s : State) (p : Nat) : Qbv := s.sw.qbv.get {} p
def State.setQbv (s : State) (p : Nat) (q : Qbv) : State := s.setSw fun w => { w with qbv := w.qbv.set {} p q }

/-- The end of entry i within a cycle, as an offset, and whether the cycle ends there. -/
def GateList.endOf (l : GateList) (i : Nat) : Nat × Bool :=
  let t := ((l.entries.take (i + 1)).map fun e => e.2).sum
  if l.entries.length ≤ i + 1 ∨ l.cycle ≤ t then (l.cycle, true) else (t, false)

def GateList.open? (l : GateList) (i c : Nat) : Bool := ((l.entries[i]?).map fun e => e.1.getLsbD c).getD true

/-- The instant at which a gate that is open in entry i closes. -/
def GateList.closes (l : GateList) (c : Nat) : Nat → Nat → Nat → Option Nat
  | 0, _, _ => none
  | fuel + 1, i, start =>
    let (t, last) := l.endOf i
    let (i', start') := if last then (0, start + l.cycle) else (i + 1, start)
    if l.open? i' c then GateList.closes l c fuel i' start' else some (start + t)

/-- Picoseconds a byte takes at the speed of a port. -/
def State.bytePs (s : State) (p : Nat) : Nat :=
  match s.fld .PORT_STATUS [p] .PORT_STATUS_SPEED with
  | 1 => 800000
  | 2 => 8000
  | _ => 320

/-- A class of a port may start its frame now (R317). -/
def State.gateAdmits (s : State) (p c : Nat) (e : Eth) : Bool :=
  let q := s.qbv p
  if !flag (s.reg .QBV_CTL [p]) .QBV_CTL_EN then true
  else match q.oper with
    | none => true
    | some l =>
      -- before its first cycle start a resumed list leaves the gates open
      let soon := decide (s.time < q.start)
      (soon || l.open? q.cur c) &&
        (match (if soon && !l.open? q.cur c then some q.start else l.closes c (2 * l.entries.length + 2) q.cur q.start) with
        | none => true
        | some t => decide (s.time * 1000 + (e.len + 20) * s.bytePs p ≤ t * 1000))

/-- FRAME_TRANSMIT (R316, R317, R322): the port starts the frame of the highest class whose gate admits it whole. -/
def execFrameTransmit (p : Fin 12) (s : State) : Host.Outcome State Fault Refusal :=
  let p := p.val
  if !s.portOn p || !flag (s.reg .PORT_STATUS [p]) .PORT_STATUS_LINK then ok s
  else
    let pick := (List.range 8).reverse.findSome? fun c =>
      match s.swQueue p c with
      | e :: rest => if s.gateAdmits p c e then some (c, e, rest) else none
      | [] => none
    match pick with
    | none => ok s
    | some (c, e, rest) =>
      let (e, s) := (s.setQueue p c ((e.followUp p s.time).toList ++ rest)).ptpCorrect p e
      ok ((s.portCount .CNT_TX p).setSw fun w => { w with lastTx := some (p, e.bytes), txStamp := w.txStamp.set 0 p s.time })

/-- FDB_AGEING (R313): a dynamic entry whose age has passed FDB_AGE is removed. -/
def execFdbAgeing (vid : BitVec 12) (mac : BitVec 48) (s : State) : Host.Outcome State Fault Refusal :=
  let limit := s.fld .FDB_AGE [] .FDB_AGE_SECONDS * 10 ^ 9
  ok (s.setSw fun w => { w with fdb := w.fdb.filter fun f =>
    f.vid != vid.toNat || f.mac != mac.toNat || decide (s.time < f.age + limit) })

/-- Every dynamic entry is removed. -/
def State.fdbFlush (s : State) : State := s.setSw fun w => { w with fdb := [] }

/-- A write of QBV_BASE_HI commits the administrative list as the pending one (R335). -/
def State.qbvCommit (s : State) (p : Nat) : State :=
  let n := s.fld .QBV_CTL [p] .QBV_CTL_ADMIN_LEN
  let l : GateList :=
    { entries := (List.range n).map fun e =>
        (BitVec.ofNat 8 (s.fld .QBV_GATES [p, e] .QBV_GATES_GATES), (s.reg .QBV_IVL [p, e]).toNat),
      cycle := s.fld .QBV_CYCLE [p] .QBV_CYCLE_NS,
      base := (s.reg .QBV_BASE_HI [p]).toNat * 2 ^ 32 + (s.reg .QBV_BASE_LO [p]).toNat }
  (s.setQbv p { s.qbv p with pend := some l, since := s.time }).setFld .QBV_CTL [p] .QBV_CTL_PEND 1

/-- The first cycle start of a list at or after an instant and its base time. -/
def GateList.nextStart (l : GateList) (t : Nat) : Nat := l.base + (max t l.base - l.base + l.cycle - 1) / l.cycle * l.cycle

/-- EN is set: a pending list waits for its cycle start from now; with none pending, the operational list resumes at its next
cycle start, until when the gates stay open (R335; log entry 36). -/
def State.qbvResume (s : State) (p : Nat) : State :=
  let q := s.qbv p
  match q.pend, q.oper with
  | some l, _ => s.setQbv p { q with since := s.time, cur := 0, start := l.nextStart s.time }
  | none, some l => s.setQbv p { q with cur := 0, start := l.nextStart s.time }
  | none, none => s

/-- QBV_CHANGEOVER (R317, R335): the pending list becomes operational at a cycle start at or after its base time. -/
def execQbvChangeover (p : Fin 12) (s : State) : Host.Outcome State Fault Refusal :=
  let p := p.val
  let q := s.qbv p
  match q.pend with
  | none => ok s
  | some l =>
    let due := l.nextStart q.since
    if !flag (s.reg .QBV_CTL [p]) .QBV_CTL_EN || decide (s.time < due) || !s.pdUp 98 then ok s
    else
      let start := due + (s.time - due) / l.cycle * l.cycle
      let s := s.setQbv p { pend := none, oper := some l, cur := 0, start := start }
      let r := putBits (putBits (s.reg .QBV_CTL [p]) .QBV_CTL_PEND 0) .QBV_CTL_OPER_LEN l.entries.length
      ok ((s.setReg .QBV_CTL [p] r).pulse (16 + p))

/-- QBV_ENTRY_EXPIRY (R335): the interval of the entry in force has ended, while gate control is in force. -/
def execQbvEntryExpiry (p : Fin 12) (s : State) : Host.Outcome State Fault Refusal :=
  let q := s.qbv p.val
  match q.oper with
  | none => ok s
  | some l =>
    let (t, last) := l.endOf q.cur
    if s.time < q.start + t ∨ !flag (s.reg .QBV_CTL [p.val]) .QBV_CTL_EN then ok s
    else ok (s.setQbv p.val (if last then { q with cur := 0, start := q.start + l.cycle } else { q with cur := q.cur + 1 }))

/-- STREAM_GATE_ENTRY_EXPIRY (R318): the interval of the entry in force has ended. A list begins at device time 0 (log
entry 35). -/
def execStreamGateEntryExpiry (g : Fin 256) (s : State) : Host.Outcome State Fault Refusal :=
  match s.sw.tables.gates[g.val]? with
  | none => ok s
  | some l =>
    let (i, t) := s.sw.sgate.get (0, 0) g.val
    match l.entries[i]? with
    | none => ok s
    | some e =>
      if s.time < t + e.2 then ok s
      else ok (s.setSw fun w => { w with
        sgate := w.sgate.set (0, 0) g.val (if l.entries.length ≤ i + 1 then 0 else i + 1, t + e.2) })

/-- FRER_RESET_TIMEOUT (R319): a recovery function that has accepted nothing for its timeout takes any number next. -/
def execFrerResetTimeout (f : Fin 512) (s : State) : Host.Outcome State Fault Refusal :=
  match s.sw.tables.recs[f.val]? with
  | none => ok s
  | some r =>
    if s.time < (s.sw.frer.get {} f.val).last + r.timeout * 10 ^ 6 then ok s
    else ok (s.setSw fun w => { w with frer := w.frer.set {} f.val {} })

/-- DUPLICATE_ENTRY_FORGET (R321): entries older than EntryForgetTime are forgotten. -/
def execDuplicateEntryForget (i : Fin 2) (s : State) : Host.Outcome State Fault Refusal :=
  let t := s.fld .HSR_CFG [i.val] .HSR_CFG_FORGET * 10 ^ 6
  let r := s.redun i.val
  ok (s.setRedun i.val { r with dups := r.dups.filter fun d => decide (s.time < d.2.2 + t) })

/-- A port of an instance by which no node of the table has been heard for three LifeCheckIntervals, while some has been by the
other, has lost its LAN or its side of the ring (R321; log entry 101). -/
def State.redunSilent (s : State) (i : Nat) : State :=
  let r := s.redun i
  let lately (t : Option Nat) : Bool := t.any fun t => decide (s.time < t + 3 * s.fld .HSR_CFG [i] .HSR_CFG_LIFECHECK * 10 ^ 6)
  let hears (x : Nat) : Bool := r.nodes.any fun n => lately (if x = 0 then n.2.1 else n.2.2)
  [0, 1].foldl (fun s x =>
    if hears (1 - x) && !hears x && !r.lost.contains x then
      (s.setRedun i { s.redun i with lost := (s.redun i).lost ++ [x] }).pathReport i (2 * i + x) false
    else s) s

/-- SUPERVISION_FRAME_SEND (R321): due every LifeCheckInterval. -/
def execSupervisionFrameSend (i : Fin 2) (s : State) : Host.Outcome State Fault Refusal :=
  match s.instOf (2 * i.val) with
  | none => ok s
  | some (_, m) =>
    let r := s.redun i.val
    if s.time < r.supNext then ok s else
    let s := s.setRedun i.val { r with supSeq := (r.supSeq + 1) % 2 ^ 16,
                                       supNext := s.time + s.fld .HSR_CFG [i.val] .HSR_CFG_LIFECHECK * 10 ^ 6 }
    let mac := toBe Config.nodeMac 6
    let body := toBe 0x88FB 2 ++ toBe 1 2 ++ toBe r.supSeq 2 ++ [if m = 1 then 23 else 20, 6] ++ mac ++ zeros 34
    let e : Eth := { dst := 0x01154E000100, src := beNat mac, tag := none, body := body, rx := 12, stamp := s.time }
    ok ((s.redunSend i.val m (s.classOf e) e).redunSilent i.val)

/-- A link goes up or down (R311, R321): a redundancy instance reports the path. -/
def State.linkChange (s : State) (p : Nat) (up : Bool) (speed : Nat) (amp : Bool) : State :=
  let r := s.reg .PORT_STATUS [p]
  let r := putBits (putBits (putBits (putBits r .PORT_STATUS_LINK (b2n up)) .PORT_STATUS_LINK_CHG 1) .PORT_STATUS_SPEED speed)
    .PORT_STATUS_AMP (b2n (amp && (p == 10 || p == 11)))
  let s := (s.setReg .PORT_STATUS [p] r).pulse p
  match s.instOf p with
  | some (i, _) => (s.setRedun i { s.redun i with lost := (s.redun i).lost.erase (p % 2) }).pathReport i p up
  | none => s

/-- LINK_CHANGE: a link comes up at a port that is enabled in a mode, and goes down at any. -/
def execLinkChange (p : Fin 12) (up : Bool) (amp : Bool) (s : State) : Host.Outcome State Fault Refusal :=
  if !s.pdUp 98 || !s.pdUp (portPd p.val) || (up && !s.portSet p.val) ||
      flag (s.reg .PORT_STATUS [p.val]) .PORT_STATUS_LINK == up then ok s
  else ok (s.linkChange p.val up (if up then if p.val < 2 then 3 else if p.val < 10 then 2 else 1 else 0) amp)

/-- T1L_MSE_UPDATE (R312): the mean-square error of the last millisecond in 1/4,096 of the limit; twenty above it in a
row drop the link. -/
def execT1lMseUpdate (p : Fin 2) (mse : Nat) (s : State) : Host.Outcome State Fault Refusal :=
  let q := 10 + p.val
  if !s.pdUp 101 || !s.pdUp 98 then ok s
  else
    let above := decide (4096 < mse)
    let run := if above then s.sw.mse.get 0 q + 1 else 0
    let s := s.setReg .T1L_DIAG [q] (BitVec.ofNat 64 (b2n above * 2 ^ 16 + min mse 0xFFFF))
    let s := s.setSw fun w => { w with mse := w.mse.set 0 q run }
    ok (if 20 ≤ run ∧ s.fld .PORT_STATUS [q] .PORT_STATUS_LINK = 1 then s.linkChange q false 0 false else s)

/-- APPLY of a PTP clock (R323). -/
def State.ptpApply (s : State) (k : Nat) : State :=
  let ofs := (List.range 3).foldl (fun a i => a + (s.reg .PTP_OFS [k, i]).toNat * 2 ^ (32 * i)) 0
  let s := s.setSw fun w => { w with ptp := w.ptp.set (0, 0) k (s.reg .PTP_RATE [k], BitVec.ofNat 96 ofs) }
  (s.setReg .PTP_COMMIT_LO [k] (BitVec.ofNat 64 (s.time % 2 ^ 32))).setReg .PTP_COMMIT_HI [k]
    (BitVec.ofNat 64 (s.time / 2 ^ 32 % 2 ^ 32))

/-! ### Virtual-port services (R300) -/

/-- SEND. -/
def execSend (n : Fin 8192) (q : Fin 64) (i : Fin 4) (s : State) : Host.Outcome State Fault Refusal :=
  ok (s.runJob n.val q.val i.val 4 1 (fun j => [j.rSrc])
    (fun j => j.dst != 0 || j.dstLen != 0 || j.auxLen != 0 || j.aux != 0 || j.key != 0 || decide (2 ≤ j.param.toNat))
    (fun _ s => s.pdUp 98) always fun j pas s => s.withIn j (pas.getD 0 0) j.len fun d s =>
      let now := s.time
      let c : Cpl := { status := 0, result := if j.param = 1 then BitVec.ofNat 64 now else 0 }
      if 9216 < d.length + 4 ∨ !flag (s.reg .SW_CTL) .SW_CTL_EN then some (c, s)
      else match Eth.parse d (16 + n.val) now with
        | none => some (c, s)
        | some e => some (c, s.switchFrame { e with tag := none, body := d.drop 12 }))

/-- POST: the buffer is posted, and takes a frame that waits. -/
def execPost (n : Fin 8192) (q : Fin 64) (i : Fin 4) (s : State) : Host.Outcome State Fault Refusal :=
  match (s.queueJobs n.val q.val)[i.val]? with
  | none => ok s
  | some j =>
    if j.svc ≠ 5 ∨ j.op ≠ 1 ∨ j.posted ∨ !s.pdUp 103 ∨ !s.mayStart j then ok (s.pump n.val q.val pumpFuel)
    else
      let done (st : Nat) : State := (s.updJob j.id fun j => { j with result := some { status := st } }).pump n.val q.val pumpFuel
      if j.rsv || j.len != 0 || j.src != 0 || j.auxLen != 0 || j.aux != 0 || j.key != 0 || j.param != 0 then ok (done 1)
      else if (j.ranges [j.wDst]).isNone then ok (done 2)
      else
        let s := s.updJob j.id fun j => { j with posted := true }
        ok (if s.pdUp 98 then s.vportPump n.val (s.slices.jobs.length + 1) else s)

end Sys2Proof.Machine
end

