-- ==== Sys2Proof/Machine/Pcie.lean ====
section
/-! DEFINITION. The end of Device loads and stores at a core (R213 to R215), and the PCI Express controller (R324 to
R327). -/

namespace Sys2Proof.Machine

/-! ### Device accesses of a core -/

/-- The target region of a Device access (R215): a unit's block, the slice pages, the QSPI window, a PCI Express window;
memory is one region (log entry 96). -/
def State.devRegion (s : State) (pa : Nat) : Nat :=
  if unitBase ≤ pa ∧ pa < unitEnd then 1 + pa / 2 ^ 24
  else if sliceBase ≤ pa ∧ pa < sliceEnd then 0
  else if qspiBase ≤ pa ∧ pa < qspiEnd then 2 ^ 40
  else if pcieBase ≤ pa ∧ pa < pcieEnd then
    2 ^ 41 + (s.pcie.tables.out.findIdx fun w => decide (w.1 ≤ pa) && decide (pa < w.1 + w.2.1))
  else 2 ^ 42

/-- The response of a Device load reaches its core: the load retires (R213). -/
def State.loadDone (s : State) (c : Fin 64) (v : Nat) : State :=
  let k := s.core c
  match k.devLoad with
  | none => s
  | some d =>
    let s := s.updCore c fun k => { (k.putLoad d.kind d.rd v) with devLoad := none }
    let s := s.traceMem c false d.ea d.size (BitVec.ofNat 64 v)
    s.retire c k.pc (k.pc + 4) (flag (k.reg .STATUS) .STATUS_SS) true

/-- A Device load ends with a bus error: cause 0x0D (R126, R325), behind what comes first at the boundary (R130). -/
def State.loadError (s : State) (c : Fin 64) : State :=
  match (s.core c).devLoad with
  | none => s
  | some d =>
    match (s.updCore c fun k => { k with devLoad := none }).boundary c with
    | (false, s) => s
    | (true, s) => s.raise c { cause := 0x0D, addr := d.ea, info := accInfo false false false false (lg2 d.size) } (s.core c).pc

/-- The older Device stores of a core to a region. -/
def State.devAhead (s : State) (c : Fin 64) (pa : Nat) : Bool := (s.core c).devOut.any fun e => s.devRegion e.pa == s.devRegion pa

def inPcie (pa : Nat) : Bool := decide (pcieBase ≤ pa) && decide (pa < pcieEnd)

/-! ### Outbound (R325) -/

/-- PCI Express is on and enabled. -/
def State.pcieOn (s : State) : Bool := s.pdUp 102 && flag (s.reg .PCIE_CTL) .PCIE_CTL_EN

/-- The controller is an endpoint (R324). -/
def State.pcieEnd (s : State) : Bool := flag (s.reg .PCIE_CTL) .PCIE_CTL_ROLE

def State.setPcie (s : State) (f : Pcie → Pcie) : State := { s with pcie := f s.pcie }

/-- The PCI Express address of a complex address in an outbound window. -/
def State.pcieAddr (s : State) (pa : Nat) : Option Nat :=
  if !s.pcieOn then none
  else (s.pcie.tables.out.find? fun w => decide (w.1 ≤ pa) && decide (pa < w.1 + w.2.1)).map fun w => w.2.2 + (pa - w.1)

/-- The kind with which an access to the windows that meets no window, or a controller that is off, is logged. -/
def State.pcieErrKind (s : State) : Nat := if s.pdUp 102 then 1 else 4

/-- A write of a range of the windows that meets no window, or a controller that is off, is logged; another enters the posted
queue, from which a full one first sends its oldest entry (R325; log entry 37). -/
def State.pciePost (s : State) (stop pa size : Nat) (data : Word) (pid : BitVec 29) : State :=
  match s.pcieAddr pa with
  | none => s.addrErr stop true s.pcieErrKind pa pid
  | some a => s.setPcie fun p =>
    { p with posted := (if 64 ≤ p.posted.length then p.posted.drop 1 else p.posted) ++ [(a, size, data)] }

/-- PCIE_OUTBOUND_WRITE: the i-th injected Device store of a core enters the posted queue and is acknowledged, unless an
older one to its window waits. -/
def execPcieOutboundWrite (c : CoreId) (i : Nat) (s : State) : Host.Outcome State Fault Refusal :=
  let k := s.core c
  match k.devOut[i]? with
  | none => ok s
  | some e =>
    if !inPcie e.pa || (k.devOut.take i).any fun x => s.devRegion x.pa == s.devRegion e.pa then ok s
    else
      ok ((s.setCore c { k with devOut := k.devOut.take i ++ k.devOut.drop (i + 1) }).pciePost (quadStop (quadOf c)) e.pa
        e.size e.data e.pid)

/-- PCIE_OUTBOUND_READ: the outstanding Device load of a core is sent as a read request, which no posted write follows. -/
def execPcieOutboundRead (c : CoreId) (s : State) : Host.Outcome State Fault Refusal :=
  let k := s.core c
  match k.devLoad with
  | none => ok s
  | some d =>
    if !inPcie d.pa || s.devAhead c d.pa || s.pcie.reads.contains c.val then ok s
    else
      match s.pcieAddr d.pa with
      | none => ok ((s.addrErr (quadStop (quadOf c)) false s.pcieErrKind d.pa d.pid).loadDone c 0)
      | some _ => ok (s.setPcie fun p => { p with reads := insertRising c.val p.reads, posted := [] })

/-- An uncorrectable error of a transaction that AER reports as non-fatal: source 70 (R324, R327; log entry 103). -/
def State.aerNonFatal (s : State) : State := s.pulse 70

/-- PCIE_READ_COMPLETION: data, or Unsupported Request or Completer Abort; a poisoned completion is an error too, and one whose
ECRC is wrong is discarded (R324, R325). -/
def execPcieReadCompletion (c : CoreId) (how : CplEnd) (data : BitVec 64) (s : State) : Host.Outcome State Fault Refusal :=
  if !s.pcie.reads.contains c.val then ok s
  else if how.tlp = .badEcrc then ok s.aerNonFatal
  else
    let s := if how.tlp = .poisoned then s.aerNonFatal else s
    let s := s.setPcie fun p => { p with reads := p.reads.erase c.val }
    let size := match (s.core c).devLoad with | some d => d.size | none => 8
    ok (if !how.refused && how.tlp == .good then s.loadDone c (data.toNat % 256 ^ size) else s.loadError c)

/-- PCIE_COMPLETION_TIMEOUT (R325). -/
def execPcieCompletionTimeout (c : CoreId) (s : State) : Host.Outcome State Fault Refusal :=
  if !s.pcie.reads.contains c.val then ok s
  else ok ((s.aerNonFatal.setPcie fun p => { p with reads := p.reads.erase c.val }).loadError c)

/-! ### Inbound (R326, R327) -/

/-- An inbound request is refused: Unsupported Request, logged, sources 70 and 72. -/
def State.pcieRefuse (s : State) (a : Nat) : State :=
  (s.setPcie fun p => { p with errLog := p.errLog ++ [a] }).aerNonFatal.pulse 72

/-- PCIE_MSI_WRITE: a granted value sets its message vector; another is dropped and logged. -/
def execPcieMsiWrite (v : BitVec 32) (s : State) : Host.Outcome State Fault Refusal :=
  if !s.pcieOn then ok s
  else if v.toNat < s.pcie.msi.2 then ok (s.srcSet (1024 + s.pcie.msi.1 + v.toNat))
  else ok (s.setPcie fun p => { p with errLog := p.errLog ++ [v.toNat] })

/-- PCIE_LINK_CHANGE (R324, R327): the negotiated rate and width come with a link that goes up, and exceed none that PCIE_CTL
allows. -/
def execPcieLinkChange (up : Bool) (speed width : Fin 4) (s : State) : Host.Outcome State Fault Refusal :=
  let r := s.reg .PCIE_LINK
  if !s.pcieOn || flag r .PCIE_LINK_UP == up then ok s
  else
    let r := putBits (putBits r .PCIE_LINK_UP (b2n up)) .PCIE_LINK_LINK_CHG 1
    let ctl := s.reg .PCIE_CTL
    let at' (f : Fld) (x : Nat) : Nat := if up then min x (bits ctl f) else 0
    let r := putBits (putBits r .PCIE_LINK_SPEED (at' .PCIE_CTL_SPEED speed.val)) .PCIE_LINK_WIDTH (at' .PCIE_CTL_WIDTH width.val)
    ok ((s.setReg .PCIE_LINK [] r).pulse 68)

end Sys2Proof.Machine
end

