-- ==== Sys2Proof/Machine/LowSpeed.lean ====
section
/-! DEFINITION. The field serial ports (R328 to R340): UART, CAN FD, SPI, I²C, GPIO and QSPI. The writes and reads of
their registers are in Bus; this file holds what those do and what happens on the wires. -/

namespace Sys2Proof.Machine

def State.setLow (s : State) (f : LowSpeed → LowSpeed) : State := { s with low := f s.low }

/-! ### UART (R329 to R331) -/

def State.uart (s : State) (u : Nat) : Uart := s.low.uart.get {} u
def State.setUart (s : State) (u : Nat) (x : Uart) : State := s.setLow fun l => { l with uart := l.uart.set {} u x }
def State.uartOn (s : State) (u : Nat) : Bool := s.pdUp 106 && flag (s.reg .UART_CFG [u]) .UART_CFG_EN

/-- Take the next character into the shift register. -/
def Uart.shift (x : Uart) : Uart :=
  match x.tx with
  | b :: r => { x with tx := r, shifting := some b, phase := .active }
  | [] => { x with shifting := none }

/-- The transmitter starts when it is enabled and has a character: with the driver's lead time under RS-485, at once
otherwise or during the tail (R330). -/
def State.uartStart (s : State) (u : Nat) : State :=
  let x := s.uart u
  if !s.uartOn u || x.tx.isEmpty then s
  else match x.phase with
    | .idle => s.setUart u (if flag (s.reg .UART_CFG [u]) .UART_CFG_RS485 then { x with phase := .lead } else x.shift)
    | .tail => s.setUart u x.shift
    | _ => s

/-- A write of UART_TXD (R329). -/
def State.uartPush (s : State) (u : Nat) (b : Byte) : State :=
  let x := s.uart u
  if 64 ≤ x.tx.length then s.setFld .UART_STAT [u] .UART_STAT_TXOVR 1
  else (s.setUart u { x with tx := x.tx ++ [b], sent := false }).uartStart u

/-- DE is asserted: the receiver is gated (R330). -/
def Uart.driving (x : Uart) (rs485 : Bool) : Bool := rs485 && x.phase != .idle

/-- The level that a UART drives on its driver-enable pin: asserted to the polarity DEPOL (R330). -/
def State.uartDe (s : State) (u : Nat) : Bool :=
  let cfg := s.reg .UART_CFG [u]
  (s.uart u).driving (flag cfg .UART_CFG_RS485) != flag cfg .UART_CFG_DEPOL

/-- The level of a driver-enable pin: what its pad holds (R521), or what the UART drives. -/
def State.uartDePin (s : State) (u : Nat) : Bool :=
  if flag (s.reg .PAD_HOLD) .PAD_HOLD_IO33 then s.crow.pads.get 0 ((Reg.UART_CFG).at [u]) != 0 else s.uartDe u

/-- UART_RX_CHARACTER (R329). -/
def execUartRxCharacter (u : Fin 6) (data : BitVec 8) (perr ferr : Bool) (s : State) : Host.Outcome State Fault Refusal :=
  let u := u.val
  let x := s.uart u
  let cfg := s.reg .UART_CFG [u]
  if !s.uartOn u || x.driving (flag cfg .UART_CFG_RS485) then ok s
  else
    let d := if flag cfg .UART_CFG_BITS7 then data &&& 0x7F else data
    let perr := perr && bits cfg .UART_CFG_PARITY != 0
    let ch : BitVec 10 := d.setWidth 10 ||| (if perr then 0x100 else 0) ||| (if ferr then 0x200 else 0)
    let s := if perr then s.setFld .UART_STAT [u] .UART_STAT_PERR 1 else s
    let s := if ferr then s.setFld .UART_STAT [u] .UART_STAT_FERR 1 else s
    let x := { x with heard := true }
    ok (if 64 ≤ x.rx.length then (s.setUart u x).setFld .UART_STAT [u] .UART_STAT_OVR 1
      else s.setUart u { x with rx := x.rx ++ [ch] })

/-- UART_TX_CHARACTER (R330): the character in transmission ends, and the next one or the tail begins. -/
def execUartTxCharacter (u : Fin 6) (s : State) : Host.Outcome State Fault Refusal :=
  let u := u.val
  let x := s.uart u
  if !s.uartOn u then ok s
  else if x.phase = .active then
    if x.tx.isEmpty then
      ok (s.setUart u { x with shifting := none, sent := true,
                               phase := if flag (s.reg .UART_CFG [u]) .UART_CFG_RS485 then .tail else .idle })
    else ok (s.setUart u x.shift)
  else ok (s.uartStart u)

/-- DE_LEAD_EXPIRY (R330). -/
def execDeLeadExpiry (u : Fin 6) (s : State) : Host.Outcome State Fault Refusal :=
  let x := s.uart u.val
  ok (if x.phase = .lead then s.setUart u.val x.shift else s)

/-- DE_TAIL_EXPIRY (R330). -/
def execDeTailExpiry (u : Fin 6) (s : State) : Host.Outcome State Fault Refusal :=
  let x := s.uart u.val
  ok (if x.phase = .tail then s.setUart u.val { x with phase := .idle } else s)

/-- UART_IDLE_DETECT (R331). -/
def execUartIdleDetect (u : Fin 6) (s : State) : Host.Outcome State Fault Refusal :=
  let x := s.uart u.val
  if !s.uartOn u.val || !x.heard || bits (s.reg .UART_CFG [u.val]) .UART_CFG_IDLE_BITS == 0 then ok s
  else ok (((s.setUart u.val { x with heard := false }).setFld .UART_STAT [u.val] .UART_STAT_IDLE 1).pulse (96 + u.val))

/-! ### CAN FD (R336) -/

def State.can (s : State) (k : Nat) : Can := s.low.can.get {} k
def State.setCan (s : State) (k : Nat) (x : Can) : State := s.setLow fun l => { l with can := l.can.set {} k x }
def State.canOn (s : State) (k : Nat) : Bool := s.pdUp 106 && flag (s.reg .CAN_CTL [k]) .CAN_CTL_EN
def State.canState (s : State) (k : Nat) : Nat := s.fld .CAN_STAT [k] .CAN_STAT_STATE

/-- A message buffer completes (R336): its CAN_MBIRQ bit and its timestamp. -/
def State.canComplete (s : State) (k b : Nat) (sof : Nat) : State :=
  let s := s.setReg .CAN_MBIRQ [k, b / 32] (s.reg .CAN_MBIRQ [k, b / 32] ||| BitVec.ofNat 64 (2 ^ (b % 32)))
  (s.setReg .CAN_MB_TS [k, b, 0] (BitVec.ofNat 64 (sof % 2 ^ 32))).setReg .CAN_MB_TS [k, b, 1]
    (BitVec.ofNat 64 (sof / 2 ^ 32 % 2 ^ 32))

/-- The arbitration field of a buffer's frame: the lower number wins the bus. -/
def canArb (id : Word) : Nat :=
  let i := bits id .CAN_MB_ID_ID
  let rtr := b2n (flag id .CAN_MB_ID_RTR)
  if flag id .CAN_MB_ID_IDE then i / 2 ^ 18 * 2 ^ 21 + 2 ^ 20 + 2 ^ 19 + i % 2 ^ 18 * 2 + rtr
  else i / 2 ^ 18 * 2 ^ 21 + rtr * 2 ^ 20

/-- A pending transmit buffer that the controller may send. -/
def State.canPending (s : State) (k b : Nat) : Bool :=
  let r := s.reg .CAN_MB_CTRL [k, b]
  bits r .CAN_MB_CTRL_MODE == 1 && bits r .CAN_MB_CTRL_STATE == 1 &&
    (!flag r .CAN_MB_CTRL_FDF || flag (s.reg .CAN_CTL [k]) .CAN_CTL_FD)

/-- A transmit buffer is pending: its identifier and data words take no write (R336). -/
def State.canHeld (s : State) (k b : Nat) : Bool :=
  let r := s.reg .CAN_MB_CTRL [k, b]
  bits r .CAN_MB_CTRL_MODE == 1 && bits r .CAN_MB_CTRL_STATE == 1

/-- The buffer whose frame is sent next. -/
def State.canNext (s : State) (k : Nat) : Option Nat :=
  (List.range 64).foldl (fun a b =>
    if s.canPending k b then
      match a with
      | none => some b
      | some x => if canArb (s.reg .CAN_MB_ID [k, b]) < canArb (s.reg .CAN_MB_ID [k, x]) then some b else a
    else a) none

/-- The error counters take new values: CAN_STAT, and CAN_IRQ on entry to error passive or bus-off. -/
def State.canCount (s : State) (k tec rec' : Nat) : State :=
  let old := s.canState k
  let off := old == 2 || decide (255 < tec)
  let new := if off then 2 else if 127 < tec ∨ 127 < rec' then 1 else 0
  let r := s.reg .CAN_STAT [k]
  let r := putBits (putBits (putBits r .CAN_STAT_TEC (min tec 255)) .CAN_STAT_REC (min rec' 255)) .CAN_STAT_STATE new
  let s := (s.setCan k { s.can k with tec := tec, rec' := rec' }).setReg .CAN_STAT [k] r
  let irq := s.reg .CAN_IRQ [k]
  let irq := if new = 1 ∧ old = 0 then putBits irq .CAN_IRQ_PASSIVE 1 else irq
  let irq := if new = 2 ∧ old ≠ 2 then putBits irq .CAN_IRQ_BOFF 1 else irq
  s.setReg .CAN_IRQ [k] irq

/-- An acceptance filter lets a frame in. -/
def State.canAccepts (s : State) (k : Nat) (ide : Bool) (id : Nat) : Bool :=
  (List.range 128).any fun f =>
    let r := s.reg .CAN_FLT_ID [k, f]
    let m := (s.reg .CAN_FLT_MASK [k, f]).toNat
    flag r .CAN_FLT_ID_EN && flag r .CAN_FLT_ID_IDE == ide && (bits r .CAN_FLT_ID_ID &&& m) == (id &&& m)

/-- A received frame is filtered and stored in the lowest free receive buffer. idw, fmt, data: its ID word, its FDF, BRS, ESI
and DLC at their places in a control word, and its data words. -/
def State.canReceive (s : State) (k : Nat) (idw : Word) (fmt : Nat) (data : List Word) (sof : Nat) : State :=
  if !s.canAccepts k (flag idw .CAN_MB_ID_IDE) (bits idw .CAN_MB_ID_ID) then s
  else
    let free := (List.range 64).find? fun b =>
      s.fld .CAN_MB_CTRL [k, b] .CAN_MB_CTRL_MODE == 2 && s.fld .CAN_MB_CTRL [k, b] .CAN_MB_CTRL_STATE == 0
    match free with
    | none => (s.setFld .CAN_STAT [k] .CAN_STAT_RXOVR 1).setFld .CAN_IRQ [k] .CAN_IRQ_RXOVR 1
    | some b =>
      let s := (s.setReg .CAN_MB_ID [k, b] idw).setReg .CAN_MB_CTRL [k, b] (BitVec.ofNat 64 (2 * 2 ^ 30 + 1 * 2 ^ 28 + fmt))
      let s := (List.range 16).foldl (fun s w => s.setReg .CAN_MB_DATA [k, b, w] (data.getD w 0)) s
      s.canComplete k b sof

/-- CAN_FRAME_SENT: the frame of the pending buffer with the lowest arbitration field is sent. With LOOP at 1 the controller
itself receives it (log entry 60). sof: device time at its start of frame. -/
def execCanFrameSent (k : Fin 2) (sof : BitVec 64) (s : State) : Host.Outcome State Fault Refusal :=
  let k := k.val
  if !s.canOn k || s.canState k == 2 || flag (s.reg .CAN_CTL [k]) .CAN_CTL_LISTEN then ok s
  else
    -- a frame that an abort waits for is the one on the bus
    match (s.can k).aborting.head?.or (s.canNext k) with
    | none => ok s
    | some b =>
      let x := s.can k
      let s := s.setCan k { x with aborting := x.aborting.erase b }
      let s := (s.setFld .CAN_MB_CTRL [k, b] .CAN_MB_CTRL_STATE 2).canComplete k b sof.toNat
      let r := s.reg .CAN_MB_CTRL [k, b]
      let esi := if flag r .CAN_MB_CTRL_FDF ∧ s.canState k = 1 then 2 ^ 25 else 0
      let fmt := r.toNat / 2 ^ 26 % 4 * 2 ^ 26 + esi + bits r .CAN_MB_CTRL_DLC * 2 ^ 16
      let s := if flag (s.reg .CAN_CTL [k]) .CAN_CTL_LOOP then
          s.canReceive k (s.reg .CAN_MB_ID [k, b]) fmt ((List.range 16).map fun w => s.reg .CAN_MB_DATA [k, b, w]) sof.toNat
        else s
      ok (s.canCount k (x.tec - 1) x.rec')

/-- CAN_FRAME_RECEIVED: a frame arrives from the bus without error. A controller in internal loopback does not hear the bus
(log entry 60). -/
def execCanFrameReceived (k : Fin 2) (ide rtr fdf brs esi : Bool) (id : BitVec 29) (dlc : Fin 16) (data : BitVec 512)
    (sof : BitVec 64) (s : State) : Host.Outcome State Fault Refusal :=
  let k := k.val
  let ctl := s.reg .CAN_CTL [k]
  if !s.canOn k || s.canState k == 2 || flag ctl .CAN_CTL_LOOP || (fdf && !flag ctl .CAN_CTL_FD) then ok s
  else
    let x := s.can k
    -- a reception lowers REC; from above 127 it returns to a value from 119 to 127
    let (r, s) := if 127 < x.rec' then let (w, s) := s.fresh; (119 + w.toNat % 9, s) else (x.rec' - 1, s)
    let s := s.canCount k x.tec r
    ok (s.canReceive k (BitVec.ofNat 64 (b2n ide * 2 ^ 31 + b2n rtr * 2 ^ 30 + id.toNat))
      (b2n fdf * 2 ^ 27 + b2n brs * 2 ^ 26 + b2n esi * 2 ^ 25 + dlc.val * 2 ^ 16)
      ((List.range 16).map fun w => BitVec.ofNat 64 (data.toNat / 2 ^ (32 * w) % 2 ^ 32)) sof.toNat)

/-- CAN_BUS_ERROR: tx: the controller was the transmitter (TEC rises by 8); heavy: a receiver's error counts 8 instead of
1 (ISO 11898-1). An abort that waited for the frame on the bus takes effect. -/
def execCanBusError (k : Fin 2) (tx heavy : Bool) (s : State) : Host.Outcome State Fault Refusal :=
  let k := k.val
  if !s.canOn k || s.canState k == 2 then ok s
  else
    let x := s.can k
    let s := (s.setFld .CAN_STAT [k] .CAN_STAT_BERR 1).setFld .CAN_IRQ [k] .CAN_IRQ_BERR 1
    let s := if tx then
        (x.aborting.foldl (fun s b => s.setFld .CAN_MB_CTRL [k, b] .CAN_MB_CTRL_STATE 3) s).setCan k { x with aborting := [] }
      else s
    ok (if tx then s.canCount k (x.tec + 8) x.rec' else s.canCount k x.tec (x.rec' + if heavy then 8 else 1))

/-- CAN_BUSOFF_RECOVERY: 128 occurrences of 11 recessive bits end bus-off, with ABOR at 1 or after a restart. -/
def execCanBusoffRecovery (k : Fin 2) (s : State) : Host.Outcome State Fault Refusal :=
  let k := k.val
  if !s.canOn k || s.canState k != 2 || !(flag (s.reg .CAN_CTL [k]) .CAN_CTL_ABOR || (s.can k).restart) then ok s
  else
    let r := s.reg .CAN_STAT [k]
    let r := putBits (putBits (putBits r .CAN_STAT_TEC 0) .CAN_STAT_REC 0) .CAN_STAT_STATE 0
    ok ((s.setReg .CAN_STAT [k] r).setCan k { s.can k with tec := 0, rec' := 0, restart := false })

/-- A write of CAN_CTL: EN from 0 to 1 integrates the controller, and starts recovery from bus-off (R336). -/
def State.wCanCtl (s : State) (k : Nat) (v : Word) : State :=
  let was := flag (s.reg .CAN_CTL [k]) .CAN_CTL_EN
  let s := s.setReg .CAN_CTL [k] v
  let en := flag v .CAN_CTL_EN
  let s := s.setFld .CAN_STAT [k] .CAN_STAT_SYNC (b2n en)
  -- the frame on the bus fails when the controller stops
  let s := if en then s else
    ((s.can k).aborting.foldl (fun s b => s.setFld .CAN_MB_CTRL [k, b] .CAN_MB_CTRL_STATE 3) s).setCan k { s.can k with aborting := [] }
  if en && !was && s.canState k == 2 then s.setCan k { s.can k with restart := true } else s

/-- The frame of a pending buffer may be on the bus: the controller takes part in it and sends, the buffer's format is
permitted, and no other frame is there. -/
def State.canMaySend (s : State) (k b : Nat) : Bool :=
  s.canOn k && s.canState k != 2 && !flag (s.reg .CAN_CTL [k]) .CAN_CTL_LISTEN && s.canPending k b && (s.can k).aborting.isEmpty

/-- A write of the control word of a message buffer (R336). Whether the frame of a pending buffer that may be on the bus is
there is a free value; one that an abort already waits for is. -/
def State.wCanCtrl (s : State) (k b : Nat) (v : Word) : State :=
  let old := s.reg .CAN_MB_CTRL [k, b]
  let pend := bits old .CAN_MB_CTRL_MODE == 1 && bits old .CAN_MB_CTRL_STATE == 1
  if pend then
    if !flag v .CAN_MB_CTRL_ABORT || (s.can k).aborting.contains b then s
    else if !s.canMaySend k b then s.setFld .CAN_MB_CTRL [k, b] .CAN_MB_CTRL_STATE 3
    else
      let (w, s) := s.fresh
      if w.getLsbD 0 then s.setCan k { s.can k with aborting := (s.can k).aborting ++ [b] }
      else s.setFld .CAN_MB_CTRL [k, b] .CAN_MB_CTRL_STATE 3
  else
    let d := Reg.spec .CAN_MB_CTRL
    let new := (old &&& ~~~d.rw) ||| (v &&& d.rw)
    let new := if bits v .CAN_MB_CTRL_MODE = 3 then putBits new .CAN_MB_CTRL_MODE (bits old .CAN_MB_CTRL_MODE) else new
    let st := bits v .CAN_MB_CTRL_STATE
    let m := bits new .CAN_MB_CTRL_MODE
    let new := if (m = 1 ∧ st = 1) ∨ (m = 2 ∧ st = 0) then new else putBits new .CAN_MB_CTRL_STATE (bits old .CAN_MB_CTRL_STATE)
    s.setReg .CAN_MB_CTRL [k, b] new

/-! ### SPI (R337) -/

def State.spi (s : State) (k : Nat) : Spi := s.low.spi.get {} k
def State.setSpi (s : State) (k : Nat) (x : Spi) : State := s.setLow fun l => { l with spi := l.spi.set {} k x }
def State.spiBusy (s : State) (k : Nat) : Bool := flag (s.reg .SPI_STAT [k]) .SPI_STAT_BUSY

/-- A write of SPI_XFER. -/
def State.wSpiXfer (s : State) (k : Nat) (v : Word) : State :=
  let len := bits v .SPI_XFER_LEN
  if !flag v .SPI_XFER_GO || s.spiBusy k || decide (len = 0 ∨ 4096 < len) || !flag (s.reg .SPI_CFG [k]) .SPI_CFG_EN then s
  else
    (s.setSpi k { s.spi k with left := len, cs := some (bits v .SPI_XFER_CS), hold := flag v .SPI_XFER_HOLD }).setFld
      .SPI_STAT [k] .SPI_STAT_BUSY 1

/-- SPI_BYTE: one byte goes out and the byte given comes in; without room or data SCLK is held idle. -/
def execSpiByte (k : Fin 4) (miso : BitVec 8) (s : State) : Host.Outcome State Fault Refusal :=
  let x := s.spi k.val
  if !s.pdUp 106 || !s.spiBusy k.val || x.left == 0 || x.tx.isEmpty || decide (64 ≤ x.rx.length) then ok s
  else ok (s.setSpi k.val { x with tx := x.tx.drop 1, rx := x.rx ++ [miso], left := x.left - 1 })

/-- SPI_TRANSFER_DONE. -/
def execSpiTransferDone (k : Fin 4) (s : State) : Host.Outcome State Fault Refusal :=
  let x := s.spi k.val
  if !s.pdUp 106 || !s.spiBusy k.val || x.left != 0 then ok s
  else
    let r := putBits (putBits (s.reg .SPI_STAT [k.val]) .SPI_STAT_BUSY 0) .SPI_STAT_DONE 1
    ok ((s.setSpi k.val { x with cs := if x.hold then x.cs else none }).setReg .SPI_STAT [k.val] r)

/-- A write of SPI_TXD or I2C_TXD. -/
def State.wSpiTxd (s : State) (k : Nat) (b : Byte) : State :=
  let x := s.spi k
  if 64 ≤ x.tx.length then s.setFld .SPI_STAT [k] .SPI_STAT_TXOVR 1 else s.setSpi k { x with tx := x.tx ++ [b] }

/-! ### I²C (R338) -/

def State.i2c (s : State) (k : Nat) : I2c := s.low.i2c.get {} k
def State.setI2c (s : State) (k : Nat) (x : I2c) : State := s.setLow fun l => { l with i2c := l.i2c.set {} k x }
/-- A command is in progress. -/
def State.i2cActive (s : State) (k : Nat) : Bool := flag (s.reg .I2C_STAT [k]) .I2C_STAT_BUSY && !(s.i2c k).held

/-- A write of I2C_CMD. While the bus is only held between commands, a new command is taken. -/
def State.wI2cCmd (s : State) (k : Nat) (v : Word) : State :=
  let cfg := s.reg .I2C_CFG [k]
  let len := bits v .I2C_CMD_LEN
  if !flag v .I2C_CMD_GO || s.i2cActive k || !flag cfg .I2C_CFG_EN || flag cfg .I2C_CFG_TARGET ||
      decide (len = 0 ∨ 4096 < len) then s
  else
    let x := { s.i2c k with left := len, read := flag v .I2C_CMD_READ, stop := flag v .I2C_CMD_STOP, held := false,
                            addr := (bits v .I2C_CMD_ADDR, flag v .I2C_CMD_A10) }
    (s.setI2c k x).setFld .I2C_STAT [k] .I2C_STAT_BUSY 1

def State.wI2cTxd (s : State) (k : Nat) (b : Byte) : State :=
  let x := s.i2c k
  if 64 ≤ x.tx.length then s.setFld .I2C_STAT [k] .I2C_STAT_TXOVR 1 else s.setI2c k { x with tx := x.tx ++ [b] }

/-- I2C_BYTE: one byte of the command in progress, or of the transfer that addressed the target; data is the byte that
comes in. SCL is stretched while the FIFO concerned has no byte or no room. -/
def execI2cByte (k : Fin 4) (data : BitVec 8) (s : State) : Host.Outcome State Fault Refusal :=
  let k := k.val
  let x := s.i2c k
  let cfg := s.reg .I2C_CFG [k]
  let room := decide (x.rx.length < 64)
  if !s.pdUp 106 || !flag cfg .I2C_CFG_EN then ok s
  else if flag cfg .I2C_CFG_TARGET then
    match x.tgt with
    | none => ok s
    | some true => ok (s.setI2c k { x with tx := x.tx.drop 1 })
    | some false => ok (if room then s.setI2c k { x with rx := x.rx ++ [data] } else s)
  else if !s.i2cActive k || x.left == 0 then ok s
  else if x.read then ok (if room then s.setI2c k { x with rx := x.rx ++ [data], left := x.left - 1 } else s)
  else ok (if x.tx.isEmpty then s else s.setI2c k { x with tx := x.tx.drop 1, left := x.left - 1 })

/-- I2C_COMMAND_END: nack: the target answered NACK; arb: arbitration was lost; else the command is complete. In target mode
the command is the other controller's, and the transfer that addressed this block ends with it (log entry 102). -/
def execI2cCommandEnd (k : Fin 4) (nack arb : Bool) (s : State) : Host.Outcome State Fault Refusal :=
  let k := k.val
  let x := s.i2c k
  if s.pdUp 106 && flag (s.reg .I2C_CFG [k]) .I2C_CFG_TARGET then ok (s.setI2c k { x with tgt := none })
  else if !s.pdUp 106 || !s.i2cActive k || (!nack && !arb && x.left != 0) then ok s
  else
    let held := !nack && !arb && !x.stop
    let r := s.reg .I2C_STAT [k]
    let r := putBits (putBits r .I2C_STAT_DONE 1) .I2C_STAT_BUSY (b2n held)
    let r := if nack then putBits r .I2C_STAT_NACK 1 else r
    let r := if arb then putBits r .I2C_STAT_ARB 1 else r
    ok ((s.setI2c k { x with left := 0, held := held }).setReg .I2C_STAT [k] r)

/-- I2C_TARGET_MATCH: another controller sends START and an address of 7 or 10 bits; read: it reads. The own address matches in
its form; with another one an earlier transfer to this block has ended. -/
def execI2cTargetMatch (k : Fin 4) (addr : Fin 1024) (s : State) (a10 : Bool := false) (read : Bool := false) : Host.Outcome State Fault Refusal :=
  let k := k.val
  let cfg := s.reg .I2C_CFG [k]
  let bitsOf (a : Nat) : Nat := if a10 then a else a % 128
  if !s.pdUp 106 || !flag cfg .I2C_CFG_EN || !flag cfg .I2C_CFG_TARGET then ok s
  else if a10 = flag cfg .I2C_CFG_A10 ∧ bitsOf addr.val = bitsOf (bits cfg .I2C_CFG_TADDR) then
    ok ((s.setI2c k { s.i2c k with tgt := some read }).setFld .I2C_STAT [k] .I2C_STAT_ADDRD 1)
  else ok (s.setI2c k { s.i2c k with tgt := none })

/-! ### GPIO (R333, R339) -/

/-- The levels of the 64 pins: driven by the output register where the pin drives, or by what its
pad holds (R521), else by the board. -/
def State.gpioPins (s : State) : BitVec 64 :=
  let held := flag (s.reg .PAD_HOLD) .PAD_HOLD_IO33
  let one (g : Reg) (i : Nat) : Nat := if held then (s.crow.pads.get 0 (g.at [i])).toNat else (s.reg g [i]).toNat
  let r (g : Reg) : BitVec 64 := BitVec.ofNat 64 (one g 0 + one g 1 * 2 ^ 32)
  let out := r .GPIO_OUT
  let drive := r .GPIO_OE &&& ~~~(r .GPIO_OD &&& out)
  (drive &&& out) ||| (~~~drive &&& s.low.ext)

/-- A level condition of a pin holds (MODE 0b100 or 0b101). -/
def State.gpioLevel (s : State) (n : Nat) : Bool :=
  let m := s.fld .GPIO_ICFG [n] .GPIO_ICFG_MODE
  let p := flag (s.reg .GPIO_IN [n / 32]) ⟨n % 32, n % 32⟩
  (m == 4 && p) || (m == 5 && !p)

/-- The pins are sampled: GPIO_IN, and the edges that meet their interrupt conditions. -/
def State.gpioSample (s : State) : State :=
  if !s.pdUp 106 then s else
  let p := s.gpioPins
  (List.range 2).foldl (fun s k =>
    let old := s.reg .GPIO_IN [k]
    let new : Word := BitVec.ofNat 64 (p.toNat / 2 ^ (32 * k) % 2 ^ 32)
    if old = new then s else
    let set := (List.range 32).foldl (fun (a : Word) i =>
      let m := s.fld .GPIO_ICFG [32 * k + i] .GPIO_ICFG_MODE
      let rise := !old.getLsbD i && new.getLsbD i
      let fall := old.getLsbD i && !new.getLsbD i
      if (rise && (m == 1 || m == 3)) || (fall && (m == 2 || m == 3)) then a ||| BitVec.ofNat 64 (2 ^ i) else a) 0
    (s.setReg .GPIO_IN [k] new).setReg .GPIO_ISTAT [k] (s.reg .GPIO_ISTAT [k] ||| set)) s

/-- GPIO_PIN_EDGE: the board drives a pin to a level. -/
def execGpioPinEdge (n : Fin 64) (level : Bool) (s : State) : Host.Outcome State Fault Refusal :=
  let m : BitVec 64 := BitVec.ofNat 64 (2 ^ n.val)
  ok (s.setLow fun l => { l with ext := if level then l.ext ||| m else l.ext &&& ~~~m }).gpioSample

/-! ### QSPI (R332, R340) -/

/-- A byte of the flash; erased bytes are 0xFF. -/
def State.flashByte (s : State) (a : Nat) : Byte := s.low.flash.get 0xFF a

/-- n bytes of the flash as a little-endian number. -/
def State.flashRead (s : State) (a n : Nat) : Nat :=
  (List.range n).foldl (fun v i => v + (s.flashByte (a + i)).toNat * 256 ^ i) 0

end Sys2Proof.Machine
end

