-- ==== Sys2Proof/Machine/Timers.lean ====
section
/-! DEFINITION. System timer channels and telltales (R467 to R477). -/

namespace Sys2Proof.Machine

def State.tmr (s : State) (c : Nat) : Tmr := s.timers.get {} c
def State.setTmr (s : State) (c : Nat) (t : Tmr) : State := { s with timers := s.timers.set {} c t }
def State.tmrRun (s : State) (c : Nat) : Bool := flag (s.reg .TMR_STAT [c]) .TMR_STAT_RUN
def State.tmrDown (s : State) (c : Nat) : Bool := flag (s.reg .TMR_STAT [c]) .TMR_STAT_DOWN

/-- The committed value of a compare or of RELOAD. -/
def State.tmrCmp (s : State) (c k : Nat) : Nat := (s.reg .TMR_CMP_LO [c, k]).toNat + (s.reg .TMR_CMP_HI [c, k]).toNat * 2 ^ 32
def State.tmrRld (s : State) (c : Nat) : Nat := (s.reg .TMR_RLD_LO [c]).toNat + (s.reg .TMR_RLD_HI [c]).toNat * 2 ^ 32

/-- A STAT bit is set. -/
def State.tmrFlag (s : State) (c : Nat) (f : Fld) : State := s.setFld .TMR_STAT [c] f 1

/-- The armed compares of a running channel whose condition holds fire and disarm (R468). -/
def State.tmrEval (s : State) (c : Nat) : State :=
  if !s.tmrRun c then s else
  (List.range 4).foldl (fun s k =>
    let t := s.tmr c
    let dir := s.fld .TMR_CTL [c] .TMR_CTL_DIR / 4 ^ k % 4
    let v := s.tmrCmp c k
    let met := if s.tmrDown c then 2 ≤ dir ∧ t.count ≤ v else dir % 2 = 1 ∧ v ≤ t.count
    if t.armed.getLsbD k && decide (v ≤ t.reload ∧ met) then
      (s.setTmr c { t with armed := t.armed &&& ~~~(BitVec.ofNat 4 (2 ^ k)) }).tmrFlag c ⟨k, k⟩
    else s) s

/-- Every compare is armed, as at a change of direction. -/
def State.tmrArm (s : State) (c : Nat) : State := s.setTmr c { s.tmr c with armed := 15 }

/-- The step of COUNT to 0: a new RELOAD takes effect, WRAP, and the compares are armed. -/
def State.tmrWrap (s : State) (c : Nat) : State :=
  ((s.setTmr c { s.tmr c with count := 0, reload := s.tmrRld c }).tmrFlag c .TMR_STAT_WRAP).tmrArm c

/-- TIMER_STEP (R467, R468). A step that turns the channel fires compares of the direction it was made in, and then, armed
again, those of the other. -/
def execTimerStep (c : Fin 16) (s : State) : Host.Outcome State Fault Refusal :=
  let c := c.val
  let t := s.tmr c
  if !s.pdUp 106 || !s.tmrRun c then ok s
  else if !flag (s.reg .TMR_CFG [c]) .TMR_CFG_SHAPE then
    ok ((if t.reload ≤ t.count then s.tmrWrap c else s.setTmr c { t with count := t.count + 1 }).tmrEval c)
  else if s.tmrDown c then
    if t.count ≤ 1 then
      let s := (s.setTmr c { t with count := 0 }).tmrEval c
      ok (((s.setFld .TMR_STAT [c] .TMR_STAT_DOWN 0).tmrWrap c).tmrEval c)
    else ok ((s.setTmr c { t with count := t.count - 1 }).tmrEval c)
  else if t.reload ≤ t.count + 1 then
    let s := ((s.setTmr c { t with count := t.reload }).tmrFlag c .TMR_STAT_TOP).tmrEval c
    ok (((s.setFld .TMR_STAT [c] .TMR_STAT_DOWN 1).tmrArm c).tmrEval c)
  else ok ((s.setTmr c { t with count := t.count + 1 }).tmrEval c)

/-- TIMER_CAPTURE_EDGE (R469): the level of pin CAPSEL changes. -/
def execTimerCaptureEdge (c : Fin 16) (rising : Bool) (s : State) : Host.Outcome State Fault Refusal :=
  let c := c.val
  let t := s.tmr c
  if !s.pdUp 106 || !flag (s.reg .TMR_CFG [c]) .TMR_CFG_CAPEN then ok s
  else if rising then
    ok (((s.setTmr c { t with rise := t.count, risen := true }).tmrFlag c .TMR_STAT_RISE).setFld .TMR_STAT [c] .TMR_STAT_PAIR 0)
  else
    let s := (s.setTmr c { t with fall := t.count, risen := false }).tmrFlag c .TMR_STAT_FALL
    ok (if t.risen then s.setFld .TMR_STAT [c] .TMR_STAT_PAIR 1 else s)

def State.tmrStop (s : State) (c : Nat) : State := s.setFld .TMR_STAT [c] .TMR_STAT_RUN 0

/-- START: ignored while RELOAD is 0; a new RELOAD is in force at once while the channel is stopped (R467, R468). -/
def State.tmrStart (s : State) (c : Nat) : State :=
  if s.tmrRld c = 0 then s
  else
    let s := if s.tmrRun c then s else s.setTmr c { s.tmr c with reload := s.tmrRld c }
    (s.setFld .TMR_STAT [c] .TMR_STAT_RUN 1).tmrEval c

/-- CAPTURE: the latch is taken (R470). -/
def State.tmrLatch (s : State) (c : Nat) : State :=
  let t := s.tmr c
  let put (s : State) (i v : Nat) : State :=
    (s.setReg .TMR_LAT [c, i] (BitVec.ofNat 64 (v % 2 ^ 32))).setReg .TMR_LAT [c, i + 1] (BitVec.ofNat 64 (v / 2 ^ 32 % 2 ^ 32))
  let s := put (put (put s 0 t.count) 2 t.rise) 4 t.fall
  let st := s.reg .TMR_STAT [c]
  let r := s.reg .TMR_LAT_INFO [c]
  let r := putBits r .TMR_LAT_INFO_SEQ (bits r .TMR_LAT_INFO_SEQ + 1)
  let r := putBits (putBits r .TMR_LAT_INFO_PAIR (bits st .TMR_STAT_PAIR)) .TMR_LAT_INFO_DOWN (bits st .TMR_STAT_DOWN)
  s.setReg .TMR_LAT_INFO [c] (putBits r .TMR_LAT_INFO_RUN (bits st .TMR_STAT_RUN))

/-- A write of TMR_CMD: STOP, ZERO, START, CAPTURE in this order (R472). -/
def State.wTmrCmd (s : State) (c : Nat) (v : Word) : State :=
  let s := if v.getLsbD 1 then s.tmrStop c else s
  let s := if v.getLsbD 2 then (s.setTmr c { s.tmr c with count := 0 }).setFld .TMR_STAT [c] .TMR_STAT_DOWN 0 else s
  let s := if v.getLsbD 0 then s.tmrStart c else s
  if v.getLsbD 3 then s.tmrLatch c else s

/-- A write of TMR_GO: a channel named in both halves is stopped (R472). -/
def State.wTmrGo (s : State) (v : Word) : State :=
  (List.range 16).foldl (fun s c =>
    if v.getLsbD (16 + c) then s.tmrStop c else if v.getLsbD c then s.tmrStart c else s) s

/-- A write of the HI half of RELOAD commits both halves (R471). -/
def State.wRldHi (s : State) (c : Nat) (v : Word) : State :=
  let s := (s.setReg .TMR_RLD_LO [c] (BitVec.ofNat 64 (s.tmr c).rldLo)).setReg .TMR_RLD_HI [c] (v.setWidth 32 |>.setWidth 64)
  if s.tmrRun c then s else s.setTmr c { s.tmr c with reload := s.tmrRld c }

/-- A write of the HI half of a compare commits both halves and arms it (R468, R471). -/
def State.wCmpHi (s : State) (c k : Nat) (v : Word) : State :=
  let t := s.tmr c
  let s := (s.setReg .TMR_CMP_LO [c, k] (BitVec.ofNat 64 (t.cmpLo.get 0 k))).setReg .TMR_CMP_HI [c, k] (v.setWidth 32 |>.setWidth 64)
  (s.setTmr c { t with armed := t.armed ||| BitVec.ofNat 4 (2 ^ k) }).tmrEval c

/-! ### Telltales (R475 to R477) -/

/-- A window of a telltale is abandoned: counting starts at the next boundary. -/
def State.ttAbandon (s : State) (m : Nat) : State := { s with telltales := s.telltales.erase m }

/-- TT_WINDOW_END (R476): device time is at a boundary of the windows of telltale m, and bytes passed its point since the
last one. -/
def execTtWindowEnd (m : Fin 32) (bytes : BitVec 40) (s : State) : Host.Outcome State Fault Refusal :=
  let m := m.val
  let us := s.fld .TT_WIN [m] .TT_WIN_US
  if !s.pdUp 105 || !flag (s.reg .TT_CFG [m]) .TT_CFG_EN || us == 0 || s.time % (us * 1000) != 0 then ok s
  else if !s.telltales.contains m then ok { s with telltales := insertRising m s.telltales }
  else
    let v := bytes.setWidth 64
    let s := (s.setReg .TT_LAST [m] v).setReg .TT_SEQ [m] (BitVec.ofNat 64 (((s.reg .TT_SEQ [m]).toNat + 1) % 2 ^ 32))
    let s := if v < s.reg .TT_MIN [m] then s.setReg .TT_MIN [m] v else s
    let s := if s.reg .TT_MAX [m] < v then s.setReg .TT_MAX [m] v else s
    let thr := s.reg .TT_THR [m]
    ok (if thr != 0 && decide (thr ≤ v) then s.setReg .TT_IRQ [] (s.reg .TT_IRQ ||| BitVec.ofNat 64 (2 ^ m)) else s)

/-- TT_CMD.CLR (R476). -/
def State.ttClear (s : State) (m : Nat) : State :=
  ((s.setReg .TT_MIN [m] 0xFF_FFFF_FFFF).setReg .TT_MAX [m] 0).setReg .TT_SEQ [m] 0

end Sys2Proof.Machine
end

