-- ==== Sys2Proof/Machine/Bus.lean ====
section
/-! DEFINITION. Accesses of the physical map other than cacheable ones (R28 to R36, R166, R280, R536): which register or
window an address names, what a read returns and a write does, and how refused accesses are logged. -/

namespace Sys2Proof.Machine

/-! ### Who asks, and what is logged -/

/-- The requester of uncached memory accesses: a quad, or one of the units 16 to 18. -/
def Who.agent : Who → Nat
  | .core c _ _ => quadOf c
  | .fetas => 18
  | .unit n => if n = 29 then 17 else if n = 24 then 18 else 16
  | .dap => 18
  | .far _ => 16

/-- The access is made at H or by Fetas. -/
def Who.high : Who → Bool
  | .core _ l _ => l == .h
  | .fetas => true
  | .dap => true
  | .unit _ => false
  | .far _ => false

/-! ### What an address names -/

/-- A word of unit or slice-page space. -/
inductive Hit where
  | absent
  | reg (r : Reg) (idx : List Nat) (off : Nat)
  /-- CFG_CRC, CFG_GEN or CFG_STAT of a configuration unit -/
  | cfg (u which : Nat)
  /-- a table word of PCI Express (0) or of the switch (1), or a program or erase register of the QSPI flash (2; log
  entries 35, 100) -/
  | table (which off : Nat)
  /-- the staging copy of a covered register -/
  | stage (a : Nat)
  /-- the debug view of a core, beside DBG_CTL and DBG_STAT: G, F, PC or a system register, and the byte within -/
  | dbg (c : Fin 64) (kind n off : Nat)
  deriving DecidableEq, Repr

/-- The registers of a unit by its base. -/
def unitRegs : Nat → List Reg
  | 0 => regsUnit00.filter fun r => r != .CFG_CRC && r != .CFG_GEN && r != .CFG_STAT
  | 1 => regsUnit01
  | 2 => regsUnit02
  | 3 => regsUnit03
  | 4 => regsUnit04
  | 5 => regsUnit05
  | 6 => regsUnit06
  | 7 => regsUnit07
  | 8 => regsUnit08
  | 9 => regsUnit09
  | 10 => regsUnit0A
  | 11 => regsUnit0B
  | 12 => regsUnit0C
  | 13 => regsUnit0D
  | u => if 16 ≤ u ∧ u < 32 then regsUnit10 else []

/-- The domain that holds a unit address (R32); none: reserved. -/
def unitPd (o : Nat) : Option Nat :=
  let u := o / 2 ^ 24
  let b := o % 2 ^ 24
  if 16 ≤ u ∧ u < 32 then some (67 + (u - 16))
  else if u = 4 then some (if b < 2 ^ 23 then 93 else 95)
  -- the copies for staging lie at 0x0080_0000 above their registers (R400)
  else if u = 6 then some (let b := b % 0x800000
    if 0x100000 ≤ b ∧ b < 0x180000 then 83 + (b - 0x100000) / 0x10000 else 91)
  else [0, 2, 91, 106, 93, 97, 91, 98, 102, 106, 105, 105, 2, 91][u]?

/-- The domain of a unit at a stop of the east half, columns 3 to 5, whose routers PD 92 holds (R20, R37). -/
def eastPd (d : Nat) : Bool := (decide (67 ≤ d ∧ d < 83) && decide (2 ≤ (d - 67) % 4)) || decide (87 ≤ d ∧ d < 91) || [95, 97, 105].contains d

/-- The windows of tables and registers whose layout the spec does not give (R334, R340). -/
def tableOff (u b : Nat) : Bool :=
  if u = 7 then decide ((0x100000 ≤ b ∧ b < 0x180000) ∨ (0x200000 ≤ b ∧ b < 0x204000) ∨ (0x300000 ≤ b ∧ b < 0x400000))
  else if u = 8 then decide ((8 ≤ b ∧ b < 0x1000) ∨ (0x100000 ≤ b ∧ b < 0x101000))
  else if u = 9 then decide (0x30100 ≤ b ∧ b < 0x30200)
  else false

/-- The register of a unit at an address is covered and 64 bits wide. -/
def covWide (a : Nat) : Bool :=
  match covUnit a with
  | some u => (covered u).any fun c => c.has a && c.wide
  | none => false

/-- What a byte address of unit space names. -/
def unitHit (pa : Nat) : Hit :=
  let o := pa - unitBase
  let u := o / 2 ^ 24
  let b := o % 2 ^ 24
  match (List.range 21).find? fun v => decide (cfgAt v ≤ pa ∧ pa < cfgAt v + 12) with
  | some v => .cfg v ((pa - cfgAt v) / 4)
  | none =>
    match lookReg (unitRegs u) pa with
    | some (r, idx, off) => .reg r idx off
    | none =>
      if tableOff u b then .table (if u = 7 then 1 else if u = 9 then 2 else 0) (b - b % 4)
      else if 16 ≤ u ∧ u < 32 then
        let c := Fin.ofNat 64 ((u - 16) * 4 + b / 0x400000)
        let d := b % 0x400000
        if 0x100 ≤ d ∧ d < 0x200 then .dbg c 0 ((d - 0x100) / 8) (d % 8)
        else if 0x200 ≤ d ∧ d < 0x300 then .dbg c 1 ((d - 0x200) / 8) (d % 8)
        else if 0x300 ≤ d ∧ d < 0x308 then .dbg c 2 0 (d % 8)
        else if 0x10000 ≤ d ∧ d < 0x18000 then .dbg c 3 ((d - 0x10000) / 8) (d % 8)
        else .absent
      else
        let a := pa - 0x800000
        if covWide (a - a % 8) then .stage (a - a % 8) else if (covUnit (a - a % 4)).isSome then .stage (a - a % 4) else .absent

/-- A hit is 64 bits wide. -/
def Hit.wide : Hit → Bool
  | .reg r _ _ => r.spec.wide
  | .dbg _ _ _ _ => true
  | .stage a => covWide a
  | _ => false

/-- The byte within the register. -/
def Hit.off (pa : Nat) : Hit → Nat
  | .reg _ _ off => off
  | .dbg _ _ _ off => off
  | .stage a => pa - 0x800000 - a
  | _ => pa % 4

/-- The core of a debug view's instance. -/
def coreOfDbg (idx : List Nat) : Fin 64 := Fin.ofNat 64 (idx.headD 0 * 4 + idx.getD 1 0)

/-- The quad debug view of a core answers a requester (R34, R492). -/
def State.dbgOpen (s : State) (w : Who) (c : Fin 64) : Bool := w == .fetas || (w.high && s.admits c)

/-- A requester may reach a hit by a read, or by a write (wr); a refused access acts as an unused offset (R166). The debug
view reads a halted core; Fetas writes its system registers from 0xC00 up, halted or not (R11, R492). -/
def State.hitOk (s : State) (w : Who) (h : Hit) (wr : Bool) : Bool :=
  match h with
  | .absent => false
  | .reg r idx _ =>
    (match r with
     | .DBG_CTL | .DBG_STAT => s.dbgOpen w (coreOfDbg idx)
     -- a unit sets message sources only (R278)
     | .SRC_SET => (match w with | .unit _ => decide (1024 ≤ idx.headD 0) | _ => true)
     | _ => true) && r.admits w
  | .table 2 _ => w == .fetas
  | .cfg _ _ | .table _ _ => w.high
  | .stage _ => w == .fetas
  | .dbg c kind n _ =>
    s.dbgOpen w c && (if kind = 3 then (lookReg regsSys n).isSome else true) &&
      ((s.core c).run == .halted || (wr && w == .fetas && kind == 3 && decide (0xC00 ≤ n)))

/-! ### Values -/

/-- The CFG registers of a unit. -/
def State.cfgValue (s : State) (u which : Nat) : Word :=
  match which with
  | 0 => (s.cfgCrc u).setWidth 64
  | 1 => s.regs.get 0 (cfgAt u + 4)
  | _ =>
    let staged := s.fe.staged.any fun e => (covered u).any fun c => c.has e.1
    putBits (s.regs.get 0 (cfgAt u + 8)) .CFG_STAT_STAGED (b2n staged)

/-- Queue pairs that no slice is granted and no drain still holds (R304). -/
def State.poolFree (s : State) : Nat :=
  32768 - (s.regs.foldl (fun a e => if (Reg.SLICE_GRANT_Q.match? e.1).isSome then a + bits e.2 .SLICE_GRANT_Q_COUNT else a) 0) -
    s.slices.drains.foldl (fun a d => a + d.queues.length) 0

/-- The current value of a register, as a read without side effect returns it (R14, R536). -/
def State.busValue (s : State) (r : Reg) (idx : List Nat) : Word :=
  let i := idx.headD 0
  let v := r.spec.readable (s.reg r idx)
  let lvl (rx tx : Nat) : Word := putBits (putBits v .SPI_STAT_RXLVL rx) .SPI_STAT_TXLVL tx
  let head (l : List Byte) : Word := match l with | [] => 0 | b :: _ => BitVec.ofNat 64 (2 ^ 31 + b.toNat)
  match r with
  | .CLEAT_TAKE => s.reg .CLEAT_STATE idx
  | .MAST_TICK_LO => BitVec.ofNat 64 (s.tick % 2 ^ 32)
  | .UART_RXD => match (s.uart i).rx with | [] => 0 | c :: _ => BitVec.ofNat 64 (2 ^ 31 + c.toNat)
  | .UART_STAT =>
    let x := s.uart i
    putBits (putBits (lvl x.rx.length x.tx.length) .UART_STAT_TXDONE
      (b2n x.sent)) .UART_STAT_DE
      (b2n (x.driving (flag (s.reg .UART_CFG [i]) .UART_CFG_RS485)))
  | .SPI_RXD => head (s.spi i).rx
  | .SPI_STAT => lvl (s.spi i).rx.length (s.spi i).tx.length
  | .I2C_RXD => head (s.i2c i).rx
  | .I2C_STAT => lvl (s.i2c i).rx.length (s.i2c i).tx.length
  | .GPIO_ISTAT => (List.range 32).foldl (fun (w : Word) j =>
      let m := s.fld .GPIO_ICFG [32 * i + j] .GPIO_ICFG_MODE
      if m = 4 ∨ m = 5 then putBits w ⟨j, j⟩ (b2n (s.gpioLevel (32 * i + j))) else w) v
  | .DIST_CTL => putBits v .DIST_CTL_QUIET (b2n (flag v .DIST_CTL_GDIS && !s.offersOut))
  | .DB_NEXT => match s.dbNext i with | some m => BitVec.ofNat 64 (2 ^ 31 + m) | none => 0
  | .CACHE_READY => BitVec.ofNat 64 (
      ((List.range 8).map fun h => b2n (s.home h).l3.ready * 2 ^ h).sum +
      ((List.range 16).map fun q => b2n (s.quad q).l2.ready * 2 ^ (8 + q)).sum)
  | .L3_SEED => (s.home i).l3.lfsr.setWidth 64
  | .L3_WG_EFF => BitVec.ofNat 64 ((s.wayGroup i 0).map fun w => 2 ^ w).sum
  | .L3_RETIRED => BitVec.ofNat 64 (s.home i).l3.retired.length
  | .SE_STATUS => BitVec.ofNat 64 (s.poolFree + b2n (s.pdUp 98) * 2 ^ 17 + b2n (s.pdUp 104) * 2 ^ 16)
  | .PDQ => putBits v .PDQ_COUNT ((s.home i).pdq.get [] (idx.getD 1 0)).length
  | .MG_SPARE => putBits v .MG_SPARE_POISONED (s.poisonListed i).length
  | .DBG_STAT =>
    let k := s.core (coreOfDbg idx)
    BitVec.ofNat 64 (b2n k.haltReq * 2 + b2n (k.run == .halted))
  | .CAN_STAT => v
  | _ => v

/-- The value of a hit. -/
def State.hitValue (s : State) (h : Hit) : Word :=
  match h with
  | .absent => 0
  | .reg r idx _ => s.busValue r idx
  | .cfg u w => s.cfgValue u w
  | .table which off =>
    let v := (if which = 0 then s.pcie.words else if which = 1 then s.sw.words else s.low.qspiProg).get 0 off
    if which = 1 ∧ 0x100000 ≤ off ∧ off < 0x180000 ∧ v = 0 ∧ !s.sw.fdb.isEmpty then Config.dynamicWord s.sw.fdb off &&& 0xFFFFFFFF
    else v
  | .stage a => match s.fe.staged.get none a with
    | some v => v
    | none => s.regs.get 0 a
  | .dbg c kind n _ =>
    let k := s.core c
    match kind with
    | 0 => k.readG (Fin.ofNat 32 n)
    | 1 => k.readF (Fin.ofNat 32 n)
    | 2 => k.pc
    | _ => match lookReg regsSys n with
      | some (r, idx, _) =>
        if r = .CORE_CFG_CRC then putBits (s.sysRead c r idx) .CORE_CFG_CRC_CRC k.cfgCrc.toNat else s.sysRead c r idx
      | none => 0

/-- A read with its side effects (R14, R536): the value, and the state after the fields within the lanes are read. -/
def State.regRead (s : State) (w : Who) (r : Reg) (idx : List Nat) (lanes : Word) : Word × State :=
  let i := idx.headD 0
  let v := s.busValue r idx
  match r with
  | .CLEAT_TAKE => s.cleatTakeNow w i
  -- a cleat that the requester has given reads back as given (R215)
  | .CLEAT_STATE =>
    let s := if s.cleats.reqs.any fun r => r.n == i && r.id == w.cleatId then s.cleatWindow else s
    (s.busValue r idx, s)
  | .MAST_TICK_LO => (v, s.setReg .MAST_TICK_HI [] (BitVec.ofNat 64 (s.tick / 2 ^ 32 % 2 ^ 16)))
  | .UART_RXD => (v, s.setUart i { s.uart i with rx := (s.uart i).rx.tail })
  | .SPI_RXD => (v, s.setSpi i { s.spi i with rx := (s.spi i).rx.tail })
  | .I2C_RXD => (v, s.setI2c i { s.i2c i with rx := (s.i2c i).rx.tail })
  | .DB_NEXT =>
    (v, match s.dbNext i with
        | some m => { s with dist := { s.dist with doorbells := s.dist.doorbells.erase m } }
        | none => s)
  | _ => (v, if r.spec.rc = 0 then s else s.setReg r idx (r.spec.afterRead (s.reg r idx) lanes))

/-- A read of a hit over the lanes. -/
def State.hitRead (s : State) (w : Who) (h : Hit) (lanes : Word) : Word × State :=
  match h with
  | .reg r idx _ => s.regRead w r idx lanes
  | .dbg c 3 n _ =>
    (s.hitValue h, match lookReg regsSys n with
      | some (r, idx, _) =>
        if r.spec.rc = 0 then s else s.updCore c fun k => k.setReg r idx (r.spec.afterRead (k.reg r idx) lanes)
      | none => s)
  | _ => (s.hitValue h, s)

/-! ### Writes -/

/-- The modes a port offers (R311). -/
def portMode (p m : Nat) : Bool :=
  m == 0 || (if p < 2 then m == 1 || m == 2 else if p < 10 then m == 3 || m == 4 else m == 5 || m == 6)

/-- The fields marked "loaded" that no level writes: Fetas does (R11, R16). -/
def Reg.loaded : Reg → Word
  | .CORE_ID | .CORE_PHYS | .UART_ACT => 0x3f
  | .L3_WG_MASK | .L3_WG_MAP | .L3_SEED => 0xffff
  | .MG_SPARE => 0xff
  | .DKEY_MAP | .MKEY_MAP => 0x80001fff
  | .MR_STATUS => 0x100
  | .MR_DIE => 0x3fff
  | .LCORE_MAP | .SLICE_GRANT_Q => 0x7f
  | .SLICE_BIND | .ALARM_LO => 0xffffffff
  | .SLICE_GRANT_V => 0x7f3fff
  | .SLICE_GRANT_BW => 0xffffff
  | .SLICE_FAR => 0x80003fff
  | .WIN_A => 0xfffffffff007
  | .WIN_B => 0xfffffffffffff000
  | .PCIE_CTL => 0x40000000
  | .FSI_STATUS => 0xffff0002
  | .MAST_MODE => 0x200000
  | .WAKE_EN => 0x3ffff
  | .WAKE_CMP => 0xefc000ff
  | .ALARM_HI => 0xc000ffff
  | .PF_CFG => 0x83ffe3ff
  | .PWR_SEQ => 0x80ff00ff
  | .CFG_STAT => 0x8
  | .HEALTH_STAT => 0x3ff0
  | .GAP_TIME => 0xffffffffffffffff
  | .SHR_PORT_STAT => 0x1
  | .BOOT_STAT => 0x3f707
  | _ => 0

/-- The fields a requester stores by a write. -/
def Reg.defFor (r : Reg) (w : Who) : RegDef :=
  let d := r.spec
  if w == .fetas then { d with rw := d.rw ||| r.loaded } else d

/-- Fields that keep their value when a write would give them one that the register does not take. -/
def busKeep (r : Reg) (idx : List Nat) (old new : Word) : Word :=
  let keepIf (b : Bool) (f : Fld) (w : Word) : Word := if b then putBits w f (bits old f) else w
  let out (f : Fld) (lo hi : Nat) (w : Word) : Word := keepIf (decide (bits new f < lo ∨ hi < bits new f)) f w
  match r with
  | .WDOG_CFG => out .WDOG_CFG_TIMEOUT 1 255 new
  | .PORT_CFG => keepIf (!portMode (idx.headD 0) (bits new .PORT_CFG_MODE)) .PORT_CFG_MODE new
  | .QBV_CTL => out .QBV_CTL_ADMIN_LEN 1 256 new
  | .QBV_CYCLE => out .QBV_CYCLE_NS 1000 1000000000 new
  | .QBV_IVL => out .QBV_IVL_NS 1 (2 ^ 32) new
  | .FDB_AGE => out .FDB_AGE_SECONDS 1 65535 new
  | .HSR_CFG => out .HSR_CFG_MODE 0 2 (out .HSR_CFG_FORGET 10 4000 (out .HSR_CFG_LIFECHECK 1 65535 new))
  | .UART_CFG => out .UART_CFG_PARITY 0 2 new
  | .UART_BAUD => out .UART_BAUD_DIV_INT 2 65535 new
  | .SPI_CFG => out .SPI_CFG_DIV 1 255 new
  | .I2C_CFG => out .I2C_CFG_SPEED 0 2 new
  | .GPIO_ICFG => out .GPIO_ICFG_MODE 0 5 new
  | .QSPI_CFG =>
    let z := bits new .QSPI_CFG_SIZE
    out .QSPI_CFG_WIDTH 0 2 (keepIf (decide (z ≠ 0 ∧ (z < 16 ∨ 28 < z))) .QSPI_CFG_SIZE new)
  | .PCIE_CTL => out .PCIE_CTL_CTO 5 5000 new
  | .TT_CFG => out .TT_CFG_DIR 0 2 new
  | .TT_WIN => out .TT_WIN_US 1 4000000 new
  | .HY_RING_CTL => out .HY_RING_CTL_SIZE 12 30 new
  | .HY_RING_RP => new &&& ~~~63#64
  | _ => new

/-- The bytes used of a ring for a read pointer lie within its size. -/
def State.rpOk (s : State) (r : Nat) (rp : Word) : Bool :=
  let size := 2 ^ s.fld .HY_RING_CTL [r] .HY_RING_CTL_SIZE
  let wp := s.reg .HY_RING_WP [r]
  let pos (w : Word) : Nat := w.toNat % 2 ^ 30 + (if w.getLsbD 30 then size else 0)
  let free := (pos rp + 2 * size - pos (s.reg .HY_RING_RP [r])) % (2 * size)
  let used := (pos wp + 2 * size - pos (s.reg .HY_RING_RP [r])) % (2 * size)
  decide (rp.toNat % 2 ^ 30 < size ∧ free ≤ used)

/-- The release of held pads (R521). -/
def State.padRelease (s : State) : State :=
  let s := if s.reg .PAD_HOLD = 0 then { s with crow := { s.crow with pads := [] } } else s
  s.gpioSample

/-- A write of a register: its stored value follows the access codes (R14, R536), and its unit acts on it. v: the value
written, of which the lanes count. -/
def State.regWrite (s : State) (w : Who) (r : Reg) (idx : List Nat) (v lanes : Word) : State :=
  let i := idx.headD 0
  let j := idx.getD 1 0
  let old := s.reg r idx
  let v := v &&& lanes
  let new := busKeep r idx old ((r.defFor w).written old v lanes)
  let put := s.setReg r idx new
  let tenant := !w.high
  let far := flag (s.reg .SLICE_FAR [i]) .SLICE_FAR_FAR
  let farEnd := (match w with | .fetas => true | _ => !tenant && far)
  match r with
  | .WDOG_CFG => if v.getLsbD 31 then { put with crow := { put.crow with kicked := s.tick } } else put
  | .PAD_HOLD => put.padRelease
  | .REQ_MSG => if s.boxBusy i then s else put
  | .REQ_RING => if v.getLsbD 0 then s.reqRing i else s
  | .RSP_ACK => if v.getLsbD 0 then s.setFld .FSI_MBX_STAT [i] .FSI_MBX_STAT_RSP_FULL 0 else s
  | .EVT_ACK => if v.getLsbD 0 then s.setFld .FSI_MBX_STAT [i] .FSI_MBX_STAT_EVT_FULL 0 else s
  | .SRC_CFG => (put.followLine i).rechoose
  | .DIST_CTL | .VM_CFG | .LCORE_MAP => put.rechoose
  | .L3_SEED => put.updL3 i fun l => l.seed v.toNat
  | .SRC_SET => if v.getLsbD 0 then s.srcSet i else s
  -- both bits act at once: what is cleared of PENDING is not offered when ACTIVE is cleared (R262)
  | .SRC_CLR =>
    let s := if v.getLsbD 0 then s.srcUnpend i else s
    let s := if v.getLsbD 1 then s.srcDeact i else s
    if v.getLsbD 0 then s.srcUnpend i else s
  -- answered at the end of its window, with its effect (R214, R223)
  | .CLEAT_GIVE => if v.getLsbD 0 then (s.cleatSubmit .give w i).cleatWindow else s
  | .CLEAT_FORCE => if v.getLsbD 0 then (s.cleatSubmit .force w i).cleatWindow else s
  | .OUT_MSG => if s.boxBusy (8 + i) then s.sliceErr i 0 1 else put
  | .IN_MSG => if !farEnd || flag (s.reg .MBX_STAT [i]) .MBX_STAT_IN_FULL then s else put
  | .MBX_OUT_RING => if v.getLsbD 0 then s.slcRing i else s
  | .MBX_OUT_ACK => if v.getLsbD 0 && !tenant then s.boxClear (8 + i) else s
  | .MBX_IN_RING => if v.getLsbD 0 && farEnd then s.inRing i else s
  | .MBX_IN_ACK => if v.getLsbD 0 then s.setFld .MBX_STAT [i] .MBX_STAT_IN_FULL 0 else s
  | .Q_SQ_BASE | .Q_CQ_BASE =>
    let c := s.reg .Q_CFG idx
    if flag c .Q_CFG_EN || flag c .Q_CFG_DRAINING then s else put
  | .Q_CFG => s.wQCfg i j v
  | .Q_SQ_DB => s.wSqDb i j (v.toNat % 4096)
  | .Q_CQ => s.wCqHead i j (v.toNat % 65536)
  | .QBV_BASE_HI => put.qbvCommit i
  | .QBV_CTL => if flag new .QBV_CTL_EN && !flag old .QBV_CTL_EN then put.qbvResume i else put
  -- while a buffer is pending, its identifier and data stay (R336)
  | .CAN_MB_ID | .CAN_MB_DATA => if s.canHeld i j then s else put
  | .SW_CTL => if v.getLsbD 1 then put.fdbFlush else put
  | .PTP_CTL => if v.getLsbD 0 then put.ptpApply i else put
  | .UART_TXD => s.uartPush i (v.setWidth 8)
  | .CAN_CTL => s.wCanCtl i new
  -- a block that leaves the target mode ends a transfer that addressed it (R338)
  | .I2C_CFG => if flag new .I2C_CFG_EN && flag new .I2C_CFG_TARGET then put else put.setI2c i { s.i2c i with tgt := none }
  | .CAN_MB_CTRL => s.wCanCtrl i j v
  | .SPI_XFER => s.wSpiXfer i v
  | .SPI_TXD => s.wSpiTxd i (v.setWidth 8)
  | .I2C_CMD => s.wI2cCmd i v
  | .I2C_TXD => s.wI2cTxd i (v.setWidth 8)
  | .GPIO_SET => (s.setReg .GPIO_OUT idx (s.reg .GPIO_OUT idx ||| v)).gpioSample
  | .GPIO_CLR => (s.setReg .GPIO_OUT idx (s.reg .GPIO_OUT idx &&& ~~~v)).gpioSample
  | .GPIO_OUT | .GPIO_OE | .GPIO_OD => put.gpioSample
  | .TMR_GO => s.wTmrGo v
  | .TMR_CMD => s.wTmrCmd i v
  | .TMR_CTL => put.tmrEval i
  | .TMR_RLD_LO => s.setTmr i { s.tmr i with rldLo := v.toNat % 2 ^ 32 }
  | .TMR_RLD_HI => s.wRldHi i v
  | .TMR_CMP_LO => s.setTmr i { s.tmr i with cmpLo := (s.tmr i).cmpLo.set 0 j (v.toNat % 2 ^ 32) }
  | .TMR_CMP_HI => s.wCmpHi i j v
  | .TT_CFG => if flag new .TT_CFG_EN || flag old .TT_CFG_EN then put.ttAbandon i else put
  | .TT_WIN => if flag (s.reg .TT_CFG idx) .TT_CFG_EN then put.ttAbandon i else put
  | .TT_CMD => if v.getLsbD 0 then s.ttClear i else s
  | .HY_RING_RP => if s.rpOk i new then put else s
  | .DBG_CTL => s.wDbgCtl (coreOfDbg idx) v
  | _ => put

/-- A write of a hit over the lanes. Only Fetas writes the field that CFG_STAT marks as loaded (R11, R16), and system
registers through the debug view, from 0xC00 up (R492). -/
def State.hitWrite (s : State) (w : Who) (h : Hit) (v lanes : Word) : State :=
  match h with
  | .absent => s
  | .cfg u which =>
    if w == .fetas && which == 2 then
      { s with regs := s.regs.set 0 (cfgAt u + 8) ((Reg.CFG_STAT.defFor w).written (s.regs.get 0 (cfgAt u + 8)) v lanes) }
    else s
  | .reg r idx _ => s.regWrite w r idx v lanes
  | .table which off =>
    let x := v &&& 0xFFFFFFFF
    if which = 2 then { s with low := { s.low with qspiProg := s.low.qspiProg.set 0 off x } }
    else if which = 1 then
      let ws := s.sw.words.set 0 off x
      s.setSw fun t => { t with words := ws, tables := (Config.switchTables ws).fit }
    else
      let ws := s.pcie.words.set 0 off x
      s.setPcie fun t => { t with words := ws, tables := Config.pcieTables ws }
  | .stage a =>
    let old := s.hitValue h
    { s with fe := { s.fe with staged := s.fe.staged.set none a (some ((old &&& ~~~lanes) ||| (v &&& lanes))) } }
  | .dbg c kind n _ =>
    if w == .fetas && kind == 3 && decide (0xC00 ≤ n) then
      match lookReg regsSys n with
      | some (r, idx, _) => s.updCore c fun k => k.setReg r idx ((r.defFor w).written (k.reg r idx) v lanes)
      | none => s
    else s

/-! ### Unit registers and slice pages (R33, R280, R536) -/

/-- The binding of a slice page admits a PID tag. -/
def State.boundTo (s : State) (n : Nat) (pid : BitVec 29) : Bool :=
  let b := s.reg .SLICE_BIND [n]
  flag b .SLICE_BIND_VALID && pid.toNat / 2 ^ 16 == bits b .SLICE_BIND_PID / 2 ^ 16 &&
    (flag b .SLICE_BIND_ASID_ANY || pid.toNat % 2 ^ 16 == bits b .SLICE_BIND_PID % 2 ^ 16)

/-- A slice page accepts an access (R280). -/
def State.pageOk (s : State) (w : Who) (n : Nat) : Bool :=
  match w with
  | .fetas => true
  | .dap => false
  | .unit _ => false
  | .far pid => s.boundTo n pid
  | .core _ l pid => l == .h || (s.boundTo n pid && (l == .k || flag (s.reg .SLICE_BIND [n]) .SLICE_BIND_U_OK))

/-- What an address of unit or page space names for a requester: an error kind, or a hit (R36). -/
def State.locate (s : State) (w : Who) (pa : Nat) (wr : Bool := false) : Except Nat Hit :=
  if unitBase ≤ pa ∧ pa < unitEnd then
    match unitPd (pa - unitBase) with
    | none => .error 1
    | some pd =>
      if (pa - unitBase) / 2 ^ 24 = 12 ∧ !s.part.shroud then .error 6
      else if !s.pdUp pd || (eastPd pd && !s.pdUp 92) then .error 4
      else if s.hitOk w (unitHit pa) wr then .ok (unitHit pa) else .error 3
  else if !s.pdUp 103 then .error 4
  else
    match lookReg regsSlice pa with
    | some (r, idx, off) =>
      if s.pageOk w ((pa - sliceBase) / 0x1000) && r.admits w then .ok (.reg r idx off) else .error 3
    | none => .error 3

def lanes32 : Word := 0xFFFFFFFF#64

/-- A 32-bit read (R33, R536). -/
def State.read32 (s : State) (w : Who) (pa : Nat) : Nat × State :=
  match s.locate w pa with
  | .error k => (0, s.busErr w false k pa)
  | .ok h =>
    if h.wide then
      let sh := 8 * (h.off pa)
      let r := s.hitRead w h (BitVec.ofNat 64 (lanes32.toNat * 2 ^ sh))
      (r.1.toNat / 2 ^ sh % 2 ^ 32, r.2)
    else
      let r := s.hitRead w h lanes32
      (r.1.toNat % 2 ^ 32, r.2)

/-- A 32-bit write. -/
def State.write32 (s : State) (w : Who) (pa v : Nat) : State :=
  match s.locate w pa true with
  | .error k => s.busErr w true k pa
  | .ok h =>
    if h.wide then
      let sh := 8 * (h.off pa)
      s.hitWrite w h (BitVec.ofNat 64 (v * 2 ^ sh)) (BitVec.ofNat 64 (lanes32.toNat * 2 ^ sh))
    else s.hitWrite w h (BitVec.ofNat 64 v) lanes32

/-- An 8-byte access meets one 64-bit register, a pair of which at least one half exists, or nothing. -/
def State.whole64 (s : State) (w : Who) (pa : Nat) (wr : Bool := false) : Option (Except Nat Hit) :=
  match s.locate w pa wr, s.locate w (pa + 4) wr with
  | .error k, .error _ => some (.error k)
  | .ok h, _ => if h.wide then some (.ok h) else none
  | _, _ => none

/-- A read of unit or page space. -/
def State.unitRead (s : State) (w : Who) (pa size : Nat) : Nat × State :=
  if size = 8 then
    match s.whole64 w pa with
    | some (.error k) => (0, s.busErr w false k pa)
    | some (.ok h) => let r := s.hitRead w h (BitVec.allOnes 64); (r.1.toNat, r.2)
    | none =>
      let lo := s.read32 w pa
      let hi := lo.2.read32 w (pa + 4)
      (lo.1 + hi.1 * 2 ^ 32, hi.2)
  else if size = 4 then s.read32 w pa
  else
    match s.locate w pa with
    | .error k => (0, s.busErr w false k pa)
    | .ok h => ((s.hitValue h).toNat / 256 ^ (h.off pa) % 256 ^ size, s)

/-- A write of unit or page space; a narrow one is ignored and logged (R33). -/
def State.unitWrite (s : State) (w : Who) (pa size v : Nat) : State :=
  if size = 8 then
    match s.whole64 w pa true with
    | some (.error k) => s.busErr w true k pa
    | some (.ok h) => s.hitWrite w h (BitVec.ofNat 64 v) (BitVec.allOnes 64)
    | none => (s.write32 w pa (v % 2 ^ 32)).write32 w (pa + 4) (v / 2 ^ 32 % 2 ^ 32)
  else if size = 4 then s.write32 w pa (v % 2 ^ 32)
  else
    match s.locate w pa true with
    | .error k => s.busErr w true k pa
    | .ok _ => s.busErr w true 7 pa

/-! ### The whole map (R28, R30) -/

inductive Range where
  | mem | dramBeyond | pcie | unit | qspi | reserved
  deriving DecidableEq, Repr

def State.rangeOf (s : State) (pa : Nat) : Range :=
  if s.isMem pa then .mem
  else if inDram pa then .dramBeyond
  else if inPcie pa then .pcie
  else if (unitBase ≤ pa ∧ pa < unitEnd) ∨ (sliceBase ≤ pa ∧ pa < sliceEnd) then .unit
  else if qspiBase ≤ pa ∧ pa < qspiEnd then .qspi
  else .reserved

/-- A read of one access, aligned to its size. A PCI Express window is read by its own commands. -/
def State.busRead (s : State) (w : Who) (pa size : Nat) : Nat × State :=
  match s.rangeOf pa with
  | .mem =>
    (match s.ioRead pa size w.agent with
     | (.ok d _, s) => (leNat d, s)
     | (_, s) => (0, s))
  | .dramBeyond => (0, s.busErr w false 2 pa)
  | .pcie => (0, if (s.pcieAddr pa).isNone then s.busErr w false s.pcieErrKind pa else s)
  | .unit => s.unitRead w pa size
  | .qspi => if qspiOk s pa then (s.flashRead (pa - qspiBase) size, s) else (0, s.busErr w false 5 pa)
  | .reserved => (0, s.busErr w false 1 pa)

/-- A write of one access, aligned to its size. -/
def State.busWrite (s : State) (w : Who) (pa size v : Nat) : State :=
  match s.rangeOf pa with
  | .mem => (s.ioWrite pa (toLe v size) [] w.agent).2
  | .dramBeyond => s.busErr w true 2 pa
  | .pcie => s.pciePost w.stop pa size (BitVec.ofNat 64 v) w.pidTag
  | .unit => s.unitWrite w pa size v
  | .qspi => s.busErr w true 5 pa
  | .reserved => s.busErr w true 1 pa

/-! ### Device accesses at their target (R188, R213, R214) -/

/-- What the target of a Device load answers. -/
inductive DevAns where
  | val (v : Nat)
  /-- a poisoned sector: cause 0x0D -/
  | bad
  | wait
  deriving DecidableEq, Repr

/-- The target of a core's Device load, other than a PCI Express window, acts on it. The distributor first takes the EOIs
before it, and what it has sent the core, a withdrawal among it, reaches the core before the data (R23, R268 to R270). -/
def State.devRead (s : State) (c : Fin 64) (d : DevLoad) : DevAns × State :=
  if inDist d.pa && (s.eoiDue c.val || s.dist.toCore.any fun m => m.1 == c.val) then (.wait, s)
  else if s.isMem d.pa then
    match s.ucRead (quadOf c) (d.pa / 64) ((s.core c).cls d.lvl) (256 + c.val) d.pid with
    | (none, s) => (.wait, s)
    | (some (v, p), s) => (if p then .bad else .val (secBytes v (d.pa % 64) d.size), s)
  else
    match s.busRead (.core c d.lvl d.pid) d.pa d.size with
    | (v, s) => (.val v, s)

/-- The target of a core's Device store, other than a PCI Express window, acts on it; false: its home has not acknowledged
it yet, or an EOI before it has not reached the distributor. -/
def State.devWrite (s : State) (c : Fin 64) (e : StoreEntry) : Bool × State :=
  if s.isMem e.pa then
    s.ucWrite (quadOf c) (e.pa / 64) e.placed.1 e.placed.2 false e.cls (256 + c.val) e.pid
  else if inDist e.pa then
    if s.eoiDue c.val then (false, s)
    else (true, (s.busWrite (.core c e.lvl e.pid) e.pa e.size e.data.toNat).distActed c.val)
  else (true, s.busWrite (.core c e.lvl e.pid) e.pa e.size e.data.toNat)

/-- The target acts on a Device store at once: the EOIs of the core before it reach the distributor first. -/
def State.devWriteNow (s : State) (c : Fin 64) (e : StoreEntry) : Bool × State :=
  (if inDist e.pa then s.distFlush c.val s.dist.toDist.length else s).devWrite c e

end Sys2Proof.Machine
end

