-- ==== Sys2Proof/Machine/Dram.lean ====
section
/-! DEFINITION. The DRAM groups and the MRAM controller (chapter 9): addresses, the symbol code and die location,
refresh, training, scrub and row sparing, MRAM writes with verify and durability probes, and the error logs. -/

namespace Sys2Proof.Machine

/-! ### Addresses (R232, R233) -/

/-- Column, bank and row of a DRAM block. -/
structure DieAddr where
  group : Nat
  col : Nat
  bank : Nat
  row : Nat
  deriving DecidableEq, Repr

/-- Where a block (physical address divided by 256) lies in its group. -/
def State.dieAddr (s : State) (block : Nat) : DieAddr :=
  let b := block / 2 % (if s.part.dramEnd = dramEnd then 2 ^ 27 else 2 ^ 26)
  { group := block % 2, col := b % 64, bank := (b / 64 % 16) ^^^ (b / 1024 % 16), row := b / 1024 }

/-- Returned data fills the sector of a resident block whose data is not valid (R177). -/
def State.fillL3 (s : State) (n : Nat) (d : BitVec 512) (p : Bool) : State :=
  s.updL3 (homeSec n) fun l => l.updSec .l3 n fun x =>
    if x.dv then x else { x with dv := true, dirty := false, data := d, poison := p }

/-- DRAM_ACCESS_REQUEST (R233): a group in service takes the access of a block. -/
def execDramAccessRequest (block : BlockNo) (s : State) : Host.Outcome State Fault Refusal :=
  ok (if s.groupUp (block.val % 2) && decide (block.val * 256 < s.part.dramEnd) then
      { s with dram := { s.dram with reads := s.dram.reads ++ [block.val] } } else s)

/-- The sector of a block that is decoded first: the one its home's transaction asks for (R237). -/
def State.firstSec (s : State) (block : Nat) : Nat :=
  match (s.home (homeSec (block * 4))).trans.find? fun t => t.req.sec / 4 == block with
  | some t => t.req.sec % 4
  | none => 0

/-- DRAM_READ_RETURN (R237 to R240): the burst of an outstanding block access returns with the errors and calibration
results given; each sector is decoded, and fills its block in the L3, where the requests that wait for it go on. -/
def execDramReadReturn (block : BlockNo) (errs : List (Fin 16 × Fin 18 × BitVec 8)) (pattern : BitVec 9) (s : State) :
    Host.Outcome State Fault Refusal :=
  ok (if !s.dram.reads.contains block.val then s
    else
      let s := { s with dram := { s.dram with reads := s.dram.reads.erase block.val } }
      let first := s.firstSec block.val
      let s := (List.range 4).foldl (fun s i =>
        let k := (first + i) % 4
        match s.decodeRead block.val k errs pattern with
        | ((d, p), s) =>
          let s := { s with dram := { s.dram with back := s.dram.back ++ [(block.val * 4 + k, d, p)] } }
          s.fillL3 (block.val * 4 + k) d p) s
      let s := s.homesGo
      { s with dram := { s.dram with back := [] } })

/-- DRAM_WRITE (R240, R241): whole sectors are written; a narrower write merges with what a read of the sector decodes to, and
a merge into a poisoned sector leaves it poisoned. -/
def execDramWrite (sec : SecNo) (data : BitVec 512) (mask : BitVec 64) (poison : Bool) (s : State) :
    Host.Outcome State Fault Refusal :=
  ok (if !inDram (sec.val * 64) || decide (s.part.dramEnd ≤ sec.val * 64) || !s.groupUp (groupOf sec.val) then s
    else if mask = BitVec.allOnes 64 then s.writeBack sec.val data poison
    else match s.memRead sec.val with
      | ((d, p), s) => s.writeBack sec.val (mergeBytes d data mask) p)

/-- DRAM_REFRESH (R242): a per-bank refresh keeps the cells; nothing software can reach changes. -/
def execDramRefresh (_g : Fin 2) (s : State) : Host.Outcome State Fault Refusal := ok s

/-! ### Data rate, training sets and drift tracking (R235, R243 to R246) -/

/-- What a group's temperature and load call for (R243). -/
def State.evalSet (s : State) (g : Nat) : State :=
  let t := s.fld .MG_STATUS [g] .MG_STATUS_TEMP
  let b := s.dram.busy.get 0 g
  let hot := decide (80 + 64 ≤ t ∨ 50 ≤ b) || (s.dram.hot.get false g && !decide (t ≤ 70 + 64 ∧ b ≤ 30))
  { s with dram := { s.dram with hot := s.dram.hot.set false g hot } }

/-- DIE_TEMP_READ (R242): the hottest die of a group, in °C plus 64, sets TEMP and the refresh rate. -/
def execDieTempRead (g : Fin 2) (hottest : BitVec 8) (s : State) : Host.Outcome State Fault Refusal :=
  let t := hottest.toNat
  let mul := if t ≤ 85 + 64 then 0 else if t ≤ 105 + 64 then 1 else 2
  ok (((s.setFld .MG_STATUS [g.val] .MG_STATUS_TEMP t).setFld .MG_STATUS [g.val] .MG_STATUS_REFMUL mul).evalSet g.val)

/-- A group's drift-tracking windows since its power-up (R372). -/
def State.countWindow (s : State) (g : Nat) : State :=
  { s with dram := { s.dram with windows := s.dram.windows.set 0 g (s.dram.windows.get 0 g + 1) } }

/-- A pending rate change of a group is made, as one of its windows (R235). -/
def State.applyRate (s : State) (g : Nat) : State :=
  match s.dram.ratePend.get none g with
  | none => s
  | some r =>
    let s := (s.setFld .MG_STATUS [g] .MG_STATUS_RATE r).countWindow g
    { s with dram := { s.dram with ratePend := s.dram.ratePend.set none g none } }

/-- A change of a group's data rate is scheduled; in modes M1 to M3 it is made at once (R235). -/
def State.wantRate (s : State) (g r : Nat) : State :=
  if !s.groupUp g then s
  else
    let want := if s.fld .MG_STATUS [g] .MG_STATUS_RATE = r then none else some r
    let s := { s with dram := { s.dram with ratePend := s.dram.ratePend.set none g want } }
    if s.mode = .m1 ∨ s.mode = .m2 ∨ s.mode = .m3 then s.applyRate g else s

/-- The data rate follows a new case-temperature estimate, in tenths of a degree (R235). -/
def State.followCase (s : State) (t : Int) : State :=
  let cool := if t ≤ 950 then some (s.dram.coolSince.getD s.time) else none
  let s := { s with dram := { s.dram with coolSince := cool } }
  if 980 ≤ t then (s.wantRate 0 1).wantRate 1 1
  else if cool.any fun c => decide (c + 1000000000 ≤ s.time) then (s.wantRate 0 0).wantRate 1 0
  else s

/-- The place of a timing value: channel 0 to 17, set (1: hot/loaded), data rate (1: 6.4 GT/s), direction (1: write). -/
def trainKey (ch set rate dir : Nat) : Nat := ((ch * 2 + set) * 2 + rate) * 2 + dir

/-- Add a correction to the timing values of both sets of a channel (R244). -/
def State.correctTiming (s : State) (ch : Nat) (d : Word) : State :=
  let m := (List.range 8).foldl (fun m i => SMap.set 0 m (ch * 8 + i) (m.get 0 (ch * 8 + i) + d)) s.dram.timing
  { s with dram := { s.dram with timing := m } }

/-- Train a set of a channel: its values are what the hardware finds, free values (log entry 94). -/
def State.trainSet (s : State) (ch set : Nat) : State :=
  (List.range 4).foldl (fun (s : State) i =>
    match s.fresh with
    | (w, s) => { s with dram := { s.dram with timing := s.dram.timing.set 0 ((ch * 2 + set) * 4 + i) w } }) s

/-- A retrain of every channel of a group begins, unless one is in progress (R245). -/
def State.startRetrain (s : State) (g : Nat) : State :=
  if (s.dram.retrain.get [] g).isEmpty then
    { s with dram := { s.dram with retrain := s.dram.retrain.set [] g (List.range 9) } }
  else s

/-- A channel takes the set its group calls for (R243). -/
def State.applySet (s : State) (g ch : Nat) : State :=
  let set := s.fld .MG_STATUS [g] .MG_STATUS_SET
  let other := if set.testBit ch then set - 2 ^ ch else set
  s.setFld .MG_STATUS [g] .MG_STATUS_SET (other + (if s.dram.hot.get false g then 2 ^ ch else 0))

/-- A drift-tracking window of a channel (R239, R244, R245): a pending set switch, the correction in 1/64 of a unit
interval as a 6-bit two's complement number (log entry 94), and the calibration pattern. -/
def State.driftWindow (s : State) (g ch : Nat) (drift : BitVec 6) (wrong : Bool) : State :=
  let s := (((s.countWindow g).applySet g ch).correctTiming (g * 9 + ch) (drift.signExtend 64))
  let s := if 8 < drift.toInt.natAbs then s.startRetrain g else s
  if wrong && flag (s.reg .MG_STATUS [g]) .MG_STATUS_DEGRADED then s.markDie g ch else s

/-- DRIFT_TRACKING_WINDOW (R235, R239, R243 to R245): channel index ch of a group; busy: busy share of the last 10 ms in
per cent; drift: the correction; wrong: its calibration pattern read wrong. A pending rate change takes its place. -/
def execDriftTrackingWindow (g : Fin 2) (ch : Fin 9) (busy : Fin 101) (drift : Fin 64) (wrong : Bool) (s : State) :
    Host.Outcome State Fault Refusal :=
  let s := ({ s with dram := { s.dram with busy := s.dram.busy.set 0 g.val busy.val } }).evalSet g.val
  ok (if (s.dram.ratePend.get none g.val).isSome then s.applyRate g.val
    else s.driftWindow g.val ch.val (BitVec.ofNat 6 drift.val) wrong)

/-- RETRAIN_WINDOW (R245): a set switch that is due comes first; the active set of one channel is retrained; after the
last, KIND 0x6 is logged. -/
def execRetrainWindow (g : Fin 2) (ch : Fin 9) (s : State) : Host.Outcome State Fault Refusal :=
  let l := s.dram.retrain.get [] g.val
  if !l.contains ch.val then ok s
  else
    let s := (s.applySet g.val ch.val).trainSet (g.val * 9 + ch.val) (b2n (s.dram.hot.get false g.val))
    let s := { s with dram := { s.dram with retrain := s.dram.retrain.set [] g.val (l.erase ch.val) } }
    ok (if (l.erase ch.val).isEmpty then (s.logMg g.val 6 0xF 0).endHolding 0xD03 (.mem g.val) {} else s)

/-- The timing values of a group's channels. -/
def State.groupTiming (s : State) (g : Nat) : SMap Word := s.dram.timing.filter fun e => e.1 / 72 == g

/-- Full training of a group: both sets of every channel, which Fetas records (R246). -/
def State.fullTraining (s : State) (g : Nat) : State :=
  let s := (List.range 9).foldl (fun s c => (s.trainSet (g * 9 + c) 0).trainSet (g * 9 + c) 1) s
  { s with fe := { s.fe with training := s.fe.training.set none g (some (s.groupTiming g)) } }

/-- A group comes into service (R246): its sets from the record of Fetas, or full training; then a window on every
channel, whose corrections are free values (log entry 94). -/
def State.groupStart (s : State) (g : Nat) : State :=
  let s := match s.fe.training.get none g with
    | some m => { s with dram := { s.dram with timing := m.foldl (fun (t : SMap Word) (e : Nat × Word) => SMap.set 0 t e.1 e.2) s.dram.timing } }
    | none => s.fullTraining g
  let s := (List.range 9).foldl (fun s c =>
    match s.fresh with
    | (w, s) => s.driftWindow g c (w.setWidth 6) false) s
  s.setFld .MG_STATUS [g] .MG_STATUS_READY 1

/-- A row with corrected errors in three blocks within a pass is redirected to a spare row; with none left Fetas reports
it by a HEALTH event (R248). DESIGN CHOICE (log entry 94): a row that has been redirected is not spared again. -/
def State.spareRow (s : State) (g ch : Nat) (a : DieAddr) (block : Nat) : State :=
  let c := g * 9 + ch
  let hit := (c, a.bank, a.row, block)
  if s.dram.spared.contains (c, a.bank, a.row) then s else
  let hits := if s.dram.scrubHits.contains hit then s.dram.scrubHits else s.dram.scrubHits ++ [hit]
  let s := { s with dram := { s.dram with scrubHits := hits } }
  if (hits.filter fun h => h.1 == c && h.2.1 == a.bank && h.2.2.1 == a.row).length < 3 then s
  else
    let used := s.dram.sparesUsed.get 0 (c * 16 + a.bank)
    if 8 ≤ used then (s.count .retired).healthEvent
    else
      let s := { s with dram := { s.dram with
        sparesUsed := s.dram.sparesUsed.set 0 (c * 16 + a.bank) (used + 1),
        spared := s.dram.spared ++ [(c, a.bank, a.row)] } }
      (s.countFld .MG_SPARE [g] .MG_SPARE_ROWS).logMg g 5 ch (block * 4)

/-- DRAM_PATROL_SCRUB (R247, R248): a block is read; what decodes as corrected is rewritten with the corrected data, no
write coming between; an uncorrectable sector with valid data in the L3 is marked dirty there; the pass goes on. -/
def execDramPatrolScrub (block : BlockNo) (errs : List (Fin 16 × Fin 18 × BitVec 8)) (pattern : BitVec 9) (s : State) :
    Host.Outcome State Fault Refusal :=
  let b := block.val
  if s.part.dramEnd ≤ b * 256 ∨ !s.groupUp (b % 2) then ok s
  else
    let g := b % 2
    let a := s.dieAddr b
    let s := (List.range 4).foldl (fun s k =>
      let n := b * 4 + k
      match s.decodeBurst b k errs pattern with
      | ((d, .fixed die), s) => (s.setMemSec n d false).spareRow g die a b
      | ((_, .lost), s) => s.updL3 (homeSec n) fun l => l.updSec .l3 n fun x => if x.dv then { x with dirty := true } else x
      | (_, s) => s) s
    let blocks := s.part.dramEnd / 512
    let i := b / 2 + 1
    let s := s.setFld .MG_SCRUB [g] .MG_SCRUB_PROGRESS (i % blocks * 1024 / blocks)
    ok (if i = blocks then
        { (s.countFld .MG_SCRUB [g] .MG_SCRUB_PASSES) with
          dram := { s.dram with scrubHits := s.dram.scrubHits.filter fun h => h.1 / 9 != g } }
      else s)

/-! ### MRAM (R251 to R255) -/

/-- The wrong bits that an MRAM sector shows from now on, unless a write of it is queued (R252, R253). -/
def State.mramShows (s : State) (n errs : Nat) : State :=
  if s.mramQ.any fun w => w.sec == n then s else { s with dram := { s.dram with mrErrs := s.dram.mrErrs.set 0 n errs } }

/-- MRAM_READ (R251 to R253): a sector is read with a number of bit errors; the data fills its block in the L3. -/
def execMramRead (sec : SecNo) (errs : Fin 513) (s : State) : Host.Outcome State Fault Refusal :=
  ok (if !inMram (sec.val * 64) || !s.pdUp 97 then s
    else match (s.mramShows sec.val errs.val).mramRead sec.val with
      | ((d, p), s) => s.fillL3 sec.val d p)

/-- MRAM_WRITE_ACCEPT (R252): the write enters its die's queue; reads return its data from now on. With 16 sectors
queued it is not accepted yet. -/
def execMramWriteAccept (sec : SecNo) (data : BitVec 512) (poison : Bool) (s : State) : Host.Outcome State Fault Refusal :=
  ok (if !inMram (sec.val * 64) || !s.pdUp 97 ||
        decide (16 ≤ (s.mramQ.filter fun w => mramDie w.sec == mramDie sec.val).length) then s
    else s.writeBack sec.val data poison)

/-- MRAM_WRITE_VERIFY (R254): the oldest write of a die ends. wrong0, wrong1, wrong2: wrong bits after the first pass and
after each retry. -/
def execMramWriteVerify (die : Fin 4) (wrong0 wrong1 wrong2 : Fin 513) (s : State) : Host.Outcome State Fault Refusal :=
  ok (s.mramVerify die.val (wrong0.val, wrong1.val, wrong2.val)).pumpDurable

/-- DURABILITY_PROBE (R252): the controller receives a probe, of a core or (64) of Fetas; it is answered once every write
accepted before it is durable. -/
def execDurabilityProbe (who : Fin 65) (s : State) : Host.Outcome State Fault Refusal :=
  let hear (p : Probe) : Probe := if p.who = who.val ∧ !p.received then { p with received := true, waits := s.probeWaits } else p
  ok { s with probes := s.probes.map hear }.answerProbes.pumpDurable

/-- MRAM_PATROL_SCRUB (R255): a sector with two or more corrected bits is written again, unless a write to it has been
accepted meanwhile. -/
def execMramPatrolScrub (sec : SecNo) (errs : Fin 513) (s : State) : Host.Outcome State Fault Refusal :=
  let n := sec.val
  if !inMram (n * 64) || !s.pdUp 97 then ok s
  else
    match (s.mramShows n errs.val).mramRead n with
    | ((d, p), s) =>
      ok (if 2 ≤ errs.val ∧ errs.val ≤ 4 ∧ !(s.mramQ.any fun w => w.sec == n) then s.writeBack n d p else s)

end Sys2Proof.Machine
end

