-- ==== Sys2Proof/Machine/Signed.lean ====
section
/-! DEFINITION. Signed objects, image headers, manifests and wrapped keys (R497, R498, R500, R502, R504, R505). -/

namespace Sys2Proof.Machine

def le16 (b : Bytes) (o : Nat) : Nat := leNat (piece b o 2)
def le32 (b : Bytes) (o : Nat) : Nat := leNat (piece b o 4)
def le64 (b : Bytes) (o : Nat) : Nat := leNat (piece b o 8)
def byteAt (b : Bytes) (o : Nat) : Nat := (b.getD o 0).toNat
/-- n bytes at an offset are zero. -/
def zeroAt (b : Bytes) (o n : Nat) : Bool := (piece b o n).all fun x => x == 0

/-! ### The hybrid signature (R497) -/

/-- Bytes of a signature block. -/
def sigLen : Nat := 5454

/-- A block signs an object: its keys hash to the key hash required, when one is, and both signatures verify the digest. -/
def hybridOk (kh : Option (BitVec 384)) (obj blk : Bytes) : Bool :=
  let d := sha384 obj
  blk.length == sigLen &&
    (match kh with | none => true | some h => beNat (sha384 (blk.take 2049)) == h.toNat) &&
    ecdsaVerify (piece blk 0 97) d (piece blk 2049 96) && mldsaVerify (piece blk 97 1952) d (piece blk 2145 3309)

/-- The hash of the Tilelacia key for Fetas firmware, and for the Returned state (R499; log entry 42). -/
def fwKeyHash : Option (BitVec 384) := some Config.tilFwKh

/-- The key hash that host images, sail plans and manifests must match in a lifecycle state; none: any key pair (R500). -/
def State.cusKeyHash (s : State) : Option (BitVec 384) :=
  match s.fe.otp.lifecycle with
  | 0 => none
  | 3 => some Config.tilRetKh
  | _ => some s.fe.otp.cusImg

/-! ### Image headers (R498) -/

structure ImgHead where
  version : Nat
  floor : Nat
  length : Nat
  load : Nat
  entry : Nat
  seg : Nat
  pt : Nat
  vec : Nat
  handoff : Nat
  hash : BitVec 384
  deriving DecidableEq, Repr

/-- The header of an image of a type, when its fixed fields are as R498 has them. -/
def imgHead (typ : Nat) (b : Bytes) : Option ImgHead :=
  let floor := le16 b 0x0C
  let top := if typ = 1 then 127 else if typ = 2 then 255 else 0
  if b.length < 256 ∨ le32 b 0 ≠ 0x5944494D ∨ byteAt b 4 ≠ typ ∨ byteAt b 5 ≠ 1 ∨ !zeroAt b 6 2 ∨ top < floor ∨
      !zeroAt b 0x0E 6 ∨ !zeroAt b 0x78 136 ∨ (typ ≠ 2 ∧ !zeroAt b 0x18 0x30) then none
  else
    some { version := le32 b 8, floor := floor, length := le32 b 0x14, load := le64 b 0x18, entry := le64 b 0x20,
           seg := le64 b 0x28, pt := le64 b 0x30, vec := le64 b 0x38, handoff := le64 b 0x40,
           hash := BitVec.ofNat 384 (beNat (piece b 0x48 48)) }

/-- The bytes of the host banks in MRAM (R493). -/
def hostBankPa (b : Bool) : Nat := if b then 0x101F800000 else 0x101F000000
def hostBankLen : Nat := 0x800000

/-- A range lies in the fitted DRAM or in MRAM, outside the host banks. -/
def State.hostRange (s : State) (pa len : Nat) : Bool :=
  (decide (pa + len ≤ s.part.dramEnd) || (decide (mramBase ≤ pa) && decide (pa + len ≤ mramEnd))) &&
    (decide (pa + len ≤ hostBankPa false) || decide (mramEnd ≤ pa) || decide (len = 0))

/-- A signed image of a type, verified whole: its header, with the payload (R497, R498). -/
def State.verifyImage (s : State) (typ : Nat) (kh : Option (BitVec 384)) (b : Bytes) : Option (ImgHead × Bytes) :=
  match imgHead typ b with
  | none => none
  | some h =>
    let pay := piece b 256 h.length
    let obj := b.take (256 + h.length)
    let blk := piece b (256 + h.length) sigLen
    let fits :=
      if typ = 2 then decide (256 + h.length + sigLen ≤ hostBankLen) && s.hostRange h.load h.length &&
        s.hostRange h.handoff 4096 && decide (h.handoff % 4096 = 0)
      else if typ = 1 then decide (h.length ≤ 2 ^ 20)
      else true
    if fits && pay.length == h.length && beNat (sha384 pay) == h.hash.toNat && hybridOk kh obj blk then some (h, pay) else none

/-! ### Manifests (R502, R503) -/

/-- A manifest is applied when it passes R497 and asks for the next permitted state; the fuses it programs. A field that
already holds another value refuses it. keep: 0 means that a field is not yet programmed. -/
def State.applyManifest (s : State) (b : Bytes) : Option State :=
  let o := s.fe.otp
  if o.lifecycle = 3 then none else
  match s.verifyImage 5 s.cusKeyHash b with
  | none => none
  | some (_, p) =>
    let want := byteAt p 0
    let lock := byteAt p 1
    let img := BitVec.ofNat 384 (beNat (piece p 2 48))
    let dbg := BitVec.ofNat 384 (beNat (piece p 0x32 48))
    let keys := piece p 0x62 2049
    let fresh {n : Nat} (old new : BitVec n) : Bool := old == 0 || old == new
    if p.length < 0x863 ∨ lock % 2 = 1 ∨ 16 ≤ lock then none
    else if want = 1 ∧ o.lifecycle = 0 then
      if beNat (sha384 keys) = dbg.toNat ∧ fresh o.cusImg img ∧ fresh o.cusDbg dbg then
        some { s with fe := { s.fe with otp := { o with lifecycle := 1, cusImg := img, cusDbg := dbg }, dbgKey := keys } }
      else none
    else if want = 2 ∧ o.lifecycle = 1 then
      if o.srcLock = 0 ∨ o.srcLock = lock then some { s with fe := { s.fe with otp := { o with lifecycle := 2, srcLock := lock } } }
      else none
    else if want = 3 ∧ (o.lifecycle = 1 ∨ o.lifecycle = 2) then
      -- entering Returned erases state, plan, furl, douse and host records, and the keys kept with them (R501)
      let fe := s.fe
      some { s with dram := { s.dram with slotKey := [], keyBase := s.dram.keyNext, keyNext := s.dram.keyNext + 8192 }
                    fe := { otp := { o with lifecycle := 3 }, dbgKey := fe.dbgKey, fw := fe.fw, hostBanks := fe.hostBanks,
                            voltBase := fe.voltBase, junction := fe.junction, caseTemp := fe.caseTemp,
                            healthKnown := fe.healthKnown, healthClear := fe.healthClear } }
    else none

/-! ### Wrapped keys (R504, R505) -/

/-- RET: 1 once the part is Returned. -/
def State.ret (s : State) : Nat := if s.fe.otp.lifecycle = 3 then 1 else 0

/-- The scalar of the device import key. -/
def importScalar (ret : Nat) : Nat :=
  beNat (hmac384 (toBe Config.drs.toNat 32) ([0x69, 0x6D, 0x70, 0x6F, 0x72, 0x74] ++ [BitVec.ofNat 8 ret]))

/-- The device import public key. -/
def State.importKey (s : State) : Bytes := ecdsaPublic (importScalar s.ret)

/-- "YRD9640 key import". -/
def importInfo : Bytes :=
  [0x59, 0x52, 0x44, 0x39, 0x36, 0x34, 0x30, 0x20, 0x6B, 0x65, 0x79, 0x20, 0x69, 0x6D, 0x70, 0x6F, 0x72, 0x74]

/-- The length of a key of a kind. -/
def wrapLen : Nat → Nat
  | 0 => 64
  | 1 => 16
  | 2 => 32
  | 3 => 48
  | 4 => 32
  | _ => 0

/-- The key in a wrap of a kind, or none when the wrap is refused (R505). -/
def State.unwrap (s : State) (kind : Nat) (b : Bytes) : Option Bytes :=
  let len := wrapLen kind
  let x := beNat (piece b 9 48)
  let y := beNat (piece b 57 48)
  if len = 0 ∨ b.length ≠ 0x79 + len + 16 ∨ le32 b 0 ≠ 0x5944574B ∨ byteAt b 4 ≠ kind ∨ !zeroAt b 5 3 ∨ le32 b 0x75 ≠ len ∨
      byteAt b 8 ≠ 4 ∨ !p384on x y then none
  else
    match p384mul 384 (importScalar s.ret % p384n) (some (x, y)) with
    | none => none
    | some (z, _) =>
      let prk := hmac384 (toLe Config.dieId.toNat 16) (toBe z 48)
      let key := (hmac384 prk (importInfo ++ [1])).take 32
      gcmDecrypt key (piece b 0x69 12) (b.take 0x79) (b.drop 0x79)

end Sys2Proof.Machine
end

