-- ==== Sys2Proof/Machine/Power.lean ====
section
/-! DEFINITION. Power domains, the stop of a core, furl and unfurl, reef levels, and the boot entry (R37 to R40, R197,
R203, R229 to R231, R276, R379, R381, R384 to R386, R407, R425, R496, R521). -/

namespace Sys2Proof.Machine

/-! ### What a domain holds (R32, R37) -/

/-- The domain of a register by its address; the Shroud's own are numbered by their offset. -/
def addrPd (a : Nat) : Nat :=
  if unitBase ≤ a ∧ a < unitEnd then (unitPd (a - unitBase)).getD 0 else if a < unitBase then 1 else 103

/-- The fields that Fetas keeps and loads again when their domain returns (R16, R386): bindings, grants and windows of the
slices, and what it records of the memory groups, the MRAM dies and its own start. -/
def keptRegs : List (Reg × Word) :=
  [(.MG_STATUS, 0xF8000000), (.MG_SPARE, 0xFF), (.DKEY_MAP, 0x80001FFF), (.MR_STATUS, 0xFF), (.MR_DIE, 0x3FFF),
   (.MKEY_MAP, 0x80001FFF), (.FSI_STATUS, 0xFFFF0002), (.BOOT_STAT, 0xFFFFFFFF)]

/-- What a stored register holds after a cold start of its domain; none: its reset value. SLICE_GEN is not loaded (R16). -/
def keptWord (a : Nat) (v : Word) : Option Word :=
  if sliceBase ≤ a ∧ a < sliceEnd then
    (if 0x100 ≤ a % 0x1000 ∧ a % 0x1000 < 0x1A0 ∧ a % 0x1000 ≠ (Reg.SLICE_GEN).at [0] % 0x1000 then some v else none)
  else match keptRegs.find? fun e => (e.1.match? a).isSome with
    | some (r, m) =>
      let w := (v &&& m) ||| (r.spec.reset &&& ~~~m)
      if w = r.spec.reset then none else some w
    | none => none

/-- A cache that keeps nothing but its retirement record (R203). DESIGN CHOICE (log entry 91): the suspect frames of R201
are part of that record. -/
def Cache.kept (c : Cache) : Cache := { retired := c.retired, suspects := c.suspects }

/-- A nonzero seed, fixed or drawn as the plan selects (R180). -/
def State.seedDraw (s : State) : BitVec 16 × State :=
  if s.fe.plan.lfsrDrawn then
    match s.fresh with
    | (w, s) => (BitVec.ofNat 16 (w.toNat % 65535 + 1), s)
  else (1, s)

/-- The output registers of the GPIO pads. -/
def padRegs : List Nat := [Reg.GPIO_OUT, .GPIO_OE, .GPIO_OD].flatMap fun r => [r.at [0], r.at [1]]

/-- The DRAM of a group loses its contents (R246). -/
def State.loseGroup (s : State) (g : Nat) : State :=
  let mine (sec : Nat) : Bool := inDram (sec * 64) && groupOf sec == g
  { s with mem := s.mem.filter (fun e => !mine (e.1 / 64)), poisoned := s.poisoned.filter fun n => !mine n,
           dram := { s.dram with writtenKey := s.dram.writtenKey.filter fun e => !mine e.1 } }.setFld
    .MG_SPARE [g] .MG_SPARE_POISONED 0

/-- The Shroud port is down on the main side: SEND and AUDIT are answered 0x0009, and what waits is given up (R447). -/
def State.portDown (s : State) : State :=
  let fe := { s.fe with shrOut := [], shrWait := none }
  let a : Ans := { status := stDenied, detail := 9 }
  (({ s with fe := fe, shr := { s.shr with rung := false } }).endHolding 0xA02 .shroud a).endHolding 0xA04 .shroud a

/-- A core that goes off has no invalidation outstanding, as issuer or as target (R76). -/
def State.endInvals (s : State) (p : Nat) : State := s.finishInvals fun r => r.1 == p || r.2.1 == p

/-- A quad that goes off asks for nothing, and holds nothing that a home waits for (R39). -/
def State.dropQuad (s : State) (q : Nat) : State :=
  let s := { s with net := s.net.filter fun m => m.quad != q }
  let s := (List.range 8).foldl (fun s h => s.updHome h fun k =>
    { k with waiting := k.waiting.filter fun m => m.quad != q,
             trans := k.trans.map fun t => { t with snoops := t.snoops.filter fun x => x.2 != q } }) s
  { s.homesGo with net := s.homesGo.net.filter fun m => m.quad != q }

/-- A home that goes off takes with it what quads keep for its blocks: evictions to it and data from it (R40). -/
def State.dropHome (s : State) (h : Nat) : State :=
  (List.range 16).foldl (fun s q => s.updQuad q fun k =>
    { k with evict := k.evict.filter fun v => homeSec (v.block * 4) != h, fills := k.fills.filter fun m => homeSec m.sec != h })
    { s with net := s.net.filter fun m => homeSec m.sec != h }

/-- The state that the logic of a domain loses with it, beside its registers. keep: DRAM dies hold self-refresh. -/
def State.loseUnit (s : State) (d : Nat) (keep : Bool) : State :=
  if d = 2 then { s with fe := { s.fe with shrHeld := [] } }.portDown
  else if 3 ≤ d ∧ d < 67 then
    (s.endInvals (d - 3)).updCore (Fin.ofNat 64 (d - 3)) fun k => { l1i := k.l1i.kept, l1d := k.l1d.kept }
  else if 67 ≤ d ∧ d < 83 then
    let q := d - 67
    -- packets to and from a stop that is off are lost
    let s := s.dropQuad q
    (s.setQuad q { l2 := (s.quad q).l2.kept }).setReg .QUAD_REEF [q] (s.reg .QUAD_REEF [q] &&& 0xFF000000)
  else if 83 ≤ d ∧ d < 91 then
    (s.dropHome (d - 83)).setHome (d - 83) { l3 := (s.home (d - 83)).l3.kept }
  else if d = 91 then { s with dist := {}, cleats := {}, pulses := [], errReports := [], remoteInv := [] }
  else if d = 93 ∨ d = 95 then
    let g := (d - 93) / 2
    let x := s.dram
    let s := s.endHolding 0xD03 (.mem g) {}
    let s := { s with dram := { x with reads := x.reads.filter fun b => b % 2 != g, ratePend := x.ratePend.set none g none,
                                       ceTimes := x.ceTimes.set [] g [], retrain := x.retrain.set [] g [], windows := x.windows.set 0 g 0,
                                       hot := x.hot.set false g false, busy := x.busy.set 0 g 0,
                                       timing := x.timing.filter (fun e => e.1 / 72 != g),
                                       scrubHits := x.scrubHits.filter fun h => h.1 / 9 != g } }
    -- a home that waits for an access of the group goes on
    s.homesGo.setFld .MG_STATUS [g] .MG_STATUS_READY 0
  else if d = 94 ∨ d = 96 then (if keep then s else s.loseGroup ((d - 94) / 2))
  else if d = 97 then { s with mramQ := [], probes := [] }.setFld .MR_STATUS [] .MR_STATUS_READY 0
  else if d = 98 then { s with sw := { vports := s.sw.vports } }
  else if 99 ≤ d ∧ d < 102 then
    (List.range 12).foldl (fun s p => if portPd p = d ∧ flag (s.reg .PORT_STATUS [p]) .PORT_STATUS_LINK then
      s.linkChange p false 0 false else s)
      (if d = 101 then ((s.setReg .T1L_DIAG [10] 0).setReg .T1L_DIAG [11] 0).setSw fun w => { w with mse := [] } else s)
  else if d = 102 then { s with pcie := { inWins := s.pcie.inWins, msi := s.pcie.msi } }
  else if d = 103 then { s with slices := { keys := s.slices.keys, jobNext := s.slices.jobNext, drains := s.slices.drains } }
  else if d = 104 then s
  else if d = 105 then { s with telltales := [] }
  else if d = 106 then
    let low : LowSpeed := { ext := s.low.ext, flash := s.low.flash }
    let pads : SMap Word := padRegs.foldl (fun m a => SMap.set 0 m a (s.regs.get 0 a)) []
    let pads := (List.range 6).foldl (fun m u => SMap.set 0 m ((Reg.UART_CFG).at [u]) (BitVec.ofNat 64 (b2n (s.uartDe u)))) pads
    let pads := if s.reg .PAD_HOLD = 0 then pads else s.crow.pads
    { s with low := low, timers := [], crow := { s.crow with pads := pads } }.setReg .PAD_HOLD [] 3
  else s

/-- A domain is switched off: its registers and its logic lose their state (R16). -/
def State.domainOff (s : State) (d : Nat) (keep : Bool := false) : State :=
  if d = 0 ∨ d = 1 ∨ !s.pdOn.contains d then s else
  let s := s.loseUnit d keep
  { s with regs := s.regs.filterMap (fun e => if addrPd e.1 ≠ d then some e else (keptWord e.1 e.2).map fun v => (e.1, v)), pdOn := s.pdOn.erase d, pdMoving := s.pdMoving.erase d }

/-- Domains switched off, in the order given. -/
def State.domainsOff (s : State) (l : List Nat) (keep : Bool := false) : State := l.foldl (fun s d => s.domainOff d keep) s

/-! ### Register images (R399, R400) -/

/-- The unit base of a configuration unit that is not a core. -/
def cfgBase (u : Nat) : Nat :=
  unitBase + ([0, 1, 2, 3, 4, 4, 5, 6, 6, 6, 6, 6, 6, 6, 6, 7, 8, 9, 10, 11, 12].getD u 0) * 0x1000000

/-- The image of a unit under a trim: the values that its sections give, by address or system-register number. Every
other covered register is at its reset value. -/
def Plan.image (p : Plan) (u m : Nat) : SMap Word :=
  let base := if u < 21 then cfgBase u else 0
  let put (t : Nat) (a : SMap Word) : SMap Word :=
    p.secs.foldl (fun a x => if x.unit = u ∧ x.trim = t then x.regs.foldl (fun a e => a.insert (base + e.off) e.value) a else a) a
  put m (put 0xFF [])

/-- A unit that the plan holds (R399). -/
def Plan.held (p : Plan) (u : Nat) : Bool := p.secs.any fun x => x.unit == u && x.trim == 0xFF && x.held

/-- The coverage of a key of a unit. -/
def covOf (u a : Nat) : Option Cov := (covered (min u 21)).find? fun c => c.has a

/-- Write a covered register of a memory-mapped unit as a switch does: its covered bits take the value. LCORE_MAP follows
the placement of the logical cores and not the image (log entry 41). -/
def State.putCov (s : State) (u a : Nat) (v : Word) : State :=
  match covOf u a, unitHit a with
  | none, _ => s
  | some c, .reg r idx _ =>
    if r == .LCORE_MAP then s else
    let s := if r.spec.rw &&& c.mask = 0 then s else s.hitWrite .fetas (.reg r idx 0) v (c.mask &&& r.spec.rw)
    let m := c.mask &&& ~~~r.spec.rw
    if m = 0 then s else s.setReg r idx ((s.reg r idx &&& ~~~m) ||| (v &&& m))
  | some c, h => s.hitWrite .fetas h v c.mask

/-- Write a covered system register of a core. -/
def Core.putCov (k : Core) (n : Nat) (v : Word) : Core :=
  match covOf 21 n, lookReg regsSys n with
  | some c, some (r, idx, _) => if r == .CORE_ID then k else k.setReg r idx ((k.reg r idx &&& ~~~c.mask) ||| (v &&& c.mask))
  | _, _ => k

/-- The covered keys at which a unit or its image can differ from reset. -/
def State.covKeys (s : State) (u : Nat) (img : SMap Word) : List Nat :=
  ((s.cfgWords u).filterMap fun e => if (covOf u e.1).isSome then some e.1 else none) ++
    img.filterMap fun e => if (covOf u e.1).isSome then some e.1 else none

def Core.covKeys (k : Core) (img : SMap Word) : List Nat :=
  (k.sys.filterMap fun e => if (covOf 21 e.1).isSome then some e.1 else none) ++
    img.filterMap fun e => if (covOf 21 e.1).isSome then some e.1 else none

/-- The value of a covered register in an image. -/
def imgValue (u : Nat) (img : SMap Word) (a : Nat) : Word :=
  (SMap.find a img).getD (match covOf u a with | some c => c.reset | none => 0)

/-- A unit whose image is held takes it; every unit's switch registers follow (R399, R400). -/
def State.loadImage (s : State) (u : Nat) : State :=
  if 21 ≤ u then s else
  let img := s.fe.plan.image u s.fe.trim
  let held := s.fe.plan.held u
  -- the committing half of a gate list's base time comes last, so that it takes the whole image (R335)
  let keys := s.covKeys u img
  let last (a : Nat) : Bool := (Reg.QBV_BASE_HI.match? a).isSome
  let s := if held then ((keys.filter fun a => !last a) ++ keys.filter last).foldl (fun s a => s.putCov u a (imgValue u img a)) s else s
  let gen : Word := BitVec.ofNat 64 s.fe.plan.gen
  let stat : Word := BitVec.ofNat 64 (s.fe.trim + 8 * b2n held)
  { s with regs := SMap.set 0 (SMap.set 0 s.regs (cfgAt u + 4) gen) (cfgAt u + 8) stat }

/-- A core's state takes the image of its logical core. -/
def State.coreImage (s : State) (l : Nat) (k : Core) : Core :=
  let img := s.fe.plan.image (21 + l) s.fe.trim
  let k := if s.fe.plan.held (21 + l) then (k.covKeys img).foldl (fun k n => k.putCov n (imgValue 21 img n)) k else k
  k.setFld .CORE_CFG_CRC [] ⟨63, 32⟩ s.fe.plan.gen

/-! ### Reef levels (R379, R381) -/

def nominalMv (lvl : Nat) : Nat := [550, 600, 650, 700, 720, 750, 850, 950].getD lvl 0
def guardMv (lvl : Nat) : Nat := [0, 0, 0, 0, 0, 15, 30, 45].getD lvl 0

/-- The set point of a level: 25 mV above the lowest voltage that passed, a free value, or the nominal voltage when that is
smaller (R379). -/
def State.setPoint (s : State) (q lvl : Nat) : Nat :=
  min (nominalMv lvl) ((Config.freeWord (s.fe.voltBase + q * 8 + lvl)).toNat % 1024 + 25)

/-- A powered quad takes a level, with no guard. -/
def State.setLevel (s : State) (q lvl : Nat) : State :=
  if !s.pdOn.contains (67 + q) then s else
  let r := s.reg .QUAD_REEF [q]
  s.setReg .QUAD_REEF [q] (putBits (putBits (putBits r .QUAD_REEF_LEVEL lvl) .QUAD_REEF_VOLT (s.setPoint q lvl)) .QUAD_REEF_GUARD 0)

def State.level (s : State) (q : Nat) : Nat := s.fld .QUAD_REEF [q] .QUAD_REEF_LEVEL

/-! ### Switching on (R39, R197, R203) -/

/-- A cache at power-up: no frame in use, its retirement record marked, its seed loaded. It takes requests, and reads
READY, once its reset invalidation has ended (R197, R198). -/
def Cache.up (c : Cache) (seed : BitVec 16) : Cache := { c.kept with lfsr := seed }

/-- A number of seeds, drawn in order. -/
def State.seedDraws (s : State) : Nat → List (BitVec 16) × State
  | 0 => ([], s)
  | n + 1 =>
    match s.seedDraw with
    | (a, s) => match s.seedDraws n with
      | (l, s) => (a :: l, s)

/-- What Fetas loads into a domain that has come on. DESIGN CHOICE (log entry 85): the host's own binding of slice 0 matches
every ASID and admits no U-level access. -/
def State.gainUnit (s : State) (d : Nat) : State :=
  if d = 2 then s.setFld .SHR_PORT_STAT [] .SHR_PORT_STAT_PRESENT (b2n s.part.shroud)
  else if 3 ≤ d ∧ d < 67 then
    match s.seedDraws 7 with
    | (l, s) =>
      let a := l.getD 0 1
      let b := l.getD 1 1
      s.updCore (Fin.ofNat 64 (d - 3)) fun k =>
        let k : Core := { l1i := k.l1i.up a, l1d := k.l1d.up b, run := .stopped .fetas, slbSeed := l.getD 2 1,
                          itlbSeed := l.getD 3 1, dtlbSeed := l.getD 4 1, l2tlbSeed := l.getD 5 1, wcSeed := l.getD 6 1 }
        k.setReg .L1_SEED [] (BitVec.ofNat 64 (a.toNat * 65536 + b.toNat))
  else if 67 ≤ d ∧ d < 83 then
    match s.seedDraw with
    | (a, s) =>
      let q := d - 67
      let lvl := (s.trimDef s.fe.trim).level q
      (s.updL2 q fun l => l.up a).setLevel q (if lvl = 15 then 0 else lvl)
  else if 83 ≤ d ∧ d < 91 then
    match s.seedDraw with
    | (a, s) => s.updL3 (d - 83) fun l => l.up a
  else if 93 ≤ d ∧ d < 97 then
    let g := (d - 93) / 2
    if s.pdOn.contains (93 + 2 * g) && s.pdOn.contains (94 + 2 * g) then s.groupStart g else s
  else if d = 97 then s.setFld .MR_STATUS [] .MR_STATUS_READY 1
  else if d = 103 then
    { s with slices := { s.slices with stopped := false } }.setReg .SLICE_BIND [0]
      (putBits (putBits 0 .SLICE_BIND_VALID 1) .SLICE_BIND_ASID_ANY 1)
  -- the pins are sampled at the first PCLK edge (R333)
  else if d = 106 then s.gpioSample
  else s

/-- A domain is switched on; its configuration units take their images (R400). -/
def State.domainOn (s : State) (d : Nat) : State :=
  if s.pdOn.contains d then s else
  let s := { s with pdOn := insertRising d s.pdOn }.gainUnit d
  (List.range 21).foldl (fun s u => if unitPdOf u = d then s.loadImage u else s) s

/-- The mesh half that holds the stop of a domain (R20, R37). -/
def meshPd (d : Nat) : Nat :=
  if (if 3 ≤ d ∧ d < 67 then eastPd (67 + (d - 3) / 4) else eastPd d || d == 96) then 92 else 91

/-- Domains switched on: the mesh halves that hold their stops first, then shared domains, then cores (R39). -/
def State.domainsOn (s : State) (l : List Nat) : State :=
  let first := [91, 92].filter fun m => l.any fun d => d == m || (decide (3 ≤ d) && meshPd d == m && !s.pdOn.contains m && !s.pdOn.contains d)
  let last := l.filter fun d => decide (3 ≤ d ∧ d < 67)
  let mid := l.filter fun d => d != 91 && d != 92 && !(last.contains d)
  (first ++ mid ++ last).foldl State.domainOn s

/-- Free backstay cores of powered quads are kept powered, their issue held (R425). -/
def State.holdBackstays (s : State) : State :=
  s.freeBackstays.foldl (fun s p => if s.pdOn.contains (67 + p / 4) then s.domainOn (3 + p) else s) s

/-! ### Stopping a core (R229, R384, R407) -/

/-- The Device stores that a core has injected act, in order (R214); false: a home has not acknowledged one. -/
def State.devPerform (s : State) (c : Fin 64) : Nat → Bool × State
  | 0 => (true, s)
  | n + 1 =>
    match (s.core c).devOut with
    | [] => (true, s)
    | e :: rest =>
      let pop (s : State) : State := s.updCore c fun k => { k with devOut := rest }
      if inPcie e.pa then (pop (s.pciePost (quadStop (quadOf c)) e.pa e.size e.data e.pid)).devPerform c n
      else
        match s.devWriteNow c e with
        | (true, s) => (pop s).devPerform c n
        | (false, s) => (false, s)

/-- The Device load of a core gets its response (R213). A read of a PCI Express window is abandoned at a douse (R407),
and otherwise awaited: none. -/
def State.loadPerform (s : State) (c : Fin 64) (douse : Bool) : Option State :=
  match (s.core c).devLoad with
  | none => some s
  | some d =>
    if inPcie d.pa then
      if douse then some ({ s with pcie := { s.pcie with reads := s.pcie.reads.erase c.val } }.updCore c fun k => { k with devLoad := none })
      else none
    else
      match (if inDist d.pa then (s.distFlush c.val s.dist.toDist.length).coreFlush c else s).devRead c d with
      | (.val v, s) => some (s.loadDone c v)
      | (.bad, s) => some (s.loadError c)
      | (.wait, _) => none

/-- Drain the buffers of a core, the Device stores performed; fuel covers every entry (R229). -/
def State.drainCore (s : State) (c : Fin 64) : Nat → Option State
  | 0 => none
  | n + 1 =>
    match s.devPerform c (s.core c).devOut.length with
    | (false, _) => none
    | (true, s) =>
      if (s.core c).sb.isEmpty && (s.core c).frame.isEmpty && (s.core c).devOut.isEmpty then some s
      else match s.drainFrame c with
        | (true, s) => if (s.core c).sb.isEmpty then s.drainCore c n else (s.drainAll c).2.drainCore c n
        | (false, s) => s.drainCore c n

/-- A core is stopped by Fetas: the operation in flight ends first (R87), and requests of discarded instructions go to
nobody. When its check fails twice, which a douse does not wait for, the failure is reported, and the operation is run once more
for the state that is saved (R100, R417). -/
def State.longStop (s : State) (c : Fin 64) : State :=
  let run := (s.core c).run
  match s.longEnd c with
  | (true, s) => s.forsake c
  | (false, s) => ((s.longEnd c).2.updCore c fun k => { k with run := run }).forsake c

/-- Stop a core at an instruction boundary, its buffers drained; none while it must be waited for: an operation in flight whose
check will fail ends in a machine check first (R87, R100). -/
def State.stopCore (s : State) (c : Fin 64) (douse : Bool := false) : Option State :=
  if (s.core c).run == .off then none
  else if ((s.core c).run == .halted || !(s.longEnd c).1) && !douse then none
  else
    match s.devPerform c (s.core c).devOut.length with
    | (false, _) => none
    | (true, s) =>
      match s.loadPerform c douse with
      | none => none
      | some s => (s.longStop c).drainCore c 64

/-- The state of a core that a furl record or douse record holds (R385). -/
def Core.saved (k : Core) : Core :=
  { run := (match k.run with
      | .wfi => .wfi
      | .stopped r => .stopped r
      | _ => if k.run = .halted ∧ k.inWfi then .wfi else .running)
    g := k.g, f := k.f, pc := k.pc, spH := k.spH, sys := k.sys, stepDue := k.stepDue, stepFrames := k.stepFrames, mcheck := k.mcheck
    long := k.long, owed := k.owed, seqEnd := k.seqEnd, mramOpen := k.mramOpen
    armed0 := k.armed0, armed1 := k.armed1, trace := { k.trace with frames := [] } }

/-- A core leaves the distributor: what it sent arrives, its offers are withdrawn and its residency ends (R276). -/
def State.leaveDist (s : State) (p : Nat) : State :=
  let sent := s.dist.toDist.filter fun m => m.1 == p
  let s := { s with dist := { s.dist with toDist := s.dist.toDist.filter fun m => m.1 != p } }
  let s := sent.foldl (fun s m => s.distTake p m.2) s
  { s with dist := { s.dist with toCore := s.dist.toCore.filter (fun m => m.1 != p), sent := s.dist.sent.set none p none,
                                 vsent := s.dist.vsent.set none p none, resident := s.dist.resident.set none p none } }

/-- LCORE_MAP of a logical core: its physical core, or out of service (R264). -/
def State.mapCore (s : State) (l : Nat) (p : Option Nat) : State :=
  (s.setReg .LCORE_MAP [l] (match p with | some p => BitVec.ofNat 64 (64 + p) | none => 0)).rechoose

/-- Move the dirty data of a core's L1D into its L2 (R384). -/
def State.emptyL1d (s : State) (c : Fin 64) : State :=
  ((s.core c).l1d.frames.map fun e => e.1).foldl (fun s f => s.l1dEvict c f) s

/-- A quad writes its L2 back to the homes. -/
def State.emptyL2 (s : State) (q : Nat) : State :=
  ((s.quad q).l2.frames.map fun e => e.1).foldl (fun s f => s.l2EvictNow q f) s

/-- A quad with no core powered writes its L2 back and goes off (R384). -/
def State.quadDown (s : State) (q : Nat) : State :=
  if (List.range 4).any fun i => s.pdOn.contains (3 + 4 * q + i) then s else (s.emptyL2 q).domainOff (67 + q)

/-- A physical core goes off, and its quad with the last; a free backstay core of a quad that stays on is held
powered. -/
def State.coreDown (s : State) (p : Nat) : State :=
  (((s.emptyL1d (Fin.ofNat 64 p)).domainOff (3 + p)).quadDown (p / 4)).holdBackstays

/-- A physical core and its quad come on. -/
def State.coreUp (s : State) (p : Nat) : State := s.domainsOn [67 + p / 4, 3 + p]

/-- Forget the placement of a logical core; the partner of a pair goes off. -/
def State.unplace (s : State) (l p : Nat) : State :=
  let mate := s.fe.partner.get none p
  let s := { s with fe := { s.fe with place := s.fe.place.set none l none, partner := s.fe.partner.set none p none,
                                      split := s.fe.split.erase l } }
  match mate with
  | some b => s.coreDown b
  | none => s

/-- A fresh start of the entries of a trace of a core stopped by Fetas: FURL, and the frames it still holds (R488). -/
def State.endTrace (s : State) (c : Fin 64) : State :=
  let s := s.traceFurl c
  s.hyFlush c (s.core c).trace.frames.length

/-- Take a logical core off its stopped physical core: its state saved, its domain off (R384). -/
def State.lift (s : State) (l p : Nat) : Saved × State :=
  let c := Fin.ofNat 64 p
  let s := ((s.endTrace c).leaveDist p).endInvals p
  let s := { s with probes := s.probes.filter fun x => x.who ≠ p }
  let sv : Saved := { core := (s.core c).saved, stop := s.time }
  let s := (s.mapCore l none).updCore c fun k => { k with run := .stopped .fetas, resv := none, hold := none, offer := none, voffer := none }
  let s := (s.emptyL1d c).unplace l p
  (sv, s)

/-- Furl a logical core (R384); none while it must be waited for. -/
def State.furl (s : State) (l : Nat) : Option State :=
  match s.placeOf l with
  | none => none
  | some p =>
    match s.stopCore (Fin.ofNat 64 p) with
    | none => none
    | some s =>
      match s.lift l p with
      | (sv, s) => some ({ s with fe := { s.fe with furled := s.fe.furled.set none l (some sv) } }.coreDown p)

/-- The partner of a stayed pair is powered and follows its lead (R428). -/
def State.setPartner (s : State) (p : Nat) : Option Nat → State
  | none => s
  | some b => { s with fe := { s.fe with partner := s.fe.partner.set none p (some b) } }.coreUp b

/-- The core that a logical core gets, and that gets it: state restored, in service, resident (R276, R386). -/
def State.settleOn (s : State) (l p : Nat) (k : Core) : State :=
  let c := Fin.ofNat 64 p
  let s := s.coreUp p
  let b := s.core c
  let k := { k with l1i := b.l1i, l1d := b.l1d, slbSeed := b.slbSeed, itlbSeed := b.itlbSeed, dtlbSeed := b.dtlbSeed,
                      l2tlbSeed := b.l2tlbSeed, wcSeed := b.wcSeed,
                      mramOpen := b.mramOpen.foldl (fun l n => insertRising n l) k.mramOpen }
  let k := (k.setFld .CORE_ID [] .CORE_ID_LCORE l).setFld .CORE_PHYS [] .CORE_PHYS_PCORE p
  let k := (k.setReg .L1_SEED [] (b.reg .L1_SEED)).setReg .TRC_AUTH [] (s.tokenWord c)
  let s := (s.setCore c k).mapCore l (some p)
  let s := { s with fe := { s.fe with place := s.fe.place.set none l (some p), furled := s.fe.furled.set none l none,
                                      held := s.fe.held.erase l } }
  if flag (k.reg .VCTL) .VCTL_RES then s.residencyArrives p (some (k.fld .VMID .VMID_VMID)) else s

/-- GAP_TIME of a logical core that a douse stopped, told to its tenant (R413). -/
def State.tellGap (s : State) (l : Nat) (sv : Saved) (now : Nat) : State :=
  let unknown := sv.unknown
  let gap := if unknown then now else now - sv.stop
  let w : Word := BitVec.ofNat 64 (gap % 2 ^ 63 + (if unknown then 2 ^ 63 else 0))
  let vmid := sv.core.fld .VMID .VMID_VMID
  let s := s.setReg .GAP_TIME [l] w
  match s.fe.tenants.get none vmid with
  | none => s
  | some t =>
    let s := { s with fe := { s.fe with tenants := s.fe.tenants.set none vmid (some { t with gap := w, resumed := true }) } }
    s.feEvent 0x0581 [vmid, w.toNat % 2 ^ 32, w.toNat / 2 ^ 32] (s.slicesOf vmid)

/-- Unfurl a logical core onto a physical core (R386). -/
def State.unfurlTo (s : State) (l p : Nat) (mate : Option Nat) : State :=
  match s.fe.furled.get none l with
  | none => s
  | some sv =>
    let c := Fin.ofNat 64 p
    let s := (s.settleOn l p sv.core).setPartner p mate
    let s := if sv.doused then s.tellGap l sv s.time else s
    let s := s.traceGap c (s.time - sv.stop)
    (s.wakeCheck c).holdBackstays

/-! ### The boot entry (R496) -/

/-- The reset invalidation of every powered home has ended: what Fetas does next waits for it (R197; log entry 95). -/
def State.homesReady (s : State) : State :=
  (List.range 8).foldl (fun s h => if s.pdUp (83 + h) && !(s.home h).l3.ready then
    s.updL3 h fun l => { l with frames := [], ready := true } else s) s

/-- Write memory coherently as Fetas (R188). -/
def State.fetasWrite (s : State) (pa : Nat) (d : Bytes) : State := (s.homesReady.ioWrite pa d [] 18).2

/-- The ordering code as INFO PART reports it. -/
def Part.code : Part → Nat
  | .s64 => 0 | .s32 => 1 | .n64 => 2 | .n32 => 3

def State.lifecycle (s : State) : Nat := s.fe.otp.lifecycle

/-- The handoff block, for the logical cores that start. -/
def State.handoff (s : State) (h : HostImage) (reason : Nat) (ls : List Nat) : Bytes :=
  toLe 0x59444842 4 ++ toLe 1 4 ++ toLe s.part.code 1 ++ toLe s.lifecycle 1 ++ toLe reason 1 ++ toLe h.bank 1 ++
    toLe s.fe.plan.gen 4 ++ toLe Config.dieId.toNat 16 ++ toLe s.time 8 ++ s.importKey ++ zeros 7 ++
    toLe (bitsOf ls) 8 ++ zeros 3944

/-- The starting state of a logical core (R496). -/
def State.entryCore (s : State) (h : HostImage) (reason l : Nat) : Core :=
  let k : Core := { run := .running, pc := BitVec.ofNat 64 h.entry,
                    g := SMap.set 0 (SMap.set 0 (SMap.set 0 [] 1 (BitVec.ofNat 64 h.handoff)) 2 (BitVec.ofNat 64 l)) 3 (BitVec.ofNat 64 reason) }
  let k := s.coreImage l k
  ((((k.setReg .VECBASE_H [] (BitVec.ofNat 64 h.vec)).setReg .H_SEG_ROOT [] (BitVec.ofNat 64 h.seg)).setReg .H_PT_ROOT []
    (BitVec.ofNat 64 h.pt)).setReg .VMID [] 0).setReg .H_ASID [] 0xFFFF

/-- Logical cores start from the boot entry, each on its physical core, the handoff block written first. -/
def State.startAll (s : State) (reason : Nat) (ls : List (Nat × Nat)) : State :=
  match s.fe.host with
  | none => s
  | some h =>
    let s := s.fetasWrite h.handoff (s.handoff h reason (ls.map fun e => e.1))
    ls.foldl (fun s e => s.settleOn e.1 e.2 (s.entryCore h reason e.1)) s

/-! ### Warm reset (R229 to R231) -/

/-- A retired entry is sent at a warm reset (R230): a cached or Uncached one as a UCW, a Device one as a Device write. What
was sent before is not sent again, and a ZLINE that has zeroed its sector is done. Its MRAM sector is open until the next PSYNC
(R218). False: its home has not taken it. -/
def State.sendEntry (s : State) (c : Fin 64) (e : StoreEntry) (sent : Bool) : Bool × State :=
  let s := s.openMram c e.pa
  if e.zeroed then (true, s)
  else if e.typ = .device then
    if inPcie e.pa then (true, s.pciePost (quadStop (quadOf c)) e.pa e.size e.data e.pid) else s.devWriteNow c e
  else s.ucWrite (quadOf c) (e.pa / 64) e.placed.1 e.placed.2 false e.cls c.val e.pid sent

/-- Entries sent in the order of their buffer. -/
def State.sendEntries (s : State) (c : Fin 64) : List StoreEntry → Bool → Bool × State
  | [], _ => (true, s)
  | e :: l, sent =>
    match s.sendEntry c e sent with
    | (true, s) => s.sendEntries c l false
    | (false, s) => (false, s)

/-- The retired entries of a core not yet drained are sent at once, and the frame after them (R230, R231). DESIGN CHOICE (log
entry 91): they become visible in buffer order. False when a home has not taken one. -/
def State.sendBuffers (s : State) (c : Fin 64) : Bool × State :=
  match s.devPerform c (s.core c).devOut.length with
  | (false, s) => (false, s)
  | (true, s) =>
    let k := s.core c
    (s.updCore c fun k => { k with sb := [], frame := [], ucwSent := false }).sendEntries c (k.sb ++ k.frame) k.ucwSent

/-- Take a core to the point of a warm reset (R229 to R231): its load answered, the divider's operation ended, its
buffers sent, the dirty data of its L1D written into the L2 as by CLEAN.SW. none while it must be waited for. -/
def State.resetCore (s : State) (p : Nat) : Option State :=
  let c := Fin.ofNat 64 p
  match s.loadPerform c false with
  | none => none
  | some s =>
    match (s.longStop c).sendBuffers c with
    | (false, _) => none
    | (true, s) =>
      let s := ((s.core c).l1d.frames.map fun e => e.1).foldl (fun s f => s.swL1d c f .clean) s
      let s := (s.endTrace c).leaveDist p
      let s := { s with probes := s.probes.filter fun x => x.who ≠ p }
      some (s.updCore c fun k => { l1i := k.l1i, l1d := k.l1d, slbSeed := k.slbSeed, itlbSeed := k.itlbSeed,
                                   dtlbSeed := k.dtlbSeed, l2tlbSeed := k.l2tlbSeed, wcSeed := k.wcSeed, mramOpen := k.mramOpen })

/-- CORE_RESET of a physical core (R230): none while it must be waited for. -/
def State.warmReset (s : State) (l p reason : Nat) : Option State := (s.resetCore p).map fun s => s.startAll reason [(l, p)]

/-- What Fetas does with a double fault (R139): the event, and with no other core running the boot entry; none while the
core must be waited for. DESIGN CHOICE (log entry 92): a core halted by the debugger or in WFI counts as running. -/
def State.onDoubleFault (s : State) (p : Nat) : Option State :=
  match s.carried p with
  | none => some s
  | some l =>
    let s := ({ s with fe := { s.fe with doubleFaults := s.fe.doubleFaults + 1 } }.count .doubleFault).feEvent 0x0681 [l + p * 2 ^ 8]
    let others := s.cores.any fun e => e.1 != p && (e.2.run == .running || e.2.run == .wfi || e.2.run == .halted)
    if others then some s else s.warmReset l p 4

end Sys2Proof.Machine
end

