-- ==== Sys2Proof/Machine/Modes.lean ====
section
/-! DEFINITION. Mode transitions, the entry to Bare poles and the supply enables (R373 to R378, R395). A transition runs on
within the command that makes it until it must wait for a core (log entry 43). -/

namespace Sys2Proof.Machine

/-! ### Supply enables (R395) -/

/-- PWR_EN_n is asserted in a mode. -/
def State.pwrIn (s : State) (m n : Nat) : Bool := (s.fld .PWR_SEQ [n] .PWR_SEQ_MODES).testBit m

/-- The outputs still to change for a mode: those that assert, ascending, or else those that deassert, descending. -/
def State.pwrTodo (s : State) (m : Nat) : List (Nat × Bool) :=
  let up := (List.range 6).filter fun n => s.pwrIn m n && !s.crow.out.getLsbD n
  let down := (List.range 6).reverse.filter fun n => !s.pwrIn m n && s.crow.out.getLsbD n
  (up.map fun n => (n, true)) ++ down.map fun n => (n, false)

/-- The outputs start to change for a mode, and what follows at the end. -/
def State.pwrStart (s : State) (m : Nat) (after : SeqEnd) : State :=
  { s with crow := { s.crow with todo := s.pwrTodo m, after := after } }

/-- The level of the ball PWR_EN_n: its output at polarity POL (R395). -/
def State.pwrLevel (s : State) (n : Nat) : Bool := s.crow.out.getLsbD n != flag (s.reg .PWR_SEQ [n]) .PWR_SEQ_POL

/-! ### Transitions among M1 to M7 (R374, R376) -/

/-- A logical core stays where it is under a trim. -/
def State.stays (s : State) (d : ModeDef) (l p : Nat) : Bool :=
  match d.placeOf l with
  | none => false
  | some p' => d.quadOn (p / 4) && ((p == p' && s.fe.partner.get none p == d.partnerOf l) || (p != p' && s.fe.quarantined.contains p'))

/-- Running logical cores that a trim does not place where they are. -/
def State.unplaced (s : State) (d : ModeDef) : List Nat :=
  s.fe.place.filterMap fun e => match e.2 with
    | some p => if s.stays d e.1 p then none else some e.1
    | none => none

/-- Furl the logical cores listed, those apart that must be waited for. -/
def State.furlEach (s : State) (ls : List Nat) : State := ls.foldl (fun s l => (s.furl l).getD s) s

/-- Domains that a trim has on beside its cores; the dies of a memory group go with its controller (R37). -/
def ModeDef.units (d : ModeDef) : List Nat :=
  (List.range 107).filter fun i => decide (i = 2 ∨ i = 91) ||
    (decide (67 ≤ i) && (d.domains.testBit i || (decide (93 ≤ i ∧ i < 97) && d.domains.testBit (if i % 2 = 1 then i + 1 else i - 1))))

/-- A tenant may run: the slice pages are powered (R37). DESIGN CHOICE (log entry 107): from TENANT CREATE on. -/
def State.anyTenant (s : State) : Bool := s.fe.tenants.any fun e => e.2.isSome

/-- The domains that a trim has on beside its cores and quads, for the tenants there are. -/
def State.trimUnits (s : State) (d : ModeDef) : List Nat :=
  if s.anyTenant && d.mode != 0 then insertRising 103 d.units else d.units

/-- Every stop of the east half is quiesced, so that it may go off (R40): no logical core runs there, and no packet, write
or memory access of its quads, homes and memories is under way. -/
def State.meshQuiet (s : State) : Bool :=
  let east (d : Nat) : Bool := meshPd d == 92
  (s.fe.place.all fun e => match e.2 with | some p => !east (3 + p) | none => true) &&
    (s.net.all fun m => !east (67 + m.quad) && !east (83 + homeSec m.sec)) &&
    ((List.range 16).all fun q => (s.quad q).evict.all fun v => !east (67 + q) && !east (83 + homeSec (v.block * 4))) &&
    ((List.range 8).all fun h => !east (83 + h) || ((s.home h).waiting.isEmpty && (s.home h).trans.isEmpty)) && s.mramQ.isEmpty

/-- The order of power-down: cores, then quads, homes and units, then the mesh (R39). -/
def offOrder (l : List Nat) : List Nat :=
  (l.filter fun d => decide (3 ≤ d ∧ d < 67)) ++ (l.filter fun d => decide (67 ≤ d) && d != 91 && d != 92) ++
    (l.filter fun d => d == 2) ++ (l.filter fun d => d == 92) ++ l.filter fun d => d == 91

/-- A home writes its dirty data to memory (R37, R249). -/
def State.emptyL3 (s : State) (h : Nat) : State :=
  ((s.home h).l3.frames.map fun e => e.1).foldl (fun s f => s.l3Evict h f) s

/-- A domain goes off in order: what it caches is written back first, and a memory die's writes complete. -/
def State.quietOff (s : State) (d : Nat) (keep : Bool) : State :=
  let s :=
    if 3 ≤ d ∧ d < 67 then s.emptyL1d (Fin.ofNat 64 (d - 3))
    else if 67 ≤ d ∧ d < 83 then s.emptyL2 (d - 67)
    else if 83 ≤ d ∧ d < 91 then s.emptyL3 (d - 83)
    else s
  s.domainOff d keep

/-- The core that a placed logical core unfurls onto: its place, or a free backstay core when that is quarantined or
still taken. -/
def State.target (s : State) (p : Nat) : Option Nat :=
  if !s.fe.quarantined.contains p && (s.carried p).isNone && (s.leadOf p).isNone then some p else s.pickBackstay (p / 4)

/-- Unfurl a logical core where the trim places it, or hold it furled for want of a core (R374, R427). -/
def State.unfurlPlaced (s : State) (d : ModeDef) (l : Nat) : State :=
  match d.placeOf l, s.fe.furled.get none l with
  | some p, some _ =>
    match s.target p with
    | none => { s with fe := { s.fe with held := insertRising l s.fe.held } }
    | some x => s.unfurlTo l x (if x = p then (d.partnerOf l).filter fun b => !s.fe.quarantined.contains b else none)
  | _, _ => s

/-- The level of a quad under a trim, less what a throttle takes off (R383). -/
def State.goalLevel (s : State) (d : ModeDef) (q : Nat) : Nat := d.level q - s.fe.throttled.get 0 q

def State.setMode (s : State) (m : Nat) : State :=
  let r := s.reg .MAST_MODE
  let r := putBits (putBits (putBits (putBits r .MAST_MODE_MODE m) .MAST_MODE_TARGET m) .MAST_MODE_BUSY 0) .MAST_MODE_DRAM_M0
    (b2n s.fe.plan.dramM0)
  { s.setReg .MAST_MODE [] r with mode := modeOf m }

def State.modeEvent (s : State) (m : Nat) : State := s.feEvent 0x0380 [m, s.tick % 2 ^ 32, s.tick / 2 ^ 32]

/-- A core stays powered under a trim: it carries a logical core, follows a lead, or is a free backstay core. -/
def State.keepsCore (s : State) (d : ModeDef) (p : Nat) : Bool :=
  d.quadOn (p / 4) && ((s.carried p).isSome || (s.leadOf p).isSome || s.freeBackstays.contains p)

/-- Logical core l waits furled for a core of quad q. -/
def State.comesTo (s : State) (d : ModeDef) (q l : Nat) : Bool :=
  match d.placeOf l with
  | some p => p / 4 == q && (s.fe.furled.get none l).isSome
  | none => false

/-- A quad is powered under a trim: with a core that stays or that a logical core comes to (R37). -/
def State.keepsQuad (s : State) (d : ModeDef) (q : Nat) : Bool :=
  d.quadOn q && (((List.range 4).any fun i => s.keepsCore d (4 * q + i)) || (List.range 64).any (s.comesTo d q))

/-- A quad goes to its level under a trim. -/
def State.toLevel (s : State) (d : ModeDef) (up : Bool) (q : Nat) : State :=
  if d.quadOn q && (up || decide (s.goalLevel d q < s.level q)) then s.setLevel q (s.goalLevel d q) else s

/-- Step 5 of a transition: domains off. The east half of the mesh stays on while a stop is not quiesced (R40). -/
def State.takeDown (s : State) (d : ModeDef) : State :=
  let keep (i : Nat) : Bool :=
    if i < 2 then true
    else if 3 ≤ i ∧ i < 67 then s.keepsCore d (i - 3)
    else if 67 ≤ i ∧ i < 83 then s.keepsQuad d (i - 67)
    else (s.trimUnits d).contains i || (i == 92 && !s.meshQuiet)
  (offOrder (s.pdOn.filter fun i => !keep i)).foldl (fun s i => s.quietOff i false) s

/-- Step 6 of a transition: domains on. -/
def State.takeUp (s : State) (d : ModeDef) : State :=
  s.domainsOn (((s.trimUnits d).filter fun i => decide (i < 67 ∨ 83 ≤ i)) ++ ((List.range 16).filter fun q => s.keepsQuad d q).map fun q => 67 + q)

/-- Steps 5 to 7 of a transition: domains off, domains on, quads raised; and backstay cores held. -/
def State.bringUp (s : State) (d : ModeDef) : State :=
  ((List.range 16).foldl (fun s q => s.toLevel d true q) ((s.takeDown d).takeUp d)).holdBackstays

/-- Logical cores that run. -/
def State.running (s : State) : List (Nat × Nat) :=
  s.fe.place.filterMap fun e => match e.2 with | some p => some (e.1, p) | none => none

/-- Logical cores that a trim places and that a want of cores holds furled (R362). -/
def State.short (s : State) : Bool := !s.fe.held.isEmpty

/-! ### Bare poles (R374, R375) -/

/-- Registers that Fetas saves at entry to M0: those of the distributor, and the cleats. -/
def m0Saved (a : Nat) : Bool :=
  [Reg.DIST_CTL, .LCORE_MAP, .VM_CFG, .SRC_CFG, .SRC_STAT, .CLEAT_STATE].any fun r => (r.match? a).isSome

/-- The end of the entry to M0, every logical core furled: the distributor and the cleats saved, the requests that wait for
the end of a window acted on before, and every domain off. req: the request that the wake answers. -/
def State.enterM0 (s : State) (req : Option Nat) : State :=
  let s := s.cleatWindow
  let fe := { s.fe with m0 := s.regs.filter (fun e => m0Saved e.1), m0dist := { doorbells := s.dist.doorbells, noted := s.dist.noted } }
  let s := { s with fe := fe }
  let s := (offOrder (s.pdOn.filter fun i => decide (2 ≤ i))).foldl (fun s i => s.quietOff i s.fe.plan.dramM0) s
  let s := s.setFld .FSI_STATUS [] .FSI_STATUS_FETAS_UP 0
  let s := (s.setMode 0).pwrStart 0 .nothing
  { s with crow := { s.crow with m0req := req, wakes := [] }, fe := { s.fe with trim := 0, passage := none } }

/-- COLD_RESTART for the tenants that meet a condition, in ascending VMID order (R374, R415). -/
def State.coldRestarts (s : State) (p : Tenant → Bool) : State :=
  s.fe.tenants.foldl (fun s e => match e.2 with
    | some t => if p t then
        let fe := { s.fe with tenants := s.fe.tenants.set none e.1 (some { t with status := some (t.status.getD 1) }) }
        { s with fe := fe }.feEvent 0x0582 [e.1] (s.slicesOf e.1)
      else s
    | none => s) s

/-- FETAS_UP rises (R344); Fetas reports the alarms that fired meanwhile (R367). -/
def State.riseFetas (s : State) : State :=
  let s := (s.setFld .FSI_STATUS [] .FSI_STATUS_FETAS_UP 1).pulse 400
  let s := s.crow.alarms.foldl (fun s n => s.feEvent 0x0880 [n]) s
  { s with fe := { s.fe with down := false, upSince := s.tick }, crow := { s.crow with kicked := s.tick, alarms := [] } }

/-- The response that follows a wake for the SET_MODE that entered M0 (R374). -/
def State.answerWake (s : State) : State :=
  match s.crow.m0req with
  | none => s
  | some i => { s with crow := { s.crow with m0req := none } }.opEnd i { res := [1] } true

/-! ### The steps of a transition (R376, R378) -/

/-- The answer to a SET_MODE whose transition has ended (R362). -/
def State.modeAns (s : State) (m : Nat) : Ans :=
  if s.short then { status := stDegraded, detail := s.running.length, res := [m] } else { res := [m] }

/-- A transition begins, or follows the one that runs (R378): BUSY and TARGET say so. -/
def State.startPassage (s : State) (m : Nat) (req : Option Nat) : State :=
  match s.fe.passage with
  | some x => { s with fe := { s.fe with passage := some { x with next := some (m, req) } } }
  | none =>
    let s := (s.setFld .MAST_MODE [] .MAST_MODE_BUSY 1).setFld .MAST_MODE [] .MAST_MODE_TARGET m
    { s with fe := { s.fe with passage := some { trim := m, req := req, step := 2 } } }

/-- Step 9: MODE takes the new mode, the outputs follow, and the request is answered; the transition that a switch called for
meanwhile begins. -/
def State.endPassage (s : State) (x : Passage) : State :=
  let m := x.trim
  let old := s.mode
  let s := s.setMode m
  let s := (if old = modeOf m then s else s.modeEvent m).pwrStart m .nothing
  let s := { s.healthEval with fe := { s.healthEval.fe with passage := none } }
  let s := match x.req with
    | some i => s.opEnd i (s.modeAns m)
    | none => s
  match x.next with
  | some (m, req) => s.startPassage m req
  | none => s

/-- The next step of the transition that runs; none when there is none, or when it waits for a core or for Fetas. Step 4, the change of MCLK,
leaves nothing but the time it takes. -/
def State.passStep (s : State) : Option State :=
  match s.fe.passage with
  | none => none
  | some x =>
    if !s.fetasUp then none else
    let d := s.trimDef x.trim
    let to' (n : Nat) (s : State) : State := { s with fe := { s.fe with passage := some { x with step := n } } }
    match x.step with
    | 2 =>
      let t := s.furlEach (s.unplaced d)
      if (t.unplaced d).isEmpty then some (to' (if x.trim = 0 then 5 else 3) t)
      else if (t.unplaced d).length = (s.unplaced d).length then none else some t
    | 3 => some (to' 4 ((List.range 16).foldl (fun s q => s.toLevel d false q) s))
    | 4 => some (to' 5 s)
    | 5 => some (if x.trim = 0 then s.enterM0 x.req else to' 6 (s.takeDown d))
    | 6 => some (to' 7 (s.takeUp d))
    | 7 => some (to' 8 ((List.range 16).foldl (fun s q => s.toLevel d true q) s).holdBackstays)
    | 8 => some (to' 9 ((List.range 64).foldl (fun s l => s.unfurlPlaced d l) s))
    | _ => some (s.endPassage x)

/-- A transition goes on as far as it can, by at most so many steps. -/
def State.passRun (s : State) : Nat → State
  | 0 => s
  | n + 1 => match s.passStep with
    | none => s
    | some t => t.passRun n

/-- More steps than two transitions and the furls of either take. -/
def passFuel : Nat := 160

end Sys2Proof.Machine
end

