-- ==== Sys2Proof/Machine/Plan.lean ====
section
/-! DEFINITION. Sail plans: the container, its refusals, staging and the switch at a tick, the scan and the plan digest
(R397 to R403). -/

namespace Sys2Proof.Machine

/-! ### The container (R397, R398) -/

/-- A section of the table. -/
structure SecHead where
  typ : Nat
  trim : Nat
  flags : Nat
  unit : Nat
  off : Nat
  len : Nat
  deriving DecidableEq, Repr

def secHead (b : Bytes) (i : Nat) : SecHead :=
  let o := 0x40 + 16 * i
  { typ := le16 b o, trim := byteAt b (o + 2), flags := byteAt b (o + 3), unit := byteAt b (o + 4), off := le32 b (o + 8),
    len := le32 b (o + 12) }

/-- The fixed rules of a section. -/
def SecHead.ok (h : SecHead) (b : Bytes) (i len : Nat) : Bool :=
  (h.typ == 1 || h.typ == 2) && (h.trim == 0xFF || decide (h.trim < 8)) && decide (h.flags ≤ 1) &&
    (h.flags == 0 || (h.typ == 1 && h.trim == 0xFF)) && zeroAt b (0x40 + 16 * i + 5) 3 && decide (h.off % 8 = 0) &&
    decide (h.off + h.len ≤ len) &&
    (if h.typ = 1 then decide (h.unit < 85) && decide (h.len % 16 = 0) else h.unit == 0 && decide (h.len = 256) && h.trim != 0xFF)

/-- The entries of a register image; none when one names a register that is not covered (R398). -/
def imgEntries (u : Nat) (b : Bytes) (off : Nat) : Nat → Option (List RegImg)
  | 0 => some []
  | n + 1 =>
    let o := le32 b off
    let size := byteAt b (off + 4)
    let key := (if u < 21 then cfgBase u else 0) + o
    match covOf u key with
    | none => none
    | some c =>
      if size ≠ c.width ∨ !zeroAt b (off + 5) 3 then none
      else (imgEntries u b (off + 16) n).map fun l => { off := o, size := size, value := BitVec.ofNat 64 (leNat (piece b (off + 8) size)) } :: l

/-- A mode definition from its 256 bytes. -/
def modeDefOf (m : Nat) (b : Bytes) : ModeDef :=
  { mode := m, domains := leNat (piece b 0 16), reef := leNat (piece b 0x10 8),
    place := (List.range 64).map fun l => let w := le16 b (0x18 + 2 * l); (w % 128, w / 256 % 128),
    guardMa := le32 b 0x98, pool := (piece b 0x9C 4).map fun x => x.toNat }

def noRepeats : List Nat → Bool
  | [] => true
  | a :: l => !l.contains a && noRepeats l

/-- Most quads, highest level, and the domains beside cores and quads that a mode may have on and must have on (R373). -/
def mostQuads (m : Nat) : Nat := [0, 1, 4, 8, 16, 16, 16, 16].getD m 0
def mayUnits (m : Nat) : List Nat :=
  if m = 0 then [] else
  [2] ++ range' 83 10 ++ [97, 103, 106] ++ (if m = 1 then range' 93 4 ++ range' 98 4 else range' 93 4 ++ range' 98 5 ++ [104, 105])
def mustUnits (m : Nat) : List Nat :=
  if m = 0 then [] else if m ≤ 3 then [2] ++ range' 83 10 ++ [97, 98, 103, 106] else if m = 7 then [2] ++ range' 83 9 ++ [97, 106]
  else [2] ++ range' 83 10 ++ [97, 106]
/-- How many of PD 99 to 101 a mode has on: one in M1, to which M2 and M3 may add (R373). -/
def portsOk (m n : Nat) : Bool := if m = 1 then n == 1 else decide (m = 0 ∨ 3 < m ∨ 0 < n)

/-- A quad's level lies in the envelope of a mode, given how many quads run above level 3 (R373). -/
def levelOk (m fast lvl : Nat) : Bool :=
  if m = 5 then decide (lvl ≤ 7) && decide (fast ≤ 4) else decide (lvl ≤ [0, 1, 2, 3, 5, 0, 4, 5].getD m 0)

/-- A mode definition lies within R373, agrees with itself, and has a lawful pool (R398). -/
def ModeDef.ok (d : ModeDef) (b : Bytes) : Bool :=
  let quads := (List.range 16).filter d.quadOn
  let fast := (quads.filter fun q => decide (3 < d.level q)).length
  let placed := (List.range 64).filterMap d.placeOf
  let mates := (List.range 64).filterMap d.partnerOf
  let units := (List.range 107).filter fun i => decide (i = 2 ∨ 83 ≤ i) && d.domains.testBit i
  let on (p : Nat) : Bool := d.domains.testBit (3 + p) && d.quadOn (p / 4)
  let pool := if d.pool.all fun p => p == 0x7F then defaultPool d.mode else d.pool
  decide (d.domains / 2 ^ 107 = 0) && zeroAt b 0xA0 96 &&
    ((List.range 64).all fun l => decide ((le16 b (0x18 + 2 * l)) < 2 ^ 15) && (le16 b (0x18 + 2 * l) / 128 % 2 == 0)) &&
    decide (quads.length ≤ mostQuads d.mode) && (quads.all fun q => levelOk d.mode fast (d.level q)) &&
    ((List.range 16).all fun q => d.domains.testBit (67 + q) == d.quadOn q) &&
    (units.all fun i => (mayUnits d.mode).contains i) && ((mustUnits d.mode).all fun i => units.contains i) &&
    portsOk d.mode ((range' 99 3).filter fun i => d.domains.testBit i).length &&
    ((List.range 64).all fun p => !d.domains.testBit (3 + p) || (d.quadOn (p / 4) && (placed ++ mates ++ pool).contains p)) &&
    (d.domains.testBit 93 == d.domains.testBit 94) && (d.domains.testBit 95 == d.domains.testBit 96) &&
    noRepeats (placed ++ mates) && ((placed ++ mates).all fun p => decide (p < 64) && on p) &&
    ((List.range 64).all fun l => match d.placeOf l, d.partnerOf l with
      | some p, some x => p / 4 == x / 4
      | none, some _ => false
      | _, none => true) &&
    (d.pool.all (fun p => p == 0x7F) || (noRepeats d.pool && d.pool.all fun p => decide (p < 64))) &&
    (pool.all fun p => !(placed ++ mates).contains p) &&
    (d.mode != 6 || (match pool with | p :: r => r.all fun x => x / 4 == p / 4 | [] => false))

/-- The sections of a container; none when one is refused. -/
def planSecs (b : Bytes) (len i : Nat) : Nat → Plan → Option Plan
  | 0, p => some p
  | n + 1, p =>
    let h := secHead b i
    if !h.ok b i len then none
    else if h.typ = 1 then
      match imgEntries h.unit b h.off (h.len / 16) with
      | none => none
      | some l => planSecs b len (i + 1) n { p with secs := p.secs ++ [{ trim := h.trim, held := h.flags == 1, unit := h.unit, regs := l }] }
    else
      let d := modeDefOf h.trim (piece b h.off 256)
      if d.ok (piece b h.off 256) && !(p.modes.any fun x => x.mode == h.trim) then
        planSecs b len (i + 1) n { p with modes := p.modes ++ [d] }
      else none

/-- The latest generation: the pending one, or the one in force (R361). -/
def State.latestGen (s : State) : Nat :=
  match s.fe.commit with
  | some c => c.plan.gen
  | none => s.fe.plan.gen

/-- A container verified whole, as a plan (R361, R397, R398). -/
def State.parsePlan (s : State) (b : Bytes) : Option Plan :=
  let len := le32 b 0x14
  let n := le16 b 0x10
  let flags := byteAt b 0x0D
  let trim := byteAt b 0x0E
  if b.length < 64 ∨ le32 b 0 ≠ 0x59445350 ∨ le16 b 4 ≠ 1 ∨ !(byteAt b 0x0C).testBit s.part.code ∨ 8 ≤ flags ∨ trim = 0 ∨ 8 ≤ trim ∨
      !zeroAt b 0x0F 1 ∨ n = 0 ∨ 1024 < n ∨ !zeroAt b 0x12 2 ∨ 2 ^ 22 < len ∨ len < 64 + 16 * n ∨ !zeroAt b 0x18 8 ∨
      b.length ≠ len + sigLen ∨ le32 b 8 ≤ s.latestGen then none
  else if !hybridOk s.cusKeyHash (b.take len) (b.drop len) then none
  else planSecs (b.take len) len 0 n
    { gen := le32 b 8, hostPersistent := flags.testBit 0, lfsrDrawn := flags.testBit 1, dramM0 := flags.testBit 2, bootTrim := trim }

/-! ### Staging and the switch (R400) -/

/-- The active value of a covered register of a memory-mapped unit. -/
def State.active (s : State) (a : Nat) : Word :=
  match unitHit a with
  | .reg r idx _ => s.reg r idx
  | h => s.hitValue h

/-- The key of a core's staging copy. -/
def coreStage (l n : Nat) : Nat := 2 ^ 46 + l * 4096 + n

/-- Fetas stages every register of a held unit whose value in the new image differs from the active one. -/
def State.stageAll (s : State) (p : Plan) (m : Nat) : State :=
  let unitPart := (List.range 21).flatMap fun u =>
    if p.held u && s.pdUp (unitPdOf u) then
      let img := p.image u m
      (s.covKeys u img).filterMap fun a =>
        let v := imgValue u img a
        match covOf u a with
        | some c => if (s.active a ^^^ v) &&& c.mask = 0 then none else some (a, v)
        | none => none
    else []
  let corePart := s.running.flatMap fun e =>
    if p.held (21 + e.1) then
      let img := p.image (21 + e.1) m
      let k := s.core (Fin.ofNat 64 e.2)
      (k.covKeys img).filterMap fun n =>
        let v := imgValue 21 img n
        match covOf 21 n, lookReg regsSys n with
        | some c, some (r, idx, _) => if (k.reg r idx ^^^ v) &&& c.mask = 0 then none else some (coreStage e.1 n, v)
        | _, _ => none
    else []
  let staged : SMap (Option Word) := (unitPart ++ corePart).foldl (fun m e => SMap.set none m e.1 (some e.2)) []
  { s with fe := { s.fe with staged := staged } }

/-- What a plan names; the default plan names nothing. -/
def planNames (p : Plan) : PlanNames := if p.gen = 0 then {} else Config.planNames p.gen

/-- The switch cycle: every staged value becomes active, and every unit's switch registers follow. -/
def State.switchNow (s : State) (p : Plan) (m : Nat) : State :=
  let st := s.fe.staged
  let left := s.fe.loaded.filter fun x => x.gen != p.gen
  let s := { s with fe := { s.fe with plan := p, names := planNames p, erased := [], trim := m, staged := [], loaded := left } }
  let s := st.foldl (fun s e =>
    match e.2 with
    | none => s
    | some v =>
      if e.1 < 2 ^ 46 then (match covUnit e.1 with | some u => s.putCov u e.1 v | none => s)
      else
        match s.placeOf ((e.1 - 2 ^ 46) / 4096) with
        | some c => s.updCore (Fin.ofNat 64 c) fun k => k.putCov ((e.1 - 2 ^ 46) % 4096) v
        | none => s) s
  let gen : Word := BitVec.ofNat 64 p.gen
  let s := (List.range 21).foldl (fun s u =>
    if s.pdUp (unitPdOf u) then
      let stat : Word := BitVec.ofNat 64 (m + 8 * b2n (p.held u))
      { s with regs := SMap.set 0 (SMap.set 0 s.regs (cfgAt u + 4) gen) (cfgAt u + 8) stat }
    else s) s
  let s := s.running.foldl (fun s e => s.updCore (Fin.ofNat 64 e.2) fun k => k.setFld .CORE_CFG_CRC [] ⟨63, 32⟩ p.gen) s
  let furled := s.fe.furled.map fun e => (e.1, e.2.map fun sv => { sv with core := s.coreImage e.1 sv.core })
  { s with fe := { s.fe with furled := furled } }

/-! ### CFG_CRC of every unit, and the plan digest (R402) -/

/-- The CFG_CRC of a configuration unit as the digest takes it. -/
def State.unitCrc (s : State) (u : Nat) : BitVec 32 :=
  if u < 21 then s.cfgCrc u
  else
    match s.placeOf (u - 21), s.fe.furled.get none (u - 21) with
    | some p, _ => (s.core (Fin.ofNat 64 p)).cfgCrc
    | none, some sv => sv.core.cfgCrc
    | none, none => 0

/-- The bank in use of a target, and the other. -/
def Banks.bank (b : Banks) (isB : Bool) : Bank := if isB then b.b else b.a
def Banks.active (b : Banks) : Bank := b.bank b.useB
def Banks.other (b : Banks) : Bank := b.bank !b.useB

/-- The hash and version of a bank's image (log entry 42). -/
def Banks.hashOf (b : Banks) (host isB : Bool) : BitVec 384 :=
  if (b.bank isB).shipped then Config.shipHash host isB else (b.bank isB).hash
def Banks.versionOf (b : Banks) (host isB : Bool) : Nat :=
  if (b.bank isB).shipped then Config.shipVersion host isB else (b.bank isB).version

def Banks.floorOf (b : Banks) (host isB : Bool) : Nat :=
  if (b.bank isB).shipped then Config.shipFloor host isB else (b.bank isB).floor
def Banks.setBank (b : Banks) (isB : Bool) (k : Bank) : Banks := if isB then { b with b := k } else { b with a := k }

/-- The plan digest is computed again. shroud: the identification of the Shroud's firmware, which Fetas holds. -/
def State.redigest (s : State) : State :=
  let b := toLe s.fe.plan.gen 4 ++ toLe s.fe.trim 1 ++ toLe 1 2 ++ ((List.range 85).flatMap fun u => toLe (s.unitCrc u).toNat 4) ++
    toBe (s.fe.fw.hashOf false s.fe.fw.useB).toNat 48 ++ toBe (s.fe.hostBanks.hashOf true s.fe.hostBanks.useB).toNat 48 ++ toLe s.fe.shroudId.toNat 32
  { s with fe := { s.fe with digest := BitVec.ofNat 384 (beNat (sha384 b)) } }

/-! ### The scan (R403) -/

/-- What CFG_CRC of a held unit must be: that of its image, with LCORE_MAP as it stands (log entry 41). -/
def State.wantCrc (s : State) (u : Nat) : BitVec 32 :=
  let img := s.fe.plan.image u s.fe.trim
  let live : SMap Word := if u = 2 then s.regs.filter fun e => (Reg.LCORE_MAP.match? e.1).isSome else []
  covCrc (covered u) (live.foldl (fun (m : SMap Word) e => m.insert e.1 e.2) (img.filter fun e => (covOf u e.1).isSome && !(u == 2 && (Reg.LCORE_MAP.match? e.1).isSome)))

def Core.wantCrc (k : Core) (img : SMap Word) : BitVec 32 :=
  let live := k.sys.filter fun e => e.1 == Reg.CORE_ID.at []
  covCrc (covered 21) (live.foldl (fun (m : SMap Word) e => m.insert e.1 e.2) (img.filter fun e => e.1 != Reg.CORE_ID.at []))

/-- Scan a unit that is held: true when it was repaired. -/
def State.scanUnit (s : State) (u : Nat) : Bool × State :=
  let img := s.fe.plan.image u s.fe.trim
  if !s.fe.plan.held u then (false, s)
  else if u < 21 then
    if !s.pdUp (unitPdOf u) || s.cfgCrc u == s.wantCrc u then (false, { s with fe := { s.fe with unrepaired := s.fe.unrepaired.erase u } })
    else
      let t := (s.covKeys u img).foldl (fun s a => s.putCov u a (imgValue u img a)) s
      if t.cfgCrc u == t.wantCrc u then (true, { t with fe := { t.fe with unrepaired := t.fe.unrepaired.erase u } })
      else (false, { t with fe := { t.fe with unrepaired := insertRising u t.fe.unrepaired } })
  else
    match s.placeOf (u - 21) with
    | none => (false, s)
    | some p =>
      let c := Fin.ofNat 64 p
      let k := s.core c
      if k.cfgCrc == k.wantCrc img then (false, s)
      else (true, s.updCore c fun k => (k.covKeys img).foldl (fun k n => k.putCov n (imgValue 21 img n)) k)

/-- The scan of every unit: how many were repaired (R403). -/
def State.scan (s : State) : Nat × State :=
  let r := (List.range 85).foldl (fun (a : Nat × State) u =>
    match a.2.scanUnit u with
    | (b, s) => (a.1 + b2n b, s)) (0, s)
  let s := r.2
  let s := { s with fe := { s.fe with digestTick := s.tick } }
  let s := if r.1 = 0 then s else s.feEvent 0x0280 [r.1, s.fe.plan.gen]
  (r.1, s.redigest.healthEval)

/-- A tick has come, or is less than two ticks away. -/
def State.nearTick (s : State) (t : Nat) : Bool := s.tickReached t || decide ((t + 2 ^ 48 - s.tick) % 2 ^ 48 < 2)

/-- A scan waits for a transition that runs, and for a switch whose tick is less than two ticks away. -/
def State.scanWaits (s : State) : Bool :=
  s.fe.passage.isSome || (match s.fe.commit with | some c => s.nearTick c.tick | none => false) ||
    match s.fe.modeTick with | some c => s.nearTick c.tick | none => false

/-- PLAN_SCAN_PERIODIC (R403): the scan that falls due every 10 s of Mast time, in a mode in which Fetas runs. -/
def execPlanScanPeriodic (s : State) : Host.Outcome State Fault Refusal :=
  if !s.fetasUp || s.scanWaits || decide (s.ticksSince s.fe.digestTick < ticks10s) then ok s else ok s.scan.2

/-! ### The commit tick (R376, R378, R400) -/

/-- The switch that comes first: that of the pending commit, or of a SET_MODE with a tick; true for the second. -/
def State.dueCommit (s : State) : Option (Bool × Commit) :=
  match s.fe.commit, s.fe.modeTick with
  | some a, some b => if (b.tick + 2 ^ 49 - s.tick + 2 ^ 47) % 2 ^ 48 < (a.tick + 2 ^ 49 - s.tick + 2 ^ 47) % 2 ^ 48 then some (true, b) else some (false, a)
  | some a, none => some (false, a)
  | none, some b => some (true, b)
  | none, none => none

/-- The tables of a commit or of a mode change take force: those of the next one, when there is one, are staged. -/
def State.commitSwitch (s : State) (isMode : Bool) (c : Commit) : State :=
  let plan := if isMode then s.fe.plan else c.plan
  let both := s.fe.commit.isSome && s.fe.modeTick.isSome
  let t := (if both then s.stageAll plan c.trim else s).switchNow plan c.trim
  let t := if isMode then { t with fe := { t.fe with modeTick := none } }
    else { t with fe := { t.fe with commit := none } }.opEnd c.req { res := [plan.gen, c.tick % 2 ^ 32, c.tick / 2 ^ 32] }
  match t.dueCommit with
  | some (m2, c2) => t.stageAll (if m2 then t.fe.plan else c2.plan) c2.trim
  | none => t

/-- A transition that runs goes on; the digest is computed again at its end. -/
def State.passGo (s : State) : State :=
  let t := s.passRun passFuel
  if s.fe.passage.isSome && t.fe.passage.isNone && t.mode != .m0 then t.redigest else t

/-- COMMIT_TICK: at the tick every unit switches, the request is answered, and the transition to the trim begins; it goes on
until it ends or must wait for a core (R376, R378). -/
def execCommitTick (s : State) : Host.Outcome State Fault Refusal :=
  if s.mode = .m0 ∨ !s.pdUp 2 then ok s
  else
    match s.dueCommit with
    | none => ok s.passGo
    | some (isMode, c) =>
      if !s.tickReached c.tick then ok s.passGo
      else ok (((s.commitSwitch isMode c).startPassage c.trim (if isMode then some c.req else none)).passGo)

end Sys2Proof.Machine
end

