-- ==== Sys2Proof/Machine/Loss.lean ====
section
/-! DEFINITION. What a loss of power or state without a completed douse leaves (R219, R229, R404, R520). -/

namespace Sys2Proof.Machine

/-- MRAM sectors with a write that is not durable: queued at the controller, dirty in a cache, or in a store buffer. -/
def State.looseSecs (s : State) : List Nat :=
  let fr (kd : CacheKind) (c : Cache) : List Nat := c.frames.flatMap fun e => match e.2 with
    | some f => (f.list kd).map fun p => p.1
    | none => []
  let l := (s.mramQ.map fun w => w.sec) ++ (s.homes.flatMap fun e => fr .l3 e.2.l3) ++
    (s.quads.flatMap fun e => fr .l2 e.2.l2 ++ e.2.evict.flatMap fun v => v.secs.map fun p => v.block * 4 + p.1) ++
    s.cores.flatMap fun e => fr .l1 e.2.l1d ++ (e.2.sb ++ e.2.frame).map fun x => x.pa / 64
  (l.filter fun n => inMram (n * 64)).foldl (fun a n => insertRising n a) []

/-- The contents of a sector, with their poison, in memory order, from the last durable one on. -/
def State.history (s : State) (n : Nat) : List (BitVec 512 × Bool) :=
  let queued := (s.mramQ.filter fun w => w.sec == n).map fun w => (w.old, w.oldPoison)
  let x := (s.home (homeSec n)).l3.secD .l3 n
  let l3 := if x.dv && x.dirty then [(x.data, x.poison)] else []
  let quads := (List.range 16).filterMap fun q =>
    match (s.quad q).evict.find? fun e => e.block == n / 4 && (SMap.find (n % 4) e.secs).isSome with
    | some e => let y := SMap.get ({} : Sec) e.secs (n % 4); some (y.data, y.poison)
    | none =>
      let y := (s.quad q).l2.secD .l2 n
      if y.st == .m || y.st == .o then s.quadData q n else none
  let base := queued ++ [(s.memSec n, s.secPoison n)] ++ l3 ++ quads
  let stores := s.cores.flatMap fun e => (e.2.sb ++ e.2.frame).filter fun x => x.pa / 64 == n
  stores.foldl (fun l e => l ++ [(mergeBytes (l.getLastD (0, false)).1 e.placed.1 e.placed.2, (l.getLastD (0, false)).2)]) base

/-- A doubleword of a sector, in its place. -/
def laneOf (d : BitVec 512) (i : Nat) : Nat := d.toNat / 2 ^ (64 * i) % 2 ^ 64 * 2 ^ (64 * i)

/-- Each aligned doubleword keeps one of the contents of its history, and the sector the poison of one, free choices
(R219; log entry 25). -/
def State.loseSec (s : State) (n : Nat) : State :=
  let h := s.history n
  if h.length ≤ 1 then s else
  let r := (List.range 8).foldl (fun (a : Nat × State) i =>
    match a.2.freshUpTo (h.length - 1) with
    | (k, s) => (a.1 + laneOf (h.getD k (0, false)).1 i, s)) (0, s)
  match r.2.freshUpTo (h.length - 1) with
  | (k, s) => s.setMemSec n (BitVec.ofNat 512 r.1) (h.getD k (0, false)).2

def State.loseMram (s : State) : State := s.looseSecs.foldl State.loseSec s

/-- Every domain but PD 0 and PD 1 is reset at once: what is not in MRAM or in the records of Fetas is lost, the requests
and answers of the mailboxes included. -/
def State.hardReset (s : State) : State :=
  let s := { s.loseMram with net := [], mramQ := [] }
  let s := s.domainsOff (offOrder (s.pdOn.filter fun d => decide (2 ≤ d)))
  -- dies that hold self-refresh are lost with their supply
  let s := (s.loseGroup 0).loseGroup 1
  let s := (s.setFld .FSI_STATUS [] .FSI_STATUS_FETAS_UP 0).setFld .MAST_MODE [] .MAST_MODE_BUSY 0
  let fe := { s.fe with place := [], partner := [], staged := [], split := [], selfTest := none, m0 := [], m0dist := {},
                        throttled := [], reefWait := [], tokens := [], sealing := none, down := false, passage := none,
                        douseCut := match s.fe.sealing with | some d => some d.tick | none => s.fe.douseCut }
  let crow := { s.crow with m0req := none, wakes := [], dousing := false }
  { s with fe := fe, crow := crow, fsi := { s.fsi with accepted := [], ready := [], queues := [], lost := [], ops := [], firm := [], rings := [] },
           reports := [], remoteInv := [], jtag := { s.jtag with token := none } }

end Sys2Proof.Machine
end

