-- ==== Sys2Proof/Machine/Absorb.lean ====
section
/-! DEFINITION. Failure absorption, reef levels at run time, the thermal throttle and the health pin (R40, R380 to R383,
R425 to R433, R534). -/

namespace Sys2Proof.Machine

/-! ### Quarantine and migration (R425 to R429) -/

/-- Fetas records a physical core as quarantined: it is no backstay, and a self-test it passed before counts no more. -/
def State.noteQuarantine (s : State) (p : Nat) : State :=
  { s with fe := { s.fe with quarantined := insertRising p s.fe.quarantined, returned := s.fe.returned.erase p,
                             tested := s.fe.tested.filter fun t => t != (1, p) } }

/-- A physical core is quarantined: off, and no backstay. -/
def State.quarantine (s : State) (p : Nat) : State := ((s.noteQuarantine p).coreDown p).count .quarantine

/-- Move a logical core from its physical core to a free one, its state as it stands (R426); none while the core must be
waited for. The delay that its tenant sees is free within 60 µs. -/
def State.moveCore (s : State) (l p x : Nat) : Option (Nat × State) :=
  let failed := (s.core (Fin.ofNat 64 p)).run == .stopped .machineCheck
  match s.stopCore (Fin.ofNat 64 p) with
  | none => none
  | some s =>
    match s.lift l p with
    | (sv, s) =>
      let k := { sv.core with run := if failed then .running else sv.core.run }
      let s := s.settleOn l x k
      match s.freshUpTo 60000 with
      | (ns, s) =>
        let s := (s.traceGap (Fin.ofNat 64 x) ns).wakeCheck (Fin.ofNat 64 x)
        some (ns, (s.count .migration).feEvent 0x0580 [l + p * 2 ^ 8 + x * 2 ^ 16, ns])

/-- A logical core whose pair has split is paired again with a free backstay core of its quad, or runs alone (R429). -/
def State.pairAgain (s : State) (l p : Nat) : State :=
  match s.freeBackstays.find? fun x => x / 4 == p / 4 with
  | some x => s.setPartner p (some x)
  | none => { s with fe := { s.fe with split := insertRising l s.fe.split } }

/-- The failed lead of a stayed pair leaves it: its logical core goes on on the other core (R429). -/
def State.splitPair (s : State) (l p b : Nat) : Option State :=
  match s.stopCore (Fin.ofNat 64 p) with
  | none => none
  | some s =>
    let s := { s with fe := { s.fe with partner := s.fe.partner.set none p none } }
    match s.lift l p with
    | (sv, s) => some (((s.settleOn l b { sv.core with run := .running }).quarantine p).pairAgain l b)

/-- The failed partner of a stayed pair leaves it. -/
def State.dropPartner (s : State) (a p : Nat) : State :=
  let s := { s with fe := { s.fe with partner := s.fe.partner.set none a none } }.quarantine p
  match s.carried a with
  | some l => s.pairAgain l a
  | none => s

/-- No backstay core is free: the self-test of R427 starts, with RES_CTL cleared. -/
def State.startSelfTest (s : State) (p : Nat) : State :=
  { (s.updCore (Fin.ofNat 64 p) fun k => k.setReg .RES_CTL [] 0) with fe := { s.fe with selfTest := some p } }

/-- Fetas acts on a failed check of a physical core. -/
def State.onCheck (s : State) (p : Nat) : Option State :=
  match s.carried p, s.leadOf p with
  | none, none => some (s.quarantine p).healthEval
  | none, some a => some (s.dropPartner a p).healthEval
  | some l, _ =>
    match s.fe.partner.get none p with
    | some b => (s.splitPair l p b).map State.healthEval
    | none =>
      match s.pickBackstay (p / 4) with
      | some x => (s.moveCore l p x).map fun r => (r.2.quarantine p).healthEval
      | none => some (s.startSelfTest p)

/-- Neither core of a pair can be trusted: the logical core migrates, and both are quarantined (R429). -/
def State.onPair (s : State) (p : Nat) : Option State :=
  match s.carried p, s.fe.partner.get none p with
  | some l, some b =>
    match s.pickBackstay (p / 4) with
    | some x => (s.moveCore l p x).map fun r => (((r.2.quarantine p).quarantine b).pairAgain l x).healthEval
    | none => some (s.startSelfTest p)
  | _, _ => some s

/-- A core stops at an instruction that does not retire, for Fetas to act on. -/
def State.stopFailed (s : State) (p : Nat) : State := s.updCore (Fin.ofNat 64 p) fun k => { k with run := .stopped .machineCheck }

/-- A register reads zero: what it held is lost. -/
def Core.loseReg (k : Core) (n : Nat) : Core :=
  { k with g := if n < 32 then k.g.set 0 n 0 else k.g, f := if n < 32 then k.f else k.f.set 0 (n - 32) 0, mcheck := true }

/-- A core that Fetas runs meets a failure (R424): an error in a register that is corrected leaves nothing but its counts; one
that is not loses the register, unless the other core of a pair has it; a pair rolls back, and at a second mismatch stops. -/
def State.meets (s : State) : CoreFailure → State
  | .reported => s
  | .register c n corrected =>
    let inPair := (s.leadOf c.val).isSome || (s.fe.partner.get none c.val).isSome
    if !s.pdUp (3 + c.val) || ((s.carried c.val).isNone && (s.leadOf c.val).isNone) then s
    else if corrected then (s.event c evRegister).count (.register 0)
    else
      let s := if inPair then s else s.updCore c fun k => k.loseReg n.val
      ((s.stopFailed c.val).count (.register (1 + n.val + 64 * c.val))).report (.machineCheck c.val)
  | .compare c again =>
    if (s.carried c.val).isNone || (s.fe.partner.get none c.val).isNone then s
    else
      let s := (s.event c evRollback).count .rollback
      if again then (s.stopFailed c.val).report (.pairCheck c.val) else s

/-- A failed check of a core or of a pair. -/
def Report.isCheck : Report → Bool
  | .machineCheck _ | .pairCheck _ => true
  | .doubleFault _ | .unitCheck _ => false

/-- MIGRATION (R426): a failure arises, and Fetas acts on the oldest failed check reported to it, before any request. -/
def execMigration (s : State) (what : CoreFailure := .reported) : Host.Outcome State Fault Refusal :=
  let s := s.meets what
  if !s.fetasUp || s.fe.selfTest.isSome then ok s else
  match s.reports.find? Report.isCheck with
  | some (.machineCheck p) => ok (({ s with reports := s.reports.erase (.machineCheck p) }.onCheck p).getD s)
  | some (.pairCheck p) => ok (({ s with reports := s.reports.erase (.pairCheck p) }.onPair p).getD s)
  | _ => ok s

/-- Time goes on, and a transition that has waited for a core with it (R376). -/
def State.timeGoes (s : State) : State := if s.passStep.isSome then s.passGo else s.idle

/-- On an empty queue Fetas acts on the oldest double fault reported to it once the core can be reset (R139, log entry
10), counts a check of a unit (R432), or else time goes on. -/
def State.idleStep (s : State) : State :=
  if !s.fetasUp then s.idle
  else
    match s.reports.find? fun r => !r.isCheck with
    | some (.doubleFault p) => ({ s with reports := s.reports.erase (.doubleFault p) }.onDoubleFault p).getD s.timeGoes
    | some (.unitCheck n) => { s with reports := s.reports.erase (.unitCheck n) }.count .unit
    | _ => s.timeGoes

/-- SELF_TEST_COMPLETE (R427): the self-test of a failed core ends. -/
def execSelfTestComplete (passed : Bool) (s : State) : Host.Outcome State Fault Refusal :=
  match s.fe.selfTest with
  | none => ok s
  | some p =>
    let c := Fin.ofNat 64 p
    let t := { s with fe := { s.fe with selfTest := none } }
    match t.carried p with
    | none => ok t
    | some l =>
      if passed then
        ok ((t.updCore c fun k => { k with run := .running, mcheck := true }).healthEval.healthEvent)
      else
        match t.stopCore c with
        | none => ok s
        | some s =>
          match s.lift l p with
          | (sv, s) =>
            let sv := { sv with core := { sv.core with run := .running } }
            let fe := { s.fe with furled := s.fe.furled.set none l (some sv), held := insertRising l s.fe.held }
            ok (({ s with fe := fe }.quarantine p).healthEval.healthEvent)

/-! ### Reef levels at run time (R380, R382) -/

/-- LOAD_LINE_GUARD (R380): a quad at level 5 to 7 draws more than the threshold of the trim, in mA. -/
def execLoadLineGuard (q : Fin 16) (ma : Nat) (s : State) : Host.Outcome State Fault Refusal :=
  let r := s.reg .QUAD_REEF [q.val]
  let lvl := s.level q.val
  if !s.pdUp (67 + q.val) || decide (lvl < 5) || flag r .QUAD_REEF_GUARD || decide (ma ≤ (s.trimDef s.fe.trim).guardMa) then ok s
  else ok (s.setReg .QUAD_REEF [q.val] (putBits (putBits r .QUAD_REEF_GUARD 1) .QUAD_REEF_VOLT (bits r .QUAD_REEF_VOLT + guardMv lvl)))

/-- GUARD_RELEASE (R380): the current has stayed below 90 % of the threshold for 1 ms. -/
def execGuardRelease (q : Fin 16) (s : State) : Host.Outcome State Fault Refusal :=
  let r := s.reg .QUAD_REEF [q.val]
  if !s.pdUp (67 + q.val) || !flag r .QUAD_REEF_GUARD then ok s
  else ok (s.setReg .QUAD_REEF [q.val] (putBits (putBits r .QUAD_REEF_GUARD 0) .QUAD_REEF_VOLT (bits r .QUAD_REEF_VOLT - guardMv (s.level q.val))))

/-- Every core of a quad that is on sees a droop stretch (R382, R466). -/
def State.droopSeen (s : State) (q : Nat) : State :=
  (coresOf q).foldl (fun s c => if (s.core c).run = .off then s else (s.event c evDroop).seqEdge c 0) s

/-- DROOP_STRETCH (R382): DROOP counts the event; no cycle count changes. -/
def execDroopStretch (q : Fin 16) (s : State) : Host.Outcome State Fault Refusal :=
  if !s.pdUp (67 + q.val) then ok s
  else ok ((s.droopSeen q.val).setFld .QUAD_REEF [q.val] .QUAD_REEF_DROOP (satAdd 255 (s.fld .QUAD_REEF [q.val] .QUAD_REEF_DROOP) 1))

/-- PLL_REFERENCE_SWITCH (R431): a quad's PLL loses its active reference path and runs on the other, its last. -/
def execPllReferenceSwitch (q : Fin 16) (s : State) : Host.Outcome State Fault Refusal :=
  if !s.pdUp (67 + q.val) then ok s
  else ok ({ s with fe := { s.fe with lastRef := insertRising q.val s.fe.lastRef } }.count .reference).healthEval

/-! ### Temperature and throttle (R383, R534) -/

/-- A thermal shutdown: every supply off at once, with the outcome of R219; a douse does not complete (R404). -/
def State.thermalShutdown (s : State) : State :=
  let s := s.hardReset
  let s := (s.setFld .WAKE_STAT [] .WAKE_STAT_THERM 1).setMode 0
  { s with crow := { s.crow with out := 0, todo := [], after := .nothing, cut := true }, fe := { s.fe with boot := .idle } }

/-- JUNCTION_SENSOR_READ (R534): the hottest reading, in tenths of a degree, and the complex's mean power, in mW. At 160 °C
the Crow's nest shuts down; the data rate of the DRAM follows the case estimate (R235). -/
def execJunctionSensorRead (tj : Int) (mw : Nat) (s : State) : Host.Outcome State Fault Refusal :=
  let s := { s with fe := { s.fe with junction := tj, caseTemp := tj - (mw * 12 / 10000 : Nat) } }
  if 1600 ≤ tj ∧ !s.crow.cut ∧ !s.crow.mastOff then ok s.thermalShutdown else ok (s.followCase s.fe.caseTemp)

/-- MAST_MODE.THROTTLE starts or ends, with source 307. -/
def State.throttleFlag (s : State) (b : Bool) : State :=
  if flag (s.reg .MAST_MODE) .MAST_MODE_THROTTLE == b then s
  else (s.setFld .MAST_MODE [] .MAST_MODE_THROTTLE (b2n b)).pulse 307

/-- THROTTLE_STEP (R383): at 145 °C or more, every quad above level 3 goes down one level, every 10 ms. -/
def execThrottleStep (s : State) : Host.Outcome State Fault Refusal :=
  if s.fe.junction < 1450 || !s.fetasUp || decide (s.time < s.fe.coolAt) then ok s
  else
    let qs := (List.range 16).filter fun q => s.pdUp (67 + q) && decide (3 < s.level q)
    let t := qs.foldl (fun s q =>
      { s.setLevel q (s.level q - 1) with fe := { s.fe with throttled := s.fe.throttled.set 0 q (s.fe.throttled.get 0 q + 1) } }) s
    let t := { t with fe := { t.fe with coolAt := s.time + 10 * 10 ^ 6, warmAt := s.time + 100 * 10 ^ 6 } }
    ok (if qs.isEmpty then t else t.throttleFlag true)

/-- THROTTLE_RELEASE_STEP (R383): below 140 °C, every lowered quad goes up one level, every 100 ms; at the end the levels
recorded meanwhile apply. -/
def execThrottleReleaseStep (s : State) : Host.Outcome State Fault Refusal :=
  if 1400 ≤ s.fe.junction || s.fe.throttled.isEmpty || !s.fetasUp || decide (s.time < s.fe.warmAt) then ok s
  else
    let s := { s with fe := { s.fe with warmAt := s.time + 100 * 10 ^ 6 } }
    let t := s.fe.throttled.foldl (fun s e =>
      { s.setLevel e.1 (s.level e.1 + 1) with fe := { s.fe with throttled := s.fe.throttled.set 0 e.1 (e.2 - 1) } }) s
    if !t.fe.throttled.isEmpty then ok t
    else
      let t := t.fe.reefWait.foldl (fun s e => match e.2 with | some l => s.setLevel e.1 l | none => s) t
      ok ({ t with fe := { t.fe with reefWait := [] } }.throttleFlag false)

/-! ### The pin and the other reserves (R321, R431, R433) -/

/-- HEALTH_PIN_RETURN: every condition has been clear for 10 s of Mast time. -/
def execHealthPinReturn (s : State) : Host.Outcome State Fault Refusal :=
  match s.fe.healthClear with
  | none => ok s
  | some t =>
    if s.ticksSince t < ticks10s ∨ s.healthPin = 1 ∨ s.healthBits ≠ 0 then ok s
    else ok ({ s.setHealth 1 with fe := { s.fe with healthClear := none } }).healthEvent

/-- HSR_PATH_RESERVE_EXPIRY: a redundancy instance has had a path lost for more than 10 s. -/
def execHsrPathReserveExpiry (i : Fin 2) (s : State) : Host.Outcome State Fault Refusal :=
  let due := s.fe.pathLost.filterMap fun e => match e.2, s.instOf e.1 with
    | some t, some (j, _) => if j = i.val ∧ t + 10000000000 < s.time then some e.1 else none
    | _, _ => none
  if due.isEmpty then ok s
  else ok ({ s with fe := { s.fe with pathOut := due.foldl (fun a p => insertRising p a) s.fe.pathOut } }.count .path).healthEval

/-! ### Mesh self-test (R40) -/

/-- MESH_SELF_TEST: in M7 Fetas powers the east half down, once every stop of it is quiesced, or up again; a
router of the west half is tested in place, with nothing kept from it. -/
def execMeshSelfTest (east down : Bool) (s : State) : Host.Outcome State Fault Refusal :=
  if s.mode ≠ .m7 || !east || !s.fetasUp then ok s
  else if !down then ok (s.domainOn 92)
  else ok (if s.meshQuiet then s.domainOff 92 else s)

end Sys2Proof.Machine
end

