-- ==== Sys2Proof/Machine/Fsi.lean ====
section
/-! DEFINITION. How Fetas takes requests, chooses the next one, checks it and answers it (R341 to R355, R359). -/

namespace Sys2Proof.Machine

/-- Which way the payload of a command's descriptor goes (R347); may: in, and not every use of the command has one. -/
inductive Dir where
  | none | inward | out | may
  deriving DecidableEq, Repr

/-- A row of the catalogue (R359): code, the bits its words 1 on define, who may send it, whether it may defer, its
descriptor, and whether it never waits for a hold (R355). -/
structure CmdRow where
  code : Nat
  mask : List Nat := []
  h : Bool := true
  t : Bool := false
  client : Bool := false
  defer : Bool := false
  dir : Dir := .none
  free : Bool := false
  deriving DecidableEq, Repr

/-- A request being executed: its words, the VMID of a slice that sends it, and its descriptor's physical address. -/
structure Call where
  id : Nat
  box : Nat
  words : List Nat
  vmid : Nat
  pa : Nat
  deriving DecidableEq, Repr

def Call.w (c : Call) (i : Nat) : Nat := c.words.getD i 0
/-- Two words, low word first. -/
def Call.w2 (c : Call) (i : Nat) : Nat := c.w i + c.w (i + 1) * 2 ^ 32
def Call.bit (c : Call) (i n : Nat) : Bool := (c.w i).testBit n
/-- Bits hi to lo of a word. -/
def Call.f (c : Call) (i hi lo : Nat) : Nat := c.w i / 2 ^ lo % 2 ^ (hi + 1 - lo)
def Call.tenant (c : Call) : Bool := decide (8 ≤ c.box)
def Call.desc (c : Call) : Bool := c.bit 0 25
def Call.async (c : Call) : Bool := c.bit 0 24
def Call.len (c : Call) : Nat := c.w 11

/-- What the execution of a request comes to: its final status; a command in progress that holds objects, with results
so far; or nothing yet,
while hardware must be waited for before its first effect. -/
inductive CmdAns where
  | done (a : Ans) (s : State)
  | op (objs : List Obj) (res : List Nat) (s : State)
  | wait

/-- The codes of the catalogue. -/
def fsiCodes : List Nat :=
  [0x101, 0x102, 0x103, 0x201, 0x202, 0x203, 0x204, 0x205, 0x301, 0x302, 0x303, 0x304, 0x305, 0x306, 0x401, 0x402, 0x403,
   0x404, 0x405, 0x406, 0x407, 0x408, 0x409, 0x40A, 0x501, 0x502, 0x503, 0x504, 0x505, 0x506, 0x507, 0x601, 0x602, 0x603,
   0x604, 0x701, 0x702, 0x703, 0x801, 0x802, 0x803, 0x804, 0x901, 0x902, 0x903, 0x904, 0x905, 0xA01, 0xA02, 0xA03, 0xA04,
   0xB01, 0xB02, 0xB03, 0xC01, 0xC02, 0xC03, 0xC04, 0xC05, 0xD01, 0xD02, 0xD03, 0xD04, 0xD05]

/-! ### Acceptance and the next request (R341, R342, R352, R353) -/

/-- A request is copied, and its window is free again; one that no row of the catalogue has is answered. -/
def State.acceptReq (s : State) (box : Nat) : State :=
  let ws := s.boxWords box
  let s := s.boxClear box
  let w0 := ws.headD 0
  if !fsiCodes.contains (w0 % 2 ^ 16) || decide (2 ^ 26 ≤ w0) || ws.getD 14 0 != 0 || ws.getD 15 0 != 0 then
    s.reply box w0 { status := stBadCommand }
  else
    let r : FsiReq := { id := s.fsi.reqNext, box := box, words := ws }
    { s with fsi := { s.fsi with accepted := s.fsi.accepted ++ [r], reqNext := s.fsi.reqNext + 1 } }

/-- A mailbox exists, is powered, and has Fetas at its far end; a slice's is bound (R282, R342). -/
def State.boxServed (s : State) (box : Nat) : Bool :=
  if box < 8 then s.pdUp 2
  else s.pdUp 103 && decide (box < 8200) && flag (s.reg .SLICE_BIND [box - 8]) .SLICE_BIND_VALID &&
    !flag (s.reg .SLICE_FAR [box - 8]) .SLICE_FAR_FAR

/-- A request of a mailbox is not answered yet: its response is ready, or it is accepted, or in progress and not deferred
(R343, R351). -/
def State.responseDue (s : State) (box : Nat) : Bool :=
  (s.fsi.ready.any fun r => r.1 == box) || (s.fsi.accepted.any fun r => r.box == box) ||
    s.fsi.ops.any fun o => o.req.box == box && !o.deferred

/-- The request in a mailbox may be accepted: the one before it there is answered. -/
def State.acceptable (s : State) (box : Nat) : Bool := s.boxServed box && s.boxBusy box && !s.responseDue box

/-- No mailbox that may be accepted rang before this one (R352). -/
def State.rangFirst (s : State) (box : Nat) : Bool := !(s.fsi.rings.takeWhile fun b => b != box).any s.acceptable

/-- REQUEST_ACCEPT (R341 to R343, R352): Fetas copies the request of a mailbox; 8 + n is slice n. -/
def execRequestAccept (box : Nat) (s : State) : Host.Outcome State Fault Refusal :=
  if s.fetasUp && s.acceptable box && s.rangFirst box then ok (s.acceptReq box) else ok s

/-- The request that is executed next. -/
def State.nextReq (s : State) : Option FsiReq :=
  match s.fsi.accepted.find? fun r => decide (r.box < 8) with
  | some r => some r
  | none =>
    let rank (r : FsiReq) : Nat := (r.box - 8 + 8192 - s.fsi.rot) % 8192
    s.fsi.accepted.foldl (fun (b : Option FsiReq) r => match b with
      | none => some r
      | some x => if rank r < rank x then some r else some x) none

/-! ### Posting (R341, R342, R346, R349, R350) -/

/-- A ready response is posted. -/
def State.postResponse (s : State) (r : Nat × List Nat) : State :=
  { s with fsi := { s.fsi with ready := s.fsi.ready.erase r, firm := s.fsi.firm.erase r.1 } }.boxPost r.1 r.2

/-- Fetas posts every ready response that finds its window empty. -/
def State.postAll (s : State) : State :=
  s.fsi.ready.foldl (fun s r => if s.boxServed r.1 && s.boxFree r.1 then s.postResponse r else s) s

/-- RESPONSE_POST: the oldest ready response of a mailbox is posted into its empty window. -/
def execResponsePost (box : Nat) (s : State) : Host.Outcome State Fault Refusal :=
  match s.fsi.ready.find? fun r => r.1 == box with
  | none => ok s
  | some r =>
    if !s.fetasUp || !s.boxServed box || !s.boxFree box then ok s else ok (s.postResponse r)

/-- The words of an event; lost: events dropped from its queue before it. -/
def FsiEvent.words (e : FsiEvent) (lost : Nat) : List Nat :=
  let w0 := e.code + e.tag * 2 ^ 16 + 2 ^ 24 + (if e.replay then 2 ^ 25 else 0)
  [w0, e.status] ++ (if e.completion then e.data else e.seq % 2 ^ 32 :: lost :: e.data)

/-- EVENT_POST: Fetas delivers the next event of a mailbox. -/
def execEventPost (box : Nat) (s : State) : Host.Outcome State Fault Refusal :=
  match s.fsiQueue box with
  | [] => ok s
  | e :: q =>
    let free :=
      if box < 8 then !flag (s.reg .FSI_MBX_STAT [box]) .FSI_MBX_STAT_EVT_FULL
      else !s.responseDue box && s.boxFree box
    if !s.fetasUp || !s.boxServed box || !free then ok s
    else
      let ws := e.words (s.fsi.lost.get 0 box)
      let lost := if e.completion then s.fsi.lost else s.fsi.lost.set 0 box 0
      let s := { s with fsi := { s.fsi with queues := s.fsi.queues.set [] box q, lost := lost } }
      if box < 8 then
        let s := s.setFld .FSI_MBX_COUNT [box] .FSI_MBX_COUNT_EVT (s.fld .FSI_MBX_COUNT [box] .FSI_MBX_COUNT_EVT + 1)
        ok ((s.putWords .EVT_MSG box ws).setFld .FSI_MBX_STAT [box] .FSI_MBX_STAT_EVT_FULL 1)
      else ok (s.boxPost box ws)

/-! ### Checks (R345, R347, R348, R351, R355, R359; log entry 45) -/

/-- The first word from 1 to 10 with an undefined bit set. -/
def CmdRow.badBits (r : CmdRow) (c : Call) : Option Nat :=
  (List.range' 1 10).find? fun i => (c.w i) &&& (0xFFFFFFFF ^^^ r.mask.getD (i - 1) 0) != 0

/-- The earlier of two bad words. -/
def firstBad : Option Nat → Option Nat → Option Nat
  | some a, some b => some (min a b)
  | some a, none => some a
  | none, b => b

/-- The physical address of a descriptor, when it passes R347. -/
def State.descPa (s : State) (c : Call) (inward : Bool) : Option Nat :=
  let len := c.len
  let addr := c.w2 12
  if len = 0 ∨ 2 ^ 24 < len ∨ addr % 8 ≠ 0 then none
  else if c.tenant then winFind (s.windows (c.box - 8)) addr len inward !inward
  else if addr + len ≤ s.part.dramEnd ∨ (mramBase ≤ addr ∧ addr + len ≤ mramEnd) then some addr
  else none

/-- What the descriptor fields of a request come to: its address, or the DETAIL of BAD_ARGUMENT. -/
def State.descCheck (s : State) (row : CmdRow) (lenOk : Call → Bool) (c : Call) : Except Nat Nat :=
  if !c.desc then
    match (List.range' 11 3).find? fun i => c.w i != 0 with
    | some i => .error i
    | none => if row.dir = .none ∨ (row.dir = .may ∧ lenOk c) then .ok 0 else .error 0x10
  else if row.dir = .none ∨ !lenOk c then .error 0x10
  else
    match s.descPa c (row.dir != .out) with
    | some pa => .ok pa
    | none => .error 0x10

/-- An object is held by a command in progress, or by a request accepted before a given one and not yet executed: such are
slice requests that a control mailbox's overtakes, and the Shroud port is what they hold. -/
def State.heldObj (s : State) (id : Nat) (o : Obj) : Bool :=
  (s.fsi.ops.any fun x => x.objs.contains o) ||
    (o == .shroud && s.fsi.accepted.any fun r => decide (r.id < id) && [0xA02, 0xA03].contains (r.words.headD 0 % 2 ^ 16))

/-- Deferred requests whose completion event a mailbox has not delivered. -/
def State.deferredOf (s : State) (box : Nat) : Nat :=
  (s.fsi.ops.filter fun o => o.deferred && o.req.box == box).length + ((s.fsiQueue box).filter fun e => e.completion).length

def deferLimit (box : Nat) : Nat := if box < 8 then 8 else 1

/-- The slice is the Shroud client (R369). -/
def State.isClient (s : State) (box : Nat) : Bool := s.fe.names.client == some (box - 8)

/-- The checks that come before a command's own: who sends it, its arguments, its descriptor, a mode transition
(R355; log entry 105), holds and places for deferral. -/
def State.precheck (s : State) (row : CmdRow) (bad : Call → State → Option Nat) (lenOk : Call → Bool)
    (objs : Call → State → List Obj) (c : Call) : Except Ans Call :=
  if row.client && (s.part == .n64 || s.part == .n32) then .error { status := stNoResource }
  else if (if c.tenant then !(row.t && (!row.client || s.isClient c.box)) else !row.h) then .error { status := stDenied, detail := 0x100 }
  else
    match firstBad (row.badBits c) (bad c s) with
    | some i => .error { status := stBadArgument, detail := i }
    | none =>
      match s.descCheck row lenOk c with
      | .error d => .error { status := stBadArgument, detail := d }
      | .ok pa =>
        if s.fe.passage.isSome && (decide (row.code / 256 = 3) || row.code == 0x202) then .error { status := stBusy, detail := 2 }
        else if !row.free && ((objs c s).any (s.heldObj c.id)) then .error { status := stBusy, detail := 1 }
        else if row.defer && c.async && decide (deferLimit c.box ≤ s.deferredOf c.box) then .error { status := stNoResource }
        else .ok { c with pa := pa }

/-- A command has its final status: a response, or DEFERRED and a completion event (R351). Refusals are never deferred. -/
def State.finish (s : State) (row : CmdRow) (c : Call) (a : Ans) : State :=
  let w0 := c.w 0
  if row.defer && c.async && (a.status == stOk || a.status == stTimeout || a.status == stDegraded) then
    (s.reply c.box w0 { status := stDeferred }).complete c.box w0 a
  else s.reply c.box w0 a

/-- A request as its execution sees it. -/
def State.callOf (s : State) (r : FsiReq) : Call :=
  { id := r.id, box := r.box, words := r.words, vmid := if r.box < 8 then 0 else s.fld .SLICE_BIND [r.box - 8] .SLICE_BIND_PID / 2 ^ 16,
    pa := 0 }

/-- A command is in progress from here on: later: its DEFERRED is posted, and its result is a completion event. -/
def State.begin (s : State) (o : FsiOp) : State :=
  let s := { s with fsi := { s.fsi with ops := s.fsi.ops ++ [o] } }
  if o.deferred then s.reply o.req.box (o.req.words.headD 0) { status := stDeferred } else s

/-- Execute a request of this row. -/
def State.runReq (s : State) (row : CmdRow) (bad : Call → State → Option Nat) (lenOk : Call → Bool)
    (objs : Call → State → List Obj) (act : Call → State → CmdAns) (r : FsiReq) : State :=
  let rot := if r.box < 8 then s.fsi.rot else (r.box - 8 + 1) % 8192
  let t := { s with fsi := { s.fsi with accepted := s.fsi.accepted.erase r, rot := rot } }
  let c := t.callOf r
  match t.precheck row bad lenOk objs c with
  | .error a => t.finish row c a
  | .ok c =>
    match act c t with
    | .wait => t.begin { req := r, deferred := row.defer && c.async, objs := objs c t, parked := true }
    | .done a u => u.finish row c a
    | .op held res u => u.begin { req := r, deferred := row.defer && c.async, objs := held, res := res }

/-- Try a waiting command of this row again. -/
def State.tryAgain (s : State) (row : CmdRow) (lenOk : Call → Bool) (act : Call → State → CmdAns) (o : FsiOp) : State :=
  let c := s.callOf o.req
  let pa := match s.descCheck row lenOk c with
    | .ok pa => pa
    | .error _ => 0
  match act { c with pa := pa } s with
  | .wait => s
  | .done a u => u.opEnd c.id a
  | .op held res u =>
    { u with fsi := { u.fsi with ops := u.fsi.ops.map fun x =>
        if x.req.id = c.id then { x with objs := held, res := res, parked := false } else x } }

/-- Execute the next request, when it is one of this row, or else try the oldest waiting command of the row again (R353);
Fetas does nothing while FETAS_UP is 0. -/
def State.command (s : State) (row : CmdRow) (bad : Call → State → Option Nat) (lenOk : Call → Bool)
    (objs : Call → State → List Obj) (act : Call → State → CmdAns) : State :=
  let mine (r : FsiReq) : Bool := decide (r.words.headD 0 % 2 ^ 16 = row.code)
  if !s.fetasUp then s
  else
    match s.nextReq.filter mine, s.fsi.ops.find? fun o => o.parked && mine o.req with
    | some r, _ => s.runReq row bad lenOk objs act r
    | none, some o => s.tryAgain row lenOk act o
    | none, none => s

/-! ### What the rows share -/

/-- A key slot is erased: it holds no key of its own. -/
def State.eraseSlot (s : State) (k : Nat) : State :=
  { s with dram := { s.dram with slotKey := s.dram.slotKey.set none k (some s.dram.keyNext), keyNext := s.dram.keyNext + 1 },
           fe := { s.fe with slots := s.fe.slots.erase k, erased := insertRising k s.fe.erased } }

/-- Done with a final status. -/
def State.ans (s : State) (st : Nat) (res : List Nat := []) (detail : Nat := 0) : CmdAns :=
  .done { status := st, detail := detail, res := res } s

def State.yes (s : State) (res : List Nat := []) : CmdAns := s.ans stOk res
def State.deny (s : State) (detail : Nat := 0) : CmdAns := s.ans stDenied [] detail
def State.badArg (s : State) (i : Nat) : CmdAns := s.ans stBadArgument [] i

def noBad (_ : Call) (_ : State) : Option Nat := none
def noObj (_ : Call) (_ : State) : List Obj := []
def anyLen (_ : Call) : Bool := true

/-- The first condition that holds names a bad word. -/
def badWhen (l : List (Nat × Bool)) : Option Nat := (l.find? fun x => x.2).map fun x => x.1

/-- Low and high word of a 64-bit value. -/
def lohi (v : Nat) : List Nat := [v % 2 ^ 32, v / 2 ^ 32 % 2 ^ 32]

/-- Fetas reads the descriptor; what a poisoned sector holds is free. -/
def State.readDesc (s : State) (c : Call) (k : Bytes → State → CmdAns) : CmdAns :=
  if !c.desc then k [] s else
  match s.ioRead c.pa c.len 18 with
  | (.wait, _) => .wait
  | (.bus, s) => s.badArg 0x10
  | (.ok d p, s) =>
    if !p.any id then k d s
    else
      match s.freshBytes d.length with
      | (f, s) => k ((List.range d.length).map fun i => if p.getD i false then f.getD i 0 else d.getD i 0) s

/-- Fetas writes the descriptor. -/
def State.writeDesc (s : State) (c : Call) (d : Bytes) (k : State → CmdAns) : CmdAns :=
  match s.ioWrite c.pa d [] 18 with
  | (none, _) => .wait
  | (some _, s) => k s

end Sys2Proof.Machine
end

