-- ==== Sys2Proof/Machine/FsiInfo.lean ====
section
/-! DEFINITION. The INFO, HEALTH, RECORD, TIME and MEMORY groups (R360, R365 to R367, R372, R418 to R422). -/

namespace Sys2Proof.Machine

/-- A register as Fetas reads it. -/
def State.feRead (s : State) (r : Reg) (idx : List Nat) : Nat × State := s.busRead .fetas (r.at idx) 4

/-! ### INFO (R360) -/

/-- INFO_PART. -/
def execInfoPart (s : State) : Host.Outcome State Fault Refusal :=
  ok (s.command { code := 0x101, t := true } noBad anyLen noObj fun _ s =>
    let shroud := if s.part == .s64 || s.part == .s32 then 2 ^ 8 else 0
    s.yes [s.part.code + shroud, s.part.dramEnd / 2 ^ 30, Config.dieRev % 2 ^ 8, s.fe.fw.versionOf false s.fe.fw.useB,
           b2n s.fe.fw.useB, s.freeBackstays.length])

/-- What INFO CORES says of a physical core: the logical core it carries, and its state. -/
def State.coreState (s : State) (p : Nat) : Nat × Nat :=
  match s.carried p, s.leadOf p with
  | some l, _ =>
    if (s.core (Fin.ofNat 64 p)).run == .stopped .doubleFault then (l, 6)
    else if (s.fe.partner.get none p).isSome then (l, 5) else (l, 1)
  | none, some x => ((s.carried x).getD 0, 5)
  | none, none =>
    if s.fe.quarantined.contains p then (0, 4)
    else if s.freeBackstays.contains p then (0, 3)
    else
      match (List.range 64).find? fun l => (s.trimDef s.fe.trim).placeOf l == some p && (s.fe.furled.get none l).isSome with
      | some l => (l, 2)
      | none => (0, 0)

/-- INFO_CORES. -/
def execInfoCores (s : State) : Host.Outcome State Fault Refusal :=
  ok (s.command { code := 0x102, dir := .out } noBad (fun c => c.len == 512) noObj fun c s =>
    let entry (p : Nat) : Bytes := toLe (p + (s.coreState p).1 * 2 ^ 8 + (s.coreState p).2 * 2 ^ 16) 4 ++ toLe (s.level (p / 4)) 4
    s.writeDesc c ((List.range 64).flatMap entry) fun s => s.yes [64])

/-- The slices that are bound. -/
def State.boundSlices (s : State) : Nat :=
  (s.regs.filter fun e => (Reg.SLICE_BIND.match? e.1).isSome && flag e.2 .SLICE_BIND_VALID).length

/-- A memory key slot is loaded: by KEY MEM_KEY, or by the plan, and not erased since. -/
def State.slotLoaded (s : State) (k : Nat) : Bool := s.fe.slots.contains k || (s.fe.names.slots.contains k && !s.fe.erased.contains k)

/-- INFO_LIMITS. -/
def execInfoLimits (s : State) : Host.Outcome State Fault Refusal :=
  ok (s.command { code := 0x103 } noBad anyLen noObj fun c s =>
    let slots := (List.range 8191).filter fun k => !s.slotLoaded (k + 1)
    let cleats := s.regs.filter fun e => (Reg.CLEAT_STATE.match? e.1).isSome && bits e.2 .CLEAT_STATE_STATE != 0
    s.yes [s.boundSlices, s.poolFree, slots.length, cleats.length,
           deferLimit c.box - s.deferredOf c.box])

/-! ### HEALTH (R365) -/

/-- HEALTH_SUMMARY. -/
def execHealthSummary (s : State) : Host.Outcome State Fault Refusal :=
  ok (s.command { code := 0x601 } noBad anyLen noObj fun _ s =>
    let deg := (List.range 2).foldl (fun a g => a + b2n (flag (s.reg .MG_STATUS [g]) .MG_STATUS_DEGRADED) * 2 ^ g) 0
    let low := (List.range 4).foldl (fun a d => a + b2n (decide (s.fld .MR_DIE [d] .MR_DIE_SPARES_FREE < 256)) * 2 ^ d) 0
    let l3 := s.homes.foldl (fun a e => a + e.2.l3.retired.length) 0
    s.yes [s.healthPin, s.freeBackstays.length, deg, s.fe.quarantined.length, l3, low, s.fe.doubleFaults, s.fsi.seq % 2 ^ 32])

/-- Insert an entry of the health log by sequence number, after its equals. -/
def putEntry (x : Nat × List Nat) : List (Nat × List Nat) → List (Nat × List Nat)
  | [] => [x]
  | y :: l => if x.1 < y.1 then x :: y :: l else y :: putEntry x l

/-- The 64 bytes of an entry of the health log. -/
def entryBytes (x : Nat × List Nat) : Bytes :=
  let ws := [x.2.headD 0 + 2 ^ 24, 0, x.1 % 2 ^ 32, 0] ++ x.2.tail
  (List.range 16).flatMap fun i => toLe (ws.getD i 0) 4

/-- HEALTH_LOG. -/
def execHealthLog (s : State) : Host.Outcome State Fault Refusal :=
  ok (s.command { code := 0x602, mask := [0xFFFFFFFF, 0xFFFFFFFF], dir := .out, free := true } noBad anyLen noObj fun c s =>
    let from' := c.w2 1
    let l := (s.fsi.log.filter fun x => decide (from' ≤ x.1)).foldl (fun a x => putEntry x a) []
    let l := l.take (c.len / 64)
    let next := match l.getLast? with | some x => x.1 + 1 | none => from'
    s.writeDesc c (l.flatMap entryBytes) fun s => s.yes (l.length :: lohi next))

/-- The object of a HEALTH command is out of range. -/
def badObject (c : Call) (_ : State) : Option Nat :=
  let k := c.w 1
  let x := c.w 2
  badWhen [(1, decide (k = 0 ∨ 6 < k)),
    (2, (k == 1 && decide (64 ≤ x)) || (k == 2 && decide (x % 2 ^ 26 / 2 ^ 16 ≠ 0)) ||
      (k == 3 && decide (x % 2 ^ 26 / 2 ^ 16 ≠ 0 ∨ 2 ^ 30 ≤ x)) || (k == 4 && decide (x % 2 ^ 26 / 2 ^ 16 ≠ 0 ∨ 2 ^ 29 ≤ x)) ||
      (k == 5 && decide (32 ≤ x ∨ 8 < x % 16)) || (k == 6 && decide (8 ≤ x)))]

/-- HEALTH_SELF_TEST: whether the object passes is free. -/
def execHealthSelfTest (s : State) : Host.Outcome State Fault Refusal :=
  ok (s.command { code := 0x603, mask := [0xF, 0xFFFFFFFF], defer := true } badObject anyLen noObj fun c s =>
    if s.mode ≠ .m7 then s.deny else
    match s.fresh with
    | (w, s) =>
      let o := (c.w 1, c.w 2)
      let rest := s.fe.tested.erase o
      let tested := if w.getLsbD 0 then rest ++ [o] else rest
      { s with fe := { s.fe with tested := tested } }.yes [b2n (w.getLsbD 0)])

/-- An object goes back into service: its retirement record is cleared (R203, R425). -/
def State.bringBack (s : State) (kind x : Nat) : State :=
  let f := x % 2 ^ 16
  let n := x / 2 ^ 26
  let clear (k : Cache) : Cache := { k with retired := k.retired.erase f }
  if kind = 1 then
    if !s.fe.quarantined.contains x then s
    else { s with fe := { s.fe with quarantined := s.fe.quarantined.erase x, returned := insertRising x s.fe.returned } }.holdBackstays
  else if kind = 2 then s.updCore (Fin.ofNat 64 n) fun k => { k with l1i := clear k.l1i, l1d := clear k.l1d }
  else if kind = 3 then s.updL2 n clear
  else if kind = 4 then { s with fe := { s.fe with l3Degraded := s.fe.l3Degraded.erase n } }.updL3 n clear
  else if kind = 5 then
    let g := x / 16
    let ch := x % 16
    let r := s.reg .MG_STATUS [g]
    let both := s.dram.failed.contains g
    let left := { s with dram := { s.dram with failed := s.dram.failed.erase g, second := s.dram.second.set 0 g 0 } }
    if !flag r .MG_STATUS_DEGRADED then s
    else if bits r .MG_STATUS_FAILED = ch then
      if both then left.setReg .MG_STATUS [g] (putBits r .MG_STATUS_FAILED (s.dram.second.get 0 g))
      else s.setReg .MG_STATUS [g] (putBits (putBits r .MG_STATUS_DEGRADED 0) .MG_STATUS_FAILED 0xF)
    else if both ∧ s.dram.second.get 0 g = ch then left
    else s
  else if kind = 6 then
    { s with fe := { s.fe with l3Degraded := s.fe.l3Degraded.erase x } }.updL3 x fun k => { k with retired := [], suspects := [] }
  else s

/-- HEALTH_RETURN. -/
def execHealthReturn (s : State) : Host.Outcome State Fault Refusal :=
  ok (s.command { code := 0x604, mask := [0xF, 0xFFFFFFFF] } badObject anyLen noObj fun c s =>
    let o := (c.w 1, c.w 2)
    if s.mode ≠ .m7 ∨ !s.fe.tested.contains o then s.deny
    else (({ s with fe := { s.fe with tested := s.fe.tested.erase o } }.bringBack o.1 o.2).healthEval).yes)

/-! ### RECORD (R366, R418 to R422) -/

/-- The size of a bank of a host record. -/
def hostRecLen : Nat := 4160

/-- The bytes of a bank. -/
def bankBytes (kind seq : Nat) (p : Bytes) : Bytes :=
  recHeader kind seq p.length (recCrc kind seq p) ++ p ++ zeros (hostRecLen - 96 - p.length) ++ toLe (recCommit kind seq p) 8 ++ zeros 56

/-- RECORD_WRITE. -/
def execRecordWrite (s : State) : Host.Outcome State Fault Refusal :=
  ok (s.command { code := 0x701, mask := [0x3F], dir := .inward } noBad (fun c => decide (1 ≤ c.len ∧ c.len ≤ 4064)) noObj
    fun c s => s.readDesc c fun p s =>
      let r := c.w 1
      let b := s.fe.records.get ([], []) r
      match recNext 0x10 b.1 b.2 with
      | (inB, seq) =>
        let d := bankBytes 0x10 seq p
        let b := if inB then (b.1, d) else (d, b.2)
        { s with fe := { s.fe with records := s.fe.records.set ([], []) r b } }.yes (lohi seq))

/-- RECORD_READ. A descriptor shorter than the record is of the wrong length. -/
def execRecordRead (s : State) : Host.Outcome State Fault Refusal :=
  ok (s.command { code := 0x702, mask := [0x3F], dir := .out, free := true } noBad anyLen noObj fun c s =>
    let b := s.fe.records.get ([], []) (c.w 1)
    match recNewest 0x10 b.1 b.2 with
    | none => s.ans stNoResource
    | some (_, seq, p) =>
      if c.len < p.length then s.badArg 0x10 else s.writeDesc c p fun s => s.yes (p.length :: lohi seq))

/-- The summary of a douse record (R422). -/
def Douse.summary (d : Douse) : Bytes :=
  toLe d.seq 8 ++ toLe d.epoch 4 ++ toLe d.gen 4 ++ toLe d.tick 8 ++ toLe d.time 8 ++ toLe d.mode 1 ++ toLe d.source 1 ++
    toLe d.cores.length 2 ++ toLe d.sectors 4 ++ toLe d.payload 4 ++ toLe d.took 4 ++ toLe (bitsOf (d.cores.map fun x => x.1)) 8 ++
    toLe d.backTick 8 ++ toLe d.backTime 8 ++ toLe d.resumed 4 ++ toLe d.refused 4 ++ toLe d.cold 4 ++ toLe d.genAfter 4 ++
    zeros 168

/-- RECORD_DOUSE. -/
def execRecordDouse (s : State) : Host.Outcome State Fault Refusal :=
  ok (s.command { code := 0x703, dir := .out, free := true } noBad (fun c => c.len == 256) noObj fun c s =>
    let d := match s.fe.douse with | some d => d.summary | none => zeros 256
    let res := match s.fe.douseCut, s.fe.douse with
      | some t, _ => 2 :: lohi t
      | none, some d => 1 :: lohi d.tick
      | none, none => [0, 0, 0]
    s.writeDesc c d fun s => s.yes res)

/-! ### TIME (R367, R323, R390) -/

/-- TIME_NOW. -/
def execTimeNow (s : State) : Host.Outcome State Fault Refusal :=
  ok (s.command { code := 0x801, t := true, free := true } noBad anyLen noObj fun _ s => s.yes (lohi s.time ++ lohi s.tick))

/-- TIME_PTP: whether the firmware's protocol is synchronised is free. -/
def execTimePtp (s : State) : Host.Outcome State Fault Refusal :=
  ok (s.command { code := 0x802, mask := [3], t := true, free := true } noBad anyLen noObj fun c s =>
    let k := c.w 1
    let p := s.sw.ptp.get (0, 0) k
    match s.fresh with
    | (w, s) =>
      s.yes ([p.1.toNat % 2 ^ 32] ++ lohi p.2.toNat ++ [p.2.toNat / 2 ^ 64 % 2 ^ 32, (s.reg .PTP_COMMIT_LO [k]).toNat,
        (s.reg .PTP_COMMIT_HI [k]).toNat, b2n (w.getLsbD 0) + s.fld .PTP_CTL [k] .PTP_CTL_DOMAIN * 2 ^ 8]))

/-- TIME_ALARM. -/
def execTimeAlarm (s : State) : Host.Outcome State Fault Refusal :=
  ok (s.command { code := 0x803, mask := [3, 0xFFFFFFFF, 0xFFFF, 1] } noBad anyLen noObj fun c s =>
    let n := c.w 1
    let t := c.w2 2
    if t = 0 then (s.setFld .ALARM_HI [n] .ALARM_HI_EN 0).yes
    else if t ≤ s.tick then s.deny
    else ((s.setReg .ALARM_LO [n] (BitVec.ofNat 64 (t % 2 ^ 32))).setReg .ALARM_HI [n]
      (BitVec.ofNat 64 (t / 2 ^ 32 + b2n (c.bit 4 0) * 2 ^ 30 + 2 ^ 31))).yes)

/-- TIME_PTP_CONFIG: what the descriptor asks for is opaque (log entry 46). -/
def execTimePtpConfig (s : State) : Host.Outcome State Fault Refusal :=
  ok (s.command { code := 0x804, mask := [3], dir := .inward } noBad anyLen noObj fun c s => s.readDesc c fun d s =>
    let k := c.w 1
    let p := Config.ptpProfile d
    let others := ((List.range 4).filter fun i => i != k && flag (s.reg .PTP_CTL [i]) .PTP_CTL_GPTP).length
    if p.1 && decide (2 ≤ others) then s.deny
    else (s.setReg .PTP_CTL [k] (putBits (putBits (s.reg .PTP_CTL [k]) .PTP_CTL_GPTP (b2n p.1)) .PTP_CTL_DOMAIN (p.2 % 2 ^ 8))).yes)

/-! ### MEMORY (R372) -/

/-- MEMORY_STATUS. -/
def execMemoryStatus (s : State) : Host.Outcome State Fault Refusal :=
  ok (s.command { code := 0xD01, mask := [1], free := true } noBad anyLen noObj fun c s =>
    let g := c.w 1
    let a := s.feRead .MG_STATUS [g]
    let b := a.2.feRead .MG_SPARE [g]
    let d := b.2.feRead .MG_SCRUB [g]
    d.2.yes [a.1, b.1, d.1, d.2.dram.windows.get 0 g % 2 ^ 32])

/-- MEMORY_MARK_FAILED. -/
def execMemoryMarkFailed (s : State) : Host.Outcome State Fault Refusal :=
  ok (s.command { code := 0xD02, mask := [1, 0xF] } (fun c _ => badWhen [(2, decide (8 < c.w 2))]) anyLen
    (fun c _ => [.mem (c.w 1)]) fun c s =>
      let g := c.w 1
      if flag (s.reg .MG_STATUS [g]) .MG_STATUS_DEGRADED then s.deny else (s.markDie g (c.w 2)).yes)

/-- MEMORY_RETRAIN: it ends with the last channel's window; a group that is off has nothing to train. -/
def execMemoryRetrain (s : State) : Host.Outcome State Fault Refusal :=
  ok (s.command { code := 0xD03, mask := [1], defer := true } noBad anyLen (fun c _ => [.mem (c.w 1)]) fun c s =>
    let g := c.w 1
    if s.groupUp g then .op [.mem g] [] (s.startRetrain g) else s.yes)

/-- MEMORY_POISON_LIST: an entry is the physical address of its sector (log entry 46). -/
def execMemoryPoisonList (s : State) : Host.Outcome State Fault Refusal :=
  ok (s.command { code := 0xD04, mask := [1], dir := .out, free := true } noBad anyLen noObj fun c s =>
    let l := (s.poisonListed (c.w 1)).take (c.len / 8)
    s.writeDesc c (l.flatMap fun n => toLe (n * 64) 8) fun s => s.yes [l.length])

/-- MEMORY_MRAM: the reads clear RETRIES, as reads of the registers do. -/
def execMemoryMram (s : State) : Host.Outcome State Fault Refusal :=
  ok (s.command { code := 0xD05, free := true } noBad anyLen noObj fun _ s =>
    match s.feRead .MR_STATUS [] with
    | (a, s) =>
      let r := (List.range 4).foldl (fun (x : List Nat × State) d =>
        match x.2.feRead .MR_DIE [d] with
        | (v, s) => (x.1 ++ [v], s)) ([], s)
      r.2.yes (a :: r.1))

end Sys2Proof.Machine
end

