-- ==== Sys2Proof/Machine/FsiKey.lean ====
section
/-! DEFINITION. The TRACE, KEY and FIRMWARE groups (R250, R340, R368, R370, R371, R486, R487, R504 to R508). -/

namespace Sys2Proof.Machine

/-! ### TRACE (R370, R487) -/

/-- TRACE_AUTHORISE: whether a credential is valid is opaque (log entry 46). -/
def execTraceAuthorise (s : State) : Host.Outcome State Fault Refusal :=
  ok (s.command { code := 0xB01, mask := [0xF1FFF, 0xFFFFFFFF, 0xFFFFFFFF, 0xFFFFFFFF], dir := .may }
    (fun c _ => badWhen [(1, c.bit 1 19 && decide (c.w 1 % 8192 ≠ 0)), (4, decide (c.w 4 = 0 ∨ 86400000 < c.w 4))])
    (fun c => !c.desc || c.bit 1 17 || c.bit 1 18) noObj fun c s => s.readDesc c fun d s =>
      if (c.bit 1 17 || c.bit 1 18) && !(c.desc && Config.credential d ((c.words.drop 1).take 4)) then s.deny
      else if 16 ≤ s.fe.tokens.length then s.ans stNoResource
      else
        let n := s.fe.tokenNext
        let t : Token := { num := n, vmid := c.w 1 % 8192, k := c.bit 1 16, h := c.bit 1 17, sealedOk := c.bit 1 18, all := c.bit 1 19,
                           mask := BitVec.ofNat 64 (c.w2 2), ends := s.time + c.w 4 * 1000000 }
        ({ s with fe := { s.fe with tokens := s.fe.tokens ++ [t], tokenNext := n + 1 } }.applyTokens).yes [n])

/-- TRACE_REVOKE. -/
def execTraceRevoke (s : State) : Host.Outcome State Fault Refusal :=
  ok (s.command { code := 0xB02, mask := [0xFFFFFFFF] }
    (fun c s => badWhen [(1, !(s.fe.tokens.any fun t => t.num == c.w 1))]) anyLen (fun c _ => [.token (c.w 1)]) fun c s =>
      (s.endToken (c.w 1)).yes)

/-- TRACE_LIST: the layout of an entry's 32 bytes is open, and they are free (log entry 46). -/
def execTraceList (s : State) : Host.Outcome State Fault Refusal :=
  ok (s.command { code := 0xB03, dir := .out, free := true } noBad anyLen noObj fun c s =>
    let n := min s.fe.tokens.length (c.len / 32)
    match s.freshBytes (32 * n) with
    | (b, s) => s.writeDesc c b fun s => s.yes [n])

/-! ### KEY (R250, R371, R504, R505) -/

/-- A memory key slot gets a key; a wrapped key's identity is its value, above every random one's (log entry 23). -/
def State.loadSlot (s : State) (k : Nat) (key : Option Bytes) : State :=
  let d := s.dram
  let id := match key with | some b => 2 ^ 600 + leNat b | none => d.keyNext
  let next := if key.isSome then d.keyNext else d.keyNext + 1
  { s with dram := { d with slotKey := d.slotKey.set none k (some id), keyNext := next },
           fe := { s.fe with slots := insertRising k s.fe.slots, erased := s.fe.erased.erase k } }

/-- KEY_MEM_KEY. -/
def execKeyMemKey (s : State) : Host.Outcome State Fault Refusal :=
  ok (s.command { code := 0xC01, mask := [0x1FFF, 1], dir := .may } noBad (fun c => c.desc == c.bit 2 0)
    (fun c _ => [.memKey (c.w 1)]) fun c s => s.readDesc c fun d s =>
      if !c.bit 2 0 then (s.loadSlot (c.w 1) none).yes
      else
        match s.unwrap 0 d with
        | some k => (s.loadSlot (c.w 1) (some k)).yes
        | none => s.deny)

/-- Sectors of an L3 block that are dirty there or in a quad. -/
def State.dirtyIn (s : State) (fr : Frame) : Nat :=
  ((fr.list .l3).filter fun p => (p.2.dv && p.2.dirty) ||
    (p.2.holders.any fun q => let x := (s.quad q).l2.secD .l2 p.1; x.st == .m || x.st == .o)).length

/-- Every sector of a range is written back and removed from every cache: how many were written (R194, R371). -/
def State.flushRange (s : State) (lo hi : Nat) : Nat × State :=
  s.homes.foldl (fun (r : Nat × State) e =>
    e.2.l3.frames.foldl (fun (r : Nat × State) f => match f.2 with
      | some fr => if lo ≤ fr.block * 256 ∧ fr.block * 256 < hi then (r.1 + r.2.dirtyIn fr, r.2.l3Evict e.1 f.1) else r
      | none => r) r) (0, s)

/-- KEY_MAP. -/
def execKeyMap (s : State) : Host.Outcome State Fault Refusal :=
  ok (s.command { code := 0xC02, mask := [1, 0xFFFFFFFF, 0x3FFF, 0xFFFFFFFF, 0x80001FFF], defer := true }
    (fun c s =>
      let size := if c.bit 1 0 then 0x10000 else 0x200000
      let lo := if c.bit 1 0 then mramBase else 0
      let hi := if c.bit 1 0 then mramEnd else s.part.dramEnd
      badWhen [(2, decide (c.w2 2 % size ≠ 0 ∨ c.w2 2 < lo ∨ hi ≤ c.w2 2)), (4, decide (hi < c.w2 2 + c.w 4 * size))])
    anyLen (fun c _ => [.memKey (c.w 5 % 8192)]) fun c s =>
      let slot := c.w 5 % 8192
      let size := if c.bit 1 0 then 0x10000 else 0x200000
      let pa := c.w2 2
      if c.bit 5 31 && slot != 0 && !s.slotLoaded slot then s.deny
      else
        match s.flushRange pa (pa + c.w 4 * size) with
        | (n, s) =>
          let first := if c.bit 1 0 then (pa - mramBase) / size else pa / size
          let r : Reg := if c.bit 1 0 then .MKEY_MAP else .DKEY_MAP
          ((List.range (c.w 4)).foldl (fun s i => s.setReg r [first + i] (BitVec.ofNat 64 (c.w 5))) s).yes [n])

/-- A slice key of a kind from its bytes; none when they are no key. -/
def sliceKeyOf (kind : Nat) (b : Bytes) : Option SliceKey :=
  if kind = 1 ∨ kind = 2 then some (.aes b)
  else if kind = 3 then (if beNat b = 0 ∨ p384n ≤ beNat b then none else some (.ecdsa (beNat b)))
  else some (.mldsa (mldsaKeygen b))

def State.setKey (s : State) (n h : Nat) (k : Option SliceKey) : State :=
  { s with slices := { s.slices with keys := s.slices.keys.set none (n * 16 + h) k } }

/-- KEY_SLICE_KEY: a generated key is free. -/
def execKeySliceKey (s : State) : Host.Outcome State Fault Refusal :=
  ok (s.command { code := 0xC03, mask := [0x1FFF, 0x10F0F], dir := .may }
    (fun c _ => badWhen [(2, decide (c.f 2 11 8 = 0 ∨ 4 < c.f 2 11 8))]) (fun c => c.desc != c.bit 2 16)
    (fun c _ => [.sliceKey (c.w 1 * 16 + c.w 2 % 16)]) fun c s => s.readDesc c fun d s =>
      let kind := c.f 2 11 8
      let put (s : State) (k : Option SliceKey) : CmdAns := match k with
        | some k => (s.setKey (c.w 1) (c.w 2 % 16) (some k)).yes
        | none => s.deny
      if c.bit 2 16 then
        match s.freshBytes (wrapLen kind) with
        | (b, s) => if kind = 3 then put s (some (.ecdsa (beNat b % (p384n - 1) + 1))) else put s (sliceKeyOf kind b)
      else put s ((s.unwrap kind d).bind (sliceKeyOf kind)))

/-- KEY_ERASE. -/
def execKeyErase (s : State) : Host.Outcome State Fault Refusal :=
  ok (s.command { code := 0xC04, mask := [1, 0xF1FFF] } (fun c _ => badWhen [(2, !c.bit 1 0 && decide (8192 ≤ c.w 2))]) anyLen
    (fun c _ => if c.bit 1 0 then [.sliceKey (c.w 2 % 8192 * 16 + c.f 2 19 16)] else [.memKey (c.w 2)]) fun c s =>
      if c.bit 1 0 then (s.setKey (c.w 2 % 8192) (c.f 2 19 16) none).yes
      else
        (s.eraseSlot (c.w 2)).yes)

/-- KEY_PUBLIC. -/
def execKeyPublic (s : State) : Host.Outcome State Fault Refusal :=
  ok (s.command { code := 0xC05, mask := [0x1FFF, 0xF], t := true, dir := .out, free := true } noBad anyLen noObj fun c s =>
    let n := c.w 1
    if c.tenant && !(flag (s.reg .SLICE_BIND [n]) .SLICE_BIND_VALID && s.fld .SLICE_BIND [n] .SLICE_BIND_PID / 2 ^ 16 == c.vmid) then
      s.deny 0x101
    else
      let give (b : Bytes) : CmdAns := if c.len ≠ b.length then s.badArg 0x10 else s.writeDesc c b fun s => s.yes [b.length]
      match s.slices.keys.get none (n * 16 + c.w 2) with
      | some (.ecdsa d) => give (ecdsaPublic d)
      | some (.mldsa sk) => give (mldsaPublic sk)
      | _ => s.badArg 2)

/-! ### FIRMWARE (R368, R507, R508) -/

def State.banks (s : State) (host : Bool) : Banks := if host then s.fe.hostBanks else s.fe.fw
def State.setBanks (s : State) (host : Bool) (b : Banks) : State :=
  if host then { s with fe := { s.fe with hostBanks := b } } else { s with fe := { s.fe with fw := b } }
def State.floor (s : State) (host : Bool) : Nat := if host then s.fe.otp.hostFloor else s.fe.otp.fwFloor
def State.deployed (s : State) : Bool := s.fe.otp.lifecycle == 2

def badTarget (c : Call) (_ : State) : Option Nat := badWhen [(1, decide (1 < c.w 1))]
def onTarget (c : Call) (_ : State) : List Obj := [.firmware (c.w 1)]

/-- FIRMWARE_STAGE: the inactive bank is invalid from the start of the write until its image has verified. -/
def execFirmwareStage (s : State) : Host.Outcome State Fault Refusal :=
  ok (s.command { code := 0x901, mask := [3], dir := .inward, defer := true } badTarget anyLen onTarget fun c s => s.readDesc c fun d s =>
    let host := c.w 1 == 1
    let b := s.banks host
    let isB := !b.useB
    let s := s.setBanks host { b.setBank isB { valid := false, shipped := false } with staged := false }
    let typ := if host then 2 else 1
    match s.verifyImage typ (if host then s.cusKeyHash else fwKeyHash) d with
    | none => s.healthEval.deny 0x900
    | some (h, _) =>
      if s.deployed && decide (h.floor < s.floor host) then s.healthEval.deny 0x900
      else
        let img := d.take (256 + h.length + sigLen)
        let k : Bank := { valid := true, shipped := false, version := h.version, floor := h.floor,
                          hash := BitVec.ofNat 384 (beNat (sha384 img)) }
        let s := if host then s.fetasWrite (hostBankPa isB) img else s
        ((s.setBanks host { b.setBank isB k with staged := true }).healthEval).yes [b2n isB])

/-- FIRMWARE_ACTIVATE: it waits for its tick. -/
def execFirmwareActivate (s : State) : Host.Outcome State Fault Refusal :=
  ok (s.command { code := 0x902, mask := [3, 0xFFFFFFFF, 0xFFFF], defer := true } badTarget anyLen onTarget fun c s =>
    let host := c.w 1 == 1
    if !(s.banks host).staged then s.deny
    else
      let w := some (c.w2 2, c.id)
      .op [.firmware (c.w 1)] [] (if host then { s with fe := { s.fe with hostAct := w } } else { s with fe := { s.fe with fwAct := w } }))

/-- FIRMWARE_STATUS. -/
def execFirmwareStatus (s : State) : Host.Outcome State Fault Refusal :=
  ok (s.command { code := 0x903, free := true } noBad anyLen noObj fun _ s =>
    let f := s.fe.fw
    let h := s.fe.hostBanks
    let b := toBe (f.hashOf false f.useB).toNat 48
    s.yes ([f.versionOf false false, f.versionOf false true, h.versionOf true false, h.versionOf true true,
      b2n f.useB + b2n h.useB * 2] ++ (List.range 8).map fun i => le32 b (4 * i)))

/-- The size of the fitted flash. -/
def State.flashSize (s : State) : Nat :=
  let n := s.fld .QSPI_CFG [] .QSPI_CFG_SIZE
  if n = 0 then 0 else 2 ^ n

/-- FIRMWARE_FLASH: an erase makes bytes ones, and a program clears bits of them (log entry 34). -/
def execFirmwareFlash (s : State) : Host.Outcome State Fault Refusal :=
  ok (s.command { code := 0x904, mask := [1, 0xFFFFFFFF, 0xFFFFFFFF], dir := .may, defer := true }
    (fun c _ => badWhen [(2, decide (c.w 2 % 4096 ≠ 0)), (3, if c.bit 1 0 then c.w 3 != 0 else decide (c.w 3 = 0 ∨ c.w 3 % 4096 ≠ 0))])
    (fun c => c.desc == c.bit 1 0) (fun _ _ => [.flash]) fun c s => s.readDesc c fun d s =>
      let at' := c.w 2
      let len := if c.bit 1 0 then d.length else c.w 3
      if s.flashSize = 0 then s.ans stNoResource
      else if s.flashSize ≤ at' then s.badArg 2
      else if s.flashSize < at' + len then s.badArg (if c.bit 1 0 then 0x10 else 3)
      else
        let f := s.low.flash
        let f := if c.bit 1 0 then
            d.zipIdx.foldl (fun (f : SMap Byte) x => f.set 0xFF (at' + x.2) (f.get 0xFF (at' + x.2) &&& x.1)) f
          else f.filter fun e => !(decide (at' ≤ e.1) && decide (e.1 < at' + len))
        ({ s with low := { s.low with flash := f } }).yes)

/-- FIRMWARE_ROLLBACK: the other bank becomes active by the path of ACTIVATE, at once. -/
def execFirmwareRollback (s : State) : Host.Outcome State Fault Refusal :=
  ok (s.command { code := 0x905, mask := [3], defer := true } badTarget anyLen onTarget fun c s =>
    let host := c.w 1 == 1
    let b := s.banks host
    if !b.other.valid || (s.deployed && decide (b.floorOf host (!b.useB) < s.floor host)) then s.deny
    else
      let w := some (0, c.id)
      .op [.firmware (c.w 1)] [] (if host then { s with fe := { s.fe with hostAct := w } } else { s with fe := { s.fe with fwAct := w } }))

end Sys2Proof.Machine
end

