-- ==== Sys2Proof/Machine/FsiSlice.lean ====
section
/-! DEFINITION. The SLICE and TENANT groups, and grant changes with their drains (R282, R288, R304, R305, R326, R363, R364,
R411). -/

namespace Sys2Proof.Machine

/-! ### Drains (R304, R305) -/

/-- A page goes back to its reset values, and the slice's virtual port with it; what its mailbox still had for the old owner
goes to nobody (R282). -/
def State.resetPage (s : State) (n : Nat) : State :=
  let a := sliceBase + n * 0x1000
  let away (o : FsiOp) : FsiOp := if o.req.box = 8 + n then { o with req := { o.req with box := noBox } } else o
  let f : Fsi := s.fsi
  let fsi := { f with ready := f.ready.filter fun r => r.1 != 8 + n, accepted := f.accepted.filter fun r => r.box != 8 + n,
                      queues := f.queues.set [] (8 + n) [], lost := f.lost.set 0 (8 + n) 0, ops := f.ops.map away,
                      firm := f.firm.filter fun b => b != 8 + n, rings := f.rings.filter fun b => b != 8 + n }
  { s with regs := s.regs.filter (fun e => !(decide (a ≤ e.1) && decide (e.1 < a + 0x1000))),
           sw := { s.sw with vports := s.sw.vports.set {} n {} }, fsi := fsi }

/-- The registers of a queue read zero. -/
def State.clearQueue (s : State) (n q : Nat) : State :=
  let a := sliceBase + n * 0x1000 + 0x800 + q * 0x20
  { s with regs := s.regs.filter fun e => !(decide (a ≤ e.1) && decide (e.1 < a + 0x20)) }

/-- A request's drains are over: it has its final status. -/
def State.drainsDone (s : State) (id : Nat) : State :=
  if s.slices.drains.any fun d => d.req == some id then s
  else
    match s.fsi.ops.find? fun o => o.req.id == id with
    | none => s
    | some o =>
      let res := if o.req.words.headD 0 % 2 ^ 16 = 0x403 then [s.poolFree] else o.res
      s.opEnd id (if o.late then { status := stTimeout } else { res := res })

/-- A drain ends: what it removes goes back. -/
def State.endDrain (s : State) (d : Drain) : State :=
  let s := { s with slices := { s.slices with drains := s.slices.drains.erase d } }
  let s := s.setFld .SLICE_GEN [d.slice] .SLICE_GEN_PENDING 0
  let s := d.queues.foldl (fun s q => s.clearQueue d.slice q) s
  let s := d.vecs.foldl (fun s v => s.srcUnpend v) s
  let s := if d.unbind then s.resetPage d.slice else s
  match d.req with
  | some i => s.drainsDone i
  | none => s

/-- The commit point of a decrease, after the registers of the new grant are written: the queues listed stop, waiting
posts of the queues affected are cancelled, and the drain begins. It ends at once when nothing is left to wait for. -/
def State.startDrain (s : State) (n : Nat) (stop : List Nat) (affects : Job → Bool) (vecs : List Nat) (req : Option Nat)
    (unbind : Bool) : State :=
  let ids := (s.slices.jobs.filter fun j => j.slice == n && affects j).map fun j => j.id
  let qs := (s.slices.jobs.filter fun j => j.slice == n && affects j).foldl (fun a j => insertRising j.q a) []
  let s := (s.bumpGen n).setFld .SLICE_GEN [n] .SLICE_GEN_PENDING 1
  let s := stop.foldl (fun s q => s.queueStop n q) s
  let s := qs.foldl (fun s q => (s.cancelPosts n fun x => x == q).pump n q pumpFuel) s
  let d : Drain := { slice := n, jobs := ids, queues := stop, vecs := vecs, req := req, start := s.time, unbind := unbind }
  let s := { s with slices := { s.slices with drains := s.slices.drains ++ [d] } }
  if s.slices.jobs.any fun j => ids.contains j.id then s else s.endDrain d

/-- GRANT_DRAIN_COMPLETE: the last descriptor that a drain of a slice waits for has completed. -/
def execGrantDrainComplete (n : Fin 8192) (s : State) : Host.Outcome State Fault Refusal :=
  match s.slices.drains.find? fun d => d.slice == n.val && !(s.slices.jobs.any fun j => d.jobs.contains j.id) with
  | some d => ok (s.endDrain d)
  | none => ok s

/-- GRANT_DRAIN_TIMEOUT: 10 ms after its commit point a drain abandons the descriptors that remain. -/
def execGrantDrainTimeout (n : Fin 8192) (s : State) : Host.Outcome State Fault Refusal :=
  match s.slices.drains.find? fun d => d.slice == n.val && decide (d.start + 10000000 ≤ s.time) with
  | none => ok s
  | some d =>
    let left := s.slices.jobs.filter fun j => d.jobs.contains j.id
    let qs := left.foldl (fun a j => insertRising j.q a) []
    let s := s.setJobs (s.slices.jobs.filter fun j => !d.jobs.contains j.id)
    let s := qs.foldl (fun s q => (s.drainEnd n.val q).queueErr n.val q 9) s
    let s := if left.isEmpty then s else s.seErr n.val 4
    let late := !left.isEmpty
    let ops := s.fsi.ops.map fun o => if d.req == some o.req.id && late then { o with late := true } else o
    ok ({ s with fsi := { s.fsi with ops := ops } }.endDrain d)

/-- A command whose drain has begun: done when it has already ended, and in progress otherwise. act: starts the drain. -/
def drainCmd (c : Call) (objs : List Obj) (n : Nat) (doneRes : State → List Nat) (act : Option Nat → State) : CmdAns :=
  let t := act none
  if t.slices.drains.any fun d => d.slice == n then .op objs [] (act (some c.id)) else .done { res := doneRes t } t

/-! ### SLICE (R363) -/

/-- The slice that a command names in [12:0] of word 1. -/
def Call.slice (c : Call) : Nat := c.w 1 % 8192

def onSlice (c : Call) (_ : State) : List Obj := [.slice c.slice]

def State.bound (s : State) (n : Nat) : Bool := flag (s.reg .SLICE_BIND [n]) .SLICE_BIND_VALID
def State.boundVmid (s : State) (n : Nat) : Nat := s.fld .SLICE_BIND [n] .SLICE_BIND_PID / 2 ^ 16

/-- SLICE_BIND. -/
def execSliceBind (s : State) : Host.Outcome State Fault Refusal :=
  ok (s.command { code := 0x401, mask := [0x1FFF, 0x7FFFFFFF, 0x80003FFF] } noBad anyLen
    (fun c s => .vmid (c.f 2 28 16) :: onSlice c s) fun c s =>
    let n := c.slice
    if n = 0 ∨ s.bound n ∨ (s.fe.tenants.get none (c.f 2 28 16)).isNone then s.deny
    else ((s.setReg .SLICE_BIND [n] (BitVec.ofNat 64 (c.w 2 + 2 ^ 31))).setReg .SLICE_FAR [n] (BitVec.ofNat 64 (c.w 3))).yes)

/-- The sources of the vectors of a slice. -/
def State.vecSources (s : State) (n : Nat) : List Nat :=
  let g := s.reg .SLICE_GRANT_V [n]
  range' (1024 + bits g .SLICE_GRANT_V_BASE) (bits g .SLICE_GRANT_V_COUNT)

/-- The whole grant of a slice is removed (R282); its page resets when the drain ends. -/
def State.unbind (s : State) (n : Nat) (req : Option Nat) : State :=
  let qs := List.range (s.fld .SLICE_GRANT_Q [n] .SLICE_GRANT_Q_COUNT)
  let vecs := s.vecSources n
  let t := ((s.setReg .SLICE_GRANT_Q [n] 0).setReg .SLICE_GRANT_V [n] 0).setReg .SLICE_GRANT_BW [n] 0
  let t := (List.range 8).foldl (fun s w => (s.setReg .WIN_A [n, w] 0).setReg .WIN_B [n, w] 0) t
  t.startDrain n qs (fun _ => true) vecs req true

/-- SLICE_UNBIND. -/
def execSliceUnbind (s : State) : Host.Outcome State Fault Refusal :=
  ok (s.command { code := 0x402, mask := [0x1FFF], defer := true } noBad anyLen onSlice fun c s =>
    let n := c.slice
    if n = 0 then s.deny
    else if !s.bound n then s.badArg 1
    else drainCmd c [.slice n] n (fun _ => []) fun r => s.unbind n r)

/-- A slice is bound to a resumable tenant (R410). -/
def State.resumableSlice (s : State) (n : Nat) : Bool :=
  s.bound n && match s.fe.tenants.get none (s.boundVmid n) with
    | some t => t.persistent && t.resume
    | none => false

/-- A sum over the grants, of a kind, of the slices of resumable tenants but one. -/
def State.resumableSum (s : State) (r : Reg) (f : Fld) (but : Nat) : Nat :=
  s.regs.foldl (fun a e => match r.match? e.1 with
    | some ([n], _) => if n != but && s.resumableSlice n then a + bits e.2 f else a
    | _ => a) 0

/-- SLICE_GRANT_Q. -/
def execSliceGrantQ (s : State) : Host.Outcome State Fault Refusal :=
  ok (s.command { code := 0x403, mask := [0x1FFF, 0x7F], defer := true } (fun c _ => badWhen [(2, decide (64 < c.w 2))]) anyLen onSlice
    fun c s =>
      let n := c.slice
      let old := s.fld .SLICE_GRANT_Q [n] .SLICE_GRANT_Q_COUNT
      let new := c.w 2
      let t := s.setReg .SLICE_GRANT_Q [n] (BitVec.ofNat 64 new)
      if s.poolFree + old < new then s.ans stNoResource
      else if s.resumableSlice n ∧ 8192 < s.resumableSum .SLICE_GRANT_Q .SLICE_GRANT_Q_COUNT n + new then s.ans stNoResource
      else if old ≤ new then
        let t := (range' old (new - old)).foldl (fun s q => s.clearQueue n q) t
        (t.bumpGen n).yes [t.poolFree]
      else
        drainCmd c [.slice n] n (fun t => [t.poolFree]) fun r =>
          t.startDrain n (range' new (old - new)) (fun j => decide (new ≤ j.q)) [] r false)

/-- A range of message vectors meets one granted to another slice or to PCI Express, or not yet drained. -/
def State.vecClash (s : State) (but base count : Nat) (pcie : Bool) : Bool :=
  let meets (b n : Nat) : Bool := decide (0 < n) && decide (0 < count) && decide (b < base + count) && decide (base < b + n)
  (s.regs.any fun e => match Reg.SLICE_GRANT_V.match? e.1 with
    | some ([n], _) => n != but && meets (bits e.2 .SLICE_GRANT_V_BASE) (bits e.2 .SLICE_GRANT_V_COUNT)
    | _ => false) || (pcie && meets s.pcie.msi.1 s.pcie.msi.2) ||
    s.slices.drains.any fun d => d.vecs.any fun v => decide (1024 + base ≤ v ∧ v < 1024 + base + count)

/-- SLICE_GRANT_V. -/
def execSliceGrantV (s : State) : Host.Outcome State Fault Refusal :=
  ok (s.command { code := 0x404, mask := [0x1FFF, 0x7F3FFF], defer := true }
    (fun c s => badWhen [(2, decide (64 < c.f 2 22 16 ∨ 16384 < c.f 2 13 0 + c.f 2 22 16) ||
      s.vecClash c.slice (c.f 2 13 0) (c.f 2 22 16) true)]) anyLen onSlice fun c s =>
      let n := c.slice
      let old := s.vecSources n
      let t := s.setReg .SLICE_GRANT_V [n] (BitVec.ofNat 64 (c.w 2))
      let gone := old.filter fun v => !(t.vecSources n).contains v
      if s.resumableSlice n ∧ 8192 < s.resumableSum .SLICE_GRANT_V .SLICE_GRANT_V_COUNT n + c.f 2 22 16 then s.ans stNoResource
      else if gone.isEmpty then (t.bumpGen n).yes
      else
        drainCmd c [.slice n] n (fun _ => []) fun r =>
          t.startDrain n [] (fun j => j.vec.any fun v => gone.contains v) gone r false)

/-- SLICE_GRANT_BW. -/
def execSliceGrantBw (s : State) : Host.Outcome State Fault Refusal :=
  ok (s.command { code := 0x405, mask := [0x1FFF, 0xFFFFFF] } noBad anyLen onSlice fun c s =>
    ((s.setReg .SLICE_GRANT_BW [c.slice] (BitVec.ofNat 64 (c.w 2))).bumpGen c.slice).yes)

/-- A physical range lies in the fitted DRAM, or in MRAM. -/
def State.inFitted (s : State) (pa len : Nat) : Bool :=
  decide (pa + len ≤ s.part.dramEnd) || (decide (mramBase ≤ pa) && decide (pa + len ≤ mramEnd))

/-- A range in DRAM for a persistent-only tenant (R288). -/
def State.ponlyBars (s : State) (vmid pa : Nat) : Bool :=
  inDram pa && match s.fe.tenants.get none vmid with
    | some t => t.persistent
    | none => false

/-- Every ring of an enabled queue lies within the windows. -/
def State.ringsIn (s : State) (n : Nat) : Bool :=
  let ws := s.windows n
  (List.range 64).all fun q =>
    let cfg := s.reg .Q_CFG [n, q]
    let size := 2 ^ bits cfg .Q_CFG_SIZE
    !flag cfg .Q_CFG_EN || ((winFind ws (s.reg .Q_SQ_BASE [n, q]).toNat (64 * size) true false).isSome &&
      (winFind ws (s.reg .Q_CQ_BASE [n, q]).toNat (16 * size) false true).isSome)

/-- One window covers all that another does. -/
def Win.covers (a b : Win) : Bool :=
  decide (a.iova ≤ b.iova) && decide (b.iova + b.size ≤ a.iova + a.size) && decide (a.pa + (b.iova - a.iova) = b.pa) &&
    (a.r || !b.r) && (a.w || !b.w)

/-- SLICE_WINDOW. -/
def execSliceWindow (s : State) : Host.Outcome State Fault Refusal :=
  ok (s.command { code := 0x406, mask := [0x71FFF, 0xFFFFF000, 0xFFFF, 0xFFFFF000, 0x3FFF, 0x3FFFF, 7], defer := true } noBad anyLen
    onSlice fun c s =>
      let n := c.slice
      let w := c.f 1 18 16
      let v := c.bit 7 0
      let new : Win := { iova := c.w2 2, size := (c.w 6 + 1) * 4096, pa := c.w2 4, r := c.bit 7 1, w := c.bit 7 2 }
      let s0 := (s.setReg .WIN_A [n, w] 0).setReg .WIN_B [n, w] 0
      let others := s0.windows n
      let t :=
        if v then (s0.setReg .WIN_A [n, w] (BitVec.ofNat 64 (new.iova + c.w 7))).setReg .WIN_B [n, w]
          (BitVec.ofNat 64 (new.pa + c.w 6 * 2 ^ 46))
        else s0
      let old := (s.windows n).filter fun x => !others.contains x
      let clash := others.any fun x => decide (x.iova < new.iova + new.size ∧ new.iova < x.iova + x.size)
      if v && (clash || !s.inFitted new.pa new.size || s.ponlyBars (s.boundVmid n) new.pa) then s.deny
      else if !t.ringsIn n then s.deny
      else if old.all fun x => v && new.covers x then (t.bumpGen n).yes
      else drainCmd c [.slice n] n (fun _ => []) fun r => t.startDrain n [] (fun _ => true) [] r false)

/-- SLICE_VPORT: with no descriptor, no member VLAN. -/
def execSliceVport (s : State) : Host.Outcome State Fault Refusal :=
  ok (s.command { code := 0x407, mask := [0x1FFF, 0xFFF], dir := .may }
    (fun c _ => badWhen [(2, decide (c.w 2 = 0 ∨ c.w 2 = 4095))])
    (fun c => decide (c.len ≤ 32 ∧ c.len % 2 = 0)) onSlice fun c s => s.readDesc c fun d s =>
      let vids := (List.range (d.length / 2)).map fun i => le16 d (2 * i)
      if vids.any fun v => decide (v = 0 ∨ 4095 ≤ v) then s.badArg 0x10
      else
        let v : VPort := { pvid := c.w 2, members := vids }
        ({ s with sw := { s.sw with vports := s.sw.vports.set {} c.slice v } }).yes)

/-- SLICE_GET: a tenant's own slice, whatever word 1 holds. -/
def execSliceGet (s : State) : Host.Outcome State Fault Refusal :=
  ok (s.command { code := 0x408, mask := [0xFFFFFFFF], t := true, free := true }
    (fun c _ => badWhen [(1, !c.tenant && decide (8192 ≤ c.w 1))]) anyLen noObj fun c s =>
      let n := if c.tenant then c.box - 8 else c.slice
      s.yes ([Reg.SLICE_BIND, .SLICE_GRANT_Q, .SLICE_GRANT_V, .SLICE_GRANT_BW, .SLICE_GEN, .SLICE_FAR].map fun r => (s.reg r [n]).toNat))

/-- SLICE_PCIE_WINDOW. -/
def execSlicePcieWindow (s : State) : Host.Outcome State Fault Refusal :=
  ok (s.command { code := 0x409, mask := [0x1F, 0x1FFFFFFF, 0xFFFFFFFF, 0xFFFFFFFF, 0xFFFFF000, 0x3FFF, 0x3FFFF, 7] } noBad anyLen
    noObj fun c s =>
      let w := c.w 1
      let others := s.pcie.inWins.filterMap fun e => if e.1 = w then none else e.2
      let size := (c.w 7 + 1) * 4096
      let new : PcieIn := { pid := BitVec.ofNat 29 (c.w 2), base := c.w2 3, size := size, pa := c.w2 5, r := c.bit 8 1, w := c.bit 8 2 }
      let clash := others.any fun x => decide (x.base < new.base + size ∧ new.base < x.base + x.size)
      let put (x : Option PcieIn) : State := { s with pcie := { s.pcie with inWins := s.pcie.inWins.set none w x } }
      if !c.bit 8 0 then (put none).yes
      else if clash || !s.inFitted new.pa size || s.ponlyBars (c.f 2 28 16) new.pa then s.deny
      else (put (some new)).yes)

/-- SLICE_PCIE_VECTORS. -/
def execSlicePcieVectors (s : State) : Host.Outcome State Fault Refusal :=
  ok (s.command { code := 0x40A, mask := [0x7FFF3FFF] }
    (fun c s => badWhen [(1, decide (16384 < c.f 1 13 0 + c.f 1 30 16) || s.vecClash 8192 (c.f 1 13 0) (c.f 1 30 16) false)]) anyLen
    noObj fun c s => ({ s with pcie := { s.pcie with msi := (c.f 1 13 0, c.f 1 30 16) } }).yes)

/-! ### TENANT (R364) -/

/-- TENANT_CREATE: the slice pages are powered from the first tenant on (R37; log entry 107). -/
def execTenantCreate (s : State) : Host.Outcome State Fault Refusal :=
  ok (s.command { code := 0x501, mask := [0x31FFF] } (fun c _ => badWhen [(1, c.bit 1 17 && !c.bit 1 16)]) anyLen
    (fun c _ => [.vmid (c.w 1 % 8192)]) fun c s =>
      let v := c.w 1 % 8192
      if v = 0 ∨ (s.fe.tenants.get none v).isSome then s.deny
      else
        let t : Tenant := { persistent := c.bit 1 16, resume := c.bit 1 17 }
        ({ s with fe := { s.fe with tenants := s.fe.tenants.set none v (some t) } }.domainOn 103).yes)

/-- The slices bound to a VMID, whatever their far end. -/
def State.allSlicesOf (s : State) (vmid : Nat) : List Nat :=
  s.regs.filterMap fun e => match Reg.SLICE_BIND.match? e.1 with
    | some ([n], _) => if flag e.2 .SLICE_BIND_VALID && decide (bits e.2 .SLICE_BIND_PID / 2 ^ 16 = vmid ∧ n ≠ 0) then some n else none
    | _ => none

/-- The cleats that a VMID owns (R228). -/
def State.cleatsOf (s : State) (vmid : Nat) : List Nat :=
  s.regs.filterMap fun e => match Reg.CLEAT_STATE.match? e.1 with
    | some ([n], _) => if bits e.2 .CLEAT_STATE_STATE ≠ 0 ∧ e.2.toNat / 2 ^ 16 % 2 ^ 14 = vmid then some n else none
    | _ => none

/-- TENANT_REMOVE. -/
def execTenantRemove (s : State) : Host.Outcome State Fault Refusal :=
  ok (s.command { code := 0x502, mask := [0x1FFF], defer := true }
    (fun c s => badWhen [(1, (s.fe.tenants.get none (c.w 1)).isNone)]) anyLen
    (fun c s => .vmid (c.w 1) :: (s.allSlicesOf (c.w 1)).map fun n => .slice n) fun c s =>
      let v := c.w 1
      let ns := s.allSlicesOf v
      let cleats := s.cleatsOf v
      let res := [cleats.length, ns.length]
      let s := cleats.foldl (fun s n => s.setReg .CLEAT_STATE [n] 0) s
      let keys := s.slices.keys.filter fun e => !ns.contains (e.1 / 16)
      let s := { s with slices := { s.slices with keys := keys }, fe := { s.fe with tenants := s.fe.tenants.set none v none } }.eraseSlot v
      let t := ns.foldl (fun s n => s.unbind n none) s
      if t.slices.drains.any fun d => ns.contains d.slice then
        .op (.vmid v :: ns.map fun n => .slice n) res (ns.foldl (fun s n => s.unbind n (some c.id)) s)
      else t.yes res)

/-- TENANT_MIGRATE: the delay that the tenant sees is free within 60 µs. -/
def execTenantMigrate (s : State) : Host.Outcome State Fault Refusal :=
  ok (s.command { code := 0x503, mask := [0x3F, 0x7F] } (fun c _ => badWhen [(2, decide (64 ≤ c.w 2 ∧ c.w 2 ≠ 0x7F))]) anyLen
    (fun c _ => [.lcore (c.w 1)]) fun c s =>
      let l := c.w 1
      match s.placeOf l with
      | none => s.deny 0x501
      | some p =>
        let free (x : Nat) : Bool := !s.fe.quarantined.contains x && (s.carried x).isNone && (s.leadOf x).isNone
        let dst := if c.w 2 = 0x7F then s.pickBackstay (p / 4) else some (c.w 2)
        match dst with
        | none => s.ans stNoResource
        | some x =>
          if (s.core (Fin.ofNat 64 p)).run == .halted then s.ans stBusy [] 1
          else if !free x then s.deny 0x500
          else
            match s.moveCore l p x with
            | none => .wait
            | some (ns, s) => ((s.coreDown p).healthEval).yes [x, ns])

/-- TENANT_CORE_RESET. -/
def execTenantCoreReset (s : State) : Host.Outcome State Fault Refusal :=
  ok (s.command { code := 0x504, mask := [0x3F] } noBad anyLen (fun c _ => [.lcore (c.w 1)]) fun c s =>
    match s.placeOf (c.w 1) with
    | none => s.deny
    | some p =>
      if (s.fe.partner.get none p).isSome then s.deny
      else
        match s.warmReset (c.w 1) p 3 with
        | none => .wait
        | some s => s.yes)

/-- TENANT_CORE_RESUME: the core goes on from the state it held. -/
def execTenantCoreResume (s : State) : Host.Outcome State Fault Refusal :=
  ok (s.command { code := 0x505, mask := [0x3F] } noBad anyLen (fun c _ => [.lcore (c.w 1)]) fun c s =>
    match s.placeOf (c.w 1) with
    | none => s.deny
    | some p =>
      let x := Fin.ofNat 64 p
      if (s.core x).run == .stopped .doubleFault then (s.updCore x fun k => { k with run := .running }).yes else s.deny)

/-- TENANT_RESUMED_LIST. -/
def execTenantResumedList (s : State) : Host.Outcome State Fault Refusal :=
  ok (s.command { code := 0x506, dir := .out, free := true } noBad anyLen noObj fun c s =>
    let entries := s.fe.tenants.filterMap fun e => match e.2 with
      | some t => t.status.map fun st =>
          toLe (e.1 + st * 2 ^ 16) 8 ++ toLe (if t.resumed then t.gap.toNat else 0) 8
      | none => none
    let l := entries.take (c.len / 16)
    s.writeDesc c l.flatten fun s => s.yes [l.length])

/-- TENANT_SELF. -/
def execTenantSelf (s : State) : Host.Outcome State Fault Refusal :=
  ok (s.command { code := 0x507, h := false, t := true, free := true } noBad anyLen noObj fun c s =>
    let t := (s.fe.tenants.get none c.vmid).getD { persistent := false, resume := false }
    s.yes ([c.vmid, b2n t.persistent + b2n t.resumed * 2] ++ lohi t.gap.toNat))

end Sys2Proof.Machine
end

