-- ==== Sys2Proof/Machine/Boot.lean ====
section
/-! DEFINITION. The cold boot, the resume after a douse, and the start of the host image (R412 to R416, R493 to R496, R503,
R506, R508). -/

namespace Sys2Proof.Machine

/-! ### Sources (R493, R494) -/

/-- The source that a cold boot uses: those not defined and those locked out while Deployed are MRAM. -/
def State.bootSource (s : State) : Nat :=
  let sel := if s.crow.sel ≤ 3 then s.crow.sel else 0
  if s.deployed && s.fe.otp.srcLock.testBit sel then 0 else sel

/-- Memory as the boot reads it; a range with a poisoned sector yields nothing. -/
def State.peek (s : State) (pa len : Nat) : Bytes :=
  match (s.homesReady.ioRead pa len 18).1 with
  | .ok d p => if p.any id then [] else d
  | _ => []

def State.flashPeek (s : State) (off len : Nat) : Bytes := (List.range len).map fun i => s.low.flash.get 0xFF (off + i)

/-- A signed image in a place of a given room: its header says how long it is. -/
def signedAt (rd : Nat → Bytes) (room : Nat) : Bytes :=
  let n := 256 + le32 (rd 256) 0x14 + sigLen
  if room < n then [] else rd n

/-- A host image in a source: its bytes, its source and its bank; the MRAM banks are the last of every source. -/
def State.hostCandidates (s : State) (src : Nat) (staged : Bytes) : List (Bytes × Nat × Nat) :=
  let bank (b : Bool) : Bytes × Nat × Nat := (signedAt (s.peek (hostBankPa b)) hostBankLen, 0, b2n b)
  let mram := [bank s.fe.hostBanks.useB, bank !s.fe.hostBanks.useB]
  (if src = 1 then
    [(signedAt (s.flashPeek 0) hostBankLen, 1, 0xFF), (signedAt (s.flashPeek hostBankLen) hostBankLen, 1, 0xFF)]
  else if src = 2 then [(staged, 2, 0xFF)]
  else if src = 3 then [(Config.netFile 0 s.tick, 3, 0xFF)]
  else []) ++ mram

/-- The first image of a list that is valid, and whether one before it was not. -/
def State.firstHost (s : State) : List (Bytes × Nat × Nat) → Bool → Option (HostImage × ImgHead × Bytes × Bool)
  | [], _ => none
  | (b, src, bank) :: l, late =>
    match s.verifyImage 2 s.cusKeyHash b with
    | some (h, pay) =>
      if s.deployed && decide (h.floor < s.fe.otp.hostFloor) then s.firstHost l true
      else
        let img : HostImage := { entry := h.entry, seg := h.seg, pt := h.pt, vec := h.vec, handoff := h.handoff, source := src,
                                 bank := bank, hash := BitVec.ofNat 384 (beNat (sha384 (b.take (256 + h.length + sigLen)))) }
        some (img, h, pay, late)
    | none => s.firstHost l true

/-! ### The end of a boot (R495 t5 to t8, R496) -/

/-- Every logical core that the trim in force places and that neither runs nor is furled, with its core. -/
def State.fresh64 (s : State) : List (Nat × Nat) :=
  let d := s.trimDef s.fe.trim
  let r := (List.range 64).foldl (fun (r : List (Nat × Nat) × List Nat) l =>
    match d.placeOf l with
    | some p =>
      if (s.placeOf l).isSome ∨ (s.fe.furled.get none l).isSome then r
      else
        let taken (x : Nat) : Bool := r.2.contains x || (s.carried x).isSome || (s.leadOf x).isSome
        let x := if !s.fe.quarantined.contains p && !taken p then some p else s.freeBackstays.find? fun x => !taken x
        match x with
        | some x => (r.1 ++ [(l, x)], x :: r.2)
        | none => r
    | none => r) ([], [])
  r.1

/-- Partners of stayed pairs join their leads (R373, R428). -/
def State.joinPairs (s : State) (ls : List (Nat × Nat)) : State :=
  let d := s.trimDef s.fe.trim
  ls.foldl (fun s e => if d.placeOf e.1 = some e.2 then
    s.setPartner e.2 ((d.partnerOf e.1).filter fun b => !s.fe.quarantined.contains b && (s.carried b).isNone) else s) s

/-- The host image is loaded and started on the logical cores given; free backstay cores are held (R425). -/
def State.runHost (s : State) (img : HostImage) (load : Nat) (pay : Bytes) (reason : Nat) (ls : List (Nat × Nat)) : State :=
  let s := s.fetasWrite load pay
  let s := { s with fe := { s.fe with host := some img } }.setFld .BOOT_STAT [] .BOOT_STAT_SOURCE img.source
  ((s.startAll reason ls).joinPairs ls).holdBackstays

/-- A cold start: the epoch counts up, and nothing saved before it is resumed (R414). -/
def State.newEpoch (s : State) : State :=
  if s.fe.bootWhy ≠ 0 then s else { s with fe := { s.fe with epoch := s.fe.epoch + 1, furled := [], held := [] } }

/-- The search for a host image ends: the first valid one starts, and the boot is done; or none is found, and the search is
retried (R494). -/
def State.hostSearch (s : State) (src : Nat) (staged : Bytes) : State :=
  match s.firstHost (s.hostCandidates src staged) false with
  | none => { s with fe := { s.fe with boot := .noHost, searchAt := s.tick } }
  | some (img, h, pay, late) =>
    let s := s.setFld .BOOT_STAT [] .BOOT_STAT_FALLBACK_HOST (b2n late)
    let b := s.fe.hostBanks
    let s := if img.source = 0 ∧ img.bank ≠ b2n b.useB then
        s.setBanks true { b.setBank b.useB { b.active with valid := false } with useB := !b.useB, since := s.tick }
      else s
    let s := s.newEpoch
    let s := s.runHost img h.load pay s.fe.bootWhy s.fresh64
    ({ s with fe := { s.fe with boot := .done } }.redigest).healthFirst

/-- The host image is looked for in a source; PCI Express waits, in endpoint role, for the remote root complex to stage its
images (R324, R493). -/
def State.hostFrom (s : State) (src : Nat) : State :=
  if src = 2 then
    let s := (s.domainOn 102).setFld .PCIE_CTL [] .PCIE_CTL_ROLE 1
    { s with fe := { s.fe with boot := .pcie, searchAt := s.tick } }
  else s.hostSearch src []

/-- The rest of a boot: Fetas answers, and the host image is looked for. -/
def State.bootRest (s : State) : State :=
  let s := s.riseFetas
  let s := if s.fe.bootWhy = 0 then s.coldRestarts fun _ => true else s
  s.hostFrom s.bootSource

/-! ### The wake from M0 (R374, R375, R394) -/

/-- What Fetas saved at entry to M0 comes back; level-sensitive sources follow their lines again, and the WAKE_STAT bits set
meanwhile raise their sources (R375, R393). -/
def State.restoreM0 (s : State) : State :=
  let regs : SMap Word := List.foldl (fun (m : SMap Word) (e : Nat × Word) => SMap.insert e.1 e.2 m) s.regs s.fe.m0
  let dist := { s.dist with doorbells := s.fe.m0dist.doorbells, noted := s.fe.m0dist.noted }
  let s := { s with regs := regs, dist := dist }
  let s := (List.range 1024).foldl (fun s n => if s.levelSrc n then s.followLine n else s) s
  s.crow.wakes.foldl (fun s n => s.pulse n) s

/-- Fetas takes the complex from M0 to M1: device time starts again at the next tick edge. Without HOST_PERSISTENT the host
image boots afresh. -/
def State.wakeUp (s : State) : State :=
  let keep := s.fe.plan.hostPersistent
  let s := { s with tick := nextTick s.tick, time := tickTime (nextTick s.tick), fe := { s.fe with trim := 1 } }.loadImage 0
  let d := s.trimDef 1
  let s := if keep then s else { s with fe := { s.fe with furled := [], held := [], place := [], partner := [] },
                                        crow := { s.crow with m0req := none }, fsi := { s.fsi with ops := [] } }
  let s := s.bringUp d
  let s := if keep then (List.range 64).foldl (fun s l => s.unfurlPlaced d l) s.restoreM0.rechoose else s
  let s := { s with fe := { s.fe with m0 := [], m0dist := {} }, crow := { s.crow with wakes := [] } }
  let s := ((s.riseFetas.setMode 1).modeEvent 1).pwrStart 1 .nothing
  let s := if s.fe.plan.dramM0 then s else s.coldRestarts fun t => !t.persistent
  let s := s.answerWake.healthEval
  if keep then s else { s with fe := { s.fe with bootWhy := 2 } }.hostFrom s.bootSource

/-- A wake source asserts in M0 (R378, R389 to R392, R394): held off while a power-fail warning stands, while RESET_N is
low and after a thermal shutdown. Before the first output deasserts it stops the entry. -/
def State.wakeSource (s : State) : State :=
  if s.mode ≠ .m0 || flag (s.reg .PF_CFG) .PF_CFG_PF || s.crow.resetLow || s.crow.cut || s.crow.waitGood || s.crow.dousing ||
      s.crow.after != .nothing then s
  else
    let s := s.pwrStart 1 .wake
    if s.crow.todo.isEmpty then { s with crow := { s.crow with after := .nothing } }.wakeUp else s

/-! ### The cold boot (R495) -/

/-- A manifest found in the boot source is applied, or refused with the state as it was (R503). -/
def State.bootManifest (s : State) (b : Bytes) : State :=
  let s := match s.applyManifest b with
    | some t => t.setFld .BOOT_STAT [] .BOOT_STAT_MANIFEST 1
    | none => s
  s.setFld .BOOT_STAT [] .BOOT_STAT_LIFECYCLE s.fe.otp.lifecycle

/-- The other bank of a target becomes active, Fetas firmware on trial (R508). -/
def State.flipBank (s : State) (host : Bool) : State :=
  let b := s.banks host
  let s := s.setBanks host { b with useB := !b.useB, staged := false, trial := !host, failed := 0, since := s.tick }
  if host then { s with fe := { s.fe with hostAct := none } } else { s with fe := { s.fe with fwAct := none } }

/-- The tick of an activation has come. -/
def State.actDue (s : State) (host : Bool) : Bool :=
  match (if host then s.fe.hostAct else s.fe.fwAct) with
  | some a => s.tickReached a.1
  | none => false

/-- An activation whose tick has passed changes the active bank (R508). -/
def State.bootActs (s : State) : State :=
  let s := if s.actDue false then s.flipBank false else s
  if s.actDue true then s.flipBank true else s

/-- The record that a boot resumes from: the last douse was sealed, in the epoch in force (R414). -/
def State.resumeFrom (s : State) : Option Douse :=
  match s.fe.douse with
  | some d => if !s.crow.cold ∧ d.epoch = s.fe.epoch ∧ s.fe.douseCut = none then some d else none
  | none => none

/-- A boot after a loss of power finds a sealed record of an earlier running period: it is refused whole (R414, R416). -/
def State.recordRefused (s : State) : Bool :=
  match s.fe.douse with
  | some d => !s.crow.cold && d.epoch != s.fe.epoch && s.fe.douseCut.isNone
  | none => false

/-- Keys after a loss of power: slots named by an enabled MRAM map entry and the keys of resumable tenants are kept; every
other slot is drawn at random, and every other slice key is erased (R506). -/
def State.bootKeys (s : State) : State :=
  let named := s.regs.filterMap fun e =>
    if (Reg.MKEY_MAP.match? e.1).isSome && flag e.2 .MKEY_MAP_EN then some (bits e.2 .MKEY_MAP_SLOT) else none
  let kept : SMap (Option Nat) := named.foldl (fun m k => SMap.set none m k (some (s.slotKeyOf k))) []
  let keys := s.slices.keys.filter fun e => s.resumableSlice (e.1 / 16)
  { s with dram := { s.dram with slotKey := kept, keyBase := s.dram.keyNext, keyNext := s.dram.keyNext + 8192 },
           slices := { s.slices with keys := keys }, fe := { s.fe with slots := s.fe.slots.filter fun k => named.contains k } }

/-- A commit whose tick has passed is in force (R415). -/
def State.bootPlan (s : State) : State :=
  match s.fe.commit with
  | none => s
  | some c =>
    if !s.tickReached c.tick then s
    else
      let left := s.fe.loaded.filter fun x => x.gen != c.plan.gen
      { s with fe := { s.fe with plan := c.plan, names := planNames c.plan, erased := [], commit := none, loaded := left } }

/-- The mode that a boot brings up. -/
def State.bootMode (s : State) : Nat :=
  match s.resumeFrom with
  | some d => d.mode
  | none => s.fe.plan.bootTrim

/-- A tenant with nothing told of a resume. -/
def Tenant.anew (t : Tenant) : Tenant := { t with status := none, resumed := false, gap := 0 }

/-- The firmware that the ROM copies: the active bank, else the other, else that of the source (R493, R507, R508); none: no
firmware is valid, and nothing runs. -/
def State.bootFirmware (s : State) (src : Nat) : Option State :=
  let b := s.fe.fw
  let room := 256 + 2 ^ 20 + sigLen
  let img := if src = 3 then Config.netFile 1 s.tick else if src = 2 then signedAt (fun n => s.peek 0x1000000 n) room
    else signedAt (fun n => s.flashPeek 0x1000000 n) room
  if b.active.valid then some s
  else if b.other.valid then
    some ((s.setBanks false { b with useB := !b.useB, trial := false, since := s.tick }).setFld .BOOT_STAT [] .BOOT_STAT_FALLBACK_FW 1)
  else if (s.verifyImage 1 fwKeyHash img).isSome then some s
  else none

/-- Fetas starts from ROM. -/
def State.coldBoot (s : State) : State :=
  let s := { s with tick := nextTick s.tick, time := tickTime (nextTick s.tick) }
  let src := s.bootSource
  let s := s.setReg .BOOT_STAT [] (putBits 0 .BOOT_STAT_SEL s.crow.sel)
  match s.bootFirmware src with
  | none => { s with fe := { s.fe with boot := .idle } }
  | some s =>
  let s := s.bootManifest (if src = 1 then signedAt (s.flashPeek 0x1200000 ·) (2 ^ 20) else if src = 3 then Config.netFile 2 s.tick else [])
  let s := s.bootActs.bootPlan
  let s := (s.setFld .BOOT_STAT [] .BOOT_STAT_TRIAL (b2n s.fe.fw.trial)).setFld .FSI_STATUS [] .FSI_STATUS_BANK (b2n s.fe.fw.useB)
  let m := s.bootMode
  let cold := s.resumeFrom.isNone
  let fe := s.fe
  let none' := fe.tenants.map fun e => (e.1, e.2.map Tenant.anew)
  let fe := if cold then { fe with tenants := none', tokens := [], tokenNext := 1, doubleFaults := 0, host := none, modeTick := none } else fe
  let fe := if s.recordRefused then { fe with douseCut := fe.douse.map fun d => d.tick } else fe
  let s := { s with fe := { fe with bootWhy := b2n !cold, passage := none, trim := m, place := [], partner := [], staged := [], voltBase := s.free }, free := s.free + 128 }
  let fsi : Fsi := { s.fsi with seq := 0, accepted := [], ready := [], queues := [], lost := [], ops := [], firm := [], rings := [] }
  let crow := { s.crow with cold := false, wakes := [], mastLost := s.crow.mastLost && !cold }
  let s := { s with crow := crow, jtag := if cold then { s.jtag with token := none } else s.jtag }
  let s := if cold then { s with fsi := fsi }.setFld .FSI_STATUS [] .FSI_STATUS_RESTARTS 0 else s
  let s := (((s.bootKeys).loadImage 0).bringUp (s.trimDef m)).setMode m
  let s := s.pwrStart m .nothing
  if cold then s.bootRest else { s with fe := { s.fe with boot := .resuming } }

/-! ### The resume (R412 to R416) -/

/-- Every physical root of a saved core lies in MRAM (R416). -/
def rootsInMram (k : Core) : Bool :=
  [k.fld .H_SEG_ROOT .H_SEG_ROOT_BASE, k.fld .H_PT_ROOT .H_PT_ROOT_BASE, k.fld .HSTG_ROOT .HSTG_ROOT_BASE].all fun b => inMram (b * 4096)

/-- The saved state of a logical core in a douse record: its entry, or its furl record. -/
def State.savedOf (s : State) (l : Nat) : Option Saved → Option Saved
  | some v => some v
  | none => s.fe.furled.get none l

/-- A tenant is resumable (R410). -/
def State.resumableVmid (s : State) (v : Nat) : Bool :=
  match s.fe.tenants.get none v with
  | some t => t.persistent && t.resume
  | none => false

/-- A saved core may be resumed (R416). -/
def State.resumes (s : State) (v : Saved) : Bool :=
  (s.fe.plan.hostPersistent || s.resumableVmid (v.core.fld .VMID .VMID_VMID)) && rootsInMram v.core

/-- A tenant's place in the RESUMED list; a refusal outranks a core held furled, and that a resume. -/
def State.noteTenant (s : State) (v st : Nat) : State :=
  match s.fe.tenants.get none v with
  | none => s
  | some t =>
    let rank (x : Nat) : Nat := if x = 2 then 3 else if x = 3 then 2 else 1
    let st := match t.status with | some o => if rank st < rank o then o else st | none => st
    { s with fe := { s.fe with tenants := s.fe.tenants.set none v (some { t with status := some st }) } }

/-- Restore one saved core, bad: its entry fails its CRC (R416): on the core that the trim gives it or a free backstay core, held furled for want of one, or left
furled when it was saved by reference. -/
def State.restoreOne (s : State) (e : Nat × Option Saved) (bad : Bool) : State :=
  let l := e.1
  match s.savedOf l e.2 with
  | none => s
  | some v =>
    let v : Saved := { v with unknown := v.unknown || s.crow.mastLost }
    let vm := v.core.fld .VMID .VMID_VMID
    if bad || !s.resumes v then
      { s with fe := { s.fe with furled := s.fe.furled.set none l none, held := s.fe.held.erase l } }.noteTenant vm 2
    else if e.2.isNone then
      { s with fe := { s.fe with furled := s.fe.furled.set none l (some v) } }.noteTenant vm (if s.fe.held.contains l then 3 else 0)
    else
      let d := s.trimDef s.fe.trim
      match (match d.placeOf l with | some p => s.target p | none => s.pickBackstay 0) with
      | none =>
        { s with fe := { s.fe with furled := s.fe.furled.set none l (some v), held := insertRising l s.fe.held } }.noteTenant vm 3
      | some x =>
        let gap := if v.unknown then s.time + 2 ^ 63 else s.time - v.stop
        let s := (s.settleOn l x v.core).noteTenant vm 0
        let s := s.setReg .GAP_TIME [l] (BitVec.ofNat 64 gap)
        let s := match s.fe.tenants.get none vm with
          | some t => if t.resumed then s
              else { s with fe := { s.fe with tenants := s.fe.tenants.set none vm (some { t with resumed := true, gap := BitVec.ofNat 64 gap }) } }
          | none => s
        s.traceGap (Fin.ofNat 64 x) gap

/-- The events of a resume: TENANT_RESUMED for each tenant with a core that is back, and COLD_RESTART for every other but those
whose cores are held furled, in VMID order. -/
def State.resumeEvents (s : State) : State :=
  s.fe.tenants.foldl (fun s e => match e.2 with
    | none => s
    | some t =>
      if t.status = some 0 ∨ (t.status = some 3 ∧ t.resumed) then
        s.feEvent 0x0581 [e.1, t.gap.toNat % 2 ^ 32, t.gap.toNat / 2 ^ 32] (s.slicesOf e.1)
      else if t.status = some 3 then s
      else (s.noteTenant e.1 1).feEvent 0x0582 [e.1] (s.slicesOf e.1)) s

/-- A cleat's saved state is restored: its owner has a saved core that is not refused (R228, R416). -/
def State.cleatBack (s : State) (d : Douse) (bad : BitVec 64) (w : Word) : Bool :=
  d.cores.any fun e => match s.savedOf e.1 e.2 with
    | some v => v.core.fld .VMID .VMID_VMID == bits w .CLEAT_STATE_OWNER / 2 ^ 16 && s.resumes v && !bad.getLsbD e.1
    | none => false

/-- Slice, queue, cleat and vector state is back: every queue of the saved slices reads RESUMED, and a request that Fetas
had not accepted is answered BUSY (R310, R357, R412). -/
def State.restoreRegs (s : State) (d : Douse) (bad : BitVec 64) : State :=
  let back := d.regs.filter fun e => (Reg.CLEAT_STATE.match? e.1).isNone || s.cleatBack d bad e.2
  let s := { s with regs := back.foldl (fun (m : SMap Word) (e : Nat × Word) => SMap.insert e.1 e.2 m) s.regs }
  let saved := back.filterMap fun e => match Reg.MBX_STAT.match? e.1 with | some ([n], _) => some n | _ => none
  let s := saved.foldl (fun s n =>
    if s.boxBusy (8 + n) then
      let w0 := (s.boxWords (8 + n)).headD 0
      ({ s with regs := s.regs.erase (Reg.MBX_STAT.at [n]) }).reply (8 + n) w0 { status := stBusy }
    else { s with regs := s.regs.erase (Reg.MBX_STAT.at [n]) }) s
  { s with regs := s.regs.map fun e => match Reg.Q_CFG.match? e.1 with
      | some ([n, _], _) => if s.resumableSlice n then
          (e.1, putBits (putBits (putBits (putBits e.2 .Q_CFG_EN 0) .Q_CFG_DRAINING 0) .Q_CFG_ERR 1) .Q_CFG_ERRKIND 0xB) else e
      | _ => e }

/-- QUAR reads 1 from the resume on while a core is held furled (R415), and the other conditions are evaluated. -/
def State.resumeHealth (s : State) : State :=
  if s.fe.healthKnown || s.fe.held.isEmpty then s.healthEval else s.setFld .HEALTH_STAT [] .HEALTH_STAT_QUAR 1

/-- A core of the record is back, running or furled. -/
def State.isBack (s : State) (l : Nat) : Bool := (s.placeOf l).isSome || (s.fe.furled.get none l).isSome

/-- RESUME_START (R413 to R416): the saved cores start together at a tick edge, and the boot goes on. bad: the logical cores
whose entry fails its CRC. -/
def execResumeStart (s : State) (bad : BitVec 64 := 0) : Host.Outcome State Fault Refusal :=
  if s.fe.boot ≠ .resuming then ok s
  else
    match s.fe.douse with
    | none => ok s
    | some d =>
      let s := { s with tick := nextTick s.tick, time := tickTime (nextTick s.tick) }
      let tenants := s.fe.tenants.map fun e => (e.1, e.2.map Tenant.anew)
      let s := { s with fe := { s.fe with tenants := tenants, epoch := s.fe.epoch + 1 } }
      let s := { s with regs := s.regs.filter fun e => (Reg.GAP_TIME.match? e.1).isNone }
      let s := (s.restoreRegs d bad)
      let s := (d.cores.foldl (fun s e => s.restoreOne e (bad.getLsbD e.1)) s).applyTokens
      let ls := s.running
      let s := ((s.joinPairs ls).holdBackstays.resumeEvents).resumeHealth
      let ran := d.cores.filter fun e => (s.placeOf e.1).isSome
      let refused := d.cores.filter fun e => !s.isBack e.1
      let cold := (s.fe.tenants.filter fun e => match e.2 with
        | some t => t.status != some 0 && t.status != some 3
        | none => false).length
      let d := { d with bankSeq := d.bankSeq + 1, backTick := s.crow.goodTick, backTime := s.time, resumed := ran.length,
                        refused := refused.length, cold := cold, genAfter := s.fe.plan.gen }
      let s := { s with fe := { s.fe with douse := some d, boot := .done }, crow := { s.crow with mastLost := false } }
      let s := (List.range 64).foldl (fun s p => s.wakeCheck (Fin.ofNat 64 p)) s
      ok (if s.fe.plan.hostPersistent && decide (refused.length < d.cores.length) then (s.postAll.riseFetas.redigest).healthFirst else s.postAll.bootRest)

/-! ### The rest of the search (R493, R494) -/

/-- The boot source has done its part: PCI Express takes the role that the plan gives it (R324). -/
def State.endStaging (s : State) : State :=
  { s with fe := { s.fe with boot := .noHost } }.loadImage 16

/-- BOOT_PCIE_STAGED: the remote root complex has written its images and the ready word; Fetas reads them. -/
def execBootPcieStaged (img man : List Byte) (s : State) : Host.Outcome State Fault Refusal :=
  if s.fe.boot ≠ .pcie then ok s
  else
    let s := ((s.fetasWrite 0 (img.take 0x1000000)).fetasWrite 0x1800000 (man.take 0x7FFFFC)).fetasWrite 0x1FFFFFC (toLe 0x5944474F 4)
    let s := s.bootManifest man
    ok (s.endStaging.hostSearch 2 (img.take 0x1000000))

/-- BOOT_PCIE_TIMEOUT: no ready word came within 60 s, and the MRAM banks are tried. -/
def execBootPcieTimeout (s : State) : Host.Outcome State Fault Refusal :=
  if s.fe.boot ≠ .pcie ∨ s.ticksSince s.fe.searchAt < ticks60s then ok s
  else ok (s.endStaging.hostSearch 0 [])

/-- BOOT_RETRY: with no valid host image the whole search runs again, 10 s after it ended (R494). -/
def execBootRetry (s : State) : Host.Outcome State Fault Refusal :=
  if s.fe.boot ≠ .noHost ∨ s.ticksSince s.fe.searchAt < ticks10s then ok s
  else ok (s.hostFrom s.bootSource)

end Sys2Proof.Machine
end

