-- ==== Sys2Proof/Machine/FsiPlan.lean ====
section
/-! DEFINITION. The PLAN and POWER groups (R361, R362, R374, R378, R381, R383, R384, R386, R400 to R403). -/

namespace Sys2Proof.Machine

/-! ### PLAN (R361) -/

/-- PLAN_LOAD: refused for want of a place while a commit is pending. -/
def execPlanLoad (s : State) : Host.Outcome State Fault Refusal :=
  ok (s.command { code := 0x201, dir := .inward, defer := true, free := true } noBad anyLen noObj fun c s =>
    if s.fe.commit.isSome then s.ans stNoResource
    else s.readDesc c fun b s =>
      match s.parsePlan b with
      | none => s.deny 0x200
      | some p => { s with fe := { s.fe with loaded := some p } }.yes [p.gen])

/-- Fetas stages the switch that comes first. -/
def State.restage (s : State) : State :=
  match s.dueCommit with
  | some (isMode, c) => s.stageAll (if isMode then s.fe.plan else c.plan) c.trim
  | none => { s with fe := { s.fe with staged := [] } }

/-- How far a tick lies ahead, through a wrap of the count (R387). -/
def State.ahead (s : State) (t : Nat) : Nat := (t + 2 ^ 48 - s.tick) % 2 ^ 48

/-- PLAN_COMMIT: it waits for its tick. -/
def execPlanCommit (s : State) : Host.Outcome State Fault Refusal :=
  ok (s.command { code := 0x202, mask := [0xFFFFFFFF, 0xFFFFFFFF, 0xFFFFFFFF, 0xFFFF, 7], defer := true, free := true } noBad anyLen
    noObj fun c s =>
      let latest := s.latestGen
      let tick := c.w2 3
      if c.w 1 ≠ latest then s.ans stStale [latest]
      else if c.w 2 ≤ latest then s.badArg 2
      else
        match s.fe.loaded with
        | none => s.ans stNoResource
        | some p =>
          if p.gen ≠ c.w 2 then s.ans stNoResource
          else if s.ahead tick < 33 ∨ 2 ^ 31 < s.ahead tick then s.deny 0x201
          else
            let cm : Commit := { plan := p, trim := c.w 5, tick := tick, req := c.id }
            .op [.plan] [] { s with fe := { s.fe with commit := some cm } }.restage)

/-- PLAN_DIGEST. -/
def execPlanDigest (s : State) : Host.Outcome State Fault Refusal :=
  ok (s.command { code := 0x203, free := true } noBad anyLen noObj fun _ s =>
    let b := toBe s.fe.digest.toNat 48
    s.yes (((List.range 12).map fun i => le32 b (4 * i)) ++ [s.fe.plan.gen, s.fe.digestTick % 2 ^ 32]))

/-- PLAN_SCAN. -/
def execPlanScan (s : State) : Host.Outcome State Fault Refusal :=
  ok (s.command { code := 0x204 } noBad anyLen (fun _ _ => [.plan]) fun _ s =>
    match s.scan with
    | (n, s) =>
      match s.fe.unrepaired with
      | [] => s.yes [85, n]
      | u :: _ => s.ans stDegraded [85, n] (cfgBase u / 2 ^ 24 % 2 ^ 8))

/-- PLAN_CANCEL. -/
def execPlanCancel (s : State) : Host.Outcome State Fault Refusal :=
  ok (s.command { code := 0x205, mask := [0xFFFFFFFF], free := true } noBad anyLen noObj fun c s =>
    match s.fe.commit with
    | none => s.deny
    | some cm =>
      if c.w 1 ≠ cm.plan.gen then s.ans stStale
      else if s.nearTick cm.tick then s.deny
      else
        let s := { s with fe := { s.fe with commit := none } }.restage
        (s.opEnd cm.req { status := stStale, res := [s.fe.plan.gen] }).yes)

/-! ### POWER (R362) -/

/-- POWER_SET_MODE: it takes effect at its tick, or with none at the next tick edge (R400). -/
def execPowerSetMode (s : State) : Host.Outcome State Fault Refusal :=
  ok (s.command { code := 0x301, mask := [7, 0xFFFFFFFF, 0xFFFF], defer := true } noBad anyLen (fun _ _ => [.pd 0, .plan]) fun c s =>
    let m := c.w 1
    let d := s.trimDef 7
    if m = 7 ∧ (s.running.any fun e => (d.placeOf e.1).isNone) then s.deny 0x300
    else if m = 0 ∧ (!s.slices.jobs.isEmpty ∨ 0 < s.deferredOf c.box) then s.deny 0x300
    else
      let tick := if c.w2 2 = 0 then nextTick s.tick else c.w2 2
      let cm : Commit := { plan := s.fe.plan, trim := m, tick := tick, req := c.id }
      .op [.pd 0] [] { s with fe := { s.fe with modeTick := some cm } }.restage)

/-- A level that the mode in force allows a quad: no more than 4 quads above level 3 in M5. -/
def State.reefOk (s : State) (q lvl : Nat) : Bool :=
  let others := (List.range 16).filter fun x => x != q && s.pdUp (67 + x) && decide (3 < s.level x)
  levelOk s.mode.toNat (others.length + b2n (decide (3 < lvl))) lvl

/-- POWER_SET_REEF. -/
def execPowerSetReef (s : State) : Host.Outcome State Fault Refusal :=
  ok (s.command { code := 0x302, mask := [0x70F] } noBad anyLen (fun c _ => [.pd (67 + c.w 1 % 16)]) fun c s =>
    let q := c.w 1 % 16
    let lvl := c.f 1 10 8
    if !s.pdUp (67 + q) || !s.reefOk q lvl then s.deny
    else if !s.fe.throttled.isEmpty ∧ s.level q < lvl then
      { s with fe := { s.fe with reefWait := s.fe.reefWait.set none q (some lvl) } }.yes
    else (s.setLevel q lvl).yes)

/-- A domain that the mode, a logical core or the backstay pool requires on. -/
def State.requires (s : State) (d : Nat) : Bool :=
  let t := s.trimDef s.fe.trim
  let used (p : Nat) : Bool := (s.carried p).isSome || (s.leadOf p).isSome
  if 3 ≤ d ∧ d < 67 then used (d - 3) || (s.pdUp (67 + (d - 3) / 4) && s.freeBackstays.contains (d - 3))
  else if 67 ≤ d ∧ d < 83 then t.quadOn (d - 67) || (List.range 4).any fun i => used (4 * (d - 67) + i)
  else (s.trimUnits t).contains d

/-- The domains that are switched with a domain: a memory group's controller and its dies (R37). -/
def pdPair (d : Nat) : List Nat := if d = 93 ∨ d = 94 then [93, 94] else if d = 95 ∨ d = 96 then [95, 96] else [d]

/-- POWER_DOMAIN: a quad is powered with its cores alone (R37). -/
def execPowerDomain (s : State) : Host.Outcome State Fault Refusal :=
  ok (s.command { code := 0x303, mask := [0x17F], defer := true } (fun c _ => badWhen [(1, decide (106 < c.w 1 % 128))]) anyLen
    (fun c _ => if c.w 1 % 128 = 0 then [] else [.pd (c.w 1 % 128)]) fun c s =>
      let d := c.w 1 % 128
      if [0, 1, 2, 91, 92].contains d then s.deny
      else if c.bit 1 8 then
        if 67 ≤ d ∧ d < 83 then ((s.domainsOn [d]).quadDown (d - 67)).yes
        else (s.domainsOn (if 3 ≤ d ∧ d < 67 then [67 + (d - 3) / 4, d] else pdPair d)).yes
      else if (pdPair d).any s.requires then s.deny
      else
        let under := if 67 ≤ d ∧ d < 83 then (List.range 4).map fun i => 3 + 4 * (d - 67) + i else []
        let s := (under ++ (pdPair d).reverse).foldl (fun s d => if s.pdUp d then s.quietOff d false else s) s
        (if 3 ≤ d ∧ d < 67 then s.quadDown ((d - 3) / 4) else s).yes)

/-- POWER_FURL: the time it takes is free within 50 µs. -/
def execPowerFurl (s : State) : Host.Outcome State Fault Refusal :=
  ok (s.command { code := 0x304, mask := [0x3F], defer := true } noBad anyLen (fun c _ => [.lcore (c.w 1)]) fun c s =>
    match s.placeOf (c.w 1) with
    | none => s.deny
    | some p =>
      if (s.core (Fin.ofNat 64 p)).run == .halted then s.ans stBusy [] 1
      else
        match s.furl (c.w 1) with
        | none => .wait
        | some s =>
          match s.healthEval.freshUpTo 50000 with
          | (ns, s) => s.yes [ns])

/-- POWER_UNFURL: onto the core that the trim gives it, or a free backstay core. -/
def execPowerUnfurl (s : State) : Host.Outcome State Fault Refusal :=
  ok (s.command { code := 0x305, mask := [0x3F], defer := true } noBad anyLen (fun c _ => [.lcore (c.w 1)]) fun c s =>
    let l := c.w 1
    let d := s.trimDef s.fe.trim
    if (s.fe.furled.get none l).isNone then s.deny
    else
      match (match d.placeOf l with | some p => s.target p | none => s.pickBackstay 0) with
      | none => s.ans stNoResource
      | some x =>
        let mate := if d.placeOf l = some x then (d.partnerOf l).filter fun b => !s.fe.quarantined.contains b else none
        match ((s.unfurlTo l x mate).healthEval).freshUpTo 30000 with
        | (ns, s) => s.yes [ns])

/-- The mesh clock of a mode, in MHz (R373). -/
def mclk : Mode → Nat
  | .m0 => 0
  | .m1 | .m2 | .m3 => 800
  | _ => 1600

/-- POWER_STATE. -/
def execPowerState (s : State) : Host.Outcome State Fault Refusal :=
  ok (s.command { code := 0x306, free := true } noBad anyLen noObj fun _ s =>
    let half (q : Nat) : Nat := (List.range 8).foldl (fun a i => a + s.level (q + i) * 16 ^ i) 0
    s.yes [s.mode.toNat, half 0, half 8, (s.fe.caseTemp / 10 + 64).toNat, mclk s.mode])

end Sys2Proof.Machine
end

