-- ==== Sys2Proof/Machine/Restart.lean ====
section
/-! DEFINITION. Restarts of Fetas, its watchdog and lockstep pair, and the activation and trial of firmware (R356 to R358,
R396, R431, R508, R509). -/

namespace Sys2Proof.Machine

/-- FETAS_UP falls at a restart (R344, R356). -/
def State.fetasDown (s : State) : State :=
  if !s.fetasUp then s
  else
    let s := (s.setFld .FSI_STATUS [] .FSI_STATUS_FETAS_UP 0).pulse 401
    { s with fe := { s.fe with down := true } }

/-- WATCHDOG_EXPIRY (R396): Fetas has not written KICK for TIMEOUT ticks. -/
def execWatchdogExpiry (s : State) : Host.Outcome State Fault Refusal :=
  if !s.fetasUp || decide (s.ticksSince s.crow.kicked < s.fld .WDOG_CFG [] .WDOG_CFG_TIMEOUT) then ok s
  else ok (s.setFld .WAKE_STAT [] .WAKE_STAT_WDOG 1).fetasDown

/-- FETAS_LOCKSTEP_MISMATCH (R431): each one restarts Fetas and counts against its reserve. -/
def execFetasLockstepMismatch (s : State) : Host.Outcome State Fault Refusal :=
  if !s.fetasUp then ok s
  else ok (({ s with fe := { s.fe with lockstep := s.fe.lockstep ++ [s.tick] } }.count .lockstep).healthEval).fetasDown

/-! ### What a restart does with requests (R357) -/

/-- Codes of commands that change nothing on the complex. -/
def readCodes : List Nat :=
  [0x101, 0x102, 0x103, 0x203, 0x306, 0x408, 0x506, 0x507, 0x601, 0x602, 0x702, 0x703, 0x801, 0x802, 0x903, 0xA01, 0xA04, 0xB03,
   0xC05, 0xD01, 0xD04]

/-- A request only reads. -/
def readOnly (w0 : Nat) : Bool := readCodes.contains (w0 % 2 ^ 16)

/-- A response that waits to be posted, after a restart: the final response of a committed command with REPLAY at 1, and
BUSY for one that had no effect. firm: it ends a command that had begun. -/
def afterRestart (firm : Bool) (ws : List Nat) : List Nat :=
  let w0 := ws.headD 0
  let st := ws.getD 1 0 % 2 ^ 8
  if (firm ∨ st = stOk ∨ st = stTimeout ∨ st = stDegraded ∨ st = stDeferred) ∧ !readOnly w0 then
    (w0 % 2 ^ 25 + 2 ^ 25 + w0 / 2 ^ 26 * 2 ^ 26) :: ws.tail
  else [w0 % 2 ^ 24, stBusy]

/-- A command in progress has had no effect, and is answered BUSY after a restart: it only reads, or it waits still before its
first effect. -/
def FsiOp.idle (o : FsiOp) : Bool := !o.deferred && (o.parked || readOnly (o.req.words.headD 0))

/-- The mailboxes whose request Fetas has not accepted. -/
def State.waitingBoxes (s : State) : List Nat :=
  ((List.range 8).filter fun m => s.boxBusy m) ++
    s.regs.filterMap fun e => match Reg.MBX_STAT.match? e.1 with
      | some ([n], _) => if flag e.2 .MBX_STAT_OUT_BUSY && s.boxServed (8 + n) then some (8 + n) else none
      | _ => none

/-- Requests that Fetas has accepted are settled: those not committed are answered BUSY, commands in progress go on and are
answered with REPLAY at 1, and events queued but not delivered are lost, completions apart. -/
def State.settleAccepted (s : State) : State :=
  let f := s.fsi
  let queues : SMap (List FsiEvent) := f.queues.foldl (fun m e =>
    SMap.set [] m e.1 ((e.2.filter fun x => x.completion).map fun x => { x with replay := true })) []
  let busy (r : FsiReq) : Nat × List Nat := (r.box, [r.words.headD 0 % 2 ^ 24, stBusy])
  let ready := f.ready.map fun (r : Nat × List Nat) => (r.1, afterRestart (f.firm.contains r.1) r.2)
  let idle := (f.ops.filter FsiOp.idle).filter fun o => o.req.box != noBox
  let ops := (f.ops.filter fun o => !o.idle).map fun (o : FsiOp) => { o with replay := true }
  let g : Fsi := { f with accepted := [], ready := ready ++ f.accepted.map busy ++ idle.map (fun o => busy o.req), queues := queues,
                          lost := [], ops := ops }
  { s with fsi := g }

/-- Every request is settled, waiting rings included: those are answered BUSY. -/
def State.settleRequests (s : State) : State :=
  let s := s.settleAccepted
  s.waitingBoxes.foldl (fun s b =>
    let w0 := (s.boxWords b).headD 0
    (s.boxClear b).reply b w0 { status := stBusy }) s

/-- A firmware activation that has happened is answered after its restart (R368). -/
def State.answerActs (s : State) : State :=
  if s.fe.fwAct.isSome then s else (s.endHolding 0x902 (.firmware 0) {}).endHolding 0x905 (.firmware 0) {}

/-- FETAS_RESTART (R357, R358, R508): a start of Fetas from ROM. good: it raises FETAS_UP in time; three starts in a row of
a bank on trial that do not make the other bank active again. -/
def execFetasRestart (good : Bool) (s : State) : Host.Outcome State Fault Refusal :=
  if !s.fe.down || s.fetasUp then ok s
  else if !good then
    let b := s.fe.fw
    if !b.trial then ok s
    else if b.failed + 1 < 3 then ok (s.setBanks false { b with failed := b.failed + 1 })
    else
      let b := { b.setBank b.useB { b.active with valid := false } with useB := !b.useB, trial := false, failed := 0, since := s.tick }
      let s := (s.setBanks false b).setFld .BOOT_STAT [] .BOOT_STAT_FALLBACK_FW 1
      ok (s.setFld .BOOT_STAT [] .BOOT_STAT_TRIAL 0)
  else
    let s := s.setBanks false { s.fe.fw with failed := 0 }
    let s := s.settleRequests.answerActs.postAll
    let n := satAdd 0xFFFF (s.fld .FSI_STATUS [] .FSI_STATUS_RESTARTS) 1
    let s := (s.setFld .FSI_STATUS [] .FSI_STATUS_RESTARTS n).setFld .FSI_STATUS [] .FSI_STATUS_BANK (b2n s.fe.fw.useB)
    let s := s.riseFetas
    ok ((s.feEvent 0x0980 [n, b2n s.fe.fw.useB]).healthEval)

/-! ### Activation, trial and floors (R508, R509) -/

/-- FW_TRIAL_SUCCESS: FETAS_UP has stayed 1 for 60 s. -/
def execFwTrialSuccess (s : State) : Host.Outcome State Fault Refusal :=
  if !s.fe.fw.trial || !s.fetasUp || decide (s.ticksSince s.fe.upSince < ticks60s) then ok s
  else ok ((s.setBanks false { s.fe.fw with trial := false, failed := 0 }).setFld .BOOT_STAT [] .BOOT_STAT_TRIAL 0)

/-- Every logical core is reset for a new host image; none while one must be waited for. -/
def State.resetAll (s : State) : List (Nat × Nat) → Option State
  | [] => some s
  | (_, p) :: l =>
    match s.resetCore p with
    | none => none
    | some s => s.resetAll l

/-- The staged or other host bank becomes active: every logical core starts at its entry, running or furled, and every
tenant starts again. A bank whose image no longer verifies stays out of use. none while a core must be waited for. -/
def State.activateHost (s : State) : Option State :=
  let isB := !s.fe.hostBanks.useB
  let req := (s.fe.hostAct.map fun a => a.2).getD 0
  match s.firstHost [(signedAt (s.peek (hostBankPa isB)) hostBankLen, 0, b2n isB)] false with
  | none =>
    let s := s.setBanks true { s.fe.hostBanks.setBank isB { s.fe.hostBanks.other with valid := false } with staged := false }
    some ({ s with fe := { s.fe with hostAct := none } }.opEnd req { status := stDenied, detail := 0x900 })
  | some (img, h, pay, _) =>
    match s.resetAll s.running with
    | none => none
    | some s =>
      let s := s.flipBank true
      let ls := s.running
      let s := s.runHost img h.load pay 5 ls
      let furled := s.fe.furled.map fun e => (e.1, e.2.map fun _ => { core := s.entryCore img 5 e.1, stop := s.time : Saved })
      let s := { s with fe := { s.fe with furled := furled } }
      some (((s.coldRestarts fun _ => true).opEnd req {}).redigest)

/-- FIRMWARE_ACTIVATE_TICK: the tick of an activation comes. -/
def execFirmwareActivateTick (s : State) : Host.Outcome State Fault Refusal :=
  if !s.fetasUp then ok s
  else if s.actDue true then
    match s.activateHost with
    | some s => ok s
    | none => ok s
  else if s.actDue false then ok ((s.flipBank false).setFld .BOOT_STAT [] .BOOT_STAT_TRIAL 1).fetasDown
  else ok s

/-- FLOOR_RAISE: a bank has been active for 24 h without fallback while Deployed. -/
def execFloorRaise (s : State) : Host.Outcome State Fault Refusal :=
  if !s.fetasUp || !s.deployed then ok s
  else
    let due (b : Banks) : Bool := !b.trial && decide (ticks24h ≤ s.ticksSince b.since)
    let f := s.fe.fw
    let h := s.fe.hostBanks
    let o := s.fe.otp
    let o := if due f then { o with fwFloor := max o.fwFloor (min (f.floorOf false f.useB) 128) } else o
    let o := if due h then { o with hostFloor := max o.hostFloor (min (h.floorOf true h.useB) 256) } else o
    ok { s with fe := { s.fe with otp := o } }

end Sys2Proof.Machine
end

