-- ==== Sys2Proof/Machine/Douse.lean ====
section
/-! DEFINITION. The douse (R404 to R411, R421, R422). What comes before the record is sealed happens within the command of
the warning (log entry 43); DOUSE_SEAL ends it. -/

namespace Sys2Proof.Machine

/-! ### What the record holds (R410, R421) -/

/-- Slices bound to a resumable tenant. -/
def State.resumableSlices (s : State) : List Nat :=
  s.regs.filterMap fun e => match Reg.SLICE_BIND.match? e.1 with
    | some ([n], _) => if s.resumableSlice n then some n else none
    | _ => none

def State.grantedQ (s : State) (n : Nat) : Nat := s.fld .SLICE_GRANT_Q [n] .SLICE_GRANT_Q_COUNT
def State.grantedV (s : State) (n : Nat) : Nat := s.fld .SLICE_GRANT_V [n] .SLICE_GRANT_V_COUNT

/-- Message vector v is granted to slice n (R294). -/
def State.hasVector (s : State) (n v : Nat) : Bool :=
  let b := s.fld .SLICE_GRANT_V [n] .SLICE_GRANT_V_BASE
  decide (b ≤ v) && decide (v < b + s.grantedV n)

/-- A cleat held by a resumable tenant. -/
def State.tenantCleat (s : State) (w : Word) : Bool :=
  bits w .CLEAT_STATE_STATE != 0 && !flag w .CLEAT_STATE_FETAS && s.resumableVmid (bits w .CLEAT_STATE_OWNER / 2 ^ 16)

/-- A register whose value goes into the record; rs: the slices of resumable tenants. -/
def State.dousedReg (s : State) (rs : List Nat) (a : Nat) (w : Word) : Bool :=
  let queue := [Reg.Q_SQ_BASE, .Q_CQ_BASE, .Q_CFG, .Q_SQ, .Q_CQ].any fun r => match r.match? a with
    | some ([n, q], _) => rs.contains n && decide (q < s.grantedQ n)
    | _ => false
  let box := match Reg.MBX_STAT.match? a with
    | some ([n], _) => rs.contains n
    | _ => false
  let word0 := match Reg.OUT_MSG.match? a with
    | some ([n, w], _) => rs.contains n && w == 0
    | _ => false
  let gen := match Reg.SLICE_GEN.match? a with
    | some ([n], _) => rs.contains n
    | _ => false
  let vector := [Reg.SRC_CFG, .SRC_STAT].any fun r => match r.match? a with
    | some ([x], _) => decide (1024 ≤ x) && rs.any fun n => s.hasVector n (x - 1024)
    | _ => false
  let cleat := (Reg.CLEAT_STATE.match? a).isSome && s.tenantCleat w
  queue || box || word0 || gen || vector || cleat

def State.douseRegs (s : State) (rs : List Nat) : SMap Word :=
  let listed := s.regs.filter fun e => s.dousedReg rs e.1 e.2
  rs.foldl (fun m n => (List.range (s.grantedQ n)).foldl (fun (m : SMap Word) q =>
    SMap.insert (Reg.Q_CFG.at [n, q]) (s.reg .Q_CFG [n, q]) m) m) listed

/-- The entry of a running logical core that is saved: it goes on when it resumes, whether it was halted or had failed a
check. -/
def State.dousedCore (s : State) (p : Nat) : Saved :=
  let k := (s.core (Fin.ofNat 64 p)).saved
  { core := { k with run := if k.run == .stopped .machineCheck then .running else k.run }, stop := s.time, doused := true }

/-- The core entries, in ascending logical number; a furled core is saved by reference. -/
def State.douseCores (s : State) : List (Nat × Option Saved) :=
  let takes (v : Nat) : Bool := s.fe.plan.hostPersistent || s.resumableVmid v
  (List.range 64).filterMap fun l =>
    match s.placeOf l with
    | some p => if takes ((s.core (Fin.ofNat 64 p)).fld .VMID .VMID_VMID) then some (l, some (s.dousedCore p)) else none
    | none =>
      match s.fe.furled.get none l with
      | some v => if takes (v.core.fld .VMID .VMID_VMID) then some (l, none) else none
      | none => none

/-- The record but for its stop time and its count of sectors, written when the cores stand. -/
def State.douseRecord (s : State) (mode tick source sectors : Nat) : Douse :=
  let rs := s.resumableSlices
  let regs := s.douseRegs rs
  let cores := s.douseCores
  let cleats := (regs.filter fun e => (Reg.CLEAT_STATE.match? e.1).isSome).length
  let queues := (rs.map s.grantedQ).sum
  let vectors := (rs.map s.grantedV).sum
  { epoch := s.fe.epoch, gen := s.fe.plan.gen, tick := tick, time := s.time, mode := mode, source := source, sectors := sectors
    seq := (match s.fe.douse with | some d => d.bankSeq | none => 0) + 1
    bankSeq := (match s.fe.douse with | some d => d.bankSeq | none => 0) + 1
    cores := cores, regs := regs
    payload := 256 + 2048 * cores.length + 16 * rs.length + 32 * queues + 8 * cleats + 8 * vectors }

/-! ### The douse -/

/-- A running core stops at an instruction boundary, its buffers drained into the caches (R229, R407); one that has failed a
check is recorded for quarantine (R417). -/
def State.stopOne (s : State) (p : Nat) : State :=
  let c := Fin.ofNat 64 p
  let failed := (s.core c).run == .stopped .machineCheck
  let s := ((s.stopCore c true).getD s).leaveDist p
  if failed then s.noteQuarantine p else s

/-- A failed check that Fetas has not acted on yet: what failed is recorded for quarantine (R417). -/
def State.noteReport (s : State) : Report → State
  | .machineCheck p => s.noteQuarantine p
  | .pairCheck p => match s.fe.partner.get none p with
    | some b => (s.noteQuarantine p).noteQuarantine b
    | none => s.noteQuarantine p
  | .doubleFault _ | .unitCheck _ => s

/-- Every core stops. -/
def State.stopAll (s : State) : State :=
  let s := (List.range 64).foldl (fun s c => s.updCore (Fin.ofNat 64 c) fun k => { k with hold := none, resv := none }) s
  let s := (s.net.map fun m => m.sec).foldl (fun s n => s.progress n) s
  let s := s.running.foldl (fun s e => s.stopOne e.2) s
  s.reports.foldl State.noteReport s

/-- MRAM sectors that count in a home (R257). -/
def State.countedIn (s : State) (h : Nat) : List Nat := (s.home h).pdq.flatMap fun e => e.2

/-- The homes write their counted MRAM sectors, and the durability probe is answered. -/
def State.writeCounted (s : State) : State :=
  let s := (List.range 8).foldl (fun s h => (s.countedIn h).foldl (fun s n => s.reclaimSec n) s) s
  s.mramAll

/-- The requests that outlive a douse: those of slices of resumable tenants (R357). -/
def State.douseRequests (s : State) : State :=
  let s := s.settleAccepted
  let mine (b : Nat) : Bool := decide (8 ≤ b) && s.resumableSlice (b - 8)
  let f : Fsi := s.fsi
  let ready := f.ready.filter fun r => mine r.1
  let queues := f.queues.filter fun e => mine e.1
  let ops := f.ops.filter fun o => mine o.req.box
  let g : Fsi := { f with ready := ready, queues := queues, ops := ops }
  { s with fsi := g }

/-- What Fetas holds but in its partition goes. -/
def State.dropVolatile (s : State) : State :=
  let fe := { s.fe with place := [], partner := [], staged := [], split := [], selfTest := none, throttled := [], reefWait := [],
                        boot := .idle, down := false, passage := none }
  { s with fe := fe, reports := [], net := [] }

/-- A douse, from the warning to the time its payload is durable. -/
def State.douse (s : State) (source : Nat) : State :=
  let mode := s.fld .MAST_MODE [] .MAST_MODE_MODE
  let tick := s.tick
  let s := s.fetasDown.sliceDouse.stopAll
  let sectors := ((List.range 8).map fun h => (s.countedIn h).length).sum
  let s := s.writeCounted
  let rec' := s.douseRecord mode tick source sectors
  let s := s.domainsOff [93, 94, 95, 96, 98, 99, 100, 101, 102, 104, 105, 106]
  let s := s.douseRequests.dropVolatile
  let s := s.domainsOff ((List.range 88).map fun i => 3 + i)
  { s with fe := { s.fe with sealing := some rec' }
           crow := { s.crow with dousing := true, source := source, m0req := none, todo := [], after := .nothing } }

/-! ### The start from ROM (R395, R495) -/

/-- The Crow's nest starts Fetas from ROM, after the supply sequence when the complex is in M0. -/
def State.startBoot (s : State) : State :=
  let s := { s with crow := { s.crow with waitGood := false } }
  if s.mode ≠ .m0 then s.coldBoot
  else
    let s := s.pwrStart s.bootMode .boot
    if s.crow.todo.isEmpty then { s with crow := { s.crow with after := .nothing } }.coldBoot else s

/-- Fetas is started once the recovery condition holds and RESET_N is high. -/
def State.bootIfGood (s : State) : State :=
  if s.crow.waitGood && s.crow.good && !s.crow.resetLow && !s.crow.cut && !s.crow.dousing then s.startBoot else s

/-- DOUSE_SEAL: the commit word is durable; the last domains go off, and the complex waits for power. -/
def execDouseSeal (s : State) : Host.Outcome State Fault Refusal :=
  if !s.crow.dousing then ok s
  else
    match s.freshUpTo 1000000 with
    | (took, s) =>
      let s := s.domainsOff [103, 97, 92, 2, 91]
      let rec' := s.fe.sealing.map fun d => { d with took := took }
      let fe := { s.fe with douse := rec', sealing := none, douseCut := none }
      let s := ({ s with fe := fe, crow := { s.crow with dousing := false, waitGood := true } }.setMode 0).pwrStart 0 .nothing
      ok (s.count .douse).bootIfGood

/-! ### The power-fail logic (R392) -/

/-- A boot that has started no core ends with no record, and starts again at the next recovery condition (R414, R495). -/
def State.endBoot (s : State) : State :=
  let fsi := s.fsi
  let cut := s.fe.douseCut
  let s := s.hardReset
  let s := { s with fe := { s.fe with boot := .idle, douseCut := cut }, fsi := fsi, crow := { s.crow with waitGood := true } }
  (s.setMode 0).pwrStart 0 .nothing

/-- What the warning starts. -/
def State.warned (s : State) (source : Nat) : State :=
  if s.mode = .m0 then
    match s.crow.after with
    | .nothing => s
    | .wake => { s with crow := { s.crow with heldWake := true } }.pwrStart 0 .nothing
    | .boot => { s with crow := { s.crow with waitGood := true } }.pwrStart 0 .nothing
  else if s.crow.waitGood then s
  else if s.fe.boot = .resuming ∨ ((s.fe.boot = .pcie ∨ s.fe.boot = .noHost) ∧ s.fe.bootWhy = 0) then s.endBoot
  else s.douse source

/-- The warning condition of one input is met (R392): VIN_SENSE below DOUSE_TH for the filter time, or PFW_N low for 1 µs while
PFW_EN is 1. -/
def State.failMet (s : State) : PowerFail → Bool
  | .vin mv us => decide (mv < 2 * s.fld .PF_CFG [] .PF_CFG_DOUSE_TH) && decide (s.fld .PF_CFG [] .PF_CFG_FILT + 1 ≤ us)
  | .pfw us => flag (s.reg .PF_CFG) .PF_CFG_PFW_EN && decide (1 ≤ us)

/-- The source of a douse (R422). -/
def failSource : PowerFail → Nat
  | .vin _ _ => 1
  | .pfw _ => 2

/-- POWER_FAIL_WARNING: VIN_SENSE, or the PFW_N pin, has been low. -/
def execPowerFailWarning (what : PowerFail) (s : State) : Host.Outcome State Fault Refusal :=
  if s.crow.mastOff || !s.failMet what then ok s
  else
    let old := flag (s.reg .PF_CFG) .PF_CFG_PF
    let s := (s.setFld .PF_CFG [] .PF_CFG_PF 1).setFld .WAKE_STAT [] .WAKE_STAT_PF 1
    let s := { s with crow := { s.crow with good := false } }
    if old || s.crow.dousing then ok s else ok (s.warned (failSource what))

/-- The recovery condition is met (R392): VIN_SENSE no lower than DOUSE_TH + 40 mV, and PFW_N high, through 64 tick edges. -/
def State.recoverMet (s : State) (mv : Nat) (pfwHigh : Bool) (edges : Nat) : Bool :=
  decide (2 * s.fld .PF_CFG [] .PF_CFG_DOUSE_TH + 40 ≤ mv) && pfwHigh && decide (64 ≤ edges)

/-- POWER_FAIL_RECOVERY: VIN_SENSE has been no lower than mv, and PFW_N high or not, through so many tick edges. -/
def execPowerFailRecovery (s : State) (mv : Nat := 2046) (pfwHigh : Bool := true) (edges : Nat := 64) : Host.Outcome State Fault Refusal :=
  if s.crow.mastOff || s.crow.good || !s.recoverMet mv pfwHigh edges then ok s
  else
    let s := s.setFld .PF_CFG [] .PF_CFG_PF 0
    let s := { s with crow := { s.crow with good := true, goodTick := s.tick } }
    if s.crow.waitGood then ok s.bootIfGood
    else if s.crow.heldWake && !s.crow.dousing then ok { s with crow := { s.crow with heldWake := false } }.wakeSource
    else ok s

/-- A wired source follows a WAKE_STAT bit: at once in M1 to M7, after the wake in M0 (R375, R393). -/
def State.wakePulse (s : State) (n : Nat) : State :=
  if s.mode = .m0 then { s with crow := { s.crow with wakes := s.crow.wakes ++ [n] } } else s.pulse n

/-- EARLY_POWER_WARNING: VIN_SENSE has been no higher than mv for so many µs. Below EARLY_TH for the filter time is the early
condition; 40 mV above it ends (R392, R527). -/
def execEarlyPowerWarning (mv : Nat) (s : State) (us : Nat := 16) : Host.Outcome State Fault Refusal :=
  let th := 2 * s.fld .PF_CFG [] .PF_CFG_EARLY_TH
  if s.crow.mastOff then ok s
  else if th + 40 ≤ mv then ok (s.setFld .PF_CFG [] .PF_CFG_EARLY 0)
  else if th ≤ mv ∨ us < s.fld .PF_CFG [] .PF_CFG_FILT + 1 then ok s
  else ok (((s.setFld .PF_CFG [] .PF_CFG_EARLY 1).setFld .WAKE_STAT [] .WAKE_STAT_EARLY 1).wakePulse 306)

/-- PWR_EN_DELAY (R395): a delay ends, and the next output changes. -/
def execPwrEnDelay (s : State) : Host.Outcome State Fault Refusal :=
  match s.crow.todo with
  | [] => ok s
  | (n, b) :: rest =>
    let out := if b then s.crow.out ||| BitVec.ofNat 6 (2 ^ n) else s.crow.out &&& ~~~(BitVec.ofNat 6 (2 ^ n))
    let s := { s with crow := { s.crow with out := out, todo := rest } }
    if !rest.isEmpty then ok s
    else
      let s' := { s with crow := { s.crow with after := .nothing } }
      match s.crow.after with
      | .nothing => ok s'
      | .wake => ok s'.wakeUp
      | .boot => ok s'.coldBoot

/-! ### Pin reset and loss of supplies (R519 to R524) -/

/-- Every domain but PD 0 and PD 1 is reset, and the complex waits to start from ROM; a supply sequence stands where it
is. -/
def State.resetLike (s : State) : State :=
  let s := s.hardReset
  { s with fe := { s.fe with boot := .idle }, crow := { s.crow with waitGood := true, todo := [], after := .nothing } }

/-- RESET_N falls for a time of ns: below 100 ns it is ignored, and below 1 µs either ignored or a whole reset. -/
def execResetN (ns : Nat) (s : State) : Host.Outcome State Fault Refusal :=
  if s.crow.mastOff || s.crow.resetLow || decide (ns < 100) then ok s
  else
    let r := if ns < 1000 then s.freshUpTo 1 else (1, s)
    if r.1 = 0 then ok r.2
    else
      let s := r.2.resetLike
      ok { s with crow := { s.crow with resetLow := true, cold := true } }

/-- RESET_N rises. -/
def execResetNRelease (s : State) : Host.Outcome State Fault Refusal :=
  if !s.crow.resetLow then ok s else ok { s with crow := { s.crow with resetLow := false } }.bootIfGood

/-- POWER_LOSS: input power goes with no warning, or a supply out of order; mast: VDD_MAST goes too. -/
def execPowerLoss (mast : Bool) (s : State) : Host.Outcome State Fault Refusal :=
  if s.crow.mastOff then ok s
  else
    let s := s.resetLike
    let s := { s with crow := { s.crow with good := false } }
    if !mast then ok s
    else
      let s := s.setMode 0
      let s := { s with regs := s.regs.filter fun e => addrPd e.1 != 0 }
      ok { s with tick := 0, crow := { mastOff := true } }

/-- MAST_POWER_UP: VDD_MAST is back; sel: the boot select pins (R493). -/
def execMastPowerUp (sel : Fin 8) (s : State) : Host.Outcome State Fault Refusal :=
  if !s.crow.mastOff then ok s
  else ok { s with crow := { sel := sel.val, mastLost := true }, fe := { s.fe with healthKnown := false, healthClear := none } }

/-- PAD_HOLD_SUPPLY_LOSS (R521): the supply of a bank falls, and its held balls are released. -/
def execPadHoldSupplyLoss (io33 : Bool) (s : State) : Host.Outcome State Fault Refusal :=
  if s.crow.mastOff then ok s
  else if io33 then ok ({ s with crow := { s.crow with pads := [] } }.setFld .PAD_HOLD [] .PAD_HOLD_IO33 0)
  else ok (s.setFld .PAD_HOLD [] .PAD_HOLD_IO18 0)

/-- THERMAL_WAKE (R383): after a thermal shutdown the estimate has been below 125 °C for 1 s. -/
def execThermalWake (s : State) : Host.Outcome State Fault Refusal :=
  if !s.crow.cut || decide (1250 ≤ s.fe.junction) then ok s
  else ok { s with crow := { s.crow with cut := false, waitGood := true } }.bootIfGood

/-! ### Wake sources (R387, R389 to R391, R393, R394) -/

/-- XT32_FAIL (R387): the tick goes on from LPO4M. -/
def execXt32Fail (s : State) : Host.Outcome State Fault Refusal :=
  if s.crow.mastOff then ok s else ok (s.setFld .MAST_MODE [] .MAST_MODE_XT_FAIL 1).healthEval

/-- A WAKE_STAT bit is set; wakes: it wakes from M0; src: the wired source it raises. -/
def State.wakeBit (s : State) (bit : Nat) (wakes : Bool) (src : Option Nat) : State :=
  let s := s.setFld .WAKE_STAT [] ⟨bit, bit⟩ 1
  let s := match src with
    | some n => s.wakePulse n
    | none => s
  if s.mode ≠ .m0 ∨ !wakes then s
  else if flag (s.reg .PF_CFG) .PF_CFG_PF then { s with crow := { s.crow with heldWake := true } }
  else s.wakeSource

def State.wakeEn (s : State) (bit : Nat) : Bool := (s.reg .WAKE_EN).getLsbD bit

/-- The threshold of a comparator in mV, and how far its release point lies behind it (R389). -/
def thresh (r : Word) : Nat := 5 * bits r .WAKE_CMP_THRESH
def hyst (r : Word) : Nat := [0, 10, 20, 40].getD (bits r .WAKE_CMP_HYST) 0

/-- A pin that stays at so many mV meets the condition of a comparator; it is beyond its release point. -/
def cmpMet (r : Word) (mv : Nat) : Bool := if flag r .WAKE_CMP_POL then decide (mv < thresh r) else decide (thresh r < mv)
def cmpFree (r : Word) (mv : Nat) : Bool :=
  if flag r .WAKE_CMP_POL then decide (thresh r + hyst r < mv) else decide (mv + hyst r < thresh r)

/-- WAKE_COMPARATOR: a pin has been at mv through so many tick edges in a row. -/
def execWakeComparator (n : Fin 8) (s : State) (mv : Nat := 0) (edges : Nat := 16) : Host.Outcome State Fault Refusal :=
  let r := s.reg .WAKE_CMP [n.val]
  if s.crow.mastOff || !flag r .WAKE_CMP_EN || flag r .WAKE_CMP_OUT || !cmpMet r mv || decide (edges < bits r .WAKE_CMP_DEB) then ok s
  else ok ((s.setFld .WAKE_CMP [n.val] .WAKE_CMP_OUT 1).wakeBit n.val (s.wakeEn n.val)
    (if flag r .WAKE_CMP_IRQ then some (288 + n.val) else none))

/-- COMPARATOR_RELEASE: the pin has passed back beyond the release point. -/
def execComparatorRelease (n : Fin 8) (s : State) (mv : Nat := 0) : Host.Outcome State Fault Refusal :=
  if s.crow.mastOff || !cmpFree (s.reg .WAKE_CMP [n.val]) mv then ok s else ok (s.setFld .WAKE_CMP [n.val] .WAKE_CMP_OUT 0)

/-- ALARM_FIRE: the Mast count has reached an armed alarm (R367, R390). -/
def execAlarmFire (n : Fin 4) (s : State) : Host.Outcome State Fault Refusal :=
  let hi := s.reg .ALARM_HI [n.val]
  let at' := bits hi .ALARM_HI_TICK * 2 ^ 32 + s.fld .ALARM_LO [n.val] .ALARM_LO_TICK
  if s.crow.mastOff || !flag hi .ALARM_HI_EN || decide (s.tick < at') then ok s
  else
    let s := s.setFld .ALARM_HI [n.val] .ALARM_HI_EN 0
    let s := if s.fetasUp then s.feEvent 0x0880 [n.val] else { s with crow := { s.crow with alarms := s.crow.alarms ++ [n.val] } }
    ok (s.wakeBit (8 + n.val) (flag hi .ALARM_HI_WAKE) (some (296 + n.val)))

/-- UART_ACTIVITY_DETECT: a low level of 2 LPO4M cycles on a receive pin. -/
def execUartActivityDetect (u : Fin 6) (s : State) : Host.Outcome State Fault Refusal :=
  if s.crow.mastOff || !(s.reg .UART_ACT).getLsbD u.val then ok s
  else ok (s.wakeBit (12 + u.val) (s.wakeEn (12 + u.val)) (some (300 + u.val)))

end Sys2Proof.Machine
end

