-- ==== Sys2Proof/WellFormed.lean ====
section
/-! DEFINITION. Well-formed commands: what the types of their operands leave open. Every command has a meaning, an
ill-formed one too; a well-formed one can come from the hardware. -/

namespace Sys2Proof

/-- The bytes of an access size. -/
def AccSize.bytes : AccSize → Nat
  | .b1 => 1
  | .b2 => 2
  | .b4 => 4
  | .b8 => 8

/-- Control mailboxes are 0 to 7, and the mailbox of slice n is 8 + n (R341, R342). -/
def boxOk (b : Nat) : Bool := decide (b < 8 + 8192)

/-- A message window is 4 KiB (R444). -/
def windowOk (w : List Byte) : Bool := decide (w.length = 4096)

/-- An array error lies in its cache (R174), and is one its code can show: the parity of L1I corrects nothing (R199). -/
def ArrayErr.ok (e : ArrayErr) : Bool :=
  match e.cache with
  | .l1i _ => decide (e.set.val < 64 ∧ e.way.val < 4 ∧ e.sector.val < 2 ∧ e.found ≠ .dataCorrected ∧ e.found ≠ .tagCorrected)
  | .l1d _ => decide (e.set.val < 64 ∧ e.way.val < 4 ∧ e.sector.val < 2)
  | .l2 _ => decide (e.set.val < 512)
  | .l3 _ => true

/-- A command is well formed: an access is aligned to its size (R33), a mailbox exists, a write request carries its bytes
and a read none (R326), an array error is one that its cache can show (R199), an illegal instruction is a word
that is no instruction (R48), and messages and images keep within their sizes (R444, R490, R493). -/
def Instr.wellFormed : Instr → Bool
  | .registerWrite _ addr size _ => decide (addr.toNat % size.bytes = 0)
  | .pcieInboundRequest write _ len data _ => decide (data.length = if write then len.val else 0)
  | .illegalInstruction c w => (decodeWord c w).isNone
  | .sectorData _ _ _ _ _ _ m => m.err.all ArrayErr.ok
  | .requestAccept b => boxOk b
  | .responsePost b => boxOk b
  | .eventPost b => boxOk b
  | .bootPcieStaged img man => decide (img.length ≤ 0x1000000) && decide (man.length ≤ 0x7FFFFC)
  | .msMessage (some w) => windowOk w
  | .smMessage (.raw w) => windowOk w
  | .smMessage (.firmware typ pay) => decide (0x100 ≤ typ.toNat) && decide (pay.length ≤ 4032)
  | .response b => decide (b.length ≤ 3504)
  | _ => true

end Sys2Proof
end

