-- ==== Sys2Proof/Machine/Arrays.lean ====
section
/-! DEFINITION. Errors of the cache arrays, poison and the retirement of frames (R199 to R204, R424; log entry 86). -/

namespace Sys2Proof

/-! ### Caches by name -/

def CacheName.kind : CacheName → Machine.CacheKind
  | .l1i _ | .l1d _ => .l1
  | .l2 _ => .l2
  | .l3 _ => .l3

/-- The power domain that holds a cache (R37). -/
def CacheName.pd : CacheName → Nat
  | .l1i c | .l1d c => 3 + c.val
  | .l2 q => 67 + q.val
  | .l3 h => 83 + h.val

/-- The object that HEALTH names a frame by (R365). -/
def CacheName.object (n : CacheName) (f : Nat) : Nat × Nat :=
  match n with
  | .l1i c | .l1d c => (2, c.val * 2 ^ 26 + f)
  | .l2 q => (3, q.val * 2 ^ 26 + f)
  | .l3 h => (4, h.val * 2 ^ 26 + f)

end Sys2Proof

namespace Sys2Proof.Machine

def State.cache (s : State) : CacheName → Cache
  | .l1i c => (s.core c).l1i
  | .l1d c => (s.core c).l1d
  | .l2 q => (s.quad q.val).l2
  | .l3 h => (s.home h.val).l3

def State.updCache (s : State) (n : CacheName) (g : Cache → Cache) : State :=
  match n with
  | .l1i c => s.updCore c fun k => { k with l1i := g k.l1i }
  | .l1d c => s.updCore c fun k => { k with l1d := g k.l1d }
  | .l2 q => s.updL2 q.val g
  | .l3 h => s.updL3 h.val g

/-! ### Reports (R204) -/

/-- The L3 captures an error of a frame's sector (R204). -/
def State.l3Capture (s : State) (h f sector kind : Nat) : State :=
  (s.capture .L3_ERR_STATUS [h] (f / 16 * 2 ^ 22 + f % 16 * 2 ^ 18 + sector * 2 ^ 16 + kind * 2 ^ 12)).2

/-- An error is reported for health telemetry; an L3 also counts and captures it, by its KIND (R204, log entry 24). -/
def State.arrayReport (s : State) (n : CacheName) (f sector kind : Nat) : State :=
  match n with
  | .l1i _ | .l1d _ => s.count .l1Error
  | .l2 _ => s.count .l2Error
  | .l3 h =>
    let fld : Fld := if kind = 1 ∨ kind = 4 then .L3_ERR_COUNT_CE else .L3_ERR_COUNT_UE
    ((s.count .l3Error).countFld .L3_ERR_COUNT [h.val] fld).l3Capture h.val f sector kind

/-- A failed check stops a core and reaches Fetas as cause 0x16 (R100, R199). -/
def State.coreCheck (s : State) (c : Fin 64) : State :=
  (s.updCore c fun k => if k.run = .off then k else { k with run := .stopped .machineCheck }).report (.machineCheck c.val)

/-- The cores of a quad in the order in which Fetas quarantines them: those that carry no logical core, so that none of
them is taken for a backstay, then the others by logical number (R426). -/
def State.quadOrder (s : State) (q : Nat) : List (Fin 64) :=
  let carried := (List.range 64).filterMap fun l => (s.placeOf l).filter fun p => p / 4 == q
  (((List.range 4).map fun i => 4 * q + i).filter (fun p => !carried.contains p) ++ carried).map (Fin.ofNat 64)

/-! ### Retirement (R201, R202) -/

/-- A cache writes a frame's dirty sectors back and invalidates it (R201). -/
def State.emptyFrame (s : State) (n : CacheName) (f : Nat) : State :=
  match n with
  | .l1i c => s.updCore c fun k => { k with l1i := k.l1i.setFrame f none }
  | .l1d c => s.l1dEvict c f
  | .l2 q => s.l2EvictNow q.val f
  | .l3 h => s.l3Evict h.val f

/-- A frame may be retired within the limits (R202). -/
def State.mayRetire (s : State) (n : CacheName) (f : Nat) : Bool :=
  let r := (s.cache n).retired
  let inSet := r.filter fun x => x / 16 == f / 16
  match n with
  | .l1i _ | .l1d _ => decide (r.length < 8) && inSet.isEmpty
  | .l2 _ => decide (r.length < 32) && decide (inSet.length < 4)
  | .l3 h => decide (r.length < 64) && decide (inSet.length < 4) && (List.range 4).all fun g =>
      let l := s.wayGroup h.val g
      !l.contains (f % 16) || l.any fun w => w != f % 16 && !r.contains (f / 16 * 16 + w)

/-- Beyond the limits the frame stays in use: Fetas quarantines the core, or the cores of the quad, or reports the slice
degraded (R202). -/
def State.overLimit (s : State) : CacheName → State
  | .l1i c | .l1d c => s.report (.machineCheck c.val)
  | .l2 q => (s.quadOrder q.val).foldl (fun s c => s.report (.machineCheck c.val)) s
  | .l3 h => { s with fe := { s.fe with l3Degraded := insertRising h.val s.fe.l3Degraded } }.healthEval

/-- Retire a frame, or keep it beyond the limits (R201, R202). -/
def State.retireFrame (s : State) (n : CacheName) (f sector : Nat) : State :=
  if s.mayRetire n f then
    let s := ((s.emptyFrame n f).updCache n fun k =>
      { k with retired := insertRising f k.retired, suspects := k.suspects.erase f }).count .retired
    let s := { s with fe := { s.fe with tested := s.fe.tested.erase (n.object f) } }
    match n with
    | .l3 h => s.l3Capture h.val f sector 6
    | _ => s
  else s.overLimit n

/-- A corrected error of a frame: the second while the frame is a suspect retires it; the suspects are the four frames
with the most recent first corrected errors (R201). -/
def State.suspect (s : State) (n : CacheName) (f sector : Nat) : State :=
  let l := (s.cache n).suspects
  if l.contains f then s.retireFrame n f sector
  else s.updCache n fun k => { k with suspects := (l ++ [f]).drop (l.length - 3) }

/-! ### Errors (R199) -/

/-- The data of a sector cannot be corrected. A clean sector is invalidated in L1, to be fetched again, and read again in
place in L2 and L3; a dirty one is poisoned. True: it was dirty. -/
def State.dataLost (s : State) (n : CacheName) (sec : Nat) : Bool × State :=
  match n with
  | .l1i c => (false, s.l1iDrop c sec)
  | .l1d c =>
    if ((s.core c).l1d.secD .l1 sec).st = .m then
      (true, s.updCore c fun k => { k with l1d := k.l1d.updSec .l1 sec fun x => { x with poison := true } })
    else (false, s.l1dDrop c sec)
  | .l2 q =>
    let st := ((s.quad q.val).l2.secD .l2 sec).st
    if st = .m ∨ st = .o then (true, s.updL2 q.val fun l => l.updSec .l2 sec fun x => { x with poison := true }) else (false, s)
  | .l3 h =>
    if ((s.home h.val).l3.secD .l3 sec).dirty then
      (true, s.updL3 h.val fun l => l.updSec .l3 sec fun x => { x with poison := true })
    else (false, s)

/-- A tag or its tracking cannot be corrected. L1I invalidates the frame; L1D and L2 are a machine check of the core or
the quad's cores; the home rebuilds an L3 entry from its quads, but over a dirty sector it is a machine check of the
slice (R199). -/
def State.tagLost (s : State) (n : CacheName) (f : Nat) : State :=
  match n with
  | .l1i _ => s.emptyFrame n f
  | .l1d c => s.coreCheck c
  | .l2 q => (s.quadOrder q.val).foldl State.coreCheck s
  | .l3 h =>
    match (s.home h.val).l3.frame f with
    | some fr => if (fr.list .l3).any fun p => p.2.dv && p.2.dirty then s.report (.unitCheck (homeStop h.val)) else s
    | none => s

/-- ARRAY_ERROR (R199): a valid sector, or the entry of a resident block, shows an error. -/
def State.arrayError (s : State) (e : ArrayErr) : State :=
  let n := e.cache
  let f := frameNo e.set.val e.way.val
  if !e.ok || !s.pdUp n.pd then s
  else match (s.cache n).frame f with
    | none => s
    | some fr =>
      let x := fr.secs.get {} e.sector.val
      let sec := fr.block * n.kind.sectors + e.sector.val
      let valid := match n with | .l3 _ => x.dv | _ => x.st != .i
      let corrected (s : State) (kind : Nat) : State :=
        let s := s.arrayReport n f e.sector.val kind
        let s := match n with | .l1d c => s.event c evL1Corrected | _ => s
        s.suspect n f e.sector.val
      match e.found with
      | .dataCorrected => if valid then corrected s 1 else s
      | .tagCorrected => corrected s 4
      | .dataLost =>
        if !valid then s
        else match s.dataLost n sec with
          | (dirty, s) => (s.arrayReport n f e.sector.val (if dirty then 3 else 2)).retireFrame n f e.sector.val
      | .tagLost => (s.arrayReport n f e.sector.val 5).tagLost n f

end Sys2Proof.Machine
end

