-- ==== Sys2Proof/Machine/Messages.lean ====
section
/-! DEFINITION. The messages of the coherence protocol (R184 to R196) and of the interrupt distributor (R262 to R276) as
commands, the acceptance of an interrupt, the compare timers of a core (R460), and the end of a cache's reset
invalidation (R197). -/

namespace Sys2Proof.Machine

/-! ### Coherence -/

/-- A quad may send a request: its L2 is past its reset invalidation, asks for what it does not hold, and for a sector once
(R185, R190, R193, R197). -/
def State.mayAsk (s : State) (m : Msg) : Bool :=
  let st := ((s.quad m.quad).l2.secD .l2 m.sec).st
  let here := (s.quadData m.quad m.sec).isSome && st != .i
  let fill (ok : Bool) : Bool := (s.quad m.quad).l2.ready && !s.fillPending m.quad m.sec && ok
  match m.kind with
  | .rd | .rfo => fill !here
  | .upg => fill (here && (st == .s || st == .o))
  | .zreq => fill true
  | _ => true

/-- A request of a quad or a unit reaches its home: the oldest such request in flight, or one sent now. A home or a memory
that is off answers with an error (R30, R40). -/
def State.request (s : State) (m : Msg) : State :=
  match s.net.find? fun p => m.matches p with
  | some p => s.deliver p
  | none =>
    if !s.mayAsk m then s
    else if !(if m.kind = .cln ∨ m.kind = .inv ∨ m.kind = .fls then s.homeUp m.sec else s.homeAnswers m.sec) then
      s.addrErr (whoStop m.quad) (m.kind == .ucw) 4 (m.sec * 64) 0
    else (s.send m).deliver m

/-- A packet that is in flight arrives; none does when none like it is in flight. -/
def State.packet (s : State) (m : Msg) : State :=
  match s.net.find? fun p => m.matches p with
  | some p => s.deliver p
  | none => s

/-- RD (R185). -/
def execRd (q : Fin 16) (sec : SecNo) (cls : Fin 8) (s : State) : Host.Outcome State Fault Refusal :=
  ok (s.request { kind := .rd, quad := q, toHome := true, sec := sec, cls := cls })

/-- RFO (R185). -/
def execRfo (q : Fin 16) (sec : SecNo) (cls : Fin 8) (s : State) : Host.Outcome State Fault Refusal :=
  ok (s.request { kind := .rfo, quad := q, toHome := true, sec := sec, cls := cls })

/-- UPG (R185). -/
def execUpg (q : Fin 16) (sec : SecNo) (cls : Fin 8) (s : State) : Host.Outcome State Fault Refusal :=
  ok (s.request { kind := .upg, quad := q, toHome := true, sec := sec, cls := cls })

/-- ZREQ (R193). -/
def execZreq (q : Fin 16) (sec : SecNo) (cls : Fin 8) (s : State) : Host.Outcome State Fault Refusal :=
  ok (s.request { kind := .zreq, quad := q, toHome := true, sec := sec, cls := cls })

/-- The class of a request of a stop that names none: 7 of a unit, of a quad that of its first core (R182; log entry 91). -/
def State.stopCls (s : State) (who : Nat) : Nat :=
  let k := s.core (Fin.ofNat 64 (who * 4))
  if who < 16 then k.cls k.level else 7

/-- CLN (R194). -/
def execCln (q : Fin 16) (sec : SecNo) (s : State) : Host.Outcome State Fault Refusal :=
  ok (s.request { kind := .cln, quad := q, toHome := true, sec := sec, cls := s.stopCls q })

/-- INV (R194). -/
def execInv (q : Fin 16) (sec : SecNo) (s : State) : Host.Outcome State Fault Refusal :=
  ok (s.request { kind := .inv, quad := q, toHome := true, sec := sec, cls := s.stopCls q })

/-- FLS (R194). -/
def execFls (q : Fin 16) (sec : SecNo) (s : State) : Host.Outcome State Fault Refusal :=
  ok (s.request { kind := .fls, quad := q, toHome := true, sec := sec, cls := s.stopCls q })

/-- UCR (R188). -/
def execUcr (who : Fin 19) (sec : SecNo) (s : State) : Host.Outcome State Fault Refusal :=
  ok (s.request { kind := .ucr, quad := who, toHome := true, sec := sec, cls := s.stopCls who })

/-- UCW (R188). -/
def execUcw (who : Fin 19) (sec : SecNo) (data : BitVec 512) (mask : BitVec 64) (s : State) : Host.Outcome State Fault Refusal :=
  ok (s.request { kind := .ucw, quad := who, toHome := true, sec := sec, data := data, mask := mask, cls := s.stopCls who })

/-- WBREQ (R189): the request an eviction sent reaches the home. -/
def execWbreq (q : Fin 16) (block : BlockNo) (dmask cmask : BitVec 4) (s : State) : Host.Outcome State Fault Refusal :=
  ok (s.packet { kind := .wbreq, quad := q, toHome := true, sec := block.val * 4, dmask := dmask, cmask := cmask })

/-- EVC (R189): the notice of a clean eviction reaches the home. -/
def execEvc (q : Fin 16) (block : BlockNo) (s : State) : Host.Outcome State Fault Refusal :=
  ok (s.packet { kind := .evc, quad := q, toHome := true, sec := block.val * 4 })

/-- SNP_S (R187). -/
def execSnpS (q : Fin 16) (sec : SecNo) (s : State) : Host.Outcome State Fault Refusal :=
  ok (s.packet { kind := .snpS, quad := q, toHome := false, sec := sec })

/-- SNP_I (R187). discard: the sender wants no data (R194). -/
def execSnpI (q : Fin 16) (sec : SecNo) (discard : Bool) (s : State) : Host.Outcome State Fault Refusal :=
  ok (s.packet { kind := if discard then .snpIdiscard else .snpI, quad := q, toHome := false, sec := sec })

/-- SNP_C (R187). -/
def execSnpC (q : Fin 16) (sec : SecNo) (s : State) : Host.Outcome State Fault Refusal :=
  ok (s.packet { kind := .snpC, quad := q, toHome := false, sec := sec })

/-- WBGO (R189). -/
def execWbgo (q : Fin 16) (sec : SecNo) (s : State) : Host.Outcome State Fault Refusal :=
  ok (s.packet { kind := .wbgo, quad := q, toHome := false, sec := sec })

/-- GRANT (R185, R193). -/
def execGrant (q : Fin 16) (sec : SecNo) (dirty : Bool) (s : State) : Host.Outcome State Fault Refusal :=
  ok (s.packet { kind := .grant, quad := q, toHome := false, sec := sec, excl := true, dirty := dirty })

/-- DONE (R194). -/
def execDone (q : Fin 16) (sec : SecNo) (s : State) : Host.Outcome State Fault Refusal :=
  ok (s.packet { kind := .done, quad := q, toHome := false, sec := sec })

/-- ACK (R187). -/
def execAck (q : Fin 16) (sec : SecNo) (s : State) : Host.Outcome State Fault Refusal :=
  ok (s.packet { kind := .ack, quad := q, toHome := true, sec := sec })

/-- MISS (R187). -/
def execMiss (q : Fin 16) (sec : SecNo) (s : State) : Host.Outcome State Fault Refusal :=
  ok (s.packet { kind := .miss, quad := q, toHome := true, sec := sec })

/-- WBCANCEL (R192). -/
def execWbcancel (q : Fin 16) (sec : SecNo) (s : State) : Host.Outcome State Fault Refusal :=
  ok (s.packet { kind := .wbcancel, quad := q, toHome := true, sec := sec })

/-- SECTOR_DATA (R184): a data packet in flight reaches its receiver; then a cache array may show an error (R199). -/
def execSectorData (q : Fin 19) (toHome : Bool) (sec : SecNo) (data : BitVec 512) (dirty excl : Bool) (mark : Arrival)
    (s : State) : Host.Outcome State Fault Refusal :=
  let m : Msg := { kind := .data, quad := q, toHome := toHome, sec := sec, data := data, dirty := dirty, excl := excl,
                   poison := mark.poison }
  ok (if s.net.any fun p => m.matches p then
      match mark.err with
      | some e => (s.packet m).arrayError e
      | none => s.packet m
    else s)

/-- A cache after its reset invalidation: no frame in use, READY (R197, R198). -/
def Cache.invalidated (c : Cache) : Cache := { c with frames := [], ready := true }

/-- CACHE_RESET_INVAL_DONE (R197): the sequence of a cache whose domain is on ends. -/
def execCacheResetInvalDone (unit : CacheName) (s : State) : Host.Outcome State Fault Refusal :=
  ok (match unit with
    | .l1i c => if s.pdUp (3 + c.val) && !(s.core c).l1i.ready then s.updCore c fun k => { k with l1i := k.l1i.invalidated } else s
    | .l1d c => if s.pdUp (3 + c.val) && !(s.core c).l1d.ready then s.updCore c fun k => { k with l1d := k.l1d.invalidated } else s
    | .l2 q => if s.pdUp (67 + q.val) && !(s.quad q).l2.ready then s.updL2 q Cache.invalidated else s
    | .l3 h => if s.pdUp (83 + h.val) && !(s.home h).l3.ready then s.updL3 h Cache.invalidated else s)

/-! ### Interrupt messages (R265 to R268, R272) -/

/-- INTERRUPT_OFFER (R265): the oldest message to a core arrives, when it is an offer. -/
def execInterruptOffer (c : CoreId) (s : State) : Host.Outcome State Fault Refusal :=
  match s.dist.nextToCore c with
  | some (.offer virt o) => ok ((s.popToCore c (.offer virt o)).offerArrives c virt o)
  | _ => ok s

/-- OFFER_WITHDRAWAL (R265). -/
def execOfferWithdrawal (c : CoreId) (s : State) : Host.Outcome State Fault Refusal :=
  match s.dist.nextToCore c with
  | some (.withdraw virt) => ok ((s.popToCore c (.withdraw virt)).withdrawArrives c virt)
  | _ => ok s

/-- ACCEPTANCE (R267): the oldest message of a core to the distributor arrives, when it is an acceptance. -/
def execAcceptance (c : CoreId) (s : State) : Host.Outcome State Fault Refusal :=
  match s.dist.nextToDist c with
  | some (.accept virt n) => ok ((s.popToDist c (.accept virt n)).acceptArrives n)
  | _ => ok s

/-- DECLINE (R272). -/
def execDecline (c : CoreId) (s : State) : Host.Outcome State Fault Refusal :=
  match s.dist.nextToDist c with
  | some (.decline n) => ok ((s.popToDist c (.decline n)).declineArrives c n)
  | _ => ok s

/-- EOI_MESSAGE (R268): it waits for the Device stores of the core to the distributor before it. -/
def execEoiMessage (c : CoreId) (s : State) : Host.Outcome State Fault Refusal :=
  match s.dist.nextToDist c with
  | some (.eoi virt v n 0) => ok ((s.popToDist c (.eoi virt v n 0)).eoiArrives virt v n)
  | _ => ok s

/-- RESIDENCY_MESSAGE (R272). -/
def execResidencyMessage (c : CoreId) (s : State) : Host.Outcome State Fault Refusal :=
  match s.dist.nextToDist c with
  | some (.residency v) => ok ((s.popToDist c (.residency v)).residencyArrives c v)
  | _ => ok s

/-- INTERRUPT_ACCEPT (R130, R132, R266, R267): at an instruction boundary of a running core, once a long operation in
flight has ended without a fault of its own, the first acceptable interrupt is taken. -/
def execInterruptAccept (c : CoreId) (s : State) : Host.Outcome State Fault Refusal :=
  let k := s.core c
  ok (if !k.ready || s.traceStalled c || k.irqNext.isNone then s else (s.boundary c).2)

/-- IRQ_EOI (R268): the write of a source number by a core that runs at H. -/
def execIrqEoi (c : CoreId) (v : BitVec 64) (s : State) : Host.Outcome State Fault Refusal :=
  let k := s.core c
  ok (if k.ready && k.level == .h then s.sysWrite c .IRQ_EOI [] v else s)

/-- VIRQ_EOI (R268): the write of a source number by a core that runs at K or H. -/
def execVirqEoi (c : CoreId) (v : BitVec 64) (s : State) : Host.Outcome State Fault Refusal :=
  let k := s.core c
  ok (if k.ready && k.level != .u then s.sysWrite c .VIRQ_EOI [] v else s)

/-! ### Compare timers of a core (R460) -/

/-- CTIM_CMP_WRITE: compare n of a core that runs at K or H is written. -/
def execCtimCmpWrite (c : CoreId) (n : Fin 2) (v : BitVec 64) (s : State) : Host.Outcome State Fault Refusal :=
  let k := s.core c
  ok (if k.ready && k.level != .u then s.sysWrite c .CTIM_CMP [n.val] v else s)

/-- CTIM_COMPARE_FIRE: an armed compare that device time has reached sets its PEND bit and disarms. -/
def execCtimCompareFire (c : CoreId) (n : Fin 2) (s : State) : Host.Outcome State Fault Refusal :=
  let k := s.core c
  let due := decide ((k.reg .CTIM_CMP [n.val]).toNat ≤ s.time) && (if n = 0 then k.armed0 else k.armed1)
  if k.run == .off || !due then ok s
  else
    let k := if n = 0 then { (k.setFld .CTIM_CTL [] .CTIM_CTL_PEND_0 1) with armed0 := false }
      else { (k.setFld .CTIM_CTL [] .CTIM_CTL_PEND_1 1) with armed1 := false }
    ok ((s.setCore c k).wakeCheck c)

end Sys2Proof.Machine
end

