-- ==== Sys2Proof/Machine/PcieIn.lean ====
section
/-! DEFINITION. Inbound memory requests from PCI Express (R326, R327): the inbound windows, and in endpoint mode BAR0 and
BAR2. -/

namespace Sys2Proof.Machine

/-- The size of the next access of a request to a slice page: naturally aligned, at most 8 bytes (R33). -/
def pageChunk (pa n : Nat) : Nat :=
  if pa % 8 = 0 ∧ 8 ≤ n then 8 else if pa % 4 = 0 ∧ 4 ≤ n then 4 else if pa % 2 = 0 ∧ 2 ≤ n then 2 else 1

/-- The page address of an offset in BAR0, and the slice it belongs to; none: Fetas names no slice there (R327). -/
def barPage (l : List Nat) (off : Nat) : Option (Nat × Nat) := (l[off / 4096]?).map fun n => (sliceBase + n * 4096 + off % 4096, n)

/-- A read of n bytes of BAR0. -/
def State.barRead (s : State) (l : List Nat) : Nat → Nat → Nat → List Byte × State
  | 0, _, _ => ([], s)
  | fuel + 1, off, n =>
    match barPage l off with
    | none => ([], s)
    | some (pa, k) =>
      if n = 0 then ([], s)
      else
        let z := pageChunk pa n
        match s.unitRead (.far (s.slicePid k)) pa z with
        | (v, s) => match s.barRead l fuel (off + z) (n - z) with
          | (d, s) => (toLe v z ++ d, s)

/-- A write of bytes to BAR0. -/
def State.barWrite (s : State) (l : List Nat) : Nat → Nat → List Byte → State
  | 0, _, _ => s
  | fuel + 1, off, d =>
    match barPage l off with
    | none => s
    | some (pa, k) =>
      if d.isEmpty then s
      else
        let z := pageChunk pa d.length
        (s.unitWrite (.far (s.slicePid k)) pa z (leNat (d.take z))).barWrite l fuel (off + z) (d.drop z)

/-- A range of BAR0: the slices named and the offset, when every byte lies in a named slice's page. -/
def State.bar0 (s : State) (a n : Nat) : Option (List Nat × Nat) :=
  if !s.pcieEnd then none
  else match s.pcie.tables.bar0 with
    | none => none
    | some (b, l) => if b ≤ a ∧ a + n ≤ b + 2 ^ 18 ∧ (barPage (l.take 64) (a + n - 1 - b)).isSome then some (l.take 64, a - b) else none

/-- The inbound window that a range lies in with the right it needs, and its offset there: BAR2 maps one window (R326, R327). -/
def State.inWindow (s : State) (a n : Nat) (write : Bool) : Option (PcieIn × Nat) :=
  let right (w : PcieIn) : Bool := if write then w.w else w.r
  let bar2 := if !s.pcieEnd then none else s.pcie.tables.bar2.bind fun b => match s.pcie.inWins.get none b.2 with
    | some w => if b.1 ≤ a ∧ a + n ≤ b.1 + w.size ∧ right w then some (w, a - b.1) else none
    | none => none
  match bar2 with
  | some x => some x
  | none =>
    ((s.pcie.inWins.filterMap fun e => e.2).find? fun w => decide (w.base ≤ a) && decide (a + n ≤ w.base + w.size) && right w).map
      fun w => (w, a - w.base)

/-- PCIE_INBOUND_REQUEST: a memory request of len bytes at a PCI Express address reaches the slice pages behind BAR0, or an
inbound window, whose PID tag it carries; another is refused. A write carries its data; the answer of a read is its first
eight bytes. A request that must wait for its home has no effect: its sender holds it (log entry 98). One whose ECRC is wrong is
discarded; a poisoned write leaves poison in memory, and nothing in a slice page (R324; log entry 103). -/
def execPcieInboundRequest (write : Bool) (addr : BitVec 64) (len : Fin 4097) (data : List Byte) (s : State) (tlp : Tlp := .good) :
    Host.Outcome State Fault Refusal :=
  let a := addr.toNat
  if !s.pcieOn then ok s
  else if tlp = .badEcrc then ok s.aerNonFatal
  else
    let bad := write && tlp == .poisoned
    let s := if bad then s.aerNonFatal else s
    let n := if write then data.length else len.val
    match s.bar0 a n, s.inWindow a n write with
    | some (l, off), _ =>
      if bad then ok s
      else if write then ok (s.barWrite l data.length off data)
      else match s.barRead l n off n with
        | (d, s) => ok { s with answer := BitVec.ofNat 64 (leNat (d.take 8)) }
    | none, none => ok (s.pcieRefuse a)
    | none, some (w, off) =>
      let pa := w.pa + off
      if write then
        match s.ioWrite pa data (if bad then data.map fun _ => true else []) 16 w.pid with
        | (none, _) => ok s
        | (some _, s) => ok s
      else
        match s.ioRead pa n 16 w.pid with
        | (.ok d _, s) => ok { s with answer := BitVec.ofNat 64 (leNat (d.take 8)) }
        | (.bus, s) => ok (s.pcieRefuse a)
        | (.wait, _) => ok s

end Sys2Proof.Machine
end

