-- ==== Sys2Proof/Machine/Ratline.lean ====
section
/-! DEFINITION. The Ratline: the TAP, its instructions and its sessions (R490, R491). -/

namespace Sys2Proof.Machine

def State.updJtag (s : State) (f : Jtag → Jtag) : State := { s with jtag := f s.jtag }

/-- An instruction is selected. -/
def State.irSelect (s : State) (n : Nat) : State := s.updJtag fun j => { j with ir := n }

/-- IDCODE. -/
def execIdcode (s : State) : Host.Outcome State Fault Refusal := ok { s.irSelect 1 with answer := 0x19640E5B }

/-- The chain captures the balls, and takes what is shifted in. -/
def State.chainScan (s : State) (ir : Nat) (pins v : BitVec 169) : State :=
  s.updJtag fun j => { j with ir := ir, captured := pins, chain := v }

/-- SAMPLE/PRELOAD. -/
def execSamplePreload (pins v : BitVec 169) (s : State) : Host.Outcome State Fault Refusal := ok (s.chainScan 2 pins v)

/-- EXTEST: the balls are driven from the chain. -/
def execExtest (pins v : BitVec 169) (s : State) : Host.Outcome State Fault Refusal := ok (s.chainScan 3 pins v)

/-- CLAMP: the balls are driven from the chain, with BYPASS selected. -/
def execClamp (s : State) : Host.Outcome State Fault Refusal := ok (s.irSelect 4)

/-- HIGHZ. -/
def execHighz (s : State) : Host.Outcome State Fault Refusal := ok (s.irSelect 5)

/-- BYPASS: 0xFF, and every code with no instruction of its own. -/
def execBypass (s : State) : Host.Outcome State Fault Refusal := ok (s.irSelect 0xFF)

/-! ### Sessions -/

/-- A session ends, and its token with it. -/
def State.sessionEnd (s : State) : State :=
  match s.jtag.token with
  | some n => s.endToken n
  | none => s

/-- A session opens with a token of the scope given, in the words of an AUTHORISE; it cannot while 16 tokens are live. -/
def State.sessionOpen (s : State) (w : List Nat) : State :=
  let w1 := w.getD 0 0
  let ms := w.getD 3 0
  if 16 ≤ s.fe.tokens.length ∨ ms = 0 ∨ 86400000 < ms then s
  else
    let n := s.fe.tokenNext
    let t : Token := { num := n, vmid := w1 % 8192, k := w1.testBit 16, h := w1.testBit 17, sealedOk := w1.testBit 18, all := w1.testBit 19,
                       mask := BitVec.ofNat 64 (w.getD 1 0 + w.getD 2 0 * 2 ^ 32), ends := s.time + ms * 1000000 }
    let s := { s with fe := { s.fe with tokens := s.fe.tokens ++ [t], tokenNext := n + 1 } }
    (s.updJtag fun j => { j with token := some n, nonce := none }).applyTokens

/-- Every scope, for every core, for as long as a token lasts. -/
def scopeAll : List Nat := [0xF0000, 0xFFFFFFFF, 0xFFFFFFFF, 86400000]

/-- CHALLENGE: a fresh nonce, after the end of any session; a Blank part opens a session at once. -/
def execChallenge (s : State) : Host.Outcome State Fault Refusal :=
  let s := (s.irSelect 0x11).sessionEnd
  if !s.fetasUp then ok s
  else
    match s.freshBytes 32 with
    | (b, s) =>
      let s := s.updJtag fun j => { j with nonce := some b }
      ok (if s.lifecycle = 0 then s.sessionOpen scopeAll else s)

/-- The debug public keys that the lifecycle state accepts. -/
def State.debugKeys (s : State) : Option Bytes :=
  if s.lifecycle = 0 then none else if s.lifecycle = 3 then some Config.tilDbgKey else some s.fe.dbgKey

/-- A RESPONSE to the latest nonce passes (R497): its scope. -/
def State.responseScope (s : State) (b : Bytes) : Option (List Nat) :=
  match s.jtag.nonce, s.debugKeys with
  | some nonce, some keys =>
    let scope := piece b 3405 16
    let d := sha384 (nonce ++ toLe Config.dieId.toNat 16 ++ scope)
    let w := (List.range 4).map fun i => le32 scope (4 * i)
    if b.length = 3421 ∧ keys.length = 2049 ∧ ecdsaVerify (piece keys 0 97) d (piece b 0 96) ∧
        mldsaVerify (piece keys 97 1952) d (piece b 96 3309) then some w
    else none
  | _, _ => none

/-- RESPONSE. -/
def execResponse (b : List Byte) (s : State) : Host.Outcome State Fault Refusal :=
  let s := s.irSelect 0x12
  if !s.fetasUp || s.jtag.token.isSome then ok s
  else
    match s.responseScope b with
    | some w => ok (s.sessionOpen w)
    | none => ok s

/-- TRST_N ends a session and resets the TAP. -/
def execTrstN (s : State) : Host.Outcome State Fault Refusal :=
  let s := s.sessionEnd
  ok (s.updJtag fun j => { j with ir := 1, nonce := none })

/-! ### Debug access -/

/-- An address is in reach of a session: the debug view of a core that its token covers, Halyard, and the telltales. -/
def dapReach (t : Token) (pa : Nat) : Bool :=
  let u := (pa - unitBase) / 2 ^ 24
  decide (unitBase ≤ pa ∧ pa < unitEnd) && (u == 10 || u == 11 ||
    (decide (16 ≤ u ∧ u < 32) && t.mask.getLsbD ((u - 16) * 4 + (pa - unitBase) % 2 ^ 24 / 2 ^ 22)))

/-- DAP: one access through the 80-bit register; with no session, and out of reach, it returns zero and writes nothing. -/
def execDap (v : BitVec 80) (s : State) : Host.Outcome State Fault Refusal :=
  let s := { s.irSelect 0x10 with answer := 0 }
  let pa := v.toNat / 2 ^ 34
  match s.jtag.token.bind fun n => s.fe.tokens.find? fun t => t.num == n with
  | none => ok s
  | some t =>
    if !dapReach t pa || pa % 4 != 0 then ok s
    else if v.toNat / 2 ^ 32 % 4 = 1 then
      match s.busRead .dap pa 4 with
      | (d, s) => ok { s with answer := BitVec.ofNat 64 d }
    else if v.toNat / 2 ^ 32 % 4 = 2 then ok (s.busWrite .dap pa 4 (v.toNat % 2 ^ 32))
    else ok s

end Sys2Proof.Machine
end

