-- ==== Sys2Proof/Machine/Shroud.lean ====
section
/-! DEFINITION. The Shroud, its port, its audit trail and the SHROUD group of the FSI (R369, R434 to R458). What its
firmware does reaches the model as commands (log entry 49). -/

namespace Sys2Proof.Machine

def State.updShr (s : State) (f : Shroud → Shroud) : State := { s with shr := f s.shr }

/-- The Shroud runs, and its eMRAM takes writes. -/
def State.shrOn (s : State) : Bool := s.part.shroud && !s.shr.off && !s.shr.held && !s.shr.booting && !s.shr.low

/-- Its firmware runs. -/
def State.shrFw (s : State) : Bool := s.shrOn && s.shr.ident.isSome

/-! ### The main side of the port (R448, R450, R453) -/

def State.linked (s : State) : Bool := s.pdUp 2 && flag (s.reg .SHR_PORT_STAT) .SHR_PORT_STAT_LINK

/-- A source of the port, enabled at the unit. -/
def State.shrSource (s : State) (i : Nat) : State :=
  if (s.reg .SHR_CFG).getLsbD i then s.pulse (448 + i) else s

/-- An event of the SHROUD group, for the control mailboxes and the client slice. -/
def State.shrEvent (s : State) (code : Nat) (data : List Nat) : State :=
  if s.fetasUp then s.feEvent code data s.fe.names.client.toList else s

/-- The main side follows the seal, the event counter and the firmware's identification while the link is up. -/
def State.portSync (s : State) : State :=
  if !s.linked then s
  else
    let now := s.fld .SEAL_STAT [] .SEAL_STAT_SEAL
    let s := if s.fld .SHR_PORT_STAT [] .SHR_PORT_STAT_SEAL = now then s
      else ((s.setFld .SHR_PORT_STAT [] .SHR_PORT_STAT_SEAL now).shrSource 0).shrEvent 0x0A81 [now, s.shr.evcnt]
    let s := if s.fld .SHR_EVCNT [] .SHR_EVCNT_COUNT = s.shr.evcnt then s
      else (s.setFld .SHR_EVCNT [] .SHR_EVCNT_COUNT s.shr.evcnt).shrSource 2
    let s := s.setFld .SHR_PORT_STAT [] .SHR_PORT_STAT_FW (b2n s.shr.ident.isSome)
    { s with fe := { s.fe with shroudId := s.shr.ident.getD 0 } }

/-! ### The audit trail (R451 to R455) -/

def trailMax : Nat := 16384
def evMax : Nat := 0xFFFFFFFF

def Shroud.room (x : Shroud) : Nat := trailMax - x.trail.length

/-- KIND 0x03 and 0x04 count. -/
def countedKind (kind : Nat) : Bool := kind == 3 || kind == 4

/-- Append an entry: a counted one always, another while at least 256 are free. -/
def Shroud.append (x : Shroud) (kind areas detail : Nat) : Shroud :=
  let ev := if countedKind kind then min evMax (x.evcnt + 1) else x.evcnt
  let e : AuditEntry := { kind := kind, areas := areas, tick := x.tick % 2 ^ 48, evcnt := ev, detail := detail, ident := x.ident.getD 0 }
  if countedKind kind || decide (256 ≤ x.room) then { x with trail := x.trail ++ [e], evcnt := ev } else { x with lost := x.lost + 1 }

/-- The 64 bytes of an entry. -/
def AuditEntry.bytes (e : AuditEntry) (index : Nat) : Bytes :=
  let b := toLe index 4 ++ toLe e.kind 1 ++ toLe e.areas 1 ++ zeros 2 ++ toLe e.tick 8 ++ toLe e.evcnt 4 ++ toLe e.detail 4 ++
    toLe e.ident.toNat 32 ++ zeros 4
  b ++ toLe (crc32c b).toNat 4

/-- SEAL_STAT and the main side follow the session and the trail. -/
def State.sealSync (s : State) : State :=
  let session := flag (s.reg .SEAL_STAT) .SEAL_STAT_SESSION
  let dirty := session && (s.shr.marker.getD 0 != 0)
  let full := decide (s.shr.room < 2) || decide (evMax ≤ s.shr.evcnt)
  ((s.setFld .SEAL_STAT [] .SEAL_STAT_DIRTY (b2n dirty)).setFld .SEAL_STAT [] .SEAL_STAT_FULL (b2n full)).portSync

/-- An entry is appended; the supervisor refuses it while the supply is low. -/
def State.audit (s : State) (kind areas detail : Nat) : State :=
  if s.shr.low then s else (s.updShr fun x => x.append kind areas detail).sealSync

/-! ### Sessions (R451, R452) -/

/-- Why a session may not open: a reason code of R447, 0 when it may. -/
def State.sealRefusal (s : State) : Nat :=
  if !flag (s.reg .SEAL_STAT) .SEAL_STAT_SEAL then 1
  else if s.shr.room < 2 then 2
  else if evMax ≤ s.shr.evcnt then 3
  else 0

def State.sealOpen (s : State) : State :=
  if flag (s.reg .SEAL_STAT) .SEAL_STAT_SESSION || s.shr.low || s.sealRefusal != 0 then s
  else ((s.updShr fun x => { x with marker := some (x.marker.getD 0) }).setFld .SEAL_STAT [] .SEAL_STAT_SESSION 1).sealSync

/-- A write to a protected area of an open session: the marker holds its area before it goes on. -/
def State.sealTouch (s : State) (area : Nat) : State :=
  (s.updShr fun x => { x with marker := x.marker.map fun a => a ||| 2 ^ area }).sealSync

/-- The session closes; a dirty one is one change. While the supply is low its marker stands. -/
def State.sealClose (s : State) : State :=
  if !flag (s.reg .SEAL_STAT) .SEAL_STAT_SESSION then s
  else
    let s := s.setFld .SEAL_STAT [] .SEAL_STAT_SESSION 0
    let areas := s.shr.marker.getD 0
    if areas = 0 then (s.updShr fun x => { x with marker := none }).sealSync
    else if s.shr.low then s.sealSync
    else ((s.audit 3 areas 0).updShr fun x => { x with marker := none }).sealSync

/-- SEAL_OPEN: firmware writes SEAL_CTL.OPEN. -/
def execSealOpen (s : State) : Host.Outcome State Fault Refusal := ok (if s.shrFw then s.sealOpen else s)

/-- SEAL_CLOSE: firmware writes SEAL_CTL.CLOSE. -/
def execSealClose (s : State) : Host.Outcome State Fault Refusal := ok (if s.shrFw then s.sealClose else s)

/-- The filtered SEAL_N changes (R450). -/
def State.sealMove (s : State) (asserted : Bool) : State :=
  if flag (s.reg .SEAL_STAT) .SEAL_STAT_SEAL == asserted then s
  else
    let s := if asserted then s else s.sealClose
    (s.setFld .SEAL_STAT [] .SEAL_STAT_SEAL (b2n asserted)).audit (if asserted then 1 else 2) 0 0 |>.sealSync

/-- SEAL_CHANGE: the filtered input takes a level; the ROM appends its entry when it runs. -/
def execSealChange (asserted : Bool) (s : State) : Host.Outcome State Fault Refusal :=
  let s := s.updShr fun x => { x with pin := asserted }
  if !s.part.shroud || s.shr.off || s.shr.held || s.shr.booting then ok s else ok (s.sealMove asserted)

/-! ### Reset and the checks of the ROM (R436 to R439, R452, R456) -/

/-- The base of a firmware bank. -/
def shrBank (b : Bool) : Nat := if b then 0x10200000 else 0x10000000
def shrBankLen : Nat := 0x200000

def Shroud.peek (x : Shroud) (a n : Nat) : Bytes := (List.range n).map fun i => Memory.read x.mem (a + i)

/-- The identification of the image in a bank, when it passes against the maker key. -/
def State.shrImage (s : State) (b : Bool) : Option (BitVec 256) :=
  match s.shr.maker with
  | none => none
  | some kh =>
    let img := signedAt (s.shr.peek (shrBank b)) shrBankLen
    (s.verifyImage 4 (some kh) img).map fun _ => BitVec.ofNat 256 (leNat (sha256 img))

/-- The ROM starts: a change cut short is counted, the reset is noted, and the active bank is checked, then the other. -/
def State.shrBoot (s : State) : State :=
  let s := s.updShr fun x => { x with booting := false }
  let areas := s.shr.marker.getD 0
  let s := if areas = 0 then s else s.audit 4 areas 0
  let s := (s.updShr fun x => { x with marker := none }).audit 5 0 s.shr.cause
  let s := s.updShr fun x => { x with cause := 0 }
  let s :=
    if s.shr.maker.isNone then s
    else
      match s.shrImage s.shr.useB with
      | some i => s.updShr fun x => { x with ident := some i }
      | none =>
        let s := s.audit 6 0 (b2n s.shr.useB)
        match s.shrImage !s.shr.useB with
        | some i => (s.updShr fun x => { x with ident := some i, useB := !x.useB }).audit 3 8 0
        | none => s
  (s.sealMove s.shr.pin).sealSync

/-- The cores are reset: what they were doing is lost, and the session is closed with its marker as it stands. -/
def State.shrReset (s : State) (cause : Nat) : State :=
  let s := s.updShr fun x => { x with ident := none, waiting := [], rom := [], cause := x.cause ||| cause }
  (s.setFld .SEAL_STAT [] .SEAL_STAT_SESSION 0).sealSync

/-- The ROM goes on by itself after a reset that nothing holds. -/
def State.shrRestart (s : State) : State :=
  if s.shr.low then s.updShr fun x => { x with booting := true } else s.shrBoot

/-- VDD_SHR is gone: what is not in eMRAM or OTP is lost, but for the tick count, which stands. -/
def State.shrLose (s : State) : State :=
  let s := s.updShr fun x => { x with off := true, low := true, booting := false, mem := x.mem.filter (fun c => decide (2 ^ 20 ≤ c.1)), adc := [],
                                      pulse := [], sm := [], fails := 0, failTick := none, xtFail := false }
  { s with regs := s.regs.filter fun e => addrPd e.1 != 1 }

/-- SHROUD_RESET: SHR_RST_N, a supply below 2.8 V, or a lockstep mismatch, after which the ROM starts again by itself. -/
def execShroudReset (cause : ShroudCause) (s : State) : Host.Outcome State Fault Refusal :=
  if !s.part.shroud || s.shr.off then ok s
  else
    match cause with
    | .pin => ok ((s.shrReset 1).updShr fun x => { x with held := true, booting := false })
    | .supply => ok ((s.shrReset 2).shrLose.updShr fun x => { x with held := true })
    | .mismatch => if s.shr.held then ok s else ok (s.shrReset 8).shrRestart

/-- SHROUD_WATCHDOG_EXPIRY. -/
def execShroudWatchdogExpiry (s : State) : Host.Outcome State Fault Refusal :=
  if !s.part.shroud || s.shr.off || s.shr.held then ok s else ok (s.shrReset 4).shrRestart

/-- SHROUD_RESET_RELEASE: SHR_RST_N rises, or VDD_SHR returns. -/
def execShroudResetRelease (s : State) : Host.Outcome State Fault Refusal :=
  if !s.part.shroud || !s.shr.held then ok s
  else ok (s.updShr fun x => { x with held := false, off := false }).shrRestart

/-- SHROUD_SUPPLY_LOW: VDD_SHR is below 3.0 V. -/
def execShroudSupplyLow (s : State) : Host.Outcome State Fault Refusal :=
  if !s.part.shroud then ok s else ok (s.updShr fun x => { x with low := true })

/-- SHROUD_SUPPLY_RECOVERY: VDD_SHR has stayed above 3.1 V for 1 ms. -/
def execShroudSupplyRecovery (s : State) : Host.Outcome State Fault Refusal :=
  if !s.part.shroud || s.shr.off then ok s
  else
    let s := s.updShr fun x => { x with low := false }
    ok (if s.shr.booting then s.shrBoot else s)

/-- SHR_XT32_FAIL: ticks go on from the internal oscillator, with an entry. -/
def execShrXt32Fail (s : State) : Host.Outcome State Fault Refusal :=
  if !s.part.shroud || s.shr.off || s.shr.xtFail then ok s
  else ok ((s.updShr fun x => { x with xtFail := true }).audit 5 0 0x10)

/-! ### Front ends (R441 to R443) -/

/-- LEVEL follows the FIFO of a channel. -/
def State.setAdc (s : State) (n : Nat) (l : List (BitVec 24)) : State :=
  (s.updShr fun x => { x with adc := x.adc.set [] n l }).setFld .ADC_CFG [n] .ADC_CFG_LEVEL (min 0xFFF l.length)

/-- ADC_SAMPLE: every enabled channel takes a sample; v holds 24 bits for each channel. -/
def execAdcSample (v : BitVec 192) (s : State) : Host.Outcome State Fault Refusal :=
  if !s.part.shroud || s.shr.off then ok s
  else ok ((List.range 8).foldl (fun s n =>
    if !flag (s.reg .ADC_CFG [n]) .ADC_CFG_EN then s
    else
      let l := s.shr.adc.get [] n
      if 2048 ≤ l.length then s.setFld .ADC_CFG [n] .ADC_CFG_OVR 1 else s.setAdc n (l ++ [v.extractLsb' (24 * n) 24])) s)

/-- ADC_DATA_READ: firmware pops a sample, or reads 0x8000_0000. -/
def execAdcDataRead (n : Fin 8) (s : State) : Host.Outcome State Fault Refusal :=
  if !s.shrFw then ok s
  else
    match s.shr.adc.get [] n.val with
    | [] => ok { s with answer := 0x80000000 }
    | v :: l =>
      let s := s.setAdc n.val l
      ok { s with answer := (v.signExtend 32).setWidth 64 }

/-- PULSE_EDGE: an input accepts an edge whose transition began at ts. -/
def execPulseEdge (n : Fin 8) (rising : Bool) (ts : BitVec 64) (s : State) : Host.Outcome State Fault Refusal :=
  let r := s.reg .PULSE_CFG [n.val]
  if !s.part.shroud || s.shr.off || !flag r .PULSE_CFG_EN then ok s
  else
    let p := s.shr.pulse.get {} n.val
    let p := if rising != flag r .PULSE_CFG_POL then { p with count := p.count + 1 } else p
    let p := if rising then { p with rise := ts, pair := false, risen := true }
      else { p with fall := ts, pair := p.pair || p.risen, risen := false }
    ok (s.updShr fun x => { x with pulse := x.pulse.set {} n.val p })

/-- A snapshot of the inputs named. -/
def State.pulseSnap (s : State) (go : Nat) : State :=
  (List.range 8).foldl (fun s n =>
    if !go.testBit n then s
    else
      let p := s.shr.pulse.get {} n
      (((s.setReg .PULSE_SNAP_CNT [n] p.count).setReg .PULSE_SNAP_RISE [n] p.rise).setReg .PULSE_SNAP_FALL [n] p.fall).setFld
        .PULSE_CFG [n] .PULSE_CFG_PAIR (b2n p.pair)) s

/-- PULSE_SNAP: firmware writes GO. -/
def execPulseSnap (go : BitVec 8) (s : State) : Host.Outcome State Fault Refusal :=
  ok (if s.shrFw then s.pulseSnap go.toNat else s)

/-! ### What firmware writes (R440, R441, R451) -/

/-- A 32-bit write of a Shroud register. -/
def State.shrRegWrite (s : State) (off v : Nat) : State :=
  match lookReg regsShroud off with
  | none => s
  | some (r, idx, _) =>
    let w : Word := BitVec.ofNat 64 v
    let old := s.reg r idx
    let new := r.spec.written old w lanes32
    match r with
    | .SEAL_CTL =>
      let s := if flag w .SEAL_CTL_CLOSE then s.sealClose else s
      if flag w .SEAL_CTL_OPEN then s.sealOpen else s
    | .ADC_CTL => if 6 ≤ v % 8 then s else s.setReg r idx new
    | .ADC_CFG =>
      let g := bits new .ADC_CFG_GAIN
      s.setReg r idx (if 6 ≤ g then putBits new .ADC_CFG_GAIN (bits old .ADC_CFG_GAIN) else new)
    | .PULSE_SNAP => s.pulseSnap (v % 256)
    | _ => if r.spec.wide then s else s.setReg r idx new

/-- A write by firmware at K in the Shroud's address space; one that R440 does not permit writes nothing. -/
def State.shrWrite (s : State) (a size v : Nat) : State :=
  let put (s : State) : State := s.updShr fun x => { x with mem := Memory.writeN x.mem a v size }
  if !s.shrFw then s
  else if 0x20000000 ≤ a ∧ a + size ≤ 0x20010000 then
    if size = 4 then s.shrRegWrite (a - 0x20000000) v
    else if size = 8 then (s.shrRegWrite (a - 0x20000000) (v % 2 ^ 32)).shrRegWrite (a - 0x20000000 + 4) (v / 2 ^ 32)
    else s
  else if a + size ≤ 0xFC000 then put s
  else if 0x10400000 ≤ a ∧ a + size ≤ 0x10480000 then
    if flag (s.reg .SEAL_STAT) .SEAL_STAT_SESSION then put (s.sealTouch 0) else s
  else if 0x10600000 ≤ a ∧ a + size ≤ 0x10800000 then put s
  else s

/-! ### Messages (R444, R445) -/

def portKeyBytes : Bytes := toLe Config.portKey.toNat 32

/-- A window: header, payload and TAG. -/
def portMsg (counter typ dir reason acked : Nat) (pay : Bytes) : Bytes :=
  let head := toLe counter 8 ++ toLe pay.length 2 ++ toLe typ 2 ++ toLe dir 2 ++ toLe reason 2 ++ toLe acked 8 ++ zeros 8
  head ++ pay ++ zeros (4032 - pay.length) ++ hmac256 portKeyBytes (head ++ pay)

def dirMs : Nat := 0x4D53
def dirSm : Nat := 0x534D

def msgCounter (w : Bytes) : Nat := le64 w 0
def msgLen (w : Bytes) : Nat := le16 w 8
def msgType (w : Bytes) : Nat := le16 w 0xA
def msgPay (w : Bytes) : Bytes := piece w 0x20 (msgLen w)

/-- Why a window is refused: 0 for none, 1 its tag, 2 its counter, 3 its direction or a reserved field. -/
def msgFault (w : Bytes) (dir last : Nat) : Nat :=
  let tag := hmac256 portKeyBytes (w.take (0x20 + msgLen w))
  if w.length ≠ 4096 ∨ 4032 < msgLen w ∨ tag ≠ piece w 0xFE0 32 then 1
  else if le16 w 0xC ≠ dir ∨ !zeroAt w 0x18 8 ∨ (msgType w ≠ 0 ∧ !(zeroAt w 0xE 2 && zeroAt w 0x10 8)) then 3
  else if msgCounter w ≤ last then 2
  else 0

/-- The Shroud sends a message, its counter durable first. -/
def State.shrSend (s : State) (typ reason acked : Nat) (pay : Bytes) : State :=
  s.updShr fun x => { x with smCount := x.smCount + 1, sm := x.sm ++ [portMsg (x.smCount + 1) typ dirSm reason acked pay] }

def State.shrAck (s : State) (counter reason : Nat) : State := s.shrSend 0 reason counter []

/-- An authentication failure: at most one entry for each Shroud second (R445). -/
def State.shrFail (s : State) : State :=
  let s := s.updShr fun x => { x with fails := x.fails + 1 }
  let due := match s.shr.failTick with | none => true | some t => decide (t + 32768 ≤ s.shr.tick)
  if due then (s.audit 7 0 s.shr.fails).updShr fun x => { x with fails := 0, failTick := some x.tick } else s

/-- The words of a window. -/
def State.portWindow (s : State) (r : Reg) : Bytes := (List.range 1024).flatMap fun w => toLe (s.reg r [w]).toNat 4

def State.setWindow (s : State) (r : Reg) (b : Bytes) : State :=
  (List.range 1024).foldl (fun s w => s.setReg r [w] (BitVec.ofNat 64 (le32 b (4 * w)))) s

/-- MS_MESSAGE (R446): the engine copies the window that Fetas has rung, or one with any contents, and checks it. -/
def execMsMessage (w : Option (List Byte)) (s : State) : Host.Outcome State Fault Refusal :=
  if !s.shrOn || (w.isNone && !s.shr.rung) then ok s
  else
    let b := w.getD (s.portWindow .SHR_MS)
    let s := if w.isNone then s.updShr fun x => { x with rung := false } else s
    let n := msgCounter b
    let t := msgType b
    if msgFault b dirMs s.shr.msLast ≠ 0 then ok (s.shrFail.shrAck n 8)
    else
      let s := s.updShr fun x => { x with msLast := n }
      if 0xF0 ≤ t ∧ t ≤ 0xF3 then ok (s.updShr fun x => { x with rom := x.rom ++ [(n, t, msgPay b)] })
      else if t < 0x100 then ok (s.shrAck n 5)
      else if s.shr.ident.isNone then ok (s.shrAck n 6)
      else ok (s.updShr fun x => { x with waiting := x.waiting ++ [n] })

/-- The oldest firmware message that is not answered gets its one ACK. -/
def State.shrAnswer (s : State) (reason : Nat) : State :=
  match s.shr.waiting with
  | [] => s
  | n :: l => (s.updShr fun x => { x with waiting := l }).shrAck n reason

/-- SHR_ACK: firmware answers. -/
def execShrAck (reason : BitVec 16) (s : State) : Host.Outcome State Fault Refusal :=
  ok (if s.shrFw then s.shrAnswer reason.toNat else s)

/-- SHR_ACK_TIMEOUT: firmware has not answered within 1 ms. -/
def execShrAckTimeout (s : State) : Host.Outcome State Fault Refusal := ok (if s.shrOn then s.shrAnswer 0xFE else s)

/-! ### ROM services (R449) -/

/-- The oldest service message, when it is of a TYPE, handled. -/
def State.shrService (s : State) (typ : Nat) (act : Nat → Bytes → State → State) : State :=
  if !s.shrOn then s
  else
    match s.shr.rom with
    | (n, t, pay) :: l => if t = typ then act n pay (s.updShr fun x => { x with rom := l }) else s
    | [] => s

/-- A payload that the service does not define: nothing is done, and the reason is free. -/
def State.shrMalformed (s : State) (n : Nat) : State :=
  match s.fresh with
  | (w, s) => s.shrAck n (w.toNat % 2 ^ 16)

/-- PROVISION: the key hash of the maker goes into the OTP, a change of its own. -/
def execProvision (s : State) : Host.Outcome State Fault Refusal :=
  ok (s.shrService 0xF0 fun n pay s =>
    if s.sealRefusal = 1 then s.shrAck n 1
    else if s.shr.maker.isSome then s.shrAck n 7
    else if s.sealRefusal ≠ 0 then s.shrAck n s.sealRefusal
    else if pay.length ≠ 48 then s.shrMalformed n
    else ((s.updShr fun x => { x with maker := some (BitVec.ofNat 384 (beNat pay)) }).audit 3 16 0).shrAck n 0)

/-- LOAD: image bytes go to the inactive bank, in a session that the ROM opens when none is. -/
def execLoad (s : State) : Host.Outcome State Fault Refusal :=
  ok (s.shrService 0xF1 fun n pay s =>
    if s.sealRefusal ≠ 0 then s.shrAck n s.sealRefusal
    else
      let off := le64 pay 0
      let data := pay.drop 8
      if pay.length < 8 ∨ 4024 < data.length ∨ shrBankLen < off + data.length then s.shrMalformed n
      else
        let b := !s.shr.useB
        let s := s.sealOpen.sealTouch (if b then 2 else 1)
        (s.updShr fun x => { x with mem := Memory.writeN x.mem (shrBank b + off) (leNat data) data.length }).shrAck n 0)

/-- ACTIVATE: the inactive bank is verified and becomes active, the session closes, and the ROM resets the Shroud. -/
def execActivate (s : State) : Host.Outcome State Fault Refusal :=
  ok (s.shrService 0xF2 fun n _ s =>
    if s.sealRefusal ≠ 0 then s.shrAck n s.sealRefusal
    else if (s.shrImage !s.shr.useB).isNone then (s.sealClose).shrAck n 4
    else
      let s := s.sealOpen.sealTouch 3
      let s := (s.updShr fun x => { x with useB := !x.useB }).sealClose
      ((s.shrAck n 0).shrReset 0).shrRestart)

/-- Up to 63 entries of the trail from an index on. -/
def Shroud.entries (x : Shroud) (first : Nat) : Bytes :=
  (List.range 63).flatMap fun i => match x.trail[first + i]? with
    | some e => e.bytes (first + i)
    | none => []

/-- AUDIT_READ. -/
def execAuditRead (s : State) : Host.Outcome State Fault Refusal :=
  ok (s.shrService 0xF3 fun n pay s =>
    if pay.length ≠ 4 then s.shrMalformed n else s.shrSend 0xF3 0 0 (s.shr.entries (leNat pay)))

/-! ### How Fetas serves the port (R448) -/

/-- Fetas serves the port. -/
def State.portServed (s : State) : Bool := s.linked && s.fetasUp && flag (s.reg .SHR_CFG) .SHR_CFG_EN

/-- The next message waiting is written and rung, its counter durable first. -/
def State.portNext (s : State) : State :=
  match s.fe.shrWait, s.fe.shrOut with
  | none, (id, typ, pay) :: l =>
    let n := s.fe.msCount + 1
    let s := { s with fe := { s.fe with msCount := n, shrOut := l, shrWait := some (id, n, typ) } }
    (s.setWindow .SHR_MS (portMsg n typ dirMs 0 0 pay)).updShr fun x => { x with rung := true }
  | _, _ => s

/-- The message that waits has its answer. -/
def State.portDone (s : State) (id : Nat) (a : Ans) : State :=
  ({ s with fe := { s.fe with shrWait := none } }.opEnd id a).portNext

/-- An ACK is consumed: it ends the command whose message it answers. -/
def State.portAck (s : State) (acked reason : Nat) : State :=
  match s.fe.shrWait with
  | some (id, n, _) =>
    if n ≠ acked then s
    else s.portDone id (if reason = 0 then { res := lohi n } else { status := stDenied, detail := reason })
  | none => s

/-- Entries of the trail are written to the descriptor of the AUDIT that asked for them; none while memory is waited for. -/
def State.portAudit (s : State) (pay : Bytes) : Option State :=
  match s.fe.shrWait with
  | some (id, _, 0xF3) =>
    (match s.fsi.ops.find? fun o => o.req.id == id with
    | none => some { s with fe := { s.fe with shrWait := none } }.portNext
    | some o =>
      let c : Call := { id := id, box := o.req.box, words := o.req.words, vmid := 0, pa := 0 }
      let n := min (pay.length / 64) (c.len / 64)
      match s.descPa c false with
      | none => some (s.portDone id { status := stBadArgument, detail := 0x10 })
      | some pa =>
        if n = 0 then some (s.portDone id { res := [0] })
        else
          match s.ioWrite pa (pay.take (64 * n)) [] 18 with
          | (none, _) => none
          | (some _, s) => some (s.portDone id { res := [n] }))
  | _ => some s

/-- A window that fails is discarded, counted and captured (R445). -/
def State.portBad (s : State) (kind : Nat) : State :=
  let s := s.count .shroud
  let n := satAdd 0xFFFF (s.fld .SHR_ERR_COUNT [] .SHR_ERR_COUNT_COUNT) 1
  let s := s.setFld .SHR_ERR_COUNT [] .SHR_ERR_COUNT_COUNT n
  match s.capture .SHR_ERR_STATUS [] (kind * 4) with
  | (true, s) => s.shrSource 3
  | (false, s) => s

/-- What the main side does with a window that passed its checks (R444, R447). -/
def State.portRead (s : State) (w : Bytes) : Option State :=
  let t := msgType w
  if t = 0 then some (s.portAck (le64 w 0x10) (le16 w 0xE))
  else if t = 0xF3 then s.portAudit (msgPay w)
  else if t < 0x100 then some s
  else
    let s := { s with fe := { s.fe with shrHeld := s.fe.shrHeld ++ [(msgCounter w, msgPay w)] } }
    let s := s.setFld .SHR_PORT_STAT [] .SHR_PORT_STAT_RX_HELD (b2n (decide (16 ≤ s.fe.shrHeld.length)))
    some (s.shrEvent 0x0A80 [msgLen w])

/-- The checks of a window that stands in SHR_SM (R445). -/
def State.portCheck (s : State) (w : Bytes) : Option State :=
  let k := msgFault w dirSm s.fe.smLast
  if k ≠ 0 then some (s.portBad k) else { s with fe := { s.fe with smLast := msgCounter w } }.portRead w

/-- The main side takes a window; none while memory is waited for. -/
def State.portIn (s : State) (w : Bytes) : Option State := (s.setWindow .SHR_SM w).portCheck w

/-- A window must stay where it is: the port is not served, or 16 messages are held. -/
def State.portStays (s : State) (w : Bytes) : Bool :=
  !s.portServed || (decide (0x100 ≤ msgType w) && decide (16 ≤ s.fe.shrHeld.length))

/-- The oldest window is taken, when it may be. -/
def State.portTake (s : State) : State :=
  match s.shr.sm with
  | [] => s
  | w :: l => if s.portStays w then s else ((s.updShr fun x => { x with sm := l }).portIn w).getD s

/-- SM_MESSAGE (R448). -/
def execSmMessage (m : SmIn) (s : State) : Host.Outcome State Fault Refusal :=
  match m with
  | .next => ok s.portTake
  | .firmware typ pay =>
    if !s.shrFw || decide (typ.toNat < 0x100) || decide (4032 < pay.length) then ok s
    else ok (s.shrSend typ.toNat 0 0 pay).portTake
  | .raw w => if !s.part.shroud || s.portStays w then ok s else ok ((s.portIn w).getD s)

/-- LINK_BEACON: the engines exchange a beacon. -/
def execLinkBeacon (s : State) : Host.Outcome State Fault Refusal :=
  if !s.part.shroud || s.shr.off || s.shr.held || !s.pdUp 2 then ok s
  else if s.linked then ok s.portSync
  else ok ((s.setFld .SHR_PORT_STAT [] .SHR_PORT_STAT_LINK 1).shrSource 1).portSync

/-- LINK_LOSS: no beacon for 4 ms. -/
def execLinkLoss (s : State) : Host.Outcome State Fault Refusal :=
  if !s.linked then ok s
  else ok ((s.setFld .SHR_PORT_STAT [] .SHR_PORT_STAT_LINK 0).shrSource 1).portDown

/-! ### The SHROUD group (R369) -/

def onPort (_ : Call) (_ : State) : List Obj := [.shroud]

/-- SHROUD STATUS. -/
def execShroudStatus (s : State) : Host.Outcome State Fault Refusal :=
  ok (s.command { code := 0xA01, t := true, client := true, free := true } noBad anyLen onPort fun _ s =>
    if !s.linked then s.ans stNoResource
    else s.yes ([s.fld .SHR_PORT_STAT [] .SHR_PORT_STAT_SEAL, s.fld .SHR_EVCNT [] .SHR_EVCNT_COUNT] ++
      (List.range 8).map fun i => s.fe.shroudId.toNat / 2 ^ (32 * i) % 2 ^ 32))

/-- SHROUD SEND: it ends with its ACK. -/
def execShroudSend (s : State) : Host.Outcome State Fault Refusal :=
  ok (s.command { code := 0xA02, t := true, client := true, dir := .inward } noBad (fun c => decide (c.len ≤ 4032)) onPort fun c s =>
    if !s.portServed then s.deny 9
    else s.readDesc c fun d s =>
      let fe := { s.fe with shrOut := s.fe.shrOut ++ [(c.id, Config.sendType d % 2 ^ 16, d)] }
      .op [.shroud] [] { s with fe := fe }.portNext)

/-- SHROUD RECEIVE: the oldest message held. -/
def execShroudReceive (s : State) : Host.Outcome State Fault Refusal :=
  ok (s.command { code := 0xA03, t := true, client := true, dir := .out } noBad (fun c => decide (4032 ≤ c.len)) onPort fun c s =>
    match s.fe.shrHeld with
    | [] => s.yes [0, 0, 0]
    | (n, pay) :: l =>
      let done (s : State) : CmdAns :=
        let s := { s with fe := { s.fe with shrHeld := l } }
        (s.setFld .SHR_PORT_STAT [] .SHR_PORT_STAT_RX_HELD 0).yes (pay.length :: lohi n)
      if pay.isEmpty then done s else s.writeDesc c pay done)

/-- SHROUD AUDIT: one AUDIT_READ (R449). -/
def execShroudAudit (s : State) : Host.Outcome State Fault Refusal :=
  ok (s.command { code := 0xA04, mask := [0xFFFFFFFF], t := true, client := true, dir := .out, free := true } noBad anyLen onPort fun c s =>
    if !s.portServed then s.deny 9
    else
      let fe := { s.fe with shrOut := s.fe.shrOut ++ [(c.id, 0xF3, toLe (c.w 1) 4)] }
      .op [.shroud] [] { s with fe := fe }.portNext)

end Sys2Proof.Machine
end

