-- ==== Sys2Proof/Machine/RegRows.lean ====
section
/-! DEFINITION. The commands that are an access of a register or a window by a sender (R14, R33, R166). Each is the access
itself, with every check of the bus; a read leaves what it returned in State.answer. -/

namespace Sys2Proof.Machine

/-- The bytes of an access size. -/
def accBytes : AccSize → Nat
  | .b1 => 1
  | .b2 => 2
  | .b4 => 4
  | .b8 => 8

/-- An access by a core that reaches the distributor comes after the EOIs of the core before it (R268). -/
def State.eoisFirst (s : State) (by' : Sender) (pa : Nat) : State :=
  match by' with
  | .core c => if inDist pa then s.distFlush c.val s.dist.toDist.length else s
  | _ => s

/-- A read by a sender. -/
def State.busR (s : State) (by' : Sender) (pa size : Nat) : State :=
  let s := s.eoisFirst by' pa
  let r := s.busRead (s.who by') pa size
  { r.2 with answer := BitVec.ofNat 64 r.1 }

/-- A write by a sender. -/
def State.busW (s : State) (by' : Sender) (pa size v : Nat) : State :=
  let s := s.eoisFirst by' pa
  s.busWrite (s.who by') pa size v

/-- A 32-bit write of a register by a sender. -/
def State.regW (s : State) (by' : Sender) (r : Reg) (idx : List Nat) (v : Nat) : State := s.busW by' (r.at idx) 4 v

/-- A 32-bit read of a register by a sender. -/
def State.regR (s : State) (by' : Sender) (r : Reg) (idx : List Nat) : State := s.busR by' (r.at idx) 4

/-- A 32-bit value with n bits from bit lo set to x. -/
def setBit (v lo n x : Nat) : Nat := (putBits (BitVec.ofNat 64 v) ⟨lo + n - 1, lo⟩ x).toNat

/-- REGISTER_WRITE (R14, R33): a write of 1, 2, 4 or 8 bytes to any address of the map, but for the PCI Express windows,
which have commands of their own, or by Shroud firmware to the Shroud's own space. An access that is not aligned to its size never reaches the bus (R33). -/
def execRegisterWrite (by' : Writer) (addr : BitVec 46) (size : AccSize) (v : BitVec 64) (s : State) :
    Host.Outcome State Fault Refusal :=
  if addr.toNat % accBytes size ≠ 0 then ok s
  else
    match by' with
    | .main w => ok (s.busW w addr.toNat (accBytes size) (v.toNat % 256 ^ accBytes size))
    | .shroud => ok (s.shrWrite addr.toNat (accBytes size) (v.toNat % 256 ^ accBytes size))

/-- DEVICE_LOAD_RESPONSE (R213, R215): the target of the outstanding Device load of a core answers, after every older Device
store of the core to its region. -/
def execDeviceLoadResponse (c : CoreId) (s : State) : Host.Outcome State Fault Refusal :=
  let k := s.core c
  match k.devLoad with
  | none => ok s
  | some d =>
    if inPcie d.pa || s.devAhead c d.pa then ok s
    else
      match s.devRead c d with
      | (.val v, s) => ok (s.loadDone c v)
      | (.bad, s) => ok (s.loadError c)
      | (.wait, s) => ok s

/-- DEVICE_STORE_ACK (R214, R215): the target of the i-th injected Device store of a core acts on it and acknowledges it,
unless an older one of the core to its region waits; a store to memory ends when its home acknowledges it. -/
def execDeviceStoreAck (c : CoreId) (i : Nat) (s : State) : Host.Outcome State Fault Refusal :=
  let k := s.core c
  match k.devOut[i]? with
  | none => ok s
  | some e =>
    if inPcie e.pa || (k.devOut.take i).any fun x => s.devRegion x.pa == s.devRegion e.pa then ok s
    else
      match s.devWrite c e with
      | (true, s) => ok (s.updCore c fun k => { k with devOut := k.devOut.take i ++ k.devOut.drop (i + 1) })
      | (false, s) => ok s

/-- ADDR_ERR_REPORT (R36): the oldest report of a stop reaches the map registers; it is lost while they are off. -/
def execAddrErrReport (stop : Fin 30) (s : State) : Host.Outcome State Fault Refusal :=
  match s.errReports.find? fun r => r.stop == stop.val with
  | none => ok s
  | some r =>
    let s := { s with errReports := s.errReports.erase r }
    if !s.pdUp 91 then ok s
    else
      let s := s.countFld .ADDR_ERR_COUNT [] .ADDR_ERR_COUNT_COUNT
      match s.capture .ADDR_ERR_STATUS [] (r.stop * 2 ^ 11 + b2n r.write * 2 ^ 10 + r.kind * 2 ^ 6) with
      | (false, s) => ok s
      | (true, s) =>
        let s := (s.setReg .ADDR_ERR_ADDR_LO [] (BitVec.ofNat 64 (r.pa % 2 ^ 32))).setReg .ADDR_ERR_ADDR_HI []
          (BitVec.ofNat 64 (r.pa / 2 ^ 32 % 2 ^ 14))
        ok ((s.setReg .ADDR_ERR_PID [] (r.pid.setWidth 64)).count .addrErr)

/-- ADDR_ERR_COUNT_READ (R36). -/
def execAddrErrCountRead (by' : Sender) (s : State) : Host.Outcome State Fault Refusal :=
  ok (s.regR by' .ADDR_ERR_COUNT [])

/-- L3_ERR_COUNT_READ (R204). -/
def execL3ErrCountRead (by' : Sender) (h : Fin 8) (s : State) : Host.Outcome State Fault Refusal :=
  ok (s.regR by' .L3_ERR_COUNT [h.val])

/-- MG_ERR_COUNT_READ (R259). -/
def execMgErrCountRead (by' : Sender) (g : Fin 2) (s : State) : Host.Outcome State Fault Refusal :=
  ok (s.regR by' .MG_ERR_COUNT [g.val])

/-- MR_ERR_COUNT_READ (R259). -/
def execMrErrCountRead (by' : Sender) (s : State) : Host.Outcome State Fault Refusal := ok (s.regR by' .MR_ERR_COUNT [])

/-- MR_DIE_READ (R254). -/
def execMrDieRead (by' : Sender) (d : Fin 4) (s : State) : Host.Outcome State Fault Refusal :=
  ok (s.regR by' .MR_DIE [d.val])

/-- PDQ_READ (R258). -/
def execPdqRead (by' : Sender) (h : Fin 8) (d : Fin 4) (s : State) : Host.Outcome State Fault Refusal :=
  ok (s.regR by' .PDQ [h.val, d.val])

/-- SRC_SET (R262, R263). -/
def execSrcSet (by' : Sender) (n : Fin 17408) (s : State) : Host.Outcome State Fault Refusal :=
  ok (s.regW by' .SRC_SET [n.val] 1)

/-- SRC_CLR_PENDING (R262). -/
def execSrcClrPending (by' : Sender) (n : Fin 17408) (s : State) : Host.Outcome State Fault Refusal :=
  ok (s.regW by' .SRC_CLR [n.val] 1)

/-- SRC_CLR_ACTIVE (R268). -/
def execSrcClrActive (by' : Sender) (n : Fin 17408) (s : State) : Host.Outcome State Fault Refusal :=
  ok (s.regW by' .SRC_CLR [n.val] 2)

/-- SRC_CFG_WRITE (R269). -/
def execSrcCfgWrite (by' : Sender) (n : Fin 17408) (v : BitVec 32) (s : State) : Host.Outcome State Fault Refusal :=
  ok (s.regW by' .SRC_CFG [n.val] v.toNat)

/-- DIST_CTL_WRITE (R270). -/
def execDistCtlWrite (by' : Sender) (v : BitVec 32) (s : State) : Host.Outcome State Fault Refusal :=
  ok (s.regW by' .DIST_CTL [] v.toNat)

/-- DB_NEXT_READ (R273). -/
def execDbNextRead (by' : Sender) (l : Fin 64) (s : State) : Host.Outcome State Fault Refusal :=
  ok (s.regR by' .DB_NEXT [l.val])

/-- OUT_MSG_WRITE (R285). -/
def execOutMsgWrite (by' : Sender) (n : Fin 8192) (w : Fin 16) (v : BitVec 32) (s : State) :
    Host.Outcome State Fault Refusal :=
  ok (s.regW by' .OUT_MSG [n.val, w.val] v.toNat)

/-- IN_MSG_WRITE (R286). -/
def execInMsgWrite (by' : Sender) (n : Fin 8192) (w : Fin 16) (v : BitVec 32) (s : State) :
    Host.Outcome State Fault Refusal :=
  ok (s.regW by' .IN_MSG [n.val, w.val] v.toNat)

/-- MBX_OUT_RING (R285, R287). -/
def execMbxOutRing (by' : Sender) (n : Fin 8192) (s : State) : Host.Outcome State Fault Refusal :=
  ok (s.regW by' .MBX_OUT_RING [n.val] 1)

/-- MBX_OUT_ACK (R285). -/
def execMbxOutAck (by' : Sender) (n : Fin 8192) (s : State) : Host.Outcome State Fault Refusal :=
  ok (s.regW by' .MBX_OUT_ACK [n.val] 1)

/-- MBX_IN_RING (R286). -/
def execMbxInRing (by' : Sender) (n : Fin 8192) (s : State) : Host.Outcome State Fault Refusal :=
  ok (s.regW by' .MBX_IN_RING [n.val] 1)

/-- MBX_IN_ACK (R286). -/
def execMbxInAck (by' : Sender) (n : Fin 8192) (s : State) : Host.Outcome State Fault Refusal :=
  ok (s.regW by' .MBX_IN_ACK [n.val] 1)

/-- Q_ENABLE (R290): a write of Q_CFG with EN 1. -/
def execQEnable (by' : Sender) (n : Fin 8192) (q : Fin 64) (cfg : BitVec 32) (s : State) :
    Host.Outcome State Fault Refusal :=
  ok (s.regW by' .Q_CFG [n.val, q.val] (setBit cfg.toNat 31 1 1))

/-- Q_DISABLE (R290): a write of Q_CFG with EN 0. -/
def execQDisable (by' : Sender) (n : Fin 8192) (q : Fin 64) (s : State) : Host.Outcome State Fault Refusal :=
  ok (s.regW by' .Q_CFG [n.val, q.val] 0)

/-- Q_SQ_DB (R287, R291). -/
def execQSqDb (by' : Sender) (n : Fin 8192) (q : Fin 64) (add : BitVec 12) (s : State) :
    Host.Outcome State Fault Refusal :=
  ok (s.regW by' .Q_SQ_DB [n.val, q.val] add.toNat)

/-- Q_CQ_HEAD_WRITE (R293). -/
def execQCqHeadWrite (by' : Sender) (n : Fin 8192) (q : Fin 64) (head : BitVec 16) (s : State) :
    Host.Outcome State Fault Refusal :=
  ok (s.regW by' .Q_CQ [n.val, q.val] head.toNat)

/-- SLICE_ERR_COUNT_READ (R309). -/
def execSliceErrCountRead (by' : Sender) (n : Fin 8192) (s : State) : Host.Outcome State Fault Refusal :=
  ok (s.regR by' .SLICE_ERR_COUNT [n.val])

/-- SE_ERR_COUNT_READ (R309). -/
def execSeErrCountRead (by' : Sender) (s : State) : Host.Outcome State Fault Refusal :=
  ok (s.regR by' .SE_ERR_COUNT [0])

/-- SW_CTL_FLUSH (R313). -/
def execSwCtlFlush (by' : Sender) (en : Bool) (s : State) : Host.Outcome State Fault Refusal :=
  ok (s.regW by' .SW_CTL [] (2 + b2n en))

/-- QBV_BASE_HI_WRITE (R317, R335). -/
def execQbvBaseHiWrite (by' : Sender) (p : Fin 12) (v : BitVec 32) (s : State) : Host.Outcome State Fault Refusal :=
  ok (s.regW by' .QBV_BASE_HI [p.val] v.toNat)

/-- PTP_APPLY (R323): a write of PTP_CTL with APPLY 1. -/
def execPtpApply (by' : Sender) (k : Fin 4) (v : BitVec 32) (s : State) : Host.Outcome State Fault Refusal :=
  ok (s.regW by' .PTP_CTL [k.val] (setBit v.toNat 0 1 1))

/-- PORT_COUNTER_READ (R311): counter i of the eight, in address order. -/
def execPortCounterRead (by' : Sender) (p : Fin 12) (i : Fin 8) (s : State) : Host.Outcome State Fault Refusal :=
  ok (s.busR by' ((Reg.CNT_RX).at [p.val] + 4 * i.val) 4)

/-- UART_TXD_WRITE (R329). -/
def execUartTxdWrite (by' : Sender) (u : Fin 6) (v : BitVec 8) (s : State) : Host.Outcome State Fault Refusal :=
  ok (s.regW by' .UART_TXD [u.val] v.toNat)

/-- UART_RXD_READ (R329). -/
def execUartRxdRead (by' : Sender) (u : Fin 6) (s : State) : Host.Outcome State Fault Refusal :=
  ok (s.regR by' .UART_RXD [u.val])

/-- CAN_TX_REQUEST (R336): a write of a buffer's control word with STATE 0b01. -/
def execCanTxRequest (by' : Sender) (k : Fin 2) (b : Fin 64) (v : BitVec 32) (s : State) :
    Host.Outcome State Fault Refusal :=
  ok (s.regW by' .CAN_MB_CTRL [k.val, b.val] (setBit (setBit v.toNat 28 2 1) 24 1 0))

/-- CAN_RX_BUFFER_FREE (R336): a write with STATE 0b00. -/
def execCanRxBufferFree (by' : Sender) (k : Fin 2) (b : Fin 64) (v : BitVec 32) (s : State) :
    Host.Outcome State Fault Refusal :=
  ok (s.regW by' .CAN_MB_CTRL [k.val, b.val] (setBit (setBit v.toNat 28 2 0) 24 1 0))

/-- CAN_ABORT (R336): a write with ABORT 1. -/
def execCanAbort (by' : Sender) (k : Fin 2) (b : Fin 64) (v : BitVec 32) (s : State) :
    Host.Outcome State Fault Refusal :=
  ok (s.regW by' .CAN_MB_CTRL [k.val, b.val] (setBit v.toNat 24 1 1))

/-- CAN_BUSOFF_RESTART (R336): a write of CAN_CTL with EN 1. -/
def execCanBusoffRestart (by' : Sender) (k : Fin 2) (v : BitVec 32) (s : State) : Host.Outcome State Fault Refusal :=
  ok (s.regW by' .CAN_CTL [k.val] (setBit v.toNat 31 1 1))

/-- SPI_XFER_GO (R337). -/
def execSpiXferGo (by' : Sender) (k : Fin 4) (v : BitVec 32) (s : State) : Host.Outcome State Fault Refusal :=
  ok (s.regW by' .SPI_XFER [k.val] (setBit v.toNat 31 1 1))

/-- SPI_TXD_WRITE (R337). -/
def execSpiTxdWrite (by' : Sender) (k : Fin 4) (v : BitVec 8) (s : State) : Host.Outcome State Fault Refusal :=
  ok (s.regW by' .SPI_TXD [k.val] v.toNat)

/-- SPI_RXD_READ (R337). -/
def execSpiRxdRead (by' : Sender) (k : Fin 4) (s : State) : Host.Outcome State Fault Refusal :=
  ok (s.regR by' .SPI_RXD [k.val])

/-- I2C_CMD_GO (R338). -/
def execI2cCmdGo (by' : Sender) (k : Fin 4) (v : BitVec 32) (s : State) : Host.Outcome State Fault Refusal :=
  ok (s.regW by' .I2C_CMD [k.val] (setBit v.toNat 31 1 1))

/-- I2C_TXD_WRITE (R338). -/
def execI2cTxdWrite (by' : Sender) (k : Fin 4) (v : BitVec 8) (s : State) : Host.Outcome State Fault Refusal :=
  ok (s.regW by' .I2C_TXD [k.val] v.toNat)

/-- I2C_RXD_READ (R338). -/
def execI2cRxdRead (by' : Sender) (k : Fin 4) (s : State) : Host.Outcome State Fault Refusal :=
  ok (s.regR by' .I2C_RXD [k.val])

/-- GPIO_SET_WRITE (R339). -/
def execGpioSetWrite (by' : Sender) (k : Fin 2) (v : BitVec 32) (s : State) : Host.Outcome State Fault Refusal :=
  ok (s.regW by' .GPIO_SET [k.val] v.toNat)

/-- GPIO_CLR_WRITE (R339). -/
def execGpioClrWrite (by' : Sender) (k : Fin 2) (v : BitVec 32) (s : State) : Host.Outcome State Fault Refusal :=
  ok (s.regW by' .GPIO_CLR [k.val] v.toNat)

/-- QSPI_WINDOW_READ (R332, R340). -/
def execQspiWindowRead (by' : Sender) (addr : BitVec 28) (size : AccSize) (s : State) :
    Host.Outcome State Fault Refusal :=
  ok (s.busR by' (qspiBase + addr.toNat) (accBytes size))

/-- REQ_MSG_WRITE (R341). -/
def execReqMsgWrite (by' : Sender) (m : Fin 8) (w : Fin 16) (v : BitVec 32) (s : State) :
    Host.Outcome State Fault Refusal :=
  ok (s.regW by' .REQ_MSG [m.val, w.val] v.toNat)

/-- REQ_RING (R341, R343). -/
def execReqRing (by' : Sender) (m : Fin 8) (s : State) : Host.Outcome State Fault Refusal :=
  ok (s.regW by' .REQ_RING [m.val] 1)

/-- RSP_ACK (R341). -/
def execRspAck (by' : Sender) (m : Fin 8) (s : State) : Host.Outcome State Fault Refusal :=
  ok (s.regW by' .RSP_ACK [m.val] 1)

/-- EVT_ACK (R341). -/
def execEvtAck (by' : Sender) (m : Fin 8) (s : State) : Host.Outcome State Fault Refusal :=
  ok (s.regW by' .EVT_ACK [m.val] 1)

/-- WDOG_KICK (R396): a write of WDOG_CFG with KICK 1 and the TIMEOUT that it holds. -/
def execWdogKick (by' : Sender) (s : State) : Host.Outcome State Fault Refusal :=
  ok (s.regW by' .WDOG_CFG [] (2 ^ 31 + s.fld .WDOG_CFG [] .WDOG_CFG_TIMEOUT))

/-- MAST_TICK_LO_READ (R387). -/
def execMastTickLoRead (by' : Sender) (s : State) : Host.Outcome State Fault Refusal := ok (s.regR by' .MAST_TICK_LO [])

/-- QUAD_REEF_READ (R382). -/
def execQuadReefRead (by' : Sender) (q : Fin 16) (s : State) : Host.Outcome State Fault Refusal :=
  ok (s.regR by' .QUAD_REEF [q.val])

/-- PAD_HOLD_RELEASE (R521). -/
def execPadHoldRelease (by' : Sender) (v : BitVec 2) (s : State) : Host.Outcome State Fault Refusal :=
  ok (s.regW by' .PAD_HOLD [] v.toNat)

/-- SHR_ERR_COUNT_READ (R445). -/
def execShrErrCountRead (by' : Sender) (s : State) : Host.Outcome State Fault Refusal :=
  ok (s.regR by' .SHR_ERR_COUNT [])

/-- TMR_START (R470, R472). -/
def execTmrStart (by' : Sender) (ch : Fin 16) (s : State) : Host.Outcome State Fault Refusal :=
  ok (s.regW by' .TMR_CMD [ch.val] 1)

/-- TMR_STOP (R470, R472). -/
def execTmrStop (by' : Sender) (ch : Fin 16) (s : State) : Host.Outcome State Fault Refusal :=
  ok (s.regW by' .TMR_CMD [ch.val] 2)

/-- TMR_ZERO (R470, R472). -/
def execTmrZero (by' : Sender) (ch : Fin 16) (s : State) : Host.Outcome State Fault Refusal :=
  ok (s.regW by' .TMR_CMD [ch.val] 4)

/-- TMR_CAPTURE (R470, R472). -/
def execTmrCapture (by' : Sender) (ch : Fin 16) (s : State) : Host.Outcome State Fault Refusal :=
  ok (s.regW by' .TMR_CMD [ch.val] 8)

/-- TMR_GO_START (R472). -/
def execTmrGoStart (by' : Sender) (mask : BitVec 16) (s : State) : Host.Outcome State Fault Refusal :=
  ok (s.regW by' .TMR_GO [] mask.toNat)

/-- TMR_GO_STOP (R472). -/
def execTmrGoStop (by' : Sender) (mask : BitVec 16) (s : State) : Host.Outcome State Fault Refusal :=
  ok (s.regW by' .TMR_GO [] (mask.toNat * 2 ^ 16))

/-- TMR_RLD_COMMIT (R471). -/
def execTmrRldCommit (by' : Sender) (ch : Fin 16) (v : BitVec 32) (s : State) : Host.Outcome State Fault Refusal :=
  ok (s.regW by' .TMR_RLD_HI [ch.val] v.toNat)

/-- TMR_CMP_COMMIT (R471). -/
def execTmrCmpCommit (by' : Sender) (ch : Fin 16) (k : Fin 4) (v : BitVec 32) (s : State) :
    Host.Outcome State Fault Refusal :=
  ok (s.regW by' .TMR_CMP_HI [ch.val, k.val] v.toNat)

/-- TT_CFG_WRITE (R476): a write of TT_CFG, or of TT_WIN. -/
def execTtCfgWrite (by' : Sender) (m : Fin 32) (win : Bool) (v : BitVec 32) (s : State) :
    Host.Outcome State Fault Refusal :=
  ok (s.regW by' (if win then .TT_WIN else .TT_CFG) [m.val] v.toNat)

/-- TT_CMD_CLR (R476). -/
def execTtCmdClr (by' : Sender) (m : Fin 32) (s : State) : Host.Outcome State Fault Refusal :=
  ok (s.regW by' .TT_CMD [m.val] 1)

/-- HY_RING_RP_WRITE (R483). -/
def execHyRingRpWrite (by' : Sender) (r : Fin 16) (v : BitVec 32) (s : State) : Host.Outcome State Fault Refusal :=
  ok (s.regW by' .HY_RING_RP [r.val] v.toNat)

/-- HY_RING_DROP_READ (R484). -/
def execHyRingDropRead (by' : Sender) (r : Fin 16) (s : State) : Host.Outcome State Fault Refusal :=
  ok (s.regR by' .HY_RING_DROP [r.val])

/-- DBG_HALT (R492). -/
def execDbgHalt (by' : Sender) (c : CoreId) (s : State) : Host.Outcome State Fault Refusal :=
  ok (s.regW by' .DBG_CTL [quadOf c, c.val % 4] 1)

/-- DBG_STEP (R492). -/
def execDbgStep (by' : Sender) (c : CoreId) (s : State) : Host.Outcome State Fault Refusal :=
  ok (s.regW by' .DBG_CTL [quadOf c, c.val % 4] 2)

/-- DBG_RESUME (R492). -/
def execDbgResume (by' : Sender) (c : CoreId) (s : State) : Host.Outcome State Fault Refusal :=
  ok (s.regW by' .DBG_CTL [quadOf c, c.val % 4] 4)

end Sys2Proof.Machine
end

