-- ==== Sys2Proof/Machine/Wires.lean ====
section
/-! DEFINITION. The lines of the wired interrupt sources (R261, R262, and the chapter of each owner). -/

namespace Sys2Proof.Machine

/-- A CAN controller asserts its line: an enabled bit of CAN_IRQ or CAN_MBIRQ is set (R336). -/
def State.canLine (s : State) (k : Nat) : Bool :=
  s.reg .CAN_IRQ [k] &&& s.reg .CAN_IEN [k] != 0 ||
    (List.range 2).any fun i => s.reg .CAN_MBIRQ [k, i] &&& s.reg .CAN_MBIEN [k, i] != 0

/-- A timer channel asserts its line j (R473). -/
def State.tmrLine (s : State) (c j : Nat) : Bool :=
  let m : Word := [3#64, 12#64, 0x30#64, 0xC0#64].getD j 0
  flag (s.reg .TMR_CTL [c]) ⟨j, j⟩ && s.reg .TMR_STAT [c] &&& m != 0

/-- The level that a unit drives on a level-sensitive source; none for the sources that are raised by edges, or that the
board drives. -/
def State.wire (s : State) (n : Nat) : Option Bool :=
  let valid (r : Reg) (idx : List Nat) : Bool := (s.reg r idx).getLsbD 0
  if 104 ≤ n ∧ n < 106 then some (s.canLine (n - 104))
  else if 108 ≤ n ∧ n < 112 then
    some (flag (s.reg .SPI_STAT [n - 108]) .SPI_STAT_DONE && flag (s.reg .SPI_CFG [n - 108]) .SPI_CFG_IEN)
  else if 112 ≤ n ∧ n < 116 then
    some (s.reg .I2C_STAT [n - 112] &&& 0x1E != 0 && flag (s.reg .I2C_CFG [n - 112]) .I2C_CFG_IEN)
  else if 160 ≤ n ∧ n < 224 then
    let p := n - 160
    some ((s.busValue .GPIO_ISTAT [p / 32]).getLsbD (p % 32) && flag (s.reg .GPIO_ICFG [p]) .GPIO_ICFG_IEN)
  else if 224 ≤ n ∧ n < 288 then some (s.tmrLine ((n - 224) / 4) ((n - 224) % 4))
  else if n = 320 ∨ n = 321 then some (valid .MG_ERR_STATUS [n - 320])
  else if n = 324 then some (valid .MR_ERR_STATUS [])
  else if 326 ≤ n ∧ n < 334 then some (valid .L3_ERR_STATUS [n - 326])
  else if n = 334 then some (valid .ADDR_ERR_STATUS [])
  else if n = 335 then some (valid .CLEAT_ERR_STATUS [])
  else if n = 336 then some (valid .SE_ERR_STATUS [0])
  else if 384 ≤ n ∧ n < 392 then some (flag (s.reg .FSI_MBX_STAT [n - 384]) .FSI_MBX_STAT_RSP_FULL)
  else if 392 ≤ n ∧ n < 400 then some (flag (s.reg .FSI_MBX_STAT [n - 392]) .FSI_MBX_STAT_EVT_FULL)
  else if 480 ≤ n ∧ n < 496 then
    let t := s.fld .HY_RING_CTL [n - 480] .HY_RING_CTL_THRESH
    some (t != 0 && decide (t * 4096 ≤ s.hyUsed (n - 480)))
  else if n = 496 then some ((List.range 64).any fun c => s.traceStalled (Fin.ofNat 64 c))
  else if n = 511 then some (s.reg .TT_IRQ != 0)
  else if 960 ≤ n ∧ n < 1024 then some (s.dbNext (n - 960)).isSome
  else none

/-- WIRED_SOURCE_LINE (R262): the line of a wired source reaches the distributor: the level that its unit drives, the
rising and falling edge of one event that its unit has raised, or, for the INTx sources 64 to 67 of a root complex, and for the
errors of the link that AER reports by sources 69 to 71, the level given (R324, R327). The distributor sees nothing while PD 91
is off. -/
def execWiredSourceLine (n : Fin 1024) (level : Bool) (s : State) : Host.Outcome State Fault Refusal :=
  let n := n.val
  if s.pulses.contains n then
    let s := { s with pulses := s.pulses.erase n }
    ok (if s.pdUp 91 then (s.srcLine n true).srcLine n false else s)
  else if !s.pdUp 91 then ok s
  else
    match s.wire n with
    | some lv => ok (s.srcLine n lv)
    | none => ok (if 64 ≤ n ∧ n < 68 then s.srcLine n (level && s.pdUp 102 && !s.pcieEnd)
      else if 69 ≤ n ∧ n < 72 then s.srcLine n (level && s.pcieOn) else s)

end Sys2Proof.Machine
end

