-- ==== Sys2Proof/Machine/Dispatch.lean ====
section
/-! DEFINITION. One arm per command: a direct call of its meaning. -/

namespace Sys2Proof.Machine


def exec (i : Instr) (s : State) : Host.Outcome State Fault Refusal :=
  match i with
  | .add c rd ra rb => Sys2Proof.Machine.execAdd c rd ra rb s
  | .sub c rd ra rb => Sys2Proof.Machine.execSub c rd ra rb s
  | .and c rd ra rb => Sys2Proof.Machine.execAnd c rd ra rb s
  | .or c rd ra rb => Sys2Proof.Machine.execOr c rd ra rb s
  | .xor c rd ra rb => Sys2Proof.Machine.execXor c rd ra rb s
  | .sll c rd ra rb => Sys2Proof.Machine.execSll c rd ra rb s
  | .srl c rd ra rb => Sys2Proof.Machine.execSrl c rd ra rb s
  | .sra c rd ra rb => Sys2Proof.Machine.execSra c rd ra rb s
  | .slt c rd ra rb => Sys2Proof.Machine.execSlt c rd ra rb s
  | .sltu c rd ra rb => Sys2Proof.Machine.execSltu c rd ra rb s
  | .seq c rd ra rb => Sys2Proof.Machine.execSeq c rd ra rb s
  | .sne c rd ra rb => Sys2Proof.Machine.execSne c rd ra rb s
  | .min c rd ra rb => Sys2Proof.Machine.execMin c rd ra rb s
  | .max c rd ra rb => Sys2Proof.Machine.execMax c rd ra rb s
  | .minu c rd ra rb => Sys2Proof.Machine.execMinu c rd ra rb s
  | .maxu c rd ra rb => Sys2Proof.Machine.execMaxu c rd ra rb s
  | .addw c rd ra rb => Sys2Proof.Machine.execAddw c rd ra rb s
  | .sllw c rd ra rb => Sys2Proof.Machine.execSllw c rd ra rb s
  | .srlw c rd ra rb => Sys2Proof.Machine.execSrlw c rd ra rb s
  | .sraw c rd ra rb => Sys2Proof.Machine.execSraw c rd ra rb s
  | .clz c rd ra => Sys2Proof.Machine.execClz c rd ra s
  | .ctz c rd ra => Sys2Proof.Machine.execCtz c rd ra s
  | .popc c rd ra => Sys2Proof.Machine.execPopc c rd ra s
  | .sel c rd ra rb rc => Sys2Proof.Machine.execSel c rd ra rb rc s
  | .addi c rd ra imm => Sys2Proof.Machine.execAddi c rd ra imm s
  | .andi c rd ra imm => Sys2Proof.Machine.execAndi c rd ra imm s
  | .ori c rd ra imm => Sys2Proof.Machine.execOri c rd ra imm s
  | .xori c rd ra imm => Sys2Proof.Machine.execXori c rd ra imm s
  | .slti c rd ra imm => Sys2Proof.Machine.execSlti c rd ra imm s
  | .sltiu c rd ra imm => Sys2Proof.Machine.execSltiu c rd ra imm s
  | .lui c rd imm => Sys2Proof.Machine.execLui c rd imm s
  | .auipc c rd imm => Sys2Proof.Machine.execAuipc c rd imm s
  | .slli c rd ra sh => Sys2Proof.Machine.execSlli c rd ra sh s
  | .srli c rd ra sh => Sys2Proof.Machine.execSrli c rd ra sh s
  | .srai c rd ra sh => Sys2Proof.Machine.execSrai c rd ra sh s
  | .addiw c rd ra imm => Sys2Proof.Machine.execAddiw c rd ra imm s
  | .mul c rd ra rb => Sys2Proof.Machine.execMul c rd ra rb s
  | .mulh c rd ra rb => Sys2Proof.Machine.execMulh c rd ra rb s
  | .mulhu c rd ra rb => Sys2Proof.Machine.execMulhu c rd ra rb s
  | .mulw c rd ra rb => Sys2Proof.Machine.execMulw c rd ra rb s
  | .div c rd ra rb => Sys2Proof.Machine.execDiv c rd ra rb s
  | .divu c rd ra rb => Sys2Proof.Machine.execDivu c rd ra rb s
  | .rem c rd ra rb => Sys2Proof.Machine.execRem c rd ra rb s
  | .remu c rd ra rb => Sys2Proof.Machine.execRemu c rd ra rb s
  | .divw c rd ra rb => Sys2Proof.Machine.execDivw c rd ra rb s
  | .divuw c rd ra rb => Sys2Proof.Machine.execDivuw c rd ra rb s
  | .longOpComplete c => Sys2Proof.Machine.execLongOpComplete c s
  | .faddS c fd fa fb rm => Sys2Proof.Machine.execFaddS c fd fa fb rm s
  | .faddD c fd fa fb rm => Sys2Proof.Machine.execFaddD c fd fa fb rm s
  | .fsubS c fd fa fb rm => Sys2Proof.Machine.execFsubS c fd fa fb rm s
  | .fsubD c fd fa fb rm => Sys2Proof.Machine.execFsubD c fd fa fb rm s
  | .fmulS c fd fa fb rm => Sys2Proof.Machine.execFmulS c fd fa fb rm s
  | .fmulD c fd fa fb rm => Sys2Proof.Machine.execFmulD c fd fa fb rm s
  | .fdivS c fd fa fb rm => Sys2Proof.Machine.execFdivS c fd fa fb rm s
  | .fdivD c fd fa fb rm => Sys2Proof.Machine.execFdivD c fd fa fb rm s
  | .fsqrtS c fd fa rm => Sys2Proof.Machine.execFsqrtS c fd fa rm s
  | .fsqrtD c fd fa rm => Sys2Proof.Machine.execFsqrtD c fd fa rm s
  | .fminS c fd fa fb => Sys2Proof.Machine.execFminS c fd fa fb s
  | .fminD c fd fa fb => Sys2Proof.Machine.execFminD c fd fa fb s
  | .fmaxS c fd fa fb => Sys2Proof.Machine.execFmaxS c fd fa fb s
  | .fmaxD c fd fa fb => Sys2Proof.Machine.execFmaxD c fd fa fb s
  | .fsgnjS c fd fa fb => Sys2Proof.Machine.execFsgnjS c fd fa fb s
  | .fsgnjD c fd fa fb => Sys2Proof.Machine.execFsgnjD c fd fa fb s
  | .fsgnjnS c fd fa fb => Sys2Proof.Machine.execFsgnjnS c fd fa fb s
  | .fsgnjnD c fd fa fb => Sys2Proof.Machine.execFsgnjnD c fd fa fb s
  | .fsgnjxS c fd fa fb => Sys2Proof.Machine.execFsgnjxS c fd fa fb s
  | .fsgnjxD c fd fa fb => Sys2Proof.Machine.execFsgnjxD c fd fa fb s
  | .feqS c fd fa fb => Sys2Proof.Machine.execFeqS c fd fa fb s
  | .feqD c fd fa fb => Sys2Proof.Machine.execFeqD c fd fa fb s
  | .fltS c fd fa fb => Sys2Proof.Machine.execFltS c fd fa fb s
  | .fltD c fd fa fb => Sys2Proof.Machine.execFltD c fd fa fb s
  | .fleS c fd fa fb => Sys2Proof.Machine.execFleS c fd fa fb s
  | .fleD c fd fa fb => Sys2Proof.Machine.execFleD c fd fa fb s
  | .fclassS c fd fa => Sys2Proof.Machine.execFclassS c fd fa s
  | .fclassD c fd fa => Sys2Proof.Machine.execFclassD c fd fa s
  | .fcvtSD c fd fa rm => Sys2Proof.Machine.execFcvtSD c fd fa rm s
  | .fcvtDS c fd fa rm => Sys2Proof.Machine.execFcvtDS c fd fa rm s
  | .fcvtLS c fd fa rm => Sys2Proof.Machine.execFcvtLS c fd fa rm s
  | .fcvtLD c fd fa rm => Sys2Proof.Machine.execFcvtLD c fd fa rm s
  | .fcvtWS c fd fa rm => Sys2Proof.Machine.execFcvtWS c fd fa rm s
  | .fcvtWD c fd fa rm => Sys2Proof.Machine.execFcvtWD c fd fa rm s
  | .fcvtSL c fd fa rm => Sys2Proof.Machine.execFcvtSL c fd fa rm s
  | .fcvtDL c fd fa rm => Sys2Proof.Machine.execFcvtDL c fd fa rm s
  | .fcvtSW c fd fa rm => Sys2Proof.Machine.execFcvtSW c fd fa rm s
  | .fcvtDW c fd fa rm => Sys2Proof.Machine.execFcvtDW c fd fa rm s
  | .fmvXS c fd fa => Sys2Proof.Machine.execFmvXS c fd fa s
  | .fmvXD c fd fa => Sys2Proof.Machine.execFmvXD c fd fa s
  | .fmvSX c fd fa => Sys2Proof.Machine.execFmvSX c fd fa s
  | .fmvDX c fd fa => Sys2Proof.Machine.execFmvDX c fd fa s
  | .fmaddS c rd ra rb rc => Sys2Proof.Machine.execFmaddS c rd ra rb rc s
  | .fmaddD c rd ra rb rc => Sys2Proof.Machine.execFmaddD c rd ra rb rc s
  | .fmsubS c rd ra rb rc => Sys2Proof.Machine.execFmsubS c rd ra rb rc s
  | .fmsubD c rd ra rb rc => Sys2Proof.Machine.execFmsubD c rd ra rb rc s
  | .fnmaddS c rd ra rb rc => Sys2Proof.Machine.execFnmaddS c rd ra rb rc s
  | .fnmaddD c rd ra rb rc => Sys2Proof.Machine.execFnmaddD c rd ra rb rc s
  | .fnmsubS c rd ra rb rc => Sys2Proof.Machine.execFnmsubS c rd ra rb rc s
  | .fnmsubD c rd ra rb rc => Sys2Proof.Machine.execFnmsubD c rd ra rb rc s
  | .lb c rd ra imm => Sys2Proof.Machine.execLb c rd ra imm s
  | .lbu c rd ra imm => Sys2Proof.Machine.execLbu c rd ra imm s
  | .lh c rd ra imm => Sys2Proof.Machine.execLh c rd ra imm s
  | .lhu c rd ra imm => Sys2Proof.Machine.execLhu c rd ra imm s
  | .lw c rd ra imm => Sys2Proof.Machine.execLw c rd ra imm s
  | .lwu c rd ra imm => Sys2Proof.Machine.execLwu c rd ra imm s
  | .ld c rd ra imm => Sys2Proof.Machine.execLd c rd ra imm s
  | .flw c rd ra imm => Sys2Proof.Machine.execFlw c rd ra imm s
  | .fld c rd ra imm => Sys2Proof.Machine.execFld c rd ra imm s
  | .sb c rb ra imm => Sys2Proof.Machine.execSb c rb ra imm s
  | .sh c rb ra imm => Sys2Proof.Machine.execSh c rb ra imm s
  | .sw c rb ra imm => Sys2Proof.Machine.execSw c rb ra imm s
  | .sd c rb ra imm => Sys2Proof.Machine.execSd c rb ra imm s
  | .fsw c rb ra imm => Sys2Proof.Machine.execFsw c rb ra imm s
  | .fsd c rb ra imm => Sys2Proof.Machine.execFsd c rb ra imm s
  | .storeBufferDrain c => Sys2Proof.Machine.execStoreBufferDrain c s
  | .deviceLoadResponse c => Sys2Proof.Machine.execDeviceLoadResponse c s
  | .deviceStoreAck c idx => Sys2Proof.Machine.execDeviceStoreAck c idx s
  | .uncachedStoreAck c => Sys2Proof.Machine.execUncachedStoreAck c s
  | .beq c ra rb h disp => Sys2Proof.Machine.execBeq c ra rb h disp s
  | .bne c ra rb h disp => Sys2Proof.Machine.execBne c ra rb h disp s
  | .blt c ra rb h disp => Sys2Proof.Machine.execBlt c ra rb h disp s
  | .bge c ra rb h disp => Sys2Proof.Machine.execBge c ra rb h disp s
  | .bltu c ra rb h disp => Sys2Proof.Machine.execBltu c ra rb h disp s
  | .bgeu c ra rb h disp => Sys2Proof.Machine.execBgeu c ra rb h disp s
  | .j c disp => Sys2Proof.Machine.execJ c disp s
  | .jal c disp => Sys2Proof.Machine.execJal c disp s
  | .jalr c rd ra imm => Sys2Proof.Machine.execJalr c rd ra imm s
  | .prefetch c kind ra imm => Sys2Proof.Machine.execPrefetch c kind ra imm s
  | .llW c rd ra => Sys2Proof.Machine.execLlW c rd ra s
  | .llD c rd ra => Sys2Proof.Machine.execLlD c rd ra s
  | .scW c rd ra rb => Sys2Proof.Machine.execScW c rd ra rb s
  | .scD c rd ra rb => Sys2Proof.Machine.execScD c rd ra rb s
  | .casW c rd ra rb rc => Sys2Proof.Machine.execCasW c rd ra rb rc s
  | .casD c rd ra rb rc => Sys2Proof.Machine.execCasD c rd ra rb rc s
  | .swapW c rd ra rb => Sys2Proof.Machine.execSwapW c rd ra rb s
  | .swapD c rd ra rb => Sys2Proof.Machine.execSwapD c rd ra rb s
  | .amoaddW c rd ra rb => Sys2Proof.Machine.execAmoaddW c rd ra rb s
  | .amoaddD c rd ra rb => Sys2Proof.Machine.execAmoaddD c rd ra rb s
  | .fence c => Sys2Proof.Machine.execFence c s
  | .fenceSl c => Sys2Proof.Machine.execFenceSl c s
  | .fenceIo c => Sys2Proof.Machine.execFenceIo c s
  | .fenceI c => Sys2Proof.Machine.execFenceI c s
  | .lsync c => Sys2Proof.Machine.execLsync c s
  | .psync c => Sys2Proof.Machine.execPsync c s
  | .zline c ra => Sys2Proof.Machine.execZline c ra s
  | .clean c ra => Sys2Proof.Machine.execClean c ra s
  | .inval c ra => Sys2Proof.Machine.execInval c ra s
  | .flush c ra => Sys2Proof.Machine.execFlush c ra s
  | .cleanSw c ra => Sys2Proof.Machine.execCleanSw c ra s
  | .invalSw c ra => Sys2Proof.Machine.execInvalSw c ra s
  | .flushSw c ra => Sys2Proof.Machine.execFlushSw c ra s
  | .tlbi c rx ra flags => Sys2Proof.Machine.execTlbi c rx ra flags s
  | .slbi c rx ra flags => Sys2Proof.Machine.execSlbi c rx ra flags s
  | .wcinv c rx flags => Sys2Proof.Machine.execWcinv c rx flags s
  | .tlbsync c => Sys2Proof.Machine.execTlbsync c s
  | .remoteInvalidation c => Sys2Proof.Machine.execRemoteInvalidation c s
  | .syscall c code => Sys2Proof.Machine.execSyscall c code s
  | .hcall c code => Sys2Proof.Machine.execHcall c code s
  | .brk c code => Sys2Proof.Machine.execBrk c code s
  | .tret c => Sys2Proof.Machine.execTret c s
  | .rsflush c => Sys2Proof.Machine.execRsflush c s
  | .barPred c => Sys2Proof.Machine.execBarPred c s
  | .clrPred c => Sys2Proof.Machine.execClrPred c s
  | .wfi c => Sys2Proof.Machine.execWfi c s
  | .mfs c rx num => Sys2Proof.Machine.execMfs c rx num s
  | .mts c ra num => Sys2Proof.Machine.execMts c ra num s
  | .msset c rx ra num => Sys2Proof.Machine.execMsset c rx ra num s
  | .msclr c rx ra num => Sys2Proof.Machine.execMsclr c rx ra num s
  | .frameBufferDrain c => Sys2Proof.Machine.execFrameBufferDrain c s
  | .rd q sec cls => Sys2Proof.Machine.execRd q sec cls s
  | .rfo q sec cls => Sys2Proof.Machine.execRfo q sec cls s
  | .upg q sec cls => Sys2Proof.Machine.execUpg q sec cls s
  | .zreq q sec cls => Sys2Proof.Machine.execZreq q sec cls s
  | .wbreq q block dmask cmask => Sys2Proof.Machine.execWbreq q block dmask cmask s
  | .evc q block => Sys2Proof.Machine.execEvc q block s
  | .cln q sec => Sys2Proof.Machine.execCln q sec s
  | .inv q sec => Sys2Proof.Machine.execInv q sec s
  | .fls q sec => Sys2Proof.Machine.execFls q sec s
  | .ucr who sec => Sys2Proof.Machine.execUcr who sec s
  | .ucw who sec data mask => Sys2Proof.Machine.execUcw who sec data mask s
  | .snpS q sec => Sys2Proof.Machine.execSnpS q sec s
  | .snpI q sec discard => Sys2Proof.Machine.execSnpI q sec discard s
  | .snpC q sec => Sys2Proof.Machine.execSnpC q sec s
  | .wbgo q sec => Sys2Proof.Machine.execWbgo q sec s
  | .grant q sec dirty => Sys2Proof.Machine.execGrant q sec dirty s
  | .done q sec => Sys2Proof.Machine.execDone q sec s
  | .ack q sec => Sys2Proof.Machine.execAck q sec s
  | .miss q sec => Sys2Proof.Machine.execMiss q sec s
  | .wbcancel q sec => Sys2Proof.Machine.execWbcancel q sec s
  | .sectorData q toHome sec data dirty excl mark => Sys2Proof.Machine.execSectorData q toHome sec data dirty excl mark s
  | .cacheResetInvalDone unit => Sys2Proof.Machine.execCacheResetInvalDone unit s
  | .dramAccessRequest block => Sys2Proof.Machine.execDramAccessRequest block s
  | .dramReadReturn block errs pattern => Sys2Proof.Machine.execDramReadReturn block errs pattern s
  | .dramWrite sec data mask poison => Sys2Proof.Machine.execDramWrite sec data mask poison s
  | .dramRefresh g => Sys2Proof.Machine.execDramRefresh g s
  | .dieTempRead g hottest => Sys2Proof.Machine.execDieTempRead g hottest s
  | .driftTrackingWindow g ch busy drift wrong => Sys2Proof.Machine.execDriftTrackingWindow g ch busy drift wrong s
  | .retrainWindow g ch => Sys2Proof.Machine.execRetrainWindow g ch s
  | .dramPatrolScrub block errs pattern => Sys2Proof.Machine.execDramPatrolScrub block errs pattern s
  | .mramRead sec errs => Sys2Proof.Machine.execMramRead sec errs s
  | .mramWriteAccept sec data poison => Sys2Proof.Machine.execMramWriteAccept sec data poison s
  | .mramWriteVerify die wrong0 wrong1 wrong2 => Sys2Proof.Machine.execMramWriteVerify die wrong0 wrong1 wrong2 s
  | .durabilityProbe who => Sys2Proof.Machine.execDurabilityProbe who s
  | .mramPatrolScrub sec errs => Sys2Proof.Machine.execMramPatrolScrub sec errs s
  | .addrErrReport stop => Sys2Proof.Machine.execAddrErrReport stop s
  | .registerWrite by' addr size v => Sys2Proof.Machine.execRegisterWrite by' addr size v s
  | .addrErrCountRead by' => Sys2Proof.Machine.execAddrErrCountRead by' s
  | .l3ErrCountRead by' h => Sys2Proof.Machine.execL3ErrCountRead by' h s
  | .mgErrCountRead by' g => Sys2Proof.Machine.execMgErrCountRead by' g s
  | .mrErrCountRead by' => Sys2Proof.Machine.execMrErrCountRead by' s
  | .mrDieRead by' d => Sys2Proof.Machine.execMrDieRead by' d s
  | .pdqRead by' h d => Sys2Proof.Machine.execPdqRead by' h d s
  | .cleatTake by' n => Sys2Proof.Machine.execCleatTake by' n s
  | .cleatGive by' n => Sys2Proof.Machine.execCleatGive by' n s
  | .cleatForce by' n => Sys2Proof.Machine.execCleatForce by' n s
  | .cleatWindow => Sys2Proof.Machine.execCleatWindow s
  | .wiredSourceLine n level => Sys2Proof.Machine.execWiredSourceLine n level s
  | .srcSet by' n => Sys2Proof.Machine.execSrcSet by' n s
  | .srcClrPending by' n => Sys2Proof.Machine.execSrcClrPending by' n s
  | .srcClrActive by' n => Sys2Proof.Machine.execSrcClrActive by' n s
  | .srcCfgWrite by' n v => Sys2Proof.Machine.execSrcCfgWrite by' n v s
  | .distCtlWrite by' v => Sys2Proof.Machine.execDistCtlWrite by' v s
  | .dbNextRead by' l => Sys2Proof.Machine.execDbNextRead by' l s
  | .interruptOffer c => Sys2Proof.Machine.execInterruptOffer c s
  | .offerWithdrawal c => Sys2Proof.Machine.execOfferWithdrawal c s
  | .interruptAccept c => Sys2Proof.Machine.execInterruptAccept c s
  | .acceptance c => Sys2Proof.Machine.execAcceptance c s
  | .decline c => Sys2Proof.Machine.execDecline c s
  | .irqEoi c v => Sys2Proof.Machine.execIrqEoi c v s
  | .virqEoi c v => Sys2Proof.Machine.execVirqEoi c v s
  | .eoiMessage c => Sys2Proof.Machine.execEoiMessage c s
  | .residencyMessage c => Sys2Proof.Machine.execResidencyMessage c s
  | .outMsgWrite by' n w v => Sys2Proof.Machine.execOutMsgWrite by' n w v s
  | .inMsgWrite by' n w v => Sys2Proof.Machine.execInMsgWrite by' n w v s
  | .mbxOutRing by' n => Sys2Proof.Machine.execMbxOutRing by' n s
  | .mbxOutAck by' n => Sys2Proof.Machine.execMbxOutAck by' n s
  | .mbxInRing by' n => Sys2Proof.Machine.execMbxInRing by' n s
  | .mbxInAck by' n => Sys2Proof.Machine.execMbxInAck by' n s
  | .qEnable by' n q cfg => Sys2Proof.Machine.execQEnable by' n q cfg s
  | .qDisable by' n q => Sys2Proof.Machine.execQDisable by' n q s
  | .qSqDb by' n q add => Sys2Proof.Machine.execQSqDb by' n q add s
  | .qCqHeadWrite by' n q head => Sys2Proof.Machine.execQCqHeadWrite by' n q head s
  | .sliceErrCountRead by' n => Sys2Proof.Machine.execSliceErrCountRead by' n s
  | .seErrCountRead by' => Sys2Proof.Machine.execSeErrCountRead by' s
  | .descriptorFetch n q => Sys2Proof.Machine.execDescriptorFetch n q s
  | .copy n q idx => Sys2Proof.Machine.execCopy n q idx s
  | .fill n q idx => Sys2Proof.Machine.execFill n q idx s
  | .crc n q idx => Sys2Proof.Machine.execCrc n q idx s
  | .aesGcmEncrypt n q idx => Sys2Proof.Machine.execAesGcmEncrypt n q idx s
  | .aesGcmDecrypt n q idx => Sys2Proof.Machine.execAesGcmDecrypt n q idx s
  | .sha256 n q idx => Sys2Proof.Machine.execSha256 n q idx s
  | .sha384 n q idx => Sys2Proof.Machine.execSha384 n q idx s
  | .sha512 n q idx => Sys2Proof.Machine.execSha512 n q idx s
  | .sha3256 n q idx => Sys2Proof.Machine.execSha3256 n q idx s
  | .sha3384 n q idx => Sys2Proof.Machine.execSha3384 n q idx s
  | .sha3512 n q idx => Sys2Proof.Machine.execSha3512 n q idx s
  | .ecdsaP384Sign n q idx => Sys2Proof.Machine.execEcdsaP384Sign n q idx s
  | .ecdsaP384Verify n q idx => Sys2Proof.Machine.execEcdsaP384Verify n q idx s
  | .mlDsa65Sign n q idx => Sys2Proof.Machine.execMlDsa65Sign n q idx s
  | .mlDsa65Verify n q idx => Sys2Proof.Machine.execMlDsa65Verify n q idx s
  | .compressFixed n q idx => Sys2Proof.Machine.execCompressFixed n q idx s
  | .compressDynamic n q idx => Sys2Proof.Machine.execCompressDynamic n q idx s
  | .decompress n q idx => Sys2Proof.Machine.execDecompress n q idx s
  | .send n q idx => Sys2Proof.Machine.execSend n q idx s
  | .post n q idx => Sys2Proof.Machine.execPost n q idx s
  | .recordSvcWrite n q idx => Sys2Proof.Machine.execRecordSvcWrite n q idx s
  | .recordSvcRead n q idx => Sys2Proof.Machine.execRecordSvcRead n q idx s
  | .bwCapWindow => Sys2Proof.Machine.execBwCapWindow s
  | .grantDrainComplete n => Sys2Proof.Machine.execGrantDrainComplete n s
  | .grantDrainTimeout n => Sys2Proof.Machine.execGrantDrainTimeout n s
  | .frameReceive p frame good => Sys2Proof.Machine.execFrameReceive p frame good s
  | .frameTransmit p => Sys2Proof.Machine.execFrameTransmit p s
  | .fdbAgeing vid mac => Sys2Proof.Machine.execFdbAgeing vid mac s
  | .swCtlFlush by' en => Sys2Proof.Machine.execSwCtlFlush by' en s
  | .qbvBaseHiWrite by' p v => Sys2Proof.Machine.execQbvBaseHiWrite by' p v s
  | .qbvChangeover p => Sys2Proof.Machine.execQbvChangeover p s
  | .qbvEntryExpiry p => Sys2Proof.Machine.execQbvEntryExpiry p s
  | .streamGateEntryExpiry g => Sys2Proof.Machine.execStreamGateEntryExpiry g s
  | .frerResetTimeout f => Sys2Proof.Machine.execFrerResetTimeout f s
  | .duplicateEntryForget idx => Sys2Proof.Machine.execDuplicateEntryForget idx s
  | .supervisionFrameSend idx => Sys2Proof.Machine.execSupervisionFrameSend idx s
  | .linkChange p up amp => Sys2Proof.Machine.execLinkChange p up amp s
  | .t1lMseUpdate p mse => Sys2Proof.Machine.execT1lMseUpdate p mse s
  | .ptpApply by' k v => Sys2Proof.Machine.execPtpApply by' k v s
  | .portCounterRead by' p idx => Sys2Proof.Machine.execPortCounterRead by' p idx s
  | .pcieOutboundWrite c idx => Sys2Proof.Machine.execPcieOutboundWrite c idx s
  | .pcieOutboundRead c => Sys2Proof.Machine.execPcieOutboundRead c s
  | .pcieReadCompletion c how data => Sys2Proof.Machine.execPcieReadCompletion c how data s
  | .pcieCompletionTimeout c => Sys2Proof.Machine.execPcieCompletionTimeout c s
  | .pcieInboundRequest write addr len data tlp => Sys2Proof.Machine.execPcieInboundRequest write addr len data s tlp
  | .pcieMsiWrite v => Sys2Proof.Machine.execPcieMsiWrite v s
  | .pcieLinkChange up speed width => Sys2Proof.Machine.execPcieLinkChange up speed width s
  | .uartTxdWrite by' u v => Sys2Proof.Machine.execUartTxdWrite by' u v s
  | .uartRxdRead by' u => Sys2Proof.Machine.execUartRxdRead by' u s
  | .uartRxCharacter u data perr ferr => Sys2Proof.Machine.execUartRxCharacter u data perr ferr s
  | .uartTxCharacter u => Sys2Proof.Machine.execUartTxCharacter u s
  | .deLeadExpiry u => Sys2Proof.Machine.execDeLeadExpiry u s
  | .deTailExpiry u => Sys2Proof.Machine.execDeTailExpiry u s
  | .uartIdleDetect u => Sys2Proof.Machine.execUartIdleDetect u s
  | .canTxRequest by' k b v => Sys2Proof.Machine.execCanTxRequest by' k b v s
  | .canRxBufferFree by' k b v => Sys2Proof.Machine.execCanRxBufferFree by' k b v s
  | .canAbort by' k b v => Sys2Proof.Machine.execCanAbort by' k b v s
  | .canFrameSent k sof => Sys2Proof.Machine.execCanFrameSent k sof s
  | .canFrameReceived k ide rtr fdf brs esi id dlc data sof => Sys2Proof.Machine.execCanFrameReceived k ide rtr fdf brs esi id dlc data sof s
  | .canBusError k tx heavy => Sys2Proof.Machine.execCanBusError k tx heavy s
  | .canBusoffRecovery k => Sys2Proof.Machine.execCanBusoffRecovery k s
  | .canBusoffRestart by' k v => Sys2Proof.Machine.execCanBusoffRestart by' k v s
  | .spiXferGo by' k v => Sys2Proof.Machine.execSpiXferGo by' k v s
  | .spiByte k miso => Sys2Proof.Machine.execSpiByte k miso s
  | .spiTransferDone k => Sys2Proof.Machine.execSpiTransferDone k s
  | .spiTxdWrite by' k v => Sys2Proof.Machine.execSpiTxdWrite by' k v s
  | .spiRxdRead by' k => Sys2Proof.Machine.execSpiRxdRead by' k s
  | .i2cCmdGo by' k v => Sys2Proof.Machine.execI2cCmdGo by' k v s
  | .i2cCommandEnd k nack arb => Sys2Proof.Machine.execI2cCommandEnd k nack arb s
  | .i2cTargetMatch k addr a10 read => Sys2Proof.Machine.execI2cTargetMatch k addr s a10 read
  | .i2cByte k data => Sys2Proof.Machine.execI2cByte k data s
  | .i2cTxdWrite by' k v => Sys2Proof.Machine.execI2cTxdWrite by' k v s
  | .i2cRxdRead by' k => Sys2Proof.Machine.execI2cRxdRead by' k s
  | .gpioSetWrite by' k v => Sys2Proof.Machine.execGpioSetWrite by' k v s
  | .gpioClrWrite by' k v => Sys2Proof.Machine.execGpioClrWrite by' k v s
  | .gpioPinEdge n level => Sys2Proof.Machine.execGpioPinEdge n level s
  | .qspiWindowRead by' addr size => Sys2Proof.Machine.execQspiWindowRead by' addr size s
  | .reqMsgWrite by' m w v => Sys2Proof.Machine.execReqMsgWrite by' m w v s
  | .reqRing by' m => Sys2Proof.Machine.execReqRing by' m s
  | .rspAck by' m => Sys2Proof.Machine.execRspAck by' m s
  | .evtAck by' m => Sys2Proof.Machine.execEvtAck by' m s
  | .requestAccept box => Sys2Proof.Machine.execRequestAccept box s
  | .responsePost box => Sys2Proof.Machine.execResponsePost box s
  | .eventPost box => Sys2Proof.Machine.execEventPost box s
  | .infoPart => Sys2Proof.Machine.execInfoPart s
  | .infoCores => Sys2Proof.Machine.execInfoCores s
  | .infoLimits => Sys2Proof.Machine.execInfoLimits s
  | .planLoad => Sys2Proof.Machine.execPlanLoad s
  | .planCommit => Sys2Proof.Machine.execPlanCommit s
  | .planDigest => Sys2Proof.Machine.execPlanDigest s
  | .planScan => Sys2Proof.Machine.execPlanScan s
  | .planCancel => Sys2Proof.Machine.execPlanCancel s
  | .powerSetMode => Sys2Proof.Machine.execPowerSetMode s
  | .powerSetReef => Sys2Proof.Machine.execPowerSetReef s
  | .powerDomain => Sys2Proof.Machine.execPowerDomain s
  | .powerFurl => Sys2Proof.Machine.execPowerFurl s
  | .powerUnfurl => Sys2Proof.Machine.execPowerUnfurl s
  | .powerState => Sys2Proof.Machine.execPowerState s
  | .sliceBind => Sys2Proof.Machine.execSliceBind s
  | .sliceUnbind => Sys2Proof.Machine.execSliceUnbind s
  | .sliceGrantQ => Sys2Proof.Machine.execSliceGrantQ s
  | .sliceGrantV => Sys2Proof.Machine.execSliceGrantV s
  | .sliceGrantBw => Sys2Proof.Machine.execSliceGrantBw s
  | .sliceWindow => Sys2Proof.Machine.execSliceWindow s
  | .sliceVport => Sys2Proof.Machine.execSliceVport s
  | .sliceGet => Sys2Proof.Machine.execSliceGet s
  | .slicePcieWindow => Sys2Proof.Machine.execSlicePcieWindow s
  | .slicePcieVectors => Sys2Proof.Machine.execSlicePcieVectors s
  | .tenantCreate => Sys2Proof.Machine.execTenantCreate s
  | .tenantRemove => Sys2Proof.Machine.execTenantRemove s
  | .tenantMigrate => Sys2Proof.Machine.execTenantMigrate s
  | .tenantCoreReset => Sys2Proof.Machine.execTenantCoreReset s
  | .tenantCoreResume => Sys2Proof.Machine.execTenantCoreResume s
  | .tenantResumedList => Sys2Proof.Machine.execTenantResumedList s
  | .tenantSelf => Sys2Proof.Machine.execTenantSelf s
  | .healthSummary => Sys2Proof.Machine.execHealthSummary s
  | .healthLog => Sys2Proof.Machine.execHealthLog s
  | .healthSelfTest => Sys2Proof.Machine.execHealthSelfTest s
  | .healthReturn => Sys2Proof.Machine.execHealthReturn s
  | .recordWrite => Sys2Proof.Machine.execRecordWrite s
  | .recordRead => Sys2Proof.Machine.execRecordRead s
  | .recordDouse => Sys2Proof.Machine.execRecordDouse s
  | .timeNow => Sys2Proof.Machine.execTimeNow s
  | .timePtp => Sys2Proof.Machine.execTimePtp s
  | .timeAlarm => Sys2Proof.Machine.execTimeAlarm s
  | .timePtpConfig => Sys2Proof.Machine.execTimePtpConfig s
  | .firmwareStage => Sys2Proof.Machine.execFirmwareStage s
  | .firmwareActivate => Sys2Proof.Machine.execFirmwareActivate s
  | .firmwareStatus => Sys2Proof.Machine.execFirmwareStatus s
  | .firmwareFlash => Sys2Proof.Machine.execFirmwareFlash s
  | .firmwareRollback => Sys2Proof.Machine.execFirmwareRollback s
  | .shroudStatus => Sys2Proof.Machine.execShroudStatus s
  | .shroudSend => Sys2Proof.Machine.execShroudSend s
  | .shroudReceive => Sys2Proof.Machine.execShroudReceive s
  | .shroudAudit => Sys2Proof.Machine.execShroudAudit s
  | .traceAuthorise => Sys2Proof.Machine.execTraceAuthorise s
  | .traceRevoke => Sys2Proof.Machine.execTraceRevoke s
  | .traceList => Sys2Proof.Machine.execTraceList s
  | .keyMemKey => Sys2Proof.Machine.execKeyMemKey s
  | .keyMap => Sys2Proof.Machine.execKeyMap s
  | .keySliceKey => Sys2Proof.Machine.execKeySliceKey s
  | .keyErase => Sys2Proof.Machine.execKeyErase s
  | .keyPublic => Sys2Proof.Machine.execKeyPublic s
  | .memoryStatus => Sys2Proof.Machine.execMemoryStatus s
  | .memoryMarkFailed => Sys2Proof.Machine.execMemoryMarkFailed s
  | .memoryRetrain => Sys2Proof.Machine.execMemoryRetrain s
  | .memoryPoisonList => Sys2Proof.Machine.execMemoryPoisonList s
  | .memoryMram => Sys2Proof.Machine.execMemoryMram s
  | .fetasRestart good => Sys2Proof.Machine.execFetasRestart good s
  | .watchdogExpiry => Sys2Proof.Machine.execWatchdogExpiry s
  | .wdogKick by' => Sys2Proof.Machine.execWdogKick by' s
  | .fetasLockstepMismatch => Sys2Proof.Machine.execFetasLockstepMismatch s
  | .commitTick => Sys2Proof.Machine.execCommitTick s
  | .planScanPeriodic => Sys2Proof.Machine.execPlanScanPeriodic s
  | .loadLineGuard q ma => Sys2Proof.Machine.execLoadLineGuard q ma s
  | .guardRelease q => Sys2Proof.Machine.execGuardRelease q s
  | .droopStretch q => Sys2Proof.Machine.execDroopStretch q s
  | .junctionSensorRead tj mw => Sys2Proof.Machine.execJunctionSensorRead tj mw s
  | .throttleStep => Sys2Proof.Machine.execThrottleStep s
  | .throttleReleaseStep => Sys2Proof.Machine.execThrottleReleaseStep s
  | .thermalWake => Sys2Proof.Machine.execThermalWake s
  | .pllReferenceSwitch q => Sys2Proof.Machine.execPllReferenceSwitch q s
  | .xt32Fail => Sys2Proof.Machine.execXt32Fail s
  | .mastTickLoRead by' => Sys2Proof.Machine.execMastTickLoRead by' s
  | .wakeComparator n mv edges => Sys2Proof.Machine.execWakeComparator n s mv edges
  | .alarmFire n => Sys2Proof.Machine.execAlarmFire n s
  | .uartActivityDetect u => Sys2Proof.Machine.execUartActivityDetect u s
  | .powerFailWarning what => Sys2Proof.Machine.execPowerFailWarning what s
  | .earlyPowerWarning mv us => Sys2Proof.Machine.execEarlyPowerWarning mv s us
  | .powerFailRecovery mv pfwHigh edges => Sys2Proof.Machine.execPowerFailRecovery s mv pfwHigh edges
  | .pwrEnDelay => Sys2Proof.Machine.execPwrEnDelay s
  | .healthPinReturn => Sys2Proof.Machine.execHealthPinReturn s
  | .hsrPathReserveExpiry idx => Sys2Proof.Machine.execHsrPathReserveExpiry idx s
  | .douseSeal => Sys2Proof.Machine.execDouseSeal s
  | .resumeStart bad => Sys2Proof.Machine.execResumeStart s bad
  | .bootPcieStaged img man => Sys2Proof.Machine.execBootPcieStaged img man s
  | .bootPcieTimeout => Sys2Proof.Machine.execBootPcieTimeout s
  | .bootRetry => Sys2Proof.Machine.execBootRetry s
  | .fwTrialSuccess => Sys2Proof.Machine.execFwTrialSuccess s
  | .firmwareActivateTick => Sys2Proof.Machine.execFirmwareActivateTick s
  | .floorRaise => Sys2Proof.Machine.execFloorRaise s
  | .resetN ns => Sys2Proof.Machine.execResetN ns s
  | .padHoldRelease by' v => Sys2Proof.Machine.execPadHoldRelease by' v s
  | .padHoldSupplyLoss io33 => Sys2Proof.Machine.execPadHoldSupplyLoss io33 s
  | .migration what => Sys2Proof.Machine.execMigration s what
  | .selfTestComplete passed => Sys2Proof.Machine.execSelfTestComplete passed s
  | .quadReefRead by' q => Sys2Proof.Machine.execQuadReefRead by' q s
  | .shroudReset cause => Sys2Proof.Machine.execShroudReset cause s
  | .shroudSupplyLow => Sys2Proof.Machine.execShroudSupplyLow s
  | .shroudWatchdogExpiry => Sys2Proof.Machine.execShroudWatchdogExpiry s
  | .shrXt32Fail => Sys2Proof.Machine.execShrXt32Fail s
  | .adcSample v => Sys2Proof.Machine.execAdcSample v s
  | .adcDataRead n => Sys2Proof.Machine.execAdcDataRead n s
  | .pulseEdge n rising ts => Sys2Proof.Machine.execPulseEdge n rising ts s
  | .pulseSnap go => Sys2Proof.Machine.execPulseSnap go s
  | .msMessage w => Sys2Proof.Machine.execMsMessage w s
  | .shrAck reason => Sys2Proof.Machine.execShrAck reason s
  | .shrAckTimeout => Sys2Proof.Machine.execShrAckTimeout s
  | .smMessage m => Sys2Proof.Machine.execSmMessage m s
  | .linkBeacon => Sys2Proof.Machine.execLinkBeacon s
  | .linkLoss => Sys2Proof.Machine.execLinkLoss s
  | .provision => Sys2Proof.Machine.execProvision s
  | .load => Sys2Proof.Machine.execLoad s
  | .activate => Sys2Proof.Machine.execActivate s
  | .auditRead => Sys2Proof.Machine.execAuditRead s
  | .sealChange asserted => Sys2Proof.Machine.execSealChange asserted s
  | .sealOpen => Sys2Proof.Machine.execSealOpen s
  | .sealClose => Sys2Proof.Machine.execSealClose s
  | .shrErrCountRead by' => Sys2Proof.Machine.execShrErrCountRead by' s
  | .ctimCmpWrite c n v => Sys2Proof.Machine.execCtimCmpWrite c n v s
  | .ctimCompareFire c n => Sys2Proof.Machine.execCtimCompareFire c n s
  | .timerStep c => Sys2Proof.Machine.execTimerStep c s
  | .timerCaptureEdge c rising => Sys2Proof.Machine.execTimerCaptureEdge c rising s
  | .tmrStart by' ch => Sys2Proof.Machine.execTmrStart by' ch s
  | .tmrStop by' ch => Sys2Proof.Machine.execTmrStop by' ch s
  | .tmrZero by' ch => Sys2Proof.Machine.execTmrZero by' ch s
  | .tmrCapture by' ch => Sys2Proof.Machine.execTmrCapture by' ch s
  | .tmrGoStart by' mask => Sys2Proof.Machine.execTmrGoStart by' mask s
  | .tmrGoStop by' mask => Sys2Proof.Machine.execTmrGoStop by' mask s
  | .tmrRldCommit by' ch v => Sys2Proof.Machine.execTmrRldCommit by' ch v s
  | .tmrCmpCommit by' ch k v => Sys2Proof.Machine.execTmrCmpCommit by' ch k v s
  | .ttWindowEnd m bytes => Sys2Proof.Machine.execTtWindowEnd m bytes s
  | .ttCfgWrite by' m win v => Sys2Proof.Machine.execTtCfgWrite by' m win v s
  | .ttCmdClr by' m => Sys2Proof.Machine.execTtCmdClr by' m s
  | .traceIdleFlush c => Sys2Proof.Machine.execTraceIdleFlush c s
  | .traceFrameArrive c => Sys2Proof.Machine.execTraceFrameArrive c s
  | .traceLossNotice c => Sys2Proof.Machine.execTraceLossNotice c s
  | .hyRingRpWrite by' r v => Sys2Proof.Machine.execHyRingRpWrite by' r v s
  | .hyRingDropRead by' r => Sys2Proof.Machine.execHyRingDropRead by' r s
  | .trigInEdge n => Sys2Proof.Machine.execTrigInEdge n s
  | .tokenExpiry t => Sys2Proof.Machine.execTokenExpiry t s
  | .dbgHalt by' c => Sys2Proof.Machine.execDbgHalt by' c s
  | .dbgStep by' c => Sys2Proof.Machine.execDbgStep by' c s
  | .dbgResume by' c => Sys2Proof.Machine.execDbgResume by' c s
  | .idcode => Sys2Proof.Machine.execIdcode s
  | .samplePreload pins v => Sys2Proof.Machine.execSamplePreload pins v s
  | .extest pins v => Sys2Proof.Machine.execExtest pins v s
  | .clamp => Sys2Proof.Machine.execClamp s
  | .highz => Sys2Proof.Machine.execHighz s
  | .dap v => Sys2Proof.Machine.execDap v s
  | .challenge => Sys2Proof.Machine.execChallenge s
  | .response b => Sys2Proof.Machine.execResponse b s
  | .bypass => Sys2Proof.Machine.execBypass s
  | .trstN => Sys2Proof.Machine.execTrstN s
  | .illegalInstruction c word => Sys2Proof.Machine.execIllegalInstruction c word s
  | .llSnoopHoldEnd c => Sys2Proof.Machine.execLlSnoopHoldEnd c s
  | .meshSelfTest east down => Sys2Proof.Machine.execMeshSelfTest east down s
  | .comparatorRelease n mv => Sys2Proof.Machine.execComparatorRelease n s mv
  | .resetNRelease => Sys2Proof.Machine.execResetNRelease s
  | .powerLoss mast => Sys2Proof.Machine.execPowerLoss mast s
  | .mastPowerUp sel => Sys2Proof.Machine.execMastPowerUp sel s
  | .shroudResetRelease => Sys2Proof.Machine.execShroudResetRelease s
  | .shroudSupplyRecovery => Sys2Proof.Machine.execShroudSupplyRecovery s

end Sys2Proof.Machine
end

