-- ==== Sys2Proof/Machine/Step.lean ====
section
/-! DEFINITION. One step: the command at the front of the queue, or the passing of time on an empty queue. -/

namespace Sys2Proof.Machine

/-- The rest of the queue, with the command at the front taken. -/
def State.rest (s : State) (q : List Instr) : State := { s with pending := q }

/-- One step of the block. On an empty queue time goes on (log entry 10). -/
def step (s : State) : Host.Outcome State Fault Refusal :=
  match s.pending with
  | [] => .next s.idleStep
  | c :: q => exec c (s.rest q)

/-- The state with the command a word spells at the front of its queue. -/
def State.withFetchWord (s : State) (nbits w : Nat) : State :=
  match decodeTableWord nbits w with
  | some c => { s with pending := c :: s.pending }
  | none => s

end Sys2Proof.Machine
end

