-- ==== Sys2Proof/Safety.lean ====
section
/-! DEFINITION. What counts as a safe run and a sound state, in the terms the statements use. -/

namespace Sys2Proof.Machine

/-- A step that goes on. -/
def Goes (o : Host.Outcome State Fault Refusal) : Prop := ∃ t, o = .next t

/-- Entries of the trail that count (R453). -/
def Shroud.countedEntries (x : Shroud) : Nat := (x.trail.filter fun e => countedKind e.kind).length

/-- The ledger of the Shroud agrees with its trail: the event counter is the number of counted entries (R453). -/
def Shroud.ledgerOk (x : Shroud) : Prop := x.evcnt = min evMax x.countedEntries

/-- A sound state: both memories are in canonical form, and the ledger of the Shroud agrees with its trail. -/
def State.Sound (s : State) : Prop := Memory.wf s.mem = true ∧ Memory.wf s.shr.mem = true ∧ s.shr.ledgerOk

/-! ### How an instruction ends -/

/-- The command answers a next state, and of it P holds. -/
def Completes (i : Instr) (s : State) (P : State → Prop) : Prop := ∃ t, exec i s = .next t ∧ P t

/-- The state in which the effect of the instruction at the PC of a core happens, when nothing is owed at its boundary (R89, R128,
R130, R140, R146): after its fetch (R105, R129), the long operation it must wait for (R78, R87) and its residue checks (R99). None
when the core runs no instruction now, waits for a load's miss (R114), or when a trap, a wait or a debug halt comes in its
place. Single stepping has a statement of its own. -/
def State.begins (s : State) (c : CoreId) (n : Needs) : Option State :=
  let k := s.core c
  if !k.ready || s.traceStalled c || k.mcheck || k.owed.isSome || k.irqReady || k.stepDue ||
      flag (k.reg .STATUS) .STATUS_SS then none
  else match s.loadHeld c with
    | (true, _) => none
    | (false, u) =>
      match u.fetch c with
      | (.ok, u) =>
        match u.longClear c n with
        | (false, _) => none
        | (true, u) =>
          match u.residues c n.units with
          | (false, _) => none
          | (true, u) => if (u.core c).haltReq then none else some u
      | _ => none

/-- Where an instruction that does not jump goes on: PC + 4, and behind the last word of a segment's offset space its first
(log entry 92). -/
def seqNext (pc : Word) : Word := if lastPc pc then pc - BitVec.ofNat 64 (2 ^ 48 - 4) else pc + 4

/-- The system registers that counting and tracing write: the counters, their overflow bits, TRC_STAT and TSEQ_STATE. -/
def countRegs : List Nat :=
  (List.range 8).map (fun n => Reg.EVCNT.at [n]) ++ [Reg.EV_OVF.at [], Reg.TRC_STAT.at [], Reg.TSEQ_STATE.at []]

/-- Of a core, k' has all that k has but for where it goes on, the event counters and the trace encoder; an overflow may
have woken it from WFI (R275, R463). -/
structure Core.Agrees (k k' : Core) : Prop where
  rest : k' = { k with pc := k'.pc, seqEnd := k'.seqEnd, run := k'.run, trace := k'.trace, sys := k'.sys }
  run : k'.run = k.run ∨ (k.run = .wfi ∧ k'.run = .running)
  sys : ∀ n, n ∉ countRegs → SMap.find n k'.sys = SMap.find n k.sys

/-- Of two states only the core c differs, and it agrees but for its event counters and its trace encoder. -/
structure OnCore (c : CoreId) (s t : State) : Prop where
  frame : t = { s with cores := t.cores }
  others : ∀ d, d ≠ c → t.core d = s.core d
  core : Core.Agrees (s.core c) (t.core c)
  pc : (t.core c).pc = (s.core c).pc
  seqEnd : (t.core c).seqEnd = (s.core c).seqEnd

/-- An instruction ends in t: of u only the core c differs, its PC is npc, and it has all that k has but for the event
counters and the trace encoder. So no byte of memory, no register of a unit and no other core differs from u. last: it was
the last of its segment's offset space, and fetch does not go on (R150). -/
structure Ends (u t : State) (c : CoreId) (k : Core) (npc : Word) (last : Bool := false) : Prop where
  frame : t = { u with cores := t.cores }
  others : ∀ d, d ≠ c → t.core d = u.core d
  pc : (t.core c).pc = npc
  seqEnd : (t.core c).seqEnd = last
  core : Core.Agrees k (t.core c)

/-- An instruction that does not jump ends in t: the PC, at pc before, goes on in sequence. -/
def GoesOn (u t : State) (c : CoreId) (k : Core) (pc : Word) : Prop := Ends u t c k (seqNext pc) (lastPc pc)

/-! ### What the rules of chapters 2 and 3 make of the operands -/

/-- The high 64 bits of a 128-bit product (R52). -/
def hiBits (p : BitVec 128) : Word := p.extractLsb' 64 64

/-- The rows of R50: instruction, G registers it reads, units whose residue check it passes (R99), and the value of Gd;
a, b and x are what Ga, Gb and Gc hold. -/
def rrRows (c : CoreId) (rd ra rb rx : RegNo) (a b x : Word) : List (Instr × List RegNo × List Nat × Word) :=
  [(.add c rd ra rb, [ra, rb], [0], a + b), (.sub c rd ra rb, [ra, rb], [0], a - b),
   (.and c rd ra rb, [ra, rb], [], a &&& b), (.or c rd ra rb, [ra, rb], [], a ||| b), (.xor c rd ra rb, [ra, rb], [], a ^^^ b),
   (.sll c rd ra rb, [ra, rb], [], a <<< (b.toNat % 64)), (.srl c rd ra rb, [ra, rb], [], a >>> (b.toNat % 64)),
   (.sra c rd ra rb, [ra, rb], [], a.sshiftRight (b.toNat % 64)),
   (.slt c rd ra rb, [ra, rb], [0], if a.toInt < b.toInt then 1 else 0),
   (.sltu c rd ra rb, [ra, rb], [0], if a.toNat < b.toNat then 1 else 0),
   (.seq c rd ra rb, [ra, rb], [0], if a = b then 1 else 0), (.sne c rd ra rb, [ra, rb], [0], if a = b then 0 else 1),
   (.min c rd ra rb, [ra, rb], [0], if a.toInt < b.toInt then a else b),
   (.max c rd ra rb, [ra, rb], [0], if a.toInt < b.toInt then b else a),
   (.minu c rd ra rb, [ra, rb], [0], if a.toNat < b.toNat then a else b),
   (.maxu c rd ra rb, [ra, rb], [0], if a.toNat < b.toNat then b else a),
   (.addw c rd ra rb, [ra, rb], [0], (a.setWidth 32 + b.setWidth 32).signExtend 64),
   (.sllw c rd ra rb, [ra, rb], [], ((a.setWidth 32) <<< (b.toNat % 32)).signExtend 64),
   (.srlw c rd ra rb, [ra, rb], [], ((a.setWidth 32) >>> (b.toNat % 32)).signExtend 64),
   (.sraw c rd ra rb, [ra, rb], [], ((a.setWidth 32).sshiftRight (b.toNat % 32)).signExtend 64),
   (.clz c rd ra, [ra], [], BitVec.ofNat 64 (leadingZeros a 64)), (.ctz c rd ra, [ra], [], BitVec.ofNat 64 (trailingZeros a 64)),
   (.popc c rd ra, [ra], [], BitVec.ofNat 64 (onesBelow a 64)),
   (.sel c rd ra rb rx, [ra, rb, rx], [], if x ≠ 0 then a else b)]

/-- The rows of R51 and the multiplications of R52. -/
def riRows (c : CoreId) (rd ra rb : RegNo) (imm : BitVec 16) (sh : BitVec 6) (pc a b : Word) :
    List (Instr × List RegNo × List Nat × Word) :=
  [(.addi c rd ra imm, [ra], [0], a + imm.signExtend 64), (.andi c rd ra imm, [ra], [], a &&& imm.zeroExtend 64),
   (.ori c rd ra imm, [ra], [], a ||| imm.zeroExtend 64), (.xori c rd ra imm, [ra], [], a ^^^ imm.zeroExtend 64),
   (.slti c rd ra imm, [ra], [0], if a.toInt < imm.toInt then 1 else 0),
   (.sltiu c rd ra imm, [ra], [0], if a.toNat < (imm.signExtend 64).toNat then 1 else 0),
   (.lui c rd imm, [], [], imm.signExtend 64 <<< 16), (.auipc c rd imm, [], [0], pc + (imm.signExtend 64 <<< 16)),
   (.slli c rd ra sh, [ra], [], a <<< sh.toNat), (.srli c rd ra sh, [ra], [], a >>> sh.toNat),
   (.srai c rd ra sh, [ra], [], a.sshiftRight sh.toNat),
   (.addiw c rd ra imm, [ra], [0], (a.setWidth 32 + imm.signExtend 32).signExtend 64),
   (.mul c rd ra rb, [ra, rb], [1], a * b),
   (.mulh c rd ra rb, [ra, rb], [1], hiBits (a.signExtend 128 * b.signExtend 128)),
   (.mulhu c rd ra rb, [ra, rb], [1], hiBits (a.zeroExtend 128 * b.zeroExtend 128)),
   (.mulw c rd ra rb, [ra, rb], [1], (a.setWidth 32 * b.setWidth 32).signExtend 64)]

/-- A long operation as it stands in the divider (R84): it writes rd with result and raises flags when it completes. -/
def intLong (fn : Nat) (rd : RegNo) (result : Word) (idz : Bool) (pc : Word) : LongOp :=
  { fp := false, fn := fn, rd := rd, result := result, flags := if idz then 0b100000 else 0, pc := pc }

/-- The divisions of R52 with the results of R53: what the divider holds after each is issued. -/
def divRows (c : CoreId) (rd ra rb : RegNo) (pc a b : Word) : List (Instr × LongOp) :=
  let x : BitVec 32 := a.setWidth 32
  let y : BitVec 32 := b.setWidth 32
  [(.div c rd ra rb, intLong 8 rd (if b = 0 then BitVec.allOnes 64 else a.sdiv b) (b = 0) pc),
   (.divu c rd ra rb, intLong 9 rd (if b = 0 then BitVec.allOnes 64 else a / b) (b = 0) pc),
   (.rem c rd ra rb, intLong 10 rd (if b = 0 then a else a.srem b) (b = 0) pc),
   (.remu c rd ra rb, intLong 11 rd (if b = 0 then a else a % b) (b = 0) pc),
   (.divw c rd ra rb, intLong 12 rd (if y = 0 then BitVec.allOnes 64 else (x.sdiv y).signExtend 64) (y = 0) pc),
   (.divuw c rd ra rb, intLong 13 rd (if y = 0 then BitVec.allOnes 64 else (x / y).signExtend 64) (y = 0) pc)]

/-- A floating-point row: the instruction, what it needs of the long operation in flight, its destination, its result with
the exceptions it signals, and the exceptions its class can signal (R96). -/
structure FpRow where
  i : Instr
  needs : Needs
  d : FDest
  v : Nat × FFlags
  can : FFlags

/-- The operand an F register presents, as a value (R44, R90). -/
def Core.fval (k : Core) (single : Bool) (r : RegNo) : FVal := (fmtOf single).decode (k.operand single r)

def canArith : FFlags := fNV ||| fOF ||| fUF ||| fNX

/-- The rows of R55 with a rounding mode r, but for FDIV and FSQRT. -/
def fpRounded (c : CoreId) (fd fa fb : RegNo) (rm : BitVec 5) (r : RMode) (k : Core) : List FpRow :=
  let n3 (u : Nat) : Needs := { f := [fd, fa, fb], units := [u] }
  let toG : Needs := { f := [fa], g := [fd] }
  let ofG : Needs := { f := [fd], g := [fa] }
  let a (s : Bool) : FVal := k.fval s fa
  let b (s : Bool) : FVal := k.fval s fb
  let int (v : Int × FFlags) : Nat × FFlags := ((BitVec.ofInt 64 v.1).toNat, v.2)
  let g64 : Int := (k.readG fa).toInt
  let g32 : Int := ((k.readG fa).setWidth 32).toInt
  [⟨.faddS c fd fa fb rm, n3 0, .f fd true, fmtS.add r k.ufe (a true) (b true), canArith⟩,
   ⟨.faddD c fd fa fb rm, n3 0, .f fd false, fmtD.add r k.ufe (a false) (b false), canArith⟩,
   ⟨.fsubS c fd fa fb rm, n3 0, .f fd true, fmtS.add r k.ufe (a true) (b true).neg, canArith⟩,
   ⟨.fsubD c fd fa fb rm, n3 0, .f fd false, fmtD.add r k.ufe (a false) (b false).neg, canArith⟩,
   ⟨.fmulS c fd fa fb rm, n3 1, .f fd true, fmtS.mul r k.ufe (a true) (b true), canArith⟩,
   ⟨.fmulD c fd fa fb rm, n3 1, .f fd false, fmtD.mul r k.ufe (a false) (b false), canArith⟩,
   ⟨.fcvtSD c fd fa rm, { f := [fd, fa] }, .f fd true, fmtS.convert r k.ufe (a false), canArith⟩,
   ⟨.fcvtDS c fd fa rm, { f := [fd, fa] }, .f fd false, fmtD.convert r k.ufe (a true), fNV⟩,
   ⟨.fcvtLS c fd fa rm, toG, .g fd, int (toIntN 64 r (a true)), fNV ||| fNX⟩,
   ⟨.fcvtLD c fd fa rm, toG, .g fd, int (toIntN 64 r (a false)), fNV ||| fNX⟩,
   ⟨.fcvtWS c fd fa rm, toG, .g fd, int (toIntN 32 r (a true)), fNV ||| fNX⟩,
   ⟨.fcvtWD c fd fa rm, toG, .g fd, int (toIntN 32 r (a false)), fNV ||| fNX⟩,
   ⟨.fcvtSL c fd fa rm, ofG, .f fd true, fmtS.ofInt r g64, fNX⟩,
   ⟨.fcvtDL c fd fa rm, ofG, .f fd false, fmtD.ofInt r g64, fNX⟩,
   ⟨.fcvtSW c fd fa rm, ofG, .f fd true, fmtS.ofInt r g32, fNX⟩,
   ⟨.fcvtDW c fd fa rm, ofG, .f fd false, fmtD.ofInt r g32, 0⟩]

/-- The rows of R55 without a rounding mode that signal or copy, and the fused multiply-adds of R57. -/
def fpPlain (c : CoreId) (fd fa fb fx : RegNo) (k : Core) : List FpRow :=
  let n3 : Needs := { f := [fd, fa, fb] }
  let cmp : Needs := { f := [fa, fb], g := [fd] }
  let fma : Needs := { f := [fd, fa, fb, fx], units := [1] }
  let row (s : Bool) (mn mx sj sjn sjx eq lt le cl ma ms na ns : Instr) : List FpRow :=
    let f : FFmt := fmtOf s
    let x : Nat := k.operand s fa
    let y : Nat := k.operand s fb
    let truth (v : Bool × FFlags) : Nat × FFlags := (b2n v.1, v.2)
    let a : FVal := k.fval s fa
    let b : FVal := k.fval s fb
    let z : FVal := k.fval s fx
    [⟨mn, n3, .f fd s, f.minMax false x y, fNV⟩, ⟨mx, n3, .f fd s, f.minMax true x y, fNV⟩,
     ⟨sj, n3, .f fd s, (f.sgnj 0 x y, 0), 0⟩, ⟨sjn, n3, .f fd s, (f.sgnj 1 x y, 0), 0⟩, ⟨sjx, n3, .f fd s, (f.sgnj 2 x y, 0), 0⟩,
     ⟨eq, cmp, .g fd, truth (f.compare 0 x y), fNV⟩, ⟨lt, cmp, .g fd, truth (f.compare 1 x y), fNV⟩,
     ⟨le, cmp, .g fd, truth (f.compare 2 x y), fNV⟩, ⟨cl, { f := [fa], g := [fd] }, .g fd, (f.class x, 0), 0⟩,
     ⟨ma, fma, .f fd s, f.fma k.dynMode k.ufe a b z, canArith⟩, ⟨ms, fma, .f fd s, f.fma k.dynMode k.ufe a b z.neg, canArith⟩,
     ⟨na, fma, .f fd s, f.fma k.dynMode k.ufe a.neg b z.neg, canArith⟩,
     ⟨ns, fma, .f fd s, f.fma k.dynMode k.ufe a.neg b z, canArith⟩]
  row true (.fminS c fd fa fb) (.fmaxS c fd fa fb) (.fsgnjS c fd fa fb) (.fsgnjnS c fd fa fb) (.fsgnjxS c fd fa fb)
    (.feqS c fd fa fb) (.fltS c fd fa fb) (.fleS c fd fa fb) (.fclassS c fd fa) (.fmaddS c fd fa fb fx) (.fmsubS c fd fa fb fx)
    (.fnmaddS c fd fa fb fx) (.fnmsubS c fd fa fb fx) ++
  row false (.fminD c fd fa fb) (.fmaxD c fd fa fb) (.fsgnjD c fd fa fb) (.fsgnjnD c fd fa fb) (.fsgnjxD c fd fa fb)
    (.feqD c fd fa fb) (.fltD c fd fa fb) (.fleD c fd fa fb) (.fclassD c fd fa) (.fmaddD c fd fa fb fx) (.fmsubD c fd fa fb fx)
    (.fnmaddD c fd fa fb fx) (.fnmsubD c fd fa fb fx)

/-- FDIV and FSQRT: the FN field, the row. An ordered one passes the divider's residue check (R96, R99). -/
def fpLongRows (c : CoreId) (fd fa fb : RegNo) (rm : BitVec 5) (r : RMode) (k : Core) : List (Nat × FpRow) :=
  let n2 : Needs := { f := [fd, fa], all := true, units := if k.fpEnables &&& (fNV ||| fNX) ≠ 0 then [2] else [] }
  let n3 : Needs := { f := [fd, fa, fb], all := true, units := if k.fpEnables &&& allF ≠ 0 then [2] else [] }
  [(6, ⟨.fdivS c fd fa fb rm, n3, .f fd true, fmtS.div r k.ufe (k.fval true fa) (k.fval true fb), allF⟩),
   (7, ⟨.fdivD c fd fa fb rm, n3, .f fd false, fmtD.div r k.ufe (k.fval false fa) (k.fval false fb), allF⟩),
   (8, ⟨.fsqrtS c fd fa rm, n2, .f fd true, fmtS.sqrt r k.ufe (k.fval true fa), fNV ||| fNX⟩),
   (9, ⟨.fsqrtD c fd fa rm, n2, .f fd false, fmtD.sqrt r k.ufe (k.fval false fa), fNV ||| fNX⟩)]

/-- FDIV or FSQRT as it stands in the divider (R84). -/
def floatLong (fn : Nat) (fd : RegNo) (p : FpRow) (pc : Word) : LongOp :=
  { fp := true, fn := fn, rd := fd, result := p.d.word p.v.1, flags := p.v.2.setWidth 6, pc := pc }

/-- A result delivered: the flags set and the destination written (R97). -/
def Core.deliver (k : Core) (p : FpRow) : Core :=
  match p.d with
  | .f r _ => (k.setFlags p.v.2).writeF r (p.d.word p.v.1)
  | .g r => (k.setFlags p.v.2).writeG r (p.d.word p.v.1)

/-- The conditional branches of R59, with their conditions on Ga and Gb. -/
def branchRows (c : CoreId) (ra rb : RegNo) (h : Bool) (d : BitVec 15) (a b : Word) : List (Instr × Prop) :=
  [(.beq c ra rb h d, a = b), (.bne c ra rb h d, a ≠ b), (.blt c ra rb h d, a.toInt < b.toInt), (.bge c ra rb h d, b.toInt ≤ a.toInt),
   (.bltu c ra rb h d, a.toNat < b.toNat), (.bgeu c ra rb h d, b.toNat ≤ a.toNat)]

/-- The core with another return stack; while prediction is barred no instruction touches it (R60). -/
def Core.withStack (k : Core) (l : List Word) : Core := if flag (k.reg .PRED_CTL) .PRED_CTL_BARRED then k else { k with rstack := l }

/-- Of k, k' keeps every G and F register, stack pointer, PC and system register, but for those that counting and tracing
write. -/
structure Core.KeepsRegs (k k' : Core) : Prop where
  g : k'.g = k.g
  f : k'.f = k.f
  pc : k'.pc = k.pc
  spH : k'.spH = k.spH
  sys : ∀ n, n ∉ countRegs → SMap.find n k'.sys = SMap.find n k.sys

/-- The bytes a load of a location that is not Device reads, and the state after its accesses (R58, R141, R207); none when it
waits or traps. -/
def State.loadAccess (u : State) (c : CoreId) (kd : LoadKind) (ea : Word) : Option (Nat × State) :=
  let l := (u.core c).level
  match u.checkAccess c l ea kd.size .load with
  | (.ok (p :: ps), v) =>
    if v.isDevice p.1 then none else
    match (if (p :: ps).length = 2 then v.event c evSplitLoad else v).readParts c l (p :: ps) 0 with
    | (.val x, w) => some (x, w)
    | _ => none
  | _ => none

/-- The store-buffer entry of n bytes at a translated address by a core at its level (R143, R205): the low bytes of v. -/
def State.storeEntry (s : State) (k : Core) (x : Xlat) (n v : Nat) : StoreEntry :=
  { pa := x.pa, size := n, data := BitVec.ofNat 64 (v % 256 ^ n), typ := if s.isDevice x then .device else x.mt, lvl := k.level,
    pid := k.pid k.level, cls := k.cls k.level }

/-- The load rows of R58: what they need, their kind. -/
def loadRows (c : CoreId) (rd ra : RegNo) (imm : BitVec 16) : List (Instr × Needs × LoadKind) :=
  let n : Needs := { g := [rd, ra], units := [0] }
  let f : Needs := { g := [ra], f := [rd], units := [0] }
  [(.lb c rd ra imm, n, .lb), (.lbu c rd ra imm, n, .lbu), (.lh c rd ra imm, n, .lh), (.lhu c rd ra imm, n, .lhu),
   (.lw c rd ra imm, n, .lw), (.lwu c rd ra imm, n, .lwu), (.ld c rd ra imm, n, .ld), (.flw c rd ra imm, f, .flw),
   (.fld c rd ra imm, f, .fld)]

/-- What a load of the bytes v leaves in its core (R58, R44). -/
def Core.loaded (k : Core) (kd : LoadKind) (rd : RegNo) (v : Nat) : Core :=
  match kd with
  | .lb => k.writeG rd ((BitVec.ofNat 8 v).signExtend 64)
  | .lh => k.writeG rd ((BitVec.ofNat 16 v).signExtend 64)
  | .lw => k.writeG rd ((BitVec.ofNat 32 v).signExtend 64)
  | .lbu | .lhu | .lwu | .ld => k.writeG rd (BitVec.ofNat 64 v)
  | .flw => k.writeF rd (0xFFFFFFFF#32 ++ BitVec.ofNat 32 v)
  | .fld => k.writeF rd (BitVec.ofNat 64 v)

/-- The store rows of R58: what they need, size, and the register stored. -/
def storeRows (c : CoreId) (rb ra : RegNo) (imm : BitVec 16) (k : Core) : List (Instr × Needs × Nat × Word) :=
  let n : Needs := { g := [ra, rb], units := [0] }
  let f : Needs := { g := [ra], f := [rb], units := [0] }
  [(.sb c rb ra imm, n, 1, k.readG rb), (.sh c rb ra imm, n, 2, k.readG rb), (.sw c rb ra imm, n, 4, k.readG rb),
   (.sd c rb ra imm, n, 8, k.readG rb), (.fsw c rb ra imm, f, 4, k.readF rb), (.fsd c rb ra imm, f, 8, k.readF rb)]

/-- The value an atomic or load-reserve returns in Gd from the bytes read: W forms sign-extend (R63). -/
def atomValue (size v : Nat) : Word := if size = 4 then (BitVec.ofNat 32 v).signExtend 64 else BitVec.ofNat 64 v

/-- The sector a core's atomic acts on when it reaches its data: the translation, whether its home answers, and the state in which
the earlier stores are globally visible and the L1D owns the sector (R63, R66, R129); none when it waits or traps. -/
def State.atomAccess (u : State) (c : CoreId) (size : Nat) (ea : Word) (a : Acc) : Option (Xlat × GetAns × State) :=
  match u.atomAddr c ea size a with
  | (.ok ((t, _) :: _), v) =>
    match v.drainStores c with
    | (true, v) =>
      match v.atomOwn c t.pa true with
      | (.wait, _) => none
      | (ans, w) => some (t, ans, w)
    | _ => none
  | _ => none

/-- What a core's L1D holds of a sector. -/
def State.l1dSec (s : State) (c : CoreId) (n : Nat) : Sec := (s.core c).l1d.secD .l1 n

/-- The bytes of a sector of a core's L1D. -/
def State.l1dBytes (s : State) (c : CoreId) (pa size : Nat) : Nat := secBytes (s.l1dSec c (pa / 64)).data (pa % 64) size

/-- The trap record of a level and the state at the handler's first instruction (R133, R134): of the core k, trapped at level
from with the stacked pc. A step trap that is owed is owed again after the TRET of the frame (R146). -/
def Core.entered (k : Core) (l : Level) (t : Trap) (pc handler : Word) (pas : List Nat) : Core :=
  let frame : List StoreEntry := (pas.zip ([pc, k.reg .STATUS] ++ [k.readG 1, k.readG 2, k.readG 3, k.readG 4, k.readG 5, k.readG 6,
    k.readG 7, k.readG 8])).map fun p =>
      { pa := p.1, size := 8, data := p.2, typ := .normal, lvl := l, pid := k.pid l, cls := k.cls l }
  let r := k.putRecord l t t.info k.level
  let base := r.sp l - 80
  let r := r.setSp l base
  let st := putBits (putBits (putBits (r.reg .STATUS) .STATUS_LEVEL l.toNat) .STATUS_IE 0) .STATUS_SS 0
  { (r.setReg .STATUS [] st) with frame := frame, resv := none, hold := none, pc := handler, run := .running, seqEnd := false,
                                  stepDue := false, stepFrames := (r.stepFrames.filter fun x => x != (l, base)) ++
                                    if k.stepDue = true ∧ t.cause ≠ 0x12 then [(l, base)] else [] }

/-- The instructions whose effect is to take an exception: what they need, the state in which they take it, the trap, and the
stacked PC (R77, R125, R128). -/
def trapRows (c : CoreId) (code : BitVec 12) (u : State) : List (Instr × Needs × State × Trap × Word) :=
  let pc := (u.core c).pc
  let all : Needs := { all := true }
  [(.syscall c code, all, u.event c evSyscall, { cause := 0x10, info := code.zeroExtend 64 }, pc + 4),
   (.brk c code, all, u, { cause := 0x12, info := code.zeroExtend 64 }, pc + 4)] ++
  if (u.core c).level = .u then
    [(.hcall c code, all, u, { cause := 0x04, addr := wordX 0x3C 1 0 0 code }, pc),
     (.wfi c, all, u, { cause := 0x04, addr := wordX 0x3C 7 0 0 0 }, pc),
     (.tret c, all, u, { cause := 0x04, addr := wordX 0x3C 3 0 0 0 }, pc),
     (.tlbsync c, all, u, { cause := 0x04, addr := wordX 0x3E 3 0 0 0 }, pc)]
  else [(.hcall c code, all, u.event c evHcall, { cause := 0x11, info := code.zeroExtend 64 }, pc + 4)]

/-- The state after a CLEAN, INVAL or FLUSH at ea (R69): none when it waits or traps. -/
def State.maintAccess (u : State) (c : CoreId) (kind : MsgKind) (a : Acc) (ea : Word) : Option State :=
  match translate c (u.core c).level ea a false u with
  | (.ok t, v) =>
    let v := v.event c evMaint
    if !v.isMem t.pa then some v else
    match v.drainOver c (t.pa / 64 * 64) 64 with
    | (true, v) =>
      match v.maint c (t.pa / 64) kind with
      | (true, w) => some (if kind = .inv then w else w.openMram c t.pa)
      | _ => none
    | _ => none
  | _ => none

/-- A set/way descriptor's action (R70): the state after it; none for one that traps, or whose write-back is under way. -/
def State.swAct (u : State) (c : CoreId) (op : SwOp) (d : Nat) : Option State :=
  let cache := d / 2 ^ 28 % 16
  let slice := d / 2 ^ 24 % 8
  let set := d / 2 ^ 14 % 1024
  let way := d % 16
  if d / 2 ^ 32 ≠ 0 ∨ d.testBit 27 ∨ d / 16 % 1024 ≠ 0 then none
  else if cache = 0 ∨ 4 < cache then some u
  else if slice ≠ 0 ∧ cache ≠ 4 then none
  else if cache = 1 then some (if set < 64 ∧ way < 4 then u.swL1d c (set * 16 + way) op else u)
  else if cache = 2 then
    some (if set < 64 ∧ way < 4 then u.updCore c fun k => { k with l1i := k.l1i.setFrame (set * 16 + way) none } else u)
  else if cache = 3 then
    if set < 512 then match u.swL2 (quadOf c) (set * 16 + way) op with
      | (true, v) => some v
      | (false, _) => none
    else some u
  else some (u.swL3 slice (set * 16 + way) op)

/-- The invalidation that TLBI, SLBI and WCINV (op 0, 1, 2) make of their operands (R73 to R75). -/
def Core.invalOf (k : Core) (op : Nat) (x a : Word) (fl : BitVec 12) : Inval :=
  let scope := fl.toNat % 8
  { op := op, scope := if k.level = .k ∧ scope = 0 then 1 else scope, g := fl.getLsbD 3, s := fl.getLsbD 4, w := fl.getLsbD 5,
    vmid := if k.level = .k then k.fld .VMID .VMID_VMID else x.toNat / 65536 % 8192, asid := x.toNat % 65536, addr := a }

/-- What TRET leaves of a core that it returns to with the frame ws at sp (R140); the step trap that was owed when the frame was
stacked is owed again (R146). -/
def Core.returned (k : Core) (l : Level) (sp : Word) (ws : List Word) : Core :=
  let k := ((((((((k.writeG 1 (ws.getD 2 0)).writeG 2 (ws.getD 3 0)).writeG 3 (ws.getD 4 0)).writeG 4 (ws.getD 5 0)).writeG 5
    (ws.getD 6 0)).writeG 6 (ws.getD 7 0)).writeG 7 (ws.getD 8 0)).writeG 8 (ws.getD 9 0))
  { ((k.setSp l (sp + 80)).setReg .STATUS [] (statusBits (ws.getD 1 0))) with
    resv := none, hold := none, stepDue := k.stepFrames.contains (l, sp), stepFrames := k.stepFrames.erase (l, sp) }

/-- No request is begun at a home, and none waits there. -/
structure State.idleHome (s : State) (h : Nat) : Prop where
  trans : (s.home h).trans = []
  waiting : (s.home h).waiting = []

/-- A stop sends a request now, and its home takes it up at once: the quad may ask for it (R185, R193), the home answers, and the
memory behind it where the request may need its data (R30), the home is past its reset invalidation (R197), no packet is before the
request on its path (R23), the home works on no other request (R186), the dirty-persistent quota has room (R258), and no access of
the block is under way in a memory group unless the L3 holds the data (R237). -/
structure State.takes (s : State) (m : Msg) : Prop where
  asks : s.mayAsk m = true
  up : (if m.kind = .cln ∨ m.kind = .inv ∨ m.kind = .fls then s.homeUp m.sec else s.homeAnswers m.sec) = true
  ready : (s.home (homeSec m.sec)).l3.ready = true
  path : ∀ p ∈ s.net, p.samePath m = false
  idle : s.idleHome (homeSec m.sec)
  quota : s.quotaFull (homeSec m.sec) m = false
  fill : m.sec / 4 ∉ s.dram.reads ∨ ((s.home (homeSec m.sec)).l3.secD .l3 m.sec).dv = true

/-- The packet p in flight is the one a command names as m; none of its class is ahead of it (R23), and the cache it goes to is
past its reset invalidation (R197); u is the state without it. -/
structure State.lands (s u : State) (m p : Msg) : Prop where
  inFlight : (s.net.find? fun p => m.matches p) = some p
  first : s.first p = true
  ready : s.receiverReady p = true
  taken : u = { s with net := s.net.erase p }

/-- No core of a quad waits for a sector. -/
def State.nobodyWaits (s : State) (q n : Nat) : Prop :=
  ∀ c ∈ coresOf q, (s.core c).ifWait ≠ some n ∧ (s.core c).ldWait ≠ some n ∧ (s.core c).stWait ≠ some n ∧
    ∀ p ∈ (s.core c).pfWait, p.1 ≠ n

/-- Of two states no byte of memory, no register and no core differs. -/
structure SameMachine (s t : State) : Prop where
  mem : t.mem = s.mem
  regs : t.regs = s.regs
  cores : t.cores = s.cores
  shr : t.shr = s.shr

/-- Of two states only one register mapped in memory may differ, and it holds v in the second. -/
structure OnReg (s t : State) (r : Reg) (idx : List Nat) (v : Word) : Prop where
  frame : t = { s with regs := t.regs }
  value : t.reg r idx = v
  others : ∀ a, a ≠ r.at idx → SMap.find a t.regs = SMap.find a s.regs

/-- The errors of a burst lie on one die, at most one byte of a beat. -/
structure oneDie (e : BurstErrs) (die : Nat) : Prop where
  die : ∀ x ∈ e, x.2.1.val / 2 = die ∧ x.2.2 ≠ 0
  beats : (e.map fun x => x.1).Nodup

/-- A sector's entry in the L3 of its home, when its block is resident. -/
def State.l3Sec (s : State) (n : Nat) : Option Sec := (s.home (homeSec n)).l3.sec .l3 n

/-- The bytes of memory outside a sector read as before. -/
def OutsideSector (s t : State) (n : Nat) : Prop := ∀ a, (a < n * 64 ∨ n * 64 + 64 ≤ a) → t.mem.read a = s.mem.read a

/-- The bus takes an access of a requester to a register: its domain is on and its header admits the requester (R33, R166, R280). -/
structure State.reaches (s : State) (w : Who) (r : Reg) (idx : List Nat) : Prop where
  range : s.rangeOf (r.at idx) = .unit
  found : ∀ wr, s.locate w (r.at idx) wr = .ok (.reg r idx 0)

/-- Neither memory, the general state of the cores nor the Shroud differs. -/
structure Quiet (s t : State) : Prop where
  mem : t.mem = s.mem
  cores : t.cores = s.cores
  quads : t.quads = s.quads
  homes : t.homes = s.homes
  shr : t.shr = s.shr
  pdOn : t.pdOn = s.pdOn

/-- Of a core, k' has the general and floating-point registers, the PC and the stack pointers of k. -/
structure SameRegs (k k' : Core) : Prop where
  g : k'.g = k.g
  f : k'.f = k.f
  pc : k'.pc = k.pc
  spH : k'.spH = k.spH

/-- Of two states, only registers differ. -/
structure OnlyRegs (s t : State) : Prop where
  frame : t = { s with regs := t.regs }

/-- Of two states only cores differ, and each agrees but for its event counters and its trace encoder. -/
structure OnlyCounters (s t : State) : Prop where
  frame : t = { s with cores := t.cores }
  cores : ∀ c, Core.Agrees (s.core c) (t.core c) ∧ (t.core c).pc = (s.core c).pc ∧ (t.core c).seqEnd = (s.core c).seqEnd

/-- What a plain RW register holds after a 32-bit write. -/
def afterWrite (s : State) (r : Reg) (idx : List Nat) (v : BitVec 32) : Word :=
  r.spec.written (s.reg r idx) (v.setWidth 64) lanes32

/-- The switch forwards only: no redundancy instance, no stream filter, no sequence recovery and no sequence generation. -/
structure State.plainSwitch (s : State) : Prop where
  inst : ∀ p < 4, s.instOf p = none
  filters : s.sw.tables.filters = []
  recs : s.sw.tables.recs = []
  gens : s.sw.tables.gens = []

/-- A frame as it leaves an external port: without its tag where the port is in the VLAN's untag set, else tagged with the
VLAN and its class (R314). -/
def State.egressForm (s : State) (e : Eth) (p : Nat) : Eth :=
  { e with tag := if s.sw.tables.untag.any fun u => u.1 == s.vidOf e && u.2.contains p then none else some (s.classOf e, s.vidOf e) }

/-! ### The slice engine and Fetas -/

/-- The i-th descriptor of a queue has the service and operation given, may start (R292), has credit at its engine (R303), names no
reserved field and no ranges that clash (R295), and its ranges lie in its windows at pas (R289); in s1 it is charged. -/
structure State.jobRuns (s s1 : State) (n q i svc op : Nat) (j : Job) (rs : List Rng) (pas : List Nat) : Prop where
  job : (s.queueJobs n q)[i]? = some j
  kind : j.svc = svc ∧ j.op = op
  on : s.pdUp 103 = true
  start : s.mayStart j = true
  credit : ∃ u, s.startCredit j.engine n = some u ∧ s1 = u.charge j
  shape : j.rsv = false ∧ clash rs = false
  ranges : j.ranges rs = some pas

/-- The engine reads an input of len bytes for slice n, none of them poisoned: d, in the state u after. -/
def State.inputs (s : State) (n pa len : Nat) (d : Bytes) (u : State) : Prop :=
  (len = 0 ∧ d = [] ∧ u = s) ∨ (0 < len ∧ ∃ p, s.ioRead pa len 16 (s.slicePid n) = (.ok d p, u) ∧ p.any id = false)

/-- The engine writes an output for slice n whole; u is the state after. p: which of its bytes are poisoned. -/
def State.outputs (s : State) (n pa : Nat) (d : Bytes) (u : State) (p : List Bool := []) : Prop :=
  s.ioWrite pa d p 16 (s.slicePid n) = (some true, u)

/-- The engine reads of a record's bank of a size what its validity rests on, none of it poisoned: the header, and of a record its
payload and commit word, with zeros for the rest (R301). -/
def State.bank (s : State) (n size pa : Nat) (b : Bytes) (u : State) : Prop :=
  ∃ h v, s.inputs n pa 32 h v ∧
    ((recHead 0x20 size h = none ∧ b = h ++ zeros (size - 32) ∧ u = v) ∨
     ∃ len p w c, recHead 0x20 size h = some len ∧ v.inputs n (pa + 32) len p w ∧ w.inputs n (pa + size - 64) 8 c u ∧
       b = h ++ p ++ zeros (size - 96 - len) ++ c ++ zeros 56)

/-- A descriptor ends with c: the MRAM sectors of its outputs are cleaned, and their writes waited for, unless none is
written (R289); then its queue completes what it can, in order (R292), and so do those that waited for durability. -/
def State.jobEnds (u : State) (n q : Nat) (j : Job) (rs : List Rng) (pas : List Nat) (c : Cpl) (wrote : Bool) : State :=
  let outs := (rs.zip pas).filter fun p => p.1.w && !(mramSecs p.2 p.1.len).isEmpty
  let cleaned := outs.foldl (fun s p => s.ioClean (s.slicePid n) p.2 p.1.len) u
  let v := if outs.isEmpty || !wrote then u else cleaned.updJob j.id fun j => { j with waits := cleaned.probeWaits }
  ((v.updJob j.id fun j => { j with result := some c }).pump n q pumpFuel).pumpDurable

/-- A descriptor of its engine's fields that one-input services leave zero. -/
def Job.plain (j : Job) : Prop := j.auxLen = 0 ∧ j.aux = 0 ∧ j.key = 0 ∧ j.param = 0

/-- The 16 words of a request (R344): a code and a tag, the arguments, and a descriptor's length and address. -/
def reqWords (code tag : Nat) (args : List Nat) (desc : Option (Nat × Nat)) : List Nat :=
  match desc with
  | none => (code + tag * 2 ^ 16) :: (args ++ List.replicate (15 - args.length) 0)
  | some (len, addr) => (code + tag * 2 ^ 16 + 2 ^ 25) :: (args ++ List.replicate (10 - args.length) 0 ++
      [len, addr % 2 ^ 32, addr / 2 ^ 32, 0, 0])

/-- Fetas is up, and executes next the request of mailbox box with these words, which asks for no deferral; u is the state
without it in the queue. -/
structure State.asks (s u : State) (box tag id code : Nat) (args : List Nat) (desc : Option (Nat × Nat)) : Prop where
  up : s.fetasUp = true
  small : tag < 256
  next : s.nextReq = some { id := id, box := box, words := reqWords code tag args desc }
  taken : u = { s with fsi := { s.fsi with
    accepted := s.fsi.accepted.erase { id := id, box := box, words := reqWords code tag args desc },
    rot := if box < 8 then s.fsi.rot else (box - 7) % 8192 } }

/-- A descriptor of a control mailbox that R347 admits. -/
def State.descOk (s : State) (len addr : Nat) : Prop :=
  0 < len ∧ len ≤ 2 ^ 24 ∧ addr % 8 = 0 ∧ (addr + len ≤ s.part.dramEnd ∨ (mramBase ≤ addr ∧ addr + len ≤ mramEnd))

/-- A request is answered with a status and results, in the state u after its effect. -/
def State.answers (s u : State) (i : Instr) (box code tag : Nat) (a : Ans) : Prop := exec i s = .next (u.reply box (code + tag * 2 ^ 16) a)

/-! ### The Shroud and the Crow's nest -/

/-- The audit-trail entry that the Shroud makes now: a counted kind takes the next event count (R453, R454). -/
def Shroud.entry (x : Shroud) (kind areas detail : Nat) : AuditEntry :=
  { kind := kind, areas := areas, tick := x.tick % 2 ^ 48, evcnt := if countedKind kind then min evMax (x.evcnt + 1) else x.evcnt,
    detail := detail, ident := x.ident.getD 0 }

/-- The Shroud with a counted entry more. -/
def Shroud.counted (x : Shroud) (kind areas : Nat) : Shroud :=
  { x with trail := x.trail ++ [x.entry kind areas 0], evcnt := min evMax (x.evcnt + 1) }

/-- The Shroud with its ROM run after a reset, with no maker key: a session cut short is counted, and the causes of the reset
are noted (R438, R452, R456). -/
def Shroud.restarted (x : Shroud) (cause : Nat) : Shroud :=
  let a := x.marker.getD 0
  let y := if a = 0 then x else x.counted 4 a
  { y with booting := false, marker := none, cause := 0, trail := y.trail ++ [y.entry 5 0 cause] }

/-- A session may be opened: the seal input is asserted and the trail and the event counter have room (R450, R452). -/
def State.mayOpen (s : State) : Prop :=
  flag (s.reg .SEAL_STAT) .SEAL_STAT_SEAL = true ∧ 2 ≤ s.shr.room ∧ s.shr.evcnt < evMax

/-- The Shroud with a message more to send (R444). -/
def Shroud.sends (x : Shroud) (typ reason acked : Nat) (pay : Bytes) : Shroud :=
  { x with smCount := x.smCount + 1, sm := x.sm ++ [portMsg (x.smCount + 1) typ dirSm reason acked pay] }

/-- What a wake source leaves of s, in which its own unit is already updated (R389, R390, R394): its bit is set; in M1 to M7 its
wired sources are raised; in M0 they are raised after the wake, and it wakes the complex if it is enabled, at once unless a power-fail warning holds it off. -/
structure State.Woken (s t : State) (bit : Nat) (wakes : Bool) (src : List Nat) : Prop where
  running : s.mode ≠ .m0 → t = { s with regs := t.regs, pulses := s.pulses ++ src } ∧ (t.reg .WAKE_STAT).getLsbD bit = true
  masked : s.mode = .m0 → wakes = false →
    t = { s with regs := t.regs, crow := { s.crow with wakes := s.crow.wakes ++ src } } ∧ (t.reg .WAKE_STAT).getLsbD bit = true
  held : s.mode = .m0 → wakes = true → flag (s.reg .PF_CFG) .PF_CFG_PF = true →
    t = { s with regs := t.regs, crow := { s.crow with wakes := s.crow.wakes ++ src, heldWake := true } } ∧
      (t.reg .WAKE_STAT).getLsbD bit = true
  starts : s.mode = .m0 → wakes = true → flag (s.reg .PF_CFG) .PF_CFG_PF = false → s.crow.resetLow = false → s.crow.cut = false →
    s.crow.waitGood = false → s.crow.dousing = false → s.crow.after = .nothing → s.pwrTodo 1 ≠ [] →
    t = { s with regs := t.regs, crow := { s.crow with wakes := s.crow.wakes ++ src, todo := s.pwrTodo 1, after := .wake } } ∧ (t.reg .WAKE_STAT).getLsbD bit = true

end Sys2Proof.Machine
end

