-- ==== Sys2Proof/Certificates/Slice0/Obligations.lean ====
section
/-! DEFINITION. The statements for the provers. -/

open Sys2Proof Sys2Proof.Machine

/-- R50: every register-register instruction that begins writes Gd with the value of its row and goes on; nothing else
changes.

R51, R52: the immediate instructions and the multiplications.

Completion of ADD, SUB, AND, OR, XOR, SLL, SRL, SRA, SLT, SLTU, SEQ, SNE, MIN, MAX, MINU, MAXU, ADDW, SLLW, SRLW,
SRAW, CLZ, CTZ, POPC, SEL, ADDI, ANDI, ORI, XORI, SLTI, SLTIU, LUI, AUIPC, SLLI, SRLI, SRAI, ADDIW, MUL, MULH, MULHU
and MULW. -/
def Obligations.IntegerResults : Prop :=
  (∀ (s u : State) (c : CoreId) (rd ra rb rx : RegNo),
     ∀ p ∈ rrRows c rd ra rb rx ((u.core c).readG ra) ((u.core c).readG rb) ((u.core c).readG rx),
       s.begins c { g := rd :: p.2.1, units := p.2.2.1 } = some u →
       Completes p.1 s fun t => GoesOn u t c ((u.core c).writeG rd p.2.2.2) (u.core c).pc) ∧
  (∀ (s u : State) (c : CoreId) (rd ra rb : RegNo) (imm : BitVec 16) (sh : BitVec 6),
     ∀ p ∈ riRows c rd ra rb imm sh (u.core c).pc ((u.core c).readG ra) ((u.core c).readG rb),
       s.begins c { g := rd :: p.2.1, units := p.2.2.1 } = some u →
       Completes p.1 s fun t => GoesOn u t c ((u.core c).writeG rd p.2.2.2) (u.core c).pc)

/-- R52, R53, R84: a division that begins is put into the divider with the result the rules give and retires; its
destination is written when it completes.

R84, R88: the long operation in flight completes: its destination gets its result, FPFLAGS its flags, and the
divider is free; nothing else changes. (Without an armed residue mismatch, and without an integer division by zero
whose fault FPCTL.IDZE enables.)

R85, R100: with no operation in flight and no fault owed, and in a core that has stopped, LONG_OP_COMPLETE changes nothing.

Completion of DIV, DIVU, REM, REMU, DIVW, DIVUW and LONG_OP_COMPLETE. -/
def Obligations.LongOperations : Prop :=
  (∀ (s u : State) (c : CoreId) (rd ra rb : RegNo),
     s.begins c { g := [rd, ra, rb], all := true } = some u →
     ∀ p ∈ divRows c rd ra rb (u.core c).pc ((u.core c).readG ra) ((u.core c).readG rb),
       Completes p.1 s fun t => GoesOn u t c { u.core c with long := some p.2 } (u.core c).pc) ∧
  (∀ (s : State) (c : CoreId) (o : LongOp), (s.core c).long = some o → (∀ r, (s.core c).run ≠ .stopped r) → (s.core c).owed = none →
     (s.core c).fld .RES_CTL .RES_CTL_INJ ≠ 3 →
     ¬ (o.fp = false ∧ o.flags.getLsbD 5 = true ∧ flag ((s.core c).reg .FPCTL) .FPCTL_IDZE = true) →
     exec (.longOpComplete c) s = .next (s.setCore c (
       let k := { s.core c with long := none }
       let w := if o.fp then k.writeF o.rd o.result else k.writeG o.rd o.result
       w.setReg .FPFLAGS [] (w.reg .FPFLAGS ||| o.flags.setWidth 64)))) ∧
  (∀ (s : State) (c : CoreId),
     ((∃ r, (s.core c).run = .stopped r) ∨ ((s.core c).long = none ∧ (s.core c).owed = none) → exec (.longOpComplete c) s = .next s))

/-- R42, R43: G0 reads as zero and a write of it changes nothing; a write of another G register reads back at the same
level and leaves the other G registers alone; G30 is the stack pointer of the level, and the copies of the other levels stay.

R105, R129: fetching an instruction, whatever its outcome, leaves every general and floating-point register, the PC and the
stack pointer of H of every core alone. (What State.begins does before an instruction's effect.) -/
def Obligations.RegisterFile : Prop :=
  (∀ (k : Core) (v : Word),
     k.readG 0 = 0 ∧ k.writeG 0 v = k ∧
     (∀ r : RegNo, r ≠ 0 → (k.writeG r v).readG r = v) ∧
     (∀ r q : RegNo, q ≠ r → (k.writeG r v).readG q = k.readG q) ∧
     (∀ l, l ≠ k.level → (k.writeG 30 v).sp l = k.sp l) ∧
     (k.writeG 30 v).sp k.level = v) ∧
  (∀ (s : State) (c d : CoreId), let k := (s.fetch c).2.core d
     (∀ n, k.readG n = (s.core d).readG n) ∧ (∀ n, k.readF n = (s.core d).readF n) ∧ k.pc = (s.core d).pc ∧ k.spH = (s.core d).spH)

/-- R55, R97: an instruction with a rounding mode that is not reserved, and that signals no enabled exception, sets the
flags of what it signals and writes its rounded result.

R55, R57, R97: minimum, maximum, sign injection, comparison, class and fused multiply-add, which rounds in the dynamic
mode.

R55, R44: the moves between G and F registers copy bits; FMV.S.X boxes.

Completion of FADD_S, FADD_D, FSUB_S, FSUB_D, FMUL_S, FMUL_D, FMIN_S, FMIN_D, FMAX_S, FMAX_D, FSGNJ_S, FSGNJ_D,
FSGNJN_S, FSGNJN_D, FSGNJX_S, FSGNJX_D, FEQ_S, FEQ_D, FLT_S, FLT_D, FLE_S, FLE_D, FCLASS_S, FCLASS_D, FCVT_S_D,
FCVT_D_S, FCVT_L_S, FCVT_L_D, FCVT_W_S, FCVT_W_D, FCVT_S_L, FCVT_D_L, FCVT_S_W, FCVT_D_W, FMV_X_S, FMV_X_D, FMV_S_X,
FMV_D_X, FMADD_S, FMADD_D, FMSUB_S, FMSUB_D, FNMADD_S, FNMADD_D, FNMSUB_S and FNMSUB_D. -/
def Obligations.FloatResults : Prop :=
  (∀ (s u : State) (c : CoreId) (fd fa fb : RegNo) (rm : BitVec 5) (r : RMode), (u.core c).rmode rm = some r →
     ∀ p ∈ fpRounded c fd fa fb rm r (u.core c), s.begins c p.needs = some u → p.v.2 &&& (u.core c).fpEnables = 0 →
       Completes p.i s fun t => GoesOn u t c ((u.core c).deliver p) (u.core c).pc) ∧
  (∀ (s u : State) (c : CoreId) (fd fa fb fx : RegNo),
     ∀ p ∈ fpPlain c fd fa fb fx (u.core c), s.begins c p.needs = some u → p.v.2 &&& (u.core c).fpEnables = 0 →
       Completes p.i s fun t => GoesOn u t c ((u.core c).deliver p) (u.core c).pc) ∧
  (∀ (s u : State) (c : CoreId) (d a : RegNo),
     (s.begins c { f := [a], g := [d] } = some u →
       (Completes (.fmvXS c d a) s fun t =>
         GoesOn u t c ((u.core c).writeG d ((((u.core c).readF a).setWidth 32).signExtend 64)) (u.core c).pc) ∧
       (Completes (.fmvXD c d a) s fun t => GoesOn u t c ((u.core c).writeG d ((u.core c).readF a)) (u.core c).pc)) ∧
     (s.begins c { g := [a], f := [d] } = some u →
       (Completes (.fmvSX c d a) s fun t => GoesOn u t c
         ((u.core c).writeF d (0xFFFFFFFF#32 ++ ((u.core c).readG a).setWidth 32)) (u.core c).pc) ∧
       (Completes (.fmvDX c d a) s fun t => GoesOn u t c ((u.core c).writeF d ((u.core c).readG a)) (u.core c).pc)))

/-- R54, R96: FDIV and FSQRT with no exception enabled that they can signal are put into the divider; ordered ones that
signal none that is enabled deliver at once.

Completion of FDIV_S, FDIV_D, FSQRT_S and FSQRT_D. -/
def Obligations.FloatLongResults : Prop :=
  ∀ (s u : State) (c : CoreId) (fd fa fb : RegNo) (rm : BitVec 5) (r : RMode), (u.core c).rmode rm = some r →
    ∀ q ∈ fpLongRows c fd fa fb rm r (u.core c), s.begins c q.2.needs = some u →
      ((u.core c).fpEnables &&& q.2.can = 0 → Completes q.2.i s fun t =>
        GoesOn u t c { u.core c with long := some (floatLong q.1 fd q.2 (u.core c).pc) } (u.core c).pc) ∧
      ((u.core c).fpEnables &&& q.2.can ≠ 0 → q.2.v.2 &&& (u.core c).fpEnables = 0 → Completes q.2.i s fun t =>
        GoesOn u t c ((u.core c).deliver q.2) (u.core c).pc)

/-- R97: an instruction that signals an enabled exception writes no destination and no FPFLAGS bit; it takes cause 0x0F at its
own address, which writes FPCAUSE with every exception signalled.

R130, R140: at a boundary with an acceptable interrupt it does not begin: the interrupt is taken, and finds the state before the
instruction. -/
def Obligations.FloatTrap : Prop :=
  ∀ (s u : State) (c : CoreId) (fd fa fb fx : RegNo) (rm : BitVec 5) (r : RMode), (u.core c).rmode rm = some r →
    ∀ p ∈ fpRounded c fd fa fb rm r (u.core c) ++ (fpLongRows c fd fa fb rm r (u.core c)).map (·.2) ++ fpPlain c fd fa fb fx (u.core c),
      (s.begins c p.needs = some u → p.v.2 &&& (u.core c).fpEnables &&& p.can ≠ 0 → (u.core c).irqReady = false →
        ∃ v, OnCore c u v ∧ exec p.i s = .next (v.raise c { cause := 0x0F, fpcause := p.v.2.setWidth 64 } (s.core c).pc)) ∧
      ((s.core c).ready = true → s.traceStalled c = false → (s.core c).mcheck = false → (s.core c).owed = none →
        (s.core c).irqReady = true → (s.core c).long = none → exec p.i s = .next (s.interrupt c))

/-- R59: a branch goes to PC + sext(DISP15) × 4 when its condition holds and on otherwise; H never changes the outcome, and no
register changes.

R59, R60: J goes to PC + sext(DISP26) × 4; JAL also writes G26 with PC + 4 and pushes it on the return stack; JALR goes to
its target, computed before Gd is written, and pops and pushes as R60 says.

R108, R110, R111: after a wrong guess the fetches and the return-stack actions of the wrong path stay; they change no register of
any core (what they are is a free value, log entry 87).

Completion of BEQ, BNE, BLT, BGE, BLTU, BGEU, J, JAL and JALR. -/
def Obligations.ControlTransfers : Prop :=
  (∀ (s u : State) (c : CoreId) (ra rb : RegNo) (h : Bool) (d : BitVec 15), s.begins c { g := [ra, rb] } = some u →
     ∀ p ∈ branchRows c ra rb h d ((u.core c).readG ra) ((u.core c).readG rb),
       ∃ v, (∀ e, Core.KeepsRegs (u.core e) (v.core e)) ∧ (((u.core c).guess h d = true ↔ p.2) → v = u) ∧
         (p.2 → Completes p.1 s fun t => Ends v t c (v.core c) ((u.core c).pc + (d.signExtend 64 <<< 2))) ∧
         (¬ p.2 → Completes p.1 s fun t => GoesOn v t c (v.core c) (u.core c).pc)) ∧
  (∀ (s u : State) (c : CoreId) (rd ra : RegNo) (imm : BitVec 16) (d : BitVec 26),
     let k := u.core c
     let link := k.pc + 4
     let target := k.pc + (d.signExtend 64 <<< 2)
     let target' := (k.readG ra + imm.signExtend 64) &&& ~~~3#64
     let pops := (rd = 0 ∧ ra = 26 ∧ imm = 0) ∨ (rd = 26 ∧ ra = 26)
     let rest := if pops then k.rstack.tail else k.rstack
     let k' := (k.withStack (if rd = 26 then (link :: rest).take 8 else rest)).writeG rd link
     (s.begins c {} = some u → Completes (.j c d) s fun t => Ends u t c k target) ∧
     (s.begins c { g := [26] } = some u → Completes (.jal c d) s fun t =>
       Ends u t c ((k.withStack ((link :: k.rstack).take 8)).writeG 26 link) target) ∧
     (s.begins c { g := [rd, ra], units := [0] } = some u →
       (¬ pops ∨ flag (k.reg .PRED_CTL) .PRED_CTL_BARRED = true ∨ k.rstack.head?.getD target' = target' →
         Completes (.jalr c rd ra imm) s fun t => Ends u t c k' target') ∧
       (∃ v, Core.KeepsRegs k' (v.core c) ∧ (∀ e, e ≠ c → Core.KeepsRegs (u.core e) (v.core e)) ∧
         Completes (.jalr c rd ra imm) s fun t => Ends v t c (v.core c) target')))

/-- R61: RSFLUSH empties the return stack; BAR.PRED empties it and bars prediction; CLR.PRED clears the bar and leaves the
stack empty. R54: LSYNC goes on once the long operation in flight, if any, is complete.

R62: PREFETCH of a kind above 2 has no effect; every PREFETCH goes on in sequence and changes no register of any core.

Completion of RSFLUSH, BAR.PRED, CLR.PRED, LSYNC and PREFETCH. -/
def Obligations.PredictionAndPrefetch : Prop :=
  (∀ (s u : State) (c : CoreId),
     let k := u.core c
     (s.begins c {} = some u →
       (Completes (.rsflush c) s fun t => GoesOn u t c { k with rstack := [] } k.pc) ∧
       (Completes (.barPred c) s fun t => GoesOn u t c { (k.setFld .PRED_CTL [] .PRED_CTL_BARRED 1) with rstack := [] } k.pc) ∧
       (Completes (.clrPred c) s fun t => GoesOn u t c { (k.setFld .PRED_CTL [] .PRED_CTL_BARRED 0) with rstack := [] } k.pc)) ∧
     (s.begins c { all := true } = some u → k.long = none ∧ Completes (.lsync c) s fun t => GoesOn u t c k k.pc)) ∧
  (∀ (s u : State) (c : CoreId) (kind ra : RegNo) (imm : BitVec 16), s.begins c { g := [ra], units := [0] } = some u →
     (2 < kind.val → Completes (.prefetch c kind ra imm) s fun t => GoesOn u t c (u.core c) (u.core c).pc) ∧
     (Completes (.prefetch c kind ra imm) s fun t =>
       (t.core c).pc = seqNext (u.core c).pc ∧ Core.KeepsRegs { u.core c with pc := seqNext (u.core c).pc } (t.core c) ∧
       ∀ e, e ≠ c → Core.KeepsRegs (u.core e) (t.core e)))

/-- R58: a load whose bytes can be read writes them, extended as its row says, and goes on.

Completion of LB, LBU, LH, LHU, LW, LWU, LD, FLW and FLD. -/
def Obligations.LoadResults : Prop :=
  ∀ (s u w : State) (c : CoreId) (rd ra : RegNo) (imm : BitVec 16) (v : Nat), ∀ p ∈ loadRows c rd ra imm,
    s.begins c p.2.1 = some u → u.loadAccess c p.2.2 ((u.core c).readG ra + imm.signExtend 64) = some (v, w) →
    Completes p.1 s fun t => GoesOn w t c ((w.core c).loaded p.2.2 rd v) (w.core c).pc

/-- R58, R143, R205: a store whose checks pass, which leave the state v, enters the store buffer at retire, behind every store
already there: one entry with the low bytes of its register, or two, lower half first, when it is split. It changes no
register and no byte of memory; a reservation of its own core on a sector it writes ends (R64).

R205, R206: where the buffer is full, or an exception's frame stands before it, the older entries leave first, oldest first.

R8, R143: a buffered store of 1 to 8 bytes changes, of its sector, exactly its bytes, and they read back as its data,
least significant byte first.

Completion of SB, SH, SW, SD, FSW and FSD. -/
def Obligations.StoreResults : Prop :=
  (∀ (s u v : State) (c : CoreId) (rb ra : RegNo) (imm : BitVec 16) (x y : Xlat) (m n : Nat),
     ∀ p ∈ storeRows c rb ra imm (u.core c), s.begins c p.2.1 = some u →
     ∀ parts ∈ [[(x, m)], [(x, m), (y, n)]],
       u.checkAccess c (u.core c).level ((u.core c).readG ra + imm.signExtend 64) p.2.2.1 .store = (.ok parts, v) →
       let k := v.core c
       let val := p.2.2.2.toNat % 256 ^ p.2.2.1
       let es := [v.storeEntry (u.core c) x m val] ++ if parts.length = 2 then [v.storeEntry (u.core c) y n (val / 256 ^ m)] else []
       (k.frame = [] → k.sb.length + es.length ≤ 16 → Completes p.1 s fun t =>
         GoesOn v t c { k with sb := k.sb ++ es, resv := if ∃ e ∈ es, k.resv = some (e.pa / 64) then none else k.resv } k.pc) ∧
       (∀ w, v.pushStore c es = (true, w) → Completes p.1 s fun t => GoesOn w t c (w.core c) (w.core c).pc ∧
         ∃ older, older <:+ k.sb ∧ (t.core c).sb = older ++ es ∧ (t.core c).sb.length ≤ 16)) ∧
  (∀ (e : StoreEntry) (old : BitVec 512), e.size ≤ 8 → e.pa % 64 + e.size ≤ 64 →
     secBytes (mergeBytes old e.placed.1 e.placed.2) (e.pa % 64) e.size = e.data.toNat % 256 ^ e.size ∧
     ∀ i < 64, (i < e.pa % 64 ∨ e.pa % 64 + e.size ≤ i) →
       secBytes (mergeBytes old e.placed.1 e.placed.2) i 1 = secBytes old i 1)

/-- R63, R64, R65: LL obtains its sector with ownership, reads its location, begins the reservation and the hold on its sector; one
whose home does not answer reads zero (R30); SC without a reservation on the sector returns 1, stores nothing and leaves no
reservation, and so does one that loses it before it owns the sector, and one whose home does not answer; SC that holds it and
owns the sector stores and returns 0.

The model's own choices that it rests on: log entries 18, 92.

Completion of LL.W, LL.D, SC.W and SC.D. -/
def Obligations.LoadReserveStoreConditional : Prop :=
  ∀ (s u v w : State) (c : CoreId) (rd ra rb : RegNo) (t : Xlat) (ps : List (Xlat × Nat)),
    ∀ p ∈ [(4, Instr.llW c rd ra, Instr.scW c rd ra rb), (8, Instr.llD c rd ra, Instr.scD c rd ra rb)],
    (s.begins c { g := [rd, ra] } = some u → u.atomAddr c ((u.core c).readG ra) p.1 .load = (.ok ((t, p.1) :: ps), v) →
      v.drainBuffers c = (true, w) → ∀ y ans, w.atomOwn c t.pa false = (ans, y) → ans ≠ .wait →
      let sec := if ans = .err then {} else y.l1dSec c (t.pa / 64)
      sec.poison = false → Completes p.2.1 s fun z => GoesOn y z c
        { ((y.core c).writeG rd (atomValue p.1 (secBytes sec.data (t.pa % 64) p.1))) with
          resv := some (t.pa / 64), hold := if ans = .err then none else some (t.pa / 64) } (y.core c).pc) ∧
    (s.begins c { g := [rd, ra, rb] } = some u → u.atomAddr c ((u.core c).readG ra) p.1 .store = (.ok ((t, p.1) :: ps), v) →
      v.drainStores c = (true, w) →
      let fails (y : State) := Completes p.2.2 s fun z => GoesOn y z c { ((y.core c).writeG rd 1) with resv := none } (y.core c).pc
      ((w.core c).resv ≠ some (t.pa / 64) → fails w) ∧
      ((w.core c).resv = some (t.pa / 64) → ∀ y ans, w.atomOwn c t.pa true = (ans, y) →
        (ans = .ok → (y.core c).resv = some (t.pa / 64) → Completes p.2.2 s fun z =>
          let a := y.atomWrite c t.pa p.1 ((w.core c).readG rb)
          GoesOn a z c { ((a.core c).writeG rd 0) with resv := none } (a.core c).pc) ∧
        ((y.core c).resv ≠ some (t.pa / 64) → fails y) ∧
        (ans = .err → fails y)))

/-- R63, R66: CAS, SWAP and AMOADD return the old bytes; SWAP stores Gb, AMOADD the sum, and CAS stores Gb only when the old
value equals Gc; each ends a reservation on the sector. Where its home does not answer it returns 0 and stores nothing (R30).

The model's own choices that it rests on: log entry 16.

Completion of CAS, SWAP and AMOADD, W and D. -/
def Obligations.AtomicResults : Prop :=
  ∀ (s u w : State) (c : CoreId) (rd ra rb rx : RegNo) (t : Xlat) (ans : GetAns), ∀ size ∈ [4, 8],
    u.atomAccess c size ((u.core c).readG ra) .rmw = some (t, ans, w) →
    let old := if ans = .err then 0 else w.l1dBytes c t.pa size
    let b := (w.core c).readG rb
    let ends (v : Option Word) (z : State) : Prop :=
      let a := match (if ans = .err then none else v) with
        | some x => w.atomWrite c t.pa size x
        | none => w
      GoesOn a z c { ((a.core c).writeG rd (atomValue size old)) with
        resv := if (a.core c).resv = some (t.pa / 64) then none else (a.core c).resv } (a.core c).pc
    (s.begins c { g := [rd, ra, rb] } = some u →
      Completes (if size = 4 then .swapW c rd ra rb else .swapD c rd ra rb) s (ends (some b)) ∧
      Completes (if size = 4 then .amoaddW c rd ra rb else .amoaddD c rd ra rb) s (ends (some (BitVec.ofNat 64 old + b)))) ∧
    (s.begins c { g := [rd, ra, rb, rx] } = some u →
      Completes (if size = 4 then .casW c rd ra rb rx else .casD c rd ra rb rx) s
        (ends (if old = ((w.core c).readG rx).toNat % 256 ^ size then some b else none)))

/-- R68, R72, R212: FENCE and FENCE.SL go on when every earlier store of the core is out of its store buffer and acknowledged;
FENCE.IO when the buffer is drained to behind its last Device store and every Device store is acknowledged; FENCE.I when the
store buffer is drained, and it empties the L1I; PSYNC when the stores are out and no MRAM sector of the core is open, or once
the probe it sent is answered, and it leaves no sector open.

The model's own choices that it rests on: log entry 13.

Completion of FENCE, FENCE.SL, FENCE.IO, FENCE.I and PSYNC. -/
def Obligations.BarriersComplete : Prop :=
  ∀ (s u w : State) (c : CoreId),
    (s.begins c {} = some u → u.drainStores c = (true, w) →
      (Completes (.fence c) s fun t => GoesOn w t c (w.core c) (w.core c).pc ∧ (t.core c).sb = [] ∧ (t.core c).devOut = []) ∧
      (Completes (.fenceSl c) s fun t => GoesOn w t c (w.core c) (w.core c).pc ∧ (t.core c).sb = [] ∧ (t.core c).devOut = []) ∧
      (((w.core c).mramOpen = [] ∧ ∀ p ∈ w.probes, p.who ≠ c.val) ∨
       (∃ p, (w.probes.find? fun p => p.who == c.val) = some p ∧ p.answered = true) →
        Completes (.psync c) s fun t => GoesOn { w with probes := w.probes.filter fun p => p.who ≠ c.val } t c
          { w.core c with mramOpen := [] } (w.core c).pc ∧ (t.core c).sb = [] ∧ (t.core c).devOut = [])) ∧
    (s.begins c {} = some u →
      ((∀ e ∈ (u.core c).sb, e.typ ≠ .device) → (u.core c).devOut = [] →
        Completes (.fenceIo c) s fun t => GoesOn u t c (u.core c) (u.core c).pc) ∧
      (∀ before e behind, (u.core c).sb = before ++ e :: behind → e.typ = .device → (∀ d ∈ behind, d.typ ≠ .device) →
        u.drainN c (before.length + 1) = (true, w) → (w.core c).devOut = [] →
        Completes (.fenceIo c) s fun t => GoesOn w t c (w.core c) (w.core c).pc)) ∧
    (s.begins c { all := true } = some u → u.drainAll c = (true, w) →
      Completes (.fenceI c) s fun t =>
        GoesOn w t c { w.core c with l1i := { (w.core c).l1i with frames := [] } } (w.core c).pc ∧ (t.core c).sb = [])

/-- R71, R69, R70: ZLINE to a cached location enters the store buffer as a 64-byte store; CLEAN, INVAL and FLUSH act on the
sector everywhere; the set/way operations act on the named block, or do nothing beyond the geometry; each goes on.

The model's own choices that it rests on: log entry 9.

Completion of ZLINE, CLEAN, INVAL, FLUSH, CLEAN.SW, INVAL.SW and FLUSH.SW. -/
def Obligations.CacheMaintenance : Prop :=
  ∀ (s u v w : State) (c : CoreId) (ra : RegNo) (t : Xlat), s.begins c { g := [ra] } = some u →
    let k := u.core c
    let a := k.readG ra
    (translateFor c k.level (a &&& ~~~0x3F#64) .store true false u = (.ok t, v) →
      v.pushStore c [{ pa := t.pa, size := 64, data := 0, typ := t.mt, lvl := k.level, pid := k.pid k.level, cls := k.cls k.level }]
        = (true, w) →
      Completes (.zline c ra) s fun z => GoesOn w z c (w.core c) (w.core c).pc) ∧
    (u.maintAccess c .cln .load a = some w → Completes (.clean c ra) s fun z => GoesOn w z c (w.core c) (w.core c).pc) ∧
    (k.level ≠ .u → u.maintAccess c .inv .store a = some w →
      Completes (.inval c ra) s fun z => GoesOn w z c (w.core c) (w.core c).pc) ∧
    (u.maintAccess c .fls .load a = some w → Completes (.flush c ra) s fun z => GoesOn w z c (w.core c) (w.core c).pc) ∧
    (k.level = .h → ∀ op, u.swAct c op a.toNat = some w →
      Completes (match op with | .clean => .cleanSw c ra | .inval => .invalSw c ra | .flush => .flushSw c ra) s fun z =>
        GoesOn w z c (w.core c) (w.core c).pc)

/-- R73 to R76: an invalidation whose flags are permitted, at K or H (with S only at H), completes on its own core at once: no
entry it selects is left there; without L it is on its way to every other core that is on. TLBSYNC goes on once none of the
core's is on its way.

R129: TLBI with S at K takes cause 0x04 (no acceptable interrupt before it, R130).

Completion of TLBI, SLBI, WCINV and TLBSYNC. -/
def Obligations.TranslationInvalidation : Prop :=
  ∀ (s u : State) (c : CoreId) (rx ra : RegNo) (fl : BitVec 12), (u.core c).level ≠ .u →
    (∀ p ∈ [(0, ra, Instr.tlbi c rx ra fl), (1, ra, Instr.slbi c rx ra fl), (2, 0, Instr.wcinv c rx fl)],
      s.begins c { g := [rx, p.2.1] } = some u → invalFlagsOk p.1 fl = true → ((u.core c).level = .k → fl.getLsbD 4 = false) →
      let v := (u.core c).invalOf p.1 ((u.core c).readG rx) ((u.core c).readG p.2.1) fl
      Completes p.2.2 s fun t =>
        GoesOn { u with remoteInv := if fl.getLsbD 6 then u.remoteInv else u.remoteInv ++ (u.invalTargets c).map fun i => (c.val, i, v) }
          t c ((u.core c).inval v) (u.core c).pc ∧
        (p.1 = 0 → ∀ e ∈ (t.core c).itlb ++ (t.core c).dtlb ++ (t.core c).l2tlb, ∀ x, e.2 = some x → v.hitsTlb x = false) ∧
        (p.1 = 1 → ∀ e ∈ (t.core c).slb, ∀ x, e.2 = some x → v.hitsSlb x = false) ∧
        (p.1 = 2 → ∀ e ∈ (t.core c).wc, ∀ x, e.2 = some x → v.hitsWc x = false)) ∧
    (s.begins c { g := [rx, ra] } = some u → invalFlagsOk 0 fl = true → (u.core c).level = .k → fl.getLsbD 4 = true → (u.core c).irqReady = false →
      exec (.tlbi c rx ra fl) s = .next (u.raise c { cause := 0x04, addr := wordX 0x3E 0 rx ra fl } (s.core c).pc)) ∧
    (s.begins c { all := true } = some u →
      Completes (.tlbsync c) s fun t => (∀ r ∈ t.remoteInv, r.1 ≠ c.val) ∧
        GoesOn (u.finishInvals fun r => r.1 == c.val) t c ((u.finishInvals fun r => r.1 == c.val).core c) (u.core c).pc)

/-- R77, R81, R14: MFS returns what the register reads as and clears its RC fields; MTS writes it; MSSET and MSCLR return the old
value and write old OR Ga and old AND NOT Ga; for a register that the level may access. WFI at K or H goes on, and issue stops
unless it already completes (R275).

Completion of MFS, MTS, MSSET, MSCLR and WFI. -/
def Obligations.SystemRegisterAccess : Prop :=
  ∀ (s u : State) (c : CoreId) (rx ra : RegNo) (num : BitVec 12) (r : Reg) (idx : List Nat),
    let k := u.core c
    (sysCheck k.level num.toNat = .ok (r, idx) →
      (s.begins c { g := [rx], all := mfsWaits num.toNat } = some u → k.evBarred r idx false = false →
        Completes (.mfs c rx num) s fun t =>
          GoesOn u t c ((k.setReg r idx (r.spec.afterRead (k.reg r idx) (BitVec.allOnes 64))).writeG rx (u.sysRead c r idx)) k.pc) ∧
      (s.begins c { g := [ra], all := true } = some u → k.evBarred r idx true = false →
        Completes (.mts c ra num) s fun t =>
          GoesOn (u.sysWrite c r idx (k.readG ra)) t c ((u.sysWrite c r idx (k.readG ra)).core c) k.pc) ∧
      (s.begins c { g := [rx, ra], all := true } = some u → k.evBarred r idx true = false →
        (let m := u.sysModify c r idx (fun old => old ||| k.readG ra) (k.readG ra)
         Completes (.msset c rx ra num) s fun t => m.1 = u.sysRead c r idx ∧ GoesOn m.2 t c ((m.2.core c).writeG rx m.1) k.pc) ∧
        (let m := u.sysModify c r idx (fun old => old &&& ~~~(k.readG ra)) 0
         Completes (.msclr c rx ra num) s fun t => m.1 = u.sysRead c r idx ∧ GoesOn m.2 t c ((m.2.core c).writeG rx m.1) k.pc))) ∧
    (s.begins c { all := true } = some u → k.level ≠ .u →
      Completes (.wfi c) s fun t => GoesOn u t c { k with run := if k.wakes then .running else .wfi } k.pc)

/-- R77, R128, R131, R133, R134: SYSCALL, HCALL, BRK, an illegal instruction and a privileged instruction at U take their
exception, where no interrupt is acceptable before it (R130): the level that R131 routes it to is entered, with its trap record
written, the frame of ten doublewords below its stack pointer, STATUS.LEVEL set, IE and SS clear, the reservation gone and the PC
at the vector entry; what the core had sent for an instruction that is executed again is answered to nobody (R135).

R48: a word that is an instruction is no illegal one: the command then changes nothing.

Completion of SYSCALL, HCALL, BRK and ILLEGAL_INSTRUCTION. -/
def Obligations.TrapEntry : Prop :=
  (∀ (s u v w : State) (c : CoreId) (code : BitVec 12) (word : BitVec 32) (pas : List Nat) (handler : Word), decodeWord c word = none →
     (u.core c).long = none → (u.core c).irqReady = false →
     ∀ p ∈ trapRows c code u ++
       [(Instr.illegalInstruction c word, ({} : Needs), u, { cause := 0x03, addr := word.zeroExtend 64 }, (u.core c).pc)],
       s.begins c p.2.1 = some u →
       p.2.2.1.drainFrame c = (true, v) → v.checkEntry c ((u.core c).route p.2.2.2.1.cause) p.2.2.2.1.cause = (.ok pas handler, w) →
       (w.core c).level = (u.core c).level →
       Completes p.1 s fun t => Ends { w.forsake c with probes := w.probes.filter fun q => q.who ≠ c.val } t c
         ((w.core c).entered ((u.core c).route p.2.2.2.1.cause) p.2.2.2.1 p.2.2.2.2 handler pas) handler) ∧
  (∀ (s : State) (c : CoreId) (word : BitVec 32) (i : Instr), decodeWord c word = some i →
     exec (.illegalInstruction c word) s = .next s)

/-- R140: TRET with an aligned stack pointer and a readable frame that names no higher level returns: G1 to G8, the stack
pointer, STATUS and the PC come from the frame, and the reservation is gone; a step trap that the frame's entry came before is owed
again (R146; log entry 92). The level is checked before G1 to G8 are read.

Completion of TRET. -/
def Obligations.TrapReturn : Prop :=
  ∀ (s u v w : State) (c : CoreId) (top gs : List Word), s.begins c { all := true } = some u →
    let l := (u.core c).level
    let sp := (u.core c).sp l
    l ≠ .u → sp.toNat % 16 = 0 → u.readFrame c l sp 2 [] = (.ok top, v) → bits (top.getD 1 0) .STATUS_LEVEL ≤ l.toNat →
    v.readFrame c l (sp + 16) 8 [] = (.ok gs, w) →
    Completes (.tret c) s fun t => Ends w t c ((w.core c).returned l sp (top ++ gs)) (top.getD 0 0 &&& ~~~3#64)

/-- R146: an instruction that retires with STATUS.SS set goes on to its next address, where the step trap is owed, and a core that
still runs takes it at once, cause 0x12 with the address of the next instruction; a machine check, then an acceptable interrupt,
comes first (R130). Another entry that comes first keeps it owed, for the TRET of its frame, and an entry leaves none owed in the
handler. A WFI that waits is stepped once it completes. (No long operation is in flight.)

The model's own choices that it rests on: log entry 92. -/
def Obligations.SingleStep : Prop :=
  (∀ (s : State) (c : CoreId) (pc npc : Word) (seq : Bool), (s.core c).long = none → (s.core c).owed = none →
    let next := if seq = true ∧ lastPc pc = true then seqNext pc else npc
    ∃ v, Ends s v c { s.core c with stepDue := true } next (seq && lastPc pc) ∧
      s.retire c pc npc true seq =
        if (v.core c).run ≠ .running then v.haltCheck c
        else if (v.core c).mcheck then v.trapNow c { cause := 0x16 } next fun k => { k with mcheck := false }
        else if (v.core c).irqReady then v.interrupt c
        else v.trapNow c { cause := 0x12, info := BitVec.ofNat 64 (2 ^ 19) } next) ∧
  (∀ (s : State) (c : CoreId) (l plevel : Level) (t : Trap) (info pc handler : Word) (pas : List Nat),
    let k := (s.finishEntry c l t info plevel pc pas handler).core c
    k.stepDue = false ∧ ((l, k.sp l) ∈ k.stepFrames ↔ (s.core c).stepDue = true ∧ t.cause ≠ 0x12))

/-- R206, R210, R216: the oldest buffered store leaves the buffer when its sector is owned, and the sector then holds its bytes;
a Device one is injected; an Uncached one is sent to its home once, and leaves when the home has acknowledged it.

R137: the frame drains, every doubleword of it, when no store is before it and its sectors are owned.

R65: the hold on snoops ends. R76: an invalidation completes on its core, and no entry that it names is left there.

R197, R198: the reset invalidation of a cache whose domain is on ends: the cache holds nothing and reads as ready; of a cache
whose domain is off, or that is past it, nothing changes.

The model's own choices that it rests on: log entry 17.

Completion of STORE_BUFFER_DRAIN, UNCACHED_STORE_ACK, FRAME_BUFFER_DRAIN, LL_SNOOP_HOLD_END, REMOTE_INVALIDATION and
CACHE_RESET_INVAL_DONE. -/
def Obligations.BuffersAndInvalidation : Prop :=
  (∀ (s : State) (c : CoreId) (e : StoreEntry) (rest fr : List StoreEntry) (m : Msg),
     let n := e.pa / 64
     let owns (t : State) (pa : Nat) : Prop := (t.l1dSec c (pa / 64)).st = .e ∨ (t.l1dSec c (pa / 64)).st = .m
     let quiet (t : State) : Prop := t.mem = s.mem ∧ t.homes = s.homes ∧ (∀ d, d ≠ c → t.core d = s.core d) ∧
       (t.core c).g = (s.core c).g ∧ (t.core c).f = (s.core c).f ∧ (t.core c).pc = (s.core c).pc
     ((s.core c).sb = e :: rest →
       ((e.typ = .normal ∨ e.typ = .persistent) → e.zeroed = false → e.size ≤ 8 → owns s e.pa →
         Completes (.storeBufferDrain c) s fun t => (t.core c).sb = rest ∧ quiet t ∧ (t.l1dSec c n).st = .m ∧
           (t.l1dSec c n).data = mergeBytes (s.l1dSec c n).data e.placed.1 e.placed.2) ∧
       (e.typ = .device → Completes (.storeBufferDrain c) s fun t => (t.core c).sb = rest ∧
         (t.core c).devOut = (s.core c).devOut ++ [e] ∧ quiet t) ∧
       (e.typ = .uncached → (s.core c).ucwSent = true → exec (.storeBufferDrain c) s = .next s) ∧
       (e.typ = .uncached → (s.core c).ucwSent = false → s.homeAnswers n = false →
         exec (.storeBufferDrain c) s = .next (s.setCore c { s.core c with ucwSent := true })) ∧
       (e.typ = .uncached → (s.core c).ucwSent = true → s.homeAnswers n = true → (∀ y ∈ s.quads, y.2.fills = []) →
         (s.net.find? fun p => s.moves n p && s.canArrive p) = none → (∀ p ∈ s.net, p.samePath m = true → p.stays = true) →
         (s.net.find? fun p => p.kind == .done && p.quad == quadOf c && p.core == c.val && p.sec == n) = some m →
         Completes (.uncachedStoreAck c) s fun t => (t.core c).sb = rest ∧ (t.core c).ucwSent = false ∧ t.net = s.net.erase m ∧
           quiet t)) ∧
     ((s.core c).sb = [] → (s.core c).frame = fr → fr.length ≤ 10 →
       (∀ y ∈ fr, y.typ = .normal ∧ y.zeroed = false ∧ y.size = 8 ∧ y.pa % 8 = 0 ∧ owns s y.pa) →
       (fr.map fun y => y.pa).Nodup → Completes (.frameBufferDrain c) s fun t => (t.core c).frame = [] ∧ quiet t ∧
         ∀ y ∈ fr, t.l1dBytes c y.pa 8 = y.data.toNat) ∧
     ((s.core c).hold = none → exec (.llSnoopHoldEnd c) s = .next s) ∧
     (∀ x, (s.core c).hold = some x → s.nobodyWaits (quadOf c) x → (s.quad (quadOf c)).fills = [] →
       exec (.llSnoopHoldEnd c) s = .next (s.setCore c { s.core c with hold := none })) ∧
     ((∀ r ∈ s.remoteInv, r.2.1 ≠ c.val) → exec (.remoteInvalidation c) s = .next s) ∧
     (∀ r, (s.remoteInv.find? fun r => r.2.1 == c.val) = some r →
       Completes (.remoteInvalidation c) s fun t =>
         t = { s.setCore c ((s.core c).inval r.2.2) with remoteInv := s.remoteInv.erase r } ∧
         (r.2.2.op = 0 → ∀ y ∈ (t.core c).itlb ++ (t.core c).dtlb ++ (t.core c).l2tlb, ∀ x, y.2 = some x → r.2.2.hitsTlb x = false) ∧
         (r.2.2.op = 1 → ∀ y ∈ (t.core c).slb, ∀ x, y.2 = some x → r.2.2.hitsSlb x = false))) ∧
  (∀ (s : State) (c : CoreId) (q : Fin 16) (h : Fin 8),
     (s.pdUp (3 + c.val) = true → (s.core c).l1i.ready = false →
       Completes (.cacheResetInvalDone (.l1i c)) s fun t => (t.core c).l1i.ready = true ∧ (t.core c).l1i.frames = [] ∧
         t = s.setCore c { s.core c with l1i := (t.core c).l1i }) ∧
     (s.pdUp (3 + c.val) = true → (s.core c).l1d.ready = false →
       Completes (.cacheResetInvalDone (.l1d c)) s fun t => (t.core c).l1d.ready = true ∧ (t.core c).l1d.frames = [] ∧
         t = s.setCore c { s.core c with l1d := (t.core c).l1d }) ∧
     (s.pdUp (67 + q.val) = true → (s.quad q).l2.ready = false →
       Completes (.cacheResetInvalDone (.l2 q)) s fun t => (t.quad q).l2.ready = true ∧ (t.quad q).l2.frames = [] ∧
         t = s.setQuad q { s.quad q with l2 := (t.quad q).l2 }) ∧
     (s.pdUp (83 + h.val) = true → (s.home h).l3.ready = false →
       Completes (.cacheResetInvalDone (.l3 h)) s fun t => (t.home h).l3.ready = true ∧ (t.home h).l3.frames = [] ∧
         t = s.setHome h { s.home h with l3 := (t.home h).l3 }) ∧
     ((s.pdUp (3 + c.val) = false ∨ (s.core c).l1d.ready = true) → exec (.cacheResetInvalDone (.l1d c)) s = .next s))

/-- R14: what a write leaves of a bit, by the access of its field: RW takes the written bit, W1C clears on 1, W1S sets on 1, and
every other keeps its value; in byte lanes that are not written nothing changes.

R30, R33, R36, R166: an access to reserved space, beyond the fitted memory, of a register that its requester may not reach, or of the
flash while it has none, has no effect but its report; a read returns zero; a write narrower than a register is ignored (KIND 7).

The model's own choices that it rests on: log entries 61, 62. -/
def Obligations.AccessRules : Prop :=
  (∀ (d : RegDef) (old v lanes : Word) (i : Nat), i < 64 →
     (lanes.getLsbD i = false → (d.written old v lanes).getLsbD i = old.getLsbD i) ∧
     (lanes.getLsbD i = true → d.w1c.getLsbD i = false → d.w1s.getLsbD i = false →
       (d.written old v lanes).getLsbD i = if d.rw.getLsbD i then v.getLsbD i else old.getLsbD i) ∧
     (lanes.getLsbD i = true → d.rw.getLsbD i = false → d.w1c.getLsbD i = true → d.w1s.getLsbD i = false →
       (d.written old v lanes).getLsbD i = (old.getLsbD i && !v.getLsbD i)) ∧
     (lanes.getLsbD i = true → d.rw.getLsbD i = false → d.w1c.getLsbD i = false → d.w1s.getLsbD i = true →
       (d.written old v lanes).getLsbD i = (old.getLsbD i || v.getLsbD i)) ∧
     (d.rc.getLsbD i = true → lanes.getLsbD i = true → (d.afterRead old lanes).getLsbD i = false) ∧
     (d.rc.getLsbD i = false → (d.afterRead old lanes).getLsbD i = old.getLsbD i)) ∧
  (∀ (s : State) (w : Who) (pa v : Nat) (h : Hit),
     let err (write : Bool) (kind : Nat) : State :=
       { s with errReports := s.errReports ++ [{ stop := w.stop, write := write, kind := kind, pa := pa, pid := w.pidTag }] }
     let refused (kind : Nat) : Prop := s.busRead w pa 4 = (0, err false kind) ∧ s.busWrite w pa 4 v = err true kind
     (s.rangeOf pa = .reserved → refused 1) ∧ (s.rangeOf pa = .dramBeyond → refused 2) ∧
     (s.rangeOf pa = .qspi → qspiOk s pa = false → refused 5) ∧
     (∀ e, s.rangeOf pa = .unit → s.locate w pa = .error e → s.busRead w pa 4 = (0, err false e)) ∧
     (∀ e, s.rangeOf pa = .unit → s.locate w pa true = .error e → s.busWrite w pa 4 v = err true e) ∧
     (s.rangeOf pa = .unit → s.locate w pa true = .ok h → s.busWrite w pa 1 v = err true 7 ∧ s.busWrite w pa 2 v = err true 7))

/-- One step of the block: it takes the command at the front of the queue, runs it with the rest of the queue in place, and
answers what it answers.

The model's own choices that it rests on: log entry 1. -/
def Obligations.StepRunsFront : Prop :=
  ∀ (s : State) (c : Instr) (q : List Instr), s.pending = c :: q → step s = exec c (s.rest q)

/-- No command of the table stops the model: on every state each answers a next state. (Derived: the spec gives every access
and every command a behaviour, R30.)

The model's own choices that it rests on: log entries 1, 2, 5. -/
def Obligations.EveryCommandGoesOn : Prop :=
  ∀ (i : Instr) (s : State), Goes (exec i s)

/-- Whatever a step does, it takes one command from the front of the queue, keeps the ordering code, never changes or removes an
entry of the audit trail of the Shroud, and keeps the event counter equal to the number of counted entries (R453, R454): an
invariant of the model in every state, reached or not.

The model's own choices that it rests on: log entries 1, 75. -/
def Obligations.StepKeepsLedger : Prop :=
  ∀ s t : State, step s = .next t →
    t.pending = s.pending.tail ∧ t.part = s.part ∧ s.shr.trail <+: t.shr.trail ∧ (s.shr.ledgerOk → t.shr.ledgerOk)

/-- The state after reset meets the invariant of StepKeepsLedger, lists no memory and no command, and every register that is
mapped in memory, and every system register of a core, has its reset value (R16); PD 0 is the only domain that is on (PD 1 has a supply of its own), and no
core runs (R37).

The model's own choices that it rests on: log entries 3, 6, 76. -/
def Obligations.ResetState : Prop :=
  State.reset.Sound ∧ State.reset.pending = [] ∧ State.reset.mem = [] ∧
  (∀ (r : Reg) (idx : List Nat), State.reset.reg r idx = r.spec.reset) ∧
  (∀ (c : CoreId) (r : Reg) (idx : List Nat), (State.reset.core c).reg r idx = r.spec.reset) ∧
  (∀ d, State.reset.pdUp d = true ↔ d = 0) ∧ (∀ c, (State.reset.core c).run = .off)

/-- R185, R188, R193, R194: a home with nothing else to do takes up a request that a quad or a unit sends: it answers it, or sends the
snoops of its row. Holders are the quads the directory lists; L3 data is read from memory when it is not valid (view).

- RD of a sector no quad holds gives E, of a shared one S; of one with an owner it sends SNP_S to the owner.
- RFO of a sector no other quad holds gives E; else it sends SNP_I to each other holder.
- UPG of a listed quad gives E, or M where it was O, without data; with other holders it sends them SNP_I; of a quad that is not
  listed it is an RFO.
- ZREQ gives M without data and leaves the L3 data not valid; it sends SNP_I with discard to other holders.
- UCR gives the data and leaves no copy with the requester; where a quad owns the sector it sends SNP_S. UCW merges its bytes into
  a valid L3 sector, else into memory, and answers DONE; it sends SNP_I to every holder.
- CLN and FLS write dirty L3 data to memory and INV discards it; each answers DONE; with holders they send SNP_C, SNP_I and SNP_I with
  discard.

Completion of RD, RFO, UPG, ZREQ, CLN, INV, FLS, UCR and UCW. -/
def Obligations.CoherenceRequests : Prop :=
  ∀ (s : State) (q : Fin 16) (who : Fin 19) (sec : SecNo) (cls : Fin 8) (data : BitVec 512) (mask : BitVec 64),
    let h := homeSec sec
    let x := (s.home h).l3.secD .l3 sec
    let msg (k : MsgKind) (w : Nat) : Msg := { kind := k, quad := w, toHome := true, sec := sec, cls := cls }
    let reply (k : MsgKind) (w : Nat) : Msg := { kind := k, quad := w, toHome := false, sec := sec }
    let view := if x.dv then (x.data, x.poison) else (s.memRead sec).1
    let full (w : Nat) (excl : Bool) : Msg := { reply .data w with data := view.1, poison := view.2, excl := excl }
    let others := x.holders.filter fun p => p ≠ q.val
    let sends (i : Instr) (ms : List Msg) (P : State → Sec → Prop) : Prop := Completes i s fun t =>
      t.net = s.net ++ ms ∧ t.cores = s.cores ∧ t.quads = s.quads ∧ P t ((t.home h).l3.secD .l3 sec)
    let snoops (i : Instr) (k : MsgKind) (l : List Nat) : Prop :=
      sends i (l.map fun p => reply k p) fun t _ => t.mem = s.mem ∧ (t.home h).busy sec = true
    let mine (_ : State) (y : Sec) : Prop := y.dir = .x ∧ y.owner = q ∧ y.pres = bitOf q
    let room := s.l3Sec sec ≠ none ∨ ∃ f l3, (s.home h).l3.choose .l3 sec (s.classWays h cls) = (some f, l3) ∧ (s.home h).l3.frame f = none
    let inMemory (v : BitVec 512) (t : State) : Prop := t.memSec sec = v ∧ OutsideSector s t sec
    (s.takes (msg .rd q) → room →
      (x.dir = .u → sends (.rd q sec cls) [full q true] mine) ∧
      (x.dir = .s → sends (.rd q sec cls) [full q false] fun _ y => y.dir = .s ∧ y.pres = x.pres ||| bitOf q) ∧
      (x.dir = .x ∨ x.dir = .o → x.owner ≠ q → snoops (.rd q sec cls) .snpS [x.owner])) ∧
    (s.takes (msg .rfo q) → room →
      (x.dir = .u ∨ x.dir = .s → others = [] → sends (.rfo q sec cls) [full q true] mine) ∧
      (others ≠ [] → snoops (.rfo q sec cls) .snpI others)) ∧
    (s.takes (msg .upg q) → room →
      (x.pres.getLsbD q = true → others = [] →
        sends (.upg q sec cls) [{ reply .grant q with excl := true, dirty := decide (x.dir = .o) }] mine) ∧
      (x.pres.getLsbD q = true → others ≠ [] → snoops (.upg q sec cls) .snpI others) ∧
      (x.pres.getLsbD q = false → x.dir = .u ∨ x.dir = .s → others = [] → sends (.upg q sec cls) [full q true] mine)) ∧
    (s.takes (msg .zreq q) → room →
      (others = [] → sends (.zreq q sec cls) [{ reply .grant q with excl := true, dirty := true, mask := BitVec.allOnes 64 }] fun t y =>
        mine t y ∧ y.dv = false) ∧
      (others ≠ [] → snoops (.zreq q sec cls) .snpIdiscard others)) ∧
    (s.takes (msg .ucr who) →
      (x.dir = .u ∨ x.dir = .s → sends (.ucr who sec) [{ full who false with uc := true }] fun _ y => y.pres = x.pres) ∧
      (x.dir = .x ∨ x.dir = .o → snoops (.ucr who sec) .snpS [x.owner])) ∧
    (s.takes (msg .ucw who) →
      (x.holders = [] → x.dv = true → sends (.ucw who sec data mask) [reply .done who] fun t y =>
        t.mem = s.mem ∧ y.dirty = true ∧ y.data = mergeBytes x.data data mask) ∧
      (x.holders = [] → x.dv = false → (s.memRead sec).1 = (s.memSec sec, false) → s.memUp sec = true → s.mramQ = [] →
        sends (.ucw who sec data mask) [reply .done who] fun t _ => inMemory (mergeBytes (s.memSec sec) data mask) t) ∧
      (x.holders ≠ [] → snoops (.ucw who sec data mask) .snpI x.holders)) ∧
    (∀ z ∈ [(MsgKind.cln, MsgKind.snpC, Instr.cln q sec), (.inv, .snpIdiscard, .inv q sec), (.fls, .snpI, .fls q sec)],
      s.takes (msg z.1 q) →
      (x.holders = [] → x.dirty = false ∨ z.1 = .inv → sends z.2.2 [reply .done q] fun t y =>
        t.mem = s.mem ∧ y.dirty = false ∧ y.dv = (x.dv && z.1 == .cln)) ∧
      (x.holders = [] → x.dv = true → x.dirty = true → z.1 ≠ .inv → x.poison = false → s.memUp sec = true → s.mramQ = [] →
        sends z.2.2 [reply .done q] fun t y => inMemory x.data t ∧ y.dirty = false ∧ y.dv = (z.1 == .cln)) ∧
      (x.holders ≠ [] → snoops z.2.2 z.2.1 x.holders))

/-- R186, R191: a snoop that reaches its quad, with no fill awaited and no hold on the sector, is answered: MISS when no cache of the quad
holds it; data when a copy is dirty (but for SNP_I with discard), else ACK. After SNP_S the sector is in S or O and no L1D of the quad
owns it; after SNP_I no L2 and no L1D of the quad holds it; after SNP_C it is clean. A block in the eviction buffer answers from its
entry, which keeps the sector but after SNP_I.

R189, R190, R196: WBGO sends, for each sector its entry names, its data or WBCANCEL, and the entry is free; for a set/way operation the
data comes from the L2, which keeps the sector clean.

R185, R193: data and a grant fill the L2 with the state they carry; the grant of a ZREQ zeroes the sector, whatever the quad held of
it, and no L1D of the quad keeps it; data for a unit or an uncached read leaves no copy.

R185, R186: the last answer to the snoops of a request reaches its home, and the requester gets what the request's row gives: after
ACK the L3 data, after data what the owner gave; RD shares, RFO owns, and is dirty with the owner's data; a quad that
misses is not listed any more. CLN, INV and FLS are answered with DONE. An answer that is not the last leaves the request waiting.

R185, R189, R192, R196: WBREQ takes the home's turn for its block and is answered with WBGO; the data of a named sector goes into the L3,
valid and dirty, and its sender leaves the directory, or stays in it for a set/way operation (log entry 91); WBCANCEL leaves the sector's directory as it was; with the last of them the WBREQ ends.
EVC removes its sender from every sector of the block.

Completion of SNP_S, SNP_I, SNP_C, WBGO, GRANT, DONE, ACK, MISS, WBCANCEL, SECTOR_DATA, WBREQ and EVC. -/
def Obligations.CoherencePackets : Prop :=
  (∀ (s u : State) (q : Fin 16) (who : Fin 19) (sec : SecNo) (data : BitVec 512) (dirty excl : Bool) (mark : Arrival) (p : Msg),
     let here (k : MsgKind) : Msg := { kind := k, quad := q, toHome := false, sec := sec }
     let ans (k : MsgKind) (i : Nat) : Msg := { kind := k, quad := q, toHome := true, sec := sec.val / 4 * 4 + i }
     let given (i : Nat) (d : BitVec 512) (bad : Bool) : Msg := { ans .data i with data := d, poison := bad, dirty := true }
     let x := (s.quad q).l2.secD .l2 sec
     let j := sec.val % 4
     let clean (t : State) : Prop := t.cores = s.cores ∧ t.homes = s.homes ∧ t.mem = s.mem
     (∀ z ∈ [(MsgKind.snpS, Instr.snpS q sec), (.snpI, .snpI q sec false), (.snpIdiscard, .snpI q sec true), (.snpC, .snpC q sec)],
       s.lands u (here z.1) p → u.snoopBlocked q sec = false →
       let inEntry (e : Evict) : Bool := e.block == sec.val / 4 && (SMap.find j e.secs).isSome
       ((∀ e ∈ (s.quad q).evict, inEntry e = false) →
         (x.st = .i ∨ u.quadData q sec = none → Completes z.2 s fun t => t.net = u.net ++ [ans .miss j] ∧ clean t) ∧
         (∀ d bad, x.st ≠ .i → u.quadData q sec = some (d, bad) →
           let isDirty := x.st = .m ∨ x.st = .o ∨ ∃ c ∈ coresOf q, (s.l1dSec c sec).st = .m
           Completes z.2 s fun t =>
             (isDirty ∧ z.1 ≠ .snpIdiscard → t.net = u.net ++ [given j d bad]) ∧
             (¬ (isDirty ∧ z.1 ≠ .snpIdiscard) → t.net = u.net ++ [ans .ack j]) ∧
             t.homes = s.homes ∧ t.mem = s.mem ∧
             let y := ((t.quad q).l2.secD .l2 sec).st
             (z.1 = .snpS → (isDirty → y = .o) ∧ (¬ isDirty → y = .s) ∧
               ∀ c ∈ coresOf q, (t.l1dSec c sec).st ≠ .m ∧ (t.l1dSec c sec).st ≠ .e) ∧
             (z.1 = .snpC → (y = .e ∨ y = .s) ∧ ∀ c ∈ coresOf q, (t.l1dSec c sec).st ≠ .m) ∧
             (z.1 = .snpI ∨ z.1 = .snpIdiscard → y = .i ∧ ∀ c ∈ coresOf q, (t.l1dSec c sec).st = .i))) ∧
       (∀ e v, (s.quad q).evict.find? inEntry = some e → SMap.find j e.secs = some v →
         let isDirty := v.st = .m ∨ v.st = .o
         Completes z.2 s fun t => clean t ∧
           (isDirty ∧ z.1 ≠ .snpIdiscard → t.net = u.net ++ [given j v.data v.poison]) ∧
           (¬ (isDirty ∧ z.1 ≠ .snpIdiscard) → t.net = u.net ++ [ans .ack j]) ∧
           ∃ e' ∈ (t.quad q).evict, e'.block = e.block ∧ e'.named = e.named ∧
             (z.1 = .snpS → ∃ v', SMap.find j e'.secs = some v' ∧ v'.data = v.data ∧ (isDirty → v'.st = .o)) ∧
             (z.1 = .snpI ∨ z.1 = .snpIdiscard → SMap.find j e'.secs = none))) ∧
     (∀ e, s.lands u (here .wbgo) p → ((s.quad q).evict.find? fun e => e.block == sec.val / 4) = some e → (s.quad q).fills = [] →
       (e.live = false → Completes (.wbgo q sec) s fun t => clean t ∧ (t.quad q).evict = (s.quad q).evict.erase e ∧
         t.net = u.net ++ e.back.map (ans .wbcancel) ++ e.named.map fun i =>
           let v := e.secs.get {} i
           if v.st = .m ∨ v.st = .o then given i v.data v.poison else ans .wbcancel i) ∧
       (e.live = true → (∀ i ∈ e.named, i < 4) → e.named.Nodup → Completes (.wbgo q sec) s fun t => clean t ∧
         (t.quad q).evict = (s.quad q).evict.erase e ∧
         (t.net = u.net ++ e.back.map (ans .wbcancel) ++ e.named.map fun i =>
           let v := (s.quad q).l2.secD .l2 (sec.val / 4 * 4 + i)
           if (v.st = .m ∨ v.st = .o) ∧ v.dv = true then given i v.data v.poison else ans .wbcancel i) ∧
         ∀ i ∈ e.named, let v := (s.quad q).l2.secD .l2 (sec.val / 4 * 4 + i)
           (v.st = .m ∨ v.st = .o) → v.dv = true →
           (t.quad q).l2.secD .l2 (sec.val / 4 * 4 + i) = { v with st := if p.cmask.getLsbD i then .e else .s })) ∧
     (s.lands u { here .grant with excl := true, dirty := dirty } p → (s.quad q).l2.find .l2 sec ≠ none → (s.quad q).l2.ready = true →
       (s.quad q).fills = [] → s.nobodyWaits q sec →
       (p.mask = 0 → Completes (.grant q sec dirty) s fun t => t.net = u.net ∧ clean t ∧
         (t.quad q).l2.secD .l2 sec = { x with st := if dirty = true ∨ x.st = .m then .m else .e }) ∧
       (p.mask ≠ 0 → s.heldBack q sec = false → 64 ≤ p.core → Completes (.grant q sec dirty) s fun t =>
         t.net = u.net ∧ t.homes = s.homes ∧ t.mem = s.mem ∧ (∀ c ∈ coresOf q, (t.l1dSec c sec).st = .i) ∧
         let y := (t.quad q).l2.secD .l2 sec
         y.st = .m ∧ y.dv = true ∧ y.data = 0 ∧ y.poison = false)) ∧
     (s.lands u (here .done) p → exec (.done q sec) s = .next u) ∧
     (s.lands u { here .data with quad := who, data := data, dirty := dirty, excl := excl, poison := mark.poison } p → mark.err = none →
       (16 ≤ who.val ∨ p.uc = true → exec (.sectorData who false sec data dirty excl mark) s = .next u) ∧
       (who.val = q.val → p.uc = false → (s.quad q).l2.find .l2 sec ≠ none → (s.quad q).l2.ready = true → (s.quad q).fills = [] →
         s.nobodyWaits q sec →
         Completes (.sectorData who false sec data dirty excl mark) s fun t => t.net = u.net ∧ clean t ∧
           (t.quad q).l2.secD .l2 sec = { x with st := if dirty then .m else if excl then .e else .s, dv := true, data := data,
                                                 poison := mark.poison })) ∧
     (∀ (i : Instr) (k : MsgKind) (th : Bool) (n : Nat), (i, k, th, n) ∈ [(Instr.snpS q sec, MsgKind.snpS, false, sec.val),
         (.snpC q sec, .snpC, false, sec.val), (.wbgo q sec, .wbgo, false, sec.val), (.done q sec, .done, false, sec.val),
         (.ack q sec, .ack, true, sec.val), (.miss q sec, .miss, true, sec.val), (.wbcancel q sec, .wbcancel, true, sec.val)] →
       (∀ m ∈ s.net, m.kind ≠ k) → exec i s = .next s)) ∧
  (∀ (s u : State) (q r : Fin 16) (sec : SecNo) (cls : Fin 8) (block : BlockNo) (dmask cmask : BitVec 4) (data : BitVec 512)
       (mark : Arrival) (p : Msg) (f : Trans),
     let h := homeSec sec
     let x := (s.home h).l3.secD .l3 sec
     let back (k : MsgKind) : Msg := { kind := k, quad := q, toHome := true, sec := sec }
     let full : Msg := { back .data with data := data, dirty := true, poison := mark.poison }
     let reply (k : MsgKind) : Msg := { kind := k, quad := r, toHome := false, sec := sec }
     let sends (i : Instr) (ms : List Msg) (P : State → Sec → Prop) : Prop := Completes i s fun t =>
       t.net = u.net ++ ms ∧ t.cores = s.cores ∧ t.quads = s.quads ∧ P t ((t.home h).l3.secD .l3 sec)
     let asked (k : MsgKind) : Trans :=
       { req := { kind := k, quad := r, toHome := true, sec := sec, cls := cls }, snoops := [(sec.val % 4, q.val)] }
     let only (f : Trans) : Prop := (s.home h).trans = [f] ∧ (s.home h).waiting = [] ∧ r ≠ q ∧ s.l3Sec sec = some x
     let ended (t : State) : Prop := (t.home h).trans = []
     let owned (t : State) (y : Sec) : Prop := ended t ∧ y.dir = .x ∧ y.owner = r ∧ y.pres = bitOf r
     (s.lands u (back .ack) p →
       (only (asked .rd) → x.dv = true → x.dir = .x ∨ x.dir = .o →
         sends (.ack q sec) [{ reply .data with data := x.data, poison := x.poison }] fun t y =>
           ended t ∧ y.dir = .s ∧ y.pres = x.pres ||| bitOf r) ∧
       (only (asked .rfo) → x.dv = true →
         sends (.ack q sec) [{ reply .data with data := x.data, poison := x.poison, excl := true }] owned) ∧
       (only (asked .upg) → sends (.ack q sec) [{ reply .grant with excl := true, dirty := decide (x.dir = .o) }] owned) ∧
       (only (asked .zreq) → sends (.ack q sec) [{ reply .grant with excl := true, dirty := true, mask := BitVec.allOnes 64 }]
         fun t y => owned t y ∧ y.dv = false) ∧
       (∀ k ∈ [MsgKind.cln, .inv, .fls], only (asked k) → (x.dv && x.dirty) = false ∨ k = .inv →
         sends (.ack q sec) [reply .done] fun t y => ended t ∧ t.mem = s.mem ∧ y.dv = (x.dv && k == .cln)) ∧
       (only f → f.req.kind ≠ .wbreq → f.req.sec / 4 = sec.val / 4 → f.frame = none → f.quota = false → f.fill = false →
         f.ids = [] → (sec.val % 4, q.val) ∈ f.snoops → f.snoops.erase (sec.val % 4, q.val) ≠ [] →
         sends (.ack q sec) [] fun t _ => t.mem = s.mem ∧ (t.home h).trans = [{ f with snoops := f.snoops.erase (sec.val % 4, q.val) }])) ∧
     (s.lands u (back .miss) p → only (asked .rfo) → x.dv = true →
       sends (.miss q sec) [{ reply .data with data := x.data, poison := x.poison, excl := true }] owned) ∧
     (s.lands u full p → mark.err = none →
       (only (asked .rd) → x.dir = .x ∨ x.dir = .o → sends (.sectorData (q.castLE (by decide)) true sec data true false mark)
         [{ reply .data with data := data, poison := mark.poison }] fun t y => ended t ∧ y.dir = .o ∧ y.pres = x.pres ||| bitOf r) ∧
       (only (asked .rfo) → sends (.sectorData (q.castLE (by decide)) true sec data true false mark)
         [{ reply .data with data := data, poison := mark.poison, excl := true, dirty := true }] owned)) ∧
     (∀ w : Trans, w.req.kind = .wbreq → w.req.quad = q → w.req.sec / 4 = sec.val / 4 → w.req.cmask = 0 → w.frame = none → w.quota = false →
       w.fill = false → w.ids = [] → only w → sec.val % 4 ∈ w.wbAwait →
       let after (t : State) : Prop := (w.wbAwait.erase (sec.val % 4) = [] → ended t) ∧
         (w.wbAwait.erase (sec.val % 4) ≠ [] → (t.home h).trans = [{ w with wbAwait := w.wbAwait.erase (sec.val % 4) }])
       (s.lands u full p → mark.err = none → sends (.sectorData (q.castLE (by decide)) true sec data true false mark) [] fun t y => after t ∧
         y.dv = true ∧ y.dirty = true ∧ y.data = data ∧ y.poison = mark.poison ∧
         (w.req.excl = false → y.pres = x.pres &&& ~~~bitOf q) ∧
         (w.req.excl = true → y.pres = x.pres ∧ (x.pres = bitOf q → y.dir = .x ∧ y.owner = q) ∧ (x.pres ≠ bitOf q → y.dir = .s))) ∧
       (s.lands u (back .wbcancel) p → sends (.wbcancel q sec) [] fun t y => after t ∧ y = x)) ∧
     (s.lands u { back .wbreq with sec := block.val * 4, dmask := dmask, cmask := cmask } p → s.homeUp (block.val * 4) = true →
       s.idleHome (homeSec (block.val * 4)) → Completes (.wbreq q block dmask cmask) s fun t => t.cores = s.cores ∧ t.quads = s.quads ∧
         t.net = u.net ++ [{ kind := .wbgo, quad := q, toHome := false, sec := block.val * 4,
                             cmask := s.aloneIn (homeSec (block.val * 4)) q block.val }] ∧
         (t.home (homeSec (block.val * 4))).busy (block.val * 4) = true) ∧
     (s.lands u { back .evc with sec := block.val * 4 } p → s.homeUp (block.val * 4) = true → s.idleHome (homeSec (block.val * 4)) →
       Completes (.evc q block) s fun t => t.net = u.net ∧ t.cores = s.cores ∧ t.quads = s.quads ∧
         ∀ i < 4, let old := (s.home (homeSec (block.val * 4))).l3.secD .l3 (block.val * 4 + i)
           let y := (t.home (homeSec (block.val * 4))).l3.secD .l3 (block.val * 4 + i)
           y.pres = old.pres &&& ~~~bitOf q ∧ (y.pres = 0 → y.dir = .u) ∧ y.dv = old.dv ∧ y.data = old.data))

/-- R199, R201, R202, R204: a cache array shows an error while a sector is delivered. One outside the cache, of a cache that
is off or of a frame that is free changes nothing. A corrected one is counted, captured in an L3, and makes its frame a
suspect. Data lost in L1D retires the frame, dirty data going to the L2 poisoned; beyond the limits the frame stays and the
core is reported, or the L3 slice degraded. A tag lost empties an L1I frame, stops the core of an L1D, and over a dirty L3 sector
is a machine check to Fetas. A retired frame is never chosen (R179).

The model's own choices that it rests on: log entry 86.

Completion of SECTOR_DATA with an array error. -/
def Obligations.ArrayErrors : Prop :=
  (∀ (kd : CacheKind) (k k' : Cache) (n g : Nat) (group : List Nat), k.choose kd n group = (some g, k') → g ∉ k.retired) ∧
  ∀ (s v : State) (who : Fin 19) (toHome : Bool) (sec : SecNo) (data : BitVec 512) (dirty excl poison : Bool) (e : ArrayErr) (fr : Frame)
      (c : CoreId) (h : Fin 8),
    let i : Instr := .sectorData who toHome sec data dirty excl { poison := poison, err := some e }
    let f := frameNo e.set.val e.way.val
    let x := fr.secs.get {} e.sector.val
    let n := fr.block * 2 + e.sector.val
    let old := v.reg .L3_ERR_STATUS [h.val]
    { kind := .data, quad := who, toHome := toHome, sec := sec, data := data, dirty := dirty, excl := excl, poison := poison : Msg } ∈ s.net →
    exec (.sectorData who toHome sec data dirty excl { poison := poison }) s = .next v →
    (e.ok = false ∨ v.pdUp e.cache.pd = false ∨ (v.cache e.cache).frame f = none → exec i s = .next v) ∧
    (e.ok = true → v.pdUp e.cache.pd = true → (v.cache e.cache).frame f = some fr →
      (e.cache = .l3 h → e.found = .dataCorrected → x.dv = true → f ∉ (v.home h).l3.suspects → Completes i s fun t =>
        t.mem = v.mem ∧ t.cores = v.cores ∧ t.quads = v.quads ∧
        (t.home h).l3 = { (v.home h).l3 with suspects := ((v.home h).l3.suspects ++ [f]).drop ((v.home h).l3.suspects.length - 3) } ∧
        t.fld .L3_ERR_COUNT [h.val] .L3_ERR_COUNT_CE = min 0xFFFF (v.fld .L3_ERR_COUNT [h.val] .L3_ERR_COUNT_CE + 1) ∧
        (flag old .L3_ERR_STATUS_VALID = true → t.reg .L3_ERR_STATUS [h.val] = old ||| 2) ∧
        (flag old .L3_ERR_STATUS_VALID = false → let r := t.reg .L3_ERR_STATUS [h.val]
          flag r .L3_ERR_STATUS_VALID = true ∧ bits r .L3_ERR_STATUS_SET = e.set.val ∧ bits r .L3_ERR_STATUS_WAY = e.way.val ∧
          bits r .L3_ERR_STATUS_SECTOR = e.sector.val ∧ bits r .L3_ERR_STATUS_KIND = 1)) ∧
      (e.cache = .l3 h → e.found = .dataLost → x.dv = true → v.mayRetire e.cache f = false → Completes i s fun t =>
        h.val ∈ t.fe.l3Degraded ∧ (t.home h).l3.retired = (v.home h).l3.retired ∧ t.mem = v.mem ∧
        (v.fe.healthKnown = true → flag (t.reg .HEALTH_STAT) .HEALTH_STAT_UNIT = true ∧ t.healthPin = 0)) ∧
      (e.cache = .l1d c → e.found = .dataLost → x.st ≠ .i → v.mayRetire e.cache f = true → Completes i s fun t =>
        (t.core c).l1d.frame f = none ∧ f ∈ (t.core c).l1d.retired ∧ t.mem = v.mem ∧ t.regs = v.regs ∧ (∀ d, d ≠ c → t.core d = v.core d) ∧
        (x.st = .m → (v.core c).l1d.find .l1 n = some f → (v.quad (quadOf c)).l2.sec .l2 n ≠ none →
          ((t.quad (quadOf c)).l2.secD .l2 n).poison = true)) ∧
      (e.cache = .l1d c → e.found = .dataLost → x.st ≠ .i → v.mayRetire e.cache f = false → Completes i s fun t =>
        t.reports = v.reports ++ [.machineCheck c.val] ∧ (t.core c).l1d.retired = (v.core c).l1d.retired ∧ t.mem = v.mem ∧ t.regs = v.regs ∧
        ∀ d, d ≠ c → t.core d = v.core d) ∧
      (e.cache = .l1d c → e.found = .tagLost → (v.core c).run ≠ .off → Completes i s fun t =>
        t = { v with cores := t.cores, reports := v.reports ++ [.machineCheck c.val], telemetry := t.telemetry, fsi := t.fsi } ∧
        t.core c = { v.core c with run := .stopped .machineCheck } ∧ ∀ d, d ≠ c → t.core d = v.core d) ∧
      (e.cache = .l3 h → e.found = .tagLost → (∃ p ∈ fr.list .l3, p.2.dv = true ∧ p.2.dirty = true) → Completes i s fun t =>
        t.reports = v.reports ++ [.unitCheck (homeStop h)] ∧ t.homes = v.homes ∧ t.mem = v.mem ∧ t.cores = v.cores) ∧
      (e.cache = .l1i c → e.found = .tagLost → Completes i s fun t => t = { v with cores := t.cores, telemetry := t.telemetry, fsi := t.fsi } ∧
        t.core c = { v.core c with l1i := { (v.core c).l1i with frames := (t.core c).l1i.frames } } ∧ (t.core c).l1i.frame f = none ∧
        (∀ g, g ≠ f → (t.core c).l1i.frame g = (v.core c).l1i.frame g) ∧ ∀ d, d ≠ c → t.core d = v.core d))

/-- R237, R240: a block returns from a group with no failed die. With errors on at most one die, one byte of a beat at most, each
sector that is not poisoned returns the data that memory holds; a poisoned one that meets no error returns poison. What returns fills
the sectors of the block in the L3 that hold no valid data (no home works on a request). A home whose request waits for the access goes
on with what it returns: an RD of a sector that no quad holds gets the data, with ownership.

The model's own choices that it rests on: log entries 23, 26, 94.

Completion of DRAM_READ_RETURN. -/
def Obligations.DramReadReturns : Prop :=
  ∀ (s : State) (block : BlockNo) (errs : List (Fin 16 × Fin 18 × BitVec 8)) (pattern : BitVec 9) (die : Nat),
    block.val ∈ s.dram.reads → oneDie errs die → groupOf (block.val * 4) ∉ s.dram.failed →
    flag (s.reg .MG_STATUS [groupOf (block.val * 4)]) .MG_STATUS_DEGRADED = false →
    ((∀ h < 8, s.idleHome h) → Completes (.dramReadReturn block errs pattern) s fun t =>
      t.mem = s.mem ∧ t.cores = s.cores ∧ t.quads = s.quads ∧ t.dram.reads = s.dram.reads.erase block.val ∧
      ∀ k < 4, ∀ x, s.l3Sec (block.val * 4 + k) = some x →
        let n := block.val * 4 + k
        let bad := s.poisoned.contains n
        (x.dv = true → t.l3Sec n = some x) ∧
        (x.dv = false → bad = false → t.l3Sec n = some { x with dv := true, dirty := false, poison := false, data := s.memSec n }) ∧
        (x.dv = false → bad = true → (∀ e ∈ errs, e.1.val / 4 ≠ k) →
          t.l3Sec n = some { x with dv := true, dirty := false, poison := true, data := 0 })) ∧
    (∀ (k : Fin 4) (r : Fin 16) (cls : Nat) (x : Sec), let n := block.val * 4 + k.val
      let h := homeSec n
      inMram (n * 64) = false → block.val ∉ s.dram.reads.erase block.val → s.poisoned.contains n = false →
      (s.home h).trans = [{ req := { kind := .rd, quad := r, toHome := true, sec := n, cls := cls }, fill := true }] →
      (s.home h).waiting = [] → (∀ g < 8, g ≠ h → s.idleHome g) → s.l3Sec n = some x → x.dv = false → x.dir = .u →
      Completes (.dramReadReturn block errs pattern) s fun t => t.mem = s.mem ∧ t.cores = s.cores ∧ (t.home h).trans = [] ∧
        t.net = s.net ++ [{ kind := .data, quad := r, toHome := false, sec := n, data := s.memSec n, excl := true }] ∧
        ∃ y, t.l3Sec n = some y ∧ y.dir = .x ∧ y.owner = r ∧ y.pres = bitOf r)

/-- R233, R235, R239 to R245, R247: the other commands of a memory group: an access is taken; a write changes the bytes it writes and no
other, and a narrow one into a failed group leaves its sector poisoned; a refresh changes nothing; the hottest die sets TEMP and REFMUL; a window picks the active set, corrects the timing of both
sets, and starts a retrain beyond 8/64, or makes a pending rate change instead; a retrain window trains the active set of one
channel; scrub moves on and keeps memory.

R251 to R255: an MRAM read returns the newest accepted data while a write of the sector is queued, else the sector, corrected up to
four bit errors and poisoned beyond; an accepted write is what
later reads return and waits in its die's queue; a verify without wrong bits ends the oldest write of the die; a probe waits
for every write accepted before it; scrub rewrites a sector with two to four bad bits.

The model's own choices that it rests on: log entries 19, 23, 26, 27, 94.

Completion of DRAM_ACCESS_REQUEST, DRAM_WRITE, DRAM_REFRESH, DIE_TEMP_READ, DRIFT_TRACKING_WINDOW, RETRAIN_WINDOW, DRAM_PATROL_SCRUB,
MRAM_READ, MRAM_WRITE_ACCEPT, MRAM_WRITE_VERIFY, DURABILITY_PROBE and MRAM_PATROL_SCRUB. -/
def Obligations.MemoryControllers : Prop :=
  (∀ (s : State) (g : Fin 2) (ch : Fin 9) (block : BlockNo) (sec : SecNo) (data : BitVec 512) (mask : BitVec 64) (hot : BitVec 8)
       (busy : Fin 101) (drift : Fin 64),
     let r := s.reg .MG_STATUS [g.val]
     let chan := g.val * 9 + ch.val
     let timing (t : State) (k : Nat) : Word := t.dram.timing.get 0 k
     (s.groupUp (block.val % 2) = true → block.val * 256 < s.part.dramEnd →
       exec (.dramAccessRequest block) s = .next { s with dram := { s.dram with reads := s.dram.reads ++ [block.val] } }) ∧
     (inDram (sec.val * 64) = true → sec.val * 64 < s.part.dramEnd → s.memUp sec.val = true →
       (Completes (.dramWrite sec data (BitVec.allOnes 64) false) s fun t => t.memSec sec.val = data ∧ OutsideSector s t sec.val ∧
         t.regs = s.regs ∧ t.cores = s.cores ∧ t.poisoned = s.poisoned.erase sec.val) ∧
       (mask ≠ BitVec.allOnes 64 → s.dram.back = [] → let k := groupOf sec.val
         (s.poisoned.contains sec.val = false → k ∉ s.dram.failed → flag (s.reg .MG_STATUS [k]) .MG_STATUS_DEGRADED = false →
           Completes (.dramWrite sec data mask false) s fun t => t.memSec sec.val = mergeBytes (s.memSec sec.val) data mask ∧
             OutsideSector s t sec.val ∧ t.regs = s.regs ∧ t.cores = s.cores) ∧
         (k ∈ s.dram.failed → s.checkFailed k = false → Completes (.dramWrite sec data mask false) s fun t =>
           t.poisoned.contains sec.val = true ∧ OutsideSector s t sec.val ∧ t.cores = s.cores))) ∧
     exec (.dramRefresh g) s = .next s ∧
     (Completes (.dieTempRead g hot) s fun t =>
       OnReg { s with dram := { s.dram with hot := t.dram.hot } } t .MG_STATUS [g.val]
         (putBits (putBits r .MG_STATUS_TEMP hot.toNat) .MG_STATUS_REFMUL
           (if hot.toNat ≤ 149 then 0 else if hot.toNat ≤ 169 then 1 else 2))) ∧
     (s.dram.ratePend.get none g.val = none → Completes (.driftTrackingWindow g ch busy drift false) s fun t =>
       let d := (BitVec.ofNat 6 drift.val).toInt
       let loaded := decide (144 ≤ bits r .MG_STATUS_TEMP ∨ 50 ≤ busy.val) ||
         (s.dram.hot.get false g.val && !decide (bits r .MG_STATUS_TEMP ≤ 134 ∧ busy.val ≤ 30))
       t.dram.windows.get 0 g.val = s.dram.windows.get 0 g.val + 1 ∧ t.mem = s.mem ∧ t.cores = s.cores ∧
       (∀ j < 9, (t.reg .MG_STATUS [g.val]).getLsbD (17 + j) = if j = ch.val then loaded else r.getLsbD (17 + j)) ∧
       (∀ k, timing t k = if k / 8 = chan then timing s k + BitVec.ofInt 64 d else timing s k) ∧
       (if 8 < d.natAbs then t.dram.retrain.get [] g.val ≠ [] else t.dram.retrain = s.dram.retrain)) ∧
     (∀ rate < 2, s.dram.ratePend.get none g.val = some rate → Completes (.driftTrackingWindow g ch busy drift false) s fun t =>
       t.fld .MG_STATUS [g.val] .MG_STATUS_RATE = rate ∧ t.dram.ratePend.get none g.val = none ∧ t.mem = s.mem ∧
       t.cores = s.cores ∧ t.dram.timing = s.dram.timing) ∧
     (∀ l, s.dram.retrain.get [] g.val = l → ch.val ∈ l → l.erase ch.val ≠ [] → Completes (.retrainWindow g ch) s fun t =>
       let set := if s.dram.hot.get false g.val then 1 else 0
       t.dram.retrain.get [] g.val = l.erase ch.val ∧ t.mem = s.mem ∧ t.cores = s.cores ∧
       (t.reg .MG_STATUS [g.val]).getLsbD (17 + ch.val) = s.dram.hot.get false g.val ∧
       ∀ k, k / 4 ≠ chan * 2 + set → timing t k = timing s k) ∧
     (block.val * 256 < s.part.dramEnd → s.groupUp (block.val % 2) = true → Completes (.dramPatrolScrub block [] 0) s fun t =>
       let n := s.part.dramEnd / 512
       t.mem = s.mem ∧ t.cores = s.cores ∧
       t.fld .MG_SCRUB [block.val % 2] .MG_SCRUB_PROGRESS = (block.val / 2 + 1) % n * 1024 / n)) ∧
  (∀ (s : State) (sec : SecNo) (errs : Fin 513) (data : BitVec 512) (die : Fin 4) (w1 w2 : Fin 513) (who : Fin 65),
     let n := sec.val
     let queued : MramWrite := { id := s.mramNext, sec := n, old := s.memSec n, oldPoison := s.poisoned.contains n }
     (inMram (n * 64) = true → s.memUp n = true →
       (Completes (.mramRead sec errs) s fun t => t.mem = s.mem ∧ t.cores = s.cores ∧
         ∀ x, s.l3Sec n = some x → x.dv = false →
         let bad := decide (4 < errs.val) && !(s.mramQ.any fun w => w.sec == n)
         t.l3Sec n = some { x with dv := true, dirty := false, data := if bad then 0 else s.memSec n,
                                   poison := bad || s.poisoned.contains n }) ∧
       ((s.mramQ.filter fun w => mramDie w.sec == mramDie n).length < 16 → Completes (.mramWriteAccept sec data false) s fun t =>
         t.memSec n = data ∧ OutsideSector s t n ∧ t.regs = s.regs ∧ t.cores = s.cores ∧ t.mramQ = s.mramQ ++ [queued]) ∧
       (errs.val = 0 → s.poisoned.contains n = false → Completes (.mramPatrolScrub sec errs) s fun t =>
         t = { s with dram := { s.dram with mrErrs := t.dram.mrErrs } }) ∧
       (2 ≤ errs.val → errs.val ≤ 4 → (s.mramQ.any fun w => w.sec == n) = false → s.poisoned.contains n = false →
         Completes (.mramPatrolScrub sec errs) s fun t => t.memSec n = s.memSec n ∧ OutsideSector s t n ∧ t.cores = s.cores ∧
           t.mramQ = s.mramQ ++ [queued])) ∧
     (∀ w, (s.mramQ.find? fun w => mramDie w.sec == die.val) = some w → s.slices.jobs = [] → (∀ h < 8, s.idleHome h) →
       Completes (.mramWriteVerify die 0 w1 w2) s fun t =>
         t = { s with mramQ := s.mramQ.filter fun v => v.id ≠ w.id, probes := t.probes,
                      dram := { s.dram with mrErrs := s.dram.mrErrs.set 0 w.sec 0 } }) ∧
     (s.slices.jobs = [] → Completes (.durabilityProbe who) s fun t => t = { s with probes := t.probes } ∧
       ∀ p ∈ t.probes, p.who = who.val → p.received = true ∧ (s.mramQ = [] → p.answered = true)))

/-- R222 to R225: takes, gives and force-frees join the current window; at its end a cleat that is free goes to one of the takers
that asked, and one that its owner gives, or that is forced free, goes free first; every taker gets one answer.

R30, R36, R166: with the unit off (KIND 4), and from a requester whose level the register does not list (KIND 3), a command has no
effect but its report.

The model's own choices that it rests on: log entry 28.

Completion of CLEAT_TAKE, CLEAT_GIVE, CLEAT_FORCE and CLEAT_WINDOW. -/
def Obligations.CleatCommands : Prop :=
  ∀ (s : State) (by' : Sender) (n : Fin 4096),
    let w := s.who by'
    let r (op : CleatOp) : CleatReq := { op := op, n := n, id := w.cleatId, owner := w.cleatOwner }
    let joined (q : CleatReq) : State := { s with cleats := { s.cleats with reqs := s.cleats.reqs ++ [q] } }
    let free (t : State) : Prop := OnReg { s with cleats := { s.cleats with reqs := [] } } t .CLEAT_STATE [n.val] 0
    (∀ z ∈ [(CleatOp.take, Reg.CLEAT_TAKE, Instr.cleatTake by' n), (.give, .CLEAT_GIVE, .cleatGive by' n), (.force, .CLEAT_FORCE, .cleatForce by' n)],
      let report (kind : Nat) : State :=
        { s with errReports := s.errReports ++ [{ stop := w.stop, write := z.1 ≠ .take, kind := kind, pa := z.2.1.at [n.val], pid := w.pidTag }] }
      (s.pdUp 91 = true → z.2.1.admits w = true → (z.1 = .take → ∀ q ∈ s.cleats.reqs, q.op = .take → q.n = n.val → q.id ≠ w.cleatId) →
        exec z.2.2 s = .next (joined (r z.1))) ∧
      (s.pdUp 91 = true → z.2.1.admits w = false → exec z.2.2 s = .next (report 3)) ∧
      (s.pdUp 91 = false → exec z.2.2 s = .next (report 4))) ∧
    (s.pdUp 91 = true →
      (s.cleats.reqs = [r .take] → s.reg .CLEAT_STATE [n.val] = 0 → Completes .cleatWindow s fun t =>
        t.reg .CLEAT_STATE [n.val] = cleatHeld w.cleatOwner ∧ t.cleats.reqs = [] ∧ t.mem = s.mem ∧
        t.cleats.answers = s.cleats.answers ++ [(w.cleatId, n.val, BitVec.ofNat 64 (2 ^ 30 + w.cleatOwner.toNat))]) ∧
      (s.cleats.reqs = [r .give] → s.reg .CLEAT_STATE [n.val] = cleatHeld w.cleatOwner → Completes .cleatWindow s free) ∧
      (s.cleats.reqs = [r .force] → Completes .cleatWindow s free))

/-- R223, R224: mutual exclusion: when a window holds only takes, of distinct requesters, of a cleat, then at its end exactly one of them
owns it if it was free, and its owner stays if it was held: no two takers are told that they took it.

The model's own choices that it rests on: log entry 28. -/
def Obligations.CleatExclusion : Prop :=
  ∀ (s : State) (n : Fin 4096), s.pdUp 91 = true → s.cleats.reqs ≠ [] → s.cleats.answers = [] →
    (∀ q ∈ s.cleats.reqs, q.op = .take ∧ q.n = n.val ∧ q.id < 128) → (s.cleats.reqs.map fun q => q.id).Nodup →
    Completes .cleatWindow s fun t =>
      (t.cleats.answers.filter fun a => a.2.2.toNat / 2 ^ 30 == 1).length = (if s.cleatFree n.val then 1 else 0) ∧
      t.cleats.answers.length = s.cleats.reqs.length ∧
      (s.cleatFree n.val = true → ∃ q ∈ s.cleats.reqs, t.reg .CLEAT_STATE [n.val] = cleatHeld q.owner) ∧
      (s.cleatFree n.val = false → t.reg .CLEAT_STATE [n.val] = s.reg .CLEAT_STATE [n.val])

/-- R265 to R268, R272: each message between the distributor and a core, when it is the oldest of its direction, arrives: an offer is
held by the core (a virtual one only while the core is resident for its VMID, else it is declined), a withdrawal takes it back, an acceptance makes
the source active and no longer pending, a decline makes the distributor choose again, an EOI ends the active state, and a residency is noted.

R268, R460: an EOI written at H (a virtual one at K or H) ends the highest active priority of the core and goes to the distributor; a compare
written at K or H is armed and no longer pending; an armed compare that device time has reached becomes pending and disarms. An EOI waits
for the Device stores of its core to the distributor before it.

The model's own choices that it rests on: log entry 11.

Completion of INTERRUPT_OFFER, OFFER_WITHDRAWAL, ACCEPTANCE, DECLINE, EOI_MESSAGE, RESIDENCY_MESSAGE, IRQ_EOI, VIRQ_EOI, CTIM_CMP_WRITE and
CTIM_COMPARE_FIRE. -/
def Obligations.InterruptMessages : Prop :=
  (∀ (s : State) (c : CoreId) (o : Offer) (virt : Bool) (v n : Nat) (r : Option Nat),
     (s.dist.nextToCore c = some (.offer false o) → Completes (.interruptOffer c) s fun t =>
       (t.core c).offer = some o ∧ SameRegs (s.core c) (t.core c) ∧ (∀ d, d ≠ c → t.core d = s.core d) ∧ t.regs = s.regs ∧
       t.mem = s.mem ∧ t.dist.toCore = s.dist.toCore.erase (c.val, .offer false o)) ∧
     (s.dist.nextToCore c = some (.offer true o) → Completes (.interruptOffer c) s fun t =>
       SameRegs (s.core c) (t.core c) ∧ t.regs = s.regs ∧ t.mem = s.mem ∧
       if (s.core c).residentFor o.vmid then (t.core c).voffer = some o ∧ t.dist.toDist = s.dist.toDist
       else (t.core c).voffer = none ∧ t.dist.toDist = s.dist.toDist ++ [(c.val, .decline o.src)]) ∧
     (s.dist.nextToCore c = some (.withdraw virt) → Completes (.offerWithdrawal c) s fun t =>
       (if virt then (t.core c).voffer = none ∧ (t.core c).offer = (s.core c).offer
        else (t.core c).offer = none ∧ (t.core c).voffer = (s.core c).voffer) ∧
       SameRegs (s.core c) (t.core c) ∧ t.regs = s.regs ∧ t.mem = s.mem) ∧
     (s.dist.nextToDist c = some (.accept virt n) → Completes (.acceptance c) s fun t =>
       t.active? n = true ∧ t.pending? n = false ∧ Quiet s t) ∧
     (s.dist.nextToDist c = some (.decline n) → Completes (.decline c) s fun t => t.regs = s.regs ∧ Quiet s t ∧
       t.dist.toDist = s.dist.toDist.erase (c.val, .decline n)) ∧
     (∀ before, s.dist.nextToDist c = some (.eoi virt v n (before + 1)) → exec (.eoiMessage c) s = .next s) ∧
     (s.dist.nextToDist c = some (.eoi virt v n 0) → n < srcCount →
       (virt = true → flag (s.reg .SRC_CFG [n]) .SRC_CFG_VIRT = true ∧ s.fld .SRC_CFG [n] .SRC_CFG_TARGET = v) →
       Completes (.eoiMessage c) s fun t => t.active? n = false ∧ Quiet s t ∧
         t.pending? n = (s.pending? n || (s.levelSrc n && s.line? n))) ∧
     (s.dist.nextToDist c = some (.residency r) → Completes (.residencyMessage c) s fun t =>
       t.dist.resident.get none c.val = r ∧ t.regs = s.regs ∧ Quiet s t)) ∧
  (∀ (s : State) (c : CoreId) (v : BitVec 64) (n : Fin 2),
     let k := s.core c
     let before := (k.devOut ++ k.sb).countP fun e => e.toDist
     (k.ready = true → k.level = .h → Completes (.irqEoi c v) s fun t =>
       (t.core c).reg .IRQ_ACTPRI = k.reg .IRQ_ACTPRI &&& ~~~(1#64 <<< highBit (k.reg .IRQ_ACTPRI)) ∧
       t.dist.toDist = s.dist.toDist ++ [(c.val, .eoi false (k.fld .VMID .VMID_VMID) (v.toNat % 2 ^ 15) before)] ∧
       t = { s with cores := t.cores, dist := t.dist } ∧ SameRegs k (t.core c)) ∧
     (k.ready = true → k.level ≠ .u → Completes (.virqEoi c v) s fun t =>
       (t.core c).reg .V_ACTPRI = k.reg .V_ACTPRI &&& ~~~(1#64 <<< highBit (k.reg .V_ACTPRI)) ∧
       t.dist.toDist = s.dist.toDist ++ [(c.val, .eoi true (k.fld .VMID .VMID_VMID) (v.toNat % 2 ^ 15) before)] ∧
       t = { s with cores := t.cores, dist := t.dist } ∧ SameRegs k (t.core c)) ∧
     (k.ready = true → k.level ≠ .u → Completes (.ctimCmpWrite c n v) s fun t =>
       (t.core c).reg .CTIM_CMP [n.val] = v ∧ t = { s with cores := t.cores } ∧ SameRegs k (t.core c) ∧
       (if n = 0 then (t.core c).armed0 = true ∧ flag ((t.core c).reg .CTIM_CTL) .CTIM_CTL_PEND_0 = false
        else (t.core c).armed1 = true ∧ flag ((t.core c).reg .CTIM_CTL) .CTIM_CTL_PEND_1 = false)) ∧
     (k.run ≠ .off → (k.reg .CTIM_CMP [n.val]).toNat ≤ s.time → (if n = 0 then k.armed0 else k.armed1) = true →
       Completes (.ctimCompareFire c n) s fun t => t = { s with cores := t.cores } ∧ SameRegs k (t.core c) ∧
         if n = 0 then (t.core c).armed0 = false ∧ flag ((t.core c).reg .CTIM_CTL) .CTIM_CTL_PEND_0 = true
         else (t.core c).armed1 = false ∧ flag ((t.core c).reg .CTIM_CTL) .CTIM_CTL_PEND_1 = true))

/-- R130, R132, R138, R266, R267: a running core with no long operation takes its first acceptable interrupt at an instruction boundary: the
level the interrupt goes to is entered as a trap enters it, and then the interrupt is accepted: the offer taken for cause 0x40 is in
IRQ_SRC, its priority is active, and its acceptance is on its way.

The model's own choices that it rests on: log entries 8, 63.

Completion of INTERRUPT_ACCEPT. -/
def Obligations.InterruptAccepted : Prop :=
  ∀ (s v w : State) (c : CoreId) (cause : Nat) (l : Level) (pas : List Nat) (handler : Word) (o : Offer),
    let k := s.core c
    (k.ready = true → s.traceStalled c = false → k.mcheck = false → k.long = none → k.owed = none → k.irqNext = some (cause, l) →
      s.drainFrame c = (true, v) → v.checkEntry c l cause = (.ok pas handler, w) → (w.core c).level = k.level → (w.core c).haltReq = false →
      Completes (.interruptAccept c) s fun t => ∃ x, t = x.accepted c cause ∧
        Ends { w.forsake c with probes := w.probes.filter fun q => q.who ≠ c.val } x c
          ((w.core c).entered l { cause := cause } k.pc handler pas) handler) ∧
    (k.offer = some o →
      let u := s.accepted c 0x40
      u = { s with cores := u.cores, dist := u.dist } ∧ (u.core c).offer = none ∧
      (u.core c).reg .IRQ_SRC = BitVec.ofNat 64 (o.pri * 2 ^ 16 + o.src) ∧
      (u.core c).reg .IRQ_ACTPRI = k.reg .IRQ_ACTPRI ||| (1#64 <<< o.pri) ∧
      u.dist.toDist = s.dist.toDist ++ [(c.val, .accept false o.src)])

/-- R262, R263, R268 to R270: the line of a wired source reaches the distributor: a pulse makes an edge-triggered source pending, and a
level-sensitive one that is not active follows its line; SRC_SET and SRC_CLR set and clear PENDING and clear ACTIVE; a write of SRC_CFG
and of DIST_CTL takes effect at once: with GDIS no core has an offer left outstanding at the distributor. An access by a core comes
after its EOIs that are due (R268).

The model's own choices that it rests on: log entry 63.

Completion of WIRED_SOURCE_LINE, SRC_SET, SRC_CLR_PENDING, SRC_CLR_ACTIVE, SRC_CFG_WRITE and DIST_CTL_WRITE. -/
def Obligations.InterruptSources : Prop :=
  ∀ (s : State) (by' : Sender) (w : Fin 1024) (n : Fin 17408) (v : BitVec 32) (lv : Bool),
    (s.pdUp 91 = true → w.val ∈ s.pulses → s.levelSrc w.val = false → s.line? w.val = false →
      Completes (.wiredSourceLine w lv) s fun t => t.pending? w.val = true ∧ t.pulses = s.pulses.erase w.val ∧ Quiet s t) ∧
    (s.pdUp 91 = true → w.val ∉ s.pulses → s.wire w.val = some true → s.levelSrc w.val = true → s.active? w.val = false →
      Completes (.wiredSourceLine w lv) s fun t => t.line? w.val = true ∧ t.pending? w.val = true ∧ Quiet s t) ∧
    (s.pdUp 91 = true → w.val ∉ s.pulses → s.wire w.val = some false → s.levelSrc w.val = true → s.line? w.val = true →
      Completes (.wiredSourceLine w lv) s fun t => t.line? w.val = false ∧ t.pending? w.val = false ∧ Quiet s t) ∧
    (∀ c pa, inDist pa = true → (s.eoisFirst (.core c) pa).eoiDue c.val = false) ∧
    (∀ u, u = s.eoisFirst by' (Reg.DIST_CTL.at []) →
    (u.reaches (u.who by') .SRC_SET [n.val] → Completes (.srcSet by' n) s fun t =>
      t.pending? n.val = (!reservedSrc n.val || u.pending? n.val) ∧ Quiet s t) ∧
    (u.reaches (u.who by') .SRC_CLR [n.val] →
      (Completes (.srcClrPending by' n) s fun t =>
        t.pending? n.val = (u.levelSrc n.val && u.line? n.val && !u.active? n.val) ∧ Quiet s t) ∧
      (Completes (.srcClrActive by' n) s fun t =>
        t.active? n.val = false ∧ t.pending? n.val = (u.pending? n.val || (u.levelSrc n.val && u.line? n.val)) ∧ Quiet s t)) ∧
    (u.reaches (u.who by') .SRC_CFG [n.val] → Completes (.srcCfgWrite by' n v) s fun t =>
      t.reg .SRC_CFG [n.val] = Reg.SRC_CFG.spec.written (u.reg .SRC_CFG [n.val]) (v.setWidth 64) lanes32 ∧ Quiet s t) ∧
    (u.reaches (u.who by') .DIST_CTL [] → Completes (.distCtlWrite by' v) s fun t =>
      t.reg .DIST_CTL = Reg.DIST_CTL.spec.written (u.reg .DIST_CTL) (v.setWidth 64) lanes32 ∧ Quiet s t ∧
      (flag (t.reg .DIST_CTL) .DIST_CTL_GDIS = true → ∀ p < 64, t.dist.sent.get none p = none ∧ t.dist.vsent.get none p = none)))

/-- R14, R36, R204, R254, R258, R259, R309, R311, R382, R445, R484: a read of an error counter, a port counter, a quota or a level returns what the
register reads as, clears its RC fields and changes nothing else.

R273, R329, R332, R337, R338, R340, R387: the reads that act: MAST_TICK_LO latches the upper bits, DB_NEXT takes its doorbell, the receive FIFOs
give their oldest entry with VALID, or zero when empty, and the QSPI window reads the flash.

The model's own choices that it rests on: log entry 61.

Completion of ADDR_ERR_COUNT_READ, L3_ERR_COUNT_READ, MG_ERR_COUNT_READ, MR_ERR_COUNT_READ, MR_DIE_READ, PDQ_READ,
DB_NEXT_READ, SLICE_ERR_COUNT_READ, SE_ERR_COUNT_READ, PORT_COUNTER_READ, UART_RXD_READ, SPI_RXD_READ, I2C_RXD_READ,
QSPI_WINDOW_READ, MAST_TICK_LO_READ, QUAD_REEF_READ, SHR_ERR_COUNT_READ and HY_RING_DROP_READ. -/
def Obligations.RegisterReads : Prop :=
  (∀ (s : State) (by' : Sender) (h : Fin 8) (g : Fin 2) (d : Fin 4) (n : Fin 8192) (p : Fin 12) (i : Fin 8) (r q : Fin 16),
     ∀ x ∈ ([(.addrErrCountRead by', .ADDR_ERR_COUNT, []), (.l3ErrCountRead by' h, .L3_ERR_COUNT, [h.val]),
        (.mgErrCountRead by' g, .MG_ERR_COUNT, [g.val]), (.mrErrCountRead by', .MR_ERR_COUNT, []), (.mrDieRead by' d, .MR_DIE, [d.val]),
        (.pdqRead by' h d, .PDQ, [h.val, d.val]), (.sliceErrCountRead by' n, .SLICE_ERR_COUNT, [n.val]),
        (.seErrCountRead by', .SE_ERR_COUNT, [0]),
        (.portCounterRead by' p i, [Reg.CNT_RX, .CNT_TX, .CNT_DROP_LEN, .CNT_DROP_FCS, .CNT_DROP_OFF, .CNT_DROP_VLAN, .CNT_DROP_FULL,
           .CNT_LEARN_FULL].getD i.val .CNT_RX, [p.val]),
        (.hyRingDropRead by' r, .HY_RING_DROP, [r.val]), (.shrErrCountRead by', .SHR_ERR_COUNT, []),
        (.quadReefRead by' q, .QUAD_REEF, [q.val])] : List (Instr × Reg × List Nat)),
     s.reaches (s.who by') x.2.1 x.2.2 →
       Completes x.1 s fun t =>
         t.answer = BitVec.ofNat 64 ((s.busValue x.2.1 x.2.2).toNat % 2 ^ 32) ∧
         OnReg { s with answer := t.answer } t x.2.1 x.2.2 (x.2.1.spec.afterRead (s.reg x.2.1 x.2.2) lanes32)) ∧
  (∀ (s : State) (by' : Sender) (l : Fin 64) (u : Fin 6) (k : Fin 4) (addr : BitVec 28),
     let w := s.who by'
     (s.reaches w .MAST_TICK_LO [] → Completes (.mastTickLoRead by') s fun t => t.answer = BitVec.ofNat 64 (s.tick % 2 ^ 32) ∧
       OnReg { s with answer := t.answer } t .MAST_TICK_HI [] (BitVec.ofNat 64 (s.tick / 2 ^ 32 % 2 ^ 16))) ∧
     (∀ s0, s = s0.eoisFirst by' (Reg.DB_NEXT.at [l.val]) → s.reaches w .DB_NEXT [l.val] → Completes (.dbNextRead by' l) s0 fun t =>
       match s.dbNext l.val with
       | none => t = { s with answer := 0 }
       | some m => t = { s with answer := BitVec.ofNat 64 ((2 ^ 31 + m) % 2 ^ 32),
                                dist := { s.dist with doorbells := s.dist.doorbells.erase m } }) ∧
     (s.reaches w .UART_RXD [u.val] → Completes (.uartRxdRead by' u) s fun t =>
       (t.uart u.val).rx = (s.uart u.val).rx.tail ∧ t = { s with answer := t.answer, low := t.low } ∧
       t.answer = match (s.uart u.val).rx with | [] => 0 | c :: _ => BitVec.ofNat 64 ((2 ^ 31 + c.toNat) % 2 ^ 32)) ∧
     (s.reaches w .SPI_RXD [k.val] → Completes (.spiRxdRead by' k) s fun t =>
       (t.spi k.val).rx = (s.spi k.val).rx.tail ∧ t = { s with answer := t.answer, low := t.low } ∧
       t.answer = match (s.spi k.val).rx with | [] => 0 | c :: _ => BitVec.ofNat 64 (2 ^ 31 + c.toNat)) ∧
     (s.reaches w .I2C_RXD [k.val] → Completes (.i2cRxdRead by' k) s fun t =>
       (t.i2c k.val).rx = (s.i2c k.val).rx.tail ∧ t = { s with answer := t.answer, low := t.low } ∧
       t.answer = match (s.i2c k.val).rx with | [] => 0 | c :: _ => BitVec.ofNat 64 (2 ^ 31 + c.toNat)) ∧
     (qspiOk s (qspiBase + addr.toNat) = true →
       exec (.qspiWindowRead by' addr .b4) s = .next { s with answer := BitVec.ofNat 64 (s.flashRead addr.toNat 4) }))

/-- R284 to R287, R341, R343: the doorbells of the slice and control mailboxes. A window is written only while its far side has left it empty;
a ring counts, and makes a message when none waits; an acknowledgement empties the window.

The model's own choices that it rests on: log entry 55.

Completion of OUT_MSG_WRITE, IN_MSG_WRITE, MBX_OUT_RING, MBX_OUT_ACK, MBX_IN_RING, MBX_IN_ACK, REQ_MSG_WRITE,
REQ_RING, RSP_ACK and EVT_ACK. -/
def Obligations.MailboxRegisters : Prop :=
  ∀ (s : State) (by' : Sender) (n : Fin 8192) (m : Fin 8) (w : Fin 16) (v : BitVec 32),
    let q := s.who by'
    let far := s.reg .SLICE_FAR [n.val]
    let farEnd := q = .fetas ∨ (q.high = true ∧ flag far .SLICE_FAR_FAR = true)
    (s.reaches q .OUT_MSG [n.val, w.val] → s.boxBusy (8 + n.val) = false → Completes (.outMsgWrite by' n w v) s fun t =>
      OnReg s t .OUT_MSG [n.val, w.val] (afterWrite s .OUT_MSG [n.val, w.val] v)) ∧
    (s.reaches q .IN_MSG [n.val, w.val] → farEnd → flag (s.reg .MBX_STAT [n.val]) .MBX_STAT_IN_FULL = false →
      Completes (.inMsgWrite by' n w v) s fun t => OnReg s t .IN_MSG [n.val, w.val] (afterWrite s .IN_MSG [n.val, w.val] v)) ∧
    (s.reaches q .MBX_OUT_RING [n.val] → s.fld .MBX_STAT [n.val] .MBX_STAT_OUT_BUSY = 0 → flag far .SLICE_FAR_FAR = true →
      Completes (.mbxOutRing by' n) s fun t => t.fld .MBX_STAT [n.val] .MBX_STAT_OUT_BUSY = 1 ∧
        t.fld .MBX_COUNT [n.val] .MBX_COUNT_OUT = (s.fld .MBX_COUNT [n.val] .MBX_COUNT_OUT + 1) % 2 ^ 16 ∧
        t.pending? (1024 + bits far .SLICE_FAR_HVEC) = true ∧ Quiet s t) ∧
    (s.reaches q .MBX_OUT_ACK [n.val] → q.high = true → Completes (.mbxOutAck by' n) s fun t =>
      t.fld .MBX_STAT [n.val] .MBX_STAT_OUT_BUSY = 0 ∧ OnlyRegs s t) ∧
    (s.reaches q .MBX_IN_RING [n.val] → farEnd → Completes (.mbxInRing by' n) s fun t =>
      t.fld .MBX_STAT [n.val] .MBX_STAT_IN_FULL = 1 ∧ Quiet s t ∧
      t.fld .MBX_COUNT [n.val] .MBX_COUNT_IN = (s.fld .MBX_COUNT [n.val] .MBX_COUNT_IN + 1) % 2 ^ 16) ∧
    (s.reaches q .MBX_IN_ACK [n.val] → Completes (.mbxInAck by' n) s fun t =>
      t.fld .MBX_STAT [n.val] .MBX_STAT_IN_FULL = 0 ∧ OnlyRegs s t) ∧
    (s.reaches q .REQ_MSG [m.val, w.val] → s.boxBusy m.val = false → Completes (.reqMsgWrite by' m w v) s fun t =>
      OnReg s t .REQ_MSG [m.val, w.val] (afterWrite s .REQ_MSG [m.val, w.val] v)) ∧
    (s.reaches q .REQ_RING [m.val] → s.boxBusy m.val = false → s.fetasUp = true → Completes (.reqRing by' m) s fun t =>
      t.boxBusy m.val = true ∧ OnlyRegs s t ∧
      t.fld .FSI_MBX_COUNT [m.val] .FSI_MBX_COUNT_REQ = (s.fld .FSI_MBX_COUNT [m.val] .FSI_MBX_COUNT_REQ + 1) % 2 ^ 16) ∧
    (s.reaches q .RSP_ACK [m.val] → Completes (.rspAck by' m) s fun t =>
      t.fld .FSI_MBX_STAT [m.val] .FSI_MBX_STAT_RSP_FULL = 0 ∧ OnlyRegs s t) ∧
    (s.reaches q .EVT_ACK [m.val] → Completes (.evtAck by' m) s fun t =>
      t.fld .FSI_MBX_STAT [m.val] .FSI_MBX_STAT_EVT_FULL = 0 ∧ OnlyRegs s t)

/-- R290, R291, R293: a queue pair that passes every check is enabled with its indexes at zero; one with nothing in flight stops at once; a
submission doorbell adds to PROD within the ring, and a completion head moves within what is held.

Completion of Q_ENABLE, Q_DISABLE, Q_SQ_DB and Q_CQ_HEAD_WRITE. -/
def Obligations.QueueRegisters : Prop :=
  ∀ (s : State) (by' : Sender) (n : Fin 8192) (q : Fin 64) (cfg : BitVec 32) (add : BitVec 12) (head : BitVec 16),
    let old := s.reg .Q_CFG [n.val, q.val]
    let rw := Reg.Q_CFG.spec.rw
    let new := putBits ((old &&& ~~~rw) ||| (cfg.setWidth 64 &&& rw)) .Q_CFG_EN 0
    let sq := s.reg .Q_SQ [n.val, q.val]
    let cq := s.reg .Q_CQ [n.val, q.val]
    (s.reaches (s.who by') .Q_CFG [n.val, q.val] →
      (flag old .Q_CFG_EN = false → flag old .Q_CFG_DRAINING = false → s.enableFault n.val q.val new = none →
        Completes (.qEnable by' n q cfg) s fun t => OnlyRegs s t ∧ t.reg .Q_SQ [n.val, q.val] = 0 ∧ t.reg .Q_CQ [n.val, q.val] = 0 ∧
          t.reg .Q_CFG [n.val, q.val] = putBits (putBits (putBits new .Q_CFG_EN 1) .Q_CFG_ERR 0) .Q_CFG_ERRKIND 0) ∧
      (flag old .Q_CFG_EN = true → s.queueJobs n.val q.val = [] → Completes (.qDisable by' n q) s fun t =>
        t.reg .Q_CFG [n.val, q.val] = putBits (putBits old .Q_CFG_EN 0) .Q_CFG_DRAINING 0 ∧ Quiet s t)) ∧
    (s.reaches (s.who by') .Q_SQ_DB [n.val, q.val] → add ≠ 0 → flag old .Q_CFG_EN = true →
      q.val < s.fld .SLICE_GRANT_Q [n.val] .SLICE_GRANT_Q_COUNT →
      ((bits sq .Q_SQ_PROD + add.toNat) % 2 ^ 16 + 2 ^ 16 - bits sq .Q_SQ_HEAD) % 2 ^ 16 ≤ 2 ^ bits old .Q_CFG_SIZE →
      Completes (.qSqDb by' n q add) s fun t =>
        OnReg s t .Q_SQ [n.val, q.val] (putBits sq .Q_SQ_PROD ((bits sq .Q_SQ_PROD + add.toNat) % 2 ^ 16))) ∧
    (s.reaches (s.who by') .Q_SQ_DB [n.val, q.val] → (add = 0 → exec (.qSqDb by' n q add) s = .next s) ∧
      (add ≠ 0 → (flag old .Q_CFG_EN = false ∨ s.fld .SLICE_GRANT_Q [n.val] .SLICE_GRANT_Q_COUNT ≤ q.val) → Completes (.qSqDb by' n q add) s fun t =>
        t.reg .Q_SQ [n.val, q.val] = sq ∧ Quiet s t ∧ (flag (s.reg .SLICE_ERR_STATUS [n.val]) .SLICE_ERR_STATUS_VALID = false →
          t.fld .SLICE_ERR_STATUS [n.val] .SLICE_ERR_STATUS_KIND = 8 ∧ t.fld .SLICE_ERR_STATUS [n.val] .SLICE_ERR_STATUS_QUEUE = q.val))) ∧
    (s.reaches (s.who by') .Q_CQ [n.val, q.val] → s.queueJobs n.val q.val = [] →
      (head.toNat + 2 ^ 16 - bits cq .Q_CQ_HEAD) % 2 ^ 16 ≤ (bits cq .Q_CQ_TAIL + 2 ^ 16 - bits cq .Q_CQ_HEAD) % 2 ^ 16 →
      Completes (.qCqHeadWrite by' n q head) s fun t => OnReg s t .Q_CQ [n.val, q.val] (putBits cq .Q_CQ_HEAD head.toNat))

/-- R313, R323, R329, R335 to R339: writes of command and data registers of the switch and of the serial units.

The model's own choices that it rests on: log entry 57.

Completion of SW_CTL_FLUSH, QBV_BASE_HI_WRITE, PTP_APPLY, UART_TXD_WRITE, CAN_TX_REQUEST, CAN_RX_BUFFER_FREE,
CAN_ABORT, CAN_BUSOFF_RESTART, SPI_XFER_GO, SPI_TXD_WRITE, I2C_CMD_GO, I2C_TXD_WRITE, GPIO_SET_WRITE and
GPIO_CLR_WRITE. -/
def Obligations.FieldRegisters : Prop :=
  ∀ (s : State) (by' : Sender) (p : Fin 12) (k2 : Fin 2) (k : Fin 4) (u : Fin 6) (b : Fin 64) (en : Bool) (v : BitVec 32)
      (x : BitVec 8),
    let w := s.who by'
    (s.reaches w .SW_CTL [] → Completes (.swCtlFlush by' en) s fun t => t.sw.fdb = [] ∧ t = { s with regs := t.regs, sw := t.sw }) ∧
    (s.reaches w .QBV_BASE_HI [p.val] → Completes (.qbvBaseHiWrite by' p v) s fun t =>
      t.fld .QBV_CTL [p.val] .QBV_CTL_PEND = 1 ∧ (t.qbv p.val).pend.isSome = true ∧ t = { s with regs := t.regs, sw := t.sw }) ∧
    (s.reaches w .PTP_CTL [k.val] → Completes (.ptpApply by' k v) s fun t => t = { s with regs := t.regs, sw := t.sw } ∧
      t.reg .PTP_COMMIT_LO [k.val] = BitVec.ofNat 64 (s.time % 2 ^ 32) ∧
      t.reg .PTP_COMMIT_HI [k.val] = BitVec.ofNat 64 (s.time / 2 ^ 32 % 2 ^ 32)) ∧
    (s.reaches w .UART_TXD [u.val] → (s.uart u.val).tx.length < 64 → (s.uart u.val).phase = .active →
      Completes (.uartTxdWrite by' u x) s fun t => (t.uart u.val).tx = (s.uart u.val).tx ++ [x] ∧ t = { s with low := t.low }) ∧
    (s.reaches w .CAN_CTL [k2.val] → Completes (.canBusoffRestart by' k2 v) s fun t => t.fld .CAN_CTL [k2.val] .CAN_CTL_EN = 1 ∧
      t.fld .CAN_STAT [k2.val] .CAN_STAT_SYNC = 1 ∧ t = { s with regs := t.regs, low := t.low } ∧
      (s.canState k2.val = 2 → s.fld .CAN_CTL [k2.val] .CAN_CTL_EN = 0 → (t.can k2.val).restart = true)) ∧
    (s.reaches w .CAN_MB_CTRL [k2.val, b.val] →
      (bits (v.setWidth 64) .CAN_MB_CTRL_MODE = 1 → s.fld .CAN_MB_CTRL [k2.val, b.val] .CAN_MB_CTRL_STATE ≠ 1 →
        Completes (.canTxRequest by' k2 b v) s fun t => t.fld .CAN_MB_CTRL [k2.val, b.val] .CAN_MB_CTRL_STATE = 1 ∧
          t.fld .CAN_MB_CTRL [k2.val, b.val] .CAN_MB_CTRL_MODE = 1 ∧ OnlyRegs s t) ∧
      (bits (v.setWidth 64) .CAN_MB_CTRL_MODE = 2 → s.fld .CAN_MB_CTRL [k2.val, b.val] .CAN_MB_CTRL_MODE = 2 →
        Completes (.canRxBufferFree by' k2 b v) s fun t => t.fld .CAN_MB_CTRL [k2.val, b.val] .CAN_MB_CTRL_STATE = 0 ∧ OnlyRegs s t) ∧
      (s.fld .CAN_MB_CTRL [k2.val, b.val] .CAN_MB_CTRL_MODE = 1 → s.fld .CAN_MB_CTRL [k2.val, b.val] .CAN_MB_CTRL_STATE = 1 →
        Completes (.canAbort by' k2 b v) s fun t => t.fld .CAN_MB_CTRL [k2.val, b.val] .CAN_MB_CTRL_STATE = 3 ∨
          b.val ∈ (t.can k2.val).aborting)) ∧
    (s.reaches w .SPI_XFER [k.val] → s.spiBusy k.val = false → flag (s.reg .SPI_CFG [k.val]) .SPI_CFG_EN = true →
      0 < bits (v.setWidth 64) .SPI_XFER_LEN → bits (v.setWidth 64) .SPI_XFER_LEN ≤ 4096 →
      Completes (.spiXferGo by' k v) s fun t => t.spiBusy k.val = true ∧ (t.spi k.val).left = bits (v.setWidth 64) .SPI_XFER_LEN ∧
        t = { s with regs := t.regs, low := t.low }) ∧
    (s.reaches w .SPI_TXD [k.val] → (s.spi k.val).tx.length < 64 → Completes (.spiTxdWrite by' k x) s fun t =>
      (t.spi k.val).tx = (s.spi k.val).tx ++ [x] ∧ t = { s with low := t.low }) ∧
    (s.reaches w .I2C_CMD [k.val] → s.i2cActive k.val = false → flag (s.reg .I2C_CFG [k.val]) .I2C_CFG_EN = true →
      flag (s.reg .I2C_CFG [k.val]) .I2C_CFG_TARGET = false →
      0 < bits (v.setWidth 64) .I2C_CMD_LEN → bits (v.setWidth 64) .I2C_CMD_LEN ≤ 4096 →
      Completes (.i2cCmdGo by' k v) s fun t => t.fld .I2C_STAT [k.val] .I2C_STAT_BUSY = 1 ∧
        (t.i2c k.val).left = bits (v.setWidth 64) .I2C_CMD_LEN ∧ t = { s with regs := t.regs, low := t.low } ∧
        (t.i2c k.val).addr = (bits (v.setWidth 64) .I2C_CMD_ADDR, flag (v.setWidth 64) .I2C_CMD_A10)) ∧
    (s.reaches w .I2C_TXD [k.val] → (s.i2c k.val).tx.length < 64 → Completes (.i2cTxdWrite by' k x) s fun t =>
      (t.i2c k.val).tx = (s.i2c k.val).tx ++ [x] ∧ t = { s with low := t.low }) ∧
    (s.reaches w .GPIO_SET [k2.val] → Completes (.gpioSetWrite by' k2 v) s fun t =>
      t.reg .GPIO_OUT [k2.val] = s.reg .GPIO_OUT [k2.val] ||| v.setWidth 64 ∧ OnlyRegs s t) ∧
    (s.reaches w .GPIO_CLR [k2.val] → Completes (.gpioClrWrite by' k2 v) s fun t =>
      t.reg .GPIO_OUT [k2.val] = s.reg .GPIO_OUT [k2.val] &&& ~~~(v.setWidth 64) ∧ OnlyRegs s t)

/-- R467 to R472: the channels of the timer unit: START runs a channel that has a RELOAD, STOP stops it, ZERO clears it, CAPTURE latches it, TMR_GO
acts on the channels it names, and a write of the upper half commits RELOAD or a compare, which is then armed.

R467 to R469, R476: a running channel counts: up to RELOAD and then to 0 with WRAP, or up and down between 0 and RELOAD; an edge is captured;
and the window of a telltale ends with its byte count in TT_LAST, the extremes kept.

The model's own choices that it rests on: log entries 11, 64.

Completion of TIMER_STEP, TIMER_CAPTURE_EDGE, TMR_START, TMR_STOP, TMR_ZERO, TMR_CAPTURE, TMR_GO_START, TMR_GO_STOP,
TMR_RLD_COMMIT, TMR_CMP_COMMIT and TT_WINDOW_END. -/
def Obligations.TimerUnit : Prop :=
  (∀ (s : State) (by' : Sender) (ch : Fin 16) (k : Fin 4) (v : BitVec 32) (mask : BitVec 16),
     let w := s.who by'
     let c := ch.val
     (s.reaches w .TMR_CMD [c] →
       (s.tmrRld c ≠ 0 → Completes (.tmrStart by' ch) s fun t => t.tmrRun c = true ∧ t = { s with regs := t.regs, timers := t.timers }) ∧
       (Completes (.tmrStop by' ch) s fun t => OnReg s t .TMR_STAT [c] (putBits (s.reg .TMR_STAT [c]) .TMR_STAT_RUN 0)) ∧
       (Completes (.tmrZero by' ch) s fun t => (t.tmr c).count = 0 ∧ t.tmrDown c = false ∧ t.tmrRun c = s.tmrRun c ∧
         t = { s with regs := t.regs, timers := t.timers }) ∧
       (Completes (.tmrCapture by' ch) s fun t => OnlyRegs s t ∧
         t.reg .TMR_LAT [c, 0] = BitVec.ofNat 64 ((s.tmr c).count % 2 ^ 32) ∧
         t.reg .TMR_LAT [c, 2] = BitVec.ofNat 64 ((s.tmr c).rise % 2 ^ 32) ∧
         t.reg .TMR_LAT [c, 4] = BitVec.ofNat 64 ((s.tmr c).fall % 2 ^ 32) ∧
         t.fld .TMR_LAT_INFO [c] .TMR_LAT_INFO_RUN = s.fld .TMR_STAT [c] .TMR_STAT_RUN)) ∧
     (s.reaches w .TMR_GO [] →
       (Completes (.tmrGoStart by' mask) s fun t => t = { s with regs := t.regs, timers := t.timers } ∧
         ∀ i < 16, t.tmrRun i = (s.tmrRun i || (mask.getLsbD i && s.tmrRld i != 0))) ∧
       (Completes (.tmrGoStop by' mask) s fun t => OnlyRegs s t ∧ ∀ i < 16, t.tmrRun i = (s.tmrRun i && !mask.getLsbD i))) ∧
     (s.reaches w .TMR_RLD_HI [c] → Completes (.tmrRldCommit by' ch v) s fun t =>
       t.reg .TMR_RLD_HI [c] = v.setWidth 64 ∧ t.reg .TMR_RLD_LO [c] = BitVec.ofNat 64 (s.tmr c).rldLo ∧
       (t.tmr c).reload = (if s.tmrRun c then (s.tmr c).reload else t.tmrRld c) ∧ t = { s with regs := t.regs, timers := t.timers }) ∧
     (s.reaches w .TMR_CMP_HI [c, k.val] → s.tmrRun c = false → Completes (.tmrCmpCommit by' ch k v) s fun t =>
       t.reg .TMR_CMP_HI [c, k.val] = v.setWidth 64 ∧ t.reg .TMR_CMP_LO [c, k.val] = BitVec.ofNat 64 ((s.tmr c).cmpLo.get 0 k.val) ∧
       (t.tmr c).armed.getLsbD k.val = true ∧ t = { s with regs := t.regs, timers := t.timers })) ∧
  (∀ (s : State) (ch : Fin 16) (m : Fin 32) (bytes : BitVec 40),
     let c := ch.val
     let x := s.tmr c
     let tri := flag (s.reg .TMR_CFG [c]) .TMR_CFG_SHAPE
     (s.pdUp 106 = true → s.tmrRun c = true → Completes (.timerStep ch) s fun t =>
       t = { s with regs := t.regs, timers := t.timers } ∧
       (t.tmr c).count = (if tri then (if s.tmrDown c then (if x.count ≤ 1 then 0 else x.count - 1) else min x.reload (x.count + 1))
         else if x.reload ≤ x.count then 0 else x.count + 1) ∧
       (tri = false → x.reload ≤ x.count → (t.tmr c).reload = s.tmrRld c ∧ flag (t.reg .TMR_STAT [c]) .TMR_STAT_WRAP = true) ∧
       (tri = true → s.tmrDown c = false → x.reload ≤ x.count + 1 → t.tmrDown c = true ∧ flag (t.reg .TMR_STAT [c]) .TMR_STAT_TOP = true)) ∧
     (s.pdUp 106 = true → flag (s.reg .TMR_CFG [c]) .TMR_CFG_CAPEN = true →
       (Completes (.timerCaptureEdge ch true) s fun t => (t.tmr c).rise = x.count ∧ (t.tmr c).fall = x.fall ∧
         flag (t.reg .TMR_STAT [c]) .TMR_STAT_RISE = true ∧ flag (t.reg .TMR_STAT [c]) .TMR_STAT_PAIR = false) ∧
       (Completes (.timerCaptureEdge ch false) s fun t => (t.tmr c).fall = x.count ∧ (t.tmr c).rise = x.rise ∧
         flag (t.reg .TMR_STAT [c]) .TMR_STAT_FALL = true ∧ (x.risen = true → flag (t.reg .TMR_STAT [c]) .TMR_STAT_PAIR = true))) ∧
     (let us := s.fld .TT_WIN [m.val] .TT_WIN_US
      let v : Word := bytes.setWidth 64
      s.pdUp 105 = true → flag (s.reg .TT_CFG [m.val]) .TT_CFG_EN = true → us ≠ 0 → s.time % (us * 1000) = 0 →
       (m.val ∉ s.telltales → exec (.ttWindowEnd m bytes) s = .next { s with telltales := insertRising m.val s.telltales }) ∧
       (m.val ∈ s.telltales → Completes (.ttWindowEnd m bytes) s fun t => OnlyRegs s t ∧ t.reg .TT_LAST [m.val] = v ∧
         t.reg .TT_SEQ [m.val] = BitVec.ofNat 64 (((s.reg .TT_SEQ [m.val]).toNat + 1) % 2 ^ 32) ∧
         t.reg .TT_MIN [m.val] = (if v < s.reg .TT_MIN [m.val] then v else s.reg .TT_MIN [m.val]) ∧
         t.reg .TT_MAX [m.val] = (if s.reg .TT_MAX [m.val] < v then v else s.reg .TT_MAX [m.val]) ∧
         ((t.reg .TT_IRQ).getLsbD m.val = ((s.reg .TT_IRQ).getLsbD m.val ||
           (s.reg .TT_THR [m.val] != 0 && decide (s.reg .TT_THR [m.val] ≤ v)))))))

/-- R396, R476, R483, R492, R521: writes of telltale, ring, debug, watchdog and pad registers.

The model's own choices that it rests on: log entry 65.

Completion of WDOG_KICK, PAD_HOLD_RELEASE, TT_CFG_WRITE, TT_CMD_CLR, HY_RING_RP_WRITE, DBG_HALT, DBG_STEP and
DBG_RESUME. -/
def Obligations.ControlRegisters : Prop :=
  ∀ (s : State) (by' : Sender) (m : Fin 32) (win : Bool) (v : BitVec 32) (r : Fin 16) (c : CoreId) (v2 : BitVec 2),
    let w := s.who by'
    let k := s.core c
    let tt : Reg := if win then .TT_WIN else .TT_CFG
    (s.reaches w tt [m.val] → Completes (.ttCfgWrite by' m win v) s fun t =>
      t.reg tt [m.val] = busKeep tt [m.val] (s.reg tt [m.val]) (afterWrite s tt [m.val] v) ∧
      t = { s with regs := t.regs, telltales := t.telltales }) ∧
    (s.reaches w .TT_CMD [m.val] → Completes (.ttCmdClr by' m) s fun t => OnlyRegs s t ∧
      t.reg .TT_MIN [m.val] = 0xFF_FFFF_FFFF ∧ t.reg .TT_MAX [m.val] = 0 ∧ t.reg .TT_SEQ [m.val] = 0) ∧
    (let new := afterWrite s .HY_RING_RP [r.val] v &&& ~~~63#64
     s.reaches w .HY_RING_RP [r.val] → s.rpOk r.val new = true →
      Completes (.hyRingRpWrite by' r v) s fun t => OnReg s t .HY_RING_RP [r.val] new) ∧
    (s.reaches w .DBG_CTL [quadOf c, c.val % 4] →
      (k.run = .running → k.long = none → k.owed = none → k.devLoad = none → s.admits c = true →
        exec (.dbgHalt by' c) s = .next (s.setCore c { k with run := .halted, haltReq := false, inWfi := false })) ∧
      (let run := if k.inWfi = true ∧ k.wakes = false then CoreRun.wfi else .running
       k.run = .halted →
        exec (.dbgStep by' c) s = .next (s.setCore c { k with run := run, inWfi := false, haltReq := true }) ∧
        exec (.dbgResume by' c) s = .next (s.setCore c { k with run := run, inWfi := false, haltReq := false }))) ∧
    (s.reaches w .WDOG_CFG [] → Completes (.wdogKick by') s fun t =>
      t.crow.kicked = s.tick ∧ t.fld .WDOG_CFG [] .WDOG_CFG_TIMEOUT = s.fld .WDOG_CFG [] .WDOG_CFG_TIMEOUT) ∧
    (s.reaches w .PAD_HOLD [] → Completes (.padHoldRelease by' v2) s fun t =>
      t.reg .PAD_HOLD = s.reg .PAD_HOLD &&& ~~~(v2.setWidth 64) ∧ t = { s with regs := t.regs, crow := t.crow } ∧
      (t.reg .PAD_HOLD = 0 → t.crow.pads = []))

/-- R481 to R485, R487: a frame of a core reaches its ring and WP moves past it, or is dropped and counted when the ring is not valid or not
enabled; the core is told of the loss; a partial frame is sent; an edge of a trigger pin reaches the comparators of every core that is on, and a
transition of its sequencer that waits for one of them is made at once; a token ends at its time.

The model's own choices that it rests on: log entries 20, 22.

Completion of TRACE_IDLE_FLUSH, TRACE_FRAME_ARRIVE, TRACE_LOSS_NOTICE, TRIG_IN_EDGE and TOKEN_EXPIRY. -/
def Obligations.TraceCommands : Prop :=
  ∀ (s u : State) (c : CoreId) (f : TraceFrame) (rest : List TraceFrame) (n : Fin 4) (tok : BitVec 32) (x : Token),
    let k := s.core c
    let r := k.fld .TRC_RING .TRC_RING_RING
    let ctl := s.reg .HY_RING_CTL [r]
    let live := flag (k.reg .TRC_RING) .TRC_RING_VALID = true ∧ flag ctl .HY_RING_CTL_EN = true
    (s.pdUp 105 = true → k.trace.frames = f :: rest → live → s.hyUsed r < 2 ^ bits ctl .HY_RING_CTL_SIZE →
      s.hyPut r f = (true, u) → Completes (.traceFrameArrive c) s fun t =>
        t = u.setCore c { u.core c with trace := { (u.core c).trace with frames := rest } }) ∧
    (s.pdUp 105 = true → k.trace.frames = f :: rest → ¬live → Completes (.traceFrameArrive c) s fun t =>
      t.fld .HY_RING_DROP [r] .HY_RING_DROP_FRAMES = min (2 ^ 32 - 1) (s.fld .HY_RING_DROP [r] .HY_RING_DROP_FRAMES + 1) ∧
      (t.core c).trace.frames = rest ∧ (t.core c).trace.noticeDue = true ∧ t.mem = s.mem) ∧
    (k.trace.noticeDue = true → Completes (.traceLossNotice c) s fun t => (t.core c).fld .TRC_STAT .TRC_STAT_LOSS = 1 ∧
      (t.core c).trace.lossMark = true ∧ (t.core c).trace.noticeDue = false ∧ SameRegs k (t.core c) ∧ t = { s with cores := t.cores }) ∧
    (k.tracing = true → Completes (.traceIdleFlush c) s fun t => (t.core c).trace.buf = [] ∧ OnCore c s t) ∧
    (Completes (.trigInEdge n) s fun t => t = { s with cores := t.cores } ∧ ∀ d : CoreId, SameRegs (s.core d) (t.core d) ∧
      ((s.core d).run = .off → t.core d = s.core d) ∧
      ((s.core d).run ≠ .off → (t.core d).trace.hits = 0 ∧ ∀ j < 8, (s.core d).fld .TCMP_CFG .TCMP_CFG_KIND [j] = 5 →
        (s.core d).fld .TCMP_CFG .TCMP_CFG_ARG [j] % 4 = n.val → s.admits d = true →
        let at' : List Nat := [(s.core d).fld .TSEQ_STATE .TSEQ_STATE_STATE, 0]
        let tr := (s.core d).reg .TSEQ_TRANS at'
        flag tr .TSEQ_TRANS_EN = true → flag tr .TSEQ_TRANS_ALL = false → (bits tr .TSEQ_TRANS_SEL).testBit j = true →
        (t.core d).fld .TSEQ_STATE .TSEQ_STATE_STATE = bits tr .TSEQ_TRANS_NEXT)) ∧
    ((s.fe.tokens.find? fun y => y.num == tok.toNat && decide (y.ends ≤ s.time)) = some x → Completes (.tokenExpiry tok) s fun t =>
      (∀ y ∈ t.fe.tokens, y.num ≠ tok.toNat) ∧ t.mem = s.mem ∧ t.fsi.seq = s.fsi.seq + 1)

/-- R14, R33, R36, R213 to R215, R268: a register write that is aligned acts on its register, one that is not never reaches the bus, and
Shroud firmware writes its own memory; the response of a Device load retires it; the target of a Device store acts on it, after
the older ones to its region, and after an EOI before it when it is the distributor; a report of a refused access is counted, and
captured while no capture is held.

The model's own choices that it rests on: log entries 61, 62.

Completion of DEVICE_LOAD_RESPONSE, DEVICE_STORE_ACK, ADDR_ERR_REPORT and REGISTER_WRITE. -/
def Obligations.BusTargets : Prop :=
  ∀ (s : State) (by' : Sender) (addr : BitVec 46) (size : AccSize) (v : BitVec 64) (r : Reg) (idx : List Nat) (c : CoreId) (i : Nat)
      (d : DevLoad) (e : StoreEntry) (stop : Fin 30) (x : ErrReport),
    let k := s.core c
    (addr.toNat % accBytes size ≠ 0 → exec (.registerWrite (.main by') addr size v) s = .next s) ∧
    (addr.toNat = r.at idx → addr.toNat % 4 = 0 → r.spec.wide = false → ∀ u, u = s.eoisFirst by' addr.toNat → u.reaches (u.who by') r idx →
      exec (.registerWrite (.main by') addr .b4 v) s =
        .next (u.regWrite (u.who by') r idx (BitVec.ofNat 64 (v.toNat % 2 ^ 32)) lanes32)) ∧
    (addr.toNat % 4 = 0 → addr.toNat + 4 ≤ 0xFC000 → s.shrFw = true → Completes (.registerWrite .shroud addr .b4 v) s fun t =>
      Memory.readN t.shr.mem addr.toNat 4 = v.toNat % 2 ^ 32 ∧ t = { s with shr := { s.shr with mem := t.shr.mem } }) ∧
    (k.devLoad = some d → inPcie d.pa = false → s.devAhead c d.pa = false → s.isMem d.pa = false →
      (inDist d.pa = true → s.eoiDue c.val = false ∧ ∀ m ∈ s.dist.toCore, m.1 ≠ c.val) →
      (let b := s.busRead (.core c d.lvl d.pid) d.pa d.size
       (b.2.core c).devLoad = some d → (b.2.core c).haltReq = false → flag ((b.2.core c).reg .STATUS) .STATUS_SS = false →
       Completes (.deviceLoadResponse c) s fun t =>
         GoesOn b.2 t c { (b.2.core c).putLoad d.kind d.rd b.1 with devLoad := none } (b.2.core c).pc)) ∧
    (k.devOut[i]? = some e → inPcie e.pa = false → (∀ y ∈ k.devOut.take i, s.devRegion y.pa ≠ s.devRegion e.pa) → s.isMem e.pa = false →
      let b := s.busWrite (.core c e.lvl e.pid) e.pa e.size e.data.toNat
      (inDist e.pa = false → exec (.deviceStoreAck c i) s =
        .next (b.setCore c { b.core c with devOut := k.devOut.take i ++ k.devOut.drop (i + 1) })) ∧
      (inDist e.pa = true → s.eoiDue c.val = true → exec (.deviceStoreAck c i) s = .next s)) ∧
    ((s.errReports.find? fun y => y.stop == stop.val) = some x →
      (s.pdUp 91 = false → exec (.addrErrReport stop) s = .next { s with errReports := s.errReports.erase x }) ∧
      (s.pdUp 91 = true → Completes (.addrErrReport stop) s fun t => t.errReports = s.errReports.erase x ∧ Quiet s t ∧
        t.fld .ADDR_ERR_COUNT [] .ADDR_ERR_COUNT_COUNT = min (2 ^ 16 - 1) (s.fld .ADDR_ERR_COUNT [] .ADDR_ERR_COUNT_COUNT + 1) ∧
        (flag (s.reg .ADDR_ERR_STATUS) .ADDR_ERR_STATUS_VALID = false →
          t.reg .ADDR_ERR_ADDR_LO = BitVec.ofNat 64 (x.pa % 2 ^ 32) ∧ t.reg .ADDR_ERR_PID = x.pid.setWidth 64 ∧
          flag (t.reg .ADDR_ERR_STATUS) .ADDR_ERR_STATUS_VALID = true)))

/-- R311, R313, R314, R316, R317, R322: a good frame that reaches a port that is on is dropped and counted when its VLAN is not
one of the port's; a unicast one whose address is known goes into the queue of its class at that port alone, tagged as the VLAN
says, or is dropped and counted when a share or the frame memory is full; a frame with a bad FCS goes nowhere; and a port with no gates sends the oldest frame of its highest class.

The model's own choices that it rests on: log entries 36, 38.

Completion of FRAME_RECEIVE and FRAME_TRANSMIT. -/
def Obligations.SwitchForwards : Prop :=
  ∀ (s : State) (p : Fin 12) (frame : List Byte) (e : Eth), s.plainSwitch → s.portOn p.val = true →
    (frame.length + 4 ≤ portLimit p.val → Completes (.frameReceive p frame false) s fun t =>
      OnlyRegs s t ∧ t.fld .CNT_DROP_FCS [p.val] ⟨31, 0⟩ = min (2 ^ 32 - 1) (s.fld .CNT_DROP_FCS [p.val] ⟨31, 0⟩ + 1)) ∧
    (frame.length + 4 ≤ portLimit p.val → Eth.parse frame p.val s.time = some e →
      (s.member p.val (s.vidOf e) = false → Completes (.frameReceive p frame true) s fun t =>
        OnlyRegs s t ∧ t.fld .CNT_DROP_VLAN [p.val] ⟨31, 0⟩ = min (2 ^ 32 - 1) (s.fld .CNT_DROP_VLAN [p.val] ⟨31, 0⟩ + 1)) ∧
      (∀ f, s.member p.val (s.vidOf e) = true → flag (s.reg .PORT_CFG [p.val]) .PORT_CFG_LEARN = false → e.multicast = false →
        s.fdbAll.find? (fun x => x.vid == s.vidOf e && x.mac == e.dst) = some f → f.port ≠ p.val → f.port < 12 →
        s.member f.port (s.vidOf e) = true → (s.egressForm e f.port).len ≤ portLimit f.port →
        let fits := s.fits f.port (s.classOf e) (s.egressForm e f.port).len
        (fits = true → Completes (.frameReceive p frame true) s fun t => t = { s with regs := t.regs, sw := t.sw } ∧
          t.swQueue f.port (s.classOf e) = s.swQueue f.port (s.classOf e) ++ [s.egressForm e f.port] ∧
          ∀ q d, d < 8 → (q ≠ f.port ∨ d ≠ s.classOf e) → t.swQueue q d = s.swQueue q d) ∧
        (fits = false → Completes (.frameReceive p frame true) s fun t => OnlyRegs s t ∧
          t.fld .CNT_DROP_FULL [p.val] ⟨31, 0⟩ = min (2 ^ 32 - 1) (s.fld .CNT_DROP_FULL [p.val] ⟨31, 0⟩ + 1)))) ∧
    (∀ (c : Nat) (rest : List Eth), c < 8 → flag (s.reg .PORT_STATUS [p.val]) .PORT_STATUS_LINK = true →
      flag (s.reg .QBV_CTL [p.val]) .QBV_CTL_EN = false → s.swQueue p.val c = e :: rest → (∀ d < 8, c < d → s.swQueue p.val d = []) →
      e.etherType ∉ [0x88F7, 0x892F, 0xF1C1] → Completes (.frameTransmit p) s fun t => t.sw.lastTx = some (p.val, e.bytes) ∧
        t.sw.txStamp.get 0 p.val = s.time ∧ t.swQueue p.val c = rest ∧ t = { s with regs := t.regs, sw := t.sw } ∧ (∀ d < 8, d ≠ c → t.swQueue p.val d = s.swQueue p.val d) ∧
        t.fld .CNT_TX [p.val] ⟨31, 0⟩ = min (2 ^ 32 - 1) (s.fld .CNT_TX [p.val] ⟨31, 0⟩ + 1))

/-- R312, R313, R317 to R319, R321, R335: the switch's own events: an aged entry is removed and no other; a pending gate list takes over at the
start of a cycle at or after its base time, and its entries follow one another, as those of a stream gate do; a recovery function that has
accepted nothing for its timeout takes any number; old duplicate entries are forgotten; a supervision frame leaves on both ports of its pair
when it is due; a link change is recorded; and an error of the single-pair
receiver that stays above the limit for 20 ms drops the link.

The model's own choices that it rests on: log entries 11, 35, 64.

Completion of FDB_AGEING, QBV_CHANGEOVER, QBV_ENTRY_EXPIRY, STREAM_GATE_ENTRY_EXPIRY, FRER_RESET_TIMEOUT,
DUPLICATE_ENTRY_FORGET, SUPERVISION_FRAME_SEND, LINK_CHANGE and T1L_MSE_UPDATE. -/
def Obligations.SwitchEvents : Prop :=
  ∀ (s : State) (p : Fin 12) (vid : BitVec 12) (mac : BitVec 48) (l : GateList) (g : Fin 256) (f : Fin 512) (i j : Fin 2) (up amp : Bool) (mse : Nat),
    let q := s.qbv p.val
    let onSwitch (t : State) : Prop := t = { s with regs := t.regs, sw := t.sw, pulses := t.pulses }
    (Completes (.fdbAgeing vid mac) s fun t => t = { s with sw := { s.sw with fdb := t.sw.fdb } } ∧
      ∀ x, x ∈ t.sw.fdb ↔ x ∈ s.sw.fdb ∧
        ¬(x.vid = vid.toNat ∧ x.mac = mac.toNat ∧ x.age + s.fld .FDB_AGE [] .FDB_AGE_SECONDS * 10 ^ 9 ≤ s.time)) ∧
    (∀ m, q.pend = some l → s.pdUp 98 = true → flag (s.reg .QBV_CTL [p.val]) .QBV_CTL_EN = true → 0 < l.cycle → l.entries.length ≤ 256 →
      q.since ≤ l.base + m * l.cycle → l.base + m * l.cycle ≤ s.time → Completes (.qbvChangeover p) s fun t =>
        let n := t.qbv p.val
        n.oper = some l ∧ n.pend = none ∧ n.cur = 0 ∧ l.base ≤ n.start ∧ q.since ≤ n.start ∧ n.start ≤ s.time ∧ s.time < n.start + l.cycle ∧
        (n.start - l.base) % l.cycle = 0 ∧ t.fld .QBV_CTL [p.val] .QBV_CTL_PEND = 0 ∧
        t.fld .QBV_CTL [p.val] .QBV_CTL_OPER_LEN = l.entries.length ∧ t.pulses = s.pulses ++ [16 + p.val] ∧ onSwitch t) ∧
    (q.oper = some l → (l.endOf q.cur).1 + q.start ≤ s.time → flag (s.reg .QBV_CTL [p.val]) .QBV_CTL_EN = true → Completes (.qbvEntryExpiry p) s fun t =>
      let n := t.qbv p.val
      n.oper = some l ∧ n.pend = q.pend ∧ t = { s with sw := t.sw } ∧
      if (l.endOf q.cur).2 then n.cur = 0 ∧ n.start = q.start + l.cycle else n.cur = q.cur + 1 ∧ n.start = q.start) ∧
    (∀ x y, let cur := s.sw.sgate.get (0, 0) g.val
      s.sw.tables.gates[g.val]? = some x → x.entries[cur.1]? = some y →
      (cur.2 + y.2 ≤ s.time → Completes (.streamGateEntryExpiry g) s fun t => t = { s with sw := t.sw } ∧
        t.sw.sgate.get (0, 0) g.val = (if x.entries.length ≤ cur.1 + 1 then 0 else cur.1 + 1, cur.2 + y.2)) ∧
      (s.time < cur.2 + y.2 → exec (.streamGateEntryExpiry g) s = .next s)) ∧
    (∀ r, s.sw.tables.recs[f.val]? = some r →
      let due := (s.sw.frer.get {} f.val).last + r.timeout * 10 ^ 6
      (due ≤ s.time → Completes (.frerResetTimeout f) s fun t => t = { s with sw := t.sw } ∧
        ∀ h seq, ((t.sw.frer.get {} f.val).take h seq).1 = true) ∧
      (s.time < due → exec (.frerResetTimeout f) s = .next s)) ∧
    (Completes (.duplicateEntryForget i) s fun t => t = { s with sw := t.sw } ∧
      ∀ d, d ∈ (t.redun i.val).dups ↔ d ∈ (s.redun i.val).dups ∧ s.time < d.2.2 + s.fld .HSR_CFG [i.val] .HSR_CFG_FORGET * 10 ^ 6) ∧
    (s.fld .HSR_CFG [i.val] .HSR_CFG_MODE = 1 ∨ s.fld .HSR_CFG [i.val] .HSR_CFG_MODE = 2 →
      (s.time < (s.redun i.val).supNext → exec (.supervisionFrameSend i) s = .next s) ∧
      ((s.redun i.val).supNext ≤ s.time → (∀ x ∈ [2 * i.val, 2 * i.val + 1], s.fits x 0 200 = true) →
        Completes (.supervisionFrameSend i) s fun t => (t.redun i.val).supSeq = ((s.redun i.val).supSeq + 1) % 2 ^ 16 ∧
          (t.redun i.val).seq = ((s.redun i.val).seq + 1) % 2 ^ 16 ∧
          t.mem = s.mem ∧ t.cores = s.cores ∧ t.homes = s.homes ∧ t.shr = s.shr ∧
          (t.redun i.val).supNext = s.time + s.fld .HSR_CFG [i.val] .HSR_CFG_LIFECHECK * 10 ^ 6 ∧
          ∀ x ∈ [2 * i.val, 2 * i.val + 1], ∃ y, t.swQueue x 0 = s.swQueue x 0 ++ [y] ∧ y.dst = 0x01154E000100)) ∧
    (4 ≤ p.val → s.pdUp 98 = true → s.pdUp (portPd p.val) = true → (up = true → s.portSet p.val = true) →
      flag (s.reg .PORT_STATUS [p.val]) .PORT_STATUS_LINK ≠ up → Completes (.linkChange p up amp) s fun t => onSwitch t ∧ t.sw = s.sw ∧
        flag (t.reg .PORT_STATUS [p.val]) .PORT_STATUS_LINK = up ∧ flag (t.reg .PORT_STATUS [p.val]) .PORT_STATUS_LINK_CHG = true ∧
        t.pulses = s.pulses ++ [p.val]) ∧
    (s.pdUp 101 = false ∨ s.pdUp 98 = false → exec (.t1lMseUpdate j mse) s = .next s) ∧
    (s.pdUp 101 = true → s.pdUp 98 = true →
      let run := if 4096 < mse then s.sw.mse.get 0 (10 + j.val) + 1 else 0
      Completes (.t1lMseUpdate j mse) s fun t => onSwitch t ∧ t.sw.mse.get 0 (10 + j.val) = run ∧
        flag (t.reg .T1L_DIAG [10 + j.val]) .T1L_DIAG_ABOVE = decide (4096 < mse) ∧
        (flag (t.reg .PORT_STATUS [10 + j.val]) .PORT_STATUS_LINK = (flag (s.reg .PORT_STATUS [10 + j.val]) .PORT_STATUS_LINK && decide (run < 20))))

/-- R324 to R327: PCI Express: a store of a core in an outbound window is posted and acknowledged at once; a load in one is sent behind every posted write;
its completion retires it, and an error, a poisoned completion or a timeout is a bus error, cause 0x0D, behind an acceptable interrupt (R130); a
packet whose ECRC is wrong is discarded; an inbound request acts in the window that admits it, a poisoned write leaves poison there, and it is refused where no window does; in endpoint mode BAR0 maps the pages of the slices that are named, and BAR2 an inbound window; a granted message value sets its vector; and a link change is recorded, with no more rate and width than
PCIE_CTL allows. Errors that AER reports raise source 70.

The model's own choices that it rests on: log entries 35, 37, 98, 103.

Completion of PCIE_OUTBOUND_WRITE, PCIE_OUTBOUND_READ, PCIE_READ_COMPLETION, PCIE_COMPLETION_TIMEOUT,
PCIE_INBOUND_REQUEST, PCIE_MSI_WRITE and PCIE_LINK_CHANGE. -/
def Obligations.PciExpress : Prop :=
  ∀ (s u : State) (c : CoreId) (i a b0 slice : Nat) (l : List Nat) (e : StoreEntry) (d : DevLoad) (data : BitVec 64) (addr : BitVec 64)
      (len : Fin 4097) (bytes : List Byte) (w : PcieIn) (v : BitVec 32) (up : Bool) (speed width : Fin 4),
    let k := s.core c
    let errored (x : State) : State :=
      let y := x.updCore c fun k => { k with devLoad := none }
      if k.irqReady then y.interrupt c
      else y.raise c { cause := 0x0D, addr := d.ea, info := accInfo false false false false (lg2 d.size) } k.pc
    let aer (x : State) : State := { x with pulses := x.pulses ++ [70] }
    let sent : State := s.setPcie fun p => { p with reads := p.reads.erase c.val }
    let n := len.val
    let refused (t : State) : Prop := t = { s with pcie := { s.pcie with errLog := s.pcie.errLog ++ [addr.toNat] }, pulses := s.pulses ++ [70, 72] }
    (k.devOut[i]? = some e → inPcie e.pa = true → (∀ x ∈ k.devOut.take i, s.devRegion x.pa ≠ s.devRegion e.pa) →
      let gone := s.setCore c { k with devOut := k.devOut.take i ++ k.devOut.drop (i + 1) }
      (s.pcieAddr e.pa = some a → exec (.pcieOutboundWrite c i) s = .next { gone with pcie := { s.pcie with
        posted := (if s.pcie.posted.length < 64 then s.pcie.posted else s.pcie.posted.tail) ++ [(a, e.size, e.data)] } }) ∧
      (s.pcieAddr e.pa = none → exec (.pcieOutboundWrite c i) s = .next { gone with errReports := s.errReports ++
        [{ stop := quadStop (quadOf c), write := true, kind := if s.pdUp 102 then 1 else 4, pa := e.pa, pid := e.pid }] })) ∧
    (k.devLoad = some d → inPcie d.pa = true → s.devAhead c d.pa = false → c.val ∉ s.pcie.reads → s.pcieAddr d.pa = some a →
      Completes (.pcieOutboundRead c) s fun t => t = { s with pcie := t.pcie } ∧ t.pcie.posted = [] ∧ c.val ∈ t.pcie.reads) ∧
    (c.val ∈ s.pcie.reads → k.devLoad = some d →
      (k.haltReq = false → flag (k.reg .STATUS) .STATUS_SS = false → Completes (.pcieReadCompletion c { refused := false } data) s fun t =>
        GoesOn sent t c { k.putLoad d.kind d.rd (data.toNat % 256 ^ d.size) with devLoad := none } k.pc) ∧
      exec (.pcieReadCompletion c { refused := up, tlp := .badEcrc } data) s = .next (aer s) ∧
      (k.mcheck = false → k.owed = none → k.stepDue = false → k.long = none →
        exec (.pcieReadCompletion c { refused := true } data) s = .next (errored sent) ∧
        exec (.pcieReadCompletion c { refused := up, tlp := .poisoned } data) s = .next (errored (aer sent)) ∧
        exec (.pcieCompletionTimeout c) s = .next (errored (aer sent)))) ∧
    (s.pcieOn = true → s.pcieEnd = true → s.pcie.tables.bar0 = some (b0, l) → b0 ≤ addr.toNat →
      let off := addr.toNat - b0
      off < 2 ^ 18 → off % 4 = 0 → l[off / 4096]? = some slice →
      let page := sliceBase + slice * 4096 + off % 4096
      exec (.pcieInboundRequest true addr len (toLe v.toNat 4) .good) s = .next (s.unitWrite (.far (s.slicePid slice)) page 4 v.toNat) ∧
      exec (.pcieInboundRequest true addr len (toLe v.toNat 4) .poisoned) s = .next (aer s) ∧
      (n = 4 → ∀ x, s.unitRead (.far (s.slicePid slice)) page 4 = (x, u) →
        exec (.pcieInboundRequest false addr len [] .good) s = .next { u with answer := BitVec.ofNat 64 (x % 2 ^ 32) })) ∧
    (s.pcieOn = true → s.pcieEnd = true → s.pcie.tables.bar0 = none → s.pcie.tables.bar2 = some (b0, slice) →
      s.pcie.inWins.get none slice = some w → b0 ≤ addr.toNat → addr.toNat + n ≤ b0 + w.size → w.r = true →
      ∀ b x, s.ioRead (w.pa + (addr.toNat - b0)) n 16 w.pid = (.ok b x, u) → exec (.pcieInboundRequest false addr len [] .good) s =
        .next { u with answer := BitVec.ofNat 64 (leNat (b.take 8)) }) ∧
    (s.pcieOn = true →
      exec (.pcieInboundRequest up addr len bytes .badEcrc) s = .next (aer s) ∧
      (s.pcieEnd = false → (s.pcie.inWins.filterMap (fun x => x.2) = [w] → w.base ≤ addr.toNat → addr.toNat + bytes.length ≤ w.base + w.size →
          w.w = true → (aer s).ioWrite (w.pa + (addr.toNat - w.base)) bytes (bytes.map fun _ => true) 16 w.pid = (some true, u) →
          exec (.pcieInboundRequest true addr len bytes .poisoned) s = .next u)) ∧
      (s.pcieEnd = false →
        (s.pcie.inWins.filterMap (fun x => x.2) = [w] → w.base ≤ addr.toNat → addr.toNat + bytes.length ≤ w.base + w.size →
          w.w = true → s.ioWrite (w.pa + (addr.toNat - w.base)) bytes [] 16 w.pid = (some true, u) →
          exec (.pcieInboundRequest true addr len bytes .good) s = .next u) ∧
        (s.pcie.inWins.filterMap (fun x => x.2) = [w] → w.base ≤ addr.toNat → addr.toNat + n ≤ w.base + w.size → w.r = true →
          ∀ b x, s.ioRead (w.pa + (addr.toNat - w.base)) n 16 w.pid = (.ok b x, u) → exec (.pcieInboundRequest false addr len [] .good) s =
            .next { u with answer := BitVec.ofNat 64 (leNat (b.take 8)) }) ∧
        ((∀ x ∈ s.pcie.inWins, ∀ y, x.2 = some y → addr.toNat < y.base ∨ y.base + y.size < addr.toNat + n ∨ y.r = false) →
          Completes (.pcieInboundRequest false addr len [] .good) s refused)) ∧
      (v.toNat < s.pcie.msi.2 → exec (.pcieMsiWrite v) s = .next (s.srcSet (1024 + s.pcie.msi.1 + v.toNat))) ∧
      (s.pcie.msi.2 ≤ v.toNat → exec (.pcieMsiWrite v) s = .next { s with pcie := { s.pcie with errLog := s.pcie.errLog ++ [v.toNat] } }) ∧
      (flag (s.reg .PCIE_LINK) .PCIE_LINK_UP ≠ up → Completes (.pcieLinkChange up speed width) s fun t =>
        t = { s with regs := t.regs, pulses := s.pulses ++ [68] } ∧ flag (t.reg .PCIE_LINK) .PCIE_LINK_UP = up ∧
        flag (t.reg .PCIE_LINK) .PCIE_LINK_LINK_CHG = true ∧
        t.fld .PCIE_LINK [] .PCIE_LINK_SPEED = (if up then min speed.val (s.fld .PCIE_CTL [] .PCIE_CTL_SPEED) else 0) ∧
        t.fld .PCIE_LINK [] .PCIE_LINK_WIDTH = if up then min width.val (s.fld .PCIE_CTL [] .PCIE_CTL_WIDTH) else 0))

/-- R329 to R331, R333, R337 to R339: the wires of the UARTs, SPI and I²C controllers and the GPIO pins: a character received enters the FIFO with its
error marks, or is lost with OVR when the FIFO is full; the transmitter moves on, with the lead and tail of the RS-485 driver; an idle line is reported; a byte moves in each
direction of SPI; an I²C byte enters or leaves its FIFO; the ends of transfers are recorded; a target takes its own address, in its form, and no other
(log entry 102); and a pin edge is sampled and sets its interrupt condition.

R336: the CAN controllers: the pending frame with the lowest identifier, or the one on the bus that an abort waits for, is sent, its buffer is complete and TEC falls; a frame that a filter accepts fills the lowest free
receive buffer, with its time stamp; an error counts, and above 127 the controller is error passive and above 255 bus-off, which a recovery ends.

The model's own choices that it rests on: log entries 11, 57, 60, 64.

Completion of UART_RX_CHARACTER, UART_TX_CHARACTER, DE_LEAD_EXPIRY, DE_TAIL_EXPIRY, UART_IDLE_DETECT, CAN_FRAME_SENT,
CAN_FRAME_RECEIVED, CAN_BUS_ERROR, CAN_BUSOFF_RECOVERY, SPI_BYTE, SPI_TRANSFER_DONE, I2C_COMMAND_END,
I2C_TARGET_MATCH, I2C_BYTE and GPIO_PIN_EDGE. -/
def Obligations.SerialUnits : Prop :=
  (∀ (s : State) (u : Fin 6) (data : BitVec 8) (perr ferr : Bool) (k : Fin 4) (n : Fin 64) (level read nack arb : Bool) (b : Byte) (r : Bytes),
     let x := s.uart u.val
     let cfg := s.reg .UART_CFG [u.val]
     let onLow (t : State) : Prop := t = { s with low := t.low }
     let onBoth (t : State) : Prop := t = { s with regs := t.regs, low := t.low }
     (s.uartOn u.val = true → (flag cfg .UART_CFG_RS485 = false ∨ x.phase = .idle) →
       let d : BitVec 8 := if flag cfg .UART_CFG_BITS7 then data &&& 0x7F else data
       let bad := perr && bits cfg .UART_CFG_PARITY != 0
       Completes (.uartRxCharacter u data perr ferr) s fun t => onBoth t ∧ (t.uart u.val).tx = x.tx ∧
         flag (t.reg .UART_STAT [u.val]) .UART_STAT_PERR = (flag (s.reg .UART_STAT [u.val]) .UART_STAT_PERR || bad) ∧
         flag (t.reg .UART_STAT [u.val]) .UART_STAT_FERR = (flag (s.reg .UART_STAT [u.val]) .UART_STAT_FERR || ferr) ∧
         if x.rx.length < 64 then (t.uart u.val).rx = x.rx ++ [d.setWidth 10 ||| (if bad then 0x100 else 0) ||| (if ferr then 0x200 else 0)]
         else (t.uart u.val).rx = x.rx ∧ flag (t.reg .UART_STAT [u.val]) .UART_STAT_OVR = true) ∧
     (s.uartOn u.val = true → x.phase = .active → Completes (.uartTxCharacter u) s fun t => onLow t ∧ (t.uart u.val).rx = x.rx ∧
       (x.tx = b :: r → (t.uart u.val).tx = r ∧ (t.uart u.val).shifting = some b ∧ (t.uart u.val).phase = .active) ∧
       (x.tx = [] → (t.uart u.val).shifting = none ∧ (t.uart u.val).sent = true ∧ (t.uart u.val).phase = if flag cfg .UART_CFG_RS485 then .tail else .idle)) ∧
     (x.phase = .lead → x.tx = b :: r → Completes (.deLeadExpiry u) s fun t => onLow t ∧ (t.uart u.val).phase = .active ∧
       (t.uart u.val).shifting = some b ∧ (t.uart u.val).tx = r) ∧
     (x.phase = .tail → Completes (.deTailExpiry u) s fun t => onLow t ∧ t.uart u.val = { x with phase := .idle }) ∧
     (s.uartOn u.val = true → x.heard = true → bits cfg .UART_CFG_IDLE_BITS ≠ 0 → Completes (.uartIdleDetect u) s fun t =>
       t = { s with regs := t.regs, low := t.low, pulses := s.pulses ++ [96 + u.val] } ∧ t.uart u.val = { x with heard := false } ∧
       flag (t.reg .UART_STAT [u.val]) .UART_STAT_IDLE = true) ∧
     (let y := s.spi k.val
      s.pdUp 106 = true → s.spiBusy k.val = true →
       (y.left ≠ 0 → y.tx = b :: r → y.rx.length < 64 → Completes (.spiByte k data) s fun t => onLow t ∧
         t.spi k.val = { y with tx := r, rx := y.rx ++ [data], left := y.left - 1 }) ∧
       (y.left = 0 → Completes (.spiTransferDone k) s fun t => onBoth t ∧ t.spiBusy k.val = false ∧
         flag (t.reg .SPI_STAT [k.val]) .SPI_STAT_DONE = true ∧ t.spi k.val = { y with cs := if y.hold then y.cs else none })) ∧
     (let y := s.i2c k.val
      let ic := s.reg .I2C_CFG [k.val]
      s.pdUp 106 = true → flag ic .I2C_CFG_EN = true →
       (flag ic .I2C_CFG_TARGET = false → s.i2cActive k.val = true → y.left ≠ 0 →
         (y.read = true → y.rx.length < 64 → Completes (.i2cByte k data) s fun t => onLow t ∧
           t.i2c k.val = { y with rx := y.rx ++ [data], left := y.left - 1 }) ∧
         (y.read = false → y.tx = b :: r → Completes (.i2cByte k data) s fun t => onLow t ∧ t.i2c k.val = { y with tx := r, left := y.left - 1 })) ∧
       (flag ic .I2C_CFG_TARGET = false → s.i2cActive k.val = true → (nack = true ∨ arb = true ∨ y.left = 0) → Completes (.i2cCommandEnd k nack arb) s fun t => onBoth t ∧
         flag (t.reg .I2C_STAT [k.val]) .I2C_STAT_DONE = true ∧ (t.i2c k.val).left = 0 ∧ t.i2cActive k.val = false ∧
         flag (t.reg .I2C_STAT [k.val]) .I2C_STAT_NACK = (flag (s.reg .I2C_STAT [k.val]) .I2C_STAT_NACK || nack) ∧
         flag (t.reg .I2C_STAT [k.val]) .I2C_STAT_ARB = (flag (s.reg .I2C_STAT [k.val]) .I2C_STAT_ARB || arb) ∧
         flag (t.reg .I2C_STAT [k.val]) .I2C_STAT_BUSY = (!nack && !arb && !y.stop)) ∧
       (∀ (addr : Fin 1024) (a10 : Bool), flag ic .I2C_CFG_TARGET = true →
         let own := bits ic .I2C_CFG_TADDR
         let same := a10 = flag ic .I2C_CFG_A10 ∧ (if a10 then addr.val = own % 1024 else addr.val % 128 = own % 128)
         (same → Completes (.i2cTargetMatch k addr a10 read) s fun t => onBoth t ∧ (t.i2c k.val).tgt = some read ∧
           flag (t.reg .I2C_STAT [k.val]) .I2C_STAT_ADDRD = true) ∧
         (¬ same → Completes (.i2cTargetMatch k addr a10 read) s fun t => onLow t ∧ t.i2c k.val = { y with tgt := none }) ∧
         (Completes (.i2cCommandEnd k nack arb) s fun t => onLow t ∧ t.i2c k.val = { y with tgt := none }))) ∧
     (let g := n.val / 32
      let bit (z : State) (q : Reg) : Bool := (z.reg q [g]).getLsbD (n.val % 32)
      let m := s.fld .GPIO_ICFG [n.val] .GPIO_ICFG_MODE
      let now := if bit s .GPIO_OE && !(bit s .GPIO_OD && bit s .GPIO_OUT) then bit s .GPIO_OUT else level
      s.pdUp 106 = true → flag (s.reg .PAD_HOLD) .PAD_HOLD_IO33 = false →
       (∀ q ∈ [Reg.GPIO_OE, .GPIO_OD, .GPIO_OUT], ∀ i < 2, (s.reg q [i]).toNat < 2 ^ 32) →
       Completes (.gpioPinEdge n level) s fun t => onBoth t ∧ bit t .GPIO_IN = now ∧
         bit t .GPIO_ISTAT = (bit s .GPIO_ISTAT || (!bit s .GPIO_IN && now && (m == 1 || m == 3)) || (bit s .GPIO_IN && !now && (m == 2 || m == 3))))) ∧
  (∀ (s : State) (k : Fin 2) (b : Fin 64) (ide rtr fdf brs esi tx heavy : Bool) (id : BitVec 29) (dlc : Fin 16) (data : BitVec 512) (sof : BitVec 64),
     let x := s.can k.val
     let ctl := s.reg .CAN_CTL [k.val]
     let onBoth (t : State) : Prop := t = { s with regs := t.regs, low := t.low }
     let done (t : State) : Prop := (t.reg .CAN_MBIRQ [k.val, b.val / 32]).getLsbD (b.val % 32) = true ∧
       t.reg .CAN_MB_TS [k.val, b.val, 0] = BitVec.ofNat 64 (sof.toNat % 2 ^ 32) ∧
       t.reg .CAN_MB_TS [k.val, b.val, 1] = BitVec.ofNat 64 (sof.toNat / 2 ^ 32)
     let counts (t : State) (tec rec' : Nat) : Prop := (t.can k.val).tec = tec ∧ (t.can k.val).rec' = rec' ∧
       t.fld .CAN_STAT [k.val] .CAN_STAT_TEC = min tec 255 ∧ t.fld .CAN_STAT [k.val] .CAN_STAT_REC = min rec' 255 ∧
       t.canState k.val = if 255 < tec then 2 else if 127 < tec ∨ 127 < rec' then 1 else 0
     (s.canOn k.val = true → s.canState k.val ≠ 2 →
       (flag ctl .CAN_CTL_LISTEN = false → flag ctl .CAN_CTL_LOOP = false →
         (x.aborting.head? = some b.val ∨ (x.aborting = [] ∧ s.canPending k.val b.val = true ∧
           ∀ c < 64, c ≠ b.val → s.canPending k.val c = true →
             canArb (s.reg .CAN_MB_ID [k.val, b.val]) < canArb (s.reg .CAN_MB_ID [k.val, c]))) →
         Completes (.canFrameSent k sof) s fun t => onBoth t ∧ done t ∧ counts t (x.tec - 1) x.rec' ∧
           t.fld .CAN_MB_CTRL [k.val, b.val] .CAN_MB_CTRL_STATE = 2) ∧
       (flag ctl .CAN_CTL_LOOP = false → (fdf = true → flag ctl .CAN_CTL_FD = true) → s.canAccepts k.val ide id.toNat = true → x.rec' ≤ 127 →
         s.fld .CAN_MB_CTRL [k.val, b.val] .CAN_MB_CTRL_MODE = 2 → s.fld .CAN_MB_CTRL [k.val, b.val] .CAN_MB_CTRL_STATE = 0 →
         (∀ c < b.val, s.fld .CAN_MB_CTRL [k.val, c] .CAN_MB_CTRL_MODE ≠ 2 ∨ s.fld .CAN_MB_CTRL [k.val, c] .CAN_MB_CTRL_STATE ≠ 0) →
         Completes (.canFrameReceived k ide rtr fdf brs esi id dlc data sof) s fun t => onBoth t ∧ done t ∧ counts t x.tec (x.rec' - 1) ∧
           t.fld .CAN_MB_CTRL [k.val, b.val] .CAN_MB_CTRL_MODE = 2 ∧ t.fld .CAN_MB_CTRL [k.val, b.val] .CAN_MB_CTRL_STATE = 1 ∧
           t.fld .CAN_MB_CTRL [k.val, b.val] .CAN_MB_CTRL_DLC = dlc.val ∧ t.fld .CAN_MB_ID [k.val, b.val] .CAN_MB_ID_ID = id.toNat ∧
           ∀ w < 16, t.reg .CAN_MB_DATA [k.val, b.val, w] = BitVec.ofNat 64 (data.toNat / 2 ^ (32 * w) % 2 ^ 32)) ∧
       (Completes (.canBusError k tx heavy) s fun t => onBoth t ∧ flag (t.reg .CAN_STAT [k.val]) .CAN_STAT_BERR = true ∧
         flag (t.reg .CAN_IRQ [k.val]) .CAN_IRQ_BERR = true ∧
         if tx then counts t (x.tec + 8) x.rec' else counts t x.tec (x.rec' + if heavy then 8 else 1))) ∧
     (s.canOn k.val = true → s.canState k.val = 2 → (flag ctl .CAN_CTL_ABOR = true ∨ x.restart = true) →
       Completes (.canBusoffRecovery k) s fun t => onBoth t ∧ counts t 0 0 ∧ (t.can k.val).restart = false))

/-- R297 to R299: COPY, FILL, CRC, the digests, compression and decompression: a descriptor that passes every check reads its input, writes its output
and ends with status 0, the length written and its result.

R298: the services with a key: AES-GCM writes ciphertext and tag, or the plaintext when the tag matches, and zeros with status 6 when it does not; ECDSA and ML-DSA write a
signature, and verify one with status 0 or 6.

The model's own choices that it rests on: log entries 30, 31, 39.

Completion of COPY, FILL, CRC, AES_GCM_ENCRYPT, AES_GCM_DECRYPT, SHA_256, SHA_384, SHA_512, SHA3_256, SHA3_384,
SHA3_512, ECDSA_P384_SIGN, ECDSA_P384_VERIFY, ML_DSA_65_SIGN, ML_DSA_65_VERIFY, COMPRESS_FIXED, COMPRESS_DYNAMIC and
DECOMPRESS. -/
def Obligations.SliceServices : Prop :=
  (∀ (s s1 u w : State) (n : Fin 8192) (q : Fin 64) (i : Fin 4) (j : Job) (a b : Nat) (m : Bytes),
     let rs := [j.rSrc, j.wDst]
     let at' := s.jobRuns s1 n.val q.val i.val
     let ends (x : State) (rs : List Rng) (pas : List Nat) (c : Cpl) : State := x.jobEnds n.val q.val j rs pas c (c.outLen != 0)
     (∀ p ∈ ([(.sha256 n q i, 2, 0x10, some (sha256 m), 0), (.sha384 n q i, 2, 0x11, some (sha384 m), 0),
         (.sha512 n q i, 2, 0x12, some (sha512 m), 0), (.sha3256 n q i, 2, 0x13, some (sha3 256 m), 0),
         (.sha3384 n q i, 2, 0x14, some (sha3 384 m), 0), (.sha3512 n q i, 2, 0x15, some (sha3 512 m), 0),
         (.compressFixed n q i, 3, 1, some (compressed false m), (crc32c m).setWidth 64),
         (.compressDynamic n q i, 3, 2, some (compressed true m), (crc32c m).setWidth 64),
         (.decompress n q i, 3, 3, (inflate m).map fun x => x.1,
           ((inflate m).map fun x => BitVec.ofNat 64 (x.2.1 * 2 ^ 32 + (crc32c x.1).toNat)).getD 0)] :
           List (Instr × Nat × Nat × Option Bytes × Word)), ∀ d, p.2.2.2.1 = some d →
       at' p.2.1 p.2.2.1 j rs [a, b] → j.plain → s.pdUp 104 = true → s1.inputs n.val a j.len m u → d.length ≤ j.dstLen →
       u.outputs n.val b d w →
       exec p.1 s = .next (ends w rs [a, b] { status := 0, outLen := d.length, result := p.2.2.2.2 })) ∧
     (at' 1 3 j [j.rSrc] [a] → j.plain → j.dst = 0 → j.dstLen = 0 → s1.inputs n.val a j.len m u →
       exec (.crc n q i) s = .next (ends u [j.rSrc] [a] { status := 0, result := (crc32c m).setWidth 64 })) ∧
     (at' 1 2 j [j.wDst] [b] → j.len = 0 → j.src = 0 → j.auxLen = 0 → j.aux = 0 → j.key = 0 → j.param.toNat < 2 ^ 64 →
       s1.outputs n.val b ((List.range j.dstLen).map fun k => BitVec.ofNat 8 (j.param.toNat / 256 ^ (k % 8))) w →
       exec (.fill n q i) s = .next (ends w [j.wDst] [b] { status := 0, outLen := j.dstLen })) ∧
     (at' 1 1 j rs [a, b] → j.plain → 0 < j.len → ∀ p, s1.ioRead a j.len 16 (s1.slicePid n.val) = (.ok m p, u) → m.length ≤ j.dstLen →
       u.outputs n.val b m w p → exec (.copy n q i) s = .next
         (if p.any id then ends (w.sliceErr n.val q.val 9) rs [a, b] { status := 3, outLen := m.length }
          else ends w rs [a, b] { status := 0, outLen := m.length }))) ∧
  (∀ (s s1 u v w : State) (n : Fin 8192) (q : Fin 64) (i : Fin 4) (j : Job) (a b x : Nat) (m aad sig : Bytes),
     let at' := s.jobRuns s1 n.val q.val i.val
     let rs := [j.rSrc, j.wDst, j.rAux]
     let ends (y : State) (rs : List Rng) (pas : List Nat) (c : Cpl) : State := y.jobEnds n.val q.val j rs pas c (c.outLen != 0)
     let done (y : State) (d : Bytes) (st : Nat) (r : Word) : State := ends y rs [a, b, x] { status := st, outLen := d.length, result := r }
     (∀ k, s.aesKey j = some k → v.aesKey j = some k → j.param.toNat < 2 ^ 96 → s.pdUp 104 = true → s1.inputs n.val a j.len m u →
       u.inputs n.val x j.auxLen aad v →
       (at' 2 1 j rs [a, b, x] → let d := gcmEncrypt k (j.paramBytes 0 12) aad m
         d.length ≤ j.dstLen → v.outputs n.val b d w → exec (.aesGcmEncrypt n q i) s = .next (done w d 0 0)) ∧
       (at' 2 2 j rs [a, b, x] → 16 ≤ j.len →
         (∀ d, gcmDecrypt k (j.paramBytes 0 12) aad m = some d → d.length ≤ j.dstLen → v.outputs n.val b d w →
           exec (.aesGcmDecrypt n q i) s = .next (done w d 0 0)) ∧
         (gcmDecrypt k (j.paramBytes 0 12) aad m = none → j.len - 16 ≤ j.dstLen → v.outputs n.val b (zeros (j.len - 16)) w →
           exec (.aesGcmDecrypt n q i) s = .next (done w (zeros (j.len - 16)) 6 0)))) ∧
     (j.auxLen = 0 → j.aux = 0 → j.param = 0 → s.pdUp 104 = true → s1.inputs n.val a j.len m u →
       let rs := [j.rSrc, j.wDst]
       (∀ k, s.ecKey j = some k → u.ecKey j = some k → j.len = 48 → at' 2 0x20 j rs [a, b] → (ecdsaSign k m).length ≤ j.dstLen →
         u.outputs n.val b (ecdsaSign k m) w → exec (.ecdsaP384Sign n q i) s = .next
           (ends w rs [a, b] { status := 0, outLen := (ecdsaSign k m).length })) ∧
       (∀ k rnd y att, s.mlKey j = some k → u.freshBytes 32 = (rnd, v) → v.mlKey j = some k → mldsaSign k rnd m = some (y, att) →
         at' 2 0x30 j rs [a, b] → y.length ≤ j.dstLen → v.outputs n.val b y w → exec (.mlDsa65Sign n q i) s = .next
           (ends w rs [a, b] { status := 0, outLen := y.length, result := BitVec.ofNat 64 att }))) ∧
     (let rs := [j.rSrc, ⟨j.dst, j.dstLen, true, false⟩, j.rAux]
      j.key = 0 → j.param = 0 → s.pdUp 104 = true → s1.inputs n.val a j.len m u → u.inputs n.val x j.auxLen aad v → v.inputs n.val b j.dstLen sig w →
       (at' 2 0x21 j rs [a, b, x] → j.auxLen = 97 → j.dstLen = 96 → j.len = 48 → exec (.ecdsaP384Verify n q i) s = .next
         (ends w rs [a, b, x] { status := if ecdsaVerify aad m sig then 0 else 6 })) ∧
       (at' 2 0x31 j rs [a, b, x] → j.auxLen = 1952 → j.dstLen = 3309 → exec (.mlDsa65Verify n q i) s = .next
         (ends w rs [a, b, x] { status := if mldsaVerify aad m sig then 0 else 6 }))))

/-- R291, R300, R301, R303 to R306, R308: a descriptor is fetched from the ring; an uncorrectable error in a queue's state stops the queue, and
one in the state common to all slices is a machine check to Fetas; a record is written into the bank that is not newest, its commit word behind it, and the newest bank is
read; a frame is sent into the switch; a buffer is posted; the window of the caps ends; and a drain ends when its last descriptor has completed, or after 10 ms, and with an unbinding the mailbox keeps nothing for its old owner (R282).

The model's own choices that it rests on: log entries 32, 36, 85, 97.

Completion of DESCRIPTOR_FETCH, SEND, POST, RECORD_SVC_WRITE, RECORD_SVC_READ, BW_CAP_WINDOW, GRANT_DRAIN_COMPLETE and
GRANT_DRAIN_TIMEOUT. -/
def Obligations.SliceQueues : Prop :=
  ∀ (s s1 u v w x : State) (n : Fin 8192) (q : Fin 64) (i : Fin 4) (j : Job) (a b c pa : Nat) (m ba bb : Bytes) (p : List Bool),
    let at' := s.jobRuns s1 n.val q.val i.val
    let cfg := s.reg .Q_CFG [n.val, q.val]
    let sq := s.reg .Q_SQ [n.val, q.val]
    let head := bits sq .Q_SQ_HEAD
    (s.pdUp 103 = true → s.slices.stopped = false → flag cfg .Q_CFG_EN = true → flag cfg .Q_CFG_ERR = false → head ≠ bits sq .Q_SQ_PROD →
      (s.slices.jobs.countP fun j => j.slice == n.val) < 8 → s.slices.jobs.length < 512 → s.queueJobs n.val q.val = [] →
      s.cqFull n.val q.val = false → u.queueJobs n.val q.val = [] →
      winFind (s.windows n.val) (s.fld .Q_SQ_BASE [n.val, q.val] .Q_SQ_BASE_IOVA * 64 + head % 2 ^ bits cfg .Q_CFG_SIZE * 64) 64 true false = some pa →
      s.ioRead pa 64 16 (s.slicePid n.val) = (.ok m p, u) → p.any id = false →
      (svcOps (bits cfg .Q_CFG_SVC)).contains (leNat (m.take 4) % 256) = true →
      Completes (.descriptorFetch n { q := q }) s fun t => t = { u with regs := t.regs, slices := t.slices } ∧
        t.fld .Q_SQ [n.val, q.val] .Q_SQ_HEAD = (head + 1) % 2 ^ 16 ∧
        ∃ d, t.slices.jobs = u.slices.jobs ++ [d] ∧ d.slice = n.val ∧ d.q = q.val ∧ d.svc = bits cfg .Q_CFG_SVC ∧
          d.op = leNat (m.take 4) % 256 ∧ d.tag = leNat (m.take 4) / 2 ^ 16 ∧ d.result = none ∧ d.len = leNat (piece m 4 4) ∧
          d.src = leNat (piece m 8 8) ∧ d.dst = leNat (piece m 16 8) ∧ d.dstLen = leNat (piece m 24 4)) ∧
    (s.pdUp 103 = true →
      (Completes (.descriptorFetch n { q := q, err := some .queue }) s fun t => Quiet s t ∧ t.reports = s.reports ∧
        flag (t.reg .Q_CFG [n.val, q.val]) .Q_CFG_ERR = true ∧ t.fld .Q_CFG [n.val, q.val] .Q_CFG_ERRKIND = 0xA ∧
        t.fld .SE_ERR_COUNT [0] .SE_ERR_COUNT_UE = min (2 ^ 16 - 1) (s.fld .SE_ERR_COUNT [0] .SE_ERR_COUNT_UE + 1)) ∧
      (Completes (.descriptorFetch n { q := q, err := some .common }) s fun t => Quiet s t ∧ t.reports = s.reports ++ [.unitCheck 0] ∧
        t.fld .SE_ERR_COUNT [0] .SE_ERR_COUNT_UE = min (2 ^ 16 - 1) (s.fld .SE_ERR_COUNT [0] .SE_ERR_COUNT_UE + 1))) ∧
    (let rs := j.rSrc :: j.banks true
     let whole (y : Nat) : Prop := inMram y = true ∧ y + j.dstLen ≤ mramEnd
     let bank := recNext 0x20 ba bb
     let dst := if bank.1 then b else a
     at' 6 1 j rs [c, a, b] → j.auxLen = 0 → j.key = 0 → j.param = 0 → whole a → whole b → 128 ≤ j.dstLen → j.dstLen % 64 = 0 →
      j.len + 96 ≤ j.dstLen → s1.bank n.val j.dstLen a ba u → u.bank n.val j.dstLen b bb v → v.inputs n.val c j.len m w →
      w.outputs n.val dst (recHeader 0x20 bank.2 m.length (recCrc 0x20 bank.2 m) ++ m) x →
      exec (.recordSvcWrite n q i) s = .next
        ((x.updJob j.id fun j => { j with commit := some (dst + j.dstLen - 64, recCommit 0x20 bank.2 m) }).jobEnds n.val q.val j rs [c, a, b]
          { status := 0, outLen := m.length, result := BitVec.ofNat 64 bank.2 } true)) ∧
    (let rs := ⟨j.param.toNat, j.len, false, true⟩ :: j.banks false
     let whole (y : Nat) : Prop := inMram y = true ∧ y + j.dstLen ≤ mramEnd
     at' 6 2 j rs [c, a, b] → j.auxLen = 0 → j.src = 0 → j.key = 0 → j.param.toNat < 2 ^ 64 → whole a → whole b →
      s1.bank n.val j.dstLen a ba u → u.bank n.val j.dstLen b bb v → ∀ inB seq, recNewest 0x20 ba bb = some (inB, seq, m) → m.length ≤ j.len →
      v.outputs n.val c m w → exec (.recordSvcRead n q i) s = .next
        (w.jobEnds n.val q.val j rs [c, a, b] { status := 0, outLen := m.length, result := BitVec.ofNat 64 seq } (m.length != 0))) ∧
    (at' 4 1 j [j.rSrc] [a] → j.dst = 0 → j.dstLen = 0 → j.auxLen = 0 → j.aux = 0 → j.key = 0 → j.param.toNat < 2 → s.pdUp 98 = true →
      s1.inputs n.val a j.len m u → m.length + 4 ≤ 9216 → flag (u.reg .SW_CTL) .SW_CTL_EN = true → ∀ e, Eth.parse m (16 + n.val) u.time = some e →
      exec (.send n q i) s = .next ((u.switchFrame { e with tag := none, body := m.drop 12 }).jobEnds n.val q.val j [j.rSrc] [a]
        { status := 0, result := if j.param = 1 then BitVec.ofNat 64 u.time else 0 } false)) ∧
    ((s.queueJobs n.val q.val)[i.val]? = some j → j.svc = 5 → j.op = 1 → j.posted = false → s.pdUp 103 = true → s.mayStart j = true →
      j.rsv = false → j.len = 0 → j.src = 0 → j.plain → j.ranges [j.wDst] = some [a] → s.nextFrame (16 + n.val) = none →
      exec (.post n q i) s = .next (s.updJob j.id fun j => { j with posted := true })) ∧
    (exec .bwCapWindow s = .next { s with slices := { s.slices with used := [] } }) ∧
    (∀ d, s.slices.drains = [d] → d.slice = n.val → d.req = none → (∀ y ∈ d.vecs, y < srcCount) →
      let freed (t : State) : Prop := t.slices.drains = [] ∧ t.fld .SLICE_GEN [n.val] .SLICE_GEN_PENDING = 0 ∧
        t.mem = s.mem ∧ t.cores = s.cores ∧ (d.unbind = false → t.fsi = s.fsi) ∧
        (d.unbind = true → t.fsiQueue (8 + n.val) = [] ∧ t.responseDue (8 + n.val) = false)
      ((∀ y ∈ s.slices.jobs, y.id ∉ d.jobs) → Completes (.grantDrainComplete n) s fun t => freed t ∧
        t.slices.jobs = s.slices.jobs) ∧
      (d.start + 10000000 ≤ s.time → Completes (.grantDrainTimeout n) s fun t => freed t ∧
        t.slices.jobs = s.slices.jobs.filter fun y => !d.jobs.contains y.id))

/-- R341 to R343, R346, R349, R350, R352: Fetas copies the request of a mailbox, once the one before it there is answered and none that rang before may
be copied, and its window is free again; a code that the catalogue does not have is answered with status 2; a
ready response, and the next event, fill an empty window, whose FULL bit they set.

The model's own choices that it rests on: log entries 45, 51.

Completion of REQUEST_ACCEPT, RESPONSE_POST and EVENT_POST. -/
def Obligations.FsiMailboxes : Prop :=
  ∀ (s : State) (box : Nat) (r : Nat × List Nat) (e : FsiEvent) (q : List FsiEvent), s.fetasUp = true → s.boxServed box = true →
    let ws := s.boxWords box
    let window (rsp : Bool) (w : Nat) : Reg × List Nat := if box < 8 then (if rsp then .RSP_MSG else .EVT_MSG, [box, w]) else (.IN_MSG, [box - 8, w])
    let holds (t : State) (rsp : Bool) (l : List Nat) : Prop := ∀ w < 16,
      t.reg (window rsp w).1 (window rsp w).2 = BitVec.ofNat 64 (l.getD w 0 % 2 ^ 32)
    (s.boxBusy box = true → s.responseDue box = true → exec (.requestAccept box) s = .next s) ∧
    (s.boxBusy box = true → s.responseDue box = false → s.rangFirst box = false → exec (.requestAccept box) s = .next s) ∧
    (s.boxBusy box = true → s.responseDue box = false → s.rangFirst box = true →
      (fsiCodes.contains (ws.headD 0 % 2 ^ 16) = true → ws.headD 0 < 2 ^ 26 → ws.getD 14 0 = 0 → ws.getD 15 0 = 0 →
        Completes (.requestAccept box) s fun t => t.boxBusy box = false ∧ t = { s with regs := t.regs, fsi := t.fsi } ∧
          t.fsi.accepted = s.fsi.accepted ++ [{ id := s.fsi.reqNext, box := box, words := ws }]) ∧
      (fsiCodes.contains (ws.headD 0 % 2 ^ 16) = false → Completes (.requestAccept box) s fun t => t.boxBusy box = false ∧
        t.fsi.accepted = s.fsi.accepted ∧ t.fsi.ready = s.fsi.ready ++ [(box, [ws.headD 0 % 2 ^ 24, 2])])) ∧
    (s.boxFree box = true → (s.fsi.ready.find? fun x => x.1 == box) = some r → Completes (.responsePost box) s fun t =>
      t.boxFree box = false ∧ holds t true r.2 ∧ t.fsi = { s.fsi with ready := s.fsi.ready.erase r, firm := s.fsi.firm.erase box } ∧ Quiet s t) ∧
    (s.fsiQueue box = e :: q → (if box < 8 then flag (s.reg .FSI_MBX_STAT [box]) .FSI_MBX_STAT_EVT_FULL = false
        else s.boxFree box = true ∧ s.responseDue box = false) → Completes (.eventPost box) s fun t =>
      holds t false (e.words (s.fsi.lost.get 0 box)) ∧ t.fsiQueue box = q ∧ Quiet s t ∧
      (box < 8 → flag (t.reg .FSI_MBX_STAT [box]) .FSI_MBX_STAT_EVT_FULL = true) ∧ (8 ≤ box → t.boxFree box = false) ∧
      (e.completion = false → t.fsi.lost.get 0 box = 0))

/-- R361, R362, R376, R400 to R403: the PLAN and POWER commands: a plan is loaded, its commit waits for its tick, the digest is reported, a scan reports what it repaired, a pending commit is
cancelled; a mode waits for its tick, a quad gets its level, a domain is switched, a core is furled and unfurled, and the state of power is reported; while a mode transition runs, a commit and the POWER commands are answered BUSY
with detail 2 (R348).

The model's own choices that it rests on: log entries 40, 41, 43, 45, 54, 56, 105.

Completion of PLAN_LOAD, PLAN_COMMIT, PLAN_DIGEST, PLAN_SCAN, PLAN_CANCEL, POWER_SET_MODE, POWER_SET_REEF,
POWER_DOMAIN, POWER_FURL, POWER_UNFURL and POWER_STATE. -/
def Obligations.FsiPlanPower : Prop :=
  ∀ (s u v w : State) (box tag id len addr gen tick trim m q lvl d l p n : Nat) (b : Bytes) (pz : List Bool) (plan : Plan) (cm : Commit),
    box < 8 →
    let done (x : State) (i : Instr) (code : Nat) (res : List Nat) : Prop := s.answers x i box code tag { res := res }
    let asks (code : Nat) (args : List Nat) : Prop := s.asks u box tag id code args none
    let waits (i : Instr) (code : Nat) (args : List Nat) (o : Obj) (P : State → Prop) : Prop := Completes i s fun t =>
      t.fsi.ops = s.fsi.ops ++ [{ req := { id := id, box := box, words := reqWords code tag args none }, deferred := false, objs := [o] }] ∧
      t.fsi.ready = s.fsi.ready ∧ t.regs = s.regs ∧ t.mem = s.mem ∧ t.cores = s.cores ∧ P t
    let steady : Prop := s.fe.passage = none
    let ahead (k : Nat) : Nat := (k + 2 ^ 48 - s.tick) % 2 ^ 48
    (∀ i ∈ [(Instr.planCommit, 0x202, 5), (.powerSetMode, 0x301, 3), (.powerSetReef, 0x302, 1), (.powerDomain, 0x303, 1), (.powerFurl, 0x304, 1),
        (.powerUnfurl, 0x305, 1), (.powerState, 0x306, 0)], asks i.2.1 (List.replicate i.2.2 0) → s.fe.passage.isSome = true →
      s.answers u i.1 box i.2.1 tag { status := stBusy, detail := 2 }) ∧
    (s.asks u box tag id 0x201 [] (some (len, addr)) → s.descOk len addr → s.fe.commit = none → u.ioRead addr len 18 = (.ok b pz, v) →
      pz.any (fun x => x) = false → v.parsePlan b = some plan →
      done { v with fe := { v.fe with loaded := some plan } } .planLoad 0x201 [plan.gen]) ∧
    (asks 0x202 [s.latestGen, gen, tick % 2 ^ 32, tick / 2 ^ 32, trim] → gen < 2 ^ 32 → tick < 2 ^ 48 → trim < 8 → s.latestGen < gen →
      steady → s.fe.loaded = some plan → plan.gen = gen → 33 ≤ ahead tick → ahead tick ≤ 2 ^ 31 →
      waits .planCommit 0x202 [s.latestGen, gen, tick % 2 ^ 32, tick / 2 ^ 32, trim] .plan fun t =>
        t.fe.commit = some { plan := plan, trim := trim, tick := tick, req := id }) ∧
    (asks 0x203 [] → done u .planDigest 0x203 (((List.range 12).map fun i => leNat (piece (toBe s.fe.digest.toNat 48) (4 * i) 4)) ++
      [s.fe.plan.gen, s.fe.digestTick % 2 ^ 32])) ∧
    (asks 0x204 [] → s.fsi.ops = [] → u.scan = (n, v) → v.fe.unrepaired = [] → done v .planScan 0x204 [85, n]) ∧
    (asks 0x205 [cm.plan.gen] → cm.plan.gen < 2 ^ 32 → s.fe.commit = some cm →
      2 ≤ ahead cm.tick → ahead cm.tick ≤ 2 ^ 47 → Completes .planCancel s fun t => t.fe.commit = none ∧ t.fe.plan = s.fe.plan ∧ t.regs = s.regs ∧ t.mem = s.mem ∧ t.cores = s.cores ∧
        (box, [0x205 + tag * 2 ^ 16, 0]) ∈ t.fsi.ready) ∧
    (asks 0x301 [m, tick % 2 ^ 32, tick / 2 ^ 32] → s.fsi.ops = [] → steady → 0 < m → m < 8 → tick < 2 ^ 48 → 0 < tick →
      (m = 7 → ∀ e ∈ s.running, ((s.trimDef 7).placeOf e.1).isSome = true) →
      waits .powerSetMode 0x301 [m, tick % 2 ^ 32, tick / 2 ^ 32] (.pd 0) fun t =>
        t.fe.modeTick = some { plan := s.fe.plan, trim := m, tick := tick, req := id }) ∧
    (asks 0x302 [q + lvl * 256] → s.fsi.ops = [] → steady → q < 16 → lvl < 8 → s.pdUp (67 + q) = true → s.reefOk q lvl = true → s.fe.throttled = [] →
      done (u.setLevel q lvl) .powerSetReef 0x302 [] ∧ (u.setLevel q lvl).level q = lvl) ∧
    (asks 0x303 [d + 256] → s.fsi.ops = [] → steady → 83 ≤ d → d ≤ 106 → d ≠ 91 → d ≠ 92 →
      done (u.domainsOn (if d = 93 ∨ d = 94 then [93, 94] else if d = 95 ∨ d = 96 then [95, 96] else [d])) .powerDomain 0x303 []) ∧
    (asks 0x303 [d] → s.fsi.ops = [] → steady → 83 ≤ d → d ≤ 106 → ¬ (91 ≤ d ∧ d ≤ 96) → s.requires d = false →
      done (if s.pdUp d then u.quietOff d false else u) .powerDomain 0x303 []) ∧
    (asks 0x303 [d] → s.fsi.ops = [] → steady → d = 93 ∨ d = 95 → s.requires d = false → s.requires (d + 1) = false → s.pdUp d = true →
      s.pdUp (d + 1) = true → (u.quietOff (d + 1) false).pdUp d = true →
      done ((u.quietOff (d + 1) false).quietOff d false) .powerDomain 0x303 []) ∧
    (asks 0x304 [l] → s.fsi.ops = [] → steady → l < 64 → s.placeOf l = some p → (s.core (Fin.ofNat 64 p)).run ≠ .halted → u.furl l = some v →
      v.healthEval.freshUpTo 50000 = (n, w) → done w .powerFurl 0x304 [n] ∧ n ≤ 50000) ∧
    (asks 0x305 [l] → s.fsi.ops = [] → steady → l < 64 → (s.fe.furled.get none l).isSome = true → (s.trimDef s.fe.trim).placeOf l = some q → s.target q = some p →
      let mate := if q = p then ((s.trimDef s.fe.trim).partnerOf l).filter (fun b => !s.fe.quarantined.contains b) else none
      (u.unfurlTo l p mate).healthEval.freshUpTo 30000 = (n, w) → done w .powerUnfurl 0x305 [n] ∧ n ≤ 30000) ∧
    (asks 0x306 [] → steady → ∃ x y z, done u .powerState 0x306 [s.mode.toNat, x, y, (s.fe.caseTemp / 10 + 64).toNat, z] ∧
      (∀ i < 8, (∀ j < 16, s.level j < 16) → x / 16 ^ i % 16 = s.level i ∧ y / 16 ^ i % 16 = s.level (8 + i)))

/-- R363, R364: the SLICE and TENANT commands: a slice is bound to a tenant and unbound; its queues, vectors, bandwidth, windows and port are granted and read back; PCI
Express gets a window and vectors; a tenant is created and removed; its cores are migrated, reset and resumed; and tenants are listed.

The model's own choices that it rests on: log entries 43, 45, 52, 107.

Completion of SLICE_BIND, SLICE_UNBIND, SLICE_GRANT_Q, SLICE_GRANT_V, SLICE_GRANT_BW, SLICE_WINDOW, SLICE_VPORT,
SLICE_GET, SLICE_PCIE_WINDOW, SLICE_PCIE_VECTORS, TENANT_CREATE, TENANT_REMOVE, TENANT_MIGRATE, TENANT_CORE_RESET,
TENANT_CORE_RESUME, TENANT_RESUMED_LIST and TENANT_SELF. -/
def Obligations.FsiSliceTenant : Prop :=
  ∀ (s u v : State) (box tag id len addr n x y base count w pages pa vmid l p r : Nat) (f fw : Bool) (b : Bytes) (pz : List Bool) (pid far : Nat) (t : Tenant),
    n < 8192 → s.fsi.ops = [] →
    let done (x : State) (i : Instr) (code : Nat) (res : List Nat) : Prop := s.answers x i box code tag { res := res }
    let asks (code : Nat) (args : List Nat) : Prop := box < 8 ∧ s.asks u box tag id code args none
    let grown (x : State) (r : Reg) (z : Nat) : State := (x.setReg r [n] (BitVec.ofNat 64 z)).bumpGen n
    (asks 0x401 [n, pid, far] → 0 < n → pid < 2 ^ 29 → (far < 2 ^ 14 ∨ (2 ^ 31 ≤ far ∧ far < 2 ^ 31 + 2 ^ 14)) → s.bound n = false →
      (s.fe.tenants.get none (pid / 2 ^ 16)).isSome = true →
      done ((u.setReg .SLICE_BIND [n] (BitVec.ofNat 64 (pid + 2 ^ 31))).setReg .SLICE_FAR [n] (BitVec.ofNat 64 far)) .sliceBind 0x401 []) ∧
    (asks 0x402 [n] → 0 < n → s.bound n = true → ((u.unbind n none).slices.drains.any fun d => d.slice == n) = false →
      done (u.unbind n none) .sliceUnbind 0x402 []) ∧
    (asks 0x403 [n, x] → x ≤ 64 → s.fld .SLICE_GRANT_Q [n] .SLICE_GRANT_Q_COUNT = 0 → x ≤ s.poolFree → s.resumableSlice n = false →
      Completes .sliceGrantQ s fun t => t.fld .SLICE_GRANT_Q [n] .SLICE_GRANT_Q_COUNT = x ∧ Quiet s t ∧
        t.fld .SLICE_GEN [n] .SLICE_GEN_GEN = (s.fld .SLICE_GEN [n] .SLICE_GEN_GEN + 1) % 2 ^ 16 ∧
        ∃ free, t.fsi.ready = s.fsi.ready ++ [(box, [0x403 + tag * 2 ^ 16, 0, free])]) ∧
    (asks 0x404 [n, base + count * 2 ^ 16] → base < 2 ^ 14 → count ≤ 64 → base + count ≤ 16384 → s.vecClash n base count true = false →
      s.vecSources n = [] → s.resumableSlice n = false → done (grown u .SLICE_GRANT_V (base + count * 2 ^ 16)) .sliceGrantV 0x404 []) ∧
    (asks 0x405 [n, x] → x < 2 ^ 24 → done (grown u .SLICE_GRANT_BW x) .sliceGrantBw 0x405 []) ∧
    (asks 0x406 [n + w * 2 ^ 16, x * 4096 % 2 ^ 32, x * 4096 / 2 ^ 32, pa * 4096 % 2 ^ 32, pa * 4096 / 2 ^ 32, pages, 1 + b2n f * 2 + b2n fw * 4] →
      w < 8 → x < 2 ^ 36 → pa < 2 ^ 34 → pages < 2 ^ 18 → s.windows n = [] → s.inFitted (pa * 4096) ((pages + 1) * 4096) = true →
      s.ponlyBars (s.boundVmid n) (pa * 4096) = false → (∀ q < 64, flag (s.reg .Q_CFG [n, q]) .Q_CFG_EN = false) →
      Completes .sliceWindow s fun t => t.windows n = [{ iova := x * 4096, size := (pages + 1) * 4096, pa := pa * 4096, r := f, w := fw }] ∧
        Quiet s t ∧ t.fsi.ready = s.fsi.ready ++ [(box, [0x406 + tag * 2 ^ 16, 0])]) ∧
    (asks 0x407 [n, x] → 0 < x → x < 4095 → done { u with sw := { u.sw with vports := u.sw.vports.set {} n { pvid := x, members := [] } } } .sliceVport 0x407 []) ∧
    (box < 8 → s.asks u box tag id 0x407 [n, x] (some (len, addr)) → s.descOk len addr → 0 < x → x < 4095 → len ≤ 32 → len % 2 = 0 →
      u.ioRead addr len 18 = (.ok b pz, v) → pz.any (fun x => x) = false → b.length = len →
      let vids := (List.range (len / 2)).map fun i => leNat (piece b (2 * i) 2)
      (∀ i ∈ vids, 0 < i ∧ i < 4095) →
      done { v with sw := { v.sw with vports := v.sw.vports.set {} n { pvid := x, members := vids } } } .sliceVport 0x407 []) ∧
    (asks 0x408 [n] → done u .sliceGet 0x408 ([Reg.SLICE_BIND, .SLICE_GRANT_Q, .SLICE_GRANT_V, .SLICE_GRANT_BW, .SLICE_GEN, .SLICE_FAR].map fun r =>
      (s.reg r [n]).toNat)) ∧
    (box < 8200 → 8 ≤ box → s.asks u box tag id 0x408 [n] none → done u .sliceGet 0x408
      ([Reg.SLICE_BIND, .SLICE_GRANT_Q, .SLICE_GRANT_V, .SLICE_GRANT_BW, .SLICE_GEN, .SLICE_FAR].map fun r => (s.reg r [box - 8]).toNat)) ∧
    (asks 0x409 [w, pid, x % 2 ^ 32, x / 2 ^ 32, pa * 4096 % 2 ^ 32, pa * 4096 / 2 ^ 32, pages, 1 + b2n f * 2 + b2n fw * 4] → w < 32 → pid < 2 ^ 29 →
      x < 2 ^ 64 → pa < 2 ^ 34 → pages < 2 ^ 18 → (∀ z ∈ s.pcie.inWins, z.1 = w ∨ z.2 = none) → s.inFitted (pa * 4096) ((pages + 1) * 4096) = true →
      s.ponlyBars (pid / 2 ^ 16) (pa * 4096) = false → Completes .slicePcieWindow s fun t => Quiet s t ∧
        t.pcie.inWins.get none w = some { pid := BitVec.ofNat 29 pid, base := x, size := (pages + 1) * 4096, pa := pa * 4096, r := f, w := fw } ∧
        t.fsi.ready = s.fsi.ready ++ [(box, [0x409 + tag * 2 ^ 16, 0])]) ∧
    (asks 0x40A [base + count * 2 ^ 16] → base < 2 ^ 14 → count < 2 ^ 15 → base + count ≤ 16384 → s.vecClash 8192 base count false = false →
      done { u with pcie := { u.pcie with msi := (base, count) } } .slicePcieVectors 0x40A []) ∧
    (asks 0x501 [vmid + b2n f * 2 ^ 16 + b2n (f && fw) * 2 ^ 17] → 0 < vmid → vmid < 8192 → s.fe.tenants.get none vmid = none →
      done ({ u with fe := { u.fe with tenants := u.fe.tenants.set none vmid (some { persistent := f, resume := f && fw }) } }.domainOn 103)
        .tenantCreate 0x501 []) ∧
    (asks 0x502 [vmid] → vmid < 8192 → s.fe.tenants.get none vmid = some t → s.allSlicesOf vmid = [] → Completes .tenantRemove s fun z =>
      z.fe.tenants.get none vmid = none ∧ z.mem = s.mem ∧ z.cores = s.cores ∧ z.fe.slots = s.fe.slots.erase vmid ∧
      (∀ c ∈ s.cleatsOf vmid, c < 4096 → z.reg .CLEAT_STATE [c] = 0) ∧
      z.fsi.ready = s.fsi.ready ++ [(box, [0x502 + tag * 2 ^ 16, 0, (s.cleatsOf vmid).length, 0])]) ∧
    (asks 0x503 [l, r] → l < 64 → r < 64 → s.placeOf l = some p → (s.core (Fin.ofNat 64 p)).run ≠ .halted → r ∉ s.fe.quarantined → s.carried r = none →
      s.leadOf r = none → u.moveCore l p r = some (x, v) → done ((v.coreDown p).healthEval) .tenantMigrate 0x503 [r, x]) ∧
    (asks 0x504 [l] → l < 64 → s.placeOf l = some p → s.fe.partner.get none p = none → u.warmReset l p 3 = some v → done v .tenantCoreReset 0x504 []) ∧
    (asks 0x505 [l] → l < 64 → s.placeOf l = some p → (s.core (Fin.ofNat 64 p)).run = .stopped .doubleFault →
      done (u.updCore (Fin.ofNat 64 p) fun k => { k with run := .running }) .tenantCoreResume 0x505 []) ∧
    (box < 8 → s.asks u box tag id 0x506 [] (some (len, addr)) → s.descOk len addr → (∀ e ∈ s.fe.tenants, ∀ z, e.2 = some z → z.status = none) →
      u.ioWrite addr [] [] 18 = (some true, v) → done v .tenantResumedList 0x506 [0]) ∧
    (8 ≤ box → box < 8200 → s.asks u box tag id 0x507 [] none → s.fe.tenants.get none (s.fld .SLICE_BIND [box - 8] .SLICE_BIND_PID / 2 ^ 16) = some t →
      ∃ lo hi, done u .tenantSelf 0x507 [s.fld .SLICE_BIND [box - 8] .SLICE_BIND_PID / 2 ^ 16, b2n t.persistent + b2n t.resumed * 2, lo, hi])

/-- R360, R365 to R367, R372: the INFO, HEALTH, RECORD, TIME and MEMORY commands: what each reports, the records it writes and reads, the alarm it sets, and what it does to a
memory group.

The model's own choices that it rests on: log entries 45, 46, 52, 54.

Completion of INFO_PART, INFO_CORES, INFO_LIMITS, HEALTH_SUMMARY, HEALTH_LOG, HEALTH_SELF_TEST, HEALTH_RETURN,
RECORD_WRITE, RECORD_READ, RECORD_DOUSE, TIME_NOW, TIME_PTP, TIME_ALARM, TIME_PTP_CONFIG, MEMORY_STATUS,
MEMORY_MARK_FAILED, MEMORY_RETRAIN, MEMORY_POISON_LIST and MEMORY_MRAM. -/
def Obligations.FsiRecordsAndReports : Prop :=
  ∀ (s u v w : State) (box tag id len addr n x t g ch r seq : Nat) (b : Bytes) (pz : List Bool) (word : Word) (d : Douse) (inB : Bool)
      (l : List Nat) (good : Bool),
    s.fsi.ops = [] →
    let done (x : State) (i : Instr) (code : Nat) (res : List Nat) : Prop := s.answers x i box code tag { res := res }
    let asks (code : Nat) (args : List Nat) : Prop := box < 8 ∧ s.asks u box tag id code args none
    let asksAny (code : Nat) (args : List Nat) : Prop := box < 8200 ∧ s.asks u box tag id code args none
    let asksDesc (code : Nat) (args : List Nat) : Prop := box < 8 ∧ s.asks u box tag id code args (some (len, addr)) ∧ s.descOk len addr
    let puts (b : Bytes) (z y : State) : Prop := z.ioWrite addr b [] 18 = (some true, y)
    let lo (a : Nat) : Nat := a % 2 ^ 32
    let hi (a : Nat) : Nat := a / 2 ^ 32 % 2 ^ 32
    let object : Prop := x < 2 ^ 32 ∧ ((n = 1 ∧ x < 64) ∨ (n = 2 ∧ x % 2 ^ 26 < 2 ^ 16) ∨ (n = 3 ∧ x % 2 ^ 26 < 2 ^ 16 ∧ x < 2 ^ 30) ∨
      (n = 4 ∧ x % 2 ^ 26 < 2 ^ 16 ∧ x < 2 ^ 29) ∨ (n = 5 ∧ x < 32 ∧ x % 16 ≤ 8) ∨ (n = 6 ∧ x < 8))
    (asksAny 0x101 [] → done u .infoPart 0x101 [s.part.code + (if s.part = .s64 ∨ s.part = .s32 then 2 ^ 8 else 0), s.part.dramEnd / 2 ^ 30,
      Config.dieRev % 2 ^ 8, s.fe.fw.versionOf false s.fe.fw.useB, b2n s.fe.fw.useB, s.freeBackstays.length]) ∧
    (asksDesc 0x102 [] → len = 512 → puts ((List.range 64).flatMap fun p =>
        toLe (p + (s.coreState p).1 * 2 ^ 8 + (s.coreState p).2 * 2 ^ 16) 4 ++ toLe (s.level (p / 4)) 4) u v → done v .infoCores 0x102 [64]) ∧
    (asks 0x103 [] → ∃ k c, done u .infoLimits 0x103 [s.boundSlices, s.poolFree, k, c, 8 - s.deferredOf box] ∧ k ≤ 8191) ∧
    (asks 0x601 [] → ∃ deg l3 low, done u .healthSummary 0x601 [s.healthPin, s.freeBackstays.length, deg, s.fe.quarantined.length, l3, low,
        s.fe.doubleFaults, lo s.fsi.seq] ∧ (∀ g < 2, deg.testBit g = flag (s.reg .MG_STATUS [g]) .MG_STATUS_DEGRADED) ∧
        ∀ d < 4, low.testBit d = decide (s.fld .MR_DIE [d] .MR_DIE_SPARES_FREE < 256)) ∧
    (asksDesc 0x602 [lo n, hi n] → n < 2 ^ 64 → (s.fsi.log.map fun e => e.1).Pairwise (fun a b => a < b) →
      let out := (s.fsi.log.filter fun e => decide (n ≤ e.1)).take (len / 64)
      let next := (out.getLast?.map fun e => e.1 + 1).getD n
      puts (out.flatMap entryBytes) u v → done v .healthLog 0x602 [out.length, lo next, hi next]) ∧
    (asks 0x603 [n, x] → object → s.mode = .m7 → u.fresh = (word, v) →
      let tested := if word.getLsbD 0 then s.fe.tested.erase (n, x) ++ [(n, x)] else s.fe.tested.erase (n, x)
      done { v with fe := { v.fe with tested := tested } } .healthSelfTest 0x603 [b2n (word.getLsbD 0)]) ∧
    (asks 0x604 [n, x] → object → s.mode = .m7 → (n, x) ∈ s.fe.tested → Completes .healthReturn s fun t => t.fe.tested = s.fe.tested.erase (n, x) ∧
      t.mem = s.mem ∧ (n = 1 → x ∈ s.fe.quarantined → t.fe.quarantined = s.fe.quarantined.erase x ∧ x ∈ t.fe.returned) ∧
      t.fsi.ready = s.fsi.ready ++ [(box, [0x604 + tag * 2 ^ 16, 0])]) ∧
    (asksDesc 0x701 [r] → r < 64 → len ≤ 4064 → u.ioRead addr len 18 = (.ok b pz, v) → pz.any (fun x => x) = false →
      let old := s.fe.records.get ([], []) r
      v.fe = s.fe → recNext 0x10 old.1 old.2 = (inB, seq) →
      let new : Bytes × Bytes := if inB then (old.1, bankBytes 0x10 seq b) else (bankBytes 0x10 seq b, old.2)
      done { v with fe := { v.fe with records := v.fe.records.set ([], []) r new } } .recordWrite 0x701 [lo seq, hi seq]) ∧
    (asksDesc 0x702 [r] → r < 64 → recNewest 0x10 (s.fe.records.get ([], []) r).1 (s.fe.records.get ([], []) r).2 = some (inB, seq, b) →
      b.length ≤ len → puts b u v → done v .recordRead 0x702 [b.length, lo seq, hi seq]) ∧
    (asksDesc 0x703 [] → len = 256 → s.fe.douseCut = none → s.fe.douse = some d → puts d.summary u v →
      done v .recordDouse 0x703 [1, lo d.tick, hi d.tick]) ∧
    (asksAny 0x801 [] → done u .timeNow 0x801 [lo s.time, hi s.time, lo s.tick, hi s.tick]) ∧
    (asksAny 0x802 [n] → n < 4 → u.fresh = (word, v) → ∃ a b c, done v .timePtp 0x802 [lo (s.sw.ptp.get (0, 0) n).1.toNat, a, b, c,
      (s.reg .PTP_COMMIT_LO [n]).toNat, (s.reg .PTP_COMMIT_HI [n]).toNat, b2n (word.getLsbD 0) + s.fld .PTP_CTL [n] .PTP_CTL_DOMAIN * 2 ^ 8]) ∧
    (asks 0x803 [n, t % 2 ^ 32, t / 2 ^ 32, b2n good] → n < 4 → t < 2 ^ 48 →
      (t = 0 → done (u.setFld .ALARM_HI [n] .ALARM_HI_EN 0) .timeAlarm 0x803 []) ∧
      (s.tick < t → done ((u.setReg .ALARM_LO [n] (BitVec.ofNat 64 (t % 2 ^ 32))).setReg .ALARM_HI [n]
        (BitVec.ofNat 64 (t / 2 ^ 32 + b2n good * 2 ^ 30 + 2 ^ 31))) .timeAlarm 0x803 [])) ∧
    (asksDesc 0x804 [n] → n < 4 → u.ioRead addr len 18 = (.ok b pz, v) → pz.any (fun x => x) = false → v.regs = s.regs →
      ((Config.ptpProfile b).1 = true → ((List.range 4).filter fun i => i != n && flag (s.reg .PTP_CTL [i]) .PTP_CTL_GPTP).length < 2) →
      done (v.setReg .PTP_CTL [n] (putBits (putBits (s.reg .PTP_CTL [n]) .PTP_CTL_GPTP (b2n (Config.ptpProfile b).1)) .PTP_CTL_DOMAIN
        ((Config.ptpProfile b).2 % 2 ^ 8))) .timePtpConfig 0x804 []) ∧
    (asks 0xD01 [g] → g < 2 → (∀ q ∈ [Reg.MG_STATUS, .MG_SPARE, .MG_SCRUB], s.reaches .fetas q [g]) → Completes .memoryStatus s fun z =>
      z.fsi.ready = s.fsi.ready ++ [(box, [0xD01 + tag * 2 ^ 16, 0] ++ ([Reg.MG_STATUS, .MG_SPARE, .MG_SCRUB].map fun q =>
        (s.busValue q [g]).toNat % 2 ^ 32) ++ [lo (s.dram.windows.get 0 g)])] ∧ z.mem = s.mem ∧ z.cores = s.cores) ∧
    (asks 0xD02 [g, ch] → g < 2 → ch ≤ 8 → flag (s.reg .MG_STATUS [g]) .MG_STATUS_DEGRADED = false → Completes .memoryMarkFailed s fun z =>
      flag (z.reg .MG_STATUS [g]) .MG_STATUS_DEGRADED = true ∧ z.fld .MG_STATUS [g] .MG_STATUS_FAILED = ch ∧ z.mem = s.mem ∧
      z.cores = s.cores ∧ z.pulses = s.pulses ++ [322 + g] ∧ z.fsi.ready = s.fsi.ready ++ [(box, [0xD02 + tag * 2 ^ 16, 0])]) ∧
    (asks 0xD03 [g] → g < 2 → s.groupUp g = true → s.dram.retrain.get [] g = [] → Completes .memoryRetrain s fun z =>
      let o : FsiOp := { req := { id := id, box := box, words := reqWords 0xD03 tag [g] none }, deferred := false, objs := [.mem g] }
      z.dram.retrain.get [] g = List.range 9 ∧ z.fsi.ops = [o] ∧ z.mem = s.mem ∧ z.regs = s.regs ∧ z.cores = s.cores) ∧
    (asksDesc 0xD04 [g] → g < 2 → puts (((s.poisonListed g).take (len / 8)).flatMap fun k => toLe (k * 64) 8) u v →
      done v .memoryPoisonList 0xD04 [((s.poisonListed g).take (len / 8)).length]) ∧
    (asks 0xD05 [] → s.reaches .fetas .MR_STATUS [] → (∀ i < 4, s.reaches .fetas .MR_DIE [i]) → Completes .memoryMram s fun z =>
      z.fsi.ready = s.fsi.ready ++ [(box, [0xD05 + tag * 2 ^ 16, 0, (s.busValue .MR_STATUS []).toNat % 2 ^ 32] ++
        (List.range 4).map fun i => (s.busValue .MR_DIE [i]).toNat % 2 ^ 32)] ∧ z.mem = s.mem ∧ z.cores = s.cores)

/-- R340, R368, R370, R371, R486, R487, R504, R505, R507, R508: the FIRMWARE, TRACE and KEY commands: an image that verifies goes into the inactive bank and waits for its tick; the flash is erased
and programmed; a token is issued, ended and listed; memory and slice keys are loaded, mapped, generated, erased, and their public halves given.

The model's own choices that it rests on: log entries 23, 34, 42, 45, 46.

Completion of FIRMWARE_STAGE, FIRMWARE_ACTIVATE, FIRMWARE_STATUS, FIRMWARE_FLASH, FIRMWARE_ROLLBACK, TRACE_AUTHORISE,
TRACE_REVOKE, TRACE_LIST, KEY_MEM_KEY, KEY_MAP, KEY_SLICE_KEY, KEY_ERASE and KEY_PUBLIC. -/
def Obligations.FsiFirmwareTraceKeys : Prop :=
  ∀ (s u v : State) (box tag id len addr n k x t at' kind ms vmid pages slot : Nat) (b key : Bytes) (pz : List Bool) (host kk : Bool) (h : ImgHead) (pay : Bytes)
      (mask : BitVec 64),
    s.fsi.ops = [] →
    let done (x : State) (i : Instr) (code : Nat) (res : List Nat) : Prop := s.answers x i box code tag { res := res }
    let asks (code : Nat) (args : List Nat) : Prop := box < 8 ∧ s.asks u box tag id code args none
    let asksDesc (code : Nat) (args : List Nat) : Prop := box < 8 ∧ s.asks u box tag id code args (some (len, addr)) ∧ s.descOk len addr
    let gets : Prop := u.ioRead addr len 18 = (.ok b pz, v) ∧ pz.any (fun x => x) = false
    let puts (b : Bytes) (z y : State) : Prop := z.ioWrite addr b [] 18 = (some true, y)
    let req (code : Nat) (args : List Nat) : FsiReq := { id := id, box := box, words := reqWords code tag args none }
    let op (code : Nat) (args : List Nat) : FsiOp := { req := req code args, deferred := false, objs := [.firmware (b2n host)] }
    (asksDesc 0x901 [b2n host] → gets → v.fe = s.fe → v.verifyImage (if host then 2 else 1) (if host then s.cusKeyHash else fwKeyHash) b = some (h, pay) →
      (s.deployed = true → s.floor host ≤ h.floor) → ∃ z, done z .firmwareStage 0x901 [b2n (!(s.banks host).useB)] ∧
        let bank := (z.banks host).bank (!(s.banks host).useB)
        (z.banks host).staged = true ∧ (z.banks host).useB = (s.banks host).useB ∧ bank.valid = true ∧ bank.version = h.version ∧
        bank.floor = h.floor ∧ bank.hash = BitVec.ofNat 384 (beNat (sha384 (b.take (256 + h.length + sigLen)))) ∧
        (z.banks host).bank (s.banks host).useB = (s.banks host).bank (s.banks host).useB) ∧
    (asks 0x902 [b2n host, t % 2 ^ 32, t / 2 ^ 32] → t < 2 ^ 48 → (s.banks host).staged = true → Completes .firmwareActivate s fun z =>
      (if host then z.fe.hostAct else z.fe.fwAct) = some (t, id) ∧ z.fsi.ops = [op 0x902 [b2n host, t % 2 ^ 32, t / 2 ^ 32]] ∧
      z.banks host = s.banks host ∧ z.regs = s.regs ∧ z.mem = s.mem ∧ z.cores = s.cores) ∧
    (asks 0x903 [] → done u .firmwareStatus 0x903 ([s.fe.fw.versionOf false false, s.fe.fw.versionOf false true, s.fe.hostBanks.versionOf true false,
      s.fe.hostBanks.versionOf true true, b2n s.fe.fw.useB + b2n s.fe.hostBanks.useB * 2] ++ (List.range 8).map fun i =>
        leNat (piece (toBe (s.fe.fw.hashOf false s.fe.fw.useB).toNat 48) (4 * i) 4))) ∧
    (asks 0x904 [0, at', len] → at' % 4096 = 0 → 0 < len → len % 4096 = 0 → at' + len ≤ s.flashSize → s.flashSize ≤ 2 ^ 32 →
      Completes .firmwareFlash s fun z => (∀ a, at' ≤ a → a < at' + len → z.flashByte a = 0xFF) ∧
        (∀ a, (a < at' ∨ at' + len ≤ a) → z.flashByte a = s.flashByte a) ∧ z.mem = s.mem ∧ z.regs = s.regs ∧ z.cores = s.cores) ∧
    (asksDesc 0x904 [1, at'] → gets → v.low = s.low → v.regs = s.regs → at' % 4096 = 0 → 0 < b.length → at' + b.length ≤ s.flashSize → at' < 2 ^ 32 →
      Completes .firmwareFlash s fun z => (∀ i < b.length, z.flashByte (at' + i) = s.flashByte (at' + i) &&& b.getD i 0) ∧
        (∀ a, (a < at' ∨ at' + b.length ≤ a) → z.flashByte a = s.flashByte a)) ∧
    (asks 0x905 [b2n host] → (s.banks host).other.valid = true →
      (s.deployed = true → s.floor host ≤ (s.banks host).floorOf host (!(s.banks host).useB)) → Completes .firmwareRollback s fun z =>
        (if host then z.fe.hostAct else z.fe.fwAct) = some (0, id) ∧ z.fsi.ops = [op 0x905 [b2n host]] ∧ z.regs = s.regs ∧ z.mem = s.mem) ∧
    (asks 0xB01 [vmid + b2n kk * 2 ^ 16, mask.toNat % 2 ^ 32, mask.toNat / 2 ^ 32, ms] → vmid < 8192 → 0 < ms → ms ≤ 86400000 → s.fe.tokens.length < 16 →
      Completes .traceAuthorise s fun z =>
        let new : Token := { num := s.fe.tokenNext, vmid := vmid, k := kk, h := false, sealedOk := false, all := false, mask := mask, ends := s.time + ms * 1000000 }
        z.fe.tokens = s.fe.tokens ++ [new] ∧ z.mem = s.mem ∧ z.regs = s.regs ∧
        (∀ c : CoreId, (s.core c).run ≠ .off → (z.core c).reg .TRC_AUTH = z.tokenWord c) ∧
        z.fsi.ready = s.fsi.ready ++ [(box, [0xB01 + tag * 2 ^ 16, 0, s.fe.tokenNext])]) ∧
    (asks 0xB02 [n] → n < 2 ^ 32 → (∃ y ∈ s.fe.tokens, y.num = n) → Completes .traceRevoke s fun z => (∀ y ∈ z.fe.tokens, y.num ≠ n) ∧
      z.mem = s.mem ∧ z.regs = s.regs ∧ (s.jtag.token = some n → z.jtag.token = none) ∧
      ∀ c : CoreId, (s.core c).run ≠ .off → (z.core c).reg .TRC_AUTH = z.tokenWord c) ∧
    (asksDesc 0xB03 [] → u.freshBytes (32 * min s.fe.tokens.length (len / 32)) = (b, v) → ∀ z, puts b v z →
      done z .traceList 0xB03 [min s.fe.tokens.length (len / 32)]) ∧
    (asks 0xC01 [k, 0] → k < 8192 → Completes .keyMemKey s fun z => z.dram.slotKey.get none k = some s.dram.keyNext ∧ k ∈ z.fe.slots ∧
      z.dram.keyNext = s.dram.keyNext + 1 ∧ z.mem = s.mem ∧ z.regs = s.regs) ∧
    (asksDesc 0xC01 [k, 1] → k < 8192 → gets → v.fe.slots = s.fe.slots → v.unwrap 0 b = some key → Completes .keyMemKey s fun z =>
      z.dram.slotKey.get none k = some (2 ^ 600 + leNat key) ∧ k ∈ z.fe.slots ∧ z.mem = v.mem) ∧
    (asks 0xC02 [0, x * 2 ^ 21 % 2 ^ 32, x * 2 ^ 21 / 2 ^ 32, pages, slot + 2 ^ 31] → slot < 8192 → slot = 0 ∨ slot ∈ s.fe.slots →
      (x + pages) * 2 ^ 21 ≤ s.part.dramEnd → x * 2 ^ 21 < s.part.dramEnd → u.flushRange (x * 2 ^ 21) ((x + pages) * 2 ^ 21) = (n, v) →
      Completes .keyMap s fun z => (∀ i < pages, z.reg .DKEY_MAP [x + i] = BitVec.ofNat 64 (slot + 2 ^ 31)) ∧ z = { v with regs := z.regs, fsi := z.fsi } ∧
        z.fsi.ready = v.fsi.ready ++ [(box, [0xC02 + tag * 2 ^ 16, 0, n])]) ∧
    (asks 0xC03 [n, k + kind * 2 ^ 8 + 2 ^ 16] → n < 8192 → k < 16 → 0 < kind → kind ≤ 4 → Completes .keySliceKey s fun z =>
      (∃ y, z.slices.keys.get none (n * 16 + k) = some y ∧ match y with
        | .aes q => (kind = 1 ∧ q.length = 16) ∨ (kind = 2 ∧ q.length = 32)
        | .ecdsa q => kind = 3 ∧ 0 < q ∧ q < p384n
        | .mldsa _ => kind = 4) ∧ z.mem = s.mem ∧ z.regs = s.regs) ∧
    (asksDesc 0xC03 [n, k + kind * 2 ^ 8] → n < 8192 → k < 16 → 0 < kind → kind ≤ 4 → gets → v.unwrap kind b = some key → ∀ y, sliceKeyOf kind key = some y →
      done { v with slices := { v.slices with keys := v.slices.keys.set none (n * 16 + k) (some y) } } .keySliceKey 0xC03 []) ∧
    (asks 0xC04 [1, n + k * 2 ^ 16] → n < 8192 → k < 16 → done { u with slices := { u.slices with keys := u.slices.keys.set none (n * 16 + k) none } }
      .keyErase 0xC04 []) ∧
    (asks 0xC04 [0, k] → k < 8192 → Completes .keyErase s fun z => z.dram.slotKey.get none k = some s.dram.keyNext ∧
      z.dram.keyNext = s.dram.keyNext + 1 ∧ z.fe.slots = s.fe.slots.erase k ∧ z.mem = s.mem ∧ z.regs = s.regs) ∧
    (asksDesc 0xC05 [n, k] → n < 8192 → k < 16 →
      (∀ q, s.slices.keys.get none (n * 16 + k) = some (.ecdsa q) → len = (ecdsaPublic q).length → puts (ecdsaPublic q) u v →
        done v .keyPublic 0xC05 [(ecdsaPublic q).length]) ∧
      (∀ q, s.slices.keys.get none (n * 16 + k) = some (.mldsa q) → len = (mldsaPublic q).length → puts (mldsaPublic q) u v →
        done v .keyPublic 0xC05 [(mldsaPublic q).length]))

/-- R436 to R443, R449 to R456: the Shroud. SEAL_N changes make entries; a session opens only under the seal, and one that wrote anything closes as one
counted change; a reset ends the session, and the ROM counts one cut short and notes the causes; low supply is held; samples and pulse edges are
captured; and PROVISION, LOAD and ACTIVATE do what they say, each a counted change.

The model's own choices that it rests on: log entries 72 to 76.

Completion of SHROUD_RESET, SHROUD_SUPPLY_LOW, SHROUD_WATCHDOG_EXPIRY, SHR_XT32_FAIL, ADC_SAMPLE, ADC_DATA_READ,
PULSE_EDGE, PULSE_SNAP, PROVISION, LOAD, ACTIVATE, SEAL_CHANGE, SEAL_OPEN, SEAL_CLOSE, SHROUD_RESET_RELEASE and
SHROUD_SUPPLY_RECOVERY. -/
def Obligations.ShroudSealAndImages : Prop :=
  ∀ (s : State) (v : BitVec 192) (n : Fin 8) (rising : Bool) (ts : BitVec 64) (go : BitVec 8) (k : Nat) (pay : Bytes) (rom : List (Nat × Nat × Bytes)),
    let x := s.shr
    let session (t : State) : Bool := flag (t.reg .SEAL_STAT) .SEAL_STAT_SESSION
    let seal' (t : State) : Bool := flag (t.reg .SEAL_STAT) .SEAL_STAT_SEAL
    let gone (z : Shroud) : Shroud := { z with ident := none, waiting := [], rom := [] }
    s.part.shroud = true →
    (x.off = false → x.held = false → x.booting = false → x.low = false → 256 ≤ x.room → seal' s = false → Completes (.sealChange true) s fun t =>
      t.shr = { x with pin := true, trail := x.trail ++ [x.entry 1 0 0] } ∧ seal' t = true) ∧
    (x.off = false → x.held = false → x.booting = false → x.low = false → 256 ≤ x.room → seal' s = true → session s = false →
      Completes (.sealChange false) s fun t => t.shr = { x with pin := false, trail := x.trail ++ [x.entry 2 0 0] } ∧ seal' t = false) ∧
    (s.shrFw = true → session s = false →
      (s.mayOpen → Completes .sealOpen s fun t => session t = true ∧ t.shr = { x with marker := some (x.marker.getD 0) }) ∧
      (¬ s.mayOpen → exec .sealOpen s = .next s)) ∧
    (s.shrFw = true → session s = true → Completes .sealClose s fun t => session t = false ∧
      t.shr = { (if x.marker.getD 0 = 0 then x else x.counted 3 (x.marker.getD 0)) with marker := none }) ∧
    (x.off = false →
      (Completes (.shroudReset .pin) s fun t => session t = false ∧
        t.shr = { gone x with cause := x.cause ||| 1, held := true, booting := false }) ∧
      (Completes (.shroudReset .supply) s fun t => session t = false ∧ t.shr.off = true ∧ t.shr.low = true ∧ t.shr.held = true ∧
        t.shr.ident = none ∧ t.shr.cause = x.cause ||| 2 ∧ t.shr.trail = x.trail ∧ t.shr.marker = x.marker ∧ t.shr.useB = x.useB ∧
        t.shr.maker = x.maker ∧ t.shr.adc = [] ∧ t.shr.pulse = [] ∧ t.shr.mem = x.mem.filter fun c => decide (2 ^ 20 ≤ c.1)) ∧
      (∀ p ∈ [(Instr.shroudReset .mismatch, 8), (.shroudWatchdogExpiry, 4)], x.held = false →
        (x.low = true → Completes p.1 s fun t => session t = false ∧ t.shr = { gone x with cause := x.cause ||| p.2, booting := true }) ∧
        (x.low = false → x.maker = none → 257 ≤ x.room → x.pin = seal' s → Completes p.1 s fun t => session t = false ∧
          t.shr = (gone x).restarted (x.cause ||| p.2)))) ∧
    (x.held = true →
      (x.low = true → exec .shroudResetRelease s = .next { s with shr := { x with held := false, off := false, booting := true } }) ∧
      (x.low = false → x.maker = none → 257 ≤ x.room → x.pin = seal' s → Completes .shroudResetRelease s fun t =>
        t.shr = ({ x with held := false, off := false } : Shroud).restarted x.cause)) ∧
    exec .shroudSupplyLow s = .next { s with shr := { x with low := true } } ∧
    (x.off = false →
      (x.booting = false → exec .shroudSupplyRecovery s = .next { s with shr := { x with low := false } }) ∧
      (x.booting = true → x.maker = none → 257 ≤ x.room → x.pin = seal' s → Completes .shroudSupplyRecovery s fun t =>
        t.shr = ({ x with low := false } : Shroud).restarted x.cause) ∧
      (x.xtFail = false → x.low = false → 256 ≤ x.room → Completes .shrXt32Fail s fun t =>
        t.shr = { x with xtFail := true, trail := x.trail ++ [x.entry 5 0 0x10] }) ∧
      (Completes (.adcSample v) s fun t => t = { s with regs := t.regs, shr := { x with adc := t.shr.adc } } ∧ ∀ i < 8,
        let l := x.adc.get [] i
        let en := flag (s.reg .ADC_CFG [i]) .ADC_CFG_EN
        t.shr.adc.get [] i = (if en && decide (l.length < 2048) then l ++ [v.extractLsb' (24 * i) 24] else l) ∧
        (en = true → 2048 ≤ l.length → flag (t.reg .ADC_CFG [i]) .ADC_CFG_OVR = true) ∧
        (en = true → l.length < 2048 → t.fld .ADC_CFG [i] .ADC_CFG_LEVEL = l.length + 1)) ∧
      (flag (s.reg .PULSE_CFG [n.val]) .PULSE_CFG_EN = true → Completes (.pulseEdge n rising ts) s fun t =>
        let p := x.pulse.get {} n.val
        let q := t.shr.pulse.get {} n.val
        t = { s with shr := { x with pulse := t.shr.pulse } } ∧
        q.count = (if rising = flag (s.reg .PULSE_CFG [n.val]) .PULSE_CFG_POL then p.count else p.count + 1) ∧
        q.rise = (if rising then ts else p.rise) ∧ q.fall = (if rising then p.fall else ts) ∧
        q.pair = (if rising then false else p.pair || p.risen) ∧ q.risen = rising)) ∧
    (s.shrFw = true →
      (x.adc.get [] n.val = [] → exec (.adcDataRead n) s = .next { s with answer := 0x80000000 }) ∧
      (∀ y l, x.adc.get [] n.val = y :: l → Completes (.adcDataRead n) s fun t => t.answer = (y.signExtend 32).setWidth 64 ∧
        t.shr.adc.get [] n.val = l ∧ t = { s with answer := t.answer, regs := t.regs, shr := { x with adc := t.shr.adc } }) ∧
      (Completes (.pulseSnap go) s fun t => OnlyRegs s t ∧ ∀ i < 8, go.getLsbD i = true →
        t.reg .PULSE_SNAP_CNT [i] = (x.pulse.get {} i).count ∧ t.reg .PULSE_SNAP_RISE [i] = (x.pulse.get {} i).rise ∧
        t.reg .PULSE_SNAP_FALL [i] = (x.pulse.get {} i).fall ∧ t.fld .PULSE_CFG [i] .PULSE_CFG_PAIR = b2n (x.pulse.get {} i).pair)) ∧
    (s.shrOn = true →
      let y : Shroud := { x with rom := rom }
      let refuse (i : Instr) (r : Nat) : Prop := exec i s = .next { s with shr := y.sends 0 r k [] }
      (x.rom = (k, 0xF0, pay) :: rom → (seal' s = false → refuse .provision 1) ∧
        (seal' s = true → x.maker.isSome = true → refuse .provision 7) ∧
        (s.mayOpen → x.maker = none → pay.length = 48 → Completes .provision s fun t =>
          t.shr = (({ y with maker := some (BitVec.ofNat 384 (beNat pay)) } : Shroud).counted 3 16).sends 0 0 k [])) ∧
      (x.rom = (k, 0xF1, pay) :: rom → (seal' s = false → refuse .load 1) ∧
        (s.mayOpen → 8 ≤ pay.length → pay.length ≤ 4032 → le64 pay 0 + (pay.length - 8) ≤ shrBankLen → Completes .load s fun t =>
          let at' := shrBank (!x.useB) + le64 pay 0
          Memory.readN t.shr.mem at' (pay.length - 8) = leNat (pay.drop 8) ∧
          (∀ a, (a < at' ∨ at' + (pay.length - 8) ≤ a) → Memory.read t.shr.mem a = Memory.read x.mem a) ∧
          ((session s = false ∨ x.marker.isSome = true) → t.shr.marker = some (x.marker.getD 0 ||| 2 ^ (if x.useB then 1 else 2))) ∧
          t.shr.trail = x.trail ∧ t.shr.useB = x.useB ∧ t.shr.rom = rom ∧ t.shr.sm = (y.sends 0 0 k []).sm ∧ session t = true)) ∧
      (x.rom = (k, 0xF2, pay) :: rom → (seal' s = false → refuse .activate 1) ∧
        (s.mayOpen → s.shrImage (!x.useB) = none → Completes .activate s fun t => t.shr.useB = x.useB ∧ t.shr.ident = x.ident ∧ t.shr.mem = x.mem ∧
          session t = false ∧ t.shr.sm = (y.sends 0 4 k []).sm) ∧
        (∀ i, s.mayOpen → s.shrImage (!x.useB) = some i → Completes .activate s fun t => t.shr.useB = (!x.useB) ∧ t.shr.ident = some i ∧
          t.shr.mem = x.mem ∧ session t = false ∧ t.shr.waiting = [] ∧ t.shr.rom = [] ∧ t.shr.sm = (y.sends 0 0 k []).sm ∧
          ((session s = false ∨ x.marker.isSome = true) → t.shr.evcnt = min evMax (x.evcnt + 1)))))

/-- R369, R444 to R449: the Shroud's port. A window that passes its checks is accepted once, by its counter; one that fails is answered 8 and counted; the ROM's
services and firmware's messages wait for their answers, one each; AUDIT_READ returns entries of the trail; the main side takes windows while it is served; the link
state follows its beacons; and the SHROUD commands report, send, receive and read the trail.

The model's own choices that it rests on: log entries 47, 70, 71.

Completion of SHROUD_STATUS, SHROUD_SEND, SHROUD_RECEIVE, SHROUD_AUDIT, MS_MESSAGE, SHR_ACK, SHR_ACK_TIMEOUT,
SM_MESSAGE, LINK_BEACON, LINK_LOSS and AUDIT_READ. -/
def Obligations.ShroudPort : Prop :=
  ∀ (s u v : State) (w : Bytes) (l : List Bytes) (ns : List Nat) (n box tag id len addr k i : Nat) (reason : BitVec 16) (typ : BitVec 16) (pay b : Bytes)
      (rom : List (Nat × Nat × Bytes)) (held : List (Nat × Bytes)) (pz : List Bool),
    let x := s.shr
    let t' := msgType w
    let at' := msgCounter w
    let asksDesc (code : Nat) (args : List Nat) : Prop := box < 8 ∧ s.asks u box tag id code args (some (len, addr)) ∧ s.descOk len addr ∧
      ∀ r ∈ s.fsi.accepted, id ≤ r.id ∨ r.words.headD 0 % 2 ^ 16 ∉ [0xA02, 0xA03]
    let o (op tag : Nat) (args : List Nat) : FsiOp :=
      { req := { id := id, box := box, words := reqWords op tag args (some (len, addr)) }, deferred := false, objs := [.shroud] }
    let sent (t : State) (op typ : Nat) (args : List Nat) (pay : Bytes) : Prop :=
      t.fe.shrWait = some (id, s.fe.msCount + 1, typ) ∧ t.fe.msCount = s.fe.msCount + 1 ∧ t.fe.shrOut = [] ∧ t.shr = { x with rung := true } ∧
      (∀ j < 1024, t.reg .SHR_MS [j] = BitVec.ofNat 64 (le32 (portMsg (s.fe.msCount + 1) typ dirMs 0 0 pay) (4 * j))) ∧
      t.fsi.ops = s.fsi.ops ++ [o op tag args] ∧
      t.mem = s.mem ∧ t.cores = s.cores
    (s.shrOn = true →
      (x.rung = true → exec (.msMessage none) s = exec (.msMessage (some (s.portWindow .SHR_MS))) { s with shr := { x with rung := false } }) ∧
      (msgFault w dirMs x.msLast = 0 →
        let y : Shroud := { x with msLast := at' }
        (0xF0 ≤ t' → t' ≤ 0xF3 → exec (.msMessage (some w)) s = .next { s with shr := { y with rom := x.rom ++ [(at', t', msgPay w)] } }) ∧
        (t' < 0xF0 ∨ (0xF3 < t' ∧ t' < 0x100) → exec (.msMessage (some w)) s = .next { s with shr := y.sends 0 5 at' [] }) ∧
        (0x100 ≤ t' → x.ident = none → exec (.msMessage (some w)) s = .next { s with shr := y.sends 0 6 at' [] }) ∧
        (0x100 ≤ t' → x.ident ≠ none → exec (.msMessage (some w)) s = .next { s with shr := { y with waiting := x.waiting ++ [at'] } })) ∧
      (msgFault w dirMs x.msLast ≠ 0 → Completes (.msMessage (some w)) s fun t => t.shr.msLast = x.msLast ∧ t.shr.rom = x.rom ∧ t.shr.waiting = x.waiting ∧
        t.shr.sm = (x.sends 0 8 at' []).sm) ∧
      (x.waiting = n :: ns → exec .shrAckTimeout s = .next { s with shr := ({ x with waiting := ns } : Shroud).sends 0 0xFE n [] }) ∧
      (x.rom = (n, 0xF3, pay) :: rom → pay.length = 4 → exec .auditRead s =
        .next { s with shr := ({ x with rom := rom } : Shroud).sends 0xF3 0 0 (x.entries (leNat pay)) })) ∧
    (s.shrFw = true → x.waiting = n :: ns → exec (.shrAck reason) s = .next { s with shr := ({ x with waiting := ns } : Shroud).sends 0 reason.toNat n [] }) ∧
    (s.shrFw = true → 0x100 ≤ typ.toNat → pay.length ≤ 4032 → s.portServed = false →
      exec (.smMessage (.firmware typ pay)) s = .next { s with shr := x.sends typ.toNat 0 0 pay }) ∧
    (s.portServed = true → s.fe.shrHeld.length < 16 → ∀ p ∈ [(SmIn.next, l), (.raw w, x.sm)], (p.1 = .next → x.sm = w :: l) → s.part.shroud = true →
      (msgFault w dirSm s.fe.smLast = 0 → 0x100 ≤ t' → Completes (.smMessage p.1) s fun t => t.shr = { x with sm := p.2 } ∧
        t.fe.shrHeld = s.fe.shrHeld ++ [(at', msgPay w)] ∧ t.fe.smLast = at' ∧ t.mem = s.mem ∧ t.cores = s.cores ∧
        ∀ j < 1024, t.reg .SHR_SM [j] = BitVec.ofNat 64 (le32 w (4 * j))) ∧
      (msgFault w dirSm s.fe.smLast = 0 → t' = 0 → s.fe.shrWait = some (id, le64 w 0x10, k) → s.fe.shrOut = [] → Completes (.smMessage p.1) s fun t =>
        t.shr = { x with sm := p.2 } ∧ t.fe.shrWait = none ∧ t.fe.smLast = at' ∧ ∀ o ∈ t.fsi.ops, o ∈ s.fsi.ops) ∧
      (msgFault w dirSm s.fe.smLast ≠ 0 → Completes (.smMessage p.1) s fun t => t.shr = { x with sm := p.2 } ∧ t.fe = s.fe ∧
        t.fld .SHR_ERR_COUNT [] .SHR_ERR_COUNT_COUNT = min 0xFFFF (s.fld .SHR_ERR_COUNT [] .SHR_ERR_COUNT_COUNT + 1))) ∧
    (s.part.shroud = true → x.off = false → x.held = false → s.pdUp 2 = true → s.linked = false → x.evcnt < 2 ^ 32 → Completes .linkBeacon s fun t =>
      t.linked = true ∧ t.fld .SHR_PORT_STAT [] .SHR_PORT_STAT_SEAL = s.fld .SEAL_STAT [] .SEAL_STAT_SEAL ∧
      t.fld .SHR_EVCNT [] .SHR_EVCNT_COUNT = x.evcnt ∧ t.fld .SHR_PORT_STAT [] .SHR_PORT_STAT_FW = b2n x.ident.isSome ∧
      t.fe.shroudId = x.ident.getD 0 ∧ t.shr = x) ∧
    (s.linked = true → Completes .linkLoss s fun t => t.linked = false ∧ t.fe.shrOut = [] ∧ t.fe.shrWait = none ∧ t.shr = { x with rung := false }) ∧
    (box < 8 → s.asks u box tag id 0xA01 [] none →
      (s.linked = true → s.answers u .shroudStatus box 0xA01 tag { res := [s.fld .SHR_PORT_STAT [] .SHR_PORT_STAT_SEAL, s.fld .SHR_EVCNT [] .SHR_EVCNT_COUNT] ++
        ((List.range 8).map fun j => s.fe.shroudId.toNat / 2 ^ (32 * j) % 2 ^ 32) }) ∧
      (s.linked = false → s.answers u .shroudStatus box 0xA01 tag { status := stNoResource })) ∧
    (asksDesc 0xA02 [] → len ≤ 4032 → s.fsi.ops = [] →
      (s.portServed = false → s.answers u .shroudSend box 0xA02 tag { status := stDenied, detail := 9 }) ∧
      (s.portServed = true → u.ioRead addr len 18 = (.ok b pz, v) → pz.any (fun z => z) = false → v.fe = s.fe → v.shr = s.shr → v.mem = s.mem →
        v.cores = s.cores → v.fsi = u.fsi → s.fe.shrWait = none → s.fe.shrOut = [] →
        Completes .shroudSend s fun t => sent t 0xA02 (Config.sendType b % 2 ^ 16) [] b)) ∧
    (asksDesc 0xA03 [] → 4032 ≤ len → s.fsi.ops = [] →
      (s.fe.shrHeld = [] → s.answers u .shroudReceive box 0xA03 tag { res := [0, 0, 0] }) ∧
      (s.fe.shrHeld = (n, pay) :: held → pay ≠ [] → u.ioWrite addr pay [] 18 = (some true, v) →
        s.answers (({ v with fe := { v.fe with shrHeld := held } } : State).setFld .SHR_PORT_STAT [] .SHR_PORT_STAT_RX_HELD 0) .shroudReceive box 0xA03 tag
          { res := [pay.length, n % 2 ^ 32, n / 2 ^ 32 % 2 ^ 32] })) ∧
    (asksDesc 0xA04 [i] → i < 2 ^ 32 → s.fsi.ops = [] →
      (s.portServed = false → s.answers u .shroudAudit box 0xA04 tag { status := stDenied, detail := 9 }) ∧
      (s.portServed = true → s.fe.shrWait = none → s.fe.shrOut = [] → Completes .shroudAudit s fun t => sent t 0xA04 0xF3 [i] (toLe i 4)))

/-- R490, R491: the Ratline. Each instruction is selected, and IDCODE answers; SAMPLE/PRELOAD and EXTEST scan the boundary chain; CHALLENGE gives a fresh
nonce, and on a Blank part a session of every scope; a RESPONSE that passes opens a session with the scope it signs, and one that fails opens none; TRST_N ends the
session; and DAP reaches, in a session, what its token covers, and returns zero and writes nothing elsewhere.

The model's own choices that it rests on: log entries 42, 50, 83.

Completion of IDCODE, SAMPLE_PRELOAD, EXTEST, CLAMP, HIGHZ, DAP, CHALLENGE, RESPONSE, BYPASS and TRST_N. -/
def Obligations.RatlineCommands : Prop :=
  ∀ (s u : State) (pins v : BitVec 169) (b nonce : Bytes) (w : List Nat) (x : BitVec 80) (t : Token) (d n : Nat),
    let j := s.jtag
    let ir (m : Nat) : State := { s with jtag := { j with ir := m } }
    let opened (z : State) (w : List Nat) : Prop := ∃ y, z.fe.tokens = s.fe.tokens ++ [y] ∧ y.num = s.fe.tokenNext ∧ z.fe.tokenNext = s.fe.tokenNext + 1 ∧
      y.mask = BitVec.ofNat 64 (w.getD 1 0 + w.getD 2 0 * 2 ^ 32) ∧ y.vmid = w.getD 0 0 % 8192 ∧ y.k = (w.getD 0 0).testBit 16 ∧
      y.h = (w.getD 0 0).testBit 17 ∧ y.ends = s.time + w.getD 3 0 * 1000000 ∧ z.jtag.token = some s.fe.tokenNext ∧ z.jtag.nonce = none ∧ z.mem = s.mem
    exec .idcode s = .next { ir 1 with answer := 0x19640E5B } ∧
    exec (.samplePreload pins v) s = .next { s with jtag := { j with ir := 2, captured := pins, chain := v } } ∧
    exec (.extest pins v) s = .next { s with jtag := { j with ir := 3, captured := pins, chain := v } } ∧
    exec .clamp s = .next (ir 4) ∧ exec .highz s = .next (ir 5) ∧ exec .bypass s = .next (ir 0xFF) ∧
    (j.token = none → exec .trstN s = .next { s with jtag := { j with ir := 1, nonce := none } }) ∧
    (j.token = some n → Completes .trstN s fun z => (∀ y ∈ z.fe.tokens, y.num ≠ n) ∧ z.jtag.ir = 1 ∧ z.jtag.nonce = none ∧ z.jtag.token = none ∧
      z.mem = s.mem ∧ z.regs = s.regs) ∧
    (j.token = none → s.fetasUp = true → (ir 0x11).freshBytes 32 = (nonce, u) →
      (s.lifecycle ≠ 0 → exec .challenge s = .next { u with jtag := { j with ir := 0x11, nonce := some nonce } }) ∧
      (s.lifecycle = 0 → s.fe.tokens.length < 16 → Completes .challenge s fun z => opened z [0xF0000, 2 ^ 32 - 1, 2 ^ 32 - 1, 86400000])) ∧
    (j.token = none → s.fetasUp = true →
      (s.responseScope b = none → exec (.response b) s = .next (ir 0x12)) ∧
      (s.responseScope b = some w → s.fe.tokens.length < 16 → 0 < w.getD 3 0 → w.getD 3 0 ≤ 86400000 →
        Completes (.response b) s fun z => opened z w ∧ z.jtag.ir = 0x12)) ∧
    (let pa := x.toNat / 2 ^ 34
     let rw := x.toNat / 2 ^ 32 % 4
     (j.token = none → exec (.dap x) s = .next { ir 0x10 with answer := 0 }) ∧
     (j.token = some n → (s.fe.tokens.find? fun y => y.num == n) = some t →
       (dapReach t pa = false → exec (.dap x) s = .next { ir 0x10 with answer := 0 }) ∧
       (dapReach t pa = true → pa % 4 = 0 →
         (rw = 1 → ({ ir 0x10 with answer := 0 } : State).busRead .dap pa 4 = (d, u) → exec (.dap x) s = .next { u with answer := BitVec.ofNat 64 d }) ∧
         (rw = 2 → exec (.dap x) s = .next (({ ir 0x10 with answer := 0 } : State).busWrite .dap pa 4 (x.toNat % 2 ^ 32))))))

/-- R383, R389 to R395, R404, R406, R519 to R523: the Crow's nest. A warning, once its input has been low for its time, starts a douse, which the seal ends; the recovery condition, 40 mV above through 64 edges, starts Fetas; the early
warning comes and goes; the supply
outputs change one by one; a comparator whose pin passes its threshold through its debounce sets its bit, and one beyond its release point is released; comparators, alarms and UART activity wake; RESET_N, a loss of power and the return of the Mast reset what they reset; and held pads are
released with their supply.

The model's own choices that it rests on: log entries 80, 81, 104.

Completion of THERMAL_WAKE, XT32_FAIL, WAKE_COMPARATOR, ALARM_FIRE, UART_ACTIVITY_DETECT, POWER_FAIL_WARNING,
EARLY_POWER_WARNING, POWER_FAIL_RECOVERY, PWR_EN_DELAY, DOUSE_SEAL, RESET_N, PAD_HOLD_SUPPLY_LOSS, COMPARATOR_RELEASE,
RESET_N_RELEASE, POWER_LOSS and MAST_POWER_UP. -/
def Obligations.CrowsNest : Prop :=
  ∀ (s u : State) (what : PowerFail) (mast io33 : Bool) (n : Nat) (b : Bool) (rest : List (Nat × Bool)) (w : Fin 8) (a : Fin 4) (p : Fin 6)
      (ns mv us edges : Nat) (sel : Fin 8) (took : Nat),
    let c := s.crow
    let douseTh : Nat := 2 * s.fld .PF_CFG [] .PF_CFG_DOUSE_TH
    let earlyTh : Nat := 2 * s.fld .PF_CFG [] .PF_CFG_EARLY_TH
    let filt : Nat := s.fld .PF_CFG [] .PF_CFG_FILT + 1
    let low : Prop := match what with
      | .vin v t => v < douseTh ∧ filt ≤ t
      | .pfw t => flag (s.reg .PF_CFG) .PF_CFG_PFW_EN = true ∧ 1 ≤ t
    let source : Nat := match what with
      | .vin _ _ => 1
      | .pfw _ => 2
    let warned (t : State) : Prop := flag (t.reg .PF_CFG) .PF_CFG_PF = true ∧ flag (t.reg .WAKE_STAT) .WAKE_STAT_PF = true ∧
      t = { s with regs := t.regs, crow := { c with good := false } }
    let up : State := { s with crow := { sel := sel.val, mastLost := true }, fe := { s.fe with healthKnown := false, healthClear := none } }
    let mayStart : Prop := c.resetLow = false ∧ c.cut = false ∧ c.dousing = false
    c.mastOff = false →
    (¬ low → exec (.powerFailWarning what) s = .next s) ∧
    (low →
      ((flag (s.reg .PF_CFG) .PF_CFG_PF = true ∨ c.dousing = true ∨ c.waitGood = true ∧ s.mode ≠ .m0 ∨ s.mode = .m0 ∧ c.after = .nothing) →
        Completes (.powerFailWarning what) s warned) ∧
      (flag (s.reg .PF_CFG) .PF_CFG_PF = false → c.dousing = false → c.waitGood = false → s.mode ≠ .m0 →
        s.fe.boot = .done ∨ (s.fe.boot = .pcie ∨ s.fe.boot = .noHost) ∧ s.fe.bootWhy ≠ 0 →
        Completes (.powerFailWarning what) s fun t => t.crow.dousing = true ∧ t.crow.source = source ∧
          ∃ d, t.fe.sealing = some d ∧ d.tick = s.tick ∧ d.source = source ∧ d.mode = s.fld .MAST_MODE [] .MAST_MODE_MODE)) ∧
    (c.dousing = true → c.good = false → s.freshUpTo 1000000 = (took, u) → took ≤ 1000000 ∧ Completes .douseSeal s fun t =>
      t.mode = .m0 ∧ t.crow.dousing = false ∧ t.crow.waitGood = true ∧ t.fe.sealing = none ∧ t.fe.douseCut = none ∧
      t.fe.douse = s.fe.sealing.map (fun d => { d with took := took }) ∧ t.mem = s.mem) ∧
    (¬ (douseTh + 40 ≤ mv ∧ b = true ∧ 64 ≤ edges) → exec (.powerFailRecovery mv b edges) s = .next s) ∧
    (c.good = false → douseTh + 40 ≤ mv → 64 ≤ edges →
      (c.waitGood = false → c.heldWake = false → Completes (.powerFailRecovery mv true edges) s fun t => flag (t.reg .PF_CFG) .PF_CFG_PF = false ∧
        t = { s with regs := t.regs, crow := { c with good := true, goodTick := s.tick } }) ∧
      (c.waitGood = true → mayStart → s.mode = .m0 → s.pwrTodo s.bootMode ≠ [] → Completes (.powerFailRecovery mv true edges) s fun t =>
        t = { s with regs := t.regs, crow := { c with good := true, goodTick := s.tick, waitGood := false, todo := t.crow.todo, after := .boot } } ∧
        flag (t.reg .PF_CFG) .PF_CFG_PF = false)) ∧
    (mv < earlyTh → filt ≤ us → Completes (.earlyPowerWarning mv us) s fun t => flag (t.reg .PF_CFG) .PF_CFG_EARLY = true ∧
      flag (t.reg .WAKE_STAT) .WAKE_STAT_EARLY = true ∧
      t = if s.mode = .m0 then { s with regs := t.regs, crow := { c with wakes := c.wakes ++ [306] } }
        else { s with regs := t.regs, pulses := s.pulses ++ [306] }) ∧
    (earlyTh + 40 ≤ mv → Completes (.earlyPowerWarning mv us) s fun t =>
      OnReg s t .PF_CFG [] (putBits (s.reg .PF_CFG) .PF_CFG_EARLY 0)) ∧
    (mv < earlyTh + 40 → earlyTh ≤ mv ∨ us < filt → exec (.earlyPowerWarning mv us) s = .next s) ∧
    (c.todo = (n, b) :: rest → n < 6 →
      let v : State := { s with crow := { c with out := if b then c.out ||| BitVec.ofNat 6 (2 ^ n) else c.out &&& ~~~(BitVec.ofNat 6 (2 ^ n)), todo := rest } }
      let e : State := { v with crow := { v.crow with after := .nothing } }
      (∀ i < 6, v.crow.out.getLsbD i = if i = n then b else c.out.getLsbD i) ∧
      (rest ≠ [] → exec .pwrEnDelay s = .next v) ∧ (rest = [] → c.after = .nothing → exec .pwrEnDelay s = .next e) ∧
      (rest = [] → c.after = .wake → exec .pwrEnDelay s = .next e.wakeUp ∧ e.wakeUp.mode = .m1) ∧
      (rest = [] → c.after = .boot → exec .pwrEnDelay s = .next e.coldBoot)) ∧
    (let r := s.reg .WAKE_CMP [w.val]
     let th := 5 * bits r .WAKE_CMP_THRESH
     let back := [0, 10, 20, 40].getD (bits r .WAKE_CMP_HYST) 0
     let met : Prop := if flag r .WAKE_CMP_POL then mv < th else th < mv
     (flag r .WAKE_CMP_EN = true → flag r .WAKE_CMP_OUT = false → met → bits r .WAKE_CMP_DEB ≤ edges → Completes (.wakeComparator w mv edges) s fun t =>
       s.Woken t w.val (s.wakeEn w.val) (if flag r .WAKE_CMP_IRQ then [288 + w.val] else []) ∧
       (s.mode ≠ .m0 → flag (t.reg .WAKE_CMP [w.val]) .WAKE_CMP_OUT = true)) ∧
     (¬ met ∨ edges < bits r .WAKE_CMP_DEB → exec (.wakeComparator w mv edges) s = .next s) ∧
     let free : Prop := if flag r .WAKE_CMP_POL then th + back < mv else mv + back < th
     (free → Completes (.comparatorRelease w mv) s fun t =>
       OnReg s t .WAKE_CMP [w.val] (putBits (s.reg .WAKE_CMP [w.val]) .WAKE_CMP_OUT 0)) ∧
     (¬ free → exec (.comparatorRelease w mv) s = .next s)) ∧
    (let hi := s.reg .ALARM_HI [a.val]
     flag hi .ALARM_HI_EN = true → bits hi .ALARM_HI_TICK * 2 ^ 32 + s.fld .ALARM_LO [a.val] .ALARM_LO_TICK ≤ s.tick →
      (s.fetasUp = false → Completes (.alarmFire a) s fun t =>
        { s with crow := { c with alarms := c.alarms ++ [a.val] } }.Woken t (8 + a.val) (flag hi .ALARM_HI_WAKE) [296 + a.val]) ∧
      (s.fetasUp = true → s.mode ≠ .m0 → Completes (.alarmFire a) s fun t => t.fsi.seq = s.fsi.seq + 1 ∧ t.pulses = s.pulses ++ [296 + a.val] ∧
        flag (t.reg .ALARM_HI [a.val]) .ALARM_HI_EN = false ∧ (t.reg .WAKE_STAT).getLsbD (8 + a.val) = true ∧
        t = { s with regs := t.regs, pulses := t.pulses, fsi := t.fsi })) ∧
    ((s.reg .UART_ACT).getLsbD p.val = true → Completes (.uartActivityDetect p) s fun t => s.Woken t (12 + p.val) (s.wakeEn (12 + p.val)) [300 + p.val]) ∧
    (Completes .xt32Fail s fun t => flag (t.reg .MAST_MODE) .MAST_MODE_XT_FAIL = true ∧ t.tick = s.tick ∧ t.mode = s.mode ∧
      (s.fe.healthKnown = true → flag (t.reg .HEALTH_STAT) .HEALTH_STAT_CLOCK = true ∧ t.healthPin = 0)) ∧
    (Completes (.padHoldSupplyLoss io33) s fun t => t = { s with regs := t.regs, crow := { c with pads := if io33 then [] else c.pads } } ∧
      t.reg .PAD_HOLD = putBits (s.reg .PAD_HOLD) (if io33 then .PAD_HOLD_IO33 else .PAD_HOLD_IO18) 0) ∧
    (c.resetLow = false → (ns < 100 → exec (.resetN ns) s = .next s) ∧
      (1000 ≤ ns → Completes (.resetN ns) s fun t => t.crow.resetLow = true ∧ t.crow.cold = true ∧ t.crow.waitGood = true ∧ t.fetasUp = false ∧
        t.fe.place = [] ∧ t.fsi.accepted = [])) ∧
    (c.resetLow = true → c.waitGood = false ∨ c.good = false → exec .resetNRelease s = .next { s with crow := { c with resetLow := false } }) ∧
    (Completes (.powerLoss mast) s fun t => t.fe.place = [] ∧ t.fsi.accepted = [] ∧
      if mast then t.mode = .m0 ∧ t.tick = 0 ∧ t.crow = { mastOff := true } else t.crow.good = false ∧ t.crow.waitGood = true ∧ t.fetasUp = false) ∧
    (exec (.mastPowerUp sel) { s with crow := { c with mastOff := true } } = .next up) ∧
    (c.cut = true → s.fe.junction < 1250 → c.good = false → exec .thermalWake s = .next { s with crow := { c with cut := false, waitGood := true } })

/-- R357, R358, R376, R396, R400, R403, R413 to R416, R431, R493 to R496, R508, R509: restarts and boots. The watchdog, a lockstep mismatch and an activation restart Fetas; a bank
on trial that fails three starts falls back, and one that stays up is kept; a floor rises after 24 h; a commit and a mode take force at their tick, and the transition begins, BUSY and TARGET set;
a transition waits for a core that must be waited for and while Fetas is down, and ends in its mode; a scan runs when it is due; and
a boot resumes, waits for PCI Express for 60 s, or starts the first valid host image, and is tried again 10 s after it found none.

The model's own choices that it rests on: log entries 42, 43, 55, 81, 84.

Completion of FETAS_RESTART, WATCHDOG_EXPIRY, FETAS_LOCKSTEP_MISMATCH, COMMIT_TICK, PLAN_SCAN_PERIODIC,
RESUME_START, BOOT_PCIE_STAGED, BOOT_PCIE_TIMEOUT, BOOT_RETRY, FW_TRIAL_SUCCESS, FIRMWARE_ACTIVATE_TICK and
FLOOR_RAISE. -/
def Obligations.BootAndRestart : Prop :=
  ∀ (s : State) (img man : List Byte) (isMode : Bool) (cm : Commit) (d : Douse) (bad : BitVec 64),
    let fe := s.fe
    let fw := fe.fw
    let down (t : State) : Prop := t.fetasUp = false ∧ t.fe.down = true
    let since (k : Nat) : Nat := (s.tick + 2 ^ 48 - k % 2 ^ 48) % 2 ^ 48
    let searched (z : State) (i : Instr) (src : Nat) (staged : Bytes) : Prop :=
      (z.firstHost (z.hostCandidates src staged) false = none → exec i s = .next { z with fe := { z.fe with boot := .noHost, searchAt := z.tick } }) ∧
      (∀ x, z.firstHost (z.hostCandidates src staged) false = some x → exec i s = .next (z.hostSearch src staged) ∧
        (z.hostSearch src staged).fe.boot = .done)
    (s.fetasUp = true →
      (s.fld .WDOG_CFG [] .WDOG_CFG_TIMEOUT ≤ since s.crow.kicked → Completes .watchdogExpiry s fun t => down t ∧
        flag (t.reg .WAKE_STAT) .WAKE_STAT_WDOG = true ∧ t = { s with regs := t.regs, pulses := s.pulses ++ [401], fe := { fe with down := true } }) ∧
      (Completes .fetasLockstepMismatch s fun t => down t ∧ t.fe.lockstep = fe.lockstep ++ [s.tick] ∧ t.mem = s.mem ∧ t.cores = s.cores) ∧
      (fw.trial = true → 1966080 ≤ since fe.upSince → Completes .fwTrialSuccess s fun t => t.fe = { fe with fw := { fw with trial := false, failed := 0 } } ∧
        t = { s with regs := t.regs, fe := t.fe } ∧ flag (t.reg .BOOT_STAT) .BOOT_STAT_TRIAL = false) ∧
      (s.actDue true = false → s.actDue false = true → Completes .firmwareActivateTick s fun t => down t ∧ t.fe.fwAct = none ∧
        t.fe.fw = { fw with useB := !fw.useB, staged := false, trial := true, failed := 0, since := s.tick } ∧
        flag (t.reg .BOOT_STAT) .BOOT_STAT_TRIAL = true ∧ t.mem = s.mem ∧ t.cores = s.cores) ∧
      (s.actDue true = true → (∀ t, s.activateHost = some t → exec .firmwareActivateTick s = .next t) ∧
        (s.activateHost = none → exec .firmwareActivateTick s = .next s)) ∧
      (s.deployed = true → Completes .floorRaise s fun t => t = { s with fe := { fe with otp := t.fe.otp } } ∧
        t.fe.otp.fwFloor = (if fw.trial = false ∧ 2831155200 ≤ since fw.since then max fe.otp.fwFloor (min (fw.floorOf false fw.useB) 128) else fe.otp.fwFloor) ∧
        t.fe.otp.hostFloor = (if fe.hostBanks.trial = false ∧ 2831155200 ≤ since fe.hostBanks.since then
          max fe.otp.hostFloor (min (fe.hostBanks.floorOf true fe.hostBanks.useB) 256) else fe.otp.hostFloor)) ∧
      (s.scanWaits = false → 327680 ≤ since fe.digestTick → exec .planScanPeriodic s = .next s.scan.2) ∧
      (since fe.digestTick < 327680 → exec .planScanPeriodic s = .next s)) ∧
    (fe.down = true → s.fetasUp = false →
      (fw.trial = true → fw.failed < 2 → exec (.fetasRestart false) s = .next { s with fe := { fe with fw := { fw with failed := fw.failed + 1 } } }) ∧
      (fw.trial = true → 2 ≤ fw.failed → Completes (.fetasRestart false) s fun t => t.fe.fw.useB = (!fw.useB) ∧ t.fe.fw.trial = false ∧
        (t.fe.fw.bank fw.useB).valid = false ∧ t.fe.fw.bank (!fw.useB) = fw.bank (!fw.useB) ∧ flag (t.reg .BOOT_STAT) .BOOT_STAT_FALLBACK_FW = true ∧
        t = { s with regs := t.regs, fe := { fe with fw := t.fe.fw } }) ∧
      (Completes (.fetasRestart true) s fun t => t.fetasUp = true ∧ t.fe.down = false ∧ t.fe.fw = { fw with failed := 0 } ∧ t.fsi.accepted = [] ∧
        t.crow.kicked = s.tick ∧ t.mem = s.mem ∧ t.cores = s.cores ∧
        (s.waitingBoxes = [] → t.fld .FSI_STATUS [] .FSI_STATUS_RESTARTS = min 0xFFFF (s.fld .FSI_STATUS [] .FSI_STATUS_RESTARTS + 1)))) ∧
    (s.mode ≠ .m0 → s.pdUp 2 = true →
      (s.dueCommit = some (isMode, cm) → 2 ^ 47 ≤ since cm.tick → fe.passage = none → exec .commitTick s = .next s) ∧
      (let r := if isMode then some cm.req else none
       let y := s.commitSwitch isMode cm
       s.dueCommit = some (isMode, cm) → since cm.tick < 2 ^ 47 → y.fe.passage = none →
        let z := y.startPassage cm.trim r
        exec .commitTick s = .next z.passGo ∧ z = { y with regs := z.regs, fe := z.fe } ∧
          z.fe = { y.fe with passage := some { trim := cm.trim, req := r, step := 2 } } ∧
          flag (z.reg .MAST_MODE) .MAST_MODE_BUSY = true ∧ z.fld .MAST_MODE [] .MAST_MODE_TARGET = cm.trim % 2 ^ 3) ∧
      (s.dueCommit = some (isMode, cm) → since cm.tick < 2 ^ 47 → ∀ x, (s.commitSwitch isMode cm).fe.passage = some x → exec .commitTick s = .next
        { s.commitSwitch isMode cm with fe := { (s.commitSwitch isMode cm).fe with
          passage := some { x with next := some (cm.trim, if isMode then some cm.req else none) } } }.passGo) ∧
      (s.dueCommit = none → ∀ x, fe.passage = some x →
        (s.fetasUp = false → exec .commitTick s = .next s) ∧
        (s.fetasUp = true → x.step = 2 →
          let left (z : State) : List Nat := z.unplaced (s.trimDef x.trim)
          left (s.furlEach (left s)) = left s → left s ≠ [] → exec .commitTick s = .next s) ∧
        (s.fetasUp = true → x.step = 5 → x.trim = 0 → exec .commitTick s = .next (s.enterM0 x.req) ∧ (s.enterM0 x.req).mode = .m0 ∧
          (s.enterM0 x.req).fe.trim = 0 ∧ (s.enterM0 x.req).fe.passage = none) ∧
        (s.fetasUp = true → x.step = 9 → x.next = none → Completes .commitTick s fun t => t.mode = modeOf x.trim ∧ t.fe.passage = none ∧
          t.fld .MAST_MODE [] .MAST_MODE_MODE = x.trim % 2 ^ 3 ∧ flag (t.reg .MAST_MODE) .MAST_MODE_BUSY = false ∧ t.mem = s.mem ∧ t.cores = s.cores))) ∧
    (fe.boot = .resuming → fe.douse = some d → Completes (.resumeStart bad) s fun t => t.fe.boot ≠ .resuming) ∧
    (fe.boot = .pcie →
      (let z := (((s.fetasWrite 0 (img.take 0x1000000)).fetasWrite 0x1800000 (man.take 0x7FFFFC)).fetasWrite 0x1FFFFFC (toLe 0x5944474F 4)).bootManifest man
       searched z.endStaging (.bootPcieStaged img man) 2 (img.take 0x1000000)) ∧
      (since fe.searchAt < 1966080 → exec .bootPcieTimeout s = .next s) ∧
      (1966080 ≤ since fe.searchAt → searched s.endStaging .bootPcieTimeout 0 [])) ∧
    (fe.boot = .noHost → (since fe.searchAt < 327680 → exec .bootRetry s = .next s) ∧
      (327680 ≤ since fe.searchAt →
        (s.bootSource = 2 → let z := (s.domainOn 102).setFld .PCIE_CTL [] .PCIE_CTL_ROLE 1
          exec .bootRetry s = .next { z with fe := { z.fe with boot := .pcie, searchAt := z.tick } }) ∧
        (s.bootSource ≠ 2 → searched s .bootRetry s.bootSource [])))

/-- R40, R321, R379, R380, R382, R383, R424 to R427, R429, R431, R433, R534: reef levels, temperature and health. The load-line guard raises a quad's voltage and its release lowers
it; a stretch is counted; the data rate of the DRAM follows the case estimate; the throttle lowers and raises levels when it is due and the Crow's
nest shuts down at 160 °C; the health pin returns after 10 s; a lost path counts after 10 s; Fetas acts
on failed checks, an uncorrected register error and a pair's second mismatch among them; and the east half is tested with nothing on it.

The model's own choices that it rests on: log entries 53, 84.

Completion of LOAD_LINE_GUARD, GUARD_RELEASE, DROOP_STRETCH, JUNCTION_SENSOR_READ, THROTTLE_STEP,
THROTTLE_RELEASE_STEP, PLL_REFERENCE_SWITCH, HEALTH_PIN_RETURN, HSR_PATH_RESERVE_EXPIRY, MIGRATION, SELF_TEST_COMPLETE
and MESH_SELF_TEST. -/
def Obligations.ReefAndHealth : Prop :=
  ∀ (s u : State) (q : Fin 16) (ma mw k t0 p l : Nat) (tj : Int) (i : Fin 2) (e dn : Bool) (f : Nat),
    let r := s.reg .QUAD_REEF [q.val]
    let volt (t : State) : Nat := t.fld .QUAD_REEF [q.val] .QUAD_REEF_VOLT
    let guard (t : State) : Bool := flag (t.reg .QUAD_REEF [q.val]) .QUAD_REEF_GUARD
    (s.pdUp (67 + q.val) = true →
      (5 ≤ s.level q.val → s.level q.val ≤ 7 → guard s = false → (s.trimDef s.fe.trim).guardMa < ma → volt s + 45 < 1024 →
        Completes (.loadLineGuard q ma) s fun t => guard t = true ∧ volt t = volt s + (s.level q.val - 4) * 15 ∧ OnlyRegs s t) ∧
      (guard s = true → 5 ≤ s.level q.val → s.level q.val ≤ 7 → 45 ≤ volt s → Completes (.guardRelease q) s fun t => guard t = false ∧
        volt t = volt s - (s.level q.val - 4) * 15 ∧ OnlyRegs s t) ∧
      (Completes (.droopStretch q) s fun t => OnReg (s.droopSeen q.val) t .QUAD_REEF [q.val] (putBits r .QUAD_REEF_DROOP (min 255 (bits r .QUAD_REEF_DROOP + 1))) ∧
        OnlyCounters s (s.droopSeen q.val)) ∧
      (Completes (.pllReferenceSwitch q) s fun t => q.val ∈ t.fe.lastRef ∧ t.mem = s.mem ∧ t.cores = s.cores ∧
        (s.fe.healthKnown = true → flag (t.reg .HEALTH_STAT) .HEALTH_STAT_PLLREF = true ∧ t.healthPin = 0))) ∧
    (let fe : Fetas := { s.fe with junction := tj, caseTemp := tj - (mw * 12 / 10000 : Nat) }
     let cool : Option Nat := if fe.caseTemp ≤ 950 then some (s.dram.coolSince.getD s.time) else none
     let rated (t : State) (r : Nat) : Prop := ∀ g < 2, s.groupUp g = true →
       (s.mode = .m1 ∨ s.mode = .m2 ∨ s.mode = .m3 → t.fld .MG_STATUS [g] .MG_STATUS_RATE = r) ∧
       (s.mode ≠ .m1 → s.mode ≠ .m2 → s.mode ≠ .m3 → t.regs = s.regs ∧
         t.dram.ratePend.get none g = if s.fld .MG_STATUS [g] .MG_STATUS_RATE = r then none else some r)
     (tj < 1600 ∨ s.crow.cut = true ∨ s.crow.mastOff = true → Completes (.junctionSensorRead tj mw) s fun t =>
       t = { s with fe := fe, dram := t.dram, regs := t.regs } ∧ t.dram.coolSince = cool ∧ (980 ≤ fe.caseTemp → rated t 1) ∧
       (∀ t0, cool = some t0 → t0 + 1000000000 ≤ s.time → rated t 0) ∧
       (fe.caseTemp < 980 → (∀ t0, cool = some t0 → s.time < t0 + 1000000000) → t.regs = s.regs ∧
         t.dram = { s.dram with coolSince := cool })) ∧
     (1600 ≤ tj → s.crow.cut = false → s.crow.mastOff = false → Completes (.junctionSensorRead tj mw) s fun t => t.mode = .m0 ∧ t.crow.cut = true ∧ t.crow.out = 0 ∧
        t.crow.todo = [] ∧ flag (t.reg .WAKE_STAT) .WAKE_STAT_THERM = true ∧ t.fetasUp = false ∧ t.fe.place = [])) ∧
    (s.time < s.fe.coolAt → exec .throttleStep s = .next s) ∧ (s.time < s.fe.warmAt → exec .throttleReleaseStep s = .next s) ∧
    (1450 ≤ s.fe.junction → s.fetasUp = true → s.fe.coolAt ≤ s.time → Completes .throttleStep s fun t => t.mem = s.mem ∧ t.cores = s.cores ∧
      t.fe.coolAt = s.time + 10 * 10 ^ 6 ∧ t.fe.warmAt = s.time + 100 * 10 ^ 6 ∧
      (∀ j < 16, t.level j = if s.pdUp (67 + j) = true ∧ 3 < s.level j then s.level j - 1 else s.level j) ∧
      ((∃ j < 16, s.pdUp (67 + j) = true ∧ 3 < s.level j) → flag (t.reg .MAST_MODE) .MAST_MODE_THROTTLE = true)) ∧
    (s.fe.junction < 1400 → s.fetasUp = true → s.fe.warmAt ≤ s.time → s.fe.throttled = [(q.val, k + 1)] → s.pdUp (67 + q.val) = true → s.level q.val < 7 → s.fe.reefWait = [] →
      Completes .throttleReleaseStep s fun t => t.level q.val = s.level q.val + 1 ∧ t.fe.warmAt = s.time + 100 * 10 ^ 6 ∧ t.mem = s.mem ∧ t.cores = s.cores ∧
        (k = 0 → t.fe.throttled = [] ∧ flag (t.reg .MAST_MODE) .MAST_MODE_THROTTLE = false) ∧ (k ≠ 0 → t.fe.throttled = [(q.val, k)])) ∧
    (s.fe.healthClear = some t0 → 327680 ≤ (s.tick + 2 ^ 48 - t0 % 2 ^ 48) % 2 ^ 48 → s.healthPin = 0 → s.healthBits = 0 → Completes .healthPinReturn s fun t => t.healthPin = 1 ∧
      t.fe = { s.fe with healthClear := none } ∧ t.fsi.seq = s.fsi.seq + 1 ∧ t = { s with regs := t.regs, fe := t.fe, fsi := t.fsi }) ∧
    (∀ rx, s.fe.pathLost = [(p, some t0)] → s.instOf p = some (i.val, rx) → t0 + 10000000000 < s.time → Completes (.hsrPathReserveExpiry i) s fun t =>
      p ∈ t.fe.pathOut ∧ t.mem = s.mem ∧ t.cores = s.cores ∧ (s.fe.healthKnown = true → flag (t.reg .HEALTH_STAT) .HEALTH_STAT_PATH = true)) ∧
    ((s.mode ≠ .m7 ∨ e = false ∨ s.fetasUp = false → exec (.meshSelfTest e dn) s = .next s) ∧
     (s.mode = .m7 → s.fetasUp = true → s.meshQuiet = true →
       Completes (.meshSelfTest true true) s fun t => t.pdOn = s.pdOn.erase 92 ∧ t.mem = s.mem ∧ t.cores = s.cores) ∧
     ((∃ m ∈ s.net, meshPd (67 + m.quad) = 92) → exec (.meshSelfTest true true) s = .next s) ∧
     (s.mode = .m7 → s.fetasUp = true → exec (.meshSelfTest true false) s = .next (s.domainOn 92))) ∧
    (s.fetasUp = true → s.fe.selfTest = none →
      (s.reports.find? Report.isCheck = some (.machineCheck f) →
        let z : State := { s with reports := s.reports.erase (.machineCheck f) }
        (∀ t, z.onCheck f = some t → exec (.migration .reported) s = .next t) ∧
        (s.carried f = some l → s.fe.partner.get none f = none → s.pickBackstay (f / 4) = none → Completes (.migration .reported) s fun t =>
          t = { z with fe := { s.fe with selfTest := some f }, cores := t.cores } ∧ (t.core (Fin.ofNat 64 f)).reg .RES_CTL = 0 ∧
          ∀ c : CoreId, c ≠ Fin.ofNat 64 f → t.core c = s.core c)) ∧
      (s.reports.find? Report.isCheck = some (.pairCheck f) → ∀ t, { s with reports := s.reports.erase (.pairCheck f) }.onPair f = some t →
        exec (.migration .reported) s = .next t)) ∧
    (∀ (c : CoreId) (n : Fin 64) (again : Bool), s.fetasUp = false →
      let inPair := (s.leadOf c.val).isSome = true ∨ (s.fe.partner.get none c.val).isSome = true
      (s.pdUp (3 + c.val) = true → (s.carried c.val).isSome = true ∨ (s.leadOf c.val).isSome = true →
        exec (.migration (.register c n true)) s = .next ((s.event c evRegister).count (.register 0)) ∧
        Completes (.migration (.register c n false)) s fun t => t.mem = s.mem ∧ t.regs = s.regs ∧ (t.core c).run = .stopped .machineCheck ∧
          .machineCheck c.val ∈ t.reports ∧ (∀ d : CoreId, d ≠ c → t.core d = s.core d) ∧ (t.core c).pc = (s.core c).pc ∧
          (¬ inPair → (t.core c).mcheck = true ∧ (n.val < 32 → (t.core c).g.get 0 n.val = 0) ∧ (32 ≤ n.val → (t.core c).f.get 0 (n.val - 32) = 0)) ∧
          (inPair → (t.core c).g = (s.core c).g ∧ (t.core c).f = (s.core c).f)) ∧
      ((s.carried c.val).isSome = true → (s.fe.partner.get none c.val).isSome = true → Completes (.migration (.compare c again)) s fun t =>
        t.mem = s.mem ∧ t.regs = s.regs ∧ (t.core c).g = (s.core c).g ∧ (t.core c).pc = (s.core c).pc ∧
        (again = true → (t.core c).run = .stopped .machineCheck ∧ .pairCheck c.val ∈ t.reports) ∧
        (again = false → t.reports = s.reports))) ∧
    (s.fe.selfTest = some p → s.carried p = some l → Completes (.selfTestComplete true) s fun t => t.fe.selfTest = none ∧
      (t.core (Fin.ofNat 64 p)).run = .running ∧ (t.core (Fin.ofNat 64 p)).mcheck = true ∧ t.mem = s.mem ∧
      ∀ c : CoreId, c ≠ Fin.ofNat 64 p → t.core c = s.core c)
end

