-- ==== Sys2Proof/Laws/Memory.lean ====
section
/-! SUPPORT. Sparse maps and memory: a read after a write gives the value written, a write leaves every other place
alone, and every operation keeps the canonical form. -/

namespace Sys2Proof.Machine

section SMapLaws
variable {α : Type}

@[simp] theorem SMap.find_insert_self (k : Nat) (v : α) (m : SMap α) : SMap.find k (SMap.insert k v m) = some v := by
  induction m with
  | nil => simp [SMap.insert, SMap.find]
  | cons e m ih =>
    obtain ⟨j, w⟩ := e
    simp only [SMap.insert]
    by_cases h1 : k < j
    · simp [h1, SMap.find]
    · by_cases h2 : j = k
      · simp [h2, SMap.find]
      · simp [h1, h2, SMap.find, ih]

theorem SMap.find_insert_other {k j : Nat} (h : j ≠ k) (v : α) (m : SMap α) : SMap.find j (SMap.insert k v m) = SMap.find j m := by
  induction m with
  | nil => simp [SMap.insert, SMap.find, Ne.symm h]
  | cons e m ih =>
    obtain ⟨i, w⟩ := e
    simp only [SMap.insert]
    by_cases h1 : k < i
    · simp [h1, SMap.find, Ne.symm h]
    · by_cases h2 : i = k
      · subst h2; simp [SMap.find, Ne.symm h]
      · simp [h1, h2, SMap.find, ih]

@[simp] theorem SMap.find_erase_self (k : Nat) (m : SMap α) : SMap.find k (SMap.erase k m) = none := by
  induction m with
  | nil => rfl
  | cons e m ih =>
    obtain ⟨i, w⟩ := e
    by_cases h : i = k <;> simp [SMap.erase, SMap.find, h, ih]

theorem SMap.find_erase_other {k j : Nat} (h : j ≠ k) (m : SMap α) : SMap.find j (SMap.erase k m) = SMap.find j m := by
  induction m with
  | nil => rfl
  | cons e m ih =>
    obtain ⟨i, w⟩ := e
    by_cases h1 : i = k
    · subst h1; simp [SMap.erase, SMap.find, ih, Ne.symm h]
    · simp [SMap.erase, SMap.find, h1, ih]

variable [DecidableEq α]

/-- A read after a write to the same key gives the value written. -/
@[simp] theorem SMap.get_set_self (d : α) (m : SMap α) (k : Nat) (v : α) : SMap.get d (SMap.set d m k v) k = v := by
  unfold SMap.get SMap.set
  by_cases h : v = d <;> simp [h]

/-- A write leaves every other key alone. -/
theorem SMap.find_set_other (d : α) {k j : Nat} (h : j ≠ k) (m : SMap α) (v : α) :
    SMap.find j (SMap.set d m k v) = SMap.find j m := by
  unfold SMap.set
  by_cases hv : v = d <;> simp [hv, SMap.find_erase_other h, SMap.find_insert_other h]

theorem SMap.get_set_other (d : α) {k j : Nat} (h : j ≠ k) (m : SMap α) (v : α) :
    SMap.get d (SMap.set d m k v) j = SMap.get d m j := by simp [SMap.get, SMap.find_set_other d h]

theorem SMap.getD_find_set_self (d : α) (m : SMap α) (k : Nat) (v : α) : (SMap.find k (SMap.set d m k v)).getD d = v :=
  SMap.get_set_self d m k v

omit [DecidableEq α] in
theorem SMap.rising_erase (b : Option Nat) (k : Nat) (m : SMap α) (h : SMap.rising b m = true) :
    SMap.rising b (SMap.erase k m) = true := by
  induction m generalizing b with
  | nil => rfl
  | cons e m ih =>
    obtain ⟨i, w⟩ := e
    simp only [SMap.rising, Bool.and_eq_true] at h
    by_cases h1 : i = k
    · simp only [SMap.erase, h1, if_true]
      apply ih
      cases m with
      | nil => rfl
      | cons f m =>
        obtain ⟨j, x⟩ := f
        simp only [SMap.rising, Bool.and_eq_true] at h ⊢
        refine ⟨?_, h.2.2⟩
        have h2 := h.2.1; have h0 := h.1
        cases b with
        | none => rfl
        | some a => simp only [decide_eq_true_eq] at *; omega
    · simp only [SMap.erase, h1, if_false, SMap.rising, Bool.and_eq_true]
      exact ⟨h.1, ih _ h.2⟩

omit [DecidableEq α] in
theorem SMap.rising_insert (b : Option Nat) (k : Nat) (v : α) (m : SMap α) (h : SMap.rising b m = true)
    (hb : ∀ a, b = some a → a < k) : SMap.rising b (SMap.insert k v m) = true := by
  have hb' : ∀ m : SMap α, SMap.rising b ((k, v) :: m) = SMap.rising (some k) m := by
    intro m
    cases b with
    | none => simp [SMap.rising]
    | some a => simp [SMap.rising, hb a rfl]
  induction m generalizing b with
  | nil => simp only [SMap.insert, hb', SMap.rising]
  | cons e m ih =>
    obtain ⟨i, w⟩ := e
    have h' := h
    simp only [SMap.rising, Bool.and_eq_true] at h
    simp only [SMap.insert]
    by_cases h1 : k < i
    · simp [h1, hb', SMap.rising, h.2]
    · by_cases h2 : i = k
      · subst h2; simp [hb', h.2]
      · simp only [h1, h2, if_false, SMap.rising, Bool.and_eq_true]
        have hk : i < k := by omega
        refine ⟨h.1, ih _ h.2 (fun a ha => by cases ha; exact hk) (fun m => by simp [SMap.rising, hk])⟩

omit [DecidableEq α] in
theorem SMap.mem_erase {k : Nat} {m : SMap α} {e : Nat × α} (h : e ∈ SMap.erase k m) : e ∈ m := by
  induction m with
  | nil => exact h
  | cons f m ih =>
    obtain ⟨i, w⟩ := f
    by_cases h1 : i = k
    · simp only [SMap.erase, h1, if_true] at h; exact List.mem_cons_of_mem _ (ih h)
    · simp only [SMap.erase, h1, if_false, List.mem_cons] at h ⊢; exact h.imp id ih

omit [DecidableEq α] in
theorem SMap.mem_insert {k : Nat} {v : α} {m : SMap α} {e : Nat × α} (h : e ∈ SMap.insert k v m) : e = (k, v) ∨ e ∈ m := by
  induction m with
  | nil => simpa [SMap.insert] using h
  | cons f m ih =>
    obtain ⟨i, w⟩ := f
    simp only [SMap.insert] at h
    by_cases h1 : k < i
    · simp only [h1, if_true, List.mem_cons] at h ⊢; exact h
    · by_cases h2 : i = k
      · subst h2
        simp only [Nat.lt_irrefl, if_false, if_true, List.mem_cons] at h ⊢; exact h.imp id Or.inr
      · simp only [h1, h2, if_false, List.mem_cons] at h ⊢
        rcases h with h | h
        · exact Or.inr (Or.inl h)
        · exact (ih h).imp id Or.inr

/-- A write keeps the canonical form. -/
theorem SMap.wf_set (d : α) (m : SMap α) (k : Nat) (v : α) (h : SMap.wf d m = true) : SMap.wf d (SMap.set d m k v) = true := by
  unfold SMap.wf at *
  rw [Bool.and_eq_true, List.all_eq_true] at *
  unfold SMap.set
  by_cases hv : v = d
  · rw [if_pos hv]
    exact ⟨SMap.rising_erase _ _ _ h.1, fun e he => h.2 e (SMap.mem_erase he)⟩
  · rw [if_neg hv]
    refine ⟨SMap.rising_insert _ _ _ _ h.1 (fun a ha => by cases ha), fun e he => ?_⟩
    rcases SMap.mem_insert he with rfl | he
    · simpa using hv
    · exact h.2 e he

omit [DecidableEq α] in
theorem SMap.rising_filter (b : Option Nat) (p : Nat × α → Bool) (m : SMap α) (h : SMap.rising b m = true) :
    SMap.rising b (m.filter p) = true := by
  induction m generalizing b with
  | nil => rfl
  | cons e m ih =>
    obtain ⟨i, w⟩ := e
    simp only [SMap.rising, Bool.and_eq_true] at h
    by_cases h1 : p (i, w)
    · simp only [List.filter_cons, h1, if_true, SMap.rising, Bool.and_eq_true]
      exact ⟨h.1, ih _ h.2⟩
    · simp only [List.filter_cons, h1, Bool.false_eq_true, if_false]
      apply ih
      cases m with
      | nil => rfl
      | cons f m =>
        obtain ⟨j, x⟩ := f
        simp only [SMap.rising, Bool.and_eq_true] at h ⊢
        refine ⟨?_, h.2.2⟩
        have h2 := h.2.1; have h0 := h.1
        cases b with
        | none => rfl
        | some a => simp only [decide_eq_true_eq] at *; omega

/-- A loss of part of the entries keeps the canonical form. -/
theorem SMap.wf_filter (d : α) (p : Nat × α → Bool) (m : SMap α) (h : SMap.wf d m = true) : SMap.wf d (m.filter p) = true := by
  unfold SMap.wf at *
  rw [Bool.and_eq_true, List.all_eq_true] at *
  exact ⟨SMap.rising_filter _ _ _ h.1, fun e he => h.2 e (List.mem_filter.mp he).1⟩

end SMapLaws

/-! ### Memory -/

@[simp] theorem Memory.read_write_self (m : Memory) (a : Nat) (b : Byte) : (m.write a b).read a = b :=
  SMap.get_set_self _ _ _ _

theorem Memory.read_write_other {a x : Nat} (h : x ≠ a) (m : Memory) (b : Byte) : (m.write a b).read x = m.read x :=
  SMap.get_set_other _ h _ _

theorem Memory.wf_write (m : Memory) (a : Nat) (b : Byte) (h : m.wf = true) : (m.write a b).wf = true := SMap.wf_set _ _ _ _ h

theorem Memory.wf_writeN (m : Memory) (a v n : Nat) (h : m.wf = true) : (m.writeN a v n).wf = true := by
  induction n generalizing m a v with
  | zero => exact h
  | succ n ih => exact ih _ _ _ (Memory.wf_write _ _ _ h)

theorem Memory.wf_writeMask (m : Memory) (a v mask n : Nat) (h : m.wf = true) : (m.writeMask a v mask n).wf = true := by
  induction n generalizing m a v mask with
  | zero => exact h
  | succ n ih =>
    refine ih _ _ _ _ ?_
    split
    · exact Memory.wf_write _ _ _ h
    · exact h

/-- Outside the bytes written every byte stays. -/
theorem Memory.read_writeN_other (m : Memory) (a v n x : Nat) (h : x < a ∨ a + n ≤ x) : (m.writeN a v n).read x = m.read x := by
  induction n generalizing m a v with
  | zero => rfl
  | succ n ih => rw [Memory.writeN, ih _ _ _ (by omega), Memory.read_write_other (by omega)]

/-- The bytes written read back, least significant first (R8). -/
theorem Memory.read_writeN_self (m : Memory) (a v n i : Nat) (h : i < n) :
    (m.writeN a v n).read (a + i) = BitVec.ofNat 8 (v / 256 ^ i) := by
  induction n generalizing m a v i with
  | zero => omega
  | succ n ih =>
    rw [Memory.writeN]
    cases i with
    | zero => rw [Memory.read_writeN_other _ _ _ _ _ (by omega)]; simp
    | succ i =>
      rw [show a + (i + 1) = (a + 1) + i by omega, ih _ _ _ _ (by omega), Nat.div_div_eq_div_mul, Nat.pow_succ,
        Nat.mul_comm (256 ^ i)]

/-- A number written reads back. -/
theorem Memory.readN_writeN (m : Memory) (a v n : Nat) : (m.writeN a v n).readN a n = v % 256 ^ n := by
  induction n generalizing m a v with
  | zero => simp [Memory.readN, Nat.mod_one]
  | succ n ih =>
    rw [Memory.writeN, Memory.readN, ih, Memory.read_writeN_other _ _ _ _ _ (by omega), Memory.read_write_self,
      BitVec.toNat_ofNat, show (2 : Nat) ^ 8 = 256 from rfl,
      show 256 ^ (n + 1) = 256 * 256 ^ n by rw [Nat.pow_succ, Nat.mul_comm], Nat.mod_mul]

theorem Memory.wf_lost (m : Memory) (p : Host.Cell → Bool) (h : m.wf = true) : Memory.wf (m.filter p) = true :=
  SMap.wf_filter _ _ _ h

theorem Memory.wf_setMemSec (s : State) (sec : Nat) (v : BitVec 512) (p : Bool) (h : Memory.wf s.mem = true) :
    Memory.wf (s.setMemSec sec v p).mem = true := Memory.wf_writeN _ _ _ _ h

/-! ### Cores and registers -/

@[simp] theorem State.core_setCore (s : State) (c : Fin 64) (k : Core) : (s.setCore c k).core c = k := SMap.get_set_self _ _ _ _

theorem State.core_setCore_other (s : State) {c d : Fin 64} (h : d ≠ c) (k : Core) : (s.setCore c k).core d = s.core d :=
  SMap.get_set_other _ (fun e => h (Fin.ext e)) _ _

@[simp] theorem State.core_updCore (s : State) (c : Fin 64) (f : Core → Core) : (s.updCore c f).core c = f (s.core c) :=
  State.core_setCore _ _ _

@[simp] theorem State.reg_setReg (s : State) (r : Reg) (i : List Nat) (v : Word) : (s.setReg r i v).reg r i = v :=
  SMap.getD_find_set_self _ _ _ _

theorem State.reg_setReg_other (s : State) (r q : Reg) (i j : List Nat) (v : Word) (h : q.at j ≠ r.at i) :
    (s.setReg r i v).reg q j = s.reg q j := by
  unfold State.reg State.setReg; rw [SMap.find_set_other _ h]

@[simp] theorem Core.reg_setReg (k : Core) (r : Reg) (i : List Nat) (v : Word) : (k.setReg r i v).reg r i = v :=
  SMap.getD_find_set_self _ _ _ _

theorem Core.reg_setReg_other (k : Core) (r q : Reg) (i j : List Nat) (v : Word) (h : q.at j ≠ r.at i) :
    (k.setReg r i v).reg q j = k.reg q j := by
  unfold Core.reg Core.setReg; rw [SMap.find_set_other _ h]

end Sys2Proof.Machine
end

