-- ==== Sys2Proof/Laws/Bus.lean ====
section
/-! SUPPORT. A 32-bit access that reaches a register is the access of that register, with its side effects and nothing else. -/

namespace Sys2Proof.Machine

/-- A 32-bit write that reaches a register (R33). -/
theorem State.busWrite_reaches {s : State} {w : Who} {r : Reg} {idx : List Nat} (h : s.reaches w r idx) (hw : r.spec.wide = false)
    (v : Nat) : s.busWrite w (r.at idx) 4 v = s.regWrite w r idx (BitVec.ofNat 64 (v % 2 ^ 32)) lanes32 := by
  unfold State.busWrite
  rw [h.range]
  show s.write32 w (r.at idx) (v % 2 ^ 32) = _
  unfold State.write32
  rw [h.found]
  show (if r.spec.wide = true then _ else _) = _
  rw [hw]; rfl

/-- A 32-bit read that reaches a register (R33). -/
theorem State.busRead_reaches {s : State} {w : Who} {r : Reg} {idx : List Nat} (h : s.reaches w r idx) (hw : r.spec.wide = false) :
    s.busRead w (r.at idx) 4 = ((s.regRead w r idx lanes32).1.toNat % 2 ^ 32, (s.regRead w r idx lanes32).2) := by
  unfold State.busRead
  rw [h.range]
  show s.read32 w (r.at idx) = _
  unfold State.read32
  rw [h.found]
  show (if r.spec.wide = true then _ else _) = _
  rw [hw]; rfl

end Sys2Proof.Machine
end

