-- ==== Sys2Proof/Laws/Hash.lean ====
section
/-! SUPPORT. Lengths of the byte strings that the hash functions and the byte orders give. -/

namespace Sys2Proof.Machine
theorem toLe_length (v n : Nat) : (toLe v n).length = n := by
  induction n generalizing v with
  | zero => rfl
  | succ n ih => simp [toLe, ih]

theorem zeros_length (n : Nat) : (zeros n).length = n := List.length_replicate

theorem toBe_length (v n : Nat) : (toBe v n).length = n := by simp [toBe, toLe_length]

theorem Sha2.round_length (p : Sha2) (h : List (BitVec p.w)) (kw) (hl : h.length = 8) : (p.round h kw).length = 8 := by
  match h, hl with
  | [a, b, c, d, e, f, g, x], _ => rfl

theorem Sha2.block_length (p : Sha2) (k h : List (BitVec p.w)) (b : Bytes) (hl : h.length = 8) : (p.block k h b).length = 8 := by
  have hf : ∀ (l : List (BitVec p.w × BitVec p.w)) (x : List (BitVec p.w)), x.length = 8 → (l.foldl p.round x).length = 8 := by
    intro l
    induction l with
    | nil => intro x hx; exact hx
    | cons a l ih => intro x hx; exact ih _ (p.round_length x a hx)
  simp only [Sha2.block, List.length_map, List.length_zip, hf _ h hl, hl, Nat.min_self]

/-- A hash of 8 words or fewer has the length asked for. -/
theorem Sha2.hash_length (p : Sha2) (skip n : Nat) (m : Bytes) (hi : (p.iv skip).length = 8) (hn : n ≤ 8 * (p.w / 8)) : (p.hash skip n m).length = n := by
  have hf : ∀ (k : List (BitVec p.w)) (l : List Bytes) (x : List (BitVec p.w)), x.length = 8 → (l.foldl (p.block k) x).length = 8 := by
    intro k l
    induction l with
    | nil => intro x hx; exact hx
    | cons a l ih => intro x hx; exact ih _ (p.block_length k x a hx)
  have hm : ∀ l : List (BitVec p.w), (l.flatMap fun w => toBe w.toNat (p.w / 8)).length = l.length * (p.w / 8) := by
    intro l
    induction l with
    | nil => simp
    | cons a l ih => simp only [List.flatMap_cons, List.length_append, ih, toBe_length, List.length_cons]; ring
  simp only [Sha2.hash, List.length_take, hm, hf _ _ _ hi]
  omega

theorem sha256_length (m : Bytes) : (sha256 m).length = 32 := Sha2.hash_length _ _ _ m (by decide +kernel) (by decide)

theorem hmac256_length (k m : Bytes) : (hmac256 k m).length = 32 := sha256_length _

end Sys2Proof.Machine
end

