-- ==== Sys2Proof/Laws/Kept.lean ====
section
/-! SUPPORT. What almost every operation leaves alone: the queue, the ordering code, the audit trail of the Shroud and its
event counter (R453, R454). The files KeptX say so of every operation of Machine/X, one lemma each; Laws/Ledger does
the operations that append to the trail. -/

namespace Sys2Proof.Machine

/-- The part of the state that almost nothing changes. -/
def State.kept (s : State) := (s.pending, s.part, s.shr.trail, s.shr.evcnt)

/-- The states in the answers of operations. -/
def Ex.st : Ex → State | .done s _ => s | .jump s _ => s | .trap _ s => s | .wait s => s
def TrapAns.st : TrapAns → State | .taken s _ => s | .wait s => s
def CmdAns.st (d : State) : CmdAns → State | .done _ s => s | .op _ _ s => s | .wait => d

theorem foldl_kept {α : Type} (g : State → α → State) (hg : ∀ s a, (g s a).kept = s.kept) (l : List α) (s : State) :
    (l.foldl g s).kept = s.kept := by
  induction l generalizing s with
  | nil => rfl
  | cons a l ih => simp [ih, hg]

theorem ite_kept {P : Prop} [Decidable P] {α : Type} (a b : α × State) (k) (ha : a.2.kept = k) (hb : b.2.kept = k) :
    (if P then a else b).2.kept = k := by split <;> assumption

theorem ite_st {P : Prop} [Decidable P] {a b : State} {k} (ha : a.kept = k) (hb : b.kept = k) : (if P then a else
    b).kept = k := by
  split <;> assumption

theorem ite_so {P : Prop} [Decidable P] {a b : Option State} {k} (ha : ∀ t, a = some t → t.kept = k) (hb : ∀ t, b =
    some t → t.kept = k) :
    ∀ t, (if P then a else b) = some t → t.kept = k := by split <;> assumption

theorem ite_cmd {P : Prop} [Decidable P] {a b : CmdAns} {d : State} {k} (ha : (a.st d).kept = k) (hb : (b.st d).kept = k) :
    ((if P then a else b).st d).kept = k := by split <;> assumption

theorem ite_w {P : Prop} [Decidable P] {α : Type} {a b : α × Walk} {k} (ha : a.2.s.kept = k) (hb : b.2.s.kept = k) :
    (if P then a else b).2.s.kept = k := by split <;> assumption

theorem arm_kept {s u : State} (h : u.kept = s.kept) : ∀ t, ok u = .next t → t.kept = s.kept := by
  intro t e; cases e; exact h

theorem kept_crow_fe (s : State) (x : Crow) (y : Fetas) : ({ s with crow := x, fe := y } : State).kept = s.kept := rfl

theorem kept_fe (s : State) (x : Fetas) : ({ s with fe := x } : State).kept = s.kept := rfl

theorem fold_kept {α β : Type} (p : β → State) (g : β → α → β) (hg : ∀ r a, (p (g r a)).kept = (p r).kept) (l :
    List α) (r : β) :
    (p (l.foldl g r)).kept = (p r).kept := by
  induction l generalizing r with
  | nil => rfl
  | cons a l ih => simp [ih, hg]

end Sys2Proof.Machine
end

