-- ==== Sys2Proof/Laws/KeptOps.lean ====
section
/-! SUPPORT. What the operations of Machine/Ops leave alone. -/

set_option Elab.async false
set_option linter.unusedVariables false
set_option linter.unusedTactic false
set_option linter.unreachableTactic false

namespace Sys2Proof.Machine

theorem State.setCore_kept (s : State) (c : Fin 64) (k : Core) : (State.setCore s c k).kept = s.kept := by
  intros; unfold State.setCore at *; grind [State.kept]

theorem State.updCore_kept (s : State) (c : Fin 64) (f : Core → Core) : (State.updCore s c f).kept = s.kept := by
  intros; unfold State.updCore at *; grind [State.setCore_kept]

theorem State.setQuad_kept (s : State) (q : ℕ) (k : Quad) : (State.setQuad s q k).kept = s.kept := by
  intros; unfold State.setQuad at *; grind [State.kept]

theorem State.setHome_kept (s : State) (h : ℕ) (k : Home) : (State.setHome s h k).kept = s.kept := by
  intros; unfold State.setHome at *; grind [State.kept]

theorem State.setReg_kept (s : State) (r : Reg) (idx : List ℕ) (v : Word) : (State.setReg s r idx v).kept = s.kept := by
  intros; unfold State.setReg at *; grind [State.kept]

theorem State.setFld_kept (s : State) (r : Reg) (idx : List ℕ) (f : Fld) (v : ℕ) :
    (State.setFld s r idx f v).kept = s.kept := by
  intros; unfold State.setFld at *; grind [State.setReg_kept]

theorem State.countFld_kept (s : State) (r : Reg) (idx : List ℕ) (f : Fld) (n : ℕ) :
    (State.countFld s r idx f n).kept = s.kept := by
  intros; unfold State.countFld at *; grind [State.setFld_kept]

theorem State.capture_kept (s : State) (r : Reg) (idx : List ℕ) (fields : ℕ) :
    (State.capture s r idx fields).2.kept = s.kept := by
  intros; unfold State.capture at *; grind [State.setReg_kept]

theorem State.fresh_kept (s : State) : (State.fresh s).2.kept = s.kept := by
  intros; unfold State.fresh at *; grind [State.kept]

theorem State.setPoison_kept (s : State) (sec : ℕ) (p : Bool) : (State.setPoison s sec p).kept = s.kept := by
  intros; unfold State.setPoison at *; grind [State.kept]

theorem State.setMemSec_kept (s : State) (sec : ℕ) (v : BitVec 512) (p : Bool) :
    (State.setMemSec s sec v p).kept = s.kept := by
  intros; unfold State.setMemSec at *; grind [State.setPoison_kept, State.kept]

theorem State.logEntry_kept (s : State) (words : ℕ → List ℕ) :
    (State.logEntry s words).kept = s.kept := by
  intros; unfold State.logEntry at *; grind [State.kept]

theorem State.count_kept (s : State) (t : Tele) : (State.count s t).kept = s.kept := by
  intros; unfold State.count at *; grind [State.kept, State.logEntry_kept]

theorem State.pulse_kept (s : State) (n : ℕ) : (State.pulse s n).kept = s.kept := by
  intros; unfold State.pulse at *; grind [State.kept]

theorem State.report_kept (s : State) (r : Report) : (State.report s r).kept = s.kept := by
  intros; unfold State.report at *; grind [State.kept]

theorem State.idle_kept (s : State) : (State.idle s).kept = s.kept := by
  by_cases a : s.crow.mastOff = true <;> by_cases b : s.mode = .m0 <;> by_cases c : s.shr.off = true <;>
    by_cases d : tickTime (s.tick + 1) = s.time + 1 <;> simp [State.idle, State.kept, a, b, c, d]

theorem State.addrErr_kept (s : State) (stop : ℕ) (write : Bool) (kind : ℕ) (pa : ℕ) (pid : BitVec 29) :
    (State.addrErr s stop write kind pa pid).kept = s.kept := by
  intros; unfold State.addrErr at *; grind [State.kept]

end Sys2Proof.Machine
end

