-- ==== Sys2Proof/Laws/KeptEvents.lean ====
section
/-! SUPPORT. What the operations of Machine/Events leave alone. -/

set_option Elab.async false
set_option linter.unusedVariables false
set_option linter.unusedTactic false
set_option linter.unreachableTactic false

namespace Sys2Proof.Machine

theorem State.event_kept (s : State) (c : Fin 64) (e : ℕ) (v : ℕ) : (State.event s c e v).kept = s.kept := by
  intros; unfold State.event at *; grind [State.updCore_kept]

end Sys2Proof.Machine
end

