-- ==== Sys2Proof/Laws/KeptFsiEvents.lean ====
section
/-! SUPPORT. What the operations of Machine/FsiEvents leave alone. -/

set_option Elab.async false
set_option linter.unusedVariables false
set_option linter.unusedTactic false
set_option linter.unreachableTactic false

namespace Sys2Proof.Machine

theorem State.pushEvent_kept (s : State) (box : ℕ) (e : FsiEvent) : (State.pushEvent s box e).kept = s.kept := by
  intros; unfold State.pushEvent at *; grind [State.kept]

theorem State.feEvent_kept (s : State) (code : ℕ) (data : List ℕ) (slices : List ℕ) :
    (State.feEvent s code data slices).kept = s.kept := by
  intros; unfold State.feEvent at *; grind [State.pushEvent_kept, foldl_kept, State.kept, State.logEntry_kept]

end Sys2Proof.Machine
end

