-- ==== Sys2Proof/Laws/KeptHealth.lean ====
section
/-! SUPPORT. What the operations of Machine/Health leave alone. -/

set_option Elab.async false
set_option linter.unusedVariables false
set_option linter.unusedTactic false
set_option linter.unreachableTactic false

namespace Sys2Proof.Machine

theorem State.setHealth_kept (s : State) (v : ℕ) : (State.setHealth s v).kept = s.kept := by
  intros; unfold State.setHealth at *; grind [State.setReg_kept]

theorem State.healthEvent_kept (s : State) : (State.healthEvent s).kept = s.kept := by
  intros; unfold State.healthEvent at *; grind [State.feEvent_kept]

theorem State.healthEval_kept (s : State) : (State.healthEval s).kept = s.kept := by
  intros; unfold State.healthEval at *; grind [State.setHealth_kept, State.healthEvent_kept, State.kept]

theorem State.healthFirst_kept (s : State) : (State.healthFirst s).kept = s.kept := by
  intros; unfold State.healthFirst at *; grind [State.healthEval_kept, State.setHealth_kept, State.kept]

end Sys2Proof.Machine
end

