-- ==== Sys2Proof/Laws/KeptMemCtl.lean ====
section
/-! SUPPORT. What the operations of Machine/MemCtl leave alone. -/

set_option Elab.async false
set_option linter.unusedVariables false
set_option linter.unusedTactic false
set_option linter.unreachableTactic false

namespace Sys2Proof.Machine

theorem State.logMg_kept (s : State) (g : ℕ) (kind : ℕ) (ch : ℕ) (sec : ℕ) :
    (State.logMg s g kind ch sec).kept = s.kept := by
  intros; unfold State.logMg at *; grind [State.count_kept, State.countFld_kept, State.capture_kept,
      State.setReg_kept]

theorem State.logMr_kept (s : State) (kind : ℕ) (die : ℕ) (sec : ℕ) :
    (State.logMr s kind die sec).kept = s.kept := by
  intros; unfold State.logMr at *; grind [State.count_kept, State.countFld_kept, State.capture_kept,
      State.setReg_kept]

theorem State.markDie_kept (s : State) (g : ℕ) (ch : ℕ) : (State.markDie s g ch).kept = s.kept := by
  intros; unfold State.markDie at *; grind [State.healthEval_kept, State.feEvent_kept, State.pulse_kept,
      State.setReg_kept, State.kept]

theorem State.noteCe_kept (s : State) (g : ℕ) : (State.noteCe s g).kept = s.kept := by
  intros; unfold State.noteCe at *; grind [State.kept]

theorem State.degradedRead_kept (s : State) (n : ℕ) (k : ℕ) (e : ErrList) (f : ℕ) :
    (State.degradedRead s n k e f).2.kept = s.kept := by
  intros; unfold State.degradedRead at *; grind [State.logMg_kept]

theorem State.decodeBurst_kept (s : State) (block k : Nat) (e : BurstErrs) (pattern : BitVec 9) :
    (State.decodeBurst s block k e pattern).2.kept = s.kept := by
  intros; unfold State.decodeBurst at *; grind [State.logMg_kept, State.degradedRead_kept, State.noteCe_kept,
      State.markDie_kept, State.kept]

theorem State.decodeRead_kept (s : State) (block : ℕ) (k : ℕ) (e : BurstErrs) (pattern : BitVec 9) :
    (State.decodeRead s block k e pattern).2.kept = s.kept := by
  intros; unfold State.decodeRead at *; grind [State.logMg_kept, State.noteCe_kept, State.markDie_kept,
      State.degradedRead_kept, State.decodeBurst_kept]

theorem State.mramDecode_kept (s : State) (n : ℕ) (errs : ℕ) : (State.mramDecode s n errs).2.kept = s.kept := by
  intros; unfold State.mramDecode at *; grind [State.logMr_kept]

theorem State.mramSpoil_kept (s : State) (w : MramWrite) :
    (State.mramSpoil s w).kept = s.kept := by
  intros; unfold State.mramSpoil at *; grind [State.setMemSec_kept, State.kept]

theorem State.mramRemap_kept (s : State) (w : MramWrite) : (State.mramRemap s w).kept = s.kept := by
  intros; unfold State.mramRemap at *; grind [State.logMr_kept, State.setMemSec_kept, State.setFld_kept,
      State.setReg_kept, State.healthEval_kept, State.pulse_kept, State.mramSpoil_kept]

end Sys2Proof.Machine
end

