-- ==== Sys2Proof/Laws/KeptCoherence.lean ====
section
/-! SUPPORT. What the operations of Machine/Coherence leave alone. -/

set_option Elab.async false
set_option linter.unusedVariables false
set_option linter.unusedTactic false
set_option linter.unreachableTactic false

namespace Sys2Proof.Machine

theorem State.updQuad_kept (s : State) (q : ℕ) (f : Quad → Quad) : (State.updQuad s q f).kept = s.kept := by
  intros; unfold State.updQuad at *; grind [State.setQuad_kept]

theorem State.updHome_kept (s : State) (h : ℕ) (f : Home → Home) : (State.updHome s h f).kept = s.kept := by
  intros; unfold State.updHome at *; grind [State.setHome_kept]

theorem State.updL2_kept (s : State) (q : ℕ) (f : Cache → Cache) : (State.updL2 s q f).kept = s.kept := by
  intros; unfold State.updL2 at *; grind [State.updQuad_kept]

theorem State.updL3_kept (s : State) (h : ℕ) (f : Cache → Cache) : (State.updL3 s h f).kept = s.kept := by
  intros; unfold State.updL3 at *; grind [State.updHome_kept]

theorem State.l1dDrop_kept (s : State) (c : Fin 64) (n : ℕ) : (State.l1dDrop s c n).kept = s.kept := by
  intros; unfold State.l1dDrop at *; grind [State.updL2_kept, State.updCore_kept]

theorem State.l1dDown_kept (s : State) (c : Fin 64) (n : ℕ) (st : CSt) : (State.l1dDown s c n st).kept = s.kept := by
  intros; unfold State.l1dDown at *; grind [State.updL2_kept, State.updCore_kept]

theorem State.l1iDrop_kept (s : State) (c : Fin 64) (n : ℕ) : (State.l1iDrop s c n).kept = s.kept := by
  intros; unfold State.l1iDrop at *; grind [State.updCore_kept]

theorem State.l1iDropAll_kept (s : State) (n : ℕ) : (State.l1iDropAll s n).kept = s.kept := by
  intros; unfold State.l1iDropAll at *; grind [State.l1iDrop_kept, foldl_kept]

theorem State.send_kept (s : State) (m : Msg) : (State.send s m).kept = s.kept := by
  intros; unfold State.send at *; grind [State.kept]

theorem State.l2Evict_kept (s : State) (q : ℕ) (f : ℕ) : (State.l2Evict s q f).kept = s.kept := by
  intros; unfold State.l2Evict at *; grind [State.l1iDrop_kept, State.l1dDrop_kept, State.updL2_kept,
      State.send_kept, State.updQuad_kept, foldl_kept, State.addrErr_kept]

theorem State.l2Alloc_kept (s : State) (q : ℕ) (n : ℕ) : (State.l2Alloc s q n).2.kept = s.kept := by
  intros; unfold State.l2Alloc at *; grind [State.l2Evict_kept, State.updL2_kept]

theorem State.reclaim_kept (s : State) (q : ℕ) (n : ℕ) :
    (State.reclaim s q n).2.kept = s.kept := by
  intros; unfold State.reclaim at *; grind [State.l2Alloc_kept, State.updL2_kept, State.updQuad_kept, foldl_kept]

theorem State.snoopEntry_kept (s : State) (q : ℕ) (n : ℕ) (kind : MsgKind) (e : Evict) (x : Sec) :
    (State.snoopEntry s q n kind e x).2.kept = s.kept := by
  intros; unfold State.snoopEntry at *; grind [State.updQuad_kept]

theorem State.snoop_kept (s : State) (q : ℕ) (n : ℕ) (kind : MsgKind) : (State.snoop s q n kind).2.kept = s.kept := by
  intros; unfold State.snoop at *; grind (splits := 20) [State.updQuad_kept, State.l1dDown_kept, State.updL2_kept,
      State.l1dDrop_kept, foldl_kept, State.snoopEntry_kept, State.event_kept]

theorem State.answerProbes_kept (s : State) : (State.answerProbes s).kept = s.kept := by
  intros; unfold State.answerProbes at *; grind [State.kept]

theorem State.mramAccept_kept (s : State) (n : ℕ) : (State.mramAccept s n).kept = s.kept := by
  intros; unfold State.mramAccept at *; grind [State.answerProbes_kept, State.kept]

theorem State.mramRead_kept (s : State) (n : ℕ) : (State.mramRead s n).2.kept = s.kept := by
  intros; unfold State.mramRead at *; grind [State.mramDecode_kept]

theorem State.memRead_kept (s : State) (n : ℕ) :
    (State.memRead s n).2.kept = s.kept := by
  intros; unfold State.memRead at *; grind [State.addrErr_kept, State.mramRead_kept, State.decodeRead_kept]

theorem State.writeBack_kept (s : State) (n : ℕ) (d : BitVec 512) (poison : Bool) :
    (State.writeBack s n d poison).kept = s.kept := by
  intros; unfold State.writeBack at *; grind [State.setMemSec_kept, State.mramAccept_kept, State.logMg_kept,
      State.addrErr_kept, State.kept]

theorem State.l3Fill_kept (s : State) (h : ℕ) (n : ℕ) :
    (State.l3Fill s h n).kept = s.kept := by
  intros; unfold State.l3Fill at *; grind [State.memRead_kept, State.updL3_kept, foldl_kept]

theorem State.l3Data_kept (s : State) (h : ℕ) (n : ℕ) :
    (State.l3Data s h n).2.kept = s.kept := by
  intros; unfold State.l3Data at *; grind [State.memRead_kept]

theorem State.l3Free_kept (s : State) (h : ℕ) (n : ℕ) : (State.l3Free s h n).kept = s.kept := by
  intros; unfold State.l3Free at *; grind [State.updL3_kept]

theorem State.pdqSync_kept (s : State) (h : ℕ) (n : ℕ) : (State.pdqSync s h n).kept = s.kept := by
  intros; unfold State.pdqSync at *; grind [State.updHome_kept]

theorem State.homeApply_kept (s : State) (h : ℕ) (t : Trans) :
    (State.homeApply s h t).kept = s.kept := by
  intros; unfold State.homeApply at *; grind [State.updL3_kept, State.send_kept, State.l3Data_kept,
      State.writeBack_kept, State.l3Free_kept, foldl_kept, State.addrErr_kept, State.reclaim_kept]

theorem State.homeReply_kept (s : State) (h : ℕ) (m : Msg) :
    (State.homeReply s h m).kept = s.kept := by
  intros; unfold State.homeReply at *; grind [State.send_kept, State.updL3_kept, State.pdqSync_kept,
      State.countFld_kept, foldl_kept, State.l1iDropAll_kept, State.reclaim_kept]

theorem State.homeFinish_kept (s : State) (h : ℕ) (t : Trans) : (State.homeFinish s h t).kept = s.kept := by
  intros; unfold State.homeFinish at *; grind [State.pdqSync_kept, State.homeApply_kept, State.homeReply_kept,
      State.updHome_kept]

theorem State.homeSnoop_kept (s : State) (h : ℕ) (m : Msg) :
    (State.homeSnoop s h m).kept = s.kept := by
  intros; unfold State.homeSnoop at *; grind [State.updHome_kept, State.l3Fill_kept, State.homeFinish_kept,
      State.send_kept, foldl_kept]

theorem State.homePlace_kept (s : State) (h : ℕ) (m : Msg) :
    (State.homePlace s h m).kept = s.kept := by
  intros; unfold State.homePlace at *; grind [State.homeSnoop_kept, State.updL3_kept, State.updHome_kept]

theorem State.homeStart_kept (s : State) (h : ℕ) (m : Msg) :
    (State.homeStart s h m).kept = s.kept := by
  intros; unfold State.homeStart at *; grind [State.pdqSync_kept, State.updL3_kept, State.send_kept,
      State.updHome_kept, State.homeFinish_kept, foldl_kept, State.homePlace_kept, State.homeSnoop_kept,
      State.reclaim_kept]

theorem State.homeAct_kept (s : State) (h : ℕ) (t : Trans) (x3 : HomeMove) :
    (State.homeAct s h t x3).kept = s.kept := by
  intros; unfold State.homeAct at *; grind [State.homeReply_kept, State.updHome_kept, State.homeSnoop_kept,
      State.updL3_kept]

theorem State.homeKick_kept (s : State) (h : ℕ) (fuel : ℕ) : (State.homeKick s h fuel).kept = s.kept := by
  induction fuel generalizing s with
  | zero => rfl
  | succ k ih =>
    unfold State.homeKick
    split
    · rw [ih, State.homeAct_kept]
    · split
      · rfl
      · rw [ih, State.homeStart_kept, State.updHome_kept]

theorem State.homeRequest_kept (s : State) (m : Msg) : (State.homeRequest s m).kept = s.kept := by
  intros; unfold State.homeRequest at *; grind [State.updHome_kept, State.homeStart_kept, State.homeKick_kept]

theorem State.homesGo_kept (s : State) :
    (State.homesGo s).kept = s.kept := by
  intros; unfold State.homesGo at *; grind [State.homeKick_kept, foldl_kept]

theorem State.wbEnd_kept (s : State) (h : ℕ) (t : Trans) :
    (State.wbEnd s h t).kept = s.kept := by
  intros; unfold State.wbEnd at *; grind [State.pdqSync_kept, State.updL3_kept, foldl_kept]

theorem State.wbAnswer_kept (s : State) (h : ℕ) (t : Trans) (m : Msg) :
    (State.wbAnswer s h t m).kept = s.kept := by
  intros; unfold State.wbAnswer at *; grind [State.updHome_kept, State.pdqSync_kept, State.updL3_kept,
      State.wbEnd_kept]

theorem State.snoopAnswer_kept (s : State) (h : ℕ) (t : Trans) (m : Msg) :
    (State.snoopAnswer s h t m).kept = s.kept := by
  intros; unfold State.snoopAnswer at *; grind [State.updL3_kept, State.updHome_kept, State.l3Fill_kept,
      State.homeFinish_kept]

theorem State.homeAnswer_kept (s : State) (m : Msg) : (State.homeAnswer s m).kept = s.kept := by
  intros; unfold State.homeAnswer at *; grind [State.pdqSync_kept, State.updL3_kept, State.updHome_kept,
      State.homeKick_kept, State.homeFinish_kept, State.wbAnswer_kept, State.snoopAnswer_kept]

theorem State.l1dEvict_kept (s : State) (c : Fin 64) (f : ℕ) : (State.l1dEvict s c f).kept = s.kept := by
  intros; unfold State.l1dEvict at *; grind [State.l1dDrop_kept, State.updCore_kept, foldl_kept]

theorem State.l1dAlloc_kept (s : State) (c : Fin 64) (n : ℕ) :
    (State.l1dAlloc s c n).kept = s.kept := by
  intros; unfold State.l1dAlloc at *; grind [State.event_kept, State.updCore_kept, State.l1dEvict_kept]

theorem State.l1dTake_kept (s : State) (c : Fin 64) (n : ℕ) (own : Bool) :
    (State.l1dTake s c n own).2.kept = s.kept := by
  intros; unfold State.l1dTake at *; grind [State.l1dDrop_kept, State.l1dDown_kept, State.l1dAlloc_kept,
      State.updCore_kept, State.updL2_kept, foldl_kept]

theorem State.l1iTake_kept (s : State) (c : Fin 64) (n : ℕ) :
    (State.l1iTake s c n).2.kept = s.kept := by
  intros; unfold State.l1iTake at *; grind [State.updCore_kept]

theorem State.fillSlots_kept (s : State) (c : Fin 64) (n : ℕ) :
    (State.fillSlots s c n).kept = s.kept := by
  intros; unfold State.fillSlots at *; grind [State.l1iTake_kept, State.updCore_kept, State.l1dTake_kept]

theorem State.fillQuad_kept (s : State) (q : ℕ) (n : ℕ) :
    (State.fillQuad s q n).kept = s.kept := by
  intros; unfold State.fillQuad at *; grind [State.fillSlots_kept, foldl_kept]

theorem State.zeroGrant_kept (s : State) (q : ℕ) (n : ℕ) (core : ℕ) :
    (State.zeroGrant s q n core).kept = s.kept := by
  intros; unfold State.zeroGrant at *; grind [State.updL2_kept, State.l1dTake_kept, State.updCore_kept,
      State.l1dDrop_kept, foldl_kept]

theorem State.quadFill_kept (s : State) (m : Msg) :
    (State.quadFill s m).2.kept = s.kept := by
  intros; unfold State.quadFill at *; grind [State.l2Alloc_kept, State.updL2_kept, State.zeroGrant_kept,
      State.fillQuad_kept]

theorem State.quadGo_kept (s : State) (q : ℕ) : (State.quadGo s q).kept = s.kept := by
  unfold State.quadGo
  refine foldl_kept _ (fun s m => ?_) _ _
  have := State.quadFill_kept s m
  grind [State.updQuad_kept, State.quadFill_kept]

theorem State.quadTake_kept (s : State) (m : Msg) : (State.quadTake s m).kept = s.kept := by
  unfold State.quadTake; rw [State.quadGo_kept, State.updQuad_kept]

theorem State.liveBack_kept (s : State) (m : Msg) (n : ℕ) : (State.liveBack s m n).kept = s.kept := by
  intros; unfold State.liveBack at *; grind [State.send_kept, State.updL2_kept]

theorem State.quadWbgo_kept (s : State) (m : Msg) : (State.quadWbgo s m).kept = s.kept := by
  intros; unfold State.quadWbgo at *; grind [State.send_kept, State.updQuad_kept, foldl_kept, State.liveBack_kept,
      State.quadGo_kept]

theorem State.quadSnoop_kept (s : State) (m : Msg) : (State.quadSnoop s m).2.kept = s.kept := by
  intros; unfold State.quadSnoop at *; grind [State.snoop_kept, State.send_kept]

theorem State.offAnswer_kept (s : State) (m : Msg) : (State.offAnswer s m).kept = s.kept := by
  intros; unfold State.offAnswer at *; grind [State.updQuad_kept, State.addrErr_kept, State.quadGo_kept]

theorem State.arrive_kept (s : State) (m : Msg) : (State.arrive s m).2.kept = s.kept := by
  intros; unfold State.arrive at *; grind [State.quadSnoop_kept, State.quadWbgo_kept, State.quadTake_kept,
      State.homeAnswer_kept, State.homeRequest_kept, State.offAnswer_kept]

theorem State.deliver_kept (s : State) (m : Msg) : (State.deliver s m).kept = s.kept := by
  intros; unfold State.deliver at *; grind [State.arrive_kept, State.kept]

theorem State.collect_kept (s : State) (mine : Msg → Bool) : (State.collect s mine).2.kept = s.kept := by
  unfold State.collect
  split
  · rfl
  · exact foldl_kept _ (fun s m => State.deliver_kept s m) _ s

theorem State.settle_kept (s : State) (n : ℕ) (x2 : ℕ) : (State.settle s n x2).kept = s.kept := by
  induction x2 generalizing s with
  | zero => first | rfl | simp [State.settle]
  | succ k ih =>
    unfold State.settle
    split
    · rfl
    · rw [ih, State.deliver_kept]

theorem State.progress_kept (s : State) (n : ℕ) : (State.progress s n).kept = s.kept := by
  unfold State.progress
  rw [State.settle_kept]
  exact foldl_kept _ (fun s e => by split <;> simp [State.quadGo_kept]) _ s

theorem State.askHome_kept (s : State) (m : Msg) :
    (State.askHome s m).kept = s.kept := by
  intros; unfold State.askHome at *; grind [State.progress_kept, State.send_kept]

theorem State.l2Get_kept (s : State) (q : ℕ) (n : ℕ) (cls : ℕ) (own : Bool) :
    (State.l2Get s q n cls own).2.kept = s.kept := by
  intros; unfold State.l2Get at *; grind [State.reclaim_kept, State.updL2_kept, State.askHome_kept, State.quadGo_kept]

theorem State.missEvents_kept (s : State) (c : Fin 64) (q : ℕ) (n : ℕ) : (State.missEvents s c q n).kept = s.kept := by
  intros; unfold State.missEvents at *; grind [State.event_kept]

theorem State.l1dGet_kept (s : State) (c : Fin 64) (n : ℕ) (l : Level) (own : Bool) :
    (State.l1dGet s c n l own).2.kept = s.kept := by
  intros; unfold State.l1dGet at *; grind [State.missEvents_kept, State.event_kept, State.l2Get_kept,
      State.l1dDrop_kept, State.l1dDown_kept, State.updCore_kept, State.l1dEvict_kept, State.updL2_kept,
      foldl_kept, State.l1dTake_kept]

theorem State.l1dWrite_kept (s : State) (c : Fin 64) (n : ℕ) (d : BitVec 512) (mask : BitVec 64) :
    (State.l1dWrite s c n d mask).kept = s.kept := by
  intros; unfold State.l1dWrite at *; grind [State.updCore_kept, State.updL2_kept]

theorem State.l2Read_kept (s : State) (q : ℕ) (n : ℕ) (cls : ℕ) (pid : BitVec 29) :
    (State.l2Read s q n cls pid).2.kept = s.kept := by
  intros; unfold State.l2Read at *; grind [State.l2Get_kept, State.addrErr_kept]

theorem State.ucAsk_kept (s : State) (m : Msg) :
    (State.ucAsk s m).kept = s.kept := by
  intros; unfold State.ucAsk at *; grind [State.progress_kept, State.send_kept]

theorem State.ucRead_kept (s : State) (who : ℕ) (n : ℕ) (cls : ℕ) (core : ℕ) (pid : BitVec 29) :
    (State.ucRead s who n cls core pid).2.kept = s.kept := by
  intros; unfold State.ucRead at *; grind [State.addrErr_kept, State.ucAsk_kept, State.collect_kept]

theorem State.ucWrite_kept (s : State) (who : ℕ) (n : ℕ) (d : BitVec 512) (mask : BitVec 64) (poison : Bool) (cls :
    ℕ) (core : ℕ) (pid : BitVec 29) (sent : Bool) :
    (State.ucWrite s who n d mask poison cls core pid sent).2.kept = s.kept := by
  intros; unfold State.ucWrite at *; grind [State.progress_kept, State.addrErr_kept, State.ucAsk_kept,
      State.collect_kept]

theorem State.forsakeWalk_kept (s : State) (c : Fin 64) (p : Msg → Bool) :
    (State.forsakeWalk s c p).kept = s.kept := by
  intros; unfold State.forsakeWalk at *; grind [State.kept]

theorem State.ucCas_kept (s : State) (c : Fin 64) (n cls : ℕ) (old : BitVec 512) (new : BitVec 512) (mask : BitVec 64)
    (pid : BitVec 29) :
    (State.ucCas s c n cls old new mask pid).2.kept = s.kept := by
  intros; unfold State.ucCas at *; grind [State.addrErr_kept, State.ucAsk_kept, State.collect_kept,
      State.forsakeWalk_kept]

theorem State.forsake_kept (s : State) (c : Fin 64) :
    (State.forsake s c).kept = s.kept := by
  intros; unfold State.forsake at *; grind [State.kept]

theorem State.endHolds_kept (s : State) (block : ℕ) :
    (State.endHolds s block).kept = s.kept := by
  intros; unfold State.endHolds at *; grind [State.updCore_kept, foldl_kept]

theorem State.mramVerify_kept (s : State) (die : ℕ) (wrong : ℕ × ℕ × ℕ) : (State.mramVerify s die wrong).kept = s.kept := by
  unfold State.mramVerify
  split
  · rfl
  · simp only [State.homesGo_kept, State.answerProbes_kept]
    grind [State.logMr_kept, State.countFld_kept, State.mramRemap_kept, foldl_kept, State.kept, State.homesGo_kept]

theorem State.mramStep_kept (s : State) (die : ℕ) : (State.mramStep s die).kept = s.kept := by
  intros; unfold State.mramStep at *; grind [State.mramVerify_kept, State.fresh_kept]

theorem State.mramSteps_kept (s : State) (die fuel : ℕ) : (State.mramSteps s die fuel).kept = s.kept := by
  induction fuel generalizing s with
  | zero => rfl
  | succ k ih => unfold State.mramSteps; split <;> simp [ih, State.mramStep_kept]

theorem State.mramAll_kept (s : State) : (State.mramAll s).kept = s.kept :=
  foldl_kept _ (fun s die => State.mramSteps_kept s die _) _ s

theorem State.waitOn_kept (s : State) (n : ℕ) : (State.waitOn s n).kept = s.kept := by
  intros; unfold State.waitOn at *; grind [State.progress_kept, State.mramStep_kept, State.endHolds_kept, foldl_kept]

theorem State.agentRead_kept (s : State) (who n : ℕ) (pid : BitVec 29) (fuel : ℕ) :
    (State.agentRead s who n pid fuel).2.kept = s.kept := by
  induction fuel generalizing s with
  | zero => exact State.ucRead_kept ..
  | succ k ih =>
    unfold State.agentRead
    have h := State.ucRead_kept s who n 7 65 pid
    split
    · rw [ih, State.waitOn_kept, ← h]; simp_all
    · exact h

theorem State.agentWrite_kept (s : State) (who n : ℕ) (d : BitVec 512) (mask : BitVec 64) (poison : Bool) (pid : BitVec 29)
    (fuel : ℕ) : (State.agentWrite s who n d mask poison pid fuel).2.kept = s.kept := by
  induction fuel generalizing s with
  | zero => exact State.ucWrite_kept ..
  | succ k ih =>
    unfold State.agentWrite
    have h := State.ucWrite_kept s who n d mask poison 7 65 pid false
    split
    · rw [ih, State.waitOn_kept, ← h]; simp_all
    · exact h

theorem State.cleanOnce_kept (s : State) (who n : ℕ) (pid : BitVec 29) : (State.cleanOnce s who n pid).2.kept = s.kept := by
  intros; unfold State.cleanOnce at *; grind [State.addrErr_kept, State.ucAsk_kept, State.collect_kept]

theorem State.agentClean_kept (s : State) (who n : ℕ) (pid : BitVec 29) (fuel : ℕ) :
    (State.agentClean s who n pid fuel).2.kept = s.kept := by
  induction fuel generalizing s with
  | zero => exact State.cleanOnce_kept ..
  | succ k ih =>
    unfold State.agentClean
    have h := State.cleanOnce_kept s who n pid
    split
    · rw [ih, State.waitOn_kept, ← h]; simp_all
    · exact h

theorem State.ownNow_kept (s : State) (kind : MsgKind) (sec : ℕ) :
    (State.ownNow s kind sec).kept = s.kept := by
  intros; unfold State.ownNow at *; grind [State.progress_kept, State.endHolds_kept, State.homeRequest_kept,
      State.mramSteps_kept]

theorem State.l3Evict_kept (s : State) (h : ℕ) (f : ℕ) : (State.l3Evict s h f).kept = s.kept := by
  intros; unfold State.l3Evict at *; grind [State.ownNow_kept]

theorem State.reclaimSec_kept (s : State) (n : ℕ) :
    (State.reclaimSec s n).kept = s.kept := by
  intros; unfold State.reclaimSec at *; grind [State.writeBack_kept, State.answerProbes_kept, State.countFld_kept,
      State.updL3_kept, State.kept, State.ownNow_kept]

theorem State.l2EvictNow_kept (s : State) (q : ℕ) (f : ℕ) :
    (State.l2EvictNow s q f).kept = s.kept := by
  intros; unfold State.l2EvictNow at *; grind [State.progress_kept, State.endHolds_kept, State.l2Evict_kept]

end Sys2Proof.Machine
end

