-- ==== Sys2Proof/Laws/KeptTranslate.lean ====
section
/-! SUPPORT. What the operations of Machine/Translate leave alone. -/

set_option Elab.async false
set_option linter.unusedVariables false
set_option linter.unusedTactic false
set_option linter.unreachableTactic false

namespace Sys2Proof.Machine

theorem Walk.read_kept (w : Walk) (c : Fin 64) (x : Ctx) (pa : ℕ) (size : ℕ) (hs : Bool) (tread : Bool) (gpa : ℕ)
    (lvl : ℕ) : (Walk.read w c x pa size hs tread gpa lvl).2.s.kept = w.s.kept := by
  intros; unfold Walk.read at *; grind [State.l2Read_kept, State.event_kept]

theorem State.setPteBits_kept (s : State) (c : Fin 64) (l : Level) (pa : ℕ) (old : ℕ) (new : ℕ) :
    (State.setPteBits s c l pa old new).2.kept = s.kept := by
  intros; unfold State.setPteBits at *; grind [State.event_kept, State.ucWrite_kept, State.ucCas_kept]

theorem Walk.mark_s (w : Walk) (pa old new : ℕ) : (w.mark pa old new).s = w.s := by
  unfold Walk.mark; split <;> rfl

theorem Walk.mark_kept (w : Walk) (pa : ℕ) (old : ℕ) (new : ℕ) :
    (Walk.mark w pa old new).s.kept = w.s.kept := by
  intros; unfold Walk.mark at *; grind

theorem State.setMarks_kept (c : Fin 64) (l : Level) (ms : List (ℕ × ℕ × ℕ)) (s : State) :
    (s.setMarks c l ms).2.kept = s.kept := by
  induction ms generalizing s with
  | nil => exact State.forsakeWalk_kept ..
  | cons m ms ih =>
    unfold State.setMarks
    split
    · rw [ih]; grind [State.setPteBits_kept, State.forsakeWalk_kept]
    · grind [State.setPteBits_kept]

theorem hWalk_kept (c : Fin 64) (x : Ctx) (gpa : ℕ) (y : HWhy) (quiet : Bool) (table : ℕ) (x6 : ℕ) (x7 : Walk) :
    (hWalk c x gpa y quiet table x6 x7).2.s.kept = x7.s.kept := by
  induction x6 generalizing table x7 with
  | zero => first | rfl | simp [hWalk]
  | succ k ih =>
    unfold hWalk; dsimp only; split
    · grind [Walk.read_kept]
    · grind [Walk.read_kept]
    · rename_i p w1 h1
      have e1 : w1.s.kept = x7.s.kept := by grind [Walk.read_kept]
      iterate 2 (split; · exact e1)
      split
      · rw [ih]; exact e1
      · iterate 3 (split; · exact e1)
        simpa [Walk.mark_s] using e1

theorem stage2_kept (c : Fin 64) (x : Ctx) (gpa : ℕ) (y : HWhy) (quiet : Bool) (caches : Bool) (w : Walk) :
    (stage2 c x gpa y quiet caches w).2.s.kept = w.s.kept := by
  intros; unfold stage2 at *; grind [hWalk_kept, State.event_kept]

theorem Walk.noteDram_kept (w : Walk) (pa : ℕ) (gpa : ℕ) (desc : Bool) (lvl : ℕ) :
    (Walk.noteDram w pa gpa desc lvl).s.kept = w.s.kept := by
  intros; unfold Walk.noteDram at *; grind

theorem updateOk_kept (c : Fin 64) (x : Ctx) (gpa : ℕ) (h : HLeaf) (quiet : Bool) (caches : Bool) (w : Walk) :
    (updateOk c x gpa h quiet caches w).2.s.kept = w.s.kept := by
  intros; unfold updateOk at *; grind [stage2_kept, Walk.mark_kept]

theorem walk1_kept (c : Fin 64) (x : Ctx) (la : ℕ) (a : Acc) (d : Desc) (quiet : Bool) (caches : Bool) (table : ℕ)
    (x8 : ℕ) (x9 : Walk) : (walk1 c x la a d quiet caches table x8 x9).2.s.kept = x9.s.kept := by
  induction x8 generalizing table x9 with
  | zero => first | rfl | simp [walk1]
  | succ k ih =>
    unfold walk1; dsimp only; split
    · grind [stage2_kept]
    · grind [stage2_kept]
    · rename_i p w1 h1
      have e1 : w1.s.kept = x9.s.kept := by grind [stage2_kept]
      split
      · grind [Walk.read_kept]
      · grind [Walk.read_kept]
      · rename_i p w2 h2
        have e2 : ∀ a b c d,
            (w2.noteDram a b c d).s.kept = x9.s.kept := fun a b c d => (Walk.noteDram_kept _ _ _ _ _).trans (by grind [Walk.read_kept])
        refine ite_w (e2 _ _ _ _) (ite_w (e2 _ _ _ _) (ite_w ?_ (ite_w (e2 _ _ _ _) (ite_w (e2 _ _ _ _) (ite_w (e2 _ _ _ _) ?_)))))
        · rw [ih]; exact e2 _ _ _ _
        · split
          · grind [stage2_kept]
          · grind [stage2_kept]
          · rename_i w3 h3
            have e3 : w3.s.kept = x9.s.kept := by grind [stage2_kept]
            split
            · rename_i w4 h4
              have e4 : w4.s.kept = w3.s.kept := by revert h4; split <;> grind [updateOk_kept]
              grind
            · rename_i w4 h4
              have e4 : w4.s.kept = w3.s.kept := by revert h4; split <;> grind [updateOk_kept]
              grind
            · rename_i w4 h4
              have e4 : w4.s.kept = w3.s.kept := by revert h4; split <;> grind [updateOk_kept]
              grind [Walk.mark_s]

theorem getDesc_kept (c : Fin 64) (x : Ctx) (seg : ℕ) (quiet : Bool) (caches : Bool) (w : Walk) :
    (getDesc c x seg quiet caches w).2.s.kept = w.s.kept := by
  intros; unfold getDesc at *; grind [State.event_kept, stage2_kept, Walk.read_kept, Walk.noteDram_kept]

theorem Walk.install_kept (w : Walk) (c : Fin 64) (a : Acc) (toTlb : Bool) :
    (Walk.install w c a toTlb).kept = w.s.kept := by
  intros; unfold Walk.install at *; grind [State.updCore_kept, foldl_kept]

theorem translateOnce_kept (c : Fin 64) (x : Ctx) (ea : Word) (a : Acc) (must quiet : Bool) (caches : Bool) (s : State) :
    (translateOnce c x ea a must quiet caches s).2.2.kept = s.kept := by
  unfold translateOnce; dsimp only; split
  · rfl
  · split
    · rfl
    · split
      · grind [getDesc_kept, State.event_kept, walk1_kept, Walk.install_kept, State.setMarks_kept]
      · grind [getDesc_kept, State.event_kept, walk1_kept, Walk.install_kept]
      · rename_i w1 h1
        have e1 : w1.s.kept = s.kept := by grind [getDesc_kept, State.event_kept, walk1_kept, Walk.install_kept]
        split
        · grind
        · split
          · grind [getDesc_kept, State.event_kept, walk1_kept, Walk.install_kept]
          · grind [getDesc_kept, State.event_kept, walk1_kept, Walk.install_kept]
          · rename_i w2 h2
            have e2 : w2.s.kept = w1.s.kept := by grind [getDesc_kept, State.event_kept, walk1_kept,
                Walk.install_kept]
            have e3 : ∀ (p : Option Bool × State) (q : Prop) [Decidable q] (ms : List (ℕ × ℕ × ℕ)),
                (if q then (some true, w2.s) else w2.s.setMarks c x.lvl ms) = p → p.2.kept = s.kept := by
              rintro p q _ ms rfl; split
              · exact e2.trans e1
              · exact (State.setMarks_kept _ _ _ _).trans (e2.trans e1)
            split
            · rename_i h3; exact e3 _ _ _ h3
            · rename_i h3; exact e3 _ _ _ h3
            · rename_i h3
              split
              · exact e3 _ _ _ h3
              · exact (Walk.install_kept _ _ _ _).trans (e3 _ _ _ h3)

/-- The walk that a translation hands back was walked from its state. -/
theorem translateOnce_walk (c : Fin 64) (x : Ctx) (ea : Word) (a : Acc) (must quiet : Bool) (caches : Bool) (s : State) :
    (translateOnce c x ea a must quiet caches s).2.1.s.kept = s.kept := by
  unfold translateOnce; dsimp only; split
  · rfl
  · split
    · rfl
    · split
      · grind [getDesc_kept]
      · grind [getDesc_kept]
      · rename_i w1 h1
        have e1 : w1.s.kept = s.kept := by grind [getDesc_kept]
        split
        · exact e1
        · split
          · grind [State.event_kept, walk1_kept]
          · grind [State.event_kept, walk1_kept]
          · rename_i w2 h2
            have e2 : w2.s.kept = w1.s.kept := by grind [State.event_kept, walk1_kept]
            split
            · exact e2.trans e1
            · exact e2.trans e1
            · split <;> exact e2.trans e1

theorem translateTwice_kept (c : Fin 64) (x : Ctx) (ea : Word) (a : Acc) (must : Bool) (quiet : Bool) (caches :
    Bool) (s : State) :
    (translateTwice c x ea a must quiet caches s).2.2.kept = s.kept := by
  intros; unfold translateTwice at *; grind [translateOnce_kept]

theorem translateFor_kept (c : Fin 64) (l : Level) (ea : Word) (a : Acc) (must quiet : Bool) (s : State) :
    (translateFor c l ea a must quiet s).2.kept = s.kept := by
  intros; unfold translateFor at *; grind [translateOnce_kept, State.event_kept, State.updCore_kept, foldl_kept,
      translateTwice_kept]

theorem translate_kept (c : Fin 64) (l : Level) (ea : Word) (a : Acc) (quiet : Bool) (s : State) :
    (translate c l ea a quiet s).2.kept = s.kept := by
  exact translateFor_kept _ _ _ _ _ _ _

end Sys2Proof.Machine
end

