-- ==== Sys2Proof/Laws/KeptTraceOps.lean ====
section
/-! SUPPORT. What the operations of Machine/TraceOps leave alone. -/

set_option Elab.async false
set_option linter.unusedVariables false
set_option linter.unusedTactic false
set_option linter.unreachableTactic false

namespace Sys2Proof.Machine

theorem State.updTrace_kept (s : State) (c : Fin 64) (f : Tracer → Tracer) : (State.updTrace s c f).kept = s.kept := by
  intros; unfold State.updTrace at *; grind [State.updCore_kept]

theorem State.tracePre_kept (s : State) (c : Fin 64) : (State.tracePre s c).2.kept = s.kept := by
  intros; unfold State.tracePre at *; grind [State.updCore_kept, State.updTrace_kept]

theorem State.traceBr_kept (s : State) (c : Fin 64) (taken : Bool) : (State.traceBr s c taken).kept = s.kept := by
  intros; unfold State.traceBr at *; grind [State.tracePre_kept, State.updTrace_kept]

theorem State.traceInd_kept (s : State) (c : Fin 64) (target : Word) : (State.traceInd s c target).kept = s.kept := by
  intros; unfold State.traceInd at *; grind [State.tracePre_kept, State.updTrace_kept]

theorem State.traceExc_kept (s : State) (c : Fin 64) (cause : ℕ) (before : Level) (after : Level) (pc : Word)
    (handler : Word) : (State.traceExc s c cause before after pc handler).kept = s.kept := by
  intros; unfold State.traceExc at *; grind [State.updTrace_kept]

theorem State.traceMem_kept (s : State) (c : Fin 64) (store : Bool) (ea : Word) (size : ℕ) (v : Word) :
    (State.traceMem s c store ea size v).kept = s.kept := by
  intros; unfold State.traceMem at *; grind [State.updTrace_kept, State.tracePre_kept]

theorem State.seqEval_kept (s : State) (c : Fin 64) (h : BitVec 8) : (State.seqEval s c h).kept = s.kept := by
  intros; unfold State.seqEval at *; grind [State.updCore_kept, State.updTrace_kept]

theorem State.traceRetire_kept (s : State) (c : Fin 64) (pc : Word) : (State.traceRetire s c pc).kept = s.kept := by
  intros; unfold State.traceRetire at *; grind [State.tracePre_kept, State.updTrace_kept, State.seqEval_kept]

theorem State.seqEdge_kept (s : State) (c : Fin 64) (h : BitVec 8) :
    (State.seqEdge s c h).kept = s.kept := by
  intros; unfold State.seqEdge at *; grind [State.updTrace_kept, State.updCore_kept, State.seqEval_kept]

theorem State.traceFlush_kept (s : State) (c : Fin 64) : (State.traceFlush s c).kept = s.kept := by
  intros; unfold State.traceFlush at *; grind [State.updTrace_kept]

theorem State.traceFurl_kept (s : State) (c : Fin 64) : (State.traceFurl s c).kept = s.kept := by
  intros; unfold State.traceFurl at *; grind [State.updTrace_kept]

theorem State.traceGap_kept (s : State) (c : Fin 64) (gap : ℕ) : (State.traceGap s c gap).kept = s.kept := by
  intros; unfold State.traceGap at *; grind [State.updTrace_kept]

end Sys2Proof.Machine
end

