-- ==== Sys2Proof/Laws/KeptIrq.lean ====
section
/-! SUPPORT. What the operations of Machine/Irq leave alone. -/

set_option Elab.async false
set_option linter.unusedVariables false
set_option linter.unusedTactic false
set_option linter.unreachableTactic false

namespace Sys2Proof.Machine

theorem State.wakeCheck_kept (s : State) (c : Fin 64) : (State.wakeCheck s c).kept = s.kept := by
  intros; unfold State.wakeCheck at *; grind [State.updCore_kept]

theorem State.setPend_kept (s : State) (n : ℕ) (b : Bool) : (State.setPend s n b).kept = s.kept := by
  intros; unfold State.setPend at *; grind [State.setFld_kept]

theorem State.followLine_kept (s : State) (n : ℕ) : (State.followLine s n).kept = s.kept := by
  intros; unfold State.followLine at *; grind [State.setPend_kept]

theorem State.toCore_kept (s : State) (p : ℕ) (m : DistMsg) : (State.toCore s p m).kept = s.kept := by
  intros; unfold State.toCore at *; grind [State.kept]

theorem State.toDist_kept (s : State) (c : Fin 64) (m : DistMsg) : (State.toDist s c m).kept = s.kept := by
  intros; unfold State.toDist at *; grind [State.kept]

theorem State.reofferOne_kept (s : State) (p : ℕ) (virt : Bool) : (State.reofferOne s p virt).kept = s.kept := by
  intros; unfold State.reofferOne at *; grind [State.toCore_kept, State.kept]

theorem State.ringDoorbells_kept (s : State) : (State.ringDoorbells s).kept = s.kept := by
  intros; unfold State.ringDoorbells at *; grind [foldl_kept, State.kept]

theorem State.rechoose_kept (s : State) : (State.rechoose s).kept = s.kept := by
  intros; unfold State.rechoose at *; grind [State.ringDoorbells_kept, State.reofferOne_kept, foldl_kept]

theorem State.srcSet_kept (s : State) (n : ℕ) : (State.srcSet s n).kept = s.kept := by
  intros; unfold State.srcSet at *; grind [State.rechoose_kept, State.setPend_kept]

theorem State.srcDeact_kept (s : State) (n : ℕ) : (State.srcDeact s n).kept = s.kept := by
  intros; unfold State.srcDeact at *; grind [State.rechoose_kept, State.followLine_kept, State.setFld_kept]

theorem State.srcUnpend_kept (s : State) (n : ℕ) : (State.srcUnpend s n).kept = s.kept := by
  intros; unfold State.srcUnpend at *; grind [State.rechoose_kept, State.followLine_kept, State.setPend_kept]

theorem State.srcLine_kept (s : State) (n : ℕ) (lv : Bool) : (State.srcLine s n lv).kept = s.kept := by
  intros; unfold State.srcLine at *; grind [State.setFld_kept, State.followLine_kept, State.setPend_kept,
      State.rechoose_kept]

theorem State.popToCore_kept (s : State) (p : ℕ) (m : DistMsg) : (State.popToCore s p m).kept = s.kept := by
  intros; unfold State.popToCore at *; grind [State.kept]

theorem State.popToDist_kept (s : State) (p : ℕ) (m : DistMsg) : (State.popToDist s p m).kept = s.kept := by
  intros; unfold State.popToDist at *; grind [State.kept]

theorem State.declineStale_kept (s : State) (c : Fin 64) : (State.declineStale s c).kept = s.kept := by
  intros; unfold State.declineStale at *; grind [State.toDist_kept, State.updCore_kept]

theorem State.sendResidency_kept (s : State) (c : Fin 64) : (State.sendResidency s c).kept = s.kept := by
  intros; unfold State.sendResidency at *; grind [State.declineStale_kept, State.toDist_kept]

theorem State.offerArrives_kept (s : State) (c : Fin 64) (virt : Bool) (o : Offer) :
    (State.offerArrives s c virt o).kept = s.kept := by
  intros; unfold State.offerArrives at *; grind [State.wakeCheck_kept, State.declineStale_kept, State.updCore_kept]

theorem State.withdrawArrives_kept (s : State) (c : Fin 64) (virt : Bool) :
    (State.withdrawArrives s c virt).kept = s.kept := by
  intros; unfold State.withdrawArrives at *; grind [State.updCore_kept]

theorem State.acceptArrives_kept (s : State) (n : ℕ) :
    (State.acceptArrives s n).kept = s.kept := by
  intros; unfold State.acceptArrives at *; grind [State.rechoose_kept, State.setPend_kept, State.setFld_kept,
      State.kept]

theorem State.declineArrives_kept (s : State) (p : ℕ) (n : ℕ) :
    (State.declineArrives s p n).kept = s.kept := by
  intros; unfold State.declineArrives at *; grind [State.rechoose_kept, State.kept]

theorem State.eoiArrives_kept (s : State) (virt : Bool) (vmid : ℕ) (n : ℕ) :
    (State.eoiArrives s virt vmid n).kept = s.kept := by
  intros; unfold State.eoiArrives at *; grind [State.srcDeact_kept]

theorem State.residencyArrives_kept (s : State) (p : ℕ) (v : Option ℕ) : (State.residencyArrives s p v).kept = s.kept := by
  intros; unfold State.residencyArrives at *; grind [State.rechoose_kept, State.kept]

theorem State.distTake_kept (s : State) (p : ℕ) (x2 : DistMsg) :
    (State.distTake s p x2).kept = s.kept := by
  intros; unfold State.distTake at *; grind [State.acceptArrives_kept, State.declineArrives_kept,
      State.eoiArrives_kept, State.residencyArrives_kept]

theorem State.coreTake_kept (s : State) (c : Fin 64) (x2 : DistMsg) :
    (State.coreTake s c x2).kept = s.kept := by
  intros; unfold State.coreTake at *; grind [State.offerArrives_kept, State.withdrawArrives_kept]

theorem State.distActed_kept (s : State) (p : ℕ) :
    (State.distActed s p).kept = s.kept := by
  intros; unfold State.distActed at *; grind [State.kept]

theorem State.distFlush_kept (s : State) (p : ℕ) (n : ℕ) : (State.distFlush s p n).kept = s.kept := by
  induction n generalizing s with
  | zero => rfl
  | succ k ih =>
    unfold State.distFlush
    split
    · split
      · rw [ih, State.distTake_kept, State.popToDist_kept]
      · rfl
    · rfl

theorem State.coreFlush_kept (s : State) (c : Fin 64) :
    (State.coreFlush s c).kept = s.kept := by
  intros; unfold State.coreFlush at *; grind [State.coreTake_kept, foldl_kept, State.kept]

theorem State.takeOffer_kept (s : State) (c : Fin 64) (virt : Bool) : (State.takeOffer s c virt).kept = s.kept := by
  intros; unfold State.takeOffer at *; grind [State.toDist_kept, State.setCore_kept]

theorem State.coreEoi_kept (s : State) (c : Fin 64) (virt : Bool) (n : ℕ) : (State.coreEoi s c virt n).kept = s.kept := by
  intros; unfold State.coreEoi at *; grind [State.updCore_kept, State.toDist_kept]

end Sys2Proof.Machine
end

