-- ==== Sys2Proof/Laws/KeptExec.lean ====
section
/-! SUPPORT. What the operations of Machine/Exec leave alone. -/

set_option Elab.async false
set_option linter.unusedVariables false
set_option linter.unusedTactic false
set_option linter.unreachableTactic false

namespace Sys2Proof.Machine

theorem State.openMram_kept (s : State) (c : Fin 64) (pa : ℕ) : (State.openMram s c pa).kept = s.kept := by
  intros; unfold State.openMram at *; grind [State.updCore_kept]

theorem State.storeWrite_kept (s : State) (c : Fin 64) (e : StoreEntry) :
    (State.storeWrite s c e).kept = s.kept := by
  intros; unfold State.storeWrite at *; grind [State.openMram_kept, State.l1dWrite_kept, State.updCore_kept]

theorem State.holdStore_kept (s : State) (c : Fin 64) (n : ℕ) :
    (State.holdStore s c n).kept = s.kept := by
  intros; unfold State.holdStore at *; grind [State.updCore_kept]

theorem State.zlineAsk_kept (s : State) (c : Fin 64) (e : StoreEntry) :
    (State.zlineAsk s c e).2.kept = s.kept := by
  intros; unfold State.zlineAsk at *; grind [State.reclaim_kept, State.askHome_kept]

theorem State.storeCached_kept (s : State) (c : Fin 64) (e : StoreEntry) : (State.storeCached s c e).2.kept = s.kept := by
  intros; unfold State.storeCached at *; grind [State.event_kept, State.settle_kept, State.send_kept,
      State.reclaim_kept, State.l1dGet_kept, State.openMram_kept, State.l1dWrite_kept, State.updCore_kept,
      State.storeWrite_kept, State.zlineAsk_kept, State.holdStore_kept, State.addrErr_kept]

theorem State.headSend_kept (s : State) (c : Fin 64) (e : StoreEntry) :
    (State.headSend s c e).kept = s.kept := by
  intros; unfold State.headSend at *; grind [State.ucAsk_kept, State.updCore_kept]

theorem State.headAck_kept (s : State) (c : Fin 64) (e : StoreEntry) :
    (State.headAck s c e).2.kept = s.kept := by
  intros; unfold State.headAck at *; grind [State.ucWrite_kept, State.openMram_kept, State.event_kept,
      State.updCore_kept]

theorem State.drainHead_kept (s : State) (c : Fin 64) : (State.drainHead s c).2.kept = s.kept := by
  intros; unfold State.drainHead at *; grind [State.event_kept, State.updCore_kept, State.ucWrite_kept,
      State.openMram_kept, State.storeCached_kept, State.headAck_kept, State.headSend_kept]

theorem State.drainN_kept (s : State) (c : Fin 64) (x2 : ℕ) : (State.drainN s c x2).2.kept = s.kept := by
  induction x2 generalizing s with
  | zero => first | rfl | simp [State.drainN]
  | succ k ih =>
    unfold State.drainN
    split <;> grind [State.drainHead_kept]

theorem State.drainAll_kept (s : State) (c : Fin 64) : (State.drainAll s c).2.kept = s.kept := by
  intros; unfold State.drainAll at *; grind [State.drainN_kept]

theorem State.drainFrameN_kept (s : State) (c : Fin 64) (x2 : ℕ) : (State.drainFrameN s c x2).2.kept = s.kept := by
  induction x2 generalizing s with
  | zero => first | rfl | simp [State.drainFrameN]
  | succ k ih =>
    unfold State.drainFrameN
    split
    · rfl
    · split <;> grind [State.storeCached_kept, State.updCore_kept]

theorem State.drainFrame_kept (s : State) (c : Fin 64) : (State.drainFrame s c).2.kept = s.kept := by
  intros; unfold State.drainFrame at *; grind [State.drainAll_kept, State.drainFrameN_kept]

theorem State.drainBuffers_kept (s : State) (c : Fin 64) :
    (State.drainBuffers s c).2.kept = s.kept := by
  intros; unfold State.drainBuffers at *; grind [State.drainAll_kept, State.drainFrame_kept, State.kept]

theorem State.drainOver_kept (s : State) (c : Fin 64) (pa n : ℕ) : (State.drainOver s c pa n).2.kept = s.kept := by
  intros; unfold State.drainOver at *; grind [State.drainAll_kept, State.drainFrameN_kept, State.drainN_kept]

theorem State.pushStore_kept (s : State) (c : Fin 64) (es : List StoreEntry) :
    (State.pushStore s c es).2.kept = s.kept := by
  intros; unfold State.pushStore at *; grind [State.drainFrame_kept, State.drainN_kept, State.updCore_kept]

theorem State.pfSweep_kept (s : State) (c : Fin 64) :
    (State.pfSweep s c).kept = s.kept := by
  intros; unfold State.pfSweep at *; grind [State.updCore_kept, foldl_kept]

theorem State.prefetch_kept (s : State) (c : Fin 64) (l : Level) (n : ℕ) (own : Bool) :
    (State.prefetch s c l n own).2.kept = s.kept := by
  intros; unfold State.prefetch at *; grind [State.pfSweep_kept, State.l1dGet_kept, State.updCore_kept,
      State.addrErr_kept]

theorem State.nextSector_kept (s : State) (c : Fin 64) (l : Level) (n : ℕ) :
    (State.nextSector s c l n).kept = s.kept := by
  intros; unfold State.nextSector at *; grind [State.prefetch_kept, State.event_kept]

theorem State.missWait_kept (s : State) (c : Fin 64) :
    (State.missWait s c).2.kept = s.kept := by
  intros; unfold State.missWait at *; grind [State.fillSlots_kept, State.settle_kept, State.updCore_kept,
      State.progress_kept]

theorem State.gotSec_kept (s : State) (c : Fin 64) (d : BitVec 512) (poison : Bool) (off : ℕ) (n : ℕ) :
    (State.gotSec s c d poison off n).2.kept = s.kept := by
  intros; unfold State.gotSec at *; grind [State.event_kept]

theorem State.loadCached_kept (s : State) (c : Fin 64) (l : Level) (pa : ℕ) (n : ℕ) :
    (State.loadCached s c l pa n).2.kept = s.kept := by
  intros; unfold State.loadCached at *; grind [State.gotSec_kept, State.missWait_kept, State.event_kept,
      State.l1dGet_kept, State.nextSector_kept, State.updCore_kept, State.addrErr_kept]

theorem State.loadBytes.rest_kept (c : Fin 64) (l : Level) (t : Xlat) (n : ℕ) (s : State) (ov : List StoreEntry) :
    (State.loadBytes.rest c l t n s ov).2.kept = s.kept := by
  intros; unfold State.loadBytes.rest at *; grind [State.drainOver_kept, State.event_kept,
      State.l1dGet_kept, State.ucRead_kept, State.loadCached_kept, State.gotSec_kept]

theorem State.loadBytes_kept (s : State) (c : Fin 64) (l : Level) (t : Xlat) (n : ℕ) (fwd : Bool) :
    (State.loadBytes s c l t n fwd).2.kept = s.kept := by
  intros; unfold State.loadBytes at *; grind [State.event_kept, State.loadBytes.rest_kept, State.drainOver_kept,
      State.loadCached_kept, State.ucRead_kept, State.gotSec_kept]

theorem State.checkParts_kept (s : State) (c : Fin 64) (l : Level) (ea : Word) (size : ℕ) (a : Acc) (split : Bool)
    (x7 : List (Word × ℕ)) (x8 : Bool) (x9 : List (Xlat × ℕ)) :
    (State.checkParts s c l ea size a split x7 x8 x9).2.kept = s.kept := by
  induction x7 generalizing s x8 x9 with
  | nil => first | rfl | simp [State.checkParts]
  | cons y ys ih =>
    unfold State.checkParts
    dsimp only; split
    · rfl
    · split
      · grind [translate_kept]
      · grind [translate_kept]
      · split
        · grind [translate_kept]
        · rw [ih]; grind [translate_kept]

theorem State.checkAccess_kept (s : State) (c : Fin 64) (l : Level) (ea : Word) (size : ℕ) (a : Acc) :
    (State.checkAccess s c l ea size a).2.kept = s.kept := by
  intros; unfold State.checkAccess at *; grind [State.checkParts_kept]

theorem State.frameDw_kept (s : State) (c : Fin 64) (l : Level) (ea : Word) (a : Acc) :
    (State.frameDw s c l ea a).2.kept = s.kept := by
  intros; unfold State.frameDw at *; grind [translate_kept]

theorem State.readDw_kept (s : State) (c : Fin 64) (l : Level) (ea : Word) : (State.readDw s c l ea).2.kept = s.kept := by
  intros; unfold State.readDw at *; grind [translate_kept, State.loadBytes_kept]

theorem State.checkFrame_kept (s : State) (c : Fin 64) (l : Level) (ea : Word) (x4 : ℕ) (x5 : List ℕ) :
    (State.checkFrame s c l ea x4 x5).2.kept = s.kept := by
  induction x4 generalizing s ea x5 with
  | zero => first | rfl | simp [State.checkFrame]
  | succ k ih =>
    unfold State.checkFrame
    split <;> grind [State.frameDw_kept]

theorem State.checkEntry_kept (s : State) (c : Fin 64) (l : Level) (cause : ℕ) :
    (State.checkEntry s c l cause).2.kept = s.kept := by
  intros; unfold State.checkEntry at *; grind [State.checkFrame_kept, State.readDw_kept]

theorem State.finishEntry_kept (s : State) (c : Fin 64) (l : Level) (t : Trap) (info : Word) (plevel : Level)
    (pc : Word) (pas : List ℕ) (handler : Word) : (State.finishEntry s c l t info plevel pc pas handler).kept = s.kept := by
  intros; unfold State.finishEntry at *; grind [State.setCore_kept, State.traceExc_kept, State.event_kept,
      State.forsake_kept, State.kept, State.setReg_kept]

theorem State.doubleFault_kept (s : State) (c : Fin 64) (orig : ℕ) (reason : ℕ) (ea : Word) (plevel : Level) :
    (State.doubleFault s c orig reason ea plevel).kept = s.kept := by
  intros; unfold State.doubleFault at *; grind [State.report_kept, State.updCore_kept]

theorem State.enterH_kept (s : State) (c : Fin 64) (t : Trap) (info : Word) (plevel : Level) (pc : Word) :
    (State.enterH s c t info plevel pc).st.kept = s.kept := by
  intros; unfold State.enterH at *; grind [State.checkEntry_kept, State.doubleFault_kept, State.finishEntry_kept,
      TrapAns.st]

theorem State.enter_kept (s : State) (c : Fin 64) (l : Level) (t : Trap) (pc : Word) :
    (State.enter s c l t pc).st.kept = s.kept := by
  intros; unfold State.enter at *; grind [State.drainFrame_kept, State.enterH_kept, State.checkEntry_kept,
      State.finishEntry_kept, State.updCore_kept, TrapAns.st]

theorem State.residue_kept (s : State) (c : Fin 64) (unit : ℕ) : (State.residue s c unit).2.kept = s.kept := by
  intros; unfold State.residue at *; grind [State.count_kept, State.event_kept, State.setCore_kept,
      State.updCore_kept,
      State.report_kept]

theorem State.longEnd_kept (s : State) (c : Fin 64) :
    (State.longEnd s c).2.kept = s.kept := by
  intros; unfold State.longEnd at *; grind [State.residue_kept, State.updCore_kept]

theorem State.takeOwed_kept (s : State) (c : Fin 64) :
    (State.takeOwed s c).2.kept = s.kept := by
  intros; unfold State.takeOwed at *; grind [State.enter_kept, State.updCore_kept, TrapAns.st]

theorem State.longFinish_kept (s : State) (c : Fin 64) :
    (State.longFinish s c).2.kept = s.kept := by
  intros; unfold State.longFinish at *; grind [State.residue_kept, TrapAns.st, State.longEnd_kept,
      State.takeOwed_kept]

theorem State.l1iGet_kept (s : State) (c : Fin 64) (n : ℕ) (l : Level) : (State.l1iGet s c n l).2.kept = s.kept := by
  intros; unfold State.l1iGet at *; grind [State.event_kept, State.l2Get_kept, State.updCore_kept,
      State.fillSlots_kept, State.settle_kept, State.l1iTake_kept, State.progress_kept]

theorem State.fetchMem_kept (s : State) (c : Fin 64) (l : Level) (t : Xlat) :
    (State.fetchMem s c l t).2.kept = s.kept := by
  intros; unfold State.fetchMem at *; grind [State.l1iGet_kept, State.addrErr_kept, State.ucRead_kept]

theorem State.fetch_kept (s : State) (c : Fin 64) : (State.fetch s c).2.kept = s.kept := by
  intros; unfold State.fetch at *; grind [translate_kept, State.event_kept, State.l1iGet_kept, State.ucRead_kept,
      State.kept, State.addrErr_kept, State.fetchMem_kept]

theorem State.haltCheck_kept (s : State) (c : Fin 64) : (State.haltCheck s c).kept = s.kept := by
  intros; unfold State.haltCheck at *; grind [State.longFinish_kept, State.updCore_kept]

theorem State.trapNow_kept (s : State) (c : Fin 64) (t : Trap) (pc : Word) (done : Core → Core) :
    (State.trapNow s c t pc done).kept = s.kept := by
  intros; unfold State.trapNow at *; grind [State.enter_kept, State.haltCheck_kept, State.updCore_kept, TrapAns.st]

theorem State.raise_kept (s : State) (c : Fin 64) (t : Trap) (pc : Word) : (State.raise s c t pc).kept = s.kept := by
  intros; unfold State.raise at *; grind [State.longFinish_kept, State.enter_kept, State.haltCheck_kept,
      TrapAns.st, State.trapNow_kept]

theorem State.accepted_kept (s : State) (c : Fin 64) (cause : ℕ) :
    (State.accepted s c cause).kept = s.kept := by
  intros; unfold State.accepted at *; grind [State.takeOffer_kept, State.updTrace_kept]

theorem State.interrupt_kept (s : State) (c : Fin 64) :
    (State.interrupt s c).kept = s.kept := by
  unfold State.interrupt
  split
  · rfl
  · rename_i cause l h
    have e := State.enter_kept s c l { cause := cause } (s.core c).pc
    split <;> rename_i s1 h1 <;> rw [h1] at e
    · rw [State.haltCheck_kept, State.accepted_kept]; exact e
    · rw [State.haltCheck_kept]; exact e
    · exact e

theorem State.stepTrap_kept (s : State) (c : Fin 64) :
    (State.stepTrap s c).kept = s.kept := by
  intros; unfold State.stepTrap at *; grind [State.longFinish_kept, State.interrupt_kept, State.trapNow_kept]

theorem State.boundary_kept (s : State) (c : Fin 64) :
    (State.boundary s c).2.kept = s.kept := by
  intros; unfold State.boundary at *; grind [State.longEnd_kept, State.trapNow_kept, State.takeOwed_kept,
      State.stepTrap_kept, State.longFinish_kept, State.interrupt_kept]

theorem State.except_kept (s : State) (c : Fin 64) (t : Trap) (pc : Word) (before : State) (hb : before.kept = s.kept) :
    (State.except s c t pc before).kept = s.kept := by
  unfold State.except; grind [State.longFinish_kept, State.interrupt_kept, State.raise_kept]

theorem State.longClear_kept (s : State) (c : Fin 64) (n : Needs) : (State.longClear s c n).2.kept = s.kept := by
  unfold State.longClear; grind [State.longFinish_kept]

theorem State.residues_kept (s : State) (c : Fin 64) (x2 : List ℕ) : (State.residues s c x2).2.kept = s.kept := by
  induction x2 generalizing s with
  | nil => first | rfl | simp [State.residues]
  | cons y ys ih =>
    unfold State.residues
    split <;> grind [State.residue_kept]

theorem State.retire_kept (s : State) (c : Fin 64) (pc : Word) (npc : Word) (ss : Bool) (seq : Bool) :
    (State.retire s c pc npc ss seq).kept = s.kept := by
  intros; unfold State.retire at *; grind [State.event_kept, State.updCore_kept, State.traceRetire_kept,
      State.haltCheck_kept, State.stepTrap_kept, State.boundary_kept]

theorem State.loadHeld_kept (s : State) (c : Fin 64) :
    (State.loadHeld s c).2.kept = s.kept := by
  intros; unfold State.loadHeld at *; grind [State.missWait_kept]

theorem State.runInstr_kept (s : State) (c : Fin 64) (n : Needs) (body : State → Ex) (hb : ∀ u,
    (body u).st.kept = u.kept) : (State.runInstr s c n body).kept = s.kept := by
  unfold State.runInstr; dsimp only; split
  · rfl
  · split
    · grind [State.boundary_kept]
    · rename_i s1 h1
      have e1 : s1.kept = s.kept := by grind [State.boundary_kept]
      split
      · grind [State.loadHeld_kept]
      · rename_i s2 h2
        have e2 : s2.kept = s.kept := by grind [State.loadHeld_kept]
        split
        · grind [State.fetch_kept]
        · rw [State.except_kept]
          · grind [State.fetch_kept]
          · rfl
        · rename_i s3 h3
          have e3 : s3.kept = s.kept := by grind [State.fetch_kept]
          split
          · grind [State.longClear_kept]
          · rename_i s4 h4
            have e4 : s4.kept = s.kept := by grind [State.longClear_kept]
            split
            · grind [State.residues_kept]
            · rename_i s5 h5
              have e5 : s5.kept = s.kept := by grind [State.residues_kept]
              have e6 := hb s5
              split
              · grind [Ex.st]
              · rename_i t s6 h6
                rw [h6] at e6
                exact (State.except_kept _ _ _ _ _ e6.symm).trans (e6.trans e5)
              · rw [State.retire_kept]; grind [Ex.st]
              · rw [State.retire_kept]; grind [Ex.st]

theorem State.doneG_kept (s : State) (c : Fin 64) (rd : Fin 32) (v : Word) : (State.doneG s c rd v).st.kept = s.kept := by
  intros; unfold State.doneG at *; grind [State.updCore_kept, Ex.st]

theorem State.doneF_kept (s : State) (c : Fin 64) (fd : Fin 32) (v : Word) : (State.doneF s c fd v).st.kept = s.kept := by
  intros; unfold State.doneF at *; grind [State.updCore_kept, Ex.st]

end Sys2Proof.Machine
end

