-- ==== Sys2Proof/Laws/KeptInteger.lean ====
section
/-! SUPPORT. What the operations of Machine/Integer leave alone. -/

set_option Elab.async false
set_option linter.unusedVariables false
set_option linter.unusedTactic false
set_option linter.unreachableTactic false

namespace Sys2Proof.Machine

theorem State.opRR_kept (s : State) (c : Fin 64) (units : List ℕ) (rd : Fin 32) (ra : Fin 32) (rb : Fin 32)
    (f : Word → Word → Word) : (State.opRR s c units rd ra rb f).kept = s.kept := by
  intros; unfold State.opRR at *; grind [State.runInstr_kept, State.doneG_kept, Ex.st]

theorem State.opR_kept (s : State) (c : Fin 64) (units : List ℕ) (rd : Fin 32) (ra : Fin 32) (f : Word → Word) :
    (State.opR s c units rd ra f).kept = s.kept := by
  intros; unfold State.opR at *; grind [State.runInstr_kept, State.doneG_kept, Ex.st]

theorem State.opPc_kept (s : State) (c : Fin 64) (units : List ℕ) (rd : Fin 32) (f : Word → Word) :
    (State.opPc s c units rd f).kept = s.kept := by
  intros; unfold State.opPc at *; grind [State.runInstr_kept, State.doneG_kept, Ex.st]

theorem State.issueLong_kept (s : State) (c : Fin 64) (o : LongOp) : (State.issueLong s c o).st.kept = s.kept := by
  intros; unfold State.issueLong at *; grind [State.event_kept, State.updCore_kept, Ex.st]

theorem State.opDiv_kept (s : State) (c : Fin 64) (fn : ℕ) (rd : Fin 32) (ra : Fin 32) (rb : Fin 32)
    (zero : Word → Bool) (f : Word → Word → Word) : (State.opDiv s c fn rd ra rb zero f).kept = s.kept := by
  intros; unfold State.opDiv at *; grind [State.runInstr_kept, State.issueLong_kept, Ex.st]

theorem execAdd_kept (c : CoreId) (rd : RegNo) (ra : RegNo) (rb : RegNo) (s : State) : ∀ t₁,
    (execAdd c rd ra rb s) = .next t₁ → t₁.kept = s.kept := by
  intros; unfold execAdd at *; grind [State.opRR_kept, ok]

theorem execSub_kept (c : CoreId) (rd : RegNo) (ra : RegNo) (rb : RegNo) (s : State) : ∀ t₁,
    (execSub c rd ra rb s) = .next t₁ → t₁.kept = s.kept := by
  intros; unfold execSub at *; grind [State.opRR_kept, ok]

theorem execAnd_kept (c : CoreId) (rd : RegNo) (ra : RegNo) (rb : RegNo) (s : State) : ∀ t₁,
    (execAnd c rd ra rb s) = .next t₁ → t₁.kept = s.kept := by
  intros; unfold execAnd at *; grind [State.opRR_kept, ok]

theorem execOr_kept (c : CoreId) (rd : RegNo) (ra : RegNo) (rb : RegNo) (s : State) : ∀ t₁,
    (execOr c rd ra rb s) = .next t₁ → t₁.kept = s.kept := by
  intros; unfold execOr at *; grind [State.opRR_kept, ok]

theorem execXor_kept (c : CoreId) (rd : RegNo) (ra : RegNo) (rb : RegNo) (s : State) : ∀ t₁,
    (execXor c rd ra rb s) = .next t₁ → t₁.kept = s.kept := by
  intros; unfold execXor at *; grind [State.opRR_kept, ok]

theorem execSll_kept (c : CoreId) (rd : RegNo) (ra : RegNo) (rb : RegNo) (s : State) : ∀ t₁,
    (execSll c rd ra rb s) = .next t₁ → t₁.kept = s.kept := by
  intros; unfold execSll at *; grind [State.opRR_kept, ok]

theorem execSrl_kept (c : CoreId) (rd : RegNo) (ra : RegNo) (rb : RegNo) (s : State) : ∀ t₁,
    (execSrl c rd ra rb s) = .next t₁ → t₁.kept = s.kept := by
  intros; unfold execSrl at *; grind [State.opRR_kept, ok]

theorem execSra_kept (c : CoreId) (rd : RegNo) (ra : RegNo) (rb : RegNo) (s : State) : ∀ t₁,
    (execSra c rd ra rb s) = .next t₁ → t₁.kept = s.kept := by
  intros; unfold execSra at *; grind [State.opRR_kept, ok]

theorem execSlt_kept (c : CoreId) (rd : RegNo) (ra : RegNo) (rb : RegNo) (s : State) : ∀ t₁,
    (execSlt c rd ra rb s) = .next t₁ → t₁.kept = s.kept := by
  intros; unfold execSlt at *; grind [State.opRR_kept, ok]

theorem execSltu_kept (c : CoreId) (rd : RegNo) (ra : RegNo) (rb : RegNo) (s : State) : ∀ t₁,
    (execSltu c rd ra rb s) = .next t₁ → t₁.kept = s.kept := by
  intros; unfold execSltu at *; grind [State.opRR_kept, ok]

theorem execSeq_kept (c : CoreId) (rd : RegNo) (ra : RegNo) (rb : RegNo) (s : State) : ∀ t₁,
    (execSeq c rd ra rb s) = .next t₁ → t₁.kept = s.kept := by
  intros; unfold execSeq at *; grind [State.opRR_kept, ok]

theorem execSne_kept (c : CoreId) (rd : RegNo) (ra : RegNo) (rb : RegNo) (s : State) : ∀ t₁,
    (execSne c rd ra rb s) = .next t₁ → t₁.kept = s.kept := by
  intros; unfold execSne at *; grind [State.opRR_kept, ok]

theorem execMin_kept (c : CoreId) (rd : RegNo) (ra : RegNo) (rb : RegNo) (s : State) : ∀ t₁,
    (execMin c rd ra rb s) = .next t₁ → t₁.kept = s.kept := by
  intros; unfold execMin at *; grind [State.opRR_kept, ok]

theorem execMax_kept (c : CoreId) (rd : RegNo) (ra : RegNo) (rb : RegNo) (s : State) : ∀ t₁,
    (execMax c rd ra rb s) = .next t₁ → t₁.kept = s.kept := by
  intros; unfold execMax at *; grind [State.opRR_kept, ok]

theorem execMinu_kept (c : CoreId) (rd : RegNo) (ra : RegNo) (rb : RegNo) (s : State) : ∀ t₁,
    (execMinu c rd ra rb s) = .next t₁ → t₁.kept = s.kept := by
  intros; unfold execMinu at *; grind [State.opRR_kept, ok]

theorem execMaxu_kept (c : CoreId) (rd : RegNo) (ra : RegNo) (rb : RegNo) (s : State) : ∀ t₁,
    (execMaxu c rd ra rb s) = .next t₁ → t₁.kept = s.kept := by
  intros; unfold execMaxu at *; grind [State.opRR_kept, ok]

theorem execAddw_kept (c : CoreId) (rd : RegNo) (ra : RegNo) (rb : RegNo) (s : State) : ∀ t₁,
    (execAddw c rd ra rb s) = .next t₁ → t₁.kept = s.kept := by
  intros; unfold execAddw at *; grind [State.opRR_kept, ok]

theorem execSllw_kept (c : CoreId) (rd : RegNo) (ra : RegNo) (rb : RegNo) (s : State) : ∀ t₁,
    (execSllw c rd ra rb s) = .next t₁ → t₁.kept = s.kept := by
  intros; unfold execSllw at *; grind [State.opRR_kept, ok]

theorem execSrlw_kept (c : CoreId) (rd : RegNo) (ra : RegNo) (rb : RegNo) (s : State) : ∀ t₁,
    (execSrlw c rd ra rb s) = .next t₁ → t₁.kept = s.kept := by
  intros; unfold execSrlw at *; grind [State.opRR_kept, ok]

theorem execSraw_kept (c : CoreId) (rd : RegNo) (ra : RegNo) (rb : RegNo) (s : State) : ∀ t₁,
    (execSraw c rd ra rb s) = .next t₁ → t₁.kept = s.kept := by
  intros; unfold execSraw at *; grind [State.opRR_kept, ok]

theorem execClz_kept (c : CoreId) (rd : RegNo) (ra : RegNo) (s : State) : ∀ t₁,
    (execClz c rd ra s) = .next t₁ → t₁.kept = s.kept := by
  intros; unfold execClz at *; grind [State.opR_kept, ok]

theorem execCtz_kept (c : CoreId) (rd : RegNo) (ra : RegNo) (s : State) : ∀ t₁,
    (execCtz c rd ra s) = .next t₁ → t₁.kept = s.kept := by
  intros; unfold execCtz at *; grind [State.opR_kept, ok]

theorem execPopc_kept (c : CoreId) (rd : RegNo) (ra : RegNo) (s : State) : ∀ t₁,
    (execPopc c rd ra s) = .next t₁ → t₁.kept = s.kept := by
  intros; unfold execPopc at *; grind [State.opR_kept, ok]

theorem execSel_kept (c : CoreId) (rd : RegNo) (ra : RegNo) (rb : RegNo) (rc : RegNo) (s : State) : ∀ t₁,
    (execSel c rd ra rb rc s) = .next t₁ → t₁.kept = s.kept := by
  unfold execSel; apply arm_kept; apply State.runInstr_kept; intro u; grind [State.doneG_kept, Ex.st,
      State.runInstr_kept, ok]

theorem execAddi_kept (c : CoreId) (rd : RegNo) (ra : RegNo) (imm : BitVec 16) (s : State) : ∀ t₁,
    (execAddi c rd ra imm s) = .next t₁ → t₁.kept = s.kept := by
  intros; unfold execAddi at *; grind [State.opR_kept, ok]

theorem execAndi_kept (c : CoreId) (rd : RegNo) (ra : RegNo) (imm : BitVec 16) (s : State) : ∀ t₁,
    (execAndi c rd ra imm s) = .next t₁ → t₁.kept = s.kept := by
  intros; unfold execAndi at *; grind [State.opR_kept, ok]

theorem execOri_kept (c : CoreId) (rd : RegNo) (ra : RegNo) (imm : BitVec 16) (s : State) : ∀ t₁,
    (execOri c rd ra imm s) = .next t₁ → t₁.kept = s.kept := by
  intros; unfold execOri at *; grind [State.opR_kept, ok]

theorem execXori_kept (c : CoreId) (rd : RegNo) (ra : RegNo) (imm : BitVec 16) (s : State) : ∀ t₁,
    (execXori c rd ra imm s) = .next t₁ → t₁.kept = s.kept := by
  intros; unfold execXori at *; grind [State.opR_kept, ok]

theorem execSlti_kept (c : CoreId) (rd : RegNo) (ra : RegNo) (imm : BitVec 16) (s : State) : ∀ t₁,
    (execSlti c rd ra imm s) = .next t₁ → t₁.kept = s.kept := by
  intros; unfold execSlti at *; grind [State.opR_kept, ok]

theorem execSltiu_kept (c : CoreId) (rd : RegNo) (ra : RegNo) (imm : BitVec 16) (s : State) : ∀ t₁,
    (execSltiu c rd ra imm s) = .next t₁ → t₁.kept = s.kept := by
  intros; unfold execSltiu at *; grind [State.opR_kept, ok]

theorem execAddiw_kept (c : CoreId) (rd : RegNo) (ra : RegNo) (imm : BitVec 16) (s : State) : ∀ t₁,
    (execAddiw c rd ra imm s) = .next t₁ → t₁.kept = s.kept := by
  intros; unfold execAddiw at *; grind [State.opR_kept, ok]

theorem execLui_kept (c : CoreId) (rd : RegNo) (imm : BitVec 16) (s : State) : ∀ t₁,
    (execLui c rd imm s) = .next t₁ → t₁.kept = s.kept := by
  intros; unfold execLui at *; grind [State.opPc_kept, ok]

theorem execAuipc_kept (c : CoreId) (rd : RegNo) (imm : BitVec 16) (s : State) : ∀ t₁,
    (execAuipc c rd imm s) = .next t₁ → t₁.kept = s.kept := by
  intros; unfold execAuipc at *; grind [State.opPc_kept, ok]

theorem execSlli_kept (c : CoreId) (rd : RegNo) (ra : RegNo) (sh : BitVec 6) (s : State) : ∀ t₁,
    (execSlli c rd ra sh s) = .next t₁ → t₁.kept = s.kept := by
  intros; unfold execSlli at *; grind [State.opR_kept, ok]

theorem execSrli_kept (c : CoreId) (rd : RegNo) (ra : RegNo) (sh : BitVec 6) (s : State) : ∀ t₁,
    (execSrli c rd ra sh s) = .next t₁ → t₁.kept = s.kept := by
  intros; unfold execSrli at *; grind [State.opR_kept, ok]

theorem execSrai_kept (c : CoreId) (rd : RegNo) (ra : RegNo) (sh : BitVec 6) (s : State) : ∀ t₁,
    (execSrai c rd ra sh s) = .next t₁ → t₁.kept = s.kept := by
  intros; unfold execSrai at *; grind [State.opR_kept, ok]

theorem execMul_kept (c : CoreId) (rd : RegNo) (ra : RegNo) (rb : RegNo) (s : State) : ∀ t₁,
    (execMul c rd ra rb s) = .next t₁ → t₁.kept = s.kept := by
  intros; unfold execMul at *; grind [State.opRR_kept, ok]

theorem execMulh_kept (c : CoreId) (rd : RegNo) (ra : RegNo) (rb : RegNo) (s : State) : ∀ t₁,
    (execMulh c rd ra rb s) = .next t₁ → t₁.kept = s.kept := by
  intros; unfold execMulh at *; grind [State.opRR_kept, ok]

theorem execMulhu_kept (c : CoreId) (rd : RegNo) (ra : RegNo) (rb : RegNo) (s : State) : ∀ t₁,
    (execMulhu c rd ra rb s) = .next t₁ → t₁.kept = s.kept := by
  intros; unfold execMulhu at *; grind [State.opRR_kept, ok]

theorem execMulw_kept (c : CoreId) (rd : RegNo) (ra : RegNo) (rb : RegNo) (s : State) : ∀ t₁,
    (execMulw c rd ra rb s) = .next t₁ → t₁.kept = s.kept := by
  intros; unfold execMulw at *; grind [State.opRR_kept, ok]

theorem execDiv_kept (c : CoreId) (rd : RegNo) (ra : RegNo) (rb : RegNo) (s : State) : ∀ t₁,
    (execDiv c rd ra rb s) = .next t₁ → t₁.kept = s.kept := by
  intros; unfold execDiv at *; grind [State.opDiv_kept, ok]

theorem execDivu_kept (c : CoreId) (rd : RegNo) (ra : RegNo) (rb : RegNo) (s : State) : ∀ t₁,
    (execDivu c rd ra rb s) = .next t₁ → t₁.kept = s.kept := by
  intros; unfold execDivu at *; grind [State.opDiv_kept, ok]

theorem execRem_kept (c : CoreId) (rd : RegNo) (ra : RegNo) (rb : RegNo) (s : State) : ∀ t₁,
    (execRem c rd ra rb s) = .next t₁ → t₁.kept = s.kept := by
  intros; unfold execRem at *; grind [State.opDiv_kept, ok]

theorem execRemu_kept (c : CoreId) (rd : RegNo) (ra : RegNo) (rb : RegNo) (s : State) : ∀ t₁,
    (execRemu c rd ra rb s) = .next t₁ → t₁.kept = s.kept := by
  intros; unfold execRemu at *; grind [State.opDiv_kept, ok]

theorem execDivw_kept (c : CoreId) (rd : RegNo) (ra : RegNo) (rb : RegNo) (s : State) : ∀ t₁,
    (execDivw c rd ra rb s) = .next t₁ → t₁.kept = s.kept := by
  intros; unfold execDivw at *; grind [State.opDiv_kept, ok]

theorem execDivuw_kept (c : CoreId) (rd : RegNo) (ra : RegNo) (rb : RegNo) (s : State) : ∀ t₁,
    (execDivuw c rd ra rb s) = .next t₁ → t₁.kept = s.kept := by
  intros; unfold execDivuw at *; grind [State.opDiv_kept, ok]

theorem execLongOpComplete_kept (c : CoreId) (s : State) : ∀ t₁,
    (execLongOpComplete c s) = .next t₁ → t₁.kept = s.kept := by
  intros; unfold execLongOpComplete at *; grind [State.longFinish_kept, ok, State.longEnd_kept,
      State.takeOwed_kept]

end Sys2Proof.Machine
end

