-- ==== Sys2Proof/Laws/KeptFloatInstr.lean ====
section
/-! SUPPORT. What the operations of Machine/FloatInstr leave alone. -/

set_option Elab.async false
set_option linter.unusedVariables false
set_option linter.unusedTactic false
set_option linter.unreachableTactic false

namespace Sys2Proof.Machine

theorem illegal_kept (word : Word) (s : State) : (illegal word s).st.kept = s.kept := by
  intros; unfold illegal at *; grind [Ex.st]

theorem privileged_kept (word : Word) (s : State) : (privileged word s).st.kept = s.kept := by
  intros; unfold privileged at *; grind [Ex.st]

theorem State.fpDone_kept (s : State) (c : Fin 64) (d : FDest) (v : ℕ) (fl : FFlags) (can : FFlags) :
    (State.fpDone s c d v fl can).st.kept = s.kept := by
  intros; unfold State.fpDone at *; grind [State.event_kept, State.updCore_kept, State.doneF_kept, State.doneG_kept,
      Ex.st]

theorem State.fpLong_kept (s : State) (c : Fin 64) (fn : ℕ) (fd : Fin 32) (single : Bool) (v : ℕ) (fl : FFlags)
    (can : FFlags) : (State.fpLong s c fn fd single v fl can).st.kept = s.kept := by
  intros; unfold State.fpLong at *; grind [State.fpDone_kept, State.issueLong_kept, Ex.st]

theorem State.opF3_kept (s : State) (c : Fin 64) (fn : ℕ) (single : Bool) (units : List ℕ) (fd : Fin 32) (fa : Fin 32)
    (fb : Fin 32) (rm : BitVec 5) (can : FFlags) (op : FFmt →   RMode → Bool → FVal → FVal → ℕ × FFlags) :
    (State.opF3 s c fn single units fd fa fb rm can op).kept = s.kept := by
  intros; unfold State.opF3 at *; grind [State.runInstr_kept, illegal_kept, State.fpDone_kept, Ex.st]

theorem State.opFdiv_kept (s : State) (c : Fin 64) (fn : ℕ) (single : Bool) (fd : Fin 32) (fa : Fin 32) (fb : Fin 32)
    (rm : BitVec 5) : (State.opFdiv s c fn single fd fa fb rm).kept = s.kept := by
  intros; unfold State.opFdiv at *; grind [State.runInstr_kept, illegal_kept, State.fpLong_kept, Ex.st]

theorem State.opFsqrt_kept (s : State) (c : Fin 64) (fn : ℕ) (single : Bool) (fd : Fin 32) (fa : Fin 32)
    (rm : BitVec 5) : (State.opFsqrt s c fn single fd fa rm).kept = s.kept := by
  intros; unfold State.opFsqrt at *; grind [State.runInstr_kept, illegal_kept, State.fpLong_kept, Ex.st]

theorem State.opFma_kept (s : State) (c : Fin 64) (single : Bool) (np : Bool) (nc : Bool) (fd : Fin 32) (fa : Fin 32)
    (fb : Fin 32) (fc : Fin 32) : (State.opFma s c single np nc fd fa fb fc).kept = s.kept := by
  intros; unfold State.opFma at *; grind [State.runInstr_kept, State.fpDone_kept, Ex.st]

theorem State.opFminMax_kept (s : State) (c : Fin 64) (single : Bool) (max : Bool) (fd : Fin 32) (fa : Fin 32)
    (fb : Fin 32) : (State.opFminMax s c single max fd fa fb).kept = s.kept := by
  intros; unfold State.opFminMax at *; grind [State.runInstr_kept, State.fpDone_kept, Ex.st]

theorem State.opFsgnj_kept (s : State) (c : Fin 64) (single : Bool) (op : ℕ) (fd : Fin 32) (fa : Fin 32) (fb : Fin 32)
    : (State.opFsgnj s c single op fd fa fb).kept = s.kept := by
  intros; unfold State.opFsgnj at *; grind [State.runInstr_kept, State.fpDone_kept, Ex.st]

theorem State.opFcmp_kept (s : State) (c : Fin 64) (single : Bool) (op : ℕ) (gd : Fin 32) (fa : Fin 32) (fb : Fin 32)
    : (State.opFcmp s c single op gd fa fb).kept = s.kept := by
  intros; unfold State.opFcmp at *; grind [State.runInstr_kept, State.fpDone_kept, Ex.st]

theorem State.opFclass_kept (s : State) (c : Fin 64) (single : Bool) (gd : Fin 32) (fa : Fin 32) :
    (State.opFclass s c single gd fa).kept = s.kept := by
  intros; unfold State.opFclass at *; grind [State.runInstr_kept, State.fpDone_kept, Ex.st]

theorem State.opFcvtF_kept (s : State) (c : Fin 64) (fn : ℕ) (dst : Bool) (fd : Fin 32) (fa : Fin 32) (rm : BitVec 5)
    : (State.opFcvtF s c fn dst fd fa rm).kept = s.kept := by
  intros; unfold State.opFcvtF at *; grind [State.runInstr_kept, illegal_kept, State.fpDone_kept, Ex.st]

theorem State.opFcvtI_kept (s : State) (c : Fin 64) (fn : ℕ) (single : Bool) (n : ℕ) (gd : Fin 32) (fa : Fin 32)
    (rm : BitVec 5) : (State.opFcvtI s c fn single n gd fa rm).kept = s.kept := by
  intros; unfold State.opFcvtI at *; grind [State.runInstr_kept, illegal_kept, State.fpDone_kept, Ex.st]

theorem State.opFcvtFromI_kept (s : State) (c : Fin 64) (fn : ℕ) (single : Bool) (n : ℕ) (fd : Fin 32) (ga : Fin 32)
    (rm : BitVec 5) : (State.opFcvtFromI s c fn single n fd ga rm).kept = s.kept := by
  intros; unfold State.opFcvtFromI at *; grind [State.runInstr_kept, illegal_kept, State.fpDone_kept, Ex.st]

theorem execFaddS_kept (c : CoreId) (fd : RegNo) (fa : RegNo) (fb : RegNo) (rm : BitVec 5) (s : State) : ∀ t₁,
    (execFaddS c fd fa fb rm s) = .next t₁ → t₁.kept = s.kept := by
  intros; unfold execFaddS at *; grind [State.opF3_kept, ok]

theorem execFsubS_kept (c : CoreId) (fd : RegNo) (fa : RegNo) (fb : RegNo) (rm : BitVec 5) (s : State) : ∀ t₁,
    (execFsubS c fd fa fb rm s) = .next t₁ → t₁.kept = s.kept := by
  intros; unfold execFsubS at *; grind [State.opF3_kept, ok]

theorem execFmulS_kept (c : CoreId) (fd : RegNo) (fa : RegNo) (fb : RegNo) (rm : BitVec 5) (s : State) : ∀ t₁,
    (execFmulS c fd fa fb rm s) = .next t₁ → t₁.kept = s.kept := by
  intros; unfold execFmulS at *; grind [State.opF3_kept, ok]

theorem execFdivS_kept (c : CoreId) (fd : RegNo) (fa : RegNo) (fb : RegNo) (rm : BitVec 5) (s : State) : ∀ t₁,
    (execFdivS c fd fa fb rm s) = .next t₁ → t₁.kept = s.kept := by
  intros; unfold execFdivS at *; grind [State.opFdiv_kept, ok]

theorem execFsqrtS_kept (c : CoreId) (fd : RegNo) (fa : RegNo) (rm : BitVec 5) (s : State) : ∀ t₁,
    (execFsqrtS c fd fa rm s) = .next t₁ → t₁.kept = s.kept := by
  intros; unfold execFsqrtS at *; grind [State.opFsqrt_kept, ok]

theorem execFminS_kept (c : CoreId) (fd : RegNo) (fa : RegNo) (fb : RegNo) (s : State) : ∀ t₁,
    (execFminS c fd fa fb s) = .next t₁ → t₁.kept = s.kept := by
  intros; unfold execFminS at *; grind [State.opFminMax_kept, ok]

theorem execFmaxS_kept (c : CoreId) (fd : RegNo) (fa : RegNo) (fb : RegNo) (s : State) : ∀ t₁,
    (execFmaxS c fd fa fb s) = .next t₁ → t₁.kept = s.kept := by
  intros; unfold execFmaxS at *; grind [State.opFminMax_kept, ok]

theorem execFsgnjS_kept (c : CoreId) (fd : RegNo) (fa : RegNo) (fb : RegNo) (s : State) : ∀ t₁,
    (execFsgnjS c fd fa fb s) = .next t₁ → t₁.kept = s.kept := by
  intros; unfold execFsgnjS at *; grind [State.opFsgnj_kept, ok]

theorem execFsgnjnS_kept (c : CoreId) (fd : RegNo) (fa : RegNo) (fb : RegNo) (s : State) : ∀ t₁,
    (execFsgnjnS c fd fa fb s) = .next t₁ → t₁.kept = s.kept := by
  intros; unfold execFsgnjnS at *; grind [State.opFsgnj_kept, ok]

theorem execFsgnjxS_kept (c : CoreId) (fd : RegNo) (fa : RegNo) (fb : RegNo) (s : State) : ∀ t₁,
    (execFsgnjxS c fd fa fb s) = .next t₁ → t₁.kept = s.kept := by
  intros; unfold execFsgnjxS at *; grind [State.opFsgnj_kept, ok]

theorem execFeqS_kept (c : CoreId) (fd : RegNo) (fa : RegNo) (fb : RegNo) (s : State) : ∀ t₁,
    (execFeqS c fd fa fb s) = .next t₁ → t₁.kept = s.kept := by
  intros; unfold execFeqS at *; grind [State.opFcmp_kept, ok]

theorem execFltS_kept (c : CoreId) (fd : RegNo) (fa : RegNo) (fb : RegNo) (s : State) : ∀ t₁,
    (execFltS c fd fa fb s) = .next t₁ → t₁.kept = s.kept := by
  intros; unfold execFltS at *; grind [State.opFcmp_kept, ok]

theorem execFleS_kept (c : CoreId) (fd : RegNo) (fa : RegNo) (fb : RegNo) (s : State) : ∀ t₁,
    (execFleS c fd fa fb s) = .next t₁ → t₁.kept = s.kept := by
  intros; unfold execFleS at *; grind [State.opFcmp_kept, ok]

theorem execFclassS_kept (c : CoreId) (fd : RegNo) (fa : RegNo) (s : State) : ∀ t₁,
    (execFclassS c fd fa s) = .next t₁ → t₁.kept = s.kept := by
  intros; unfold execFclassS at *; grind [State.opFclass_kept, ok]

theorem execFcvtLS_kept (c : CoreId) (fd : RegNo) (fa : RegNo) (rm : BitVec 5) (s : State) : ∀ t₁,
    (execFcvtLS c fd fa rm s) = .next t₁ → t₁.kept = s.kept := by
  intros; unfold execFcvtLS at *; grind [State.opFcvtI_kept, ok]

theorem execFcvtWS_kept (c : CoreId) (fd : RegNo) (fa : RegNo) (rm : BitVec 5) (s : State) : ∀ t₁,
    (execFcvtWS c fd fa rm s) = .next t₁ → t₁.kept = s.kept := by
  intros; unfold execFcvtWS at *; grind [State.opFcvtI_kept, ok]

theorem execFcvtSL_kept (c : CoreId) (fd : RegNo) (fa : RegNo) (rm : BitVec 5) (s : State) : ∀ t₁,
    (execFcvtSL c fd fa rm s) = .next t₁ → t₁.kept = s.kept := by
  intros; unfold execFcvtSL at *; grind [State.opFcvtFromI_kept, ok]

theorem execFcvtSW_kept (c : CoreId) (fd : RegNo) (fa : RegNo) (rm : BitVec 5) (s : State) : ∀ t₁,
    (execFcvtSW c fd fa rm s) = .next t₁ → t₁.kept = s.kept := by
  intros; unfold execFcvtSW at *; grind [State.opFcvtFromI_kept, ok]

theorem execFmaddS_kept (c : CoreId) (rd : RegNo) (ra : RegNo) (rb : RegNo) (rc : RegNo) (s : State) : ∀ t₁,
    (execFmaddS c rd ra rb rc s) = .next t₁ → t₁.kept = s.kept := by
  intros; unfold execFmaddS at *; grind [State.opFma_kept, ok]

theorem execFmsubS_kept (c : CoreId) (rd : RegNo) (ra : RegNo) (rb : RegNo) (rc : RegNo) (s : State) : ∀ t₁,
    (execFmsubS c rd ra rb rc s) = .next t₁ → t₁.kept = s.kept := by
  intros; unfold execFmsubS at *; grind [State.opFma_kept, ok]

theorem execFnmaddS_kept (c : CoreId) (rd : RegNo) (ra : RegNo) (rb : RegNo) (rc : RegNo) (s : State) : ∀ t₁,
    (execFnmaddS c rd ra rb rc s) = .next t₁ → t₁.kept = s.kept := by
  intros; unfold execFnmaddS at *; grind [State.opFma_kept, ok]

theorem execFnmsubS_kept (c : CoreId) (rd : RegNo) (ra : RegNo) (rb : RegNo) (rc : RegNo) (s : State) : ∀ t₁,
    (execFnmsubS c rd ra rb rc s) = .next t₁ → t₁.kept = s.kept := by
  intros; unfold execFnmsubS at *; grind [State.opFma_kept, ok]

theorem execFaddD_kept (c : CoreId) (fd : RegNo) (fa : RegNo) (fb : RegNo) (rm : BitVec 5) (s : State) : ∀ t₁,
    (execFaddD c fd fa fb rm s) = .next t₁ → t₁.kept = s.kept := by
  intros; unfold execFaddD at *; grind [State.opF3_kept, ok]

theorem execFsubD_kept (c : CoreId) (fd : RegNo) (fa : RegNo) (fb : RegNo) (rm : BitVec 5) (s : State) : ∀ t₁,
    (execFsubD c fd fa fb rm s) = .next t₁ → t₁.kept = s.kept := by
  intros; unfold execFsubD at *; grind [State.opF3_kept, ok]

theorem execFmulD_kept (c : CoreId) (fd : RegNo) (fa : RegNo) (fb : RegNo) (rm : BitVec 5) (s : State) : ∀ t₁,
    (execFmulD c fd fa fb rm s) = .next t₁ → t₁.kept = s.kept := by
  intros; unfold execFmulD at *; grind [State.opF3_kept, ok]

theorem execFdivD_kept (c : CoreId) (fd : RegNo) (fa : RegNo) (fb : RegNo) (rm : BitVec 5) (s : State) : ∀ t₁,
    (execFdivD c fd fa fb rm s) = .next t₁ → t₁.kept = s.kept := by
  intros; unfold execFdivD at *; grind [State.opFdiv_kept, ok]

theorem execFsqrtD_kept (c : CoreId) (fd : RegNo) (fa : RegNo) (rm : BitVec 5) (s : State) : ∀ t₁,
    (execFsqrtD c fd fa rm s) = .next t₁ → t₁.kept = s.kept := by
  intros; unfold execFsqrtD at *; grind [State.opFsqrt_kept, ok]

theorem execFminD_kept (c : CoreId) (fd : RegNo) (fa : RegNo) (fb : RegNo) (s : State) : ∀ t₁,
    (execFminD c fd fa fb s) = .next t₁ → t₁.kept = s.kept := by
  intros; unfold execFminD at *; grind [State.opFminMax_kept, ok]

theorem execFmaxD_kept (c : CoreId) (fd : RegNo) (fa : RegNo) (fb : RegNo) (s : State) : ∀ t₁,
    (execFmaxD c fd fa fb s) = .next t₁ → t₁.kept = s.kept := by
  intros; unfold execFmaxD at *; grind [State.opFminMax_kept, ok]

theorem execFsgnjD_kept (c : CoreId) (fd : RegNo) (fa : RegNo) (fb : RegNo) (s : State) : ∀ t₁,
    (execFsgnjD c fd fa fb s) = .next t₁ → t₁.kept = s.kept := by
  intros; unfold execFsgnjD at *; grind [State.opFsgnj_kept, ok]

theorem execFsgnjnD_kept (c : CoreId) (fd : RegNo) (fa : RegNo) (fb : RegNo) (s : State) : ∀ t₁,
    (execFsgnjnD c fd fa fb s) = .next t₁ → t₁.kept = s.kept := by
  intros; unfold execFsgnjnD at *; grind [State.opFsgnj_kept, ok]

theorem execFsgnjxD_kept (c : CoreId) (fd : RegNo) (fa : RegNo) (fb : RegNo) (s : State) : ∀ t₁,
    (execFsgnjxD c fd fa fb s) = .next t₁ → t₁.kept = s.kept := by
  intros; unfold execFsgnjxD at *; grind [State.opFsgnj_kept, ok]

theorem execFeqD_kept (c : CoreId) (fd : RegNo) (fa : RegNo) (fb : RegNo) (s : State) : ∀ t₁,
    (execFeqD c fd fa fb s) = .next t₁ → t₁.kept = s.kept := by
  intros; unfold execFeqD at *; grind [State.opFcmp_kept, ok]

theorem execFltD_kept (c : CoreId) (fd : RegNo) (fa : RegNo) (fb : RegNo) (s : State) : ∀ t₁,
    (execFltD c fd fa fb s) = .next t₁ → t₁.kept = s.kept := by
  intros; unfold execFltD at *; grind [State.opFcmp_kept, ok]

theorem execFleD_kept (c : CoreId) (fd : RegNo) (fa : RegNo) (fb : RegNo) (s : State) : ∀ t₁,
    (execFleD c fd fa fb s) = .next t₁ → t₁.kept = s.kept := by
  intros; unfold execFleD at *; grind [State.opFcmp_kept, ok]

theorem execFclassD_kept (c : CoreId) (fd : RegNo) (fa : RegNo) (s : State) : ∀ t₁,
    (execFclassD c fd fa s) = .next t₁ → t₁.kept = s.kept := by
  intros; unfold execFclassD at *; grind [State.opFclass_kept, ok]

theorem execFcvtLD_kept (c : CoreId) (fd : RegNo) (fa : RegNo) (rm : BitVec 5) (s : State) : ∀ t₁,
    (execFcvtLD c fd fa rm s) = .next t₁ → t₁.kept = s.kept := by
  intros; unfold execFcvtLD at *; grind [State.opFcvtI_kept, ok]

theorem execFcvtWD_kept (c : CoreId) (fd : RegNo) (fa : RegNo) (rm : BitVec 5) (s : State) : ∀ t₁,
    (execFcvtWD c fd fa rm s) = .next t₁ → t₁.kept = s.kept := by
  intros; unfold execFcvtWD at *; grind [State.opFcvtI_kept, ok]

theorem execFcvtDL_kept (c : CoreId) (fd : RegNo) (fa : RegNo) (rm : BitVec 5) (s : State) : ∀ t₁,
    (execFcvtDL c fd fa rm s) = .next t₁ → t₁.kept = s.kept := by
  intros; unfold execFcvtDL at *; grind [State.opFcvtFromI_kept, ok]

theorem execFcvtDW_kept (c : CoreId) (fd : RegNo) (fa : RegNo) (rm : BitVec 5) (s : State) : ∀ t₁,
    (execFcvtDW c fd fa rm s) = .next t₁ → t₁.kept = s.kept := by
  intros; unfold execFcvtDW at *; grind [State.opFcvtFromI_kept, ok]

theorem execFmaddD_kept (c : CoreId) (rd : RegNo) (ra : RegNo) (rb : RegNo) (rc : RegNo) (s : State) : ∀ t₁,
    (execFmaddD c rd ra rb rc s) = .next t₁ → t₁.kept = s.kept := by
  intros; unfold execFmaddD at *; grind [State.opFma_kept, ok]

theorem execFmsubD_kept (c : CoreId) (rd : RegNo) (ra : RegNo) (rb : RegNo) (rc : RegNo) (s : State) : ∀ t₁,
    (execFmsubD c rd ra rb rc s) = .next t₁ → t₁.kept = s.kept := by
  intros; unfold execFmsubD at *; grind [State.opFma_kept, ok]

theorem execFnmaddD_kept (c : CoreId) (rd : RegNo) (ra : RegNo) (rb : RegNo) (rc : RegNo) (s : State) : ∀ t₁,
    (execFnmaddD c rd ra rb rc s) = .next t₁ → t₁.kept = s.kept := by
  intros; unfold execFnmaddD at *; grind [State.opFma_kept, ok]

theorem execFnmsubD_kept (c : CoreId) (rd : RegNo) (ra : RegNo) (rb : RegNo) (rc : RegNo) (s : State) : ∀ t₁,
    (execFnmsubD c rd ra rb rc s) = .next t₁ → t₁.kept = s.kept := by
  intros; unfold execFnmsubD at *; grind [State.opFma_kept, ok]

theorem execFcvtSD_kept (c : CoreId) (fd : RegNo) (fa : RegNo) (rm : BitVec 5) (s : State) : ∀ t₁,
    (execFcvtSD c fd fa rm s) = .next t₁ → t₁.kept = s.kept := by
  intros; unfold execFcvtSD at *; grind [State.opFcvtF_kept, ok]

theorem execFcvtDS_kept (c : CoreId) (fd : RegNo) (fa : RegNo) (rm : BitVec 5) (s : State) : ∀ t₁,
    (execFcvtDS c fd fa rm s) = .next t₁ → t₁.kept = s.kept := by
  intros; unfold execFcvtDS at *; grind [State.opFcvtF_kept, ok]

theorem execFmvXS_kept (c : CoreId) (fd : RegNo) (fa : RegNo) (s : State) : ∀ t₁,
    (execFmvXS c fd fa s) = .next t₁ → t₁.kept = s.kept := by
  unfold execFmvXS; apply arm_kept; apply State.runInstr_kept; intro u; grind [State.doneG_kept, Ex.st,
      State.runInstr_kept, ok]

theorem execFmvXD_kept (c : CoreId) (fd : RegNo) (fa : RegNo) (s : State) : ∀ t₁,
    (execFmvXD c fd fa s) = .next t₁ → t₁.kept = s.kept := by
  unfold execFmvXD; apply arm_kept; apply State.runInstr_kept; intro u; grind [State.doneG_kept, Ex.st,
      State.runInstr_kept, ok]

theorem execFmvSX_kept (c : CoreId) (fd : RegNo) (fa : RegNo) (s : State) : ∀ t₁,
    (execFmvSX c fd fa s) = .next t₁ → t₁.kept = s.kept := by
  unfold execFmvSX; apply arm_kept; apply State.runInstr_kept; intro u; grind [State.doneF_kept, Ex.st,
      State.runInstr_kept, ok]

theorem execFmvDX_kept (c : CoreId) (fd : RegNo) (fa : RegNo) (s : State) : ∀ t₁,
    (execFmvDX c fd fa s) = .next t₁ → t₁.kept = s.kept := by
  unfold execFmvDX; apply arm_kept; apply State.runInstr_kept; intro u; grind [State.doneF_kept, Ex.st,
      State.runInstr_kept, ok]

end Sys2Proof.Machine
end

