-- ==== Sys2Proof/Laws/KeptLoadStore.lean ====
section
/-! SUPPORT. What the operations of Machine/LoadStore leave alone. -/

set_option Elab.async false
set_option linter.unusedVariables false
set_option linter.unusedTactic false
set_option linter.unreachableTactic false

namespace Sys2Proof.Machine

theorem State.readParts_kept (s : State) (c : Fin 64) (l : Level) (x3 : List (Xlat × ℕ)) (x4 : ℕ) :
    (State.readParts s c l x3 x4).2.kept = s.kept := by
  induction x3 generalizing s x4 with
  | nil => first | rfl | simp [State.readParts]
  | cons y ys ih =>
    unfold State.readParts
    obtain ⟨t, n⟩ := y; dsimp only; split
    · have h1 := State.loadBytes_kept s c l t n true
      have h2 := ih (s.loadBytes c l t n true).2 (x4 + n)
      grind
    · grind [State.loadBytes_kept]

theorem State.opLoad_kept (s : State) (c : Fin 64) (kd : LoadKind) (rd : Fin 32) (ra : Fin 32) (imm : BitVec 16) :
    (State.opLoad s c kd rd ra imm).kept = s.kept := by
  unfold State.opLoad; refine State.runInstr_kept _ _ _ _ ?_; intro u; dsimp only; split
  · grind [State.checkAccess_kept, Ex.st, State.runInstr_kept, State.loadBytes_kept, State.longFinish_kept,
      State.drainBuffers_kept, State.event_kept, State.updCore_kept, State.readParts_kept, State.traceMem_kept]
  · grind [State.checkAccess_kept, Ex.st]
  · split <;> grind [State.checkAccess_kept, State.loadBytes_kept, Ex.st]
  · rename_i parts s1 h1
    have e1 : s1.kept = u.kept := by grind [State.checkAccess_kept]
    split
    · exact e1
    · rename_i t n rest
      split
      · split
        · grind [State.longFinish_kept, Ex.st]
        · split
          · grind [State.longFinish_kept, State.drainBuffers_kept, Ex.st]
          · simp only [Ex.st, State.updCore_kept, State.event_kept]
            grind [State.longFinish_kept, State.drainBuffers_kept]
      · split
        · grind [State.readParts_kept, State.event_kept, Ex.st]
        · grind [State.readParts_kept, State.event_kept, Ex.st]
        · simp only [Ex.st, State.traceMem_kept, State.updCore_kept]
          grind [State.readParts_kept, State.event_kept]

theorem State.opStore_kept (s : State) (c : Fin 64) (n : Needs) (size : ℕ) (ra : Fin 32) (imm : BitVec 16)
    (val : Core → Word) : (State.opStore s c n size ra imm val).kept = s.kept := by
  unfold State.opStore; refine State.runInstr_kept _ _ _ _ ?_; intro u; grind [State.runInstr_kept,
      State.checkAccess_kept, State.pushStore_kept, State.event_kept, State.traceMem_kept, Ex.st]

theorem State.uncounted_kept (s : State) (c : Fin 64) (f : State → State) (hf : ∀ u, (f u).kept = u.kept) :
    (State.uncounted s c f).kept = s.kept := by
  unfold State.uncounted; rw [State.updCore_kept]; exact hf s

theorem State.wrongFetch_kept (s : State) (c : Fin 64) (ea : Word) :
    (State.wrongFetch s c ea).kept = s.kept := by
  unfold State.wrongFetch; rw [State.event_kept, State.uncounted_kept]
  intro u; dsimp only; split
  · rename_i t w _ h
    have e : w.s.kept = u.kept := by grind [translateOnce_walk]
    split
    · rw [State.l1iGet_kept, State.updCore_kept]; exact e
    · rw [State.updCore_kept]; exact e
  · grind [translateOnce_walk]

theorem State.wrongPath_kept (s : State) (c : Fin 64) :
    (State.wrongPath s c).kept = s.kept := by
  unfold State.wrongPath; dsimp only
  rw [foldl_kept, foldl_kept, State.fresh_kept]
  · intro s i; split <;> simp only [State.updCore_kept, State.fresh_kept]
  · intro s i; simp only [State.wrongFetch_kept, State.fresh_kept]

theorem State.opBranch_kept (s : State) (c : Fin 64) (ra : Fin 32) (rb : Fin 32) (h : Bool) (d : BitVec 15)
    (p : Word → Word → Bool) : (State.opBranch s c ra rb h d p).kept = s.kept := by
  unfold State.opBranch; refine State.runInstr_kept _ _ _ _ ?_; intro u; grind [State.runInstr_kept,
      State.event_kept, State.traceBr_kept, Ex.st,
      State.wrongPath_kept]

theorem State.opJump_kept (s : State) (c : Fin 64) (d : BitVec 26) (link : Bool) :
    (State.opJump s c d link).kept = s.kept := by
  unfold State.opJump; refine State.runInstr_kept _ _ _ _ ?_; intro u; grind [State.runInstr_kept, State.event_kept,
      State.updCore_kept, Ex.st]

theorem State.opJalr_kept (s : State) (c : Fin 64) (rd : Fin 32) (ra : Fin 32) (imm : BitVec 16) :
    (State.opJalr s c rd ra imm).kept = s.kept := by
  unfold State.opJalr; refine State.runInstr_kept _ _ _ _ ?_; intro u; grind [State.runInstr_kept, State.event_kept,
      State.setCore_kept, State.traceInd_kept,
      Ex.st, State.wrongPath_kept]

theorem execLb_kept (c : CoreId) (rd : RegNo) (ra : RegNo) (imm : BitVec 16) (s : State) : ∀ t₁,
    (execLb c rd ra imm s) = .next t₁ → t₁.kept = s.kept := by
  intros; unfold execLb at *; grind [State.opLoad_kept, ok]

theorem execLbu_kept (c : CoreId) (rd : RegNo) (ra : RegNo) (imm : BitVec 16) (s : State) : ∀ t₁,
    (execLbu c rd ra imm s) = .next t₁ → t₁.kept = s.kept := by
  intros; unfold execLbu at *; grind [State.opLoad_kept, ok]

theorem execLh_kept (c : CoreId) (rd : RegNo) (ra : RegNo) (imm : BitVec 16) (s : State) : ∀ t₁,
    (execLh c rd ra imm s) = .next t₁ → t₁.kept = s.kept := by
  intros; unfold execLh at *; grind [State.opLoad_kept, ok]

theorem execLhu_kept (c : CoreId) (rd : RegNo) (ra : RegNo) (imm : BitVec 16) (s : State) : ∀ t₁,
    (execLhu c rd ra imm s) = .next t₁ → t₁.kept = s.kept := by
  intros; unfold execLhu at *; grind [State.opLoad_kept, ok]

theorem execLw_kept (c : CoreId) (rd : RegNo) (ra : RegNo) (imm : BitVec 16) (s : State) : ∀ t₁,
    (execLw c rd ra imm s) = .next t₁ → t₁.kept = s.kept := by
  intros; unfold execLw at *; grind [State.opLoad_kept, ok]

theorem execLwu_kept (c : CoreId) (rd : RegNo) (ra : RegNo) (imm : BitVec 16) (s : State) : ∀ t₁,
    (execLwu c rd ra imm s) = .next t₁ → t₁.kept = s.kept := by
  intros; unfold execLwu at *; grind [State.opLoad_kept, ok]

theorem execLd_kept (c : CoreId) (rd : RegNo) (ra : RegNo) (imm : BitVec 16) (s : State) : ∀ t₁,
    (execLd c rd ra imm s) = .next t₁ → t₁.kept = s.kept := by
  intros; unfold execLd at *; grind [State.opLoad_kept, ok]

theorem execFlw_kept (c : CoreId) (rd : RegNo) (ra : RegNo) (imm : BitVec 16) (s : State) : ∀ t₁,
    (execFlw c rd ra imm s) = .next t₁ → t₁.kept = s.kept := by
  intros; unfold execFlw at *; grind [State.opLoad_kept, ok]

theorem execFld_kept (c : CoreId) (rd : RegNo) (ra : RegNo) (imm : BitVec 16) (s : State) : ∀ t₁,
    (execFld c rd ra imm s) = .next t₁ → t₁.kept = s.kept := by
  intros; unfold execFld at *; grind [State.opLoad_kept, ok]

theorem execSb_kept (c : CoreId) (rb : RegNo) (ra : RegNo) (imm : BitVec 16) (s : State) : ∀ t₁,
    (execSb c rb ra imm s) = .next t₁ → t₁.kept = s.kept := by
  intros; unfold execSb at *; grind [State.opStore_kept, ok]

theorem execSh_kept (c : CoreId) (rb : RegNo) (ra : RegNo) (imm : BitVec 16) (s : State) : ∀ t₁,
    (execSh c rb ra imm s) = .next t₁ → t₁.kept = s.kept := by
  intros; unfold execSh at *; grind [State.opStore_kept, ok]

theorem execSw_kept (c : CoreId) (rb : RegNo) (ra : RegNo) (imm : BitVec 16) (s : State) : ∀ t₁,
    (execSw c rb ra imm s) = .next t₁ → t₁.kept = s.kept := by
  intros; unfold execSw at *; grind [State.opStore_kept, ok]

theorem execSd_kept (c : CoreId) (rb : RegNo) (ra : RegNo) (imm : BitVec 16) (s : State) : ∀ t₁,
    (execSd c rb ra imm s) = .next t₁ → t₁.kept = s.kept := by
  intros; unfold execSd at *; grind [State.opStore_kept, ok]

theorem execFsw_kept (c : CoreId) (rb : RegNo) (ra : RegNo) (imm : BitVec 16) (s : State) : ∀ t₁,
    (execFsw c rb ra imm s) = .next t₁ → t₁.kept = s.kept := by
  intros; unfold execFsw at *; grind [State.opStore_kept, ok]

theorem execFsd_kept (c : CoreId) (rb : RegNo) (ra : RegNo) (imm : BitVec 16) (s : State) : ∀ t₁,
    (execFsd c rb ra imm s) = .next t₁ → t₁.kept = s.kept := by
  intros; unfold execFsd at *; grind [State.opStore_kept, ok]

theorem execBeq_kept (c : CoreId) (ra : RegNo) (rb : RegNo) (h : Bool) (disp : BitVec 15) (s : State) : ∀ t₁,
    (execBeq c ra rb h disp s) = .next t₁ → t₁.kept = s.kept := by
  intros; unfold execBeq at *; grind [State.opBranch_kept, ok]

theorem execBne_kept (c : CoreId) (ra : RegNo) (rb : RegNo) (h : Bool) (disp : BitVec 15) (s : State) : ∀ t₁,
    (execBne c ra rb h disp s) = .next t₁ → t₁.kept = s.kept := by
  intros; unfold execBne at *; grind [State.opBranch_kept, ok]

theorem execBlt_kept (c : CoreId) (ra : RegNo) (rb : RegNo) (h : Bool) (disp : BitVec 15) (s : State) : ∀ t₁,
    (execBlt c ra rb h disp s) = .next t₁ → t₁.kept = s.kept := by
  intros; unfold execBlt at *; grind [State.opBranch_kept, ok]

theorem execBge_kept (c : CoreId) (ra : RegNo) (rb : RegNo) (h : Bool) (disp : BitVec 15) (s : State) : ∀ t₁,
    (execBge c ra rb h disp s) = .next t₁ → t₁.kept = s.kept := by
  intros; unfold execBge at *; grind [State.opBranch_kept, ok]

theorem execBltu_kept (c : CoreId) (ra : RegNo) (rb : RegNo) (h : Bool) (disp : BitVec 15) (s : State) : ∀ t₁,
    (execBltu c ra rb h disp s) = .next t₁ → t₁.kept = s.kept := by
  intros; unfold execBltu at *; grind [State.opBranch_kept, ok]

theorem execBgeu_kept (c : CoreId) (ra : RegNo) (rb : RegNo) (h : Bool) (disp : BitVec 15) (s : State) : ∀ t₁,
    (execBgeu c ra rb h disp s) = .next t₁ → t₁.kept = s.kept := by
  intros; unfold execBgeu at *; grind [State.opBranch_kept, ok]

theorem execJ_kept (c : CoreId) (disp : BitVec 26) (s : State) : ∀ t₁,
      (execJ c disp s) = .next t₁ → t₁.kept = s.kept := by
  intros; unfold execJ at *; grind [State.opJump_kept, ok]

theorem execJal_kept (c : CoreId) (disp : BitVec 26) (s : State) : ∀ t₁,
    (execJal c disp s) = .next t₁ → t₁.kept = s.kept := by
  intros; unfold execJal at *; grind [State.opJump_kept, ok]

theorem execJalr_kept (c : CoreId) (rd : RegNo) (ra : RegNo) (imm : BitVec 16) (s : State) : ∀ t₁,
    (execJalr c rd ra imm s) = .next t₁ → t₁.kept = s.kept := by
  intros; unfold execJalr at *; grind [State.opJalr_kept, ok]

theorem State.prefetchI_kept (s : State) (c : Fin 64) (l : Level) (n : ℕ) :
    (State.prefetchI s c l n).2.kept = s.kept := by
  intros; unfold State.prefetchI at *; grind [State.l1iGet_kept, State.addrErr_kept]

theorem execPrefetch_kept (c : CoreId) (kind : RegNo) (ra : RegNo) (imm : BitVec 16) (s : State) : ∀ t₁,
    (execPrefetch c kind ra imm s) = .next t₁ → t₁.kept = s.kept := by
  unfold execPrefetch; apply arm_kept; apply State.runInstr_kept; intro u; grind [State.event_kept, translate_kept,
      State.l1iGet_kept, State.l1dGet_kept,
      Ex.st, State.runInstr_kept, State.prefetchI_kept, State.prefetch_kept,
      ok]

theorem execStoreBufferDrain_kept (c : CoreId) (s : State) : ∀ t₁,
    (execStoreBufferDrain c s) = .next t₁ → t₁.kept = s.kept := by
  intros; unfold execStoreBufferDrain at *; grind [State.ucWrite_kept, State.updCore_kept, State.drainHead_kept,
      ok, State.headSend_kept]

theorem execUncachedStoreAck_kept (c : CoreId) (s : State) : ∀ t₁,
    (execUncachedStoreAck c s) = .next t₁ → t₁.kept = s.kept := by
  intros; unfold execUncachedStoreAck at *; grind [State.openMram_kept, State.drainHead_kept, ok,
      State.headAck_kept]

theorem execFrameBufferDrain_kept (c : CoreId) (s : State) : ∀ t₁,
    (execFrameBufferDrain c s) = .next t₁ → t₁.kept = s.kept := by
  intros; unfold execFrameBufferDrain at *; grind [State.drainFrame_kept, ok]

end Sys2Proof.Machine
end

