-- ==== Sys2Proof/Laws/KeptAtomic.lean ====
section
/-! SUPPORT. What the operations of Machine/Atomic leave alone. -/

set_option Elab.async false
set_option linter.unusedVariables false
set_option linter.unusedTactic false
set_option linter.unreachableTactic false

namespace Sys2Proof.Machine

theorem State.atomAddr_kept (s : State) (c : Fin 64) (ea : Word) (size : ℕ) (a : Acc) :
    (State.atomAddr s c ea size a).2.kept = s.kept := by
  intros; unfold State.atomAddr at *; grind [translateFor_kept, translate_kept]

theorem State.drainStores_kept (s : State) (c : Fin 64) : (State.drainStores s c).2.kept = s.kept := by
  intros; unfold State.drainStores at *; grind [State.drainAll_kept, State.drainFrame_kept, State.drainBuffers_kept]

theorem State.atomOwn_kept (s : State) (c : Fin 64) (pa : ℕ) (write : Bool) :
    (State.atomOwn s c pa write).2.kept = s.kept := by
  intros; unfold State.atomOwn at *; grind [State.l1dGet_kept, State.updCore_kept, State.holdStore_kept,
      State.addrErr_kept]

theorem State.opLl_kept (s : State) (c : Fin 64) (size : ℕ) (rd : Fin 32) (ra : Fin 32) :
    (State.opLl s c size rd ra).kept = s.kept := by
  unfold State.opLl; refine State.runInstr_kept _ _ _ _ ?_; intro u; dsimp only; split
  · grind [State.atomAddr_kept, Ex.st]
  · grind [State.atomAddr_kept, Ex.st]
  · split
    · grind [State.atomAddr_kept, Ex.st]
    · split
      · grind [State.atomAddr_kept, State.drainBuffers_kept, Ex.st]
      · split
        · grind [State.atomAddr_kept, State.drainBuffers_kept, State.atomOwn_kept, Ex.st]
        · split <;> grind [State.atomAddr_kept, State.drainBuffers_kept, State.atomOwn_kept, State.gotSec_kept,
            State.event_kept, State.updCore_kept, State.traceMem_kept, Ex.st]

theorem State.atomWrite_kept (s : State) (c : Fin 64) (pa : ℕ) (size : ℕ) (v : Word) :
    (State.atomWrite s c pa size v).kept = s.kept := by
  intros; unfold State.atomWrite at *; grind [State.openMram_kept, State.l1dWrite_kept, State.updCore_kept]

theorem State.opSc_kept (s : State) (c : Fin 64) (size : ℕ) (rd : Fin 32) (ra : Fin 32) (rb : Fin 32) :
    (State.opSc s c size rd ra rb).kept = s.kept := by
  unfold State.opSc; refine State.runInstr_kept _ _ _ _ ?_; intro u; dsimp only; split
  · grind [State.runInstr_kept, State.atomAddr_kept, State.drainStores_kept, State.event_kept, State.updCore_kept,
      State.atomOwn_kept, State.atomWrite_kept, State.traceMem_kept, Ex.st]
  · grind [State.runInstr_kept, State.atomAddr_kept, State.drainStores_kept, State.event_kept, State.updCore_kept,
      State.atomOwn_kept, State.atomWrite_kept, State.traceMem_kept, Ex.st]
  · split
    · grind [State.runInstr_kept, State.atomAddr_kept, State.drainStores_kept, State.event_kept, State.updCore_kept,
        State.atomOwn_kept, State.atomWrite_kept, State.traceMem_kept, Ex.st]
    · split
      · grind [State.runInstr_kept, State.atomAddr_kept, State.drainStores_kept, State.event_kept, State.updCore_kept,
          State.atomOwn_kept, State.atomWrite_kept, State.traceMem_kept, Ex.st]
      · split
        · grind [State.runInstr_kept, State.atomAddr_kept, State.drainStores_kept, State.event_kept,
            State.updCore_kept, State.atomOwn_kept, State.atomWrite_kept, State.traceMem_kept, Ex.st]
        · split <;> grind [State.runInstr_kept, State.atomAddr_kept, State.drainStores_kept, State.event_kept,
            State.updCore_kept, State.atomOwn_kept, State.atomWrite_kept, State.traceMem_kept, Ex.st]

theorem State.opAmo_kept (s : State) (c : Fin 64) (size : ℕ) (rd : Fin 32) (ra : Fin 32) (uses : List (Fin 32))
    (new : Core → ℕ → Option Word) : (State.opAmo s c size rd ra uses new).kept = s.kept := by
  unfold State.opAmo; refine State.runInstr_kept _ _ _ _ ?_; intro u; dsimp only; split
  · grind [State.runInstr_kept, State.atomAddr_kept, State.drainStores_kept, State.atomOwn_kept,
      State.atomWrite_kept, State.event_kept, State.updCore_kept, State.traceMem_kept, Ex.st]
  · grind [State.runInstr_kept, State.atomAddr_kept, State.drainStores_kept, State.atomOwn_kept, State.atomWrite_kept,
      State.event_kept, State.updCore_kept, State.traceMem_kept, Ex.st]
  · split
    · grind [State.runInstr_kept, State.atomAddr_kept, State.drainStores_kept, State.atomOwn_kept,
      State.atomWrite_kept,
        State.event_kept, State.updCore_kept, State.traceMem_kept, Ex.st]
    · split
      · grind [State.runInstr_kept, State.atomAddr_kept, State.drainStores_kept, State.atomOwn_kept,
          State.atomWrite_kept, State.event_kept, State.updCore_kept, State.traceMem_kept, Ex.st]
      · split <;> grind [State.runInstr_kept, State.atomAddr_kept, State.drainStores_kept, State.atomOwn_kept,
          State.atomWrite_kept, State.event_kept, State.updCore_kept, State.traceMem_kept, Ex.st]

theorem State.opZline_kept (s : State) (c : Fin 64) (ra : Fin 32) : (State.opZline s c ra).kept = s.kept := by
  unfold State.opZline; refine State.runInstr_kept _ _ _ _ ?_; intro u; grind [State.runInstr_kept,
      translateFor_kept, translate_kept,
      State.pushStore_kept, State.event_kept, Ex.st]

theorem State.maint_kept (s : State) (c : Fin 64) (n : ℕ) (kind : MsgKind) : (State.maint s c n kind).2.kept = s.kept := by
  intros; unfold State.maint at *; grind [State.l1iDrop_kept, foldl_kept, State.addrErr_kept, State.ucAsk_kept,
      State.kept, State.collect_kept, State.l1iDropAll_kept]

theorem State.opMaint_kept (s : State) (c : Fin 64) (xfn : ℕ) (kind : MsgKind) (a : Acc) (ra : Fin 32) :
    (State.opMaint s c xfn kind a ra).kept = s.kept := by
  intros; unfold State.opMaint at *; grind [State.runInstr_kept, privileged_kept, translateFor_kept, translate_kept,
      State.event_kept, State.drainStores_kept, State.maint_kept, State.openMram_kept, Ex.st, State.drainOver_kept]

theorem State.swL1d_kept (s : State) (c : Fin 64) (f : ℕ) (op : SwOp) : (State.swL1d s c f op).kept = s.kept := by
  intros; unfold State.swL1d at *; grind [State.l1dDown_kept, State.l1dDrop_kept, State.updCore_kept,
      State.updL2_kept,
      foldl_kept]

theorem State.swBack_kept (s : State) (q f : Nat) : (State.swBack s q f).2.kept = s.kept := by
  unfold State.swBack; split
  · rfl
  · dsimp only
    split
    · simp only [State.progress_kept]
    · split
      · rfl
      · split
        · dsimp only; rw [foldl_kept _ (fun s p => State.updL2_kept _ _ _)]; simp only [State.addrErr_kept]
        · split <;> simp only [State.progress_kept, State.send_kept, State.updQuad_kept]

theorem State.swGone_kept (s : State) (q f : Nat) : (State.swGone s q f).kept = s.kept := by
  unfold State.swGone; split
  · rfl
  · dsimp only; split <;> ((try simp only [State.send_kept, State.updL2_kept]); exact foldl_kept _ (fun s p => State.updL2_kept _ _ _) _ _)

theorem State.swL2_kept (s : State) (q : ℕ) (f : ℕ) (op : SwOp) : (State.swL2 s q f op).2.kept = s.kept := by
  intros; unfold State.swL2 at *; grind [State.swBack_kept, State.swGone_kept]

theorem State.swL3_kept (s : State) (h : ℕ) (f : ℕ) (op : SwOp) : (State.swL3 s h f op).kept = s.kept := by
  intros; unfold State.swL3 at *; grind [State.l3Free_kept, State.writeBack_kept, State.pdqSync_kept,
      State.updL3_kept, foldl_kept, State.homeKick_kept]

theorem State.opSw_kept (s : State) (c : Fin 64) (xfn : ℕ) (op : SwOp) (ra : Fin 32) :
    (State.opSw s c xfn op ra).kept = s.kept := by
  intros; unfold State.opSw at *; grind [State.runInstr_kept, privileged_kept, illegal_kept, State.swL1d_kept,
      State.updCore_kept, State.swL2_kept, State.swL3_kept, Ex.st]

theorem State.opInval_kept (s : State) (c : Fin 64) (op : ℕ) (rx : Fin 32) (ra : Fin 32) (fl : BitVec 12) :
    (State.opInval s c op rx ra fl).kept = s.kept := by
  intros; unfold State.opInval at *; grind [State.runInstr_kept, illegal_kept, privileged_kept, State.event_kept,
      State.updCore_kept, State.kept, Ex.st]

theorem State.finishInvals_kept (s : State) (p : ℕ × ℕ × Inval → Bool) : (State.finishInvals s p).kept = s.kept := by
  intros; unfold State.finishInvals at *; grind [State.updCore_kept, foldl_kept, State.kept]

theorem execLlW_kept (c : CoreId) (rd : RegNo) (ra : RegNo) (s : State) : ∀ t₁,
    (execLlW c rd ra s) = .next t₁ → t₁.kept = s.kept := by
  intros; unfold execLlW at *; grind [State.opLl_kept, ok]

theorem execScW_kept (c : CoreId) (rd : RegNo) (ra : RegNo) (rb : RegNo) (s : State) : ∀ t₁,
    (execScW c rd ra rb s) = .next t₁ → t₁.kept = s.kept := by
  intros; unfold execScW at *; grind [State.opSc_kept, ok]

theorem execCasW_kept (c : CoreId) (rd : RegNo) (ra : RegNo) (rb : RegNo) (rc : RegNo) (s : State) : ∀ t₁,
    (execCasW c rd ra rb rc s) = .next t₁ → t₁.kept = s.kept := by
  intros; unfold execCasW at *; grind [State.opAmo_kept, ok]

theorem execSwapW_kept (c : CoreId) (rd : RegNo) (ra : RegNo) (rb : RegNo) (s : State) : ∀ t₁,
    (execSwapW c rd ra rb s) = .next t₁ → t₁.kept = s.kept := by
  intros; unfold execSwapW at *; grind [State.opAmo_kept, ok]

theorem execAmoaddW_kept (c : CoreId) (rd : RegNo) (ra : RegNo) (rb : RegNo) (s : State) : ∀ t₁,
    (execAmoaddW c rd ra rb s) = .next t₁ → t₁.kept = s.kept := by
  intros; unfold execAmoaddW at *; grind [State.opAmo_kept, ok]

theorem execLlD_kept (c : CoreId) (rd : RegNo) (ra : RegNo) (s : State) : ∀ t₁,
    (execLlD c rd ra s) = .next t₁ → t₁.kept = s.kept := by
  intros; unfold execLlD at *; grind [State.opLl_kept, ok]

theorem execScD_kept (c : CoreId) (rd : RegNo) (ra : RegNo) (rb : RegNo) (s : State) : ∀ t₁,
    (execScD c rd ra rb s) = .next t₁ → t₁.kept = s.kept := by
  intros; unfold execScD at *; grind [State.opSc_kept, ok]

theorem execCasD_kept (c : CoreId) (rd : RegNo) (ra : RegNo) (rb : RegNo) (rc : RegNo) (s : State) : ∀ t₁,
    (execCasD c rd ra rb rc s) = .next t₁ → t₁.kept = s.kept := by
  intros; unfold execCasD at *; grind [State.opAmo_kept, ok]

theorem execSwapD_kept (c : CoreId) (rd : RegNo) (ra : RegNo) (rb : RegNo) (s : State) : ∀ t₁,
    (execSwapD c rd ra rb s) = .next t₁ → t₁.kept = s.kept := by
  intros; unfold execSwapD at *; grind [State.opAmo_kept, ok]

theorem execAmoaddD_kept (c : CoreId) (rd : RegNo) (ra : RegNo) (rb : RegNo) (s : State) : ∀ t₁,
    (execAmoaddD c rd ra rb s) = .next t₁ → t₁.kept = s.kept := by
  intros; unfold execAmoaddD at *; grind [State.opAmo_kept, ok]

theorem execZline_kept (c : CoreId) (ra : RegNo) (s : State) : ∀ t₁,
      (execZline c ra s) = .next t₁ → t₁.kept = s.kept := by
  intros; unfold execZline at *; grind [State.opZline_kept, ok]

theorem execClean_kept (c : CoreId) (ra : RegNo) (s : State) : ∀ t₁,
      (execClean c ra s) = .next t₁ → t₁.kept = s.kept := by
  intros; unfold execClean at *; grind [State.opMaint_kept, ok]

theorem execInval_kept (c : CoreId) (ra : RegNo) (s : State) : ∀ t₁,
      (execInval c ra s) = .next t₁ → t₁.kept = s.kept := by
  intros; unfold execInval at *; grind [State.opMaint_kept, ok]

theorem execFlush_kept (c : CoreId) (ra : RegNo) (s : State) : ∀ t₁,
      (execFlush c ra s) = .next t₁ → t₁.kept = s.kept := by
  intros; unfold execFlush at *; grind [State.opMaint_kept, ok]

theorem execCleanSw_kept (c : CoreId) (ra : RegNo) (s : State) : ∀ t₁,
    (execCleanSw c ra s) = .next t₁ → t₁.kept = s.kept := by
  intros; unfold execCleanSw at *; grind [State.opSw_kept, ok]

theorem execInvalSw_kept (c : CoreId) (ra : RegNo) (s : State) : ∀ t₁,
    (execInvalSw c ra s) = .next t₁ → t₁.kept = s.kept := by
  intros; unfold execInvalSw at *; grind [State.opSw_kept, ok]

theorem execFlushSw_kept (c : CoreId) (ra : RegNo) (s : State) : ∀ t₁,
    (execFlushSw c ra s) = .next t₁ → t₁.kept = s.kept := by
  intros; unfold execFlushSw at *; grind [State.opSw_kept, ok]

theorem execTlbi_kept (c : CoreId) (rx : RegNo) (ra : RegNo) (flags : BitVec 12) (s : State) : ∀ t₁,
    (execTlbi c rx ra flags s) = .next t₁ → t₁.kept = s.kept := by
  intros; unfold execTlbi at *; grind [State.opInval_kept, ok]

theorem execSlbi_kept (c : CoreId) (rx : RegNo) (ra : RegNo) (flags : BitVec 12) (s : State) : ∀ t₁,
    (execSlbi c rx ra flags s) = .next t₁ → t₁.kept = s.kept := by
  intros; unfold execSlbi at *; grind [State.opInval_kept, ok]

theorem execWcinv_kept (c : CoreId) (rx : RegNo) (flags : BitVec 12) (s : State) : ∀ t₁,
    (execWcinv c rx flags s) = .next t₁ → t₁.kept = s.kept := by
  intros; unfold execWcinv at *; grind [State.opInval_kept, ok]

theorem execTlbsync_kept (c : CoreId) (s : State) : ∀ t₁, (execTlbsync c s) = .next t₁ → t₁.kept = s.kept := by
  unfold execTlbsync; apply arm_kept; apply State.runInstr_kept; intro u; grind [privileged_kept,
      State.finishInvals_kept, Ex.st, State.runInstr_kept,
      ok]

theorem execRemoteInvalidation_kept (c : CoreId) (s : State) : ∀ t₁,
    (execRemoteInvalidation c s) = .next t₁ → t₁.kept = s.kept := by
  intros; unfold execRemoteInvalidation at *; grind [State.updCore_kept, State.kept, ok]

theorem execLlSnoopHoldEnd_kept (c : CoreId) (s : State) : ∀ t₁,
    (execLlSnoopHoldEnd c s) = .next t₁ → t₁.kept = s.kept := by
  intros; unfold execLlSnoopHoldEnd at *; grind [State.updCore_kept, ok, State.fillQuad_kept, State.quadGo_kept]

end Sys2Proof.Machine
end

