-- ==== Sys2Proof/Laws/KeptSys.lean ====
section
/-! SUPPORT. What the operations of Machine/Sys leave alone. -/

set_option Elab.async false
set_option linter.unusedVariables false
set_option linter.unusedTactic false
set_option linter.unreachableTactic false

namespace Sys2Proof.Machine

theorem State.sysEffect_kept (s : State) (c : Fin 64) (r : Reg) (idx : List ℕ) (old : Word) (new : Word) (v : Word) :
    (State.sysEffect s c r idx old new v).kept = s.kept := by
  intros; unfold State.sysEffect at *; grind [State.updCore_kept, State.updL2_kept, State.coreEoi_kept,
      State.sendResidency_kept, State.updTrace_kept, State.traceFlush_kept]

theorem State.sysStore_kept (s : State) (c : Fin 64) (r : Reg) (idx : List ℕ) (new : Word) (v : Word) :
    (State.sysStore s c r idx new v).kept = s.kept := by
  intros; unfold State.sysStore at *; grind [State.sysEffect_kept, State.setCore_kept]

theorem State.sysWrite_kept (s : State) (c : Fin 64) (r : Reg) (idx : List ℕ) (v : Word) :
    (State.sysWrite s c r idx v).kept = s.kept := by
  intros; unfold State.sysWrite at *; grind [State.sysStore_kept]

theorem State.sysModify_kept (s : State) (c : Fin 64) (r : Reg) (idx : List ℕ) (f : Word → Word) (wo : Word) :
    (State.sysModify s c r idx f wo).2.kept = s.kept := by
  intros; unfold State.sysModify at *; grind [State.sysStore_kept, State.updCore_kept]

theorem sysRefused_kept (cause : ℕ) (word : Word) (s : State) : (sysRefused cause word s).st.kept = s.kept := by
  intros; unfold sysRefused at *; grind [illegal_kept, privileged_kept, Ex.st]

theorem State.opMfs_kept (s : State) (c : Fin 64) (rx : Fin 32) (num : BitVec 12) :
    (State.opMfs s c rx num).kept = s.kept := by
  intros; unfold State.opMfs at *; grind [State.runInstr_kept, sysRefused_kept, privileged_kept, State.updCore_kept,
      State.doneG_kept, Ex.st]

theorem State.opMts_kept (s : State) (c : Fin 64) (ra : Fin 32) (num : BitVec 12) :
    (State.opMts s c ra num).kept = s.kept := by
  intros; unfold State.opMts at *; grind [State.runInstr_kept, sysRefused_kept, privileged_kept, State.sysWrite_kept,
      Ex.st]

theorem State.opMs_kept (s : State) (c : Fin 64) (xfn : ℕ) (rx : Fin 32) (ra : Fin 32) (num : BitVec 12)
    (f : Word → Word → Word) (set : Bool) : (State.opMs s c xfn rx ra num f set).kept = s.kept := by
  intros; unfold State.opMs at *; grind [State.runInstr_kept, sysRefused_kept, privileged_kept, State.sysModify_kept,
      State.updCore_kept, Ex.st]

theorem State.readFrame_kept (s : State) (c : Fin 64) (l : Level) (ea : Word) (x4 : ℕ) (x5 : List Word) :
    (State.readFrame s c l ea x4 x5).2.kept = s.kept := by
  induction x4 generalizing s ea x5 with
  | zero => first | rfl | simp [State.readFrame]
  | succ k ih =>
    unfold State.readFrame
    split <;> grind [State.readDw_kept]

theorem State.opTret_kept (s : State) (c : Fin 64) : (State.opTret s c).kept = s.kept := by
  intros; unfold State.opTret at *; grind [State.runInstr_kept, privileged_kept, State.readFrame_kept,
      State.updCore_kept, foldl_kept, Ex.st, State.setReg_kept]

theorem State.cleanOpen_kept (s : State) (c : Fin 64) (x2 : List ℕ) :
    (State.cleanOpen s c x2).2.kept = s.kept := by
  induction x2 generalizing s with
  | nil => rfl
  | cons n ns ih => unfold State.cleanOpen; split <;> grind [State.maint_kept]

theorem kept_probes (s : State) (x) : ({ s with probes := x } : State).kept = s.kept := rfl

theorem State.opPsync_kept (s : State) (c : Fin 64) : (State.opPsync s c).kept = s.kept := by
  unfold State.opPsync; refine State.runInstr_kept _ _ _ _ ?_; intro u; dsimp only; split
  · grind [State.drainStores_kept, Ex.st]
  · rename_i s1 h1
    have e1 : s1.kept = u.kept := by grind [State.drainStores_kept]
    split
    · split
      · exact (kept_probes _ _).trans <| (State.updCore_kept _ _ _).trans e1
      · exact e1
    · split
      · grind [State.cleanOpen_kept, Ex.st]
      · rename_i s2 h2
        have e2 : s2.kept = u.kept := by grind [State.cleanOpen_kept]
        split
        · exact (kept_probes _ _).trans <| (State.updCore_kept _ _ _).trans e2
        · exact e2

theorem execSyscall_kept (c : CoreId) (code : BitVec 12) (s : State) : ∀ t₁,
    (execSyscall c code s) = .next t₁ → t₁.kept = s.kept := by
  unfold execSyscall; apply arm_kept; apply State.runInstr_kept; intro u; grind [State.event_kept, Ex.st,
      State.runInstr_kept, ok]

theorem execHcall_kept (c : CoreId) (code : BitVec 12) (s : State) : ∀ t₁,
    (execHcall c code s) = .next t₁ → t₁.kept = s.kept := by
  unfold execHcall; apply arm_kept; apply State.runInstr_kept; intro u; grind [privileged_kept, State.event_kept,
      Ex.st, State.runInstr_kept,
      ok]

theorem execBrk_kept (c : CoreId) (code : BitVec 12) (s : State) : ∀ t₁,
    (execBrk c code s) = .next t₁ → t₁.kept = s.kept := by
  unfold execBrk; apply arm_kept; apply State.runInstr_kept; intro u; grind [Ex.st, State.runInstr_kept, ok]

theorem execTret_kept (c : CoreId) (s : State) : ∀ t₁, (execTret c s) = .next t₁ → t₁.kept = s.kept := by
  intros; unfold execTret at *; grind [State.opTret_kept, ok]

theorem execRsflush_kept (c : CoreId) (s : State) : ∀ t₁, (execRsflush c s) = .next t₁ → t₁.kept = s.kept := by
  unfold execRsflush; apply arm_kept; apply State.runInstr_kept; intro u; grind [State.updCore_kept, Ex.st,
      State.runInstr_kept, ok]

theorem execBarPred_kept (c : CoreId) (s : State) : ∀ t₁, (execBarPred c s) = .next t₁ → t₁.kept = s.kept := by
  unfold execBarPred; apply arm_kept; apply State.runInstr_kept; intro u; grind [State.updCore_kept, Ex.st,
      State.runInstr_kept, ok]

theorem execClrPred_kept (c : CoreId) (s : State) : ∀ t₁, (execClrPred c s) = .next t₁ → t₁.kept = s.kept := by
  unfold execClrPred; apply arm_kept; apply State.runInstr_kept; intro u; grind [State.updCore_kept, Ex.st,
      State.runInstr_kept, ok]

theorem execWfi_kept (c : CoreId) (s : State) : ∀ t₁, (execWfi c s) = .next t₁ → t₁.kept = s.kept := by
  unfold execWfi; apply arm_kept; rw [State.wakeCheck_kept]; apply State.runInstr_kept; intro u
  grind [privileged_kept, State.updCore_kept, Ex.st]

theorem execMfs_kept (c : CoreId) (rx : RegNo) (num : BitVec 12) (s : State) : ∀ t₁,
    (execMfs c rx num s) = .next t₁ → t₁.kept = s.kept := by
  intros; unfold execMfs at *; grind [State.opMfs_kept, ok]

theorem execMts_kept (c : CoreId) (ra : RegNo) (num : BitVec 12) (s : State) : ∀ t₁,
    (execMts c ra num s) = .next t₁ → t₁.kept = s.kept := by
  intros; unfold execMts at *; grind [State.opMts_kept, ok]

theorem execMsset_kept (c : CoreId) (rx : RegNo) (ra : RegNo) (num : BitVec 12) (s : State) : ∀ t₁,
    (execMsset c rx ra num s) = .next t₁ → t₁.kept = s.kept := by
  intros; unfold execMsset at *; grind [State.opMs_kept, ok]

theorem execMsclr_kept (c : CoreId) (rx : RegNo) (ra : RegNo) (num : BitVec 12) (s : State) : ∀ t₁,
    (execMsclr c rx ra num s) = .next t₁ → t₁.kept = s.kept := by
  intros; unfold execMsclr at *; grind [State.opMs_kept, ok]

theorem execFence_kept (c : CoreId) (s : State) : ∀ t₁, (execFence c s) = .next t₁ → t₁.kept = s.kept := by
  unfold execFence; apply arm_kept; apply State.runInstr_kept; intro u; grind [State.drainStores_kept, Ex.st,
      State.runInstr_kept, ok]

theorem execFenceSl_kept (c : CoreId) (s : State) : ∀ t₁, (execFenceSl c s) = .next t₁ → t₁.kept = s.kept := by
  unfold execFenceSl; apply arm_kept; apply State.runInstr_kept; intro u; grind [State.drainStores_kept, Ex.st,
      State.runInstr_kept, ok]

theorem execFenceIo_kept (c : CoreId) (s : State) : ∀ t₁, (execFenceIo c s) = .next t₁ → t₁.kept = s.kept := by
  unfold execFenceIo; apply arm_kept; apply State.runInstr_kept; intro u; grind [State.drainN_kept, foldl_kept,
      Ex.st, State.runInstr_kept,
      ok]

theorem execFenceI_kept (c : CoreId) (s : State) : ∀ t₁, (execFenceI c s) = .next t₁ → t₁.kept = s.kept := by
  unfold execFenceI; apply arm_kept; apply State.runInstr_kept; intro u; grind [State.drainAll_kept,
      State.updCore_kept, Ex.st, State.runInstr_kept,
      ok]

theorem execLsync_kept (c : CoreId) (s : State) : ∀ t₁, (execLsync c s) = .next t₁ → t₁.kept = s.kept := by
  unfold execLsync; apply arm_kept; apply State.runInstr_kept; intro u; grind [Ex.st, State.runInstr_kept, ok]

theorem execPsync_kept (c : CoreId) (s : State) : ∀ t₁, (execPsync c s) = .next t₁ → t₁.kept = s.kept := by
  intros; unfold execPsync at *; grind [State.opPsync_kept, ok]

theorem execIllegalInstruction_kept (c : CoreId) (word : BitVec 32) (s : State) : ∀ t₁,
    (execIllegalInstruction c word s) = .next t₁ → t₁.kept = s.kept := by
  unfold execIllegalInstruction; apply arm_kept; split
  · rfl
  · apply State.runInstr_kept; intro u; exact illegal_kept _ _

end Sys2Proof.Machine
end

