-- ==== Sys2Proof/Laws/KeptCleat.lean ====
section
/-! SUPPORT. What the operations of Machine/Cleat leave alone. -/

set_option Elab.async false
set_option linter.unusedVariables false
set_option linter.unusedTactic false
set_option linter.unreachableTactic false

namespace Sys2Proof.Machine

theorem State.busErr_kept (s : State) (w : Who) (write : Bool) (kind : ℕ) (pa : ℕ) :
    (State.busErr s w write kind pa).kept = s.kept := by
  intros; unfold State.busErr at *; grind [State.addrErr_kept]

theorem State.cleatSubmit_kept (s : State) (op : CleatOp) (w : Who) (n : ℕ) :
    (State.cleatSubmit s op w n).kept = s.kept := by
  intros; unfold State.cleatSubmit at *; grind [State.kept]

theorem State.cleatGive_kept (s : State) (r : CleatReq) : (State.cleatGive s r).kept = s.kept := by
  intros; unfold State.cleatGive at *; grind [State.count_kept, State.capture_kept, State.setReg_kept]

theorem State.cleatTakes_kept (s : State) (n : ℕ) (l : List CleatReq) : (State.cleatTakes s n l).kept = s.kept := by
  intros; unfold State.cleatTakes at *; grind [State.setReg_kept, State.event_kept, foldl_kept, State.kept]

theorem State.cleatWindow_kept (s : State) : (State.cleatWindow s).kept = s.kept := by
  intros; unfold State.cleatWindow at *; grind [State.setReg_kept, State.cleatGive_kept, State.cleatTakes_kept,
      foldl_kept, State.kept]

theorem State.cleatAnswer_kept (s : State) (id : ℕ) (n : ℕ) : ∀ a t, (State.cleatAnswer s id n) = some (a,
    t) → t.kept = s.kept := by
  intros; unfold State.cleatAnswer at *; grind [State.kept]

theorem State.cleatTakeNow_kept (s : State) (w : Who) (n : ℕ) : (State.cleatTakeNow s w n).2.kept = s.kept := by
  unfold State.cleatTakeNow; split
  · rename_i r h; exact State.cleatAnswer_kept _ _ _ _ _ h
  · dsimp only; generalize hx : Option.getD _ _ = x
    have e : (((s.cleatSubmit .take w n).cleatWindow).cleatAnswer w.cleatId n).getD (0,
      (s.cleatSubmit .take w n).cleatWindow) = x := hx
    revert e; cases hq : ((s.cleatSubmit .take w n).cleatWindow).cleatAnswer w.cleatId n with
    | none => intro e; subst e; simp [State.cleatWindow_kept, State.cleatSubmit_kept]
    | some r => intro e; subst e; simp [State.cleatAnswer_kept _ _ _ _ _ hq, State.cleatWindow_kept,
        State.cleatSubmit_kept]

theorem State.cleatCommand_kept (s : State) (op : CleatOp) (r : Reg) (w : Who) (n : ℕ) :
    (State.cleatCommand s op r w n).kept = s.kept := by
  intros; unfold State.cleatCommand at *; grind [State.busErr_kept, State.cleatSubmit_kept]

theorem execCleatTake_kept (by' : Sender) (n : Fin 4096) (s : State) : ∀ t₁,
    (execCleatTake by' n s) = .next t₁ → t₁.kept = s.kept := by
  intros; unfold execCleatTake at *; grind [State.cleatSubmit_kept, ok, State.cleatCommand_kept]

theorem execCleatGive_kept (by' : Sender) (n : Fin 4096) (s : State) : ∀ t₁,
    (execCleatGive by' n s) = .next t₁ → t₁.kept = s.kept := by
  intros; unfold execCleatGive at *; grind [State.cleatSubmit_kept, ok, State.cleatCommand_kept]

theorem execCleatForce_kept (by' : Sender) (n : Fin 4096) (s : State) : ∀ t₁,
    (execCleatForce by' n s) = .next t₁ → t₁.kept = s.kept := by
  intros; unfold execCleatForce at *; grind [State.cleatSubmit_kept, ok, State.cleatCommand_kept]

theorem execCleatWindow_kept (s : State) : ∀ t₁, (execCleatWindow s) = .next t₁ → t₁.kept = s.kept := by
  intros; unfold execCleatWindow at *; grind [State.cleatWindow_kept, ok]

end Sys2Proof.Machine
end

