-- ==== Sys2Proof/Laws/KeptFsiReply.lean ====
section
/-! SUPPORT. What the operations of Machine/FsiReply leave alone. -/

set_option Elab.async false
set_option linter.unusedVariables false
set_option linter.unusedTactic false
set_option linter.unreachableTactic false

namespace Sys2Proof.Machine

theorem State.reply_kept (s : State) (box : ℕ) (w0 : ℕ) (a : Ans) (replay : Bool) :
    (State.reply s box w0 a replay).kept = s.kept := by
  intros; unfold State.reply at *; grind [State.kept]

theorem State.complete_kept (s : State) (box : ℕ) (w0 : ℕ) (a : Ans) (replay : Bool) :
    (State.complete s box w0 a replay).kept = s.kept := by
  intros; unfold State.complete at *; grind [State.pushEvent_kept]

theorem State.opEnd_kept (s : State) (id : ℕ) (a : Ans) (replay : Bool) : (State.opEnd s id a replay).kept = s.kept := by
  intros; unfold State.opEnd at *; grind [State.complete_kept, State.reply_kept, State.kept]

theorem State.endHolding_kept (s : State) (code : ℕ) (o : Obj) (a : Ans) : (State.endHolding s code o a).kept = s.kept := by
  intros; unfold State.endHolding at *; grind [State.opEnd_kept, foldl_kept]

end Sys2Proof.Machine
end

