-- ==== Sys2Proof/Laws/KeptSliceOps.lean ====
section
/-! SUPPORT. What the operations of Machine/SliceOps leave alone. -/

set_option Elab.async false
set_option linter.unusedVariables false
set_option linter.unusedTactic false
set_option linter.unreachableTactic false

namespace Sys2Proof.Machine

theorem State.sliceVec_kept (s : State) (n : ℕ) (i : ℕ) : (State.sliceVec s n i).kept = s.kept := by
  intros; unfold State.sliceVec at *; grind [State.srcSet_kept]

theorem State.sliceErr_kept (s : State) (n : ℕ) (q : ℕ) (kind : ℕ) : (State.sliceErr s n q kind).kept = s.kept := by
  intros; unfold State.sliceErr at *; grind [State.countFld_kept, State.count_kept, State.capture_kept,
      State.sliceVec_kept]

theorem State.seErr_kept (s : State) (n : ℕ) (kind : ℕ) : (State.seErr s n kind).kept = s.kept := by
  intros; unfold State.seErr at *; grind [State.countFld_kept, State.count_kept, State.capture_kept]

theorem State.queueErr_kept (s : State) (n : ℕ) (q : ℕ) (kind : ℕ) : (State.queueErr s n q kind).kept = s.kept := by
  intros; unfold State.queueErr at *; grind [State.setReg_kept]

theorem State.outRing_kept (s : State) (n : ℕ) : (State.outRing s n).2.kept = s.kept := by
  intros; unfold State.outRing at *; grind [State.setFld_kept, State.sliceErr_kept, State.srcSet_kept]

theorem State.inRing_kept (s : State) (n : ℕ) : (State.inRing s n).kept = s.kept := by
  intros; unfold State.inRing at *; grind [State.setFld_kept, State.sliceVec_kept]

theorem State.unitErr_kept (s : State) (who : Nat) (write : Bool) (pa : Nat) :
    (State.unitErr s who write pa).kept = s.kept := by
  intros; unfold State.unitErr at *; grind [State.addrErr_kept, State.kept]

theorem State.ioReadSecs_kept (s : State) (who : ℕ) (pid : BitVec 29) (pa stop : ℕ) (n : ℕ) (d : Bytes) (p : List Bool) :
    (State.ioReadSecs s who pid pa stop n d p).2.kept = s.kept := by
  induction n generalizing s pa d p with
  | zero => rfl
  | succ k ih =>
    unfold State.ioReadSecs
    split
    · rfl
    · split
      · exact State.unitErr_kept ..
      · dsimp only; split
        · grind [State.agentRead_kept]
        · rw [ih]; grind [State.agentRead_kept]

theorem State.ioRead_kept (s : State) (pa : ℕ) (len : ℕ) (who : ℕ) (pid : BitVec 29) :
    (State.ioRead s pa len who pid).2.kept = s.kept := by
  intros; unfold State.ioRead at *; grind [State.ioReadSecs_kept]

theorem State.ioWriteSecs_kept (s : State) (who : ℕ) (pid : BitVec 29) (pa : ℕ) (n : ℕ) (d : Bytes) (p : List Bool) :
    (State.ioWriteSecs s who pid pa n d p).2.kept = s.kept := by
  induction n generalizing s pa d p with
  | zero => rfl
  | succ k ih =>
    unfold State.ioWriteSecs
    split
    · rfl
    · split
      · exact State.unitErr_kept ..
      · dsimp only; split
        · grind [State.agentWrite_kept]
        · rw [ih]; grind [State.agentWrite_kept]

theorem State.ioWrite_kept (s : State) (pa : ℕ) (d : Bytes) (p : List Bool) (who : ℕ) (pid : BitVec 29) :
    (State.ioWrite s pa d p who pid).2.kept = s.kept := by
  intros; unfold State.ioWrite at *; grind [State.ioWriteSecs_kept]

theorem State.ioClean_kept (s : State) (pid : BitVec 29) (pa : ℕ) (len : ℕ) : (State.ioClean s pid pa len).kept = s.kept := by
  intros; unfold State.ioClean at *; grind [State.agentClean_kept, foldl_kept]

theorem State.setJobs_kept (s : State) (l : List Job) : (State.setJobs s l).kept = s.kept := by
  intros; unfold State.setJobs at *; grind [State.kept]

theorem State.updJob_kept (s : State) (id : ℕ) (f : Job → Job) : (State.updJob s id f).kept = s.kept := by
  intros; unfold State.updJob at *; grind [State.setJobs_kept]

theorem State.drainEnd_kept (s : State) (n : ℕ) (q : ℕ) : (State.drainEnd s n q).kept = s.kept := by
  intros; unfold State.drainEnd at *; grind [State.setFld_kept]

theorem State.commitJob_kept (s : State) (n : Nat) (j : Job) (pa v : Nat) :
    (State.commitJob s n j pa v).2.kept = s.kept := by
  unfold State.commitJob
  generalize toLe v 8 ++ zeros 56 = e
  have h := State.ioWrite_kept s pa e [] 16 (s.slicePid n)
  split
  · rename_i h1; rw [h1] at h; simp only [State.updJob_kept, State.ioClean_kept]; exact h
  · rename_i h1; rw [h1] at h; simp only [State.updJob_kept]; exact h
  · rename_i h1; rw [h1] at h; exact h

theorem State.completeOne_kept (s : State) (n : ℕ) (q : ℕ) : (State.completeOne s n q).2.kept = s.kept := by
  unfold State.completeOne; split
  · exact State.commitJob_kept ..
  · split
    · rfl
    · split
      · rfl
      · split
        · rfl
        · dsimp only; split
          · grind [State.drainEnd_kept, State.setJobs_kept]
          · split
            · rfl
            · split
              · grind [State.drainEnd_kept, State.setJobs_kept, State.queueErr_kept, State.sliceErr_kept]
              · split
                · grind [State.ioWrite_kept]
                · grind [State.ioWrite_kept, State.drainEnd_kept, State.setJobs_kept, State.queueErr_kept,
                    State.sliceErr_kept]
                · rename_i s1 h1
                  have e1 : s1.kept = s.kept := by grind [State.ioWrite_kept]
                  split <;> (try split) <;> grind [State.srcSet_kept, State.setFld_kept, State.drainEnd_kept,
                      State.setJobs_kept]

theorem State.pump_kept (s : State) (n : ℕ) (q : ℕ) (x3 : ℕ) : (State.pump s n q x3).kept = s.kept := by
  induction x3 generalizing s with
  | zero => first | rfl | simp [State.pump]
  | succ k ih =>
    unfold State.pump
    split <;> grind [State.completeOne_kept]

theorem State.pumpDurable_kept (s : State) : (State.pumpDurable s).kept = s.kept := by
  intros; unfold State.pumpDurable at *; grind [State.pump_kept, foldl_kept]

theorem State.cancelPosts_kept (s : State) (n : ℕ) (q : ℕ → Bool) : (State.cancelPosts s n q).kept = s.kept := by
  intros; unfold State.cancelPosts at *; grind [State.setJobs_kept]

theorem State.queueStop_kept (s : State) (n : ℕ) (q : ℕ) : (State.queueStop s n q).kept = s.kept := by
  intros; unfold State.queueStop at *; grind [State.drainEnd_kept, State.pump_kept, State.cancelPosts_kept,
      State.setReg_kept]

theorem State.wQCfg_kept (s : State) (n : ℕ) (q : ℕ) (v : Word) : (State.wQCfg s n q v).kept = s.kept := by
  intros; unfold State.wQCfg at *; grind [State.queueStop_kept, State.setReg_kept, State.sliceErr_kept,
      State.queueErr_kept]

theorem State.wSqDb_kept (s : State) (n : ℕ) (q : ℕ) (add : ℕ) : (State.wSqDb s n q add).kept = s.kept := by
  intros; unfold State.wSqDb at *; grind [State.sliceErr_kept, State.setReg_kept, State.queueErr_kept]

theorem State.wCqHead_kept (s : State) (n : ℕ) (q : ℕ) (v : ℕ) : (State.wCqHead s n q v).kept = s.kept := by
  intros; unfold State.wCqHead at *; grind [State.sliceErr_kept, State.pump_kept, State.setFld_kept]

theorem State.fetchDesc_kept (s : State) (n : ℕ) (q : ℕ) : (State.fetchDesc s n q).kept = s.kept := by
  intros; unfold State.fetchDesc at *; grind [State.sliceErr_kept, State.queueErr_kept, State.ioRead_kept,
      State.setReg_kept, State.pump_kept, State.kept]

theorem State.startCredit_kept (s : State) (e : ℕ) (n : ℕ) : ∀ t,
      (State.startCredit s e n) = some t → t.kept = s.kept := by
  intros; unfold State.startCredit at *; grind [foldl_kept, State.kept]

theorem State.charge_kept (s : State) (j : Job) : (State.charge s j).kept = s.kept := by
  intros; unfold State.charge at *; grind [State.kept]

theorem State.bumpGen_kept (s : State) (n : ℕ) : (State.bumpGen s n).kept = s.kept := by
  intros; unfold State.bumpGen at *; grind [State.sliceVec_kept, State.setFld_kept]

theorem State.sliceDouse_kept (s : State) : (State.sliceDouse s).kept = s.kept := by
  intros; unfold State.sliceDouse at *; grind [State.kept]

end Sys2Proof.Machine
end

