-- ==== Sys2Proof/Laws/KeptFsiBox.lean ====
section
/-! SUPPORT. What the operations of Machine/FsiBox leave alone. -/

set_option Elab.async false
set_option linter.unusedVariables false
set_option linter.unusedTactic false
set_option linter.unreachableTactic false

namespace Sys2Proof.Machine

theorem State.boxClear_kept (s : State) (box : ℕ) : (State.boxClear s box).kept = s.kept := by
  intros; unfold State.boxClear at *; grind [State.setFld_kept]

theorem State.putWords_kept (s : State) (r : Reg) (i : ℕ) (ws : List ℕ) : (State.putWords s r i ws).kept = s.kept := by
  intros; unfold State.putWords at *; grind [State.setReg_kept, foldl_kept]

theorem State.boxPost_kept (s : State) (box : ℕ) (ws : List ℕ) : (State.boxPost s box ws).kept = s.kept := by
  intros; unfold State.boxPost at *; grind [State.setFld_kept, State.putWords_kept, State.inRing_kept]

theorem State.boxAuto_kept (s : State) (box : ℕ) : (State.boxAuto s box).kept = s.kept := by
  intros; unfold State.boxAuto at *; grind [State.boxPost_kept, State.boxClear_kept]

theorem State.rung_kept (s : State) (box : Nat) :
    (State.rung s box).kept = s.kept := by
  intros; unfold State.rung at *; grind [State.kept]

theorem State.reqRing_kept (s : State) (m : ℕ) : (State.reqRing s m).kept = s.kept := by
  intros; unfold State.reqRing at *; grind [State.setFld_kept, State.boxAuto_kept, State.rung_kept]

theorem State.slcRing_kept (s : State) (n : ℕ) : (State.slcRing s n).kept = s.kept := by
  intros; unfold State.slcRing at *; grind [State.outRing_kept, State.boxAuto_kept, State.rung_kept]

end Sys2Proof.Machine
end

