-- ==== Sys2Proof/Laws/KeptHalyard.lean ====
section
/-! SUPPORT. What the operations of Machine/Halyard leave alone. -/

set_option Elab.async false
set_option linter.unusedVariables false
set_option linter.unusedTactic false
set_option linter.unreachableTactic false

namespace Sys2Proof.Machine

theorem State.hyDrop_kept (s : State) (c : Fin 64) (r : ℕ) : (State.hyDrop s c r).kept = s.kept := by
  intros; unfold State.hyDrop at *; grind [State.updTrace_kept, State.countFld_kept]

theorem State.hyPut_kept (s : State) (r : ℕ) (f : TraceFrame) : (State.hyPut s r f).2.kept = s.kept := by
  intros; unfold State.hyPut at *; grind [State.ioWrite_kept, State.setReg_kept]

theorem State.hyArrive_kept (s : State) (c : Fin 64) (lossy : Bool) : (State.hyArrive s c lossy).2.kept = s.kept := by
  intros; unfold State.hyArrive at *; grind [State.updTrace_kept, State.hyDrop_kept, State.hyPut_kept]

theorem State.hyFlush_kept (s : State) (c : Fin 64) (x2 : ℕ) : (State.hyFlush s c x2).kept = s.kept := by
  induction x2 generalizing s with
  | zero => first | rfl | simp [State.hyFlush]
  | succ k ih =>
    unfold State.hyFlush
    split <;> grind [State.hyArrive_kept]

theorem execTraceFrameArrive_kept (c : CoreId) (s : State) : ∀ t₁,
    (execTraceFrameArrive c s) = .next t₁ → t₁.kept = s.kept := by
  intros; unfold execTraceFrameArrive at *; grind [State.hyArrive_kept, ok]

theorem execTraceLossNotice_kept (c : CoreId) (s : State) : ∀ t₁,
    (execTraceLossNotice c s) = .next t₁ → t₁.kept = s.kept := by
  intros; unfold execTraceLossNotice at *; grind [State.updCore_kept, ok]

theorem execTraceIdleFlush_kept (c : CoreId) (s : State) : ∀ t₁,
    (execTraceIdleFlush c s) = .next t₁ → t₁.kept = s.kept := by
  intros; unfold execTraceIdleFlush at *; grind [State.traceFlush_kept, ok]

theorem execTrigInEdge_kept (n : Fin 4) (s : State) : ∀ t₁, (execTrigInEdge n s) = .next t₁ → t₁.kept = s.kept := by
  intros; unfold execTrigInEdge at *; grind [State.updCore_kept, State.event_kept, foldl_kept, ok,
      State.seqEdge_kept]

theorem State.unhalt_kept (s : State) (c : Fin 64) :
    (State.unhalt s c).kept = s.kept := by
  intros; unfold State.unhalt at *; grind [State.updCore_kept, State.wakeCheck_kept, State.kept]

theorem State.dbgResume_kept (s : State) (c : Fin 64) : (State.dbgResume s c).kept = s.kept := by
  intros; unfold State.dbgResume at *; grind [State.updCore_kept, State.unhalt_kept]

theorem State.applyTokens_kept (s : State) : (State.applyTokens s).kept = s.kept := by
  intros; unfold State.applyTokens at *; grind [State.updCore_kept, State.dbgResume_kept, foldl_kept]

theorem State.endToken_kept (s : State) (n : ℕ) : (State.endToken s n).kept = s.kept := by
  intros; unfold State.endToken at *; grind [State.applyTokens_kept, State.kept]

theorem execTokenExpiry_kept (t : BitVec 32) (s : State) : ∀ t₁,
      (execTokenExpiry t s) = .next t₁ → t₁.kept = s.kept := by
  intros; unfold execTokenExpiry at *; grind [State.feEvent_kept, State.endToken_kept, ok]

theorem State.wDbgCtl_kept (s : State) (c : Fin 64) (v : Word) : (State.wDbgCtl s c v).kept = s.kept := by
  intros; unfold State.wDbgCtl at *; grind [State.haltCheck_kept, State.updCore_kept, State.dbgResume_kept,
      State.unhalt_kept]

end Sys2Proof.Machine
end

