-- ==== Sys2Proof/Laws/KeptSlice.lean ====
section
/-! SUPPORT. What the operations of Machine/Slice leave alone. -/

set_option Elab.async false
set_option linter.unusedVariables false
set_option linter.unusedTactic false
set_option linter.unreachableTactic false

namespace Sys2Proof.Machine

theorem State.freshBytes_kept (s : State) (x1 : ℕ) : (State.freshBytes s x1).2.kept = s.kept := by
  induction x1 generalizing s with
  | zero => first | rfl | simp [State.freshBytes]
  | succ k ih =>
    unfold State.freshBytes
    grind [State.fresh_kept]

theorem State.freshUpTo_kept (s : State) (n : ℕ) : (State.freshUpTo s n).2.kept = s.kept := by
  intros; unfold State.freshUpTo at *; grind [State.fresh_kept]

theorem State.withIn_kept (s : State) (j : Job) (pa : ℕ) (len : ℕ) (k : Bytes → State → JobAns) (hk : ∀ x u a t,
    k x u = some (a, t) → t.kept = u.kept) : ∀ a t, (State.withIn s j pa len k) = some (a, t) → t.kept = s.kept := by
  unfold State.withIn; grind [State.ioRead_kept, State.sliceErr_kept]

theorem State.putOut_kept (s : State) (j : Job) (pa : ℕ) (d : Bytes) (status : ℕ) (result : Word) (p : List Bool) :
    ∀ a t, (State.putOut s j pa d status result p) = some (a, t) → t.kept = s.kept := by
  intros; unfold State.putOut at *; grind [State.ioWrite_kept]

theorem State.putFit_kept (s : State) (j : Job) (pa : ℕ) (d : Bytes) (result : Word) (status : ℕ) (p : List Bool)
    : ∀ a t, (State.putFit s j pa d result status p) = some (a, t) → t.kept = s.kept := by
  intros; unfold State.putFit at *; grind [State.freshUpTo_kept, State.putOut_kept]

theorem State.badLength_kept (s : State) : ∀ a t, (State.badLength s) = some (a, t) → t.kept = s.kept := by
  intros; unfold State.badLength at *; grind [State.freshUpTo_kept]

theorem State.runJob_kept (s : State) (n : ℕ) (q : ℕ) (i : ℕ) (svc : ℕ) (op : ℕ) (rngs : Job → List Rng)
    (unused : Job → Bool) (fit : Job → State → Bool) (keyOk : Job → State → Bool)
    (act : Job → List ℕ → State → JobAns) (ha : ∀ j l u a t, act j l u = some (a, t) → t.kept = u.kept) :
    (State.runJob s n q i svc op rngs unused fit keyOk act).kept = s.kept := by
  unfold State.runJob; split
  · rfl
  · split
    · exact State.pump_kept _ _ _ _
    · split
      · rfl
      · rename_i s1 h1
        have e1 : ∀ j, (s1.charge j).kept = s.kept := by grind [State.startCredit_kept, State.charge_kept,
      State.pump_kept, State.updJob_kept, State.pumpDurable_kept, State.ioClean_kept]
        dsimp only
        split
        · simpa only [State.pumpDurable_kept, State.pump_kept, State.updJob_kept] using e1 _
        · split
          · simpa only [State.pumpDurable_kept, State.pump_kept, State.updJob_kept] using e1 _
          · split
            · simpa only [State.pumpDurable_kept, State.pump_kept, State.updJob_kept] using e1 _
            · split
              · simpa only [State.pumpDurable_kept, State.pump_kept, State.updJob_kept] using e1 _
              · split
                · rfl
                · rename_i h2
                  have e2 := ha _ _ _ _ _ h2
                  split
                  · simpa only [State.pumpDurable_kept, State.pump_kept, State.updJob_kept, e2] using e1 _
                  · simp only [State.pumpDurable_kept, State.pump_kept, State.updJob_kept]
                    rw [foldl_kept _ (fun s a => State.ioClean_kept _ _ _ _), e2]
                    exact e1 _

theorem execCopy_kept (n : Fin 8192) (q : Fin 64) (i : Fin 4) (s : State) : ∀ t₁,
    (execCopy n q i s) = .next t₁ → t₁.kept = s.kept := by
  unfold execCopy; apply arm_kept; apply State.runJob_kept; intro j l u a t
  split
  · exact State.putFit_kept _ _ _ _ _ _ _ _ _
  · split
    · simp
    · intro h; grind [State.ioRead_kept]
    · rename_i d p s₁ h₁
      intro h; simp only [Option.map_eq_some_iff, Prod.mk.injEq] at h; obtain ⟨r, hr, -, rfl⟩ := h
      have e := State.putFit_kept _ _ _ _ _ _ _ r.1 r.2 hr
      split <;> grind [State.ioRead_kept, State.sliceErr_kept]

theorem execFill_kept (n : Fin 8192) (q : Fin 64) (i : Fin 4) (s : State) : ∀ t₁,
    (execFill n q i s) = .next t₁ → t₁.kept = s.kept := by
  unfold execFill; apply arm_kept; apply State.runJob_kept; intro j l u a t; grind [State.putFit_kept,
      State.runJob_kept, ok]

theorem execCrc_kept (n : Fin 8192) (q : Fin 64) (i : Fin 4) (s : State) : ∀ t₁,
    (execCrc n q i s) = .next t₁ → t₁.kept = s.kept := by
  unfold execCrc; apply arm_kept; apply State.runJob_kept; intro j l u a t; grind [State.withIn_kept,
      State.runJob_kept, ok]

theorem execAesGcmEncrypt_kept (n : Fin 8192) (q : Fin 64) (i : Fin 4) (s : State) : ∀ t₁,
    (execAesGcmEncrypt n q i s) = .next t₁ → t₁.kept = s.kept := by
  unfold execAesGcmEncrypt; apply arm_kept; apply State.runJob_kept; intro j l u a t; grind [State.withIn_kept,
      State.putFit_kept, State.runJob_kept, ok]

theorem execAesGcmDecrypt_kept (n : Fin 8192) (q : Fin 64) (i : Fin 4) (s : State) : ∀ t₁,
    (execAesGcmDecrypt n q i s) = .next t₁ → t₁.kept = s.kept := by
  unfold execAesGcmDecrypt; apply arm_kept; apply State.runJob_kept; intro j l u a t; grind [State.badLength_kept,
      State.withIn_kept, State.putFit_kept, State.runJob_kept,
      ok]

theorem State.hashJob_kept (s : State) (n : Fin 8192) (q : Fin 64) (i : Fin 4) (op : ℕ) (h : Bytes → Bytes) :
    (State.hashJob s n q i op h).kept = s.kept := by
  intros; unfold State.hashJob at *; grind [State.runJob_kept, State.withIn_kept, State.putFit_kept]

theorem execSha256_kept (n : Fin 8192) (q : Fin 64) (i : Fin 4) (s : State) : ∀ t₁,
    (execSha256 n q i s) = .next t₁ → t₁.kept = s.kept := by
  intros; unfold execSha256 at *; grind [State.hashJob_kept, ok]

theorem execSha384_kept (n : Fin 8192) (q : Fin 64) (i : Fin 4) (s : State) : ∀ t₁,
    (execSha384 n q i s) = .next t₁ → t₁.kept = s.kept := by
  intros; unfold execSha384 at *; grind [State.hashJob_kept, ok]

theorem execSha512_kept (n : Fin 8192) (q : Fin 64) (i : Fin 4) (s : State) : ∀ t₁,
    (execSha512 n q i s) = .next t₁ → t₁.kept = s.kept := by
  intros; unfold execSha512 at *; grind [State.hashJob_kept, ok]

theorem execSha3256_kept (n : Fin 8192) (q : Fin 64) (i : Fin 4) (s : State) : ∀ t₁,
    (execSha3256 n q i s) = .next t₁ → t₁.kept = s.kept := by
  intros; unfold execSha3256 at *; grind [State.hashJob_kept, ok]

theorem execSha3384_kept (n : Fin 8192) (q : Fin 64) (i : Fin 4) (s : State) : ∀ t₁,
    (execSha3384 n q i s) = .next t₁ → t₁.kept = s.kept := by
  intros; unfold execSha3384 at *; grind [State.hashJob_kept, ok]

theorem execSha3512_kept (n : Fin 8192) (q : Fin 64) (i : Fin 4) (s : State) : ∀ t₁,
    (execSha3512 n q i s) = .next t₁ → t₁.kept = s.kept := by
  intros; unfold execSha3512 at *; grind [State.hashJob_kept, ok]

theorem execEcdsaP384Sign_kept (n : Fin 8192) (q : Fin 64) (i : Fin 4) (s : State) : ∀ t₁,
    (execEcdsaP384Sign n q i s) = .next t₁ → t₁.kept = s.kept := by
  unfold execEcdsaP384Sign; apply arm_kept; apply State.runJob_kept; intro j l u a t; grind [State.badLength_kept,
      State.withIn_kept, State.putFit_kept, State.runJob_kept,
      ok]

theorem State.verifyJob_kept (s : State) (n : Fin 8192) (q : Fin 64) (i : Fin 4) (op : ℕ) (pkLen : ℕ) (sigLen : ℕ)
    (msgLen : Option ℕ) (verify : Bytes → Bytes → Bytes → Bool) :
    (State.verifyJob s n q i op pkLen sigLen msgLen verify).kept = s.kept := by
  intros; unfold State.verifyJob at *; grind [State.runJob_kept, State.badLength_kept, State.withIn_kept]

theorem execEcdsaP384Verify_kept (n : Fin 8192) (q : Fin 64) (i : Fin 4) (s : State) : ∀ t₁,
    (execEcdsaP384Verify n q i s) = .next t₁ → t₁.kept = s.kept := by
  intros; unfold execEcdsaP384Verify at *; grind [State.verifyJob_kept, ok]

theorem State.putSig_kept (s : State) (j : Job) (pa : ℕ) (x3 : Option (Bytes × ℕ)) : ∀ a t,
    (State.putSig s j pa x3) = some (a, t) → t.kept = s.kept := by
  intros; unfold State.putSig at *; grind [State.putFit_kept]

theorem execMlDsa65Sign_kept (n : Fin 8192) (q : Fin 64) (i : Fin 4) (s : State) : ∀ t₁,
    (execMlDsa65Sign n q i s) = .next t₁ → t₁.kept = s.kept := by
  unfold execMlDsa65Sign; apply arm_kept; apply State.runJob_kept; intro j l u; apply State.withIn_kept; intro m v a t h
  exact (State.putSig_kept _ _ _ _ _ _ h).trans (State.freshBytes_kept v 32)

theorem execMlDsa65Verify_kept (n : Fin 8192) (q : Fin 64) (i : Fin 4) (s : State) : ∀ t₁,
    (execMlDsa65Verify n q i s) = .next t₁ → t₁.kept = s.kept := by
  intros; unfold execMlDsa65Verify at *; grind [State.verifyJob_kept, ok]

theorem State.compressJob_kept (s : State) (n : Fin 8192) (q : Fin 64) (i : Fin 4) (op : ℕ) (dyn : Bool) :
    (State.compressJob s n q i op dyn).kept = s.kept := by
  intros; unfold State.compressJob at *; grind [State.runJob_kept, State.withIn_kept, State.putFit_kept]

theorem execCompressFixed_kept (n : Fin 8192) (q : Fin 64) (i : Fin 4) (s : State) : ∀ t₁,
    (execCompressFixed n q i s) = .next t₁ → t₁.kept = s.kept := by
  intros; unfold execCompressFixed at *; grind [State.compressJob_kept, ok]

theorem execCompressDynamic_kept (n : Fin 8192) (q : Fin 64) (i : Fin 4) (s : State) : ∀ t₁,
    (execCompressDynamic n q i s) = .next t₁ → t₁.kept = s.kept := by
  intros; unfold execCompressDynamic at *; grind [State.compressJob_kept, ok]

theorem execDecompress_kept (n : Fin 8192) (q : Fin 64) (i : Fin 4) (s : State) : ∀ t₁,
    (execDecompress n q i s) = .next t₁ → t₁.kept = s.kept := by
  unfold execDecompress; apply arm_kept; apply State.runJob_kept; intro j l u a t; grind [State.withIn_kept,
      State.putFit_kept, State.freshUpTo_kept, State.freshBytes_kept,
      State.putOut_kept, State.runJob_kept, ok]

theorem State.withBank_kept (s : State) (j : Job) (pa : ℕ) (k : Bytes → State → JobAns)
    (hk : ∀ b u a t, k b u = some (a, t) → t.kept = u.kept) : ∀ a t, (State.withBank s j pa k) = some (a,
      t) → t.kept = s.kept := by
  unfold State.withBank; apply State.withIn_kept; intro h u a t; split
  · exact hk _ _ a t
  · revert a t; apply State.withIn_kept; intro p v; apply State.withIn_kept; intro c w; exact hk _ _

theorem execRecordSvcWrite_kept (n : Fin 8192) (q : Fin 64) (i : Fin 4) (s : State) : ∀ t₁,
    (execRecordSvcWrite n q i s) = .next t₁ → t₁.kept = s.kept := by
  unfold execRecordSvcWrite; apply arm_kept; apply State.runJob_kept; intro j l u a t; dsimp only
  split
  · simp only [Option.some.injEq, Prod.mk.injEq]; rintro ⟨-, rfl⟩; rfl
  · split
    · exact State.badLength_kept _ _ _
    · revert a t; apply State.withBank_kept; intro ba v1; apply State.withBank_kept; intro bb v2
      apply State.withIn_kept; intro m v3 a t h
      simp only [Option.map_eq_some_iff] at h
      obtain ⟨r, hr, h⟩ := h
      have e := State.putOut_kept _ _ _ _ _ _ _ r.1 r.2 hr
      revert h; split
      · rintro rfl; exact e
      · simp only [Prod.mk.injEq]; rintro ⟨-, rfl⟩; rw [State.updJob_kept]; exact e

theorem execRecordSvcRead_kept (n : Fin 8192) (q : Fin 64) (i : Fin 4) (s : State) : ∀ t₁,
    (execRecordSvcRead n q i s) = .next t₁ → t₁.kept = s.kept := by
  unfold execRecordSvcRead; apply arm_kept; apply State.runJob_kept; intro j l u a t; dsimp only
  split
  · simp only [Option.some.injEq, Prod.mk.injEq]; rintro ⟨-, rfl⟩; rfl
  · revert a t; apply State.withBank_kept; intro ba v1; apply State.withBank_kept; intro bb v2 a t
    split
    · simp only [Option.some.injEq, Prod.mk.injEq]; rintro ⟨-, rfl⟩; rfl
    · exact State.putFit_kept _ _ _ _ _ _ _ a t

theorem State.engineErr_kept (s : State) (n : ℕ) (q : ℕ) (x3 : EngineErr) :
    (State.engineErr s n q x3).kept = s.kept := by
  intros; unfold State.engineErr at *; grind [State.fetchDesc_kept, State.seErr_kept, State.queueErr_kept,
      State.report_kept]

theorem execDescriptorFetch_kept (n : Fin 8192) (q : FetchAt) (s : State) : ∀ t₁,
    (execDescriptorFetch n q s) = .next t₁ → t₁.kept = s.kept := by
  intros; unfold execDescriptorFetch at *; grind [State.fetchDesc_kept, ok, State.engineErr_kept]

theorem execBwCapWindow_kept (s : State) : ∀ t₁, (execBwCapWindow s) = .next t₁ → t₁.kept = s.kept := by
  intros; unfold execBwCapWindow at *; grind [State.kept, ok]

end Sys2Proof.Machine
end

