-- ==== Sys2Proof/Laws/KeptNet.lean ====
section
/-! SUPPORT. What the operations of Machine/Net leave alone. -/

set_option Elab.async false
set_option linter.unusedVariables false
set_option linter.unusedTactic false
set_option linter.unreachableTactic false

namespace Sys2Proof.Machine

theorem State.portCount_kept (s : State) (r : Reg) (p : ℕ) : (State.portCount s r p).kept = s.kept := by
  intros; unfold State.portCount at *; grind [State.countFld_kept]

theorem State.setSw_kept (s : State) (f : Switch → Switch) : (State.setSw s f).kept = s.kept := by
  intros; unfold State.setSw at *; grind [State.kept]

theorem State.setQueue_kept (s : State) (p : ℕ) (c : ℕ) (l : List Eth) : (State.setQueue s p c l).kept = s.kept := by
  intros; unfold State.setQueue at *; grind [State.setSw_kept]

theorem State.ptpCorrect_kept (s : State) (p : ℕ) (e : Eth) : (State.ptpCorrect s p e).2.kept = s.kept := by
  intros; unfold State.ptpCorrect at *; grind [State.setSw_kept]

theorem State.vportPump_kept (s : State) (n : ℕ) (x2 : ℕ) : (State.vportPump s n x2).kept = s.kept := by
  induction x2 generalizing s with
  | zero => first | rfl | simp [State.vportPump]
  | succ k ih =>
    unfold State.vportPump
    split
    · dsimp only; split
      · rw [ih]; grind [State.setQueue_kept, State.portCount_kept, State.pump_kept, State.updJob_kept,
      State.ioWrite_kept, State.ioClean_kept, State.ptpCorrect_kept]
      · split
        · rw [ih]; grind [State.setQueue_kept, State.portCount_kept, State.pump_kept, State.updJob_kept,
            State.ioWrite_kept, State.ioClean_kept]
        · split
          · rfl
          · rw [ih]; grind [State.setQueue_kept, State.portCount_kept, State.pump_kept, State.updJob_kept,
              State.ioWrite_kept, State.ioClean_kept]
    · rfl

theorem State.enqueue_kept (s : State) (p c : ℕ) (e : Eth) : (State.enqueue s p c e).kept = s.kept := by
  intros; unfold State.enqueue at *; grind [State.portCount_kept, State.setQueue_kept, State.vportPump_kept]

theorem State.setRedun_kept (s : State) (i : ℕ) (r : Redun) : (State.setRedun s i r).kept = s.kept := by
  intros; unfold State.setRedun at *; grind [State.setSw_kept]

theorem State.redunSend_kept (s : State) (i : ℕ) (m c : ℕ) (e : Eth) : (State.redunSend s i m c e).kept = s.kept := by
  intros; unfold State.redunSend at *; grind [State.setRedun_kept, State.enqueue_kept]

theorem State.pathReport_kept (s : State) (i p : Nat) (up : Bool) :
    (State.pathReport s i p up).kept = s.kept := by
  intros; unfold State.pathReport at *; grind [State.feEvent_kept, State.pulse_kept, State.healthEval_kept,
      State.kept]

theorem State.redunHeard_kept (s : State) (i src x : Nat) :
    (State.redunHeard s i src x).kept = s.kept := by
  intros; unfold State.redunHeard at *; grind [State.setRedun_kept, State.pathReport_kept, State.kept]

theorem State.redunPrefer_kept (s : State) (e : Eth) :
    (State.redunPrefer s e).kept = s.kept := by
  intros; unfold State.redunPrefer at *; grind [State.setSw_kept, State.kept]

theorem State.redunReceive_kept (s : State) (i : ℕ) (m : ℕ) (e : Eth) : (State.redunReceive s i m e).2.kept = s.kept := by
  intros; unfold State.redunReceive at *; grind [State.setRedun_kept, State.enqueue_kept, State.redunHeard_kept,
      State.redunPrefer_kept]

theorem State.meterColour_kept (s : State) (k : Nat) (m : Meter) (bytes : Nat) (yellow : Bool) :
    (State.meterColour s k m bytes yellow).2.kept = s.kept := by
  intros; unfold State.meterColour at *; grind [State.setSw_kept, State.kept]

theorem State.meterPass_kept (s : State) (k : ℕ) (m : Meter) (e : Eth) :
    (State.meterPass s k m e).2.kept = s.kept := by
  intros; unfold State.meterPass at *; grind [State.meterColour_kept]

theorem State.streamPass_kept (s : State) (e : Eth) (vid : ℕ) : (State.streamPass s e vid).2.kept = s.kept := by
  intros; unfold State.streamPass at *; grind [State.meterPass_kept]

theorem State.frerRecover_kept (s : State) (e : Eth) (vid : ℕ) : (State.frerRecover s e vid).2.kept = s.kept := by
  intros; unfold State.frerRecover at *; grind [State.setSw_kept]

theorem State.frerGenerate_kept (s : State) (e : Eth) (vid : ℕ) : (State.frerGenerate s e vid).2.kept = s.kept := by
  intros; unfold State.frerGenerate at *; grind [State.setSw_kept]

theorem State.learn_kept (s : State) (vid : ℕ) (e : Eth) : (State.learn s vid e).kept = s.kept := by
  intros; unfold State.learn at *; grind [State.setSw_kept, State.portCount_kept]

theorem State.sendOut_kept (s : State) (vid : ℕ) (e : Eth) (ports : List ℕ) :
    (State.sendOut s vid e ports).kept = s.kept := by
  intros; unfold State.sendOut at *; grind [State.redunSend_kept, State.enqueue_kept, foldl_kept]

theorem State.switchFrame_kept (s : State) (e : Eth) : (State.switchFrame s e).kept = s.kept := by
  intros; unfold State.switchFrame at *; grind [State.portCount_kept, State.streamPass_kept, State.frerRecover_kept,
      State.frerGenerate_kept, State.learn_kept, State.sendOut_kept]

theorem execFrameReceive_kept (p : Fin 12) (frame : List Byte) (good : Bool) (s : State) : ∀ t₁,
    (execFrameReceive p frame good s) = .next t₁ → t₁.kept = s.kept := by
  intros; unfold execFrameReceive at *; grind [State.portCount_kept, State.switchFrame_kept, State.redunReceive_kept,
      ok]

theorem State.setQbv_kept (s : State) (p : ℕ) (q : Qbv) : (State.setQbv s p q).kept = s.kept := by
  intros; unfold State.setQbv at *; grind [State.setSw_kept]

theorem execFrameTransmit_kept (p : Fin 12) (s : State) : ∀ t₁,
      (execFrameTransmit p s) = .next t₁ → t₁.kept = s.kept := by
  intros; unfold execFrameTransmit at *; grind [State.ptpCorrect_kept, State.setQueue_kept, State.setSw_kept,
      State.portCount_kept, ok]

theorem execFdbAgeing_kept (vid : BitVec 12) (mac : BitVec 48) (s : State) : ∀ t₁,
    (execFdbAgeing vid mac s) = .next t₁ → t₁.kept = s.kept := by
  intros; unfold execFdbAgeing at *; grind [State.setSw_kept, ok]

theorem State.fdbFlush_kept (s : State) : (State.fdbFlush s).kept = s.kept := by
  intros; unfold State.fdbFlush at *; grind [State.setSw_kept]

theorem State.qbvCommit_kept (s : State) (p : ℕ) : (State.qbvCommit s p).kept = s.kept := by
  intros; unfold State.qbvCommit at *; grind [State.setFld_kept, State.setQbv_kept]

theorem State.qbvResume_kept (s : State) (p : ℕ) :
    (State.qbvResume s p).kept = s.kept := by
  intros; unfold State.qbvResume at *; grind [State.setQbv_kept]

theorem execQbvChangeover_kept (p : Fin 12) (s : State) : ∀ t₁,
      (execQbvChangeover p s) = .next t₁ → t₁.kept = s.kept := by
  intros; unfold execQbvChangeover at *; grind [State.setQbv_kept, State.pulse_kept, State.setReg_kept, ok]

theorem execQbvEntryExpiry_kept (p : Fin 12) (s : State) : ∀ t₁,
    (execQbvEntryExpiry p s) = .next t₁ → t₁.kept = s.kept := by
  intros; unfold execQbvEntryExpiry at *; grind [State.setQbv_kept, ok]

theorem execStreamGateEntryExpiry_kept (g : Fin 256) (s : State) : ∀ t₁,
    (execStreamGateEntryExpiry g s) = .next t₁ → t₁.kept = s.kept := by
  intros; unfold execStreamGateEntryExpiry at *; grind [State.setSw_kept, ok]

theorem execFrerResetTimeout_kept (f : Fin 512) (s : State) : ∀ t₁,
    (execFrerResetTimeout f s) = .next t₁ → t₁.kept = s.kept := by
  intros; unfold execFrerResetTimeout at *; grind [State.setSw_kept, ok]

theorem execDuplicateEntryForget_kept (i : Fin 2) (s : State) : ∀ t₁,
    (execDuplicateEntryForget i s) = .next t₁ → t₁.kept = s.kept := by
  intros; unfold execDuplicateEntryForget at *; grind [State.setRedun_kept, ok]

theorem State.redunSilent_kept (s : State) (i : Nat) :
    (State.redunSilent s i).kept = s.kept := by
  intros; unfold State.redunSilent at *; grind [State.setRedun_kept, State.pathReport_kept, State.kept]

theorem execSupervisionFrameSend_kept (i : Fin 2) (s : State) : ∀ t₁,
    (execSupervisionFrameSend i s) = .next t₁ → t₁.kept = s.kept := by
  intros; unfold execSupervisionFrameSend at *; grind [State.setRedun_kept, State.redunSend_kept, ok,
      State.redunSilent_kept]

theorem State.linkChange_kept (s : State) (p : ℕ) (up : Bool) (speed : ℕ) (amp : Bool) :
    (State.linkChange s p up speed amp).kept = s.kept := by
  intros; unfold State.linkChange at *; grind [State.pulse_kept, State.setReg_kept, State.healthEval_kept,
      State.feEvent_kept, State.kept, State.setRedun_kept, State.pathReport_kept]

theorem execLinkChange_kept (p : Fin 12) (up : Bool) (amp : Bool) (s : State) : ∀ t₁,
    (execLinkChange p up amp s) = .next t₁ → t₁.kept = s.kept := by
  intros; unfold execLinkChange at *; grind [State.linkChange_kept, ok]

theorem execT1lMseUpdate_kept (p : Fin 2) (mse : ℕ) (s : State) : ∀ t₁,
    (execT1lMseUpdate p mse s) = .next t₁ → t₁.kept = s.kept := by
  intros; unfold execT1lMseUpdate at *; grind [State.setReg_kept, State.setSw_kept, State.linkChange_kept, ok]

theorem State.ptpApply_kept (s : State) (k : ℕ) : (State.ptpApply s k).kept = s.kept := by
  intros; unfold State.ptpApply at *; grind [State.setSw_kept, State.setReg_kept, foldl_kept]

theorem execSend_kept (n : Fin 8192) (q : Fin 64) (i : Fin 4) (s : State) : ∀ t₁,
    (execSend n q i s) = .next t₁ → t₁.kept = s.kept := by
  unfold execSend; apply arm_kept; apply State.runJob_kept; intro j l u a t; grind [State.withIn_kept,
      State.switchFrame_kept, State.runJob_kept, ok]

theorem execPost_kept (n : Fin 8192) (q : Fin 64) (i : Fin 4) (s : State) : ∀ t₁,
    (execPost n q i s) = .next t₁ → t₁.kept = s.kept := by
  intros; unfold execPost at *; grind [State.pump_kept, State.updJob_kept, State.vportPump_kept, ok]

end Sys2Proof.Machine
end

