-- ==== Sys2Proof/Laws/KeptPcie.lean ====
section
/-! SUPPORT. What the operations of Machine/Pcie leave alone. -/

set_option Elab.async false
set_option linter.unusedVariables false
set_option linter.unusedTactic false
set_option linter.unreachableTactic false

namespace Sys2Proof.Machine

theorem State.loadDone_kept (s : State) (c : Fin 64) (v : ℕ) : (State.loadDone s c v).kept = s.kept := by
  intros; unfold State.loadDone at *; grind [State.updCore_kept, State.traceMem_kept, State.retire_kept]

theorem State.loadError_kept (s : State) (c : Fin 64) : (State.loadError s c).kept = s.kept := by
  intros; unfold State.loadError at *; grind [State.updCore_kept, State.raise_kept, State.boundary_kept]

theorem State.setPcie_kept (s : State) (f : Pcie → Pcie) : (State.setPcie s f).kept = s.kept := by
  intros; unfold State.setPcie at *; grind [State.kept]

theorem State.pciePost_kept (s : State) (stop : ℕ) (pa : ℕ) (size : ℕ) (data : Word) (pid : BitVec 29) :
    (State.pciePost s stop pa size data pid).kept = s.kept := by
  intros; unfold State.pciePost at *; grind [State.addrErr_kept, State.setPcie_kept]

theorem execPcieOutboundWrite_kept (c : CoreId) (i : ℕ) (s : State) : ∀ t₁,
    (execPcieOutboundWrite c i s) = .next t₁ → t₁.kept = s.kept := by
  intros; unfold execPcieOutboundWrite at *; grind [State.setCore_kept, State.addrErr_kept, State.setPcie_kept, ok,
      State.pciePost_kept]

theorem execPcieOutboundRead_kept (c : CoreId) (s : State) : ∀ t₁,
    (execPcieOutboundRead c s) = .next t₁ → t₁.kept = s.kept := by
  intros; unfold execPcieOutboundRead at *; grind [State.loadDone_kept, State.addrErr_kept, State.setPcie_kept, ok]

theorem State.aerNonFatal_kept (s : State) :
    (State.aerNonFatal s).kept = s.kept := by
  intros; unfold State.aerNonFatal at *; grind [State.pulse_kept, State.kept]

theorem execPcieReadCompletion_kept (c : CoreId) (how : CplEnd) (data : BitVec 64) (s : State) : ∀ t₁,
    (execPcieReadCompletion c how data s) = .next t₁ → t₁.kept = s.kept := by
  intros; unfold execPcieReadCompletion at *; grind [State.setPcie_kept, State.loadDone_kept, State.loadError_kept,
      ok, State.aerNonFatal_kept]

theorem execPcieCompletionTimeout_kept (c : CoreId) (s : State) : ∀ t₁,
    (execPcieCompletionTimeout c s) = .next t₁ → t₁.kept = s.kept := by
  intros; unfold execPcieCompletionTimeout at *; grind [State.loadError_kept, State.setPcie_kept, ok,
      State.aerNonFatal_kept]

theorem State.pcieRefuse_kept (s : State) (a : ℕ) : (State.pcieRefuse s a).kept = s.kept := by
  intros; unfold State.pcieRefuse at *; grind [State.pulse_kept, State.setPcie_kept, State.aerNonFatal_kept]

theorem execPcieMsiWrite_kept (v : BitVec 32) (s : State) : ∀ t₁,
      (execPcieMsiWrite v s) = .next t₁ → t₁.kept = s.kept := by
  intros; unfold execPcieMsiWrite at *; grind [State.srcSet_kept, State.setPcie_kept, ok]

theorem execPcieLinkChange_kept (up : Bool) (speed : Fin 4) (width : Fin 4) (s : State) : ∀ t₁,
    (execPcieLinkChange up speed width s) = .next t₁ → t₁.kept = s.kept := by
  intros; unfold execPcieLinkChange at *; grind [State.pulse_kept, State.setReg_kept, ok]

end Sys2Proof.Machine
end

