-- ==== Sys2Proof/Laws/KeptLowSpeed.lean ====
section
/-! SUPPORT. What the operations of Machine/LowSpeed leave alone. -/

set_option Elab.async false
set_option linter.unusedVariables false
set_option linter.unusedTactic false
set_option linter.unreachableTactic false

namespace Sys2Proof.Machine

theorem State.setLow_kept (s : State) (f : LowSpeed → LowSpeed) : (State.setLow s f).kept = s.kept := by
  intros; unfold State.setLow at *; grind [State.kept]

theorem State.setUart_kept (s : State) (u : ℕ) (x : Uart) : (State.setUart s u x).kept = s.kept := by
  intros; unfold State.setUart at *; grind [State.setLow_kept]

theorem State.uartStart_kept (s : State) (u : ℕ) : (State.uartStart s u).kept = s.kept := by
  intros; unfold State.uartStart at *; grind [State.setUart_kept]

theorem State.uartPush_kept (s : State) (u : ℕ) (b : Byte) : (State.uartPush s u b).kept = s.kept := by
  intros; unfold State.uartPush at *; grind [State.setFld_kept, State.uartStart_kept, State.setUart_kept]

theorem execUartRxCharacter_kept (u : Fin 6) (data : BitVec 8) (perr : Bool) (ferr : Bool) (s : State) : ∀ t₁,
    (execUartRxCharacter u data perr ferr s) = .next t₁ → t₁.kept = s.kept := by
  intros; unfold execUartRxCharacter at *; grind [State.setFld_kept, State.setUart_kept, ok]

theorem execUartTxCharacter_kept (u : Fin 6) (s : State) : ∀ t₁,
    (execUartTxCharacter u s) = .next t₁ → t₁.kept = s.kept := by
  intros; unfold execUartTxCharacter at *; grind [State.setUart_kept, State.uartStart_kept, ok]

theorem execDeLeadExpiry_kept (u : Fin 6) (s : State) : ∀ t₁,
      (execDeLeadExpiry u s) = .next t₁ → t₁.kept = s.kept := by
  intros; unfold execDeLeadExpiry at *; grind [State.setUart_kept, ok]

theorem execDeTailExpiry_kept (u : Fin 6) (s : State) : ∀ t₁,
      (execDeTailExpiry u s) = .next t₁ → t₁.kept = s.kept := by
  intros; unfold execDeTailExpiry at *; grind [State.setUart_kept, ok]

theorem execUartIdleDetect_kept (u : Fin 6) (s : State) : ∀ t₁,
      (execUartIdleDetect u s) = .next t₁ → t₁.kept = s.kept := by
  intros; unfold execUartIdleDetect at *; grind [State.pulse_kept, State.setFld_kept, State.setUart_kept, ok]

theorem State.setCan_kept (s : State) (k : ℕ) (x : Can) : (State.setCan s k x).kept = s.kept := by
  intros; unfold State.setCan at *; grind [State.setLow_kept]

theorem State.canComplete_kept (s : State) (k : ℕ) (b : ℕ) (sof : ℕ) : (State.canComplete s k b sof).kept = s.kept := by
  intros; unfold State.canComplete at *; grind [State.setReg_kept]

theorem State.canCount_kept (s : State) (k : ℕ) (tec : ℕ) (rec' : ℕ) : (State.canCount s k tec rec').kept = s.kept := by
  intros; unfold State.canCount at *; grind [State.setReg_kept, State.setCan_kept]

theorem State.canReceive_kept (s : State) (k : ℕ) (idw : Word) (fmt : ℕ) (data : List Word) (sof : ℕ) :
    (State.canReceive s k idw fmt data sof).kept = s.kept := by
  intros; unfold State.canReceive at *; grind [State.setFld_kept, State.setReg_kept, State.canComplete_kept,
      foldl_kept]

theorem execCanFrameSent_kept (k : Fin 2) (sof : BitVec 64) (s : State) : ∀ t₁,
    (execCanFrameSent k sof s) = .next t₁ → t₁.kept = s.kept := by
  intros; unfold execCanFrameSent at *; grind [State.setCan_kept, State.canComplete_kept, State.setFld_kept,
      State.canCount_kept, State.canReceive_kept, ok]

theorem execCanFrameReceived_kept (k : Fin 2) (ide : Bool) (rtr : Bool) (fdf : Bool) (brs : Bool) (esi : Bool)
    (id : BitVec 29) (dlc : Fin 16) (data : BitVec 512) (sof : BitVec 64) (s : State) : ∀ t₁,
    (execCanFrameReceived k ide rtr fdf brs esi id dlc data sof s) = .next t₁ → t₁.kept = s.kept := by
  intros; unfold execCanFrameReceived at *; grind [State.fresh_kept, State.canCount_kept, State.canReceive_kept, ok]

theorem execCanBusError_kept (k : Fin 2) (tx : Bool) (heavy : Bool) (s : State) : ∀ t₁,
    (execCanBusError k tx heavy s) = .next t₁ → t₁.kept = s.kept := by
  intros; unfold execCanBusError at *; grind [State.setFld_kept, State.setCan_kept, State.canCount_kept, foldl_kept,
      ok]

theorem execCanBusoffRecovery_kept (k : Fin 2) (s : State) : ∀ t₁,
    (execCanBusoffRecovery k s) = .next t₁ → t₁.kept = s.kept := by
  intros; unfold execCanBusoffRecovery at *; grind [State.setCan_kept, State.setReg_kept, ok]

theorem State.wCanCtl_kept (s : State) (k : ℕ) (v : Word) : (State.wCanCtl s k v).kept = s.kept := by
  have h : ∀ (l : List ℕ) (u : State), (l.foldl (fun s b => s.setFld .CAN_MB_CTRL [k, b] .CAN_MB_CTRL_STATE 3) u).kept = u.kept :=
    fun l u => foldl_kept _ (fun s b => State.setFld_kept _ _ _ _ _) l u
  unfold State.wCanCtl; dsimp only
  repeat' split
  all_goals simp only [State.setReg_kept, State.setFld_kept, State.setCan_kept, h]

theorem State.wCanCtrl_kept (s : State) (k : ℕ) (b : ℕ) (v : Word) : (State.wCanCtrl s k b v).kept = s.kept := by
  intros; unfold State.wCanCtrl at *; grind [State.fresh_kept, State.setCan_kept, State.setFld_kept,
      State.setReg_kept]

theorem State.setSpi_kept (s : State) (k : ℕ) (x : Spi) : (State.setSpi s k x).kept = s.kept := by
  intros; unfold State.setSpi at *; grind [State.setLow_kept]

theorem State.wSpiXfer_kept (s : State) (k : ℕ) (v : Word) : (State.wSpiXfer s k v).kept = s.kept := by
  intros; unfold State.wSpiXfer at *; grind [State.setFld_kept, State.setSpi_kept]

theorem execSpiByte_kept (k : Fin 4) (miso : BitVec 8) (s : State) : ∀ t₁,
    (execSpiByte k miso s) = .next t₁ → t₁.kept = s.kept := by
  intros; unfold execSpiByte at *; grind [State.setSpi_kept, ok]

theorem execSpiTransferDone_kept (k : Fin 4) (s : State) : ∀ t₁,
    (execSpiTransferDone k s) = .next t₁ → t₁.kept = s.kept := by
  intros; unfold execSpiTransferDone at *; grind [State.setReg_kept, State.setSpi_kept, ok]

theorem State.wSpiTxd_kept (s : State) (k : ℕ) (b : Byte) : (State.wSpiTxd s k b).kept = s.kept := by
  intros; unfold State.wSpiTxd at *; grind [State.setFld_kept, State.setSpi_kept]

theorem State.setI2c_kept (s : State) (k : ℕ) (x : I2c) : (State.setI2c s k x).kept = s.kept := by
  intros; unfold State.setI2c at *; grind [State.setLow_kept]

theorem State.wI2cCmd_kept (s : State) (k : ℕ) (v : Word) : (State.wI2cCmd s k v).kept = s.kept := by
  intros; unfold State.wI2cCmd at *; grind [State.setFld_kept, State.setI2c_kept]

theorem State.wI2cTxd_kept (s : State) (k : ℕ) (b : Byte) : (State.wI2cTxd s k b).kept = s.kept := by
  intros; unfold State.wI2cTxd at *; grind [State.setFld_kept, State.setI2c_kept]

theorem execI2cByte_kept (k : Fin 4) (data : BitVec 8) (s : State) : ∀ t₁,
    (execI2cByte k data s) = .next t₁ → t₁.kept = s.kept := by
  intros; unfold execI2cByte at *; grind [State.setI2c_kept, ok]

theorem execI2cCommandEnd_kept (k : Fin 4) (nack : Bool) (arb : Bool) (s : State) : ∀ t₁,
    (execI2cCommandEnd k nack arb s) = .next t₁ → t₁.kept = s.kept := by
  intros; unfold execI2cCommandEnd at *; grind [State.setReg_kept, State.setI2c_kept, ok]

theorem execI2cTargetMatch_kept (k : Fin 4) (addr : Fin 1024) (a10 read : Bool) (s : State) : ∀ t₁,
    (execI2cTargetMatch k addr s a10 read) = .next t₁ → t₁.kept = s.kept := by
  intros; unfold execI2cTargetMatch at *; grind [State.setFld_kept, State.setI2c_kept, ok]

theorem State.gpioSample_kept (s : State) : (State.gpioSample s).kept = s.kept := by
  intros; unfold State.gpioSample at *; grind [State.setReg_kept, foldl_kept]

theorem execGpioPinEdge_kept (n : Fin 64) (level : Bool) (s : State) : ∀ t₁,
    (execGpioPinEdge n level s) = .next t₁ → t₁.kept = s.kept := by
  intros; unfold execGpioPinEdge at *; grind [State.gpioSample_kept, State.setLow_kept, ok]

end Sys2Proof.Machine
end

