-- ==== Sys2Proof/Laws/KeptTimers.lean ====
section
/-! SUPPORT. What the operations of Machine/Timers leave alone. -/

set_option Elab.async false
set_option linter.unusedVariables false
set_option linter.unusedTactic false
set_option linter.unreachableTactic false

namespace Sys2Proof.Machine

theorem State.setTmr_kept (s : State) (c : ℕ) (t : Tmr) : (State.setTmr s c t).kept = s.kept := by
  intros; unfold State.setTmr at *; grind [State.kept]

theorem State.tmrFlag_kept (s : State) (c : ℕ) (f : Fld) : (State.tmrFlag s c f).kept = s.kept := by
  intros; unfold State.tmrFlag at *; grind [State.setFld_kept]

theorem State.tmrEval_kept (s : State) (c : ℕ) : (State.tmrEval s c).kept = s.kept := by
  intros; unfold State.tmrEval at *; grind [State.tmrFlag_kept, State.setTmr_kept, foldl_kept]

theorem State.tmrArm_kept (s : State) (c : ℕ) : (State.tmrArm s c).kept = s.kept := by
  intros; unfold State.tmrArm at *; grind [State.setTmr_kept]

theorem State.tmrWrap_kept (s : State) (c : ℕ) : (State.tmrWrap s c).kept = s.kept := by
  intros; unfold State.tmrWrap at *; grind [State.tmrArm_kept, State.tmrFlag_kept, State.setTmr_kept]

theorem execTimerStep_kept (c : Fin 16) (s : State) : ∀ t₁, (execTimerStep c s) = .next t₁ → t₁.kept = s.kept := by
  intros; unfold execTimerStep at *; grind [State.tmrEval_kept, State.tmrWrap_kept, State.setTmr_kept,
      State.setFld_kept, State.tmrFlag_kept, State.tmrArm_kept, ok]

theorem execTimerCaptureEdge_kept (c : Fin 16) (rising : Bool) (s : State) : ∀ t₁,
    (execTimerCaptureEdge c rising s) = .next t₁ → t₁.kept = s.kept := by
  intros; unfold execTimerCaptureEdge at *; grind [State.setFld_kept, State.tmrFlag_kept, State.setTmr_kept, ok]

theorem State.tmrStop_kept (s : State) (c : ℕ) : (State.tmrStop s c).kept = s.kept := by
  intros; unfold State.tmrStop at *; grind [State.setFld_kept]

theorem State.tmrStart_kept (s : State) (c : ℕ) : (State.tmrStart s c).kept = s.kept := by
  unfold State.tmrStart; split
  · rfl
  · rw [State.tmrEval_kept, State.setFld_kept]; split
    · rfl
    · exact State.setTmr_kept _ _ _

theorem State.tmrLatch_kept (s : State) (c : ℕ) : (State.tmrLatch s c).kept = s.kept := by
  intros; unfold State.tmrLatch at *; grind [State.setReg_kept]

theorem State.wTmrCmd_kept (s : State) (c : ℕ) (v : Word) : (State.wTmrCmd s c v).kept = s.kept := by
  intros; unfold State.wTmrCmd at *; grind [State.tmrStop_kept, State.setFld_kept, State.setTmr_kept,
      State.tmrStart_kept, State.tmrLatch_kept]

theorem State.wTmrGo_kept (s : State) (v : Word) : (State.wTmrGo s v).kept = s.kept := by
  intros; unfold State.wTmrGo at *; grind [State.tmrStop_kept, State.tmrStart_kept, foldl_kept]

theorem State.wRldHi_kept (s : State) (c : ℕ) (v : Word) : (State.wRldHi s c v).kept = s.kept := by
  intros; unfold State.wRldHi at *; grind [State.setReg_kept, State.setTmr_kept]

theorem State.wCmpHi_kept (s : State) (c : ℕ) (k : ℕ) (v : Word) : (State.wCmpHi s c k v).kept = s.kept := by
  intros; unfold State.wCmpHi at *; grind [State.setReg_kept, State.tmrEval_kept, State.setTmr_kept]

theorem State.ttAbandon_kept (s : State) (m : ℕ) : (State.ttAbandon s m).kept = s.kept := by
  intros; unfold State.ttAbandon at *; grind [State.kept]

theorem execTtWindowEnd_kept (m : Fin 32) (bytes : BitVec 40) (s : State) : ∀ t₁,
    (execTtWindowEnd m bytes s) = .next t₁ → t₁.kept = s.kept := by
  intros; unfold execTtWindowEnd at *; grind [State.setReg_kept, State.kept, ok]

theorem State.ttClear_kept (s : State) (m : ℕ) : (State.ttClear s m).kept = s.kept := by
  intros; unfold State.ttClear at *; grind [State.setReg_kept]

end Sys2Proof.Machine
end

