-- ==== Sys2Proof/Laws/KeptBus.lean ====
section
/-! SUPPORT. What the operations of Machine/Bus leave alone. -/

set_option Elab.async false
set_option linter.unusedVariables false
set_option linter.unusedTactic false
set_option linter.unreachableTactic false

namespace Sys2Proof.Machine

theorem State.regRead_kept (s : State) (w : Who) (r : Reg) (idx : List ℕ) (lanes : Word) :
    (State.regRead s w r idx lanes).2.kept = s.kept := by
  intros; unfold State.regRead at *; grind [State.cleatTakeNow_kept, State.setReg_kept, State.setUart_kept,
      State.setSpi_kept, State.setI2c_kept, State.kept, State.cleatWindow_kept]

theorem State.hitRead_kept (s : State) (w : Who) (h : Hit) (lanes : Word) :
    (State.hitRead s w h lanes).2.kept = s.kept := by
  intros; unfold State.hitRead at *; grind [State.regRead_kept, State.updCore_kept]

theorem State.padRelease_kept (s : State) : (State.padRelease s).kept = s.kept := by
  intros; unfold State.padRelease at *; grind [State.gpioSample_kept, State.kept]

theorem State.regWrite_kept (s : State) (w : Who) (r : Reg) (idx : List ℕ) (v : Word) (lanes : Word) :
    (State.regWrite s w r idx v lanes).kept = s.kept := by
  intros; unfold State.regWrite at *; grind [State.setReg_kept, State.padRelease_kept, State.reqRing_kept,
      State.setFld_kept, State.rechoose_kept, State.followLine_kept, State.srcSet_kept, State.srcDeact_kept,
      State.srcUnpend_kept, State.cleatSubmit_kept, State.sliceErr_kept, State.slcRing_kept, State.boxClear_kept,
      State.inRing_kept, State.wQCfg_kept, State.wSqDb_kept, State.wCqHead_kept, State.qbvCommit_kept,
      State.fdbFlush_kept, State.ptpApply_kept, State.uartPush_kept, State.wCanCtl_kept, State.wCanCtrl_kept,
      State.wSpiXfer_kept, State.wSpiTxd_kept, State.wI2cCmd_kept, State.wI2cTxd_kept, State.gpioSample_kept,
      State.wTmrGo_kept, State.wTmrCmd_kept, State.tmrEval_kept, State.setTmr_kept, State.wRldHi_kept,
      State.wCmpHi_kept, State.ttAbandon_kept, State.ttClear_kept, State.wDbgCtl_kept, State.kept, State.updL3_kept,
      State.qbvResume_kept, State.cleatWindow_kept, State.setI2c_kept]

theorem State.hitWrite_kept (s : State) (w : Who) (h : Hit) (v : Word) (lanes : Word) :
    (State.hitWrite s w h v lanes).kept = s.kept := by
  intros; unfold State.hitWrite at *; grind [State.regWrite_kept, State.setSw_kept, State.setPcie_kept,
      State.updCore_kept, State.kept, State.setReg_kept]

theorem State.read32_kept (s : State) (w : Who) (pa : ℕ) : (State.read32 s w pa).2.kept = s.kept := by
  intros; unfold State.read32 at *; grind [State.busErr_kept, State.hitRead_kept]

theorem State.write32_kept (s : State) (w : Who) (pa : ℕ) (v : ℕ) : (State.write32 s w pa v).kept = s.kept := by
  intros; unfold State.write32 at *; grind [State.busErr_kept, State.hitWrite_kept]

theorem State.unitRead_kept (s : State) (w : Who) (pa : ℕ) (size : ℕ) : (State.unitRead s w pa size).2.kept = s.kept := by
  intros; unfold State.unitRead at *; grind [State.busErr_kept, State.hitRead_kept, State.read32_kept]

theorem State.unitWrite_kept (s : State) (w : Who) (pa : ℕ) (size : ℕ) (v : ℕ) :
    (State.unitWrite s w pa size v).kept = s.kept := by
  intros; unfold State.unitWrite at *; grind [State.busErr_kept, State.hitWrite_kept, State.write32_kept]

theorem State.busRead_kept (s : State) (w : Who) (pa : ℕ) (size : ℕ) : (State.busRead s w pa size).2.kept = s.kept := by
  intros; unfold State.busRead at *; grind [State.ioRead_kept, State.busErr_kept, State.unitRead_kept]

theorem State.busWrite_kept (s : State) (w : Who) (pa : ℕ) (size : ℕ) (v : ℕ) :
    (State.busWrite s w pa size v).kept = s.kept := by
  intros; unfold State.busWrite at *; grind [State.ioWrite_kept, State.busErr_kept, State.unitWrite_kept,
      State.pciePost_kept]

theorem State.devRead_kept (s : State) (c : Fin 64) (d : DevLoad) :
    (State.devRead s c d).2.kept = s.kept := by
  intros; unfold State.devRead at *; grind [State.ucRead_kept, State.busRead_kept]

theorem State.devWrite_kept (s : State) (c : Fin 64) (e : StoreEntry) :
    (State.devWrite s c e).2.kept = s.kept := by
  intros; unfold State.devWrite at *; grind [State.ucWrite_kept, State.distActed_kept, State.busWrite_kept]

theorem State.devWriteNow_kept (s : State) (c : Fin 64) (e : StoreEntry) :
    (State.devWriteNow s c e).2.kept = s.kept := by
  intros; unfold State.devWriteNow at *; grind [State.devWrite_kept, State.distFlush_kept]

end Sys2Proof.Machine
end

