-- ==== Sys2Proof/Laws/KeptDram.lean ====
section
/-! SUPPORT. What the operations of Machine/Dram leave alone. -/

set_option Elab.async false
set_option linter.unusedVariables false
set_option linter.unusedTactic false
set_option linter.unreachableTactic false

namespace Sys2Proof.Machine

theorem State.fillL3_kept (s : State) (n : ℕ) (d : BitVec 512) (p : Bool) : (State.fillL3 s n d p).kept = s.kept := by
  intros; unfold State.fillL3 at *; grind [State.updL3_kept]

theorem execDramAccessRequest_kept (block : BlockNo) (s : State) : ∀ t₁,
    (execDramAccessRequest block s) = .next t₁ → t₁.kept = s.kept := by
  intros; unfold execDramAccessRequest at *; grind [State.kept, ok]

theorem execDramReadReturn_kept (block : BlockNo) (errs : List (Fin 16 × Fin 18 × BitVec 8)) (pattern : BitVec 9)
    (s : State) : ∀ t₁, (execDramReadReturn block errs pattern s) = .next t₁ → t₁.kept = s.kept := by
  intros; unfold execDramReadReturn at *; grind [State.decodeRead_kept, State.fillL3_kept, foldl_kept, State.kept,
      ok, State.homesGo_kept]

theorem execDramWrite_kept (sec : SecNo) (data : BitVec 512) (mask : BitVec 64) (poison : Bool) (s : State) : ∀ t₁,
    (execDramWrite sec data mask poison s) = .next t₁ → t₁.kept = s.kept := by
  intros; unfold execDramWrite at *; grind [State.writeBack_kept, ok, State.memRead_kept]

theorem execDramRefresh_kept (x0 : Fin 2) (s : State) : ∀ t₁,
      (execDramRefresh x0 s) = .next t₁ → t₁.kept = s.kept := by
  intros; unfold execDramRefresh at *; grind [ok]

theorem State.evalSet_kept (s : State) (g : ℕ) :
    (State.evalSet s g).kept = s.kept := by
  intros; unfold State.evalSet at *; grind [State.kept]

theorem execDieTempRead_kept (g : Fin 2) (hottest : BitVec 8) (s : State) : ∀ t₁,
    (execDieTempRead g hottest s) = .next t₁ → t₁.kept = s.kept := by
  intros; unfold execDieTempRead at *; grind [State.setFld_kept, ok, State.evalSet_kept]

theorem State.countWindow_kept (s : State) (g : ℕ) :
    (State.countWindow s g).kept = s.kept := by
  intros; unfold State.countWindow at *; grind [State.kept]

theorem State.applyRate_kept (s : State) (g : ℕ) : (State.applyRate s g).kept = s.kept := by
  intros; unfold State.applyRate at *; grind [State.setFld_kept, State.kept, State.countWindow_kept]

theorem State.wantRate_kept (s : State) (g : ℕ) (r : ℕ) :
    (State.wantRate s g r).kept = s.kept := by
  intros; unfold State.wantRate at *; grind [State.applyRate_kept, State.kept]

theorem State.followCase_kept (s : State) (t : ℤ) :
    (State.followCase s t).kept = s.kept := by
  intros; unfold State.followCase at *; grind [State.wantRate_kept, State.kept]

theorem State.correctTiming_kept (s : State) (ch : ℕ) (d : Word) :
    (State.correctTiming s ch d).kept = s.kept := by
  intros; unfold State.correctTiming at *; grind [foldl_kept, State.kept]

theorem State.trainSet_kept (s : State) (ch : ℕ) (set : ℕ) :
    (State.trainSet s ch set).kept = s.kept := by
  intros; unfold State.trainSet at *; grind [State.fresh_kept, foldl_kept, State.kept]

theorem State.startRetrain_kept (s : State) (g : ℕ) : (State.startRetrain s g).kept = s.kept := by
  intros; unfold State.startRetrain at *; grind [State.kept]

theorem State.applySet_kept (s : State) (g : ℕ) (ch : ℕ) :
    (State.applySet s g ch).kept = s.kept := by
  intros; unfold State.applySet at *; grind [State.setFld_kept]

theorem State.driftWindow_kept (s : State) (g : ℕ) (ch : ℕ) (drift : BitVec 6) (wrong : Bool) :
    (State.driftWindow s g ch drift wrong).kept = s.kept := by
  intros; unfold State.driftWindow at *; grind [State.correctTiming_kept, State.applySet_kept,
      State.countWindow_kept, State.startRetrain_kept, State.markDie_kept]

theorem execDriftTrackingWindow_kept (g : Fin 2) (ch : Fin 9) (busy : Fin 101) (drift : Fin 64) (wrong : Bool)
    (s : State) : ∀ t₁, (execDriftTrackingWindow g ch busy drift wrong s) = .next t₁ → t₁.kept = s.kept := by
  intros; unfold execDriftTrackingWindow at *; grind [State.applyRate_kept, State.setFld_kept,
      State.startRetrain_kept, State.markDie_kept, State.kept, ok, State.evalSet_kept, State.driftWindow_kept]

theorem execRetrainWindow_kept (g : Fin 2) (ch : Fin 9) (s : State) : ∀ t₁,
    (execRetrainWindow g ch s) = .next t₁ → t₁.kept = s.kept := by
  intros; unfold execRetrainWindow at *; grind [State.endHolding_kept, State.logMg_kept, State.kept, ok,
      State.trainSet_kept, State.applySet_kept]

theorem State.fullTraining_kept (s : State) (g : ℕ) :
    (State.fullTraining s g).kept = s.kept := by
  intros; unfold State.fullTraining at *; grind [State.trainSet_kept, foldl_kept, State.kept]

theorem State.groupStart_kept (s : State) (g : ℕ) :
    (State.groupStart s g).kept = s.kept := by
  intros; unfold State.groupStart at *; grind [State.fullTraining_kept, State.fresh_kept, State.driftWindow_kept,
      State.setFld_kept, foldl_kept, State.kept]

theorem State.spareRow_kept (s : State) (g : ℕ) (ch : ℕ) (a : DieAddr) (block : ℕ) :
    (State.spareRow s g ch a block).kept = s.kept := by
  intros; unfold State.spareRow at *; grind [State.count_kept, State.logMg_kept, State.countFld_kept, State.kept,
      State.healthEvent_kept]

theorem execDramPatrolScrub_kept (block : BlockNo) (errs : List (Fin 16 × Fin 18 × BitVec 8)) (pattern : BitVec 9)
    (s : State) : ∀ t₁, (execDramPatrolScrub block errs pattern s) = .next t₁ → t₁.kept = s.kept := by
  intros; unfold execDramPatrolScrub at *; grind [State.decodeRead_kept, State.spareRow_kept, State.updL3_kept,
      State.setFld_kept, State.countFld_kept, foldl_kept, State.kept, ok, State.setMemSec_kept,
      State.decodeBurst_kept]

theorem State.mramShows_kept (s : State) (n errs : Nat) :
    (State.mramShows s n errs).kept = s.kept := by
  intros; unfold State.mramShows at *; grind [State.kept]

theorem execMramRead_kept (sec : SecNo) (errs : Fin 513) (s : State) : ∀ t₁,
    (execMramRead sec errs s) = .next t₁ → t₁.kept = s.kept := by
  intros; unfold execMramRead at *; grind [State.mramDecode_kept, State.fillL3_kept, ok, State.mramShows_kept,
      State.mramRead_kept]

theorem execMramWriteAccept_kept (sec : SecNo) (data : BitVec 512) (poison : Bool) (s : State) : ∀ t₁,
    (execMramWriteAccept sec data poison s) = .next t₁ → t₁.kept = s.kept := by
  intros; unfold execMramWriteAccept at *; grind [State.writeBack_kept, ok]

theorem execMramWriteVerify_kept (die : Fin 4) (wrong0 : Fin 513) (wrong1 : Fin 513) (wrong2 : Fin 513) (s : State)
    : ∀ t₁, (execMramWriteVerify die wrong0 wrong1 wrong2 s) = .next t₁ → t₁.kept = s.kept := by
  intros; unfold execMramWriteVerify at *; grind [State.logMr_kept, State.countFld_kept, State.mramRemap_kept,
      State.pumpDurable_kept, State.answerProbes_kept, foldl_kept, State.kept, ok, State.homesGo_kept,
      State.mramVerify_kept]

theorem execDurabilityProbe_kept (who : Fin 65) (s : State) : ∀ t₁,
    (execDurabilityProbe who s) = .next t₁ → t₁.kept = s.kept := by
  intros; unfold execDurabilityProbe at *; grind [State.answerProbes_kept, State.kept, ok, State.pumpDurable_kept]

theorem execMramPatrolScrub_kept (sec : SecNo) (errs : Fin 513) (s : State) : ∀ t₁,
    (execMramPatrolScrub sec errs s) = .next t₁ → t₁.kept = s.kept := by
  intros; unfold execMramPatrolScrub at *; grind [State.mramDecode_kept, State.writeBack_kept, ok,
      State.mramShows_kept, State.mramRead_kept]

end Sys2Proof.Machine
end

