-- ==== Sys2Proof/Laws/KeptSigned.lean ====
section
/-! SUPPORT. What the operations of Machine/Signed leave alone. -/

set_option Elab.async false
set_option linter.unusedVariables false
set_option linter.unusedTactic false
set_option linter.unreachableTactic false

namespace Sys2Proof.Machine

theorem State.applyManifest_kept (s : State) (b : Bytes) : ∀ t,
      (State.applyManifest s b) = some t → t.kept = s.kept := by
  intros; unfold State.applyManifest at *; grind [State.kept]

end Sys2Proof.Machine
end

