-- ==== Sys2Proof/Laws/KeptPower.lean ====
section
/-! SUPPORT. What the operations of Machine/Power leave alone. -/

set_option Elab.async false
set_option linter.unusedVariables false
set_option linter.unusedTactic false
set_option linter.unreachableTactic false

namespace Sys2Proof.Machine

theorem State.seedDraw_kept (s : State) : (State.seedDraw s).2.kept = s.kept := by
  intros; unfold State.seedDraw at *; grind [State.fresh_kept]

theorem State.loseGroup_kept (s : State) (g : ℕ) : (State.loseGroup s g).kept = s.kept := by
  intros; unfold State.loseGroup at *; grind [State.setFld_kept, State.kept]

theorem State.portDown_kept (s : State) : (State.portDown s).kept = s.kept := by
  intros; unfold State.portDown at *; grind [State.endHolding_kept, State.kept]

theorem State.endInvals_kept (s : State) (p : Nat) :
    (State.endInvals s p).kept = s.kept := by
  intros; unfold State.endInvals at *; grind [State.finishInvals_kept, State.kept]

theorem State.dropQuad_kept (s : State) (q : Nat) : (State.dropQuad s q).kept = s.kept := by
  have h : ∀ (t : State) (n : List Msg), ({ t with net := n } : State).kept = t.kept := fun _ _ => rfl
  unfold State.dropQuad; dsimp only
  rw [h, State.homesGo_kept, foldl_kept _ (fun s i => State.updHome_kept _ _ _), h]

theorem State.dropHome_kept (s : State) (h : Nat) : (State.dropHome s h).kept = s.kept :=
  foldl_kept _ (fun s q => State.updQuad_kept _ _ _) _ _

theorem State.loseUnit_kept (s : State) (d : ℕ) (keep : Bool) : (State.loseUnit s d keep).kept = s.kept := by
  delta State.loseUnit; dsimp only
  refine ite_st ?_ (ite_st ?_ (ite_st ?_ (ite_st ?_ (ite_st ?_ (ite_st ?_ (ite_st ?_ (ite_st ?_ (ite_st ?_ (ite_st ?_ (ite_st ?_ (ite_st ?_ (ite_st ?_
   (ite_st ?_ (ite_st ?_ ?_))))))))))))))
  · rw [State.portDown_kept]; rfl
  · rw [State.updCore_kept, State.endInvals_kept]
  · rw [State.setReg_kept, State.setQuad_kept, State.dropQuad_kept]
  · rw [State.setHome_kept, State.dropHome_kept]
  · rfl
  · rw [State.setFld_kept, State.homesGo_kept]; exact State.endHolding_kept _ _ _ _
  · exact ite_st rfl (State.loseGroup_kept _ _)
  · rw [State.setFld_kept]; rfl
  · rfl
  · refine (foldl_kept _ ?_ _ _).trans ?_
    · intro s p; exact ite_st (State.linkChange_kept _ _ _ _ _) rfl
    · refine ite_st ?_ rfl; rw [State.setSw_kept, State.setReg_kept, State.setReg_kept]
  · rfl
  · rfl
  · rfl
  · rfl
  · rw [State.setReg_kept]; rfl
  · rfl

theorem State.domainOff_kept (s : State) (d : ℕ) (keep : Bool) : (State.domainOff s d keep).kept = s.kept := by
  intros; unfold State.domainOff at *; grind [State.loseUnit_kept, State.kept]

theorem State.domainsOff_kept (s : State) (l : List ℕ) (keep : Bool) : (State.domainsOff s l keep).kept = s.kept := by
  intros; unfold State.domainsOff at *; grind [State.domainOff_kept, foldl_kept]

theorem State.putCov_kept (s : State) (u : ℕ) (a : ℕ) (v : Word) : (State.putCov s u a v).kept = s.kept := by
  intros; unfold State.putCov at *; grind [State.hitWrite_kept, State.setReg_kept]

theorem State.loadImage_kept (s : State) (u : ℕ) : (State.loadImage s u).kept = s.kept := by
  intros; unfold State.loadImage at *; grind [State.putCov_kept, foldl_kept, State.kept]

theorem State.setLevel_kept (s : State) (q : ℕ) (lvl : ℕ) : (State.setLevel s q lvl).kept = s.kept := by
  intros; unfold State.setLevel at *; grind [State.setReg_kept]

theorem State.seedDraws_kept (s : State) (x1 : ℕ) :
    (State.seedDraws s x1).2.kept = s.kept := by
  induction x1 generalizing s with
  | zero => rfl
  | succ n ih => unfold State.seedDraws; grind [State.seedDraw_kept]

theorem State.gainUnit_kept (s : State) (d : ℕ) : (State.gainUnit s d).kept = s.kept := by
  intros; unfold State.gainUnit at *; grind [State.setFld_kept, State.seedDraw_kept, State.updCore_kept,
      State.setLevel_kept, State.updL2_kept, State.updL3_kept, State.setReg_kept, State.kept, State.seedDraws_kept,
      State.groupStart_kept, State.gpioSample_kept]

theorem State.domainOn_kept (s : State) (d : ℕ) : (State.domainOn s d).kept = s.kept := by
  intros; unfold State.domainOn at *; grind [State.gainUnit_kept, State.loadImage_kept, foldl_kept, State.kept]

theorem State.domainsOn_kept (s : State) (l : List ℕ) : (State.domainsOn s l).kept = s.kept := by
  intros; unfold State.domainsOn at *; grind [State.domainOn_kept, foldl_kept]

theorem State.holdBackstays_kept (s : State) : (State.holdBackstays s).kept = s.kept := by
  intros; unfold State.holdBackstays at *; grind [State.domainOn_kept, foldl_kept]

theorem State.devPerform_kept (s : State) (c : Fin 64) (x2 : ℕ) : (State.devPerform s c x2).2.kept = s.kept := by
  induction x2 generalizing s with
  | zero => rfl
  | succ k ih =>
    unfold State.devPerform; dsimp only; split
    · rfl
    · split
      · rw [ih, State.updCore_kept, State.pciePost_kept]
      · split
        · rw [ih, State.updCore_kept]; grind [State.devWriteNow_kept]
        · grind [State.devWriteNow_kept]

theorem State.loadPerform_kept (s : State) (c : Fin 64) (douse : Bool) : ∀ t,
    (State.loadPerform s c douse) = some t → t.kept = s.kept := by
  intros; unfold State.loadPerform at *; grind [State.updCore_kept, State.busRead_kept, State.loadDone_kept,
      State.kept, State.devRead_kept, State.coreFlush_kept, State.distFlush_kept, State.loadError_kept]

theorem State.drainCore_kept (s : State) (c : Fin 64) (x2 : ℕ) : ∀ t,
    (State.drainCore s c x2) = some t → t.kept = s.kept := by
  induction x2 generalizing s with
  | zero => simp [State.drainCore]
  | succ k ih =>
    unfold State.drainCore; split
    · simp
    · rename_i s1 h1
      have e1 : s1.kept = s.kept := by grind [State.devPerform_kept]
      split
      · grind
      · split
        · split
          · intro t h; rw [ih _ _ h]; grind [State.drainFrame_kept]
          · intro t h; rw [ih _ _ h]; grind [State.drainFrame_kept, State.drainAll_kept]
        · intro t h; rw [ih _ _ h]; grind [State.drainFrame_kept]

theorem State.longStop_kept (s : State) (c : Fin 64) :
    (State.longStop s c).kept = s.kept := by
  intros; unfold State.longStop at *; grind [State.longEnd_kept, State.forsake_kept, State.updCore_kept]

theorem State.stopCore_kept (s : State) (c : Fin 64) (douse : Bool) : ∀ t,
    (State.stopCore s c douse) = some t → t.kept = s.kept := by
  intros; unfold State.stopCore at *; grind [State.devPerform_kept, State.loadPerform_kept, State.longFinish_kept,
      State.drainCore_kept, State.longStop_kept, State.longEnd_kept]

theorem State.leaveDist_kept (s : State) (p : ℕ) : (State.leaveDist s p).kept = s.kept := by
  intros; unfold State.leaveDist at *; grind [State.distTake_kept, foldl_kept, State.kept]

theorem State.mapCore_kept (s : State) (l : ℕ) (p : Option ℕ) : (State.mapCore s l p).kept = s.kept := by
  intros; unfold State.mapCore at *; grind [State.rechoose_kept, State.setReg_kept]

theorem State.emptyL1d_kept (s : State) (c : Fin 64) : (State.emptyL1d s c).kept = s.kept := by
  intros; unfold State.emptyL1d at *; grind [State.l1dEvict_kept, foldl_kept]

theorem State.emptyL2_kept (s : State) (q : ℕ) : (State.emptyL2 s q).kept = s.kept := by
  intros; unfold State.emptyL2 at *; grind [State.settle_kept, State.l2Evict_kept, foldl_kept,
      State.l2EvictNow_kept]

theorem State.quadDown_kept (s : State) (q : ℕ) : (State.quadDown s q).kept = s.kept := by
  intros; unfold State.quadDown at *; grind [State.domainOff_kept, State.emptyL2_kept]

theorem State.coreDown_kept (s : State) (p : ℕ) : (State.coreDown s p).kept = s.kept := by
  intros; unfold State.coreDown at *; grind [State.holdBackstays_kept, State.quadDown_kept, State.domainOff_kept,
      State.emptyL1d_kept]

theorem State.coreUp_kept (s : State) (p : ℕ) : (State.coreUp s p).kept = s.kept := by
  intros; unfold State.coreUp at *; grind [State.domainsOn_kept]

theorem State.unplace_kept (s : State) (l : ℕ) (p : ℕ) : (State.unplace s l p).kept = s.kept := by
  intros; unfold State.unplace at *; grind [State.coreDown_kept, State.kept]

theorem State.endTrace_kept (s : State) (c : Fin 64) : (State.endTrace s c).kept = s.kept := by
  intros; unfold State.endTrace at *; grind [State.traceFurl_kept, State.hyFlush_kept]

theorem State.lift_kept (s : State) (l : ℕ) (p : ℕ) : (State.lift s l p).2.kept = s.kept := by
  intros; unfold State.lift at *; grind [State.leaveDist_kept, State.endTrace_kept, State.updCore_kept,
      State.mapCore_kept, State.unplace_kept, State.emptyL1d_kept, State.kept, State.endInvals_kept]

theorem State.furl_kept (s : State) (l : ℕ) : ∀ t, (State.furl s l) = some t → t.kept = s.kept := by
  intros; unfold State.furl at *; grind [State.stopCore_kept, State.lift_kept, State.coreDown_kept, State.kept]

theorem State.setPartner_kept (s : State) (p : ℕ) (x2 : Option ℕ) : (State.setPartner s p x2).kept = s.kept := by
  intros; unfold State.setPartner at *; grind [State.coreUp_kept, State.kept]

theorem State.settleOn_kept (s : State) (l : ℕ) (p : ℕ) (k : Core) : (State.settleOn s l p k).kept = s.kept := by
  intros; unfold State.settleOn at *; grind [State.coreUp_kept, State.mapCore_kept, State.setCore_kept,
      State.residencyArrives_kept, State.kept, State.setFld_kept, State.setReg_kept]

theorem State.tellGap_kept (s : State) (l : ℕ) (sv : Saved) (now : ℕ) : (State.tellGap s l sv now).kept = s.kept := by
  intros; unfold State.tellGap at *; grind [State.setReg_kept, State.feEvent_kept, State.kept]

theorem State.unfurlTo_kept (s : State) (l : ℕ) (p : ℕ) (mate : Option ℕ) : (State.unfurlTo s l p mate).kept = s.kept := by
  intros; unfold State.unfurlTo at *; grind [State.setPartner_kept, State.settleOn_kept, State.tellGap_kept,
      State.traceGap_kept, State.holdBackstays_kept, State.wakeCheck_kept]

theorem State.homesReady_kept (s : State) :
    (State.homesReady s).kept = s.kept := by
  intros; unfold State.homesReady at *; grind [State.updL3_kept, foldl_kept]

theorem State.fetasWrite_kept (s : State) (pa : ℕ) (d : Bytes) : (State.fetasWrite s pa d).kept = s.kept := by
  intros; unfold State.fetasWrite at *; grind [State.ioWrite_kept, State.homesReady_kept]

theorem State.startAll_kept (s : State) (reason : ℕ) (ls : List (ℕ × ℕ)) : (State.startAll s reason ls).kept = s.kept := by
  intros; unfold State.startAll at *; grind [State.fetasWrite_kept, State.settleOn_kept, foldl_kept]

theorem State.sendEntry_kept (s : State) (c : Fin 64) (e : StoreEntry) (sent : Bool) :
    (State.sendEntry s c e sent).2.kept = s.kept := by
  intros; unfold State.sendEntry at *; grind [State.pciePost_kept, State.devWriteNow_kept, State.ucWrite_kept,
      State.openMram_kept]

theorem State.sendEntries_kept (s : State) (c : Fin 64) (x2 : List StoreEntry) (x3 : Bool) :
    (State.sendEntries s c x2 x3).2.kept = s.kept := by
  induction x2 generalizing s x3 with
  | nil => rfl
  | cons e l ih => unfold State.sendEntries; split <;> grind [State.sendEntry_kept]

theorem State.sendBuffers_kept (s : State) (c : Fin 64) : (State.sendBuffers s c).2.kept = s.kept := by
  unfold State.sendBuffers; split
  · grind [State.devPerform_kept]
  · dsimp only; rw [State.sendEntries_kept, State.updCore_kept]; grind [State.devPerform_kept]

theorem State.resetCore_kept (s : State) (p : ℕ) :
    ∀ t, (State.resetCore s p) = some t → t.kept = s.kept := by
  intros; unfold State.resetCore at *; grind [State.loadPerform_kept, State.sendBuffers_kept, State.longStop_kept,
      State.swL1d_kept, State.leaveDist_kept, State.endTrace_kept, State.updCore_kept, foldl_kept, State.kept]

theorem State.warmReset_kept (s : State) (l : ℕ) (p : ℕ) (reason : ℕ) : ∀ t,
    (State.warmReset s l p reason) = some t → t.kept = s.kept := by
  intro t h; unfold State.warmReset at h; rw [Option.map_eq_some_iff] at h
  obtain ⟨u, hu, rfl⟩ := h
  exact (State.startAll_kept _ _ _).trans (State.resetCore_kept _ _ _ hu)

theorem State.onDoubleFault_kept (s : State) (p : ℕ) : ∀ t, (State.onDoubleFault s p) = some t → t.kept = s.kept := by
  unfold State.onDoubleFault; split
  · grind
  · rename_i l h
    dsimp only; generalize hs : State.feEvent _ _ _ = s1
    have e1 : s1.kept = s.kept := by rw [← hs, State.feEvent_kept, State.count_kept]; rfl
    split
    · grind
    · intro t ht; exact (State.warmReset_kept _ _ _ _ _ ht).trans e1

end Sys2Proof.Machine
end

