-- ==== Sys2Proof/Laws/KeptModes.lean ====
section
/-! SUPPORT. What the operations of Machine/Modes leave alone. -/

set_option Elab.async false
set_option linter.unusedVariables false
set_option linter.unusedTactic false
set_option linter.unreachableTactic false

namespace Sys2Proof.Machine

theorem State.pwrStart_kept (s : State) (m : ℕ) (after : SeqEnd) : (State.pwrStart s m after).kept = s.kept := by
  intros; unfold State.pwrStart at *; grind [State.kept]

theorem State.furlEach_kept (s : State) (ls : List Nat) : (State.furlEach s ls).kept = s.kept :=
  foldl_kept _ (fun s l => by rcases h : s.furl l with _ | t <;> simp only [Option.getD]; exact State.furl_kept _ _ _ h) _ s

theorem State.emptyL3_kept (s : State) (h : ℕ) : (State.emptyL3 s h).kept = s.kept := by
  intros; unfold State.emptyL3 at *; grind [State.l3Evict_kept, foldl_kept]

theorem State.quietOff_kept (s : State) (d : ℕ) (keep : Bool) : (State.quietOff s d keep).kept = s.kept := by
  intros; unfold State.quietOff at *; grind [State.emptyL1d_kept, State.emptyL2_kept, State.emptyL3_kept,
      State.domainOff_kept]

theorem State.unfurlPlaced_kept (s : State) (d : ModeDef) (l : ℕ) : (State.unfurlPlaced s d l).kept = s.kept := by
  intros; unfold State.unfurlPlaced at *; grind [State.unfurlTo_kept, State.kept]

theorem State.setMode_kept (s : State) (m : ℕ) : (State.setMode s m).kept = s.kept := by
  intros; unfold State.setMode at *; grind [State.setReg_kept, State.kept]

theorem State.modeEvent_kept (s : State) (m : ℕ) : (State.modeEvent s m).kept = s.kept := by
  intros; unfold State.modeEvent at *; grind [State.feEvent_kept]

theorem State.toLevel_kept (s : State) (d : ModeDef) (up : Bool) (q : Nat) :
    (State.toLevel s d up q).kept = s.kept := by
  intros; unfold State.toLevel at *; grind [State.setLevel_kept, State.kept]

theorem State.takeDown_kept (s : State) (d : ModeDef) : (State.takeDown s d).kept = s.kept :=
  foldl_kept _ (fun s i => State.quietOff_kept _ _ _) _ _

theorem State.takeUp_kept (s : State) (d : ModeDef) :
    (State.takeUp s d).kept = s.kept := by
  intros; unfold State.takeUp at *; grind [State.domainsOn_kept, State.kept]

/-- Every quad to its level under a trim. -/
theorem State.levels_kept (s : State) (d : ModeDef) (up : Bool) (l : List ℕ) :
    (l.foldl (fun s q => s.toLevel d up q) s).kept = s.kept :=
  foldl_kept _ (fun s q => State.toLevel_kept _ _ _ _) _ s

theorem State.bringUp_kept (s : State) (d : ModeDef) : (State.bringUp s d).kept = s.kept := by
  unfold State.bringUp; rw [State.holdBackstays_kept, State.levels_kept, State.takeUp_kept, State.takeDown_kept]

theorem State.enterM0_kept (s : State) (req : Option ℕ) : (State.enterM0 s req).kept = s.kept := by
  unfold State.enterM0; dsimp only
  rw [kept_crow_fe, State.pwrStart_kept, State.setMode_kept, State.setFld_kept,
    foldl_kept _ (fun s i => State.quietOff_kept _ _ _), kept_fe, State.cleatWindow_kept]

theorem State.coldRestarts_kept (s : State) (p : Tenant → Bool) : (State.coldRestarts s p).kept = s.kept := by
  intros; unfold State.coldRestarts at *; grind [State.feEvent_kept, foldl_kept, State.kept]

theorem State.riseFetas_kept (s : State) : (State.riseFetas s).kept = s.kept := by
  unfold State.riseFetas; dsimp only
  rw [kept_crow_fe, foldl_kept _ (fun s n => State.feEvent_kept _ _ _ _), State.pulse_kept, State.setFld_kept]

theorem State.answerWake_kept (s : State) : (State.answerWake s).kept = s.kept := by
  intros; unfold State.answerWake at *; grind [State.opEnd_kept, State.kept]

theorem State.startPassage_kept (s : State) (m : Nat) (req : Option Nat) :
    (State.startPassage s m req).kept = s.kept := by
  intros; unfold State.startPassage at *; grind [State.setFld_kept, State.kept]

theorem State.endPassage_kept (s : State) (x : Passage) : (State.endPassage s x).kept = s.kept := by
  unfold State.endPassage; dsimp only
  have h : ∀ t : State, t.kept = s.kept →
      (match x.next with | some (m, req) => t.startPassage m req | none => t).kept = s.kept := by
    intro t e; split
    · rw [State.startPassage_kept, e]
    · exact e
  have e : (((if s.mode = modeOf x.trim then s.setMode x.trim else (s.setMode x.trim).modeEvent x.trim).pwrStart x.trim
      .nothing).healthEval).kept = s.kept := by
    rw [State.healthEval_kept, State.pwrStart_kept]; split <;> simp only [State.modeEvent_kept, State.setMode_kept]
  apply h; split
  · rw [State.opEnd_kept]; exact (kept_fe _ _).trans e
  · exact (kept_fe _ _).trans e

theorem State.passStep_kept (s : State) : ∀ t, State.passStep s = some t → t.kept = s.kept := by
  unfold State.passStep; split
  · simp
  · split
    · simp
    · have h : ∀ (u : State) (x : Fetas), ({ u with fe := x } : State).kept = u.kept := fun _ _ => rfl
      have hu : ∀ (u : State) (d : ModeDef), ((List.range 64).foldl (fun s l => s.unfurlPlaced d l) u).kept = u.kept :=
        fun u d => foldl_kept _ (fun s l => State.unfurlPlaced_kept _ _ _) _ u
      intro t; dsimp only; split <;> try split
      all_goals (try split)
      all_goals intro e
      all_goals first
        | (have e := Option.some.inj e; subst e)
        | exact nomatch e
      all_goals simp only [h, hu, State.furlEach_kept, State.levels_kept, State.enterM0_kept, State.takeDown_kept,
        State.takeUp_kept, State.holdBackstays_kept, State.endPassage_kept]

theorem State.passRun_kept (s : State) (n : Nat) : (State.passRun s n).kept = s.kept := by
  induction n generalizing s with
  | zero => rfl
  | succ k ih =>
    unfold State.passRun; split
    · rfl
    · rename_i h; rw [ih, State.passStep_kept _ _ h]

end Sys2Proof.Machine
end

