-- ==== Sys2Proof/Laws/KeptPlan.lean ====
section
/-! SUPPORT. What the operations of Machine/Plan leave alone. -/

set_option Elab.async false
set_option linter.unusedVariables false
set_option linter.unusedTactic false
set_option linter.unreachableTactic false

namespace Sys2Proof.Machine

theorem State.stageAll_kept (s : State) (p : Plan) (m : ℕ) : (State.stageAll s p m).kept = s.kept := by
  intros; unfold State.stageAll at *; grind [foldl_kept, State.kept]

theorem State.switchNow_kept (s : State) (p : Plan) (m : ℕ) : (State.switchNow s p m).kept = s.kept := by
  intros; unfold State.switchNow at *; grind [State.putCov_kept, State.updCore_kept, foldl_kept, State.kept]

theorem State.redigest_kept (s : State) : (State.redigest s).kept = s.kept := by
  intros; unfold State.redigest at *; grind [State.kept]

theorem State.scanUnit_kept (s : State) (u : ℕ) : (State.scanUnit s u).2.kept = s.kept := by
  intros; unfold State.scanUnit at *; grind [State.putCov_kept, State.updCore_kept, foldl_kept, State.kept]

theorem State.scan_kept (s : State) : (State.scan s).2.kept = s.kept := by
  unfold State.scan; dsimp only; generalize hr : List.foldl _ _ _ = r
  have e : r.2.kept = s.kept := by rw [← hr]; refine fold_kept Prod.snd _ ?_ _ _; intro r i; grind [State.scanUnit_kept,
      State.feEvent_kept, State.healthEval_kept, State.redigest_kept, foldl_kept, State.kept]
  grind [State.scanUnit_kept, State.feEvent_kept, State.healthEval_kept, State.redigest_kept, foldl_kept, State.kept]

theorem execPlanScanPeriodic_kept (s : State) : ∀ t₁, (execPlanScanPeriodic s) = .next t₁ → t₁.kept = s.kept := by
  intros; unfold execPlanScanPeriodic at *; grind [State.scan_kept, ok]

theorem State.commitSwitch_kept (s : State) (isMode : Bool) (c : Commit) :
    (State.commitSwitch s isMode c).kept = s.kept := by
  unfold State.commitSwitch; dsimp only
  generalize hx : State.switchNow _ _ _ = t
  have e : t.kept = s.kept := by
    rw [← hx, State.switchNow_kept]; split
    · exact State.stageAll_kept _ _ _
    · rfl
  generalize hy : ite (isMode = true) _ _ = u
  have e2 : u.kept = s.kept := by
    rw [← hy]; split
    · exact (kept_fe _ _).trans e
    · rw [State.opEnd_kept, kept_fe]; exact e
  split
  · rw [State.stageAll_kept]; exact e2
  · exact e2

theorem State.passGo_kept (s : State) :
    (State.passGo s).kept = s.kept := by
  intros; unfold State.passGo at *; grind [State.passRun_kept, State.redigest_kept, State.kept]

theorem execCommitTick_kept (s : State) : ∀ t₁, (execCommitTick s) = .next t₁ → t₁.kept = s.kept := by
  unfold execCommitTick; split
  · exact arm_kept rfl
  · split
    · exact arm_kept (State.passGo_kept _)
    · split
      · exact arm_kept (State.passGo_kept _)
      · apply arm_kept; rw [State.passGo_kept, State.startPassage_kept, State.commitSwitch_kept]

end Sys2Proof.Machine
end

