-- ==== Sys2Proof/Laws/KeptLoss.lean ====
section
/-! SUPPORT. What the operations of Machine/Loss leave alone. -/

set_option Elab.async false
set_option linter.unusedVariables false
set_option linter.unusedTactic false
set_option linter.unreachableTactic false

namespace Sys2Proof.Machine

theorem State.loseSec_kept (s : State) (n : ℕ) : (State.loseSec s n).kept = s.kept := by
  unfold State.loseSec; dsimp only; split
  · rfl
  · rw [State.setMemSec_kept, State.freshUpTo_kept]
    refine fold_kept Prod.snd _ ?_ _ _
    intro r i; generalize (s.history n).length - 1 = m; exact State.freshUpTo_kept r.2 m

theorem State.loseMram_kept (s : State) : (State.loseMram s).kept = s.kept := by
  intros; unfold State.loseMram at *; grind [State.loseSec_kept, foldl_kept]

theorem State.hardReset_kept (s : State) : (State.hardReset s).kept = s.kept := by
  intros; unfold State.hardReset at *; grind [State.loseMram_kept, State.domainsOff_kept, State.setFld_kept,
      State.kept, State.loseGroup_kept]

end Sys2Proof.Machine
end

