-- ==== Sys2Proof/Laws/KeptAbsorb.lean ====
section
/-! SUPPORT. What the operations of Machine/Absorb leave alone. -/

set_option Elab.async false
set_option linter.unusedVariables false
set_option linter.unusedTactic false
set_option linter.unreachableTactic false

namespace Sys2Proof.Machine

theorem State.noteQuarantine_kept (s : State) (p : Nat) :
    (State.noteQuarantine s p).kept = s.kept := by
  intros; unfold State.noteQuarantine at *; grind [State.kept]

theorem State.quarantine_kept (s : State) (p : ℕ) : (State.quarantine s p).kept = s.kept := by
  intros; unfold State.quarantine at *; grind [State.count_kept, State.coreDown_kept, State.kept,
      State.noteQuarantine_kept]

theorem State.moveCore_kept (s : State) (l : ℕ) (p : ℕ) (x : ℕ) : ∀ a t, (State.moveCore s l p x) = some (a,
    t) → t.kept = s.kept := by
  intros; unfold State.moveCore at *; grind [State.stopCore_kept, State.lift_kept, State.settleOn_kept,
      State.freshUpTo_kept, State.wakeCheck_kept, State.traceGap_kept, State.feEvent_kept, State.count_kept]

theorem State.pairAgain_kept (s : State) (l p : Nat) :
    (State.pairAgain s l p).kept = s.kept := by
  intros; unfold State.pairAgain at *; grind [State.setPartner_kept, State.kept]

theorem State.splitPair_kept (s : State) (l : ℕ) (p : ℕ) (b : ℕ) : ∀ t,
    (State.splitPair s l p b) = some t → t.kept = s.kept := by
  unfold State.splitPair; split
  · simp
  · rename_i s1 h1
    have e1 := State.stopCore_kept _ _ _ _ h1
    have e2 := (State.lift_kept { s1 with fe := { s1.fe with partner := s1.fe.partner.set none p none } } l p).trans e1
    dsimp only
    intro t h; simp only [Option.some.injEq] at h; subst h
    rw [State.pairAgain_kept, State.quarantine_kept, State.settleOn_kept]; exact e2

theorem State.dropPartner_kept (s : State) (a p : Nat) : (State.dropPartner s a p).kept = s.kept := by
  unfold State.dropPartner; dsimp only; split
  · rw [State.pairAgain_kept, State.quarantine_kept, kept_fe]
  · rw [State.quarantine_kept, kept_fe]

theorem State.startSelfTest_kept (s : State) (p : Nat) : (State.startSelfTest s p).kept = s.kept := by
  unfold State.startSelfTest; rw [kept_fe, State.updCore_kept]

theorem State.onCheck_kept (s : State) (p : ℕ) : ∀ t, (State.onCheck s p) = some t → t.kept = s.kept := by
  unfold State.onCheck; split
  · intro t h; simp only [Option.some.injEq] at h; subst h; rw [State.healthEval_kept, State.quarantine_kept]
  · intro t h; simp only [Option.some.injEq] at h; subst h; rw [State.healthEval_kept, State.dropPartner_kept]
  · split
    · intro t h; simp only [Option.map_eq_some_iff] at h; obtain ⟨u, h, rfl⟩ := h
      rw [State.healthEval_kept]; exact State.splitPair_kept _ _ _ _ _ h
    · split
      · intro t h; simp only [Option.map_eq_some_iff] at h; obtain ⟨u, h, rfl⟩ := h
        rw [State.healthEval_kept, State.quarantine_kept]; exact State.moveCore_kept _ _ _ _ u.1 u.2 h
      · intro t h; simp only [Option.some.injEq] at h; subst h; exact State.startSelfTest_kept _ _

theorem State.onPair_kept (s : State) (p : Nat) : ∀ t, State.onPair s p = some t → t.kept = s.kept := by
  unfold State.onPair; split
  · split
    · intro t h; simp only [Option.map_eq_some_iff] at h; obtain ⟨u, h, rfl⟩ := h
      rw [State.healthEval_kept, State.pairAgain_kept, State.quarantine_kept, State.quarantine_kept]
      exact State.moveCore_kept _ _ _ _ u.1 u.2 h
    · intro t h; simp only [Option.some.injEq] at h; subst h; exact State.startSelfTest_kept _ _
  · intro t h; simp only [Option.some.injEq] at h; subst h; rfl

theorem State.stopFailed_kept (s : State) (p : Nat) :
    (State.stopFailed s p).kept = s.kept := by
  intros; unfold State.stopFailed at *; grind [State.updCore_kept, State.kept]

theorem State.meets_kept (s : State) (y0 : CoreFailure) :
    (State.meets s y0).kept = s.kept := by
  intros; unfold State.meets at *; grind [State.event_kept, State.count_kept, State.updCore_kept,
      State.stopFailed_kept, State.report_kept, State.kept]

theorem execMigration_kept (what : CoreFailure) (s : State) : ∀ t₁,
    (execMigration s what) = .next t₁ → t₁.kept = s.kept := by
  have e := State.meets_kept s what
  unfold execMigration; dsimp only; split
  · exact arm_kept e
  · split
    · rename_i p h
      apply arm_kept
      rcases ht : State.onCheck { s.meets what with reports := (s.meets what).reports.erase (.machineCheck p) } p with _ | t
      · exact e
      · exact (State.onCheck_kept _ _ _ ht).trans e
    · rename_i p h
      apply arm_kept
      rcases ht : State.onPair { s.meets what with reports := (s.meets what).reports.erase (.pairCheck p) } p with _ | t
      · exact e
      · exact (State.onPair_kept _ _ _ ht).trans e
    · exact arm_kept e

theorem kept_reports (s : State) (x) : ({ s with reports := x } : State).kept = s.kept := rfl

theorem State.timeGoes_kept (s : State) :
    (State.timeGoes s).kept = s.kept := by
  intros; unfold State.timeGoes at *; grind [State.passGo_kept, State.idle_kept, State.kept, State.passStep_kept]

theorem State.idleStep_kept (s : State) : (State.idleStep s).kept = s.kept := by
  unfold State.idleStep; split
  · exact State.idle_kept s
  · split
    · rename_i p h
      rcases hd : State.onDoubleFault { s with reports := s.reports.erase (.doubleFault p) } p with _ | t
      · exact State.timeGoes_kept s
      · exact (State.onDoubleFault_kept _ _ t hd).trans (kept_reports s _)
    · rw [State.count_kept]; rfl
    · exact State.timeGoes_kept s

theorem execSelfTestComplete_kept (passed : Bool) (s : State) : ∀ t₁,
    (execSelfTestComplete passed s) = .next t₁ → t₁.kept = s.kept := by
  unfold execSelfTestComplete; split
  · exact arm_kept rfl
  · rename_i p h; dsimp only; split
    · exact arm_kept rfl
    · rename_i l hl; split
      · apply arm_kept; rw [State.healthEvent_kept, State.healthEval_kept, State.updCore_kept]; rfl
      · split
        · exact arm_kept rfl
        · rename_i s1 h1
          have e1 := (State.stopCore_kept _ _ _ _ h1).trans (kept_fe s _)
          apply arm_kept; rw [State.healthEvent_kept, State.healthEval_kept, State.quarantine_kept, kept_fe,
              State.lift_kept]; exact e1

theorem execLoadLineGuard_kept (q : Fin 16) (ma : ℕ) (s : State) : ∀ t₁,
    (execLoadLineGuard q ma s) = .next t₁ → t₁.kept = s.kept := by
  intros; unfold execLoadLineGuard at *; grind [State.setReg_kept, ok]

theorem execGuardRelease_kept (q : Fin 16) (s : State) : ∀ t₁,
      (execGuardRelease q s) = .next t₁ → t₁.kept = s.kept := by
  intros; unfold execGuardRelease at *; grind [State.setReg_kept, ok]

theorem State.droopSeen_kept (s : State) (q : ℕ) : (State.droopSeen s q).kept = s.kept := by
  unfold State.droopSeen; exact foldl_kept _ (fun s c => by split <;> grind [State.event_kept,
      State.seqEdge_kept]) _ _

theorem execDroopStretch_kept (q : Fin 16) (s : State) : ∀ t₁,
      (execDroopStretch q s) = .next t₁ → t₁.kept = s.kept := by
  intros; unfold execDroopStretch at *; grind [State.setFld_kept, State.droopSeen_kept, ok]

theorem execPllReferenceSwitch_kept (q : Fin 16) (s : State) : ∀ t₁,
    (execPllReferenceSwitch q s) = .next t₁ → t₁.kept = s.kept := by
  intros; unfold execPllReferenceSwitch at *; grind [State.healthEval_kept, State.count_kept, State.kept, ok]

theorem State.thermalShutdown_kept (s : State) : (State.thermalShutdown s).kept = s.kept := by
  intros; unfold State.thermalShutdown at *; grind [State.hardReset_kept, State.setMode_kept, State.setFld_kept,
      State.kept]

theorem execJunctionSensorRead_kept (tj : ℤ) (mw : ℕ) (s : State) : ∀ t₁,
    (execJunctionSensorRead tj mw s) = .next t₁ → t₁.kept = s.kept := by
  intros; unfold execJunctionSensorRead at *; grind [State.thermalShutdown_kept, State.kept, ok,
      State.followCase_kept]

theorem State.throttleFlag_kept (s : State) (b : Bool) : (State.throttleFlag s b).kept = s.kept := by
  intros; unfold State.throttleFlag at *; grind [State.pulse_kept, State.setFld_kept]

theorem execThrottleStep_kept (s : State) : ∀ t₁, (execThrottleStep s) = .next t₁ → t₁.kept = s.kept := by
  intros; unfold execThrottleStep at *; grind [State.setLevel_kept, State.throttleFlag_kept, foldl_kept, State.kept,
      ok]

theorem execThrottleReleaseStep_kept (s : State) : ∀ t₁,
      (execThrottleReleaseStep s) = .next t₁ → t₁.kept = s.kept := by
  intros; unfold execThrottleReleaseStep at *; grind [State.setLevel_kept, State.throttleFlag_kept, foldl_kept,
      State.kept, ok]

theorem execHealthPinReturn_kept (s : State) : ∀ t₁, (execHealthPinReturn s) = .next t₁ → t₁.kept = s.kept := by
  unfold execHealthPinReturn; split
  · exact arm_kept rfl
  · split
    · exact arm_kept rfl
    · apply arm_kept; rw [State.healthEvent_kept, kept_fe, State.setHealth_kept]

theorem execHsrPathReserveExpiry_kept (i : Fin 2) (s : State) : ∀ t₁,
    (execHsrPathReserveExpiry i s) = .next t₁ → t₁.kept = s.kept := by
  intros; unfold execHsrPathReserveExpiry at *; grind [State.healthEval_kept, foldl_kept, State.kept, ok,
      State.count_kept]

theorem execMeshSelfTest_kept (east : Bool) (down : Bool) (s : State) : ∀ t₁,
    (execMeshSelfTest east down s) = .next t₁ → t₁.kept = s.kept := by
  intros; unfold execMeshSelfTest at *; grind [State.domainOn_kept, State.domainOff_kept, ok]

end Sys2Proof.Machine
end

