-- ==== Sys2Proof/Laws/KeptArrays.lean ====
section
/-! SUPPORT. What the operations of Machine/Arrays leave alone. -/

set_option Elab.async false
set_option linter.unusedVariables false
set_option linter.unusedTactic false
set_option linter.unreachableTactic false

namespace Sys2Proof.Machine

theorem State.updCache_kept (s : State) (n : CacheName) (g : Cache → Cache) : (State.updCache s n g).kept = s.kept := by
  intros; unfold State.updCache at *; grind [State.updCore_kept, State.updL2_kept, State.updL3_kept]

theorem State.l3Capture_kept (s : State) (h f sector kind : ℕ) : (State.l3Capture s h f sector kind).kept = s.kept := by
  intros; unfold State.l3Capture at *; grind [State.capture_kept]

theorem State.arrayReport_kept (s : State) (n : CacheName) (f sector kind : ℕ) :
    (State.arrayReport s n f sector kind).kept = s.kept := by
  intros; unfold State.arrayReport at *; grind [State.count_kept, State.countFld_kept, State.l3Capture_kept]

theorem State.coreCheck_kept (s : State) (c : Fin 64) : (State.coreCheck s c).kept = s.kept := by
  intros; unfold State.coreCheck at *; grind [State.report_kept, State.updCore_kept]

theorem State.emptyFrame_kept (s : State) (n : CacheName) (f : ℕ) : (State.emptyFrame s n f).kept = s.kept := by
  intros; unfold State.emptyFrame at *; grind [State.updCore_kept, State.l1dEvict_kept, State.l2Evict_kept,
      State.settle_kept, State.l3Evict_kept, State.l2EvictNow_kept]

theorem State.overLimit_kept (s : State) (n : CacheName) : (State.overLimit s n).kept = s.kept := by
  cases n with
  | l1i c => exact State.report_kept _ _
  | l1d c => exact State.report_kept _ _
  | l2 q => exact foldl_kept _ (fun s c => State.report_kept _ _) _ _
  | l3 h => exact State.healthEval_kept _

theorem State.retireFrame_kept (s : State) (n : CacheName) (f sector : ℕ) : (State.retireFrame s n f sector).kept =
    s.kept := by
  have e : ∀ u : State, ∀ g x,
      ({ (((u.emptyFrame n f).updCache n g).count .retired) with fe := x } : State).kept = u.kept := by
    intro u g x; exact (show _ = (((u.emptyFrame n f).updCache n g).count .retired).kept from rfl).trans
      ((State.count_kept _ _).trans ((State.updCache_kept _ _ _).trans (State.emptyFrame_kept _ _ _)))
  unfold State.retireFrame
  split
  · dsimp only; split
    · exact (State.l3Capture_kept _ _ _ _ _).trans (e _ _ _)
    · exact e _ _ _
  · exact State.overLimit_kept _ _

theorem State.suspect_kept (s : State) (n : CacheName) (f sector : ℕ) : (State.suspect s n f sector).kept = s.kept := by
  intros; unfold State.suspect at *; grind [State.retireFrame_kept, State.updCache_kept]

theorem State.dataLost_kept (s : State) (n : CacheName) (sec : ℕ) : (State.dataLost s n sec).2.kept = s.kept := by
  intros; unfold State.dataLost at *; grind [State.l1iDrop_kept, State.l1dDrop_kept, State.updCore_kept,
      State.updL2_kept,
      State.updL3_kept]

theorem State.tagLost_kept (s : State) (n : CacheName) (f : ℕ) : (State.tagLost s n f).kept = s.kept := by
  cases n with
  | l1i c => exact State.emptyFrame_kept _ _ _
  | l1d c => exact State.coreCheck_kept _ _
  | l2 q => exact foldl_kept _ (fun s c => State.coreCheck_kept _ _) _ _
  | l3 h => simp only [State.tagLost]; grind [State.report_kept, State.emptyFrame_kept, State.coreCheck_kept]

theorem State.arrayError_kept (s : State) (e : ArrayErr) : (State.arrayError s e).kept = s.kept := by
  intros; unfold State.arrayError at *; grind [State.arrayReport_kept, State.event_kept, State.suspect_kept,
      State.dataLost_kept, State.retireFrame_kept, State.tagLost_kept]

end Sys2Proof.Machine
end

