-- ==== Sys2Proof/Laws/KeptFsi.lean ====
section
/-! SUPPORT. What the operations of Machine/Fsi leave alone. -/

set_option Elab.async false
set_option linter.unusedVariables false
set_option linter.unusedTactic false
set_option linter.unreachableTactic false

namespace Sys2Proof.Machine

theorem State.acceptReq_kept (s : State) (box : ℕ) : (State.acceptReq s box).kept = s.kept := by
  intros; unfold State.acceptReq at *; grind [State.boxClear_kept, State.reply_kept, State.kept]

theorem execRequestAccept_kept (box : ℕ) (s : State) : ∀ t₁,
      (execRequestAccept box s) = .next t₁ → t₁.kept = s.kept := by
  intros; unfold execRequestAccept at *; grind [State.acceptReq_kept, ok]

theorem State.postResponse_kept (s : State) (r : Nat × List Nat) :
    (State.postResponse s r).kept = s.kept := by
  intros; unfold State.postResponse at *; grind [State.boxPost_kept, State.kept]

theorem State.postAll_kept (s : State) : (State.postAll s).kept = s.kept :=
  foldl_kept _ (fun s r => by split <;> first | exact State.postResponse_kept _ _ | rfl) _ s

theorem execResponsePost_kept (box : ℕ) (s : State) : ∀ t₁,
      (execResponsePost box s) = .next t₁ → t₁.kept = s.kept := by
  intros; unfold execResponsePost at *; grind [State.boxPost_kept, State.kept, ok, State.postResponse_kept]

theorem execEventPost_kept (box : ℕ) (s : State) : ∀ t₁, (execEventPost box s) = .next t₁ → t₁.kept = s.kept := by
  intros; unfold execEventPost at *; grind [State.setFld_kept, State.putWords_kept, State.boxPost_kept, State.kept,
      ok]

theorem State.finish_kept (s : State) (row : CmdRow) (c : Call) (a : Ans) : (State.finish s row c a).kept = s.kept := by
  intros; unfold State.finish at *; grind [State.complete_kept, State.reply_kept]

theorem State.begin_kept (s : State) (o : FsiOp) : (State.begin s o).kept = s.kept := by
  unfold State.begin; dsimp only; split
  · rw [State.reply_kept]; rfl
  · rfl

theorem State.runReq_kept (s : State) (row : CmdRow) (bad : Call → State → Option ℕ) (lenOk : Call → Bool)
    (objs : Call → State → List Obj) (act : Call → State → CmdAns) (ha : ∀ c u d,
    d.kept = u.kept → ((act c u).st d).kept = u.kept) (r : FsiReq) :
    (State.runReq s row bad lenOk objs act r).kept = s.kept := by
  intros; unfold State.runReq at *; grind [State.finish_kept, State.begin_kept, State.kept, CmdAns.st]

theorem State.tryAgain_kept (s : State) (row : CmdRow) (lenOk : Call → Bool) (act : Call → State → CmdAns)
    (ha : ∀ c u d, d.kept = u.kept → ((act c u).st d).kept = u.kept) (o : FsiOp) :
    (State.tryAgain s row lenOk act o).kept = s.kept := by
  intros; unfold State.tryAgain at *; grind [State.opEnd_kept, State.kept, CmdAns.st]

theorem State.command_kept (s : State) (row : CmdRow) (bad : Call → State → Option ℕ) (lenOk : Call → Bool)
    (objs : Call → State → List Obj) (act : Call → State → CmdAns) (ha : ∀ c u d,
    d.kept = u.kept → ((act c u).st d).kept = u.kept) : (State.command s row bad lenOk objs act).kept = s.kept := by
  intros; unfold State.command at *; grind [State.runReq_kept, State.tryAgain_kept]

theorem State.eraseSlot_kept (s : State) (k : ℕ) :
    (State.eraseSlot s k).kept = s.kept := by
  intros; unfold State.eraseSlot at *; grind [State.kept]

theorem State.ans_kept (s : State) (st : ℕ) (res : List ℕ) (detail : ℕ) : ∀ d₁ : State,
    d₁.kept = s.kept → ((State.ans s st res detail).st d₁).kept = s.kept := by
  intros; unfold State.ans at *; grind [CmdAns.st]

theorem State.yes_kept (s : State) (res : List ℕ) : ∀ d₁ : State,
    d₁.kept = s.kept → ((State.yes s res).st d₁).kept = s.kept := by
  intros; unfold State.yes at *; grind [State.ans_kept, CmdAns.st]

theorem State.deny_kept (s : State) (detail : ℕ) : ∀ d₁ : State,
    d₁.kept = s.kept → ((State.deny s detail).st d₁).kept = s.kept := by
  intros; unfold State.deny at *; grind [State.ans_kept, CmdAns.st]

theorem State.badArg_kept (s : State) (i : ℕ) : ∀ d₁ : State,
    d₁.kept = s.kept → ((State.badArg s i).st d₁).kept = s.kept := by
  intros; unfold State.badArg at *; grind [State.ans_kept, CmdAns.st]

theorem State.readDesc_kept (s : State) (c : Call) (k : Bytes → State → CmdAns) (hk : ∀ b u d,
    d.kept = u.kept → ((k b u).st d).kept = u.kept) : ∀ d₁ : State,
    d₁.kept = s.kept → ((State.readDesc s c k).st d₁).kept = s.kept := by
  unfold State.readDesc; split
  · exact hk _ _
  · grind [State.ioRead_kept, State.badArg_kept, State.freshBytes_kept, CmdAns.st]

theorem State.writeDesc_kept (s : State) (c : Call) (d : Bytes) (k : State → CmdAns) (hk : ∀ u d,
    d.kept = u.kept → ((k u).st d).kept = u.kept) : ∀ d₁ : State,
    d₁.kept = s.kept → ((State.writeDesc s c d k).st d₁).kept = s.kept := by
  unfold State.writeDesc; split
  · intro d hd; exact hd
  · rename_i s1 h1
    intro d hd
    have e1 : s1.kept = s.kept := by grind [State.ioWrite_kept]
    rw [hk _ _ (hd.trans e1.symm), e1]

end Sys2Proof.Machine
end

