-- ==== Sys2Proof/Laws/KeptFsiInfo.lean ====
section
/-! SUPPORT. What the operations of Machine/FsiInfo leave alone. -/

set_option Elab.async false
set_option linter.unusedVariables false
set_option linter.unusedTactic false
set_option linter.unreachableTactic false

namespace Sys2Proof.Machine

theorem State.feRead_kept (s : State) (r : Reg) (idx : List ℕ) : (State.feRead s r idx).2.kept = s.kept := by
  intros; unfold State.feRead at *; grind [State.busRead_kept]

theorem execInfoPart_kept (s : State) : ∀ t₁, (execInfoPart s) = .next t₁ → t₁.kept = s.kept := by
  unfold execInfoPart; apply arm_kept; apply State.command_kept; intro c u d hd; grind [State.yes_kept, CmdAns.st,
      State.command_kept, ok]

theorem execInfoCores_kept (s : State) : ∀ t₁, (execInfoCores s) = .next t₁ → t₁.kept = s.kept := by
  unfold execInfoCores; apply arm_kept; apply State.command_kept; intro c u d hd; grind [State.writeDesc_kept,
      State.yes_kept, CmdAns.st, State.command_kept,
      ok]

theorem execInfoLimits_kept (s : State) : ∀ t₁, (execInfoLimits s) = .next t₁ → t₁.kept = s.kept := by
  unfold execInfoLimits; apply arm_kept; apply State.command_kept; intro c u d hd; grind [State.yes_kept, CmdAns.st,
      State.command_kept, ok]

theorem execHealthSummary_kept (s : State) : ∀ t₁, (execHealthSummary s) = .next t₁ → t₁.kept = s.kept := by
  unfold execHealthSummary; apply arm_kept; apply State.command_kept; intro c u d hd; grind [State.yes_kept,
      foldl_kept, CmdAns.st, State.command_kept,
      ok]

theorem execHealthLog_kept (s : State) : ∀ t₁, (execHealthLog s) = .next t₁ → t₁.kept = s.kept := by
  unfold execHealthLog; apply arm_kept; apply State.command_kept; intro c u d hd; grind [State.writeDesc_kept,
      State.yes_kept, foldl_kept, CmdAns.st,
      State.command_kept, ok]

theorem execHealthSelfTest_kept (s : State) : ∀ t₁, (execHealthSelfTest s) = .next t₁ → t₁.kept = s.kept := by
  unfold execHealthSelfTest; apply arm_kept; apply State.command_kept; intro c u d hd; grind [State.deny_kept,
      State.fresh_kept, State.yes_kept, State.kept,
      CmdAns.st, State.command_kept, ok]

theorem State.bringBack_kept (s : State) (kind : ℕ) (x : ℕ) : (State.bringBack s kind x).kept = s.kept := by
  intros; unfold State.bringBack at *; grind [State.holdBackstays_kept, State.updCore_kept, State.updL2_kept,
      State.updL3_kept, State.setReg_kept, State.kept]

theorem execHealthReturn_kept (s : State) : ∀ t₁, (execHealthReturn s) = .next t₁ → t₁.kept = s.kept := by
  unfold execHealthReturn; apply arm_kept; apply State.command_kept; intro c u d hd; grind [State.deny_kept,
      State.yes_kept, State.healthEval_kept, State.bringBack_kept,
      State.kept, CmdAns.st, State.command_kept, ok]

theorem execRecordWrite_kept (s : State) : ∀ t₁, (execRecordWrite s) = .next t₁ → t₁.kept = s.kept := by
  unfold execRecordWrite; apply arm_kept; apply State.command_kept; intro c u d hd; grind [State.readDesc_kept,
      State.yes_kept, State.kept, CmdAns.st,
      State.command_kept, ok]

theorem execRecordRead_kept (s : State) : ∀ t₁, (execRecordRead s) = .next t₁ → t₁.kept = s.kept := by
  unfold execRecordRead; apply arm_kept; apply State.command_kept; intro c u d hd; grind [State.ans_kept,
      State.badArg_kept, State.writeDesc_kept, State.yes_kept,
      CmdAns.st, State.command_kept, ok]

theorem execRecordDouse_kept (s : State) : ∀ t₁, (execRecordDouse s) = .next t₁ → t₁.kept = s.kept := by
  unfold execRecordDouse; apply arm_kept; apply State.command_kept; intro c u d hd; grind [State.writeDesc_kept,
      State.yes_kept, CmdAns.st, State.command_kept,
      ok]

theorem execTimeNow_kept (s : State) : ∀ t₁, (execTimeNow s) = .next t₁ → t₁.kept = s.kept := by
  unfold execTimeNow; apply arm_kept; apply State.command_kept; intro c u d hd; grind [State.yes_kept, CmdAns.st,
      State.command_kept, ok]

theorem execTimePtp_kept (s : State) : ∀ t₁, (execTimePtp s) = .next t₁ → t₁.kept = s.kept := by
  unfold execTimePtp; apply arm_kept; apply State.command_kept; intro c u d hd; grind [State.fresh_kept,
      State.yes_kept, CmdAns.st, State.command_kept,
      ok]

theorem execTimeAlarm_kept (s : State) : ∀ t₁, (execTimeAlarm s) = .next t₁ → t₁.kept = s.kept := by
  unfold execTimeAlarm; apply arm_kept; apply State.command_kept; intro c u d hd; refine ite_cmd (State.setFld_kept _ _ _ _ _) (ite_cmd rfl ((State.setReg_kept _ _ _ _).trans (State.setReg_kept _ _ _ _)))

theorem execTimePtpConfig_kept (s : State) : ∀ t₁, (execTimePtpConfig s) = .next t₁ → t₁.kept = s.kept := by
  unfold execTimePtpConfig; apply arm_kept; apply State.command_kept; intro c u d hd; grind [State.readDesc_kept,
      State.deny_kept, State.yes_kept, State.setReg_kept,
      CmdAns.st, State.command_kept, ok]

theorem execMemoryStatus_kept (s : State) : ∀ t₁, (execMemoryStatus s) = .next t₁ → t₁.kept = s.kept := by
  unfold execMemoryStatus; apply arm_kept; apply State.command_kept; intro c u d hd; dsimp only
  have e : ∀ g, (((u.feRead .MG_STATUS [g]).2.feRead .MG_SPARE [g]).2.feRead .MG_SCRUB [g]).2.kept = u.kept := by
    intro g; rw [State.feRead_kept, State.feRead_kept, State.feRead_kept]
  exact (State.yes_kept _ _ d (hd.trans (e _).symm)).trans (e _)

theorem execMemoryMarkFailed_kept (s : State) : ∀ t₁, (execMemoryMarkFailed s) = .next t₁ → t₁.kept = s.kept := by
  unfold execMemoryMarkFailed; apply arm_kept; apply State.command_kept; intro c u d hd; grind [State.deny_kept,
      State.yes_kept, State.markDie_kept, CmdAns.st,
      State.command_kept, ok]

theorem execMemoryRetrain_kept (s : State) : ∀ t₁, (execMemoryRetrain s) = .next t₁ → t₁.kept = s.kept := by
  unfold execMemoryRetrain; apply arm_kept; apply State.command_kept; intro c u d hd; grind [State.startRetrain_kept, State.yes_kept, CmdAns.st, State.command_kept,
      ok]

theorem execMemoryPoisonList_kept (s : State) : ∀ t₁, (execMemoryPoisonList s) = .next t₁ → t₁.kept = s.kept := by
  unfold execMemoryPoisonList; apply arm_kept; apply State.command_kept; intro c u d hd; grind [State.writeDesc_kept, State.yes_kept, CmdAns.st, State.command_kept,
      ok]

theorem execMemoryMram_kept (s : State) : ∀ t₁, (execMemoryMram s) = .next t₁ → t₁.kept = s.kept := by
  unfold execMemoryMram; apply arm_kept; apply State.command_kept; intro c u d hd; refine (fold_kept Prod.snd _ ?_ _ _).trans (State.feRead_kept _ _ _)
  intro r i; exact State.feRead_kept _ _ _

end Sys2Proof.Machine
end

