-- ==== Sys2Proof/Laws/KeptFsiKey.lean ====
section
/-! SUPPORT. What the operations of Machine/FsiKey leave alone. -/

set_option Elab.async false
set_option linter.unusedVariables false
set_option linter.unusedTactic false
set_option linter.unreachableTactic false

namespace Sys2Proof.Machine

theorem execTraceAuthorise_kept (s : State) : ∀ t₁, (execTraceAuthorise s) = .next t₁ → t₁.kept = s.kept := by
  unfold execTraceAuthorise; apply arm_kept; apply State.command_kept; intro c u d hd; grind [State.readDesc_kept,
      State.deny_kept, State.ans_kept, State.yes_kept,
      State.applyTokens_kept, State.kept, CmdAns.st, State.command_kept,
      ok]

theorem execTraceRevoke_kept (s : State) : ∀ t₁, (execTraceRevoke s) = .next t₁ → t₁.kept = s.kept := by
  unfold execTraceRevoke; apply arm_kept; apply State.command_kept; intro c u d hd; grind [State.yes_kept,
      State.endToken_kept, CmdAns.st, State.command_kept,
      ok]

theorem execTraceList_kept (s : State) : ∀ t₁, (execTraceList s) = .next t₁ → t₁.kept = s.kept := by
  unfold execTraceList; apply arm_kept; apply State.command_kept; intro c u d hd; grind [State.freshBytes_kept,
      State.writeDesc_kept, State.yes_kept, CmdAns.st,
      State.command_kept, ok]

theorem State.loadSlot_kept (s : State) (k : ℕ) (key : Option Bytes) : (State.loadSlot s k key).kept = s.kept := by
  intros; unfold State.loadSlot at *; grind [State.kept]

theorem execKeyMemKey_kept (s : State) : ∀ t₁, (execKeyMemKey s) = .next t₁ → t₁.kept = s.kept := by
  unfold execKeyMemKey; apply arm_kept; apply State.command_kept; intro c u d hd; grind [State.readDesc_kept,
      State.yes_kept, State.loadSlot_kept, State.deny_kept,
      CmdAns.st, State.command_kept, ok]

theorem State.flushRange_kept (s : State) (lo : ℕ) (hi : ℕ) : (State.flushRange s lo hi).2.kept = s.kept := by
  unfold State.flushRange; refine fold_kept Prod.snd _ ?_ _ _; intro r e; refine fold_kept Prod.snd _ ?_ _ _; intro r f; grind [State.l3Evict_kept,
      foldl_kept]

theorem execKeyMap_kept (s : State) : ∀ t₁, (execKeyMap s) = .next t₁ → t₁.kept = s.kept := by
  unfold execKeyMap; apply arm_kept; apply State.command_kept; intro c u d hd; grind [State.deny_kept,
      State.flushRange_kept, State.yes_kept, State.setReg_kept,
      foldl_kept, CmdAns.st, State.command_kept, ok]

theorem State.setKey_kept (s : State) (n : ℕ) (h : ℕ) (k : Option SliceKey) : (State.setKey s n h k).kept = s.kept := by
  intros; unfold State.setKey at *; grind [State.kept]

theorem execKeySliceKey_kept (s : State) : ∀ t₁, (execKeySliceKey s) = .next t₁ → t₁.kept = s.kept := by
  unfold execKeySliceKey; apply arm_kept; apply State.command_kept; intro c u d hd; grind [State.readDesc_kept,
      State.yes_kept, State.setKey_kept, State.deny_kept,
      State.freshBytes_kept, CmdAns.st, State.command_kept, ok]

theorem execKeyErase_kept (s : State) : ∀ t₁, (execKeyErase s) = .next t₁ → t₁.kept = s.kept := by
  unfold execKeyErase; apply arm_kept; apply State.command_kept; intro c u d hd; grind [State.yes_kept,
      State.setKey_kept, State.kept, CmdAns.st,
      State.command_kept, State.eraseSlot_kept, ok]

theorem execKeyPublic_kept (s : State) : ∀ t₁, (execKeyPublic s) = .next t₁ → t₁.kept = s.kept := by
  unfold execKeyPublic; apply arm_kept; apply State.command_kept; intro c u d hd; grind [State.deny_kept,
      State.badArg_kept, State.writeDesc_kept, State.yes_kept,
      CmdAns.st, State.command_kept, ok]

theorem State.setBanks_kept (s : State) (host : Bool) (b : Banks) : (State.setBanks s host b).kept = s.kept := by
  intros; unfold State.setBanks at *; grind [State.kept]

theorem execFirmwareStage_kept (s : State) : ∀ t₁, (execFirmwareStage s) = .next t₁ → t₁.kept = s.kept := by
  unfold execFirmwareStage; apply arm_kept; apply State.command_kept; intro c u d hd; grind [State.readDesc_kept,
      State.setBanks_kept, State.deny_kept, State.healthEval_kept,
      State.fetasWrite_kept, State.yes_kept, CmdAns.st, State.command_kept,
      ok]

theorem execFirmwareActivate_kept (s : State) : ∀ t₁, (execFirmwareActivate s) = .next t₁ → t₁.kept = s.kept := by
  unfold execFirmwareActivate; apply arm_kept; apply State.command_kept; intro c u d hd; grind [State.deny_kept,
      State.kept, CmdAns.st, State.command_kept,
      ok]

theorem execFirmwareStatus_kept (s : State) : ∀ t₁, (execFirmwareStatus s) = .next t₁ → t₁.kept = s.kept := by
  unfold execFirmwareStatus; apply arm_kept; apply State.command_kept; intro c u d hd; grind [State.yes_kept,
      CmdAns.st, State.command_kept, ok]

theorem execFirmwareFlash_kept (s : State) : ∀ t₁, (execFirmwareFlash s) = .next t₁ → t₁.kept = s.kept := by
  unfold execFirmwareFlash; apply arm_kept; apply State.command_kept; intro c u d hd; grind [State.readDesc_kept,
      State.ans_kept, State.badArg_kept, State.yes_kept,
      foldl_kept, State.kept, CmdAns.st, State.command_kept,
      ok]

theorem execFirmwareRollback_kept (s : State) : ∀ t₁, (execFirmwareRollback s) = .next t₁ → t₁.kept = s.kept := by
  unfold execFirmwareRollback; apply arm_kept; apply State.command_kept; intro c u d hd; grind [State.deny_kept,
      State.kept, CmdAns.st, State.command_kept,
      ok]

end Sys2Proof.Machine
end

