-- ==== Sys2Proof/Laws/KeptFsiSlice.lean ====
section
/-! SUPPORT. What the operations of Machine/FsiSlice leave alone. -/

set_option Elab.async false
set_option linter.unusedVariables false
set_option linter.unusedTactic false
set_option linter.unreachableTactic false

namespace Sys2Proof.Machine

theorem State.resetPage_kept (s : State) (n : ℕ) : (State.resetPage s n).kept = s.kept := by
  intros; unfold State.resetPage at *; grind [State.kept, State.accepted_kept]

theorem State.clearQueue_kept (s : State) (n : ℕ) (q : ℕ) : (State.clearQueue s n q).kept = s.kept := by
  intros; unfold State.clearQueue at *; grind [State.kept]

theorem State.drainsDone_kept (s : State) (id : ℕ) : (State.drainsDone s id).kept = s.kept := by
  intros; unfold State.drainsDone at *; grind [State.opEnd_kept]

theorem State.endDrain_kept (s : State) (d : Drain) : (State.endDrain s d).kept = s.kept := by
  intros; unfold State.endDrain at *; grind [State.setFld_kept, State.clearQueue_kept, State.srcUnpend_kept,
      State.resetPage_kept, State.drainsDone_kept, foldl_kept, State.kept]

theorem State.startDrain_kept (s : State) (n : ℕ) (stop : List ℕ) (affects : Job → Bool) (vecs : List ℕ)
    (req : Option ℕ) (unbind : Bool) : (State.startDrain s n stop affects vecs req unbind).kept = s.kept := by
  intros; unfold State.startDrain at *; grind [State.setFld_kept, State.bumpGen_kept, State.queueStop_kept,
      State.pump_kept, State.cancelPosts_kept, State.endDrain_kept, foldl_kept, State.kept]

theorem execGrantDrainComplete_kept (n : Fin 8192) (s : State) : ∀ t₁,
    (execGrantDrainComplete n s) = .next t₁ → t₁.kept = s.kept := by
  intros; unfold execGrantDrainComplete at *; grind [State.endDrain_kept, ok]

theorem execGrantDrainTimeout_kept (n : Fin 8192) (s : State) : ∀ t₁,
    (execGrantDrainTimeout n s) = .next t₁ → t₁.kept = s.kept := by
  unfold execGrantDrainTimeout; split
  · exact arm_kept rfl
  · rename_i d h
    apply arm_kept; rw [State.endDrain_kept]
    refine Eq.trans (b := State.kept (ite _ _ _)) rfl ?_
    refine ite_st ?_ ((State.seErr_kept _ _ _).trans ?_) <;>
    · refine (foldl_kept _ ?_ _ _).trans (State.setJobs_kept _ _)
      intro s q; exact (State.queueErr_kept _ _ _ _).trans (State.drainEnd_kept _ _ _)

theorem drainCmd_kept {c : Call} {objs : List Obj} {n : Nat} {doneRes : State → List Nat} {act : Option Nat →
    State} {d : State} {k}
    (ha : ∀ r, (act r).kept = k) : ((drainCmd c objs n doneRes act).st d).kept = k := by
  unfold drainCmd; exact ite_cmd (ha _) (ha _)

theorem execSliceBind_kept (s : State) : ∀ t₁, (execSliceBind s) = .next t₁ → t₁.kept = s.kept := by
  unfold execSliceBind; apply arm_kept; apply State.command_kept; intro c u d hd; grind [State.deny_kept,
      State.yes_kept, State.setReg_kept, CmdAns.st, State.command_kept, ok]

theorem State.unbind_kept (s : State) (n : ℕ) (req : Option ℕ) : (State.unbind s n req).kept = s.kept := by
  intros; unfold State.unbind at *; grind [State.setReg_kept, State.startDrain_kept, foldl_kept]

theorem execSliceUnbind_kept (s : State) : ∀ t₁, (execSliceUnbind s) = .next t₁ → t₁.kept = s.kept := by
  unfold execSliceUnbind; apply arm_kept; apply State.command_kept; intro c u d hd; exact ite_cmd rfl (ite_cmd rfl (drainCmd_kept fun r => State.unbind_kept _ _ _))

theorem execSliceGrantQ_kept (s : State) : ∀ t₁, (execSliceGrantQ s) = .next t₁ → t₁.kept = s.kept := by
  unfold execSliceGrantQ; apply arm_kept; apply State.command_kept; intro c u d hd; refine ite_cmd rfl (ite_cmd rfl (ite_cmd ?_ (drainCmd_kept fun r => (State.startDrain_kept _ _ _ _ _ _ _).trans (State.setReg_kept _ _ _ _))))
  refine (State.bumpGen_kept _ _).trans ((foldl_kept _ ?_ _ _).trans (State.setReg_kept _ _ _ _))
  intro s q; exact State.clearQueue_kept _ _ _

theorem execSliceGrantV_kept (s : State) : ∀ t₁, (execSliceGrantV s) = .next t₁ → t₁.kept = s.kept := by
  unfold execSliceGrantV; apply arm_kept; apply State.command_kept; intro c u d hd; exact ite_cmd rfl (ite_cmd ((State.bumpGen_kept _ _).trans (State.setReg_kept _ _ _ _))
   (drainCmd_kept fun r => (State.startDrain_kept _ _ _ _ _ _ _).trans (State.setReg_kept _ _ _ _)))

theorem execSliceGrantBw_kept (s : State) : ∀ t₁, (execSliceGrantBw s) = .next t₁ → t₁.kept = s.kept := by
  unfold execSliceGrantBw; apply arm_kept; apply State.command_kept; intro c u d hd; grind [State.yes_kept,
      State.bumpGen_kept, State.setReg_kept, CmdAns.st,
      State.command_kept, ok]

theorem execSliceWindow_kept (s : State) : ∀ t₁, (execSliceWindow s) = .next t₁ → t₁.kept = s.kept := by
  unfold execSliceWindow; apply arm_kept; apply State.command_kept; intro c u d hd; have e : ∀ (v : Bool) (a b : Word) (n w : Nat),
     (if v then (((u.setReg .WIN_A [n, w] 0).setReg .WIN_B [n, w] 0).setReg .WIN_A [n, w] a).setReg .WIN_B [n, w] b
        else (u.setReg .WIN_A [n, w] 0).setReg .WIN_B [n, w] 0).kept = u.kept := by
    intro v a b n w; refine ite_st ?_ ?_ <;> simp only [State.setReg_kept]
  exact ite_cmd rfl (ite_cmd rfl (ite_cmd ((State.bumpGen_kept _ _).trans (e _ _ _ _ _))
   (drainCmd_kept fun r => (State.startDrain_kept _ _ _ _ _ _ _).trans (e _ _ _ _ _))))

theorem execSliceVport_kept (s : State) : ∀ t₁, (execSliceVport s) = .next t₁ → t₁.kept = s.kept := by
  unfold execSliceVport; apply arm_kept; apply State.command_kept; intro c u d hd; grind [State.readDesc_kept,
      State.badArg_kept, State.yes_kept, State.kept,
      CmdAns.st, State.command_kept, ok]

theorem execSliceGet_kept (s : State) : ∀ t₁, (execSliceGet s) = .next t₁ → t₁.kept = s.kept := by
  unfold execSliceGet; apply arm_kept; apply State.command_kept; intro c u d hd; grind [State.yes_kept, CmdAns.st,
      State.command_kept, ok]

theorem execSlicePcieWindow_kept (s : State) : ∀ t₁, (execSlicePcieWindow s) = .next t₁ → t₁.kept = s.kept := by
  unfold execSlicePcieWindow; apply arm_kept; apply State.command_kept; intro c u d hd; grind [State.yes_kept,
      State.deny_kept, State.kept, CmdAns.st,
      State.command_kept, ok]

theorem execSlicePcieVectors_kept (s : State) : ∀ t₁, (execSlicePcieVectors s) = .next t₁ → t₁.kept = s.kept := by
  unfold execSlicePcieVectors; apply arm_kept; apply State.command_kept; intro c u d hd; grind [State.yes_kept,
      State.kept, CmdAns.st, State.command_kept,
      ok]

theorem execTenantCreate_kept (s : State) : ∀ t₁, (execTenantCreate s) = .next t₁ → t₁.kept = s.kept := by
  unfold execTenantCreate; apply arm_kept; apply State.command_kept; intro c u d hd; grind [State.deny_kept,
      State.yes_kept, State.kept, CmdAns.st, State.command_kept, ok, State.domainOn_kept]

theorem execTenantRemove_kept (s : State) : ∀ t₁, (execTenantRemove s) = .next t₁ → t₁.kept = s.kept := by
  unfold execTenantRemove; apply arm_kept; apply State.command_kept; intro c u d hd; grind [State.setReg_kept,
      State.eraseSlot_kept, State.unbind_kept, State.yes_kept,
      foldl_kept, State.kept, CmdAns.st, State.command_kept,
      ok]

theorem execTenantMigrate_kept (s : State) : ∀ t₁, (execTenantMigrate s) = .next t₁ → t₁.kept = s.kept := by
  unfold execTenantMigrate; apply arm_kept; apply State.command_kept; intro c u d hd; grind [State.deny_kept,
      State.ans_kept, State.moveCore_kept, State.yes_kept,
      State.healthEval_kept, State.coreDown_kept, CmdAns.st, State.command_kept,
      ok]

theorem execTenantCoreReset_kept (s : State) : ∀ t₁, (execTenantCoreReset s) = .next t₁ → t₁.kept = s.kept := by
  unfold execTenantCoreReset; apply arm_kept; apply State.command_kept; intro c u d hd; grind [State.deny_kept,
      State.warmReset_kept, State.yes_kept, CmdAns.st,
      State.command_kept, ok]

theorem execTenantCoreResume_kept (s : State) : ∀ t₁, (execTenantCoreResume s) = .next t₁ → t₁.kept = s.kept := by
  unfold execTenantCoreResume; apply arm_kept; apply State.command_kept; intro c u d hd; grind [State.deny_kept,
      State.yes_kept, State.updCore_kept, CmdAns.st,
      State.command_kept, ok]

theorem execTenantResumedList_kept (s : State) : ∀ t₁, (execTenantResumedList s) = .next t₁ → t₁.kept = s.kept := by
  unfold execTenantResumedList; apply arm_kept; apply State.command_kept; intro c u d hd; grind [State.writeDesc_kept, State.yes_kept, CmdAns.st, State.command_kept,
      ok]

theorem execTenantSelf_kept (s : State) : ∀ t₁, (execTenantSelf s) = .next t₁ → t₁.kept = s.kept := by
  unfold execTenantSelf; apply arm_kept; apply State.command_kept; intro c u d hd; grind [State.yes_kept, CmdAns.st,
      State.command_kept, ok]

end Sys2Proof.Machine
end

