-- ==== Sys2Proof/Laws/KeptBoot.lean ====
section
/-! SUPPORT. What the operations of Machine/Boot leave alone. -/

set_option Elab.async false
set_option linter.unusedVariables false
set_option linter.unusedTactic false
set_option linter.unreachableTactic false

namespace Sys2Proof.Machine

theorem State.joinPairs_kept (s : State) (ls : List (ℕ × ℕ)) : (State.joinPairs s ls).kept = s.kept := by
  intros; unfold State.joinPairs at *; grind [State.setPartner_kept, foldl_kept]

theorem State.runHost_kept (s : State) (img : HostImage) (load : ℕ) (pay : Bytes) (reason : ℕ) (ls : List (ℕ × ℕ)) :
    (State.runHost s img load pay reason ls).kept = s.kept := by
  intros; unfold State.runHost at *; grind [State.fetasWrite_kept, State.setFld_kept, State.joinPairs_kept,
      State.startAll_kept, State.kept, State.holdBackstays_kept]

theorem State.newEpoch_kept (s : State) :
    (State.newEpoch s).kept = s.kept := by
  intros; unfold State.newEpoch at *; grind [State.kept]

theorem State.hostSearch_kept (s : State) (src : ℕ) (staged : Bytes) :
    (State.hostSearch s src staged).kept = s.kept := by
  intros; unfold State.hostSearch at *; grind [State.setFld_kept, State.setBanks_kept, State.runHost_kept,
      State.healthFirst_kept, State.redigest_kept, State.kept, State.newEpoch_kept]

theorem State.hostFrom_kept (s : State) (src : Nat) :
    (State.hostFrom s src).kept = s.kept := by
  intros; unfold State.hostFrom at *; grind [State.domainOn_kept, State.setFld_kept, State.hostSearch_kept,
      State.kept]

theorem State.bootRest_kept (s : State) : (State.bootRest s).kept = s.kept := by
  intros; unfold State.bootRest at *; grind [State.riseFetas_kept, State.coldRestarts_kept, State.hostSearch_kept,
      State.kept, State.hostFrom_kept]

theorem State.restoreM0_kept (s : State) : (State.restoreM0 s).kept = s.kept := by
  unfold State.restoreM0; dsimp only
  rw [foldl_kept _ (fun s n => State.pulse_kept _ _), foldl_kept _ (fun s n => ite_st (State.followLine_kept _ _) rfl)]; rfl

theorem State.wakeUp_kept (s : State) : (State.wakeUp s).kept = s.kept := by
  intros; unfold State.wakeUp at *; grind [State.bringUp_kept, State.followLine_kept, State.unfurlPlaced_kept,
      State.rechoose_kept, State.startAll_kept, State.modeEvent_kept, State.setMode_kept, State.riseFetas_kept,
      State.coldRestarts_kept, State.healthEval_kept, State.answerWake_kept, foldl_kept, State.kept,
      State.loadImage_kept, State.pwrStart_kept, State.hostFrom_kept, State.restoreM0_kept]

theorem State.wakeSource_kept (s : State) : (State.wakeSource s).kept = s.kept := by
  intros; unfold State.wakeSource at *; grind [State.pwrStart_kept, State.wakeUp_kept, State.kept]

theorem State.bootManifest_kept (s : State) (b : Bytes) : (State.bootManifest s b).kept = s.kept := by
  intros; unfold State.bootManifest at *; grind [State.applyManifest_kept, State.setFld_kept]

theorem State.flipBank_kept (s : State) (host : Bool) : (State.flipBank s host).kept = s.kept := by
  intros; unfold State.flipBank at *; grind [State.setBanks_kept, State.kept]

theorem State.bootActs_kept (s : State) : (State.bootActs s).kept = s.kept := by
  intros; unfold State.bootActs at *; grind [State.flipBank_kept]

theorem State.bootKeys_kept (s : State) : (State.bootKeys s).kept = s.kept := by
  intros; unfold State.bootKeys at *; grind [foldl_kept, State.kept]

theorem State.bootPlan_kept (s : State) : (State.bootPlan s).kept = s.kept := by
  unfold State.bootPlan; split
  · rfl
  · split <;> rfl

theorem State.bootFirmware_kept (s : State) (src : ℕ) :
    ∀ t, (State.bootFirmware s src) = some t → t.kept = s.kept := by
  intros; unfold State.bootFirmware at *; grind [State.setFld_kept, State.setBanks_kept]

theorem State.coldBoot_kept (s : State) : (State.coldBoot s).kept = s.kept := by
  intros; unfold State.coldBoot at *; grind [State.setReg_kept, State.setFld_kept, State.setBanks_kept,
      State.bootManifest_kept, State.bootPlan_kept, State.bootActs_kept, State.setMode_kept, State.bringUp_kept,
      State.bootKeys_kept, State.bootRest_kept, State.kept, State.bootFirmware_kept, State.idle_kept,
      State.loadImage_kept, State.pwrStart_kept]

theorem State.noteTenant_kept (s : State) (v : ℕ) (st : ℕ) : (State.noteTenant s v st).kept = s.kept := by
  intros; unfold State.noteTenant at *; grind [State.kept]

theorem State.restoreOne_kept (s : State) (e : ℕ × Option Saved) (bad : Bool) : (State.restoreOne s e bad).kept = s.kept := by
  intros; unfold State.restoreOne at *; grind [State.noteTenant_kept, State.settleOn_kept, State.setReg_kept,
      State.traceGap_kept, State.kept]

theorem State.resumeEvents_kept (s : State) : (State.resumeEvents s).kept = s.kept := by
  intros; unfold State.resumeEvents at *; grind [State.feEvent_kept, State.noteTenant_kept, foldl_kept]

theorem State.restoreRegs_kept (s : State) (d : Douse) (bad : BitVec 64) : (State.restoreRegs s d bad).kept = s.kept := by
  intros; unfold State.restoreRegs at *; grind [State.reply_kept, foldl_kept, State.kept]

theorem State.resumeHealth_kept (s : State) :
    (State.resumeHealth s).kept = s.kept := by
  intros; unfold State.resumeHealth at *; grind [State.healthEval_kept, State.setFld_kept, State.kept]

theorem execResumeStart_kept (bad : BitVec 64) (s : State) : ∀ t₁, (execResumeStart s bad) = .next t₁ → t₁.kept = s.kept := by
  intros; unfold execResumeStart at *; grind [State.restoreRegs_kept, State.applyTokens_kept, State.restoreOne_kept,
      State.resumeEvents_kept, State.joinPairs_kept, State.wakeCheck_kept, State.healthFirst_kept,
      State.redigest_kept, State.riseFetas_kept, State.bootRest_kept, foldl_kept, State.kept, ok,
      State.resumeHealth_kept, State.holdBackstays_kept, State.postAll_kept]

theorem State.endStaging_kept (s : State) :
    (State.endStaging s).kept = s.kept := by
  intros; unfold State.endStaging at *; grind [State.loadImage_kept, State.kept]

theorem execBootPcieStaged_kept (img : List Byte) (man : List Byte) (s : State) : ∀ t₁,
    (execBootPcieStaged img man s) = .next t₁ → t₁.kept = s.kept := by
  intros; unfold execBootPcieStaged at *; grind [State.fetasWrite_kept, State.bootManifest_kept,
      State.hostSearch_kept, ok, State.endStaging_kept]

theorem execBootPcieTimeout_kept (s : State) : ∀ t₁, (execBootPcieTimeout s) = .next t₁ → t₁.kept = s.kept := by
  intros; unfold execBootPcieTimeout at *; grind [State.hostSearch_kept, State.kept, ok, State.endStaging_kept]

theorem execBootRetry_kept (s : State) : ∀ t₁, (execBootRetry s) = .next t₁ → t₁.kept = s.kept := by
  intros; unfold execBootRetry at *; grind [State.hostSearch_kept, State.kept, ok, State.hostFrom_kept]

end Sys2Proof.Machine
end

