-- ==== Sys2Proof/Laws/KeptFsiPlan.lean ====
section
/-! SUPPORT. What the operations of Machine/FsiPlan leave alone. -/

set_option Elab.async false
set_option linter.unusedVariables false
set_option linter.unusedTactic false
set_option linter.unreachableTactic false

namespace Sys2Proof.Machine

theorem execPlanLoad_kept (s : State) : ∀ t₁, (execPlanLoad s) = .next t₁ → t₁.kept = s.kept := by
  unfold execPlanLoad; apply arm_kept; apply State.command_kept; intro c u d hd; grind [State.ans_kept,
      State.readDesc_kept, State.deny_kept, State.yes_kept,
      State.kept, CmdAns.st, State.command_kept, ok]

theorem State.restage_kept (s : State) : (State.restage s).kept = s.kept := by
  intros; unfold State.restage at *; grind [State.stageAll_kept, State.kept]

theorem execPlanCommit_kept (s : State) : ∀ t₁, (execPlanCommit s) = .next t₁ → t₁.kept = s.kept := by
  unfold execPlanCommit; apply arm_kept; apply State.command_kept; intro c u d hd; refine ite_cmd rfl (ite_cmd rfl ?_)
  split
  · rfl
  · exact ite_cmd rfl (ite_cmd rfl ((State.restage_kept _).trans rfl))

theorem execPlanDigest_kept (s : State) : ∀ t₁, (execPlanDigest s) = .next t₁ → t₁.kept = s.kept := by
  unfold execPlanDigest; apply arm_kept; apply State.command_kept; intro c u d hd; grind [State.yes_kept, CmdAns.st,
      State.command_kept, ok]

theorem execPlanScan_kept (s : State) : ∀ t₁, (execPlanScan s) = .next t₁ → t₁.kept = s.kept := by
  unfold execPlanScan; apply arm_kept; apply State.command_kept; intro c u d hd; grind [State.scan_kept,
      State.yes_kept, State.ans_kept, CmdAns.st,
      State.command_kept, ok]

theorem execPlanCancel_kept (s : State) : ∀ t₁, (execPlanCancel s) = .next t₁ → t₁.kept = s.kept := by
  unfold execPlanCancel; apply arm_kept; apply State.command_kept; intro c u d hd; split
  · exact State.deny_kept _ _ d hd
  · refine ite_cmd (State.ans_kept _ _ _ _ d hd) (ite_cmd (State.deny_kept _ _ d hd) ?_)
    have e : ∀ a b, ((State.restage { u with fe := { u.fe with commit := none } }).opEnd a b).kept = u.kept := by
      intro a b; rw [State.opEnd_kept, State.restage_kept, kept_fe]
    exact (State.yes_kept _ _ d (hd.trans (e _ _).symm)).trans (e _ _)

theorem execPowerSetMode_kept (s : State) : ∀ t₁, (execPowerSetMode s) = .next t₁ → t₁.kept = s.kept := by
  unfold execPowerSetMode; apply arm_kept; apply State.command_kept; intro c u d hd; exact ite_cmd rfl (ite_cmd rfl ((State.restage_kept _).trans rfl))

theorem execPowerSetReef_kept (s : State) : ∀ t₁, (execPowerSetReef s) = .next t₁ → t₁.kept = s.kept := by
  unfold execPowerSetReef; apply arm_kept; apply State.command_kept; intro c u d hd; grind [State.deny_kept,
      State.yes_kept, State.setLevel_kept, State.kept,
      CmdAns.st, State.command_kept, ok]

theorem execPowerDomain_kept (s : State) : ∀ t₁, (execPowerDomain s) = .next t₁ → t₁.kept = s.kept := by
  unfold execPowerDomain; apply arm_kept; apply State.command_kept; intro c u d hd; grind [State.deny_kept,
      State.yes_kept, State.domainsOn_kept, State.quietOff_kept,
      foldl_kept, CmdAns.st, State.command_kept, State.quadDown_kept,
      ok]

theorem execPowerFurl_kept (s : State) : ∀ t₁, (execPowerFurl s) = .next t₁ → t₁.kept = s.kept := by
  unfold execPowerFurl; apply arm_kept; apply State.command_kept; intro c u d hd; grind [State.deny_kept,
      State.ans_kept, State.furl_kept, State.freshUpTo_kept,
      State.healthEval_kept, State.yes_kept, CmdAns.st, State.command_kept,
      ok]

theorem execPowerUnfurl_kept (s : State) : ∀ t₁, (execPowerUnfurl s) = .next t₁ → t₁.kept = s.kept := by
  unfold execPowerUnfurl; apply arm_kept; apply State.command_kept; intro c u d hd; grind [State.deny_kept,
      State.ans_kept, State.freshUpTo_kept, State.healthEval_kept,
      State.unfurlTo_kept, State.yes_kept, CmdAns.st, State.command_kept,
      ok]

theorem execPowerState_kept (s : State) : ∀ t₁, (execPowerState s) = .next t₁ → t₁.kept = s.kept := by
  unfold execPowerState; apply arm_kept; apply State.command_kept; intro c u d hd; grind [State.yes_kept,
      foldl_kept, CmdAns.st, State.command_kept,
      ok]

end Sys2Proof.Machine
end

