-- ==== Sys2Proof/Laws/KeptRestart.lean ====
section
/-! SUPPORT. What the operations of Machine/Restart leave alone. -/

set_option Elab.async false
set_option linter.unusedVariables false
set_option linter.unusedTactic false
set_option linter.unreachableTactic false

namespace Sys2Proof.Machine

theorem State.fetasDown_kept (s : State) : (State.fetasDown s).kept = s.kept := by
  intros; unfold State.fetasDown at *; grind [State.pulse_kept, State.setFld_kept, State.kept]

theorem execWatchdogExpiry_kept (s : State) : ∀ t₁, (execWatchdogExpiry s) = .next t₁ → t₁.kept = s.kept := by
  intros; unfold execWatchdogExpiry at *; grind [State.fetasDown_kept, State.setFld_kept, ok]

theorem execFetasLockstepMismatch_kept (s : State) : ∀ t₁,
      (execFetasLockstepMismatch s) = .next t₁ → t₁.kept = s.kept := by
  intros; unfold execFetasLockstepMismatch at *; grind [State.fetasDown_kept, State.healthEval_kept, State.count_kept,
      State.kept, ok]

theorem State.settleAccepted_kept (s : State) : (State.settleAccepted s).kept = s.kept := by
  intros; unfold State.settleAccepted at *; grind [foldl_kept, State.kept, State.idle_kept, State.accepted_kept]

theorem State.settleRequests_kept (s : State) : (State.settleRequests s).kept = s.kept := by
  intros; unfold State.settleRequests at *; grind [State.settleAccepted_kept, State.reply_kept, State.boxClear_kept,
      foldl_kept]

theorem State.answerActs_kept (s : State) : (State.answerActs s).kept = s.kept := by
  intros; unfold State.answerActs at *; grind [State.endHolding_kept]

theorem execFetasRestart_kept (good : Bool) (s : State) : ∀ t₁,
    (execFetasRestart good s) = .next t₁ → t₁.kept = s.kept := by
  intros; unfold execFetasRestart at *; grind [State.setBanks_kept, State.setFld_kept, State.answerActs_kept,
      State.settleRequests_kept, State.riseFetas_kept, State.healthEval_kept, State.feEvent_kept, ok,
      State.postAll_kept]

theorem execFwTrialSuccess_kept (s : State) : ∀ t₁, (execFwTrialSuccess s) = .next t₁ → t₁.kept = s.kept := by
  intros; unfold execFwTrialSuccess at *; grind [State.setFld_kept, State.setBanks_kept, ok]

theorem State.resetAll_kept (s : State) (x1 : List (ℕ × ℕ)) : ∀ t,
      (State.resetAll s x1) = some t → t.kept = s.kept := by
  induction x1 generalizing s with
  | nil => simp [State.resetAll]
  | cons y ys ih =>
    unfold State.resetAll
    intro t h; obtain ⟨i, p⟩ := y; revert h; dsimp only; split
    · simp
    · rename_i u hu; intro h; rw [ih _ _ h, State.resetCore_kept _ _ _ hu]

theorem State.activateHost_kept (s : State) : ∀ t, (State.activateHost s) = some t → t.kept = s.kept := by
  intros; unfold State.activateHost at *; grind [State.setBanks_kept, State.opEnd_kept, State.resetAll_kept,
      State.flipBank_kept, State.runHost_kept, State.redigest_kept, State.coldRestarts_kept, State.kept]

theorem execFirmwareActivateTick_kept (s : State) : ∀ t₁,
      (execFirmwareActivateTick s) = .next t₁ → t₁.kept = s.kept := by
  intros; unfold execFirmwareActivateTick at *; grind [State.activateHost_kept, State.fetasDown_kept,
      State.setFld_kept, State.flipBank_kept, ok]

theorem execFloorRaise_kept (s : State) : ∀ t₁, (execFloorRaise s) = .next t₁ → t₁.kept = s.kept := by
  intros; unfold execFloorRaise at *; grind [State.kept, ok]

end Sys2Proof.Machine
end

