-- ==== Sys2Proof/Laws/KeptDouse.lean ====
section
/-! SUPPORT. What the operations of Machine/Douse leave alone. -/

set_option Elab.async false
set_option linter.unusedVariables false
set_option linter.unusedTactic false
set_option linter.unreachableTactic false

namespace Sys2Proof.Machine

theorem State.stopOne_kept (s : State) (p : Nat) : (State.stopOne s p).kept = s.kept := by
  have e : ((s.stopCore (Fin.ofNat 64 p) true).getD s).kept = s.kept := by
    rcases hw : s.stopCore (Fin.ofNat 64 p) true with _ | t
    · rfl
    · exact State.stopCore_kept _ _ _ _ hw
  unfold State.stopOne; dsimp only; split
  · rw [State.noteQuarantine_kept, State.leaveDist_kept, e]
  · rw [State.leaveDist_kept, e]

theorem State.noteReport_kept (s : State) (r : Report) : (State.noteReport s r).kept = s.kept := by
  unfold State.noteReport; split
  · exact State.noteQuarantine_kept _ _
  · split <;> simp only [State.noteQuarantine_kept]
  · rfl
  · rfl

theorem State.stopAll_kept (s : State) : (State.stopAll s).kept = s.kept := by
  unfold State.stopAll; dsimp only
  rw [foldl_kept _ (fun s r => State.noteReport_kept _ _), foldl_kept _ (fun s e => State.stopOne_kept _ _),
    foldl_kept _ (fun s n => State.progress_kept _ _), foldl_kept _ (fun s c => State.updCore_kept _ _ _)]

theorem State.writeCounted_kept (s : State) : (State.writeCounted s).kept = s.kept := by
  intros; unfold State.writeCounted at *; grind [State.reclaimSec_kept, foldl_kept, State.kept, State.mramAll_kept]

theorem State.douseRequests_kept (s : State) : (State.douseRequests s).kept = s.kept := by
  intros; unfold State.douseRequests at *; grind [State.settleAccepted_kept, State.kept]

theorem State.dropVolatile_kept (s : State) : (State.dropVolatile s).kept = s.kept := by
  intros; unfold State.dropVolatile at *; grind [State.kept, State.idle_kept]

theorem State.douse_kept (s : State) (source : ℕ) : (State.douse s source).kept = s.kept := by
  intros; unfold State.douse at *; grind [State.stopAll_kept, State.sliceDouse_kept, State.fetasDown_kept,
      State.writeCounted_kept, State.domainsOff_kept, State.dropVolatile_kept, State.douseRequests_kept, State.kept]

theorem State.startBoot_kept (s : State) : (State.startBoot s).kept = s.kept := by
  intros; unfold State.startBoot at *; grind [State.coldBoot_kept, State.pwrStart_kept, State.kept]

theorem State.bootIfGood_kept (s : State) : (State.bootIfGood s).kept = s.kept := by
  intros; unfold State.bootIfGood at *; grind [State.startBoot_kept]

theorem execDouseSeal_kept (s : State) : ∀ t₁, (execDouseSeal s) = .next t₁ → t₁.kept = s.kept := by
  intros; unfold execDouseSeal at *; grind [State.freshUpTo_kept, State.domainsOff_kept, State.pwrStart_kept,
      State.setMode_kept, State.bootIfGood_kept, State.kept, ok, State.count_kept]

theorem State.endBoot_kept (s : State) : (State.endBoot s).kept = s.kept := by
  intros; unfold State.endBoot at *; grind [State.hardReset_kept, State.pwrStart_kept, State.setMode_kept, State.kept]

theorem State.warned_kept (s : State) (source : ℕ) : (State.warned s source).kept = s.kept := by
  intros; unfold State.warned at *; grind [State.pwrStart_kept, State.endBoot_kept, State.douse_kept, State.kept]

theorem execPowerFailWarning_kept (what : PowerFail) (s : State) : ∀ t₁,
    (execPowerFailWarning what s) = .next t₁ → t₁.kept = s.kept := by
  intros; unfold execPowerFailWarning at *; grind [State.setFld_kept, State.warned_kept, State.kept, ok]

theorem execPowerFailRecovery_kept (mv : ℕ) (pfwHigh : Bool) (edges : ℕ) (s : State) : ∀ t₁,
    (execPowerFailRecovery s mv pfwHigh edges) = .next t₁ → t₁.kept = s.kept := by
  have h : ∀ (u : State) (x : Crow), ({ u with crow := x } : State).kept = u.kept := fun _ _ => rfl
  unfold execPowerFailRecovery; split
  · exact arm_kept rfl
  · dsimp only; split
    · apply arm_kept; rw [State.bootIfGood_kept, h, State.setFld_kept]
    · split <;> apply arm_kept <;> simp only [State.wakeSource_kept, h, State.setFld_kept]

theorem State.wakePulse_kept (s : State) (n : Nat) :
    (State.wakePulse s n).kept = s.kept := by
  intros; unfold State.wakePulse at *; grind [State.pulse_kept, State.kept]

theorem execEarlyPowerWarning_kept (mv us : ℕ) (s : State) : ∀ t₁,
    (execEarlyPowerWarning mv s us) = .next t₁ → t₁.kept = s.kept := by
  unfold execEarlyPowerWarning; dsimp only; split
  · exact arm_kept rfl
  · split
    · exact arm_kept (State.setFld_kept _ _ _ _ _)
    · split
      · exact arm_kept rfl
      · apply arm_kept; rw [State.wakePulse_kept, State.setFld_kept, State.setFld_kept]

theorem execPwrEnDelay_kept (s : State) : ∀ t₁, (execPwrEnDelay s) = .next t₁ → t₁.kept = s.kept := by
  intros; unfold execPwrEnDelay at *; grind [State.wakeUp_kept, State.coldBoot_kept, State.kept, ok]

theorem State.resetLike_kept (s : State) : (State.resetLike s).kept = s.kept := by
  intros; unfold State.resetLike at *; grind [State.hardReset_kept, State.kept]

theorem execResetN_kept (ns : ℕ) (s : State) : ∀ t₁, (execResetN ns s) = .next t₁ → t₁.kept = s.kept := by
  intros; unfold execResetN at *; grind [State.freshUpTo_kept, State.resetLike_kept, State.kept, ok]

theorem execResetNRelease_kept (s : State) : ∀ t₁, (execResetNRelease s) = .next t₁ → t₁.kept = s.kept := by
  intros; unfold execResetNRelease at *; grind [State.bootIfGood_kept, State.kept, ok]

theorem execPowerLoss_kept (mast : Bool) (s : State) : ∀ t₁,
      (execPowerLoss mast s) = .next t₁ → t₁.kept = s.kept := by
  intros; unfold execPowerLoss at *; grind [State.resetLike_kept, State.setMode_kept, State.kept, ok]

theorem execMastPowerUp_kept (sel : Fin 8) (s : State) : ∀ t₁,
      (execMastPowerUp sel s) = .next t₁ → t₁.kept = s.kept := by
  intros; unfold execMastPowerUp at *; grind [State.kept, ok]

theorem execPadHoldSupplyLoss_kept (io33 : Bool) (s : State) : ∀ t₁,
    (execPadHoldSupplyLoss io33 s) = .next t₁ → t₁.kept = s.kept := by
  intros; unfold execPadHoldSupplyLoss at *; grind [State.setFld_kept, State.kept, ok]

theorem execThermalWake_kept (s : State) : ∀ t₁, (execThermalWake s) = .next t₁ → t₁.kept = s.kept := by
  intros; unfold execThermalWake at *; grind [State.bootIfGood_kept, State.kept, ok]

theorem execXt32Fail_kept (s : State) : ∀ t₁, (execXt32Fail s) = .next t₁ → t₁.kept = s.kept := by
  intros; unfold execXt32Fail at *; grind [State.healthEval_kept, State.setFld_kept, ok]

theorem State.wakeBit_kept (s : State) (bit : ℕ) (wakes : Bool) (src : Option ℕ) :
    (State.wakeBit s bit wakes src).kept = s.kept := by
  intros; unfold State.wakeBit at *; grind [State.setFld_kept, State.pulse_kept, State.wakeSource_kept, State.kept,
      State.wakePulse_kept]

theorem execWakeComparator_kept (n : Fin 8) (mv edges : ℕ) (s : State) : ∀ t₁,
    (execWakeComparator n s mv edges) = .next t₁ → t₁.kept = s.kept := by
  unfold execWakeComparator; dsimp only; split
  · exact arm_kept rfl
  · apply arm_kept; rw [State.wakeBit_kept, State.setFld_kept]

theorem execComparatorRelease_kept (n : Fin 8) (mv : ℕ) (s : State) : ∀ t₁,
    (execComparatorRelease n s mv) = .next t₁ → t₁.kept = s.kept := by
  unfold execComparatorRelease; split
  · exact arm_kept rfl
  · exact arm_kept (State.setFld_kept _ _ _ _ _)

theorem execAlarmFire_kept (n : Fin 4) (s : State) : ∀ t₁, (execAlarmFire n s) = .next t₁ → t₁.kept = s.kept := by
  have h : ∀ (u : State) (x : Crow), ({ u with crow := x } : State).kept = u.kept := fun _ _ => rfl
  unfold execAlarmFire; dsimp only; split
  · exact arm_kept rfl
  · apply arm_kept; rw [State.wakeBit_kept]; split <;> simp only [State.feEvent_kept, h, State.setFld_kept]

theorem execUartActivityDetect_kept (u : Fin 6) (s : State) : ∀ t₁,
    (execUartActivityDetect u s) = .next t₁ → t₁.kept = s.kept := by
  intros; unfold execUartActivityDetect at *; grind [State.wakeBit_kept, ok]

end Sys2Proof.Machine
end

