-- ==== Sys2Proof/Laws/KeptMessages.lean ====
section
/-! SUPPORT. What the operations of Machine/Messages leave alone. -/

set_option Elab.async false
set_option linter.unusedVariables false
set_option linter.unusedTactic false
set_option linter.unreachableTactic false

namespace Sys2Proof.Machine

theorem State.request_kept (s : State) (m : Msg) : (State.request s m).kept = s.kept := by
  intros; unfold State.request at *; grind [State.deliver_kept, State.send_kept, State.addrErr_kept]

theorem State.packet_kept (s : State) (m : Msg) : (State.packet s m).kept = s.kept := by
  intros; unfold State.packet at *; grind [State.deliver_kept]

theorem execRd_kept (q : Fin 16) (sec : SecNo) (cls : Fin 8) (s : State) : ∀ t₁,
    (execRd q sec cls s) = .next t₁ → t₁.kept = s.kept := by
  intros; unfold execRd at *; grind [State.request_kept, ok]

theorem execRfo_kept (q : Fin 16) (sec : SecNo) (cls : Fin 8) (s : State) : ∀ t₁,
    (execRfo q sec cls s) = .next t₁ → t₁.kept = s.kept := by
  intros; unfold execRfo at *; grind [State.request_kept, ok]

theorem execUpg_kept (q : Fin 16) (sec : SecNo) (cls : Fin 8) (s : State) : ∀ t₁,
    (execUpg q sec cls s) = .next t₁ → t₁.kept = s.kept := by
  intros; unfold execUpg at *; grind [State.request_kept, ok]

theorem execZreq_kept (q : Fin 16) (sec : SecNo) (cls : Fin 8) (s : State) : ∀ t₁,
    (execZreq q sec cls s) = .next t₁ → t₁.kept = s.kept := by
  intros; unfold execZreq at *; grind [State.request_kept, ok]

theorem execCln_kept (q : Fin 16) (sec : SecNo) (s : State) : ∀ t₁,
      (execCln q sec s) = .next t₁ → t₁.kept = s.kept := by
  intros; unfold execCln at *; grind [State.request_kept, ok]

theorem execInv_kept (q : Fin 16) (sec : SecNo) (s : State) : ∀ t₁,
      (execInv q sec s) = .next t₁ → t₁.kept = s.kept := by
  intros; unfold execInv at *; grind [State.request_kept, ok]

theorem execFls_kept (q : Fin 16) (sec : SecNo) (s : State) : ∀ t₁,
      (execFls q sec s) = .next t₁ → t₁.kept = s.kept := by
  intros; unfold execFls at *; grind [State.request_kept, ok]

theorem execUcr_kept (who : Fin 19) (sec : SecNo) (s : State) : ∀ t₁,
    (execUcr who sec s) = .next t₁ → t₁.kept = s.kept := by
  intros; unfold execUcr at *; grind [State.request_kept, ok]

theorem execUcw_kept (who : Fin 19) (sec : SecNo) (data : BitVec 512) (mask : BitVec 64) (s : State) : ∀ t₁,
    (execUcw who sec data mask s) = .next t₁ → t₁.kept = s.kept := by
  intros; unfold execUcw at *; grind [State.request_kept, ok]

theorem execWbreq_kept (q : Fin 16) (block : BlockNo) (dmask : BitVec 4) (cmask : BitVec 4) (s : State) : ∀ t₁,
    (execWbreq q block dmask cmask s) = .next t₁ → t₁.kept = s.kept := by
  intros; unfold execWbreq at *; grind [State.packet_kept, ok]

theorem execEvc_kept (q : Fin 16) (block : BlockNo) (s : State) : ∀ t₁,
    (execEvc q block s) = .next t₁ → t₁.kept = s.kept := by
  intros; unfold execEvc at *; grind [State.packet_kept, ok]

theorem execSnpS_kept (q : Fin 16) (sec : SecNo) (s : State) : ∀ t₁,
      (execSnpS q sec s) = .next t₁ → t₁.kept = s.kept := by
  intros; unfold execSnpS at *; grind [State.packet_kept, ok]

theorem execSnpI_kept (q : Fin 16) (sec : SecNo) (discard : Bool) (s : State) : ∀ t₁,
    (execSnpI q sec discard s) = .next t₁ → t₁.kept = s.kept := by
  intros; unfold execSnpI at *; grind [State.packet_kept, ok]

theorem execSnpC_kept (q : Fin 16) (sec : SecNo) (s : State) : ∀ t₁,
      (execSnpC q sec s) = .next t₁ → t₁.kept = s.kept := by
  intros; unfold execSnpC at *; grind [State.packet_kept, ok]

theorem execWbgo_kept (q : Fin 16) (sec : SecNo) (s : State) : ∀ t₁,
      (execWbgo q sec s) = .next t₁ → t₁.kept = s.kept := by
  intros; unfold execWbgo at *; grind [State.packet_kept, ok]

theorem execGrant_kept (q : Fin 16) (sec : SecNo) (dirty : Bool) (s : State) : ∀ t₁,
    (execGrant q sec dirty s) = .next t₁ → t₁.kept = s.kept := by
  intros; unfold execGrant at *; grind [State.packet_kept, ok]

theorem execDone_kept (q : Fin 16) (sec : SecNo) (s : State) : ∀ t₁,
      (execDone q sec s) = .next t₁ → t₁.kept = s.kept := by
  intros; unfold execDone at *; grind [State.packet_kept, ok]

theorem execAck_kept (q : Fin 16) (sec : SecNo) (s : State) : ∀ t₁,
      (execAck q sec s) = .next t₁ → t₁.kept = s.kept := by
  intros; unfold execAck at *; grind [State.packet_kept, ok]

theorem execMiss_kept (q : Fin 16) (sec : SecNo) (s : State) : ∀ t₁,
      (execMiss q sec s) = .next t₁ → t₁.kept = s.kept := by
  intros; unfold execMiss at *; grind [State.packet_kept, ok]

theorem execWbcancel_kept (q : Fin 16) (sec : SecNo) (s : State) : ∀ t₁,
    (execWbcancel q sec s) = .next t₁ → t₁.kept = s.kept := by
  intros; unfold execWbcancel at *; grind [State.packet_kept, ok]

theorem execSectorData_kept (q : Fin 19) (toHome : Bool) (sec : SecNo) (data : BitVec 512) (dirty : Bool)
    (excl : Bool) (mark : Arrival) (s : State) : ∀ t₁,
    (execSectorData q toHome sec data dirty excl mark s) = .next t₁ → t₁.kept = s.kept := by
  intros; unfold execSectorData at *; grind [State.deliver_kept, State.arrayError_kept, ok, State.packet_kept]

theorem execCacheResetInvalDone_kept (unit : CacheName) (s : State) : ∀ t₁,
    (execCacheResetInvalDone unit s) = .next t₁ → t₁.kept = s.kept := by
  intros; unfold execCacheResetInvalDone at *; grind [State.updCore_kept, State.updL2_kept, State.updL3_kept, ok]

theorem execInterruptOffer_kept (c : CoreId) (s : State) : ∀ t₁,
    (execInterruptOffer c s) = .next t₁ → t₁.kept = s.kept := by
  intros; unfold execInterruptOffer at *; grind [State.offerArrives_kept, State.popToCore_kept, ok]

theorem execOfferWithdrawal_kept (c : CoreId) (s : State) : ∀ t₁,
    (execOfferWithdrawal c s) = .next t₁ → t₁.kept = s.kept := by
  intros; unfold execOfferWithdrawal at *; grind [State.withdrawArrives_kept, State.popToCore_kept, ok]

theorem execAcceptance_kept (c : CoreId) (s : State) : ∀ t₁, (execAcceptance c s) = .next t₁ → t₁.kept = s.kept := by
  intros; unfold execAcceptance at *; grind [State.acceptArrives_kept, State.popToDist_kept, ok]

theorem execDecline_kept (c : CoreId) (s : State) : ∀ t₁, (execDecline c s) = .next t₁ → t₁.kept = s.kept := by
  intros; unfold execDecline at *; grind [State.declineArrives_kept, State.popToDist_kept, ok]

theorem execEoiMessage_kept (c : CoreId) (s : State) : ∀ t₁, (execEoiMessage c s) = .next t₁ → t₁.kept = s.kept := by
  intros; unfold execEoiMessage at *; grind [State.eoiArrives_kept, State.popToDist_kept, ok]

theorem execResidencyMessage_kept (c : CoreId) (s : State) : ∀ t₁,
    (execResidencyMessage c s) = .next t₁ → t₁.kept = s.kept := by
  intros; unfold execResidencyMessage at *; grind [State.residencyArrives_kept, State.popToDist_kept, ok]

theorem execInterruptAccept_kept (c : CoreId) (s : State) : ∀ t₁,
    (execInterruptAccept c s) = .next t₁ → t₁.kept = s.kept := by
  intros; unfold execInterruptAccept at *; grind [State.longFinish_kept, State.enter_kept, State.accepted_kept,
      State.haltCheck_kept, ok, TrapAns.st, State.boundary_kept, State.interrupt_kept]

theorem execIrqEoi_kept (c : CoreId) (v : BitVec 64) (s : State) : ∀ t₁,
    (execIrqEoi c v s) = .next t₁ → t₁.kept = s.kept := by
  intros; unfold execIrqEoi at *; grind [State.sysWrite_kept, ok]

theorem execVirqEoi_kept (c : CoreId) (v : BitVec 64) (s : State) : ∀ t₁,
    (execVirqEoi c v s) = .next t₁ → t₁.kept = s.kept := by
  intros; unfold execVirqEoi at *; grind [State.sysWrite_kept, ok]

theorem execCtimCmpWrite_kept (c : CoreId) (n : Fin 2) (v : BitVec 64) (s : State) : ∀ t₁,
    (execCtimCmpWrite c n v s) = .next t₁ → t₁.kept = s.kept := by
  intros; unfold execCtimCmpWrite at *; grind [State.sysWrite_kept, ok]

theorem execCtimCompareFire_kept (c : CoreId) (n : Fin 2) (s : State) : ∀ t₁,
    (execCtimCompareFire c n s) = .next t₁ → t₁.kept = s.kept := by
  intros; unfold execCtimCompareFire at *; grind [State.wakeCheck_kept, State.setCore_kept, ok]

end Sys2Proof.Machine
end

