-- ==== Sys2Proof/Laws/KeptPcieIn.lean ====
section
/-! SUPPORT. What the operations of Machine/PcieIn leave alone. -/

set_option Elab.async false
set_option linter.unusedVariables false
set_option linter.unusedTactic false
set_option linter.unreachableTactic false

namespace Sys2Proof.Machine

theorem State.barRead_kept (s : State) (l : List ℕ) (x2 : ℕ) (x3 : ℕ) (x4 : ℕ) :
    (State.barRead s l x2 x3 x4).2.kept = s.kept := by
  induction x2 generalizing s x3 x4 with
  | zero => rfl
  | succ k ih =>
    unfold State.barRead; split
    · rfl
    · split
      · rfl
      · dsimp only; rw [ih]; exact State.unitRead_kept _ _ _ _

theorem State.barWrite_kept (s : State) (l : List ℕ) (x2 : ℕ) (x3 : ℕ) (x4 : List Byte) :
    (State.barWrite s l x2 x3 x4).kept = s.kept := by
  induction x2 generalizing s x3 x4 with
  | zero => rfl
  | succ k ih =>
    unfold State.barWrite; split
    · rfl
    · split
      · rfl
      · dsimp only; rw [ih]; exact State.unitWrite_kept _ _ _ _ _

theorem execPcieInboundRequest_kept (write : Bool) (addr : BitVec 64) (len : Fin 4097) (data : List Byte) (tlp : Tlp) (s : State) :
    ∀ t₁, (execPcieInboundRequest write addr len data s tlp) = .next t₁ → t₁.kept = s.kept := by
  intros; unfold execPcieInboundRequest at *; grind [State.barWrite_kept, State.barRead_kept, State.pcieRefuse_kept,
      State.ioWrite_kept, State.ioRead_kept, State.kept, ok, State.aerNonFatal_kept]

end Sys2Proof.Machine
end

