-- ==== Sys2Proof/Laws/KeptRatline.lean ====
section
/-! SUPPORT. What the operations of Machine/Ratline leave alone. -/

set_option Elab.async false
set_option linter.unusedVariables false
set_option linter.unusedTactic false
set_option linter.unreachableTactic false

namespace Sys2Proof.Machine

theorem State.updJtag_kept (s : State) (f : Jtag → Jtag) : (State.updJtag s f).kept = s.kept := by
  intros; unfold State.updJtag at *; grind [State.kept]

theorem State.irSelect_kept (s : State) (n : ℕ) : (State.irSelect s n).kept = s.kept := by
  intros; unfold State.irSelect at *; grind [State.updJtag_kept]

theorem execIdcode_kept (s : State) : ∀ t₁, (execIdcode s) = .next t₁ → t₁.kept = s.kept := by
  intros; unfold execIdcode at *; grind [State.irSelect_kept, State.kept, ok]

theorem State.chainScan_kept (s : State) (ir : ℕ) (pins : BitVec 169) (v : BitVec 169) :
    (State.chainScan s ir pins v).kept = s.kept := by
  intros; unfold State.chainScan at *; grind [State.updJtag_kept]

theorem execSamplePreload_kept (pins : BitVec 169) (v : BitVec 169) (s : State) : ∀ t₁,
    (execSamplePreload pins v s) = .next t₁ → t₁.kept = s.kept := by
  intros; unfold execSamplePreload at *; grind [State.chainScan_kept, ok]

theorem execExtest_kept (pins : BitVec 169) (v : BitVec 169) (s : State) : ∀ t₁,
    (execExtest pins v s) = .next t₁ → t₁.kept = s.kept := by
  intros; unfold execExtest at *; grind [State.chainScan_kept, ok]

theorem execClamp_kept (s : State) : ∀ t₁, (execClamp s) = .next t₁ → t₁.kept = s.kept := by
  intros; unfold execClamp at *; grind [State.irSelect_kept, ok]

theorem execHighz_kept (s : State) : ∀ t₁, (execHighz s) = .next t₁ → t₁.kept = s.kept := by
  intros; unfold execHighz at *; grind [State.irSelect_kept, ok]

theorem execBypass_kept (s : State) : ∀ t₁, (execBypass s) = .next t₁ → t₁.kept = s.kept := by
  intros; unfold execBypass at *; grind [State.irSelect_kept, ok]

theorem State.sessionEnd_kept (s : State) : (State.sessionEnd s).kept = s.kept := by
  intros; unfold State.sessionEnd at *; grind [State.endToken_kept]

theorem State.sessionOpen_kept (s : State) (w : List ℕ) : (State.sessionOpen s w).kept = s.kept := by
  intros; unfold State.sessionOpen at *; grind [State.applyTokens_kept, State.updJtag_kept, State.kept]

theorem execChallenge_kept (s : State) : ∀ t₁, (execChallenge s) = .next t₁ → t₁.kept = s.kept := by
  intros; unfold execChallenge at *; grind [State.sessionEnd_kept, State.irSelect_kept, State.freshBytes_kept,
      State.updJtag_kept, State.sessionOpen_kept, ok]

theorem execResponse_kept (b : List Byte) (s : State) : ∀ t₁, (execResponse b s) = .next t₁ → t₁.kept = s.kept := by
  intros; unfold execResponse at *; grind [State.irSelect_kept, State.sessionOpen_kept, ok]

theorem execTrstN_kept (s : State) : ∀ t₁, (execTrstN s) = .next t₁ → t₁.kept = s.kept := by
  intros; unfold execTrstN at *; grind [State.sessionEnd_kept, State.updJtag_kept, ok]

theorem execDap_kept (v : BitVec 80) (s : State) : ∀ t₁, (execDap v s) = .next t₁ → t₁.kept = s.kept := by
  intros; unfold execDap at *; grind [State.irSelect_kept, State.busRead_kept, State.busWrite_kept, State.kept, ok]

end Sys2Proof.Machine
end

