-- ==== Sys2Proof/Laws/KeptShroud.lean ====
section
/-! SUPPORT. What the operations of Machine/Shroud leave alone. -/

set_option Elab.async false
set_option linter.unusedVariables false
set_option linter.unusedTactic false
set_option linter.unreachableTactic false

namespace Sys2Proof.Machine

theorem State.updShr_kept (s : State) (f : Shroud → Shroud) (hf :
    (f s.shr).trail = s.shr.trail ∧ (f s.shr).evcnt = s.shr.evcnt) : (State.updShr s f).kept = s.kept := by
  simp [State.kept, State.updShr, hf]

theorem State.shrSource_kept (s : State) (i : ℕ) : (State.shrSource s i).kept = s.kept := by
  intros; unfold State.shrSource at *; grind [State.pulse_kept]

theorem State.shrEvent_kept (s : State) (code : ℕ) (data : List ℕ) : (State.shrEvent s code data).kept = s.kept := by
  intros; unfold State.shrEvent at *; grind [State.feEvent_kept]

theorem State.portSync_kept (s : State) : (State.portSync s).kept = s.kept := by
  intros; unfold State.portSync at *; grind [State.shrEvent_kept, State.shrSource_kept, State.setFld_kept, State.kept]

theorem State.sealSync_kept (s : State) : (State.sealSync s).kept = s.kept := by
  intros; unfold State.sealSync at *; grind [State.portSync_kept, State.setFld_kept]

theorem State.sealOpen_kept (s : State) : (State.sealOpen s).kept = s.kept := by
  intros; unfold State.sealOpen at *; grind [State.sealSync_kept, State.setFld_kept, State.updShr_kept]

theorem State.sealTouch_kept (s : State) (area : ℕ) : (State.sealTouch s area).kept = s.kept := by
  intros; unfold State.sealTouch at *; grind [State.sealSync_kept, State.updShr_kept]

theorem execSealOpen_kept (s : State) : ∀ t₁, (execSealOpen s) = .next t₁ → t₁.kept = s.kept := by
  intros; unfold execSealOpen at *; grind [State.sealOpen_kept, ok]

theorem State.shrReset_kept (s : State) (cause : ℕ) : (State.shrReset s cause).kept = s.kept := by
  intros; unfold State.shrReset at *; grind [State.updShr_kept, State.sealSync_kept, State.setFld_kept]

theorem State.shrLose_kept (s : State) : (State.shrLose s).kept = s.kept := by
  intros; unfold State.shrLose at *; grind [State.updShr_kept, State.kept]

theorem execShroudSupplyLow_kept (s : State) : ∀ t₁, (execShroudSupplyLow s) = .next t₁ → t₁.kept = s.kept := by
  intros; unfold execShroudSupplyLow at *; grind [State.updShr_kept, ok]

theorem State.setAdc_kept (s : State) (n : ℕ) (l : List (BitVec 24)) : (State.setAdc s n l).kept = s.kept := by
  intros; unfold State.setAdc at *; grind [State.setFld_kept, State.updShr_kept]

theorem execAdcSample_kept (v : BitVec 192) (s : State) : ∀ t₁,
      (execAdcSample v s) = .next t₁ → t₁.kept = s.kept := by
  intros; unfold execAdcSample at *; grind [State.setFld_kept, State.setAdc_kept, foldl_kept, ok]

theorem execAdcDataRead_kept (n : Fin 8) (s : State) : ∀ t₁, (execAdcDataRead n s) = .next t₁ → t₁.kept = s.kept := by
  intros; unfold execAdcDataRead at *; grind [State.setAdc_kept, State.kept, ok]

theorem execPulseEdge_kept (n : Fin 8) (rising : Bool) (ts : BitVec 64) (s : State) : ∀ t₁,
    (execPulseEdge n rising ts s) = .next t₁ → t₁.kept = s.kept := by
  intros; unfold execPulseEdge at *; grind [State.updShr_kept, ok]

theorem State.pulseSnap_kept (s : State) (go : ℕ) : (State.pulseSnap s go).kept = s.kept := by
  intros; unfold State.pulseSnap at *; grind [State.setFld_kept, State.setReg_kept, foldl_kept]

theorem execPulseSnap_kept (go : BitVec 8) (s : State) : ∀ t₁,
      (execPulseSnap go s) = .next t₁ → t₁.kept = s.kept := by
  intros; unfold execPulseSnap at *; grind [State.pulseSnap_kept, ok]

theorem State.shrSend_kept (s : State) (typ : ℕ) (reason : ℕ) (acked : ℕ) (pay : Bytes) :
    (State.shrSend s typ reason acked pay).kept = s.kept := by
  intros; unfold State.shrSend at *; grind [State.updShr_kept]

theorem State.shrAck_kept (s : State) (counter : ℕ) (reason : ℕ) : (State.shrAck s counter reason).kept = s.kept := by
  intros; unfold State.shrAck at *; grind [State.shrSend_kept]

theorem State.setWindow_kept (s : State) (r : Reg) (b : Bytes) : (State.setWindow s r b).kept = s.kept := by
  intros; unfold State.setWindow at *; grind [State.setReg_kept, foldl_kept]

theorem State.shrAnswer_kept (s : State) (reason : ℕ) : (State.shrAnswer s reason).kept = s.kept := by
  intros; unfold State.shrAnswer at *; grind [State.shrAck_kept, State.updShr_kept]

theorem execShrAck_kept (reason : BitVec 16) (s : State) : ∀ t₁,
      (execShrAck reason s) = .next t₁ → t₁.kept = s.kept := by
  intros; unfold execShrAck at *; grind [State.shrAnswer_kept, ok]

theorem execShrAckTimeout_kept (s : State) : ∀ t₁, (execShrAckTimeout s) = .next t₁ → t₁.kept = s.kept := by
  intros; unfold execShrAckTimeout at *; grind [State.shrAnswer_kept, ok]

theorem State.shrService_kept (s : State) (typ : ℕ) (act : ℕ → Bytes → State → State) (ha : ∀ n b u,
    (act n b u).kept = u.kept) : (State.shrService s typ act).kept = s.kept := by
  intros; unfold State.shrService at *; grind [State.updShr_kept]

theorem State.shrMalformed_kept (s : State) (n : ℕ) : (State.shrMalformed s n).kept = s.kept := by
  intros; unfold State.shrMalformed at *; grind [State.fresh_kept, State.shrAck_kept]

theorem execLoad_kept (s : State) : ∀ t₁, (execLoad s) = .next t₁ → t₁.kept = s.kept := by
  unfold execLoad; apply arm_kept; apply State.shrService_kept; intro n b u; grind [State.shrAck_kept,
      State.shrMalformed_kept, State.sealTouch_kept, State.sealOpen_kept,
      State.updShr_kept, State.shrService_kept, ok]

theorem execAuditRead_kept (s : State) : ∀ t₁, (execAuditRead s) = .next t₁ → t₁.kept = s.kept := by
  unfold execAuditRead; apply arm_kept; apply State.shrService_kept; intro n b u; grind [State.shrMalformed_kept,
      State.shrSend_kept, State.shrService_kept, ok]

theorem State.portNext_kept (s : State) : (State.portNext s).kept = s.kept := by
  intros; unfold State.portNext at *; grind [State.updShr_kept, State.setWindow_kept, State.kept]

theorem State.portDone_kept (s : State) (id : ℕ) (a : Ans) : (State.portDone s id a).kept = s.kept := by
  intros; unfold State.portDone at *; grind [State.portNext_kept, State.opEnd_kept, State.kept]

theorem State.portAck_kept (s : State) (acked : ℕ) (reason : ℕ) : (State.portAck s acked reason).kept = s.kept := by
  intros; unfold State.portAck at *; grind [State.portDone_kept]

theorem State.portAudit_kept (s : State) (pay : Bytes) : ∀ t, (State.portAudit s pay) = some t → t.kept = s.kept := by
  unfold State.portAudit; split
  · split
    · intro t h; simp only [Option.some.injEq] at h; subst h; rw [State.portNext_kept]; rfl
    · dsimp only; split
      · intro t h; simp only [Option.some.injEq] at h; subst h; exact State.portDone_kept _ _ _
      · split
        · intro t h; simp only [Option.some.injEq] at h; subst h; exact State.portDone_kept _ _ _
        · split
          · simp
          · rename_i s1 h1
            intro t h; simp only [Option.some.injEq] at h; subst h; rw [State.portDone_kept]; grind [State.ioWrite_kept]
  · intro t h; simp only [Option.some.injEq] at h; subst h; rfl

theorem State.portBad_kept (s : State) (kind : ℕ) : (State.portBad s kind).kept = s.kept := by
  intros; unfold State.portBad at *; grind [State.count_kept, State.setFld_kept, State.capture_kept,
      State.shrSource_kept]

theorem State.portRead_kept (s : State) (w : Bytes) : ∀ t, (State.portRead s w) = some t → t.kept = s.kept := by
  delta State.portRead; dsimp only
  refine ite_so ?_ (ite_so ?_ (ite_so ?_ ?_))
  · intro t h; simp only [Option.some.injEq] at h; subst h; exact State.portAck_kept _ _ _
  · exact State.portAudit_kept _ _
  · intro t h; simp only [Option.some.injEq] at h; subst h; rfl
  · intro t h; simp only [Option.some.injEq] at h; subst h; rw [State.shrEvent_kept, State.setFld_kept, kept_fe]

theorem State.portCheck_kept (s : State) (w : Bytes) : ∀ t, (State.portCheck s w) = some t → t.kept = s.kept := by
  unfold State.portCheck; dsimp only
  refine ite_so ?_ ?_
  · intro t h; simp only [Option.some.injEq] at h; subst h; exact State.portBad_kept _ _
  · intro t h; rw [State.portRead_kept _ _ _ h, kept_fe]

theorem State.portIn_kept (s : State) (w : Bytes) : ∀ t, (State.portIn s w) = some t → t.kept = s.kept := by
  intro t h; rw [State.portCheck_kept _ _ _ h, State.setWindow_kept]

theorem State.portTake_kept (s : State) : (State.portTake s).kept = s.kept := by
  unfold State.portTake; split
  · rfl
  · rename_i w l hl
    split
    · rfl
    · have e1 : (s.updShr fun x => { x with sm := l }).kept = s.kept := State.updShr_kept _ _ ⟨rfl, rfl⟩
      generalize (s.updShr fun x => { x with sm := l }) = s1 at *
      cases hw : s1.portIn w with
      | none => rfl
      | some t => exact (State.portIn_kept _ _ _ hw).trans e1

theorem execSmMessage_kept (m : SmIn) (s : State) : ∀ t₁, (execSmMessage m s) = .next t₁ → t₁.kept = s.kept := by
  unfold execSmMessage; split
  · exact arm_kept (State.portTake_kept _)
  · split
    · exact arm_kept rfl
    · exact arm_kept ((State.portTake_kept _).trans (State.shrSend_kept _ _ _ _ _))
  · rename_i w
    split
    · exact arm_kept rfl
    · apply arm_kept
      cases hx : s.portIn w with
      | none => rfl
      | some t => exact State.portIn_kept _ _ _ hx

theorem execLinkBeacon_kept (s : State) : ∀ t₁, (execLinkBeacon s) = .next t₁ → t₁.kept = s.kept := by
  intros; unfold execLinkBeacon at *; grind [State.portSync_kept, State.shrSource_kept, State.setFld_kept, ok]

theorem execLinkLoss_kept (s : State) : ∀ t₁, (execLinkLoss s) = .next t₁ → t₁.kept = s.kept := by
  intros; unfold execLinkLoss at *; grind [State.portDown_kept, State.shrSource_kept, State.setFld_kept, ok]

theorem execShroudStatus_kept (s : State) : ∀ t₁, (execShroudStatus s) = .next t₁ → t₁.kept = s.kept := by
  unfold execShroudStatus; apply arm_kept; apply State.command_kept; intro c u d hd; grind [State.ans_kept,
      State.yes_kept, CmdAns.st, State.command_kept,
      ok]

theorem execShroudSend_kept (s : State) : ∀ t₁, (execShroudSend s) = .next t₁ → t₁.kept = s.kept := by
  unfold execShroudSend; apply arm_kept; apply State.command_kept; intro c u d hd; grind [State.deny_kept,
      State.readDesc_kept, State.portNext_kept, State.kept,
      CmdAns.st, State.command_kept, ok]

theorem execShroudReceive_kept (s : State) : ∀ t₁, (execShroudReceive s) = .next t₁ → t₁.kept = s.kept := by
  unfold execShroudReceive; apply arm_kept; apply State.command_kept; intro c u d hd; grind [State.yes_kept,
      State.setFld_kept, State.writeDesc_kept, State.kept,
      CmdAns.st, State.command_kept, ok]

theorem execShroudAudit_kept (s : State) : ∀ t₁, (execShroudAudit s) = .next t₁ → t₁.kept = s.kept := by
  unfold execShroudAudit; apply arm_kept; apply State.command_kept; intro c u d hd; grind [State.deny_kept,
      State.portNext_kept, State.kept, CmdAns.st,
      State.command_kept, ok]

end Sys2Proof.Machine
end

