-- ==== Sys2Proof/Laws/KeptRegRows.lean ====
section
/-! SUPPORT. What the operations of Machine/RegRows leave alone. -/

set_option Elab.async false
set_option linter.unusedVariables false
set_option linter.unusedTactic false
set_option linter.unreachableTactic false

namespace Sys2Proof.Machine

theorem State.eoisFirst_kept (s : State) (by' : Sender) (pa : Nat) :
    (State.eoisFirst s by' pa).kept = s.kept := by
  intros; unfold State.eoisFirst at *; grind [State.distFlush_kept, State.kept, State.toDist_kept]

theorem State.busR_kept (s : State) (by' : Sender) (pa : ℕ) (size : ℕ) : (State.busR s by' pa size).kept = s.kept := by
  intros; unfold State.busR at *; grind [State.busRead_kept, State.kept, State.eoisFirst_kept]

theorem State.busW_kept (s : State) (by' : Sender) (pa size v : Nat) :
    (State.busW s by' pa size v).kept = s.kept := by
  intros; unfold State.busW at *; grind [State.eoisFirst_kept, State.busWrite_kept, State.kept]

theorem State.regW_kept (s : State) (by' : Sender) (r : Reg) (idx : List ℕ) (v : ℕ) :
    (State.regW s by' r idx v).kept = s.kept := by
  intros; unfold State.regW at *; grind [State.busWrite_kept, State.busW_kept]

theorem State.regR_kept (s : State) (by' : Sender) (r : Reg) (idx : List ℕ) : (State.regR s by' r idx).kept = s.kept := by
  intros; unfold State.regR at *; grind [State.busR_kept]

theorem execDeviceLoadResponse_kept (c : CoreId) (s : State) : ∀ t₁,
    (execDeviceLoadResponse c s) = .next t₁ → t₁.kept = s.kept := by
  intros; unfold execDeviceLoadResponse at *; grind [State.ioRead_kept, State.loadError_kept, State.loadDone_kept,
      State.busRead_kept, ok, State.devRead_kept]

theorem execDeviceStoreAck_kept (c : CoreId) (i : ℕ) (s : State) : ∀ t₁,
    (execDeviceStoreAck c i s) = .next t₁ → t₁.kept = s.kept := by
  intros; unfold execDeviceStoreAck at *; grind [State.setCore_kept, State.busWrite_kept, ok, State.devWrite_kept,
      State.updCore_kept]

theorem execAddrErrReport_kept (stop : Fin 30) (s : State) : ∀ t₁,
    (execAddrErrReport stop s) = .next t₁ → t₁.kept = s.kept := by
  intros; unfold execAddrErrReport at *; grind [State.countFld_kept, State.capture_kept, State.setReg_kept,
      State.count_kept, State.kept, ok]

theorem execAddrErrCountRead_kept (by' : Sender) (s : State) : ∀ t₁,
    (execAddrErrCountRead by' s) = .next t₁ → t₁.kept = s.kept := by
  intros; unfold execAddrErrCountRead at *; grind [State.regR_kept, ok]

theorem execL3ErrCountRead_kept (by' : Sender) (h : Fin 8) (s : State) : ∀ t₁,
    (execL3ErrCountRead by' h s) = .next t₁ → t₁.kept = s.kept := by
  intros; unfold execL3ErrCountRead at *; grind [State.regR_kept, ok]

theorem execMgErrCountRead_kept (by' : Sender) (g : Fin 2) (s : State) : ∀ t₁,
    (execMgErrCountRead by' g s) = .next t₁ → t₁.kept = s.kept := by
  intros; unfold execMgErrCountRead at *; grind [State.regR_kept, ok]

theorem execMrErrCountRead_kept (by' : Sender) (s : State) : ∀ t₁,
    (execMrErrCountRead by' s) = .next t₁ → t₁.kept = s.kept := by
  intros; unfold execMrErrCountRead at *; grind [State.regR_kept, ok]

theorem execMrDieRead_kept (by' : Sender) (d : Fin 4) (s : State) : ∀ t₁,
    (execMrDieRead by' d s) = .next t₁ → t₁.kept = s.kept := by
  intros; unfold execMrDieRead at *; grind [State.regR_kept, ok]

theorem execPdqRead_kept (by' : Sender) (h : Fin 8) (d : Fin 4) (s : State) : ∀ t₁,
    (execPdqRead by' h d s) = .next t₁ → t₁.kept = s.kept := by
  intros; unfold execPdqRead at *; grind [State.regR_kept, ok]

theorem execSrcSet_kept (by' : Sender) (n : Fin 17408) (s : State) : ∀ t₁,
    (execSrcSet by' n s) = .next t₁ → t₁.kept = s.kept := by
  intros; unfold execSrcSet at *; grind [State.regW_kept, ok]

theorem execSrcClrPending_kept (by' : Sender) (n : Fin 17408) (s : State) : ∀ t₁,
    (execSrcClrPending by' n s) = .next t₁ → t₁.kept = s.kept := by
  intros; unfold execSrcClrPending at *; grind [State.regW_kept, ok]

theorem execSrcClrActive_kept (by' : Sender) (n : Fin 17408) (s : State) : ∀ t₁,
    (execSrcClrActive by' n s) = .next t₁ → t₁.kept = s.kept := by
  intros; unfold execSrcClrActive at *; grind [State.regW_kept, ok]

theorem execSrcCfgWrite_kept (by' : Sender) (n : Fin 17408) (v : BitVec 32) (s : State) : ∀ t₁,
    (execSrcCfgWrite by' n v s) = .next t₁ → t₁.kept = s.kept := by
  intros; unfold execSrcCfgWrite at *; grind [State.regW_kept, ok]

theorem execDistCtlWrite_kept (by' : Sender) (v : BitVec 32) (s : State) : ∀ t₁,
    (execDistCtlWrite by' v s) = .next t₁ → t₁.kept = s.kept := by
  intros; unfold execDistCtlWrite at *; grind [State.regW_kept, ok]

theorem execDbNextRead_kept (by' : Sender) (l : Fin 64) (s : State) : ∀ t₁,
    (execDbNextRead by' l s) = .next t₁ → t₁.kept = s.kept := by
  intros; unfold execDbNextRead at *; grind [State.regR_kept, ok]

theorem execOutMsgWrite_kept (by' : Sender) (n : Fin 8192) (w : Fin 16) (v : BitVec 32) (s : State) : ∀ t₁,
    (execOutMsgWrite by' n w v s) = .next t₁ → t₁.kept = s.kept := by
  intros; unfold execOutMsgWrite at *; grind [State.regW_kept, ok]

theorem execInMsgWrite_kept (by' : Sender) (n : Fin 8192) (w : Fin 16) (v : BitVec 32) (s : State) : ∀ t₁,
    (execInMsgWrite by' n w v s) = .next t₁ → t₁.kept = s.kept := by
  intros; unfold execInMsgWrite at *; grind [State.regW_kept, ok]

theorem execMbxOutRing_kept (by' : Sender) (n : Fin 8192) (s : State) : ∀ t₁,
    (execMbxOutRing by' n s) = .next t₁ → t₁.kept = s.kept := by
  intros; unfold execMbxOutRing at *; grind [State.regW_kept, ok]

theorem execMbxOutAck_kept (by' : Sender) (n : Fin 8192) (s : State) : ∀ t₁,
    (execMbxOutAck by' n s) = .next t₁ → t₁.kept = s.kept := by
  intros; unfold execMbxOutAck at *; grind [State.regW_kept, ok]

theorem execMbxInRing_kept (by' : Sender) (n : Fin 8192) (s : State) : ∀ t₁,
    (execMbxInRing by' n s) = .next t₁ → t₁.kept = s.kept := by
  intros; unfold execMbxInRing at *; grind [State.regW_kept, ok]

theorem execMbxInAck_kept (by' : Sender) (n : Fin 8192) (s : State) : ∀ t₁,
    (execMbxInAck by' n s) = .next t₁ → t₁.kept = s.kept := by
  intros; unfold execMbxInAck at *; grind [State.regW_kept, ok]

theorem execQEnable_kept (by' : Sender) (n : Fin 8192) (q : Fin 64) (cfg : BitVec 32) (s : State) : ∀ t₁,
    (execQEnable by' n q cfg s) = .next t₁ → t₁.kept = s.kept := by
  intros; unfold execQEnable at *; grind [State.regW_kept, ok]

theorem execQDisable_kept (by' : Sender) (n : Fin 8192) (q : Fin 64) (s : State) : ∀ t₁,
    (execQDisable by' n q s) = .next t₁ → t₁.kept = s.kept := by
  intros; unfold execQDisable at *; grind [State.regW_kept, ok]

theorem execQSqDb_kept (by' : Sender) (n : Fin 8192) (q : Fin 64) (add : BitVec 12) (s : State) : ∀ t₁,
    (execQSqDb by' n q add s) = .next t₁ → t₁.kept = s.kept := by
  intros; unfold execQSqDb at *; grind [State.regW_kept, ok]

theorem execQCqHeadWrite_kept (by' : Sender) (n : Fin 8192) (q : Fin 64) (head : BitVec 16) (s : State) : ∀ t₁,
    (execQCqHeadWrite by' n q head s) = .next t₁ → t₁.kept = s.kept := by
  intros; unfold execQCqHeadWrite at *; grind [State.regW_kept, ok]

theorem execSliceErrCountRead_kept (by' : Sender) (n : Fin 8192) (s : State) : ∀ t₁,
    (execSliceErrCountRead by' n s) = .next t₁ → t₁.kept = s.kept := by
  intros; unfold execSliceErrCountRead at *; grind [State.regR_kept, ok]

theorem execSeErrCountRead_kept (by' : Sender) (s : State) : ∀ t₁,
    (execSeErrCountRead by' s) = .next t₁ → t₁.kept = s.kept := by
  intros; unfold execSeErrCountRead at *; grind [State.regR_kept, ok]

theorem execSwCtlFlush_kept (by' : Sender) (en : Bool) (s : State) : ∀ t₁,
    (execSwCtlFlush by' en s) = .next t₁ → t₁.kept = s.kept := by
  intros; unfold execSwCtlFlush at *; grind [State.regW_kept, ok]

theorem execQbvBaseHiWrite_kept (by' : Sender) (p : Fin 12) (v : BitVec 32) (s : State) : ∀ t₁,
    (execQbvBaseHiWrite by' p v s) = .next t₁ → t₁.kept = s.kept := by
  intros; unfold execQbvBaseHiWrite at *; grind [State.regW_kept, ok]

theorem execPtpApply_kept (by' : Sender) (k : Fin 4) (v : BitVec 32) (s : State) : ∀ t₁,
    (execPtpApply by' k v s) = .next t₁ → t₁.kept = s.kept := by
  intros; unfold execPtpApply at *; grind [State.regW_kept, ok]

theorem execPortCounterRead_kept (by' : Sender) (p : Fin 12) (i : Fin 8) (s : State) : ∀ t₁,
    (execPortCounterRead by' p i s) = .next t₁ → t₁.kept = s.kept := by
  intros; unfold execPortCounterRead at *; grind [State.busR_kept, ok]

theorem execUartTxdWrite_kept (by' : Sender) (u : Fin 6) (v : BitVec 8) (s : State) : ∀ t₁,
    (execUartTxdWrite by' u v s) = .next t₁ → t₁.kept = s.kept := by
  intros; unfold execUartTxdWrite at *; grind [State.regW_kept, ok]

theorem execUartRxdRead_kept (by' : Sender) (u : Fin 6) (s : State) : ∀ t₁,
    (execUartRxdRead by' u s) = .next t₁ → t₁.kept = s.kept := by
  intros; unfold execUartRxdRead at *; grind [State.regR_kept, ok]

theorem execCanTxRequest_kept (by' : Sender) (k : Fin 2) (b : Fin 64) (v : BitVec 32) (s : State) : ∀ t₁,
    (execCanTxRequest by' k b v s) = .next t₁ → t₁.kept = s.kept := by
  intros; unfold execCanTxRequest at *; grind [State.regW_kept, ok]

theorem execCanRxBufferFree_kept (by' : Sender) (k : Fin 2) (b : Fin 64) (v : BitVec 32) (s : State) : ∀ t₁,
    (execCanRxBufferFree by' k b v s) = .next t₁ → t₁.kept = s.kept := by
  intros; unfold execCanRxBufferFree at *; grind [State.regW_kept, ok]

theorem execCanAbort_kept (by' : Sender) (k : Fin 2) (b : Fin 64) (v : BitVec 32) (s : State) : ∀ t₁,
    (execCanAbort by' k b v s) = .next t₁ → t₁.kept = s.kept := by
  intros; unfold execCanAbort at *; grind [State.regW_kept, ok]

theorem execCanBusoffRestart_kept (by' : Sender) (k : Fin 2) (v : BitVec 32) (s : State) : ∀ t₁,
    (execCanBusoffRestart by' k v s) = .next t₁ → t₁.kept = s.kept := by
  intros; unfold execCanBusoffRestart at *; grind [State.regW_kept, ok]

theorem execSpiXferGo_kept (by' : Sender) (k : Fin 4) (v : BitVec 32) (s : State) : ∀ t₁,
    (execSpiXferGo by' k v s) = .next t₁ → t₁.kept = s.kept := by
  intros; unfold execSpiXferGo at *; grind [State.regW_kept, ok]

theorem execSpiTxdWrite_kept (by' : Sender) (k : Fin 4) (v : BitVec 8) (s : State) : ∀ t₁,
    (execSpiTxdWrite by' k v s) = .next t₁ → t₁.kept = s.kept := by
  intros; unfold execSpiTxdWrite at *; grind [State.regW_kept, ok]

theorem execSpiRxdRead_kept (by' : Sender) (k : Fin 4) (s : State) : ∀ t₁,
    (execSpiRxdRead by' k s) = .next t₁ → t₁.kept = s.kept := by
  intros; unfold execSpiRxdRead at *; grind [State.regR_kept, ok]

theorem execI2cCmdGo_kept (by' : Sender) (k : Fin 4) (v : BitVec 32) (s : State) : ∀ t₁,
    (execI2cCmdGo by' k v s) = .next t₁ → t₁.kept = s.kept := by
  intros; unfold execI2cCmdGo at *; grind [State.regW_kept, ok]

theorem execI2cTxdWrite_kept (by' : Sender) (k : Fin 4) (v : BitVec 8) (s : State) : ∀ t₁,
    (execI2cTxdWrite by' k v s) = .next t₁ → t₁.kept = s.kept := by
  intros; unfold execI2cTxdWrite at *; grind [State.regW_kept, ok]

theorem execI2cRxdRead_kept (by' : Sender) (k : Fin 4) (s : State) : ∀ t₁,
    (execI2cRxdRead by' k s) = .next t₁ → t₁.kept = s.kept := by
  intros; unfold execI2cRxdRead at *; grind [State.regR_kept, ok]

theorem execGpioSetWrite_kept (by' : Sender) (k : Fin 2) (v : BitVec 32) (s : State) : ∀ t₁,
    (execGpioSetWrite by' k v s) = .next t₁ → t₁.kept = s.kept := by
  intros; unfold execGpioSetWrite at *; grind [State.regW_kept, ok]

theorem execGpioClrWrite_kept (by' : Sender) (k : Fin 2) (v : BitVec 32) (s : State) : ∀ t₁,
    (execGpioClrWrite by' k v s) = .next t₁ → t₁.kept = s.kept := by
  intros; unfold execGpioClrWrite at *; grind [State.regW_kept, ok]

theorem execQspiWindowRead_kept (by' : Sender) (addr : BitVec 28) (size : AccSize) (s : State) : ∀ t₁,
    (execQspiWindowRead by' addr size s) = .next t₁ → t₁.kept = s.kept := by
  intros; unfold execQspiWindowRead at *; grind [State.busR_kept, ok]

theorem execReqMsgWrite_kept (by' : Sender) (m : Fin 8) (w : Fin 16) (v : BitVec 32) (s : State) : ∀ t₁,
    (execReqMsgWrite by' m w v s) = .next t₁ → t₁.kept = s.kept := by
  intros; unfold execReqMsgWrite at *; grind [State.regW_kept, ok]

theorem execReqRing_kept (by' : Sender) (m : Fin 8) (s : State) : ∀ t₁,
    (execReqRing by' m s) = .next t₁ → t₁.kept = s.kept := by
  intros; unfold execReqRing at *; grind [State.regW_kept, ok]

theorem execRspAck_kept (by' : Sender) (m : Fin 8) (s : State) : ∀ t₁,
    (execRspAck by' m s) = .next t₁ → t₁.kept = s.kept := by
  intros; unfold execRspAck at *; grind [State.regW_kept, ok]

theorem execEvtAck_kept (by' : Sender) (m : Fin 8) (s : State) : ∀ t₁,
    (execEvtAck by' m s) = .next t₁ → t₁.kept = s.kept := by
  intros; unfold execEvtAck at *; grind [State.regW_kept, ok]

theorem execWdogKick_kept (by' : Sender) (s : State) : ∀ t₁, (execWdogKick by' s) = .next t₁ → t₁.kept = s.kept := by
  intros; unfold execWdogKick at *; grind [State.regW_kept, ok]

theorem execMastTickLoRead_kept (by' : Sender) (s : State) : ∀ t₁,
    (execMastTickLoRead by' s) = .next t₁ → t₁.kept = s.kept := by
  intros; unfold execMastTickLoRead at *; grind [State.regR_kept, ok]

theorem execQuadReefRead_kept (by' : Sender) (q : Fin 16) (s : State) : ∀ t₁,
    (execQuadReefRead by' q s) = .next t₁ → t₁.kept = s.kept := by
  intros; unfold execQuadReefRead at *; grind [State.regR_kept, ok]

theorem execPadHoldRelease_kept (by' : Sender) (v : BitVec 2) (s : State) : ∀ t₁,
    (execPadHoldRelease by' v s) = .next t₁ → t₁.kept = s.kept := by
  intros; unfold execPadHoldRelease at *; grind [State.regW_kept, ok]

theorem execShrErrCountRead_kept (by' : Sender) (s : State) : ∀ t₁,
    (execShrErrCountRead by' s) = .next t₁ → t₁.kept = s.kept := by
  intros; unfold execShrErrCountRead at *; grind [State.regR_kept, ok]

theorem execTmrStart_kept (by' : Sender) (ch : Fin 16) (s : State) : ∀ t₁,
    (execTmrStart by' ch s) = .next t₁ → t₁.kept = s.kept := by
  intros; unfold execTmrStart at *; grind [State.regW_kept, ok]

theorem execTmrStop_kept (by' : Sender) (ch : Fin 16) (s : State) : ∀ t₁,
    (execTmrStop by' ch s) = .next t₁ → t₁.kept = s.kept := by
  intros; unfold execTmrStop at *; grind [State.regW_kept, ok]

theorem execTmrZero_kept (by' : Sender) (ch : Fin 16) (s : State) : ∀ t₁,
    (execTmrZero by' ch s) = .next t₁ → t₁.kept = s.kept := by
  intros; unfold execTmrZero at *; grind [State.regW_kept, ok]

theorem execTmrCapture_kept (by' : Sender) (ch : Fin 16) (s : State) : ∀ t₁,
    (execTmrCapture by' ch s) = .next t₁ → t₁.kept = s.kept := by
  intros; unfold execTmrCapture at *; grind [State.regW_kept, ok]

theorem execTmrGoStart_kept (by' : Sender) (mask : BitVec 16) (s : State) : ∀ t₁,
    (execTmrGoStart by' mask s) = .next t₁ → t₁.kept = s.kept := by
  intros; unfold execTmrGoStart at *; grind [State.regW_kept, ok]

theorem execTmrGoStop_kept (by' : Sender) (mask : BitVec 16) (s : State) : ∀ t₁,
    (execTmrGoStop by' mask s) = .next t₁ → t₁.kept = s.kept := by
  intros; unfold execTmrGoStop at *; grind [State.regW_kept, ok]

theorem execTmrRldCommit_kept (by' : Sender) (ch : Fin 16) (v : BitVec 32) (s : State) : ∀ t₁,
    (execTmrRldCommit by' ch v s) = .next t₁ → t₁.kept = s.kept := by
  intros; unfold execTmrRldCommit at *; grind [State.regW_kept, ok]

theorem execTmrCmpCommit_kept (by' : Sender) (ch : Fin 16) (k : Fin 4) (v : BitVec 32) (s : State) : ∀ t₁,
    (execTmrCmpCommit by' ch k v s) = .next t₁ → t₁.kept = s.kept := by
  intros; unfold execTmrCmpCommit at *; grind [State.regW_kept, ok]

theorem execTtCfgWrite_kept (by' : Sender) (m : Fin 32) (win : Bool) (v : BitVec 32) (s : State) : ∀ t₁,
    (execTtCfgWrite by' m win v s) = .next t₁ → t₁.kept = s.kept := by
  intros; unfold execTtCfgWrite at *; grind [State.regW_kept, ok]

theorem execTtCmdClr_kept (by' : Sender) (m : Fin 32) (s : State) : ∀ t₁,
    (execTtCmdClr by' m s) = .next t₁ → t₁.kept = s.kept := by
  intros; unfold execTtCmdClr at *; grind [State.regW_kept, ok]

theorem execHyRingRpWrite_kept (by' : Sender) (r : Fin 16) (v : BitVec 32) (s : State) : ∀ t₁,
    (execHyRingRpWrite by' r v s) = .next t₁ → t₁.kept = s.kept := by
  intros; unfold execHyRingRpWrite at *; grind [State.regW_kept, ok]

theorem execHyRingDropRead_kept (by' : Sender) (r : Fin 16) (s : State) : ∀ t₁,
    (execHyRingDropRead by' r s) = .next t₁ → t₁.kept = s.kept := by
  intros; unfold execHyRingDropRead at *; grind [State.regR_kept, ok]

theorem execDbgHalt_kept (by' : Sender) (c : CoreId) (s : State) : ∀ t₁,
    (execDbgHalt by' c s) = .next t₁ → t₁.kept = s.kept := by
  intros; unfold execDbgHalt at *; grind [State.regW_kept, ok]

theorem execDbgStep_kept (by' : Sender) (c : CoreId) (s : State) : ∀ t₁,
    (execDbgStep by' c s) = .next t₁ → t₁.kept = s.kept := by
  intros; unfold execDbgStep at *; grind [State.regW_kept, ok]

theorem execDbgResume_kept (by' : Sender) (c : CoreId) (s : State) : ∀ t₁,
    (execDbgResume by' c s) = .next t₁ → t₁.kept = s.kept := by
  intros; unfold execDbgResume at *; grind [State.regW_kept, ok]

end Sys2Proof.Machine
end

