-- ==== Sys2Proof/Laws/KeptWires.lean ====
section
/-! SUPPORT. What the operations of Machine/Wires leave alone. -/

set_option Elab.async false
set_option linter.unusedVariables false
set_option linter.unusedTactic false
set_option linter.unreachableTactic false

namespace Sys2Proof.Machine

theorem execWiredSourceLine_kept (n : Fin 1024) (level : Bool) (s : State) : ∀ t₁,
    (execWiredSourceLine n level s) = .next t₁ → t₁.kept = s.kept := by
  intros; unfold execWiredSourceLine at *; grind [State.srcLine_kept, State.kept, ok]

end Sys2Proof.Machine
end

