-- ==== Sys2Proof/Laws/Ledger.lean ====
section
/-! SUPPORT. The operations that append to the audit trail of the Shroud: the trail only grows, its counter goes on
agreeing with it, and the queue and the ordering code stay (R453, R454). -/

namespace Sys2Proof.Machine

/-- What every operation on a state does to its queue, its ordering code and the ledger of the Shroud. -/
structure Later (s t : State) : Prop where
  pending : t.pending = s.pending
  part : t.part = s.part
  trail : s.shr.trail <+: t.shr.trail
  ledger : s.shr.ledgerOk → t.shr.ledgerOk

theorem Later.refl (s : State) : Later s s := ⟨rfl, rfl, List.prefix_refl _, id⟩

theorem Later.trans {s t u : State} (a : Later s t) (b : Later t u) : Later s u :=
  ⟨b.pending.trans a.pending, b.part.trans a.part, a.trail.trans b.trail, b.ledger ∘ a.ledger⟩

/-- An operation that keeps the four fields is one. -/
theorem later_kept {s t : State} (h : t.kept = s.kept) : Later s t := by
  simp only [State.kept, Prod.mk.injEq] at h
  obtain ⟨h1, h2, h3, h4⟩ := h
  refine ⟨h1, h2, by rw [h3], fun k => ?_⟩
  unfold Shroud.ledgerOk Shroud.countedEntries at *; rw [h3, h4]; exact k

theorem Later.kept {s t u : State} (a : Later s t) (h : u.kept = t.kept) : Later s u := a.trans (later_kept h)

theorem later_ite {P : Prop} [Decidable P] {s a b : State} (ha : Later s a) (hb : Later s b) : Later s (if P then a else b) := by
  split <;> assumption

theorem later_ok {s u : State} (h : Later s u) : ∀ t, ok u = .next t → Later s t := by intro t e; cases e; exact h

/-- An entry is appended: the trail grows by it or stays, and the counter goes on agreeing. -/
theorem Shroud.append_trail (x : Shroud) (k a d : Nat) : x.trail <+: (x.append k a d).trail := by
  unfold Shroud.append; dsimp only; split
  · exact List.prefix_append _ _
  · exact List.prefix_refl _

theorem Shroud.append_ledger (x : Shroud) (k a d : Nat) (h : x.ledgerOk) : (x.append k a d).ledgerOk := by
  unfold Shroud.append Shroud.ledgerOk Shroud.countedEntries at *
  dsimp only
  cases hk : countedKind k with
  | true => simp only [Bool.true_or, if_true, List.filter_append, List.length_append, List.filter_cons, hk, List.filter_nil,
      List.length_cons, List.length_nil]; omega
  | false =>
    simp only [Bool.false_or, Bool.false_eq_true, if_false]
    split
    · simp only [List.filter_append, List.length_append, List.filter_cons, hk, List.filter_nil, List.length_nil,
        Bool.false_eq_true, if_false]; omega
    · exact h

theorem later_audit (s : State) (k a d : Nat) : Later s (s.audit k a d) := by
  unfold State.audit
  refine later_ite (Later.refl _) (Later.kept ?_ (State.sealSync_kept _))
  exact ⟨rfl, rfl, Shroud.append_trail _ _ _ _, Shroud.append_ledger _ _ _ _⟩

theorem later_sealClose (s : State) : Later s s.sealClose := by
  unfold State.sealClose; dsimp only
  refine later_ite (Later.refl _) (later_ite ?_ (later_ite ?_ ?_))
  · exact later_kept ((State.sealSync_kept _).trans ((State.updShr_kept _ _ ⟨rfl, rfl⟩).trans (State.setFld_kept _ _ _ _ _)))
  · exact later_kept ((State.sealSync_kept _).trans (State.setFld_kept _ _ _ _ _))
  · exact ((later_kept (State.setFld_kept _ _ _ _ _)).trans (later_audit _ _ _ _)).kept
      ((State.sealSync_kept _).trans (State.updShr_kept _ _ ⟨rfl, rfl⟩))

theorem later_sealMove (s : State) (b : Bool) : Later s (s.sealMove b) := by
  unfold State.sealMove; dsimp only
  refine later_ite (Later.refl _) ((Later.trans ?_ (later_audit _ _ _ _)).kept (State.sealSync_kept _))
  refine Later.kept (later_ite (Later.refl _) (later_sealClose _)) (State.setFld_kept _ _ _ _ _)

theorem later_shrBoot (s : State) : Later s s.shrBoot := by
  unfold State.shrBoot; dsimp only
  refine Later.kept (Later.trans ?_ (later_sealMove _ _)) (State.sealSync_kept _)
  have e1 : Later s (s.updShr fun x => { x with booting := false }) := later_kept (State.updShr_kept _ _ ⟨rfl, rfl⟩)
  generalize (s.updShr fun x => { x with booting := false }) = s1 at *
  generalize hs2 : (if s1.shr.marker.getD 0 = 0 then s1 else s1.audit 4 (s1.shr.marker.getD 0) 0) = s2
  have e2 : Later s s2 := e1.trans (hs2 ▸ later_ite (Later.refl _) (later_audit _ _ _ _))
  have e3 := ((e2.kept (State.updShr_kept s2 (fun x => { x with marker := none }) ⟨rfl, rfl⟩)).trans
    (later_audit _ 5 0 s2.shr.cause)).kept (State.updShr_kept _ (fun x => { x with cause := 0 }) ⟨rfl, rfl⟩)
  revert e3
  generalize State.updShr (State.audit _ _ _ _) _ = s3
  intro e3
  refine later_ite e3 ?_
  split
  · exact e3.kept (State.updShr_kept _ _ ⟨rfl, rfl⟩)
  · split
    · exact ((e3.trans (later_audit _ _ _ _)).kept (State.updShr_kept _ _ ⟨rfl, rfl⟩)).trans (later_audit _ _ _ _)
    · exact e3.trans (later_audit _ _ _ _)

theorem later_shrRestart (s : State) : Later s s.shrRestart := by
  unfold State.shrRestart; exact later_ite (later_kept (State.updShr_kept _ _ ⟨rfl, rfl⟩)) (later_shrBoot _)

theorem later_shrFail (s : State) : Later s s.shrFail := by
  unfold State.shrFail; dsimp only
  have e := later_kept (State.updShr_kept s (fun x => { x with fails := x.fails + 1 }) ⟨rfl, rfl⟩)
  exact later_ite ((e.trans (later_audit _ _ _ _)).kept (State.updShr_kept _ _ ⟨rfl, rfl⟩)) e

theorem later_shrRegWrite (s : State) (off v : Nat) : Later s (s.shrRegWrite off v) := by
  unfold State.shrRegWrite
  split
  · exact Later.refl _
  · dsimp only
    split
    · have e : Later s (if flag (BitVec.ofNat 64 v) .SEAL_CTL_CLOSE then s.sealClose else s) :=
        later_ite (later_sealClose _) (Later.refl _)
      exact later_ite (e.kept (State.sealOpen_kept _)) e
    · exact later_ite (Later.refl _) (later_kept (State.setReg_kept _ _ _ _))
    · exact later_kept (State.setReg_kept _ _ _ _)
    · exact later_kept (State.pulseSnap_kept _ _)
    · exact later_ite (Later.refl _) (later_kept (State.setReg_kept _ _ _ _))

theorem later_shrWrite (s : State) (a n v : Nat) : Later s (s.shrWrite a n v) := by
  unfold State.shrWrite; dsimp only
  have put : ∀ u : State, Later u (u.updShr fun x => { x with mem := Memory.writeN x.mem a v n }) := fun u =>
    later_kept (State.updShr_kept _ _ ⟨rfl, rfl⟩)
  refine later_ite (Later.refl _) (later_ite ?_ (later_ite (put s) (later_ite ?_ (later_ite (put s) (Later.refl _)))))
  · exact later_ite (later_shrRegWrite _ _ _)
      (later_ite ((later_shrRegWrite _ _ _).trans (later_shrRegWrite _ _ _)) (Later.refl _))
  · exact later_ite ((later_kept (State.sealTouch_kept _ _)).trans (put _)) (Later.refl _)

/-- A service of the ROM: it takes the oldest request, and then does what it does. -/
theorem later_shrService (s : State) (typ : Nat) (act : Nat → Bytes → State → State) (ha : ∀ n b u, Later u (act n b u)) :
    Later s (s.shrService typ act) := by
  unfold State.shrService
  refine later_ite (Later.refl _) ?_
  split
  · exact later_ite ((later_kept (State.updShr_kept _ _ ⟨rfl, rfl⟩)).trans (ha _ _ _)) (Later.refl _)
  · exact Later.refl _

/-! ### The commands -/

theorem execSealClose_later (s : State) : ∀ t, execSealClose s = .next t → Later s t :=
  later_ok (later_ite (later_sealClose _) (Later.refl _))

theorem execSealChange_later (b : Bool) (s : State) : ∀ t, execSealChange b s = .next t → Later s t := by
  unfold execSealChange; dsimp only
  have e := later_kept (State.updShr_kept s (fun x => { x with pin := b }) ⟨rfl, rfl⟩)
  split
  · exact later_ok e
  · exact later_ok (e.trans (later_sealMove _ _))

theorem execShroudResetRelease_later (s : State) : ∀ t, execShroudResetRelease s = .next t → Later s t := by
  unfold execShroudResetRelease; split
  · exact later_ok (Later.refl _)
  · exact later_ok ((later_kept (State.updShr_kept s _ ⟨rfl, rfl⟩)).trans (later_shrRestart _))

theorem execActivate_later (s : State) : ∀ t, execActivate s = .next t → Later s t := by
  apply later_ok; apply later_shrService; intro n b u; dsimp only
  refine later_ite (later_kept (State.shrAck_kept _ _ _)) (later_ite ?_ ?_)
  · exact (later_sealClose _).kept (State.shrAck_kept _ _ _)
  · refine Later.trans (Later.kept (Later.trans ?_ (later_sealClose _)) ((State.shrReset_kept _ _).trans (State.shrAck_kept _ _ _)))
      (later_shrRestart _)
    exact later_kept ((State.updShr_kept _ _ ⟨rfl, rfl⟩).trans ((State.sealTouch_kept _ _).trans (State.sealOpen_kept _)))

theorem execRegisterWrite_later (w : Writer) (a : BitVec 46) (n : AccSize) (v : BitVec 64) (s : State) :
    ∀ t, execRegisterWrite w a n v s = .next t → Later s t := by
  unfold execRegisterWrite; split
  · exact later_ok (Later.refl _)
  · split
    · exact later_ok (later_kept (State.busW_kept _ _ _ _ _))
    · exact later_ok (later_shrWrite _ _ _ _)

theorem execShroudWatchdogExpiry_later (s : State) : ∀ t, execShroudWatchdogExpiry s = .next t → Later s t := by
  unfold execShroudWatchdogExpiry; split
  · exact later_ok (Later.refl _)
  · exact later_ok ((later_kept (State.shrReset_kept _ _)).trans (later_shrRestart _))

theorem execProvision_later (s : State) : ∀ t, execProvision s = .next t → Later s t := by
  apply later_ok; apply later_shrService; intro n b u
  refine later_ite (later_kept (State.shrAck_kept _ _ _)) (later_ite (later_kept (State.shrAck_kept _ _ _))
    (later_ite (later_kept (State.shrAck_kept _ _ _)) (later_ite (later_kept (State.shrMalformed_kept _ _)) ?_)))
  exact ((later_kept (State.updShr_kept _ _ ⟨rfl, rfl⟩)).trans (later_audit _ _ _ _)).kept (State.shrAck_kept _ _ _)

theorem execShrXt32Fail_later (s : State) : ∀ t, execShrXt32Fail s = .next t → Later s t := by
  unfold execShrXt32Fail; split
  · exact later_ok (Later.refl _)
  · exact later_ok ((later_kept (State.updShr_kept _ _ ⟨rfl, rfl⟩)).trans (later_audit _ _ _ _))

theorem execMsMessage_later (w : Option (List Byte)) (s : State) : ∀ t, execMsMessage w s = .next t → Later s t := by
  unfold execMsMessage; split
  · exact later_ok (Later.refl _)
  · dsimp only
    have e : Later s (if w.isNone then s.updShr fun x => { x with rung := false } else s) :=
      later_ite (later_kept (State.updShr_kept _ _ ⟨rfl, rfl⟩)) (Later.refl _)
    generalize (if w.isNone then s.updShr fun x => { x with rung := false } else s) = s1 at *
    generalize w.getD (s.portWindow .SHR_MS) = b
    have e2 := e.kept (State.updShr_kept s1 (fun x => { x with msLast := msgCounter b }) ⟨rfl, rfl⟩)
    split
    · exact later_ok ((e.trans (later_shrFail _)).kept (State.shrAck_kept _ _ _))
    · split
      · exact later_ok (e2.kept (State.updShr_kept _ _ ⟨rfl, rfl⟩))
      · split
        · exact later_ok (e2.kept (State.shrAck_kept _ _ _))
        · split
          · exact later_ok (e2.kept (State.shrAck_kept _ _ _))
          · exact later_ok (e2.kept (State.updShr_kept _ _ ⟨rfl, rfl⟩))

theorem execShroudReset_later (c : ShroudCause) (s : State) : ∀ t, execShroudReset c s = .next t → Later s t := by
  unfold execShroudReset; split
  · exact later_ok (Later.refl _)
  · split
    · exact later_ok (later_kept ((State.updShr_kept _ _ ⟨rfl, rfl⟩).trans (State.shrReset_kept _ _)))
    · exact later_ok (later_kept ((State.updShr_kept _ _ ⟨rfl, rfl⟩).trans ((State.shrLose_kept _).trans (State.shrReset_kept _ _))))
    · split
      · exact later_ok (Later.refl _)
      · exact later_ok ((later_kept (State.shrReset_kept _ _)).trans (later_shrRestart _))

theorem execShroudSupplyRecovery_later (s : State) : ∀ t, execShroudSupplyRecovery s = .next t → Later s t := by
  unfold execShroudSupplyRecovery; split
  · exact later_ok (Later.refl _)
  · have e := later_kept (State.updShr_kept s (fun x => { x with low := false }) ⟨rfl, rfl⟩)
    exact later_ok (later_ite (e.trans (later_shrBoot _)) e)

end Sys2Proof.Machine
end

