-- ==== Sys2Proof/Laws/State.lean ====
section
/-! SUPPORT. One lemma per field and named update of the state, true by definition. -/

namespace Sys2Proof.Machine

section
variable (s : State) (r : Reg) (i : List Nat) (v : Word)
@[simp] theorem State.setReg_pending : (s.setReg r i v).pending = s.pending := rfl
@[simp] theorem State.setReg_free : (s.setReg r i v).free = s.free := rfl
@[simp] theorem State.setReg_part : (s.setReg r i v).part = s.part := rfl
@[simp] theorem State.setReg_mode : (s.setReg r i v).mode = s.mode := rfl
@[simp] theorem State.setReg_time : (s.setReg r i v).time = s.time := rfl
@[simp] theorem State.setReg_pdOn : (s.setReg r i v).pdOn = s.pdOn := rfl
@[simp] theorem State.setReg_pdMoving : (s.setReg r i v).pdMoving = s.pdMoving := rfl
@[simp] theorem State.setReg_mem : (s.setReg r i v).mem = s.mem := rfl
@[simp] theorem State.setReg_poisoned : (s.setReg r i v).poisoned = s.poisoned := rfl
@[simp] theorem State.setReg_cores : (s.setReg r i v).cores = s.cores := rfl
@[simp] theorem State.setReg_quads : (s.setReg r i v).quads = s.quads := rfl
@[simp] theorem State.setReg_homes : (s.setReg r i v).homes = s.homes := rfl
@[simp] theorem State.setReg_net : (s.setReg r i v).net = s.net := rfl
@[simp] theorem State.setReg_dist : (s.setReg r i v).dist = s.dist := rfl
@[simp] theorem State.setReg_cleats : (s.setReg r i v).cleats = s.cleats := rfl
@[simp] theorem State.setReg_dram : (s.setReg r i v).dram = s.dram := rfl
@[simp] theorem State.setReg_slices : (s.setReg r i v).slices = s.slices := rfl
@[simp] theorem State.setReg_sw : (s.setReg r i v).sw = s.sw := rfl
@[simp] theorem State.setReg_pcie : (s.setReg r i v).pcie = s.pcie := rfl
@[simp] theorem State.setReg_low : (s.setReg r i v).low = s.low := rfl
@[simp] theorem State.setReg_fsi : (s.setReg r i v).fsi = s.fsi := rfl
@[simp] theorem State.setReg_shr : (s.setReg r i v).shr = s.shr := rfl
@[simp] theorem State.setReg_fe : (s.setReg r i v).fe = s.fe := rfl
@[simp] theorem State.setReg_timers : (s.setReg r i v).timers = s.timers := rfl
@[simp] theorem State.setReg_telltales : (s.setReg r i v).telltales = s.telltales := rfl
@[simp] theorem State.setReg_jtag : (s.setReg r i v).jtag = s.jtag := rfl
@[simp] theorem State.setReg_crow : (s.setReg r i v).crow = s.crow := rfl
@[simp] theorem State.setReg_tick : (s.setReg r i v).tick = s.tick := rfl
@[simp] theorem State.setReg_pulses : (s.setReg r i v).pulses = s.pulses := rfl
@[simp] theorem State.setReg_errReports : (s.setReg r i v).errReports = s.errReports := rfl
@[simp] theorem State.setReg_answer : (s.setReg r i v).answer = s.answer := rfl
@[simp] theorem State.setReg_reports : (s.setReg r i v).reports = s.reports := rfl
@[simp] theorem State.setReg_telemetry : (s.setReg r i v).telemetry = s.telemetry := rfl
@[simp] theorem State.setReg_remoteInv : (s.setReg r i v).remoteInv = s.remoteInv := rfl
@[simp] theorem State.setReg_mramQ : (s.setReg r i v).mramQ = s.mramQ := rfl
@[simp] theorem State.setReg_mramNext : (s.setReg r i v).mramNext = s.mramNext := rfl
@[simp] theorem State.setReg_probes : (s.setReg r i v).probes = s.probes := rfl
end

section
variable (s : State) (r : Reg) (i : List Nat) (f : Fld) (v : Nat)
@[simp] theorem State.setFld_pending : (s.setFld r i f v).pending = s.pending := rfl
@[simp] theorem State.setFld_free : (s.setFld r i f v).free = s.free := rfl
@[simp] theorem State.setFld_part : (s.setFld r i f v).part = s.part := rfl
@[simp] theorem State.setFld_mode : (s.setFld r i f v).mode = s.mode := rfl
@[simp] theorem State.setFld_time : (s.setFld r i f v).time = s.time := rfl
@[simp] theorem State.setFld_pdOn : (s.setFld r i f v).pdOn = s.pdOn := rfl
@[simp] theorem State.setFld_pdMoving : (s.setFld r i f v).pdMoving = s.pdMoving := rfl
@[simp] theorem State.setFld_mem : (s.setFld r i f v).mem = s.mem := rfl
@[simp] theorem State.setFld_poisoned : (s.setFld r i f v).poisoned = s.poisoned := rfl
@[simp] theorem State.setFld_cores : (s.setFld r i f v).cores = s.cores := rfl
@[simp] theorem State.setFld_quads : (s.setFld r i f v).quads = s.quads := rfl
@[simp] theorem State.setFld_homes : (s.setFld r i f v).homes = s.homes := rfl
@[simp] theorem State.setFld_net : (s.setFld r i f v).net = s.net := rfl
@[simp] theorem State.setFld_dist : (s.setFld r i f v).dist = s.dist := rfl
@[simp] theorem State.setFld_cleats : (s.setFld r i f v).cleats = s.cleats := rfl
@[simp] theorem State.setFld_dram : (s.setFld r i f v).dram = s.dram := rfl
@[simp] theorem State.setFld_slices : (s.setFld r i f v).slices = s.slices := rfl
@[simp] theorem State.setFld_sw : (s.setFld r i f v).sw = s.sw := rfl
@[simp] theorem State.setFld_pcie : (s.setFld r i f v).pcie = s.pcie := rfl
@[simp] theorem State.setFld_low : (s.setFld r i f v).low = s.low := rfl
@[simp] theorem State.setFld_fsi : (s.setFld r i f v).fsi = s.fsi := rfl
@[simp] theorem State.setFld_shr : (s.setFld r i f v).shr = s.shr := rfl
@[simp] theorem State.setFld_fe : (s.setFld r i f v).fe = s.fe := rfl
@[simp] theorem State.setFld_timers : (s.setFld r i f v).timers = s.timers := rfl
@[simp] theorem State.setFld_telltales : (s.setFld r i f v).telltales = s.telltales := rfl
@[simp] theorem State.setFld_jtag : (s.setFld r i f v).jtag = s.jtag := rfl
@[simp] theorem State.setFld_crow : (s.setFld r i f v).crow = s.crow := rfl
@[simp] theorem State.setFld_tick : (s.setFld r i f v).tick = s.tick := rfl
@[simp] theorem State.setFld_pulses : (s.setFld r i f v).pulses = s.pulses := rfl
@[simp] theorem State.setFld_errReports : (s.setFld r i f v).errReports = s.errReports := rfl
@[simp] theorem State.setFld_answer : (s.setFld r i f v).answer = s.answer := rfl
@[simp] theorem State.setFld_reports : (s.setFld r i f v).reports = s.reports := rfl
@[simp] theorem State.setFld_telemetry : (s.setFld r i f v).telemetry = s.telemetry := rfl
@[simp] theorem State.setFld_remoteInv : (s.setFld r i f v).remoteInv = s.remoteInv := rfl
@[simp] theorem State.setFld_mramQ : (s.setFld r i f v).mramQ = s.mramQ := rfl
@[simp] theorem State.setFld_mramNext : (s.setFld r i f v).mramNext = s.mramNext := rfl
@[simp] theorem State.setFld_probes : (s.setFld r i f v).probes = s.probes := rfl
end

section
variable (s : State) (r : Reg) (i : List Nat) (f : Fld) (n : Nat)
@[simp] theorem State.countFld_pending : (s.countFld r i f n).pending = s.pending := rfl
@[simp] theorem State.countFld_free : (s.countFld r i f n).free = s.free := rfl
@[simp] theorem State.countFld_part : (s.countFld r i f n).part = s.part := rfl
@[simp] theorem State.countFld_mode : (s.countFld r i f n).mode = s.mode := rfl
@[simp] theorem State.countFld_time : (s.countFld r i f n).time = s.time := rfl
@[simp] theorem State.countFld_pdOn : (s.countFld r i f n).pdOn = s.pdOn := rfl
@[simp] theorem State.countFld_pdMoving : (s.countFld r i f n).pdMoving = s.pdMoving := rfl
@[simp] theorem State.countFld_mem : (s.countFld r i f n).mem = s.mem := rfl
@[simp] theorem State.countFld_poisoned : (s.countFld r i f n).poisoned = s.poisoned := rfl
@[simp] theorem State.countFld_cores : (s.countFld r i f n).cores = s.cores := rfl
@[simp] theorem State.countFld_quads : (s.countFld r i f n).quads = s.quads := rfl
@[simp] theorem State.countFld_homes : (s.countFld r i f n).homes = s.homes := rfl
@[simp] theorem State.countFld_net : (s.countFld r i f n).net = s.net := rfl
@[simp] theorem State.countFld_dist : (s.countFld r i f n).dist = s.dist := rfl
@[simp] theorem State.countFld_cleats : (s.countFld r i f n).cleats = s.cleats := rfl
@[simp] theorem State.countFld_dram : (s.countFld r i f n).dram = s.dram := rfl
@[simp] theorem State.countFld_slices : (s.countFld r i f n).slices = s.slices := rfl
@[simp] theorem State.countFld_sw : (s.countFld r i f n).sw = s.sw := rfl
@[simp] theorem State.countFld_pcie : (s.countFld r i f n).pcie = s.pcie := rfl
@[simp] theorem State.countFld_low : (s.countFld r i f n).low = s.low := rfl
@[simp] theorem State.countFld_fsi : (s.countFld r i f n).fsi = s.fsi := rfl
@[simp] theorem State.countFld_shr : (s.countFld r i f n).shr = s.shr := rfl
@[simp] theorem State.countFld_fe : (s.countFld r i f n).fe = s.fe := rfl
@[simp] theorem State.countFld_timers : (s.countFld r i f n).timers = s.timers := rfl
@[simp] theorem State.countFld_telltales : (s.countFld r i f n).telltales = s.telltales := rfl
@[simp] theorem State.countFld_jtag : (s.countFld r i f n).jtag = s.jtag := rfl
@[simp] theorem State.countFld_crow : (s.countFld r i f n).crow = s.crow := rfl
@[simp] theorem State.countFld_tick : (s.countFld r i f n).tick = s.tick := rfl
@[simp] theorem State.countFld_pulses : (s.countFld r i f n).pulses = s.pulses := rfl
@[simp] theorem State.countFld_errReports : (s.countFld r i f n).errReports = s.errReports := rfl
@[simp] theorem State.countFld_answer : (s.countFld r i f n).answer = s.answer := rfl
@[simp] theorem State.countFld_reports : (s.countFld r i f n).reports = s.reports := rfl
@[simp] theorem State.countFld_telemetry : (s.countFld r i f n).telemetry = s.telemetry := rfl
@[simp] theorem State.countFld_remoteInv : (s.countFld r i f n).remoteInv = s.remoteInv := rfl
@[simp] theorem State.countFld_mramQ : (s.countFld r i f n).mramQ = s.mramQ := rfl
@[simp] theorem State.countFld_mramNext : (s.countFld r i f n).mramNext = s.mramNext := rfl
@[simp] theorem State.countFld_probes : (s.countFld r i f n).probes = s.probes := rfl
end

section
variable (s : State) (c : Fin 64) (k : Core)
@[simp] theorem State.setCore_pending : (s.setCore c k).pending = s.pending := rfl
@[simp] theorem State.setCore_free : (s.setCore c k).free = s.free := rfl
@[simp] theorem State.setCore_part : (s.setCore c k).part = s.part := rfl
@[simp] theorem State.setCore_mode : (s.setCore c k).mode = s.mode := rfl
@[simp] theorem State.setCore_time : (s.setCore c k).time = s.time := rfl
@[simp] theorem State.setCore_pdOn : (s.setCore c k).pdOn = s.pdOn := rfl
@[simp] theorem State.setCore_pdMoving : (s.setCore c k).pdMoving = s.pdMoving := rfl
@[simp] theorem State.setCore_mem : (s.setCore c k).mem = s.mem := rfl
@[simp] theorem State.setCore_poisoned : (s.setCore c k).poisoned = s.poisoned := rfl
@[simp] theorem State.setCore_regs : (s.setCore c k).regs = s.regs := rfl
@[simp] theorem State.setCore_quads : (s.setCore c k).quads = s.quads := rfl
@[simp] theorem State.setCore_homes : (s.setCore c k).homes = s.homes := rfl
@[simp] theorem State.setCore_net : (s.setCore c k).net = s.net := rfl
@[simp] theorem State.setCore_dist : (s.setCore c k).dist = s.dist := rfl
@[simp] theorem State.setCore_cleats : (s.setCore c k).cleats = s.cleats := rfl
@[simp] theorem State.setCore_dram : (s.setCore c k).dram = s.dram := rfl
@[simp] theorem State.setCore_slices : (s.setCore c k).slices = s.slices := rfl
@[simp] theorem State.setCore_sw : (s.setCore c k).sw = s.sw := rfl
@[simp] theorem State.setCore_pcie : (s.setCore c k).pcie = s.pcie := rfl
@[simp] theorem State.setCore_low : (s.setCore c k).low = s.low := rfl
@[simp] theorem State.setCore_fsi : (s.setCore c k).fsi = s.fsi := rfl
@[simp] theorem State.setCore_shr : (s.setCore c k).shr = s.shr := rfl
@[simp] theorem State.setCore_fe : (s.setCore c k).fe = s.fe := rfl
@[simp] theorem State.setCore_timers : (s.setCore c k).timers = s.timers := rfl
@[simp] theorem State.setCore_telltales : (s.setCore c k).telltales = s.telltales := rfl
@[simp] theorem State.setCore_jtag : (s.setCore c k).jtag = s.jtag := rfl
@[simp] theorem State.setCore_crow : (s.setCore c k).crow = s.crow := rfl
@[simp] theorem State.setCore_tick : (s.setCore c k).tick = s.tick := rfl
@[simp] theorem State.setCore_pulses : (s.setCore c k).pulses = s.pulses := rfl
@[simp] theorem State.setCore_errReports : (s.setCore c k).errReports = s.errReports := rfl
@[simp] theorem State.setCore_answer : (s.setCore c k).answer = s.answer := rfl
@[simp] theorem State.setCore_reports : (s.setCore c k).reports = s.reports := rfl
@[simp] theorem State.setCore_telemetry : (s.setCore c k).telemetry = s.telemetry := rfl
@[simp] theorem State.setCore_remoteInv : (s.setCore c k).remoteInv = s.remoteInv := rfl
@[simp] theorem State.setCore_mramQ : (s.setCore c k).mramQ = s.mramQ := rfl
@[simp] theorem State.setCore_mramNext : (s.setCore c k).mramNext = s.mramNext := rfl
@[simp] theorem State.setCore_probes : (s.setCore c k).probes = s.probes := rfl
end

section
variable (s : State) (c : Fin 64) (f : Core → Core)
@[simp] theorem State.updCore_pending : (s.updCore c f).pending = s.pending := rfl
@[simp] theorem State.updCore_free : (s.updCore c f).free = s.free := rfl
@[simp] theorem State.updCore_part : (s.updCore c f).part = s.part := rfl
@[simp] theorem State.updCore_mode : (s.updCore c f).mode = s.mode := rfl
@[simp] theorem State.updCore_time : (s.updCore c f).time = s.time := rfl
@[simp] theorem State.updCore_pdOn : (s.updCore c f).pdOn = s.pdOn := rfl
@[simp] theorem State.updCore_pdMoving : (s.updCore c f).pdMoving = s.pdMoving := rfl
@[simp] theorem State.updCore_mem : (s.updCore c f).mem = s.mem := rfl
@[simp] theorem State.updCore_poisoned : (s.updCore c f).poisoned = s.poisoned := rfl
@[simp] theorem State.updCore_regs : (s.updCore c f).regs = s.regs := rfl
@[simp] theorem State.updCore_quads : (s.updCore c f).quads = s.quads := rfl
@[simp] theorem State.updCore_homes : (s.updCore c f).homes = s.homes := rfl
@[simp] theorem State.updCore_net : (s.updCore c f).net = s.net := rfl
@[simp] theorem State.updCore_dist : (s.updCore c f).dist = s.dist := rfl
@[simp] theorem State.updCore_cleats : (s.updCore c f).cleats = s.cleats := rfl
@[simp] theorem State.updCore_dram : (s.updCore c f).dram = s.dram := rfl
@[simp] theorem State.updCore_slices : (s.updCore c f).slices = s.slices := rfl
@[simp] theorem State.updCore_sw : (s.updCore c f).sw = s.sw := rfl
@[simp] theorem State.updCore_pcie : (s.updCore c f).pcie = s.pcie := rfl
@[simp] theorem State.updCore_low : (s.updCore c f).low = s.low := rfl
@[simp] theorem State.updCore_fsi : (s.updCore c f).fsi = s.fsi := rfl
@[simp] theorem State.updCore_shr : (s.updCore c f).shr = s.shr := rfl
@[simp] theorem State.updCore_fe : (s.updCore c f).fe = s.fe := rfl
@[simp] theorem State.updCore_timers : (s.updCore c f).timers = s.timers := rfl
@[simp] theorem State.updCore_telltales : (s.updCore c f).telltales = s.telltales := rfl
@[simp] theorem State.updCore_jtag : (s.updCore c f).jtag = s.jtag := rfl
@[simp] theorem State.updCore_crow : (s.updCore c f).crow = s.crow := rfl
@[simp] theorem State.updCore_tick : (s.updCore c f).tick = s.tick := rfl
@[simp] theorem State.updCore_pulses : (s.updCore c f).pulses = s.pulses := rfl
@[simp] theorem State.updCore_errReports : (s.updCore c f).errReports = s.errReports := rfl
@[simp] theorem State.updCore_answer : (s.updCore c f).answer = s.answer := rfl
@[simp] theorem State.updCore_reports : (s.updCore c f).reports = s.reports := rfl
@[simp] theorem State.updCore_telemetry : (s.updCore c f).telemetry = s.telemetry := rfl
@[simp] theorem State.updCore_remoteInv : (s.updCore c f).remoteInv = s.remoteInv := rfl
@[simp] theorem State.updCore_mramQ : (s.updCore c f).mramQ = s.mramQ := rfl
@[simp] theorem State.updCore_mramNext : (s.updCore c f).mramNext = s.mramNext := rfl
@[simp] theorem State.updCore_probes : (s.updCore c f).probes = s.probes := rfl
end

section
variable (s : State) (c : Fin 64) (e v : Nat)
@[simp] theorem State.event_pending : (s.event c e v).pending = s.pending := State.updCore_pending s c _
@[simp] theorem State.event_free : (s.event c e v).free = s.free := State.updCore_free s c _
@[simp] theorem State.event_part : (s.event c e v).part = s.part := State.updCore_part s c _
@[simp] theorem State.event_mode : (s.event c e v).mode = s.mode := State.updCore_mode s c _
@[simp] theorem State.event_time : (s.event c e v).time = s.time := State.updCore_time s c _
@[simp] theorem State.event_pdOn : (s.event c e v).pdOn = s.pdOn := State.updCore_pdOn s c _
@[simp] theorem State.event_pdMoving : (s.event c e v).pdMoving = s.pdMoving := State.updCore_pdMoving s c _
@[simp] theorem State.event_mem : (s.event c e v).mem = s.mem := State.updCore_mem s c _
@[simp] theorem State.event_poisoned : (s.event c e v).poisoned = s.poisoned := State.updCore_poisoned s c _
@[simp] theorem State.event_regs : (s.event c e v).regs = s.regs := State.updCore_regs s c _
@[simp] theorem State.event_quads : (s.event c e v).quads = s.quads := State.updCore_quads s c _
@[simp] theorem State.event_homes : (s.event c e v).homes = s.homes := State.updCore_homes s c _
@[simp] theorem State.event_net : (s.event c e v).net = s.net := State.updCore_net s c _
@[simp] theorem State.event_dist : (s.event c e v).dist = s.dist := State.updCore_dist s c _
@[simp] theorem State.event_cleats : (s.event c e v).cleats = s.cleats := State.updCore_cleats s c _
@[simp] theorem State.event_dram : (s.event c e v).dram = s.dram := State.updCore_dram s c _
@[simp] theorem State.event_slices : (s.event c e v).slices = s.slices := State.updCore_slices s c _
@[simp] theorem State.event_sw : (s.event c e v).sw = s.sw := State.updCore_sw s c _
@[simp] theorem State.event_pcie : (s.event c e v).pcie = s.pcie := State.updCore_pcie s c _
@[simp] theorem State.event_low : (s.event c e v).low = s.low := State.updCore_low s c _
@[simp] theorem State.event_fsi : (s.event c e v).fsi = s.fsi := State.updCore_fsi s c _
@[simp] theorem State.event_shr : (s.event c e v).shr = s.shr := State.updCore_shr s c _
@[simp] theorem State.event_fe : (s.event c e v).fe = s.fe := State.updCore_fe s c _
@[simp] theorem State.event_timers : (s.event c e v).timers = s.timers := State.updCore_timers s c _
@[simp] theorem State.event_telltales : (s.event c e v).telltales = s.telltales := State.updCore_telltales s c _
@[simp] theorem State.event_jtag : (s.event c e v).jtag = s.jtag := State.updCore_jtag s c _
@[simp] theorem State.event_crow : (s.event c e v).crow = s.crow := State.updCore_crow s c _
@[simp] theorem State.event_tick : (s.event c e v).tick = s.tick := State.updCore_tick s c _
@[simp] theorem State.event_pulses : (s.event c e v).pulses = s.pulses := State.updCore_pulses s c _
@[simp] theorem State.event_errReports : (s.event c e v).errReports = s.errReports := State.updCore_errReports s c _
@[simp] theorem State.event_answer : (s.event c e v).answer = s.answer := State.updCore_answer s c _
@[simp] theorem State.event_reports : (s.event c e v).reports = s.reports := State.updCore_reports s c _
@[simp] theorem State.event_telemetry : (s.event c e v).telemetry = s.telemetry := State.updCore_telemetry s c _
@[simp] theorem State.event_remoteInv : (s.event c e v).remoteInv = s.remoteInv := State.updCore_remoteInv s c _
@[simp] theorem State.event_mramQ : (s.event c e v).mramQ = s.mramQ := State.updCore_mramQ s c _
@[simp] theorem State.event_mramNext : (s.event c e v).mramNext = s.mramNext := State.updCore_mramNext s c _
@[simp] theorem State.event_probes : (s.event c e v).probes = s.probes := State.updCore_probes s c _
end

section
variable (s : State) (q : Nat) (k : Quad)
@[simp] theorem State.setQuad_pending : (s.setQuad q k).pending = s.pending := rfl
@[simp] theorem State.setQuad_free : (s.setQuad q k).free = s.free := rfl
@[simp] theorem State.setQuad_part : (s.setQuad q k).part = s.part := rfl
@[simp] theorem State.setQuad_mode : (s.setQuad q k).mode = s.mode := rfl
@[simp] theorem State.setQuad_time : (s.setQuad q k).time = s.time := rfl
@[simp] theorem State.setQuad_pdOn : (s.setQuad q k).pdOn = s.pdOn := rfl
@[simp] theorem State.setQuad_pdMoving : (s.setQuad q k).pdMoving = s.pdMoving := rfl
@[simp] theorem State.setQuad_mem : (s.setQuad q k).mem = s.mem := rfl
@[simp] theorem State.setQuad_poisoned : (s.setQuad q k).poisoned = s.poisoned := rfl
@[simp] theorem State.setQuad_regs : (s.setQuad q k).regs = s.regs := rfl
@[simp] theorem State.setQuad_cores : (s.setQuad q k).cores = s.cores := rfl
@[simp] theorem State.setQuad_homes : (s.setQuad q k).homes = s.homes := rfl
@[simp] theorem State.setQuad_net : (s.setQuad q k).net = s.net := rfl
@[simp] theorem State.setQuad_dist : (s.setQuad q k).dist = s.dist := rfl
@[simp] theorem State.setQuad_cleats : (s.setQuad q k).cleats = s.cleats := rfl
@[simp] theorem State.setQuad_dram : (s.setQuad q k).dram = s.dram := rfl
@[simp] theorem State.setQuad_slices : (s.setQuad q k).slices = s.slices := rfl
@[simp] theorem State.setQuad_sw : (s.setQuad q k).sw = s.sw := rfl
@[simp] theorem State.setQuad_pcie : (s.setQuad q k).pcie = s.pcie := rfl
@[simp] theorem State.setQuad_low : (s.setQuad q k).low = s.low := rfl
@[simp] theorem State.setQuad_fsi : (s.setQuad q k).fsi = s.fsi := rfl
@[simp] theorem State.setQuad_shr : (s.setQuad q k).shr = s.shr := rfl
@[simp] theorem State.setQuad_fe : (s.setQuad q k).fe = s.fe := rfl
@[simp] theorem State.setQuad_timers : (s.setQuad q k).timers = s.timers := rfl
@[simp] theorem State.setQuad_telltales : (s.setQuad q k).telltales = s.telltales := rfl
@[simp] theorem State.setQuad_jtag : (s.setQuad q k).jtag = s.jtag := rfl
@[simp] theorem State.setQuad_crow : (s.setQuad q k).crow = s.crow := rfl
@[simp] theorem State.setQuad_tick : (s.setQuad q k).tick = s.tick := rfl
@[simp] theorem State.setQuad_pulses : (s.setQuad q k).pulses = s.pulses := rfl
@[simp] theorem State.setQuad_errReports : (s.setQuad q k).errReports = s.errReports := rfl
@[simp] theorem State.setQuad_answer : (s.setQuad q k).answer = s.answer := rfl
@[simp] theorem State.setQuad_reports : (s.setQuad q k).reports = s.reports := rfl
@[simp] theorem State.setQuad_telemetry : (s.setQuad q k).telemetry = s.telemetry := rfl
@[simp] theorem State.setQuad_remoteInv : (s.setQuad q k).remoteInv = s.remoteInv := rfl
@[simp] theorem State.setQuad_mramQ : (s.setQuad q k).mramQ = s.mramQ := rfl
@[simp] theorem State.setQuad_mramNext : (s.setQuad q k).mramNext = s.mramNext := rfl
@[simp] theorem State.setQuad_probes : (s.setQuad q k).probes = s.probes := rfl
end

section
variable (s : State) (h : Nat) (k : Home)
@[simp] theorem State.setHome_pending : (s.setHome h k).pending = s.pending := rfl
@[simp] theorem State.setHome_free : (s.setHome h k).free = s.free := rfl
@[simp] theorem State.setHome_part : (s.setHome h k).part = s.part := rfl
@[simp] theorem State.setHome_mode : (s.setHome h k).mode = s.mode := rfl
@[simp] theorem State.setHome_time : (s.setHome h k).time = s.time := rfl
@[simp] theorem State.setHome_pdOn : (s.setHome h k).pdOn = s.pdOn := rfl
@[simp] theorem State.setHome_pdMoving : (s.setHome h k).pdMoving = s.pdMoving := rfl
@[simp] theorem State.setHome_mem : (s.setHome h k).mem = s.mem := rfl
@[simp] theorem State.setHome_poisoned : (s.setHome h k).poisoned = s.poisoned := rfl
@[simp] theorem State.setHome_regs : (s.setHome h k).regs = s.regs := rfl
@[simp] theorem State.setHome_cores : (s.setHome h k).cores = s.cores := rfl
@[simp] theorem State.setHome_quads : (s.setHome h k).quads = s.quads := rfl
@[simp] theorem State.setHome_net : (s.setHome h k).net = s.net := rfl
@[simp] theorem State.setHome_dist : (s.setHome h k).dist = s.dist := rfl
@[simp] theorem State.setHome_cleats : (s.setHome h k).cleats = s.cleats := rfl
@[simp] theorem State.setHome_dram : (s.setHome h k).dram = s.dram := rfl
@[simp] theorem State.setHome_slices : (s.setHome h k).slices = s.slices := rfl
@[simp] theorem State.setHome_sw : (s.setHome h k).sw = s.sw := rfl
@[simp] theorem State.setHome_pcie : (s.setHome h k).pcie = s.pcie := rfl
@[simp] theorem State.setHome_low : (s.setHome h k).low = s.low := rfl
@[simp] theorem State.setHome_fsi : (s.setHome h k).fsi = s.fsi := rfl
@[simp] theorem State.setHome_shr : (s.setHome h k).shr = s.shr := rfl
@[simp] theorem State.setHome_fe : (s.setHome h k).fe = s.fe := rfl
@[simp] theorem State.setHome_timers : (s.setHome h k).timers = s.timers := rfl
@[simp] theorem State.setHome_telltales : (s.setHome h k).telltales = s.telltales := rfl
@[simp] theorem State.setHome_jtag : (s.setHome h k).jtag = s.jtag := rfl
@[simp] theorem State.setHome_crow : (s.setHome h k).crow = s.crow := rfl
@[simp] theorem State.setHome_tick : (s.setHome h k).tick = s.tick := rfl
@[simp] theorem State.setHome_pulses : (s.setHome h k).pulses = s.pulses := rfl
@[simp] theorem State.setHome_errReports : (s.setHome h k).errReports = s.errReports := rfl
@[simp] theorem State.setHome_answer : (s.setHome h k).answer = s.answer := rfl
@[simp] theorem State.setHome_reports : (s.setHome h k).reports = s.reports := rfl
@[simp] theorem State.setHome_telemetry : (s.setHome h k).telemetry = s.telemetry := rfl
@[simp] theorem State.setHome_remoteInv : (s.setHome h k).remoteInv = s.remoteInv := rfl
@[simp] theorem State.setHome_mramQ : (s.setHome h k).mramQ = s.mramQ := rfl
@[simp] theorem State.setHome_mramNext : (s.setHome h k).mramNext = s.mramNext := rfl
@[simp] theorem State.setHome_probes : (s.setHome h k).probes = s.probes := rfl
end

section
variable (s : State) (w : Nat → List Nat)
@[simp] theorem State.logEntry_pending : (s.logEntry w).pending = s.pending := rfl
@[simp] theorem State.logEntry_free : (s.logEntry w).free = s.free := rfl
@[simp] theorem State.logEntry_part : (s.logEntry w).part = s.part := rfl
@[simp] theorem State.logEntry_mode : (s.logEntry w).mode = s.mode := rfl
@[simp] theorem State.logEntry_time : (s.logEntry w).time = s.time := rfl
@[simp] theorem State.logEntry_pdOn : (s.logEntry w).pdOn = s.pdOn := rfl
@[simp] theorem State.logEntry_pdMoving : (s.logEntry w).pdMoving = s.pdMoving := rfl
@[simp] theorem State.logEntry_mem : (s.logEntry w).mem = s.mem := rfl
@[simp] theorem State.logEntry_poisoned : (s.logEntry w).poisoned = s.poisoned := rfl
@[simp] theorem State.logEntry_regs : (s.logEntry w).regs = s.regs := rfl
@[simp] theorem State.logEntry_cores : (s.logEntry w).cores = s.cores := rfl
@[simp] theorem State.logEntry_quads : (s.logEntry w).quads = s.quads := rfl
@[simp] theorem State.logEntry_homes : (s.logEntry w).homes = s.homes := rfl
@[simp] theorem State.logEntry_net : (s.logEntry w).net = s.net := rfl
@[simp] theorem State.logEntry_dist : (s.logEntry w).dist = s.dist := rfl
@[simp] theorem State.logEntry_cleats : (s.logEntry w).cleats = s.cleats := rfl
@[simp] theorem State.logEntry_dram : (s.logEntry w).dram = s.dram := rfl
@[simp] theorem State.logEntry_slices : (s.logEntry w).slices = s.slices := rfl
@[simp] theorem State.logEntry_sw : (s.logEntry w).sw = s.sw := rfl
@[simp] theorem State.logEntry_pcie : (s.logEntry w).pcie = s.pcie := rfl
@[simp] theorem State.logEntry_low : (s.logEntry w).low = s.low := rfl
@[simp] theorem State.logEntry_shr : (s.logEntry w).shr = s.shr := rfl
@[simp] theorem State.logEntry_fe : (s.logEntry w).fe = s.fe := rfl
@[simp] theorem State.logEntry_timers : (s.logEntry w).timers = s.timers := rfl
@[simp] theorem State.logEntry_telltales : (s.logEntry w).telltales = s.telltales := rfl
@[simp] theorem State.logEntry_jtag : (s.logEntry w).jtag = s.jtag := rfl
@[simp] theorem State.logEntry_crow : (s.logEntry w).crow = s.crow := rfl
@[simp] theorem State.logEntry_tick : (s.logEntry w).tick = s.tick := rfl
@[simp] theorem State.logEntry_pulses : (s.logEntry w).pulses = s.pulses := rfl
@[simp] theorem State.logEntry_errReports : (s.logEntry w).errReports = s.errReports := rfl
@[simp] theorem State.logEntry_answer : (s.logEntry w).answer = s.answer := rfl
@[simp] theorem State.logEntry_reports : (s.logEntry w).reports = s.reports := rfl
@[simp] theorem State.logEntry_telemetry : (s.logEntry w).telemetry = s.telemetry := rfl
@[simp] theorem State.logEntry_remoteInv : (s.logEntry w).remoteInv = s.remoteInv := rfl
@[simp] theorem State.logEntry_mramQ : (s.logEntry w).mramQ = s.mramQ := rfl
@[simp] theorem State.logEntry_mramNext : (s.logEntry w).mramNext = s.mramNext := rfl
@[simp] theorem State.logEntry_probes : (s.logEntry w).probes = s.probes := rfl
end

section
variable (s : State) (t : Tele)
@[simp] theorem State.count_pending : (s.count t).pending = s.pending := rfl
@[simp] theorem State.count_free : (s.count t).free = s.free := rfl
@[simp] theorem State.count_part : (s.count t).part = s.part := rfl
@[simp] theorem State.count_mode : (s.count t).mode = s.mode := rfl
@[simp] theorem State.count_time : (s.count t).time = s.time := rfl
@[simp] theorem State.count_pdOn : (s.count t).pdOn = s.pdOn := rfl
@[simp] theorem State.count_pdMoving : (s.count t).pdMoving = s.pdMoving := rfl
@[simp] theorem State.count_mem : (s.count t).mem = s.mem := rfl
@[simp] theorem State.count_poisoned : (s.count t).poisoned = s.poisoned := rfl
@[simp] theorem State.count_regs : (s.count t).regs = s.regs := rfl
@[simp] theorem State.count_cores : (s.count t).cores = s.cores := rfl
@[simp] theorem State.count_quads : (s.count t).quads = s.quads := rfl
@[simp] theorem State.count_homes : (s.count t).homes = s.homes := rfl
@[simp] theorem State.count_net : (s.count t).net = s.net := rfl
@[simp] theorem State.count_dist : (s.count t).dist = s.dist := rfl
@[simp] theorem State.count_cleats : (s.count t).cleats = s.cleats := rfl
@[simp] theorem State.count_dram : (s.count t).dram = s.dram := rfl
@[simp] theorem State.count_slices : (s.count t).slices = s.slices := rfl
@[simp] theorem State.count_sw : (s.count t).sw = s.sw := rfl
@[simp] theorem State.count_pcie : (s.count t).pcie = s.pcie := rfl
@[simp] theorem State.count_low : (s.count t).low = s.low := rfl
@[simp] theorem State.count_shr : (s.count t).shr = s.shr := rfl
@[simp] theorem State.count_fe : (s.count t).fe = s.fe := rfl
@[simp] theorem State.count_timers : (s.count t).timers = s.timers := rfl
@[simp] theorem State.count_telltales : (s.count t).telltales = s.telltales := rfl
@[simp] theorem State.count_jtag : (s.count t).jtag = s.jtag := rfl
@[simp] theorem State.count_crow : (s.count t).crow = s.crow := rfl
@[simp] theorem State.count_tick : (s.count t).tick = s.tick := rfl
@[simp] theorem State.count_pulses : (s.count t).pulses = s.pulses := rfl
@[simp] theorem State.count_errReports : (s.count t).errReports = s.errReports := rfl
@[simp] theorem State.count_answer : (s.count t).answer = s.answer := rfl
@[simp] theorem State.count_reports : (s.count t).reports = s.reports := rfl
@[simp] theorem State.count_remoteInv : (s.count t).remoteInv = s.remoteInv := rfl
@[simp] theorem State.count_mramQ : (s.count t).mramQ = s.mramQ := rfl
@[simp] theorem State.count_mramNext : (s.count t).mramNext = s.mramNext := rfl
@[simp] theorem State.count_probes : (s.count t).probes = s.probes := rfl
end

section
variable (s : State) (n : Nat)
@[simp] theorem State.pulse_pending : (s.pulse n).pending = s.pending := rfl
@[simp] theorem State.pulse_free : (s.pulse n).free = s.free := rfl
@[simp] theorem State.pulse_part : (s.pulse n).part = s.part := rfl
@[simp] theorem State.pulse_mode : (s.pulse n).mode = s.mode := rfl
@[simp] theorem State.pulse_time : (s.pulse n).time = s.time := rfl
@[simp] theorem State.pulse_pdOn : (s.pulse n).pdOn = s.pdOn := rfl
@[simp] theorem State.pulse_pdMoving : (s.pulse n).pdMoving = s.pdMoving := rfl
@[simp] theorem State.pulse_mem : (s.pulse n).mem = s.mem := rfl
@[simp] theorem State.pulse_poisoned : (s.pulse n).poisoned = s.poisoned := rfl
@[simp] theorem State.pulse_regs : (s.pulse n).regs = s.regs := rfl
@[simp] theorem State.pulse_cores : (s.pulse n).cores = s.cores := rfl
@[simp] theorem State.pulse_quads : (s.pulse n).quads = s.quads := rfl
@[simp] theorem State.pulse_homes : (s.pulse n).homes = s.homes := rfl
@[simp] theorem State.pulse_net : (s.pulse n).net = s.net := rfl
@[simp] theorem State.pulse_dist : (s.pulse n).dist = s.dist := rfl
@[simp] theorem State.pulse_cleats : (s.pulse n).cleats = s.cleats := rfl
@[simp] theorem State.pulse_dram : (s.pulse n).dram = s.dram := rfl
@[simp] theorem State.pulse_slices : (s.pulse n).slices = s.slices := rfl
@[simp] theorem State.pulse_sw : (s.pulse n).sw = s.sw := rfl
@[simp] theorem State.pulse_pcie : (s.pulse n).pcie = s.pcie := rfl
@[simp] theorem State.pulse_low : (s.pulse n).low = s.low := rfl
@[simp] theorem State.pulse_fsi : (s.pulse n).fsi = s.fsi := rfl
@[simp] theorem State.pulse_shr : (s.pulse n).shr = s.shr := rfl
@[simp] theorem State.pulse_fe : (s.pulse n).fe = s.fe := rfl
@[simp] theorem State.pulse_timers : (s.pulse n).timers = s.timers := rfl
@[simp] theorem State.pulse_telltales : (s.pulse n).telltales = s.telltales := rfl
@[simp] theorem State.pulse_jtag : (s.pulse n).jtag = s.jtag := rfl
@[simp] theorem State.pulse_crow : (s.pulse n).crow = s.crow := rfl
@[simp] theorem State.pulse_tick : (s.pulse n).tick = s.tick := rfl
@[simp] theorem State.pulse_errReports : (s.pulse n).errReports = s.errReports := rfl
@[simp] theorem State.pulse_answer : (s.pulse n).answer = s.answer := rfl
@[simp] theorem State.pulse_reports : (s.pulse n).reports = s.reports := rfl
@[simp] theorem State.pulse_telemetry : (s.pulse n).telemetry = s.telemetry := rfl
@[simp] theorem State.pulse_remoteInv : (s.pulse n).remoteInv = s.remoteInv := rfl
@[simp] theorem State.pulse_mramQ : (s.pulse n).mramQ = s.mramQ := rfl
@[simp] theorem State.pulse_mramNext : (s.pulse n).mramNext = s.mramNext := rfl
@[simp] theorem State.pulse_probes : (s.pulse n).probes = s.probes := rfl
end

section
variable (s : State) (r : Report)
@[simp] theorem State.report_pending : (s.report r).pending = s.pending := rfl
@[simp] theorem State.report_free : (s.report r).free = s.free := rfl
@[simp] theorem State.report_part : (s.report r).part = s.part := rfl
@[simp] theorem State.report_mode : (s.report r).mode = s.mode := rfl
@[simp] theorem State.report_time : (s.report r).time = s.time := rfl
@[simp] theorem State.report_pdOn : (s.report r).pdOn = s.pdOn := rfl
@[simp] theorem State.report_pdMoving : (s.report r).pdMoving = s.pdMoving := rfl
@[simp] theorem State.report_mem : (s.report r).mem = s.mem := rfl
@[simp] theorem State.report_poisoned : (s.report r).poisoned = s.poisoned := rfl
@[simp] theorem State.report_regs : (s.report r).regs = s.regs := rfl
@[simp] theorem State.report_cores : (s.report r).cores = s.cores := rfl
@[simp] theorem State.report_quads : (s.report r).quads = s.quads := rfl
@[simp] theorem State.report_homes : (s.report r).homes = s.homes := rfl
@[simp] theorem State.report_net : (s.report r).net = s.net := rfl
@[simp] theorem State.report_dist : (s.report r).dist = s.dist := rfl
@[simp] theorem State.report_cleats : (s.report r).cleats = s.cleats := rfl
@[simp] theorem State.report_dram : (s.report r).dram = s.dram := rfl
@[simp] theorem State.report_slices : (s.report r).slices = s.slices := rfl
@[simp] theorem State.report_sw : (s.report r).sw = s.sw := rfl
@[simp] theorem State.report_pcie : (s.report r).pcie = s.pcie := rfl
@[simp] theorem State.report_low : (s.report r).low = s.low := rfl
@[simp] theorem State.report_fsi : (s.report r).fsi = s.fsi := rfl
@[simp] theorem State.report_shr : (s.report r).shr = s.shr := rfl
@[simp] theorem State.report_fe : (s.report r).fe = s.fe := rfl
@[simp] theorem State.report_timers : (s.report r).timers = s.timers := rfl
@[simp] theorem State.report_telltales : (s.report r).telltales = s.telltales := rfl
@[simp] theorem State.report_jtag : (s.report r).jtag = s.jtag := rfl
@[simp] theorem State.report_crow : (s.report r).crow = s.crow := rfl
@[simp] theorem State.report_tick : (s.report r).tick = s.tick := rfl
@[simp] theorem State.report_pulses : (s.report r).pulses = s.pulses := rfl
@[simp] theorem State.report_errReports : (s.report r).errReports = s.errReports := rfl
@[simp] theorem State.report_answer : (s.report r).answer = s.answer := rfl
@[simp] theorem State.report_telemetry : (s.report r).telemetry = s.telemetry := rfl
@[simp] theorem State.report_remoteInv : (s.report r).remoteInv = s.remoteInv := rfl
@[simp] theorem State.report_mramQ : (s.report r).mramQ = s.mramQ := rfl
@[simp] theorem State.report_mramNext : (s.report r).mramNext = s.mramNext := rfl
@[simp] theorem State.report_probes : (s.report r).probes = s.probes := rfl
end

section
variable (k : Core) (r : Reg) (i : List Nat) (v : Word)
@[simp] theorem Core.setReg_run : (k.setReg r i v).run = k.run := rfl
@[simp] theorem Core.setReg_g : (k.setReg r i v).g = k.g := rfl
@[simp] theorem Core.setReg_f : (k.setReg r i v).f = k.f := rfl
@[simp] theorem Core.setReg_pc : (k.setReg r i v).pc = k.pc := rfl
@[simp] theorem Core.setReg_spH : (k.setReg r i v).spH = k.spH := rfl
@[simp] theorem Core.setReg_resv : (k.setReg r i v).resv = k.resv := rfl
@[simp] theorem Core.setReg_hold : (k.setReg r i v).hold = k.hold := rfl
@[simp] theorem Core.setReg_rstack : (k.setReg r i v).rstack = k.rstack := rfl
@[simp] theorem Core.setReg_sb : (k.setReg r i v).sb = k.sb := rfl
@[simp] theorem Core.setReg_devOut : (k.setReg r i v).devOut = k.devOut := rfl
@[simp] theorem Core.setReg_ucwSent : (k.setReg r i v).ucwSent = k.ucwSent := rfl
@[simp] theorem Core.setReg_frame : (k.setReg r i v).frame = k.frame := rfl
@[simp] theorem Core.setReg_long : (k.setReg r i v).long = k.long := rfl
@[simp] theorem Core.setReg_devLoad : (k.setReg r i v).devLoad = k.devLoad := rfl
@[simp] theorem Core.setReg_stepDue : (k.setReg r i v).stepDue = k.stepDue := rfl
@[simp] theorem Core.setReg_stepFrames : (k.setReg r i v).stepFrames = k.stepFrames := rfl
@[simp] theorem Core.setReg_inWfi : (k.setReg r i v).inWfi = k.inWfi := rfl
@[simp] theorem Core.setReg_mcheck : (k.setReg r i v).mcheck = k.mcheck := rfl
@[simp] theorem Core.setReg_haltReq : (k.setReg r i v).haltReq = k.haltReq := rfl
@[simp] theorem Core.setReg_l1i : (k.setReg r i v).l1i = k.l1i := rfl
@[simp] theorem Core.setReg_l1d : (k.setReg r i v).l1d = k.l1d := rfl
@[simp] theorem Core.setReg_slb : (k.setReg r i v).slb = k.slb := rfl
@[simp] theorem Core.setReg_itlb : (k.setReg r i v).itlb = k.itlb := rfl
@[simp] theorem Core.setReg_dtlb : (k.setReg r i v).dtlb = k.dtlb := rfl
@[simp] theorem Core.setReg_l2tlb : (k.setReg r i v).l2tlb = k.l2tlb := rfl
@[simp] theorem Core.setReg_wc : (k.setReg r i v).wc = k.wc := rfl
@[simp] theorem Core.setReg_slbSeed : (k.setReg r i v).slbSeed = k.slbSeed := rfl
@[simp] theorem Core.setReg_itlbSeed : (k.setReg r i v).itlbSeed = k.itlbSeed := rfl
@[simp] theorem Core.setReg_dtlbSeed : (k.setReg r i v).dtlbSeed = k.dtlbSeed := rfl
@[simp] theorem Core.setReg_l2tlbSeed : (k.setReg r i v).l2tlbSeed = k.l2tlbSeed := rfl
@[simp] theorem Core.setReg_wcSeed : (k.setReg r i v).wcSeed = k.wcSeed := rfl
@[simp] theorem Core.setReg_mramOpen : (k.setReg r i v).mramOpen = k.mramOpen := rfl
@[simp] theorem Core.setReg_offer : (k.setReg r i v).offer = k.offer := rfl
@[simp] theorem Core.setReg_voffer : (k.setReg r i v).voffer = k.voffer := rfl
@[simp] theorem Core.setReg_armed0 : (k.setReg r i v).armed0 = k.armed0 := rfl
@[simp] theorem Core.setReg_armed1 : (k.setReg r i v).armed1 = k.armed1 := rfl
@[simp] theorem Core.setReg_trace : (k.setReg r i v).trace = k.trace := rfl
end

section
variable (k : Core) (r : Reg) (i : List Nat) (f : Fld) (v : Nat)
@[simp] theorem Core.setFld_run : (k.setFld r i f v).run = k.run := rfl
@[simp] theorem Core.setFld_g : (k.setFld r i f v).g = k.g := rfl
@[simp] theorem Core.setFld_f : (k.setFld r i f v).f = k.f := rfl
@[simp] theorem Core.setFld_pc : (k.setFld r i f v).pc = k.pc := rfl
@[simp] theorem Core.setFld_spH : (k.setFld r i f v).spH = k.spH := rfl
@[simp] theorem Core.setFld_resv : (k.setFld r i f v).resv = k.resv := rfl
@[simp] theorem Core.setFld_hold : (k.setFld r i f v).hold = k.hold := rfl
@[simp] theorem Core.setFld_rstack : (k.setFld r i f v).rstack = k.rstack := rfl
@[simp] theorem Core.setFld_sb : (k.setFld r i f v).sb = k.sb := rfl
@[simp] theorem Core.setFld_devOut : (k.setFld r i f v).devOut = k.devOut := rfl
@[simp] theorem Core.setFld_ucwSent : (k.setFld r i f v).ucwSent = k.ucwSent := rfl
@[simp] theorem Core.setFld_frame : (k.setFld r i f v).frame = k.frame := rfl
@[simp] theorem Core.setFld_long : (k.setFld r i f v).long = k.long := rfl
@[simp] theorem Core.setFld_devLoad : (k.setFld r i f v).devLoad = k.devLoad := rfl
@[simp] theorem Core.setFld_stepDue : (k.setFld r i f v).stepDue = k.stepDue := rfl
@[simp] theorem Core.setFld_stepFrames : (k.setFld r i f v).stepFrames = k.stepFrames := rfl
@[simp] theorem Core.setFld_inWfi : (k.setFld r i f v).inWfi = k.inWfi := rfl
@[simp] theorem Core.setFld_mcheck : (k.setFld r i f v).mcheck = k.mcheck := rfl
@[simp] theorem Core.setFld_haltReq : (k.setFld r i f v).haltReq = k.haltReq := rfl
@[simp] theorem Core.setFld_l1i : (k.setFld r i f v).l1i = k.l1i := rfl
@[simp] theorem Core.setFld_l1d : (k.setFld r i f v).l1d = k.l1d := rfl
@[simp] theorem Core.setFld_slb : (k.setFld r i f v).slb = k.slb := rfl
@[simp] theorem Core.setFld_itlb : (k.setFld r i f v).itlb = k.itlb := rfl
@[simp] theorem Core.setFld_dtlb : (k.setFld r i f v).dtlb = k.dtlb := rfl
@[simp] theorem Core.setFld_l2tlb : (k.setFld r i f v).l2tlb = k.l2tlb := rfl
@[simp] theorem Core.setFld_wc : (k.setFld r i f v).wc = k.wc := rfl
@[simp] theorem Core.setFld_slbSeed : (k.setFld r i f v).slbSeed = k.slbSeed := rfl
@[simp] theorem Core.setFld_itlbSeed : (k.setFld r i f v).itlbSeed = k.itlbSeed := rfl
@[simp] theorem Core.setFld_dtlbSeed : (k.setFld r i f v).dtlbSeed = k.dtlbSeed := rfl
@[simp] theorem Core.setFld_l2tlbSeed : (k.setFld r i f v).l2tlbSeed = k.l2tlbSeed := rfl
@[simp] theorem Core.setFld_wcSeed : (k.setFld r i f v).wcSeed = k.wcSeed := rfl
@[simp] theorem Core.setFld_mramOpen : (k.setFld r i f v).mramOpen = k.mramOpen := rfl
@[simp] theorem Core.setFld_offer : (k.setFld r i f v).offer = k.offer := rfl
@[simp] theorem Core.setFld_voffer : (k.setFld r i f v).voffer = k.voffer := rfl
@[simp] theorem Core.setFld_armed0 : (k.setFld r i f v).armed0 = k.armed0 := rfl
@[simp] theorem Core.setFld_armed1 : (k.setFld r i f v).armed1 = k.armed1 := rfl
@[simp] theorem Core.setFld_trace : (k.setFld r i f v).trace = k.trace := rfl
end

end Sys2Proof.Machine
end

