-- ==== Sys2Proof/Laws/Retire.lean ====
section
/-! SUPPORT. What the retirement of an instruction can do, said once (R462, R480, R485, R492). -/

namespace Sys2Proof.Machine

theorem Core.Agrees.refl (k : Core) : Core.Agrees k k := ⟨rfl, .inl rfl, fun _ _ => rfl⟩

theorem Core.Agrees.trans {a b d : Core} (h : Core.Agrees a b) (g : Core.Agrees b d) : Core.Agrees a d := by
  refine ⟨?_, ?_, fun n hn => (g.sys n hn).trans (h.sys n hn)⟩
  · have h1 := g.rest; rw [h.rest] at h1; exact h1
  · rcases h.run with h1 | ⟨h1, h2⟩
    · rw [← h1]; exact g.run
    · rcases g.run with g1 | ⟨g1, -⟩
      · exact .inr ⟨h1, g1.trans h2⟩
      · rw [h2] at g1; cases g1

/-- A write of one of the counting registers. -/
theorem Core.agrees_setReg (k : Core) (r : Reg) (i : List Nat) (v : Word) (h : r.at i ∈ countRegs) : Core.Agrees k (k.setReg r i v) :=
  ⟨rfl, .inl rfl, fun _ hn => SMap.find_set_other _ (fun e => hn (by rw [e]; exact h)) _ _⟩

theorem Core.agrees_setFld (k : Core) (r : Reg) (i : List Nat) (f : Fld) (v : Nat) (h : r.at i ∈ countRegs) :
    Core.Agrees k (k.setFld r i f v) := Core.agrees_setReg _ _ _ _ h

theorem Core.agrees_trace (k : Core) (x : Tracer) : Core.Agrees k { k with trace := x } := ⟨rfl, .inl rfl, fun _ _ => rfl⟩

theorem Core.agrees_pc (k : Core) (v : Word) (b : Bool) : Core.Agrees k { k with pc := v, seqEnd := b } := ⟨rfl, .inl rfl, fun _ _ => rfl⟩

/-- A core in WFI may be woken by an overflow. -/
theorem Core.agrees_ovfWake (k : Core) : Core.Agrees k k.ovfWake := by
  unfold Core.ovfWake; split
  · rename_i h; exact ⟨rfl, .inr ⟨h.1, rfl⟩, fun _ _ => rfl⟩
  · exact .refl _

theorem Core.agrees_foldl {α : Type} (g : Core → α → Core) (l : List α) (k : Core)
    (h : ∀ k, ∀ a ∈ l, Core.Agrees k (g k a)) : Core.Agrees k (l.foldl g k) := by
  induction l generalizing k with
  | nil => exact .refl _
  | cons a l ih => exact (h k a (by simp)).trans (ih _ fun k b hb => h k b (by simp [hb]))

theorem OnCore.refl (c : CoreId) (s : State) : OnCore c s s := ⟨rfl, fun _ _ => rfl, .refl _, rfl, rfl⟩

theorem OnCore.trans {c : CoreId} {s t u : State} (h : OnCore c s t) (g : OnCore c t u) : OnCore c s u := by
  refine ⟨?_, fun d hd => (g.others d hd).trans (h.others d hd), h.core.trans g.core, g.pc.trans h.pc, g.seqEnd.trans h.seqEnd⟩
  have h1 := g.frame; rw [h.frame] at h1; exact h1

theorem OnCore.upd (c : CoreId) (s : State) (f : Core → Core) (h : Core.Agrees (s.core c) (f (s.core c)))
    (hp : (f (s.core c)).pc = (s.core c).pc) (hq : (f (s.core c)).seqEnd = (s.core c).seqEnd) : OnCore c s (s.updCore c f) :=
  ⟨rfl, fun _ hd => State.core_setCore_other _ hd _, by simpa using h, by simpa using hp, by simpa using hq⟩

theorem OnCore.ite {c : CoreId} {P : Prop} [Decidable P] {s a b : State} (ha : OnCore c s a) (hb : OnCore c s b) :
    OnCore c s (if P then a else b) := by split <;> assumption

/-! ### Cores that agree -/

theorem Core.Agrees.reg {k k' : Core} (h : Core.Agrees k k') (r : Reg) (i : List Nat) (hr : r.at i ∉ countRegs) : k'.reg r i = k.reg r i := by
  unfold Core.reg; rw [h.sys _ hr]

theorem SMap.find_set {α : Type} [DecidableEq α] (d : α) (m : SMap α) (k j : Nat) (v : α) :
    SMap.find j (SMap.set d m k v) = if j = k then (if v = d then none else some v) else SMap.find j m := by
  by_cases h : j = k
  · subst h; unfold SMap.set; by_cases hv : v = d <;> simp [hv]
  · rw [SMap.find_set_other d h, if_neg h]

theorem Core.Agrees.setReg {k k' : Core} (h : Core.Agrees k k') (r : Reg) (i : List Nat) (v : Word) :
    Core.Agrees (k.setReg r i v) (k'.setReg r i v) := by
  refine ⟨?_, h.run, fun n hn => ?_⟩
  · have h1 := h.rest; unfold Core.setReg; rw [h1]
  · show SMap.find n (SMap.set _ _ _ _) = SMap.find n (SMap.set _ _ _ _)
    rw [SMap.find_set, SMap.find_set, h.sys n hn]

theorem status_not_count : Reg.STATUS.at [] ∉ countRegs := by decide
theorem fpctl_not_count : Reg.FPCTL.at [] ∉ countRegs := by decide
theorem fpflags_not_count : Reg.FPFLAGS.at [] ∉ countRegs := by decide

theorem Core.Agrees.level {k k' : Core} (h : Core.Agrees k k') : k'.level = k.level := by
  unfold Core.level Core.fld; rw [h.reg _ _ status_not_count]

theorem Core.Agrees.readF {k k' : Core} (h : Core.Agrees k k') (r : Fin 32) : k'.readF r = k.readF r := by
  unfold Core.readF; rw [h.rest]

theorem Core.Agrees.sp {k k' : Core} (h : Core.Agrees k k') (l : Level) : k'.sp l = k.sp l := by
  cases l with
  | u => exact h.reg _ _ (by decide)
  | k => exact h.reg _ _ (by decide)
  | h => show k'.spH = k.spH; rw [h.rest]

theorem Core.Agrees.readG {k k' : Core} (h : Core.Agrees k k') (r : Fin 32) : k'.readG r = k.readG r := by
  unfold Core.readG; rw [h.sp, h.level]
  have : k'.g = k.g := by rw [h.rest]
  rw [this]

theorem Core.Agrees.writeF {k k' : Core} (h : Core.Agrees k k') (r : Fin 32) (v : Word) : Core.Agrees (k.writeF r v) (k'.writeF r v) := by
  refine ⟨?_, h.run, h.sys⟩
  have h1 := h.rest; unfold Core.writeF; rw [h1]

theorem Core.Agrees.writeG {k k' : Core} (h : Core.Agrees k k') (r : Fin 32) (v : Word) : Core.Agrees (k.writeG r v) (k'.writeG r v) := by
  unfold Core.writeG; rw [h.level]
  split
  · exact h
  · split
    · unfold Core.setSp; split
      · exact h.setReg _ _ _
      · exact h.setReg _ _ _
      · refine ⟨?_, h.run, h.sys⟩; have h1 := h.rest; rw [h1]
    · refine ⟨?_, h.run, h.sys⟩; have h1 := h.rest; rw [h1]

theorem Core.Agrees.setFlags {k k' : Core} (h : Core.Agrees k k') (f : FFlags) : Core.Agrees (k.setFlags f) (k'.setFlags f) := by
  unfold Core.setFlags; rw [h.reg _ _ fpflags_not_count]; exact h.setReg _ _ _

/-- An effect on the core after what only counts: it ends as the effect alone does. -/
theorem Ends.after {c : CoreId} {u v t : State} {f : Core → Core} {npc : Word} {b : Bool}
    (h : OnCore c u v) (hf : Core.Agrees (f (u.core c)) (f (v.core c))) (e : Ends (v.updCore c f) t c (f (v.core c)) npc b) :
    Ends u t c (f (u.core c)) npc b := by
  refine ⟨?_, fun d hd => (e.others d hd).trans ((State.core_setCore_other _ hd _).trans (h.others d hd)), e.pc, e.seqEnd,
    hf.trans e.core⟩
  have h1 := e.frame
  have h2 : v.updCore c f = { u with cores := (v.updCore c f).cores } := by
    conv => lhs; unfold State.updCore State.setCore
    rw [h.frame]; rfl
  rw [h2] at h1; exact h1

/-! ### Events -/

theorem Core.addCounter_pc (k : Core) (n v : Nat) : (k.addCounter n v).pc = k.pc := by
  unfold Core.addCounter; dsimp only; split <;> rfl

theorem Core.addCounter_seqEnd (k : Core) (n v : Nat) : (k.addCounter n v).seqEnd = k.seqEnd := by
  unfold Core.addCounter; dsimp only; split <;> rfl

theorem Core.ovfWake_pc (k : Core) : k.ovfWake.pc = k.pc := by unfold Core.ovfWake; split <;> rfl

theorem Core.ovfWake_seqEnd (k : Core) : k.ovfWake.seqEnd = k.seqEnd := by unfold Core.ovfWake; split <;> rfl

theorem Core.agrees_addCounter (k : Core) (n v : Nat) (hn : n < 8) : Core.Agrees k (k.addCounter n v) := by
  have h1 : Reg.EVCNT.at [n] ∈ countRegs := by
    unfold countRegs; exact List.mem_append_left _ (List.mem_map.mpr ⟨n, List.mem_range.mpr hn, rfl⟩)
  have h2 : Reg.EV_OVF.at [] ∈ countRegs := by unfold countRegs; exact List.mem_append_right _ (by simp)
  unfold Core.addCounter; dsimp only; split
  · exact Core.agrees_setReg _ _ _ _ h1
  · exact (Core.agrees_setReg _ _ _ _ h1).trans (Core.agrees_setReg _ _ _ _ h2)

theorem foldl_keeps {α β γ : Type} (p : β → γ) (g : β → α → β) (l : List α) (b : β) (h : ∀ b a, p (g b a) = p b) :
    p (l.foldl g b) = p b := by
  induction l generalizing b with
  | nil => rfl
  | cons a l ih => simp only [List.foldl_cons, ih, h]

theorem Core.countEvent_pc (k : Core) (l : Level) (e v : Nat) : (k.countEvent l e v).pc = k.pc := by
  unfold Core.countEvent; dsimp only
  rw [foldl_keeps Core.pc _ _ _ (fun k n => by split; exact Core.addCounter_pc _ _ _; rfl)]
  split <;> rfl

theorem Core.countEvent_seqEnd (k : Core) (l : Level) (e v : Nat) : (k.countEvent l e v).seqEnd = k.seqEnd := by
  unfold Core.countEvent; dsimp only
  rw [foldl_keeps Core.seqEnd _ _ _ (fun k n => by split; exact Core.addCounter_seqEnd _ _ _; rfl)]
  split <;> rfl

theorem Core.agrees_countEvent (k : Core) (l : Level) (e v : Nat) : Core.Agrees k (k.countEvent l e v) := by
  unfold Core.countEvent; dsimp only
  refine Core.Agrees.trans ?_ (Core.agrees_foldl _ _ _ fun k n hn => ?_)
  · split
    · exact .refl _
    · exact Core.agrees_trace _ _
  · split
    · exact Core.agrees_addCounter _ _ _ (List.mem_range.mp hn)
    · exact .refl _

theorem OnCore.event (c : CoreId) (s : State) (e v : Nat) : OnCore c s (s.event c e v) :=
  OnCore.upd _ _ _ ((Core.agrees_countEvent _ _ _ _).trans (Core.agrees_ovfWake _))
    ((Core.ovfWake_pc _).trans (Core.countEvent_pc _ _ _ _)) ((Core.ovfWake_seqEnd _).trans (Core.countEvent_seqEnd _ _ _ _))

/-! ### The trace encoder -/

theorem trcStat_count : Reg.TRC_STAT.at [] ∈ countRegs := by unfold countRegs; exact List.mem_append_right _ (by simp)
theorem tseqState_count : Reg.TSEQ_STATE.at [] ∈ countRegs := by unfold countRegs; exact List.mem_append_right _ (by simp)

theorem OnCore.trace (c : CoreId) (s : State) (f : Tracer → Tracer) : OnCore c s (s.updTrace c f) :=
  OnCore.upd _ _ _ (Core.agrees_trace _ _) rfl rfl

theorem OnCore.tracePre (c : CoreId) (s : State) : OnCore c s (s.tracePre c).2 := by
  have h : ∀ v, OnCore c s (s.updCore c fun k => k.setFld .TRC_STAT [] .TRC_STAT_EXCL v) := fun v =>
    OnCore.upd _ _ _ (Core.agrees_setFld _ _ _ _ _ trcStat_count) rfl rfl
  unfold State.tracePre; dsimp only
  split
  · split
    · refine OnCore.trans (h 1) ?_
      dsimp only
      exact OnCore.trace _ _ _
    · exact h 1
  · split
    · exact h 0
    · refine OnCore.trans (h 0) ?_
      dsimp only
      exact OnCore.trace _ _ _

theorem OnCore.seqEval (c : CoreId) (s : State) (h : BitVec 8) : OnCore c s (s.seqEval c h) := by
  have hs : ∀ v, OnCore c s (s.updCore c fun k => k.setFld .TSEQ_STATE [] .TSEQ_STATE_STATE v) := fun v =>
    OnCore.upd _ _ _ (Core.agrees_setFld _ _ _ _ _ tseqState_count) rfl rfl
  unfold State.seqEval; dsimp only
  split
  · exact .refl _ _
  · rename_i j hj
    refine OnCore.trans (hs (bits ((s.core c).reg .TSEQ_TRANS [bits ((s.core c).reg .TSEQ_STATE) .TSEQ_STATE_STATE, j]) .TSEQ_TRANS_NEXT)) ?_
    repeat' (first | exact OnCore.refl _ _ | exact OnCore.trace _ _ _ | split | exact (OnCore.trace _ _ _).trans (OnCore.trace _ _ _))

theorem OnCore.traceRetire (c : CoreId) (s : State) (pc : Word) : OnCore c s (s.traceRetire c pc) := by
  unfold State.traceRetire
  split
  · exact (OnCore.tracePre _ _).trans (OnCore.trace _ _ _)
  · exact (OnCore.tracePre _ _).trans ((OnCore.trace _ _ _).trans (OnCore.seqEval _ _ _))

/-! ### Retirement -/

theorem Core.Agrees.haltReq {a b : Core} (h : Core.Agrees a b) : b.haltReq = a.haltReq := by rw [h.rest]

theorem State.haltCheck_none (s : State) (c : CoreId) (h : (s.core c).haltReq = false) : s.haltCheck c = s := by
  unfold State.haltCheck; simp [h]

theorem OnCore.ends {s t : State} {c : CoreId} {npc : Word} {b : Bool}
    (h : OnCore c (s.updCore c fun k => { k with pc := npc, seqEnd := b }) t) : Ends s t c (s.core c) npc b := by
  have ha : (s.updCore c fun k => { k with pc := npc, seqEnd := b }).core c = { s.core c with pc := npc, seqEnd := b } :=
    State.core_updCore _ _ _
  refine ⟨h.frame, fun d hd => (h.others d hd).trans (State.core_setCore_other _ hd _), ?_, ?_, ?_⟩
  · rw [h.pc, ha]
  · rw [h.seqEnd, ha]
  · exact (Core.agrees_pc _ npc b).trans (ha ▸ h.core)

theorem OnCore.retire (s : State) (c : CoreId) (pc : Word) : OnCore c s ((s.event c evRetired).traceRetire c pc) :=
  (OnCore.event _ _ _ _).trans (OnCore.traceRetire _ _ _)

/-- An instruction that is not single-stepped and meets no debug halt retires: its core goes on at the new PC, with
every register its effect left but the event counters and the trace encoder. -/
theorem retire_ends (s : State) (c : CoreId) (pc npc : Word) (seq : Bool) (h : (s.core c).haltReq = false) :
    Ends s (s.retire c pc npc false seq) c (s.core c) (if (seq && lastPc pc) = true then pc - BitVec.ofNat 64 (2 ^ 48 - 4) else npc)
      (seq && lastPc pc) := by
  have h1 := OnCore.retire (s.updCore c fun k =>
    { k with pc := if (seq && lastPc pc) = true then pc - BitVec.ofNat 64 (2 ^ 48 - 4) else npc, seqEnd := seq && lastPc pc }) c pc
  have hh := h1.core.haltReq
  rw [State.core_updCore] at hh
  unfold State.retire
  dsimp only
  rw [if_neg (by simp), if_neg (by simp), State.haltCheck_none _ _ (hh.trans h)]
  exact h1.ends

/-- What an instruction does that begins in u. -/
theorem runInstr_begun {s u : State} {c : CoreId} {n : Needs} {body : State → Ex} (h : s.begins c n = some u) :
    s.runInstr c n body = match body u with
      | .wait s => s
      | .trap t s' =>
        s'.except c t (if t.cause = 0x10 ∨ t.cause = 0x11 ∨ t.cause = 0x12 then (s.core c).pc + 4 else (s.core c).pc) u
      | .done v npc => v.retire c (s.core c).pc npc false true
      | .jump v npc => v.retire c (s.core c).pc npc false false := by
  unfold State.begins at h
  unfold State.runInstr State.boundary
  dsimp only at h ⊢
  split at h
  · cases h
  · rename_i hc
    simp only [Bool.or_eq_true, not_or, Bool.not_eq_true] at hc
    obtain ⟨⟨⟨⟨⟨⟨h1, h2⟩, h3⟩, h4⟩, h6⟩, h7⟩, h5⟩ := hc
    rw [if_neg (by simp [h1, h2]), if_neg (by simp [h3]), if_neg (by simp [h4]), if_neg (by simp [h6]), if_neg (by simp [h7])]
    rcases hv : s.loadHeld c with ⟨_ | _, v⟩
    · rcases hw : v.fetch c with ⟨a, w⟩
      cases a with
      | ok =>
        rcases hx : w.longClear c n with ⟨_ | _, x⟩
        · simp [hv, hw, hx] at h
        · rcases hy : x.residues c n.units with ⟨_ | _, y⟩
          · simp [hv, hw, hx, hy] at h
          · simp only [hv, hw, hx, hy] at h ⊢
            split at h
            · cases h
            · cases h; rw [h5] <;> rfl
      | trap t => simp [hv, hw] at h
      | wait => simp [hv, hw] at h
    · simp [hv] at h

/-- An instruction that begins in u and whose effect there ends in u' ends the step: it retires. hp: nothing before its effect
moved the PC. -/
theorem runInstr_begins {s u u' : State} {c : CoreId} {n : Needs} {body : State → Ex}
    (h : s.begins c n = some u) (hp : (s.core c).pc = (u.core c).pc) (hb : body u = .done u' ((u.core c).pc + 4))
    (hh : (u'.core c).haltReq = false) : GoesOn u' (s.runInstr c n body) c (u'.core c) (u.core c).pc := by
  rw [runInstr_begun h, hb]
  have h1 := retire_ends u' c (u.core c).pc ((u.core c).pc + 4) true hh
  rw [Bool.true_and] at h1
  unfold GoesOn seqNext; rw [hp]; exact h1

/-- An instruction that begins in u and jumps. -/
theorem runInstr_jump {s u u' : State} {c : CoreId} {n : Needs} {body : State → Ex} {npc : Word}
    (h : s.begins c n = some u) (hb : body u = .jump u' npc) (hh : (u'.core c).haltReq = false) :
    Ends u' (s.runInstr c n body) c (u'.core c) npc := by
  rw [runInstr_begun h, hb]
  have h1 := retire_ends u' c (s.core c).pc npc false hh
  simpa using h1

/-- The core of a begun instruction has no debug halt waiting. -/
theorem begins_haltReq {s u : State} {c : CoreId} {n : Needs} (h : s.begins c n = some u) : (u.core c).haltReq = false := by
  unfold State.begins at h
  dsimp only at h
  repeat' (first | (cases h; done) | split at h)
  rename_i hn; cases h; simpa using hn

theorem Core.writeG_haltReq (k : Core) (r : Fin 32) (v : Word) : (k.writeG r v).haltReq = k.haltReq := by
  unfold Core.writeG Core.setSp; split
  · rfl
  · split
    · split <;> rfl
    · rfl

/-- What only updates the core counts as part of the effect. -/
theorem Ends.of_upd {u t : State} {c : CoreId} {f : Core → Core} {k : Core} {npc : Word} {b : Bool}
    (h : Ends (u.updCore c f) t c k npc b) : Ends u t c k npc b :=
  ⟨h.frame, fun d hd => (h.others d hd).trans (State.core_setCore_other _ hd _), h.pc, h.seqEnd, h.core⟩

/-- An instruction whose effect is an update of its core. -/
theorem runInstr_upd {s u : State} {c : CoreId} {n : Needs} {body : State → Ex} {f : Core → Core}
    (h : s.begins c n = some u) (hp : (s.core c).pc = (u.core c).pc) (hb : body u = .done (u.updCore c f) ((u.core c).pc + 4))
    (hh : (f (u.core c)).haltReq = (u.core c).haltReq) :
    GoesOn u (s.runInstr c n body) c (f (u.core c)) (u.core c).pc := by
  have h1 := runInstr_begins h hp hb (by rw [State.core_updCore, hh]; exact begins_haltReq h)
  rw [State.core_updCore] at h1
  exact Ends.of_upd h1

/-- An instruction whose effect is a write of a G register. -/
theorem runInstr_doneG {s u : State} {c : CoreId} {n : Needs} {body : State → Ex} {rd : Fin 32} {v : Word}
    (h : s.begins c n = some u) (hp : (s.core c).pc = (u.core c).pc) (hb : body u = u.doneG c rd v) :
    GoesOn u (s.runInstr c n body) c ((u.core c).writeG rd v) (u.core c).pc :=
  runInstr_upd (f := fun k => k.writeG rd v) h hp hb (Core.writeG_haltReq _ _ _)

/-- An instruction whose effect is a write of an F register. -/
theorem runInstr_doneF {s u : State} {c : CoreId} {n : Needs} {body : State → Ex} {fd : Fin 32} {v : Word}
    (h : s.begins c n = some u) (hp : (s.core c).pc = (u.core c).pc) (hb : body u = u.doneF c fd v) :
    GoesOn u (s.runInstr c n body) c ((u.core c).writeF fd v) (u.core c).pc :=
  runInstr_upd (f := fun k => k.writeF fd v) h hp hb rfl

/-- An instruction with no effect but its own retirement. -/
theorem runInstr_nop {s u : State} {c : CoreId} {n : Needs} {body : State → Ex}
    (h : s.begins c n = some u) (hp : (s.core c).pc = (u.core c).pc) (hb : body u = .done u ((u.core c).pc + 4)) :
    GoesOn u (s.runInstr c n body) c (u.core c) (u.core c).pc :=
  runInstr_begins h hp hb (begins_haltReq h)

theorem completes_ok {i : Instr} {s t : State} {P : State → Prop} (e : exec i s = ok t) (h : P t) : Completes i s P := ⟨t, e, h⟩

end Sys2Proof.Machine
end

