-- ==== Sys2Proof/Tests/Slice0.lean ====
section
/-! SUPPORT. Tests: ill-formed commands, small results worked out from the rules, and for every statement with hypotheses a
state that meets them. Expected values come from the rules cited, not from the model. -/

open Sys2Proof.Machine

namespace Sys2Proof.Tests

set_option maxRecDepth 8000
set_option Elab.async false

/-! ### Small states -/

/-- An L1 that owns both sectors of the blocks of the sectors listed, each with a pattern. -/
def owned (l : List Nat) : Cache :=
  let sec : Sec := { st := .e, dv := true, data := 0x1122334455667788 }
  { frames := l.foldl (fun m n => SMap.insert (frameNo (CacheKind.l1.set n) 0) (some { block := n / 2, secs := [(0, sec), (1, sec)] }) m) [],
    ready := true }

def page (va : Nat) (mt : MType) : TlbEntry :=
  { hstage := false, vmid := 0, asid := 0, g := true, va := va, lg := 12, pa := va, gpa := va, ua := false, x := true, w := true, r := true,
    hx := true, hw := true, hr := true, mto := true, mt := mt, hmt := .normal, d := true, hd := true }

/-- A core at H about to run an instruction at 0x1000, with a data page at 0x2000. -/
def runs : Core :=
  { run := .running, pc := 0x1000, g := [(1, 0x2000), (2, 5)], spH := 0x2800,
    slb := [(0, some { vmid := 0, asid := 0, seg := 0, d := { base := 0, limit := 0xFFFFF, ua := false, x := true, w := true, r := true, psc := 0, mt := .normal, g := true } })]
    itlb := [(0, some (page 0x1000 .normal))], dtlb := [(0, some (page 0x2000 .normal))], l1i := owned [0x40], l1d := owned [0x80, 0x82] }

/-- Every domain on, the L2s and L3s invalidated, in M4, with Fetas up. -/
def up : State :=
  ({ State.reset with
     pdOn := List.range 107, mode := .m4, crow := { waitGood := false, good := true },
     quads := (List.range 16).map fun q => (q, { l2 := { ready := true } }),
     homes := (List.range 8).map fun h => (h, { l3 := { ready := true } }) } : State).setReg .FSI_STATUS [] 1

def withCore (k : Core) : State := up.setCore 0 k

/-- The bus takes an access of a requester to a register. -/
def reachIn (s : State) (w : Who) (r : Reg) (idx : List Nat) : Bool :=
  (match s.rangeOf (r.at idx) with | .unit => true | _ => false) &&
  match s.locate w (r.at idx) with
  | .ok (.reg q i 0) => q == r && i == idx
  | _ => false

def reach (w : Who) (r : Reg) (idx : List Nat) : Bool := reachIn up w r idx

/-! ### Core statements -/

theorem witness_IntegerResults : ((withCore runs).begins 0 { g := [3, 1, 2], units := [0] }).isSome = true := by decide +kernel

theorem witness_LongOperations : ((withCore runs).begins 0 { g := [3, 1, 2], all := true }).isSome = true ∧
    (let k : Core := { runs with long := some { fp := false, fn := 8, rd := 3, result := 7, flags := 0x20, pc := 0x1000 } }
     k.long.isSome = true ∧ k.fld .RES_CTL .RES_CTL_INJ ≠ 3 ∧ flag (k.reg .FPCTL) .FPCTL_IDZE = false) := by decide +kernel

theorem witness_RegisterFile : (5 : RegNo) ≠ 0 ∧ (6 : RegNo) ≠ 5 ∧ runs.level = .h ∧ Level.u ≠ runs.level := by decide +kernel

theorem witness_FloatResults : runs.rmode 0 = some .even ∧
    (∀ p ∈ fpRounded 0 3 1 2 0 .even runs, p.v.2 &&& runs.fpEnables = 0 ∧ ((withCore runs).begins 0 p.needs).isSome = true) ∧
    ∀ p ∈ fpPlain 0 3 1 2 4 runs, p.v.2 &&& runs.fpEnables = 0 ∧ ((withCore runs).begins 0 p.needs).isSome = true := by decide +kernel

/-- The core with invalid-operation traps enabled and a signalling NaN in F1. -/
def nanTrap : Core := ({ runs with f := [(1, 0x7FF0000000000001)] } : Core).setReg .FPCTL [] 0x100

theorem witness_FloatLongResults : ∀ q ∈ fpLongRows 0 3 1 2 0 .even runs, ((withCore runs).begins 0 q.2.needs).isSome = true ∧
    runs.fpEnables &&& q.2.can = 0 ∧
    (((withCore (runs.setReg .FPCTL [] 0x100)).begins 0 q.2.needs).isSome = true ∧ (runs.setReg .FPCTL [] 0x100).fpEnables &&& q.2.can ≠ 0) := by
  decide +kernel

theorem witness_FloatTrap : (fpRounded 0 3 1 2 0 .even nanTrap).any (fun p => p.v.2 &&& nanTrap.fpEnables &&& p.can != 0 &&
    ((withCore nanTrap).begins 0 p.needs).isSome) = true ∧ nanTrap.irqReady = false ∧
    (let k : Core := ({ runs with offer := some { src := 5, pri := 3, vmid := 0 } } : Core).setReg .STATUS [] 0x12
     k.ready = true ∧ (withCore k).traceStalled 0 = false ∧ k.mcheck = false ∧ k.owed = none ∧ k.irqReady = true ∧ k.long = none) := by decide +kernel

theorem witness_ControlTransfers : ((withCore runs).begins 0 { g := [1, 2] }).isSome = true ∧ ((withCore runs).begins 0 { g := [26] }).isSome = true ∧
    ((withCore runs).begins 0 { g := [3, 1], units := [0] }).isSome = true ∧ runs.guess true 5 = true ∧ runs.guess false 5 = false ∧
    flag (runs.reg .PRED_CTL) .PRED_CTL_BARRED = false ∧ ({ runs with rstack := [0x2000] } : Core).rstack.head? = some 0x2000 := by decide +kernel

theorem witness_PredictionAndPrefetch : ((withCore runs).begins 0 {}).isSome = true ∧ ((withCore runs).begins 0 { all := true }).isSome = true ∧
    ((withCore runs).begins 0 { g := [1], units := [0] }).isSome = true := by decide +kernel

theorem witness_LoadResults : ((withCore runs).loadAccess 0 .ld 0x2000).map (fun x => x.1) = some 0x1122334455667788 ∧
    flag (runs.reg .PIPE_CTL) .PIPE_CTL_DPF = false := by decide +kernel

theorem witness_StoreResults : let s := withCore { runs with sb := List.replicate 15 { pa := 0x2000, size := 8, data := 1, typ := .normal, lvl := .h, pid := 0, cls := 0 } }
    (match (withCore runs).checkAccess 0 .h 0x2004 4 .store with
     | (.ok [(x, 4)], v) => decide (x.pa = 0x2004) && decide ((v.core 0).frame = []) && decide ((v.core 0).sb.length + 1 ≤ 16)
     | _ => false) = true ∧
    (match s.checkAccess 0 .h 0x203C 8 .store with
     | (.ok [(x, 4), (y, 4)], v) => (v.pushStore 0 [v.storeEntry runs x 4 5, v.storeEntry runs y 4 0]).1
     | _ => false) = true ∧
    (let e : StoreEntry := { pa := 0x203F, size := 1, data := 1, typ := .normal, lvl := .h, pid := 0, cls := 0 }
     e.size ≤ 8 ∧ e.pa % 64 + e.size ≤ 64) := by decide +kernel

theorem witness_LoadReserveStoreConditional :
    (match (withCore runs).atomAddr 0 0x2000 8 .load with
     | (.ok ((t, 8) :: _), v) => (match v.drainBuffers 0 with
          | (true, w) => (match w.atomOwn 0 t.pa false with
            | (.ok, y) => if (y.l1dSec 0 (t.pa / 64)).poison then 0 else secBytes (y.l1dSec 0 (t.pa / 64)).data (t.pa % 64) 8
            | _ => 0)
          | _ => 0)
     | _ => 0) = 0x1122334455667788 ∧
    (let sc (s : State) : Option (GetAns × Bool) := (match s.atomAddr 0 0x2000 8 .store with
       | (.ok ((t, 8) :: _), v) => (match v.drainStores 0 with
          | (true, w) => if (w.core 0).resv = some (t.pa / 64) then some ((w.atomOwn 0 t.pa true).1, decide (((w.atomOwn 0 t.pa true).2.core 0).resv = some (t.pa / 64))) else none
          | _ => none)
       | _ => none)
     let k : Core := { runs with resv := some 0x80 }
     let shared : Sec := { st := .s, dv := true, data := 7 }
     let quad : Quad := { l2 := { frames := [(frameNo (CacheKind.l2.set 0x80) 0, some { block := 0x20, secs := [(0, shared)] })], ready := true } }
     let home : Home := { l3 := { frames := [(frameNo (CacheKind.l3.set 0x80) 0, some { block := 0x20, secs := [(0, { dv := true, data := 7, dir := .s, pres := 1 })] })], ready := true } }
     let k' : Core := { k with l1d := { ready := true, frames := [(frameNo (CacheKind.l1.set 0x80) 0, some { block := 0x40, secs := [(0, shared)] })] } }
     let rival : Msg := { kind := .rfo, quad := 3, toHome := true, sec := 0x80 }
     let t : State := { ((withCore k').setQuad 0 quad).setHome (homeSec 0x80) home with net := [rival] }
     sc (withCore k) = some (.ok, true) ∧ (sc t).map Prod.snd = some false ∧
     (sc { t with pdOn := t.pdOn.erase (83 + homeSec 0x80) }).map Prod.fst = some .err ∧
     (match (withCore runs).atomAddr 0 0x2000 8 .store with | (.ok ((t, 8) :: _), v) => decide (((v.drainStores 0).2.core 0).resv ≠ some (t.pa / 64)) | _ => false) = true) := by
  decide +kernel

theorem witness_AtomicResults : (((withCore runs).atomAccess 0 8 0x2000 .rmw).map fun x => (x.2.1, x.2.2.l1dBytes 0 x.1.pa 8)) = some (.ok, 0x1122334455667788) ∧
    (((withCore runs).atomAccess 0 4 0x2004 .rmw).map fun x => (x.2.1, x.2.2.l1dBytes 0 x.1.pa 4)) = some (.ok, 0x11223344) ∧
    (let off : State := { withCore { runs with l1d := owned [] } with pdOn := up.pdOn.erase (83 + homeSec 0x80) }
     ((off.atomAccess 0 8 0x2000 .rmw).map fun x => x.2.1) = some .err) := by decide +kernel

theorem witness_BarriersComplete : ((withCore runs).drainStores 0).1 = true ∧ ((withCore runs).drainAll 0).1 = true ∧ runs.mramOpen = [] ∧
    (∀ p ∈ (withCore runs).probes, p.who ≠ 0) ∧ runs.sb = [] ∧ runs.devOut = [] ∧
    (let s : State := { withCore runs with probes := [{ who := 0, answered := true }] }
     (s.probes.find? fun p => p.who == 0).any (fun p => p.answered) = true ∧ (s.drainStores 0).1 = true) := by decide +kernel

theorem witness_CacheMaintenance :
    (match translateFor 0 .h 0x2000 .store true false (withCore runs) with
     | (.ok t, v) => (v.pushStore 0 [{ pa := t.pa, size := 64, data := 0, typ := t.mt, lvl := .h, pid := runs.pid .h, cls := runs.cls .h }]).1
     | _ => false) = true ∧
    ((withCore runs).maintAccess 0 .cln .load 0x2000).isSome = true ∧ ((withCore runs).maintAccess 0 .fls .load 0x2000).isSome = true ∧
    ((withCore runs).maintAccess 0 .inv .store 0x2000).isSome = true ∧ ((withCore runs).swAct 0 .flush 0x10000000).isSome = true := by decide +kernel

theorem witness_TranslationInvalidation : ((withCore runs).begins 0 { g := [1, 2] }).isSome = true ∧ invalFlagsOk 0 0x44 = true ∧
    invalFlagsOk 1 0x03 = true ∧ invalFlagsOk 2 0x01 = true ∧ runs.level = .h := by decide +kernel

theorem witness_TranslationInvalidation_k :
    let k : Core := (runs.setReg .STATUS [] 1).setReg .ASID [] 1
    k.level = .k ∧ invalFlagsOk 0 0x11 = true ∧ (0x11#12).getLsbD 4 = true ∧ k.irqReady = false ∧ ((withCore k).begins 0 { g := [1, 2] }).isSome = true ∧
    ((withCore runs).begins 0 { all := true }).isSome = true := by decide +kernel

theorem witness_SystemRegisterAccess : (match sysCheck .h 0x900 with | .ok _ => true | _ => false) = true ∧
    ((withCore runs).begins 0 { g := [1], all := true }).isSome = true := by decide +kernel

/-- A core whose vectors are at 0x2000, where every entry is a valid handler address. -/
def vectored : Core := runs.setReg .VECBASE_H [] 0x2000

theorem witness_TrapEntry : ((withCore vectored).begins 0 { all := true }).isSome = true ∧ decodeWord 0 0 = none ∧
    vectored.long = none ∧ vectored.irqReady = false ∧
    (match (withCore vectored).drainFrame 0 with
     | (true, v) => (match v.checkEntry 0 .h 0x10 with | (.ok pas h, w) => decide (pas.length = 10 ∧ h = 0x1122334455667788 ∧ (w.core 0).level = .h) | _ => false)
     | _ => false) = true := by decide +kernel

theorem witness_TrapReturn :
    let k : Core := { runs with l1d := owned [0xA0, 0xA1], spH := 0x2800 }
    ((withCore k).begins 0 { all := true }).isSome = true ∧ k.level ≠ .u ∧
    (match (withCore k).readFrame 0 .h 0x2800 2 [] with
     | (.ok top, v) => decide (bits (top.getD 1 0) .STATUS_LEVEL ≤ 2) && (match (v.readFrame 0 .h 0x2810 8 []).1 with | .ok gs => gs.length == 8 | _ => false)
     | _ => false) = true := by
  decide +kernel

theorem witness_SingleStep : ((withCore runs).core 0).long = none ∧ ((withCore runs).core 0).owed = none := by decide +kernel

theorem witness_BuffersAndInvalidation :
    let e : StoreEntry := { pa := 0x2000, size := 8, data := 1, typ := .normal, lvl := .h, pid := 0, cls := 0 }
    let un : StoreEntry := { e with typ := .uncached }
    let s := withCore { runs with sb := [e] }
    let fr : List StoreEntry := [e, { e with pa := 0x2008 }]
    let acked : Msg := { kind := .done, quad := 0, toHome := false, sec := 0x80, core := 0 }
    let a : State := { withCore { runs with sb := [un], ucwSent := true } with net := [acked] }
    let off : State := { withCore { runs with sb := [un] } with pdOn := [] }
    let inv : Inval := { op := 0, scope := 0, g := true, s := false, w := false, vmid := 0, asid := 0, addr := 0 }
    (s.core 0).sb = [e] ∧ e.zeroed = false ∧ (s.l1dSec 0 0x80).st = .e ∧ (a.core 0).ucwSent = true ∧ a.homeAnswers 0x80 = true ∧ (∀ y ∈ a.quads, y.2.fills = []) ∧
    (∀ p ∈ a.net, p.samePath acked = true → p.stays = true) ∧
    (a.net.find? fun p => a.moves 0x80 p && a.canArrive p) = none ∧
    (a.net.find? fun p => p.kind == .done && p.quad == 0 && p.core == 0 && p.sec == 0x80) = some acked ∧
    (off.core 0).ucwSent = false ∧ off.homeAnswers 0x80 = false ∧
    (∀ y ∈ fr, y.typ = .normal ∧ y.zeroed = false ∧ y.size = 8 ∧ y.pa % 8 = 0 ∧ (s.l1dSec 0 (y.pa / 64)).st = .e) ∧ (fr.map fun y => y.pa).Nodup ∧
    (let h := withCore { runs with hold := some 0x80 }
     (h.quad 0).fills = [] ∧
     ∀ c ∈ coresOf 0, (h.core c).ifWait ≠ some 0x80 ∧ (h.core c).ldWait ≠ some 0x80 ∧ (h.core c).stWait ≠ some 0x80 ∧ (h.core c).pfWait = []) ∧
    (({ s with remoteInv := [(1, 0, inv)] } : State).remoteInv.find? fun r => r.2.1 == 0) = some (1, 0, inv) ∧
    (up.core 0).l1i.ready = false ∧ (up.core 0).l1d.ready = false ∧ up.pdUp 3 = true ∧
    (({ up with quads := [], homes := [] } : State).quad 0).l2.ready = false ∧ (({ up with quads := [], homes := [] } : State).home 0).l3.ready = false ∧
    up.pdUp 67 = true ∧ up.pdUp 83 = true ∧ State.reset.pdUp 3 = false := by decide +kernel

/-! ### Coherence and memory -/

/-- A home with one sector of data. -/
def homed (n : Nat) : Home :=
  { l3 := { frames := [(frameNo (CacheKind.l3.set n) 0, some { block := n / 4, secs := [(n % 4, { dv := true, data := 0x99 })] })], ready := true } }

def withHome (n : Nat) : State := up.setHome (homeSec n) (homed n)

/-- A home with a sector so, in a frame. -/
def withSec (x : Sec) : State := up.setHome (homeSec 0x40)
  { l3 := { frames := [(frameNo (CacheKind.l3.set 0x40) 0, some { block := 0x10, secs := [(0, x)] })], ready := true } }

def takesNow (s : State) (m : Msg) : Bool :=
  s.mayAsk m && (if m.kind == .cln || m.kind == .inv || m.kind == .fls then s.homeUp m.sec else s.homeAnswers m.sec) &&
  (!(s.dram.reads.contains (m.sec / 4)) || ((s.home (homeSec m.sec)).l3.secD .l3 m.sec).dv) && (s.home (homeSec m.sec)).l3.ready && s.net.all (fun p => !p.samePath m) &&
  (s.home (homeSec m.sec)).trans.isEmpty && (s.home (homeSec m.sec)).waiting.isEmpty && !s.quotaFull (homeSec m.sec) m

def landsNow (s : State) (m : Msg) : Bool :=
  match s.net.find? fun p => m.matches p with
  | some p => s.first p && s.receiverReady p
  | none => false

/-- A quad whose L2 holds sector 0x40 so. -/
def holding (q : Nat) (st : CSt) (s : State) : State :=
  s.setQuad q { l2 := { ready := true, frames := [(frameNo (CacheKind.l2.set 0x40) 0, some { block := 0x10, secs := [(0, { st := st, dv := true, data := 0x77 })] })] } }

theorem witness_CoherenceRequests :
    let m (k : MsgKind) : Msg := { kind := k, quad := 0, toHome := true, sec := 0x40 }
    let l3 : Sec := { dv := true, data := 0x99 }
    let u := withSec l3
    let one := withSec { l3 with dir := .s, pres := bitOf 0 }
    let x := withSec { l3 with dir := .x, owner := 3, pres := bitOf 3 }
    (u.l3Sec 0x40).isSome = true ∧ u.net = [] ∧
    (∀ k ∈ [MsgKind.rd, .rfo, .zreq, .ucr, .ucw, .cln, .inv, .fls], takesNow u (m k) = true) ∧
    (∀ k ∈ [MsgKind.rd, .rfo, .zreq, .ucr, .ucw, .cln, .inv, .fls], takesNow x (m k) = true) ∧
    takesNow (holding 0 .s one) (m .upg) = true ∧ takesNow (holding 0 .o x) (m .upg) = true ∧ takesNow up { m .ucw with quad := 18 } = true ∧
    (((one.home (homeSec 0x40)).l3.secD .l3 0x40).holders.filter fun p => p ≠ 0) = [] ∧ (((x.home (homeSec 0x40)).l3.secD .l3 0x40).holders.filter fun p => p ≠ 0) = [3] ∧
    (up.memRead 0x40).1 = (up.memSec 0x40, false) ∧ up.memUp 0x40 = true ∧ up.mramQ = [] ∧ up.l3Sec 0x40 = none ∧
    (match (up.home (homeSec 0x40)).l3.choose .l3 0x40 (up.classWays (homeSec 0x40) 0) with
     | (some f, _) => ((up.home (homeSec 0x40)).l3.frame f).isNone
     | _ => false) = true ∧
    ((withSec { l3 with dirty := true }).l3Sec 0x40).any (fun y => y.dirty && y.dv) = true := by decide +kernel

theorem witness_CoherencePackets :
    let into (k : MsgKind) : Msg := { kind := k, quad := 3, toHome := false, sec := 0x40 }
    let back (k : MsgKind) : Msg := { kind := k, quad := 3, toHome := true, sec := 0x40 }
    let at' (s : State) (m : Msg) : State := { s with net := [m] }
    let held : Evict := { block := 0x10, secs := [(0, { st := .m, dv := true, data := 5 })], named := [0] }
    let ev := up.setQuad 3 { l2 := { ready := true }, evict := [held] }
    let x : Sec := { dv := true, data := 0x99, dir := .x, owner := 3, pres := bitOf 3 }
    let asked (k : MsgKind) : State := (withSec x).setHome (homeSec 0x40)
      { (withSec x).home (homeSec 0x40) with trans := [{ req := { kind := k, quad := 0, toHome := true, sec := 0x40 }, snoops := [(0, 3)] }] }
    let wb : Trans := { req := { kind := .wbreq, quad := 3, toHome := true, sec := 0x40, dmask := 1 }, wbAwait := [0] }
    (∀ k ∈ [MsgKind.snpS, .snpI, .snpIdiscard, .snpC], landsNow (at' up (into k)) (into k) = true ∧ up.snoopBlocked 3 0x40 = false) ∧
    ((holding 3 .m up).quadData 3 0x40).isSome = true ∧ ((holding 3 .m up).quad 3).evict = [] ∧
    (ev.quad 3).evict.find? (fun e => e.block == 0x10 && (SMap.find 0 e.secs).isSome) = some held ∧ landsNow (at' ev (into .wbgo)) (into .wbgo) = true ∧
    (ev.quad 3).fills = [] ∧ held.live = false ∧ (let e : Evict := { held with live := true, secs := [] }; e.live = true ∧ (∀ i ∈ e.named, i < 4) ∧ e.named.Nodup) ∧
    (let g : Msg := { into .grant with excl := true, dirty := true }
     landsNow (at' (holding 3 .s up) g) g = true ∧ ((holding 3 .s up).quad 3).l2.find .l2 0x40 ≠ none ∧
     ((holding 3 .i up).quad 3).l2.find .l2 0x40 ≠ none ∧ (holding 3 .i up).heldBack 3 0x40 = false ∧ 64 ≤ g.core ∧
     ∀ c ∈ coresOf 3, (up.core c).ifWait = none ∧ (up.core c).ldWait = none ∧ (up.core c).stWait = none ∧ (up.core c).pfWait = []) ∧
    landsNow (at' up (into .done)) (into .done) = true ∧ landsNow (at' up { into .data with quad := 18, data := 7 }) { into .data with quad := 18, data := 7 } = true ∧
    (∀ k ∈ [MsgKind.rd, .rfo, .upg, .zreq, .cln, .inv, .fls], (asked k).l3Sec 0x40 = some x ∧ ((asked k).home (homeSec 0x40)).waiting = [] ∧
      landsNow (at' (asked k) (back .ack)) (back .ack) = true) ∧
    landsNow (at' (asked .rfo) (back .miss)) (back .miss) = true ∧
    (let d : Msg := { back .data with data := 5, dirty := true }; landsNow (at' (asked .rd) d) d = true) ∧
    0 ∈ wb.wbAwait ∧ wb.req.quad = 3 ∧ wb.req.cmask = 0 ∧ landsNow (at' up { back .wbreq with dmask := 1 }) { back .wbreq with dmask := 1 } = true ∧
    landsNow (at' up (back .evc)) (back .evc) = true ∧ (up.home (homeSec 0x40)).trans = [] ∧ (up.home (homeSec 0x40)).waiting = [] := by decide +kernel

/-- A data packet to a unit, and the state after it arrives. -/
def toUnit : Msg := { kind := .data, quad := 16, toHome := false, sec := 5, data := 7 }
def afterPacket (s : State) : State := ({ s with net := [toUnit] } : State).deliver toUnit

theorem afterPacket_next (s : State) : toUnit ∈ ({ s with net := [toUnit] } : State).net ∧
    exec (.sectorData 16 false 5 7 false false { poison := false }) { s with net := [toUnit] } = .next (afterPacket s) := by
  refine ⟨by simp, ?_⟩
  show ok (if ([toUnit] : List Msg).contains toUnit then _ else _) = _
  simp [afterPacket, ok]
  rfl

theorem witness_ArrayErrors :
    (let k : Cache := { retired := [frameNo 63 3] }; (k.choose .l1 (63 * 2) [3, 2]).1 = some (frameNo 63 2)) ∧
    (let e : ArrayErr := { cache := .l1d 63, set := 63, way := 0, sector := 1, found := .dataLost }
     let f := frameNo 63 0
     let s (r : List Nat) : State := up.setCore 63 { runs with l1d := { owned [127] with retired := r } }
     e.ok = true ∧ { e with cache := .l1d 63, way := 4 }.ok = false ∧ (afterPacket (s [])).pdUp e.cache.pd = true ∧
     (((afterPacket (s [])).cache e.cache).frame f).isSome = true ∧ ((afterPacket (s [])).cache e.cache).find .l1 127 = some f ∧
     (((afterPacket (s [])).cache e.cache).secD .l1 127).st ≠ .i ∧ ((afterPacket (s [])).core 63).run ≠ .off ∧
     (afterPacket (s [])).mayRetire e.cache f = true ∧ (afterPacket (s [frameNo 63 1])).mayRetire e.cache f = false) ∧
    (let e : ArrayErr := { cache := .l1i 0, set := 0, way := 0, sector := 0, found := .tagLost }
     let s := up.setCore 0 runs
     e.ok = true ∧ (afterPacket s).pdUp e.cache.pd = true ∧ (((afterPacket s).cache e.cache).frame (frameNo 32 0)).isSome = true) ∧
    (let n := 0x40
     let h := homeSec n
     let e : ArrayErr := { cache := .l3 (Fin.ofNat 8 h), set := Fin.ofNat 1024 (CacheKind.l3.set n), way := 0, sector := 0, found := .dataCorrected }
     let f := frameNo (CacheKind.l3.set n) 0
     let v := afterPacket (withHome n)
     let w := afterPacket ((withHome n).setHome h { homed n with l3 := { (homed n).l3 with retired := (List.range 64).map fun i => frameNo (2 * i + 1) 0 } })
     e.ok = true ∧ v.pdUp e.cache.pd = true ∧ ((v.cache e.cache).secD .l3 n).dv = true ∧ ((v.cache e.cache).frame f).isSome = true ∧
     (v.cache e.cache).suspects = [] ∧ flag (v.reg .L3_ERR_STATUS [h]) .L3_ERR_STATUS_VALID = false ∧ w.mayRetire e.cache f = false) := by
  decide +kernel

/-- R201, R199: a second corrected error retires an L3 frame; the first made it a suspect. -/
theorem test_suspect_retires : let e : ArrayErr := { cache := .l3 (Fin.ofNat 8 (homeSec 0x40)), set := Fin.ofNat 1024 (CacheKind.l3.set 0x40), way := 0, sector := 0, found := .dataCorrected }
    let f := frameNo (CacheKind.l3.set 0x40) 0
    let a := (withHome 0x40).arrayError e
    let b := a.arrayError e
    (a.cache e.cache).suspects = [f] ∧ (a.cache e.cache).retired = [] ∧ (b.cache e.cache).suspects = [] ∧ (b.cache e.cache).retired = [f] ∧
    ((b.cache e.cache).frame f).isSome = false ∧ b.fld .L3_ERR_COUNT [homeSec 0x40] .L3_ERR_COUNT_CE = 2 := by decide +kernel

theorem witness_DramReadReturns : let s : State := { withSec {} with dram := { up.dram with reads := [0x10] }, poisoned := [0x41] }
    0x10 ∈ s.dram.reads ∧ groupOf (0x10 * 4) ∉ s.dram.failed ∧ flag (s.reg .MG_STATUS [groupOf (0x10 * 4)]) .MG_STATUS_DEGRADED = false ∧
    s.l3Sec 0x40 = some {} ∧ s.poisoned.contains 0x40 = false ∧ s.l3Sec 0x41 = some {} ∧ s.poisoned.contains 0x41 = true ∧ (∀ h < 8, (s.home h).trans = [] ∧ (s.home h).waiting = []) ∧
    (let h := homeSec 0x40
     let s := s.setHome h { s.home h with trans := [{ req := { kind := .rd, quad := 3, toHome := true, sec := 0x40, cls := 1 }, fill := true }] }
     inMram (0x40 * 64) = false ∧ 0x10 ∉ s.dram.reads.erase 0x10 ∧ (s.home h).waiting = [] ∧ s.l3Sec 0x40 = some {} ∧
     ∀ g < 8, g ≠ h → (s.home g).trans = [] ∧ (s.home g).waiting = []) := by
  decide +kernel

/-- One die, two bytes in different beats; and no error. -/
theorem witness_oneDie : oneDie [(0, 6, 1), (15, 7, 0x80)] 3 := ⟨by simp, by simp⟩

theorem witness_MemoryControllers : up.groupUp 0 = true ∧ 0x3FFFF * 256 < up.part.dramEnd ∧ inDram (0xFFFFFF * 64) = true ∧ 0xFFFFFF * 64 < up.part.dramEnd ∧
    up.memUp 0xFFFFFF = true ∧ inMram (mramBase / 64 * 64) = true ∧ up.memUp (mramBase / 64) = true ∧
    up.dram.back = [] ∧ groupOf 0xFFFFFF ∉ up.dram.failed ∧ flag (up.reg .MG_STATUS [groupOf 0xFFFFFF]) .MG_STATUS_DEGRADED = false ∧
    (let s : State := { up with dram := { up.dram with failed := [groupOf 0xFFFFFF] } }
     groupOf 0xFFFFFF ∈ s.dram.failed ∧ s.checkFailed (groupOf 0xFFFFFF) = false) ∧
    up.poisoned.contains 0xFFFFFF = false ∧ up.dram.ratePend.get none 0 = none ∧
    (let s : State := { up with dram := { up.dram with ratePend := [(1, some 1)] } }; s.dram.ratePend.get none 1 = some 1) ∧
    (let s : State := { up with dram := { up.dram with retrain := [(0, [3, 4])] } }; 3 ∈ s.dram.retrain.get [] 0 ∧ (s.dram.retrain.get [] 0).erase 3 ≠ []) ∧
    (up.mramQ.filter fun w => mramDie w.sec == mramDie (mramBase / 64)).length < 16 ∧ (up.mramQ.any fun w => w.sec == mramBase / 64) = false ∧
    (let w : MramWrite := { id := 1, sec := mramBase / 64, old := 0 }
     let s : State := { up with mramQ := [w] }
     (s.mramQ.find? fun w => mramDie w.sec == mramDie (mramBase / 64)) = some w ∧ s.slices.jobs = [] ∧
     ∀ h < 8, (s.home h).trans = [] ∧ (s.home h).waiting = []) := by decide +kernel

theorem witness_CleatCommands : let r : CleatReq := { op := .take, n := 4095, id := (up.who .fetas).cleatId, owner := (up.who .fetas).cleatOwner }
    let s : State := { up with cleats := { up.cleats with reqs := [r] } }
    s.pdUp 91 = true ∧ State.reset.pdUp 91 = false ∧ (∀ q ∈ up.cleats.reqs, q.id ≠ r.id) ∧
    Reg.CLEAT_FORCE.admits (.core 0 .u 0) = false ∧
    s.cleats.reqs = [r] ∧ s.reg .CLEAT_STATE [4095] = 0 ∧ Reg.CLEAT_FORCE.admits (s.who .fetas) = true ∧
    (let t := s.setReg .CLEAT_STATE [4095] (cleatHeld r.owner); t.reg .CLEAT_STATE [4095] = cleatHeld r.owner) := by decide +kernel

theorem witness_CleatExclusion : let q (i : Nat) : CleatReq := { op := .take, n := 0, id := i, owner := 5 }
    let s : State := { up with cleats := { up.cleats with reqs := [q 0, q 127] } }
    s.pdUp 91 = true ∧ s.cleats.reqs ≠ [] ∧ s.cleats.answers = [] ∧ (∀ q ∈ s.cleats.reqs, q.op = .take ∧ q.n = 0 ∧ q.id < 128) ∧ (s.cleats.reqs.map fun q => q.id).Nodup := by
  decide +kernel

/-! ### Interrupts -/

def offer5 : Offer := { src := 5, pri := 3, vmid := 0 }

theorem witness_InterruptMessages : let s (m : DistMsg) : State := { up with dist := { up.dist with toCore := [(0, m)] } }
    let t (m : DistMsg) : State := { up with dist := { up.dist with toDist := [(0, m)] } }
    (s (.offer false offer5)).dist.nextToCore 0 = some (.offer false offer5) ∧ (s (.withdraw true)).dist.nextToCore 0 = some (.withdraw true) ∧
    (t (.accept false 5)).dist.nextToDist 0 = some (.accept false 5) ∧ (t (.eoi false 0 17407 0)).dist.nextToDist 0 = some (.eoi false 0 17407 0) ∧
    (t (.eoi true 0 0 1)).dist.nextToDist 0 = some (.eoi true 0 0 1) ∧
    (t (.residency none)).dist.nextToDist 0 = some (.residency none) ∧ (t (.decline 5)).dist.nextToDist 0 = some (.decline 5) ∧
    17407 < srcCount ∧ runs.ready = true ∧ runs.level = .h ∧ (runs.reg .CTIM_CMP [0]).toNat ≤ up.time ∧
    (let k : Core := { runs with armed0 := true }; k.run ≠ .off ∧ k.armed0 = true) := by decide +kernel

theorem witness_InterruptAccepted :
    let k : Core := ({ vectored with offer := some offer5, l1d := owned [0x88] } : Core).setReg .STATUS [] 0x12
    k.irqNext = some (0x40, .h) ∧ k.ready = true ∧ k.mcheck = false ∧ k.long = none ∧ k.owed = none ∧ k.offer = some offer5 ∧
    (let s := withCore k
     s.traceStalled 0 = false ∧ (match s.drainFrame 0 with
      | (true, v) => (match v.checkEntry 0 .h 0x40 with
        | (.ok pas h, w) => decide (pas.length = 10 ∧ h ≠ 0 ∧ (w.core 0).level = k.level ∧ (w.core 0).haltReq = false)
        | _ => false)
      | _ => false) = true) := by decide +kernel

theorem witness_InterruptSources : let s := { (up.setReg .SRC_CFG [7] (putBits 0 .SRC_CFG_TRIG 1)) with pulses := [7] }
    s.pdUp 91 = true ∧ 7 ∈ s.pulses ∧ s.levelSrc 7 = false ∧ s.line? 7 = false ∧
    (let t := up.setReg .MR_ERR_STATUS [] 1
     324 ∉ t.pulses ∧ t.wire 324 = some true ∧ t.levelSrc 324 = true ∧ t.active? 324 = false) ∧
    (let t := up.srcLine 324 true; t.wire 324 = some false ∧ t.line? 324 = true) ∧
    reach .fetas .SRC_SET [17407] = true ∧ reach .fetas .SRC_SET [512] = true ∧ reach .fetas .SRC_CLR [0] = true ∧ reach .fetas .SRC_CFG [17407] = true ∧ reach .fetas .DIST_CTL [] = true := by
  decide +kernel

/-! ### Registers -/

theorem witness_AccessRules : let pa := Reg.SRC_CFG.at [0]
    (match up.rangeOf 0xFF_FFFF_FFFF with | .reserved => true | _ => false) = true ∧
    (match ({ up with part := .s32 } : State).rangeOf 0x8_0000_0000 with | .dramBeyond => true | _ => false) = true ∧
    (match up.rangeOf qspiBase with | .qspi => true | _ => false) = true ∧ qspiOk up qspiBase = false ∧
    (match up.locate (.core 0 .u 0) pa with | .error _ => true | _ => false) = true ∧ reach .fetas .SRC_CFG [0] = true := by decide +kernel

theorem witness_RegisterReads : (∀ x ∈ ([(.ADDR_ERR_COUNT, []), (.L3_ERR_COUNT, [7]), (.MG_ERR_COUNT, [1]), (.MR_ERR_COUNT, []), (.MR_DIE, [3]), (.PDQ, [7, 3]),
      (.SLICE_ERR_COUNT, [8191]), (.SE_ERR_COUNT, [0]), (.CNT_RX, [11]), (.CNT_LEARN_FULL, [0]), (.HY_RING_DROP, [15]), (.SHR_ERR_COUNT, []), (.QUAD_REEF, [15]),
      (.MAST_TICK_LO, []), (.DB_NEXT, [63]), (.UART_RXD, [5]), (.SPI_RXD, [3]), (.I2C_RXD, [3])] : List (Reg × List Nat)),
    reach .fetas x.1 x.2 = true) ∧
    qspiOk ((up.setFld .QSPI_CFG [] .QSPI_CFG_EN 1).setFld .QSPI_CFG [] .QSPI_CFG_SIZE 20) (qspiBase + 0xFFFFF) = true := by decide +kernel

theorem witness_MailboxRegisters : (∀ x ∈ ([(.OUT_MSG, [8191, 15]), (.IN_MSG, [0, 0]), (.MBX_OUT_RING, [8191]), (.MBX_OUT_ACK, [0]), (.MBX_IN_RING, [1]), (.MBX_IN_ACK, [1]),
      (.REQ_MSG, [7, 15]), (.REQ_RING, [0]), (.RSP_ACK, [7]), (.EVT_ACK, [7])] : List (Reg × List Nat)), reach .fetas x.1 x.2 = true) ∧
    up.boxBusy (8 + 8191) = false ∧ up.boxBusy 7 = false ∧ up.fetasUp = true ∧ flag (up.reg .MBX_STAT [0]) .MBX_STAT_IN_FULL = false ∧
    up.fld .MBX_STAT [8191] .MBX_STAT_OUT_BUSY = 0 ∧
    (let s := up.setReg .SLICE_FAR [8191] (putBits 0 .SLICE_FAR_FAR 1); flag (s.reg .SLICE_FAR [8191]) .SLICE_FAR_FAR = true) ∧ (up.who .fetas).high = true := by
  decide +kernel

/-- Slice 1 bound, with two queues granted and queue 1 enabled with a ring of 16. -/
def queued : State := (((up.setReg .SLICE_BIND [1] (BitVec.ofNat 64 (2 ^ 31 + 5 * 2 ^ 16))).setFld .SLICE_GRANT_Q [1] .SLICE_GRANT_Q_COUNT 2).setFld .Q_CFG [1, 1]
  .Q_CFG_EN 1).setFld .Q_CFG [1, 1] .Q_CFG_SIZE 4

theorem witness_QueueRegisters : reach .fetas .Q_CFG [8191, 63] = true ∧ reach .fetas .Q_SQ_DB [0, 0] = true ∧ reach .fetas .Q_CQ [8191, 63] = true ∧
    (let cfg := queued.reg .Q_CFG [1, 1]
     flag cfg .Q_CFG_EN = true ∧ 1 < queued.fld .SLICE_GRANT_Q [1] .SLICE_GRANT_Q_COUNT ∧ queued.queueJobs 1 1 = [] ∧
     -- 16 new descriptors just fit a ring of 16
     ((0 + 16) % 2 ^ 16 + 2 ^ 16 - bits (queued.reg .Q_SQ [1, 1]) .Q_SQ_HEAD) % 2 ^ 16 ≤ 2 ^ bits cfg .Q_CFG_SIZE) ∧
    flag (queued.reg .Q_CFG [1, 0]) .Q_CFG_EN = false ∧ flag (queued.reg .SLICE_ERR_STATUS [1]) .SLICE_ERR_STATUS_VALID = false := by decide +kernel

theorem witness_FieldRegisters : (∀ x ∈ ([(.SW_CTL, []), (.QBV_BASE_HI, [11]), (.PTP_CTL, [3]), (.UART_TXD, [5]), (.CAN_CTL, [1]), (.CAN_MB_CTRL, [1, 63]), (.SPI_XFER, [3]),
      (.SPI_TXD, [3]), (.I2C_CMD, [3]), (.I2C_TXD, [0]), (.GPIO_SET, [1]), (.GPIO_CLR, [1])] : List (Reg × List Nat)), reach .fetas x.1 x.2 = true) ∧
    (let s : State := { up with low := { up.low with uart := [(5, { phase := .active })] } }; (s.uart 5).phase = .active ∧ (s.uart 5).tx.length < 64) ∧
    (let s := up.setFld .CAN_MB_CTRL [1, 63] .CAN_MB_CTRL_MODE 2; s.fld .CAN_MB_CTRL [1, 63] .CAN_MB_CTRL_MODE = 2) ∧
    (let s := (up.setFld .CAN_MB_CTRL [1, 63] .CAN_MB_CTRL_MODE 1).setFld .CAN_MB_CTRL [1, 63] .CAN_MB_CTRL_STATE 1
     s.fld .CAN_MB_CTRL [1, 63] .CAN_MB_CTRL_MODE = 1 ∧ s.fld .CAN_MB_CTRL [1, 63] .CAN_MB_CTRL_STATE = 1) ∧
    (let s := up.setFld .SPI_CFG [3] .SPI_CFG_EN 1
     s.spiBusy 3 = false ∧ flag (s.reg .SPI_CFG [3]) .SPI_CFG_EN = true ∧ bits (putBits 0 .SPI_XFER_LEN 4096) .SPI_XFER_LEN = 4096) ∧
    (let s := up.setFld .I2C_CFG [3] .I2C_CFG_EN 1
     s.i2cActive 3 = false ∧ flag (s.reg .I2C_CFG [3]) .I2C_CFG_EN = true ∧ flag (s.reg .I2C_CFG [3]) .I2C_CFG_TARGET = false ∧
     bits (putBits 0 .I2C_CMD_LEN 4096) .I2C_CMD_LEN = 4096) := by decide +kernel

theorem witness_TimerUnit : (∀ x ∈ ([(.TMR_CMD, [15]), (.TMR_GO, []), (.TMR_RLD_HI, [0]), (.TMR_CMP_HI, [15, 3])] : List (Reg × List Nat)), reach .fetas x.1 x.2 = true) ∧
    (let s := (up.setReg .TMR_RLD_LO [15] 9).setFld .TMR_STAT [15] .TMR_STAT_RUN 1
     s.tmrRld 15 ≠ 0 ∧ s.tmrRun 15 = true ∧ s.pdUp 106 = true ∧ (s.tmr 15).reload ≤ (s.tmr 15).count) ∧ up.tmrRun 15 = false ∧
    (let s := up.setFld .TMR_CFG [15] .TMR_CFG_CAPEN 1; flag (s.reg .TMR_CFG [15]) .TMR_CFG_CAPEN = true) ∧
    (let s : State := { (up.setFld .TT_CFG [31] .TT_CFG_EN 1).setFld .TT_WIN [31] .TT_WIN_US 1 with time := 5000, telltales := [31] }
     flag (s.reg .TT_CFG [31]) .TT_CFG_EN = true ∧ s.fld .TT_WIN [31] .TT_WIN_US ≠ 0 ∧ s.time % (s.fld .TT_WIN [31] .TT_WIN_US * 1000) = 0 ∧ 31 ∈ s.telltales ∧
     0 ∉ s.telltales) := by decide +kernel

theorem witness_ControlRegisters : (∀ x ∈ ([(.TT_CFG, [31]), (.TT_WIN, [0]), (.TT_CMD, [31]), (.HY_RING_RP, [15]), (.DBG_CTL, [quadOf 63, 63 % 4]), (.WDOG_CFG, []),
      (.PAD_HOLD, [])] : List (Reg × List Nat)), reach .fetas x.1 x.2 = true) ∧
    (let s := up.setCore 63 (runs.setFld .TRC_AUTH [] .TRC_AUTH_H 1); (s.core 63).run = .running ∧ (s.core 63).long = none ∧ (s.core 63).owed = none ∧ (s.core 63).devLoad = none ∧ s.admits 63 = true) ∧
    (let s := up.setFld .HY_RING_CTL [15] .HY_RING_CTL_EN 1; s.rpOk 15 (s.reg .HY_RING_RP [15] &&& ~~~63#64) = true) := by decide +kernel

theorem witness_TraceCommands : let f : TraceFrame := { source := 0, seq := 0, loss := false, body := [] }
    let k : Core := { runs with trace := { runs.trace with frames := [f], noticeDue := true } }
    let s := (up.setCore 0 (k.setReg .TRC_RING [] (putBits 0 .TRC_RING_VALID 1))).setFld .HY_RING_CTL [0] .HY_RING_CTL_EN 1
    s.pdUp 105 = true ∧ (s.core 0).trace.frames = [f] ∧ flag ((s.core 0).reg .TRC_RING) .TRC_RING_VALID = true ∧
    flag (s.reg .HY_RING_CTL [0]) .HY_RING_CTL_EN = true ∧ s.hyUsed 0 < 2 ^ bits (s.reg .HY_RING_CTL [0]) .HY_RING_CTL_SIZE ∧ (s.hyPut 0 f).1 = true ∧
    k.trace.noticeDue = true ∧
    (let t : Token := { num := 9, vmid := 0, k := false, h := false, sealedOk := false, all := false, mask := 0, ends := 0 }
     ([t].find? fun y => y.num == 9 && decide (y.ends ≤ up.time)) = some t) ∧
    (let k : Core := (((runs.setFld .TCMP_CFG [7] .TCMP_CFG_KIND 5).setFld .TCMP_CFG [7] .TCMP_CFG_ARG 3).setReg .TSEQ_TRANS [0, 0]
       (putBits (putBits (putBits 0 .TSEQ_TRANS_EN 1) .TSEQ_TRANS_SEL 0x80) .TSEQ_TRANS_NEXT 2)).setFld .TRC_AUTH [] .TRC_AUTH_H 1
     let s := up.setCore 63 k
     (s.core 63).run ≠ .off ∧ k.fld .TCMP_CFG .TCMP_CFG_KIND [7] = 5 ∧ k.fld .TCMP_CFG .TCMP_CFG_ARG [7] % 4 = 3 ∧ s.admits 63 = true ∧
      (let tr := k.reg .TSEQ_TRANS [k.fld .TSEQ_STATE .TSEQ_STATE_STATE, 0]
       flag tr .TSEQ_TRANS_EN = true ∧ flag tr .TSEQ_TRANS_ALL = false ∧ (bits tr .TSEQ_TRANS_SEL).testBit 7 = true)) := by decide +kernel

theorem witness_BusTargets : let d : DevLoad := { pa := Reg.SRC_CFG.at [0], ea := Reg.SRC_CFG.at [0], size := 4, kind := .lw, rd := 3, lvl := .h, pid := 0 }
    let e : StoreEntry := { pa := Reg.SRC_CFG.at [0], size := 4, data := 1, typ := .device, lvl := .h, pid := 0, cls := 0 }
    let k : Core := { runs with devLoad := some d }
    let s := up.setCore 0 k
    inPcie d.pa = false ∧ s.devAhead 0 d.pa = false ∧ s.isMem d.pa = false ∧ inDist d.pa = true ∧ s.eoiDue 0 = false ∧ (∀ m ∈ s.dist.toCore, m.1 ≠ 0) ∧
    ({ s with dist := { s.dist with toDist := [(0, .eoi false 0 5 0)] } } : State).eoiDue 0 = true ∧
    (let b := s.busRead (.core 0 d.lvl d.pid) d.pa d.size
     (b.2.core 0).devLoad = some d ∧ (b.2.core 0).haltReq = false ∧ flag ((b.2.core 0).reg .STATUS) .STATUS_SS = false) ∧
    (({ runs with devOut := [e] } : Core).devOut[0]? = some e) ∧ Reg.SRC_CFG.spec.wide = false ∧ (Reg.SRC_CFG.at [0]) % 4 = 0 ∧
    ({ up with shr := { up.shr with held := false, ident := some 0 } } : State).shrFw = true ∧
    (let x : ErrReport := { stop := 29, write := false, kind := 1, pa := 0, pid := 0 }
     ([x].find? fun y => y.stop == 29) = some x) ∧ flag (up.reg .ADDR_ERR_STATUS) .ADDR_ERR_STATUS_VALID = false := by decide +kernel

/-! ### The switch, PCI Express and the serial ports -/

def frame : Bytes := [2, 0, 0, 0, 0, 1, 2, 0, 0, 0, 0, 2, 8, 0]
def frameEth (stamp : Nat) : Eth := { dst := 0x020000000001, src := 0x020000000002, tag := none, body := [8, 0], rx := 11, stamp := stamp }

/-- Port 11 is on, VLAN 7 has ports 4 and 11, and the address of `frame` is behind port 4. -/
def switched : State :=
  let s := (((up.setFld .SW_CTL [] .SW_CTL_EN 1).setFld .PORT_CFG [11] .PORT_CFG_EN 1).setFld .PORT_CFG [11] .PORT_CFG_MODE 5).setFld .PORT_CFG [11]
    .PORT_CFG_PVID 7
  { s with sw := { s.sw with tables := { members := [(7, [4, 11])], statics := [(7, 0x020000000001, 4)] } } }

theorem switched_plain : switched.plainSwitch := ⟨by decide +kernel, rfl, rfl, rfl⟩

theorem witness_SwitchForwards : let e := frameEth 0
    switched.portOn 11 = true ∧ (List.replicate 1518 0 : Bytes).length + 4 ≤ portLimit 11 ∧ Eth.parse frame 11 0 = some e ∧
    (let s := switched.setFld .PORT_CFG [11] .PORT_CFG_PVID 8; s.portOn 11 = true ∧ s.member 11 (s.vidOf e) = false) ∧
    (let f : Fdb := { vid := 7, mac := 0x020000000001, port := 4, static := true }
     switched.member 11 (switched.vidOf e) = true ∧ flag (switched.reg .PORT_CFG [11]) .PORT_CFG_LEARN = false ∧ e.multicast = false ∧
     switched.fdbAll.find? (fun x => x.vid == switched.vidOf e && x.mac == e.dst) = some f ∧ switched.member 4 (switched.vidOf e) = true ∧
     (switched.egressForm e 4).len ≤ portLimit 4 ∧ switched.fits 4 (switched.classOf e) (switched.egressForm e 4).len = true ∧
     (let s : State := { switched with sw := { switched.sw with tables := { switched.sw.tables with shares := [(4 * 8 + switched.classOf e, 17)] } } }
      s.fits 4 (s.classOf e) (s.egressForm e 4).len = false)) ∧
    (let s := (switched.setQueue 11 6 [e]).setFld .PORT_STATUS [11] .PORT_STATUS_LINK 1
     s.portOn 11 = true ∧ flag (s.reg .PORT_STATUS [11]) .PORT_STATUS_LINK = true ∧ flag (s.reg .QBV_CTL [11]) .QBV_CTL_EN = false ∧
     s.swQueue 11 6 = [e] ∧ s.swQueue 11 7 = [] ∧ e.etherType ∉ [0x88F7, 0x892F, 0xF1C1]) := by decide +kernel

/-- The frame sent to port 4 leaves it tagged with VLAN 7: 4 bytes of tag after the addresses. -/
theorem test_egress_tag : (switched.egressForm (frameEth 0) 4).bytes = [2, 0, 0, 0, 0, 1, 2, 0, 0, 0, 0, 2, 0x81, 0, 0, 7, 8, 0] := by decide +kernel

def gateList : GateList := { entries := [(255, 600), (1, 400)], cycle := 1000, base := 5000 }

theorem witness_SwitchEvents : let s := { switched with time := 5000 }
    (let s := (s.setQbv 11 { pend := some gateList }).setFld .QBV_CTL [11] .QBV_CTL_EN 1
     (s.qbv 11).pend = some gateList ∧ s.pdUp 98 = true ∧ flag (s.reg .QBV_CTL [11]) .QBV_CTL_EN = true ∧ (s.qbv 11).since ≤ gateList.base + 0 * gateList.cycle ∧ gateList.base + 0 * gateList.cycle ≤ s.time ∧ 0 < gateList.cycle ∧
     gateList.entries.length ≤ 256) ∧
    (let s := s.setQbv 11 { oper := some gateList, cur := 1, start := 4000 }
     (s.qbv 11).oper = some gateList ∧ flag ((s.setFld .QBV_CTL [11] .QBV_CTL_EN 1).reg .QBV_CTL [11]) .QBV_CTL_EN = true ∧ (gateList.endOf 1).1 + (s.qbv 11).start ≤ s.time ∧ (gateList.endOf 1).2 = true ∧ (gateList.endOf 0) = (600, false)) ∧
    ((({ s with sw := { s.sw with tables := { s.sw.tables with gates := [{ entries := [(true, 10)] }] } } } : State).sw.tables.gates)[0]? =
      some { entries := [(true, 10)] } ∧ (s.sw.sgate.get (0, 0) 0).2 + 10 ≤ s.time ∧ switched.time < (switched.sw.sgate.get (0, 0) 0).2 + 10) ∧
    (let r : FrerRec := { id := { bySource := false, mac := 0x020000000001, vid := 7 }, history := 32, timeout := 1 }
     ({ s with sw := { s.sw with tables := { s.sw.tables with recs := [r] } } } : State).sw.tables.recs[0]? = some r ∧
     (s.sw.frer.get ({} : FrerState) 0).last + r.timeout * 10 ^ 6 ≤ 1000000 ∧ s.time < (s.sw.frer.get ({} : FrerState) 0).last + r.timeout * 10 ^ 6) ∧
    (let s := s.setFld .HSR_CFG [1] .HSR_CFG_MODE 2
     s.fld .HSR_CFG [1] .HSR_CFG_MODE = 2 ∧ (s.redun 1).supNext ≤ s.time ∧ s.fits 2 0 200 = true ∧ s.fits 3 0 200 = true ∧
     s.time < ((s.setRedun 1 { s.redun 1 with supNext := 5001 }).redun 1).supNext) ∧
    (let s := s.setFld .PORT_CFG [4] .PORT_CFG_EN 1
     s.pdUp 98 = true ∧ s.pdUp (portPd 4) = true ∧ (s.setFld .PORT_CFG [4] .PORT_CFG_MODE 3).portSet 4 = true ∧ flag (s.reg .PORT_CFG [4]) .PORT_CFG_EN = true ∧ flag (s.reg .PORT_STATUS [4]) .PORT_STATUS_LINK ≠ true) ∧
    s.pdUp 101 = true := by decide +kernel

def pcieUp : State :=
  { up.setFld .PCIE_CTL [] .PCIE_CTL_EN 1 with pcie := { up.pcie with tables := { out := [(pcieBase, 4096, 0x9000)] }, msi := (100, 8) } }
def pcieWin : PcieIn := { pid := 65536, base := 0x1000, size := 4096, pa := mramBase, r := true, w := true }

theorem witness_PciExpress : let e : StoreEntry := { pa := pcieBase + 4092, size := 4, data := 1, typ := .device, lvl := .h, pid := 0, cls := 0 }
    let d : DevLoad := { kind := .lw, rd := 3, pa := pcieBase + 4092, size := 4, ea := 0, lvl := .h, pid := 0 }
    let k : Core := { runs with devOut := [e], devLoad := some d }
    let s := pcieUp.setCore 63 k
    ((s.core 63).devOut[0]? = some e ∧ inPcie e.pa = true ∧ s.pcieAddr e.pa = some 0x9FFC ∧ s.pcie.posted.length < 64 ∧
     (s.setFld .PCIE_CTL [] .PCIE_CTL_EN 0).pcieAddr e.pa = none) ∧
    (let s := pcieUp.setCore 63 { k with devOut := [] }
     (s.core 63).devLoad = some d ∧ inPcie d.pa = true ∧ s.devAhead 63 d.pa = false ∧ 63 ∉ s.pcie.reads ∧ s.pcieAddr d.pa = some 0x9FFC) ∧
    (let s := s.setPcie fun p => { p with reads := [63] }
     63 ∈ s.pcie.reads ∧ (s.core 63).devLoad = some d ∧ (s.core 63).haltReq = false ∧ flag ((s.core 63).reg .STATUS) .STATUS_SS = false ∧
     (s.core 63).mcheck = false ∧ (s.core 63).owed = none ∧ (s.core 63).stepDue = false ∧ (s.core 63).long = none) ∧
    pcieUp.pcieOn = true ∧ (7 : Nat) < pcieUp.pcie.msi.2 ∧ pcieUp.pcie.msi.2 ≤ 8 ∧ flag (pcieUp.reg .PCIE_LINK) .PCIE_LINK_UP ≠ true ∧
    (let s := pcieUp.setPcie fun p => { p with inWins := [(31, some pcieWin)] }
     s.pcie.inWins.filterMap (fun x => x.2) = [pcieWin] ∧ pcieWin.base ≤ 0x1FFF ∧ 0x1FFF + 1 ≤ pcieWin.base + pcieWin.size ∧
     (s.ioWrite (pcieWin.pa + (0x1FFF - pcieWin.base)) [0x5A]).1 = some true ∧ (s.ioWrite (pcieWin.pa + (0x1FFF - pcieWin.base)) [0x5A] [true]).1 = some true ∧
     (match s.ioRead (pcieWin.pa + (0x1FFF - pcieWin.base)) 1 with | (.ok b _, _) => b == [0] | _ => false) = true ∧
     (∀ x ∈ s.pcie.inWins, ∀ y ∈ x.2.toList, (0x2000 : Nat) < y.base ∨ y.base + y.size < 0x2000 + 1 ∨ y.r = false)) ∧
    (let ep (b0 : Option (Nat × List Nat)) (b2 : Option (Nat × Nat)) : State := (pcieUp.setFld .PCIE_CTL [] .PCIE_CTL_ROLE 1).setPcie fun p =>
       { p with tables := { p.tables with bar0 := b0, bar2 := b2 }, inWins := [(31, some pcieWin)] }
     (ep (some (0x100000, [8191])) none).pcieOn = true ∧ (ep (some (0x100000, [8191])) none).pcieEnd = true ∧ [8191][(0x100FFC - 0x100000) / 4096]? = some 8191 ∧
     (ep none (some (0x200000, 31))).pcie.tables.bar0 = none ∧ (ep none (some (0x200000, 31))).pcie.inWins.get none 31 = some pcieWin ∧
     0x200FFF + 1 ≤ 0x200000 + pcieWin.size ∧ pcieWin.r = true) := by decide +kernel

def lowUp (l : LowSpeed) : State := { up with low := l }

theorem witness_SerialUnits : let on := up.setFld .UART_CFG [5] .UART_CFG_EN 1
    let tx (p : TxPhase) (l : Bytes) : State := { on with low := { on.low with uart := [(5, { phase := p, tx := l, heard := true })] } }
    (on.uartOn 5 = true ∧ flag (on.reg .UART_CFG [5]) .UART_CFG_RS485 = false) ∧
    ((tx .active [1, 2]).uartOn 5 = true ∧ ((tx .active [1, 2]).uart 5).phase = .active ∧ ((tx .active []).uart 5).tx = []) ∧
    (((tx .lead [1]).uart 5).phase = .lead ∧ ((tx .lead [1]).uart 5).tx = [1]) ∧ ((tx .tail []).uart 5).phase = .tail ∧
    (let s := (tx .idle []).setFld .UART_CFG [5] .UART_CFG_IDLE_BITS 255
     s.uartOn 5 = true ∧ (s.uart 5).heard = true ∧ bits (s.reg .UART_CFG [5]) .UART_CFG_IDLE_BITS ≠ 0) ∧
    (let s (l : Nat) : State := { up with low := { up.low with spi := [(3, { tx := [9], left := l })] } }.setFld .SPI_STAT [3] .SPI_STAT_BUSY 1
     (s 1).pdUp 106 = true ∧ (s 1).spiBusy 3 = true ∧ ((s 1).spi 3).left ≠ 0 ∧ ((s 1).spi 3).tx = [9] ∧ ((s 1).spi 3).rx.length < 64 ∧
     ((s 0).spi 3).left = 0 ∧ (s 0).spiBusy 3 = true) ∧
    (let s (l : Nat) (rd : Bool) : State := ({ up with low := { up.low with i2c := [(3, { tx := [9], left := l, read := rd })] } }.setFld .I2C_STAT [3] .I2C_STAT_BUSY 1).setFld
       .I2C_CFG [3] .I2C_CFG_EN 1
     (s 1 true).pdUp 106 = true ∧ flag ((s 1 true).reg .I2C_CFG [3]) .I2C_CFG_EN = true ∧ flag ((s 1 true).reg .I2C_CFG [3]) .I2C_CFG_TARGET = false ∧
     (s 1 true).i2cActive 3 = true ∧ ((s 1 true).i2c 3).left ≠ 0 ∧ ((s 1 true).i2c 3).read = true ∧ ((s 1 true).i2c 3).rx.length < 64 ∧
     ((s 1 false).i2c 3).read = false ∧ ((s 1 false).i2c 3).tx = [9] ∧ ((s 0 true).i2c 3).left = 0 ∧ (s 0 true).i2cActive 3 = true ∧
     flag (((s 0 true).setFld .I2C_CFG [3] .I2C_CFG_TARGET 1).reg .I2C_CFG [3]) .I2C_CFG_TARGET = true ∧
     (let r := ((s 0 true).setFld .I2C_CFG [3] .I2C_CFG_TADDR 0x55).reg .I2C_CFG [3]
      flag r .I2C_CFG_A10 = false ∧ 0x55 % 128 = bits r .I2C_CFG_TADDR % 128 ∧ 0x56 % 128 ≠ bits r .I2C_CFG_TADDR % 128)) ∧
    (up.pdUp 106 = true ∧ flag (up.reg .PAD_HOLD) .PAD_HOLD_IO33 = false ∧
     (∀ q ∈ [Reg.GPIO_OE, .GPIO_OD, .GPIO_OUT], ∀ i < 2, (up.reg q [i]).toNat < 2 ^ 32)) := by decide +kernel

def canUp : State := up.setFld .CAN_CTL [1] .CAN_CTL_EN 1

theorem witness_SerialUnits_can :
    (let s := (canUp.setFld .CAN_MB_CTRL [1, 63] .CAN_MB_CTRL_MODE 1).setFld .CAN_MB_CTRL [1, 63] .CAN_MB_CTRL_STATE 1
     s.canOn 1 = true ∧ s.canState 1 ≠ 2 ∧ flag (s.reg .CAN_CTL [1]) .CAN_CTL_LISTEN = false ∧ flag (s.reg .CAN_CTL [1]) .CAN_CTL_LOOP = false ∧
     (s.can 1).aborting = [] ∧ ({ s.can 1 with aborting := [63] } : Can).aborting.head? = some 63 ∧ s.canPending 1 63 = true ∧ ∀ c < 64, c ≠ 63 → s.canPending 1 c = true → canArb (s.reg .CAN_MB_ID [1, 63]) < canArb (s.reg .CAN_MB_ID [1, c])) ∧
    (let s := (canUp.setFld .CAN_MB_CTRL [1, 63] .CAN_MB_CTRL_MODE 2).setFld .CAN_FLT_ID [1, 127] .CAN_FLT_ID_EN 1
     s.canOn 1 = true ∧ s.canState 1 ≠ 2 ∧ s.canAccepts 1 false 0x7FF = true ∧ (s.can 1).rec' ≤ 127 ∧
     s.fld .CAN_MB_CTRL [1, 63] .CAN_MB_CTRL_MODE = 2 ∧ s.fld .CAN_MB_CTRL [1, 63] .CAN_MB_CTRL_STATE = 0 ∧
     ∀ c < 63, s.fld .CAN_MB_CTRL [1, c] .CAN_MB_CTRL_MODE ≠ 2 ∨ s.fld .CAN_MB_CTRL [1, c] .CAN_MB_CTRL_STATE ≠ 0) ∧
    (let s := (canUp.setFld .CAN_STAT [1] .CAN_STAT_STATE 2).setFld .CAN_CTL [1] .CAN_CTL_ABOR 1
     s.canOn 1 = true ∧ s.canState 1 = 2 ∧ flag (s.reg .CAN_CTL [1]) .CAN_CTL_ABOR = true) := by decide +kernel

/-! ### The slice engine -/

/-- A descriptor of slice 1, queue 63, with its input, output and auxiliary ranges in one window. -/
def job (svc op len dstLen auxLen : Nat) : Job :=
  { id := 0, slice := 1, q := 63, svc := svc, op := op, tag := 5, silent := true, irq := false, fence := false, len := len, src := 0x10000,
    dst := if dstLen = 0 then 0 else 0x10400, dstLen := dstLen, auxLen := auxLen, aux := if auxLen = 0 then 0 else 0x10800, key := 0, param := 0,
    rsv := false, wins := [{ iova := 0x10000, size := 4096, pa := mramBase, r := true, w := true }], vec := none }

/-- The engine holds the descriptor, and memory the bytes of its ranges. -/
def working (j : Job) (src dst aux : Bytes) : State :=
  let s := (((up.ioWrite mramBase src).2.ioWrite (mramBase + 0x400) dst).2.ioWrite (mramBase + 0x800) aux).2
  { s with slices := { s.slices with jobs := [j] } }

def charged (s : State) (j : Job) : State := ((s.startCredit j.engine j.slice).getD s).charge j

/-- What State.jobRuns asks for, as a check. -/
def runsAt (s : State) (svc op : Nat) (j : Job) (rs : List Rng) (pas : List Nat) : Bool :=
  (s.queueJobs j.slice j.q)[0]? == some j && j.svc == svc && j.op == op && s.pdUp 103 && s.mayStart j && (s.startCredit j.engine j.slice).isSome &&
  !j.rsv && !clash rs && j.ranges rs == some pas

theorem jobRuns_of {s : State} {svc op : Nat} {j : Job} {rs : List Rng} {pas : List Nat} (h : runsAt s svc op j rs pas = true) :
    s.jobRuns (charged s j) j.slice j.q 0 svc op j rs pas := by
  simp only [runsAt, Bool.and_eq_true, beq_iff_eq, Bool.not_eq_true', Option.isSome_iff_exists] at h
  obtain ⟨⟨⟨⟨⟨⟨⟨⟨h1, h2⟩, h3⟩, h4⟩, h5⟩, u, h6⟩, h7⟩, h8⟩, h9⟩ := h
  exact ⟨h1, ⟨h2, h3⟩, h4, h5, ⟨u, h6, by simp [charged, h6]⟩, ⟨h7, h8⟩, h9⟩

/-- The bytes m are read at pa for slice 1, none of them poisoned. -/
def reads (s : State) (pa : Nat) (m : Bytes) : Bool := match s.ioRead pa m.length 16 (s.slicePid 1) with | (.ok d p, _) => d == m && !p.any id | _ => false

def afterRead (s : State) (pa : Nat) (m : Bytes) : State := (s.ioRead pa m.length 16 (s.slicePid 1)).2

theorem inputs_of {s : State} {pa : Nat} {m : Bytes} (h : reads s pa m = true) (hm : 0 < m.length) : s.inputs 1 pa m.length m (afterRead s pa m) := by
  refine .inr ⟨hm, ?_⟩
  unfold reads at h
  split at h
  next d p u hr =>
    simp only [Bool.and_eq_true, beq_iff_eq, Bool.not_eq_true'] at h
    exact ⟨p, by simp [afterRead, hr, h.1], h.2⟩
  next => simp at h

def abc : Bytes := [0x61, 0x62, 0x63]
def writes (s : State) (pa : Nat) (d : Bytes) : Bool := (s.ioWrite pa d [] 16 (s.slicePid 1)).1 == some true


def half (n : Nat) : Nat := mramBase + 0x400 * n

theorem witness_SliceServices : let a1 : Bytes := [0x4B, 0x04, 0x00]
    let j := job 3 3 3 1 0
    let s := working j a1 [] []
    -- decompression of the DEFLATE stream of "a", into one byte
    (runsAt s 3 3 j [j.rSrc, j.wDst] [half 0, half 1] = true ∧ s.pdUp 104 = true ∧ reads (charged s j) (half 0) a1 = true ∧
      (inflate a1).map (fun x => x.1) = some [0x61] ∧ j.dstLen = 1 ∧ writes (afterRead (charged s j) (half 0) a1) (half 1) [0x61] = true) ∧
    (let j := job 1 3 3 0 0
     let s := working j a1 [] []
     runsAt s 1 3 j [j.rSrc] [half 0] = true ∧ j.dst = 0 ∧ reads (charged s j) (half 0) a1 = true) ∧
    (let j : Job := { job 1 2 0 16 0 with src := 0, param := 2 ^ 64 - 1 }
     let s := working j [] [] []
     runsAt s 1 2 j [j.wDst] [half 1] = true ∧ j.len = 0 ∧ j.src = 0 ∧ j.auxLen = 0 ∧ j.aux = 0 ∧ j.key = 0 ∧ j.param.toNat < 2 ^ 64 ∧
      writes (charged s j) (half 1) (List.replicate 16 255) = true) ∧
    (let j := job 1 1 3 3 0
     let s := working j a1 [] []
     runsAt s 1 1 j [j.rSrc, j.wDst] [half 0, half 1] = true ∧ 0 < j.len ∧ reads (charged s j) (half 0) a1 = true ∧
      writes (afterRead (charged s j) (half 0) a1) (half 1) a1 = true) := by decide +kernel

theorem plain_job (svc op len dstLen : Nat) : (job svc op len dstLen 0).plain := ⟨rfl, rfl, rfl, rfl⟩

def keyed (s : State) (k : SliceKey) : State := { s with slices := { s.slices with keys := [(16, some k)] } }

/-- The tag of the empty message under the zero key and IV, test case 1 of the GCM submission. -/
def tag0 : Bytes := toBe 0x58e2fccefa7e3061367f1d57a4e7455a 16

theorem test_gcm : gcmEncrypt (zeros 16) (zeros 12) [] [] = tag0 ∧ gcmDecrypt (zeros 16) (zeros 12) [] tag0 = some [] := by decide +kernel
theorem test_gcm_refuses : gcmDecrypt (zeros 16) (zeros 12) [] (zeros 16) = none := by decide +kernel

theorem witness_SliceServices_gcm :
    (let j := job 2 1 0 16 0
     let s := keyed (working j [] [] []) (.aes (zeros 16))
     runsAt s 2 1 j [j.rSrc, j.wDst, j.rAux] [0, half 1, 0] = true ∧
     s.aesKey j = some (zeros 16) ∧ j.paramBytes 0 12 = zeros 12 ∧ j.param.toNat < 2 ^ 96 ∧ (charged s j).aesKey j = some (zeros 16) ∧
     tag0.length = j.dstLen ∧ writes (charged s j) (half 1) tag0 = true) ∧
    (let j := job 2 2 16 16 0
     let s := keyed (working j tag0 [] []) (.aes (zeros 16))
     runsAt s 2 2 j [j.rSrc, j.wDst, j.rAux] [half 0, half 1, 0] = true ∧ 16 ≤ j.len ∧ reads (charged s j) (half 0) tag0 = true ∧
     writes (afterRead (charged s j) (half 0) tag0) (half 1) [] = true) := by decide +kernel

theorem witness_SliceServices_signature : let m := zeros 48
    let j := job 2 0x20 48 96 0
    let s := keyed (working j m [] []) (.ecdsa 5)
    runsAt s 2 0x20 j [j.rSrc, j.wDst] [half 0, half 1] = true ∧ s.ecKey j = some 5 ∧ reads (charged s j) (half 0) m = true ∧
    (afterRead (charged s j) (half 0) m).ecKey j = some 5 ∧
    (let j := job 2 0x21 48 96 97
     let s := working j m (zeros 96) (zeros 97)
     let u := afterRead (charged s j) (half 0) m
     runsAt s 2 0x21 j [j.rSrc, ⟨j.dst, j.dstLen, true, false⟩, j.rAux] [half 0, half 1, half 2] = true ∧ reads (charged s j) (half 0) m = true ∧
      reads u (half 2) (zeros 97) = true ∧ reads (afterRead u (half 2) (zeros 97)) (half 1) (zeros 96) = true) := by decide +kernel

/-- Known answers: SHA-256 of "abc" (FIPS 180-4), SHA3-256 of "abc" (FIPS 202). -/
theorem test_sha256 : sha256 abc = toBe 0xba7816bf8f01cfea414140de5dae2223b00361a396177a9cb410ff61f20015ad 32 := by decide +kernel
theorem test_sha3 : sha3 256 abc = toBe 0x3a985da74fe225b2045c172d6bd390bd855f086e3e9d525b46bfe24511431532 32 := by decide +kernel

/-- CRC-32C of "123456789" with initial value zero and no final inversion (R401), worked out from the polynomial. -/
theorem test_crc : crc32c [0x31, 0x32, 0x33, 0x34, 0x35, 0x36, 0x37, 0x38, 0x39] = 0x58E3FA20 := by decide +kernel

/-- A queue with one descriptor ready in its ring: COPY of 3 bytes. -/
def ringed : State :=
  let d : Bytes := [1, 0, 9, 0] ++ toLe 3 4 ++ toLe 0x10000 8 ++ toLe 0x10400 8 ++ toLe 3 4 ++ zeros 36
  let s := ((up.ioWrite mramBase d).2.setFld .Q_CFG [1, 63] .Q_CFG_EN 1).setFld .Q_CFG [1, 63] .Q_CFG_SVC 1
  let s := ((s.setFld .Q_CFG [1, 63] .Q_CFG_SIZE 4).setFld .Q_SQ [1, 63] .Q_SQ_PROD 1).setReg .Q_SQ_BASE [1, 63] (putBits 0 .Q_SQ_BASE_IOVA 0x400)
  (s.setReg .WIN_A [1, 7] (putBits (putBits (putBits (putBits 0 .WIN_A_V 1) .WIN_A_R 1) .WIN_A_W 1) .WIN_A_IOVA 0x10)).setReg .WIN_B [1, 7]
    (putBits 0 .WIN_B_PA (mramBase / 4096))

theorem witness_SliceQueues_fetch : let s := ringed
    let cfg := s.reg .Q_CFG [1, 63]
    s.pdUp 103 = true ∧ s.slices.stopped = false ∧ flag cfg .Q_CFG_EN = true ∧ flag cfg .Q_CFG_ERR = false ∧ bits (s.reg .Q_SQ [1, 63]) .Q_SQ_HEAD = 0 ∧
    bits (s.reg .Q_SQ [1, 63]) .Q_SQ_PROD = 1 ∧ s.slices.jobs = [] ∧ s.cqFull 1 63 = false ∧
    winFind (s.windows 1) (s.fld .Q_SQ_BASE [1, 63] .Q_SQ_BASE_IOVA * 64) 64 true false = some mramBase ∧
    (match s.ioRead mramBase 64 16 (s.slicePid 1) with | (.ok m p, _) => !p.any id && leNat (m.take 4) == 0x90001 | _ => false) = true ∧
    (svcOps (bits cfg .Q_CFG_SVC)).contains 1 = true := by decide +kernel

theorem witness_SliceQueues : let j := job 4 1 14 0 0
    let on (s : State) : State := s.setFld .SW_CTL [] .SW_CTL_EN 1
    (let s := on (working j frame [] [])
     runsAt s 4 1 j [j.rSrc] [half 0] = true ∧ j.param.toNat < 2 ∧ s.pdUp 98 = true ∧ reads (charged s j) (half 0) frame = true ∧
      frame.length + 4 ≤ 9216 ∧ flag ((afterRead (charged s j) (half 0) frame).reg .SW_CTL) .SW_CTL_EN = true ∧
      Eth.parse frame (16 + 1) 0 = some { frameEth 0 with rx := 17 }) ∧
    (let j : Job := { job 5 1 0 64 0 with src := 0 }
     let s := working j [] [] []
     (s.queueJobs 1 63)[0]? = some j ∧ j.posted = false ∧ j.rsv = false ∧ j.len = 0 ∧ j.src = 0 ∧ j.auxLen = 0 ∧ j.aux = 0 ∧ j.key = 0 ∧ j.param = 0 ∧ s.pdUp 103 = true ∧ s.mayStart j = true ∧ j.ranges [j.wDst] = some [half 1] ∧ s.nextFrame (16 + 1) = none) ∧
    (let d : Drain := { slice := 1, jobs := [], queues := [], vecs := [srcCount - 1], req := none }
     let s : State := { up with slices := { up.slices with drains := [d] }, time := 10000000 }
     s.slices.drains = [d] ∧ d.req = none ∧ (∀ y ∈ d.vecs, y < srcCount) ∧ (∀ y ∈ s.slices.jobs, y.id ∉ d.jobs) ∧ d.start + 10000000 ≤ s.time ∧
       d.unbind = false ∧ ({ d with unbind := true } : Drain).unbind = true) := by
  decide +kernel

/-- A whole bank of 128 bytes (R418). -/
def bank128 (seq : Nat) (p : Bytes) : Bytes :=
  recHeader 0x20 seq p.length (recCrc 0x20 seq p) ++ p ++ zeros (32 - p.length) ++ toLe (recCommit 0x20 seq p) 8 ++ zeros 56

theorem witness_SliceQueues_record : let ba := bank128 4 [1]
    let j : Job := { job 6 1 3 0 0 with dst := 0x10400, dstLen := 128, aux := 0x10800 }
    let s := working j abc ba []
    runsAt s 6 1 j (j.rSrc :: j.banks true) [half 0, half 1, half 2] = true ∧ inMram (half 2) = true ∧ half 2 + j.dstLen ≤ mramEnd ∧ j.len + 96 ≤ j.dstLen ∧
    (let u := afterRead (charged s j) (half 1) ba
     let v := afterRead u (half 2) (zeros 128)
     reads (charged s j) (half 1) ba = true ∧ recHead 0x20 128 (ba.take 32) = some 1 ∧ reads u (half 2) (zeros 128) = true ∧
     recHead 0x20 128 (zeros 32) = none ∧ reads v (half 0) abc = true ∧
     recNext 0x20 ba (zeros 128) = (true, 5) ∧
     writes (afterRead v (half 0) abc) (half 2) (recHeader 0x20 5 3 (recCrc 0x20 5 abc) ++ abc) = true) ∧
    (let j : Job := { job 6 2 1 0 0 with src := 0, dst := 0x10400, dstLen := 128, aux := 0x10800, param := 0x10000 }
     let s := working j [] ba []
     runsAt s 6 2 j (⟨j.param.toNat, j.len, false, true⟩ :: j.banks false) [half 0, half 1, half 2] = true ∧ recNewest 0x20 ba (zeros 128) = some (false, 4, [1])) := by
  decide +kernel
/-! ### Fetas -/

/-- Fetas takes next a request of mailbox box, tag 7. -/
def asked (s : State) (box code : Nat) (args : List Nat) (desc : Option (Nat × Nat)) : State :=
  { s with fsi := { s.fsi with accepted := [{ id := 0, box := box, words := reqWords code 7 args desc }] } }

def taken (s : State) (box : Nat) : State :=
  { s with fsi := { s.fsi with accepted := [], rot := if box < 8 then s.fsi.rot else (box - 7) % 8192 } }

theorem asked_next (s : State) (box code : Nat) (args : List Nat) (desc : Option (Nat × Nat)) :
    (asked s box code args desc).nextReq = some { id := 0, box := box, words := reqWords code 7 args desc } := by
  by_cases h : box < 8 <;> simp [State.nextReq, asked, h]

/-- The premise of every statement about an FSI command can be met, whatever its code, arguments, descriptor and mailbox. -/
theorem asked_asks (s : State) (box code : Nat) (args : List Nat) (desc : Option (Nat × Nat)) (h : s.fetasUp = true) :
    (asked s box code args desc).asks (taken s box) box 7 0 code args desc := by
  refine ⟨h, by omega, asked_next s box code args desc, ?_⟩
  simp [asked, taken]

theorem witness_asks : (asked up 7 0x304 [63] none).asks (taken up 7) 7 7 0 0x304 [63] none ∧
    (asked up 8199 0x408 [1] none).asks (taken up 8199) 8199 7 0 0x408 [1] none ∧
    (asked up 0 0x702 [63] (some (2 ^ 24, mramBase))).asks (taken up 0) 0 7 0 0x702 [63] (some (2 ^ 24, mramBase)) ∧ up.descOk (2 ^ 24) mramBase ∧
    up.descOk 1 0 ∧ up.fsi.ops = [] := by
  refine ⟨asked_asks _ _ _ _ _ (by decide +kernel), asked_asks _ _ _ _ _ (by decide +kernel), asked_asks _ _ _ _ _ (by decide +kernel), ?_⟩
  refine ⟨⟨?_, ?_, ?_, ?_⟩, ⟨?_, ?_, ?_, ?_⟩, ?_⟩ <;> decide +kernel

theorem witness_FsiMailboxes : let box := 8199
    let up := up.setReg .SLICE_BIND [8191] 0x80050000
    let full := (up.setFld .MBX_STAT [8191] .MBX_STAT_OUT_BUSY 1)
    up.boxServed 7 = true ∧ up.boxServed box = true ∧
    (let s := full.setReg .OUT_MSG [8191, 0] 0x70408
     s.boxBusy box = true ∧ fsiCodes.contains ((s.boxWords box).headD 0 % 2 ^ 16) = true ∧ (s.boxWords box).headD 0 < 2 ^ 26 ∧
     (s.boxWords box).getD 14 0 = 0 ∧ (s.boxWords box).getD 15 0 = 0 ∧ s.responseDue box = false ∧ s.rangFirst box = true) ∧
    (let s : State := { full with fsi := { full.fsi with ready := [(box, [1])] } }; s.boxBusy box = true ∧ s.responseDue box = true) ∧
    (let s : State := { full.setFld .FSI_MBX_STAT [7] .FSI_MBX_STAT_REQ_BUSY 1 with fsi := { full.fsi with rings := [7, box] } }
     s.boxBusy box = true ∧ s.responseDue box = false ∧ s.rangFirst box = false) ∧
    fsiCodes.contains ((full.boxWords box).headD 0 % 2 ^ 16) = false ∧
    (let s : State := { up with fsi := { up.fsi with ready := [(box, [0x70408, 0])] } }
     s.boxFree box = true ∧ (s.fsi.ready.find? fun x => x.1 == box) = some (box, [0x70408, 0])) ∧
    (let e : FsiEvent := { code := 0x880, seq := 3, data := [1] }
     let s : State := { up with fsi := { up.fsi with queues := [(7, [e]), (box, [e])] } }
     s.fsiQueue 7 = [e] ∧ flag (s.reg .FSI_MBX_STAT [7]) .FSI_MBX_STAT_EVT_FULL = false ∧ s.fsiQueue box = [e] ∧ s.boxFree box = true ∧
     s.responseDue box = false) := by decide +kernel

/-- Logical core 5 runs on physical core 9, nothing else; power and reef as they were. -/
def placed : State :=
  { up with fe := { up.fe with place := [(5, some 9)] }, cores := (up.setCore 9 { runs with l1d := {}, l1i := {} }).cores }

theorem witness_FsiPlanPower :
    (let cm : Commit := { plan := { gen := 2 }, trim := 7, tick := 2, req := 0 }
     let s : State := { up with fe := { up.fe with commit := some cm } }
     s.fe.commit = some cm ∧ cm.plan.gen < 2 ^ 32 ∧ 2 ≤ s.ahead cm.tick ∧ s.ahead cm.tick ≤ 2 ^ 47 ∧ s.fe.passage = none) ∧
    (({ up with fe := { up.fe with passage := some { trim := 3, req := none, step := 2 } } } : State).fe.passage.isSome = true) ∧
    (let s : State := { up with fe := { up.fe with loaded := some { gen := 2 } } }
     s.latestGen < 2 ∧ s.fe.loaded = some { gen := 2 } ∧ 33 ≤ s.ahead 33 ∧ s.ahead 33 ≤ 2 ^ 31) ∧
    (up.scan).2.fe.unrepaired = [] ∧ up.running = [] ∧
    (placed.running = [(5, 9)] ∧ ((placed.trimDef 7).placeOf 5).isSome = true) ∧
    (up.pdUp (67 + 15) = true ∧ up.reefOk 15 3 = true ∧ up.fe.throttled = []) ∧
    (let s : State := { up with fe := { up.fe with trim := 0 } }
     s.requires 93 = false ∧ s.requires 94 = false ∧ s.pdUp 93 = true ∧ s.pdUp 94 = true ∧ (s.quietOff 94 false).pdUp 93 = true) ∧ up.requires 101 = true ∧ up.requires 105 = true ∧
    ({ up with fe := { up.fe with trim := 1 } } : State).requires 106 = true ∧ ({ up with fe := { up.fe with trim := 0 } } : State).requires 106 = false ∧
    (placed.placeOf 5 = some 9 ∧ (placed.core (Fin.ofNat 64 9)).run ≠ .halted ∧ (placed.furl 5).isSome = true) ∧
    (match placed.furl 5 with
     | some s => (s.fe.furled.get none 5).isSome && (match (s.trimDef 4).placeOf 5 with | some q => s.target q == some q | none => false)
     | none => false) = true := by decide +kernel

theorem witness_FsiSliceTenant : let t : Tenant := { persistent := true, resume := false }
    let s : State := { up with fe := { up.fe with tenants := [(8191, some t)] } }
    let b := s.setReg .SLICE_BIND [8191] (BitVec.ofNat 64 (2 ^ 31 + 8191 * 2 ^ 16))
    (s.bound 8191 = false ∧ (s.fe.tenants.get none (8191 * 2 ^ 16 / 2 ^ 16)).isSome = true) ∧
    (b.bound 8191 = true ∧ ((b.unbind 8191 none).slices.drains.any fun d => d.slice == 8191) = false) ∧
    (s.fld .SLICE_GRANT_Q [8191] .SLICE_GRANT_Q_COUNT = 0 ∧ 64 ≤ s.poolFree ∧ s.resumableSlice 8191 = false) ∧
    (s.vecClash 8191 16320 64 true = false ∧ s.vecSources 8191 = []) ∧
    (s.windows 8191 = [] ∧ s.inFitted mramBase (2 ^ 12) = true ∧ s.ponlyBars (s.boundVmid 8191) mramBase = false ∧
      ∀ q < 64, flag (s.reg .Q_CFG [8191, q]) .Q_CFG_EN = false) ∧
    (∀ z ∈ s.pcie.inWins, z.1 = 31 ∨ z.2 = none) ∧ s.vecClash 8192 0 16384 false = false ∧ s.fe.tenants.get none 1 = none ∧ s.allSlicesOf 8191 = [] ∧
    s.fe.tenants.get none (b.fld .SLICE_BIND [8191] .SLICE_BIND_PID / 2 ^ 16) = some t ∧
    (∀ e ∈ s.fe.tenants, ∀ z ∈ e.2.toList, z.status = none) ∧
    (placed.placeOf 5 = some 9 ∧ (placed.core (Fin.ofNat 64 9)).run ≠ .halted ∧ 63 ∉ placed.fe.quarantined ∧ placed.carried 63 = none ∧ placed.leadOf 63 = none ∧
      (placed.moveCore 5 9 63).isSome = true ∧ placed.fe.partner.get none 9 = none ∧ (placed.warmReset 5 9 3).isSome = true) ∧
    (((placed.updCore 9 fun k => { k with run := .stopped .doubleFault }).core (Fin.ofNat 64 9)).run = .stopped .doubleFault) := by decide +kernel
/-! ### The Shroud and the Ratline -/

/-- A window with counter 1 and no payload passes its checks, whatever the port key. -/
theorem window_passes (typ dir acked : Nat) (h1 : le16 (portMsg 1 typ dir 0 acked []) 0xC = dir)
    (h2 : msgType (portMsg 1 typ dir 0 acked []) = 0 ∨ zeroAt (portMsg 1 typ dir 0 acked []) 0x10 8 = true) :
    msgFault (portMsg 1 typ dir 0 acked []) dir 0 = 0 := by
  generalize hw : portMsg 1 typ dir 0 acked [] = w at h1 h2
  have hd : w.take 32 = toLe 1 8 ++ toLe 0 2 ++ toLe typ 2 ++ toLe dir 2 ++ toLe 0 2 ++ toLe acked 8 ++ zeros 8 := by rw [← hw]; rfl
  have hl : w.length = 4096 := by
    rw [← hw]; simp only [portMsg, List.length_append, toLe_length, hmac256_length, zeros_length, List.length_nil]
  have ht : piece w 0xFE0 32 = hmac256 portKeyBytes (w.take 32) := by
    have : w.drop 0xFE0 = hmac256 portKeyBytes (w.take 32) := by
      rw [hd, ← hw]
      simp only [portMsg, List.append_nil]
      exact List.drop_left' (by simp only [List.length_append, toLe_length, zeros_length, List.length_nil])
    rw [piece, this, List.take_of_length_le (by simp [hmac256_length])]
  have hm : msgLen w = 0 := by rw [← hw]; rfl
  have hz : zeroAt w 0x18 8 = true := by rw [← hw]; rfl
  have hr : zeroAt w 0xE 2 = true := by rw [← hw]; rfl
  have hc : msgCounter w = 1 := by
    have : piece w 0 8 = [1, 0, 0, 0, 0, 0, 0, 0] := by rw [← hw]; rfl
    rw [msgCounter, le64, this]; rfl
  rcases h2 with h2 | h2 <;> simp [msgFault, hl, hm, ht, h1, hz, hr, hc, h2]

/-- The Shroud runs; with its firmware, under the seal, and with the port linked. -/
def shrUp : State := { up with shr := { up.shr with held := false } }
def shrFwUp : State := { shrUp with shr := { shrUp.shr with ident := some 1 } }
def unsealed (s : State) : State := s.setFld .SEAL_STAT [] .SEAL_STAT_SEAL 1
def linkUp (s : State) : State := (s.setFld .SHR_PORT_STAT [] .SHR_PORT_STAT_LINK 1).setFld .SHR_CFG [] .SHR_CFG_EN 1

theorem mayOpen_of {s : State} (h : flag (s.reg .SEAL_STAT) .SEAL_STAT_SEAL = true) (h2 : 2 ≤ s.shr.room) (h3 : s.shr.evcnt < evMax) : s.mayOpen := ⟨h, h2, h3⟩

theorem witness_ShroudSealAndImages : let s := shrUp
    let x := s.shr
    s.part.shroud = true ∧ (x.off = false ∧ x.held = false ∧ x.booting = false ∧ x.low = false ∧ 257 ≤ x.room ∧ x.maker = none ∧ x.xtFail = false) ∧
    (flag (s.reg .SEAL_STAT) .SEAL_STAT_SEAL = false ∧ x.pin = false ∧ flag ((unsealed s).reg .SEAL_STAT) .SEAL_STAT_SEAL = true ∧
      flag ((unsealed s).reg .SEAL_STAT) .SEAL_STAT_SESSION = false) ∧
    (shrFwUp.shrFw = true ∧ flag (shrFwUp.reg .SEAL_STAT) .SEAL_STAT_SESSION = false) ∧ s.shrOn = true ∧
    (let t := shrFwUp.setFld .SEAL_STAT [] .SEAL_STAT_SESSION 1; t.shrFw = true ∧ flag (t.reg .SEAL_STAT) .SEAL_STAT_SESSION = true) ∧
    (up.shr.held = true ∧ up.shr.low = false ∧ up.shr.maker = none) ∧
    flag ((s.setFld .PULSE_CFG [7] .PULSE_CFG_EN 1).reg .PULSE_CFG [7]) .PULSE_CFG_EN = true ∧
    (x.adc.get [] 7 = [] ∧ ({ x with adc := [(7, [5])] } : Shroud).adc.get [] 7 = [5]) ∧
    (let pay : Bytes := toLe 0 8 ++ [1]
     8 ≤ pay.length ∧ pay.length ≤ 4032 ∧ le64 pay 0 + (pay.length - 8) ≤ shrBankLen) ∧ (s.shrImage true).isNone = true := by decide +kernel

theorem witness_mayOpen : (unsealed shrFwUp).mayOpen ∧ ¬ shrFwUp.mayOpen :=
  ⟨mayOpen_of (by decide +kernel) (by decide +kernel) (by decide +kernel), fun h => absurd h.1 (by decide +kernel)⟩

theorem witness_ShroudPort : let s := shrFwUp
    (s.shrOn = true ∧ s.shrFw = true ∧ s.portServed = false) ∧ msgFault (portMsg 1 0xF0 dirMs 0 0 []) dirMs s.shr.msLast = 0 ∧
    msgFault (portMsg 1 0xF3 dirMs 0 0 []) dirMs s.shr.msLast = 0 ∧ msgFault (portMsg 1 0xFF dirMs 0 0 []) dirMs s.shr.msLast = 0 ∧
    msgFault (portMsg 1 0x100 dirMs 0 0 []) dirMs s.shr.msLast = 0 ∧ msgFault [] dirMs s.shr.msLast ≠ 0 ∧
    (shrUp.shrOn = true ∧ shrUp.shr.ident = none ∧ s.shr.ident ≠ none) ∧
    msgType (portMsg 1 0xF3 dirMs 0 0 []) = 0xF3 ∧ msgType (portMsg 1 0x100 dirMs 0 0 []) = 0x100 ∧
    (let s := linkUp s
     s.portServed = true ∧ s.fe.shrHeld.length < 16 ∧ s.part.shroud = true ∧ s.linked = true ∧ s.fe.shrWait = none ∧ s.fe.shrOut = [] ∧
     msgFault (portMsg 1 0x100 dirSm 0 0 []) dirSm s.fe.smLast = 0 ∧ msgFault (portMsg 1 0 dirSm 0 9 []) dirSm s.fe.smLast = 0 ∧
     le64 (portMsg 1 0 dirSm 0 9 []) 0x10 = 9 ∧ msgFault [] dirSm s.fe.smLast ≠ 0) ∧
    (s.shr.off = false ∧ s.shr.held = false ∧ s.pdUp 2 = true ∧ s.linked = false ∧ s.shr.evcnt < 2 ^ 32) ∧ s.fe.shrHeld = [] := by
  refine ⟨by decide +kernel, window_passes _ _ _ rfl (.inr rfl), window_passes _ _ _ rfl (.inr rfl), window_passes _ _ _ rfl (.inr rfl),
    window_passes _ _ _ rfl (.inr rfl), by simp [msgFault], by decide +kernel, rfl, rfl, ⟨by decide +kernel, by decide +kernel, by decide +kernel, by decide +kernel,
    by decide +kernel, by decide +kernel, window_passes _ _ _ rfl (.inr rfl), window_passes _ _ _ rfl (.inl rfl), rfl, by simp [msgFault]⟩, by decide +kernel, rfl⟩

theorem witness_RatlineCommands : let t : Token := { num := 1, vmid := 0, k := true, h := true, sealedOk := false, all := false, mask := 1, ends := 10 }
    (up.jtag.token = none ∧ up.fetasUp = true ∧ up.lifecycle = 0 ∧ up.fe.tokens.length < 16 ∧ up.responseScope [] = none) ∧
    ({ up with fe := { up.fe with otp := { up.fe.otp with lifecycle := 2 } } } : State).lifecycle ≠ 0 ∧
    (let s : State := { up with jtag := { up.jtag with token := some 1 }, fe := { up.fe with tokens := [t] } }
     s.jtag.token = some 1 ∧ (s.fe.tokens.find? fun y => y.num == 1) = some t) ∧
    dapReach t (unitBase + 16 * 2 ^ 24) = true ∧ (unitBase + 16 * 2 ^ 24) % 4 = 0 ∧ dapReach t (unitBase + 16 * 2 ^ 24 + 2 ^ 22) = false ∧
    dapReach t unitEnd = false := by decide +kernel
/-! ### Records, firmware and keys -/

theorem witness_FsiRecordsAndReports : let d : Douse := { epoch := 1, gen := 1, tick := 1, time := 1, mode := 4, source := 1, sectors := 0, seq := 1, bankSeq := 1, cores := [], regs := [] }
    let m7 : State := { up with mode := .m7 }
    (m7.mode = .m7 ∧ ({ m7 with fe := { m7.fe with tested := [(1, 63)] } } : State).fe.tested.contains (1, 63) = true) ∧
    (up.fsi.log.map fun e => e.1).Pairwise (fun a b => a < b) ∧
    (recNext 0x10 (up.fe.records.get ([], []) 63).1 (up.fe.records.get ([], []) 63).2 = (false, 1)) ∧
    (let b := toLe 0 0
     recNewest 0x20 (bank128 4 [1]) [] = some (false, 4, [1]) ∧ b = []) ∧
    (let s : State := { up with fe := { up.fe with douse := some d } }
     s.fe.douseCut = none ∧ s.fe.douse = some d) ∧ up.tick < 2 ^ 48 - 1 ∧
    (flag (up.reg .MG_STATUS [1]) .MG_STATUS_DEGRADED = false ∧ up.groupUp 1 = true ∧ up.dram.retrain.get [] 1 = []) ∧
    (reach .fetas .MG_STATUS [1] = true ∧ reach .fetas .MG_SPARE [1] = true ∧ reach .fetas .MG_SCRUB [0] = true ∧ reach .fetas .MR_STATUS [] = true ∧
      reach .fetas .MR_DIE [3] = true) ∧ up.fe.tokens.length < 16 := by decide +kernel

theorem witness_FsiFirmwareTraceKeys : let t : Token := { num := 9, vmid := 0, k := true, h := true, sealedOk := false, all := false, mask := 1, ends := 10 }
    (let s : State := { up with fe := { up.fe with hostBanks := { up.fe.hostBanks with staged := true } } }
     (s.banks true).staged = true ∧ (s.banks true).other.valid = true ∧ s.deployed = false) ∧
    (let s := up.setFld .QSPI_CFG [] .QSPI_CFG_SIZE 31
     0x7FFFF000 % 4096 = 0 ∧ 0x7FFFF000 + 4096 ≤ s.flashSize ∧ s.flashSize ≤ 2 ^ 32) ∧
    (up.fe.tokens.length < 16 ∧ ({ up with fe := { up.fe with tokens := [t] } } : State).fe.tokens.any (fun y => y.num == 9) = true) ∧
    ((up.flushRange 0 (2 ^ 21)).1 = 0 ∧ (0 + 1) * 2 ^ 21 ≤ up.part.dramEnd) ∧ sliceKeyOf 2 (zeros 32) = some (.aes (zeros 32)) ∧
    (let s : State := { up with slices := { up.slices with keys := [(8191 * 16 + 15, some (.ecdsa 1))] } }
     s.slices.keys.get none (8191 * 16 + 15) = some (.ecdsa 1)) := by decide +kernel

/-! ### The Crow's nest, boots, reef and health -/

theorem witness_CrowsNest : let c (f : Crow → Crow) (s : State) : State := { s with crow := f s.crow }
    let m0 : State := { up with mode := .m0 }
    (let s := (((up.setFld .PF_CFG [] .PF_CFG_DOUSE_TH 100).setFld .PF_CFG [] .PF_CFG_EARLY_TH 110).setFld .PF_CFG [] .PF_CFG_FILT 2).setFld .PF_CFG []
       .PF_CFG_PFW_EN 1
     199 < 2 * s.fld .PF_CFG [] .PF_CFG_DOUSE_TH ∧ s.fld .PF_CFG [] .PF_CFG_FILT + 1 ≤ 3 ∧ ¬ (200 < 2 * s.fld .PF_CFG [] .PF_CFG_DOUSE_TH) ∧
     2 * s.fld .PF_CFG [] .PF_CFG_DOUSE_TH + 40 ≤ 240 ∧ 219 < 2 * s.fld .PF_CFG [] .PF_CFG_EARLY_TH ∧
     2 * s.fld .PF_CFG [] .PF_CFG_EARLY_TH + 40 ≤ 260 ∧ ¬ (260 < 2 * s.fld .PF_CFG [] .PF_CFG_EARLY_TH)) ∧
    (up.crow.mastOff = false ∧ flag ((up.setFld .PF_CFG [] .PF_CFG_PFW_EN 1).reg .PF_CFG) .PF_CFG_PFW_EN = true ∧
      flag ((up.setFld .PF_CFG [] .PF_CFG_PF 1).reg .PF_CFG) .PF_CFG_PF = true) ∧
    (let s : State := { up with fe := { up.fe with boot := .done } }
     flag (s.reg .PF_CFG) .PF_CFG_PF = false ∧ s.crow.dousing = false ∧ s.crow.waitGood = false ∧ s.mode ≠ .m0 ∧ s.fe.boot = .done) ∧
    (let s : State := { up with fe := { up.fe with boot := .noHost, bootWhy := 1 } }; s.fe.boot = .noHost ∧ s.fe.bootWhy ≠ 0) ∧
    (let s := c (fun k => { k with dousing := true, good := false }) up; s.crow.dousing = true ∧ s.crow.good = false) ∧
    (let s := c (fun k => { k with good := false }) up; s.crow.good = false ∧ s.crow.waitGood = false ∧ s.crow.heldWake = false) ∧
    (let s := c (fun k => { k with good := false, waitGood := true }) m0
     s.crow.waitGood = true ∧ s.crow.resetLow = false ∧ s.crow.cut = false ∧ s.crow.dousing = false ∧ s.mode = .m0 ∧ s.pwrTodo s.bootMode ≠ []) ∧
    (let s := c (fun k => { k with todo := [(5, true)], after := .wake }) m0; s.crow.todo = [(5, true)] ∧ s.crow.after = .wake) ∧
    (let s := up.setFld .WAKE_CMP [7] .WAKE_CMP_EN 1
     flag (s.reg .WAKE_CMP [7]) .WAKE_CMP_EN = true ∧ flag (s.reg .WAKE_CMP [7]) .WAKE_CMP_OUT = false ∧
     (let r := (((s.setFld .WAKE_CMP [7] .WAKE_CMP_THRESH 100).setFld .WAKE_CMP [7] .WAKE_CMP_HYST 3).setFld .WAKE_CMP [7] .WAKE_CMP_DEB 2).reg .WAKE_CMP [7]
      flag r .WAKE_CMP_POL = false ∧ 5 * bits r .WAKE_CMP_THRESH < 501 ∧ 459 + [0, 10, 20, 40].getD (bits r .WAKE_CMP_HYST) 0 < 5 * bits r .WAKE_CMP_THRESH ∧
      bits r .WAKE_CMP_DEB ≤ 2)) ∧
    (let s := up.setFld .ALARM_HI [3] .ALARM_HI_EN 1
     flag (s.reg .ALARM_HI [3]) .ALARM_HI_EN = true ∧
      bits (s.reg .ALARM_HI [3]) .ALARM_HI_TICK * 2 ^ 32 + s.fld .ALARM_LO [3] .ALARM_LO_TICK ≤ s.tick ∧ s.fetasUp = true ∧ s.mode ≠ .m0 ∧
      (s.setFld .FSI_STATUS [] .FSI_STATUS_FETAS_UP 0).fetasUp = false) ∧
    (((up.setReg .UART_ACT [] 0x20).reg .UART_ACT).getLsbD 5 = true) ∧ up.crow.resetLow = false ∧
    (let s := c (fun k => { k with resetLow := true, good := false }) up; s.crow.resetLow = true ∧ (s.crow.waitGood = false ∨ s.crow.good = false)) ∧
    (let s : State := { c (fun k => { k with cut := true, good := false }) up with fe := { up.fe with junction := 1249 } }
     s.crow.cut = true ∧ s.fe.junction < 1250 ∧ s.crow.good = false) := by decide +kernel

theorem witness_BootAndRestart : let fe (f : Fetas → Fetas) (s : State) : State := { s with fe := f s.fe }
    let timed (s : State) : State := { s with tick := 3000000000 }
    (up.fetasUp = true ∧ (timed up).fld .WDOG_CFG [] .WDOG_CFG_TIMEOUT ≤ (timed up).ticksSince (timed up).crow.kicked) ∧
    (let s := fe (fun f => { f with fw := { f.fw with trial := true } }) (timed up); s.fe.fw.trial = true ∧ 1966080 ≤ s.ticksSince s.fe.upSince) ∧
    (let s := fe (fun f => { f with fwAct := some (0, 1) }) up; s.actDue true = false ∧ s.actDue false = true) ∧
    (let s := fe (fun f => { f with hostAct := some (0, 1) }) up; s.actDue true = true) ∧
    (fe (fun f => { f with otp := { f.otp with lifecycle := 2 } }) up).deployed = true ∧
    ((timed up).scanWaits = false ∧ 327680 ≤ (timed up).ticksSince (timed up).fe.digestTick ∧ up.ticksSince up.fe.digestTick < 327680) ∧
    (let s := fe (fun f => { f with down := true, fw := { f.fw with trial := true, failed := 2 } }) (up.setFld .FSI_STATUS [] .FSI_STATUS_FETAS_UP 0)
     s.fe.down = true ∧ s.fetasUp = false ∧ s.fe.fw.trial = true ∧ 2 ≤ s.fe.fw.failed ∧ s.waitingBoxes = []) ∧
    (let cm : Commit := { plan := { gen := 1 }, trim := 4, tick := 0, req := 1 }
     let s := fe (fun f => { f with modeTick := some cm }) up
     s.dueCommit = some (true, cm) ∧ s.ticksSince cm.tick < 2 ^ 47 ∧ up.ticksSince 1 = 2 ^ 48 - 1 ∧ s.mode ≠ .m0 ∧ s.pdUp 2 = true ∧ s.fe.passage = none ∧
      (s.commitSwitch true cm).fe.passage = none) ∧
    (let x : Passage := { trim := 4, req := some 1, step := 2 }
     let s := fe (fun f => { f with passage := some x, place := [(5, some 9)], modeTick := some { plan := { gen := 1 }, trim := 3, tick := 0, req := 1 } })
       (up.setCore 9 { runs with run := .halted })
     let left (z : State) : List Nat := z.unplaced (s.trimDef x.trim)
     (s.commitSwitch true { plan := { gen := 1 }, trim := 3, tick := 0, req := 1 }).fe.passage = some x ∧ left (s.furlEach (left s)) = left s ∧ left s ≠ [] ∧
     s.fetasUp = true ∧ (fe (fun f => { f with modeTick := none }) s).dueCommit = none ∧ (s.setFld .FSI_STATUS [] .FSI_STATUS_FETAS_UP 0).fetasUp = false ∧
     ({ x with step := 5, trim := 0 } : Passage).trim = 0 ∧ ({ x with step := 9 } : Passage).next = none) ∧
    (let s := fe (fun f => { f with boot := .noHost }) (timed up)
     s.bootSource = 0 ∧ 1966080 ≤ s.ticksSince s.fe.searchAt ∧ up.ticksSince up.fe.searchAt < 327680) ∧
    ({ up with crow := { up.crow with sel := 2 } } : State).bootSource = 2 := by decide +kernel

theorem witness_ReefAndHealth : let s := up.setFld .QUAD_REEF [15] .QUAD_REEF_LEVEL 7
    (s.pdUp (67 + 15) = true ∧ 5 ≤ s.level 15 ∧ s.level 15 ≤ 7 ∧ flag (s.reg .QUAD_REEF [15]) .QUAD_REEF_GUARD = false ∧
      (s.trimDef s.fe.trim).guardMa < 100000 ∧ s.fld .QUAD_REEF [15] .QUAD_REEF_VOLT + 45 < 1024) ∧
    (let t := (s.setFld .QUAD_REEF [15] .QUAD_REEF_GUARD 1).setFld .QUAD_REEF [15] .QUAD_REEF_VOLT 45
     flag (t.reg .QUAD_REEF [15]) .QUAD_REEF_GUARD = true ∧ 45 ≤ t.fld .QUAD_REEF [15] .QUAD_REEF_VOLT) ∧
    (up.crow.cut = false ∧ up.crow.mastOff = false) ∧
    (s.fe.coolAt ≤ s.time ∧ s.fe.warmAt ≤ s.time ∧ ({ s with fe := { s.fe with coolAt := 5, warmAt := 5 } } : State).time < 5) ∧
    (let t : State := { s with fe := { s.fe with junction := 1450 } }; 1450 ≤ t.fe.junction ∧ t.fetasUp = true ∧ 3 < t.level 15) ∧
    (let t : State := { up with fe := { up.fe with junction := 1399, throttled := [(15, 1)] } }
     t.fe.junction < 1400 ∧ t.fe.throttled = [(15, 0 + 1)] ∧ t.level 15 < 7 ∧ t.fe.reefWait = []) ∧
    (let t : State := { up.setFld .HEALTH_STAT [] .HEALTH_STAT_PIN 0 with tick := 327680, fe := { up.fe with healthClear := some 0 } }
     t.fe.healthClear = some 0 ∧ 327680 ≤ t.ticksSince 0 ∧ t.healthPin = 0 ∧ t.healthBits = 0) ∧
    (let t : State := { up.setFld .HSR_CFG [1] .HSR_CFG_MODE 1 with time := 10000000001, fe := { up.fe with pathLost := [(3, some 0)] } }
     t.fe.pathLost = [(3, some 0)] ∧ t.instOf 3 = some (1, 1) ∧ 0 + 10000000000 < t.time) ∧
    (let t : State := { up with mode := .m7 }
     t.mode = .m7 ∧ t.fetasUp = true ∧ t.meshQuiet = true ∧ meshPd (67 + 15) = 92 ∧ meshPd 67 = 91) ∧
    (let t : State := { placed with reports := [.machineCheck 9], fe := { placed.fe with quarantined := List.range 64 } }
     t.fe.selfTest = none ∧ t.reports.find? Report.isCheck = some (.machineCheck 9) ∧
      t.carried 9 = some 5 ∧ t.fe.partner.get none 9 = none ∧ t.pickBackstay (9 / 4) = none) ∧
    (let t : State := { placed with reports := [.pairCheck 9], fe := { placed.fe with partner := [(9, some 10)] } }
     t.reports.find? Report.isCheck = some (.pairCheck 9) ∧ (t.onPair 9).isSome = true ∧
     (let s := t.setFld .FSI_STATUS [] .FSI_STATUS_FETAS_UP 0
      s.fetasUp = false ∧ s.pdUp (3 + 9) = true ∧ (s.carried 9).isSome = true ∧ (s.fe.partner.get none 9).isSome = true ∧ (s.leadOf 10).isSome = true)) ∧
    (let t : State := { placed with fe := { placed.fe with selfTest := some 9 } }; t.fe.selfTest = some 9 ∧ t.carried 9 = some 5) := by decide +kernel

/-! ### Encodings -/

/-- The spec's worked encodings (spec/02, section Worked encoding) and its canonical no-operation (R46). -/
theorem test_worked_encodings :
    decodeWord 0 0x70AA0018 = some (.lw 0 5 10 0x18) ∧ decodeWord 0 0x04E62808 = some (.slt 0 7 6 5) ∧
    decodeWord 0 0x900A3908 = some (.sd 0 7 10 0x108) ∧ decodeWord 0 0x21080001 = some (.addi 0 8 8 1) ∧
    decodeWord 0 0xB1097FFC = some (.bltu 0 8 9 false 0x7FFC) ∧ decodeWord 0 0xB109FFFC = some (.bltu 0 8 9 true 0x7FFC) ∧
    decodeWord 0 0x20000000 = some (.addi 0 0 0 0) := by decide +kernel

/-- R48: the zero word is illegal, and so is one of a reserved major opcode, and LUI with its 0 field not zero. -/
theorem test_illegal_words : decodeWord 0 0 = none ∧ decodeWord 0 0x18000000 = none ∧ decodeWord 0 0x38A00001 = some (.lui 0 5 1) ∧
    decodeWord 0 0x38A10001 = none := by decide +kernel

/-! ### The block's step -/

theorem witness_StepRunsFront : let s : State := { up with pending := [.rsflush 5, .registerWrite .shroud 0 .b4 1] }
    s.pending = .rsflush 5 :: [.registerWrite .shroud 0 .b4 1] := rfl

theorem witness_StepKeepsLedger : step State.reset = .next State.reset.idleStep ∧
    step { State.reset with pending := [.rsflush 5] } = exec (.rsflush 5) State.reset ∧ State.reset.shr.ledgerOk := ⟨rfl, rfl, rfl⟩

/-! ### Ill-formed commands, one for each check -/

theorem test_illformed_access : (Instr.registerWrite .shroud 0x3000000002 .b4 0).wellFormed = false := by decide
theorem test_illformed_inbound : (Instr.pcieInboundRequest true 0 2 [1] .good).wellFormed = false ∧ (Instr.pcieInboundRequest false 0 2 [1, 2] .good).wellFormed = false ∧
    (Instr.pcieInboundRequest true 0 2 [1, 2] .good).wellFormed = true := by decide
theorem test_illformed_array : (Instr.sectorData 0 false 0 0 false false { poison := false, err := some { cache := .l1i 0, set := 0, way := 0, sector := 0, found := .dataCorrected } }).wellFormed = false ∧
    (Instr.sectorData 0 false 0 0 false false { poison := false, err := some { cache := .l2 0, set := 512, way := 0, sector := 0, found := .tagLost } }).wellFormed = false := by decide
theorem test_illformed_box : (Instr.requestAccept 8200).wellFormed = false ∧ (Instr.responsePost 8200).wellFormed = false ∧
    (Instr.eventPost 8200).wellFormed = false ∧ (Instr.eventPost 8199).wellFormed = true := by decide
theorem test_illformed_image (img : List Byte) (h : 0x1000000 < img.length) : (Instr.bootPcieStaged img []).wellFormed = false ∧
    (∀ man : List Byte, 0x7FFFFC < man.length → (Instr.bootPcieStaged [] man).wellFormed = false) := by
  refine ⟨?_, fun man hm => ?_⟩ <;> simp [Instr.wellFormed] <;> omega
theorem test_illformed_window : (Instr.msMessage (some [])).wellFormed = false ∧ (Instr.smMessage (.raw [1])).wellFormed = false := by decide
theorem test_illformed_message : (Instr.smMessage (.firmware 0xFF [])).wellFormed = false ∧
    (Instr.smMessage (.firmware 0x100 (List.replicate 4033 0))).wellFormed = false ∧ (Instr.smMessage (.firmware 0x100 [])).wellFormed = true := by decide +kernel
theorem test_illformed_response : (Instr.response (List.replicate 3505 0)).wellFormed = false ∧ (Instr.response (List.replicate 3504 0)).wellFormed = true := by
  decide +kernel

end Sys2Proof.Tests
end

/-! PROOFS. The scope family: what a register holds after accesses (R14), which accesses are refused (R30, R33, R36, R166), reads that
clear or act, the state after reset (R16, R37), and the acknowledgement of Device stores (R214). -/

namespace Sys2Proof.Machine

/-! ### Access codes (R14) -/

/-- Bit by bit what a write leaves of a register. -/
theorem RegDef.getLsbD_written (d : RegDef) (old v lanes : Word) {i : Nat} (hi : i < 64) :
    (d.written old v lanes).getLsbD i =
      (((if d.rw.getLsbD i && lanes.getLsbD i then v.getLsbD i else old.getLsbD i) &&
          !(v.getLsbD i && d.w1c.getLsbD i && lanes.getLsbD i)) ||
        (v.getLsbD i && d.w1s.getLsbD i && lanes.getLsbD i)) := by
  unfold RegDef.written
  simp only [BitVec.getLsbD_or, BitVec.getLsbD_and, BitVec.getLsbD_not, hi, decide_true, Bool.true_and]
  cases d.rw.getLsbD i <;> cases lanes.getLsbD i <;> simp

/-- Bit by bit what a read leaves of a register. -/
theorem RegDef.getLsbD_afterRead (d : RegDef) (v lanes : Word) {i : Nat} (hi : i < 64) :
    (d.afterRead v lanes).getLsbD i = (v.getLsbD i && !(d.rc.getLsbD i && lanes.getLsbD i)) := by
  simp [RegDef.afterRead, hi]

/-- A register without RC fields keeps its value when it is read. -/
theorem RegDef.afterRead_of_rc_zero {d : RegDef} (h : d.rc = 0) (v lanes : Word) : d.afterRead v lanes = v := by
  refine BitVec.eq_of_getLsbD_eq fun i hi => ?_
  rw [RegDef.getLsbD_afterRead d v lanes hi, h]
  simp

/-! ### Refused accesses (R30, R33, R36, R166) -/

section Refused
variable {s : State} {w : Who} {pa : Nat} (size v : Nat)

theorem State.busRead_reserved (h : s.rangeOf pa = .reserved) : s.busRead w pa size = (0, s.busErr w false 1 pa) := by
  simp only [State.busRead, h]

theorem State.busWrite_reserved (h : s.rangeOf pa = .reserved) : s.busWrite w pa size v = s.busErr w true 1 pa := by
  simp only [State.busWrite, h]

theorem State.busRead_dramBeyond (h : s.rangeOf pa = .dramBeyond) : s.busRead w pa size = (0, s.busErr w false 2 pa) := by
  simp only [State.busRead, h]

theorem State.busWrite_dramBeyond (h : s.rangeOf pa = .dramBeyond) : s.busWrite w pa size v = s.busErr w true 2 pa := by
  simp only [State.busWrite, h]

/-- What a read of the QSPI window returns: the flash where it has some, and zero with a report elsewhere (R340). -/
theorem State.busRead_qspi (h : s.rangeOf pa = .qspi) : s.busRead w pa size =
    if qspiOk s pa then (s.flashRead (pa - qspiBase) size, s) else (0, s.busErr w false 5 pa) := by
  simp only [State.busRead, h]

theorem State.busWrite_qspi (h : s.rangeOf pa = .qspi) : s.busWrite w pa size v = s.busErr w true 5 pa := by
  simp only [State.busWrite, h]

theorem State.busRead_unit_refused {e : Nat} (h : s.rangeOf pa = .unit) (hl : s.locate w pa = .error e) :
    s.busRead w pa 4 = (0, s.busErr w false e pa) := by
  simp [State.busRead, h, State.unitRead, State.read32, hl]

theorem State.busWrite_unit_refused {e : Nat} (h : s.rangeOf pa = .unit) (hl : s.locate w pa true = .error e) :
    s.busWrite w pa 4 v = s.busErr w true e pa := by
  simp [State.busWrite, h, State.unitWrite, State.write32, hl]

/-- A write of a register that is neither 4 nor 8 bytes wide is only reported. -/
theorem State.busWrite_narrow {x : Hit} (h : s.rangeOf pa = .unit) (hl : s.locate w pa true = .ok x) (h4 : size ≠ 4) (h8 : size ≠ 8) :
    s.busWrite w pa size v = s.busErr w true 7 pa := by
  simp [State.busWrite, h, State.unitWrite, hl, h4, h8]

end Refused

/-- Settles O21: bit by bit for the access codes, and range by range for the refused accesses. -/
theorem accessRules : Obligations.AccessRules := by
  unfold Obligations.AccessRules
  refine ⟨fun d old v lanes i hi => ?_, fun s w pa v h => ?_⟩
  · rw [RegDef.getLsbD_written _ _ _ _ hi, RegDef.getLsbD_afterRead _ _ _ hi]
    refine ⟨fun hl => ?_, fun hl hc hs => ?_, fun hl hw hc hs => ?_, fun hl hw hc hs => ?_, fun hr hl => ?_, fun hr => ?_⟩
    · simp [hl]
    · simp [hl, hc, hs]
    · simp [hl, hw, hc, hs]
    · simp [hl, hw, hc, hs]
    · simp [hl, hr]
    · simp [hr]
  · refine ⟨fun hp => ⟨State.busRead_reserved 4 hp, State.busWrite_reserved 4 v hp⟩,
      fun hp => ⟨State.busRead_dramBeyond 4 hp, State.busWrite_dramBeyond 4 v hp⟩,
      fun hp hq => ⟨?_, State.busWrite_qspi 4 v hp⟩,
      fun e hp hl => State.busRead_unit_refused hp hl, fun e hp hl => State.busWrite_unit_refused v hp hl,
      fun hp hl => ⟨State.busWrite_narrow 1 v hp hl (by decide) (by decide), State.busWrite_narrow 2 v hp hl (by decide) (by decide)⟩⟩
    rw [State.busRead_qspi 4 hp, hq]
    rfl

/-! ### Reads of registers by a sender -/

/-- Only the unit block of the distributor lies below 0x30_0300_0000 and from 0x30_0200_0000 up. -/
theorem inDist_eq_false {pa : Nat} (h : pa < 0x3002000000 ∨ 0x3003000000 ≤ pa) : inDist pa = false := by
  have hd : Reg.DIST_CTL.at [] / 2 ^ 24 = 0x3002 := by decide
  simp only [inDist, hd, beq_eq_false_iff_ne]
  omega

theorem Reg.base_le_at (r : Reg) (idx : List Nat) : r.spec.base ≤ r.at idx := Nat.le_add_right _ _

/-- A register whose header places it above the distributor. -/
theorem Reg.not_inDist {r : Reg} (h : 0x3003000000 ≤ r.spec.base) (idx : List Nat) : inDist (r.at idx) = false :=
  inDist_eq_false (.inr (h.trans (r.base_le_at idx)))

theorem Reg.quadReef_not_inDist (q : Fin 16) : inDist (Reg.QUAD_REEF.at [q.val]) = false := by
  have hq : Reg.QUAD_REEF.at [q.val] = 0x3000000100 + 4 * q.val := rfl
  exact inDist_eq_false (.inl (by omega))

/-- An access that does not reach the distributor waits for no EOI (R268). -/
theorem State.eoisFirst_of_not_inDist {pa : Nat} (s : State) (by' : Sender) (h : inDist pa = false) : s.eoisFirst by' pa = s := by
  cases by' <;> simp [State.eoisFirst, h]

/-- A read by a sender that reaches a register, behind the EOIs before it: u is the state after those. -/
theorem State.regR_after_eois {s u : State} {by' : Sender} {r : Reg} {idx : List Nat} (hu : u = s.eoisFirst by' (r.at idx))
    (h : u.reaches (u.who by') r idx) (hw : r.spec.wide = false) :
    s.regR by' r idx = { (u.regRead (u.who by') r idx lanes32).2 with
      answer := BitVec.ofNat 64 ((u.regRead (u.who by') r idx lanes32).1.toNat % 2 ^ 32) } := by
  subst hu
  simp only [State.regR, State.busR, State.busRead_reaches h hw]

/-- A read by a sender that reaches a register outside the distributor. -/
theorem State.regR_reaches {s : State} {by' : Sender} {r : Reg} {idx : List Nat} (hd : inDist (r.at idx) = false)
    (h : s.reaches (s.who by') r idx) (hw : r.spec.wide = false) :
    s.regR by' r idx = { (s.regRead (s.who by') r idx lanes32).2 with
      answer := BitVec.ofNat 64 ((s.regRead (s.who by') r idx lanes32).1.toNat % 2 ^ 32) } :=
  State.regR_after_eois (s.eoisFirst_of_not_inDist by' hd).symm h hw

/-- A read of the register returns what it reads as and does nothing but clear its RC fields (R14). -/
def Reg.ReadsPlainly (r : Reg) : Prop := ∀ (s : State) (w : Who) (idx : List Nat) (lanes : Word),
  s.regRead w r idx lanes = (s.busValue r idx, if r.spec.rc = 0 then s else s.setReg r idx (r.spec.afterRead (s.reg r idx) lanes))

/-- A write of a register changes that register alone. -/
theorem OnReg.setReg (s : State) (r : Reg) (idx : List Nat) (v : Word) : OnReg s (s.setReg r idx v) r idx v :=
  ⟨rfl, State.reg_setReg _ _ _ _, fun _ ha => SMap.find_set_other _ ha _ _⟩

/-- What a read with plain effect leaves differs in the register's RC fields alone. -/
theorem OnReg.afterRead (s : State) (r : Reg) (idx : List Nat) (lanes : Word) :
    OnReg s (if r.spec.rc = 0 then s else s.setReg r idx (r.spec.afterRead (s.reg r idx) lanes)) r idx
      (r.spec.afterRead (s.reg r idx) lanes) := by
  split
  · next h => exact ⟨rfl, (RegDef.afterRead_of_rc_zero h _ _).symm, fun _ _ => rfl⟩
  · exact OnReg.setReg _ _ _ _

/-- The answer of a read command stands beside the registers. -/
theorem OnReg.answer {s t : State} {r : Reg} {idx : List Nat} {v : Word} (h : OnReg s t r idx v) (a : Word) :
    OnReg { s with answer := a } { t with answer := a } r idx v :=
  ⟨by rw [h.frame], h.value, h.others⟩

/-- A command that reads such a register: it answers what the register reads as, and clears its RC fields. -/
theorem completes_plainRead {i : Instr} {s : State} {by' : Sender} {r : Reg} {idx : List Nat} (he : exec i s = ok (s.regR by' r idx))
    (hp : r.ReadsPlainly) (hw : r.spec.wide = false) (hd : inDist (r.at idx) = false) (h : s.reaches (s.who by') r idx) :
    Completes i s fun t => t.answer = BitVec.ofNat 64 ((s.busValue r idx).toNat % 2 ^ 32) ∧
      OnReg { s with answer := t.answer } t r idx (r.spec.afterRead (s.reg r idx) lanes32) := by
  rw [State.regR_reaches hd h hw, hp] at he
  exact completes_ok he ⟨rfl, (OnReg.afterRead s r idx lanes32).answer _⟩

/-! ### The counters of a port (R311) -/

/-- The i-th counter of a port, in address order. -/
def portCounter (i : Fin 8) : Reg :=
  [Reg.CNT_RX, .CNT_TX, .CNT_DROP_LEN, .CNT_DROP_FCS, .CNT_DROP_OFF, .CNT_DROP_VLAN, .CNT_DROP_FULL, .CNT_LEARN_FULL].getD i.val .CNT_RX

theorem portCounter_base (i : Fin 8) : (portCounter i).spec.base = Reg.CNT_RX.spec.base + 4 * i.val := by
  revert i; decide

theorem portCounter_dims (i : Fin 8) : (portCounter i).spec.dims = Reg.CNT_RX.spec.dims := by
  revert i; decide

theorem portCounter_at (i : Fin 8) (p : Nat) : (portCounter i).at [p] = Reg.CNT_RX.at [p] + 4 * i.val := by
  unfold Reg.at
  rw [portCounter_base, portCounter_dims]
  omega

theorem portCounter_not_wide (i : Fin 8) : (portCounter i).spec.wide = false := by
  revert i; decide

theorem portCounter_not_inDist (i : Fin 8) (p : Nat) : inDist ((portCounter i).at [p]) = false :=
  Reg.not_inDist (by rw [portCounter_base]; exact Nat.le_add_right_of_le (by decide)) _

theorem portCounter_readsPlainly (i : Fin 8) : (portCounter i).ReadsPlainly := by
  fin_cases i <;> exact fun _ _ _ _ => rfl

theorem exec_portCounterRead (by' : Sender) (p : Fin 12) (i : Fin 8) (s : State) :
    exec (.portCounterRead by' p i) s = ok (s.regR by' (portCounter i) [p.val]) := by
  unfold State.regR
  rw [portCounter_at]
  rfl

/-! ### Reads that act (R273, R329, R332, R337, R338, R340, R387) -/

/-- A value as a 32-bit read returns it. -/
theorem answer_ofNat (n : Nat) : BitVec.ofNat 64 ((BitVec.ofNat 64 n).toNat % 2 ^ 32) = BitVec.ofNat 64 (n % 2 ^ 32) := by
  rw [BitVec.toNat_ofNat, Nat.mod_mod_of_dvd _ (by decide)]

/-- What a read of a receive FIFO returns: its oldest entry with VALID in bit 31, or zero when it is empty (R329, R337, R338). -/
def fifoWord {n : Nat} : List (BitVec n) → Word
  | [] => 0
  | c :: _ => BitVec.ofNat 64 (2 ^ 31 + c.toNat)

theorem State.busValue_uartRxd (s : State) (u : Nat) : s.busValue .UART_RXD [u] = fifoWord (s.uart u).rx := by
  unfold fifoWord
  cases hx : (s.uart u).rx <;> simp only [State.busValue, List.headD_cons, hx]

theorem State.busValue_spiRxd (s : State) (k : Nat) : s.busValue .SPI_RXD [k] = fifoWord (s.spi k).rx := by
  unfold fifoWord
  cases hx : (s.spi k).rx <;> simp only [State.busValue, List.headD_cons, hx]

theorem State.busValue_i2cRxd (s : State) (k : Nat) : s.busValue .I2C_RXD [k] = fifoWord (s.i2c k).rx := by
  unfold fifoWord
  cases hx : (s.i2c k).rx <;> simp only [State.busValue, List.headD_cons, hx]

theorem State.busValue_dbNext (s : State) (l : Nat) : s.busValue .DB_NEXT [l] =
    match s.dbNext l with | some m => BitVec.ofNat 64 (2 ^ 31 + m) | none => 0 := rfl

@[simp] theorem State.uart_setUart (s : State) (u : Nat) (x : Uart) : (s.setUart u x).uart u = x := SMap.get_set_self _ _ _ _
@[simp] theorem State.spi_setSpi (s : State) (k : Nat) (x : Spi) : (s.setSpi k x).spi k = x := SMap.get_set_self _ _ _ _
@[simp] theorem State.i2c_setI2c (s : State) (k : Nat) (x : I2c) : (s.setI2c k x).i2c k = x := SMap.get_set_self _ _ _ _

/-- An entry of a FIFO as wide as a byte reads with no bit above 31. -/
theorem answer_byte (b : Byte) : BitVec.ofNat 64 ((BitVec.ofNat 64 (2 ^ 31 + b.toNat)).toNat % 2 ^ 32) = BitVec.ofNat 64 (2 ^ 31 + b.toNat) := by
  have hb := b.isLt
  rw [answer_ofNat, Nat.mod_eq_of_lt (by omega)]

section
variable {s : State} {by' : Sender}

/-- R387: the read of the low bits of the Mast count latches the upper ones. -/
theorem mastTickLoRead_latches (h : s.reaches (s.who by') .MAST_TICK_LO []) :
    Completes (.mastTickLoRead by') s fun t => t.answer = BitVec.ofNat 64 (s.tick % 2 ^ 32) ∧
      OnReg { s with answer := t.answer } t .MAST_TICK_HI [] (BitVec.ofNat 64 (s.tick / 2 ^ 32 % 2 ^ 16)) := by
  have e : exec (.mastTickLoRead by') s = ok (s.regR by' .MAST_TICK_LO []) := rfl
  rw [State.regR_reaches (inDist_eq_false (.inl (by decide))) h rfl] at e
  refine completes_ok e ⟨?_, (OnReg.setReg s .MAST_TICK_HI [] _).answer _⟩
  exact (answer_ofNat _).trans (by rw [Nat.mod_mod])

/-- R273: the read of DB_NEXT takes the doorbell that it returns. -/
theorem dbNextRead_takes {s0 : State} (l : Fin 64) (hs : s = s0.eoisFirst by' (Reg.DB_NEXT.at [l.val]))
    (h : s.reaches (s.who by') .DB_NEXT [l.val]) :
    Completes (.dbNextRead by' l) s0 fun t =>
      match s.dbNext l.val with
      | none => t = { s with answer := 0 }
      | some m => t = { s with answer := BitVec.ofNat 64 ((2 ^ 31 + m) % 2 ^ 32),
                               dist := { s.dist with doorbells := s.dist.doorbells.erase m } } := by
  have e : exec (.dbNextRead by' l) s0 = ok (s0.regR by' .DB_NEXT [l.val]) := rfl
  rw [State.regR_after_eois hs h rfl] at e
  refine completes_ok e ?_
  cases hm : s.dbNext l.val with
  | none => simp only [State.regRead, List.headD_cons, State.busValue_dbNext, hm]; rfl
  | some m => simp only [State.regRead, List.headD_cons, State.busValue_dbNext, hm, answer_ofNat]

theorem uartRxdRead_takes (u : Fin 6) (h : s.reaches (s.who by') .UART_RXD [u.val]) :
    Completes (.uartRxdRead by' u) s fun t =>
      (t.uart u.val).rx = (s.uart u.val).rx.tail ∧ t = { s with answer := t.answer, low := t.low } ∧
      t.answer = match (s.uart u.val).rx with | [] => 0 | c :: _ => BitVec.ofNat 64 ((2 ^ 31 + c.toNat) % 2 ^ 32) := by
  have e : exec (.uartRxdRead by' u) s = ok (s.regR by' .UART_RXD [u.val]) := rfl
  rw [State.regR_reaches (Reg.not_inDist (by decide) _) h rfl] at e
  refine completes_ok e ⟨congrArg Uart.rx (State.uart_setUart s u.val _), rfl, ?_⟩
  show BitVec.ofNat 64 ((s.busValue .UART_RXD [u.val]).toNat % 2 ^ 32) = _
  rw [State.busValue_uartRxd]
  cases (s.uart u.val).rx with
  | nil => rfl
  | cons c l => exact answer_ofNat _

theorem spiRxdRead_takes (k : Fin 4) (h : s.reaches (s.who by') .SPI_RXD [k.val]) :
    Completes (.spiRxdRead by' k) s fun t =>
      (t.spi k.val).rx = (s.spi k.val).rx.tail ∧ t = { s with answer := t.answer, low := t.low } ∧
      t.answer = match (s.spi k.val).rx with | [] => 0 | c :: _ => BitVec.ofNat 64 (2 ^ 31 + c.toNat) := by
  have e : exec (.spiRxdRead by' k) s = ok (s.regR by' .SPI_RXD [k.val]) := rfl
  rw [State.regR_reaches (Reg.not_inDist (by decide) _) h rfl] at e
  refine completes_ok e ⟨congrArg Spi.rx (State.spi_setSpi s k.val _), rfl, ?_⟩
  show BitVec.ofNat 64 ((s.busValue .SPI_RXD [k.val]).toNat % 2 ^ 32) = _
  rw [State.busValue_spiRxd]
  cases (s.spi k.val).rx with
  | nil => rfl
  | cons c l => exact answer_byte c

theorem i2cRxdRead_takes (k : Fin 4) (h : s.reaches (s.who by') .I2C_RXD [k.val]) :
    Completes (.i2cRxdRead by' k) s fun t =>
      (t.i2c k.val).rx = (s.i2c k.val).rx.tail ∧ t = { s with answer := t.answer, low := t.low } ∧
      t.answer = match (s.i2c k.val).rx with | [] => 0 | c :: _ => BitVec.ofNat 64 (2 ^ 31 + c.toNat) := by
  have e : exec (.i2cRxdRead by' k) s = ok (s.regR by' .I2C_RXD [k.val]) := rfl
  rw [State.regR_reaches (Reg.not_inDist (by decide) _) h rfl] at e
  refine completes_ok e ⟨congrArg I2c.rx (State.i2c_setI2c s k.val _), rfl, ?_⟩
  show BitVec.ofNat 64 ((s.busValue .I2C_RXD [k.val]).toNat % 2 ^ 32) = _
  rw [State.busValue_i2cRxd]
  cases (s.i2c k.val).rx with
  | nil => rfl
  | cons c l => exact answer_byte c

end

theorem part_dramEnd_le (p : Part) : p.dramEnd ≤ 0x1000000000 := by
  cases p <;> decide

/-- An address of the QSPI window belongs to no other range of the map (R28). -/
theorem rangeOf_qspi (s : State) {pa : Nat} (hl : qspiBase ≤ pa) (hu : pa < qspiEnd) : s.rangeOf pa = .qspi := by
  have hp := part_dramEnd_le s.part
  have h33 : 0x3300000000 ≤ pa := hl
  have hr : ¬ pa < mramEnd := by simp only [mramEnd]; omega
  have hm : s.isMem pa = false := by simp [State.isMem, inMram, show ¬ pa < s.part.dramEnd by omega, hr]
  have hd : inDram pa = false := decide_eq_false (show ¬ pa < 0x1000000000 by omega)
  have hx : ¬ pa < pcieEnd := by simp only [pcieEnd]; omega
  have hc : inPcie pa = false := by simp [inPcie, hx]
  have hn : ¬ ((unitBase ≤ pa ∧ pa < unitEnd) ∨ (sliceBase ≤ pa ∧ pa < sliceEnd)) := by
    simp only [unitEnd, sliceEnd]
    omega
  simp [State.rangeOf, hm, hd, hc, hn, hl, hu]

/-- R332, R340: a read of the QSPI window that finds flash returns its bytes and changes nothing else. -/
theorem qspiWindowRead_flash (s : State) (by' : Sender) (addr : BitVec 28) (h : qspiOk s (qspiBase + addr.toNat) = true) :
    exec (.qspiWindowRead by' addr .b4) s = .next { s with answer := BitVec.ofNat 64 (s.flashRead addr.toNat 4) } := by
  have ha := addr.isLt
  have hr : s.rangeOf (qspiBase + addr.toNat) = .qspi := rangeOf_qspi s (by omega) (by simp only [qspiBase, qspiEnd]; omega)
  have hd : inDist (qspiBase + addr.toNat) = false := inDist_eq_false (.inr (by simp only [qspiBase]; omega))
  show ok (s.busR by' (qspiBase + addr.toNat) 4) = _
  simp only [State.busR, State.eoisFirst_of_not_inDist s by' hd, State.busRead_qspi 4 hr, if_pos h, Nat.add_sub_cancel_left]
  rfl

/-- Settles O35: the reads that only clear RC fields are one lemma over the register, each read that acts has its own. -/
theorem registerReads : Obligations.RegisterReads := by
  unfold Obligations.RegisterReads
  refine ⟨fun s by' h g d n p i r q => ?_, fun s by' l u k addr => ?_⟩
  · have port := completes_plainRead (exec_portCounterRead by' p i s) (portCounter_readsPlainly i) (portCounter_not_wide i)
      (portCounter_not_inDist i p.val)
    have reef := completes_plainRead (i := .quadReefRead by' q) (s := s) rfl (fun _ _ _ _ => rfl) rfl (Reg.quadReef_not_inDist q)
    simp only [List.forall_mem_cons]
    refine ⟨?_, ?_, ?_, ?_, ?_, ?_, ?_, ?_, port, ?_, ?_, reef, fun _ h => absurd h List.not_mem_nil⟩
    all_goals exact completes_plainRead rfl (fun _ _ _ _ => rfl) rfl (Reg.not_inDist (by decide) _)
  · exact ⟨mastTickLoRead_latches, fun s0 hs h => dbNextRead_takes l hs h, uartRxdRead_takes u, spiRxdRead_takes k, i2cRxdRead_takes k,
      qspiWindowRead_flash s by' addr⟩

/-! ### The state after reset (R16, R37) -/

/-- At reset no register is listed: each reads its reset value. -/
theorem State.reset_reg (r : Reg) (idx : List Nat) : State.reset.reg r idx = r.spec.reset := rfl

/-- At reset no core is listed: each has the state of an unlisted one. -/
theorem State.reset_core (c : CoreId) : State.reset.core c = {} := rfl

theorem State.reset_sound : State.reset.Sound := ⟨rfl, rfl, rfl⟩

theorem State.reset_pdUp (d : Nat) : State.reset.pdUp d = true ↔ d = 0 := by
  simp [State.pdUp, State.reset]

/-- Settles O25: at reset nothing is listed, and an unlisted register or core has its reset value. -/
theorem resetState : Obligations.ResetState :=
  ⟨State.reset_sound, rfl, rfl, State.reset_reg, fun c _ _ => by rw [State.reset_core]; rfl, State.reset_pdUp,
    fun c => by rw [State.reset_core]⟩

/-! ### The acknowledgement of a Device store (R214, R215) -/

/-- The target of a Device store outside memory and the distributor acts on it, and the store leaves those that the core has in flight
then. -/
theorem execDeviceStoreAck_bus {s : State} {c : CoreId} {i : Nat} {e : StoreEntry} (he : (s.core c).devOut[i]? = some e)
    (hp : inPcie e.pa = false) (ho : ∀ y ∈ (s.core c).devOut.take i, s.devRegion y.pa ≠ s.devRegion e.pa) (hm : s.isMem e.pa = false)
    (hd : inDist e.pa = false) :
    exec (.deviceStoreAck c i) s = .next ((s.busWrite (.core c e.lvl e.pid) e.pa e.size e.data.toNat).updCore c fun k =>
      { k with devOut := k.devOut.take i ++ k.devOut.drop (i + 1) }) := by
  have ha : ((s.core c).devOut.take i).any (fun x => s.devRegion x.pa == s.devRegion e.pa) = false := by
    simpa using ho
  show execDeviceStoreAck c i s = _
  unfold execDeviceStoreAck
  simp only [he, hp, ha, Bool.or_self, Bool.false_eq_true, if_false, State.devWrite, hm, hd]
  rfl

/-- A store of core 0 at H to its own DBG_CTL, which asks it to halt (R492). -/
def haltStore : StoreEntry :=
  { pa := Reg.DBG_CTL.at [0, 0], size := 4, data := 1, typ := .device, lvl := .h, pid := 0, cls := 0 }

/-- A Device store of the same core that is still in its store buffer. -/
def bufferedStore : StoreEntry := { haltStore with pa := Reg.SRC_CFG.at [0] }

/-- Core 0 owes the fault of a division by zero (R89); the frame of an earlier trap waits behind the buffered Device store (R137), and
the debugger is admitted. -/
def haltingCore : Core :=
  { run := .running, devOut := [haltStore], sb := [bufferedStore], frame := [{ haltStore with pa := 0, typ := .normal }],
    owed := some { fp := false, fn := 8, rd := 3, result := 0, flags := 0x20, pc := 0 },
    sys := [(Reg.TRC_AUTH.at [], BitVec.allOnes 64)] }

def haltingState : State := { State.reset with pdOn := [0, 67, 91], cores := [(0, haltingCore)] }

/-- The halt takes the fault that is owed, whose entry drains the buffered stores: the later Device store is injected while the target of
the first one acts. -/
theorem haltingState_injects :
    ((haltingState.busWrite (.core 0 .h 0) haltStore.pa haltStore.size haltStore.data.toNat).core 0).devOut = [haltStore, bufferedStore] := by
  decide +kernel

/-- Refutes O42: the statement has the acknowledgement put back the Device stores that were in flight before the target acted. A store
of core 0 to its own DBG_CTL injects a younger one of that core meanwhile, and the model keeps it in flight. -/
theorem not_busTargets : ¬ Obligations.BusTargets := by
  unfold Obligations.BusTargets
  intro h
  obtain ⟨-, -, -, -, hack, -⟩ := h haltingState .fetas 0 .b4 0 .DBG_CTL [] 0 0
    { pa := 0, ea := 0, size := 4, kind := .lw, rd := 0, lvl := .h, pid := 0 } haltStore 0
    { stop := 0, write := false, kind := 0, pa := 0, pid := 0 }
  have he : (haltingState.core 0).devOut[0]? = some haltStore := by decide
  have hp : inPcie haltStore.pa = false := by decide
  have hm : haltingState.isMem haltStore.pa = false := by decide
  have hd : inDist haltStore.pa = false := by decide
  have ho : ∀ y ∈ (haltingState.core 0).devOut.take 0, haltingState.devRegion y.pa ≠ haltingState.devRegion haltStore.pa := by simp
  have hs := (hack he hp ho hm).1 hd
  rw [execDeviceStoreAck_bus he hp ho hm hd] at hs
  injection hs with hs
  have hl := congrArg (fun t : State => (t.core 0).devOut) hs
  simp only [State.core_updCore, State.core_setCore] at hl
  have hi : ((haltingState.busWrite (.core 0 haltStore.lvl haltStore.pid) haltStore.pa haltStore.size haltStore.data.toNat).core 0).devOut =
      [haltStore, bufferedStore] := haltingState_injects
  rw [hi] at hl
  exact absurd hl (by decide)

end Sys2Proof.Machine

/-! PROOFS. The map family: every command goes on (R30), and reef levels, temperature and health (R40, R321, R379 to R383, R424 to R433,
R534). -/

namespace Sys2Proof.Machine

/-! ### Every command goes on (R30) -/

theorem goes_ok (s : State) : Goes (ok s) := ⟨s, rfl⟩

/-- Settles O23: every branch of every command's meaning answers a next state. The commands named are those whose meaning branches
before it answers; the others answer at once. -/
theorem everyCommandGoesOn : Obligations.EveryCommandGoesOn := by
  unfold Obligations.EveryCommandGoesOn
  intro i s
  cases i <;> dsimp only [exec]
  case storeBufferDrain => fun_cases execStoreBufferDrain <;> exact goes_ok _
  case uncachedStoreAck => fun_cases execUncachedStoreAck <;> exact goes_ok _
  case remoteInvalidation => fun_cases execRemoteInvalidation <;> exact goes_ok _
  case traceLossNotice => fun_cases execTraceLossNotice <;> exact goes_ok _
  case tokenExpiry => fun_cases execTokenExpiry <;> exact goes_ok _
  case frameReceive => fun_cases execFrameReceive <;> exact goes_ok _
  case frameTransmit => fun_cases execFrameTransmit <;> exact goes_ok _
  case qbvChangeover => fun_cases execQbvChangeover <;> exact goes_ok _
  case qbvEntryExpiry => fun_cases execQbvEntryExpiry <;> exact goes_ok _
  case streamGateEntryExpiry => fun_cases execStreamGateEntryExpiry <;> exact goes_ok _
  case frerResetTimeout => fun_cases execFrerResetTimeout <;> exact goes_ok _
  case supervisionFrameSend => fun_cases execSupervisionFrameSend <;> exact goes_ok _
  case linkChange => fun_cases execLinkChange <;> exact goes_ok _
  case t1lMseUpdate => fun_cases execT1lMseUpdate <;> exact goes_ok _
  case post => fun_cases execPost <;> exact goes_ok _
  case pcieOutboundWrite => fun_cases execPcieOutboundWrite <;> exact goes_ok _
  case pcieOutboundRead => fun_cases execPcieOutboundRead <;> exact goes_ok _
  case pcieReadCompletion => fun_cases execPcieReadCompletion <;> exact goes_ok _
  case pcieCompletionTimeout => fun_cases execPcieCompletionTimeout <;> exact goes_ok _
  case pcieMsiWrite => fun_cases execPcieMsiWrite <;> exact goes_ok _
  case pcieLinkChange => fun_cases execPcieLinkChange <;> exact goes_ok _
  case uartRxCharacter => fun_cases execUartRxCharacter <;> exact goes_ok _
  case uartTxCharacter => fun_cases execUartTxCharacter <;> exact goes_ok _
  case uartIdleDetect => fun_cases execUartIdleDetect <;> exact goes_ok _
  case canFrameSent => fun_cases execCanFrameSent <;> exact goes_ok _
  case canFrameReceived => fun_cases execCanFrameReceived <;> exact goes_ok _
  case canBusError => fun_cases execCanBusError <;> exact goes_ok _
  case canBusoffRecovery => fun_cases execCanBusoffRecovery <;> exact goes_ok _
  case spiByte => fun_cases execSpiByte <;> exact goes_ok _
  case spiTransferDone => fun_cases execSpiTransferDone <;> exact goes_ok _
  case i2cByte => fun_cases execI2cByte <;> exact goes_ok _
  case i2cCommandEnd => fun_cases execI2cCommandEnd <;> exact goes_ok _
  case i2cTargetMatch => fun_cases execI2cTargetMatch <;> exact goes_ok _
  case timerStep => fun_cases execTimerStep <;> exact goes_ok _
  case timerCaptureEdge => fun_cases execTimerCaptureEdge <;> exact goes_ok _
  case ttWindowEnd => fun_cases execTtWindowEnd <;> exact goes_ok _
  case retrainWindow => fun_cases execRetrainWindow <;> exact goes_ok _
  case dramPatrolScrub => fun_cases execDramPatrolScrub <;> exact goes_ok _
  case mramPatrolScrub => fun_cases execMramPatrolScrub <;> exact goes_ok _
  case planScanPeriodic => fun_cases execPlanScanPeriodic <;> exact goes_ok _
  case commitTick => fun_cases execCommitTick <;> exact goes_ok _
  case migration => fun_cases execMigration <;> exact goes_ok _
  case selfTestComplete => fun_cases execSelfTestComplete <;> exact goes_ok _
  case loadLineGuard => fun_cases execLoadLineGuard <;> exact goes_ok _
  case guardRelease => fun_cases execGuardRelease <;> exact goes_ok _
  case droopStretch => fun_cases execDroopStretch <;> exact goes_ok _
  case pllReferenceSwitch => fun_cases execPllReferenceSwitch <;> exact goes_ok _
  case junctionSensorRead => fun_cases execJunctionSensorRead <;> exact goes_ok _
  case throttleStep => fun_cases execThrottleStep <;> exact goes_ok _
  case throttleReleaseStep => fun_cases execThrottleReleaseStep <;> exact goes_ok _
  case healthPinReturn => fun_cases execHealthPinReturn <;> exact goes_ok _
  case hsrPathReserveExpiry => fun_cases execHsrPathReserveExpiry <;> exact goes_ok _
  case meshSelfTest => fun_cases execMeshSelfTest <;> exact goes_ok _
  case requestAccept => fun_cases execRequestAccept <;> exact goes_ok _
  case responsePost => fun_cases execResponsePost <;> exact goes_ok _
  case eventPost => fun_cases execEventPost <;> exact goes_ok _
  case grantDrainComplete => fun_cases execGrantDrainComplete <;> exact goes_ok _
  case grantDrainTimeout => fun_cases execGrantDrainTimeout <;> exact goes_ok _
  case resumeStart => fun_cases execResumeStart <;> exact goes_ok _
  case bootPcieStaged => fun_cases execBootPcieStaged <;> exact goes_ok _
  case bootPcieTimeout => fun_cases execBootPcieTimeout <;> exact goes_ok _
  case bootRetry => fun_cases execBootRetry <;> exact goes_ok _
  case watchdogExpiry => fun_cases execWatchdogExpiry <;> exact goes_ok _
  case fetasLockstepMismatch => fun_cases execFetasLockstepMismatch <;> exact goes_ok _
  case fetasRestart => fun_cases execFetasRestart <;> exact goes_ok _
  case fwTrialSuccess => fun_cases execFwTrialSuccess <;> exact goes_ok _
  case firmwareActivateTick => fun_cases execFirmwareActivateTick <;> exact goes_ok _
  case floorRaise => fun_cases execFloorRaise <;> exact goes_ok _
  case douseSeal => fun_cases execDouseSeal <;> exact goes_ok _
  case powerFailWarning => fun_cases execPowerFailWarning <;> exact goes_ok _
  case powerFailRecovery => fun_cases execPowerFailRecovery <;> exact goes_ok _
  case earlyPowerWarning => fun_cases execEarlyPowerWarning <;> exact goes_ok _
  case pwrEnDelay => fun_cases execPwrEnDelay <;> exact goes_ok _
  case resetN => fun_cases execResetN <;> exact goes_ok _
  case resetNRelease => fun_cases execResetNRelease <;> exact goes_ok _
  case powerLoss => fun_cases execPowerLoss <;> exact goes_ok _
  case mastPowerUp => fun_cases execMastPowerUp <;> exact goes_ok _
  case padHoldSupplyLoss => fun_cases execPadHoldSupplyLoss <;> exact goes_ok _
  case thermalWake => fun_cases execThermalWake <;> exact goes_ok _
  case xt32Fail => fun_cases execXt32Fail <;> exact goes_ok _
  case wakeComparator => fun_cases execWakeComparator <;> exact goes_ok _
  case comparatorRelease => fun_cases execComparatorRelease <;> exact goes_ok _
  case alarmFire => fun_cases execAlarmFire <;> exact goes_ok _
  case uartActivityDetect => fun_cases execUartActivityDetect <;> exact goes_ok _
  case interruptOffer => fun_cases execInterruptOffer <;> exact goes_ok _
  case offerWithdrawal => fun_cases execOfferWithdrawal <;> exact goes_ok _
  case acceptance => fun_cases execAcceptance <;> exact goes_ok _
  case decline => fun_cases execDecline <;> exact goes_ok _
  case eoiMessage => fun_cases execEoiMessage <;> exact goes_ok _
  case residencyMessage => fun_cases execResidencyMessage <;> exact goes_ok _
  case ctimCompareFire => fun_cases execCtimCompareFire <;> exact goes_ok _
  case pcieInboundRequest => fun_cases execPcieInboundRequest <;> exact goes_ok _
  case challenge => fun_cases execChallenge <;> exact goes_ok _
  case response => fun_cases execResponse <;> exact goes_ok _
  case dap => fun_cases execDap <;> exact goes_ok _
  case sealChange => fun_cases execSealChange <;> exact goes_ok _
  case shroudReset => fun_cases execShroudReset <;> exact goes_ok _
  case shroudWatchdogExpiry => fun_cases execShroudWatchdogExpiry <;> exact goes_ok _
  case shroudResetRelease => fun_cases execShroudResetRelease <;> exact goes_ok _
  case shroudSupplyLow => fun_cases execShroudSupplyLow <;> exact goes_ok _
  case shroudSupplyRecovery => fun_cases execShroudSupplyRecovery <;> exact goes_ok _
  case shrXt32Fail => fun_cases execShrXt32Fail <;> exact goes_ok _
  case adcSample => fun_cases execAdcSample <;> exact goes_ok _
  case adcDataRead => fun_cases execAdcDataRead <;> exact goes_ok _
  case pulseEdge => fun_cases execPulseEdge <;> exact goes_ok _
  case msMessage => fun_cases execMsMessage <;> exact goes_ok _
  case smMessage => fun_cases execSmMessage <;> exact goes_ok _
  case linkBeacon => fun_cases execLinkBeacon <;> exact goes_ok _
  case linkLoss => fun_cases execLinkLoss <;> exact goes_ok _
  case registerWrite => fun_cases execRegisterWrite <;> exact goes_ok _
  case deviceLoadResponse => fun_cases execDeviceLoadResponse <;> exact goes_ok _
  case deviceStoreAck => fun_cases execDeviceStoreAck <;> exact goes_ok _
  case addrErrReport => fun_cases execAddrErrReport <;> exact goes_ok _
  case wiredSourceLine => fun_cases execWiredSourceLine <;> exact goes_ok _
  all_goals exact goes_ok _

/-! ### Fields of a word -/

section Fields
variable (w : Word) (f g : Fld) (v : Nat)

theorem getLsbD_putBits {i : Nat} (hi : i < 64) :
    (putBits w f v).getLsbD i = if f.lo ≤ i ∧ i - f.lo < f.hi + 1 - f.lo then v.testBit (i - f.lo) else w.getLsbD i := by
  simp only [putBits, BitVec.getLsbD_or, BitVec.getLsbD_and, BitVec.getLsbD_not, BitVec.getLsbD_ofNat, hi, Nat.testBit_shiftLeft,
    Nat.testBit_two_pow_sub_one, decide_true, Bool.true_and]
  by_cases h1 : f.lo ≤ i <;> by_cases h2 : i - f.lo < f.hi + 1 - f.lo <;> simp [h1, h2]

theorem testBit_bits (i : Nat) : (bits w f).testBit i = (decide (i < f.hi + 1 - f.lo) && w.getLsbD (f.lo + i)) := by
  rw [bits, Nat.testBit_mod_two_pow, Nat.testBit_shiftRight, BitVec.testBit_toNat]

variable {f g}

/-- A field reads back as what was put into it, cut to its width. -/
theorem bits_putBits_self (h : f.hi < 64) : bits (putBits w f v) f = v % 2 ^ (f.hi + 1 - f.lo) := by
  refine Nat.eq_of_testBit_eq fun i => ?_
  rw [testBit_bits, Nat.testBit_mod_two_pow]
  by_cases hi : i < f.hi + 1 - f.lo
  · rw [getLsbD_putBits _ _ _ (by omega), if_pos (by omega), Nat.add_sub_cancel_left]
  · simp [hi]

/-- A field keeps its value when another is put beside it. -/
theorem bits_putBits_of_disjoint (h : g.hi < f.lo ∨ f.hi < g.lo) (hg : g.hi < 64) : bits (putBits w f v) g = bits w g := by
  refine Nat.eq_of_testBit_eq fun i => ?_
  rw [testBit_bits, testBit_bits]
  by_cases hi : i < g.hi + 1 - g.lo
  · rw [getLsbD_putBits _ _ _ (by omega), if_neg (by omega)]
  · simp [hi]

theorem flag_putBits_self (h : f.lo ≤ f.hi) (h6 : f.hi < 64) : flag (putBits w f v) f = v.testBit 0 := by
  rw [flag, getLsbD_putBits _ _ _ (by omega), if_pos (by omega), Nat.sub_self]

theorem flag_putBits_of_disjoint (h : g.lo < f.lo ∨ f.hi < g.lo) (hg : g.lo < 64) : flag (putBits w f v) g = flag w g := by
  rw [flag, getLsbD_putBits _ _ _ hg, if_neg (by omega), flag]

end Fields

/-! ### Reef levels (R380, R382) -/

theorem State.reg_of_regs {s t : State} (h : t.regs = s.regs) (r : Reg) (idx : List Nat) : t.reg r idx = s.reg r idx := by
  rw [State.reg, h, State.reg]

theorem OnlyRegs.setReg (s : State) (r : Reg) (idx : List Nat) (v : Word) : OnlyRegs s (s.setReg r idx v) := ⟨rfl⟩

/-- The reef step of a level at which the guard acts. -/
theorem guardMv_eq {lvl : Nat} (h5 : 5 ≤ lvl) (h7 : lvl ≤ 7) : guardMv lvl = (lvl - 4) * 15 := by
  interval_cases lvl <;> rfl

theorem bits_reefVolt_lt (w : Word) : bits w .QUAD_REEF_VOLT < 1024 := Nat.mod_lt _ (by decide)

/-- What QUAD_REEF reads back as after the guard and the voltage are put into it. -/
theorem quadReef_guard_volt (s : State) (q g v : Nat) (hv : v < 1024) :
    let t := s.setReg .QUAD_REEF [q] (putBits (putBits (s.reg .QUAD_REEF [q]) .QUAD_REEF_GUARD g) .QUAD_REEF_VOLT v)
    flag (t.reg .QUAD_REEF [q]) .QUAD_REEF_GUARD = g.testBit 0 ∧ t.fld .QUAD_REEF [q] .QUAD_REEF_VOLT = v := by
  simp only [State.fld, State.reg_setReg]
  rw [flag_putBits_of_disjoint _ _ (.inr (by decide)) (by decide), flag_putBits_self _ _ (by decide) (by decide),
    bits_putBits_self _ _ (by decide)]
  exact ⟨rfl, Nat.mod_eq_of_lt hv⟩

section Reef
variable {s : State} {q : Fin 16}

/-- R380: the guard acts on a quad at level 5 to 7 above the threshold of the trim. -/
theorem loadLineGuard_raises {ma : Nat} (hq : s.pdUp (67 + q.val) = true) (h5 : 5 ≤ s.level q.val) (h7 : s.level q.val ≤ 7)
    (hg : flag (s.reg .QUAD_REEF [q.val]) .QUAD_REEF_GUARD = false) (hm : (s.trimDef s.fe.trim).guardMa < ma)
    (hv : s.fld .QUAD_REEF [q.val] .QUAD_REEF_VOLT + 45 < 1024) :
    Completes (.loadLineGuard q ma) s fun t => flag (t.reg .QUAD_REEF [q.val]) .QUAD_REEF_GUARD = true ∧
      t.fld .QUAD_REEF [q.val] .QUAD_REEF_VOLT = s.fld .QUAD_REEF [q.val] .QUAD_REEF_VOLT + (s.level q.val - 4) * 15 ∧ OnlyRegs s t := by
  have e : exec (.loadLineGuard q ma) s = execLoadLineGuard q ma s := rfl
  unfold execLoadLineGuard at e
  rw [if_neg (by simp [hq, hg]; omega), guardMv_eq h5 h7] at e
  obtain ⟨hguard, hvolt⟩ := quadReef_guard_volt s q.val 1 (s.fld .QUAD_REEF [q.val] .QUAD_REEF_VOLT + (s.level q.val - 4) * 15) (by omega)
  exact completes_ok e ⟨hguard, hvolt, OnlyRegs.setReg _ _ _ _⟩

/-- R380: the release takes back what the guard added. -/
theorem guardRelease_lowers (hq : s.pdUp (67 + q.val) = true) (hg : flag (s.reg .QUAD_REEF [q.val]) .QUAD_REEF_GUARD = true)
    (h5 : 5 ≤ s.level q.val) (h7 : s.level q.val ≤ 7) :
    Completes (.guardRelease q) s fun t => flag (t.reg .QUAD_REEF [q.val]) .QUAD_REEF_GUARD = false ∧
      t.fld .QUAD_REEF [q.val] .QUAD_REEF_VOLT = s.fld .QUAD_REEF [q.val] .QUAD_REEF_VOLT - (s.level q.val - 4) * 15 ∧ OnlyRegs s t := by
  have e : exec (.guardRelease q) s = execGuardRelease q s := rfl
  unfold execGuardRelease at e
  rw [if_neg (by simp [hq, hg]), guardMv_eq h5 h7] at e
  obtain ⟨hguard, hvolt⟩ := quadReef_guard_volt s q.val 0 (s.fld .QUAD_REEF [q.val] .QUAD_REEF_VOLT - (s.level q.val - 4) * 15)
    (Nat.lt_of_le_of_lt (Nat.sub_le _ _) (bits_reefVolt_lt _))
  exact completes_ok e ⟨hguard, hvolt, OnlyRegs.setReg _ _ _ _⟩

end Reef

/-! ### A stretch as the cores see it (R382, R466) -/

theorem OnlyCounters.refl (s : State) : OnlyCounters s s := ⟨rfl, fun _ => ⟨.refl _, rfl, rfl⟩⟩

theorem OnlyCounters.trans {s t u : State} (h : OnlyCounters s t) (g : OnlyCounters t u) : OnlyCounters s u := by
  refine ⟨?_, fun c => ?_⟩
  · have hu := g.frame
    rw [h.frame] at hu
    exact hu
  · obtain ⟨ha, hp, hq⟩ := h.cores c
    obtain ⟨ga, gp, gq⟩ := g.cores c
    exact ⟨ha.trans ga, gp.trans hp, gq.trans hq⟩

/-- What only counts and traces in one core. -/
theorem OnCore.onlyCounters {c : CoreId} {s t : State} (h : OnCore c s t) : OnlyCounters s t := by
  refine ⟨h.frame, fun d => ?_⟩
  by_cases hd : d = c
  · subst hd; exact ⟨h.core, h.pc, h.seqEnd⟩
  · rw [h.others d hd]; exact ⟨.refl _, rfl, rfl⟩

theorem OnCore.seqEdge (c : CoreId) (s : State) (h : BitVec 8) : OnCore c s (s.seqEdge c h) := by
  unfold State.seqEdge
  refine OnCore.ite (OnCore.trace _ _ _) ((OnCore.trace _ _ _).trans ((OnCore.seqEval _ _ _).trans (OnCore.upd _ _ _ ?_ ?_ ?_)))
  · split
    · next hr => exact ⟨rfl, .inr ⟨hr.1, rfl⟩, fun _ _ => rfl⟩
    · exact .refl _
  · split <;> rfl
  · split <;> rfl

theorem State.droopSeen_onlyCounters (s : State) (q : Nat) : OnlyCounters s (s.droopSeen q) := by
  unfold State.droopSeen
  generalize coresOf q = l
  induction l generalizing s with
  | nil => exact .refl _
  | cons c l ih =>
    refine OnlyCounters.trans ?_ (ih _)
    dsimp only
    split
    · exact .refl _
    · exact ((OnCore.event _ _ _ _).trans (OnCore.seqEdge _ _ _)).onlyCounters

theorem OnlyCounters.regs {s t : State} (h : OnlyCounters s t) : t.regs = s.regs := by rw [h.frame]

theorem satAdd_one (cap n : Nat) : satAdd cap n 1 = min cap (n + 1) := by
  unfold satAdd; split <;> omega

/-- R382: DROOP counts the stretch, and each core of the quad sees it. -/
theorem droopStretch_counts {s : State} {q : Fin 16} (hq : s.pdUp (67 + q.val) = true) :
    Completes (.droopStretch q) s fun t =>
      OnReg (s.droopSeen q.val) t .QUAD_REEF [q.val] (putBits (s.reg .QUAD_REEF [q.val]) .QUAD_REEF_DROOP
        (min 255 (bits (s.reg .QUAD_REEF [q.val]) .QUAD_REEF_DROOP + 1))) ∧ OnlyCounters s (s.droopSeen q.val) := by
  have hd := s.droopSeen_onlyCounters q.val
  have e : exec (.droopStretch q) s = execDroopStretch q s := rfl
  unfold execDroopStretch at e
  rw [if_neg (by simp [hq]), satAdd_one, State.setFld, State.fld, State.reg_of_regs hd.regs] at e
  exact completes_ok e ⟨OnReg.setReg _ _ _ _, hd⟩

/-! ### Events of Fetas and the HEALTH pin (R433) -/

theorem State.pushEvent_frame (s : State) (b : Nat) (e : FsiEvent) : ∃ x : Fsi, s.pushEvent b e = { s with fsi := x } ∧ x.seq = s.fsi.seq := by
  fun_cases State.pushEvent <;> exact ⟨_, rfl, rfl⟩

theorem State.pushEvents_frame (s : State) (e : FsiEvent) (l : List Nat) :
    ∃ x : Fsi, l.foldl (fun s b => s.pushEvent b e) s = { s with fsi := x } ∧ x.seq = s.fsi.seq := by
  induction l generalizing s with
  | nil => exact ⟨s.fsi, rfl, rfl⟩
  | cons b l ih =>
    obtain ⟨x, hx, hs⟩ := s.pushEvent_frame b e
    obtain ⟨y, hy, ht⟩ := ih (s.pushEvent b e)
    rw [hx] at hy ht
    exact ⟨y, by rw [List.foldl_cons, hx, hy], ht.trans hs⟩

/-- An event takes the next number of the log and is queued at its boxes. -/
theorem State.feEvent_frame (s : State) (code : Nat) (data slices : List Nat) :
    ∃ x : Fsi, s.feEvent code data slices = { s with fsi := x } ∧ x.seq = s.fsi.seq + 1 :=
  State.pushEvents_frame (s.logEntry fun _ => code :: data) _ _

theorem State.feEvent_regs (s : State) (code : Nat) (data slices : List Nat) : (s.feEvent code data slices).regs = s.regs := by
  obtain ⟨x, hx, -⟩ := s.feEvent_frame code data slices
  rw [hx]

/-- What an evaluation of the health conditions touches: the registers, the time since which the conditions are clear, and the events
queued. -/
structure OnHealth (s t : State) : Prop where
  frame : t = { s with regs := t.regs, fe := t.fe, fsi := t.fsi }
  fe : t.fe = { s.fe with healthClear := t.fe.healthClear }

theorem OnHealth.trans {s t u : State} (h : OnHealth s t) (g : OnHealth t u) : OnHealth s u := by
  refine ⟨?_, ?_⟩
  · have hu := g.frame
    rw [h.frame] at hu
    exact hu
  · have hu := g.fe
    rw [h.fe] at hu
    exact hu

theorem OnHealth.mem {s t : State} (h : OnHealth s t) : t.mem = s.mem := by rw [h.frame]
theorem OnHealth.cores {s t : State} (h : OnHealth s t) : t.cores = s.cores := by rw [h.frame]

theorem State.healthEvent_onHealth (s : State) : OnHealth s s.healthEvent := by
  obtain ⟨x, hx, -⟩ := s.feEvent_frame 0x0680 [s.healthPin, s.freeBackstays.length] []
  rw [State.healthEvent, hx]
  exact ⟨rfl, rfl⟩

theorem State.healthEval_onHealth (s : State) : OnHealth s s.healthEval := by
  unfold State.healthEval
  split
  · exact ⟨rfl, rfl⟩
  · dsimp only
    split
    · refine OnHealth.trans ?_ (State.healthEvent_onHealth _)
      exact ⟨rfl, rfl⟩
    · exact ⟨rfl, rfl⟩

/-- HEALTH_STAT after an evaluation: the conditions, or while none holds the pin as it was. -/
theorem State.healthEval_stat {s : State} (h : s.fe.healthKnown = true) : s.healthEval.reg .HEALTH_STAT =
    BitVec.ofNat 64 (if s.healthBits = 0 then b2n ((s.reg .HEALTH_STAT).getLsbD 0) else s.healthBits) := by
  unfold State.healthEval
  rw [if_neg (by simp [h])]
  dsimp only
  split
  · unfold State.healthEvent State.reg
    rw [State.feEvent_regs]
    exact State.reg_setReg _ _ _ _
  · exact State.reg_setReg _ _ _ _

/-- The bits of two of the ten conditions, and the pin beside them. -/
theorem conditions_bits : ∀ fetas split path pllref unit mram dram backstay clock quar : Bool,
    let st (f : Fld) (b : Bool) : Nat := if b then 2 ^ f.lo else 0
    let n := st .HEALTH_STAT_FETAS fetas + st .HEALTH_STAT_SPLIT split + st .HEALTH_STAT_PATH path + st .HEALTH_STAT_PLLREF pllref +
      st .HEALTH_STAT_UNIT unit + st .HEALTH_STAT_MRAM mram + st .HEALTH_STAT_DRAM dram + st .HEALTH_STAT_BACKSTAY backstay +
      st .HEALTH_STAT_CLOCK clock + st .HEALTH_STAT_QUAR quar
    n.testBit Fld.HEALTH_STAT_PATH.lo = path ∧ n.testBit Fld.HEALTH_STAT_PLLREF.lo = pllref ∧ n % 2 = 0 := by
  decide +kernel

theorem State.healthBits_path (s : State) : s.healthBits.testBit Fld.HEALTH_STAT_PATH.lo = !s.fe.pathOut.isEmpty :=
  (conditions_bits _ _ _ _ _ _ _ _ _ _).1

theorem State.healthBits_pllref (s : State) : s.healthBits.testBit Fld.HEALTH_STAT_PLLREF.lo = !s.fe.lastRef.isEmpty :=
  (conditions_bits _ _ _ _ _ _ _ _ _ _).2.1

theorem State.healthBits_even (s : State) : s.healthBits % 2 = 0 := (conditions_bits _ _ _ _ _ _ _ _ _ _).2.2

/-- A condition that holds at an evaluation shows in HEALTH_STAT and has the pin low. -/
theorem State.healthEval_condition {s : State} {f : Fld} (hf : f.lo < 64) (h : s.fe.healthKnown = true)
    (hb : s.healthBits.testBit f.lo = true) : flag (s.healthEval.reg .HEALTH_STAT) f = true ∧ s.healthEval.healthPin = 0 := by
  have hn : s.healthBits ≠ 0 := fun h0 => by simp [h0] at hb
  have he := s.healthBits_even
  have hs := s.healthEval_stat h
  rw [if_neg hn] at hs
  refine ⟨?_, ?_⟩
  · rw [hs, flag, BitVec.getLsbD_ofNat, hb]
    simp [hf]
  · show bits _ _ = 0
    rw [hs]
    show (s.healthBits % 2 ^ 64) >>> 0 % 2 = 0
    rw [Nat.shiftRight_zero]
    omega

theorem mem_insertRising_self (n : Nat) (l : List Nat) : n ∈ insertRising n l := by
  induction l with
  | nil => exact List.mem_singleton_self n
  | cons m l ih =>
    unfold insertRising
    split
    · exact List.mem_cons_self
    · split
      · next h => rw [h]; exact List.mem_cons_self
      · exact List.mem_cons_of_mem _ ih

theorem isEmpty_insertRising (n : Nat) (l : List Nat) : (insertRising n l).isEmpty = false := by
  rw [List.isEmpty_eq_false_iff]
  exact List.ne_nil_of_mem (mem_insertRising_self n l)

/-- R431: a quad's PLL runs on its last reference. -/
theorem pllReferenceSwitch_counts {s : State} {q : Fin 16} (hq : s.pdUp (67 + q.val) = true) :
    Completes (.pllReferenceSwitch q) s fun t => q.val ∈ t.fe.lastRef ∧ t.mem = s.mem ∧ t.cores = s.cores ∧
      (s.fe.healthKnown = true → flag (t.reg .HEALTH_STAT) .HEALTH_STAT_PLLREF = true ∧ t.healthPin = 0) := by
  have e : exec (.pllReferenceSwitch q) s = execPllReferenceSwitch q s := rfl
  unfold execPllReferenceSwitch at e
  rw [if_neg (by simp [hq])] at e
  generalize hu : State.count _ _ = u at e
  have hl : u.fe.lastRef = insertRising q.val s.fe.lastRef := by rw [← hu]; rfl
  have h := u.healthEval_onHealth
  refine completes_ok e ⟨?_, h.mem.trans (by rw [← hu]; rfl), h.cores.trans (by rw [← hu]; rfl), fun hk => ?_⟩
  · rw [h.fe]
    show q.val ∈ u.fe.lastRef
    rw [hl]
    exact mem_insertRising_self _ _
  · refine State.healthEval_condition (by decide) (by rw [← hu]; exact hk) ?_
    rw [State.healthBits_pllref, hl, isEmpty_insertRising]
    rfl

/-- R433: with every condition clear for 10 s the pin goes high, and one event is queued. -/
theorem healthPinReturn_raises {s : State} {t0 : Nat} (hc : s.fe.healthClear = some t0)
    (hd : 327680 ≤ (s.tick + 2 ^ 48 - t0 % 2 ^ 48) % 2 ^ 48) (hp : s.healthPin = 0) (hb : s.healthBits = 0) :
    Completes .healthPinReturn s fun t => t.healthPin = 1 ∧ t.fe = { s.fe with healthClear := none } ∧ t.fsi.seq = s.fsi.seq + 1 ∧
      t = { s with regs := t.regs, fe := t.fe, fsi := t.fsi } := by
  have e : exec .healthPinReturn s = execHealthPinReturn s := rfl
  unfold execHealthPinReturn at e
  rw [hc] at e
  dsimp only at e
  rw [if_neg (by simp only [hp, hb, State.ticksSince, ticks10s]; omega)] at e
  obtain ⟨x, hx, hs⟩ := State.feEvent_frame ({ s.setHealth 1 with fe := { s.fe with healthClear := none } } : State) 0x0680 _ []
  refine completes_ok (e.trans (congrArg ok hx)) ⟨?_, rfl, hs, rfl⟩
  exact congrArg (bits · .HEALTH_STAT_PIN) (s.reg_setReg .HEALTH_STAT [] 1)

/-- R321, R431: a path lost for more than 10 s counts. -/
theorem hsrPathReserveExpiry_counts {s : State} {i : Fin 2} {p t0 rx : Nat} (hl : s.fe.pathLost = [(p, some t0)])
    (hi : s.instOf p = some (i.val, rx)) (hd : t0 + 10000000000 < s.time) :
    Completes (.hsrPathReserveExpiry i) s fun t => p ∈ t.fe.pathOut ∧ t.mem = s.mem ∧ t.cores = s.cores ∧
      (s.fe.healthKnown = true → flag (t.reg .HEALTH_STAT) .HEALTH_STAT_PATH = true) := by
  have e : exec (.hsrPathReserveExpiry i) s = execHsrPathReserveExpiry i s := rfl
  unfold execHsrPathReserveExpiry at e
  simp only [hl, List.filterMap_cons, hi, hd, and_self, if_true, List.filterMap_nil, List.isEmpty_cons, Bool.false_eq_true, if_false,
    List.foldl_cons, List.foldl_nil] at e
  generalize hu : State.count _ _ = u at e
  have hp : u.fe.pathOut = insertRising p s.fe.pathOut := by rw [← hu]; rfl
  have h := u.healthEval_onHealth
  refine completes_ok e ⟨?_, h.mem.trans (by rw [← hu]; rfl), h.cores.trans (by rw [← hu]; rfl), fun hk => ?_⟩
  · rw [h.fe]
    show p ∈ u.fe.pathOut
    rw [hp]
    exact mem_insertRising_self _ _
  · refine (State.healthEval_condition (by decide) (by rw [← hu]; exact hk) ?_).1
    rw [State.healthBits_path, hp, isEmpty_insertRising]
    rfl

/-! ### Temperature (R235, R534) -/

theorem mgStatus_at (g : Nat) : Reg.MG_STATUS.at [g] = 0x3004000000 + 0x800000 * g := rfl

/-- The rate of each group that is up follows r: at once in modes M1 to M3, else by a change that waits for a window (R235). -/
def State.Rated (s t : State) (r : Nat) : Prop := ∀ g < 2, s.groupUp g = true →
  (s.mode = .m1 ∨ s.mode = .m2 ∨ s.mode = .m3 → t.fld .MG_STATUS [g] .MG_STATUS_RATE = r) ∧
  (s.mode ≠ .m1 → s.mode ≠ .m2 → s.mode ≠ .m3 → t.regs = s.regs ∧
    t.dram.ratePend.get none g = if s.fld .MG_STATUS [g] .MG_STATUS_RATE = r then none else some r)

section Rate
variable (s : State) (g r : Nat)

theorem State.applyRate_frame : ∃ (d : Dram) (m : SMap Word), s.applyRate g = { s with dram := d, regs := m } ∧
    d.coolSince = s.dram.coolSince := by
  fun_cases State.applyRate
  · exact ⟨_, _, rfl, rfl⟩
  · exact ⟨_, _, rfl, rfl⟩

theorem State.wantRate_frame : ∃ (d : Dram) (m : SMap Word), s.wantRate g r = { s with dram := d, regs := m } ∧
    d.coolSince = s.dram.coolSince := by
  fun_cases State.wantRate
  · exact ⟨_, _, rfl, rfl⟩
  · exact State.applyRate_frame _ _
  · exact ⟨_, _, rfl, rfl⟩

/-- A rate change of one group leaves the status and the pending change of the other. -/
theorem State.applyRate_other {h : Nat} (hg : h ≠ g) : (s.applyRate g).reg .MG_STATUS [h] = s.reg .MG_STATUS [h] ∧
    (s.applyRate g).dram.ratePend.get none h = s.dram.ratePend.get none h := by
  unfold State.applyRate
  split
  · exact ⟨rfl, rfl⟩
  · refine ⟨State.reg_setReg_other s .MG_STATUS .MG_STATUS [g] [h] _ (by simp only [mgStatus_at]; omega), ?_⟩
    show SMap.get none (SMap.set none s.dram.ratePend g none) h = _
    exact SMap.get_set_other _ hg _ _

theorem State.wantRate_other {h : Nat} (hg : h ≠ g) : (s.wantRate g r).reg .MG_STATUS [h] = s.reg .MG_STATUS [h] ∧
    (s.wantRate g r).dram.ratePend.get none h = s.dram.ratePend.get none h := by
  fun_cases State.wantRate
  · exact ⟨rfl, rfl⟩
  · obtain ⟨hr, hp⟩ := State.applyRate_other _ g hg
    exact ⟨hr, hp.trans (SMap.get_set_other _ hg _ _)⟩
  · exact ⟨rfl, SMap.get_set_other _ hg _ _⟩

variable {s g r}

/-- In modes M1 to M3 a group that is up has the rate at once. -/
theorem State.wantRate_now (hu : s.groupUp g = true) (hm : s.mode = .m1 ∨ s.mode = .m2 ∨ s.mode = .m3) (hr : r < 2) :
    (s.wantRate g r).fld .MG_STATUS [g] .MG_STATUS_RATE = r := by
  unfold State.wantRate
  rw [if_neg (by simp [hu])]
  dsimp only
  rw [if_pos hm]
  by_cases h : s.fld .MG_STATUS [g] .MG_STATUS_RATE = r
  · simp only [if_pos h, State.applyRate, SMap.get_set_self]
    exact h
  · simp only [if_neg h, State.applyRate, SMap.get_set_self]
    refine (congrArg (bits · .MG_STATUS_RATE) (State.reg_setReg s .MG_STATUS [g] _)).trans ?_
    rw [bits_putBits_self _ _ (by decide)]
    exact Nat.mod_eq_of_lt hr

/-- In the other modes no register changes. -/
theorem State.wantRate_regs (hm : ¬(s.mode = .m1 ∨ s.mode = .m2 ∨ s.mode = .m3)) : (s.wantRate g r).regs = s.regs := by
  unfold State.wantRate
  dsimp only
  rw [if_neg hm]
  split <;> rfl

/-- In the other modes the change waits. -/
theorem State.wantRate_later (hu : s.groupUp g = true) (hm : ¬(s.mode = .m1 ∨ s.mode = .m2 ∨ s.mode = .m3)) :
    (s.wantRate g r).dram.ratePend.get none g = if s.fld .MG_STATUS [g] .MG_STATUS_RATE = r then none else some r := by
  unfold State.wantRate
  dsimp only
  rw [if_neg (by simp [hu]), if_neg hm]
  exact SMap.get_set_self _ _ _ _

end Rate

/-- What asking both groups for a rate touches. -/
theorem State.wantBoth_frame (s : State) (r : Nat) : ∃ (d : Dram) (m : SMap Word),
    (s.wantRate 0 r).wantRate 1 r = { s with dram := d, regs := m } ∧ d.coolSince = s.dram.coolSince := by
  obtain ⟨d, m, h, hc⟩ := s.wantRate_frame 0 r
  obtain ⟨d', m', h', hc'⟩ := (s.wantRate 0 r).wantRate_frame 1 r
  rw [h] at h' hc'
  exact ⟨d', m', (by rw [h, h']), hc'.trans hc⟩

/-- Each group answers for itself: the second request leaves what the first did. -/
theorem State.wantBoth_rated (s : State) {r : Nat} (hr : r < 2) : s.Rated ((s.wantRate 0 r).wantRate 1 r) r := by
  obtain ⟨d, m, h, -⟩ := s.wantRate_frame 0 r
  have hmode : (s.wantRate 0 r).mode = s.mode := by rw [h]
  have hup : (s.wantRate 0 r).groupUp 1 = s.groupUp 1 := by rw [h]; rfl
  obtain ⟨hreg1, -⟩ := s.wantRate_other 0 r (h := 1) (by decide)
  obtain ⟨hreg0, hpend0⟩ := (s.wantRate 0 r).wantRate_other 1 r (h := 0) (by decide)
  intro g hg hu
  refine ⟨fun hm => ?_, fun h1 h2 h3 => ?_⟩
  · obtain rfl | rfl : g = 0 ∨ g = 1 := by omega
    · rw [State.fld, hreg0]
      exact State.wantRate_now hu hm hr
    · exact State.wantRate_now (hup.trans hu) (by rw [hmode]; exact hm) hr
  · have hm : ¬(s.mode = .m1 ∨ s.mode = .m2 ∨ s.mode = .m3) := by simp [h1, h2, h3]
    refine ⟨(State.wantRate_regs (by rw [hmode]; exact hm)).trans (State.wantRate_regs hm), ?_⟩
    obtain rfl | rfl : g = 0 ∨ g = 1 := by omega
    · rw [hpend0]
      exact State.wantRate_later hu hm
    · rw [State.wantRate_later (hup.trans hu) (by rw [hmode]; exact hm), State.fld, hreg1, State.fld]

/-- R235: the rate follows the case estimate: down at 98 °C, up after a second at 95 °C or less. -/
theorem State.followCase_spec (s : State) (c : Int) :
    let cool : Option Nat := if c ≤ 950 then some (s.dram.coolSince.getD s.time) else none
    let t := s.followCase c
    t = { s with dram := t.dram, regs := t.regs } ∧ t.dram.coolSince = cool ∧ (980 ≤ c → s.Rated t 1) ∧
      (∀ t0, cool = some t0 → t0 + 1000000000 ≤ s.time → s.Rated t 0) ∧
      (c < 980 → (∀ t0, cool = some t0 → s.time < t0 + 1000000000) → t.regs = s.regs ∧ t.dram = { s.dram with coolSince := cool }) := by
  dsimp only
  unfold State.followCase
  generalize hcool : (if c ≤ 950 then some (s.dram.coolSince.getD s.time) else none) = cool
  have both : ∀ r < 2, let t := (State.wantRate { s with dram := { s.dram with coolSince := cool } } 0 r).wantRate 1 r
      t = { s with dram := t.dram, regs := t.regs } ∧ t.dram.coolSince = cool ∧ s.Rated t r := by
    intro r hr
    obtain ⟨d, m, h, hc⟩ := State.wantBoth_frame { s with dram := { s.dram with coolSince := cool } } r
    have hrated := State.wantBoth_rated { s with dram := { s.dram with coolSince := cool } } hr
    dsimp only
    rw [h] at hrated ⊢
    exact ⟨rfl, hc, hrated⟩
  dsimp only
  by_cases h98 : 980 ≤ c
  · rw [if_pos h98]
    obtain ⟨hframe, hc, hrated⟩ := both 1 (by decide)
    have hnone : cool = none := by rw [← hcool, if_neg (by omega)]
    exact ⟨hframe, hc, fun _ => hrated, fun t0 (ht : cool = some t0) => by simp [hnone] at ht, fun hlt => absurd h98 (by omega)⟩
  · rw [if_neg h98]
    by_cases hdue : cool.any (fun c => decide (c + 1000000000 ≤ s.time)) = true
    · rw [if_pos hdue]
      obtain ⟨hframe, hc, hrated⟩ := both 0 (by decide)
      obtain ⟨t0, ht, hle⟩ : ∃ t0, cool = some t0 ∧ t0 + 1000000000 ≤ s.time := by simpa [Option.any_eq_true] using hdue
      exact ⟨hframe, hc, fun h => absurd h h98, fun _ _ _ => hrated, fun _ hlt => absurd (hlt t0 ht) (by omega)⟩
    · rw [if_neg hdue]
      refine ⟨rfl, rfl, fun h => absurd h h98, fun t0 ht hle => absurd ?_ hdue, fun _ _ => ⟨rfl, rfl⟩⟩
      rw [ht, Option.any_some, decide_eq_true_eq]
      exact hle

/-- A hard reset takes Fetas down and unplaces every logical core. -/
theorem State.hardReset_fetas (s : State) : s.hardReset.fetasUp = false ∧ s.hardReset.fe.place = [] := by
  unfold State.hardReset
  extract_lets _ _ _ u
  clear_value u
  refine ⟨?_, rfl⟩
  show flag (((u.setFld .FSI_STATUS [] .FSI_STATUS_FETAS_UP 0).setFld .MAST_MODE [] .MAST_MODE_BUSY 0).reg .FSI_STATUS)
    .FSI_STATUS_FETAS_UP = false
  rw [State.setFld, State.reg_setReg_other _ _ _ _ _ _ (by decide), State.setFld, State.reg_setReg,
    flag_putBits_self _ _ (by decide) (by decide)]
  rfl
/-- R534: at 160 °C the Crow's nest shuts down. -/
theorem junctionSensorRead_shuts {s : State} {tj : Int} {mw : Nat} (ht : 1600 ≤ tj) (hc : s.crow.cut = false) (ho : s.crow.mastOff = false) :
    Completes (.junctionSensorRead tj mw) s fun t => t.mode = .m0 ∧ t.crow.cut = true ∧ t.crow.out = 0 ∧ t.crow.todo = [] ∧
      flag (t.reg .WAKE_STAT) .WAKE_STAT_THERM = true ∧ t.fetasUp = false ∧ t.fe.place = [] := by
  have e : exec (.junctionSensorRead tj mw) s = execJunctionSensorRead tj mw s := rfl
  unfold execJunctionSensorRead at e
  dsimp only at e
  rw [if_pos (by simp [ht, hc, ho])] at e
  refine completes_ok e ?_
  obtain ⟨hup, hplace⟩ := State.hardReset_fetas { s with fe := { s.fe with junction := tj, caseTemp := tj - (mw * 12 / 10000 : Nat) } }
  unfold State.thermalShutdown
  revert hup hplace
  generalize State.hardReset _ = v
  intro hup hplace
  have hreg : ∀ r : Reg, r.at [] ≠ Reg.MAST_MODE.at [] →
      ((v.setFld .WAKE_STAT [] .WAKE_STAT_THERM 1).setMode 0).reg r = (v.setFld .WAKE_STAT [] .WAKE_STAT_THERM 1).reg r := fun r hr =>
    State.reg_setReg_other _ _ _ _ _ _ hr
  refine ⟨rfl, rfl, rfl, rfl, ?_, ?_, hplace⟩
  · show flag (((v.setFld .WAKE_STAT [] .WAKE_STAT_THERM 1).setMode 0).reg .WAKE_STAT) .WAKE_STAT_THERM = true
    rw [hreg _ (by decide), State.setFld, State.reg_setReg, flag_putBits_self _ _ (by decide) (by decide)]
    rfl
  · show flag (((v.setFld .WAKE_STAT [] .WAKE_STAT_THERM 1).setMode 0).reg .FSI_STATUS) .FSI_STATUS_FETAS_UP = false
    rw [hreg _ (by decide), State.setFld, State.reg_setReg_other _ _ _ _ _ _ (by decide)]
    exact hup

/-- R534, R235: otherwise the reading is kept and the rate of the DRAM follows the estimate. -/
theorem junctionSensorRead_follows {s : State} {tj : Int} {mw : Nat} (h : tj < 1600 ∨ s.crow.cut = true ∨ s.crow.mastOff = true) :
    exec (.junctionSensorRead tj mw) s =
      ok (State.followCase { s with fe := { s.fe with junction := tj, caseTemp := tj - (mw * 12 / 10000 : Nat) } }
        (tj - (mw * 12 / 10000 : Nat))) := by
  show execJunctionSensorRead tj mw s = _
  unfold execJunctionSensorRead
  dsimp only
  rw [if_neg (by rintro ⟨h1, h2, h3⟩; simp at h2 h3; simp [h2, h3] at h; omega)]

/-! ### The throttle (R383) -/

theorem quadReef_at (q : Nat) : Reg.QUAD_REEF.at [q] = 0x3000000100 + 4 * q := rfl

section Throttle
variable (s : State)

/-- A change of a level touches the register of its quad alone. -/
theorem State.setLevel_frame (q lvl : Nat) : OnlyRegs s (s.setLevel q lvl) := by
  fun_cases State.setLevel <;> exact ⟨rfl⟩

theorem State.level_setLevel_self {q lvl : Nat} (hq : s.pdOn.contains (67 + q) = true) (hl : lvl < 8) : (s.setLevel q lvl).level q = lvl := by
  unfold State.setLevel State.level
  rw [if_neg (by rw [hq]; decide), State.fld, State.reg_setReg, bits_putBits_of_disjoint _ _ (.inl (by decide)) (by decide),
    bits_putBits_of_disjoint _ _ (.inr (by decide)) (by decide), bits_putBits_self _ _ (by decide)]
  exact Nat.mod_eq_of_lt hl

theorem State.level_setLevel_other {q j : Nat} (h : j ≠ q) (lvl : Nat) : (s.setLevel q lvl).level j = s.level j := by
  fun_cases State.setLevel
  · rfl
  · rw [State.level, State.fld, State.reg_setReg_other _ _ _ _ _ _ (by simp only [quadReef_at]; omega)]
    rfl

theorem State.level_lt (q : Nat) : s.level q < 8 := Nat.mod_lt _ (by decide)

theorem State.throttleFlag_frame (b : Bool) : ∃ (m : SMap Word) (l : List Nat), s.throttleFlag b = { s with regs := m, pulses := l } := by
  fun_cases State.throttleFlag <;> exact ⟨_, _, rfl⟩

theorem State.flag_throttleFlag (b : Bool) : flag ((s.throttleFlag b).reg .MAST_MODE) .MAST_MODE_THROTTLE = b := by
  unfold State.throttleFlag
  split
  · next h => exact eq_of_beq h
  · refine (congrArg (flag · .MAST_MODE_THROTTLE) (s.reg_setReg .MAST_MODE [] _)).trans ?_
    rw [flag_putBits_self _ _ (by decide) (by decide)]
    cases b <;> rfl

theorem State.level_throttleFlag (b : Bool) (j : Nat) : (s.throttleFlag b).level j = s.level j := by
  have hat : Reg.QUAD_REEF.at [j] ≠ Reg.MAST_MODE.at [] := by
    have : Reg.MAST_MODE.at [] = 0x3000000008 := rfl
    simp only [quadReef_at, this]
    omega
  unfold State.throttleFlag
  split
  · rfl
  · exact congrArg (bits · .QUAD_REEF_LEVEL) (State.reg_setReg_other s .MAST_MODE .QUAD_REEF [] [j] _ hat)

/-- One quad goes down one level, which the throttle remembers (R383). -/
def State.throttleDown (q : Nat) : State :=
  { s.setLevel q (s.level q - 1) with fe := { s.fe with throttled := s.fe.throttled.set 0 q (s.fe.throttled.get 0 q + 1) } }

theorem State.throttleDown_frame (q : Nat) : ∃ (m : SMap Word) (x : Fetas), s.throttleDown q = { s with regs := m, fe := x } := by
  unfold State.throttleDown
  rw [(s.setLevel_frame q _).frame]
  exact ⟨_, _, rfl⟩

/-- Each quad of a list goes down one level, the others stay. -/
theorem State.throttleDown_all (l : List Nat) (hl : l.Nodup) (hon : ∀ q ∈ l, s.pdOn.contains (67 + q) = true) :
    (∃ (m : SMap Word) (x : Fetas), l.foldl State.throttleDown s = { s with regs := m, fe := x }) ∧
    ∀ j, (l.foldl State.throttleDown s).level j = if j ∈ l then s.level j - 1 else s.level j := by
  induction l generalizing s with
  | nil => exact ⟨⟨_, _, rfl⟩, fun _ => rfl⟩
  | cons q l ih =>
    obtain ⟨hq, hl⟩ := List.nodup_cons.mp hl
    obtain ⟨m, x, h⟩ := s.throttleDown_frame q
    have hon' : ∀ p ∈ l, (s.throttleDown q).pdOn.contains (67 + p) = true := fun p hp => by
      rw [h]; exact hon p (List.mem_cons_of_mem _ hp)
    obtain ⟨⟨m', x', hf⟩, hlev⟩ := ih (s.throttleDown q) hl hon'
    rw [List.foldl_cons]
    refine ⟨⟨m', x', by rw [hf, h]⟩, fun j => ?_⟩
    rw [hlev]
    by_cases hj : j = q
    · subst hj
      rw [if_neg hq, if_pos List.mem_cons_self]
      exact s.level_setLevel_self (hon _ List.mem_cons_self) (by have := s.level_lt j; omega)
    · have hs : (s.throttleDown q).level j = s.level j := s.level_setLevel_other hj _
      simp only [List.mem_cons, hj, false_or, hs]

/-- One lowered quad goes up one level again (R383). -/
def State.throttleUp (e : Nat × Nat) : State :=
  { s.setLevel e.1 (s.level e.1 + 1) with fe := { s.fe with throttled := s.fe.throttled.set 0 e.1 (e.2 - 1) } }

theorem State.throttleUp_frame (e : Nat × Nat) : ∃ m : SMap Word, s.throttleUp e =
    { s with regs := m, fe := { s.fe with throttled := s.fe.throttled.set 0 e.1 (e.2 - 1) } } := by
  unfold State.throttleUp
  rw [(s.setLevel_frame e.1 _).frame]
  exact ⟨_, rfl⟩

end Throttle

theorem State.pdOn_of_pdUp {s : State} {d : Nat} (h : s.pdUp d = true) : s.pdOn.contains d = true := by
  unfold State.pdUp at h
  exact (Bool.and_eq_true _ _ ▸ h).1

theorem throttleStep_early {s : State} (h : s.time < s.fe.coolAt) : exec .throttleStep s = .next s := by
  show execThrottleStep s = _
  unfold execThrottleStep
  rw [if_pos (by simp [h])]
  rfl

theorem throttleReleaseStep_early {s : State} (h : s.time < s.fe.warmAt) : exec .throttleReleaseStep s = .next s := by
  show execThrottleReleaseStep s = _
  unfold execThrottleReleaseStep
  rw [if_pos (by simp [h])]
  rfl

/-- R383: at 145 °C every quad above level 3 goes down one level. -/
theorem throttleStep_lowers {s : State} (hj : 1450 ≤ s.fe.junction) (hu : s.fetasUp = true) (hc : s.fe.coolAt ≤ s.time) :
    Completes .throttleStep s fun t => t.mem = s.mem ∧ t.cores = s.cores ∧
      t.fe.coolAt = s.time + 10 * 10 ^ 6 ∧ t.fe.warmAt = s.time + 100 * 10 ^ 6 ∧
      (∀ j < 16, t.level j = if s.pdUp (67 + j) = true ∧ 3 < s.level j then s.level j - 1 else s.level j) ∧
      ((∃ j < 16, s.pdUp (67 + j) = true ∧ 3 < s.level j) → flag (t.reg .MAST_MODE) .MAST_MODE_THROTTLE = true) := by
  have e : exec .throttleStep s = execThrottleStep s := rfl
  unfold execThrottleStep at e
  rw [if_neg (by simp [hu]; omega)] at e
  generalize hqs : (List.range 16).filter (fun q => s.pdUp (67 + q) && decide (3 < s.level q)) = qs at e
  have hmem : ∀ j, j ∈ qs ↔ j < 16 ∧ s.pdUp (67 + j) = true ∧ 3 < s.level j := fun j => by
    rw [← hqs]; simp
  obtain ⟨⟨m, x, hf⟩, hlev⟩ := s.throttleDown_all qs (hqs ▸ List.nodup_range.filter _)
    fun q hq => State.pdOn_of_pdUp ((hmem q).mp hq).2.1
  have e' : exec .throttleStep s = ok (let t := qs.foldl State.throttleDown s
      let v : State := { t with fe := { t.fe with coolAt := s.time + 10 * 10 ^ 6, warmAt := s.time + 100 * 10 ^ 6 } }
      if qs.isEmpty then v else v.throttleFlag true) := e
  dsimp only at e'
  generalize hv : ({ qs.foldl State.throttleDown s with fe := _ } : State) = v at e'
  have hvlev : ∀ j < 16, v.level j = if s.pdUp (67 + j) = true ∧ 3 < s.level j then s.level j - 1 else s.level j := fun j h16 => by
    rw [← hv]
    refine (hlev j).trans ?_
    simp only [hmem, h16, true_and]
  have hvmem : v.mem = s.mem := by rw [← hv, hf]
  have hvcores : v.cores = s.cores := by rw [← hv, hf]
  have hvfe : v.fe.coolAt = s.time + 10 * 10 ^ 6 ∧ v.fe.warmAt = s.time + 100 * 10 ^ 6 := by rw [← hv]; exact ⟨rfl, rfl⟩
  by_cases hnil : qs.isEmpty = true
  · rw [if_pos hnil] at e'
    refine completes_ok e' ⟨hvmem, hvcores, hvfe.1, hvfe.2, hvlev, fun ⟨j, hj⟩ => ?_⟩
    rw [List.isEmpty_iff] at hnil
    exact absurd ((hmem j).mpr hj) (hnil ▸ List.not_mem_nil)
  · rw [if_neg hnil] at e'
    obtain ⟨m, l, ht⟩ := v.throttleFlag_frame true
    refine completes_ok e' ⟨by rw [ht]; exact hvmem, by rw [ht]; exact hvcores, by rw [ht]; exact hvfe.1, by rw [ht]; exact hvfe.2,
      fun j h16 => (v.level_throttleFlag true j).trans (hvlev j h16), fun _ => v.flag_throttleFlag true⟩

/-- R383: below 140 °C a lowered quad goes up one level; with no quad lowered any more the throttle ends. -/
theorem throttleReleaseStep_raises {s : State} {q k : Nat} (hj : s.fe.junction < 1400) (hu : s.fetasUp = true) (hc : s.fe.warmAt ≤ s.time)
    (ht : s.fe.throttled = [(q, k + 1)]) (hq : s.pdUp (67 + q) = true) (h7 : s.level q < 7) (hw : s.fe.reefWait = []) :
    Completes .throttleReleaseStep s fun t => t.level q = s.level q + 1 ∧ t.fe.warmAt = s.time + 100 * 10 ^ 6 ∧ t.mem = s.mem ∧
      t.cores = s.cores ∧ (k = 0 → t.fe.throttled = [] ∧ flag (t.reg .MAST_MODE) .MAST_MODE_THROTTLE = false) ∧
      (k ≠ 0 → t.fe.throttled = [(q, k)]) := by
  have e : exec .throttleReleaseStep s = execThrottleReleaseStep s := rfl
  unfold execThrottleReleaseStep at e
  rw [if_neg (by simp [hu, ht]; omega)] at e
  generalize hs : ({ s with fe := { s.fe with warmAt := s.time + 100 * 10 ^ 6 } } : State) = u at e
  have e' : exec .throttleReleaseStep s = let t := u.fe.throttled.foldl State.throttleUp u
      if !t.fe.throttled.isEmpty then ok t
      else
        let t := t.fe.reefWait.foldl (fun s e => match e.2 with | some l => s.setLevel e.1 l | none => s) t
        ok (State.throttleFlag { t with fe := { t.fe with reefWait := [] } } false) := e
  rw [show u.fe.throttled = [(q, k + 1)] by rw [← hs]; exact ht] at e'
  dsimp only [List.foldl_cons, List.foldl_nil] at e'
  obtain ⟨m, hup⟩ := u.throttleUp_frame (q, k + 1)
  have hlev : (u.throttleUp (q, k + 1)).level q = s.level q + 1 := by
    rw [← hs]
    exact State.level_setLevel_self _ (State.pdOn_of_pdUp hq) (Nat.succ_lt_succ h7)
  generalize u.throttleUp (q, k + 1) = t at *
  have htl : t.fe.throttled = if k = 0 then [] else [(q, k)] := by
    rw [hup, ← hs]
    simp [ht, SMap.set, SMap.erase, SMap.insert]
  have hmem : t.mem = s.mem := by rw [hup, ← hs]
  have hcores : t.cores = s.cores := by rw [hup, ← hs]
  have hwarm : t.fe.warmAt = s.time + 100 * 10 ^ 6 := by rw [hup, ← hs]
  by_cases hk : k = 0
  · have hwait : t.fe.reefWait = [] := by rw [hup, ← hs]; exact hw
    rw [if_pos hk] at htl
    rw [if_neg (by simp [htl]), hwait, List.foldl_nil] at e'
    refine completes_ok e' ?_
    obtain ⟨m, l, hf⟩ := State.throttleFlag_frame { t with fe := { t.fe with reefWait := [] } } false
    refine ⟨(State.level_throttleFlag _ _ _).trans hlev, by rw [hf]; exact hwarm, by rw [hf]; exact hmem, by rw [hf]; exact hcores,
      fun _ => ⟨by rw [hf]; exact htl, State.flag_throttleFlag _ _⟩, fun h => absurd hk h⟩
  · rw [if_neg hk] at htl
    rw [if_pos (by simp [htl])] at e'
    exact completes_ok e' ⟨hlev, hwarm, hmem, hcores, fun h => absurd h hk, fun _ => htl⟩

/-! ### The mesh self-test (R40) -/

/-- The east half's routers hold no state of their own: switching PD 92 off drops its registers. -/
theorem State.domainOff_east (s : State) : (s.domainOff 92).pdOn = s.pdOn.erase 92 ∧ (s.domainOff 92).mem = s.mem ∧
    (s.domainOff 92).cores = s.cores := by
  unfold State.domainOff
  split
  · next h =>
    have hn : 92 ∉ s.pdOn := by simpa using h
    exact ⟨(List.erase_of_not_mem hn).symm, rfl, rfl⟩
  · exact ⟨rfl, rfl, rfl⟩

/-- A packet at an east stop keeps the east half from being quiet. -/
theorem State.meshQuiet_of_packet {s : State} (h : ∃ m ∈ s.net, meshPd (67 + m.quad) = 92) : s.meshQuiet = false := by
  obtain ⟨m, hm, h92⟩ := h
  have hnet : (s.net.all fun m => !(meshPd (67 + m.quad) == 92) && !(meshPd (83 + homeSec m.sec) == 92)) = false :=
    List.all_eq_false.mpr ⟨m, hm, by simp [h92]⟩
  simp only [State.meshQuiet, hnet, Bool.and_false, Bool.false_and]

theorem meshSelfTest_skips {s : State} {e dn : Bool} (h : s.mode ≠ .m7 ∨ e = false ∨ s.fetasUp = false) :
    exec (.meshSelfTest e dn) s = .next s := by
  show execMeshSelfTest e dn s = _
  unfold execMeshSelfTest
  rw [if_pos (by rcases h with h | h | h <;> simp [h])]
  rfl

section Mesh
variable {s : State} (hm : s.mode = .m7) (hu : s.fetasUp = true)
include hm hu

theorem meshSelfTest_east_down : exec (.meshSelfTest true true) s = ok (if s.meshQuiet then s.domainOff 92 else s) := by
  show execMeshSelfTest true true s = _
  unfold execMeshSelfTest
  rw [if_neg (by simp [hm, hu])]
  rfl

theorem meshSelfTest_east_up : exec (.meshSelfTest true false) s = .next (s.domainOn 92) := by
  show execMeshSelfTest true false s = _
  unfold execMeshSelfTest
  rw [if_neg (by simp [hm, hu])]
  rfl

end Mesh

theorem meshSelfTest_busy {s : State} (h : ∃ m ∈ s.net, meshPd (67 + m.quad) = 92) : exec (.meshSelfTest true true) s = .next s := by
  show execMeshSelfTest true true s = _
  unfold execMeshSelfTest
  split
  · rfl
  · rw [State.meshQuiet_of_packet h]
    rfl

/-! ### Failed checks (R424 to R427, R429) -/

/-- While Fetas is down a failure at a core is only met and reported. -/
theorem migration_down {s : State} {what : CoreFailure} (h : (s.meets what).fetasUp = false) : exec (.migration what) s = ok (s.meets what) := by
  show execMigration s what = _
  unfold execMigration
  dsimp only
  rw [if_pos (by simp [h])]

section Reported
variable {s : State} (hu : s.fetasUp = true) (hs : s.fe.selfTest = none)
include hu hs

theorem migration_machineCheck {f : Nat} (hr : s.reports.find? Report.isCheck = some (.machineCheck f)) :
    exec (.migration .reported) s = ok ((State.onCheck { s with reports := s.reports.erase (.machineCheck f) } f).getD s) := by
  show execMigration s .reported = _
  unfold execMigration State.meets
  dsimp only
  rw [if_neg (by simp [hu, hs]), hr]

theorem migration_pairCheck {f : Nat} (hr : s.reports.find? Report.isCheck = some (.pairCheck f)) :
    exec (.migration .reported) s = ok ((State.onPair { s with reports := s.reports.erase (.pairCheck f) } f).getD s) := by
  show execMigration s .reported = _
  unfold execMigration State.meets
  dsimp only
  rw [if_neg (by simp [hu, hs]), hr]

end Reported

/-- R425: a failed core that carries a logical core and has neither a partner nor a free backstay is tested where it stands. -/
theorem State.onCheck_alone {s : State} {p l : Nat} (hc : s.carried p = some l) (hp : s.fe.partner.get none p = none)
    (hb : s.pickBackstay (p / 4) = none) : s.onCheck p = some (s.startSelfTest p) := by
  unfold State.onCheck
  rw [hc]
  simp only [hp, hb]

theorem State.startSelfTest_spec (s : State) (p : Nat) : let t := s.startSelfTest p
    t = { s with fe := { s.fe with selfTest := some p }, cores := t.cores } ∧ (t.core (Fin.ofNat 64 p)).reg .RES_CTL = 0 ∧
      ∀ c : CoreId, c ≠ Fin.ofNat 64 p → t.core c = s.core c := by
  refine ⟨rfl, ?_, fun c hc => State.core_setCore_other s hc _⟩
  rw [State.startSelfTest]
  exact (congrArg (Core.reg · .RES_CTL) (s.core_updCore (Fin.ofNat 64 p) fun k => k.setReg .RES_CTL [] 0)).trans (Core.reg_setReg _ _ _ _)

/-! ### Failures at a core (R426, R429) -/

theorem Core.Agrees.g {k k' : Core} (h : Core.Agrees k k') : k'.g = k.g := by rw [h.rest]

theorem State.stopFailed_eq (s : State) (c : CoreId) : s.stopFailed c.val = s.updCore c fun k => { k with run := .stopped .machineCheck } := by
  have hc : Fin.ofNat 64 c.val = c := Fin.ext (Nat.mod_eq_of_lt c.isLt)
  rw [State.stopFailed, hc]

/-- A core that is stopped for a failed check and reported: nothing else of the state differs. -/
theorem State.stopFailed_spec (s : State) (c : CoreId) : let t := s.stopFailed c.val
    t.mem = s.mem ∧ t.regs = s.regs ∧ t.reports = s.reports ∧ t.core c = { s.core c with run := .stopped .machineCheck } ∧
      ∀ d : CoreId, d ≠ c → t.core d = s.core d := by
  rw [State.stopFailed_eq]
  exact ⟨rfl, rfl, rfl, State.core_updCore _ _ _, fun d hd => State.core_setCore_other s hd _⟩

theorem Core.loseReg_g (k : Core) {n : Nat} (h : n < 32) : (k.loseReg n).g.get 0 n = 0 := by
  simp only [Core.loseReg, if_pos h]
  exact SMap.get_set_self _ _ _ _

theorem Core.loseReg_f (k : Core) {n : Nat} (h : 32 ≤ n) : (k.loseReg n).f.get 0 (n - 32) = 0 := by
  simp only [Core.loseReg, if_neg (Nat.not_lt.mpr h)]
  exact SMap.get_set_self _ _ _ _

theorem State.fetasUp_of_regs {s t : State} (h : t.regs = s.regs) : t.fetasUp = s.fetasUp := by
  rw [State.fetasUp, State.reg_of_regs h, State.fetasUp]

section Register
variable {s : State} {c : CoreId} (n : Fin 64) (hp : s.pdUp (3 + c.val) = true)
  (hl : (s.carried c.val).isSome = true ∨ (s.leadOf c.val).isSome = true)
include hp hl

/-- How a core that is on and at work meets a register error (R426). -/
theorem State.meets_register (corrected : Bool) : s.meets (.register c n corrected) =
    if corrected then (s.event c evRegister).count (.register 0)
    else (((if (s.leadOf c.val).isSome || (s.fe.partner.get none c.val).isSome then s else s.updCore c fun k => k.loseReg n.val).stopFailed
      c.val).count (.register (1 + n.val + 64 * c.val))).report (.machineCheck c.val) := by
  have hwork : ¬((!s.pdUp (3 + c.val) || ((s.carried c.val).isNone && (s.leadOf c.val).isNone)) = true) := by
    rcases hl with hl | hl <;> simp [hp, Option.isSome_iff_ne_none.mp hl]
  unfold State.meets
  dsimp only
  rw [if_neg hwork]

variable (hd : s.fetasUp = false)
include hd

/-- R426: a corrected register error is counted. -/
theorem migration_register_corrected :
    exec (.migration (.register c n true)) s = .next ((s.event c evRegister).count (.register 0)) := by
  have hm : s.meets (.register c n true) = (s.event c evRegister).count (.register 0) := State.meets_register n hp hl true
  have hr : ((s.event c evRegister).count (.register 0)).regs = s.regs := by
    rw [State.count_regs, (OnCore.event c s evRegister 1).frame]
  have hup : (s.meets (.register c n true)).fetasUp = false := by rw [hm, State.fetasUp_of_regs hr, hd]
  rw [migration_down hup, hm]
  rfl

/-- R426: an uncorrected one stops the core and reports it; outside a pair the register is lost. -/
theorem migration_register_uncorrected :
    let inPair := (s.leadOf c.val).isSome = true ∨ (s.fe.partner.get none c.val).isSome = true
    Completes (.migration (.register c n false)) s fun t => t.mem = s.mem ∧ t.regs = s.regs ∧ (t.core c).run = .stopped .machineCheck ∧
      .machineCheck c.val ∈ t.reports ∧ (∀ d : CoreId, d ≠ c → t.core d = s.core d) ∧ (t.core c).pc = (s.core c).pc ∧
      (¬ inPair → (t.core c).mcheck = true ∧ (n.val < 32 → (t.core c).g.get 0 n.val = 0) ∧
        (32 ≤ n.val → (t.core c).f.get 0 (n.val - 32) = 0)) ∧
      (inPair → (t.core c).g = (s.core c).g ∧ (t.core c).f = (s.core c).f) := by
  intro inPair
  have hm := State.meets_register n hp hl false
  rw [if_neg (by decide)] at hm
  generalize hv : (if ((s.leadOf c.val).isSome || (s.fe.partner.get none c.val).isSome) = true then s
    else s.updCore c fun k => k.loseReg n.val) = v at hm
  have hkept : v.mem = s.mem ∧ v.regs = s.regs ∧ (∀ d : CoreId, d ≠ c → v.core d = s.core d) ∧ (v.core c).pc = (s.core c).pc := by
    rw [← hv]
    split
    · exact ⟨rfl, rfl, fun _ _ => rfl, rfl⟩
    · exact ⟨rfl, rfl, fun d hd => State.core_setCore_other s hd _, by rw [State.core_updCore]; rfl⟩
  obtain ⟨hmem, hregs, hothers, hpc⟩ := hkept
  obtain ⟨tmem, tregs, -, tcore, tothers⟩ := v.stopFailed_spec c
  generalize v.stopFailed c.val = w at hm tmem tregs tcore tothers
  have hup : (s.meets (.register c n false)).fetasUp = false := by
    have hr : ((w.count (.register (1 + n.val + 64 * c.val))).report (.machineCheck c.val)).regs = s.regs := tregs.trans hregs
    rw [hm, State.fetasUp_of_regs hr, hd]
  refine completes_ok ((migration_down hup).trans (congrArg ok hm)) ⟨tmem.trans hmem, tregs.trans hregs, ?_,
    List.mem_append_right _ (List.mem_singleton_self _), fun d hd => (tothers d hd).trans (hothers d hd), ?_, fun hout => ?_, fun hin => ?_⟩
  · show (w.core c).run = _
    rw [tcore]
  · show (w.core c).pc = _
    rw [tcore, hpc]
  · have hvc : v.core c = (s.core c).loseReg n.val := by
      rw [← hv, if_neg (by rw [Bool.or_eq_true]; exact hout)]
      exact State.core_updCore _ _ _
    show (w.core c).mcheck = true ∧ (_ → (w.core c).g.get 0 n.val = 0) ∧ (_ → (w.core c).f.get 0 (n.val - 32) = 0)
    rw [tcore, hvc]
    exact ⟨rfl, Core.loseReg_g _, Core.loseReg_f _⟩
  · have hvc : v.core c = s.core c := by rw [← hv, if_pos (by rw [Bool.or_eq_true]; exact hin)]
    show (w.core c).g = _ ∧ (w.core c).f = _
    rw [tcore, hvc]
    exact ⟨rfl, rfl⟩

end Register

theorem State.core_count (s : State) (x : Tele) (c : CoreId) : (s.count x).core c = s.core c := by
  rw [State.core, State.count_cores, State.core]

/-- R429: a mismatch of a pair rolls it back; the second stops its lead and reports it. -/
theorem migration_compare {s : State} {c : CoreId} (hd : s.fetasUp = false) (hl : (s.carried c.val).isSome = true)
    (hp : (s.fe.partner.get none c.val).isSome = true) (again : Bool) :
    Completes (.migration (.compare c again)) s fun t => t.mem = s.mem ∧ t.regs = s.regs ∧ (t.core c).g = (s.core c).g ∧
      (t.core c).pc = (s.core c).pc ∧ (again = true → (t.core c).run = .stopped .machineCheck ∧ .pairCheck c.val ∈ t.reports) ∧
      (again = false → t.reports = s.reports) := by
  have hm : s.meets (.compare c again) = if again then (((s.event c evRollback).count .rollback).stopFailed c.val).report (.pairCheck c.val)
      else (s.event c evRollback).count .rollback := by
    unfold State.meets
    dsimp only
    rw [if_neg (by simp [Option.isSome_iff_ne_none.mp hl, Option.isSome_iff_ne_none.mp hp])]
  have hv : OnCore c s (s.event c evRollback) := OnCore.event _ _ _ _
  have hg : (((s.event c evRollback).count .rollback).core c).g = (s.core c).g := by rw [State.core_count, hv.core.g]
  have hpc : (((s.event c evRollback).count .rollback).core c).pc = (s.core c).pc := by rw [State.core_count, hv.pc]
  have hmem : ((s.event c evRollback).count .rollback).mem = s.mem := by rw [State.count_mem, hv.frame]
  have hregs : ((s.event c evRollback).count .rollback).regs = s.regs := by rw [State.count_regs, hv.frame]
  have hrep : ((s.event c evRollback).count .rollback).reports = s.reports := by rw [State.count_reports, hv.frame]
  generalize (s.event c evRollback).count .rollback = v at hm hg hpc hmem hregs hrep
  cases again with
  | false =>
    have hup : (s.meets (.compare c false)).fetasUp = false := by rw [hm, if_neg (by decide), State.fetasUp_of_regs hregs, hd]
    exact completes_ok ((migration_down hup).trans (congrArg ok hm)) ⟨hmem, hregs, hg, hpc, fun h => Bool.noConfusion h, fun _ => hrep⟩
  | true =>
    obtain ⟨tmem, tregs, -, tcore, -⟩ := v.stopFailed_spec c
    generalize v.stopFailed c.val = w at hm tmem tregs tcore
    have hr : (w.report (.pairCheck c.val)).regs = s.regs := tregs.trans hregs
    have hup : (s.meets (.compare c true)).fetasUp = false := by rw [hm, if_pos rfl, State.fetasUp_of_regs hr, hd]
    refine completes_ok ((migration_down hup).trans (congrArg ok hm))
      ⟨tmem.trans hmem, hr, ?_, ?_, fun _ => ⟨?_, ?_⟩, fun h => Bool.noConfusion h⟩
    · show (w.core c).g = _
      rw [tcore, hg]
    · show (w.core c).pc = _
      rw [tcore, hpc]
    · show (w.core c).run = _
      rw [tcore]
    · exact List.mem_append_right _ (List.mem_singleton_self _)

/-- R427: a core that passes its self-test goes on with a machine check of its own. -/
theorem selfTestComplete_passes {s : State} {p l : Nat} (hs : s.fe.selfTest = some p) (hl : s.carried p = some l) :
    Completes (.selfTestComplete true) s fun t => t.fe.selfTest = none ∧ (t.core (Fin.ofNat 64 p)).run = .running ∧
      (t.core (Fin.ofNat 64 p)).mcheck = true ∧ t.mem = s.mem ∧ ∀ c : CoreId, c ≠ Fin.ofNat 64 p → t.core c = s.core c := by
  have e : exec (.selfTestComplete true) s = execSelfTestComplete true s := rfl
  unfold execSelfTestComplete at e
  rw [hs] at e
  dsimp only at e
  rw [show State.carried { s with fe := { s.fe with selfTest := none } } p = some l from hl] at e
  dsimp only at e
  rw [if_pos rfl] at e
  generalize hu : State.updCore _ _ _ = u at e
  have h := u.healthEval_onHealth.trans u.healthEval.healthEvent_onHealth
  have hcore : u.core (Fin.ofNat 64 p) = { s.core (Fin.ofNat 64 p) with run := .running, mcheck := true } := by
    rw [← hu]
    exact State.core_updCore _ _ _
  have hc : ∀ c, State.core u.healthEval.healthEvent c = u.core c := fun c => by rw [State.core, h.cores, State.core]
  refine completes_ok e ⟨?_, ?_, ?_, h.mem.trans (by rw [← hu]; rfl), fun c hne => ?_⟩
  · rw [h.fe, ← hu]
    rfl
  · rw [hc, hcore]
  · rw [hc, hcore]
  · rw [hc, ← hu]
    exact State.core_setCore_other _ hne _

/-! ### Reef levels, temperature and health -/

/-- Settles O59: one lemma for each command and branch the statement names. -/
theorem reefAndHealth : Obligations.ReefAndHealth := by
  unfold Obligations.ReefAndHealth
  intro s u q ma mw k t0 p l tj i e dn f
  refine ⟨fun hq => ⟨loadLineGuard_raises hq, fun hg h5 h7 _ => guardRelease_lowers hq hg h5 h7, droopStretch_counts hq,
      pllReferenceSwitch_counts hq⟩,
    ⟨fun h => completes_ok (junctionSensorRead_follows h) (State.followCase_spec _ _), junctionSensorRead_shuts⟩,
    throttleStep_early, throttleReleaseStep_early, throttleStep_lowers, throttleReleaseStep_raises, healthPinReturn_raises,
    fun rx => hsrPathReserveExpiry_counts,
    ⟨meshSelfTest_skips, fun hm hu hq => ?_, meshSelfTest_busy, meshSelfTest_east_up⟩,
    fun hu hs => ⟨fun hr => ⟨fun t ht => ?_, fun hc hp hb => ?_⟩, fun hr t ht => ?_⟩,
    fun c n again hd => ⟨fun hp hl => ⟨migration_register_corrected n hp hl hd, migration_register_uncorrected n hp hl hd⟩,
      fun hl hp => migration_compare hd hl hp again⟩,
    selfTestComplete_passes⟩
  · exact completes_ok ((meshSelfTest_east_down hm hu).trans (by rw [if_pos hq])) s.domainOff_east
  · rw [migration_machineCheck hu hs hr, ht]
    rfl
  · have halone := State.onCheck_alone (s := { s with reports := s.reports.erase (.machineCheck f) }) hc hp hb
    exact completes_ok ((migration_machineCheck hu hs hr).trans (by rw [halone]; rfl)) (State.startSelfTest_spec _ _)
  · rw [migration_pairCheck hu hs hr, ht]
    rfl

end Sys2Proof.Machine

/-! PROOFS. Memory traffic leaves the registers, the long operations and the buffers of every core alone (R105, R114, R193): the relation, and the caches of a quad. -/

namespace Sys2Proof.Machine

/-- Of a core, k' has the registers, the long operations and what a boundary asks for; an overflow may have woken it from WFI
(R275, R463). -/
structure Core.Still (k k' : Core) : Prop extends Core.KeepsRegs k k' where
  run : k'.run = k.run ∨ (k.run = .wfi ∧ k'.run = .running)
  haltReq : k'.haltReq = k.haltReq
  long : k'.long = k.long
  owed : k'.owed = k.owed

/-- Memory traffic at a core: it stays still, and of its store buffer at most the head is marked (R193). -/
structure Core.Serves (k k' : Core) : Prop extends Core.Still k k' where
  tail : k'.sb.tail = k.sb.tail
  len : k'.sb.length = k.sb.length

/-- Between two states every core stays still. -/
structure State.Still (s t : State) : Prop where
  core : ∀ c, Core.Still (s.core c) (t.core c)

/-- Between two states there was memory traffic only. -/
structure State.Serves (s t : State) : Prop where
  core : ∀ c, Core.Serves (s.core c) (t.core c)

theorem Core.KeepsRegs.refl (k : Core) : Core.KeepsRegs k k := ⟨rfl, rfl, rfl, rfl, fun _ _ => rfl⟩

theorem Core.KeepsRegs.trans {a b d : Core} (h : Core.KeepsRegs a b) (g : Core.KeepsRegs b d) : Core.KeepsRegs a d :=
  ⟨g.g.trans h.g, g.f.trans h.f, g.pc.trans h.pc, g.spH.trans h.spH, fun n hn => (g.sys n hn).trans (h.sys n hn)⟩

theorem Core.Still.refl (k : Core) : Core.Still k k := ⟨.refl k, .inl rfl, rfl, rfl, rfl⟩

theorem Core.Still.trans {a b d : Core} (h : Core.Still a b) (g : Core.Still b d) : Core.Still a d := by
  refine ⟨h.toKeepsRegs.trans g.toKeepsRegs, ?_, g.haltReq.trans h.haltReq, g.long.trans h.long, g.owed.trans h.owed⟩
  rcases h.run with hr | ⟨hw, hr⟩
  · rw [← hr]; exact g.run
  · rcases g.run with gr | ⟨gw, -⟩
    · exact .inr ⟨hw, gr.trans hr⟩
    · rw [hr] at gw; cases gw

theorem Core.Serves.refl (k : Core) : Core.Serves k k := ⟨.refl k, rfl, rfl⟩

theorem Core.Serves.trans {a b d : Core} (h : Core.Serves a b) (g : Core.Serves b d) : Core.Serves a d :=
  ⟨h.toStill.trans g.toStill, g.tail.trans h.tail, g.len.trans h.len⟩

/-- A core of which only the caches, the fill slots, the reservation, the return stack and the trace change serves. -/
theorem Core.Serves.of_caches {k k' : Core} (h : k' = { k with
    resv := k'.resv, hold := k'.hold, rstack := k'.rstack, ucwSent := k'.ucwSent, ldWait := k'.ldWait, ldPc := k'.ldPc,
    stWait := k'.stWait, pfWait := k'.pfWait, ifWait := k'.ifWait, l1i := k'.l1i, l1d := k'.l1d, slb := k'.slb, itlb := k'.itlb,
    dtlb := k'.dtlb, l2tlb := k'.l2tlb, wc := k'.wc, slbSeed := k'.slbSeed, itlbSeed := k'.itlbSeed, dtlbSeed := k'.dtlbSeed,
    l2tlbSeed := k'.l2tlbSeed, wcSeed := k'.wcSeed, mramOpen := k'.mramOpen, trace := k'.trace }) : Core.Serves k k' := by
  rw [h]
  exact ⟨⟨⟨rfl, rfl, rfl, rfl, fun _ _ => rfl⟩, .inl rfl, rfl, rfl, rfl⟩, rfl, rfl⟩

theorem Core.Serves.of_agrees {k k' : Core} (h : Core.Agrees k k') (hp : k'.pc = k.pc) : Core.Serves k k' := by
  have hr := h.rest
  exact ⟨⟨⟨by rw [hr], by rw [hr], hp, by rw [hr], h.sys⟩, h.run, by rw [hr], by rw [hr], by rw [hr]⟩, by rw [hr], by rw [hr]⟩

theorem State.Serves.refl (s : State) : State.Serves s s := ⟨fun _ => .refl _⟩

section
variable {x s : State}

theorem State.Serves.trans {t : State} (h : State.Serves x s) (g : State.Serves s t) : State.Serves x t :=
  ⟨fun c => (h.core c).trans (g.core c)⟩

theorem State.Serves.of_cores (h : State.Serves x s) {t : State} (e : t.cores = s.cores) : State.Serves x t := by
  refine ⟨fun c => ?_⟩
  have hc : t.core c = s.core c := by unfold State.core; rw [e]
  rw [hc]
  exact h.core c

theorem State.Serves.upd (h : State.Serves x s) (c : Fin 64) (f : Core → Core) (hf : Core.Serves (s.core c) (f (s.core c))) :
    State.Serves x (s.updCore c f) := by
  refine ⟨fun d => ?_⟩
  by_cases hd : d = c
  · subst hd
    rw [State.core_updCore]
    exact (h.core d).trans hf
  · rw [State.updCore, State.core_setCore_other _ hd]
    exact h.core d

theorem State.Serves.ite {p : Prop} [Decidable p] {t : State} (h : State.Serves x s) (g : State.Serves x t) :
    State.Serves x (if p then s else t) := by
  split
  · exact h
  · exact g

theorem State.Serves.iteSnd {p : Prop} [Decidable p] {α : Type} {a b : α × State} (ha : State.Serves x a.2) (hb : State.Serves x b.2) :
    State.Serves x (if p then a else b).2 := by
  split
  · exact ha
  · exact hb

/-! What memory traffic sets of a core. -/

theorem State.Serves.setL1d (h : State.Serves x s) (c : Fin 64) (f : Core → Cache) :
    State.Serves x (s.updCore c fun k => { k with l1d := f k }) := h.upd c _ (.of_caches rfl)
theorem State.Serves.setL1i (h : State.Serves x s) (c : Fin 64) (f : Core → Cache) :
    State.Serves x (s.updCore c fun k => { k with l1i := f k }) := h.upd c _ (.of_caches rfl)
theorem State.Serves.setIfWait (h : State.Serves x s) (c : Fin 64) (f : Core → Option Nat) :
    State.Serves x (s.updCore c fun k => { k with ifWait := f k }) := h.upd c _ (.of_caches rfl)
theorem State.Serves.setLdWait (h : State.Serves x s) (c : Fin 64) (f : Core → Option Nat) :
    State.Serves x (s.updCore c fun k => { k with ldWait := f k }) := h.upd c _ (.of_caches rfl)
theorem State.Serves.setStWait (h : State.Serves x s) (c : Fin 64) (f : Core → Option Nat) :
    State.Serves x (s.updCore c fun k => { k with stWait := f k }) := h.upd c _ (.of_caches rfl)
theorem State.Serves.setPfWait (h : State.Serves x s) (c : Fin 64) (f : Core → List (Nat × Bool)) :
    State.Serves x (s.updCore c fun k => { k with pfWait := f k }) := h.upd c _ (.of_caches rfl)

theorem State.Serves.event (h : State.Serves x s) (c : Fin 64) (e v : Nat) : State.Serves x (s.event c e v) :=
  h.upd c _ (.of_agrees ((Core.agrees_countEvent _ _ _ _).trans (Core.agrees_ovfWake _))
    ((Core.ovfWake_pc _).trans (Core.countEvent_pc _ _ _ _)))

theorem State.Serves.foldl {α : Type} {g : State → α → State} (h : State.Serves x s)
    (hg : ∀ s a, State.Serves x s → State.Serves x (g s a)) (l : List α) : State.Serves x (l.foldl g s) := by
  induction l generalizing s with
  | nil => exact h
  | cons a l ih => exact ih (hg _ _ h)

theorem State.Serves.updQuad (h : State.Serves x s) (q : Nat) (f : Quad → Quad) : State.Serves x (s.updQuad q f) := h.of_cores rfl
theorem State.Serves.updHome (h : State.Serves x s) (q : Nat) (f : Home → Home) : State.Serves x (s.updHome q f) := h.of_cores rfl
theorem State.Serves.updL2 (h : State.Serves x s) (q : Nat) (f : Cache → Cache) : State.Serves x (s.updL2 q f) := h.of_cores rfl
theorem State.Serves.updL3 (h : State.Serves x s) (q : Nat) (f : Cache → Cache) : State.Serves x (s.updL3 q f) := h.of_cores rfl
theorem State.Serves.send (h : State.Serves x s) (m : Msg) : State.Serves x (s.send m) := h.of_cores rfl
theorem State.Serves.addrErr (h : State.Serves x s) (a : Nat) (b : Bool) (d e : Nat) (p : BitVec 29) : State.Serves x (s.addrErr a b d e p) := h.of_cores rfl

theorem State.Serves.l1dDrop (h : State.Serves x s) (c : Fin 64) (n : Nat) : State.Serves x (s.l1dDrop c n) := by
  unfold State.l1dDrop
  grind [State.Serves.upd, State.Serves.updL2, Core.Serves.of_caches, Core.lostSector]

theorem State.Serves.l1dDown (h : State.Serves x s) (c : Fin 64) (n : Nat) (st : CSt) : State.Serves x (s.l1dDown c n st) := by
  unfold State.l1dDown
  grind [State.Serves.upd, State.Serves.updL2, Core.Serves.of_caches, Core.lostSector]

theorem State.Serves.l1iDrop (h : State.Serves x s) (c : Fin 64) (n : Nat) : State.Serves x (s.l1iDrop c n) :=
  h.upd c _ (.of_caches rfl)

theorem State.Serves.l1iDropAll (h : State.Serves x s) (n : Nat) : State.Serves x (s.l1iDropAll n) := by
  unfold State.l1iDropAll
  grind [State.Serves.foldl, State.Serves.l1iDrop]
end

end Sys2Proof.Machine

/-! PROOFS. Memory traffic: the eviction and the snoop of a block in an L2 (R176, R186, R189), and the memory behind a home. -/

namespace Sys2Proof.Machine
section
variable {x s : State}

/-- A block leaves the L1s of a quad. -/
theorem State.Serves.dropInner (h : State.Serves x s) (q : Nat) (ns : List Nat) :
    State.Serves x (ns.foldl (fun s n => (coresOf q).foldl (fun s c => (s.l1dDrop c n).l1iDrop c n) s) s) :=
  h.foldl (fun _ n hn => hn.foldl (fun _ c hc => (hc.l1dDrop c n).l1iDrop c n) _) _

theorem State.Serves.l2Evict (h : State.Serves x s) (q f : Nat) : State.Serves x (s.l2Evict q f) := by
  unfold State.l2Evict
  split
  · exact h
  · dsimp only
    generalize hu : List.foldl _ s _ = u
    have h1 : State.Serves x u := hu ▸ h.dropInner q _
    grind [State.Serves.updL2, State.Serves.updQuad, State.Serves.send, State.Serves.addrErr]

theorem State.Serves.l2Alloc (h : State.Serves x s) (q n : Nat) : State.Serves x (s.l2Alloc q n).2 := by
  unfold State.l2Alloc
  grind [State.Serves.l2Evict, State.Serves.updL2]

theorem State.Serves.reclaim (h : State.Serves x s) (q n : Nat) : State.Serves x (s.reclaim q n).2 := by
  unfold State.reclaim
  grind [State.Serves.l2Alloc, State.Serves.foldl, State.Serves.updL2, State.Serves.updQuad]

theorem State.Serves.snoopEntry (h : State.Serves x s) (q n : Nat) (kind : MsgKind) (e : Evict) (y : Sec) :
    State.Serves x (s.snoopEntry q n kind e y).2 := by
  unfold State.snoopEntry
  dsimp only
  split <;> dsimp only <;> exact h.updQuad _ _

theorem State.Serves.snoop (h : State.Serves x s) (q n : Nat) (kind : MsgKind) : State.Serves x (s.snoop q n kind).2 := by
  unfold State.snoop
  split
  · exact h
  · split
    · exact h.snoopEntry _ _ _ _ _
    · dsimp only
      split
      · dsimp only
        exact h.updL2 _ _
      · generalize hu : List.foldl _ s _ = u
        have h1 : State.Serves x u := hu ▸ h.foldl (fun _ c hc => by split; exacts [hc, hc.event _ _ _]) _
        have hdown : ∀ st, State.Serves x ((coresOf q).foldl (fun s c => s.l1dDown c n st) u) := fun _ => h1.foldl (fun _ c hc => hc.l1dDown c n _) _
        have hdrop : State.Serves x ((coresOf q).foldl (fun s c => s.l1dDrop c n) u) := h1.foldl (fun _ c hc => hc.l1dDrop c n) _
        split
        · dsimp only; exact (hdown _).updL2 _ _
        · dsimp only; exact (hdown _).updL2 _ _
        · dsimp only; exact hdrop.updL2 _ _
        · dsimp only; exact hdrop.updL2 _ _
end

/-! What memory does changes no core at all. -/

theorem State.capture_cores (s : State) (r : Reg) (i : List Nat) (n : Nat) : (s.capture r i n).2.cores = s.cores := by
  unfold State.capture; grind [State.setReg_cores]

theorem State.logMg_cores (s : State) (g kind ch n : Nat) : (s.logMg g kind ch n).cores = s.cores := by
  unfold State.logMg; grind [State.count_cores, State.countFld_cores, State.capture_cores, State.setReg_cores]

theorem State.logMr_cores (s : State) (kind die n : Nat) : (s.logMr kind die n).cores = s.cores := by
  unfold State.logMr; grind [State.count_cores, State.countFld_cores, State.capture_cores, State.setReg_cores]

theorem State.healthEval_cores (s : State) : s.healthEval.cores = s.cores := by
  exact (State.healthEval_onHealth s).cores
theorem State.feEvent_cores (s : State) (k : Nat) (p : List Nat) : (s.feEvent k p).cores = s.cores := by
  obtain ⟨y, hy, -⟩ := State.feEvent_frame s k p []
  rw [hy]
theorem State.markDie_cores (s : State) (g ch : Nat) : (s.markDie g ch).cores = s.cores := by
  unfold State.markDie; grind [State.healthEval_cores, State.feEvent_cores, State.pulse_cores, State.setReg_cores]

theorem State.noteCe_cores (s : State) (g : Nat) : (s.noteCe g).cores = s.cores := by
  unfold State.noteCe; grind

theorem State.degradedRead_cores (s : State) (n k : Nat) (e : ErrList) (f : Nat) : (s.degradedRead n k e f).2.cores = s.cores := by
  unfold State.degradedRead; grind [State.logMg_cores]

theorem State.decodeBurst_cores (s : State) (b k : Nat) (e : BurstErrs) (p : BitVec 9) : (s.decodeBurst b k e p).2.cores = s.cores := by
  unfold State.decodeBurst; grind [State.logMg_cores, State.degradedRead_cores, State.noteCe_cores, State.markDie_cores]

theorem State.decodeRead_cores (s : State) (b k : Nat) (e : BurstErrs) (p : BitVec 9) : (s.decodeRead b k e p).2.cores = s.cores := by
  unfold State.decodeRead; grind [State.decodeBurst_cores]

theorem State.mramDecode_cores (s : State) (n e : Nat) : (s.mramDecode n e).2.cores = s.cores := by
  unfold State.mramDecode; grind [State.logMr_cores]

theorem State.memRead_cores (s : State) (n : Nat) : (s.memRead n).2.cores = s.cores := by
  unfold State.memRead; grind [State.mramDecode_cores, State.decodeRead_cores, State.mramRead, State.addrErr]

theorem State.setMemSec_cores (s : State) (n : Nat) (d : BitVec 512) (p : Bool) : (s.setMemSec n d p).cores = s.cores := by
  unfold State.setMemSec State.setPoison; grind

theorem State.writeBack_cores (s : State) (n : Nat) (d : BitVec 512) (p : Bool) : (s.writeBack n d p).cores = s.cores := by
  unfold State.writeBack; grind [State.setMemSec_cores, State.logMg_cores, State.mramAccept, State.addrErr]

theorem State.l3Data_cores (s : State) (h n : Nat) : (s.l3Data h n).2.cores = s.cores := by
  unfold State.l3Data; grind [State.memRead_cores]

theorem State.updL3_cores (s : State) (h : Nat) (f : Cache → Cache) : (s.updL3 h f).cores = s.cores := rfl
theorem State.updHome_cores (s : State) (h : Nat) (f : Home → Home) : (s.updHome h f).cores = s.cores := rfl
theorem State.send_cores (s : State) (m : Msg) : (s.send m).cores = s.cores := rfl
theorem State.addrErr_cores (s : State) (a : Nat) (b : Bool) (d e : Nat) (p : BitVec 29) : (s.addrErr a b d e p).cores = s.cores := rfl

theorem foldl_cores {α : Type} (g : State → α → State) (hg : ∀ s a, (g s a).cores = s.cores) (l : List α) (s : State) :
    (l.foldl g s).cores = s.cores := by
  induction l generalizing s with
  | nil => rfl
  | cons a l ih => exact (ih _).trans (hg _ _)

theorem State.l3Fill_cores (s : State) (h n : Nat) : (s.l3Fill h n).cores = s.cores := by
  unfold State.l3Fill; grind [State.memRead_cores, foldl_cores, State.updL3_cores]

theorem State.l3Free_cores (s : State) (h n : Nat) : (s.l3Free h n).cores = s.cores := by
  unfold State.l3Free; grind [State.updL3_cores]

theorem State.pdqSync_cores (s : State) (h n : Nat) : (s.pdqSync h n).cores = s.cores := by
  unfold State.pdqSync; grind [State.updHome_cores]

theorem State.homeApply_cores (s : State) (h : Nat) (t : Trans) : (s.homeApply h t).cores = s.cores := by
  unfold State.homeApply
  grind [State.updL3_cores, State.send_cores, State.l3Data_cores, State.writeBack_cores, State.l3Free_cores, foldl_cores, State.addrErr_cores]

end Sys2Proof.Machine

/-! PROOFS. Memory traffic: the work of a home on a request (R185, R186), and the L1s (R177). -/

namespace Sys2Proof.Machine
section
variable {x s : State}

theorem State.Serves.homeReply (h : State.Serves x s) (q : Nat) (m : Msg) : State.Serves x (s.homeReply q m) := by
  have drop : ∀ u, State.Serves x u → State.Serves x
      ((List.range 4).foldl (fun s i => (s.l1iDropAll (m.sec + i)).pdqSync q (m.sec + i)) u) :=
    fun _ hu => hu.foldl (fun _ i hi => (hi.l1iDropAll _).of_cores (State.pdqSync_cores _ _ _)) _
  unfold State.homeReply
  dsimp only
  split
  case h_5 =>
    split
    · exact drop _ (h.updL3 _ _)
    · exact drop _ h
  all_goals first | exact h | exact h.send _ | exact h.of_cores (State.pdqSync_cores _ _ _)

theorem State.Serves.homeFinish (h : State.Serves x s) (q : Nat) (t : Trans) : State.Serves x (s.homeFinish q t) := by
  unfold State.homeFinish
  grind [State.Serves.of_cores, State.homeApply_cores, State.pdqSync_cores, State.Serves.homeReply, State.updHome_cores]

theorem State.Serves.homeSnoop (h : State.Serves x s) (q : Nat) (m : Msg) : State.Serves x (s.homeSnoop q m) := by
  unfold State.homeSnoop
  grind [State.Serves.updHome, State.Serves.of_cores, State.l3Fill_cores, State.Serves.homeFinish, State.Serves.send, State.Serves.foldl]

theorem State.Serves.homePlace (h : State.Serves x s) (q : Nat) (m : Msg) : State.Serves x (s.homePlace q m) := by
  unfold State.homePlace
  grind [State.Serves.homeSnoop, State.Serves.updL3, State.Serves.updHome]

theorem State.Serves.homeStart (h : State.Serves x s) (q : Nat) (m : Msg) : State.Serves x (s.homeStart q m) := by
  unfold State.homeStart
  split
  · exact h.foldl (fun _ i hi => (hi.updL3 _ _).of_cores (State.pdqSync_cores _ _ _)) _
  · exact (h.updHome _ _).send _
  all_goals grind [State.Serves.homeSnoop, State.Serves.homePlace]

theorem State.Serves.homeAct (h : State.Serves x s) (q : Nat) (t : Trans) (v : HomeMove) : State.Serves x (s.homeAct q t v) := by
  unfold State.homeAct
  grind [State.Serves.homeSnoop, State.Serves.updL3, State.Serves.updHome, State.Serves.homeReply]

theorem State.Serves.homeKick (h : State.Serves x s) (q fuel : Nat) : State.Serves x (s.homeKick q fuel) := by
  induction fuel generalizing s with
  | zero => exact h
  | succ k ih =>
    unfold State.homeKick
    split
    · exact ih (h.homeAct _ _ _)
    · split
      · exact h
      · exact ih ((h.updHome _ _).homeStart _ _)

theorem State.Serves.homeRequest (h : State.Serves x s) (m : Msg) : State.Serves x (s.homeRequest m) :=
  (h.updHome _ _).homeKick _ _

theorem State.Serves.l3Fill (h : State.Serves x s) (q n : Nat) : State.Serves x (s.l3Fill q n) :=
  h.of_cores (State.l3Fill_cores _ _ _)

theorem State.Serves.pdqSync (h : State.Serves x s) (q n : Nat) : State.Serves x (s.pdqSync q n) :=
  h.of_cores (State.pdqSync_cores _ _ _)

theorem State.Serves.wbEnd (h : State.Serves x s) (q : Nat) (t : Trans) : State.Serves x (s.wbEnd q t) := by
  unfold State.wbEnd
  grind [State.Serves.foldl, State.Serves.updL3, State.Serves.pdqSync]

theorem State.Serves.wbAnswer (h : State.Serves x s) (q : Nat) (t : Trans) (m : Msg) : State.Serves x (s.wbAnswer q t m) := by
  unfold State.wbAnswer
  grind [State.Serves.updHome, State.Serves.pdqSync, State.Serves.updL3, State.Serves.wbEnd]

theorem State.Serves.snoopAnswer (h : State.Serves x s) (q : Nat) (t : Trans) (m : Msg) : State.Serves x (s.snoopAnswer q t m) := by
  unfold State.snoopAnswer
  dsimp only
  generalize hu : State.updL3 s q _ = u
  have h1 : State.Serves x u := hu ▸ h.updL3 _ _
  exact .ite (.updHome h1 _ _) (.homeFinish (.ite (.l3Fill (.updHome h1 _ _) _ _) (.updHome h1 _ _)) _ _)

theorem State.Serves.homeAnswer (h : State.Serves x s) (m : Msg) : State.Serves x (s.homeAnswer m) := by
  unfold State.homeAnswer
  grind [State.Serves.homeKick, State.Serves.wbAnswer, State.Serves.snoopAnswer]

theorem State.Serves.l1dEvict (h : State.Serves x s) (c : Fin 64) (f : Nat) : State.Serves x (s.l1dEvict c f) := by
  unfold State.l1dEvict
  split
  · exact h
  · exact .setL1d (.foldl h (fun _ p hp => hp.l1dDrop c p.1) _) c _

theorem State.Serves.l1dAlloc (h : State.Serves x s) (c : Fin 64) (n : Nat) : State.Serves x (s.l1dAlloc c n) := by
  unfold State.l1dAlloc
  split
  · exact h
  · split
    · exact h
    · dsimp only
      split
      · exact .setL1d (.l1dEvict (.event (.event (.setL1d h c _) _ _ _) _ _ _) _ _) c _
      · exact .setL1d (.l1dEvict (.event (.setL1d h c _) _ _ _) _ _) c _

theorem State.Serves.l1dTake (h : State.Serves x s) (c : Fin 64) (n : Nat) (own : Bool) : State.Serves x (s.l1dTake c n own).2 := by
  unfold State.l1dTake
  dsimp only
  split
  · exact h
  · dsimp only
    refine .updL2 (.setL1d (.l1dAlloc (.foldl h (fun _ d hd => ?_) _) _ _) c _) _ _
    grind [State.Serves.l1dDrop, State.Serves.l1dDown]

theorem State.Serves.l1iTake (h : State.Serves x s) (c : Fin 64) (n : Nat) : State.Serves x (s.l1iTake c n).2 := by
  unfold State.l1iTake
  grind [State.Serves.upd, Core.Serves.of_caches]

theorem State.Serves.fillSlots (h : State.Serves x s) (c : Fin 64) (n : Nat) : State.Serves x (s.fillSlots c n) := by
  unfold State.fillSlots
  extract_lets s1 s2 s3
  have h1 : State.Serves x s1 := by grind [State.Serves.l1iTake, State.Serves.upd, Core.Serves.of_caches]
  have h2 : State.Serves x s2 := by grind [State.Serves.l1dTake, State.Serves.upd, Core.Serves.of_caches]
  have h3 : State.Serves x s3 := by grind [State.Serves.l1dTake, State.Serves.upd, Core.Serves.of_caches]
  clear_value s1 s2 s3
  grind [State.Serves.l1dTake, State.Serves.upd, Core.Serves.of_caches]

theorem State.Serves.fillQuad (h : State.Serves x s) (q n : Nat) : State.Serves x (s.fillQuad q n) :=
  h.foldl (fun _ c hc => hc.fillSlots c n) _

end
end Sys2Proof.Machine

/-! PROOFS. Memory traffic: arrivals at a quad, and whole accesses (R177, R188). -/

namespace Sys2Proof.Machine
section
variable {x s : State}

theorem Core.Serves.zeroed (k : Core) (d : Cache) :
    Core.Serves k { k with l1d := d, sb := k.sb.modifyHead fun e => { e with zeroed := true }, stWait := none } :=
  ⟨⟨⟨rfl, rfl, rfl, rfl, fun _ _ => rfl⟩, .inl rfl, rfl, rfl, rfl⟩, by simp, by simp⟩

theorem State.Serves.zeroGrant (h : State.Serves x s) (q n core : Nat) : State.Serves x (s.zeroGrant q n core) := by
  unfold State.zeroGrant
  extract_lets c waits s1 s2
  have h1 : State.Serves x s1 := .foldl h (fun _ d hd => .ite hd (hd.l1dDrop _ _)) _
  have h2 : State.Serves x s2 := .updL2 h1 _ _
  clear_value s2
  have h3 := h2.l1dTake c n true
  refine .ite h2 ?_
  split
  · rename_i t ht
    rw [ht] at h3
    exact h3.upd c _ (.zeroed _ _)
  · rename_i t ht
    rw [ht] at h3
    exact h3

theorem State.Serves.quadFill (h : State.Serves x s) (m : Msg) : State.Serves x (s.quadFill m).2 := by
  unfold State.quadFill
  grind [State.Serves.l2Alloc, State.Serves.zeroGrant, State.Serves.fillQuad, State.Serves.updL2]

theorem State.Serves.quadGo (h : State.Serves x s) (q : Nat) : State.Serves x (s.quadGo q) := by
  refine .foldl h (fun s m hs => ?_) _
  have h1 := hs.quadFill m
  grind [State.Serves.updQuad]

theorem State.Serves.quadTake (h : State.Serves x s) (m : Msg) : State.Serves x (s.quadTake m) := .quadGo (.updQuad h _ _) _

theorem State.Serves.liveBack (h : State.Serves x s) (m : Msg) (n : Nat) : State.Serves x (s.liveBack m n) :=
  .ite (.send (.updL2 h _ _) _) (.send h _)

theorem State.Serves.quadWbgo (h : State.Serves x s) (m : Msg) : State.Serves x (s.quadWbgo m) := by
  unfold State.quadWbgo
  split
  · exact h
  · refine .quadGo (.updQuad (.foldl (.foldl h (fun _ i hi => .send hi _) _) (fun _ i hi => ?_) _) _ _) _
    grind [State.Serves.liveBack, State.Serves.send]

theorem State.Serves.quadSnoop (h : State.Serves x s) (m : Msg) : State.Serves x (s.quadSnoop m).2 := by
  have h1 := h.snoop m.quad m.sec m.kind
  unfold State.quadSnoop
  grind [State.Serves.send]

theorem State.Serves.offAnswer (h : State.Serves x s) (m : Msg) : State.Serves x (s.offAnswer m) := by
  unfold State.offAnswer
  grind [State.Serves.updQuad, State.Serves.addrErr, State.Serves.quadGo]

theorem State.Serves.arrive (h : State.Serves x s) (m : Msg) : State.Serves x (s.arrive m).2 := by
  unfold State.arrive
  grind [State.Serves.quadSnoop, State.Serves.quadWbgo, State.Serves.quadTake, State.Serves.homeAnswer, State.Serves.homeRequest, State.Serves.offAnswer]

theorem State.Serves.setNet (h : State.Serves x s) (l : List Msg) : State.Serves x { s with net := l } := h.of_cores rfl

theorem State.Serves.deliver (h : State.Serves x s) (m : Msg) : State.Serves x (s.deliver m) := by
  have h1 := (h.setNet (s.net.erase m)).arrive m
  unfold State.deliver
  grind

theorem State.Serves.collect (h : State.Serves x s) (mine : Msg → Bool) : State.Serves x (s.collect mine).2 := by
  unfold State.collect
  split
  · exact h
  · exact .setNet (.foldl h (fun _ m hm => hm.deliver m) _) _

theorem State.Serves.settle (h : State.Serves x s) (n fuel : Nat) : State.Serves x (s.settle n fuel) := by
  induction fuel generalizing s with
  | zero => exact h
  | succ k ih =>
    unfold State.settle
    split
    · exact h
    · exact ih (h.deliver _)

theorem State.Serves.progress (h : State.Serves x s) (n : Nat) : State.Serves x (s.progress n) :=
  .settle (.foldl h (fun _ _ he => .ite he (he.quadGo _)) _) _ _

theorem State.Serves.askHome (h : State.Serves x s) (m : Msg) : State.Serves x (s.askHome m) :=
  .progress (.ite h (h.send _)) _

theorem State.Serves.l2Get (h : State.Serves x s) (q n cls : Nat) (own : Bool) : State.Serves x (s.l2Get q n cls own).2 := by
  have h1 := (h.quadGo q).reclaim q n
  unfold State.l2Get
  grind [State.Serves.updL2, State.Serves.askHome]

theorem State.Serves.missEvents (h : State.Serves x s) (c : Fin 64) (q n : Nat) : State.Serves x (s.missEvents c q n) :=
  .ite h (.event (.event (.event h _ _ _) _ _ _) _ _ _)

theorem State.Serves.l1dGet (h : State.Serves x s) (c : Fin 64) (n : Nat) (l : Level) (own : Bool) :
    State.Serves x (s.l1dGet c n l own).2 := by
  unfold State.l1dGet
  extract_lets st q s1
  have h1 : State.Serves x s1 := .ite h (.missEvents (.event h _ _ _) _ _ _)
  clear_value s1
  have h2 := h1.l2Get q n ((s1.core c).cls l) own
  grind [State.Serves.l1dTake]

theorem State.Serves.l1dWrite (h : State.Serves x s) (c : Fin 64) (n : Nat) (d : BitVec 512) (mask : BitVec 64) :
    State.Serves x (s.l1dWrite c n d mask) := by
  unfold State.l1dWrite
  exact .updL2 (.setL1d h c _) _ _

theorem State.Serves.l2Read (h : State.Serves x s) (q n cls : Nat) (pid : BitVec 29) : State.Serves x (s.l2Read q n cls pid).2 := by
  have h1 := h.l2Get q n cls false
  unfold State.l2Read
  grind [State.Serves.addrErr]

theorem State.Serves.ucAsk (h : State.Serves x s) (m : Msg) : State.Serves x (s.ucAsk m) :=
  .progress (.ite h (h.send _)) _

theorem State.Serves.ucRead (h : State.Serves x s) (who n cls core : Nat) (pid : BitVec 29) :
    State.Serves x (s.ucRead who n cls core pid).2 := by
  unfold State.ucRead
  grind [State.Serves.addrErr, State.Serves.ucAsk, State.Serves.collect]

theorem State.Serves.ucWrite (h : State.Serves x s) (who n : Nat) (d : BitVec 512) (mask : BitVec 64) (poison : Bool)
    (cls core : Nat) (pid : BitVec 29) (sent : Bool) : State.Serves x (s.ucWrite who n d mask poison cls core pid sent).2 := by
  unfold State.ucWrite
  grind [State.Serves.addrErr, State.Serves.ucAsk, State.Serves.collect, State.Serves.progress]

theorem State.Serves.forsakeWalk (h : State.Serves x s) (c : Fin 64) (p : Msg → Bool) : State.Serves x (s.forsakeWalk c p) :=
  h.of_cores rfl

theorem State.Serves.ucCas (h : State.Serves x s) (c : Fin 64) (n cls : Nat) (old new : BitVec 512) (mask : BitVec 64) (pid : BitVec 29) :
    State.Serves x (s.ucCas c n cls old new mask pid).2 := by
  unfold State.ucCas
  grind [State.Serves.addrErr, State.Serves.forsakeWalk, State.Serves.ucAsk, State.Serves.collect]

theorem State.Serves.forsake (h : State.Serves x s) (c : Fin 64) : State.Serves x (s.forsake c) := h.of_cores rfl

end
end Sys2Proof.Machine

/-! PROOFS. Memory traffic: the walks of translation (R160 to R168). -/

namespace Sys2Proof.Machine

theorem Core.Serves.foldl {α : Type} {g : Core → α → Core} (hg : ∀ k a, Core.Serves k (g k a)) (l : List α) (k : Core) :
    Core.Serves k (l.foldl g k) := by
  induction l generalizing k with
  | nil => exact .refl k
  | cons a l ih => exact (hg k a).trans (ih _)

theorem Core.Serves.putSlb (k : Core) (e : SlbEntry) : Core.Serves k (k.putSlb e) := .of_caches rfl
theorem Core.Serves.putItlb (k : Core) (e : TlbEntry) : Core.Serves k (k.putItlb e) := .of_caches rfl
theorem Core.Serves.putDtlb (k : Core) (e : TlbEntry) : Core.Serves k (k.putDtlb e) := .of_caches rfl
theorem Core.Serves.putL2tlb (k : Core) (e : TlbEntry) : Core.Serves k (k.putL2tlb e) := .of_caches rfl
theorem Core.Serves.putWc (k : Core) (e : WcEntry) : Core.Serves k (k.putWc e) := .of_caches rfl
theorem Core.Serves.dropSlot (k : Core) (u : Nat × Nat) : Core.Serves k (k.dropSlot u) := by
  unfold Core.dropSlot
  split <;> exact .of_caches rfl

section
variable {x : State} {w : Walk}

theorem State.Serves.iteWalk {p : Prop} [Decidable p] {α : Type} {a b : α × Walk} (ha : State.Serves x a.2.s) (hb : State.Serves x b.2.s) :
    State.Serves x (if p then a else b).2.s := by
  split
  · exact ha
  · exact hb

theorem State.Serves.walkRead (h : State.Serves x w.s) (c : Fin 64) (y : Ctx) (pa size : Nat) (hs tread : Bool) (gpa lvl : Nat) :
    State.Serves x (w.read c y pa size hs tread gpa lvl).2.s := by
  unfold Walk.read
  grind [State.Serves.l2Read, State.Serves.event]

theorem State.Serves.setPteBits {s : State} (h : State.Serves x s) (c : Fin 64) (l : Level) (pa old new : Nat) :
    State.Serves x (s.setPteBits c l pa old new).2 := by
  unfold State.setPteBits
  grind [State.Serves.ucCas, State.Serves.event]

theorem State.Serves.setMarks {s : State} (h : State.Serves x s) (c : Fin 64) (l : Level) (ms : List (Nat × Nat × Nat)) :
    State.Serves x (s.setMarks c l ms).2 := by
  induction ms generalizing s with
  | nil =>
    exact State.Serves.of_cores h rfl
  | cons m ms ih =>
    obtain ⟨pa, old, new⟩ := m
    have h1 := h.setPteBits c l pa old new
    unfold State.setMarks
    split
    · rename_i t ht
      rw [ht] at h1
      exact ih h1
    · exact h1

theorem State.Serves.hWalk (h : State.Serves x w.s) (c : Fin 64) (y : Ctx) (gpa : Nat) (why : HWhy) (quiet : Bool) (table lvl : Nat) :
    State.Serves x (hWalk c y gpa why quiet table lvl w).2.s := by
  induction lvl generalizing table w with
  | zero => exact h
  | succ k ih =>
    unfold Machine.hWalk
    dsimp only
    have h1 := h.walkRead c y (table + gpa / 2 ^ leafLg (k + 1) % 512 * 8) 8 true
      (why != .access .fetch && why != .access .load && why != .access .store && why != .access .rmw) gpa (k + 1)
    split
    · grind
    · grind
    · rename_i p w1 e
      rw [e] at h1
      iterate 2 (split; · exact h1)
      split
      · refine ih ?_ _
        exact h1
      · iterate 3 (split; · exact h1)
        rw [Walk.mark_s]
        exact h1

theorem State.Serves.stage2 (h : State.Serves x w.s) (c : Fin 64) (y : Ctx) (gpa : Nat) (why : HWhy) (quiet caches : Bool) :
    State.Serves x (stage2 c y gpa why quiet caches w).2.s := by
  unfold Machine.stage2
  grind [State.Serves.hWalk, State.Serves.event]

theorem State.Serves.noteDram (h : State.Serves x w.s) (pa gpa : Nat) (desc : Bool) (lvl : Nat) :
    State.Serves x (w.noteDram pa gpa desc lvl).s := by
  unfold Walk.noteDram
  grind

theorem State.Serves.updateOk (h : State.Serves x w.s) (c : Fin 64) (y : Ctx) (gpa : Nat) (e : HLeaf) (quiet caches : Bool) :
    State.Serves x (updateOk c y gpa e quiet caches w).2.s := by
  unfold Machine.updateOk
  grind [State.Serves.stage2, Walk.mark_s]

theorem State.Serves.walk1 (h : State.Serves x w.s) (c : Fin 64) (y : Ctx) (la : Nat) (a : Acc) (d : Desc) (quiet caches : Bool)
    (table lvl : Nat) : State.Serves x (walk1 c y la a d quiet caches table lvl w).2.s := by
  induction lvl generalizing table w with
  | zero => exact h
  | succ k ih =>
    unfold Machine.walk1
    dsimp only
    have h1 := h.stage2 c y (table + la / 2 ^ leafLg (k + 1) % 512 * 8) .table quiet caches
    split
    · grind
    · grind
    · rename_i hl w1 e1
      rw [e1] at h1
      have h2 := State.Serves.walkRead h1 c y (hl.addr (table + la / 2 ^ leafLg (k + 1) % 512 * 8)) 8 false true
        (table + la / 2 ^ leafLg (k + 1) % 512 * 8) (k + 1)
      split
      · grind
      · grind
      · rename_i p w2 e2
        rw [e2] at h2
        have h3 := fun a b => State.Serves.noteDram h2 a b false (k + 1)
        refine .iteWalk (h3 _ _) (.iteWalk (h3 _ _) (.iteWalk ?_ (.iteWalk (h3 _ _) (.iteWalk (h3 _ _) (.iteWalk (h3 _ _) ?_)))))
        · refine ih ?_ _
          exact h3 _ _
        · have h4 := (h3 (hl.addr (table + la / 2 ^ leafLg (k + 1) % 512 * 8)) (table + la / 2 ^ leafLg (k + 1) % 512 * 8)).stage2 c y
            (pteAddr p + la % 2 ^ leafLg (k + 1)) (.access a) quiet caches
          split
          · grind
          · grind
          · rename_i e4
            rw [e4] at h4
            have h5 := State.Serves.updateOk h4 c y (table + la / 2 ^ leafLg (k + 1) % 512 * 8) hl quiet caches
            split
            · grind
            · grind
            · grind [Walk.mark_s]

theorem State.Serves.getDesc (h : State.Serves x w.s) (c : Fin 64) (y : Ctx) (seg : Nat) (quiet caches : Bool) :
    State.Serves x (getDesc c y seg quiet caches w).2.s := by
  unfold Machine.getDesc
  dsimp only
  split
  · exact h
  · split
    · exact h.event _ _ _
    · have h1 := (h.event c evSlbMiss 1).stage2 (w := { w with s := w.s.event c evSlbMiss }) c y (y.segBase + seg * 16) .table quiet caches
      split
      · grind
      · grind
      · rename_i hl w1 e1
        rw [e1] at h1
        have h2 := State.Serves.walkRead h1 c y (hl.addr (y.segBase + seg * 16)) 16 false true (y.segBase + seg * 16) 1
        split
        · grind
        · grind
        · rename_i v w2 e2
          rw [e2] at h2
          have h3 := fun a b => State.Serves.noteDram h2 a b true 1
          split <;> exact h3 _ _

theorem State.Serves.install (h : State.Serves x w.s) (c : Fin 64) (a : Acc) (toTlb : Bool) : State.Serves x (w.install c a toTlb) := by
  unfold Walk.install
  refine h.upd c _ ?_
  extract_lets k1 k2 k3
  have h1 : Core.Serves (w.s.core c) k1 := by grind [Core.Serves.putSlb, Core.Serves.refl]
  have h3 : Core.Serves (w.s.core c) k3 := (h1.trans (.foldl .putWc _ _)).trans (.foldl .putL2tlb _ _)
  split
  · refine h3.trans (.foldl (fun k e => ?_) _ _)
    split
    · exact .putItlb k e
    · exact .putDtlb k e
  · exact h3
end
end Sys2Proof.Machine

/-! PROOFS. Memory traffic: whole translations (R160, R171). -/

namespace Sys2Proof.Machine
section
variable {x s : State}

/-- The state and the walk that a translation hands back. -/
theorem State.Serves.translateOnce (h : State.Serves x s) (c : Fin 64) (y : Ctx) (ea : Word) (a : Acc) (must quiet caches : Bool) :
    State.Serves x (translateOnce c y ea a must quiet caches s).2.2 := by
  unfold Machine.translateOnce
  dsimp only
  split
  · exact h
  · split
    · exact h
    · have h1 := State.Serves.getDesc (w := { s := s }) h c y (ea.toNat / 2 ^ 48 % 1024) quiet caches
      split
      · grind
      · grind
      · rename_i d w1 e1
        rw [e1] at h1
        split
        · exact h1
        · split
          · rename_i w2 e2
            grind [State.Serves.walk1, State.Serves.event]
          · rename_i w2 e2
            grind [State.Serves.walk1, State.Serves.event]
          · rename_i e w2 e2
            have h2 : State.Serves x w2.s := by grind [State.Serves.walk1, State.Serves.event]
            have h3 := h2.setMarks c y.lvl w2.marks
            clear e2
            split
            · grind
            · grind
            · rename_i t e3
              have h4 : State.Serves x t := by grind
              split
              · exact h4
              · exact State.Serves.install (w := { w2 with s := t }) h4 c a _

theorem State.Serves.translateTwice (h : State.Serves x s) (c : Fin 64) (y : Ctx) (ea : Word) (a : Acc) (must quiet caches : Bool) :
    State.Serves x (translateTwice c y ea a must quiet caches s).2.2 := by
  have h1 := h.translateOnce c y ea a must quiet caches
  unfold Machine.translateTwice
  grind [State.Serves.translateOnce]

theorem State.Serves.translateFor (h : State.Serves x s) (c : Fin 64) (l : Level) (ea : Word) (a : Acc) (must quiet : Bool) :
    State.Serves x (translateFor c l ea a must quiet s).2 := by
  have h1 := h.translateTwice c ((s.core c).ctx l) ea a must quiet true
  unfold Machine.translateFor
  dsimp only
  split
  · grind
  · grind
  · rename_i f w t e
    rw [e] at h1
    refine .iteSnd ?_ h1
    refine .translateTwice ?_ _ _ _ _ _ _ _
    exact (h1.upd c _ (.foldl .dropSlot _ _)).event _ _ _

theorem State.Serves.translate (h : State.Serves x s) (c : Fin 64) (l : Level) (ea : Word) (a : Acc) (quiet : Bool) :
    State.Serves x (translate c l ea a quiet s).2 := h.translateFor _ _ _ _ _ _
end
end Sys2Proof.Machine

/-! PROOFS. Memory traffic: stores into the L1D, prefetches and cached loads (R114, R115, R205). -/

namespace Sys2Proof.Machine
section
variable {x s : State}

/-! Loads and the writing of stored bytes are memory traffic. -/

theorem State.Serves.openMram (h : State.Serves x s) (c : Fin 64) (pa : Nat) : State.Serves x (s.openMram c pa) := by
  unfold State.openMram
  exact .ite (h.upd c _ (.of_caches rfl)) h

theorem State.Serves.storeWrite (h : State.Serves x s) (c : Fin 64) (e : StoreEntry) : State.Serves x (s.storeWrite c e) := by
  unfold State.storeWrite
  refine .upd (.openMram (.l1dWrite h _ _ _ _) _ _) c _ ?_
  exact .of_caches rfl

theorem State.Serves.holdStore (h : State.Serves x s) (c : Fin 64) (n : Nat) : State.Serves x (s.holdStore c n) := by
  unfold State.holdStore
  exact .ite (.setStWait h c _) h

theorem State.Serves.zlineAsk (h : State.Serves x s) (c : Fin 64) (e : StoreEntry) : State.Serves x (s.zlineAsk c e).2 := by
  have h1 := h.reclaim (quadOf c) (e.pa / 64)
  unfold State.zlineAsk
  grind [State.Serves.askHome]

theorem State.Serves.storeCached (h : State.Serves x s) (c : Fin 64) (e : StoreEntry) : State.Serves x (s.storeCached c e).2 := by
  unfold State.storeCached
  extract_lets n s1
  have h1 : State.Serves x s1 := .ite h (h.event _ _ _)
  clear_value s1
  refine .iteSnd (h.openMram _ _) (.iteSnd (h.storeWrite _ _) ?_)
  have h2 := h1.zlineAsk c e
  generalize hz : (if e.size = 64 then s1.zlineAsk c e else (true, s1)) = z
  have h3 : State.Serves x z.2 := by rw [← hz]; exact .iteSnd h2 h1
  clear hz h2
  split
  · exact State.Serves.holdStore (s := _) h3 _ _
  · rename_i t
    replace h3 : State.Serves x t := h3
    refine .iteSnd ?_ ?_
    · dsimp only
      exact .setStWait (.openMram h3 _ _) c _
    have h4 := State.Serves.l1dGet h3 c n e.lvl true
    split
    · rename_i v hv; rw [hv] at h4; exact .storeWrite h4 _ _
    · rename_i v hv; rw [hv] at h4; exact .holdStore h4 _ _
    · rename_i v hv
      rw [hv] at h4
      replace h4 : State.Serves x v := h4
      dsimp only
      exact .setStWait (.addrErr h4 _ _ _ _ _) c _

theorem State.Serves.pfSweep (h : State.Serves x s) (c : Fin 64) : State.Serves x (s.pfSweep c) :=
  .foldl h (fun _ _ hp => .ite hp (.setPfWait hp c _)) _

theorem State.Serves.prefetch (h : State.Serves x s) (c : Fin 64) (l : Level) (n : Nat) (own : Bool) :
    State.Serves x (s.prefetch c l n own).2 := by
  unfold State.prefetch
  have h1 := (h.pfSweep c).l1dGet c n l own
  refine .iteSnd h (.iteSnd (h.pfSweep c) ?_)
  split
  · grind
  · rename_i v hv; rw [hv] at h1; exact .ite (.setPfWait h1 c _) h1
  · rename_i v hv; rw [hv] at h1; exact .addrErr h1 _ _ _ _ _

theorem State.Serves.nextSector (h : State.Serves x s) (c : Fin 64) (l : Level) (n : Nat) : State.Serves x (s.nextSector c l n) := by
  have h1 := (h.event c evNextSector 1).prefetch c l (n + 1) false
  unfold State.nextSector
  grind [State.Serves.event]

theorem State.Serves.missWait (h : State.Serves x s) (c : Fin 64) : State.Serves x (s.missWait c).2 := by
  unfold State.missWait
  split
  · exact h
  · rename_i n _
    have h1 := (h.progress n).fillSlots c n
    generalize (s.progress n).fillSlots c n = t at h1 ⊢
    refine .iteSnd ?_ h1
    dsimp only
    exact .setLdWait h1 c _

theorem State.Serves.gotSec (h : State.Serves x s) (c : Fin 64) (d : BitVec 512) (poison : Bool) (off n : Nat) :
    State.Serves x (s.gotSec c d poison off n).2 :=
  .iteSnd (.event (.event h _ _ _) _ _ _) (.event h _ _ _)

theorem State.Serves.loadCached (h : State.Serves x s) (c : Fin 64) (l : Level) (pa n : Nat) :
    State.Serves x (s.loadCached c l pa n).2 := by
  unfold State.loadCached
  extract_lets sec take again
  have ht : ∀ u, State.Serves x u → State.Serves x (take u).2 := fun _ hu => hu.gotSec _ _ _ _ _
  clear_value take
  refine .iteSnd (ht _ h) ?_
  have h1 := h.missWait c
  generalize hz : (if again then (false, s) else s.missWait c) = z
  have h2 : State.Serves x z.2 := by rw [← hz]; exact .iteSnd h h1
  clear hz h1
  split
  · exact h2
  · rename_i t
    extract_lets t1
    have h3 : State.Serves x t1 := .ite h2 (.event h2 _ _ _)
    clear_value t1
    have h4 := h3.l1dGet c sec l false
    split
    rename_i a t2 e
    rw [e] at h4
    extract_lets t3
    have h5 : State.Serves x t3 := .ite h4 (.nextSector h4 _ _ _)
    clear_value t3
    split
    · exact ht _ (.setLdWait h5 c _)
    · exact .ite (h5.upd c _ (.of_caches rfl)) h5
    · exact .addrErr h5 _ _ _ _ _
end
end Sys2Proof.Machine

/-! PROOFS. The drains of the buffers keep every core still (R115, R137, R206), and so do loads. -/

namespace Sys2Proof.Machine

/-- A core of which only the buffers, the caches and the fill slots change stays still. -/
theorem Core.Still.of_buffers {k k' : Core} (h : k' = { k with
    resv := k'.resv, hold := k'.hold, rstack := k'.rstack, sb := k'.sb, devOut := k'.devOut, ucwSent := k'.ucwSent, frame := k'.frame,
    l1i := k'.l1i, mramOpen := k'.mramOpen }) : Core.Still k k' := by
  rw [h]
  exact ⟨⟨rfl, rfl, rfl, rfl, fun _ _ => rfl⟩, .inl rfl, rfl, rfl, rfl⟩

section
variable {x s : State}

theorem State.Still.refl (s : State) : State.Still s s := ⟨fun _ => .refl _⟩

/-- Memory traffic keeps cores still. -/
theorem State.Still.serves {t : State} (h : State.Still x s) (g : State.Serves s t) : State.Still x t :=
  ⟨fun c => (h.core c).trans (g.core c).toStill⟩

theorem State.Serves.still {t : State} (g : State.Serves s t) : State.Still s t := State.Still.serves (.refl s) g

theorem State.Still.trans {t : State} (h : State.Still x s) (g : State.Still s t) : State.Still x t :=
  ⟨fun c => (h.core c).trans (g.core c)⟩

theorem State.Still.upd (h : State.Still x s) (c : Fin 64) (f : Core → Core) (hf : Core.Still (s.core c) (f (s.core c))) :
    State.Still x (s.updCore c f) := by
  refine ⟨fun d => ?_⟩
  by_cases hd : d = c
  · subst hd
    rw [State.core_updCore]
    exact (h.core d).trans hf
  · rw [State.updCore, State.core_setCore_other _ hd]
    exact h.core d

theorem State.Still.event (h : State.Still x s) (c : Fin 64) (e v : Nat) : State.Still x (s.event c e v) :=
  h.serves (.event (.refl s) c e v)

theorem State.Still.headSend (h : State.Still x s) (c : Fin 64) (e : StoreEntry) : State.Still x (s.headSend c e) := by
  unfold State.headSend
  split
  · exact h
  · refine .upd (h.serves (.ite (.ucAsk (.refl s) _) (.refl s))) c _ ?_
    exact .of_buffers rfl

theorem State.Still.headAck (h : State.Still x s) (c : Fin 64) (e : StoreEntry) : State.Still x (s.headAck c e).2 := by
  have h1 := h.serves ((State.Serves.refl s).ucWrite (quadOf c) (e.pa / 64) e.placed.1 e.placed.2 false e.cls c.val e.pid true)
  unfold State.headAck
  split
  · rename_i t ht
    rw [ht] at h1
    refine State.Still.serves (.event (.upd h1 c _ ?_) _ _ _) (.openMram (.refl _) _ _)
    exact .of_buffers rfl
  · rename_i t ht
    rw [ht] at h1
    exact h1

theorem State.Still.drainHead (h : State.Still x s) (c : Fin 64) : State.Still x (s.drainHead c).2 := by
  have pop : ∀ t, State.Still x t → State.Still x ((t.updCore c fun k => { k with sb := k.sb.tail }).event c evDrain) := by
    intro t ht
    refine .event (.upd ht c _ ?_) _ _ _
    exact .of_buffers rfl
  unfold State.drainHead
  split
  · exact h
  · rename_i e _ _
    dsimp only
    split
    · refine pop _ (.upd (h.serves (.openMram (.refl s) _ _)) c _ ?_)
      exact .of_buffers rfl
    · exact (h.headSend c e).headAck c e
    · have h1 := h.serves ((State.Serves.refl s).storeCached c e)
      split
      · rename_i t ht
        rw [ht] at h1
        exact pop _ h1
      · rename_i t ht
        rw [ht] at h1
        exact h1

theorem State.Still.drainN (h : State.Still x s) (c : Fin 64) (n : Nat) : State.Still x (s.drainN c n).2 := by
  induction n generalizing s with
  | zero => exact h
  | succ n ih =>
    have h1 := h.drainHead c
    unfold State.drainN
    split
    · rename_i t ht
      rw [ht] at h1
      exact ih h1
    · rename_i t ht
      rw [ht] at h1
      exact h1

theorem State.Still.drainAll (h : State.Still x s) (c : Fin 64) : State.Still x (s.drainAll c).2 := h.drainN c _

theorem State.Still.drainFrameN (h : State.Still x s) (c : Fin 64) (n : Nat) : State.Still x (s.drainFrameN c n).2 := by
  induction n generalizing s with
  | zero => exact h
  | succ n ih =>
    unfold State.drainFrameN
    split
    · exact h
    · rename_i e rest _
      have h1 := h.serves ((State.Serves.refl s).storeCached c e)
      split
      · rename_i t ht
        rw [ht] at h1
        refine ih (.upd h1 c _ ?_)
        exact .of_buffers rfl
      · rename_i t ht
        rw [ht] at h1
        exact h1

theorem State.Still.drainFrame (h : State.Still x s) (c : Fin 64) : State.Still x (s.drainFrame c).2 := by
  have h1 := h.drainAll c
  unfold State.drainFrame
  split
  · exact h
  · split
    · rename_i t ht
      rw [ht] at h1
      exact State.Still.drainFrameN h1 c 10
    · rename_i t ht
      rw [ht] at h1
      exact h1

theorem State.Still.drainBuffers (h : State.Still x s) (c : Fin 64) : State.Still x (s.drainBuffers c).2 := by
  have h1 := h.drainAll c
  unfold State.drainBuffers
  split
  · rename_i t ht
    rw [ht] at h1
    exact State.Still.drainFrame h1 c
  · exact h1

theorem State.Still.drainOver (h : State.Still x s) (c : Fin 64) (pa n : Nat) : State.Still x (s.drainOver c pa n).2 := by
  have h1 := h.drainAll c
  unfold State.drainOver
  dsimp only
  split
  · split
    · rename_i t ht
      rw [ht] at h1
      exact State.Still.drainFrameN h1 c _
    · rename_i t ht
      rw [ht] at h1
      exact h1
  · exact h.drainN c _

theorem State.Still.pushStore (h : State.Still x s) (c : Fin 64) (es : List StoreEntry) : State.Still x (s.pushStore c es).2 := by
  have h1 := h.drainFrame c
  unfold State.pushStore
  split
  · rename_i t ht
    rw [ht] at h1
    exact h1
  · rename_i t ht
    rw [ht] at h1
    have h2 := State.Still.drainN h1 c ((t.core c).sb.length + es.length - 16)
    split
    · rename_i v hv
      rw [hv] at h2
      exact h2
    · rename_i v hv
      rw [hv] at h2
      dsimp only
      refine .upd (s := v) h2 c _ ?_
      exact .of_buffers rfl

theorem State.Still.loadRest (h : State.Still x s) (c : Fin 64) (l : Level) (t : Xlat) (n : Nat) (ov : List StoreEntry) :
    State.Still x (State.loadBytes.rest c l t n s ov).2 := by
  unfold State.loadBytes.rest
  have h1 := h.drainOver c t.pa n
  generalize hz : (if ov.isEmpty then (true, s) else s.drainOver c t.pa n) = z
  have h2 : State.Still x z.2 := by rw [← hz]; split; exacts [h, h1]
  clear hz h1
  split
  · exact h2
  · rename_i v
    replace h2 : State.Still x v := h2
    split
    · exact h2.serves ((State.Serves.refl v).loadCached _ _ _ _)
    · have h3 := (State.Serves.refl v).ucRead (quadOf c) (t.pa / 64) ((v.core c).cls l) c.val ((v.core c).pid l)
      split
      · rename_i w hw
        rw [hw] at h3
        exact h2.serves h3
      · rename_i w hw
        rw [hw] at h3
        replace h3 : State.Serves v w := h3
        exact h2.serves (.gotSec (.event h3 _ _ _) _ _ _ _ _)

theorem State.Still.loadBytes (h : State.Still x s) (c : Fin 64) (l : Level) (t : Xlat) (n : Nat) (fwd : Bool) :
    State.Still x (s.loadBytes c l t n fwd).2 := by
  unfold State.loadBytes
  dsimp only
  split
  · split
    · exact (h.event _ _ _).event _ _ _
    · exact (h.event _ _ _).loadRest _ _ _ _ _
  · exact h.loadRest _ _ _ _ _
end
end Sys2Proof.Machine

/-! PROOFS. The checks of accesses and the fetch of an instruction (R105, R129, R138). -/

namespace Sys2Proof.Machine
section
variable {x s : State}

theorem State.Serves.checkParts (h : State.Serves x s) (c : Fin 64) (l : Level) (ea : Word) (size : Nat) (a : Acc) (split : Bool)
    (hs : List (Word × Nat)) (upper : Bool) (done : List (Xlat × Nat)) :
    State.Serves x (s.checkParts c l ea size a split hs upper done).2 := by
  induction hs generalizing s upper done with
  | nil => exact h
  | cons p hs ih =>
    obtain ⟨b, n⟩ := p
    have h1 := h.translate c l b a false
    unfold State.checkParts
    dsimp only
    split
    · exact h
    · split
      · rename_i t ht; rw [ht] at h1; exact h1
      · rename_i t ht; rw [ht] at h1; exact h1
      · rename_i t ht
        rw [ht] at h1
        split
        · exact h1
        · exact ih h1 _ _

theorem State.Serves.checkAccess (h : State.Serves x s) (c : Fin 64) (l : Level) (ea : Word) (size : Nat) (a : Acc) :
    State.Serves x (s.checkAccess c l ea size a).2 := h.checkParts ..

theorem State.Serves.frameDw (h : State.Serves x s) (c : Fin 64) (l : Level) (ea : Word) (a : Acc) :
    State.Serves x (s.frameDw c l ea a).2 := by
  have h1 := h.translate c l ea a false
  unfold State.frameDw
  split
  · rename_i t ht; rw [ht] at h1; exact h1
  · rename_i t ht; rw [ht] at h1; exact h1
  · rename_i t ht; rw [ht] at h1; exact .iteSnd h1 h1

theorem State.Still.readDw (h : State.Still x s) (c : Fin 64) (l : Level) (ea : Word) : State.Still x (s.readDw c l ea).2 := by
  have h1 := h.serves ((State.Serves.refl s).translate c l ea .load false)
  unfold State.readDw
  split
  · rename_i t ht; rw [ht] at h1; exact h1
  · rename_i t ht; rw [ht] at h1; exact h1
  · rename_i y t ht
    rw [ht] at h1
    split
    · exact h1
    · have h2 := State.Still.loadBytes h1 c l y 8 true
      split
      · rename_i v hv; rw [hv] at h2; exact h2
      · rename_i v hv; rw [hv] at h2; exact h2
      · rename_i v hv; rw [hv] at h2; exact h2

theorem State.Serves.checkFrame (h : State.Serves x s) (c : Fin 64) (l : Level) (ea : Word) (n : Nat) (done : List Nat) :
    State.Serves x (s.checkFrame c l ea n done).2 := by
  induction n generalizing s ea done with
  | zero => exact h
  | succ n ih =>
    have h1 := h.frameDw c l ea .store
    unfold State.checkFrame
    split
    · rename_i t ht; rw [ht] at h1; exact h1
    · rename_i t ht; rw [ht] at h1; exact h1
    · rename_i t ht; rw [ht] at h1; exact ih h1 _ _

theorem State.Still.checkEntry (h : State.Still x s) (c : Fin 64) (l : Level) (cause : Nat) : State.Still x (s.checkEntry c l cause).2 := by
  unfold State.checkEntry
  dsimp only
  split
  · exact h
  · have h1 := h.serves ((State.Serves.refl s).checkFrame c l ((s.core c).sp l - 80) 10 [])
    split
    · rename_i t ht; rw [ht] at h1; exact h1
    · rename_i t ht; rw [ht] at h1; exact h1
    · rename_i pas t ht
      rw [ht] at h1
      have h2 := State.Still.readDw h1 c l ((if l = .k then (s.core c).reg .VECBASE_K else (s.core c).reg .VECBASE_H) + BitVec.ofNat 64 (cause * 8))
      split
      · rename_i v hv; rw [hv] at h2; exact h2
      · rename_i v hv; rw [hv] at h2; exact h2
      · rename_i v hv
        rw [hv] at h2
        split
        · exact h2
        · exact h2

theorem State.Serves.l1iGet (h : State.Serves x s) (c : Fin 64) (n : Nat) (l : Level) : State.Serves x (s.l1iGet c n l).2 := by
  unfold State.l1iGet
  refine .iteSnd h (.iteSnd h ?_)
  extract_lets again s1 s2
  have h1 : State.Serves x s1 := by
    unfold s1
    split
    · rename_i m _
      have h2 := (h.progress m).fillSlots c m
      generalize (s.progress m).fillSlots c m = t at h2 ⊢
      exact .ite h2 (.setIfWait h2 c _)
    · exact h
  refine .iteSnd h1 (.iteSnd h1 ?_)
  have h2 : State.Serves x s2 := .ite h1 (.event h1 _ _ _)
  clear_value s2 s1
  have h3 := h2.l2Get (quadOf c) n ((s2.core c).cls l) false
  split
  · rename_i v hv
    rw [hv] at h3
    have h4 := State.Serves.l1iTake h3 c n
    split
    · rename_i w hw; rw [hw] at h4; exact h4
    · rename_i w hw; rw [hw] at h4; exact h4
  · rename_i v hv
    rw [hv] at h3
    replace h3 : State.Serves x v := h3
    exact .ite (.setIfWait h3 c _) h3
  · rename_i v hv; rw [hv] at h3; exact h3

theorem State.Serves.fetchMem (h : State.Serves x s) (c : Fin 64) (l : Level) (t : Xlat) : State.Serves x (s.fetchMem c l t).2 := by
  unfold State.fetchMem
  dsimp only
  have h1 := h.l1iGet c (t.pa / 64) l
  have h2 := h.ucRead (quadOf c) (t.pa / 64) ((s.core c).cls l) c.val ((s.core c).pid l)
  split
  · split
    · rename_i v hv; rw [hv] at h1; exact h1
    · rename_i v hv; rw [hv] at h1; exact h1
    · rename_i v hv; rw [hv] at h1; exact .addrErr h1 _ _ _ _ _
  · split
    · exact h
    · split
      · rename_i v hv; rw [hv] at h2; exact h2
      · rename_i v hv; rw [hv] at h2; exact h2

theorem State.Serves.fetch (h : State.Serves x s) (c : Fin 64) : State.Serves x (s.fetch c).2 := by
  unfold State.fetch
  extract_lets k pc info err
  refine .iteSnd h ?_
  have h1 := h.translate c k.level pc .fetch false
  split
  · rename_i v hv; rw [hv] at h1; exact h1
  · rename_i v hv; rw [hv] at h1; exact h1
  · rename_i t v hv
    rw [hv] at h1
    extract_lets s1
    have h2 : State.Serves x s1 := .event h1 _ _ _
    clear_value s1
    split
    · have h3 := h2.fetchMem c k.level t
      split
      · rename_i w hw; rw [hw] at h3; exact h3
      · rename_i w hw; rw [hw] at h3; exact .event h3 _ _ _
      · rename_i w hw; rw [hw] at h3; exact h3
    · split
      · refine .iteSnd h2 (.iteSnd h2 ?_)
        exact h2.addrErr _ _ _ _ _
      · exact h2.addrErr _ _ _ _ _

theorem State.Serves.loadHeld (h : State.Serves x s) (c : Fin 64) : State.Serves x (s.loadHeld c).2 := h.missWait c
end
end Sys2Proof.Machine

/-! PROOFS. Where an instruction begins (State.begins). -/

namespace Sys2Proof.Machine

/-- What the beginning of an instruction leaves of its core (State.begins): where it is, that it runs, and FPCTL. -/
structure Core.Begun (k k' : Core) : Prop where
  pc : k'.pc = k.pc
  run : k.run = .running → k'.run = .running
  fpctl : k'.reg .FPCTL = k.reg .FPCTL

theorem Core.Begun.trans {a b d : Core} (h : Core.Begun a b) (g : Core.Begun b d) : Core.Begun a d :=
  ⟨g.pc.trans h.pc, fun hr => g.run (h.run hr), g.fpctl.trans h.fpctl⟩

theorem Core.Still.begun {k k' : Core} (h : Core.Still k k') : Core.Begun k k' := by
  refine ⟨h.pc, fun hr => ?_, ?_⟩
  · rcases h.run with h1 | ⟨h1, h2⟩
    · exact h1.trans hr
    · exact h2
  · unfold Core.reg
    rw [h.sys _ fpctl_not_count]

/-- A write of another system register than FPCTL. -/
theorem Core.Begun.setReg (k : Core) (r : Reg) (i : List Nat) (v : Word) (h : r.at i ≠ Reg.FPCTL.at []) : Core.Begun k (k.setReg r i v) :=
  ⟨rfl, id, Core.reg_setReg_other _ _ _ _ _ _ (Ne.symm h)⟩

theorem Core.Begun.setFld (k : Core) (r : Reg) (i : List Nat) (f : Fld) (v : Nat) (h : r.at i ≠ Reg.FPCTL.at []) :
    Core.Begun k (k.setFld r i f v) := .setReg _ _ _ _ h

theorem Core.Begun.refl (k : Core) : Core.Begun k k := ⟨rfl, id, rfl⟩

theorem Core.Begun.setSp (k : Core) (l : Level) (v : Word) : Core.Begun k (k.setSp l v) := by
  unfold Core.setSp
  cases l with
  | u => exact .setReg _ _ _ _ (by decide)
  | k => exact .setReg _ _ _ _ (by decide)
  | h => exact ⟨rfl, id, rfl⟩

theorem Core.Begun.writeG (k : Core) (r : Fin 32) (v : Word) : Core.Begun k (k.writeG r v) := by
  unfold Core.writeG
  split
  · exact .refl _
  · split
    · exact .setSp _ _ _
    · exact ⟨rfl, id, rfl⟩

theorem State.count_core (s : State) (u : Tele) (c : CoreId) : (s.count u).core c = s.core c := rfl

/-- The residue check of an operation that goes on. -/
theorem State.residue_begun {s t : State} {c : CoreId} {n : Nat} (h : s.residue c n = (true, t)) :
    Core.Begun (s.core c) (t.core c) ∧ (t.core c).long = (s.core c).long ∧ (t.core c).owed = (s.core c).owed := by
  unfold State.residue at h
  dsimp only at h
  split at h
  · cases h
    exact ⟨.refl _, rfl, rfl⟩
  · split at h
    · cases h
    · rename_i hi _
      cases h
      generalize hk : ((s.core c).setFld .RES_STAT [] (resCnt n) _).setFld .RES_CTL [] .RES_CTL_INJ 0 = k
      have hb : Core.Begun (s.core c) k := by
        rw [← hk]
        exact (Core.Begun.setFld _ .RES_STAT _ _ _ (by decide)).trans (.setFld _ .RES_CTL _ _ _ (by decide))
      have hkl : k.long = (s.core c).long := by rw [← hk]; rfl
      have hko : k.owed = (s.core c).owed := by rw [← hk]; rfl
      have he := ((State.Still.refl (s.setCore c k)).event c (evResidue + n) 1).core c
      rw [State.core_setCore] at he
      rw [State.count_core]
      exact ⟨hb.trans he.begun, he.long.trans hkl, he.owed.trans hko⟩

/-- The end of the long operation in flight, without a stop. -/
theorem State.longEnd_begun {s t : State} {c : CoreId} (h : s.longEnd c = (true, t)) :
    Core.Begun (s.core c) (t.core c) ∧ (t.core c).long = none := by
  unfold State.longEnd at h
  split at h
  · rename_i hl
    cases h
    exact ⟨.refl _, hl⟩
  · split at h
    · cases h
    · rename_i o _ _ v hv
      cases h
      rw [State.core_updCore]
      refine ⟨(State.residue_begun hv).1.trans ?_, rfl⟩
      generalize hw : (if o.fp then _ else _ : Core) = w
      have h1 : Core.Begun (v.core c) w := by
        rw [← hw]
        split
        · exact ⟨rfl, id, rfl⟩
        · exact .writeG _ _ _
      obtain ⟨hp, hr, hf⟩ := h1.trans (.setReg w .FPFLAGS [] (w.reg .FPFLAGS ||| o.flags.setWidth 64) (by decide))
      exact ⟨hp, hr, hf⟩

theorem State.takeOwed_true {s t : State} {c : CoreId} (h : s.takeOwed c = (true, t)) : t = s ∧ (s.core c).owed = none := by
  unfold State.takeOwed at h
  dsimp only at h
  split at h
  · rename_i ho
    cases h
    exact ⟨rfl, ho⟩
  · split at h <;> cases h

theorem State.longFinish_begun {s t : State} {c : CoreId} (h : s.longFinish c = (true, t)) :
    Core.Begun (s.core c) (t.core c) ∧ (t.core c).long = none ∧ (t.core c).owed = none := by
  unfold State.longFinish at h
  split at h
  · rename_i v hv
    obtain ⟨rfl, ho⟩ := State.takeOwed_true h
    have h1 := State.longEnd_begun hv
    exact ⟨h1.1, h1.2, ho⟩
  · cases h

theorem State.longClear_begun {s t : State} {c : CoreId} {n : Needs} (h : s.longClear c n = (true, t)) :
    Core.Begun (s.core c) (t.core c) ∧ (n.all = true → (t.core c).long = none) ∧ ((s.core c).owed = none → (t.core c).owed = none) := by
  unfold State.longClear at h
  split at h
  · rename_i o ho
    split at h
    · have h1 := State.longFinish_begun h
      exact ⟨h1.1, fun _ => h1.2.1, fun _ => h1.2.2⟩
    · rename_i hb
      cases h
      refine ⟨.refl _, fun ha => ?_, id⟩
      unfold Needs.blocked at hb
      rw [ha] at hb
      exact absurd rfl hb
  · rename_i hl
    cases h
    exact ⟨.refl _, fun _ => hl, id⟩

theorem State.residues_begun {s t : State} {c : CoreId} {l : List Nat} (h : s.residues c l = (true, t)) :
    Core.Begun (s.core c) (t.core c) ∧ (t.core c).long = (s.core c).long ∧ (t.core c).owed = (s.core c).owed := by
  induction l generalizing s with
  | nil =>
    cases h
    exact ⟨.refl _, rfl, rfl⟩
  | cons n l ih =>
    unfold State.residues at h
    split at h
    · rename_i v hv
      have h1 := State.residue_begun hv
      have h2 := ih h
      exact ⟨h1.1.trans h2.1, h2.2.1.trans h1.2.1, h2.2.2.trans h1.2.2⟩
    · cases h

/-- Where an instruction begins: its core is at the same PC with the same FPCTL, it runs, owes no fault, and has no long operation
in flight that the instruction must wait for (R78, R87, R89). -/
structure Core.BeginsAt (k k' : Core) (n : Needs) : Prop extends Core.Begun k k' where
  running : k'.run = .running
  owed : k'.owed = none
  haltReq : k'.haltReq = false
  long : n.all = true → k'.long = none

theorem begins_at {s u : State} {c : CoreId} {n : Needs} (h : s.begins c n = some u) : Core.BeginsAt (s.core c) (u.core c) n := by
  have hh := begins_haltReq h
  unfold State.begins at h
  dsimp only at h
  split at h
  · cases h
  · rename_i hc
    simp only [Bool.or_eq_true, not_or, Bool.not_eq_true] at hc
    obtain ⟨⟨⟨⟨⟨⟨hr, -⟩, -⟩, ho⟩, -⟩, -⟩, -⟩ := hc
    have hrun : (s.core c).run = .running := by
      unfold Core.ready at hr
      simp at hr
      exact hr.1
    have howed : (s.core c).owed = none := by simpa using ho
    have hl := ((State.Serves.refl s).loadHeld c)
    split at h
    · cases h
    · rename_i v hv
      rw [hv] at hl
      have hf := State.Serves.fetch hl c
      split at h
      · rename_i w hw
        rw [hw] at hf
        split at h
        · cases h
        · rename_i y hy
          split at h
          · cases h
          · rename_i z hz
            split at h
            · cases h
            · cases h
              have h1 := State.longClear_begun hy
              have h2 := State.residues_begun hz
              have h3 := (hf.core c).toStill
              have h4 := (h3.begun.trans h1.1).trans h2.1
              exact ⟨h4, h4.run hrun, h2.2.2.trans (h1.2.2 (h3.owed.trans howed)), hh, fun ha => h2.2.1.trans (h1.2.1 ha)⟩
      · cases h

/-- Nothing before an instruction's effect moves the PC. -/
theorem begins_pc {s u : State} {c : CoreId} {n : Needs} (h : s.begins c n = some u) : (s.core c).pc = (u.core c).pc :=
  (begins_at h).pc.symm

theorem begins_fpctl {s u : State} {c : CoreId} {n : Needs} (h : s.begins c n = some u) : (s.core c).reg .FPCTL = (u.core c).reg .FPCTL :=
  (begins_at h).fpctl.symm

end Sys2Proof.Machine

/-! PROOFS. O1: integer results (R50 to R52). -/

namespace Sys2Proof.Machine

/-! ### What an instruction that begins completes with -/

section
variable {s u : State} {c : CoreId} {n : Needs} {body : State → Ex} {i : Instr}

/-- An instruction that writes a G register. -/
theorem completes_doneG {rd : Fin 32} {v : Word} (e : exec i s = ok (s.runInstr c n body)) (h : s.begins c n = some u)
    (hb : body u = u.doneG c rd v) : Completes i s fun t => GoesOn u t c ((u.core c).writeG rd v) (u.core c).pc :=
  completes_ok e (runInstr_doneG h (begins_pc h) hb)

/-- An instruction that writes an F register. -/
theorem completes_doneF {fd : Fin 32} {v : Word} (e : exec i s = ok (s.runInstr c n body)) (h : s.begins c n = some u)
    (hb : body u = u.doneF c fd v) : Completes i s fun t => GoesOn u t c ((u.core c).writeF fd v) (u.core c).pc :=
  completes_ok e (runInstr_doneF h (begins_pc h) hb)

/-- An instruction whose effect is an update of its core. -/
theorem completes_upd {f : Core → Core} (e : exec i s = ok (s.runInstr c n body)) (h : s.begins c n = some u)
    (hb : body u = .done (u.updCore c f) ((u.core c).pc + 4)) (hh : (f (u.core c)).haltReq = (u.core c).haltReq) :
    Completes i s fun t => GoesOn u t c (f (u.core c)) (u.core c).pc :=
  completes_ok e (runInstr_upd h (begins_pc h) hb hh)

/-- An instruction that does nothing but go on. -/
theorem completes_nop (e : exec i s = ok (s.runInstr c n body)) (h : s.begins c n = some u) (hb : body u = .done u ((u.core c).pc + 4)) :
    Completes i s fun t => GoesOn u t c (u.core c) (u.core c).pc :=
  completes_ok e (runInstr_nop h (begins_pc h) hb)

/-- An instruction whose effect leaves the state w. -/
theorem completes_done {w : State} (e : exec i s = ok (s.runInstr c n body)) (h : s.begins c n = some u)
    (hb : body u = .done w ((u.core c).pc + 4)) (hh : (w.core c).haltReq = false) :
    Completes i s fun t => GoesOn w t c (w.core c) (u.core c).pc :=
  completes_ok e (runInstr_begins h (begins_pc h) hb hh)
end

/-! ### The values of R50 to R52 -/

theorem boolW_slt (a b : Word) : boolW (a.slt b) = if a.toInt < b.toInt then 1 else 0 := by
  simp [boolW, BitVec.slt]

theorem boolW_ult (a b : Word) : boolW (a.ult b) = if a.toNat < b.toNat then 1 else 0 := by
  simp [boolW, BitVec.ult]

theorem boolW_beq (a b : Word) : boolW (a == b) = if a = b then 1 else 0 := by
  simp [boolW]

theorem boolW_bne (a b : Word) : boolW (a != b) = if a = b then 0 else 1 := by
  simp [boolW]

theorem ite_slt {α : Type} (a b : Word) (x y : α) : (if a.slt b then x else y) = if a.toInt < b.toInt then x else y := by
  simp [BitVec.slt]

theorem ite_ult {α : Type} (a b : Word) (x y : α) : (if a.ult b then x else y) = if a.toNat < b.toNat then x else y := by
  simp [BitVec.ult]

/-- The low half of a sum is the sum of the low halves. -/
theorem sext32_add (a b : Word) : sext32 (a + b) = (a.setWidth 32 + b.setWidth 32).signExtend 64 := by
  unfold sext32
  rw [BitVec.setWidth_add _ _ (by decide)]

theorem sext32_mul (a b : Word) : sext32 (a * b) = (a.setWidth 32 * b.setWidth 32).signExtend 64 := by
  unfold sext32
  rw [BitVec.setWidth_mul _ _ (by decide)]

theorem immS_toInt (imm : BitVec 16) : (immS imm).toInt = imm.toInt :=
  BitVec.toInt_signExtend_of_le (by decide)

theorem immS_low (imm : BitVec 16) : (immS imm).setWidth 32 = imm.signExtend 32 := by
  unfold immS
  ext i hi
  have h64 : i < 64 := by omega
  simp [BitVec.getElem_signExtend, h64]

theorem mulHighU_eq (a b : Word) : mulHighU a b = hiBits (a.zeroExtend 128 * b.zeroExtend 128) := by
  apply BitVec.eq_of_toNat_eq
  have h : a.toNat * b.toNat < 2 ^ 128 := by
    have := Nat.mul_lt_mul'' a.isLt b.isLt
    omega
  simp [mulHighU, hiBits, BitVec.toNat_mul, Nat.shiftRight_eq_div_pow]
  omega

theorem signExtend128_mul (a b : Word) : a.signExtend 128 * b.signExtend 128 = BitVec.ofInt 128 (a.toInt * b.toInt) := by
  rw [BitVec.ofInt_mul]
  rfl

theorem mulHighS_eq (a b : Word) : mulHighS a b = hiBits (a.signExtend 128 * b.signExtend 128) := by
  rw [signExtend128_mul]
  apply BitVec.eq_of_toNat_eq
  simp only [mulHighS, hiBits, BitVec.extractLsb'_toNat, BitVec.toNat_ofInt, Nat.shiftRight_eq_div_pow]
  generalize a.toInt * b.toInt = z
  norm_num
  omega

theorem sel_eq (a b x : Word) : (if x = 0 then b else a) = if x ≠ 0 then a else b := by
  rw [ite_not]

/-- Settles O1: each row is written by `State.doneG`, with the value its lemma above gives. -/
theorem integerResults : Obligations.IntegerResults := by
  unfold Obligations.IntegerResults
  constructor
  · intro s u c rd ra rb rx
    simp only [rrRows, List.forall_mem_cons, List.not_mem_nil, false_implies, implies_true, and_true]
    refine ⟨fun h => completes_doneG rfl h rfl, fun h => completes_doneG rfl h rfl, fun h => completes_doneG rfl h rfl,
      fun h => completes_doneG rfl h rfl, fun h => completes_doneG rfl h rfl, fun h => completes_doneG rfl h rfl,
      fun h => completes_doneG rfl h rfl, fun h => completes_doneG rfl h rfl, ?slt, ?sltu, ?seq, ?sne, ?min, ?max, ?minu, ?maxu, ?addw,
      fun h => completes_doneG rfl h rfl, fun h => completes_doneG rfl h rfl, fun h => completes_doneG rfl h rfl,
      fun h => completes_doneG rfl h rfl, fun h => completes_doneG rfl h rfl, fun h => completes_doneG rfl h rfl, ?sel⟩
    case slt => rw [← boolW_slt]; exact fun h => completes_doneG rfl h rfl
    case sltu => rw [← boolW_ult]; exact fun h => completes_doneG rfl h rfl
    case seq => rw [← boolW_beq]; exact fun h => completes_doneG rfl h rfl
    case sne => rw [← boolW_bne]; exact fun h => completes_doneG rfl h rfl
    case min => rw [← ite_slt]; exact fun h => completes_doneG rfl h rfl
    case max => rw [← ite_slt]; exact fun h => completes_doneG rfl h rfl
    case minu => rw [← ite_ult]; exact fun h => completes_doneG rfl h rfl
    case maxu => rw [← ite_ult]; exact fun h => completes_doneG rfl h rfl
    case addw => rw [← sext32_add]; exact fun h => completes_doneG rfl h rfl
    case sel => rw [← sel_eq]; exact fun h => completes_doneG rfl h rfl
  · intro s u c rd ra rb imm sh
    simp only [riRows, List.forall_mem_cons, List.not_mem_nil, false_implies, implies_true, and_true]
    refine ⟨fun h => completes_doneG rfl h rfl, fun h => completes_doneG rfl h rfl, fun h => completes_doneG rfl h rfl,
      fun h => completes_doneG rfl h rfl, ?slti, ?sltiu, fun h => completes_doneG rfl h rfl, fun h => completes_doneG rfl h rfl,
      fun h => completes_doneG rfl h rfl, fun h => completes_doneG rfl h rfl, fun h => completes_doneG rfl h rfl, ?addiw,
      fun h => completes_doneG rfl h rfl, ?mulh, ?mulhu, ?mulw⟩
    case slti => rw [← immS_toInt, ← boolW_slt]; exact fun h => completes_doneG rfl h rfl
    case sltiu => rw [← boolW_ult]; exact fun h => completes_doneG rfl h rfl
    case addiw => rw [← immS_low, ← sext32_add]; exact fun h => completes_doneG rfl h rfl
    case mulh => rw [← mulHighS_eq]; exact fun h => completes_doneG rfl h rfl
    case mulhu => rw [← mulHighU_eq]; exact fun h => completes_doneG rfl h rfl
    case mulw => rw [← sext32_mul]; exact fun h => completes_doneG rfl h rfl

end Sys2Proof.Machine

/-! PROOFS. O2: the effect of an instruction, and long operations (R52 to R54, R84 to R89). -/

namespace Sys2Proof.Machine

/-! ### What the effect of an instruction leaves -/

/-- The effect of an instruction leaves w of u: only the core c differs, which has all that k has but for its event counters and its
trace encoder. -/
structure Effect (u w : State) (c : CoreId) (k : Core) : Prop where
  frame : w = { u with cores := w.cores }
  others : ∀ d, d ≠ c → w.core d = u.core d
  core : Core.Agrees k (w.core c)

section
variable {u w : State} {c : CoreId} {k : Core}

theorem Effect.refl (u : State) (c : CoreId) : Effect u u c (u.core c) := ⟨rfl, fun _ _ => rfl, .refl _⟩

theorem Effect.onCore (h : Effect u w c k) {v : State} (g : OnCore c w v) : Effect u v c k := by
  refine ⟨?_, fun d hd => (g.others d hd).trans (h.others d hd), h.core.trans g.core⟩
  have h1 := g.frame
  rw [h.frame] at h1
  exact h1

theorem Effect.event (h : Effect u w c k) (e v : Nat) : Effect u (w.event c e v) c k := h.onCore (.event _ _ _ _)

theorem Effect.upd (h : Effect u w c k) (f : Core → Core) (hf : Core.Agrees (f k) (f (w.core c))) : Effect u (w.updCore c f) c (f k) := by
  refine ⟨?_, fun d hd => (State.core_setCore_other _ hd _).trans (h.others d hd), ?_⟩
  · unfold State.updCore State.setCore
    conv => lhs; rw [h.frame]
    rfl
  · rw [State.core_updCore]
    exact hf

theorem Effect.writeG (h : Effect u w c k) (r : RegNo) (v : Word) : Effect u (w.updCore c fun k => k.writeG r v) c (k.writeG r v) :=
  h.upd _ (h.core.writeG r v)

theorem Effect.writeF (h : Effect u w c k) (r : RegNo) (v : Word) : Effect u (w.updCore c fun k => k.writeF r v) c (k.writeF r v) :=
  h.upd _ (h.core.writeF r v)

theorem Effect.setFlags (h : Effect u w c k) (f : FFlags) : Effect u (w.updCore c fun k => k.setFlags f) c (k.setFlags f) :=
  h.upd _ (h.core.setFlags f)

/-- An update of the core at the beginning of the effect. -/
theorem Effect.first (u : State) (c : CoreId) (f : Core → Core) : Effect u (u.updCore c f) c (f (u.core c)) :=
  (Effect.refl u c).upd f (.refl _)

/-- An instruction that ends after its effect. -/
theorem Effect.ends (h : Effect u w c k) {t : State} {npc : Word} {b : Bool} (e : Ends w t c (w.core c) npc b) : Ends u t c k npc b := by
  refine ⟨?_, fun d hd => (e.others d hd).trans (h.others d hd), e.pc, e.seqEnd, h.core.trans e.core⟩
  have h1 := e.frame
  rw [h.frame] at h1
  exact h1

/-- An instruction that begins in u and goes on after its effect on v. -/
theorem completes_from {s v : State} {n : Needs} {body : State → Ex} {i : Instr} (e : exec i s = ok (s.runInstr c n body))
    (h : s.begins c n = some u) (hb : body u = .done w ((u.core c).pc + 4)) (hw : Effect v w c k) (hk : k.haltReq = false) :
    Completes i s fun t => GoesOn v t c k (u.core c).pc :=
  completes_ok e (hw.ends (runInstr_begins h (begins_pc h) hb (hw.core.haltReq.trans hk)))

/-- An instruction that begins in u and jumps after its effect on v. -/
theorem jumps_from {s v : State} {n : Needs} {body : State → Ex} {i : Instr} {npc : Word} (e : exec i s = ok (s.runInstr c n body))
    (h : s.begins c n = some u) (hb : body u = .jump w npc) (hw : Effect v w c k) (hk : k.haltReq = false) :
    Completes i s fun t => Ends v t c k npc :=
  completes_ok e (hw.ends (runInstr_jump h hb (hw.core.haltReq.trans hk)))

/-- An instruction that begins in u and goes on after its effect. -/
theorem completes_effect {s : State} {n : Needs} {body : State → Ex} {i : Instr} (e : exec i s = ok (s.runInstr c n body))
    (h : s.begins c n = some u) (hb : body u = .done w ((u.core c).pc + 4)) (hw : Effect u w c k) (hk : k.haltReq = (u.core c).haltReq) :
    Completes i s fun t => GoesOn u t c k (u.core c).pc :=
  completes_from e h hb hw (hk.trans (begins_haltReq h))
end

/-! ### Long operations (R52 to R54, R84 to R89) -/

/-- An instruction that puts an operation into the divider. -/
theorem completes_issueLong {s u : State} {c : CoreId} {n : Needs} {body : State → Ex} {o : LongOp} {i : Instr}
    (e : exec i s = ok (s.runInstr c n body)) (h : s.begins c n = some u) (hb : body u = u.issueLong c o) :
    Completes i s fun t => GoesOn u t c { u.core c with long := some o } (u.core c).pc :=
  completes_effect e h hb ((Effect.first u c fun k => { k with long := some o }).event _ _) rfl

theorem divS_eq {w : Nat} (a b : BitVec w) : divS a b = if b = 0 then BitVec.allOnes w else a.sdiv b := by
  unfold divS
  split
  · rfl
  · exact BitVec.eq_of_toInt_eq (by rw [BitVec.toInt_ofInt, BitVec.toInt_sdiv])

theorem divU_eq {w : Nat} (a b : BitVec w) : divU a b = if b = 0 then BitVec.allOnes w else a / b := by
  unfold divU
  rw [BitVec.udiv_def]

theorem remS_eq {w : Nat} (a b : BitVec w) : remS a b = if b = 0 then a else a.srem b := by
  unfold remS
  split
  · rfl
  · rw [← BitVec.toInt_srem, BitVec.ofInt_toInt]

theorem remU_eq {w : Nat} (a b : BitVec w) : remU a b = if b = 0 then a else a % b := by
  unfold remU
  rw [BitVec.umod_def]

/-- The sign-extended result of a division of words. -/
theorem divW_eq (y v : BitVec 32) :
    (if y = 0 then BitVec.allOnes 64 else v.signExtend 64) = (if y = 0 then BitVec.allOnes 32 else v).signExtend 64 := by
  split
  · decide
  · rfl

theorem decide_zero {w : Nat} (b : BitVec w) : decide (b = 0) = (b == 0) := rfl

/-- A division that begins. -/
theorem completes_opDiv {s u : State} {c : CoreId} {rd ra rb : RegNo} {i : Instr} {fn : Nat} {zero : Word → Bool} {f : Word → Word → Word}
    (e : exec i s = ok (s.opDiv c fn rd ra rb zero f)) (h : s.begins c { g := [rd, ra, rb], all := true } = some u) :
    Completes i s fun t => GoesOn u t c { u.core c with
      long := some (intLong fn rd (f ((u.core c).readG ra) ((u.core c).readG rb)) (zero ((u.core c).readG rb)) (u.core c).pc) } (u.core c).pc :=
  completes_issueLong e h rfl

theorem completes_divRows {s u : State} {c : CoreId} {rd ra rb : RegNo} (h : s.begins c { g := [rd, ra, rb], all := true } = some u) :
    ∀ p ∈ divRows c rd ra rb (u.core c).pc ((u.core c).readG ra) ((u.core c).readG rb),
       Completes p.1 s fun t => GoesOn u t c { u.core c with long := some p.2 } (u.core c).pc := by
  simp only [divRows, List.forall_mem_cons, List.not_mem_nil, false_implies, implies_true, and_true, divW_eq,
    ← divS_eq, ← divU_eq, ← remS_eq, ← remU_eq, decide_zero]
  refine ⟨completes_opDiv (zero := (· == 0)) (f := divS) rfl h, completes_opDiv (zero := (· == 0)) (f := divU) rfl h,
    completes_opDiv (zero := (· == 0)) (f := remS) rfl h, completes_opDiv (zero := (· == 0)) (f := remU) rfl h, ?_, ?_⟩
  · exact completes_opDiv (i := .divw c rd ra rb) (zero := fun b => b.setWidth 32 == 0#32)
      (f := fun a b => (divS (a.setWidth 32) (b.setWidth 32)).signExtend 64) rfl h
  · exact completes_opDiv (i := .divuw c rd ra rb) (zero := fun b => b.setWidth 32 == 0#32)
      (f := fun a b => (divU (a.setWidth 32) (b.setWidth 32)).signExtend 64) rfl h

/-- A core's writes of its registers leave the divider alone. -/
theorem Core.setSp_long (k : Core) (l : Level) (v : Word) (o : Option LongOp) :
    ({ k with long := o } : Core).setSp l v = { k.setSp l v with long := o } := by
  cases l <;> rfl

theorem Core.writeG_long (k : Core) (r : Fin 32) (v : Word) (o : Option LongOp) :
    ({ k with long := o } : Core).writeG r v = { k.writeG r v with long := o } := by
  unfold Core.writeG
  split
  · rfl
  · split
    · exact Core.setSp_long k k.level v o
    · rfl

/-- What the divider writes of a core when its operation ends (R84). -/
def Core.longDone (k : Core) (o : LongOp) : Core :=
  let w := if o.fp then k.writeF o.rd o.result else k.writeG o.rd o.result
  w.setReg .FPFLAGS [] (w.reg .FPFLAGS ||| o.flags.setWidth 64)

theorem Core.longDone_long (k : Core) (o : LongOp) (x : Option LongOp) :
    ({ k with long := x } : Core).longDone o = { k.longDone o with long := x } := by
  unfold Core.longDone
  cases o.fp with
  | true => rfl
  | false =>
    dsimp only
    rw [if_neg (by simp), if_neg (by simp), Core.writeG_long]
    rfl

theorem Core.longDone_fpctl (k : Core) (o : LongOp) : (k.longDone o).reg .FPCTL = k.reg .FPCTL := by
  unfold Core.longDone
  dsimp only
  rw [Core.reg_setReg_other _ _ _ _ _ _ (by decide)]
  split
  · rfl
  · exact (Core.Begun.writeG _ _ _).fpctl

/-- The fault of an operation that FPCTL.IDZE enables is owed (R88). -/
def Core.owes (k : Core) (o : LongOp) : Bool := !o.fp && o.flags.getLsbD 5 && flag (k.reg .FPCTL) .FPCTL_IDZE

/-- The divider ends an operation that meets no mismatch. -/
theorem longEnd_some {s : State} {c : CoreId} {o : LongOp} (h : (s.core c).long = some o) (hr : (s.core c).fld .RES_CTL .RES_CTL_INJ ≠ 3) :
    s.longEnd c = (true, s.updCore c fun k =>
      { k.longDone o with long := none, owed := if (k.longDone o).owes o then some o else (k.longDone o).owed }) := by
  have hres : s.residue c 2 = (true, s) := by
    unfold State.residue
    exact if_pos hr
  unfold State.longEnd
  rw [h]
  dsimp only
  rw [hres]
  rfl

theorem longEnd_none {s : State} {c : CoreId} (h : (s.core c).long = none) : s.longEnd c = (true, s) := by
  unfold State.longEnd
  rw [h]

theorem takeOwed_none {s : State} {c : CoreId} (h : (s.core c).owed = none) : s.takeOwed c = (true, s) := by
  unfold State.takeOwed
  dsimp only
  rw [h]

theorem Core.writeG_owed (k : Core) (r : Fin 32) (v : Word) : (k.writeG r v).owed = k.owed := by
  unfold Core.writeG Core.setSp
  split
  · rfl
  · split
    · split <;> rfl
    · rfl

theorem Core.longDone_owed (k : Core) (o : LongOp) : (k.longDone o).owed = k.owed := by
  unfold Core.longDone
  dsimp only
  split
  · rfl
  · exact Core.writeG_owed _ _ _

/-- LONG_OP_COMPLETE where the divider ends nothing, or ends an operation that leaves no fault owed. -/
theorem exec_longOpComplete {s t : State} {c : CoreId} (hr : ∀ r, (s.core c).run ≠ .stopped r) (h : s.longEnd c = (true, t))
    (ho : (t.core c).owed = none) : exec (.longOpComplete c) s = .next t := by
  show execLongOpComplete c s = .next t
  unfold execLongOpComplete
  split
  · rename_i r e
    exact absurd e (hr r)
  · rw [h]
    dsimp only
    rw [takeOwed_none ho]
    split <;> rfl

theorem exec_longOpComplete_stopped {s : State} {c : CoreId} (h : ∃ r, (s.core c).run = .stopped r) :
    exec (.longOpComplete c) s = .next s := by
  obtain ⟨r, hr⟩ := h
  show execLongOpComplete c s = .next s
  unfold execLongOpComplete
  rw [hr]
  rfl

/-- Settles O2: a division is issued with the quotient or remainder of its operands, and LONG_OP_COMPLETE is `State.longEnd`, which
leaves no fault owed here. -/
theorem longOperations : Obligations.LongOperations := by
  unfold Obligations.LongOperations
  refine ⟨fun s u c rd ra rb h => completes_divRows h, ?_, ?_⟩
  · intro s c o hl hrun howed hres hz
    have hd : ((s.core c).longDone o).owes o = false := by
      unfold Core.owes
      rw [Core.longDone_fpctl]
      simpa [and_assoc] using hz
    have ht := longEnd_some hl hres
    unfold State.updCore at ht
    dsimp only at ht
    rw [hd, if_neg (by simp), ← Core.longDone_long] at ht
    refine exec_longOpComplete hrun ht ?_
    rw [State.core_setCore]
    exact (Core.longDone_owed _ o).trans howed
  · intro s c hs
    by_cases hr : ∃ r, (s.core c).run = .stopped r
    · exact exec_longOpComplete_stopped hr
    · obtain ⟨hl, ho⟩ := hs.resolve_left hr
      exact exec_longOpComplete (fun r e => hr ⟨r, e⟩) (longEnd_none hl) ho

end Sys2Proof.Machine

/-! PROOFS. O3: the register file (R42, R43). -/

namespace Sys2Proof.Machine

/-! ### The general registers (R42, R43) -/

theorem Core.sp_setSp (k : Core) (l : Level) (v : Word) : (k.setSp l v).sp l = v := by
  cases l with
  | u => exact Core.reg_setReg _ _ _ _
  | k => exact Core.reg_setReg _ _ _ _
  | h => rfl

theorem Core.sp_setSp_other (k : Core) {l m : Level} (h : m ≠ l) (v : Word) : (k.setSp l v).sp m = k.sp m := by
  cases l <;> cases m <;>
    first
    | exact absurd rfl h
    | exact Core.reg_setReg_other _ _ _ _ _ _ (by decide)
    | rfl

theorem Core.level_setSp (k : Core) (l : Level) (v : Word) : (k.setSp l v).level = k.level := by
  have hreg : (k.setSp l v).reg .STATUS = k.reg .STATUS := by
    cases l with
    | u => exact Core.reg_setReg_other _ _ _ _ _ _ (by decide)
    | k => exact Core.reg_setReg_other _ _ _ _ _ _ (by decide)
    | h => rfl
  unfold Core.level Core.fld
  rw [hreg]

theorem Core.g_setSp (k : Core) (l : Level) (v : Word) : (k.setSp l v).g = k.g := by
  cases l <;> rfl

/-- G30 is the stack pointer of the level. -/
theorem Core.writeG_sp (k : Core) (v : Word) : k.writeG 30 v = k.setSp k.level v := by
  unfold Core.writeG
  rw [if_neg (by decide), if_pos (by decide)]

theorem Core.readG_sp (k : Core) : k.readG 30 = k.sp k.level := by
  unfold Core.readG
  rw [if_neg (by decide), if_pos (by decide)]

theorem Core.writeG_g (k : Core) {r : RegNo} (h0 : r ≠ 0) (h30 : r ≠ 30) (v : Word) : k.writeG r v = { k with g := k.g.set 0 r.val v } := by
  unfold Core.writeG
  rw [if_neg (fun e : r.val = 0 => h0 (Fin.ext e)), if_neg (fun e : r.val = 30 => h30 (Fin.ext e))]

theorem Core.readG_g (k : Core) {r : RegNo} (h0 : r ≠ 0) (h30 : r ≠ 30) : k.readG r = k.g.get 0 r.val := by
  unfold Core.readG
  rw [if_neg (fun e : r.val = 0 => h0 (Fin.ext e)), if_neg (fun e : r.val = 30 => h30 (Fin.ext e))]

theorem Core.readG_zero (k : Core) : k.readG 0 = 0 := rfl

theorem Core.writeG_zero (k : Core) (v : Word) : k.writeG 0 v = k := rfl

theorem Core.readG_writeG_same (k : Core) {r : RegNo} (h : r ≠ 0) (v : Word) : (k.writeG r v).readG r = v := by
  by_cases h30 : r = 30
  · subst h30
    rw [Core.writeG_sp, Core.readG_sp, Core.level_setSp, Core.sp_setSp]
  · rw [Core.writeG_g k h h30, Core.readG_g _ h h30]
    exact SMap.get_set_self _ _ _ _

theorem Core.readG_writeG_other (k : Core) {r q : RegNo} (h : q ≠ r) (v : Word) : (k.writeG r v).readG q = k.readG q := by
  by_cases hr0 : r = 0
  · rw [hr0, Core.writeG_zero]
  by_cases hq0 : q = 0
  · rw [hq0, Core.readG_zero, Core.readG_zero]
  by_cases hr : r = 30
  · subst hr
    rw [Core.writeG_sp, Core.readG_g _ hq0 h, Core.readG_g _ hq0 h, Core.g_setSp]
  · rw [Core.writeG_g k hr0 hr]
    by_cases hq : q = 30
    · rw [hq, Core.readG_sp, Core.readG_sp]
      rfl
    · rw [Core.readG_g _ hq0 hq, Core.readG_g _ hq0 hq]
      exact SMap.get_set_other _ (fun e => h (Fin.ext e)) _ _

/-- A core whose registers are kept reads them alike. -/
theorem Core.KeepsRegs.readG {k k' : Core} (h : Core.KeepsRegs k k') (r : RegNo) : k'.readG r = k.readG r := by
  have hreg : ∀ (q : Reg) (i : List Nat), q.at i ∉ countRegs → k'.reg q i = k.reg q i := by
    intro q i hq
    unfold Core.reg
    rw [h.sys _ hq]
  have hl : k'.level = k.level := by
    unfold Core.level Core.fld
    rw [hreg _ _ status_not_count]
  have hsp : k'.sp k.level = k.sp k.level := by
    cases k.level with
    | u => exact hreg _ _ (by decide)
    | k => exact hreg _ _ (by decide)
    | h => exact h.spH
  unfold Core.readG
  rw [hl, hsp, h.g]

/-- Settles O3: the register file's reads after writes, and a fetch is memory traffic (`State.Serves.fetch`). -/
theorem registerFile : Obligations.RegisterFile := by
  unfold Obligations.RegisterFile
  refine ⟨fun k v => ⟨k.readG_zero, k.writeG_zero v, fun r h => k.readG_writeG_same h v, fun r q h => k.readG_writeG_other h v,
    fun l h => ?_, ?_⟩, fun s c d => ?_⟩
  · rw [Core.writeG_sp, Core.sp_setSp_other _ h]
  · rw [Core.writeG_sp, Core.sp_setSp]
  · have h := (((State.Serves.refl s).fetch c).core d).toKeepsRegs
    exact ⟨h.readG, fun n => by unfold Core.readF; rw [h.f], h.pc, h.spH⟩

end Sys2Proof.Machine

/-! PROOFS. O4: floating-point results (R55 to R57, R96, R97). -/

namespace Sys2Proof.Machine

/-! ### Floating-point results (R54 to R57, R96, R97) -/

section
variable {s u : State} {c : CoreId}

/-- A rounding mode selects the same before and after the beginning of an instruction. -/
theorem begins_rmode {n : Needs} (h : s.begins c n = some u) (rm : BitVec 5) : (s.core c).rmode rm = (u.core c).rmode rm := by
  unfold Core.rmode Core.dynMode Core.fld
  rw [begins_fpctl h]

theorem begins_fpEnables {n : Needs} (h : s.begins c n = some u) : (s.core c).fpEnables = (u.core c).fpEnables := by
  unfold Core.fpEnables
  rw [begins_fpctl h]

/-- What an instruction does whose result signals no enabled exception. -/
theorem Effect.fpDone (p : FpRow) (can : FFlags) (hf : p.v.2 &&& (u.core c).fpEnables = 0) :
    ∃ w, u.fpDone c p.d p.v.1 p.v.2 can = .done w ((u.core c).pc + 4) ∧ Effect u w c ((u.core c).deliver p) := by
  have hv : Effect u (if (u.core c).fpEnables &&& can ≠ 0 then u.event c evOrderedFp else u) c (u.core c) := by
    split
    · exact (Effect.refl u c).event _ _
    · exact .refl u c
  have hp : ((if (u.core c).fpEnables &&& can ≠ 0 then u.event c evOrderedFp else u).core c).pc = (u.core c).pc := by
    split
    · exact (OnCore.event _ _ _ _).pc
    · rfl
  generalize hw : (if (u.core c).fpEnables &&& can ≠ 0 then u.event c evOrderedFp else u) = v at hv hp
  unfold State.fpDone Core.deliver
  dsimp only
  rw [hw, if_neg (by simp [hf])]
  have hpc : ((v.updCore c fun k => k.setFlags p.v.2).pcOf c) = (u.core c).pc := by
    unfold State.pcOf
    rw [State.core_updCore]
    exact hp
  cases p.d with
  | f r single =>
    refine ⟨_, ?_, (hv.setFlags _).writeF _ _⟩
    dsimp only
    unfold State.doneF
    rw [hpc]
  | g r =>
    refine ⟨_, ?_, (hv.setFlags _).writeG _ _⟩
    dsimp only
    unfold State.doneG
    rw [hpc]

theorem Core.deliver_haltReq (k : Core) (p : FpRow) : (k.deliver p).haltReq = k.haltReq := by
  unfold Core.deliver
  split
  · rfl
  · exact Core.writeG_haltReq _ _ _

/-- A floating-point instruction that signals no enabled exception. n: what it needs where its rounding mode is not reserved. -/
theorem completes_fpDone {p : FpRow} {n : Needs} {body : State → Ex} (e : exec p.i s = ok (s.runInstr c n body))
    (hn : n = p.needs) (h : s.begins c p.needs = some u) (hb : ∃ can, body u = u.fpDone c p.d p.v.1 p.v.2 can)
    (hf : p.v.2 &&& (u.core c).fpEnables = 0) : Completes p.i s fun t => GoesOn u t c ((u.core c).deliver p) (u.core c).pc := by
  subst hn
  obtain ⟨can, hb⟩ := hb
  obtain ⟨w, hw, he⟩ := Effect.fpDone p can hf
  exact completes_effect e h (hb.trans hw) he (Core.deliver_haltReq _ _)

variable {i : Instr} {fd fa fb fx : RegNo} {rm : BitVec 5} {r : RMode} {single : Bool} {fn : Nat} {can : FFlags}

/-- The units of an instruction whose rounding mode is not reserved. -/
theorem begins_rmUnits {n : Needs} (h : s.begins c n = some u) (hr : (u.core c).rmode rm = some r) (units : List Nat) :
    s.rmUnits c rm units = units := by
  unfold State.rmUnits
  rw [begins_rmode h, hr]
  rfl

theorem completes_opF3 {units : List Nat} {op : FFmt → RMode → Bool → FVal → FVal → Nat × FFlags} (hr : (u.core c).rmode rm = some r)
    (e : exec i s = ok (s.opF3 c fn single units fd fa fb rm can op)) (h : s.begins c { f := [fd, fa, fb], units := units } = some u)
    (hf : (op (fmtOf single) r (u.core c).ufe ((u.core c).fval single fa) ((u.core c).fval single fb)).2 &&& (u.core c).fpEnables = 0) :
    Completes i s fun t => GoesOn u t c ((u.core c).deliver ⟨i, { f := [fd, fa, fb], units := units }, .f fd single,
      op (fmtOf single) r (u.core c).ufe ((u.core c).fval single fa) ((u.core c).fval single fb), can⟩) (u.core c).pc := by
  refine completes_fpDone (p := ⟨i, _, _, _, can⟩) e ?_ h ?_ hf
  · rw [begins_rmUnits h hr]
  · apply Exists.intro
    dsimp only
    rw [hr]
    rfl

theorem completes_opFcvtF (hr : (u.core c).rmode rm = some r) (e : exec i s = ok (s.opFcvtF c fn single fd fa rm))
    (h : s.begins c { f := [fd, fa] } = some u)
    (hf : ((fmtOf single).convert r (u.core c).ufe ((u.core c).fval (!single) fa)).2 &&& (u.core c).fpEnables = 0) :
    Completes i s fun t => GoesOn u t c ((u.core c).deliver ⟨i, { f := [fd, fa] }, .f fd single,
      (fmtOf single).convert r (u.core c).ufe ((u.core c).fval (!single) fa), can⟩) (u.core c).pc := by
  refine completes_fpDone (p := ⟨i, _, _, _, can⟩) e rfl h ?_ hf
  apply Exists.intro
  dsimp only
  rw [hr]
  rfl

theorem completes_opFcvtI {w : Nat} (hr : (u.core c).rmode rm = some r) (e : exec i s = ok (s.opFcvtI c fn single w fd fa rm))
    (h : s.begins c { f := [fa], g := [fd] } = some u)
    (hf : (toIntN w r ((u.core c).fval single fa)).2 &&& (u.core c).fpEnables = 0) :
    Completes i s fun t => GoesOn u t c ((u.core c).deliver ⟨i, { f := [fa], g := [fd] }, .g fd,
      ((BitVec.ofInt 64 (toIntN w r ((u.core c).fval single fa)).1).toNat, (toIntN w r ((u.core c).fval single fa)).2), can⟩) (u.core c).pc := by
  refine completes_fpDone (p := ⟨i, _, _, _, can⟩) e rfl h ?_ hf
  apply Exists.intro
  dsimp only
  rw [hr]
  rfl

theorem completes_opFcvtFromI {w : Nat} (hr : (u.core c).rmode rm = some r) (e : exec i s = ok (s.opFcvtFromI c fn single w fd fa rm))
    (h : s.begins c { f := [fd], g := [fa] } = some u)
    (hf : ((fmtOf single).ofInt r (((u.core c).readG fa).setWidth w).toInt).2 &&& (u.core c).fpEnables = 0) :
    Completes i s fun t => GoesOn u t c ((u.core c).deliver ⟨i, { f := [fd], g := [fa] }, .f fd single,
      (fmtOf single).ofInt r (((u.core c).readG fa).setWidth w).toInt, can⟩) (u.core c).pc := by
  refine completes_fpDone (p := ⟨i, _, _, _, can⟩) e rfl h ?_ hf
  apply Exists.intro
  dsimp only
  rw [hr]

/-- The rows with a rounding mode. -/
theorem completes_fpRounded (hr : (u.core c).rmode rm = some r) :
    ∀ p ∈ fpRounded c fd fa fb rm r (u.core c), s.begins c p.needs = some u → p.v.2 &&& (u.core c).fpEnables = 0 →
      Completes p.i s fun t => GoesOn u t c ((u.core c).deliver p) (u.core c).pc := by
  simp only [fpRounded, List.forall_mem_cons, List.not_mem_nil, false_implies, implies_true, and_true]
  refine ⟨fun h hf => completes_opF3 (op := fun f r u a b => f.add r u a b) hr rfl h hf,
    fun h hf => completes_opF3 (op := fun f r u a b => f.add r u a b) hr rfl h hf,
    fun h hf => completes_opF3 (op := fun f r u a b => f.add r u a b.neg) hr rfl h hf,
    fun h hf => completes_opF3 (op := fun f r u a b => f.add r u a b.neg) hr rfl h hf,
    fun h hf => completes_opF3 (op := fun f r u a b => f.mul r u a b) hr rfl h hf,
    fun h hf => completes_opF3 (op := fun f r u a b => f.mul r u a b) hr rfl h hf,
    fun h hf => completes_opFcvtF hr rfl h hf, fun h hf => completes_opFcvtF hr rfl h hf,
    fun h hf => completes_opFcvtI hr rfl h hf, fun h hf => completes_opFcvtI hr rfl h hf,
    fun h hf => completes_opFcvtI hr rfl h hf, fun h hf => completes_opFcvtI hr rfl h hf, ?_, ?_,
    fun h hf => completes_opFcvtFromI (w := 32) hr rfl h hf, fun h hf => completes_opFcvtFromI (w := 32) hr rfl h hf⟩
  · intro h hf
    rw [← BitVec.setWidth_eq ((u.core c).readG fa)] at hf ⊢
    exact completes_opFcvtFromI (single := true) hr rfl h hf
  · intro h hf
    rw [← BitVec.setWidth_eq ((u.core c).readG fa)] at hf ⊢
    exact completes_opFcvtFromI (single := false) hr rfl h hf

/-- The rows without one. -/
theorem completes_fpPlain :
    ∀ p ∈ fpPlain c fd fa fb fx (u.core c), s.begins c p.needs = some u → p.v.2 &&& (u.core c).fpEnables = 0 →
      Completes p.i s fun t => GoesOn u t c ((u.core c).deliver p) (u.core c).pc := by
  simp only [fpPlain, List.forall_mem_append, List.forall_mem_cons, List.not_mem_nil, false_implies, implies_true, and_true]
  refine ⟨⟨?_, ?_, ?_, ?_, ?_, ?_, ?_, ?_, ?_, ?_, ?_, ?_, ?_⟩, ?_, ?_, ?_, ?_, ?_, ?_, ?_, ?_, ?_, ?_, ?_, ?_, ?_⟩
  all_goals exact fun h hf => completes_fpDone (p := ⟨_, _, _, _, _⟩) rfl rfl h ⟨_, rfl⟩ hf

/-- Settles O4: the rows are delivered by `State.fpDone`, the moves by one register write. -/
theorem floatResults : Obligations.FloatResults := by
  unfold Obligations.FloatResults
  exact ⟨fun s u c fd fa fb rm r hr => completes_fpRounded hr, fun s u c fd fa fb fx => completes_fpPlain,
    fun s u c d a => ⟨fun h => ⟨completes_doneG rfl h rfl, completes_doneG rfl h rfl⟩,
      fun h => ⟨completes_doneF rfl h rfl, completes_doneF rfl h rfl⟩⟩⟩
end
end Sys2Proof.Machine

/-! PROOFS. O5: FDIV and FSQRT (R54, R96). -/

namespace Sys2Proof.Machine

section
variable {s u : State} {c : CoreId} {rm : BitVec 5} {r : RMode}

/-- The units of a division or square root whose rounding mode is not reserved. -/
theorem begins_divUnits {n : Needs} (h : s.begins c n = some u) (hr : (u.core c).rmode rm = some r) (can : FFlags) :
    s.divUnits c rm can = if (u.core c).fpEnables &&& can ≠ 0 then [2] else [] := by
  unfold State.divUnits
  rw [begins_fpEnables h, begins_rmUnits h hr]

/-- FDIV and FSQRT: into the divider, or in order (R54, R96). -/
theorem completes_fpLong {i : Instr} {n n' : Needs} {body : State → Ex} {fn : Nat} {fd : RegNo} {single : Bool} {v : Nat × FFlags} {can : FFlags}
    (e : exec i s = ok (s.runInstr c n' body)) (hn : n' = n) (h : s.begins c n = some u) (hb : body u = u.fpLong c fn fd single v.1 v.2 can) :
    ((u.core c).fpEnables &&& can = 0 → Completes i s fun t =>
      GoesOn u t c { u.core c with long := some (floatLong fn fd ⟨i, n, .f fd single, v, can⟩ (u.core c).pc) } (u.core c).pc) ∧
    ((u.core c).fpEnables &&& can ≠ 0 → v.2 &&& (u.core c).fpEnables = 0 → Completes i s fun t =>
      GoesOn u t c ((u.core c).deliver ⟨i, n, .f fd single, v, can⟩) (u.core c).pc) := by
  subst hn
  unfold State.fpLong at hb
  refine ⟨fun hc => ?_, fun hc hf => ?_⟩
  · rw [if_neg (not_not.mpr hc)] at hb
    exact completes_issueLong e h hb
  · rw [if_pos hc] at hb
    exact completes_fpDone (p := ⟨i, _, _, _, _⟩) e rfl h ⟨_, hb⟩ hf

theorem completes_opFdiv {i : Instr} {fn : Nat} {fd fa fb : RegNo} {single : Bool} (hr : (u.core c).rmode rm = some r)
    (e : exec i s = ok (s.opFdiv c fn single fd fa fb rm)) :
    let n : Needs := { f := [fd, fa, fb], all := true, units := if (u.core c).fpEnables &&& allF ≠ 0 then [2] else [] }
    let p : FpRow := ⟨i, n, .f fd single, (fmtOf single).div r (u.core c).ufe ((u.core c).fval single fa) ((u.core c).fval single fb), allF⟩
    s.begins c n = some u →
    ((u.core c).fpEnables &&& allF = 0 → Completes i s fun t =>
      GoesOn u t c { u.core c with long := some (floatLong fn fd p (u.core c).pc) } (u.core c).pc) ∧
    ((u.core c).fpEnables &&& allF ≠ 0 → p.v.2 &&& (u.core c).fpEnables = 0 → Completes i s fun t =>
      GoesOn u t c ((u.core c).deliver p) (u.core c).pc) := by
  intro n p h
  refine completes_fpLong e ?_ h ?_
  · rw [begins_divUnits h hr]
  · dsimp only
    rw [hr]
    rfl

theorem completes_opFsqrt {i : Instr} {fn : Nat} {fd fa : RegNo} {single : Bool} (hr : (u.core c).rmode rm = some r)
    (e : exec i s = ok (s.opFsqrt c fn single fd fa rm)) :
    let n : Needs := { f := [fd, fa], all := true, units := if (u.core c).fpEnables &&& (fNV ||| fNX) ≠ 0 then [2] else [] }
    let p : FpRow := ⟨i, n, .f fd single, (fmtOf single).sqrt r (u.core c).ufe ((u.core c).fval single fa), fNV ||| fNX⟩
    s.begins c n = some u →
    ((u.core c).fpEnables &&& (fNV ||| fNX) = 0 → Completes i s fun t =>
      GoesOn u t c { u.core c with long := some (floatLong fn fd p (u.core c).pc) } (u.core c).pc) ∧
    ((u.core c).fpEnables &&& (fNV ||| fNX) ≠ 0 → p.v.2 &&& (u.core c).fpEnables = 0 → Completes i s fun t =>
      GoesOn u t c ((u.core c).deliver p) (u.core c).pc) := by
  intro n p h
  refine completes_fpLong e ?_ h ?_
  · rw [begins_divUnits h hr]
  · dsimp only
    rw [hr]
    rfl

/-- Settles O5: each row is `State.fpLong`, which issues or delivers by what FPCTL enables. -/
theorem floatLongResults : Obligations.FloatLongResults := by
  unfold Obligations.FloatLongResults
  intro s u c fd fa fb rm r hr
  simp only [fpLongRows, List.forall_mem_cons, List.not_mem_nil, false_implies, implies_true, and_true]
  exact ⟨completes_opFdiv hr rfl, completes_opFdiv hr rfl, completes_opFsqrt hr rfl, completes_opFsqrt hr rfl⟩
end
end Sys2Proof.Machine

/-! PROOFS. O7: branches and jumps (R59, R60, R108 to R111). -/

namespace Sys2Proof.Machine

/-! ### Tracing -/

theorem OnCore.traceBr (c : CoreId) (s : State) (taken : Bool) : OnCore c s (s.traceBr c taken) := by
  have h := OnCore.tracePre c s
  unfold State.traceBr
  split
  · rename_i t ht
    rw [ht] at h
    exact .ite (h.trans (.trace _ _ _)) h
  · rename_i t ht
    rw [ht] at h
    exact h

theorem OnCore.traceInd (c : CoreId) (s : State) (a : Word) : OnCore c s (s.traceInd c a) := by
  have h := OnCore.tracePre c s
  unfold State.traceInd
  split
  · rename_i t ht
    rw [ht] at h
    exact .ite (h.trans (.trace _ _ _)) h
  · rename_i t ht
    rw [ht] at h
    exact h

/-! ### The wrong path (R108 to R111) -/

section
variable {x s : State}

theorem State.Serves.fresh (h : State.Serves x s) : State.Serves x s.fresh.2 := h.of_cores rfl

theorem State.Serves.uncounted (h : State.Serves x s) (c : Fin 64) (f : State → State) (hf : State.Serves s (f s)) :
    State.Serves x (s.uncounted c f) := by
  refine ⟨fun d => ?_⟩
  have h1 := hf.core d
  unfold State.uncounted
  by_cases hd : d = c
  · subst hd
    rw [State.core_updCore]
    exact (h.core d).trans ⟨⟨⟨h1.g, h1.f, h1.pc, h1.spH, fun _ _ => rfl⟩, h1.run, h1.haltReq, h1.long, h1.owed⟩, h1.tail, h1.len⟩
  · unfold State.updCore
    rw [State.core_setCore_other _ hd]
    exact (h.core d).trans h1

/-- The walk that a translation hands back was walked from its state. -/
theorem State.Serves.translateOnce_walk (h : State.Serves x s) (c : Fin 64) (y : Ctx) (ea : Word) (a : Acc) (must quiet caches : Bool) :
    State.Serves x (Machine.translateOnce c y ea a must quiet caches s).2.1.s := by
  unfold Machine.translateOnce
  dsimp only
  split
  · exact h
  · split
    · exact h
    · have h1 := State.Serves.getDesc (w := { s := s }) h c y (ea.toNat / 2 ^ 48 % 1024) quiet caches
      split
      · grind
      · grind
      · rename_i d w1 e1
        rw [e1] at h1
        split
        · exact h1
        · split
          · grind [State.Serves.walk1, State.Serves.event]
          · grind [State.Serves.walk1, State.Serves.event]
          · rename_i e w2 e2
            have h2 : State.Serves x w2.s := by grind [State.Serves.walk1, State.Serves.event]
            split
            · exact h2
            · exact h2
            · split <;> exact h2

theorem State.Serves.wrongFetch (h : State.Serves x s) (c : Fin 64) (ea : Word) : State.Serves x (s.wrongFetch c ea) := by
  unfold State.wrongFetch
  refine .event (.uncounted h c _ ?_) _ _ _
  have h1 := (State.Serves.refl s).translateOnce_walk c ((s.core c).ctx (s.core c).level) ea .fetch false true true
  split
  · rename_i t w v hw
    rw [hw] at h1
    replace h1 : State.Serves s w.s := h1
    have h2 : State.Serves s (w.s.updCore c fun k =>
        (w.leaves.filter fun e => !e.hstage).foldl (fun k e => k.putItlb e) (w.wcs.foldl (fun k e => k.putWc e) k)) :=
      h1.upd c _ ((Core.Serves.foldl .putWc _ _).trans (.foldl .putItlb _ _))
    exact .ite (h2.l1iGet _ _ _) h2
  · rename_i a w v _ hw
    rw [hw] at h1
    exact h1

theorem Core.Serves.pushRet (k : Core) (a : Word) : Core.Serves k (k.pushRet a) := by
  unfold Core.pushRet
  split
  · exact .refl k
  · exact .of_caches rfl

theorem Core.Serves.popRet (k : Core) : Core.Serves k k.popRet := by
  unfold Core.popRet
  split
  · exact .refl k
  · exact .of_caches rfl

theorem State.Serves.wrongPath (h : State.Serves x s) (c : Fin 64) : State.Serves x (s.wrongPath c) := by
  unfold State.wrongPath
  refine .foldl (.foldl h.fresh (fun t i ht => ?_) _) (fun t _ ht => ht.fresh.wrongFetch _ _) _
  split
  · exact ht.fresh.upd c _ (.pushRet _ _)
  · exact ht.upd c _ (.popRet _)
end

/-! ### Branches and jumps (R59, R60) -/

section
variable {s u : State} {c : CoreId} {i : Instr}

/-- A conditional branch whose condition is P. -/
theorem completes_opBranch {ra rb : RegNo} {h : Bool} {d : BitVec 15} {p : Word → Word → Bool} {P : Prop}
    (e : exec i s = ok (s.opBranch c ra rb h d p)) (hb : s.begins c { g := [ra, rb] } = some u)
    (hp : p ((u.core c).readG ra) ((u.core c).readG rb) = true ↔ P) :
    ∃ v, (∀ e, Core.KeepsRegs (u.core e) (v.core e)) ∧ (((u.core c).guess h d = true ↔ P) → v = u) ∧
      (P → Completes i s fun t => Ends v t c (v.core c) ((u.core c).pc + (d.signExtend 64 <<< 2))) ∧
      (¬ P → Completes i s fun t => GoesOn v t c (v.core c) (u.core c).pc) := by
  generalize ht : p ((u.core c).readG ra) ((u.core c).readG rb) = taken at hp
  let u2 := if taken then (u.event c evBranch).event c evTaken else u.event c evBranch
  let u3 := (u2.event c evMispredict).wrongPath c
  let v := if (u.core c).guess h d = taken then u else u3
  let w := if (u.core c).guess h d = taken then u2 else u3
  have h2 : OnCore c u u2 := .ite ((OnCore.event _ _ _ _).trans (OnCore.event _ _ _ _)) (OnCore.event _ _ _ _)
  have s2 : State.Serves u u2 := .ite (.event (.event (.refl u) _ _ _) _ _ _) (.event (.refl u) _ _ _)
  have hv : State.Serves u v := .ite (.refl u) (.wrongPath (.event s2 _ _ _) _)
  have hw : OnCore c v w := by
    unfold v w
    split
    · exact h2
    · exact .refl _ _
  have hh : (v.core c).haltReq = false := ((hv.core c).haltReq).trans (begins_haltReq hb)
  have he : Effect v (w.traceBr c taken) c (v.core c) := ((Effect.refl v c).onCore hw).onCore (.traceBr _ _ _)
  refine ⟨v, fun e => (hv.core e).toKeepsRegs, fun hg => if_pos ?_, fun hP => ?_, fun hP => ?_⟩
  · rw [Bool.eq_iff_iff, hg, hp]
  · have htk : taken = true := hp.mpr hP
    subst htk
    refine jumps_from e hb ?_ he hh
    dsimp only
    rw [ht, if_pos rfl]
    rfl
  · have htk : taken = false := by
      cases taken
      · rfl
      · exact absurd (hp.mp rfl) hP
    subst htk
    refine completes_from e hb ?_ he hh
    dsimp only
    rw [ht, if_neg (by simp)]

/-- The return stack touched once, or left alone while prediction is barred. -/
theorem Core.pushRet_eq (k : Core) (a : Word) : k.pushRet a = k.withStack ((a :: k.rstack).take 8) := rfl
theorem Core.popRet_eq (k : Core) : k.popRet = k.withStack k.rstack.tail := rfl

theorem Core.withStack_haltReq (k : Core) (l : List Word) : (k.withStack l).haltReq = k.haltReq := by
  unfold Core.withStack
  split <;> rfl

theorem Core.withStack_rstack (k : Core) : k.withStack k.rstack = k := by
  unfold Core.withStack
  split <;> rfl

/-- A push on a stack that was touched before. -/
theorem Core.withStack_pushRet (k : Core) (l : List Word) (a : Word) : (k.withStack l).pushRet a = k.withStack ((a :: l).take 8) := by
  rw [Core.pushRet_eq]
  unfold Core.withStack
  by_cases hb : flag (k.reg .PRED_CTL) .PRED_CTL_BARRED = true
  · rw [if_pos hb, if_pos hb, if_pos hb]
  · rw [if_neg hb, if_neg hb]
    exact if_neg hb

/-- What JALR makes of the return stack (R60). -/
theorem Core.popPush (k : Core) (pops pushes : Prop) [Decidable pops] [Decidable pushes] (a : Word) :
    (if pushes then (if pops then k.popRet else k).pushRet a else if pops then k.popRet else k) =
      k.withStack (if pushes then (a :: if pops then k.rstack.tail else k.rstack).take 8 else if pops then k.rstack.tail else k.rstack) := by
  have hpop : (if pops then k.popRet else k) = k.withStack (if pops then k.rstack.tail else k.rstack) := by
    split
    · exact k.popRet_eq
    · exact k.withStack_rstack.symm
  rw [hpop]
  split
  · exact Core.withStack_pushRet _ _ _
  · rfl

/-- J (R59). -/
theorem completes_j {d : BitVec 26} (h : s.begins c {} = some u) :
    Completes (.j c d) s fun t => Ends u t c (u.core c) ((u.core c).pc + (d.signExtend 64 <<< 2)) :=
  jumps_from rfl h rfl (.refl u c) (begins_haltReq h)

theorem completes_jal {d : BitVec 26} (h : s.begins c { g := [26] } = some u) :
    Completes (.jal c d) s fun t => Ends u t c
      (((u.core c).withStack ((((u.core c).pc + 4) :: (u.core c).rstack).take 8)).writeG 26 ((u.core c).pc + 4))
      ((u.core c).pc + (d.signExtend 64 <<< 2)) := by
  have hk : ((u.core c).writeG 26 ((u.core c).pc + 4)).pushRet ((u.core c).pc + 4) =
      ((u.core c).withStack ((((u.core c).pc + 4) :: (u.core c).rstack).take 8)).writeG 26 ((u.core c).pc + 4) := by
    rw [Core.writeG_g _ (by decide) (by decide), Core.writeG_g _ (by decide) (by decide), Core.pushRet_eq]
    unfold Core.withStack
    split
    · rename_i hb
      rw [if_pos]
      exact hb
    · rename_i hb
      rw [if_neg]
      exact hb
  rw [← hk]
  exact jumps_from rfl h rfl ((Effect.first u c fun k => (k.writeG 26 ((u.core c).pc + 4)).pushRet ((u.core c).pc + 4)).event _ _)
    (by rw [hk, Core.writeG_haltReq, Core.withStack_haltReq]; exact begins_haltReq h)

end

section
variable {s u : State} {c : CoreId} {rd ra : RegNo} {imm : BitVec 16}

/-- The wrong path is taken only where a pop guessed another address (R60, R108). -/
theorem jalr_guess {pops barred : Bool} {l : List Word} {a : Word} (h : pops = false ∨ barred = true ∨ l.head?.getD a = a) :
    (pops && !barred && !l.isEmpty && !(pops && !barred && l.head? == some a)) = false := by
  rcases h with rfl | rfl | h
  · simp
  · simp
  · cases l with
    | nil => simp
    | cons b l =>
      have hb : b = a := h
      subst hb
      cases pops <;> cases barred <;> simp

/-- JALR writes its link, touches the return stack once, and goes to its target; after a wrong guess what the wrong path leaves
(R59, R60, R108). -/
theorem completes_jalr (h : s.begins c { g := [rd, ra], units := [0] } = some u) :
    let k := u.core c
    let target := (k.readG ra + imm.signExtend 64) &&& ~~~3#64
    let pops := (rd = 0 ∧ ra = 26 ∧ imm = 0) ∨ (rd = 26 ∧ ra = 26)
    let rest := if pops then k.rstack.tail else k.rstack
    let k' := (k.withStack (if rd = 26 then ((k.pc + 4) :: rest).take 8 else rest)).writeG rd (k.pc + 4)
    (¬ pops ∨ flag (k.reg .PRED_CTL) .PRED_CTL_BARRED = true ∨ k.rstack.head?.getD target = target →
      Completes (.jalr c rd ra imm) s fun t => Ends u t c k' target) ∧
    (∃ v, Core.KeepsRegs k' (v.core c) ∧ (∀ e, e ≠ c → Core.KeepsRegs (u.core e) (v.core e)) ∧
      Completes (.jalr c rd ra imm) s fun t => Ends v t c (v.core c) target) := by
  intro k target pops rest k'
  let k2 := (if rd = 26 then (if pops then k.popRet else k).pushRet (k.pc + 4) else if pops then k.popRet else k).writeG rd (k.pc + 4)
  have hk : k2 = k' := congrArg (Core.writeG · rd (k.pc + 4)) (k.popPush pops (rd = 26) (k.pc + 4))
  have hh : k'.haltReq = false := by
    unfold k'
    rw [Core.writeG_haltReq, Core.withStack_haltReq]
    exact begins_haltReq h
  let barred := flag (k.reg .PRED_CTL) .PRED_CTL_BARRED
  let right := decide pops && !barred && k.rstack.head? == some target
  let u1 := (u.setCore c k2).event c evJalr
  let u2 := if right then u1 else u1.event c evJalrWrong
  let u3 := if pops then u2.event c evPop else u2
  let u4 := if rd = 26 then u3.event c evPush else u3
  let bad := decide pops && !barred && !k.rstack.isEmpty && !right
  let u5 := if bad then u4.wrongPath c else u4
  have h4 : OnCore c (u.setCore c k2) u4 :=
    (OnCore.event _ _ _ _).trans ((OnCore.ite (.refl _ _) (.event _ _ _ _)).trans
      ((OnCore.ite (.event _ _ _ _) (.refl _ _)).trans (.ite (.event _ _ _ _) (.refl _ _))))
  have hc : (u.setCore c k2).core c = k' := (State.core_setCore _ _ _).trans hk
  constructor
  · intro hg
    have hbad : bad = false := jalr_guess (by simpa using hg)
    have h5 : u5 = u4 := if_neg (by simp [hbad])
    have he : Effect u (u5.traceInd c target) c k' := by
      rw [h5, ← hk]
      exact ((Effect.first u c fun _ => k2).onCore h4).onCore (.traceInd _ _ _)
    exact jumps_from rfl h rfl he hh
  · have s4 : State.Serves (u.setCore c k2) u4 := by
      have s1 : State.Serves (u.setCore c k2) u1 := .event (.refl _) _ _ _
      have s2 : State.Serves (u.setCore c k2) u2 := .ite s1 (s1.event _ _ _)
      have s3 : State.Serves (u.setCore c k2) u3 := .ite (s2.event _ _ _) s2
      exact .ite (s3.event _ _ _) s3
    have s5 : State.Serves (u.setCore c k2) u5 := .ite (s4.wrongPath _) s4
    have hs := (s5.core c).toStill
    rw [hc] at hs
    refine ⟨u5, hs.toKeepsRegs, fun e he => ?_, ?_⟩
    · have h1 := (s5.core e).toKeepsRegs
      rw [State.core_setCore_other _ he] at h1
      exact h1
    · exact jumps_from rfl h rfl ((Effect.refl u5 c).onCore (.traceInd _ _ _)) (hs.haltReq.trans hh)

end

/-- Settles O7: what a control transfer does besides its events is one register write, one touch of the return stack, and after a wrong
guess memory traffic (`State.Serves.wrongPath`). -/
theorem controlTransfers : Obligations.ControlTransfers := by
  unfold Obligations.ControlTransfers
  constructor
  · intro s u c ra rb h d hb
    simp only [branchRows, List.forall_mem_cons, List.not_mem_nil, false_implies, implies_true, and_true]
    refine ⟨completes_opBranch (p := fun a b => a == b) rfl hb (by simp), completes_opBranch (p := fun a b => a != b) rfl hb (by simp),
      completes_opBranch (p := fun a b => a.slt b) rfl hb (by simp [BitVec.slt]),
      completes_opBranch (p := fun a b => !a.slt b) rfl hb (by simp [BitVec.slt]),
      completes_opBranch (p := fun a b => a.ult b) rfl hb (by simp [BitVec.ult]),
      completes_opBranch (p := fun a b => !a.ult b) rfl hb (by simp [BitVec.ult])⟩
  · intro s u c rd ra imm d k link target target' pops rest k'
    refine ⟨completes_j, completes_jal, completes_jalr⟩

end Sys2Proof.Machine

/-! PROOFS. O8: prediction control, LSYNC and PREFETCH (R54, R61, R62). -/

namespace Sys2Proof.Machine

section
variable {x s : State}

theorem State.Serves.prefetchI (h : State.Serves x s) (c : Fin 64) (l : Level) (n : Nat) : State.Serves x (s.prefetchI c l n).2 := by
  have h1 := h.l1iGet c n l
  unfold State.prefetchI
  split
  · exact h
  · split
    · rename_i v hv; rw [hv] at h1; exact .addrErr h1 _ _ _ _ _
    · rename_i v _ hv; rw [hv] at h1; exact h1
end

section
variable {s u w : State} {c : CoreId} {n : Needs} {body : State → Ex} {i : Instr}

/-- An instruction whose effect is memory traffic goes on, and no register of any core changes. -/
theorem completes_serves (e : exec i s = ok (s.runInstr c n body)) (h : s.begins c n = some u)
    (hb : body u = .done w ((u.core c).pc + 4)) (hw : State.Serves u w) :
    Completes i s fun t => (t.core c).pc = seqNext (u.core c).pc ∧
      Core.KeepsRegs { u.core c with pc := seqNext (u.core c).pc } (t.core c) ∧ ∀ d, d ≠ c → Core.KeepsRegs (u.core d) (t.core d) := by
  obtain ⟨t, ht, g⟩ := completes_done e h hb (((hw.core c).haltReq).trans (begins_haltReq h))
  obtain ⟨hg, hf, -, hsp, hsys⟩ := (hw.core c).toKeepsRegs
  have hr := g.core.rest
  refine ⟨t, ht, g.pc, ⟨?_, ?_, g.pc, ?_, fun m hm => (g.core.sys m hm).trans (hsys m hm)⟩, fun d hd => ?_⟩
  · rw [hr]; exact hg
  · rw [hr]; exact hf
  · rw [hr]; exact hsp
  · rw [g.others d hd]
    exact (hw.core d).toKeepsRegs
end

section
variable {s u : State} {c : CoreId} {kind ra : RegNo} {imm : BitVec 16}

/-- PREFETCH of a kind above 2 (R62). -/
theorem completes_prefetch_none (h : s.begins c { g := [ra], units := [0] } = some u) (hk : 2 < kind.val) :
    Completes (.prefetch c kind ra imm) s fun t => GoesOn u t c (u.core c) (u.core c).pc :=
  completes_nop rfl h (if_pos hk)

/-- What PREFETCH does before it goes on is memory traffic (R62). -/
theorem completes_prefetch (h : s.begins c { g := [ra], units := [0] } = some u) :
    Completes (.prefetch c kind ra imm) s fun t => (t.core c).pc = seqNext (u.core c).pc ∧
      Core.KeepsRegs { u.core c with pc := seqNext (u.core c).pc } (t.core c) ∧ ∀ d, d ≠ c → Core.KeepsRegs (u.core d) (t.core d) := by
  suffices ∃ w, State.Serves u w ∧ _ = Ex.done w ((u.core c).pc + 4) by
    obtain ⟨w, hw, hb⟩ := this
    exact completes_serves rfl h hb hw
  dsimp only
  split
  · exact ⟨u, .refl u, rfl⟩
  · have h1 := (State.Serves.event (.refl u) c evPrefetch 1).translate c (u.core c).level ((u.core c).readG ra + immS imm)
      (if kind.val = 0 then .load else if kind.val = 1 then .store else .fetch) true
    split
    · rename_i t v hv
      rw [hv] at h1
      split
      · exact ⟨_, .event h1 _ _ _, rfl⟩
      · have h2 : State.Serves u (if kind.val = 2 then v.prefetchI c (u.core c).level (t.pa / 64)
            else v.prefetch c (u.core c).level (t.pa / 64) (kind.val == 1)).2 := by
          split
          · exact .prefetchI h1 _ _ _
          · exact .prefetch h1 _ _ _ _
        split
        · rename_i y hy; rw [hy] at h2; exact ⟨_, h2, rfl⟩
        · rename_i y hy; rw [hy] at h2; exact ⟨_, .event h2 _ _ _, rfl⟩
    · rename_i v _ hv
      rw [hv] at h1
      exact ⟨_, .event h1 _ _ _, rfl⟩
end

/-- Settles O8: what PREFETCH asks of the memory serves every core, and an LSYNC that begins finds no long operation in flight. -/
theorem predictionAndPrefetch : Obligations.PredictionAndPrefetch := by
  unfold Obligations.PredictionAndPrefetch
  refine ⟨fun s u c => ⟨fun h => ⟨?_, ?_, ?_⟩, fun h => ⟨(begins_at h).long rfl, completes_nop rfl h rfl⟩⟩, fun s u c kind ra imm h =>
    ⟨fun hk => completes_prefetch_none h hk, completes_prefetch h⟩⟩
  · exact completes_upd (f := fun k => { k with rstack := [] }) rfl h rfl rfl
  · exact completes_upd (f := fun k => { k.setFld .PRED_CTL [] .PRED_CTL_BARRED 1 with rstack := [] }) rfl h rfl rfl
  · exact completes_upd (f := fun k => { k.setFld .PRED_CTL [] .PRED_CTL_BARRED 0 with rstack := [] }) rfl h rfl rfl

end Sys2Proof.Machine

/-! PROOFS. O9: loads (R58). -/

namespace Sys2Proof.Machine

theorem OnCore.traceMem (c : CoreId) (s : State) (store : Bool) (ea : Word) (size : Nat) (v : Word) :
    OnCore c s (s.traceMem c store ea size v) := by
  unfold State.traceMem
  extract_lets h s1
  have h1 : OnCore c s s1 := .ite (.refl _ _) (.trace _ _ _)
  clear_value s1
  have h2 := h1.trans (.tracePre c s1)
  split
  · rename_i t ht; rw [ht] at h2; exact h2
  · rename_i t ht
    rw [ht] at h2
    exact .ite (h2.trans (.trace _ _ _)) h2

/-- An instruction that begins in u, keeps the cores still as far as v, and goes on after its effect on v. -/
theorem completes_after {s u v w : State} {c : CoreId} {k : Core} {n : Needs} {body : State → Ex} {i : Instr}
    (e : exec i s = ok (s.runInstr c n body)) (h : s.begins c n = some u) (hv : State.Still u v)
    (hb : body u = .done w ((v.core c).pc + 4)) (hw : Effect v w c k) (hk : k.haltReq = (v.core c).haltReq) :
    Completes i s fun t => GoesOn v t c k (v.core c).pc := by
  have hp := (hv.core c).pc
  rw [hp] at hb ⊢
  exact completes_from e h hb hw (hk.trans ((hv.core c).haltReq.trans (begins_haltReq h)))

theorem State.Still.readParts {x s : State} (h : State.Still x s) (c : Fin 64) (l : Level) (ps : List (Xlat × Nat)) (sh : Nat) :
    State.Still x (s.readParts c l ps sh).2 := by
  induction ps generalizing s sh with
  | nil => exact h
  | cons p ps ih =>
    obtain ⟨t, n⟩ := p
    have h1 := State.Still.loadBytes h c l t n true
    unfold State.readParts
    split
    · rename_i v y hy
      rw [hy] at h1
      have h2 := ih h1 (sh + n)
      split
      · rename_i w z hz; rw [hz] at h2; exact h2
      · exact h2
    · exact h1

/-- A load writes its destination as R58 and R44 give. -/
theorem Core.putLoad_eq_loaded (k : Core) (kd : LoadKind) (rd : RegNo) (v : Nat) : k.putLoad kd rd v = k.loaded kd rd v := by
  have hw (n : Nat) (hn : n ≤ 64) : (BitVec.ofNat 64 v).setWidth n = BitVec.ofNat n v := BitVec.setWidth_ofNat_of_le hn v
  cases kd <;> simp [Core.putLoad, Core.loaded, sext, boxS, hw]

theorem Core.putLoad_haltReq (k : Core) (kd : LoadKind) (rd : RegNo) (v : Nat) : (k.putLoad kd rd v).haltReq = k.haltReq := by
  cases kd with
  | flw | fld => rfl
  | _ => exact Core.writeG_haltReq _ _ _

theorem Core.writeG_pc (k : Core) (r : Fin 32) (v : Word) : (k.writeG r v).pc = k.pc := (Core.Begun.writeG k r v).pc

theorem Core.putLoad_pc (k : Core) (kd : LoadKind) (rd : RegNo) (v : Nat) : (k.putLoad kd rd v).pc = k.pc := by
  cases kd with
  | flw | fld => rfl
  | _ => exact Core.writeG_pc _ _ _

/-- What a load of a location that is not Device comes to (R58, R141): its checks pass and its bytes are read. -/
theorem loadAccess_some {u w : State} {c : CoreId} {kd : LoadKind} {ea : Word} {v : Nat} (h : u.loadAccess c kd ea = some (v, w)) :
    ∃ x ps y, u.checkAccess c (u.core c).level ea kd.size .load = (.ok (x :: ps), y) ∧ y.isDevice x.1 = false ∧
      (if (x :: ps).length = 2 then y.event c evSplitLoad else y).readParts c (u.core c).level (x :: ps) 0 = (.val v, w) := by
  unfold State.loadAccess at h
  dsimp only at h
  split at h
  · rename_i x ps y hy
    split at h
    · cases h
    · rename_i hd
      split at h
      · rename_i z w' hz
        cases h
        exact ⟨x, ps, y, hy, by simpa using hd, hz⟩
      · cases h
  · cases h

/-- A load whose bytes can be read (R58). -/
theorem completes_opLoad {s u w : State} {c : CoreId} {kd : LoadKind} {rd ra : RegNo} {imm : BitVec 16} {v : Nat} {n : Needs} {i : Instr}
    (hn : n = match kd with | .flw | .fld => { g := [ra], f := [rd], units := [0] } | _ => { g := [rd, ra], units := [0] })
    (e : exec i s = ok (s.opLoad c kd rd ra imm))
    (h : s.begins c n = some u) (hl : u.loadAccess c kd ((u.core c).readG ra + imm.signExtend 64) = some (v, w)) :
    Completes i s fun t => GoesOn w t c ((w.core c).loaded kd rd v) (w.core c).pc := by
  subst hn
  obtain ⟨x, ps, y, hy, hd, hp⟩ := loadAccess_some hl
  have hu : State.Still u w := by
    have h1 := (State.Serves.refl u).checkAccess c (u.core c).level ((u.core c).readG ra + imm.signExtend 64) kd.size .load
    rw [hy] at h1
    have h2 : State.Serves u (if (x :: ps).length = 2 then y.event c evSplitLoad else y) := .ite (.event h1 _ _ _) h1
    have h3 := State.Still.readParts h2.still c (u.core c).level (x :: ps) 0
    rw [hp] at h3
    exact h3
  rw [← Core.putLoad_eq_loaded]
  refine completes_after e h hu ?_ ((Effect.first w c fun k => k.putLoad kd rd v).onCore
    (.traceMem c _ false ((u.core c).readG ra + imm.signExtend 64) kd.size (BitVec.ofNat 64 v))) (Core.putLoad_haltReq _ _ _ _)
  dsimp only [immS]
  rw [hy]
  dsimp only
  rw [hd, hp]
  dsimp only [State.pcOf]
  rw [State.core_updCore, Core.putLoad_pc]
  rfl

/-- Settles O9: a load whose checks pass and whose bytes are read writes them in the form of its row. -/
theorem loadResults : Obligations.LoadResults := by
  unfold Obligations.LoadResults
  intro s u w c rd ra imm v p hp h hl
  simp only [loadRows, List.mem_cons, List.not_mem_nil, or_false] at hp
  rcases hp with rfl | rfl | rfl | rfl | rfl | rfl | rfl | rfl | rfl
  all_goals exact completes_opLoad rfl rfl h hl

end Sys2Proof.Machine

/-! PROOFS. O10: stores (R58, R143, R205). -/

namespace Sys2Proof.Machine
/-! ### The bytes of a buffered store in its sector (R8, R143) -/

theorem secBytes_testBit (d : BitVec 512) (off n j : Nat) : (secBytes d off n).testBit j = (decide (j < 8 * n) && d.getLsbD (8 * off + j)) := by
  have h256 (k : Nat) : 256 ^ k = 2 ^ (8 * k) := by rw [show 256 = 2 ^ 8 from rfl, ← Nat.pow_mul]
  rw [secBytes, h256, h256, Nat.testBit_mod_two_pow, Nat.testBit_div_two_pow, Nat.add_comm]
  rfl

/-- Bits j of bytes 0 to n of a merge. -/
theorem mergeBytes_upTo (old new : BitVec 512) (mask : BitVec 64) (n j : Nat) (hj : j < 512) :
    ((List.range n).foldl (fun d i => if mask.getLsbD i then
      (d &&& ~~~(0xff#512 <<< (8 * i))) ||| (new &&& (0xff#512 <<< (8 * i))) else d) old).getLsbD j =
      if j / 8 < n ∧ mask.getLsbD (j / 8) = true then new.getLsbD j else old.getLsbD j := by
  have hff (i : Nat) : (0xff#512 <<< (8 * i)).getLsbD j = decide (j / 8 = i) := by
    have hb : (0xff#512).getLsbD (j - 8 * i) = decide (j - 8 * i < 8) := by
      rw [show 0xff#512 = BitVec.ofNat 512 (2 ^ 8 - 1) from rfl, BitVec.getLsbD_ofNat, Nat.testBit_two_pow_sub_one, Bool.eq_iff_iff]
      simp
      omega
    rw [BitVec.getLsbD_shiftLeft, hb, Bool.eq_iff_iff]
    simp [hj]
    omega
  induction n with
  | zero => simp
  | succ n ih =>
    rw [List.range_succ, List.foldl_append, List.foldl_cons, List.foldl_nil]
    by_cases hm : mask.getLsbD n = true
    · rw [if_pos hm, BitVec.getLsbD_or, BitVec.getLsbD_and, BitVec.getLsbD_and, BitVec.getLsbD_not, hff, ih]
      by_cases hn : j / 8 = n
      · simp [hn, hm, hj]
      · have : j / 8 < n + 1 ↔ j / 8 < n := by omega
        simp [hn, hj, this]
    · rw [if_neg hm, ih]
      by_cases hn : j / 8 = n
      · simp [hn, hm]
      · have : j / 8 < n + 1 ↔ j / 8 < n := by omega
        simp [this]

theorem mergeBytes_getLsbD (old new : BitVec 512) (mask : BitVec 64) (j : Nat) (hj : j < 512) :
    (mergeBytes old new mask).getLsbD j = if mask.getLsbD (j / 8) then new.getLsbD j else old.getLsbD j := by
  have h : j / 8 < 64 := by omega
  simp [mergeBytes, mergeBytes_upTo _ _ _ _ _ hj, h]

/-- The byte mask of an entry of up to 8 bytes: its bytes, and no other. -/
theorem StoreEntry.placed_mask (e : StoreEntry) (hs : e.size ≤ 8) (i : Nat) (hi : i < 64) :
    e.placed.2.getLsbD i = decide (e.pa % 64 ≤ i ∧ i < e.pa % 64 + e.size) := by
  rw [StoreEntry.placed, if_neg (by omega), BitVec.getLsbD_ofNat, Nat.testBit_mul_two_pow, Nat.testBit_two_pow_sub_one,
    Bool.eq_iff_iff]
  simp [hi]
  omega

theorem StoreEntry.placed_data (e : StoreEntry) (hs : e.size ≤ 8) (j : Nat) (hj : 8 * (e.pa % 64) + j < 512) :
    e.placed.1.getLsbD (8 * (e.pa % 64) + j) = e.data.getLsbD j := by
  rw [StoreEntry.placed, if_neg (by omega), BitVec.getLsbD_shiftLeft]
  by_cases h : j < 64
  · simp [hj, show j < 512 by omega]
  · simp [BitVec.getLsbD_of_ge e.data j (by omega)]

/-- The bytes of a store read back as its data. -/
theorem secBytes_merged (e : StoreEntry) (old : BitVec 512) (hs : e.size ≤ 8) (hp : e.pa % 64 + e.size ≤ 64) :
    secBytes (mergeBytes old e.placed.1 e.placed.2) (e.pa % 64) e.size = e.data.toNat % 256 ^ e.size := by
  refine Nat.eq_of_testBit_eq fun j => ?_
  rw [secBytes_testBit, show 256 = 2 ^ 8 from rfl, ← Nat.pow_mul, Nat.testBit_mod_two_pow]
  by_cases hj : j < 8 * e.size
  · rw [mergeBytes_getLsbD _ _ _ _ (by omega), e.placed_mask hs _ (by omega), e.placed_data hs _ (by omega), if_pos (by simp; omega)]
    rfl
  · simp [hj]

/-- The other bytes of the sector stay. -/
theorem secBytes_merged_other (e : StoreEntry) (old : BitVec 512) (hs : e.size ≤ 8) {i : Nat} (hi : i < 64)
    (h : i < e.pa % 64 ∨ e.pa % 64 + e.size ≤ i) :
    secBytes (mergeBytes old e.placed.1 e.placed.2) i 1 = secBytes old i 1 := by
  refine Nat.eq_of_testBit_eq fun j => ?_
  rw [secBytes_testBit, secBytes_testBit]
  by_cases hj : j < 8
  · rw [mergeBytes_getLsbD _ _ _ _ (by omega), e.placed_mask hs _ (by omega), if_neg (by simp; omega)]
  · simp [hj]

/-! ### What drains leave of the store buffer (R205, R206) -/

section
variable {s t : State} {c : Fin 64}

/-- The oldest entry has left the store buffer. -/
theorem drainHead_sb (h : s.drainHead c = (true, t)) : (t.core c).sb = (s.core c).sb.tail := by
  have pop : ∀ v : State, ((v.updCore c fun k => { k with sb := k.sb.tail }).event c evDrain |>.core c).sb = (v.core c).sb.tail := by
    intro v
    rw [(OnCore.event c _ evDrain 1).core.rest, State.core_updCore]
  unfold State.drainHead at h
  split at h
  · rename_i hn
    cases h
    rw [hn, List.tail_nil]
  · rename_i e _ _
    dsimp only at h
    split at h
    · cases h
      rw [pop, State.core_updCore]
      exact ((State.Serves.refl s).openMram c e.pa |>.core c).tail
    · unfold State.headAck at h
      have h0 : ((s.headSend c e).core c).sb.tail = (s.core c).sb.tail := by
        unfold State.headSend
        split
        · rfl
        · rw [State.core_updCore]
          exact ((State.Serves.ite (.ucAsk (.refl s) _) (.refl s)).core c).tail
      have h1 := (State.Serves.refl (s.headSend c e)).ucWrite (quadOf c) (e.pa / 64) e.placed.1 e.placed.2 false e.cls c.val e.pid true
      split at h
      · rename_i v hv
        rw [hv] at h1
        cases h
        generalize hw : (v.updCore c fun k => { k with sb := k.sb.tail, ucwSent := false }).event c evDrain = w
        have h2 : (w.core c).sb = (v.core c).sb.tail := by
          rw [← hw, (OnCore.event c _ evDrain 1).core.rest, State.core_updCore]
        have h3 : ((w.openMram c e.pa).core c).sb = (w.core c).sb := by
          unfold State.openMram
          split
          · rw [State.core_updCore]
          · rfl
        rw [h3, h2]
        exact (h1.core c).tail.trans h0
      · cases h
    · have h1 := (State.Serves.refl s).storeCached c e
      split at h
      · rename_i v hv
        rw [hv] at h1
        cases h
        rw [pop]
        exact (h1.core c).tail
      · cases h

/-- The n oldest entries have left the store buffer. -/
theorem drainN_sb {n : Nat} (h : s.drainN c n = (true, t)) : (t.core c).sb = (s.core c).sb.drop n := by
  induction n generalizing s with
  | zero =>
    cases h
    rfl
  | succ n ih =>
    unfold State.drainN at h
    split at h
    · rename_i v hv
      rw [ih h, drainHead_sb hv, List.drop_tail]
    · cases h

theorem drainAll_sb (h : s.drainAll c = (true, t)) : (t.core c).sb = [] := by
  rw [drainN_sb h, List.drop_length]

/-- Draining a frame marks at most the head of the store buffer. -/
theorem drainFrameN_length {n : Nat} (h : s.drainFrameN c n = (true, t)) : (t.core c).sb.length = (s.core c).sb.length := by
  induction n generalizing s with
  | zero =>
    cases h
    rfl
  | succ n ih =>
    unfold State.drainFrameN at h
    split at h
    · cases h
      rfl
    · rename_i e rest _
      have h1 := (State.Serves.refl s).storeCached c e
      split at h
      · rename_i v hv
        rw [hv] at h1
        rw [ih h, State.core_updCore]
        exact (h1.core c).len
      · cases h

/-- A frame drains behind the store buffer, which is then empty; without a frame nothing happens. -/
theorem drainFrame_sb (h : s.drainFrame c = (true, t)) : (t.core c).sb = [] ∨ t = s := by
  unfold State.drainFrame at h
  split at h
  · cases h
    exact .inr rfl
  · split at h
    · rename_i v hv
      exact .inl (List.eq_nil_of_length_eq_zero ((drainFrameN_length h).trans (by rw [drainAll_sb hv, List.length_nil])))
    · cases h

/-- A store enters behind what is left of the older ones, youngest last. -/
theorem pushStore_sb {es : List StoreEntry} (h : s.pushStore c es = (true, t)) (hn : es.length ≤ 16) :
    ∃ older, older <:+ (s.core c).sb ∧ (t.core c).sb = older ++ es ∧ (t.core c).sb.length ≤ 16 := by
  unfold State.pushStore at h
  split at h
  · cases h
  · rename_i v hv
    split at h
    · cases h
    · rename_i w hw
      cases h
      have h1 : (v.core c).sb <:+ (s.core c).sb := by
        rcases drainFrame_sb hv with h1 | rfl
        · rw [h1]; exact List.nil_suffix
        · exact List.suffix_rfl
      refine ⟨(w.core c).sb, ?_, by rw [State.core_updCore], ?_⟩
      · rw [drainN_sb hw]
        exact (List.drop_suffix _ _).trans h1
      · rw [State.core_updCore, List.length_append, drainN_sb hw, List.length_drop]
        omega

/-- Where there is room and no frame, a store enters at once; a reservation on a sector it writes ends (R64). -/
theorem pushStore_room {es : List StoreEntry} (hf : (s.core c).frame = []) (hn : (s.core c).sb.length + es.length ≤ 16) :
    s.pushStore c es = (true, s.updCore c fun k =>
      { k with sb := k.sb ++ es, resv := if ∃ e ∈ es, k.resv = some (e.pa / 64) then none else k.resv }) := by
  have h0 : s.drainFrame c = (true, s) := by
    unfold State.drainFrame
    rw [hf]
    rfl
  unfold State.pushStore
  rw [h0]
  dsimp only
  rw [Nat.sub_eq_zero_of_le hn]
  simp only [State.drainN, List.any_eq_true, beq_iff_eq]
end

/-! ### Stores (R58, R143) -/

/-- A store whose checks pass, once it has entered the store buffer. -/
theorem completes_opStore {s u v w : State} {c : CoreId} {n n' : Needs} {size : Nat} {ra : RegNo} {imm : BitVec 16} {val : Core → Word}
    {parts : List (Xlat × Nat)} {i : Instr} (e : exec i s = ok (s.opStore c n' size ra imm val)) (hn : n = { n' with units := [0] })
    (h : s.begins c n = some u)
    (hc : u.checkAccess c (u.core c).level ((u.core c).readG ra + imm.signExtend 64) size .store = (.ok parts, v))
    (hp : v.pushStore c (v.storeEntries (u.core c).level ((u.core c).pid (u.core c).level) ((u.core c).cls (u.core c).level) parts
      ((val (u.core c)).toNat % 256 ^ size)) = (true, w)) :
    Completes i s fun t => GoesOn w t c (w.core c) (w.core c).pc := by
  subst hn
  have hv : State.Serves u v := by
    have h1 := (State.Serves.refl u).checkAccess c (u.core c).level ((u.core c).readG ra + imm.signExtend 64) size .store
    rw [hc] at h1
    exact h1
  have hw : State.Still u w := by
    have h1 := hv.still.pushStore c (v.storeEntries (u.core c).level ((u.core c).pid (u.core c).level)
      ((u.core c).cls (u.core c).level) parts ((val (u.core c)).toNat % 256 ^ size))
    rw [hp] at h1
    exact h1
  generalize ha : (if parts.length = 2 then w.event c evSplitStore else w) = a
  have h1 : OnCore c w a := by
    rw [← ha]
    exact .ite (.event _ _ _ _) (.refl _ _)
  generalize hb : (if parts.any fun p => a.isDevice p.1 then a.event c evDeviceStore else a) = b
  have h2 : OnCore c w b := by
    rw [← hb]
    exact .ite (h1.trans (.event _ _ _ _)) h1
  refine completes_after e h hw ?_ (((Effect.refl w c).onCore h2).onCore (.traceMem c b true ((u.core c).readG ra + imm.signExtend 64) size
    (BitVec.ofNat 64 ((val (u.core c)).toNat % 256 ^ size)))) rfl
  dsimp only [immS]
  rw [hc]
  dsimp only
  rw [hp]
  dsimp only [State.pcOf]
  rw [ha, hb, h2.pc]

/-- The first entry of a store, and the upper one of a split store, with the bytes of each (R143). -/
theorem storeEntries_parts (v : State) (k : Core) (x y : Xlat) (m n val : Nat) :
    ∀ parts ∈ [[(x, m)], [(x, m), (y, n)]], v.storeEntries k.level (k.pid k.level) (k.cls k.level) parts val =
      [v.storeEntry k x m val] ++ if parts.length = 2 then [v.storeEntry k y n (val / 256 ^ m)] else [] := by
  intro parts hp
  simp only [List.mem_cons, List.not_mem_nil, or_false] at hp
  rcases hp with rfl | rfl <;> rfl

/-- What each row of R58 does is the store of its bytes. -/
theorem storeRows_exec (s : State) (c : CoreId) (rb ra : RegNo) (imm : BitVec 16) (k : Core) :
    ∀ p ∈ storeRows c rb ra imm k, ∃ n' val, exec p.1 s = ok (s.opStore c n' p.2.2.1 ra imm val) ∧ p.2.1 = { n' with units := [0] } ∧
      p.2.2.2 = val k := by
  intro p hp
  simp only [storeRows, List.mem_cons, List.not_mem_nil, or_false] at hp
  rcases hp with rfl | rfl | rfl | rfl | rfl | rfl
  all_goals exact ⟨_, _, rfl, rfl, rfl⟩

/-- Settles O10: a store is at the end of its buffer, behind what is left of the older ones, and its merge changes its bytes only. -/
theorem storeResults : Obligations.StoreResults := by
  unfold Obligations.StoreResults
  refine ⟨fun s u v c rb ra imm x y m n p hp h parts hparts hc => ?_, fun e old hs he =>
    ⟨secBytes_merged e old hs he, fun i hi ho => secBytes_merged_other e old hs hi ho⟩⟩
  obtain ⟨n', val, he, hn, hval⟩ := storeRows_exec s c rb ra imm (u.core c) p hp
  extract_lets k w es
  have hes : v.storeEntries (u.core c).level ((u.core c).pid (u.core c).level) ((u.core c).cls (u.core c).level) parts
      ((val (u.core c)).toNat % 256 ^ p.2.2.1) = es := by
    rw [← hval]
    exact storeEntries_parts v (u.core c) x y m n w parts hparts
  have hlen : es.length ≤ 2 := by
    unfold es
    split <;> simp
  refine ⟨fun hf hroom => ?_, fun t ht => ?_⟩
  · have hp := pushStore_room hf hroom
    rw [← hes] at hp
    obtain ⟨z, hz, g⟩ := completes_opStore he hn h hc hp
    have g' := (Effect.first v c _).ends g
    rw [State.core_updCore, hes] at g'
    exact ⟨z, hz, g'⟩
  · rw [← hes] at ht
    obtain ⟨z, hz, g⟩ := completes_opStore he hn h hc ht
    rw [hes] at ht
    obtain ⟨older, ho, hsb, hl⟩ := pushStore_sb ht (hlen.trans (by decide))
    have hz' : (z.core c).sb = (t.core c).sb := by rw [g.core.rest]
    exact ⟨z, hz, g, older, ho, hz'.trans hsb, hz'.symm ▸ hl⟩

end Sys2Proof.Machine

/-! PROOFS. O11: LL and SC (R63 to R65). -/

namespace Sys2Proof.Machine

/-! ### The state in which an atomic acts (R63, R66) -/

section
variable {x s : State}

theorem State.Serves.atomAddr (h : State.Serves x s) (c : Fin 64) (ea : Word) (size : Nat) (a : Acc) :
    State.Serves x (s.atomAddr c ea size a).2 := by
  have h1 := h.translateFor c (s.core c).level ea a true false
  unfold State.atomAddr
  dsimp only
  split
  · rename_i t ht; rw [ht] at h1; exact h1
  · rename_i t ht; rw [ht] at h1; exact h1
  · rename_i t ht; rw [ht] at h1; exact .iteSnd h1 h1

theorem State.Still.drainStores (h : State.Still x s) (c : Fin 64) : State.Still x (s.drainStores c).2 := by
  have h1 := h.drainBuffers c
  unfold State.drainStores
  split
  · rename_i t ht; rw [ht] at h1; exact h1
  · rename_i t ht; rw [ht] at h1; exact h1

theorem State.Serves.atomOwn (h : State.Serves x s) (c : Fin 64) (pa : Nat) (write : Bool) : State.Serves x (s.atomOwn c pa write).2 := by
  have h1 := h.l1dGet c (pa / 64) (s.core c).level true
  unfold State.atomOwn
  split
  · rename_i t ht
    rw [ht] at h1
    dsimp only at h1 ⊢
    exact .setStWait h1 c _
  · rename_i t ht; rw [ht] at h1; exact .holdStore h1 _ _
  · rename_i t ht; rw [ht] at h1; exact .addrErr h1 _ _ _ _ _

theorem State.Still.atomWrite (h : State.Still x s) (c : Fin 64) (pa size : Nat) (v : Word) :
    State.Still x (s.atomWrite c pa size v) := by
  unfold State.atomWrite
  refine .upd (h.serves (.openMram (.l1dWrite (.refl s) _ _ _ _) _ _)) c _ ?_
  exact .of_buffers rfl
end

/-- Values of W forms are sign extended (R63). -/
theorem atomRet_eq (size v : Nat) : atomRet size v = atomValue size v := by
  have h : (BitVec.ofNat 64 v).setWidth 32 = BitVec.ofNat 32 v := BitVec.setWidth_ofNat_of_le (by decide) v
  simp only [atomRet, atomValue, sext, h]

/-- The reservation and the hold set alike on both sides. -/
theorem Core.Agrees.withResv {k k' : Core} (h : Core.Agrees k k') (r o : Option Nat) :
    Core.Agrees { k with resv := r, hold := o } { k' with resv := r, hold := o } := by
  refine ⟨?_, h.run, h.sys⟩
  conv => lhs; rw [h.rest]

/-- An instruction whose effect on v is w. -/
theorem completes_acts {s u v : State} {c : CoreId} {k : Core} {n : Needs} {body : State → Ex} {i : Instr}
    (e : exec i s = ok (s.runInstr c n body)) (h : s.begins c n = some u) (hv : State.Still u v) (hk : k.haltReq = (v.core c).haltReq)
    (hb : ∃ w x, body u = .done w (x + 4) ∧ x = (v.core c).pc ∧ Effect v w c k) :
    Completes i s fun t => GoesOn v t c k (v.core c).pc := by
  obtain ⟨w, x, hb, rfl, hw⟩ := hb
  exact completes_after e h hv hb hw hk

/-! ### LL and SC -/

section
variable {s u v w y : State} {c : CoreId} {rd ra rb : RegNo} {size : Nat} {t : Xlat} {ps : List (Xlat × Nat)} {ans : GetAns} {i : Instr}

/-- LL whose sector is obtained, or not answered for, and is not poisoned (R63, R64). -/
theorem completes_opLl (e : exec i s = ok (s.opLl c size rd ra)) (h : s.begins c { g := [rd, ra] } = some u)
    (ha : u.atomAddr c ((u.core c).readG ra) size .load = (.ok ((t, size) :: ps), v)) (hd : v.drainBuffers c = (true, w))
    (ho : w.atomOwn c t.pa false = (ans, y)) (hans : ans ≠ .wait) {sec : Sec} (hsec : sec = if ans = .err then {} else y.l1dSec c (t.pa / 64))
    (hp : sec.poison = false) :
    Completes i s fun z => GoesOn y z c
      { ((y.core c).writeG rd (atomValue size (secBytes sec.data (t.pa % 64) size))) with
        resv := some (t.pa / 64), hold := if ans = .err then none else some (t.pa / 64) } (y.core c).pc := by
  have h1 := (State.Serves.refl u).atomAddr c ((u.core c).readG ra) size .load
  rw [ha] at h1
  have h2 := State.Still.drainBuffers h1.still c
  rw [hd] at h2
  have h3 := h2.serves ((State.Serves.refl w).atomOwn c t.pa false)
  rw [ho] at h3
  generalize hr : secBytes sec.data (t.pa % 64) size = r
  have hg : y.gotSec c sec.data sec.poison (t.pa % 64) size = (.val r, y.event c evLoad) := by
    unfold State.gotSec
    rw [hp, ← hr]
    rfl
  rw [← atomRet_eq]
  refine completes_acts e h h3 (Core.writeG_haltReq _ _ _) ?_
  dsimp only
  rw [ha]
  dsimp only
  rw [hd]
  dsimp only
  rw [ho]
  have hl := OnCore.event c y evLoad 1
  cases ans with
  | wait => exact absurd rfl hans
  | ok | err =>
    subst hsec
    dsimp only [State.l1dSec] at hg ⊢
    rw [hg]
    dsimp only
    refine ⟨_, _, rfl, ?_, (((((Effect.refl y c).onCore hl).upd _ ((hl.core.writeG _ _).withResv _ _)).event _ _).onCore (.traceMem _ _ _ _ _ _))⟩
    unfold State.pcOf
    rw [(OnCore.event _ _ _ _).pc, State.core_updCore]
    exact (Core.writeG_pc _ _ _).trans hl.pc

/-- An SC that fails in y: it returns 1 and leaves no reservation (R64). -/
theorem Effect.scFail (y : State) (c : CoreId) (rd : RegNo) :
    Effect y (((y.updCore c fun k => { k.writeG rd 1 with resv := none }).event c evScFail).event c evAtomic) c
      { (y.core c).writeG rd 1 with resv := none } :=
  ((Effect.first y c fun k => { k.writeG rd 1 with resv := none }).event _ _).event _ _

/-- The state in which an SC reaches its data, and what it leaves of the registers (R66). -/
theorem opSc_still (ha : u.atomAddr c ((u.core c).readG ra) size .store = (.ok ((t, size) :: ps), v))
    (hd : v.drainStores c = (true, w)) : State.Still u w := by
  have h1 := (State.Serves.refl u).atomAddr c ((u.core c).readG ra) size .store
  rw [ha] at h1
  have h2 := State.Still.drainStores h1.still c
  rw [hd] at h2
  exact h2

section
variable (e : exec i s = ok (s.opSc c size rd ra rb)) (h : s.begins c { g := [rd, ra, rb] } = some u)
  (ha : u.atomAddr c ((u.core c).readG ra) size .store = (.ok ((t, size) :: ps), v)) (hd : v.drainStores c = (true, w))
include e h ha hd

/-- SC without a reservation on the sector (R64). -/
theorem opSc_fails_unreserved (hr : (w.core c).resv ≠ some (t.pa / 64)) :
    Completes i s fun z => GoesOn w z c { (w.core c).writeG rd 1 with resv := none } (w.core c).pc := by
  refine completes_acts e h (opSc_still ha hd) (Core.writeG_haltReq _ _ _) ⟨_, _, ?_, rfl, .scFail w c rd⟩
  dsimp only
  rw [ha]
  dsimp only
  rw [hd]
  exact if_pos hr

variable (hr : (w.core c).resv = some (t.pa / 64)) (ho : w.atomOwn c t.pa true = (ans, y))
include hr ho

/-- SC that loses its reservation before it owns the sector, or whose home does not answer (R64, R30). -/
theorem opSc_fails_owning (hf : (y.core c).resv ≠ some (t.pa / 64) ∨ ans = .err) :
    Completes i s fun z => GoesOn y z c { (y.core c).writeG rd 1 with resv := none } (y.core c).pc := by
  have hy := (opSc_still ha hd).serves ((State.Serves.refl w).atomOwn c t.pa true)
  rw [ho] at hy
  refine completes_acts e h hy (Core.writeG_haltReq _ _ _) ⟨_, _, ?_, rfl, .scFail y c rd⟩
  dsimp only
  rw [ha]
  dsimp only
  rw [hd]
  dsimp only
  rw [if_neg (not_not_intro hr), ho]
  cases ans with
  | err => rfl
  | ok | wait => exact if_pos (hf.resolve_right (by decide))

/-- SC that holds its reservation and owns the sector (R63). -/
theorem opSc_stores (hans : ans = .ok) (hy : (y.core c).resv = some (t.pa / 64)) :
    Completes i s fun z => let a := y.atomWrite c t.pa size ((w.core c).readG rb)
      GoesOn a z c { (a.core c).writeG rd 0 with resv := none } (a.core c).pc := by
  subst hans
  have h1 := (opSc_still ha hd).serves ((State.Serves.refl w).atomOwn c t.pa true)
  rw [ho] at h1
  refine completes_acts e h (h1.atomWrite c t.pa size ((w.core c).readG rb)) (Core.writeG_haltReq _ _ _) ?_
  dsimp only
  rw [ha]
  dsimp only
  rw [hd]
  dsimp only
  rw [if_neg (not_not_intro hr), ho]
  dsimp only
  rw [if_neg (not_not_intro hy)]
  refine ⟨_, _, rfl, ?_, ((Effect.first _ c fun k => { k.writeG rd 0 with resv := none }).event _ _).onCore (.traceMem _ _ _ _ _ _)⟩
  unfold State.pcOf
  rw [(OnCore.event _ _ _ _).pc, State.core_updCore]
  exact Core.writeG_pc _ _ _
end
end

/-- Settles O11: by the way of LL and of SC to their data; the drains, the translation and the ownership keep every register. -/
theorem loadReserveStoreConditional : Obligations.LoadReserveStoreConditional := by
  unfold Obligations.LoadReserveStoreConditional
  intro s u v w c rd ra rb t ps p hp
  simp only [List.mem_cons, List.not_mem_nil, or_false] at hp
  obtain ⟨hl, hs⟩ : exec p.2.1 s = ok (s.opLl c p.1 rd ra) ∧ exec p.2.2 s = ok (s.opSc c p.1 rd ra rb) := by
    rcases hp with rfl | rfl <;> exact ⟨rfl, rfl⟩
  constructor
  · intro h ha hd y ans ho hans sec hsec
    exact completes_opLl hl h ha hd ho hans rfl hsec
  · intro h ha hd fails
    refine ⟨fun hr => opSc_fails_unreserved hs h ha hd hr, fun hr y ans ho => ⟨fun hans hy => ?_, fun hy => ?_, fun hans => ?_⟩⟩
    · exact opSc_stores hs h ha hd hr ho hans hy
    · exact opSc_fails_owning hs h ha hd hr ho (.inl hy)
    · exact opSc_fails_owning hs h ha hd hr ho (.inr hans)

end Sys2Proof.Machine

/-! PROOFS. O12: CAS, SWAP and AMOADD (R63, R66). -/

namespace Sys2Proof.Machine

/-- What an atomic stores, if it stores. -/
def State.amoStore (w : State) (c : CoreId) (pa size : Nat) (v : Option Word) : State :=
  match v with
  | some x => w.atomWrite c pa size x
  | none => w

theorem State.Still.amoStore {x s : State} (h : State.Still x s) (c : Fin 64) (pa size : Nat) (v : Option Word) :
    State.Still x (s.amoStore c pa size v) := by
  cases v with
  | some y => exact h.atomWrite _ _ _ _
  | none => exact h

/-- What an atomic passes through to its data (R63, R66, R129). -/
theorem atomAccess_some {u w : State} {c : CoreId} {size : Nat} {ea : Word} {a : Acc} {t : Xlat} {ans : GetAns}
    (h : u.atomAccess c size ea a = some (t, ans, w)) :
    ∃ n ps v y, u.atomAddr c ea size a = (.ok ((t, n) :: ps), v) ∧ v.drainStores c = (true, y) ∧ y.atomOwn c t.pa true = (ans, w) ∧
      ans ≠ .wait := by
  unfold State.atomAccess at h
  split at h
  · rename_i x n ps v hv
    split at h
    · rename_i y hy
      split at h
      · cases h
      · rename_i r z hr ho
        cases h
        exact ⟨n, ps, v, y, hv, hy, ho, hr⟩
    · cases h
  · cases h

section
variable {s u w : State} {c : CoreId} {rd ra : RegNo} {size : Nat} {t : Xlat} {ans : GetAns} {i : Instr} {uses : List RegNo}
  {new : Core → Nat → Option Word}

/-- An atomic that reaches its data: it returns the old bytes and stores what its row says (R63). -/
theorem completes_opAmo (e : exec i s = ok (s.opAmo c size rd ra uses new)) (h : s.begins c { g := rd :: ra :: uses } = some u)
    (hx : u.atomAccess c size ((u.core c).readG ra) .rmw = some (t, ans, w)) {old : Nat}
    (hold : old = if ans = .err then 0 else w.l1dBytes c t.pa size) {v : Option Word} (hv : new (w.core c) old = v) :
    Completes i s fun z => let a := w.amoStore c t.pa size (if ans = .err then none else v)
      GoesOn a z c { (a.core c).writeG rd (atomValue size old) with
        resv := if (a.core c).resv = some (t.pa / 64) then none else (a.core c).resv } (a.core c).pc := by
  obtain ⟨n, ps, x, y, ha, hd, ho, hans⟩ := atomAccess_some hx
  have h1 := (State.Serves.refl u).atomAddr c ((u.core c).readG ra) size .rmw
  rw [ha] at h1
  have h2 := State.Still.drainStores h1.still c
  rw [hd] at h2
  have h3 := h2.serves ((State.Serves.refl y).atomOwn c t.pa true)
  rw [ho] at h3
  rw [← atomRet_eq]
  refine completes_acts e h (h3.amoStore c t.pa size (if ans = .err then none else v)) (Core.writeG_haltReq _ _ _) ?_
  dsimp only
  rw [ha]
  dsimp only
  rw [hd]
  dsimp only
  rw [ho]
  have hE (a : State) := ((Effect.first a c fun k => { k.writeG rd (atomRet size old) with
    resv := if k.resv = some (t.pa / 64) then none else k.resv }).event evAtomic 1)
  cases ans with
  | wait => exact absurd rfl hans
  | ok | err =>
    subst hold hv
    dsimp only [State.l1dBytes, State.l1dSec] at hE ⊢
    refine ⟨_, _, rfl, ?_, (hE _).onCore (.traceMem _ _ _ _ _ _)⟩
    unfold State.pcOf
    rw [(OnCore.event _ _ _ _).pc, State.core_updCore]
    exact Core.writeG_pc _ _ _
end

/-- Settles O12: CAS, SWAP and AMOADD are one atomic each, which differ in what it stores. -/
theorem atomicResults : Obligations.AtomicResults := by
  unfold Obligations.AtomicResults
  intro s u w c rd ra rb rx t ans size hs hx old b ends
  simp only [List.mem_cons, List.not_mem_nil, or_false] at hs
  rcases hs with rfl | rfl
  all_goals exact ⟨fun h => ⟨completes_opAmo rfl h hx rfl rfl, completes_opAmo rfl h hx rfl rfl⟩, fun h => completes_opAmo rfl h hx rfl rfl⟩

end Sys2Proof.Machine

/-! PROOFS. O13: barriers (R68, R72, R212). -/

namespace Sys2Proof.Machine

/-! ### What the drains of a barrier leave (R212) -/

section
variable {s w : State} {c : Fin 64}

/-- Drained buffers leave the store buffer empty. -/
theorem drainBuffers_sb (h : s.drainBuffers c = (true, w)) : (w.core c).sb = [] := by
  unfold State.drainBuffers at h
  split at h
  · rename_i v hv
    rcases drainFrame_sb h with h1 | rfl
    · exact h1
    · exact drainAll_sb hv
  · rename_i hn
    exact absurd h (hn w)

/-- Drained stores are out of the store buffer, and no Device store awaits its acknowledgement. -/
theorem drainStores_done (h : s.drainStores c = (true, w)) : (w.core c).sb = [] ∧ (w.core c).devOut = [] := by
  unfold State.drainStores at h
  split at h
  · rename_i v hv
    obtain ⟨hd, rfl⟩ := Prod.mk.inj h
    exact ⟨drainBuffers_sb hv, List.isEmpty_iff.mp hd⟩
  · cases h
end

theorem Core.Agrees.sb {k k' : Core} (h : Core.Agrees k k') : k'.sb = k.sb := by rw [h.rest]

theorem Core.Agrees.devOut {k k' : Core} (h : Core.Agrees k k') : k'.devOut = k.devOut := by rw [h.rest]

/-- How many entries of a store buffer FENCE.IO drains (R113): as far as the last Device store. -/
def deviceDepth (l : List StoreEntry) : Nat := (l.zipIdx.filter fun p => p.1.typ == .device).foldl (fun _ p => p.2 + 1) 0

theorem filter_device_zipIdx {l : List StoreEntry} (h : ∀ e ∈ l, e.typ ≠ .device) (n : Nat) :
    (l.zipIdx n).filter (fun p => p.1.typ == .device) = [] := by
  refine List.filter_eq_nil_iff.mpr fun p hp => ?_
  simpa using h p.1 (List.fst_mem_of_mem_zipIdx hp)

theorem deviceDepth_none {l : List StoreEntry} (h : ∀ e ∈ l, e.typ ≠ .device) : deviceDepth l = 0 := by
  rw [deviceDepth, filter_device_zipIdx h, List.foldl_nil]

theorem deviceDepth_last {a b : List StoreEntry} {e : StoreEntry} (he : e.typ = .device) (h : ∀ d ∈ b, d.typ ≠ .device) :
    deviceDepth (a ++ e :: b) = a.length + 1 := by
  have he' : (e.typ == MType.device) = true := by rw [he]; rfl
  rw [deviceDepth, List.zipIdx_append, List.filter_append, List.foldl_append, List.zipIdx_cons,
    List.filter_cons_of_pos (p := fun p : StoreEntry × Nat => p.1.typ == .device) he', filter_device_zipIdx h, List.foldl_cons, List.foldl_nil, Nat.zero_add]

/-! ### Barriers (R68, R72, R212) -/

section
variable {s u w : State} {c : CoreId} {i : Instr}

/-- A barrier that does no more than wait, and goes on in w. -/
theorem completes_barrier {n : Needs} {body : State → Ex} (e : exec i s = ok (s.runInstr c n body)) (h : s.begins c n = some u)
    (hw : State.Still u w) (hb : body u = .done w ((w.core c).pc + 4)) :
    Completes i s fun t => GoesOn w t c (w.core c) (w.core c).pc :=
  completes_after e h hw hb (.refl w c) rfl

/-- What completes after drained stores has none of them left. -/
theorem completes_drained {v : State} {k : Core} (h : Completes i s fun t => GoesOn v t c k (v.core c).pc) (hs : k.sb = []) (hd : k.devOut = []) :
    Completes i s fun t => GoesOn v t c k (v.core c).pc ∧ (t.core c).sb = [] ∧ (t.core c).devOut = [] := by
  obtain ⟨t, ht, g⟩ := h
  exact ⟨t, ht, g, g.core.sb.trans hs, g.core.devOut.trans hd⟩

theorem drainStores_still (hd : u.drainStores c = (true, w)) : State.Still u w := by
  have h := (State.Still.refl u).drainStores c
  rw [hd] at h
  exact h

/-- FENCE and FENCE.SL (R68, R212). -/
theorem completes_fences (h : s.begins c {} = some u) (hd : u.drainStores c = (true, w)) :
    (Completes (.fence c) s fun t => GoesOn w t c (w.core c) (w.core c).pc) ∧
      Completes (.fenceSl c) s fun t => GoesOn w t c (w.core c) (w.core c).pc := by
  have hb : (match u.drainStores c with
      | (true, s) => Ex.done s (s.pcOf c + 4)
      | (false, s) => .wait s) = .done w ((w.core c).pc + 4) := by
    rw [hd]
    rfl
  exact ⟨completes_barrier rfl h (drainStores_still hd) hb, completes_barrier rfl h (drainStores_still hd) hb⟩

/-- PSYNC with no MRAM sector open and no probe sent, or with its probe answered (R68, R218). -/
theorem completes_psync (h : s.begins c {} = some u) (hd : u.drainStores c = (true, w))
    (hp : ((w.core c).mramOpen = [] ∧ ∀ p ∈ w.probes, p.who ≠ c.val) ∨
      ∃ p, (w.probes.find? fun p => p.who == c.val) = some p ∧ p.answered = true) :
    Completes (.psync c) s fun t => GoesOn { w with probes := w.probes.filter fun p => p.who ≠ c.val } t c
      { w.core c with mramOpen := [] } (w.core c).pc := by
  have hv : State.Still u { w with probes := w.probes.filter fun p => p.who ≠ c.val } := ⟨(drainStores_still hd).core⟩
  refine completes_acts (v := { w with probes := w.probes.filter fun p => p.who ≠ c.val }) rfl h hv rfl
    ⟨_, _, ?_, rfl, .first _ c fun k => { k with mramOpen := [] }⟩
  dsimp only
  rw [hd]
  dsimp only
  rcases hp with ⟨ho, hn⟩ | ⟨p, hf, ha⟩
  · have hf : (w.probes.find? fun p => p.who == c.val) = none := by
      simpa [List.find?_eq_none] using hn
    rw [hf, ho]
    dsimp only [State.cleanOpen]
    rw [ho]
    exact if_pos rfl
  · rw [hf]
    exact if_pos ha

/-- FENCE.IO whose Device stores are drained and acknowledged (R68, R212). -/
theorem completes_fenceIo (h : s.begins c {} = some u) (hd : u.drainN c (deviceDepth (u.core c).sb) = (true, w)) (ho : (w.core c).devOut = []) :
    Completes (.fenceIo c) s fun t => GoesOn w t c (w.core c) (w.core c).pc := by
  have hw := (State.Still.refl u).drainN c (deviceDepth (u.core c).sb)
  rw [hd] at hw
  refine completes_barrier rfl h hw ?_
  dsimp only
  unfold deviceDepth at hd
  rw [hd]
  dsimp only
  rw [ho]
  rfl

/-- FENCE.I (R68, R72). -/
theorem completes_fenceI (h : s.begins c { all := true } = some u) (hd : u.drainAll c = (true, w)) :
    Completes (.fenceI c) s fun t => GoesOn w t c { w.core c with l1i := { (w.core c).l1i with frames := [] } } (w.core c).pc := by
  have hw := (State.Still.refl u).drainAll c
  rw [hd] at hw
  refine completes_acts rfl h hw rfl ⟨_, _, ?_, rfl, .first w c fun k => { k with l1i := { k.l1i with frames := [] } }⟩
  dsimp only
  rw [hd]
  rfl
end

/-- Settles O13: a barrier goes on once its drain is complete, and a complete drain leaves nothing of what it waited for. -/
theorem barriersComplete : Obligations.BarriersComplete := by
  unfold Obligations.BarriersComplete
  refine fun s u w c => ⟨fun h hd => ?_, fun h => ⟨fun hn ho => ?_, fun a e b hs he hb hd ho => ?_⟩, fun h hd => ?_⟩
  · obtain ⟨hs, ho⟩ := drainStores_done hd
    obtain ⟨hf, hl⟩ := completes_fences h hd
    refine ⟨completes_drained hf hs ho, completes_drained hl hs ho, fun hp => ?_⟩
    obtain ⟨t, ht, g⟩ := completes_psync h hd hp
    exact ⟨t, ht, g, g.core.sb.trans hs, g.core.devOut.trans ho⟩
  · refine completes_fenceIo h ?_ ho
    rw [deviceDepth_none hn]
    rfl
  · refine completes_fenceIo h ?_ ho
    rw [hs, deviceDepth_last he hb]
    exact hd
  · obtain ⟨t, ht, g⟩ := completes_fenceI h hd
    exact ⟨t, ht, g, g.core.sb.trans (drainAll_sb hd)⟩

end Sys2Proof.Machine

/-! PROOFS. O14: ZLINE and cache maintenance (R69 to R71). -/

namespace Sys2Proof.Machine

/-! ### Maintenance is memory traffic (R69, R70, R194, R196) -/

section
variable {x s : State}

theorem State.Serves.maint (h : State.Serves x s) (c : Fin 64) (n : Nat) (kind : MsgKind) : State.Serves x (s.maint c n kind).2 := by
  unfold State.maint
  extract_lets q k s1
  have h1 : State.Serves x s1 := .ucAsk h _
  have h2 := h1.collect fun m => m.kind == .done && m.quad == q && m.core == 192 + c.val && m.sec == n
  clear_value s1
  split
  · exact .addrErr h _ _ _ _ _
  · split
    · rename_i t ht; rw [ht] at h2; exact h2
    · rename_i t ht; rw [ht] at h2; exact .ite h2 (.l1iDropAll h2 n)

theorem Core.Serves.lostSector (k : Core) (l : Cache) (n : Nat) : Core.Serves k (Core.lostSector { k with l1d := l } n) := by
  unfold Core.lostSector
  exact .of_caches rfl

theorem State.Serves.swL1d (h : State.Serves x s) (c : Fin 64) (f : Nat) (op : SwOp) : State.Serves x (s.swL1d c f op) := by
  unfold State.swL1d
  split
  · exact h
  · have each : ∀ t (p : Nat × Sec), State.Serves x t → State.Serves x (match op with
        | .clean => t.l1dDown c p.1 .e
        | .flush => t.l1dDrop c p.1
        | .inval => (t.updCore c fun k => { k with l1d := k.l1d.updSec .l1 p.1 fun _ => {} }.lostSector p.1).updL2 (quadOf c)
            fun l => l.updSec .l2 p.1 fun x => { x with pres := x.pres &&& ~~~bitOf (c.val % 4) }) := by
      intro t p ht
      cases op with
      | clean => exact ht.l1dDown _ _ _
      | flush => exact ht.l1dDrop _ _
      | inval => exact .updL2 (.upd ht c _ (.lostSector _ _ _)) _ _
    have h1 := State.Serves.foldl h each
    exact .ite (h1 _) (.setL1d (h1 _) c _)

theorem State.Serves.swBack (h : State.Serves x s) (q f : Nat) : State.Serves x (s.swBack q f).2 := by
  unfold State.swBack
  split
  · exact h
  · rename_i fr _
    extract_lets busy dirty s1 s2 mask s3
    refine .iteSnd (.progress h _) (.iteSnd h (.iteSnd ?_ (.iteSnd (.progress h _) ?_)))
    · exact .foldl (.addrErr h _ _ _ _ _) (fun t p ht => ht.updL2 _ _) _
    · exact .progress (.send (.updQuad h _ _) _) _

theorem State.Serves.swGone (h : State.Serves x s) (q f : Nat) : State.Serves x (s.swGone q f) := by
  unfold State.swGone
  split
  · exact h
  · extract_lets s1 inner
    have h1 : State.Serves x s1 := .foldl h (fun t p ht => ht.updL2 _ _) _
    exact .ite h1 (.send (.updL2 h1 _ _) _)

theorem State.Serves.swL2 (h : State.Serves x s) (q f : Nat) (op : SwOp) : State.Serves x (s.swL2 q f op).2 := by
  have h1 := h.swBack q f
  cases op with
  | clean => exact h1
  | inval => exact h.swGone q f
  | flush =>
    unfold State.swL2
    dsimp only
    split
    · rename_i t ht; rw [ht] at h1; exact .swGone h1 q f
    · rename_i t ht; rw [ht] at h1; exact h1

theorem State.Serves.swL3 (h : State.Serves x s) (q f : Nat) (op : SwOp) : State.Serves x (s.swL3 q f op) := by
  unfold State.swL3
  split
  · exact h
  · refine .homeKick (.of_cores (.foldl h (fun t p ht => ?_) _) (State.l3Free_cores _ _ _)) _ _
    exact .pdqSync (.updL3 (.ite (ht.of_cores (State.writeBack_cores _ _ _ _)) ht) _ _) _ _

end

/-! ### ZLINE and maintenance -/

/-- The store of a ZLINE (R71). -/
def Core.zlineEntry (k : Core) (t : Xlat) : StoreEntry :=
  { pa := t.pa, size := 64, data := 0, typ := t.mt, lvl := k.level, pid := k.pid k.level, cls := k.cls k.level }

section
variable {s u v w : State} {c : CoreId} {ra : RegNo} {t : Xlat} {i : Instr} {xfn : Nat}

/-- ZLINE to a cached location (R71). -/
theorem completes_zline (h : s.begins c { g := [ra] } = some u)
    (ht : translateFor c (u.core c).level ((u.core c).readG ra &&& ~~~0x3F#64) .store true false u = (.ok t, v))
    (hp : v.pushStore c [(u.core c).zlineEntry t] = (true, w)) :
    Completes (.zline c ra) s fun z => GoesOn w z c (w.core c) (w.core c).pc := by
  have h1 := (State.Serves.refl u).translateFor c (u.core c).level ((u.core c).readG ra &&& ~~~0x3F#64) .store true false
  rw [ht] at h1
  have h2 := State.Still.pushStore h1.still c [(u.core c).zlineEntry t]
  rw [hp] at h2
  refine completes_after rfl h h2 ?_ ((Effect.refl w c).event evZline 1) rfl
  dsimp only
  rw [ht]
  unfold Core.zlineEntry at hp
  dsimp only
  rw [hp]
  rfl

/-- CLEAN, INVAL and FLUSH whose accesses complete (R69, R194). -/
theorem completes_opMaint {kind : MsgKind} {a : Acc} (e : exec i s = ok (s.opMaint c xfn kind a ra)) (h : s.begins c { g := [ra] } = some u)
    (hk : ¬ (kind = .inv ∧ (u.core c).level = .u)) (hm : u.maintAccess c kind a ((u.core c).readG ra) = some w) :
    Completes i s fun z => GoesOn w z c (w.core c) (w.core c).pc := by
  suffices State.Still u w ∧ _ = Ex.done w ((w.core c).pc + 4) from completes_barrier e h this.1 this.2
  dsimp only
  rw [if_neg hk]
  have h1 := (State.Serves.refl u).translate c (u.core c).level ((u.core c).readG ra) a false
  unfold State.maintAccess at hm
  split at hm
  · rename_i t v hv
    rw [hv] at h1 ⊢
    dsimp only at hm ⊢
    have h2 : State.Serves u (v.event c evMaint) := .event h1 _ _ _
    generalize v.event c evMaint = v at hm h2 ⊢
    split at hm
    · rename_i hm1
      cases hm
      rw [if_pos hm1]
      exact ⟨h2.still, rfl⟩
    · rename_i hm1
      rw [if_neg hm1]
      have h3 := h2.still.drainOver c (t.pa / 64 * 64) 64
      split at hm
      · rename_i y hy
        rw [hy] at h3 ⊢
        have h4 := State.Still.serves h3 ((State.Serves.refl y).maint c (t.pa / 64) kind)
        dsimp only
        split at hm
        · rename_i z hz
          cases hm
          rw [hz] at h4 ⊢
          have h5 : State.Serves z (if kind = .inv then z else z.openMram c t.pa) := .ite (.refl z) (.openMram (.refl z) _ _)
          refine ⟨State.Still.serves h4 h5, ?_⟩
          rw [(h5.core c).pc]
          rfl
        · cases hm
      · cases hm
  · cases hm

/-- What a set/way operation does to the frame that a legal descriptor names (R70, R196). -/
theorem opSw_frame {op : SwOp} {cache slice set way : Nat} {next : Word} (ho : ¬(cache = 0 ∨ 4 < cache))
    (hw : (if cache = 1 then some (if set < 64 ∧ way < 4 then u.swL1d c (set * 16 + way) op else u)
      else if cache = 2 then
        some (if set < 64 ∧ way < 4 then u.updCore c fun k => { k with l1i := k.l1i.setFrame (set * 16 + way) none } else u)
      else if cache = 3 then
        if set < 512 then match u.swL2 (quadOf c) (set * 16 + way) op with
          | (true, v) => some v
          | (false, _) => none
        else some u
      else some (u.swL3 slice (set * 16 + way) op)) = some w) :
    State.Serves u w ∧ (match (generalizing := false) cache with
      | 1 => if 64 ≤ set ∨ 4 ≤ way then Ex.done u next else .done (u.swL1d c (frameNo set way) op) next
      | 2 => if 64 ≤ set ∨ 4 ≤ way then .done u next
        else .done (u.updCore c fun k => { k with l1i := k.l1i.setFrame (frameNo set way) none }) next
      | 3 => if 512 ≤ set then .done u next
        else match u.swL2 (quadOf c) (frameNo set way) op with
          | (true, s) => .done s next
          | (false, s) => .wait s
      | _ => .done (u.swL3 slice (frameNo set way) op) next) = Ex.done w next := by
  have hf : frameNo set way = set * 16 + way := rfl
  have hin : (64 ≤ set ∨ 4 ≤ way) ↔ ¬(set < 64 ∧ way < 4) := by omega
  have hin3 : 512 ≤ set ↔ ¬ set < 512 := by omega
  obtain rfl | rfl | rfl | rfl : cache = 1 ∨ cache = 2 ∨ cache = 3 ∨ cache = 4 := by omega
  · cases hw
    simp only [hin, hf]
    split
    · exact ⟨.swL1d (.refl u) _ _ _, rfl⟩
    · exact ⟨.refl u, rfl⟩
  · cases hw
    simp only [hin, hf]
    split
    · exact ⟨.setL1i (.refl u) c _, rfl⟩
    · exact ⟨.refl u, rfl⟩
  · replace hw : (if set < 512 then match u.swL2 (quadOf c) (set * 16 + way) op with
        | (true, v) => some v
        | (false, _) => none
      else some u) = some w := hw
    have h1 := (State.Serves.refl u).swL2 (quadOf c) (set * 16 + way) op
    simp only [hin3, hf]
    split at hw
    · rename_i hb
      split at hw
      · rename_i v hv
        cases hw
        rw [hv] at h1
        exact ⟨h1, if_neg (not_not_intro hb)⟩
      · cases hw
    · rename_i hb
      cases hw
      exact ⟨.refl u, if_pos hb⟩
  · cases hw
    exact ⟨.swL3 (.refl u) _ _ _, rfl⟩

/-- The set/way operations with a descriptor that names no illegal value, at H (R70, R196). -/
theorem completes_opSw {op : SwOp} (e : exec i s = ok (s.opSw c xfn op ra)) (h : s.begins c { g := [ra] } = some u)
    (hl : (u.core c).level = .h) (hw : u.swAct c op ((u.core c).readG ra).toNat = some w) :
    Completes i s fun z => GoesOn w z c (w.core c) (w.core c).pc := by
  suffices State.Serves u w ∧ _ = Ex.done w ((u.core c).pc + 4) by
    refine completes_barrier e h this.1.still ?_
    rw [(this.1.core c).pc]
    exact this.2
  unfold State.swAct at hw
  dsimp only at hw ⊢
  generalize ((u.core c).readG ra).toNat = d at hw ⊢
  generalize d / 2 ^ 28 % 16 = cache at hw ⊢
  generalize d / 2 ^ 24 % 8 = slice at hw ⊢
  generalize d / 2 ^ 14 % 1024 = set at hw ⊢
  generalize d % 16 = way at hw ⊢
  split at hw
  · cases hw
  · rename_i hd
    have legal (h4 : (cache = 0 ∨ 4 < cache) ∨ ¬(slice ≠ 0 ∧ cache ≠ 4)) : ¬(d / 2 ^ 32 ≠ 0 ∨ d.testBit 27 = true ∨ d / 16 % 1024 ≠ 0 ∨
        ¬(cache = 0 ∨ 4 < cache) ∧ slice ≠ 0 ∧ cache ≠ 4) := by tauto
    split at hw
    · rename_i ho
      cases hw
      rw [if_neg (legal (.inl ho)), if_neg (not_not_intro hl), if_pos ho]
      exact ⟨.refl u, rfl⟩
    · rename_i ho
      split at hw
      · cases hw
      · rename_i h4
        rw [if_neg (legal (.inr h4)), if_neg (not_not_intro hl), if_neg ho]
        exact opSw_frame ho hw
end

/-- Settles O14: the accesses of maintenance are memory traffic, and the bodies of the rows are the model's accesses. -/
theorem cacheMaintenance : Obligations.CacheMaintenance := by
  unfold Obligations.CacheMaintenance
  refine fun s u v w c ra t h => ⟨fun ht hp => completes_zline h ht hp, fun hm => ?_, fun hl hm => ?_, fun hm => ?_, fun hl op hw => ?_⟩
  · exact completes_opMaint rfl h (by simp) hm
  · exact completes_opMaint rfl h (fun hk => hl hk.2) hm
  · exact completes_opMaint rfl h (by simp) hm
  · cases op with
    | clean | inval | flush => exact completes_opSw rfl h hl hw

end Sys2Proof.Machine

/-! PROOFS. O15: translation invalidation (R73 to R76). -/

namespace Sys2Proof.Machine

/-! ### Invalidations (R73 to R76) -/

/-- An invalidation takes entries out of the look-aside buffers only. -/
theorem Core.Serves.inval (k : Core) (v : Inval) : Core.Serves k (k.inval v) := by
  unfold Core.inval
  split
  · dsimp only
    split <;> exact .of_caches rfl
  · exact .of_caches rfl
  · exact .of_caches rfl

/-- Nothing that an invalidation selects is kept. -/
theorem mem_keepUnless {α : Type} {p : α → Bool} {m : SMap (Option α)} {e : Nat × Option α} (h : e ∈ keepUnless p m) {x : α} (hx : e.2 = some x) :
    p x = false := by
  have h1 := (List.mem_filter.mp h).2
  rw [hx] at h1
  simpa using h1

section
variable {k : Core} {v : Inval}

/-- TLBI leaves no entry that it selects in the TLBs. -/
theorem Core.inval_tlb (h : v.op = 0) : ∀ e ∈ (k.inval v).itlb ++ (k.inval v).dtlb ++ (k.inval v).l2tlb, ∀ x, e.2 = some x → v.hitsTlb x = false := by
  intro e he x hx
  have hk : (k.inval v).itlb = keepUnless v.hitsTlb k.itlb ∧ (k.inval v).dtlb = keepUnless v.hitsTlb k.dtlb ∧
      (k.inval v).l2tlb = keepUnless v.hitsTlb k.l2tlb := by
    unfold Core.inval
    rw [h]
    dsimp only
    cases v.w <;> exact ⟨rfl, rfl, rfl⟩
  obtain ⟨hi, hd, hl⟩ := hk
  rw [hi, hd, hl] at he
  rcases List.mem_append.mp he with he | he
  · rcases List.mem_append.mp he with he | he
    · exact mem_keepUnless he hx
    · exact mem_keepUnless he hx
  · exact mem_keepUnless he hx

/-- SLBI leaves no entry that it selects in the segment look-aside buffer. -/
theorem Core.inval_slb (h : v.op = 1) : ∀ e ∈ (k.inval v).slb, ∀ x, e.2 = some x → v.hitsSlb x = false := by
  unfold Core.inval
  rw [h]
  exact fun e he x hx => mem_keepUnless he hx

/-- WCINV leaves no entry that it selects in the walk cache. -/
theorem Core.inval_wc (h : v.op = 2) : ∀ e ∈ (k.inval v).wc, ∀ x, e.2 = some x → v.hitsWc x = false := by
  unfold Core.inval
  rw [h]
  exact fun e he x hx => mem_keepUnless he hx
end

section
variable {s u : State} {c : CoreId}

/-- The cores an invalidation goes to are told by the other cores alone. -/
theorem State.invalTargets_congr {t : State} (h : ∀ d, d ≠ c → t.core d = u.core d) : t.invalTargets c = u.invalTargets c := by
  unfold State.invalTargets
  refine List.filter_congr fun i hi => ?_
  by_cases hc : i = c.val
  · simp [hc]
  · have hd : Fin.ofNat 64 i ≠ c := by
      intro he
      rw [← he] at hc
      exact hc (Nat.mod_eq_of_lt (List.mem_range.mp hi)).symm
    rw [h _ hd]

/-- The invalidations on their way, beside what an effect does to its core. -/
theorem Effect.withInvals {w : State} {k : Core} (h : Effect u w c k) (r : List (Nat × Nat × Inval)) :
    Effect { u with remoteInv := r } { w with remoteInv := r } c k := by
  refine ⟨?_, h.others, h.core⟩
  conv => lhs; rw [h.frame]

theorem State.Still.finishInvals (h : State.Still s u) (p : Nat × Nat × Inval → Bool) : State.Still s (u.finishInvals p) := by
  have h1 : State.Serves u ((u.remoteInv.filter p).foldl (fun s r => s.updCore (Fin.ofNat 64 r.2.1) fun k => k.inval r.2.2) u) :=
    .foldl (.refl u) (fun t r ht => ht.upd _ _ (.inval _ _)) _
  exact ⟨(h.serves h1).core⟩

/-! ### TLBI, SLBI, WCINV and TLBSYNC -/

variable {rx ra : RegNo} {fl : BitVec 12} {op : Nat} {i : Instr}

/-- An invalidation with permitted flags at K or H: it completes on its own core, and without L it is sent to the others (R75, R76). -/
theorem completes_opInval (e : exec i s = ok (s.opInval c op rx ra fl)) (h : s.begins c { g := [rx, ra] } = some u)
    (hl : (u.core c).level ≠ .u) (hf : invalFlagsOk op fl = true) (hs : (u.core c).level = .k → fl.getLsbD 4 = false) :
    let v := (u.core c).invalOf op ((u.core c).readG rx) ((u.core c).readG ra) fl
    Completes i s fun t =>
      GoesOn { u with remoteInv := if fl.getLsbD 6 then u.remoteInv else u.remoteInv ++ (u.invalTargets c).map fun i => (c.val, i, v) }
        t c ((u.core c).inval v) (u.core c).pc := by
  intro v
  generalize hw : (u.updCore c fun k => k.inval v).event c evTlbInval = w
  have he : Effect u w c ((u.core c).inval v) := by
    rw [← hw]
    exact (Effect.first u c fun k => k.inval v).event _ _
  have hpc : (w.core c).pc = (u.core c).pc := by
    rw [← hw, (OnCore.event _ _ _ _).pc, State.core_updCore]
    exact (Core.Serves.inval _ _).pc
  have hr : w.remoteInv = u.remoteInv := by rw [he.frame]
  have ht : w.invalTargets c = u.invalTargets c := State.invalTargets_congr he.others
  have hk : ((u.core c).inval v).haltReq = false := (Core.Serves.inval _ _).haltReq.trans (begins_haltReq h)
  have hpriv : ¬((u.core c).level = .k ∧ fl.getLsbD 4 = true) := by
    rintro ⟨hk, h4⟩
    rw [hs hk] at h4
    cases h4
  refine completes_from e h ?_ (he.withInvals _) hk
  dsimp only
  rw [hf, if_neg (by decide), if_neg hl, if_neg hpriv]
  change (let w := (u.updCore c fun k => k.inval v).event c evTlbInval
    let w' := if fl.getLsbD 6 then w else { w with remoteInv := w.remoteInv ++ (w.invalTargets c).map fun i => (c.val, i, v) }
    Ex.done w' (w'.pcOf c + 4)) = _
  rw [hw, ← ht, ← hpc, ← hr]
  cases fl.getLsbD 6 <;> rfl

/-- TLBI with S at K (R129). -/
theorem exec_tlbi_privileged (h : s.begins c { g := [rx, ra] } = some u) (hf : invalFlagsOk 0 fl = true) (hk : (u.core c).level = .k)
    (h4 : fl.getLsbD 4 = true) (hi : (u.core c).irqReady = false) :
    exec (.tlbi c rx ra fl) s = .next (u.raise c { cause := 0x04, addr := wordX 0x3E 0 rx ra fl } (s.core c).pc) := by
  refine congrArg Host.Outcome.next ((runInstr_begun h).trans ?_)
  dsimp only
  rw [hf, if_neg (by decide), if_neg (by rw [hk]; decide), if_pos ⟨hk, h4⟩]
  dsimp only [privileged]
  unfold State.except
  rw [hi, if_neg (by decide), if_neg (by decide)]

/-- TLBSYNC at K or H (R73, R76). -/
theorem completes_tlbsync (h : s.begins c { all := true } = some u) (hl : (u.core c).level ≠ .u) :
    Completes (.tlbsync c) s fun t => (∀ r ∈ t.remoteInv, r.1 ≠ c.val) ∧
      GoesOn (u.finishInvals fun r => r.1 == c.val) t c ((u.finishInvals fun r => r.1 == c.val).core c) (u.core c).pc := by
  have hw := (State.Still.refl u).finishInvals fun r => r.1 == c.val
  obtain ⟨t, ht, g⟩ := completes_from (i := .tlbsync c) rfl h (if_neg hl) (.refl (u.finishInvals fun r => r.1 == c.val) c)
    ((hw.core c).haltReq.trans (begins_haltReq h))
  refine ⟨t, ht, fun r hr => ?_, g⟩
  rw [g.frame] at hr
  simpa using (List.mem_filter.mp hr).2
end

/-- Settles O15: what an invalidation does to its core leaves nothing it selects, and TLBSYNC leaves none of the core's on its way. -/
theorem translationInvalidation : Obligations.TranslationInvalidation := by
  unfold Obligations.TranslationInvalidation
  intro s u c rx ra fl hl
  refine ⟨?_, fun h hf hk h4 hi => exec_tlbi_privileged h hf hk h4 hi, fun h => completes_tlbsync h hl⟩
  intro p hp h hf hs v
  have he : exec p.2.2 s = ok (s.opInval c p.1 rx p.2.1 fl) := by
    simp only [List.mem_cons, List.not_mem_nil, or_false] at hp
    rcases hp with rfl | rfl | rfl <;> rfl
  obtain ⟨t, ht, g⟩ := completes_opInval he h hl hf hs
  have hr := g.core.rest
  refine ⟨t, ht, g, fun h0 => ?_, fun h1 => ?_, fun h2 => ?_⟩
  · rw [hr]
    exact Core.inval_tlb h0
  · rw [hr]
    exact Core.inval_slb h1
  · rw [hr]
    exact Core.inval_wc h2

end Sys2Proof.Machine

/-! PROOFS. O16: system registers and WFI (R77, R81, R14, R275). -/

namespace Sys2Proof.Machine

/-! ### What a write of a system register leaves of a debug halt (R79, R471) -/

section
variable {s u : State} {c : CoreId}

/-- Between two states a debug halt that is asked of a core stays as it was. -/
def State.SameHalt (c : CoreId) (s t : State) : Prop := (t.core c).haltReq = (s.core c).haltReq

theorem State.SameHalt.upd (s : State) (c : CoreId) (f : Core → Core) (hf : (f (s.core c)).haltReq = (s.core c).haltReq) :
    State.SameHalt c s (s.updCore c f) := by
  unfold State.SameHalt
  rw [State.core_updCore]
  exact hf

theorem State.SameHalt.toDist (h : State.SameHalt c s u) (x : Fin 64) (m : DistMsg) : State.SameHalt c s (u.toDist x m) := h

theorem State.SameHalt.coreEoi (s : State) (c : CoreId) (virt : Bool) (n : Nat) : State.SameHalt c s (s.coreEoi c virt n) := by
  unfold State.coreEoi
  refine .toDist (.upd s c _ ?_) _ _
  rfl

theorem State.SameHalt.declineStale (s : State) (c : CoreId) : State.SameHalt c s (s.declineStale c) := by
  unfold State.declineStale
  split
  · rfl
  · split
    · rfl
    · exact .upd s c (fun k => { k with voffer := none }) rfl

theorem State.SameHalt.sendResidency (s : State) (c : CoreId) : State.SameHalt c s (s.sendResidency c) :=
  State.SameHalt.declineStale (s.toDist c _) c

theorem State.SameHalt.sysEffect (s : State) (c : CoreId) (r : Reg) (idx : List Nat) (old new v : Word) :
    State.SameHalt c s (s.sysEffect c r idx old new v) := by
  unfold State.sysEffect
  split
  · exact .upd s c _ rfl
  · rfl
  · refine .upd s c _ ?_
    split <;> rfl
  · exact .coreEoi s c _ _
  · exact .coreEoi s c _ _
  · exact .sendResidency s c
  · exact .sendResidency s c
  · split
    · refine .upd s c _ ?_
      rfl
    · split
      · refine .upd s c _ ?_
        rfl
      · rfl
  · rfl

theorem State.SameHalt.sysStore (s : State) (c : CoreId) (r : Reg) (idx : List Nat) (new v : Word) :
    State.SameHalt c s (s.sysStore c r idx new v) := by
  unfold State.sysStore
  extract_lets k old new'
  refine (State.SameHalt.sysEffect _ c r idx old new' v).trans ?_
  rw [State.core_setCore]
  rfl

theorem State.SameHalt.sysModify (s : State) (c : CoreId) (r : Reg) (idx : List Nat) (f : Word → Word) (wo : Word) :
    State.SameHalt c s (s.sysModify c r idx f wo).2 := by
  unfold State.sysModify
  refine (State.SameHalt.sysStore _ c r idx _ _).trans (State.SameHalt.upd s c _ ?_)
  rfl

/-! ### MFS, MTS, MSSET, MSCLR -/

variable {rx ra : RegNo} {num : BitVec 12} {r : Reg} {idx : List Nat}

/-- MFS of a register that the level may access (R77, R81). -/
theorem completes_mfs (hc : sysCheck (u.core c).level num.toNat = .ok (r, idx))
    (h : s.begins c { g := [rx], all := mfsWaits num.toNat } = some u) (hb : (u.core c).evBarred r idx false = false) :
    Completes (.mfs c rx num) s fun t =>
      GoesOn u t c (((u.core c).setReg r idx (r.spec.afterRead ((u.core c).reg r idx) (BitVec.allOnes 64))).writeG rx (u.sysRead c r idx))
        (u.core c).pc := by
  refine completes_effect rfl h ?_ ((Effect.first u c fun k => k.setReg r idx (r.spec.afterRead (k.reg r idx) (BitVec.allOnes 64))).writeG
    rx (u.sysRead c r idx)) (Core.writeG_haltReq _ _ _)
  dsimp only
  rw [hc]
  dsimp only
  rw [hb, if_neg (by decide)]
  unfold State.doneG State.pcOf
  rw [State.core_updCore]
  rfl

/-- MTS of a register that the level may access (R77, R81). -/
theorem completes_mts (hc : sysCheck (u.core c).level num.toNat = .ok (r, idx)) (h : s.begins c { g := [ra], all := true } = some u)
    (hb : (u.core c).evBarred r idx true = false) :
    Completes (.mts c ra num) s fun t =>
      GoesOn (u.sysWrite c r idx ((u.core c).readG ra)) t c ((u.sysWrite c r idx ((u.core c).readG ra)).core c) (u.core c).pc := by
  refine completes_from rfl h ?_ (.refl (u.sysWrite c r idx ((u.core c).readG ra)) c)
    ((State.SameHalt.sysStore u c r idx _ _).trans (begins_haltReq h))
  dsimp only
  rw [hc]
  dsimp only
  rw [hb, if_neg (by decide)]

/-- MSSET and MSCLR of a register that the level may access (R77, R79). -/
theorem completes_opMs {i : Instr} {xfn : Nat} {f : Word → Word → Word} {set : Bool} (e : exec i s = ok (s.opMs c xfn rx ra num f set))
    (hc : sysCheck (u.core c).level num.toNat = .ok (r, idx)) (h : s.begins c { g := [rx, ra], all := true } = some u)
    (hb : (u.core c).evBarred r idx true = false) :
    let m := u.sysModify c r idx (fun old => f old ((u.core c).readG ra)) (if set then (u.core c).readG ra else 0)
    Completes i s fun t => m.1 = u.sysRead c r idx ∧ GoesOn m.2 t c ((m.2.core c).writeG rx m.1) (u.core c).pc := by
  intro m
  suffices Completes i s fun t => GoesOn m.2 t c ((m.2.core c).writeG rx m.1) (u.core c).pc by
    obtain ⟨t, ht, g⟩ := this
    exact ⟨t, ht, rfl, g⟩
  refine completes_from e h ?_ (Effect.first m.2 c fun k => k.writeG rx m.1)
    ((Core.writeG_haltReq _ _ _).trans ((State.SameHalt.sysModify u c r idx _ _).trans (begins_haltReq h)))
  dsimp only
  rw [hc]
  dsimp only
  rw [hb, if_neg (by decide)]

/-! ### WFI -/

/-- A core that an end leaves in WFI may go on at once (R275). -/
theorem Ends.wakeCheck {t : State} {k : Core} {npc : Word} {b : Bool} (g : Ends u t c k npc b) : Ends u (t.wakeCheck c) c k npc b := by
  unfold State.wakeCheck
  split
  · rename_i hw
    obtain ⟨hframe, hothers, hpc, hend, hcore⟩ := g
    have hk : k.run = .wfi := by
      rcases hcore.run with hr | ⟨hr, -⟩
      · exact hr.symm.trans hw.1
      · exact hr
    refine ⟨?_, fun d hd => (State.core_setCore_other _ hd _).trans (hothers d hd), ?_, ?_, ?_⟩
    · unfold State.updCore State.setCore
      conv => lhs; rw [hframe]
      rfl
    · rw [State.core_updCore]; exact hpc
    · rw [State.core_updCore]; exact hend
    · rw [State.core_updCore]
      refine ⟨?_, .inr ⟨hk, rfl⟩, hcore.sys⟩
      conv => lhs; rw [hcore.rest]
  · exact g

/-- WFI at K or H (R77, R275). -/
theorem completes_wfi (h : s.begins c { all := true } = some u) (hl : (u.core c).level ≠ .u) :
    Completes (.wfi c) s fun t => GoesOn u t c { u.core c with run := if (u.core c).wakes then .running else .wfi } (u.core c).pc :=
  completes_ok rfl (Ends.wakeCheck (runInstr_upd (f := fun k => { k with run := if k.wakes then .running else .wfi }) h (begins_pc h)
    (if_neg hl) rfl))
end

/-- Settles O16: the registers that an instruction may access are read and written by the model's own accesses, which ask no halt. -/
theorem systemRegisterAccess : Obligations.SystemRegisterAccess := by
  unfold Obligations.SystemRegisterAccess
  intro s u c rx ra num r idx k
  refine ⟨fun hc => ⟨fun h hb => completes_mfs hc h hb, fun h hb => completes_mts hc h hb, fun h hb => ⟨?_, ?_⟩⟩,
    fun h hl => completes_wfi h hl⟩
  · exact completes_opMs (f := fun old a => old ||| a) (set := true) rfl hc h hb
  · exact completes_opMs (f := fun old a => old &&& ~~~a) (set := false) rfl hc h hb

end Sys2Proof.Machine

/-! PROOFS. O17: taking an exception (R77, R128, R131 to R134). -/

namespace Sys2Proof.Machine

/-! ### What an entry leaves (R133, R134) -/

theorem OnCore.traceExc (c : CoreId) (s : State) (cause : Nat) (a b : Level) (pc handler : Word) :
    OnCore c s (s.traceExc c cause a b pc handler) := by
  unfold State.traceExc
  exact .ite (.refl _ _) (.trace _ _ _)

/-- A trap record is of system registers alone. -/
theorem Core.putRecord_rest (k : Core) (l : Level) (t : Trap) (info : Word) (p : Level) :
    k.putRecord l t info p = { k with sys := (k.putRecord l t info p).sys } := by
  have put (k' : Core) (h : k' = { k with sys := k'.sys }) (b : Prop) [Decidable b] (r : Reg) (v : Word) :
      (if b then k'.setReg r [] v else k') = { k with sys := (if b then k'.setReg r [] v else k').sys } := by
    split
    · unfold Core.setReg
      conv => lhs; rw [h]
    · exact h
  have set (k' : Core) (h : k' = { k with sys := k'.sys }) (r : Reg) (v : Word) : k'.setReg r [] v = { k with sys := (k'.setReg r [] v).sys } := by
    unfold Core.setReg
    conv => lhs; rw [h]
  have h0 := put k rfl (t.cause = 0x0F) .FPCAUSE t.fpcause
  unfold Core.putRecord
  dsimp only
  generalize (if t.cause = 0x0F then k.setReg .FPCAUSE [] t.fpcause else k) = k0 at h0 ⊢
  split
  · exact put _ (set _ (set _ (set _ (set _ h0 _ _) _ _) _ _) _ _) _ _ _
  · exact put _ (put _ (set _ (set _ (set _ (set _ h0 _ _) _ _) _ _) _ _) _ _ _) _ _ _

/-- A write of a stack pointer changes it and nothing else that an entry looks at. -/
theorem Core.setSp_rest (k : Core) (l : Level) (v : Word) : k.setSp l v = { k with sys := (k.setSp l v).sys, spH := (k.setSp l v).spH } := by
  cases l with
  | u | k => rfl
  | h => rfl

/-- An entry's record and stack pointer leave what else a boundary looks at. -/
theorem Core.putRecord_setSp (k : Core) (l m : Level) (t : Trap) (info x : Word) (p : Level) :
    ((k.putRecord l t info p).setSp m x).run = k.run ∧ ((k.putRecord l t info p).setSp m x).stepDue = k.stepDue ∧
      ((k.putRecord l t info p).setSp m x).haltReq = k.haltReq := by
  rw [Core.setSp_rest, Core.putRecord_rest]
  exact ⟨rfl, rfl, rfl⟩

theorem Core.entered_haltReq (k : Core) (l : Level) (t : Trap) (pc handler : Word) (pas : List Nat) :
    (k.entered l t pc handler pas).haltReq = k.haltReq :=
  (Core.putRecord_setSp k l l t t.info _ k.level).2.2

section
variable {s u v w : State} {c : CoreId} {l : Level} {t : Trap} {pc handler : Word} {pas : List Nat}

/-- The end of an entry whose checks passed, at a core that runs. -/
theorem finishEntry_ends {p : Level} (hr : (w.core c).run = .running) (hp : p = (w.core c).level) :
    Ends { w.forsake c with probes := w.probes.filter fun q => q.who ≠ c.val } (w.finishEntry c l t t.info p pc pas handler) c
      ((w.core c).entered l t pc handler pas) handler := by
  subst hp
  unfold State.finishEntry
  extract_lets y k0 old entries k1 base k2 ties st r k3 s1 s2 s3
  obtain ⟨hrun, hdue, -⟩ := Core.putRecord_setSp (w.core c) l l t t.info base (w.core c).level
  have hk : k3 = (w.core c).entered l t pc handler pas := by
    have h1 : k3 = { k3 with run := .running } := by
      have h2 : k3.run = .running := hrun.trans hr
      rw [← h2]
    have h3 : (if k2.stepDue && t.cause != 0x12 then [(l, base)] else []) =
        if (w.core c).stepDue = true ∧ t.cause ≠ 0x12 then [(l, base)] else [] := by
      rw [show k2.stepDue = (w.core c).stepDue from hdue]
      simp
    have h4 : ties = (k2.stepFrames.filter fun x => x != (l, base)) ++
        if (w.core c).stepDue = true ∧ t.cause ≠ 0x12 then [(l, base)] else [] := by rw [← h3]
    rw [h1]
    unfold k3
    rw [h4]
    rfl
  have hE : OnCore c s2 (if t.cause < 0x40 then s3.event c evException else s3.event c evInterrupt) :=
    (OnCore.traceExc c s2 _ _ _ _ _).trans (.ite (.event _ _ _ _) (.event _ _ _ _))
  have hc : s2.core c = k3 := State.core_setCore w c k3
  refine ⟨hE.frame, fun d hd => (hE.others d hd).trans (State.core_setCore_other w hd k3), ?_, ?_, ?_⟩
  · rw [hE.pc, hc]
  · rw [hE.seqEnd, hc]
  · rw [← hk, ← hc]
    exact hE.core

/-- What is settled once a trap is taken is nothing, where nothing is asked for. -/
theorem Ends.updCore_id {z : State} {k : Core} {npc : Word} {b : Bool} (g : Ends u z c k npc b) : Ends u (z.updCore c id) c k npc b := by
  obtain ⟨hframe, hothers, hpc, hend, hcore⟩ := g
  refine ⟨?_, fun d hd => (State.core_setCore_other _ hd _).trans (hothers d hd), ?_, ?_, ?_⟩
  · unfold State.updCore State.setCore
    conv => lhs; rw [hframe]
    rfl
  · rw [State.core_updCore]; exact hpc
  · rw [State.core_updCore]; exact hend
  · rw [State.core_updCore]; exact hcore

/-- Both levels' entries are the same once their checks pass (R138, R139). -/
theorem enter_taken (hd : s.drainFrame c = (true, v)) (hl : l ≠ .u) (hc : v.checkEntry c l t.cause = (.ok pas handler, w)) :
    s.enter c l t pc = .taken (w.finishEntry c l t t.info (s.core c).level pc pas handler) true := by
  unfold State.enter State.enterH
  dsimp only
  rw [hd]
  dsimp only
  cases l with
  | u => exact absurd rfl hl
  | k => rw [if_neg (by decide), hc]
  | h => rw [if_pos rfl, hc]

theorem Core.route_ne_u (k : Core) (cause : Nat) : k.route cause ≠ .u := by
  unfold Core.route
  dsimp only
  split
  · decide
  · split <;> decide
  · split <;> decide

theorem Core.Agrees.route {k k' : Core} (h : Core.Agrees k k') (cause : Nat) : k'.route cause = k.route cause := by
  unfold Core.route
  rw [h.level, h.reg .DELEG [] (by decide)]

/-- A trap raised where nothing is owed and no debug halt is asked, whose entry's checks pass (R128, R131 to R134). -/
theorem raise_ends (ho : (s.core c).owed = none) (hlong : (s.core c).long = none) (hrun : (s.core c).run = .running)
    (hh : (s.core c).haltReq = false) (hd : s.drainFrame c = (true, v))
    (hc : v.checkEntry c ((s.core c).route t.cause) t.cause = (.ok pas handler, w)) (hl : (w.core c).level = (s.core c).level) :
    Ends { w.forsake c with probes := w.probes.filter fun q => q.who ≠ c.val } (s.raise c t pc) c
      ((w.core c).entered ((s.core c).route t.cause) t pc handler pas) handler := by
  have h1 := (State.Still.refl s).drainFrame c
  rw [hd] at h1
  have h2 := State.Still.checkEntry h1 c ((s.core c).route t.cause) t.cause
  rw [hc] at h2
  obtain ⟨-, hr, hq, -, -⟩ := h2.core c
  have hwr : (w.core c).run = .running := by
    rcases hr with hr | ⟨-, hr⟩
    · exact hr.trans hrun
    · exact hr
  have g := finishEntry_ends (l := (s.core c).route t.cause) (t := t) (pc := pc) (handler := handler) (pas := pas) hwr hl.symm
  unfold State.raise State.longFinish
  rw [longEnd_none hlong]
  dsimp only
  rw [takeOwed_none ho]
  dsimp only [State.trapNow]
  rw [enter_taken hd (Core.route_ne_u _ _) hc]
  dsimp only
  generalize w.finishEntry c ((s.core c).route t.cause) t t.info (s.core c).level pc pas handler = z at g ⊢
  have hz : ((z.updCore c id).core c).haltReq = false := by
    rw [State.core_updCore, id, g.core.haltReq, Core.entered_haltReq]
    exact hq.trans hh
  rw [State.haltCheck_none _ _ hz]
  exact g.updCore_id
end

/-! ### Instructions that trap (R77, R128) -/

section
variable {s u v w : State} {c : CoreId} {n : Needs} {body : State → Ex} {i : Instr} {t : Trap} {x : State} {handler : Word} {pas : List Nat}

/-- An instruction that traps in x, of which only the counters differ from where it began, with no interrupt acceptable (R130). -/
theorem completes_trap (e : exec i s = ok (s.runInstr c n body) ∨ exec i s = ok ((s.runInstr c n body).wakeCheck c))
    (h : s.begins c n = some u) (hb : body u = .trap t x) (hx : OnCore c u x)
    (hlong : (u.core c).long = none) (hi : (u.core c).irqReady = false) (hd : x.drainFrame c = (true, v))
    (hc : v.checkEntry c ((u.core c).route t.cause) t.cause = (.ok pas handler, w)) (hl : (w.core c).level = (u.core c).level)
    {pc : Word} (hpc : pc = if t.cause = 0x10 ∨ t.cause = 0x11 ∨ t.cause = 0x12 then (u.core c).pc + 4 else (u.core c).pc) :
    Completes i s fun z => Ends { w.forsake c with probes := w.probes.filter fun q => q.who ≠ c.val } z c
      ((w.core c).entered ((u.core c).route t.cause) t pc handler pas) handler := by
  obtain ⟨-, -, hhalt, hlong', howed⟩ := (Core.Serves.of_agrees hx.core hx.pc).toStill
  have hxr : (x.core c).run = .running := by
    rcases hx.core.run with hr | ⟨-, hr⟩
    · exact hr.trans (begins_at h).running
    · exact hr
  have hroute := hx.core.route t.cause
  rw [← hroute] at hc ⊢
  suffices g : Ends { w.forsake c with probes := w.probes.filter fun q => q.who ≠ c.val } (s.runInstr c n body) c
      ((w.core c).entered ((x.core c).route t.cause) t pc handler pas) handler from
    e.elim (fun e => completes_ok e g) (fun e => completes_ok e g.wakeCheck)
  rw [runInstr_begun h, hb]
  dsimp only
  rw [begins_pc h, ← hpc]
  unfold State.except
  rw [hi, if_neg (by decide)]
  exact raise_ends (howed.trans (begins_at h).owed) (hlong'.trans hlong) hxr (hhalt.trans (begins_haltReq h)) hd hc
    (hl.trans hx.core.level.symm)

/-- What each row of the trapping instructions does: it traps, from a state that only its count of events tells from the first. -/
theorem trapRows_body (code : BitVec 12) :
    ∀ p ∈ trapRows c code u, ∃ body, (exec p.1 s = ok (s.runInstr c p.2.1 body) ∨ exec p.1 s = ok ((s.runInstr c p.2.1 body).wakeCheck c)) ∧
      body u = .trap p.2.2.2.1 p.2.2.1 ∧ OnCore c u p.2.2.1 ∧
      p.2.2.2.2 = if p.2.2.2.1.cause = 0x10 ∨ p.2.2.2.1.cause = 0x11 ∨ p.2.2.2.1.cause = 0x12 then (u.core c).pc + 4 else (u.core c).pc := by
  intro p hp
  unfold trapRows at hp
  dsimp only at hp
  rcases List.mem_append.mp hp with hp | hp
  · simp only [List.mem_cons, List.not_mem_nil, or_false] at hp
    rcases hp with rfl | rfl
    · exact ⟨_, .inl rfl, rfl, .event _ _ _ _, rfl⟩
    · exact ⟨_, .inl rfl, rfl, .refl _ _, rfl⟩
  · split at hp
    · rename_i hl
      simp only [List.mem_cons, List.not_mem_nil, or_false] at hp
      rcases hp with rfl | rfl | rfl | rfl
      · exact ⟨_, .inl rfl, if_pos hl, .refl _ _, rfl⟩
      · exact ⟨_, .inr rfl, if_pos hl, .refl _ _, rfl⟩
      · exact ⟨_, .inl rfl, if_pos hl, .refl _ _, rfl⟩
      · exact ⟨_, .inl rfl, if_pos hl, .refl _ _, rfl⟩
    · rename_i hl
      simp only [List.mem_cons, List.not_mem_nil, or_false] at hp
      subst hp
      exact ⟨_, .inl rfl, if_neg hl, .event _ _ _ _, rfl⟩
end

/-- Settles O17: each row traps where it began, and the entry's checks decide how the trap ends. -/
theorem trapEntry : Obligations.TrapEntry := by
  unfold Obligations.TrapEntry
  constructor
  · intro s u v w c code word pas handler hdec hlong hi p hp h hd hc hl
    obtain ⟨body, e, hb, hx, hpc⟩ : ∃ body, (exec p.1 s = ok (s.runInstr c p.2.1 body) ∨
        exec p.1 s = ok ((s.runInstr c p.2.1 body).wakeCheck c)) ∧ body u = .trap p.2.2.2.1 p.2.2.1 ∧
        OnCore c u p.2.2.1 ∧ p.2.2.2.2 = if p.2.2.2.1.cause = 0x10 ∨ p.2.2.2.1.cause = 0x11 ∨ p.2.2.2.1.cause = 0x12
          then (u.core c).pc + 4 else (u.core c).pc := by
      rcases List.mem_append.mp hp with hp | hp
      · exact trapRows_body code p hp
      · rw [List.mem_singleton] at hp
        subst hp
        refine ⟨fun s => illegal (word.setWidth 64) s, .inl ?_, rfl, .refl _ _, rfl⟩
        dsimp only [exec, execIllegalInstruction]
        rw [hdec]
        rfl
    exact completes_trap e h hb hx hlong hi hd hc hl hpc
  · intro s c word i hdec
    dsimp only [exec, execIllegalInstruction]
    rw [hdec]
    rfl

end Sys2Proof.Machine

/-! PROOFS. O6: floating-point traps (R97, R130, R140). -/

namespace Sys2Proof.Machine

/-! ### An acceptable interrupt at a boundary (R130, R140) -/

theorem longFinish_none {s : State} {c : CoreId} (hl : (s.core c).long = none) (ho : (s.core c).owed = none) : s.longFinish c = (true, s) := by
  unfold State.longFinish
  rw [longEnd_none hl]
  exact takeOwed_none ho

/-- At a boundary with an acceptable interrupt, where nothing comes before it, no instruction begins: the interrupt is taken. -/
theorem runInstr_interrupt {s : State} {c : CoreId} {n : Needs} {body : State → Ex} (hr : (s.core c).ready = true)
    (ht : s.traceStalled c = false) (hm : (s.core c).mcheck = false) (ho : (s.core c).owed = none) (hi : (s.core c).irqReady = true)
    (hl : (s.core c).long = none) : s.runInstr c n body = s.interrupt c := by
  have hb : s.boundary c = (false, s.interrupt c) := by
    simp [State.boundary, hm, ho, hi, longFinish_none hl ho]
  simp [State.runInstr, hr, ht, hb]

/-! ### The rows of the floating-point instructions, ordered (R96, R97) -/

/-- How a row is executed where its effect happens in u: with the needs that it names, and, when an exception that it can signal is
enabled, by delivering its result in order. -/
structure FpRow.RunsAs (p : FpRow) (s u : State) (c : CoreId) (n : Needs) (body : State → Ex) : Prop where
  exec : Machine.exec p.i s = ok (s.runInstr c n body)
  needs : s.begins c p.needs = some u → n = p.needs
  ordered : (u.core c).fpEnables &&& p.can ≠ 0 → ∃ can, body u = u.fpDone c p.d p.v.1 p.v.2 can

section
variable {s u : State} {c : CoreId} {i : Instr} {fd fa fb fx : RegNo} {rm : BitVec 5} {r : RMode} {single : Bool} {fn : Nat} {can : FFlags}

theorem runsAs_opF3 {units : List Nat} {can' : FFlags} {op : FFmt → RMode → Bool → FVal → FVal → Nat × FFlags}
    (hr : (u.core c).rmode rm = some r) (e : exec i s = ok (s.opF3 c fn single units fd fa fb rm can' op)) :
    ∃ n body, FpRow.RunsAs ⟨i, { f := [fd, fa, fb], units := units }, .f fd single,
      op (fmtOf single) r (u.core c).ufe ((u.core c).fval single fa) ((u.core c).fval single fb), can⟩ s u c n body := by
  refine ⟨_, _, e, fun h => ?_, fun _ => ⟨can', ?_⟩⟩
  · rw [begins_rmUnits h hr]
  · dsimp only
    rw [hr]
    rfl

theorem runsAs_opFcvtF (hr : (u.core c).rmode rm = some r) (e : exec i s = ok (s.opFcvtF c fn single fd fa rm)) :
    ∃ n body, FpRow.RunsAs ⟨i, { f := [fd, fa] }, .f fd single,
      (fmtOf single).convert r (u.core c).ufe ((u.core c).fval (!single) fa), can⟩ s u c n body := by
  refine ⟨_, _, e, fun _ => rfl, fun _ => ⟨if single then fNV ||| fOF ||| fUF ||| fNX else fNV, ?_⟩⟩
  dsimp only
  rw [hr]
  rfl

theorem runsAs_opFcvtI {w : Nat} (hr : (u.core c).rmode rm = some r) (e : exec i s = ok (s.opFcvtI c fn single w fd fa rm)) :
    ∃ n body, FpRow.RunsAs ⟨i, { f := [fa], g := [fd] }, .g fd,
      ((BitVec.ofInt 64 (toIntN w r ((u.core c).fval single fa)).1).toNat, (toIntN w r ((u.core c).fval single fa)).2), can⟩ s u c n body := by
  refine ⟨_, _, e, fun _ => rfl, fun _ => ⟨fNV ||| fNX, ?_⟩⟩
  dsimp only
  rw [hr]
  rfl

theorem runsAs_opFcvtFromI {w : Nat} (hr : (u.core c).rmode rm = some r) (e : exec i s = ok (s.opFcvtFromI c fn single w fd fa rm)) :
    ∃ n body, FpRow.RunsAs ⟨i, { f := [fd], g := [fa] }, .f fd single,
      (fmtOf single).ofInt r (((u.core c).readG fa).setWidth w).toInt, can⟩ s u c n body := by
  refine ⟨_, _, e, fun _ => rfl, fun _ => ⟨if single || w == 64 then fNX else 0, ?_⟩⟩
  dsimp only
  rw [hr]

theorem fpRounded_runsAs (hr : (u.core c).rmode rm = some r) :
    ∀ p ∈ fpRounded c fd fa fb rm r (u.core c), ∃ n body, FpRow.RunsAs p s u c n body := by
  simp only [fpRounded, List.forall_mem_cons, List.not_mem_nil, false_implies, implies_true, and_true]
  refine ⟨runsAs_opF3 (op := fun f r u a b => f.add r u a b) hr rfl, runsAs_opF3 (op := fun f r u a b => f.add r u a b) hr rfl,
    runsAs_opF3 (op := fun f r u a b => f.add r u a b.neg) hr rfl, runsAs_opF3 (op := fun f r u a b => f.add r u a b.neg) hr rfl,
    runsAs_opF3 (op := fun f r u a b => f.mul r u a b) hr rfl, runsAs_opF3 (op := fun f r u a b => f.mul r u a b) hr rfl,
    runsAs_opFcvtF hr rfl, runsAs_opFcvtF hr rfl,
    runsAs_opFcvtI hr rfl, runsAs_opFcvtI hr rfl, runsAs_opFcvtI hr rfl, runsAs_opFcvtI hr rfl, ?_, ?_,
    runsAs_opFcvtFromI (w := 32) hr rfl, runsAs_opFcvtFromI (w := 32) hr rfl⟩
  · rw [← BitVec.setWidth_eq ((u.core c).readG fa)]
    exact runsAs_opFcvtFromI (single := true) hr rfl
  · rw [← BitVec.setWidth_eq ((u.core c).readG fa)]
    exact runsAs_opFcvtFromI (single := false) hr rfl

/-- FDIV and FSQRT deliver in order when an exception that they can signal is enabled (R54, R96). -/
theorem fpLong_ordered {v : Nat} {fl : FFlags} (h : (u.core c).fpEnables &&& can ≠ 0) :
    u.fpLong c fn fd single v fl can = u.fpDone c (.f fd single) v fl can := by
  unfold State.fpLong
  exact if_pos h

theorem runsAs_opFdiv (hr : (u.core c).rmode rm = some r) (e : exec i s = ok (s.opFdiv c fn single fd fa fb rm)) :
    ∃ n body, FpRow.RunsAs ⟨i, { f := [fd, fa, fb], all := true, units := if (u.core c).fpEnables &&& allF ≠ 0 then [2] else [] },
      .f fd single, (fmtOf single).div r (u.core c).ufe ((u.core c).fval single fa) ((u.core c).fval single fb), allF⟩ s u c n body := by
  refine ⟨_, _, e, fun h => ?_, fun h => ⟨allF, ?_⟩⟩
  · rw [begins_divUnits h hr]
  · dsimp only
    rw [hr]
    exact fpLong_ordered h

theorem runsAs_opFsqrt (hr : (u.core c).rmode rm = some r) (e : exec i s = ok (s.opFsqrt c fn single fd fa rm)) :
    ∃ n body, FpRow.RunsAs ⟨i, { f := [fd, fa], all := true, units := if (u.core c).fpEnables &&& (fNV ||| fNX) ≠ 0 then [2] else [] },
      .f fd single, (fmtOf single).sqrt r (u.core c).ufe ((u.core c).fval single fa), fNV ||| fNX⟩ s u c n body := by
  refine ⟨_, _, e, fun h => ?_, fun h => ⟨fNV ||| fNX, ?_⟩⟩
  · rw [begins_divUnits h hr]
  · dsimp only
    rw [hr]
    exact fpLong_ordered h

theorem fpLongRows_runsAs (hr : (u.core c).rmode rm = some r) :
    ∀ p ∈ (fpLongRows c fd fa fb rm r (u.core c)).map (·.2), ∃ n body, FpRow.RunsAs p s u c n body := by
  simp only [fpLongRows, List.map_cons, List.map_nil, List.forall_mem_cons, List.not_mem_nil, false_implies, implies_true, and_true]
  exact ⟨runsAs_opFdiv hr rfl, runsAs_opFdiv hr rfl, runsAs_opFsqrt hr rfl, runsAs_opFsqrt hr rfl⟩

theorem fpPlain_runsAs : ∀ p ∈ fpPlain c fd fa fb fx (u.core c), ∃ n body, FpRow.RunsAs p s u c n body := by
  simp only [fpPlain, List.forall_mem_append, List.forall_mem_cons, List.not_mem_nil, false_implies, implies_true, and_true]
  refine ⟨⟨?_, ?_, ?_, ?_, ?_, ?_, ?_, ?_, ?_, ?_, ?_, ?_, ?_⟩, ?_, ?_, ?_, ?_, ?_, ?_, ?_, ?_, ?_, ?_, ?_, ?_, ?_⟩
  all_goals exact ⟨_, _, rfl, fun _ => rfl, fun _ => ⟨_, rfl⟩⟩

/-! ### The trap (R97) -/

/-- A result that signals an enabled exception is not delivered; of the state only a count of events may change. -/
theorem fpDone_traps {d : FDest} {v : Nat} {fl : FFlags} (hf : fl &&& (u.core c).fpEnables ≠ 0) :
    ∃ w, OnCore c u w ∧ u.fpDone c d v fl can = .trap { cause := 0x0F, fpcause := fl.setWidth 64 } w := by
  refine ⟨if (u.core c).fpEnables &&& can ≠ 0 then u.event c evOrderedFp else u, .ite (.event _ _ _ _) (.refl _ _), ?_⟩
  unfold State.fpDone
  exact if_pos hf

theorem FpRow.RunsAs.traps {p : FpRow} {n : Needs} {body : State → Ex} (g : p.RunsAs s u c n body) (h : s.begins c p.needs = some u)
    (hf : p.v.2 &&& (u.core c).fpEnables &&& p.can ≠ 0) (hi : (u.core c).irqReady = false) :
    ∃ w, OnCore c u w ∧ Machine.exec p.i s = .next (w.raise c { cause := 0x0F, fpcause := p.v.2.setWidth 64 } (s.core c).pc) := by
  obtain ⟨e, hn, ho⟩ := g
  obtain rfl := hn h
  have hcan : (u.core c).fpEnables &&& p.can ≠ 0 := fun hz => hf (by simp [BitVec.and_assoc, hz])
  have hen : p.v.2 &&& (u.core c).fpEnables ≠ 0 := fun hz => hf (by simp [hz])
  obtain ⟨can, hb⟩ := ho hcan
  obtain ⟨w, hw, ht⟩ := fpDone_traps (d := p.d) (v := p.v.1) (can := can) hen
  refine ⟨w, hw, e.trans (congrArg Host.Outcome.next ((runInstr_begun h).trans ?_))⟩
  rw [hb, ht]
  dsimp only
  unfold State.except
  rw [hi, if_neg (by decide), if_neg (by decide)]
end

/-- Settles O6: every row runs as `FpRow.RunsAs` says, so it traps in place of delivering, and not where an interrupt is taken. -/
theorem floatTrap : Obligations.FloatTrap := by
  unfold Obligations.FloatTrap
  intro s u c fd fa fb fx rm r hr p hp
  obtain ⟨n, body, g⟩ : ∃ n body, FpRow.RunsAs p s u c n body := by
    rcases List.mem_append.mp hp with hp | hp
    · rcases List.mem_append.mp hp with hp | hp
      · exact fpRounded_runsAs hr p hp
      · exact fpLongRows_runsAs hr p hp
    · exact fpPlain_runsAs p hp
  exact ⟨g.traps, fun hready ht hm ho hi hl =>
    g.exec.trans (congrArg Host.Outcome.next (runInstr_interrupt hready ht hm ho hi hl))⟩

end Sys2Proof.Machine

/-! PROOFS. O18: TRET returns through its frame (R140, R146). -/

namespace Sys2Proof.Machine

section
variable {s u v w : State} {c : CoreId} {l : Level} {sp ea : Word} {n : Nat} {done ws top gs : List Word}

/-- The reading of a frame keeps every core still (R140). -/
theorem State.Still.readFrame (h : State.Still u s) (c : Fin 64) (l : Level) (ea : Word) (n : Nat) (done : List Word) :
    State.Still u (s.readFrame c l ea n done).2 := by
  induction n generalizing s ea done with
  | zero => exact h
  | succ n ih =>
    have h1 := h.readDw c l ea
    unfold State.readFrame
    split
    · rename_i t ht; rw [ht] at h1; exact h1
    · rename_i t ht; rw [ht] at h1; exact h1
    · rename_i t ht; rw [ht] at h1; exact ih h1 _ _

/-- A frame that can be read gives as many doublewords as are asked for. -/
theorem readFrame_length (h : s.readFrame c l ea n done = (.ok ws, v)) : ws.length = done.length + n := by
  induction n generalizing s ea done with
  | zero =>
    cases h
    exact List.length_reverse
  | succ n ih =>
    unfold State.readFrame at h
    split at h
    · cases h
    · cases h
    · rw [ih h, List.length_cons]
      omega

/-- What TRET sets on its core, as its command does it: G1 to G8 one after the other, then the stack pointer and STATUS. -/
theorem Core.returned_frame (k : Core) (l : Level) (sp : Word) (htop : top.length = 2) :
    k.returned l sp (top ++ gs) =
      let k' := (List.range 8).foldl (fun k i => k.writeG (Fin.ofNat 32 (i + 1)) (gs.getD i 0)) k
      { ((k'.setSp l (sp + 80)).setReg .STATUS [] (statusBits (top.getD 1 0))) with
        resv := none, hold := none, stepDue := k'.stepFrames.contains (l, sp), stepFrames := k'.stepFrames.erase (l, sp) } := by
  obtain ⟨pc, st, rfl⟩ := List.length_eq_two.mp htop
  rfl

theorem Core.setSp_haltReq (k : Core) (l : Level) (x : Word) : (k.setSp l x).haltReq = k.haltReq := by
  rw [Core.setSp_rest]

theorem Core.returned_haltReq (k : Core) (l : Level) (sp : Word) (ws : List Word) : (k.returned l sp ws).haltReq = k.haltReq := by
  unfold Core.returned
  dsimp only
  rw [Core.setReg_haltReq, Core.setSp_haltReq]
  simp only [Core.writeG_haltReq]

/-- TRET, whose frame can be read and names no higher level (R140). -/
theorem completes_tret (h : s.begins c { all := true } = some u) (hl : l = (u.core c).level) (hsp : sp = (u.core c).sp l) (hu : l ≠ .u)
    (ha : sp.toNat % 16 = 0) (ht : u.readFrame c l sp 2 [] = (.ok top, v)) (hn : bits (top.getD 1 0) .STATUS_LEVEL ≤ l.toNat)
    (hg : v.readFrame c l (sp + 16) 8 [] = (.ok gs, w)) :
    Completes (.tret c) s fun t => Ends w t c ((w.core c).returned l sp (top ++ gs)) (top.getD 0 0 &&& ~~~3#64) := by
  subst hl hsp
  have htop : top.length = 2 := by simpa using readFrame_length ht
  have hlevel : ¬((u.core c).level.toNat < bits (top.getD 1 0) .STATUS_LEVEL ∨ bits (top.getD 1 0) .STATUS_LEVEL = 3) := by
    have h2 : (u.core c).level.toNat ≤ 2 := by cases (u.core c).level <;> decide
    omega
  have hstill : State.Still u w := by
    have h1 := (State.Still.refl u).readFrame c (u.core c).level ((u.core c).sp (u.core c).level) 2 []
    rw [ht] at h1
    have h2 := h1.readFrame c (u.core c).level ((u.core c).sp (u.core c).level + 16) 8 []
    rw [hg] at h2
    exact h2
  refine jumps_from rfl h ?_ (Effect.first w c fun k => k.returned (u.core c).level ((u.core c).sp (u.core c).level) (top ++ gs))
    ((Core.returned_haltReq _ _ _ _).trans ((hstill.core c).haltReq.trans (begins_haltReq h)))
  dsimp only
  rw [if_neg hu, if_neg (not_not_intro ha), ht]
  dsimp only
  rw [if_neg hlevel, hg]
  simp only [Core.returned_frame _ _ _ htop]
end

/-- Settles O18: the frame's ten doublewords are read in two parts, which keep the core still, and the effect is TRET's alone. -/
theorem trapReturn : Obligations.TrapReturn := by
  unfold Obligations.TrapReturn
  intro s u v w c top gs h l sp hu ha ht hn hg
  exact completes_tret h rfl rfl hu ha ht hn hg

end Sys2Proof.Machine

/-! PROOFS. O33: an interrupt is taken (R130, R132, R266, R267). -/

namespace Sys2Proof.Machine

theorem Core.running_of_ready {k : Core} (h : k.ready = true) : k.run = .running := by
  unfold Core.ready at h
  exact eq_of_beq (Bool.and_eq_true_iff.mp h).1

/-- No interrupt goes to U (R127, R132). -/
theorem Core.irqNext_ne_u {k : Core} {cause : Nat} {l : Level} (h : k.irqNext = some (cause, l)) : l ≠ .u := by
  have hlocal : ∀ p ∈ k.localCauses, p.2 ≠ .u := by
    have lvl (b : Bool) : (if b then Level.h else Level.k) ≠ .u := by cases b <;> decide
    intro p hp
    simp only [Core.localCauses, List.mem_append, List.mem_ite_nil_right, List.mem_singleton] at hp
    rcases hp with ((⟨-, rfl⟩ | ⟨-, rfl⟩) | ⟨-, rfl⟩) | ⟨-, rfl⟩
    · exact lvl _
    · exact lvl _
    · exact lvl _
    · decide
  have hm := List.mem_of_find?_eq_some h
  rcases List.mem_append.mp hm with hm | hm
  · rcases List.mem_append.mp hm with hm | hm
    · obtain ⟨-, rfl⟩ : cause = 0x40 ∧ l = .h := by simpa using (List.mem_ite_nil_right.mp hm).2
      decide
    · exact hlocal _ hm
  · obtain ⟨-, rfl⟩ : cause = 0x41 ∧ l = .k := by simpa using (List.mem_ite_nil_right.mp hm).2
    decide

/-- The acceptance of a cause asks for no debug halt. -/
theorem State.SameHalt.accepted (s : State) (c : CoreId) (cause : Nat) : State.SameHalt c s (s.accepted c cause) := by
  have take (virt : Bool) : State.SameHalt c s (s.takeOffer c virt) := by
    unfold State.takeOffer
    dsimp only
    split
    · rfl
    · refine .toDist (.upd s c (fun _ => _) ?_) _ _
      cases virt <;> rfl
  unfold State.accepted
  split
  · exact take false
  · split
    · exact take true
    · split
      · exact .upd s c _ rfl
      · rfl

section
variable {s v w : State} {c : CoreId} {cause : Nat} {l : Level} {pas : List Nat} {handler : Word} {o : Offer}

/-- An interrupt whose entry's checks pass is taken at a core that runs, and then accepted (R138, R267). -/
theorem interrupt_ends (hrun : (s.core c).run = .running) (hi : (s.core c).irqNext = some (cause, l)) (hd : s.drainFrame c = (true, v))
    (hc : v.checkEntry c l cause = (.ok pas handler, w)) (hl : (w.core c).level = (s.core c).level) (hh : (w.core c).haltReq = false) :
    ∃ x, s.interrupt c = x.accepted c cause ∧ Ends { w.forsake c with probes := w.probes.filter fun q => q.who ≠ c.val } x c
      ((w.core c).entered l { cause := cause } (s.core c).pc handler pas) handler := by
  have h1 := (State.Still.refl s).drainFrame c
  rw [hd] at h1
  have h2 := State.Still.checkEntry h1 c l cause
  rw [hc] at h2
  have g := finishEntry_ends (l := l) (t := { cause := cause }) (pc := (s.core c).pc) (handler := handler) (pas := pas)
    ((h2.core c).begun.run hrun) hl.symm
  refine ⟨_, ?_, g⟩
  unfold State.interrupt
  rw [hi]
  dsimp only
  rw [enter_taken (t := { cause := cause }) hd (Core.irqNext_ne_u hi) hc]
  dsimp only
  refine State.haltCheck_none _ _ ?_
  rw [State.SameHalt.accepted, g.core.haltReq, Core.entered_haltReq]
  exact hh

/-- At a boundary where nothing comes before it an acceptable interrupt is taken (R130). -/
theorem boundary_interrupt (hm : (s.core c).mcheck = false) (hlong : (s.core c).long = none) (ho : (s.core c).owed = none)
    (hi : (s.core c).irqReady = true) : s.boundary c = (false, s.interrupt c) := by
  simp [State.boundary, hm, ho, hi, longFinish_none hlong ho]

/-- INTERRUPT_ACCEPT at a boundary where an interrupt comes first takes it (R130). -/
theorem exec_interruptAccept (hr : (s.core c).ready = true) (ht : s.traceStalled c = false) (hm : (s.core c).mcheck = false)
    (hlong : (s.core c).long = none) (ho : (s.core c).owed = none) (hi : (s.core c).irqReady = true) :
    exec (.interruptAccept c) s = .next (s.interrupt c) := by
  have hn : (s.core c).irqNext.isNone = false := by
    rw [← Option.not_isSome]
    exact congrArg not hi
  show execInterruptAccept c s = _
  simp [execInterruptAccept, ok, hr, ht, hn, boundary_interrupt hm hlong ho hi]

/-- The acceptance of the physical offer held (R267). -/
theorem accepted_offer (h : (s.core c).offer = some o) : s.accepted c 0x40 =
    (s.setCore c { (((s.core c).setReg .IRQ_SRC [] (BitVec.ofNat 64 (o.pri * 2 ^ 16 + o.src))).setReg .IRQ_ACTPRI []
      ((s.core c).reg .IRQ_ACTPRI ||| (1#64 <<< o.pri))) with offer := none }).toDist c (.accept false o.src) := by
  unfold State.accepted State.takeOffer
  rw [if_pos rfl]
  dsimp only
  rw [if_neg (by decide), h]
  rfl
end

/-- Settles O33: the interrupt comes first at the boundary, its entry is a trap's, and the acceptance follows it. -/
theorem interruptAccepted : Obligations.InterruptAccepted := by
  unfold Obligations.InterruptAccepted
  intro s v w c cause l pas handler o k
  constructor
  · intro hr ht hm hlong ho hi hd hc hl hh
    exact completes_ok (exec_interruptAccept hr ht hm hlong ho (Option.isSome_of_eq_some hi))
      (interrupt_ends (Core.running_of_ready hr) hi hd hc hl hh)
  · intro ho u
    have hu := accepted_offer ho
    have hk : u.core c = _ := (congrArg (fun x => x.core c) hu).trans (State.core_setCore _ _ _)
    refine ⟨?_, ?_, ?_, ?_, ?_⟩
    · unfold u
      rw [hu]
      rfl
    · rw [hk]
    · rw [hk]
      exact (Core.reg_setReg_other _ _ _ _ _ _ (by decide)).trans (Core.reg_setReg _ _ _ _)
    · rw [hk]
      exact Core.reg_setReg _ _ _ _
    · unfold u
      rw [hu]
      rfl

end Sys2Proof.Machine

/-! PROOFS. O19: single stepping (R146). -/

namespace Sys2Proof.Machine

theorem Core.Agrees.stepDue {k k' : Core} (h : Core.Agrees k k') : k'.stepDue = k.stepDue := by rw [h.rest]

theorem Core.Agrees.stepFrames {k k' : Core} (h : Core.Agrees k k') : k'.stepFrames = k.stepFrames := by rw [h.rest]

/-- A write of STATUS leaves the stack pointers. -/
theorem Core.sp_setStatus (k : Core) (l : Level) (x : Word) : (k.setReg .STATUS [] x).sp l = k.sp l := by
  cases l with
  | u => exact Core.reg_setReg_other _ _ _ _ _ _ (by decide)
  | k => exact Core.reg_setReg_other _ _ _ _ _ _ (by decide)
  | h => rfl

/-- The step trap is owed once an instruction has ended. -/
theorem Ends.owesStep {u z : State} {c : CoreId} {k : Core} {npc : Word} {b : Bool} (g : Ends u z c k npc b) :
    Ends u (z.updCore c fun k => { k with stepDue := true }) c { k with stepDue := true } npc b := by
  have hcore : Core.Agrees { k with stepDue := true } { z.core c with stepDue := true } := by
    refine ⟨?_, g.core.run, g.core.sys⟩
    conv => lhs; rw [g.core.rest]
  have he := Effect.upd ⟨g.frame, g.others, g.core⟩ (fun k => { k with stepDue := true }) hcore
  refine ⟨he.frame, he.others, ?_, ?_, he.core⟩
  · rw [State.core_updCore]; exact g.pc
  · rw [State.core_updCore]; exact g.seqEnd

/-- An entry leaves no step trap owed in the handler; one that another entry came before is owed at the TRET of its frame. -/
theorem finishEntry_step (s : State) (c : CoreId) (l plevel : Level) (t : Trap) (info pc handler : Word) (pas : List Nat) :
    ((s.finishEntry c l t info plevel pc pas handler).core c).stepDue = false ∧
      ((l, ((s.finishEntry c l t info plevel pc pas handler).core c).sp l) ∈ ((s.finishEntry c l t info plevel pc pas handler).core c).stepFrames ↔
        (s.core c).stepDue = true ∧ t.cause ≠ 0x12) := by
  unfold State.finishEntry
  extract_lets k0 old entries k1 base k2 ties st r k3 s1 s2 s3
  have hE : OnCore c s2 (if t.cause < 0x40 then s3.event c evException else s3.event c evInterrupt) :=
    (OnCore.traceExc c s2 _ _ _ _ _).trans (.ite (.event _ _ _ _) (.event _ _ _ _))
  have hk := hE.core
  rw [show s2.core c = k3 from State.core_setCore s c k3] at hk
  have hsp : k3.sp l = base := (Core.sp_setStatus k2 l st).trans (Core.sp_setSp k1 l base)
  have hdue : k2.stepDue = (s.core c).stepDue := (Core.putRecord_setSp (s.core c) l l t info base plevel).2.1
  have hties : (l, base) ∈ ties ↔ (s.core c).stepDue = true ∧ t.cause ≠ 0x12 := by
    unfold ties
    rw [hdue]
    simp
  rw [hk.stepDue, hk.stepFrames, hk.sp l, hsp]
  exact ⟨rfl, hties⟩

/-- At a boundary with no long operation in flight where the step trap is owed, the first of R130's order is taken. -/
theorem boundary_stepDue {v : State} {c : CoreId} (hd : (v.core c).stepDue = true) (hl : (v.core c).long = none) (ho : (v.core c).owed = none) :
    (v.boundary c).2 =
      if (v.core c).mcheck then v.trapNow c { cause := 0x16 } (v.core c).pc fun k => { k with mcheck := false }
      else if (v.core c).irqReady then v.interrupt c
      else v.trapNow c { cause := 0x12, info := BitVec.ofNat 64 (2 ^ 19) } (v.core c).pc := by
  unfold State.boundary
  dsimp only
  rw [if_pos hd]
  split
  · rw [longEnd_none hl]
  · rw [if_neg (by simp [ho]), longFinish_none hl ho]
    unfold State.stepTrap
    rw [longFinish_none hl ho]
    split <;> rfl

/-- A single-stepped instruction has retired: its core goes on at the next address, where the step trap is owed (R146). -/
def State.stepped (s : State) (c : CoreId) (pc npc : Word) (seq : Bool) : State :=
  (((s.updCore c fun k =>
      { k with pc := if (seq && lastPc pc) = true then pc - BitVec.ofNat 64 (2 ^ 48 - 4) else npc, seqEnd := seq && lastPc pc }).event
    c evRetired).traceRetire c pc).updCore c fun k => { k with stepDue := true }

/-- The retirement of a single-stepped instruction: what a core that still runs owes at its new boundary is taken at once. -/
theorem retire_stepped (s : State) (c : CoreId) (pc npc : Word) (seq : Bool) :
    s.retire c pc npc true seq = if ((s.stepped c pc npc seq).core c).run ≠ .running then (s.stepped c pc npc seq).haltCheck c
      else ((s.stepped c pc npc seq).boundary c).2 := by
  have h : s.retire c pc npc true seq = if ((s.stepped c pc npc seq).core c).run == .running then ((s.stepped c pc npc seq).boundary c).2
      else (s.stepped c pc npc seq).haltCheck c := rfl
  rw [h]
  by_cases hr : ((s.stepped c pc npc seq).core c).run = .running <;> simp [hr]

/-- Behind the last word of a segment's offset space its first comes next (R150). -/
theorem stepped_ends (s : State) (c : CoreId) (pc npc : Word) (seq : Bool) :
    Ends s (s.stepped c pc npc seq) c { s.core c with stepDue := true } (if seq = true ∧ lastPc pc = true then seqNext pc else npc)
      (seq && lastPc pc) := by
  have h : (if seq = true ∧ lastPc pc = true then seqNext pc else npc) =
      if (seq && lastPc pc) = true then pc - BitVec.ofNat 64 (2 ^ 48 - 4) else npc := by
    by_cases hl : lastPc pc = true <;> simp [seqNext, hl]
  rw [h]
  exact (OnCore.retire _ c pc).ends.owesStep

theorem stepped_stepDue (s : State) (c : CoreId) (pc npc : Word) (seq : Bool) : ((s.stepped c pc npc seq).core c).stepDue = true :=
  congrArg Core.stepDue (State.core_updCore _ _ _)

/-- Settles O19: a stepped instruction owes its trap at the boundary where it goes on, and an entry passes it to its frame. -/
theorem singleStep : Obligations.SingleStep := by
  unfold Obligations.SingleStep
  constructor
  · intro s c pc npc seq hl ho next
    have hv := stepped_ends s c pc npc seq
    have hlong : ((s.stepped c pc npc seq).core c).long = none := by rw [hv.core.rest]; exact hl
    have howed : ((s.stepped c pc npc seq).core c).owed = none := by rw [hv.core.rest]; exact ho
    refine ⟨_, hv, (retire_stepped s c pc npc seq).trans ?_⟩
    rw [boundary_stepDue (stepped_stepDue s c pc npc seq) hlong howed, hv.pc]
  · exact fun s c l plevel t info pc handler pas => finishEntry_step s c l plevel t info pc handler pas

end Sys2Proof.Machine

/-! PROOFS. O26 and O27: requests and packets of the coherence protocol (R185, R186, R194). -/

namespace Sys2Proof.Machine

/-! ### A block in two frames of a set -/

/-- An L3 in which two frames of a set hold block 0, each with data in sector 0. A look-up meets the first of them. -/
def twiceHeld : Cache :=
  { frames := [(0, some { block := 0, secs := [(0, { dv := true })] }), (1, some { block := 0, secs := [(0, { dv := true })] })],
    ready := true }

/-- The home slice 0 and the router of its stop are on, and its L3 holds block 0 so. -/
def twiceHeldState : State := { pdOn := [0, 83, 91], homes := [(0, { l3 := twiceHeld })] }

/-- Quad 0 may send an INV of sector 0, and the home takes it up at once. -/
theorem twiceHeldState_takes : twiceHeldState.takes { kind := .inv, quad := 0, toHome := true, sec := 0 } where
  asks := rfl
  up := by decide +kernel
  ready := rfl
  path := fun _ hp => nomatch hp
  idle := ⟨rfl, rfl⟩
  quota := by decide +kernel
  fill := .inr (by decide +kernel)

/-- The INV frees the first of the two frames, and from then on a look-up meets the second. -/
theorem twiceHeldState_inv :
    let t := twiceHeldState.request { kind := .inv, quad := 0, toHome := true, sec := 0, cls := twiceHeldState.stopCls 0 }
    ((t.home 0).l3.secD .l3 0).dv = true := by
  decide +kernel

/-- Refutes O26: the statement is about every state, also one in which two frames of a set of the L3 hold one block. INV frees the first
of them, and the sector is valid afterwards in the second, where the statement has it not valid. What it lacks is the hypothesis that no
two frames hold a block; nothing here says that a run reaches such a state. -/
theorem not_coherenceRequests : ¬ Obligations.CoherenceRequests := by
  unfold Obligations.CoherenceRequests
  intro h
  obtain ⟨-, -, -, -, -, -, hmaint⟩ := h twiceHeldState 0 0 0 0 0 0
  obtain ⟨hclean, -, -⟩ := hmaint (.inv, .snpIdiscard, .inv 0 0) (by simp) twiceHeldState_takes
  obtain ⟨t, ht, -, -, -, -, -, hdv⟩ := hclean (by decide +kernel) (.inr rfl)
  injection ht with ht
  have hvalid := twiceHeldState_inv
  rw [← ht] at hdv
  exact absurd (hvalid.symm.trans hdv) (by decide +kernel)

/-- The home of `twiceHeldState` works on an INV of quad 0, whose last snoop quad 1 has acknowledged. -/
def twiceHeldAsked : State :=
  { twiceHeldState with
    homes := [(0, { l3 := twiceHeld, trans := [{ req := { kind := .inv, quad := 0, toHome := true, sec := 0 }, snoops := [(0, 1)] }] })],
    net := [{ kind := .ack, quad := 1, toHome := true, sec := 0 }] }

theorem twiceHeldAsked_lands : twiceHeldAsked.lands { twiceHeldAsked with net := [] } { kind := .ack, quad := 1, toHome := true, sec := 0 }
    { kind := .ack, quad := 1, toHome := true, sec := 0 } where
  inFlight := by decide +kernel
  first := by decide +kernel
  ready := rfl
  taken := by decide +kernel

theorem twiceHeldAsked_ack : let t := twiceHeldAsked.packet { kind := .ack, quad := 1, toHome := true, sec := 0 }
    ((t.home 0).l3.secD .l3 0).dv = true := by
  decide +kernel

/-- Refutes O27: its clause for the last answer to the snoops of a CLN, INV or FLS is about every state too, as that of O26 is, and after
the INV the sector is valid in the second of the two frames. It lacks the same hypothesis. -/
theorem not_coherencePackets : ¬ Obligations.CoherencePackets := by
  unfold Obligations.CoherencePackets
  intro h
  obtain ⟨-, hhome⟩ := h
  obtain ⟨hack, -⟩ := hhome twiceHeldAsked { twiceHeldAsked with net := [] } 1 0 0 0 0 0 0 0 { poison := false }
    { kind := .ack, quad := 1, toHome := true, sec := 0 } { req := { kind := .inv, quad := 0, toHome := true, sec := 0 } }
  obtain ⟨-, -, -, -, hmaint, -⟩ := hack twiceHeldAsked_lands
  obtain ⟨t, ht, -, -, -, -, -, hdv⟩ := hmaint .inv (by simp) (by decide +kernel) (.inr rfl)
  injection ht with ht
  have hvalid := twiceHeldAsked_ack
  rw [← ht] at hdv
  exact absurd (hvalid.symm.trans hdv) (by decide +kernel)

end Sys2Proof.Machine

/-! PROOFS. O60: errors of the cache arrays and retired frames (R179, R199, R201, R202, R204). -/

namespace Sys2Proof.Machine

/-! ### Frames and sectors of a cache (R174, R175, R179) -/

theorem pickWay_mem (s : BitVec 16) {l : List Nat} (h : l ≠ []) : pickWay s l ∈ l := by
  have hl : 0 < l.length := List.length_pos_iff.mpr h
  have hs : s.toNat * l.length < 65536 * l.length := Nat.mul_lt_mul_of_pos_right s.isLt hl
  have hi : s.toNat * l.length / 65536 < l.length := by omega
  rw [pickWay, List.getD_eq_getElem _ _ hi]
  exact List.getElem_mem hi

/-- R179: the frame of an allocation is not retired. -/
theorem Cache.choose_not_retired {kd : CacheKind} {k k' : Cache} {n g : Nat} {group : List Nat} (h : k.choose kd n group = (some g, k')) :
    g ∉ k.retired := by
  unfold Cache.choose at h
  dsimp only at h
  split at h
  · cases h
  · next hne =>
    have hm := pickWay_mem (lfsrAdvance k.lfsr) (fun he => hne (List.isEmpty_iff.mpr he))
    injection h with hg _
    injection hg with hg
    rw [← hg]
    simpa using (List.mem_filter.mp hm).2

section
variable {kd : CacheKind} {k : Cache} {n m f : Nat} {fr : Frame}

@[simp] theorem Cache.frame_setFrame_self (k : Cache) (f : Nat) (v : Option Frame) : (k.setFrame f v).frame f = v :=
  SMap.get_set_self _ _ _ _

theorem Cache.frame_setFrame_other (k : Cache) {f g : Nat} (h : g ≠ f) (v : Option Frame) : (k.setFrame f v).frame g = k.frame g :=
  SMap.get_set_other _ h _ _

theorem Cache.find_frame (h : k.find kd n = some f) : ∃ fr, k.frame f = some fr ∧ fr.block = n / kd.sectors := by
  have hp := List.find?_some h
  split at hp
  · next fr hf => exact ⟨fr, hf, by simpa using hp⟩
  · cases hp

/-- A look-up depends only on the blocks that the frames hold. -/
theorem Cache.find_congr {k k' : Cache} (h : ∀ f, (k'.frame f).map Frame.block = (k.frame f).map Frame.block) :
    k'.find kd n = k.find kd n := by
  unfold Cache.find
  congr 1
  funext f
  have hf := h f
  cases hk : k.frame f <;> cases hk' : k'.frame f <;> simp_all

theorem Cache.sec_of_find (h : k.find kd n = some f) (hf : k.frame f = some fr) : k.sec kd n = some (fr.secs.get {} (n % kd.sectors)) := by
  simp [Cache.sec, h, hf]

theorem Cache.updSec_of_find (g : Sec → Sec) (h : k.find kd n = some f) (hf : k.frame f = some fr) : k.updSec kd n g =
    k.setFrame f (some { fr with secs := fr.secs.set {} (n % kd.sectors) (g (fr.secs.get {} (n % kd.sectors))) }) := by
  simp [Cache.updSec, h, hf]

theorem Cache.updSec_of_not_found (g : Sec → Sec) (h : k.find kd n = none) : k.updSec kd n g = k := by
  simp [Cache.updSec, h]

@[simp] theorem Cache.updSec_retired (k : Cache) (kd : CacheKind) (n : Nat) (g : Sec → Sec) : (k.updSec kd n g).retired = k.retired := by
  fun_cases Cache.updSec <;> rfl

theorem Cache.block_updSec (k : Cache) (kd : CacheKind) (m : Nat) (g : Sec → Sec) (f : Nat) :
    ((k.updSec kd m g).frame f).map Frame.block = (k.frame f).map Frame.block := by
  cases h : k.find kd m with
  | none => rw [Cache.updSec_of_not_found g h]
  | some f' =>
    obtain ⟨fr, hf, -⟩ := Cache.find_frame h
    rw [Cache.updSec_of_find g h hf]
    by_cases hff : f = f'
    · subst hff; simp [hf]
    · rw [Cache.frame_setFrame_other _ hff]

@[simp] theorem Cache.find_updSec (k : Cache) (kd : CacheKind) (n m : Nat) (g : Sec → Sec) : (k.updSec kd m g).find kd n = k.find kd n :=
  Cache.find_congr (Cache.block_updSec k kd m g)

@[simp] theorem Cache.sec_updSec_self (k : Cache) (kd : CacheKind) (n : Nat) (g : Sec → Sec) :
    (k.updSec kd n g).sec kd n = (k.sec kd n).map g := by
  cases h : k.find kd n with
  | none => rw [Cache.updSec_of_not_found g h]; simp [Cache.sec, h]
  | some f =>
    obtain ⟨fr, hf, -⟩ := Cache.find_frame h
    rw [Cache.sec_of_find h hf, Cache.sec_of_find ((Cache.find_updSec _ _ _ _ _).trans h)
      (by rw [Cache.updSec_of_find g h hf]; exact Cache.frame_setFrame_self _ _ _)]
    exact congrArg some (SMap.get_set_self _ _ _ _)

/-- Two sectors of one block stand in it at different places, and those of different blocks in different frames. -/
theorem Cache.sec_updSec_other (k : Cache) (kd : CacheKind) (g : Sec → Sec) (hne : n ≠ m) :
    (k.updSec kd m g).sec kd n = k.sec kd n := by
  cases hm : k.find kd m with
  | none => rw [Cache.updSec_of_not_found g hm]
  | some f =>
    obtain ⟨fr, hf, hb⟩ := Cache.find_frame hm
    cases hn : k.find kd n with
    | none => simp [Cache.sec, hn]
    | some f' =>
      obtain ⟨fr', hf', hb'⟩ := Cache.find_frame hn
      have hnew := (Cache.find_updSec k kd n m g).trans hn
      rw [Cache.sec_of_find hn hf']
      by_cases hff : f' = f
      · subst hff
        rw [hf'] at hf
        injection hf with hf
        subst hf
        have hplace : n % kd.sectors ≠ m % kd.sectors := fun he => hne (by
          rw [← Nat.div_add_mod n kd.sectors, ← Nat.div_add_mod m kd.sectors, ← hb, ← hb', he])
        rw [Cache.sec_of_find hnew (by rw [Cache.updSec_of_find g hm hf']; exact Cache.frame_setFrame_self _ _ _)]
        exact congrArg some (SMap.get_set_other _ hplace _ _)
      · rw [Cache.sec_of_find hnew (by rw [Cache.updSec_of_find g hm hf, Cache.frame_setFrame_other _ hff]; exact hf')]

end

@[simp] theorem State.quad_updQuad (s : State) (q : Nat) (f : Quad → Quad) : (s.updQuad q f).quad q = f (s.quad q) :=
  SMap.get_set_self _ _ _ _
@[simp] theorem State.home_updHome (s : State) (h : Nat) (f : Home → Home) : (s.updHome h f).home h = f (s.home h) :=
  SMap.get_set_self _ _ _ _
@[simp] theorem State.l2_updL2 (s : State) (q : Nat) (f : Cache → Cache) : ((s.updL2 q f).quad q).l2 = f (s.quad q).l2 := by
  rw [State.updL2, State.quad_updQuad]
@[simp] theorem State.l3_updL3 (s : State) (h : Nat) (f : Cache → Cache) : ((s.updL3 h f).home h).l3 = f (s.home h).l3 := by
  rw [State.updL3, State.home_updHome]

@[simp] theorem State.core_updL2 (s : State) (q : Nat) (f : Cache → Cache) (c : CoreId) : (s.updL2 q f).core c = s.core c := rfl
@[simp] theorem State.quad_updCore (s : State) (c : CoreId) (f : Core → Core) (q : Nat) : (s.updCore c f).quad q = s.quad q := rfl

/-! ### What leaves an L1D (R176) -/

/-- Only caches differ: those of the quads, and of one core what the loss of a sector of its L1D changes. The frames retired
there stay those that were. -/
structure OnL1d (c : CoreId) (s t : State) : Prop where
  frame : t = { s with cores := t.cores, quads := t.quads }
  others : ∀ d, d ≠ c → t.core d = s.core d
  retired : (t.core c).l1d.retired = (s.core c).l1d.retired

section
variable {c : CoreId} {s t u : State}

theorem OnL1d.refl (c : CoreId) (s : State) : OnL1d c s s := ⟨rfl, fun _ _ => rfl, rfl⟩

theorem OnL1d.trans (h : OnL1d c s t) (g : OnL1d c t u) : OnL1d c s u := by
  refine ⟨?_, fun d hd => (g.others d hd).trans (h.others d hd), g.retired.trans h.retired⟩
  have hu := g.frame
  rw [h.frame] at hu
  exact hu

theorem OnL1d.updL2 (c : CoreId) (s : State) (q : Nat) (f : Cache → Cache) : OnL1d c s (s.updL2 q f) := ⟨rfl, fun _ _ => rfl, rfl⟩

theorem OnL1d.updCore (s : State) (f : Core → Core) (hf : (f (s.core c)).l1d.retired = (s.core c).l1d.retired) :
    OnL1d c s (s.updCore c f) :=
  ⟨rfl, fun _ hd => State.core_setCore_other _ hd _, by rw [State.core_updCore, hf]⟩

theorem OnL1d.foldl {α : Type} {g : State → α → State} (hg : ∀ s a, OnL1d c s (g s a)) (l : List α) (s : State) :
    OnL1d c s (l.foldl g s) := by
  induction l generalizing s with
  | nil => exact .refl _ _
  | cons a l ih => exact (hg s a).trans (ih _)

/-- What a drop can do: nothing, or the core loses the sector and the L2 takes note of it, having taken the data of a dirty one. -/
theorem State.l1dDrop_cases (s : State) (c : CoreId) (n : Nat) : s.l1dDrop c n = s ∨ ∃ (u : State) (g : Sec → Sec),
    (u = s ∨ ∃ g', u = s.updL2 (quadOf c) fun l => l.updSec .l2 n g') ∧
    s.l1dDrop c n = (u.updCore c fun k => { k with l1d := k.l1d.updSec .l1 n fun _ => {} }.lostSector n).updL2 (quadOf c) fun l =>
      l.updSec .l2 n g := by
  unfold State.l1dDrop
  split
  · exact .inl rfl
  · split
    · exact .inl rfl
    · refine .inr ⟨_, _, ?_, rfl⟩
      split
      · exact .inr ⟨_, rfl⟩
      · exact .inl rfl

theorem OnL1d.l1dDrop (s : State) (c : CoreId) (n : Nat) : OnL1d c s (s.l1dDrop c n) := by
  rcases s.l1dDrop_cases c n with h | ⟨u, g, hu, h⟩
  · rw [h]
    exact .refl _ _
  · have hsu : OnL1d c s u := by
      rcases hu with rfl | ⟨g', rfl⟩
      · exact .refl _ _
      · exact .updL2 _ _ _ _
    rw [h]
    exact (hsu.trans (.updCore u _ (by simp only [Core.lostSector, Cache.updSec_retired]))).trans (.updL2 _ _ _ _)

theorem OnL1d.l1dEvict (s : State) (c : CoreId) (f : Nat) : OnL1d c s (s.l1dEvict c f) := by
  unfold State.l1dEvict
  split
  · exact .refl _ _
  · next fr _ =>
    have hdrops := OnL1d.foldl (fun s (p : Nat × Sec) => OnL1d.l1dDrop s c p.1) (fr.list .l1) s
    exact hdrops.trans (OnL1d.updCore _ _ rfl)

theorem State.l1dEvict_frame (s : State) (c : CoreId) (f : Nat) : ((s.l1dEvict c f).core c).l1d.frame f = none := by
  unfold State.l1dEvict
  split
  · next h => exact h
  · rw [State.core_updCore]
    exact Cache.frame_setFrame_self _ _ _

/-- The drop of a sector leaves the others of the L1D and of the L2 as they are. -/
theorem State.l1dDrop_sec_other (s : State) (c : CoreId) {n m : Nat} (h : n ≠ m) :
    ((s.l1dDrop c m).core c).l1d.sec .l1 n = (s.core c).l1d.sec .l1 n ∧
      ((s.l1dDrop c m).quad (quadOf c)).l2.sec .l2 n = (s.quad (quadOf c)).l2.sec .l2 n := by
  rcases s.l1dDrop_cases c m with hs | ⟨u, g, hu, hs⟩
  · rw [hs]
    exact ⟨rfl, rfl⟩
  · have hsu : u.core c = s.core c ∧ (u.quad (quadOf c)).l2.sec .l2 n = (s.quad (quadOf c)).l2.sec .l2 n := by
      rcases hu with rfl | ⟨g', rfl⟩
      · exact ⟨rfl, rfl⟩
      · exact ⟨rfl, by rw [State.l2_updL2, Cache.sec_updSec_other _ _ _ h]⟩
    rw [hs, State.l2_updL2, State.quad_updCore, Cache.sec_updSec_other _ _ _ h, State.core_updL2, State.core_updCore, Core.lostSector,
      Cache.sec_updSec_other _ _ _ h, hsu.1]
    exact ⟨rfl, hsu.2⟩

/-- A dirty sector that is dropped leaves its data and its poison in the L2. -/
theorem State.l1dDrop_l2_dirty {n : Nat} {e : Sec} (he : (s.core c).l1d.sec .l1 n = some e) (hm : e.st = .m) :
    ((s.l1dDrop c n).quad (quadOf c)).l2.sec .l2 n = ((s.quad (quadOf c)).l2.sec .l2 n).map fun x =>
      { x.takeDirty e with pres := x.pres &&& ~~~(1#16 <<< (c.val % 4)) } := by
  have hi : ¬ e.st = .i := by rw [hm]; decide
  simp only [State.l1dDrop, he, if_neg hi, if_pos hm, State.l2_updL2, State.quad_updCore, Cache.sec_updSec_self, Option.map_map]
  rfl

/-- The L1D of a core holds a sector dirty and poisoned, and the L2 has a place for it. -/
def State.poisonDue (s : State) (c : CoreId) (n : Nat) : Prop :=
  (∃ e, (s.core c).l1d.sec .l1 n = some e ∧ e.st = .m ∧ e.poison = true) ∧ (s.quad (quadOf c)).l2.sec .l2 n ≠ none

/-- The L2 of a core's quad holds a sector poisoned. -/
def State.poisonHeld (s : State) (c : CoreId) (n : Nat) : Prop :=
  ∃ y, (s.quad (quadOf c)).l2.sec .l2 n = some y ∧ y.poison = true

theorem State.poisonDue.drop_other {n m : Nat} (h : s.poisonDue c n) (hne : n ≠ m) : (s.l1dDrop c m).poisonDue c n := by
  obtain ⟨hl1d, hl2⟩ := s.l1dDrop_sec_other c hne
  rwa [State.poisonDue, hl1d, hl2]

theorem State.poisonHeld.drop_other {n m : Nat} (h : s.poisonHeld c n) (hne : n ≠ m) : (s.l1dDrop c m).poisonHeld c n := by
  rwa [State.poisonHeld, (s.l1dDrop_sec_other c hne).2]

theorem State.poisonDue.drop {n : Nat} (h : s.poisonDue c n) : (s.l1dDrop c n).poisonHeld c n := by
  obtain ⟨⟨e, he, hm, hp⟩, hl2⟩ := h
  obtain ⟨x, hx⟩ := Option.ne_none_iff_exists'.mp hl2
  rw [State.poisonHeld, State.l1dDrop_l2_dirty he hm, hx]
  exact ⟨_, rfl, hp⟩

/-- R201: the poison of a dirty sector goes with it into the L2 when its frame leaves the L1D. -/
theorem State.poisonDue.evict {n f : Nat} (h : s.poisonDue c n) (hf : (s.core c).l1d.find .l1 n = some f) :
    (s.l1dEvict c f).poisonHeld c n := by
  obtain ⟨fr, hfr, hb⟩ := Cache.find_frame hf
  obtain ⟨x, y, hlist⟩ : ∃ x y, fr.list .l1 = [(n / 2 * 2, x), (n / 2 * 2 + 1, y)] :=
    ⟨_, _, by rw [← show fr.block = n / 2 from hb]; rfl⟩
  have hdrops : ((s.l1dDrop c (n / 2 * 2)).l1dDrop c (n / 2 * 2 + 1)).poisonHeld c n := by
    rcases Nat.mod_two_eq_zero_or_one n with hn | hn
    · have hfirst : n / 2 * 2 = n := by omega
      rw [hfirst]
      exact h.drop.drop_other (by omega)
    · have hsecond : n / 2 * 2 + 1 = n := by omega
      have hother := h.drop_other (m := n / 2 * 2) (by omega)
      rw [hsecond]
      exact hother.drop
  simp only [State.l1dEvict, hfr, hlist]
  exact hdrops

end

/-! ### What an error in an L1D loses (R199, R201) -/

section
variable (v : State) (c : CoreId) (n : Nat)

theorem State.dataLost_l1d : OnL1d c v (v.dataLost (.l1d c) n).2 := by
  unfold State.dataLost
  dsimp only
  split
  · dsimp only
    exact OnL1d.updCore v _ (Cache.updSec_retired _ _ _ _)
  · exact .l1dDrop _ _ _

/-- Dirty data that is lost stays, poisoned, in its frame. -/
theorem State.dataLost_l1d_dirty (hm : ((v.core c).l1d.secD .l1 n).st = .m) : (v.dataLost (.l1d c) n).2 =
    v.updCore c fun k => { k with l1d := k.l1d.updSec .l1 n fun x => { x with poison := true } } := by
  unfold State.dataLost
  dsimp only
  rw [if_pos hm]

theorem State.mayRetire_l1d_congr {v w : State} {c : CoreId} (h : (w.core c).l1d.retired = (v.core c).l1d.retired) (f : Nat) :
    w.mayRetire (.l1d c) f = v.mayRetire (.l1d c) f := by
  have hc : (w.cache (.l1d c)).retired = (v.cache (.l1d c)).retired := h
  unfold State.mayRetire
  rw [hc]

/-- The frame is out of use from now on (R202). -/
def Cache.retire (k : Cache) (f : Nat) : Cache := { k with retired := insertRising f k.retired, suspects := k.suspects.erase f }

theorem Cache.frame_retire (k : Cache) (f g : Nat) : (k.retire f).frame g = k.frame g := rfl
theorem Cache.mem_retire (k : Cache) (f : Nat) : f ∈ (k.retire f).retired := mem_insertRising_self f k.retired

/-- What the retirement of a frame of an L1D leaves (R201). -/
theorem State.retireFrame_l1d {w : State} {c : CoreId} {f : Nat} (sector : Nat) (h : w.mayRetire (.l1d c) f = true) :
    let t := w.retireFrame (.l1d c) f sector
    t.mem = w.mem ∧ t.regs = w.regs ∧ t.quads = (w.l1dEvict c f).quads ∧ (∀ d, d ≠ c → t.core d = w.core d) ∧
      (t.core c).l1d = ((w.l1dEvict c f).core c).l1d.retire f := by
  have hev := OnL1d.l1dEvict w c f
  have he : w.retireFrame (.l1d c) f sector =
      (let x := ((w.l1dEvict c f).updCore c fun k => { k with l1d := k.l1d.retire f }).count .retired
       { x with fe := { x.fe with tested := x.fe.tested.erase ((CacheName.l1d c).object f) } }) := by
    unfold State.retireFrame
    rw [if_pos h]
    rfl
  rw [he]
  refine ⟨?_, ?_, rfl, fun d hd => ?_, ?_⟩
  · show (w.l1dEvict c f).mem = _
    rw [hev.frame]
  · show (w.l1dEvict c f).regs = _
    rw [hev.frame]
  · exact (State.core_setCore_other _ hd _).trans (hev.others d hd)
  · exact congrArg Core.l1d (State.core_updCore (w.l1dEvict c f) c fun k => { k with l1d := k.l1d.retire f })

end

end Sys2Proof.Machine

/-! PROOFS. O60: what an array error does to its cache and what is reported of it (R199, R201, R202, R204). -/

namespace Sys2Proof.Machine

/-! ### The error log of an L3 (R204) -/

theorem State.capture_eq (s : State) (r : Reg) (idx : List Nat) (fields : Nat) : (s.capture r idx fields).2 =
    s.setReg r idx (if (s.reg r idx).getLsbD 0 then s.reg r idx ||| 2 else BitVec.ofNat 64 fields ||| (s.reg r idx &&& 2) ||| 1) := by
  unfold State.capture
  dsimp only
  split <;> rfl

theorem flag_captured (n : Nat) (old : Word) {f : Fld} (hf : f.lo = 0) : flag (BitVec.ofNat 64 n ||| (old &&& 2) ||| 1) f = true := by
  rw [flag, hf, BitVec.getLsbD_or]
  simp

/-- A field of a captured entry above the bits VALID and OVERFLOW. -/
theorem bits_captured {n : Nat} (hn : n < 2 ^ 64) (old : Word) {f : Fld} (hf : 2 ≤ f.lo) :
    bits (BitVec.ofNat 64 n ||| (old &&& 2) ||| 1) f = n / 2 ^ f.lo % 2 ^ (f.hi + 1 - f.lo) := by
  have hlow : ∀ i, (old &&& 2 ||| 1 : Word).getLsbD (f.lo + i) = false := fun i => by
    obtain ⟨j, hj⟩ : ∃ j, f.lo + i = j + 2 := ⟨f.lo + i - 2, by omega⟩
    rw [hj, BitVec.getLsbD_or, BitVec.getLsbD_and]
    simp [BitVec.getLsbD_ofNat, Nat.testBit_add_one]
  have hbits : bits (BitVec.ofNat 64 n ||| (old &&& 2) ||| 1) f = bits (BitVec.ofNat 64 n) f := by
    refine Nat.eq_of_testBit_eq fun i => ?_
    rw [testBit_bits, testBit_bits, BitVec.or_assoc, BitVec.getLsbD_or, hlow, Bool.or_false]
  rw [hbits, bits, BitVec.toNat_ofNat, Nat.mod_eq_of_lt hn, Nat.shiftRight_eq_div_pow]

/-- The fields of a captured entry of an L3, KIND 1 (R204). -/
theorem captured_fields {set way sector : Nat} (hset : set < 1024) (hway : way < 16) (hsector : sector < 4) (old : Word) :
    let r := BitVec.ofNat 64 (set * 2 ^ 22 + way * 2 ^ 18 + sector * 2 ^ 16 + 1 * 2 ^ 12) ||| (old &&& 2) ||| 1
    flag r .L3_ERR_STATUS_VALID = true ∧ bits r .L3_ERR_STATUS_SET = set ∧ bits r .L3_ERR_STATUS_WAY = way ∧
      bits r .L3_ERR_STATUS_SECTOR = sector ∧ bits r .L3_ERR_STATUS_KIND = 1 := by
  have hn : set * 2 ^ 22 + way * 2 ^ 18 + sector * 2 ^ 16 + 1 * 2 ^ 12 < 2 ^ 64 := by omega
  refine ⟨flag_captured _ _ rfl, (bits_captured hn _ (by decide)).trans ?_, (bits_captured hn _ (by decide)).trans ?_,
    (bits_captured hn _ (by decide)).trans ?_, (bits_captured hn _ (by decide)).trans ?_⟩
  · show _ / 2 ^ 22 % 2 ^ 10 = _
    omega
  · show _ / 2 ^ 18 % 2 ^ 4 = _
    omega
  · show _ / 2 ^ 16 % 2 ^ 2 = _
    omega
  · show _ / 2 ^ 12 % 2 ^ 4 = _
    omega

theorem errStatus_at (h : Nat) : Reg.L3_ERR_STATUS.at [h] = 0x3006100020 + 0x10000 * h := rfl
theorem errCount_at (h : Nat) : Reg.L3_ERR_COUNT.at [h] = 0x3006100024 + 0x10000 * h := rfl
theorem wgMask_at (h i : Nat) : Reg.L3_WG_MASK.at [h, i] = 0x30060ffffc + (0x10000 * h + 4 * i) := rfl

/-- Only the error log of an L3 slice and the health telemetry differ. -/
structure OnL3Log (h : Fin 8) (s t : State) : Prop where
  frame : t = { s with regs := t.regs, telemetry := t.telemetry, fsi := t.fsi }
  others : ∀ r i, r.at i ≠ Reg.L3_ERR_STATUS.at [h.val] → r.at i ≠ Reg.L3_ERR_COUNT.at [h.val] → t.reg r i = s.reg r i

section
variable (s : State) (h : Fin 8) (f sector kind : Nat)

/-- R204: an error of an L3 is counted by its KIND, and captured. -/
theorem State.arrayReport_l3 : s.arrayReport (.l3 h) f sector kind =
    (((s.count .l3Error).countFld .L3_ERR_COUNT [h.val] (if kind = 1 ∨ kind = 4 then .L3_ERR_COUNT_CE else .L3_ERR_COUNT_UE)).capture
      .L3_ERR_STATUS [h.val] (f / 16 * 2 ^ 22 + f % 16 * 2 ^ 18 + sector * 2 ^ 16 + kind * 2 ^ 12)).2 := rfl

theorem State.arrayReport_onL3Log : OnL3Log h s (s.arrayReport (.l3 h) f sector kind) := by
  rw [State.arrayReport_l3, State.capture_eq]
  exact ⟨rfl, fun r i hs hc => (State.reg_setReg_other _ _ _ _ _ _ hs).trans (State.reg_setReg_other _ _ _ _ _ _ hc)⟩

/-- The registers of the log after an error. -/
theorem State.arrayReport_l3_log : let old := s.reg .L3_ERR_STATUS [h.val]
    let t := s.arrayReport (.l3 h) f sector kind
    t.reg .L3_ERR_STATUS [h.val] = (if flag old .L3_ERR_STATUS_VALID then old ||| 2 else
      BitVec.ofNat 64 (f / 16 * 2 ^ 22 + f % 16 * 2 ^ 18 + sector * 2 ^ 16 + kind * 2 ^ 12) ||| (old &&& 2) ||| 1) ∧
    (kind = 1 → t.fld .L3_ERR_COUNT [h.val] .L3_ERR_COUNT_CE = min 0xFFFF (s.fld .L3_ERR_COUNT [h.val] .L3_ERR_COUNT_CE + 1)) := by
  have hne : Reg.L3_ERR_COUNT.at [h.val] ≠ Reg.L3_ERR_STATUS.at [h.val] := by rw [errCount_at, errStatus_at]; omega
  intro old t
  have ht : t = _ := (State.arrayReport_l3 s h f sector kind).trans (State.capture_eq _ _ _ _)
  have hold : ((s.count .l3Error).countFld .L3_ERR_COUNT [h.val]
      (if kind = 1 ∨ kind = 4 then Fld.L3_ERR_COUNT_CE else .L3_ERR_COUNT_UE)).reg .L3_ERR_STATUS [h.val] = old :=
    State.reg_setReg_other _ _ _ _ _ _ hne.symm
  rw [hold] at ht
  refine ⟨by rw [ht, State.reg_setReg]; rfl, fun hk => ?_⟩
  rw [State.fld, ht, State.reg_setReg_other _ _ _ _ _ _ hne, if_pos (.inl hk), State.countFld, State.setFld, State.reg_setReg,
    bits_putBits_self _ _ (by decide), satAdd_one]
  show min 0xFFFF (s.fld .L3_ERR_COUNT [h.val] .L3_ERR_COUNT_CE + 1) % 2 ^ 16 = _
  omega

end

section
variable {h : Fin 8} {s t : State}

/-- The way groups do not depend on the error log. -/
theorem OnL3Log.wayGroup (hl : OnL3Log h s t) {g : Nat} (hg : g < 4) : t.wayGroup h.val g = s.wayGroup h.val g := by
  have hm : ∀ i < 4, t.reg .L3_WG_MASK [h.val, i] = s.reg .L3_WG_MASK [h.val, i] := fun i hi =>
    hl.others _ _ (by rw [wgMask_at, errStatus_at]; omega) (by rw [wgMask_at, errCount_at]; omega)
  have hi : ∀ w, ((List.range g).any fun i => decide (0 < i) && (t.reg .L3_WG_MASK [h.val, i]).getLsbD w) =
      (List.range g).any fun i => decide (0 < i) && (s.reg .L3_WG_MASK [h.val, i]).getLsbD w := fun w => by
    rw [Bool.eq_iff_iff, List.any_eq_true, List.any_eq_true]
    exact exists_congr fun i => and_congr_right fun hi => by rw [hm i (by have := List.mem_range.mp hi; omega)]
  unfold State.wayGroup
  simp only [hm 1 (by decide), hm 2 (by decide), hm 3 (by decide), hm g hg, hi]

/-- What the retirement of an L3 frame depends on (R202). -/
theorem State.mayRetire_l3_congr (hr : (t.home h).l3.retired = (s.home h).l3.retired)
    (hg : ∀ g < 4, t.wayGroup h.val g = s.wayGroup h.val g) (f : Nat) : t.mayRetire (.l3 h) f = s.mayRetire (.l3 h) f := by
  have hall : ∀ p : List Nat → Bool,
      ((List.range 4).all fun g => p (t.wayGroup h.val g)) = (List.range 4).all fun g => p (s.wayGroup h.val g) := by
    intro p
    rw [Bool.eq_iff_iff, List.all_eq_true, List.all_eq_true]
    exact forall_congr' fun g => forall_congr' fun hi => by rw [hg g (List.mem_range.mp hi)]
  have hc : (t.cache (.l3 h)).retired = (s.cache (.l3 h)).retired := hr
  unfold State.mayRetire
  dsimp only
  rw [hc, hall fun l => !l.contains (f % 16) || l.any fun w => w != f % 16 && !(s.cache (.l3 h)).retired.contains (f / 16 * 16 + w)]

end

/-! ### Which case an error is (R199) -/

/-- An error that its cache can show, in a cache that is on, at the frame fr. -/
structure State.shows (v : State) (e : ArrayErr) (fr : Frame) : Prop where
  ok : e.ok = true
  on : v.pdUp e.cache.pd = true
  frame : (v.cache e.cache).frame (frameNo e.set.val e.way.val) = some fr

theorem State.arrayError_nothing {v : State} {e : ArrayErr}
    (h : e.ok = false ∨ v.pdUp e.cache.pd = false ∨ (v.cache e.cache).frame (frameNo e.set.val e.way.val) = none) :
    v.arrayError e = v := by
  unfold State.arrayError
  dsimp only
  split
  · rfl
  · next hon =>
    rcases h with h | h | h
    · simp [h] at hon
    · simp [h] at hon
    · rw [h]

section
variable {v : State} {e : ArrayErr} {fr : Frame} (hs : v.shows e fr)
include hs

theorem State.shows.tagLost (hf : e.found = .tagLost) : v.arrayError e =
    (v.arrayReport e.cache (frameNo e.set.val e.way.val) e.sector.val 5).tagLost e.cache (frameNo e.set.val e.way.val) := by
  unfold State.arrayError
  dsimp only
  rw [if_neg (by simp [hs.ok, hs.on]), hs.frame, hf]

/-- R199: the data is lost of a sector that an L1D or an L3 holds. -/
theorem State.shows.dataLost (hf : e.found = .dataLost)
    (hv : (∃ h, e.cache = .l3 h) ∧ (fr.secs.get {} e.sector.val).dv = true ∨
      (∃ c, e.cache = .l1d c) ∧ (fr.secs.get {} e.sector.val).st ≠ .i) :
    let lost := v.dataLost e.cache (fr.block * e.cache.kind.sectors + e.sector.val)
    v.arrayError e = (lost.2.arrayReport e.cache (frameNo e.set.val e.way.val) e.sector.val (if lost.1 then 3 else 2)).retireFrame e.cache
      (frameNo e.set.val e.way.val) e.sector.val := by
  unfold State.arrayError
  dsimp only
  rw [if_neg (by simp [hs.ok, hs.on]), hs.frame, hf]
  rcases hv with ⟨⟨h, hc⟩, hd⟩ | ⟨⟨c, hc⟩, hi⟩
  · simp only [hc, hd, Bool.not_true, Bool.false_eq_true, if_false]
  · simp only [hc, bne_iff_ne.mpr hi, Bool.not_true, Bool.false_eq_true, if_false]

theorem State.shows.corrected_l3 {h : Fin 8} (hc : e.cache = .l3 h) (hf : e.found = .dataCorrected)
    (hd : (fr.secs.get {} e.sector.val).dv = true) : v.arrayError e =
    (v.arrayReport (.l3 h) (frameNo e.set.val e.way.val) e.sector.val 1).suspect (.l3 h) (frameNo e.set.val e.way.val) e.sector.val := by
  unfold State.arrayError
  dsimp only
  rw [if_neg (by simp [hs.ok, hs.on]), hs.frame, hf]
  simp only [hc, hd, if_true]

end

theorem State.retireFrame_beyond {w : State} {n : CacheName} {f : Nat} (sector : Nat) (h : w.mayRetire n f = false) :
    w.retireFrame n f sector = w.overLimit n := by
  unfold State.retireFrame
  rw [if_neg (by simp [h])]

/-- R201: the first corrected error of a frame makes it a suspect. -/
theorem State.suspect_first {w : State} {n : CacheName} {f : Nat} (sector : Nat) (h : f ∉ (w.cache n).suspects) : w.suspect n f sector =
    w.updCache n fun k => { k with suspects := ((w.cache n).suspects ++ [f]).drop ((w.cache n).suspects.length - 3) } := by
  unfold State.suspect
  dsimp only
  rw [if_neg (by simpa using h)]

/-! ### Errors of an L3 -/

section
variable {v : State} {e : ArrayErr} {fr : Frame} {h : Fin 8} (hs : v.shows e fr) (hc : e.cache = .l3 h)
include hs hc

/-- R201, R204: a corrected error. -/
theorem State.shows.corrected_l3_spec (hf : e.found = .dataCorrected) (hd : (fr.secs.get {} e.sector.val).dv = true)
    (hn : frameNo e.set.val e.way.val ∉ (v.home h).l3.suspects) :
    let f := frameNo e.set.val e.way.val
    let old := v.reg .L3_ERR_STATUS [h.val]
    let t := v.arrayError e
    t.mem = v.mem ∧ t.cores = v.cores ∧ t.quads = v.quads ∧
    (t.home h).l3 = { (v.home h).l3 with suspects := ((v.home h).l3.suspects ++ [f]).drop ((v.home h).l3.suspects.length - 3) } ∧
    t.fld .L3_ERR_COUNT [h.val] .L3_ERR_COUNT_CE = min 0xFFFF (v.fld .L3_ERR_COUNT [h.val] .L3_ERR_COUNT_CE + 1) ∧
    (flag old .L3_ERR_STATUS_VALID = true → t.reg .L3_ERR_STATUS [h.val] = old ||| 2) ∧
    (flag old .L3_ERR_STATUS_VALID = false → let r := t.reg .L3_ERR_STATUS [h.val]
      flag r .L3_ERR_STATUS_VALID = true ∧ bits r .L3_ERR_STATUS_SET = e.set.val ∧ bits r .L3_ERR_STATUS_WAY = e.way.val ∧
      bits r .L3_ERR_STATUS_SECTOR = e.sector.val ∧ bits r .L3_ERR_STATUS_KIND = 1) := by
  intro f old t
  have hl := v.arrayReport_onL3Log h f e.sector.val 1
  obtain ⟨hstatus, hcount⟩ := v.arrayReport_l3_log h f e.sector.val 1
  have hhome : (v.arrayReport (.l3 h) f e.sector.val 1).cache (.l3 h) = (v.home h).l3 := by rw [hl.frame]; rfl
  have ht : t = _ := (hs.corrected_l3 hc hf hd).trans (State.suspect_first _ (by rw [hhome]; exact hn))
  rw [hhome] at ht
  generalize v.arrayReport (.l3 h) f e.sector.val 1 = w at hl hstatus hcount hhome ht
  have hreg : ∀ r i, t.reg r i = w.reg r i := fun r i => by rw [ht]; rfl
  refine ⟨?_, ?_, ?_, ?_, ?_, fun hvalid => ?_, fun hvalid => ?_⟩
  · rw [ht]; show w.mem = _; rw [hl.frame]
  · rw [ht]; show w.cores = _; rw [hl.frame]
  · rw [ht]; show w.quads = _; rw [hl.frame]
  · rw [ht]
    exact (State.l3_updL3 w h.val _).trans (by rw [show (w.home h).l3 = _ from hhome])
  · rw [State.fld, hreg]; exact hcount rfl
  · rw [hreg, hstatus, if_pos hvalid]
  · have hway := e.way.isLt
    have hdiv : f / 16 = e.set.val := by simp only [f, frameNo]; omega
    have hmod : f % 16 = e.way.val := by simp only [f, frameNo]; omega
    dsimp only
    rw [hreg, hstatus, if_neg (by rw [hvalid]; decide), hdiv, hmod]
    exact captured_fields e.set.isLt hway e.sector.isLt old

end

/-- What data lost in an L3 leaves: a sector of it at most differs. -/
theorem State.dataLost_l3 (v : State) (h : Fin 8) (n : Nat) : let t := (v.dataLost (.l3 h) n).2
    t = { v with homes := t.homes } ∧ (t.home h).l3.retired = (v.home h).l3.retired := by
  unfold State.dataLost
  dsimp only
  split
  · exact ⟨rfl, by rw [State.l3_updL3, Cache.updSec_retired]⟩
  · exact ⟨rfl, rfl⟩

/-- The condition UNIT among the ten. -/
theorem conditions_unit : ∀ fetas split path pllref unit mram dram backstay clock quar : Bool,
    let st (f : Fld) (b : Bool) : Nat := if b then 2 ^ f.lo else 0
    (st .HEALTH_STAT_FETAS fetas + st .HEALTH_STAT_SPLIT split + st .HEALTH_STAT_PATH path + st .HEALTH_STAT_PLLREF pllref +
      st .HEALTH_STAT_UNIT unit + st .HEALTH_STAT_MRAM mram + st .HEALTH_STAT_DRAM dram + st .HEALTH_STAT_BACKSTAY backstay +
      st .HEALTH_STAT_CLOCK clock + st .HEALTH_STAT_QUAR quar).testBit Fld.HEALTH_STAT_UNIT.lo = unit := by
  decide +kernel

theorem State.healthBits_unit (s : State) :
    s.healthBits.testBit Fld.HEALTH_STAT_UNIT.lo = (!s.fe.unrepaired.isEmpty || !s.fe.l3Degraded.isEmpty) :=
  conditions_unit _ _ _ _ _ _ _ _ _ _

/-- R202: beyond the limits an L3 slice is degraded, which shows at the HEALTH pin. -/
theorem State.overLimit_l3 (w : State) (h : Fin 8) : let t := w.overLimit (.l3 h)
    t = { w with regs := t.regs, fe := t.fe, fsi := t.fsi } ∧ h.val ∈ t.fe.l3Degraded ∧
      (w.fe.healthKnown = true → flag (t.reg .HEALTH_STAT) .HEALTH_STAT_UNIT = true ∧ t.healthPin = 0) := by
  have hh := State.healthEval_onHealth { w with fe := { w.fe with l3Degraded := insertRising h.val w.fe.l3Degraded } }
  refine ⟨hh.frame, ?_, fun hk => State.healthEval_condition (by decide) hk ?_⟩
  · show h.val ∈ (State.healthEval _).fe.l3Degraded
    rw [hh.fe]
    exact mem_insertRising_self _ _
  · rw [State.healthBits_unit]
    show (_ || !(insertRising h.val w.fe.l3Degraded).isEmpty) = true
    rw [isEmpty_insertRising, Bool.not_false, Bool.or_true]

section
variable {v : State} {e : ArrayErr} {fr : Frame} {h : Fin 8} (hs : v.shows e fr) (hc : e.cache = .l3 h)
include hs hc

theorem State.shows.lost_l3_spec (hf : e.found = .dataLost) (hd : (fr.secs.get {} e.sector.val).dv = true)
    (hr : v.mayRetire e.cache (frameNo e.set.val e.way.val) = false) : let t := v.arrayError e
    h.val ∈ t.fe.l3Degraded ∧ (t.home h).l3.retired = (v.home h).l3.retired ∧ t.mem = v.mem ∧
      (v.fe.healthKnown = true → flag (t.reg .HEALTH_STAT) .HEALTH_STAT_UNIT = true ∧ t.healthPin = 0) := by
  intro t
  have ht : t = _ := hs.dataLost hf (.inl ⟨⟨h, hc⟩, hd⟩)
  rw [hc] at ht hr
  obtain ⟨hu, hretired⟩ := v.dataLost_l3 h (fr.block * (CacheName.l3 h).kind.sectors + e.sector.val)
  generalize v.dataLost (.l3 h) (fr.block * (CacheName.l3 h).kind.sectors + e.sector.val) = lost at ht hu hretired
  have hl := lost.2.arrayReport_onL3Log h (frameNo e.set.val e.way.val) e.sector.val (if lost.1 then 3 else 2)
  generalize lost.2.arrayReport (.l3 h) (frameNo e.set.val e.way.val) e.sector.val (if lost.1 then 3 else 2) = w at ht hl
  have hmay : w.mayRetire (.l3 h) (frameNo e.set.val e.way.val) = false := by
    have hways : ∀ g < 4, w.wayGroup h.val g = v.wayGroup h.val g := fun g hg => by
      rw [hl.wayGroup hg, hu]
      rfl
    rw [State.mayRetire_l3_congr (by rw [hl.frame]; exact hretired) hways, hr]
  rw [State.retireFrame_beyond _ hmay] at ht
  obtain ⟨hframe, hdeg, hpin⟩ := w.overLimit_l3 h
  rw [← ht] at hframe hdeg hpin
  refine ⟨hdeg, ?_, ?_, fun hk => hpin ?_⟩
  · rw [hframe]
    show (w.home h).l3.retired = _
    rw [hl.frame]
    exact hretired
  · rw [hframe]
    show w.mem = _
    rw [hl.frame]
    show lost.2.mem = _
    rw [hu]
  · rw [hl.frame]
    show lost.2.fe.healthKnown = true
    rw [hu]
    exact hk

theorem State.shows.tagLost_l3_spec (hf : e.found = .tagLost) (hd : ∃ p ∈ fr.list .l3, p.2.dv = true ∧ p.2.dirty = true) :
    let t := v.arrayError e
    t.reports = v.reports ++ [.unitCheck (homeStop h)] ∧ t.homes = v.homes ∧ t.mem = v.mem ∧ t.cores = v.cores := by
  intro t
  have ht : t = _ := hs.tagLost hf
  have hframe := hs.frame
  rw [hc] at ht hframe
  have hl := v.arrayReport_onL3Log h (frameNo e.set.val e.way.val) e.sector.val 5
  generalize v.arrayReport (.l3 h) (frameNo e.set.val e.way.val) e.sector.val 5 = w at ht hl
  have hw : (w.home h).l3.frame (frameNo e.set.val e.way.val) = some fr := by rw [hl.frame]; exact hframe
  have hany : ((fr.list .l3).any fun p => p.2.dv && p.2.dirty) = true := by
    rw [List.any_eq_true]
    obtain ⟨p, hp, hdv, hdirty⟩ := hd
    exact ⟨p, hp, by rw [hdv, hdirty]; rfl⟩
  have ht' : t = w.report (.unitCheck (homeStop h)) := by
    rw [ht]
    unfold State.tagLost
    dsimp only
    rw [hw]
    dsimp only
    rw [if_pos hany]
  rw [ht', hl.frame]
  exact ⟨rfl, rfl, rfl, rfl⟩

end
end Sys2Proof.Machine

/-! PROOFS. O60: errors of the arrays of a core's L1s, and the statement (R199, R201, R202). -/

namespace Sys2Proof.Machine

/-! ### Errors of an L1D and an L1I -/

theorem State.core_report (s : State) (r : Report) (c : CoreId) : (s.report r).core c = s.core c := by
  rw [State.core, State.report_cores, State.core]

section
variable {v : State} {e : ArrayErr} {fr : Frame} {c : CoreId} (hs : v.shows e fr) (hc : e.cache = .l1d c)
include hs hc

/-- The sector that shows the error is that of its number, when a look-up of the block meets its frame. -/
theorem State.shows.sec_l1d (hfind : (v.core c).l1d.find .l1 (fr.block * 2 + e.sector.val) = some (frameNo e.set.val e.way.val)) :
    (v.core c).l1d.sec .l1 (fr.block * 2 + e.sector.val) = some (fr.secs.get {} e.sector.val) := by
  have hframe := hs.frame
  have hok := hs.ok
  rw [hc] at hframe
  simp only [ArrayErr.ok, hc, decide_eq_true_eq] at hok
  obtain ⟨-, -, hsector⟩ := hok
  have hplace : (fr.block * 2 + e.sector.val) % CacheKind.l1.sectors = e.sector.val := by
    show _ % 2 = _
    omega
  rw [Cache.sec_of_find hfind hframe, hplace]

/-- Dirty data that is lost waits in its frame, poisoned, for its way to the L2. -/
theorem State.shows.poisonDue_l1d (hm : (fr.secs.get {} e.sector.val).st = .m)
    (hfind : (v.core c).l1d.find .l1 (fr.block * 2 + e.sector.val) = some (frameNo e.set.val e.way.val))
    (hl2 : (v.quad (quadOf c)).l2.sec .l2 (fr.block * 2 + e.sector.val) ≠ none) :
    let u := (v.dataLost (.l1d c) (fr.block * 2 + e.sector.val)).2
    u.poisonDue c (fr.block * 2 + e.sector.val) ∧
      (u.core c).l1d.find .l1 (fr.block * 2 + e.sector.val) = some (frameNo e.set.val e.way.val) := by
  intro u
  have hsec := hs.sec_l1d hc hfind
  have hu : u = _ := State.dataLost_l1d_dirty v c _ (by rw [Cache.secD, hsec]; exact hm)
  refine ⟨⟨⟨{ fr.secs.get {} e.sector.val with poison := true }, ?_, hm, rfl⟩, ?_⟩, ?_⟩
  · rw [hu, State.core_updCore, Cache.sec_updSec_self, hsec, Option.map_some]
  · rw [hu]
    exact hl2
  · rw [hu, State.core_updCore, Cache.find_updSec, hfind]

/-- R199, R201: data lost in an L1D retires its frame. -/
theorem State.shows.lost_l1d_retired (hf : e.found = .dataLost) (hx : (fr.secs.get {} e.sector.val).st ≠ .i)
    (hr : v.mayRetire e.cache (frameNo e.set.val e.way.val) = true) :
    let f := frameNo e.set.val e.way.val
    let n := fr.block * 2 + e.sector.val
    let t := v.arrayError e
    (t.core c).l1d.frame f = none ∧ f ∈ (t.core c).l1d.retired ∧ t.mem = v.mem ∧ t.regs = v.regs ∧
      (∀ d, d ≠ c → t.core d = v.core d) ∧
      ((fr.secs.get {} e.sector.val).st = .m → (v.core c).l1d.find .l1 n = some f → (v.quad (quadOf c)).l2.sec .l2 n ≠ none →
        ((t.quad (quadOf c)).l2.secD .l2 n).poison = true) := by
  intro f n t
  have ht : t = _ := hs.dataLost hf (.inr ⟨⟨c, hc⟩, hx⟩)
  rw [hc] at ht hr
  have hu := State.dataLost_l1d v c n
  have hw : (((v.dataLost (.l1d c) n).2.count .l1Error).core c).l1d.retired = (v.core c).l1d.retired := hu.retired
  obtain ⟨hmem, hregs, hquads, hothers, hcore⟩ :=
    State.retireFrame_l1d e.sector.val ((State.mayRetire_l1d_congr hw f).trans hr)
  change t = ((v.dataLost (.l1d c) n).2.count .l1Error).retireFrame (.l1d c) f e.sector.val at ht
  rw [← ht] at hmem hregs hquads hothers hcore
  refine ⟨?_, ?_, hmem.trans ?_, hregs.trans ?_, fun d hd => (hothers d hd).trans (hu.others d hd), fun hm hfind hl2 => ?_⟩
  · rw [hcore, Cache.frame_retire, State.l1dEvict_frame]
  · rw [hcore]
    exact Cache.mem_retire _ _
  · show (v.dataLost (.l1d c) n).2.mem = _
    rw [hu.frame]
  · show (v.dataLost (.l1d c) n).2.regs = _
    rw [hu.frame]
  · obtain ⟨hdue, hfindU⟩ := hs.poisonDue_l1d hc hm hfind hl2
    have hdue' : ((v.dataLost (.l1d c) n).2.count .l1Error).poisonDue c n := hdue
    obtain ⟨y, hy, hpoison⟩ := hdue'.evict (f := f) hfindU
    rw [State.quad, ← hquads] at hy
    rw [Cache.secD, State.quad, hy]
    exact hpoison

/-- R202: beyond the limits the core is reported. -/
theorem State.shows.lost_l1d_kept (hf : e.found = .dataLost) (hx : (fr.secs.get {} e.sector.val).st ≠ .i)
    (hr : v.mayRetire e.cache (frameNo e.set.val e.way.val) = false) : let t := v.arrayError e
    t.reports = v.reports ++ [.machineCheck c.val] ∧ (t.core c).l1d.retired = (v.core c).l1d.retired ∧ t.mem = v.mem ∧
      t.regs = v.regs ∧ ∀ d, d ≠ c → t.core d = v.core d := by
  intro t
  have ht : t = _ := hs.dataLost hf (.inr ⟨⟨c, hc⟩, hx⟩)
  rw [hc] at ht hr
  have hu := State.dataLost_l1d v c (fr.block * 2 + e.sector.val)
  change t = ((v.dataLost (.l1d c) (fr.block * 2 + e.sector.val)).2.count .l1Error).retireFrame _ _ _ at ht
  generalize (v.dataLost (.l1d c) (fr.block * 2 + e.sector.val)).2 = u at hu ht
  have hw : ((u.count .l1Error).core c).l1d.retired = (v.core c).l1d.retired := hu.retired
  rw [State.retireFrame_beyond _ ((State.mayRetire_l1d_congr hw _).trans hr)] at ht
  rw [ht]
  refine ⟨?_, hu.retired, ?_, ?_, hu.others⟩
  · show u.reports ++ _ = _
    rw [hu.frame]
  · show u.mem = _
    rw [hu.frame]
  · show u.regs = _
    rw [hu.frame]

/-- R199: a tag lost in an L1D is a machine check of its core. -/
theorem State.shows.tagLost_l1d (hf : e.found = .tagLost) (hrun : (v.core c).run ≠ .off) : let t := v.arrayError e
    t = { v with cores := t.cores, reports := v.reports ++ [.machineCheck c.val], telemetry := t.telemetry, fsi := t.fsi } ∧
      t.core c = { v.core c with run := .stopped .machineCheck } ∧ ∀ d, d ≠ c → t.core d = v.core d := by
  intro t
  have ht : t = _ := hs.tagLost hf
  rw [hc] at ht
  have ht' : t = ((v.count .l1Error).updCore c fun k => if k.run = .off then k else { k with run := .stopped .machineCheck }).report
      (.machineCheck c.val) := ht
  refine ⟨by rw [ht']; rfl, ?_, fun d hd => ?_⟩
  · rw [ht', State.core_report, State.core_updCore, State.core_count, if_neg hrun]
  · rw [ht', State.core_report, State.updCore, State.core_setCore_other _ hd, State.core_count]

end

/-- R199: a tag lost in an L1I empties its frame. -/
theorem State.shows.tagLost_l1i {v : State} {e : ArrayErr} {fr : Frame} {c : CoreId} (hs : v.shows e fr) (hc : e.cache = .l1i c)
    (hf : e.found = .tagLost) : let f := frameNo e.set.val e.way.val
    let t := v.arrayError e
    t = { v with cores := t.cores, telemetry := t.telemetry, fsi := t.fsi } ∧
      t.core c = { v.core c with l1i := { (v.core c).l1i with frames := (t.core c).l1i.frames } } ∧ (t.core c).l1i.frame f = none ∧
      (∀ g, g ≠ f → (t.core c).l1i.frame g = (v.core c).l1i.frame g) ∧ ∀ d, d ≠ c → t.core d = v.core d := by
  intro f t
  have ht : t = _ := hs.tagLost hf
  rw [hc] at ht
  have ht' : t = (v.count .l1Error).updCore c fun k => { k with l1i := k.l1i.setFrame f none } := ht
  have hcore : t.core c = { v.core c with l1i := (v.core c).l1i.setFrame f none } := by
    rw [ht', State.core_updCore, State.core_count]
  refine ⟨by rw [ht']; rfl, by rw [hcore]; rfl, ?_, fun g hg => ?_, fun d hd => ?_⟩
  · rw [hcore]
    exact Cache.frame_setFrame_self _ _ _
  · rw [hcore]
    exact Cache.frame_setFrame_other _ hg _
  · rw [ht', State.updCore, State.core_setCore_other _ hd, State.core_count]

/-! ### The data packet with an error -/

theorem Msg.matches_self (m : Msg) : m.matches m = true := by
  unfold Msg.matches
  cases m with | mk kind => cases kind <;> simp

/-- R199: the error shows once the packet, which is in flight, has arrived. -/
theorem execSectorData_error {s v : State} {who : Fin 19} {toHome : Bool} {sec : SecNo} {data : BitVec 512} {dirty excl poison : Bool}
    (e : ArrayErr)
    (hm : { kind := .data, quad := who, toHome := toHome, sec := sec, data := data, dirty := dirty, excl := excl,
            poison := poison : Msg } ∈ s.net)
    (hv : exec (.sectorData who toHome sec data dirty excl { poison := poison }) s = .next v) :
    exec (.sectorData who toHome sec data dirty excl { poison := poison, err := some e }) s = ok (v.arrayError e) := by
  have hany := List.any_eq_true.mpr ⟨_, hm, Msg.matches_self _⟩
  have hv' : execSectorData who toHome sec data dirty excl { poison := poison } s = .next v := hv
  show execSectorData who toHome sec data dirty excl { poison := poison, err := some e } s = _
  unfold execSectorData at hv' ⊢
  dsimp only at hv' ⊢
  rw [if_pos hany] at hv' ⊢
  injection hv' with hv'
  rw [hv']

/-- Settles O60: an error is one of the cases of `State.shows`, and each is a report, a loss and what becomes of the frame. -/
theorem arrayErrors : Obligations.ArrayErrors := by
  unfold Obligations.ArrayErrors
  refine ⟨fun kd k k' n g group => Cache.choose_not_retired, ?_⟩
  intro s v who toHome sec data dirty excl poison e fr c h i f x n old hm hv
  have he := execSectorData_error e hm hv
  refine ⟨fun hnone => by rw [State.arrayError_nothing hnone] at he; exact he, fun hok hpd hframe => ?_⟩
  have hs : v.shows e fr := ⟨hok, hpd, hframe⟩
  exact ⟨fun hc hf hd hn => completes_ok he (hs.corrected_l3_spec hc hf hd hn),
    fun hc hf hd hr => completes_ok he (hs.lost_l3_spec hc hf hd hr),
    fun hc hf hx hr => completes_ok he (hs.lost_l1d_retired hc hf hx hr),
    fun hc hf hx hr => completes_ok he (hs.lost_l1d_kept hc hf hx hr),
    fun hc hf hrun => completes_ok he (hs.tagLost_l1d hc hf hrun),
    fun hc hf hd => completes_ok he (hs.tagLost_l3_spec hc hf hd),
    fun hc hf => completes_ok he (hs.tagLost_l1i hc hf)⟩

end Sys2Proof.Machine

/-! PROOFS. O30 and O31: the cleat unit (R222 to R225). -/

namespace Sys2Proof.Machine

/-! ### CLEAT_STATE (R222) -/

theorem cleatHeld_toNat (o : BitVec 30) : (cleatHeld o).toNat = 3 * 2 ^ 30 + o.toNat := by
  rw [cleatHeld, BitVec.toNat_ofNat]
  omega

theorem State.cleatFree_of_zero {s : State} {n : Nat} (h : s.reg .CLEAT_STATE [n] = 0) : s.cleatFree n = true := by
  rw [State.cleatFree, State.fld, h]
  rfl

theorem State.cleatFree_of_held {s : State} {n : Nat} {o : BitVec 30} (h : s.reg .CLEAT_STATE [n] = cleatHeld o) :
    s.cleatFree n = false := by
  have hstate : bits (cleatHeld o) .CLEAT_STATE_STATE = 3 := by
    have ho := o.isLt
    rw [bits, cleatHeld_toNat, Nat.shiftRight_eq_div_pow]
    show (3 * 2 ^ 30 + o.toNat) / 2 ^ 30 % 2 ^ 2 = 3
    omega
  rw [State.cleatFree, State.fld, h, hstate]
  rfl

/-- A give by the owner frees the cleat (R225). -/
theorem State.cleatGive_of_owner {s : State} {r : CleatReq} (h : s.reg .CLEAT_STATE [r.n] = cleatHeld r.owner) :
    s.cleatGive r = s.setReg .CLEAT_STATE [r.n] 0 := by
  rw [State.cleatGive, State.cleatFree_of_held h, if_neg (by decide), if_pos h]

/-! ### The order of the requests (R223, R224) -/

theorem byId_nil : byId [] = [] := by decide

theorem byId_singleton {r : CleatReq} (h : r.id < 128) : byId [r] = [r] := by
  have hupTo : ∀ m, ((List.range m).flatMap fun i => [r].filter fun q => q.id == i) = if r.id < m then [r] else [] := by
    intro m
    induction m with
    | zero => rfl
    | succ m ih =>
      rw [List.range_succ, List.flatMap_append, ih, List.flatMap_singleton]
      by_cases hm : r.id = m
      · simp [hm]
      · have hlt : r.id < m + 1 ↔ r.id < m := by omega
        simp [hm, hlt]
  exact (hupTo 128).trans (if_pos h)

/-- There are arbitration IDs below 128 only (R222). -/
theorem Who.cleatId_lt (w : Who) : w.cleatId < 128 := by
  cases w with
  | core c _ _ => exact Nat.lt_trans c.isLt (by decide)
  | unit n =>
    show (if n = 29 then 66 else 65) < 128
    split <;> decide
  | fetas | dap => decide
  | far _ => exact (by decide : (65 : Nat) < 128)

theorem firstTake_mem {ptr : Nat} {l : List CleatReq} {r : CleatReq} (h : firstTake ptr l = some r) : r ∈ l := by
  obtain ⟨i, -, hi⟩ := List.exists_of_findSome?_eq_some h
  exact List.mem_of_find?_eq_some hi

/-- Counting upward from the pointer meets every arbitration ID (R224). -/
theorem firstTake_ne_none {ptr : Nat} {l : List CleatReq} {r : CleatReq} (hr : r ∈ l) (hid : r.id < 128) : firstTake ptr l ≠ none := by
  intro hnone
  have hfind := List.findSome?_eq_none_iff.mp hnone ((r.id + 128 - ptr % 128) % 128) (List.mem_range.mpr (Nat.mod_lt _ (by decide)))
  have hne := List.find?_eq_none.mp hfind r hr
  rw [beq_iff_eq] at hne
  omega

/-! ### The takes of a cleat (R224) -/

/-- The take that a window grants of a cleat: none while it is held. -/
def State.cleatWinner (s : State) (n : Nat) (l : List CleatReq) : Option CleatReq :=
  if s.cleatFree n then firstTake (s.cleats.ptr.get 0 n) l else none

/-- The state with the winner, if there is one, as owner, and the pointer behind it where there was a choice. -/
def State.cleatGranted (s : State) (n : Nat) (l : List CleatReq) : State :=
  match s.cleatWinner n l with
  | none => s
  | some r =>
    let s := s.setReg .CLEAT_STATE [n] (cleatHeld r.owner)
    if 1 < l.length then { s with cleats := { s.cleats with ptr := s.cleats.ptr.set 0 n ((r.id + 1) % 128) } } else s

/-- What a taker is told: 1 with its own name when it took the cleat, else 2 with the owner's. -/
def cleatAnswerTo (n : Nat) (win : Option CleatReq) (owner : Nat) (r : CleatReq) : Nat × Nat × Word :=
  (r.id, n, BitVec.ofNat 64 ((if win == some r then 1 else 2) * 2 ^ 30 + owner))

/-- A taker is told, and a core counts it. -/
def State.cleatTell (n : Nat) (win : Option CleatReq) (owner : Nat) (s : State) (r : CleatReq) : State :=
  let s := { s with cleats := { s.cleats with answers := s.cleats.answers ++ [cleatAnswerTo n win owner r] } }
  if r.id < 64 then
    let s := s.event (Fin.ofNat 64 r.id) evCleatTake
    if win == some r then s else s.event (Fin.ofNat 64 r.id) evCleatBusy
  else s

theorem State.cleatTakes_eq (s : State) (n : Nat) (l : List CleatReq) : s.cleatTakes n l =
    l.foldl (State.cleatTell n (s.cleatWinner n l) (((s.cleatGranted n l).reg .CLEAT_STATE [n]).toNat % 2 ^ 30)) (s.cleatGranted n l) := rfl

/-- Telling a taker adds its answer, and touches counters of cores. -/
theorem State.cleatTell_eq (n : Nat) (win : Option CleatReq) (owner : Nat) (s : State) (r : CleatReq) :
    let t := s.cleatTell n win owner r
    t = { s with cores := t.cores, cleats := { s.cleats with answers := s.cleats.answers ++ [cleatAnswerTo n win owner r] } } := by
  unfold State.cleatTell
  extract_lets x u v t
  have hv : OnCore (Fin.ofNat 64 r.id) u v := .event _ _ _ _
  have ht : OnCore (Fin.ofNat 64 r.id) u t := .ite (.ite hv (hv.trans (.event _ _ _ _))) (.refl _ _)
  exact ht.frame

/-- When every taker is told, only the answers and the counters of cores differ. -/
theorem State.foldl_cleatTell (n : Nat) (win : Option CleatReq) (owner : Nat) (l : List CleatReq) (s : State) :
    let t := l.foldl (State.cleatTell n win owner) s
    t = { s with cores := t.cores, cleats := { s.cleats with answers := s.cleats.answers ++ l.map (cleatAnswerTo n win owner) } } := by
  induction l generalizing s with
  | nil => simp
  | cons r l ih =>
    have htold := s.cleatTell_eq n win owner r
    have hrest := ih (s.cleatTell n win owner r)
    dsimp only at htold hrest ⊢
    rw [List.foldl_cons, List.map_cons, hrest, htold]
    simp only [List.append_assoc, List.singleton_append]

section
variable {s : State} {n : Nat} {l : List CleatReq}

theorem State.cleatTakes_nil : s.cleatTakes n [] = s := by
  have hnone : s.cleatWinner n [] = none := by
    unfold State.cleatWinner
    split
    · exact Option.eq_none_iff_forall_ne_some.mpr fun r hr => nomatch firstTake_mem hr
    · rfl
  rw [State.cleatTakes_eq, List.foldl_nil, State.cleatGranted, hnone]

theorem State.cleatWinner_of_held (h : s.cleatFree n = false) : s.cleatWinner n l = none := by
  rw [State.cleatWinner, if_neg (by rw [h]; decide)]

/-- One of the takers of a free cleat wins (R224). -/
theorem State.cleatWinner_of_free (h : s.cleatFree n = true) (hl : l ≠ []) (hid : ∀ q ∈ l, q.id < 128) :
    ∃ r ∈ l, s.cleatWinner n l = some r := by
  obtain ⟨q, hq⟩ := List.exists_mem_of_ne_nil l hl
  obtain ⟨r, hr⟩ := Option.ne_none_iff_exists'.mp (firstTake_ne_none (ptr := s.cleats.ptr.get 0 n) hq (hid q hq))
  exact ⟨r, firstTake_mem hr, by rw [State.cleatWinner, if_pos h, hr]⟩

theorem State.cleatGranted_frame (s : State) (n : Nat) (l : List CleatReq) : let t := s.cleatGranted n l
    t = { s with regs := t.regs, cleats := { s.cleats with ptr := t.cleats.ptr } } := by
  unfold State.cleatGranted
  split
  · rfl
  · dsimp only
    split <;> rfl

/-- What the takes of a cleat leave beside the counters of cores: its register as the grant makes it, and an answer to each taker. -/
theorem State.cleatTakes_frame (s : State) (n : Nat) (l : List CleatReq) : let t := s.cleatTakes n l
    t.reg .CLEAT_STATE [n] = (s.cleatGranted n l).reg .CLEAT_STATE [n] ∧ t.mem = s.mem ∧ t.cleats.reqs = s.cleats.reqs ∧
    t.cleats.answers = s.cleats.answers ++ l.map (cleatAnswerTo n (s.cleatWinner n l) ((t.reg .CLEAT_STATE [n]).toNat % 2 ^ 30)) := by
  intro t
  have hgrant := s.cleatGranted_frame n l
  have htold := State.foldl_cleatTell n (s.cleatWinner n l) (((s.cleatGranted n l).reg .CLEAT_STATE [n]).toNat % 2 ^ 30) l (s.cleatGranted n l)
  rw [← State.cleatTakes_eq] at htold
  change t = _ at htold
  generalize s.cleatGranted n l = g at hgrant htold
  have hreg : t.reg .CLEAT_STATE [n] = g.reg .CLEAT_STATE [n] := by rw [htold]; rfl
  refine ⟨hreg, ?_, ?_, ?_⟩
  · rw [htold, hgrant]
  · rw [htold, hgrant]
  · rw [hreg, htold, hgrant]

/-- R224: the winner owns the cleat. -/
theorem State.cleatTakes_reg_won {r : CleatReq} (h : s.cleatWinner n l = some r) :
    (s.cleatTakes n l).reg .CLEAT_STATE [n] = cleatHeld r.owner := by
  obtain ⟨hreg, -⟩ := s.cleatTakes_frame n l
  rw [hreg]
  simp only [State.cleatGranted, h]
  split <;> exact State.reg_setReg _ _ _ _

/-- R223: without a winner its owner stays. -/
theorem State.cleatTakes_reg_kept (h : s.cleatWinner n l = none) :
    (s.cleatTakes n l).reg .CLEAT_STATE [n] = s.reg .CLEAT_STATE [n] := by
  obtain ⟨hreg, -⟩ := s.cleatTakes_frame n l
  rw [hreg, State.cleatGranted, h]

end

/-! ### The end of a window (R223) -/

theorem foldl_insertRising_self (n : Nat) (l : List CleatReq) (h : ∀ q ∈ l, q.n = n) :
    l.foldl (fun ns q => insertRising q.n ns) [n] = [n] := by
  induction l with
  | nil => rfl
  | cons q l ih =>
    have hq : insertRising q.n [n] = [n] := by rw [h q (by simp)]; simp [insertRising]
    rw [List.foldl_cons, hq]
    exact ih fun r hr => h r (by simp [hr])

/-- A window whose requests are all of one cleat: the forced free, then the gives, then the takes (R223). -/
theorem State.cleatWindow_of_one {s : State} {n : Nat} (hne : s.cleats.reqs ≠ []) (hn : ∀ q ∈ s.cleats.reqs, q.n = n) :
    let reqs := s.cleats.reqs
    let u : State := { s with cleats := { s.cleats with reqs := [] } }
    let v := if reqs.any fun q => q.op == .force then u.setReg .CLEAT_STATE [n] 0 else u
    s.cleatWindow = ((byId (reqs.filter fun q => q.op == .give)).foldl State.cleatGive v).cleatTakes n
      (reqs.filter fun q => q.op == .take) := by
  intro reqs u v
  have hns : reqs.foldl (fun ns q => insertRising q.n ns) [] = [n] := by
    obtain ⟨q, l, hl⟩ := List.exists_cons_of_ne_nil hne
    have hall : ∀ r ∈ q :: l, r.n = n := hl ▸ hn
    have hfirst : insertRising q.n [] = [n] := congrArg (fun m => [m]) (hall q (by simp))
    rw [show reqs = q :: l from hl, List.foldl_cons, hfirst]
    exact foldl_insertRising_self n l fun r hr => hall r (by simp [hr])
  have hmine : reqs.filter (fun q => q.n == n) = reqs := List.filter_eq_self.mpr fun q hq => beq_iff_eq.mpr (hn q hq)
  unfold State.cleatWindow
  dsimp only
  rw [hns, List.foldl_cons, List.foldl_nil, hmine]

/-- A window of takes alone. -/
theorem State.cleatWindow_of_takes {s : State} {n : Nat} (hne : s.cleats.reqs ≠ [])
    (htakes : ∀ q ∈ s.cleats.reqs, q.op = .take ∧ q.n = n) :
    s.cleatWindow = ({ s with cleats := { s.cleats with reqs := [] } } : State).cleatTakes n s.cleats.reqs := by
  have hop (op : CleatOp) : ∀ q ∈ s.cleats.reqs, (q.op == op) = (CleatOp.take == op) := fun q hq => by rw [(htakes q hq).1]
  have hforce : s.cleats.reqs.any (fun q => q.op == .force) = false := List.any_eq_false.mpr fun q hq => by rw [hop _ q hq]; decide
  have hgive : s.cleats.reqs.filter (fun q => q.op == .give) = [] := List.filter_eq_nil_iff.mpr fun q hq => by rw [hop _ q hq]; decide
  have htake : s.cleats.reqs.filter (fun q => q.op == .take) = s.cleats.reqs := List.filter_eq_self.mpr fun q hq => by rw [hop _ q hq]; decide
  rw [State.cleatWindow_of_one hne fun q hq => (htakes q hq).2, hforce, hgive, htake]
  rfl

/-- CLEAT_WINDOW with the unit on. -/
theorem exec_cleatWindow {s : State} (h : s.pdUp 91 = true) : exec .cleatWindow s = ok s.cleatWindow := by
  show ok (if s.pdUp 91 then s.cleatWindow else s) = _
  rw [if_pos h]

/-! ### Takes alone (R223, R224) -/

/-- A taker reads 1 in the answer's STATE when it took the cleat. -/
theorem cleatAnswerTo_took {owner : Nat} (h : owner < 2 ^ 30) (n : Nat) (win : Option CleatReq) (r : CleatReq) :
    ((cleatAnswerTo n win owner r).2.2.toNat / 2 ^ 30 == 1) = (win == some r) := by
  rw [cleatAnswerTo, BitVec.toNat_ofNat, Bool.eq_iff_iff, beq_iff_eq]
  by_cases hw : win = some r
  · simp [hw]
    omega
  · simp [hw]
    omega

/-- What the winner reads: STATE 1 and its own name. -/
theorem cleatAnswerTo_winner (n : Nat) (r : CleatReq) :
    cleatAnswerTo n (some r) ((cleatHeld r.owner).toNat % 2 ^ 30) r = (r.id, n, BitVec.ofNat 64 (2 ^ 30 + r.owner.toNat)) := by
  have howner : (cleatHeld r.owner).toNat % 2 ^ 30 = r.owner.toNat := by
    rw [cleatHeld_toNat]
    omega
  rw [cleatAnswerTo, howner, if_pos (beq_self_eq_true _), Nat.one_mul]

/-- As many takers are told that they took the cleat as there are winners among them. -/
theorem length_took {owner : Nat} (h : owner < 2 ^ 30) (n : Nat) (win : Option CleatReq) (l : List CleatReq) :
    ((l.map (cleatAnswerTo n win owner)).filter fun a => a.2.2.toNat / 2 ^ 30 == 1).length = l.countP fun r => win == some r := by
  rw [← List.countP_eq_length_filter, List.countP_map]
  exact List.countP_congr fun r _ => by rw [Function.comp_apply, cleatAnswerTo_took h]

/-- Settles O31: the takes of a window have one winner, and none where the cleat is held. -/
theorem cleatExclusion : Obligations.CleatExclusion := by
  unfold Obligations.CleatExclusion
  intro s n hon hne hans htakes hids
  refine completes_ok (exec_cleatWindow hon) ?_
  rw [State.cleatWindow_of_takes hne fun q hq => ⟨(htakes q hq).1, (htakes q hq).2.1⟩]
  generalize s.cleats.reqs = l at hne htakes hids
  generalize hu : ({ s with cleats := { s.cleats with reqs := [] } } : State) = u
  have hfree : u.cleatFree n.val = s.cleatFree n.val := by rw [← hu]; rfl
  have hreg : u.reg .CLEAT_STATE [n.val] = s.reg .CLEAT_STATE [n.val] := by rw [← hu]; rfl
  obtain ⟨-, -, -, hanswers⟩ := u.cleatTakes_frame n.val l
  have hnone : u.cleats.answers = [] := by rw [← hu]; exact hans
  rw [hnone, List.nil_append] at hanswers
  rw [hanswers, length_took (Nat.mod_lt _ (by decide)), List.length_map, ← hfree, ← hreg]
  cases hf : u.cleatFree n.val with
  | false =>
    have hlose := State.cleatWinner_of_held (l := l) hf
    exact ⟨by simp [hlose], rfl, nofun, fun _ => State.cleatTakes_reg_kept hlose⟩
  | true =>
    obtain ⟨r, hr, hwin⟩ := State.cleatWinner_of_free hf hne fun q hq => (htakes q hq).2.2
    refine ⟨?_, rfl, fun _ => ⟨r, hr, State.cleatTakes_reg_won hwin⟩, nofun⟩
    have hcount : l.count r = 1 := List.count_eq_one_of_mem (hids.of_map _) hr
    rw [hwin, if_pos rfl, ← hcount, List.count_eq_countP]
    exact List.countP_congr fun q _ => by rw [beq_iff_eq, beq_iff_eq, Option.some.injEq, eq_comm]

/-! ### Single requests (R222, R225) -/

/-- A cleat command reaches the unit, from a requester that its register lists. -/
theorem State.cleatCommand_joins {s : State} {op : CleatOp} {r : Reg} {w : Who} {n : Nat} (hon : s.pdUp 91 = true)
    (ha : r.admits w = true) (hnew : op = .take → ∀ q ∈ s.cleats.reqs, q.op = .take → q.n = n → q.id ≠ w.cleatId) :
    s.cleatCommand op r w n = { s with cleats := { s.cleats with
      reqs := s.cleats.reqs ++ [{ op := op, n := n, id := w.cleatId, owner := w.cleatOwner }] } } := by
  unfold State.cleatCommand
  dsimp only
  rw [hon, ha, if_neg (by decide), if_neg (by decide), State.cleatSubmit]
  refine if_neg ?_
  rintro ⟨hop, hany⟩
  obtain ⟨q, hq, hsame⟩ := List.any_eq_true.mp hany
  simp only [Bool.and_eq_true, beq_iff_eq] at hsame
  obtain ⟨⟨hqop, hqn⟩, hqid⟩ := hsame
  exact hnew hop q hq hqop hqn hqid

theorem State.cleatCommand_refused {s : State} {op : CleatOp} {r : Reg} {w : Who} {n : Nat} (hon : s.pdUp 91 = true)
    (ha : r.admits w = false) : s.cleatCommand op r w n = s.busErr w (op != .take) 3 (r.at [n]) := by
  unfold State.cleatCommand
  dsimp only
  rw [hon, ha, if_neg (by decide), if_pos (by decide)]

theorem State.cleatCommand_off {s : State} {op : CleatOp} {r : Reg} {w : Who} {n : Nat} (hoff : s.pdUp 91 = false) :
    s.cleatCommand op r w n = s.busErr w (op != .take) 4 (r.at [n]) := by
  unfold State.cleatCommand
  dsimp only
  rw [hoff, if_pos (by decide)]

/-- The three commands are requests of the sender. -/
theorem exec_cleatRequest (s : State) (by' : Sender) (n : Fin 4096) :
    ∀ z ∈ [(CleatOp.take, Reg.CLEAT_TAKE, Instr.cleatTake by' n), (.give, .CLEAT_GIVE, .cleatGive by' n),
      (.force, .CLEAT_FORCE, .cleatForce by' n)], exec z.2.2 s = ok (s.cleatCommand z.1 z.2.1 (s.who by') n.val) := by
  intro z hz
  simp only [List.mem_cons, List.not_mem_nil, or_false] at hz
  rcases hz with rfl | rfl | rfl <;> rfl

/-- A window of a forced free alone: the cleat is free (R225). -/
theorem State.cleatWindow_force {s : State} {r : CleatReq} (h : s.cleats.reqs = [r]) (hop : r.op = .force) :
    s.cleatWindow = ({ s with cleats := { s.cleats with reqs := [] } } : State).setReg .CLEAT_STATE [r.n] 0 := by
  have hwindow := State.cleatWindow_of_one (s := s) (n := r.n) (by simp [h]) (by simp [h])
  rw [h] at hwindow
  simpa [hop, byId_nil, State.cleatTakes_nil] using hwindow

/-- A window of a give alone (R225). -/
theorem State.cleatWindow_give {s : State} {r : CleatReq} (h : s.cleats.reqs = [r]) (hop : r.op = .give) (hid : r.id < 128) :
    s.cleatWindow = ({ s with cleats := { s.cleats with reqs := [] } } : State).cleatGive r := by
  have hwindow := State.cleatWindow_of_one (s := s) (n := r.n) (by simp [h]) (by simp [h])
  rw [h] at hwindow
  simpa [hop, byId_singleton hid, State.cleatTakes_nil] using hwindow

/-- Settles O30: a command is a request in the window, or a report; and the window of one request is that request. -/
theorem cleatCommands : Obligations.CleatCommands := by
  unfold Obligations.CleatCommands
  intro s by' n w r joined free
  refine ⟨fun z hz => ?_, fun hon => ⟨fun hreqs hzero => ?_, fun hreqs howner => ?_, fun hreqs => ?_⟩⟩
  · have he := exec_cleatRequest s by' n z hz
    intro report
    have hreport (kind : Nat) : s.busErr w (z.1 != .take) kind (z.2.1.at [n.val]) = report kind := by
      have hwrite : (z.1 != .take) = decide (z.1 ≠ .take) := by cases z.1 <;> rfl
      rw [hwrite]
      rfl
    refine ⟨fun hon ha hnew => ?_, fun hon ha => ?_, fun hoff => ?_⟩
    · rw [State.cleatCommand_joins hon ha hnew] at he
      exact he
    · rw [State.cleatCommand_refused hon ha] at he
      exact he.trans (congrArg ok (hreport 3))
    · rw [State.cleatCommand_off hoff] at he
      exact he.trans (congrArg ok (hreport 4))
  · refine completes_ok (exec_cleatWindow hon) ?_
    rw [State.cleatWindow_of_takes (n := n.val) (by simp [hreqs]) (by simp [hreqs, r]), hreqs]
    generalize hu : ({ s with cleats := { s.cleats with reqs := [] } } : State) = u
    have hfree : u.cleatFree n.val = true := State.cleatFree_of_zero (by rw [← hu]; exact hzero)
    obtain ⟨q, hq, hwin⟩ := State.cleatWinner_of_free (l := [r .take]) hfree (by simp) (by simp [r, w.cleatId_lt])
    rw [List.mem_singleton.mp hq] at hwin
    have hreg := State.cleatTakes_reg_won hwin
    obtain ⟨-, hmem, hnone, hanswers⟩ := u.cleatTakes_frame n.val [r .take]
    refine ⟨hreg, ?_, ?_, ?_⟩
    · rw [hnone, ← hu]
    · rw [hmem, ← hu]
    · rw [hanswers, hreg, hwin, ← hu, List.map_singleton, cleatAnswerTo_winner]
  · refine completes_ok (exec_cleatWindow hon) ?_
    rw [State.cleatWindow_give hreqs rfl w.cleatId_lt, State.cleatGive_of_owner howner]
    exact OnReg.setReg _ _ _ _
  · refine completes_ok (exec_cleatWindow hon) ?_
    rw [State.cleatWindow_force hreqs rfl]
    exact OnReg.setReg _ _ _ _

end Sys2Proof.Machine

/-! PROOFS. O20: drains of the buffers, and what they leave alone (R137, R206, R210, R216). -/

namespace Sys2Proof.Machine

/-! ### What a drain leaves alone -/

/-- Memory, the homes, every other core, and of the core its registers and its PC are as they were. -/
structure State.Quiet (c : CoreId) (s t : State) : Prop where
  mem : t.mem = s.mem
  homes : t.homes = s.homes
  others : ∀ d, d ≠ c → t.core d = s.core d
  g : (t.core c).g = (s.core c).g
  f : (t.core c).f = (s.core c).f
  pc : (t.core c).pc = (s.core c).pc

section
variable {s t u : State} {c : CoreId}

theorem State.Quiet.refl (c : CoreId) (s : State) : State.Quiet c s s := ⟨rfl, rfl, fun _ _ => rfl, rfl, rfl, rfl⟩

theorem State.Quiet.trans (h : State.Quiet c s t) (g : State.Quiet c t u) : State.Quiet c s u :=
  ⟨g.mem.trans h.mem, g.homes.trans h.homes, fun d hd => (g.others d hd).trans (h.others d hd), g.g.trans h.g, g.f.trans h.f,
    g.pc.trans h.pc⟩

theorem State.Quiet.upd (s : State) (f : Core → Core) (hf : Core.Still (s.core c) (f (s.core c))) : State.Quiet c s (s.updCore c f) :=
  ⟨rfl, rfl, fun _ hd => State.core_setCore_other _ hd _, by rw [State.core_updCore, hf.g], by rw [State.core_updCore, hf.f],
    by rw [State.core_updCore, hf.pc]⟩

theorem State.Quiet.updL2 (c : CoreId) (s : State) (q : Nat) (f : Cache → Cache) : State.Quiet c s (s.updL2 q f) :=
  ⟨rfl, rfl, fun _ _ => rfl, rfl, rfl, rfl⟩

theorem State.Quiet.event (c : CoreId) (s : State) (e : Nat) : State.Quiet c s (s.event c e) := by
  have h := OnCore.event c s e 1
  refine ⟨by rw [h.frame], by rw [h.frame], h.others, ?_, ?_, h.pc⟩
  · rw [h.core.rest]
  · rw [h.core.rest]

theorem State.Quiet.openMram (c : CoreId) (s : State) (pa : Nat) : State.Quiet c s (s.openMram c pa) := by
  unfold State.openMram
  split
  · exact .upd _ _ (Core.Serves.of_caches rfl).toStill
  · exact .refl _ _

theorem State.Quiet.l1dWrite (c : CoreId) (s : State) (n : Nat) (d : BitVec 512) (mask : BitVec 64) :
    State.Quiet c s (s.l1dWrite c n d mask) := by
  unfold State.l1dWrite
  refine .trans (.upd s _ ?_) (.updL2 _ _ _ _)
  exact (Core.Serves.of_caches rfl).toStill

theorem State.Quiet.storeWrite (c : CoreId) (s : State) (e : StoreEntry) : State.Quiet c s (s.storeWrite c e) := by
  unfold State.storeWrite
  refine .trans (.trans (.l1dWrite c s _ _ _) (.openMram c _ _)) (.upd _ _ ?_)
  exact (Core.Serves.of_caches rfl).toStill

/-! ### What an event and a mark of an MRAM sector leave of their core -/

theorem State.core_event (s : State) (c : CoreId) (e : Nat) : (s.event c e).core c =
    { s.core c with trace := ((s.event c e).core c).trace, sys := ((s.event c e).core c).sys, run := ((s.event c e).core c).run } := by
  have h := OnCore.event c s e 1
  conv => lhs; rw [h.core.rest, h.pc, h.seqEnd]

theorem State.core_openMram (s : State) (c : CoreId) (pa : Nat) :
    (s.openMram c pa).core c = { s.core c with mramOpen := ((s.openMram c pa).core c).mramOpen } := by
  unfold State.openMram
  split
  · rw [State.core_updCore]
  · rfl

theorem State.core_storeWrite (s : State) (c : CoreId) (e : StoreEntry) (hs : e.size ≤ 8) : (s.storeWrite c e).core c =
    { s.core c with stWait := none, mramOpen := ((s.storeWrite c e).core c).mramOpen,
                    l1d := (s.core c).l1d.updSec .l1 (e.pa / 64) fun y =>
                      { y with st := .m, data := mergeBytes y.data e.placed.1 e.placed.2 } } := by
  have hsize : ¬ e.size = 64 := by omega
  unfold State.storeWrite State.l1dWrite
  simp only [State.core_updCore, if_neg hsize]
  rw [State.core_openMram, State.core_updL2, State.core_updCore]

/-! ### A store into a sector that is owned (R205) -/

theorem State.ownsSec_iff (s : State) (c : CoreId) (n : Nat) :
    s.ownsSec c n = true ↔ (s.l1dSec c n).st = .e ∨ (s.l1dSec c n).st = .m := by
  simp [State.ownsSec, State.l1dSec]

theorem Cache.sec_of_secD {k : Cache} {kd : CacheKind} {n : Nat} (h : (k.secD kd n).st ≠ .i) : k.sec kd n = some (k.secD kd n) := by
  unfold Cache.secD at h ⊢
  cases hs : k.sec kd n with
  | none => rw [hs] at h; exact absurd rfl h
  | some y => rfl

theorem State.storeCached_owned (s : State) (c : CoreId) (e : StoreEntry) (hz : e.zeroed = false) (ho : s.ownsSec c (e.pa / 64) = true) :
    s.storeCached c e = (true, s.storeWrite c e) := by
  unfold State.storeCached
  dsimp only
  rw [hz, if_neg (by decide), if_pos ho]

/-- R205: the sector holds the bytes of the store, and is dirty. -/
theorem State.storeWrite_sec (s : State) (c : CoreId) (e : StoreEntry) (hs : e.size ≤ 8) (ho : s.ownsSec c (e.pa / 64) = true) :
    (s.storeWrite c e).l1dSec c (e.pa / 64) =
      { s.l1dSec c (e.pa / 64) with st := .m, data := mergeBytes (s.l1dSec c (e.pa / 64)).data e.placed.1 e.placed.2 } := by
  have hne : (s.l1dSec c (e.pa / 64)).st ≠ .i := by
    rcases (s.ownsSec_iff c _).mp ho with h | h <;> rw [h] <;> decide
  have hsec := Cache.sec_of_secD hne
  unfold State.l1dSec
  rw [State.core_storeWrite s c e hs, Cache.secD, Cache.sec_updSec_self, hsec]
  rfl

theorem State.storeWrite_sec_other (s : State) (c : CoreId) (e : StoreEntry) (hs : e.size ≤ 8) {n : Nat} (hn : n ≠ e.pa / 64) :
    (s.storeWrite c e).l1dSec c n = s.l1dSec c n := by
  unfold State.l1dSec
  rw [State.core_storeWrite s c e hs, Cache.secD, Cache.sec_updSec_other _ _ _ hn]
  rfl

/-- A sector that is owned stays so. -/
theorem State.storeWrite_owns (s : State) (c : CoreId) (e : StoreEntry) (hs : e.size ≤ 8) (ho : s.ownsSec c (e.pa / 64) = true) {n : Nat}
    (hn : s.ownsSec c n = true) : (s.storeWrite c e).ownsSec c n = true := by
  rw [State.ownsSec_iff] at hn ⊢
  by_cases h : n = e.pa / 64
  · subst h
    exact .inr (by rw [State.storeWrite_sec s c e hs ho])
  · rw [State.storeWrite_sec_other s c e hs h]
    exact hn

end

/-! ### The oldest store (R206, R210, R216) -/

/-- The oldest entry of the store buffer leaves it, counted. -/
def State.popStore (s : State) (c : CoreId) : State := (s.updCore c fun k => { k with sb := k.sb.tail }).event c evDrain

section
variable {s : State} {c : CoreId} {e : StoreEntry} {rest : List StoreEntry}

theorem State.core_popStore (s : State) (c : CoreId) : (s.popStore c).core c =
    { s.core c with sb := (s.core c).sb.tail, trace := ((s.popStore c).core c).trace, sys := ((s.popStore c).core c).sys,
                    run := ((s.popStore c).core c).run } := by
  unfold State.popStore
  conv => lhs; rw [State.core_event, State.core_updCore]

theorem State.Quiet.popStore (s : State) (c : CoreId) : State.Quiet c s (s.popStore c) := by
  unfold State.popStore
  refine .trans (.upd s _ ?_) (.event _ _ _)
  exact .of_buffers rfl

theorem exec_storeBufferDrain (hsb : (s.core c).sb = e :: rest) (ht : e.typ ≠ .uncached) :
    exec (.storeBufferDrain c) s = ok (s.drainHead c).2 := by
  show execStoreBufferDrain c s = _
  simp only [execStoreBufferDrain, hsb, if_neg ht]

theorem exec_storeBufferDrain_uncached (hsb : (s.core c).sb = e :: rest) (ht : e.typ = .uncached) :
    exec (.storeBufferDrain c) s = ok (s.headSend c e) := by
  show execStoreBufferDrain c s = _
  simp only [execStoreBufferDrain, hsb, if_pos ht]

/-- R206: a cacheable store drains into the sector that its core owns. -/
theorem State.drainHead_owned (hsb : (s.core c).sb = e :: rest) (ht : e.typ = .normal ∨ e.typ = .persistent) (hz : e.zeroed = false)
    (ho : s.ownsSec c (e.pa / 64) = true) : s.drainHead c = (true, (s.storeWrite c e).popStore c) := by
  rcases ht with ht | ht
  · simp only [State.drainHead, hsb, ht, State.storeCached_owned s c e hz ho]
    rfl
  · simp only [State.drainHead, hsb, ht, State.storeCached_owned s c e hz ho]
    rfl

theorem completes_drain_owned (hsb : (s.core c).sb = e :: rest) (ht : e.typ = .normal ∨ e.typ = .persistent) (hz : e.zeroed = false)
    (hs : e.size ≤ 8) (ho : s.ownsSec c (e.pa / 64) = true) :
    Completes (.storeBufferDrain c) s fun t => (t.core c).sb = rest ∧ State.Quiet c s t ∧ t.l1dSec c (e.pa / 64) =
      { s.l1dSec c (e.pa / 64) with st := .m, data := mergeBytes (s.l1dSec c (e.pa / 64)).data e.placed.1 e.placed.2 } := by
  have he := exec_storeBufferDrain hsb (by rcases ht with ht | ht <;> rw [ht] <;> decide)
  rw [State.drainHead_owned hsb ht hz ho] at he
  refine completes_ok he ⟨?_, (State.Quiet.storeWrite c s e).trans (.popStore _ _), ?_⟩
  · rw [State.core_popStore, State.core_storeWrite s c e hs, hsb, List.tail_cons]
  · rw [← State.storeWrite_sec s c e hs ho]
    unfold State.l1dSec
    rw [State.core_popStore]

/-- R210: a Device store is injected. -/
theorem completes_drain_device (hsb : (s.core c).sb = e :: rest) (ht : e.typ = .device) :
    Completes (.storeBufferDrain c) s fun t => (t.core c).sb = rest ∧ (t.core c).devOut = (s.core c).devOut ++ [e] ∧ State.Quiet c s t := by
  have he := exec_storeBufferDrain hsb (by rw [ht]; decide)
  have hd : (s.drainHead c).2 = ((s.openMram c e.pa).updCore c fun k => { k with devOut := k.devOut ++ [e] }).popStore c := by
    simp only [State.drainHead, hsb, ht]
    rfl
  rw [hd] at he
  refine completes_ok he ⟨?_, ?_, .trans (.trans (.openMram c s e.pa) (.upd _ _ ?_)) (.popStore _ _)⟩
  · rw [State.core_popStore, State.core_updCore, State.core_openMram, hsb, List.tail_cons]
  · rw [State.core_popStore, State.core_updCore, State.core_openMram]
  · exact .of_buffers rfl

theorem State.openMram_net (s : State) (c : CoreId) (pa : Nat) : (s.openMram c pa).net = s.net := by
  unfold State.openMram
  split <;> rfl

/-- Where no fill waits and no packet can arrive, nothing goes on. -/
theorem State.progress_of_stuck {n : Nat} (hf : ∀ y ∈ s.quads, y.2.fills = [])
    (hn : (s.net.find? fun p => s.moves n p && s.canArrive p) = none) :
    s.progress n = s := by
  have hfold : ∀ l : List (Nat × Quad), (∀ y ∈ l, y.2.fills = []) →
      l.foldl (fun s y => if y.2.fills.isEmpty then s else s.quadGo y.1) s = s := by
    intro l hl
    induction l with
    | nil => rfl
    | cons y l ih =>
      rw [List.foldl_cons, if_pos (by rw [hl y (by simp)]; rfl)]
      exact ih fun z hz => hl z (by simp [hz])
  unfold State.progress
  rw [hfold _ hf]
  unfold settleFuel State.settle
  rw [hn]

/-- An answer that no packet is on its way before is taken at once (R23). -/
theorem State.collect_of_first {mine : Msg → Bool} {m : Msg} (hm : s.net.find? mine = some m)
    (hp : ∀ p ∈ s.net, p.samePath m = true → p.stays = true) : s.collect mine = (some m, { s with net := s.net.erase m }) := by
  have hnone : (s.net.takeWhile fun p => p != m).filter (fun p => p.samePath m && !p.stays) = [] := by
    refine List.filter_eq_nil_iff.mpr fun p hin => ?_
    have hin := (List.takeWhile_sublist _).subset hin
    cases hsame : p.samePath m with
    | false => simp
    | true => simp [hp p hin hsame]
  unfold State.collect
  rw [hm]
  dsimp only
  rw [hnone, List.foldl_nil]

/-- R216: an acknowledged Uncached store leaves the buffer. -/
theorem completes_uncachedAck {m : Msg} (hsb : (s.core c).sb = e :: rest) (ht : e.typ = .uncached) (hsent : (s.core c).ucwSent = true)
    (hup : s.homeAnswers (e.pa / 64) = true) (hstuck : s.progress (e.pa / 64) = s)
    (hp : ∀ p ∈ s.net, p.samePath m = true → p.stays = true)
    (hm : (s.net.find? fun p => p.kind == .done && p.quad == quadOf c && p.core == c.val && p.sec == e.pa / 64) = some m) :
    Completes (.uncachedStoreAck c) s fun t => (t.core c).sb = rest ∧ (t.core c).ucwSent = false ∧ t.net = s.net.erase m ∧
      State.Quiet c s t := by
  generalize hu : ({ s with net := s.net.erase m } : State) = u
  have hack : s.ucWrite (quadOf c) (e.pa / 64) e.placed.1 e.placed.2 false e.cls c.val e.pid true = (true, u) := by
    unfold State.ucWrite
    dsimp only
    rw [hup, if_neg (by decide), if_pos rfl, hstuck, State.collect_of_first hm hp, hu]
  have he : exec (.uncachedStoreAck c) s =
      ok (((u.updCore c fun k => { k with sb := k.sb.tail, ucwSent := false }).event c evDrain).openMram c e.pa) := by
    show execUncachedStoreAck c s = _
    simp only [execUncachedStoreAck, hsb, if_pos (And.intro ht hsent), State.headAck, hack]
  have hcore : u.core c = s.core c := by rw [← hu]; rfl
  have hq : State.Quiet c s u := by rw [← hu]; exact ⟨rfl, rfl, fun _ _ => rfl, rfl, rfl, rfl⟩
  refine completes_ok he ⟨?_, ?_, ?_, .trans (.trans (hq.trans (.upd u _ ?_)) (.event _ _ _)) (.openMram _ _ _)⟩
  · rw [State.core_openMram, State.core_event, State.core_updCore, hcore, hsb, List.tail_cons]
  · rw [State.core_openMram, State.core_event, State.core_updCore]
  · rw [State.openMram_net, ← hu]
    rfl
  · exact .of_buffers rfl
end

/-! ### The frame (R137) -/

/-- A store leaves the bytes of its sector that it does not write. -/
theorem secBytes_merged_disjoint (e : StoreEntry) (old : BitVec 512) (hs : e.size ≤ 8) {i k : Nat} (hi : i + k ≤ 64)
    (h : i + k ≤ e.pa % 64 ∨ e.pa % 64 + e.size ≤ i) : secBytes (mergeBytes old e.placed.1 e.placed.2) i k = secBytes old i k := by
  refine Nat.eq_of_testBit_eq fun j => ?_
  rw [secBytes_testBit, secBytes_testBit]
  by_cases hj : j < 8 * k
  · rw [mergeBytes_getLsbD _ _ _ _ (by omega), e.placed_mask hs _ (by omega), if_neg (by simp; omega)]
  · simp [hj]

/-- An entry of a frame that drains at once: a doubleword, in a sector that the core owns. -/
structure StoreEntry.Drains (e : StoreEntry) (s : State) (c : CoreId) : Prop where
  zeroed : e.zeroed = false
  size : e.size = 8
  aligned : e.pa % 8 = 0
  owned : s.ownsSec c (e.pa / 64) = true

section
variable {s : State} {c : CoreId} {e : StoreEntry}

theorem StoreEntry.Drains.bytes (h : e.Drains s c) : (s.storeWrite c e).l1dBytes c e.pa 8 = e.data.toNat := by
  have hs : e.size ≤ 8 := h.size.le
  have ha := h.aligned
  have hmerged := secBytes_merged e (s.l1dSec c (e.pa / 64)).data hs (by rw [h.size]; omega)
  rw [h.size] at hmerged
  rw [State.l1dBytes, State.storeWrite_sec s c e hs h.owned, hmerged]
  exact Nat.mod_eq_of_lt e.data.isLt

/-- The other doublewords of the L1D stay. -/
theorem StoreEntry.Drains.bytes_other (h : e.Drains s c) {pa : Nat} (ha : pa % 8 = 0) (hne : pa ≠ e.pa) :
    (s.storeWrite c e).l1dBytes c pa 8 = s.l1dBytes c pa 8 := by
  have hs : e.size ≤ 8 := h.size.le
  have hal := h.aligned
  unfold State.l1dBytes
  by_cases hsec : pa / 64 = e.pa / 64
  · rw [hsec, State.storeWrite_sec s c e hs h.owned]
    exact secBytes_merged_disjoint e _ hs (by omega) (by rw [h.size]; omega)
  · rw [State.storeWrite_sec_other s c e hs hsec]

/-- The first entry of a frame has drained, and the rest stands there. -/
def State.frameStep (s : State) (c : CoreId) (e : StoreEntry) (rest : List StoreEntry) : State :=
  (s.storeWrite c e).updCore c fun k => { k with frame := rest }

theorem State.l1dSec_frameStep (s : State) (c : CoreId) (e : StoreEntry) (rest : List StoreEntry) (n : Nat) :
    (s.frameStep c e rest).l1dSec c n = (s.storeWrite c e).l1dSec c n := by
  unfold State.l1dSec State.frameStep
  rw [State.core_updCore]

theorem State.Quiet.frameStep (s : State) (c : CoreId) (e : StoreEntry) (rest : List StoreEntry) :
    State.Quiet c s (s.frameStep c e rest) := by
  unfold State.frameStep
  refine .trans (.storeWrite c s e) (.upd _ _ ?_)
  exact .of_buffers rfl

/-- What drains still does after an older entry of the frame. -/
theorem StoreEntry.Drains.step {y : StoreEntry} (h : e.Drains s c) (hy : y.Drains s c) (rest : List StoreEntry) :
    y.Drains (s.frameStep c e rest) c := by
  refine ⟨hy.zeroed, hy.size, hy.aligned, ?_⟩
  have howns := State.storeWrite_owns s c e h.size.le h.owned hy.owned
  rw [State.ownsSec_iff] at howns ⊢
  rwa [State.l1dSec_frameStep]

theorem State.drainFrameN_of_empty (hf : (s.core c).frame = []) (n : Nat) : s.drainFrameN c n = (true, s) := by
  cases n with
  | zero => rfl
  | succ n => simp only [State.drainFrameN, hf]

/-- With no store before it the frame is next. -/
theorem State.drainFrame_of_no_store (hsb : (s.core c).sb = []) : s.drainFrame c = s.drainFrameN c 10 := by
  unfold State.drainFrame State.drainAll
  rw [hsb]
  split
  · next hf => exact (State.drainFrameN_of_empty (List.isEmpty_iff.mp hf) 10).symm
  · rfl

/-- R137: a frame whose sectors are owned drains whole, and nothing but its doublewords is written. -/
theorem State.drainFrameN_drains {fr : List StoreEntry} {n : Nat} (hn : fr.length ≤ n) (hf : (s.core c).frame = fr)
    (hd : ∀ y ∈ fr, y.Drains s c) (hpas : (fr.map fun y => y.pa).Nodup) :
    ∃ t, s.drainFrameN c n = (true, t) ∧ (t.core c).frame = [] ∧ State.Quiet c s t ∧
      (∀ y ∈ fr, t.l1dBytes c y.pa 8 = y.data.toNat) ∧
      ∀ pa, pa % 8 = 0 → (∀ y ∈ fr, pa ≠ y.pa) → t.l1dBytes c pa 8 = s.l1dBytes c pa 8 := by
  induction fr generalizing s n with
  | nil =>
    exact ⟨s, State.drainFrameN_of_empty hf n, hf, .refl _ _, nofun, fun _ _ _ => rfl⟩
  | cons e rest ih =>
    obtain ⟨n, rfl⟩ : ∃ m, n = m + 1 := ⟨n - 1, by simp only [List.length_cons] at hn; omega⟩
    have he := hd e (by simp)
    rw [List.map_cons, List.nodup_cons] at hpas
    have hnew : ∀ y ∈ rest, e.pa ≠ y.pa := fun y hy heq => hpas.1 (List.mem_map.mpr ⟨y, hy, heq.symm⟩)
    have hstep : s.drainFrameN c (n + 1) = (s.frameStep c e rest).drainFrameN c n := by
      simp only [State.drainFrameN, hf, State.storeCached_owned s c e he.zeroed he.owned]
      rfl
    have hframe : ((s.frameStep c e rest).core c).frame = rest := by rw [State.frameStep, State.core_updCore]
    obtain ⟨t, ht, hempty, hq, hbytes, hothers⟩ := ih (s := s.frameStep c e rest) (by simpa using hn) hframe
      (fun y hy => he.step (hd y (by simp [hy])) rest) hpas.2
    have hsame (pa : Nat) : (s.frameStep c e rest).l1dBytes c pa 8 = (s.storeWrite c e).l1dBytes c pa 8 := by
      unfold State.l1dBytes
      rw [State.l1dSec_frameStep]
    refine ⟨t, hstep.trans ht, hempty, (State.Quiet.frameStep s c e rest).trans hq, fun y hy => ?_, fun pa ha hpa => ?_⟩
    · rcases List.mem_cons.mp hy with rfl | hy
      · rw [hothers y.pa he.aligned hnew, hsame, he.bytes]
      · exact hbytes y hy
    · rw [hothers pa ha fun y hy => hpa y (by simp [hy]), hsame, he.bytes_other ha (hpa e (by simp))]

/-- Behind an empty store buffer the frame drains whole. -/
theorem completes_frameDrain {fr : List StoreEntry} (hsb : (s.core c).sb = []) (hf : (s.core c).frame = fr) (hn : fr.length ≤ 10)
    (hd : ∀ y ∈ fr, y.Drains s c) (hpas : (fr.map fun y => y.pa).Nodup) :
    Completes (.frameBufferDrain c) s fun t => (t.core c).frame = [] ∧ State.Quiet c s t ∧
      ∀ y ∈ fr, t.l1dBytes c y.pa 8 = y.data.toNat := by
  obtain ⟨t, ht, hempty, hq, hbytes, -⟩ := State.drainFrameN_drains hn hf hd hpas
  have he : exec (.frameBufferDrain c) s = ok (s.drainFrame c).2 := rfl
  rw [State.drainFrame_of_no_store hsb, ht] at he
  exact completes_ok he ⟨hempty, hq, hbytes⟩
end

/-! ### Holds, invalidations and resets (R65, R76, R197) -/

section
variable {s : State} {c : CoreId}

theorem State.fillSlots_of_nobody {d : CoreId} {n : Nat} (hi : (s.core d).ifWait ≠ some n) (hl : (s.core d).ldWait ≠ some n)
    (hs : (s.core d).stWait ≠ some n) (hp : ∀ p ∈ (s.core d).pfWait, p.1 ≠ n) : s.fillSlots d n = s := by
  have hfind : (s.core d).pfWait.find? (fun p => p.1 == n) = none :=
    List.find?_eq_none.mpr fun p hin => by rw [beq_iff_eq]; exact hp p hin
  unfold State.fillSlots
  simp only [if_neg hi, if_neg hl, if_neg hs, hfind]

theorem State.fillQuad_of_nobody {q n : Nat} (h : s.nobodyWaits q n) : s.fillQuad q n = s := by
  have hfold : ∀ l ⊆ coresOf q, l.foldl (fun s d => s.fillSlots d n) s = s := by
    intro l hl
    induction l with
    | nil => rfl
    | cons d l ih =>
      obtain ⟨hd, hl⟩ := List.cons_subset.mp hl
      obtain ⟨hi, hld, hst, hp⟩ := h d hd
      rw [List.foldl_cons, State.fillSlots_of_nobody hi hld hst hp]
      exact ih hl
  exact hfold _ (List.Subset.refl _)

theorem State.quadGo_of_no_fills {q : Nat} (h : (s.quad q).fills = []) : s.quadGo q = s := by
  rw [State.quadGo, h, List.foldl_nil]

/-- R65: a hold for whose sector nothing waits ends, and that is all. -/
theorem exec_llSnoopHoldEnd {n : Nat} (hh : (s.core c).hold = some n) (hw : s.nobodyWaits (quadOf c) n) (hf : (s.quad (quadOf c)).fills = []) :
    exec (.llSnoopHoldEnd c) s = .next (s.setCore c { s.core c with hold := none }) := by
  generalize hfree : s.setCore c { s.core c with hold := none } = free
  have hnobody : free.nobodyWaits (quadOf c) n := by
    intro d hd
    rw [← hfree]
    by_cases hdc : d = c
    · subst hdc
      rw [State.core_setCore]
      exact hw d hd
    · rw [State.core_setCore_other _ hdc]
      exact hw d hd
  have hgo : (free.fillQuad (quadOf c) n).quadGo (quadOf c) = free := by
    rw [State.fillQuad_of_nobody hnobody]
    exact State.quadGo_of_no_fills (by rw [← hfree]; exact hf)
  show execLlSnoopHoldEnd c s = _
  unfold execLlSnoopHoldEnd
  rw [hh]
  dsimp only [State.updCore]
  rw [hfree, hgo]
  rfl

theorem exec_llSnoopHoldEnd_none (hh : (s.core c).hold = none) : exec (.llSnoopHoldEnd c) s = .next s := by
  show execLlSnoopHoldEnd c s = _
  unfold execLlSnoopHoldEnd
  rw [hh]
  rfl

theorem exec_remoteInvalidation_none (h : ∀ r ∈ s.remoteInv, r.2.1 ≠ c.val) : exec (.remoteInvalidation c) s = .next s := by
  have hnone : s.remoteInv.find? (fun r => r.2.1 == c.val) = none :=
    List.find?_eq_none.mpr fun r hr => by rw [beq_iff_eq]; exact h r hr
  show execRemoteInvalidation c s = _
  unfold execRemoteInvalidation
  rw [hnone]
  rfl

/-- R76: the oldest invalidation on its way to a core completes there, and no entry that it selects is left. -/
theorem completes_remoteInvalidation {r : Nat × Nat × Inval} (h : (s.remoteInv.find? fun r => r.2.1 == c.val) = some r) :
    Completes (.remoteInvalidation c) s fun t =>
      t = { s.setCore c ((s.core c).inval r.2.2) with remoteInv := s.remoteInv.erase r } ∧
      (r.2.2.op = 0 → ∀ y ∈ (t.core c).itlb ++ (t.core c).dtlb ++ (t.core c).l2tlb, ∀ x, y.2 = some x → r.2.2.hitsTlb x = false) ∧
      (r.2.2.op = 1 → ∀ y ∈ (t.core c).slb, ∀ x, y.2 = some x → r.2.2.hitsSlb x = false) := by
  generalize ht : ({ s.setCore c ((s.core c).inval r.2.2) with remoteInv := s.remoteInv.erase r } : State) = t
  have he : exec (.remoteInvalidation c) s = ok t := by
    show execRemoteInvalidation c s = _
    unfold execRemoteInvalidation
    rw [h, ← ht]
    rfl
  have hcore : t.core c = (s.core c).inval r.2.2 := by
    rw [← ht]
    exact State.core_setCore _ _ _
  refine completes_ok he ⟨rfl, ?_, ?_⟩
  · rw [hcore]
    exact Core.inval_tlb
  · rw [hcore]
    exact Core.inval_slb
end

/-- The reset invalidation of a cache ends once: while its domain is on and it is not past it (R197). -/
theorem ite_reset_due {on ready : Bool} (hon : on = true) (hr : ready = false) (t s : State) : (if on && !ready then t else s) = t := by
  rw [hon, hr]
  rfl

theorem ite_reset_over {on ready : Bool} (h : on = false ∨ ready = true) (t s : State) : (if on && !ready then t else s) = s := by
  rcases h with h | h
  · rw [h]; rfl
  · rw [h, Bool.not_true, Bool.and_false]; rfl

/-- Settles O20: drains write sectors that are owned and are quiet; the other events take one thing from the state. -/
theorem buffersAndInvalidation : Obligations.BuffersAndInvalidation := by
  unfold Obligations.BuffersAndInvalidation
  refine ⟨fun s c e rest fr m => ?_, fun s c q h => ?_⟩
  · intro n owns quiet
    have howns (pa : Nat) : owns s pa ↔ s.ownsSec c (pa / 64) = true := (s.ownsSec_iff c _).symm
    have hquiet {t : State} (h : State.Quiet c s t) : quiet t := ⟨h.mem, h.homes, h.others, h.g, h.f, h.pc⟩
    refine ⟨fun hsb => ⟨fun ht hz hs ho => ?_, fun ht => ?_, fun ht hsent => ?_, fun ht hsent hup => ?_,
        fun ht hsent hup hfills hstuck hp hm => ?_⟩,
      fun hsb hf hn hd hpas => ?_, exec_llSnoopHoldEnd_none, fun x hh hw hf => exec_llSnoopHoldEnd hh hw hf, exec_remoteInvalidation_none,
      fun _ hr => completes_remoteInvalidation hr⟩
    · obtain ⟨t, he, hrest, hq, hsec⟩ := completes_drain_owned hsb ht hz hs ((howns _).mp ho)
      exact ⟨t, he, hrest, hquiet hq, by rw [hsec], by rw [hsec]⟩
    · obtain ⟨t, he, hrest, hout, hq⟩ := completes_drain_device hsb ht
      exact ⟨t, he, hrest, hout, hquiet hq⟩
    · rw [exec_storeBufferDrain_uncached hsb ht, State.headSend, if_pos hsent]
      rfl
    · rw [exec_storeBufferDrain_uncached hsb ht, State.headSend, if_neg (by rw [hsent]; decide), if_neg (by rw [hup]; decide)]
      rfl
    · obtain ⟨t, he, hrest, hnot, hnet, hq⟩ := completes_uncachedAck hsb ht hsent hup (State.progress_of_stuck hfills hstuck) hp hm
      exact ⟨t, he, hrest, hnot, hnet, hquiet hq⟩
    · obtain ⟨t, he, hempty, hq, hbytes⟩ := completes_frameDrain hsb hf hn
        (fun y hy => by obtain ⟨-, hz, hs, ha, ho⟩ := hd y hy; exact ⟨hz, hs, ha, (howns _).mp ho⟩) hpas
      exact ⟨t, he, hempty, hquiet hq, hbytes⟩
  · refine ⟨fun hon hr => completes_ok (congrArg ok (ite_reset_due hon hr _ _)) ?_,
      fun hon hr => completes_ok (congrArg ok (ite_reset_due hon hr _ _)) ?_,
      fun hon hr => completes_ok (congrArg ok (ite_reset_due hon hr _ _)) ?_,
      fun hon hr => completes_ok (congrArg ok (ite_reset_due hon hr _ _)) ?_,
      fun hoff => congrArg ok (ite_reset_over hoff _ _)⟩
    · rw [State.core_updCore]
      exact ⟨rfl, rfl, rfl⟩
    · rw [State.core_updCore]
      exact ⟨rfl, rfl, rfl⟩
    · rw [State.l2_updL2]
      exact ⟨rfl, rfl, rfl⟩
    · rw [State.l3_updL3]
      exact ⟨rfl, rfl, rfl⟩

end Sys2Proof.Machine

/-! PROOFS. O28: what the read of a DRAM block returns beside a poisoned sector (R237 to R240). -/

namespace Sys2Proof.Machine

/-- An access of block 0 is under way, its sector 0 is poisoned, and its frame in the L3 holds no data yet. -/
def besidePoison : State :=
  { dram := { reads := [0] }, poisoned := [0], homes := [(0, { l3 := { frames := [(0, some { block := 0 })] } })] }

/-- Die 0 sends one byte wrong in a beat of sector 0, and one in a beat of sector 1. -/
def besidePoisonErrs : BurstErrs := [(0, 0, 1), (4, 0, 1)]

theorem besidePoisonErrs_oneDie : oneDie besidePoisonErrs 0 := ⟨by simp [besidePoisonErrs], by simp [besidePoisonErrs]⟩

theorem besidePoison_idle : ∀ h < 8, besidePoison.idleHome h := fun h _ => match h with
  | 0 => ⟨rfl, rfl⟩
  | _ + 1 => ⟨rfl, rfl⟩

/-- Sector 1 holds zeros, and one wrong byte is within the code. But one wrong byte in the poison pattern of
sector 0 is beyond it, so die 1, whose calibration pattern reads wrong, is marked failed (R238), and what sector 1 holds there is
computed from the other dies, of which die 0 sends a wrong byte (R239). -/
theorem besidePoison_return : ∃ t, exec (.dramReadReturn 0 besidePoisonErrs 2) besidePoison = .next t ∧
    besidePoison.memSec 1 = 0 ∧ t.l3Sec 1 = some { dv := true, data := 0xC9C80001 } := ⟨_, rfl, by decide +kernel⟩

/-- Refutes O28: the statement leaves the calibration pattern free, and a poisoned sector of the block may meet an error. The second of
two sectors with one wrong byte each then returns other data than memory holds. What it lacks is a hypothesis that keeps errors off the
poisoned sectors of the block, or that ties the calibration pattern to the die with the errors. -/
theorem not_dramReadReturns : ¬ Obligations.DramReadReturns := by
  unfold Obligations.DramReadReturns
  intro h
  obtain ⟨hidle, -⟩ := h besidePoison 0 besidePoisonErrs 2 0 (by decide) besidePoisonErrs_oneDie (by decide) (by decide)
  obtain ⟨t, ht, -, -, -, -, hsec⟩ := hidle besidePoison_idle
  obtain ⟨u, hu, hzero, hone⟩ := besidePoison_return
  obtain rfl : t = u := by rw [ht] at hu; injection hu
  obtain ⟨-, hdata, -⟩ := hsec 1 (by decide) {} (by decide +kernel)
  have heq := hone.symm.trans (hdata rfl (by decide +kernel))
  rw [show (0 : BlockNo).val * 4 + 1 = 1 from rfl, hzero] at heq
  exact absurd heq (by decide +kernel)

end Sys2Proof.Machine

/-! PROOFS. O29: sectors of memory, how a sector is read and written (R239, R240, R249, R252, R253). -/

namespace Sys2Proof.Machine

/-! ### Sectors (R240, R249) -/

theorem inMram_of_inDram {pa : Nat} (h : inDram pa = true) : inMram pa = false := by
  rw [inDram, decide_eq_true_eq] at h
  have hbelow : ¬mramBase ≤ pa := Nat.not_le.mpr h
  rw [inMram, decide_eq_false hbelow, Bool.false_and]

section
variable {s t : State} {n : Nat}

/-- What a read of a sector returns depends on the memory, the key it was written under and the key in force. -/
theorem State.memSec_congr (hm : t.mem = s.mem) (hw : t.dram.writtenKey = s.dram.writtenKey) (hk : t.keyAt n = s.keyAt n) :
    t.memSec n = s.memSec n := by
  unfold State.memSec
  rw [hm, hw, hk]

/-- A sector that is written reads back (R8, R249). -/
theorem State.memSec_setMemSec (s : State) (n : Nat) (v : BitVec 512) : (s.setMemSec n v false).memSec n = v := by
  have hkey : (s.setMemSec n v false).dram.writtenKey.get 0 n = (s.setMemSec n v false).keyAt n := SMap.get_set_self _ _ _ _
  have hbytes : Memory.readN (s.setMemSec n v false).mem (n * 64) 64 = v.toNat := by
    refine (Memory.readN_writeN s.mem (n * 64) v.toNat 64).trans ?_
    rw [show 256 ^ 64 = 2 ^ (8 * 64) from (Nat.pow_mul 2 8 64).symm]
    exact v.toNat_mod_cancel
  unfold State.memSec
  dsimp only
  rw [if_pos hkey, hbytes, BitVec.ofNat_toNat, BitVec.setWidth_eq]

theorem State.setMemSec_outside (s : State) (n : Nat) (v : BitVec 512) (p : Bool) : OutsideSector s (s.setMemSec n v p) n :=
  fun _ ha => Memory.read_writeN_other _ _ _ _ _ ha

theorem State.poisoned_setMemSec_true (s : State) (n : Nat) (v : BitVec 512) : (s.setMemSec n v true).poisoned.contains n = true :=
  List.contains_iff_mem.mpr (mem_insertRising_self n s.poisoned)

/-! ### Writing a sector back (R185, R240, R252) -/

/-- A DRAM sector is written whole, unless its group keeps its poison in a list. -/
theorem State.writeBack_dram {p : Bool} (hu : s.memUp n = true) (hm : inMram (n * 64) = false)
    (hp : p = true → s.checkFailed (groupOf n) = false) (v : BitVec 512) : s.writeBack n v p =
      ({ s with dram := { s.dram with back := s.dram.back.filter fun b => b.1 != n } } : State).setMemSec n v p := by
  have hlist : (p && s.checkFailed (groupOf n)) = false := by cases p <;> simp_all
  unfold State.writeBack
  dsimp only
  rw [if_neg (by simp [hu]), if_neg (by simp [hm]), if_neg]
  show ¬(p && s.checkFailed (groupOf n) && _ && _) = true
  simp [hlist]

/-- A write of an MRAM sector enters the queue of the controller. -/
theorem State.writeBack_mram (hu : s.memUp n = true) (hm : inMram (n * 64) = true) (v : BitVec 512) (p : Bool) :
    s.writeBack n v p = (s.mramAccept n).setMemSec n v p := by
  unfold State.writeBack
  rw [if_neg (by simp [hu]), if_pos hm]

/-! ### Reading a DRAM sector (R237, R239, R240) -/

theorem State.groupUp_of_memUp (hm : inMram (n * 64) = false) (hu : s.memUp n = true) : s.groupUp (groupOf n) = true := by
  rw [State.memUp, if_neg (by simp [hm]), Bool.and_eq_true] at hu
  exact hu.1

theorem State.secFlipped_zero (hp : s.poisoned.contains n = false) : s.secFlipped n 0 = s.memSec n := by
  unfold State.secFlipped
  dsimp only
  rw [if_pos ⟨rfl, by rw [hp]; rfl⟩]

theorem State.decodeBurst_failed {block k : Nat} (h : groupOf (block * 4 + k) ∈ s.dram.failed) (e : BurstErrs) (p : BitVec 9) :
    s.decodeBurst block k e p = ((0, .lost), s) := by
  unfold State.decodeBurst
  dsimp only
  rw [if_pos (List.contains_iff_mem.mpr h)]

theorem decodeSec_nil (k : Nat) : decodeSec [] k = .clean := rfl

/-- A sector that is not poisoned, in a group with no failed die, reads without errors as memory holds it. -/
theorem State.decodeBurst_clean {block k : Nat} (hn : block * 4 + k = n) (hf : groupOf n ∉ s.dram.failed) (hp : s.poisoned.contains n = false)
    (hd : flag (s.reg .MG_STATUS [groupOf n]) .MG_STATUS_DEGRADED = false) (p : BitVec 9) :
    s.decodeBurst block k [] p = ((s.memSec n, .good), s) := by
  subst hn
  have hnone : errList [] k ++ (if s.poisoned.contains (block * 4 + k) then patternErrs k else []) = [] := by
    rw [hp]
    rfl
  unfold State.decodeBurst
  dsimp only
  rw [if_neg (by simpa using hf), if_neg (by rw [hp]; exact Bool.false_ne_true), hnone, if_neg (by simp [hd]), if_neg (by simp), decodeSec_nil]
  dsimp only
  rw [show flipBits k [] = 0 from rfl, State.secFlipped_zero hp]

/-- A burst without errors corrects nothing, and at most logs that it meets poison. -/
theorem State.decodeBurst_noErrs (s : State) (block k : Nat) (p : BitVec 9) : let r := s.decodeBurst block k [] p
    (∀ die, r.1.2 ≠ .fixed die) ∧ (r.2 = s ∨ r.2 = s.logMg (groupOf (block * 4 + k)) 4 0xF (block * 4 + k)) := by
  by_cases hfailed : groupOf (block * 4 + k) ∈ s.dram.failed
  · rw [State.decodeBurst_failed hfailed]
    exact ⟨fun _ => nofun, .inl rfl⟩
  by_cases hp : s.poisoned.contains (block * 4 + k) = true
  · have hr : s.decodeBurst block k [] p = ((0, .poison), s.logMg (groupOf (block * 4 + k)) 4 0xF (block * 4 + k)) := by
      unfold State.decodeBurst
      dsimp only
      rw [if_neg (by simpa using hfailed), if_pos (by rw [hp]; exact Bool.or_true _)]
    rw [hr]
    exact ⟨fun _ => nofun, .inr rfl⟩
  rw [Bool.not_eq_true] at hp
  cases hd : flag (s.reg .MG_STATUS [groupOf (block * 4 + k)]) .MG_STATUS_DEGRADED with
  | false =>
    rw [State.decodeBurst_clean rfl hfailed hp hd]
    exact ⟨fun _ => nofun, .inl rfl⟩
  | true =>
    generalize hf : s.fld .MG_STATUS [groupOf (block * 4 + k)] .MG_STATUS_FAILED = f
    have hr : s.decodeBurst block k [] p = s.degradedRead (block * 4 + k) k [] f := by
      unfold State.decodeBurst
      dsimp only
      rw [if_neg (by simpa using hfailed), if_neg (by rw [hp]; exact Bool.false_ne_true), if_pos hd, hp, ← hf]
      rfl
    rw [hr]
    unfold State.degradedRead
    generalize (if f = 8 then _ else _ : Bool) = listed
    cases listed
    · exact ⟨fun _ => nofun, .inl rfl⟩
    · exact ⟨fun _ => nofun, .inr rfl⟩

/-- With no access of its block under way a DRAM sector is read as one read decodes. -/
theorem State.memRead_dram (hu : s.memUp n = true) (hm : inMram (n * 64) = false) (hb : s.dram.back = []) :
    s.memRead n = s.decodeRead (n / 4) (n % 4) [] 0 := by
  unfold State.memRead
  rw [if_neg (by simp [hu]), if_neg (by simp [hm]), hb]
  rfl

theorem State.memRead_clean (hu : s.memUp n = true) (hm : inMram (n * 64) = false) (hb : s.dram.back = []) (hf : groupOf n ∉ s.dram.failed)
    (hp : s.poisoned.contains n = false) (hd : flag (s.reg .MG_STATUS [groupOf n]) .MG_STATUS_DEGRADED = false) :
    s.memRead n = ((s.memSec n, false), s) := by
  rw [State.memRead_dram hu hm hb, State.decodeRead, State.decodeBurst_clean (Nat.div_add_mod' n 4) hf hp hd]
  rfl

theorem State.memRead_failed (hu : s.memUp n = true) (hm : inMram (n * 64) = false) (hb : s.dram.back = []) (hf : groupOf n ∈ s.dram.failed) :
    s.memRead n = ((0, true), s) := by
  rw [State.memRead_dram hu hm hb, State.decodeRead, State.decodeBurst_failed (by rwa [Nat.div_add_mod'])]
  rfl
end

/-! ### The log of the MRAM (R259) -/

/-- Only the error log of the MRAM, what Fetas counts, and the wrong bits noted of its sectors differ. -/
structure OnMrLog (s t : State) : Prop where
  frame : t = { s with regs := t.regs, telemetry := t.telemetry, fsi := t.fsi, dram := { s.dram with mrErrs := t.dram.mrErrs } }
  others : ∀ a, a < 0x3005000010 ∨ 0x3005000020 ≤ a → SMap.find a t.regs = SMap.find a s.regs

section
variable {s t u : State} {n : Nat}

theorem OnMrLog.refl (s : State) : OnMrLog s s := ⟨rfl, fun _ _ => rfl⟩

theorem OnMrLog.trans (h : OnMrLog s t) (g : OnMrLog t u) : OnMrLog s u := by
  refine ⟨?_, fun a ha => (g.others a ha).trans (h.others a ha)⟩
  have hu := g.frame
  rw [h.frame] at hu
  exact hu

theorem OnMrLog.setReg (s : State) (r : Reg) (i : List Nat) (v : Word) (h : 0x3005000010 ≤ r.at i) (h' : r.at i < 0x3005000020) :
    OnMrLog s (s.setReg r i v) := ⟨rfl, fun _ ha => SMap.find_set_other _ (by omega) _ _⟩

theorem OnMrLog.capture (s : State) (n : Nat) : OnMrLog s (s.capture .MR_ERR_STATUS [] n).2 := by
  rw [State.capture_eq]
  exact .setReg _ _ _ _ (by decide) (by decide)

theorem State.logMr_onMrLog (s : State) (kind die n : Nat) : OnMrLog s (s.logMr kind die n) := by
  unfold State.logMr
  have hcount : OnMrLog s (s.count .mram) := ⟨rfl, fun _ _ => rfl⟩
  dsimp only
  generalize hv : (if kind = 2 ∨ kind = 3 ∨ kind = 6 then _ else _ : State) = v
  have hlogged : OnMrLog s v := by
    refine hcount.trans ?_
    subst hv
    split <;> exact .setReg _ _ _ _ (by decide) (by decide)
  have hcapture := hlogged.trans (.capture v (kind * 2 ^ 28 + die * 2 ^ 26 + n % 4 * 2 ^ 22))
  split
  · next w hw =>
    rw [hw] at hcapture
    exact (hcapture.trans (.setReg _ _ _ _ (by decide) (by decide))).trans (.setReg _ _ _ _ (by decide) (by decide))
  · next w hw =>
    rw [hw] at hcapture
    exact hcapture

theorem dkeyMap_at (i : Nat) : Reg.DKEY_MAP.at [i] = 0x3004010000 + 4 * i := rfl
theorem mkeyMap_at (i : Nat) : Reg.MKEY_MAP.at [i] = 0x3005010000 + 4 * i := rfl

/-- The key maps lie outside the log. -/
theorem OnMrLog.keyAt (h : OnMrLog s t) : t.keyAt n = s.keyAt n := by
  have hd : t.reg .DKEY_MAP [n * 64 / 2 ^ 21 % 32768] = s.reg .DKEY_MAP [n * 64 / 2 ^ 21 % 32768] := by
    unfold State.reg
    rw [h.others _ (.inl (by rw [dkeyMap_at]; omega))]
  have hm : t.reg .MKEY_MAP [(n * 64 - mramBase) / 65536 % 8192] = s.reg .MKEY_MAP [(n * 64 - mramBase) / 65536 % 8192] := by
    unfold State.reg
    rw [h.others _ (.inr (by rw [mkeyMap_at]; omega))]
  have hslot (k : Nat) : t.slotKeyOf k = s.slotKeyOf k := by rw [h.frame]; rfl
  unfold State.keyAt
  rw [hd, hm]
  simp only [hslot]

theorem OnMrLog.memSec (h : OnMrLog s t) : t.memSec n = s.memSec n :=
  State.memSec_congr (by rw [h.frame]) (by rw [h.frame]) h.keyAt

theorem OnMrLog.memUp (h : OnMrLog s t) : t.memUp n = s.memUp n := by rw [h.frame]; rfl
theorem OnMrLog.l3Sec (h : OnMrLog s t) : t.l3Sec n = s.l3Sec n := by rw [h.frame]; rfl

/-! ### Reading an MRAM sector (R252, R253) -/

theorem State.mramCorrected_onMrLog (s : State) (n errs : Nat) : OnMrLog s (if 0 < errs then s.logMr 1 (mramDie n) n else s) := by
  split
  · exact State.logMr_onMrLog _ _ _ _
  · exact .refl s

theorem State.mramDecode_onMrLog (s : State) (n errs : Nat) : OnMrLog s (s.mramDecode n errs).2 := by
  unfold State.mramDecode
  split
  · exact State.logMr_onMrLog _ _ _ _
  · have hlog := s.mramCorrected_onMrLog n errs
    dsimp only
    generalize (if 0 < errs then s.logMr 1 (mramDie n) n else s) = u at hlog
    split
    · exact hlog.trans (State.logMr_onMrLog _ _ _ _)
    · exact hlog

/-- Up to four wrong bits are corrected, and beyond that the sector reads as poisoned. -/
theorem State.mramDecode_fst (s : State) (n errs : Nat) : (s.mramDecode n errs).1 =
    if 4 < errs then (0, true) else (s.memSec n, s.poisoned.contains n) := by
  unfold State.mramDecode
  by_cases h : 4 < errs
  · rw [if_pos h, if_pos h]
  rw [if_neg h, if_neg h]
  have hlog := s.mramCorrected_onMrLog n errs
  dsimp only
  generalize (if 0 < errs then s.logMr 1 (mramDie n) n else s) = u at hlog
  have hp : u.poisoned = s.poisoned := by rw [hlog.frame]
  cases hc : s.poisoned.contains n with
  | true => rw [hp, hc, if_pos rfl, hlog.memSec]
  | false => rw [hp, hc, if_neg (by decide), hlog.memSec]

theorem State.mramDecode_zero (hp : s.poisoned.contains n = false) : s.mramDecode n 0 = ((s.memSec n, false), s) := by
  unfold State.mramDecode
  dsimp only
  rw [if_neg (by decide), if_neg (Nat.lt_irrefl 0), hp, if_neg (by decide)]

end
end Sys2Proof.Machine

/-! PROOFS. O29: accesses and writes of the DRAM groups, and the commands of the MRAM controller (R233, R240, R241, R251 to R255). -/

namespace Sys2Proof.Machine

/-! ### Homes that have nothing to do (R186) -/

section
variable {s : State}

theorem State.homeKick_of_idle {h : Nat} (hi : s.idleHome h) (fuel : Nat) : s.homeKick h fuel = s := by
  cases fuel with
  | zero => rfl
  | succ fuel => simp only [State.homeKick, hi.trans, hi.waiting, List.findSome?_nil, List.find?_nil]

theorem State.homesGo_of_idle (hi : ∀ h < 8, s.idleHome h) : s.homesGo = s := by
  have hfold : ∀ l ⊆ List.range 8, l.foldl (fun s h => s.homeKick h kickFuel) s = s := by
    intro l hl
    induction l with
    | nil => rfl
    | cons h l ih =>
      obtain ⟨hh, hl⟩ := List.cons_subset.mp hl
      rw [List.foldl_cons, State.homeKick_of_idle (hi h (List.mem_range.mp hh))]
      exact ih hl
  exact hfold _ (List.Subset.refl _)

theorem State.pumpDurable_of_no_jobs (hj : s.slices.jobs = []) : s.pumpDurable = s := by
  rw [State.pumpDurable, hj]
  rfl
end

/-! ### DRAM (R233, R240, R241) -/

section
variable {s : State} {sec : SecNo}

theorem exec_dramAccessRequest {block : BlockNo} (hu : s.groupUp (block.val % 2) = true) (he : block.val * 256 < s.part.dramEnd) :
    exec (.dramAccessRequest block) s = .next { s with dram := { s.dram with reads := s.dram.reads ++ [block.val] } } :=
  congrArg ok (if_pos (by rw [hu, decide_eq_true he]; rfl))

/-- A sector of the DRAM that is fitted, with its memory group up. -/
structure State.dramUp (s : State) (n : Nat) : Prop where
  dram : inDram (n * 64) = true
  fitted : n * 64 < s.part.dramEnd
  up : s.memUp n = true

section
variable (h : s.dramUp sec.val) (data : BitVec 512)
include h

/-- A whole sector is written, and a narrower write merges with what a read of it gives. -/
theorem State.dramUp.exec_dramWrite (mask : BitVec 64) (p : Bool) : exec (.dramWrite sec data mask p) s =
    ok (if mask = BitVec.allOnes 64 then s.writeBack sec.val data p
      else (s.memRead sec.val).2.writeBack sec.val (mergeBytes (s.memRead sec.val).1.1 data mask) (s.memRead sec.val).1.2) := by
  have hgroup := State.groupUp_of_memUp (inMram_of_inDram h.dram) h.up
  refine congrArg ok (if_neg ?_)
  rw [h.dram, hgroup, decide_eq_false (Nat.not_le.mpr h.fitted)]
  decide

theorem State.dramUp.completes_whole : Completes (.dramWrite sec data (BitVec.allOnes 64) false) s fun t => t.memSec sec.val = data ∧
    OutsideSector s t sec.val ∧ t.regs = s.regs ∧ t.cores = s.cores ∧ t.poisoned = s.poisoned.erase sec.val := by
  refine completes_ok (h.exec_dramWrite data _ false) ?_
  rw [if_pos rfl, State.writeBack_dram (p := false) h.up (inMram_of_inDram h.dram) nofun]
  exact ⟨State.memSec_setMemSec _ _ _, State.setMemSec_outside _ _ _ _, rfl, rfl, rfl⟩

section
variable {mask : BitVec 64} (hm : mask ≠ BitVec.allOnes 64) (hb : s.dram.back = [])
include hm hb

/-- R241: a narrow write leaves the other bytes of its sector. -/
theorem State.dramUp.completes_merge (hp : s.poisoned.contains sec.val = false) (hf : groupOf sec.val ∉ s.dram.failed)
    (hd : flag (s.reg .MG_STATUS [groupOf sec.val]) .MG_STATUS_DEGRADED = false) :
    Completes (.dramWrite sec data mask false) s fun t => t.memSec sec.val = mergeBytes (s.memSec sec.val) data mask ∧
      OutsideSector s t sec.val ∧ t.regs = s.regs ∧ t.cores = s.cores := by
  have hn := inMram_of_inDram h.dram
  refine completes_ok (h.exec_dramWrite data mask false) ?_
  rw [if_neg hm, State.memRead_clean h.up hn hb hf hp hd, State.writeBack_dram (p := false) h.up hn nofun]
  exact ⟨State.memSec_setMemSec _ _ _, State.setMemSec_outside _ _ _ _, rfl, rfl⟩

/-- R239, R240: what a failed group reads as poison stays poison under a narrow write. -/
theorem State.dramUp.completes_failed (hf : groupOf sec.val ∈ s.dram.failed) (hc : s.checkFailed (groupOf sec.val) = false) :
    Completes (.dramWrite sec data mask false) s fun t => t.poisoned.contains sec.val = true ∧ OutsideSector s t sec.val ∧
      t.cores = s.cores := by
  have hn := inMram_of_inDram h.dram
  refine completes_ok (h.exec_dramWrite data mask false) ?_
  rw [if_neg hm, State.memRead_failed h.up hn hb hf, State.writeBack_dram h.up hn fun _ => hc]
  exact ⟨State.poisoned_setMemSec_true _ _ _, State.setMemSec_outside _ _ _ _, rfl⟩
end
end
end

/-! ### MRAM (R251 to R255) -/

section
variable {s : State} {n : Nat}

theorem State.pdUp_mram (hm : inMram (n * 64) = true) (hu : s.memUp n = true) : s.pdUp 97 = true := by
  rw [State.memUp, if_pos hm, Bool.and_eq_true] at hu
  exact hu.1

/-- Returned data fills the sector where the L3 holds none. -/
theorem State.l3Sec_fillL3 (s : State) (n : Nat) (d : BitVec 512) (p : Bool) : (s.fillL3 n d p).l3Sec n =
    (s.l3Sec n).map fun x => if x.dv then x else { x with dv := true, dirty := false, data := d, poison := p } := by
  unfold State.l3Sec State.fillL3
  rw [State.l3_updL3, Cache.sec_updSec_self]

theorem State.mramShows_onMrLog (s : State) (n errs : Nat) : OnMrLog s (s.mramShows n errs) := by
  unfold State.mramShows
  split
  · exact .refl s
  · exact ⟨rfl, fun _ _ => rfl⟩

/-- The wrong bits with which a sector is read: none while a write of it is queued (R252). -/
theorem State.mramRead_mramShows (s : State) (n errs : Nat) : (s.mramShows n errs).mramRead n =
    (s.mramShows n errs).mramDecode n (if s.mramQ.any fun w => w.sec == n then 0 else errs) := by
  have hq : (s.mramShows n errs).mramQ = s.mramQ := by rw [(s.mramShows_onMrLog n errs).frame]
  unfold State.mramRead
  rw [hq]
  cases h : s.mramQ.any fun w => w.sec == n with
  | true => rfl
  | false =>
    have hshown : (s.mramShows n errs).dram.mrErrs.get 0 n = errs := by
      rw [State.mramShows, if_neg (by rw [h]; decide)]
      exact SMap.get_set_self _ _ _ _
    rw [if_neg (by decide), if_neg (by decide), hshown]

/-- R252, R253: the newest accepted data while a write of the sector is queued, else its data, lost beyond four wrong bits. -/
theorem State.mramRead_fst (s : State) (n errs : Nat) :
    let bad := decide (4 < errs) && !(s.mramQ.any fun w => w.sec == n)
    ((s.mramShows n errs).mramRead n).1 = (if bad then 0 else s.memSec n, bad || s.poisoned.contains n) := by
  have hlog := s.mramShows_onMrLog n errs
  have hp : (s.mramShows n errs).poisoned = s.poisoned := by rw [hlog.frame]
  dsimp only
  rw [State.mramRead_mramShows, State.mramDecode_fst, hp, hlog.memSec]
  cases s.mramQ.any fun w => w.sec == n with
  | true => simp
  | false => by_cases h : 4 < errs <;> simp [h]

theorem State.mramRead_onMrLog (s : State) (n errs : Nat) : OnMrLog s ((s.mramShows n errs).mramRead n).2 :=
  (s.mramShows_onMrLog n errs).trans (State.mramDecode_onMrLog _ _ _)
end

section
variable {s : State} {sec : SecNo} (hm : inMram (sec.val * 64) = true) (hu : s.memUp sec.val = true)
include hm hu

theorem completes_mramRead (errs : Fin 513) : Completes (.mramRead sec errs) s fun t => t.mem = s.mem ∧ t.cores = s.cores ∧
    ∀ x, s.l3Sec sec.val = some x → x.dv = false →
      let bad := decide (4 < errs.val) && !(s.mramQ.any fun w => w.sec == sec.val)
      t.l3Sec sec.val = some { x with dv := true, dirty := false, data := if bad then 0 else s.memSec sec.val,
                                      poison := bad || s.poisoned.contains sec.val } := by
  have hlog := s.mramRead_onMrLog sec.val errs.val
  have hread := s.mramRead_fst sec.val errs.val
  generalize hr : (s.mramShows sec.val errs.val).mramRead sec.val = r at hlog hread
  have he : exec (.mramRead sec errs) s = ok (r.2.fillL3 sec.val r.1.1 r.1.2) := by
    rw [← hr]
    exact congrArg ok (if_neg (by rw [hm, State.pdUp_mram hm hu]; decide))
  refine completes_ok he ⟨?_, ?_, fun x hx hv => ?_⟩
  · show r.2.mem = s.mem
    rw [hlog.frame]
  · show r.2.cores = s.cores
    rw [hlog.frame]
  · dsimp only at hread
    rw [State.l3Sec_fillL3, hlog.l3Sec, hx, Option.map_some, if_neg (by rw [hv]; decide), hread]

/-- The queue of a die takes a write of its sector. -/
theorem completes_mramWriteAccept (hq : (s.mramQ.filter fun w => mramDie w.sec == mramDie sec.val).length < 16) (data : BitVec 512) :
    Completes (.mramWriteAccept sec data false) s fun t => t.memSec sec.val = data ∧ OutsideSector s t sec.val ∧ t.regs = s.regs ∧
      t.cores = s.cores ∧
      t.mramQ = s.mramQ ++ [{ id := s.mramNext, sec := sec.val, old := s.memSec sec.val, oldPoison := s.poisoned.contains sec.val }] := by
  have he : exec (.mramWriteAccept sec data false) s = ok (s.writeBack sec.val data false) :=
    congrArg ok (if_neg (by rw [hm, State.pdUp_mram hm hu, decide_eq_false (Nat.not_le.mpr hq)]; decide))
  rw [State.writeBack_mram hu hm] at he
  exact completes_ok he ⟨State.memSec_setMemSec _ _ _, State.setMemSec_outside _ _ _ _, rfl, rfl, rfl⟩

/-- What a scrub of a sector does after its read. -/
theorem exec_mramPatrolScrub (errs : Fin 513) : exec (.mramPatrolScrub sec errs) s =
    let r := (s.mramShows sec.val errs.val).mramRead sec.val
    ok (if 2 ≤ errs.val ∧ errs.val ≤ 4 ∧ !(r.2.mramQ.any fun w => w.sec == sec.val) then r.2.writeBack sec.val r.1.1 r.1.2 else r.2) :=
  if_neg (by rw [hm, State.pdUp_mram hm hu]; decide)

theorem completes_mramPatrolScrub_good {errs : Fin 513} (h0 : errs.val = 0) (hp : s.poisoned.contains sec.val = false) :
    Completes (.mramPatrolScrub sec errs) s fun t => t = { s with dram := { s.dram with mrErrs := t.dram.mrErrs } } := by
  have hread : ((s.mramShows sec.val 0).mramRead sec.val).2 = s.mramShows sec.val 0 := by
    have hshows : (s.mramShows sec.val 0).poisoned = s.poisoned := by rw [(s.mramShows_onMrLog sec.val 0).frame]
    rw [State.mramRead_mramShows, ite_self, State.mramDecode_zero (by rw [hshows, hp])]
  refine completes_ok (exec_mramPatrolScrub hm hu errs) ?_
  rw [h0, if_neg (by omega), hread]
  unfold State.mramShows
  split <;> rfl

theorem completes_mramPatrolScrub_rewrite {errs : Fin 513} (h2 : 2 ≤ errs.val) (h4 : errs.val ≤ 4)
    (hq : (s.mramQ.any fun w => w.sec == sec.val) = false) (hp : s.poisoned.contains sec.val = false) :
    Completes (.mramPatrolScrub sec errs) s fun t => t.memSec sec.val = s.memSec sec.val ∧ OutsideSector s t sec.val ∧ t.cores = s.cores ∧
      t.mramQ = s.mramQ ++ [{ id := s.mramNext, sec := sec.val, old := s.memSec sec.val, oldPoison := s.poisoned.contains sec.val }] := by
  have hlog := s.mramRead_onMrLog sec.val errs.val
  have hread := s.mramRead_fst sec.val errs.val
  have he := exec_mramPatrolScrub hm hu errs
  dsimp only at he hread
  generalize (s.mramShows sec.val errs.val).mramRead sec.val = r at he hlog hread
  have hqueue : r.2.mramQ = s.mramQ := by rw [hlog.frame]
  have hnext : r.2.mramNext = s.mramNext := by rw [hlog.frame]
  have hpoisoned : r.2.poisoned = s.poisoned := by rw [hlog.frame]
  have hmem : r.2.mem = s.mem := by rw [hlog.frame]
  have hcores : r.2.cores = s.cores := by rw [hlog.frame]
  rw [decide_eq_false (by omega), Bool.false_and, if_neg (by decide), Bool.false_or, hp] at hread
  rw [hqueue, if_pos ⟨h2, h4, by rw [hq]; rfl⟩, hread, State.writeBack_mram (hlog.memUp.trans hu) hm] at he
  refine completes_ok he ⟨State.memSec_setMemSec _ _ _, fun a ha => ?_, hcores, ?_⟩
  · rw [← hmem]
    exact State.setMemSec_outside (r.2.mramAccept sec.val) _ _ _ a ha
  · show r.2.mramQ ++ [{ id := r.2.mramNext, sec := sec.val, old := r.2.memSec sec.val, oldPoison := r.2.poisoned.contains sec.val }] = _
    rw [hqueue, hnext, hpoisoned, hlog.memSec]
end

section
variable {s : State}

/-- R254: with no wrong bits after its first pass the oldest write of a die is durable. -/
theorem completes_mramWriteVerify {die : Fin 4} {w : MramWrite} (hw : (s.mramQ.find? fun w => mramDie w.sec == die.val) = some w)
    (hj : s.slices.jobs = []) (hi : ∀ h < 8, s.idleHome h) (w1 w2 : Fin 513) :
    Completes (.mramWriteVerify die 0 w1 w2) s fun t =>
      t = { s with mramQ := s.mramQ.filter fun v => v.id ≠ w.id, probes := t.probes,
                   dram := { s.dram with mrErrs := s.dram.mrErrs.set 0 w.sec 0 } } := by
  generalize hu : ({ s with mramQ := s.mramQ.filter fun v => v.id != w.id,
                            dram := { s.dram with mrErrs := s.dram.mrErrs.set 0 w.sec 0 } } : State).answerProbes = u
  have hverify : s.mramVerify die.val (0, w1.val, w2.val) = u := by
    have hidle : ∀ h < 8, u.idleHome h := fun h hh => by
      rw [← hu]
      exact ⟨(hi h hh).trans, (hi h hh).waiting⟩
    refine Eq.trans ?_ (State.homesGo_of_idle hidle)
    rw [← hu, State.mramVerify, hw]
    rfl
  have hjobs : u.slices.jobs = [] := by
    rw [← hu]
    exact hj
  have he : exec (.mramWriteVerify die 0 w1 w2) s = ok u :=
    congrArg ok ((congrArg State.pumpDurable hverify).trans (State.pumpDurable_of_no_jobs hjobs))
  refine completes_ok he ?_
  rw [← hu]
  have hne : (fun v : MramWrite => v.id != w.id) = fun v => decide (v.id ≠ w.id) := by
    funext v
    rw [bne, Bool.beq_eq_decide_eq, decide_not]
  rw [← hne]
  rfl

/-- The controller hears a probe of a sender. -/
def State.hears (s : State) (who : Nat) (p : Probe) : Probe :=
  if p.who = who ∧ !p.received then { p with received := true, waits := s.probeWaits } else p

theorem State.hears_who (s : State) (who : Nat) (p : Probe) : (s.hears who p).who = p.who := by
  unfold State.hears
  split <;> rfl

theorem State.hears_received (s : State) (p : Probe) : (s.hears p.who p).received = true := by
  unfold State.hears
  split
  · rfl
  · next h => simpa using h

theorem exec_durabilityProbe (who : Fin 65) : exec (.durabilityProbe who) s =
    ok ({ s with probes := s.probes.map (s.hears who.val) } : State).answerProbes.pumpDurable := rfl

/-- A probe that is received is answered when the queues are empty. -/
theorem State.mem_answerProbes {p : Probe} (h : p ∈ s.answerProbes.probes) : ∃ q ∈ s.probes, p.who = q.who ∧ p.received = q.received ∧
    (q.received = true → s.mramQ = [] → p.answered = true) := by
  obtain ⟨q, hq, rfl⟩ := List.mem_map.mp h
  refine ⟨q, hq, ?_⟩
  split
  · exact ⟨rfl, rfl, fun _ _ => rfl⟩
  · next hwaits =>
    refine ⟨rfl, rfl, fun hr he => absurd ?_ hwaits⟩
    rw [hr, he]
    simp

/-- R252: a probe is received, and answered once no write that it waits for is queued. -/
theorem completes_durabilityProbe (who : Fin 65) (hj : s.slices.jobs = []) :
    Completes (.durabilityProbe who) s fun t => t = { s with probes := t.probes } ∧
      ∀ p ∈ t.probes, p.who = who.val → p.received = true ∧ (s.mramQ = [] → p.answered = true) := by
  refine completes_ok ((exec_durabilityProbe who).trans (congrArg ok (State.pumpDurable_of_no_jobs hj))) ⟨rfl, fun p hp hw => ?_⟩
  obtain ⟨q, hq, hwho, hreceived, hanswered⟩ := State.mem_answerProbes hp
  obtain ⟨q, -, rfl⟩ := List.mem_map.mp hq
  rw [hw, State.hears_who] at hwho
  have hheard : (s.hears who.val q).received = true := by
    rw [hwho]
    exact s.hears_received q
  exact ⟨hreceived.trans hheard, hanswered hheard⟩
end

end Sys2Proof.Machine

/-! PROOFS. O29: temperature, training sets, drift tracking, retraining and scrub of a DRAM group (R235, R242 to R247). -/

namespace Sys2Proof.Machine

/-! ### Single bits of a number -/

theorem testBit_add_two_pow {x c : Nat} (h : x.testBit c = false) (j : Nat) : (x + 2 ^ c).testBit j = (decide (j = c) || x.testBit j) := by
  induction c generalizing x j with
  | zero =>
    rw [Nat.testBit_zero, decide_eq_false_iff_not] at h
    cases j with
    | zero => simp only [Nat.testBit_zero, Nat.pow_zero, decide_true, Bool.true_or, decide_eq_true_eq]; omega
    | succ j =>
      have hhalf : (x + 2 ^ 0) / 2 = x / 2 := by omega
      rw [Nat.testBit_add_one, hhalf, Nat.testBit_add_one]
      simp
  | succ c ih =>
    rw [Nat.testBit_add_one] at h
    cases j with
    | zero => simp [Nat.pow_succ]
    | succ j =>
      have hhalf : (x + 2 ^ (c + 1)) / 2 = x / 2 + 2 ^ c := by omega
      rw [Nat.testBit_add_one, hhalf, ih h, Nat.testBit_add_one]
      simp

/-- One bit of a number put to a value. -/
theorem testBit_putBit (x c : Nat) (b : Bool) (j : Nat) :
    ((if x.testBit c then x - 2 ^ c else x) + if b then 2 ^ c else 0).testBit j = if j = c then b else x.testBit j := by
  generalize hy : (if x.testBit c then x - 2 ^ c else x) = y
  have hc : y.testBit c = false ∧ ∀ j, j ≠ c → y.testBit j = x.testBit j := by
    by_cases hx : x.testBit c = true
    · rw [if_pos hx] at hy
      have hsum : x = y + 2 ^ c := by have := Nat.ge_two_pow_of_testBit hx; omega
      have hclear : y.testBit c = false := by
        rw [hsum, Nat.add_comm, Nat.testBit_two_pow_add_eq] at hx
        simpa using hx
      exact ⟨hclear, fun j hj => by rw [hsum, testBit_add_two_pow hclear, decide_eq_false hj, Bool.false_or]⟩
    · rw [if_neg hx] at hy
      rw [← hy]
      exact ⟨by simpa using hx, fun _ _ => rfl⟩
  obtain ⟨hclear, hothers⟩ := hc
  cases b with
  | true =>
    rw [if_pos rfl, testBit_add_two_pow hclear]
    by_cases hj : j = c
    · rw [if_pos hj, decide_eq_true hj, Bool.true_or]
    · rw [if_neg hj, decide_eq_false hj, Bool.false_or, hothers j hj]
  | false =>
    rw [if_neg (by decide), Nat.add_zero]
    by_cases hj : j = c
    · rw [if_pos hj, hj, hclear]
    · rw [if_neg hj, hothers j hj]

/-! ### Temperature and training sets (R242, R243) -/

section
variable (s : State)

theorem completes_dieTempRead (g : Fin 2) (hot : BitVec 8) : Completes (.dieTempRead g hot) s fun t =>
    OnReg { s with dram := { s.dram with hot := t.dram.hot } } t .MG_STATUS [g.val]
      (putBits (putBits (s.reg .MG_STATUS [g.val]) .MG_STATUS_TEMP hot.toNat) .MG_STATUS_REFMUL
        (if hot.toNat ≤ 149 then 0 else if hot.toNat ≤ 169 then 1 else 2)) := by
  refine completes_ok rfl ⟨rfl, ?_, fun a ha => ?_⟩
  · refine (State.reg_setReg _ .MG_STATUS [g.val] _).trans ?_
    rw [State.setFld, State.reg_setReg]
  · exact (SMap.find_set_other _ ha _ _).trans (SMap.find_set_other _ ha _ _)

/-- R243: a channel takes the set its group calls for, and the other channels keep theirs. -/
theorem State.applySet_bit (g ch : Nat) {j : Nat} (hj : j < 9) : ((s.applySet g ch).reg .MG_STATUS [g]).getLsbD (17 + j) =
    if j = ch then s.dram.hot.get false g else (s.reg .MG_STATUS [g]).getLsbD (17 + j) := by
  have hplace : 17 + j - Fld.MG_STATUS_SET.lo = j := Nat.add_sub_cancel_left 17 j
  have hwidth : decide (j < Fld.MG_STATUS_SET.hi + 1 - Fld.MG_STATUS_SET.lo) = true := decide_eq_true hj
  unfold State.applySet
  dsimp only
  rw [State.setFld, State.reg_setReg, getLsbD_putBits _ _ _ (by omega), hplace, if_pos ⟨Nat.le_add_right 17 j, hj⟩, testBit_putBit, State.fld,
    testBit_bits, hwidth, Bool.true_and]
  rfl

/-! ### Timing values (R243 to R245) -/

/-- A correction reaches the eight values of both sets of a channel, and no others (R244). -/
theorem State.correctTiming_get (ch : Nat) (d : Word) (k : Nat) : (s.correctTiming ch d).dram.timing.get 0 k =
    if k / 8 = ch then s.dram.timing.get 0 k + d else s.dram.timing.get 0 k := by
  have hfold : ∀ n, ((List.range n).foldl (fun m i => SMap.set 0 m (ch * 8 + i) (m.get 0 (ch * 8 + i) + d)) s.dram.timing).get 0 k =
      if ch * 8 ≤ k ∧ k < ch * 8 + n then s.dram.timing.get 0 k + d else s.dram.timing.get 0 k := by
    intro n
    induction n with
    | zero => rw [if_neg (by omega)]; rfl
    | succ n ih =>
      rw [List.range_succ, List.foldl_append, List.foldl_cons, List.foldl_nil]
      by_cases hk : k = ch * 8 + n
      · rw [if_neg (by omega)] at ih
        rw [if_pos (by omega), ← hk, SMap.get_set_self, ih]
      · rw [SMap.get_set_other _ hk, ih]
        by_cases hin : ch * 8 ≤ k ∧ k < ch * 8 + n
        · rw [if_pos hin, if_pos (by omega)]
        · rw [if_neg hin, if_neg (by omega)]
  refine (hfold 8).trans ?_
  by_cases hk : k / 8 = ch
  · rw [if_pos hk, if_pos (by omega)]
  · rw [if_neg hk, if_neg (by omega)]

/-- Only the timing values of one set of a channel, which are free, differ. -/
structure OnTiming (place : Nat) (s t : State) : Prop where
  frame : t = { s with free := t.free, dram := { s.dram with timing := t.dram.timing } }
  others : ∀ k, k / 4 ≠ place → t.dram.timing.get 0 k = s.dram.timing.get 0 k

theorem State.trainSet_onTiming (ch set : Nat) : OnTiming (ch * 2 + set) s (s.trainSet ch set) := by
  have hfold : ∀ l ⊆ List.range 4, ∀ s : State, OnTiming (ch * 2 + set) s (l.foldl (fun (s : State) i =>
      match s.fresh with
      | (w, s) => { s with dram := { s.dram with timing := s.dram.timing.set 0 ((ch * 2 + set) * 4 + i) w } }) s) := by
    intro l
    induction l with
    | nil => exact fun _ s => ⟨rfl, fun _ _ => rfl⟩
    | cons i l ih =>
      intro hl s
      obtain ⟨hi, hl⟩ := List.cons_subset.mp hl
      have hi := List.mem_range.mp hi
      obtain ⟨hframe, hothers⟩ := ih hl { s.fresh.2 with
        dram := { s.dram with timing := s.dram.timing.set 0 ((ch * 2 + set) * 4 + i) s.fresh.1 } }
      exact ⟨hframe, fun k hk => (hothers k hk).trans (SMap.get_set_other _ (by omega) _ _)⟩
  exact hfold _ (List.Subset.refl _) s

/-! ### Windows (R235, R243 to R245) -/

/-- What a group calls for at the temperature and the busy share given (R243). -/
def State.loaded (g busy : Nat) : Bool :=
  decide (144 ≤ bits (s.reg .MG_STATUS [g]) .MG_STATUS_TEMP ∨ 50 ≤ busy) ||
    (s.dram.hot.get false g && !decide (bits (s.reg .MG_STATUS [g]) .MG_STATUS_TEMP ≤ 134 ∧ busy ≤ 30))

/-- The state in which a window acts: the busy share is measured, and the group calls for a set. -/
def State.measured (g busy : Nat) : State := { s with
  dram := { s.dram with busy := s.dram.busy.set 0 g busy, hot := s.dram.hot.set false g (s.loaded g busy) } }

theorem State.evalSet_measured (g busy : Nat) :
    ({ s with dram := { s.dram with busy := s.dram.busy.set 0 g busy } } : State).evalSet g = s.measured g busy := by
  unfold State.evalSet State.measured State.loaded
  dsimp only
  rw [SMap.get_set_self]
  rfl

theorem exec_driftTrackingWindow (g : Fin 2) (ch : Fin 9) (busy : Fin 101) (drift : Fin 64) (wrong : Bool) :
    exec (.driftTrackingWindow g ch busy drift wrong) s =
      ok (if (s.dram.ratePend.get none g.val).isSome then (s.measured g.val busy.val).applyRate g.val
        else (s.measured g.val busy.val).driftWindow g.val ch.val (BitVec.ofNat 6 drift.val) wrong) := by
  rw [← State.evalSet_measured]
  rfl

/-- A retrain of a group begins, and its channels are all due then (R245). -/
theorem State.startRetrain_get (g : Nat) : (s.startRetrain g).dram.retrain.get [] g ≠ [] := by
  unfold State.startRetrain
  split
  · show SMap.get [] (SMap.set [] s.dram.retrain g (List.range 9)) g ≠ []
    rw [SMap.get_set_self]
    decide
  · next h => simpa using h

/-- What a window without a wrong pattern leaves. -/
theorem State.driftWindow_eq (g ch : Nat) (drift : BitVec 6) : s.driftWindow g ch drift false =
    let t := ((s.countWindow g).applySet g ch).correctTiming (g * 9 + ch) (drift.signExtend 64)
    if 8 < drift.toInt.natAbs then t.startRetrain g else t := rfl

/-- A retrain that begins leaves all but what is to be trained. -/
theorem State.startRetrain_frame (g : Nat) : s.startRetrain g = { s with dram := { s.dram with retrain := (s.startRetrain g).dram.retrain } } := by
  unfold State.startRetrain
  split <;> rfl
end

section
variable {s : State} {g : Fin 2} {ch : Fin 9}

/-- R243 to R245: a window takes the set that the group calls for, corrects both sets, and begins a retrain beyond 8/64. -/
theorem completes_driftTrackingWindow (hr : s.dram.ratePend.get none g.val = none) (busy : Fin 101) (drift : Fin 64) :
    let d := (BitVec.ofNat 6 drift.val).toInt
    Completes (.driftTrackingWindow g ch busy drift false) s fun t =>
      t.dram.windows.get 0 g.val = s.dram.windows.get 0 g.val + 1 ∧ t.mem = s.mem ∧ t.cores = s.cores ∧
      (∀ j < 9, (t.reg .MG_STATUS [g.val]).getLsbD (17 + j) =
        if j = ch.val then s.loaded g.val busy.val else (s.reg .MG_STATUS [g.val]).getLsbD (17 + j)) ∧
      (∀ k, t.dram.timing.get 0 k =
        if k / 8 = g.val * 9 + ch.val then s.dram.timing.get 0 k + BitVec.ofInt 64 d else s.dram.timing.get 0 k) ∧
      (if 8 < d.natAbs then t.dram.retrain.get [] g.val ≠ [] else t.dram.retrain = s.dram.retrain) := by
  intro d
  have he := exec_driftTrackingWindow s g ch busy drift false
  rw [hr, if_neg (by decide), State.driftWindow_eq] at he
  dsimp only at he
  generalize hu : (((s.measured g.val busy.val).countWindow g.val).applySet g.val ch.val).correctTiming (g.val * 9 + ch.val)
    ((BitVec.ofNat 6 drift.val).signExtend 64) = u at he
  have hwindows : u.dram.windows.get 0 g.val = s.dram.windows.get 0 g.val + 1 := by
    rw [← hu]
    exact SMap.get_set_self 0 s.dram.windows g.val (s.dram.windows.get 0 g.val + 1)
  have hmem : u.mem = s.mem := by rw [← hu]; rfl
  have hcores : u.cores = s.cores := by rw [← hu]; rfl
  have hset : ∀ j < 9, (u.reg .MG_STATUS [g.val]).getLsbD (17 + j) =
      if j = ch.val then s.loaded g.val busy.val else (s.reg .MG_STATUS [g.val]).getLsbD (17 + j) := fun j hj => by
    have hbit := ((s.measured g.val busy.val).countWindow g.val).applySet_bit g.val ch.val hj
    have hcalls : ((s.measured g.val busy.val).countWindow g.val).dram.hot.get false g.val = s.loaded g.val busy.val := SMap.get_set_self _ _ _ _
    rw [hcalls] at hbit
    rw [← hu]
    exact hbit
  have htiming : ∀ k, u.dram.timing.get 0 k =
      if k / 8 = g.val * 9 + ch.val then s.dram.timing.get 0 k + BitVec.ofInt 64 d else s.dram.timing.get 0 k := fun k => by
    rw [← hu]
    exact State.correctTiming_get _ _ _ k
  by_cases h8 : 8 < d.natAbs
  · rw [if_pos h8, State.startRetrain_frame] at he
    refine completes_ok he ⟨hwindows, hmem, hcores, hset, htiming, ?_⟩
    rw [if_pos h8]
    exact State.startRetrain_get u g.val
  · rw [if_neg h8] at he
    refine completes_ok he ⟨hwindows, hmem, hcores, hset, htiming, ?_⟩
    rw [if_neg h8, ← hu]
    rfl

/-- R235: a window makes the rate change that is pending. -/
theorem completes_driftTrackingWindow_rate {rate : Nat} (h2 : rate < 2) (hr : s.dram.ratePend.get none g.val = some rate) (busy : Fin 101)
    (drift : Fin 64) : Completes (.driftTrackingWindow g ch busy drift false) s fun t =>
      t.fld .MG_STATUS [g.val] .MG_STATUS_RATE = rate ∧ t.dram.ratePend.get none g.val = none ∧ t.mem = s.mem ∧ t.cores = s.cores ∧
      t.dram.timing = s.dram.timing := by
  have he := exec_driftTrackingWindow s g ch busy drift false
  have hpend : (s.measured g.val busy.val).dram.ratePend.get none g.val = some rate := hr
  rw [hr, if_pos (Option.isSome_some), State.applyRate, hpend] at he
  refine completes_ok he ⟨?_, SMap.get_set_self none s.dram.ratePend g.val none, rfl, rfl, rfl⟩
  refine (congrArg (bits · .MG_STATUS_RATE) (State.reg_setReg _ .MG_STATUS [g.val] _)).trans ?_
  rw [bits_putBits_self _ _ (by decide)]
  exact Nat.mod_eq_of_lt h2

/-- R245: the active set of one channel is trained, and the other channels stay due. -/
theorem completes_retrainWindow {l : List Nat} (hl : s.dram.retrain.get [] g.val = l) (hc : ch.val ∈ l) (hne : l.erase ch.val ≠ []) :
    Completes (.retrainWindow g ch) s fun t =>
      t.dram.retrain.get [] g.val = l.erase ch.val ∧ t.mem = s.mem ∧ t.cores = s.cores ∧
      (t.reg .MG_STATUS [g.val]).getLsbD (17 + ch.val) = s.dram.hot.get false g.val ∧
      ∀ k, k / 4 ≠ (g.val * 9 + ch.val) * 2 + (if s.dram.hot.get false g.val then 1 else 0) →
        t.dram.timing.get 0 k = s.dram.timing.get 0 k := by
  obtain ⟨hframe, htiming⟩ := (s.applySet g.val ch.val).trainSet_onTiming (g.val * 9 + ch.val) (b2n (s.dram.hot.get false g.val))
  generalize hu : (s.applySet g.val ch.val).trainSet (g.val * 9 + ch.val) (b2n (s.dram.hot.get false g.val)) = u at hframe htiming
  have he : exec (.retrainWindow g ch) s = ok { u with dram := { u.dram with retrain := u.dram.retrain.set [] g.val (l.erase ch.val) } } := by
    show execRetrainWindow g ch s = _
    unfold execRetrainWindow
    rw [hl]
    dsimp only
    rw [if_neg (by simp [hc]), hu, if_neg (by simpa using hne)]
  have hreg : u.reg .MG_STATUS [g.val] = (s.applySet g.val ch.val).reg .MG_STATUS [g.val] := by rw [hframe]; rfl
  refine completes_ok he ⟨SMap.get_set_self _ _ _ _, ?_, ?_, ?_, htiming⟩
  · show u.mem = _
    rw [hframe]
    rfl
  · show u.cores = _
    rw [hframe]
    rfl
  · show (u.reg .MG_STATUS [g.val]).getLsbD (17 + ch.val) = _
    rw [hreg, State.applySet_bit s g.val ch.val ch.isLt, if_pos rfl]
end

/-! ### Scrub (R247) -/

section
variable {s : State} {block : BlockNo}

theorem State.logMg_frame (s : State) (g kind ch n : Nat) : s.logMg g kind ch n =
    { s with regs := (s.logMg g kind ch n).regs, telemetry := (s.logMg g kind ch n).telemetry, fsi := (s.logMg g kind ch n).fsi } := by
  unfold State.logMg
  dsimp only
  generalize hv : (if kind = 3 ∨ kind = 4 ∨ kind = 7 then _ else _ : State) = v
  obtain ⟨m, te, f, rfl⟩ : ∃ m te f, v = { s with regs := m, telemetry := te, fsi := f } := by
    subst hv
    split <;> exact ⟨_, _, _, rfl⟩
  split <;> next w hw =>
    have hcapture := (congrArg Prod.snd hw).symm.trans (State.capture_eq _ _ _ _)
    dsimp only at hcapture
    rw [hcapture]
    rfl

/-- One sector of a scrub of a block, at its group g and its place a: it is read, and what is corrected is written again. -/
def State.scrubSec (block g : Nat) (a : DieAddr) (errs : BurstErrs) (pattern : BitVec 9) (s : State) (k : Nat) : State :=
  let n := block * 4 + k
  match s.decodeBurst block k errs pattern with
  | ((d, .fixed die), s) => (s.setMemSec n d false).spareRow g die a block
  | ((_, .lost), s) => s.updL3 (homeSec n) fun l => l.updSec .l3 n fun x => if x.dv then { x with dirty := true } else x
  | (_, s) => s

/-- Neither memory nor the cores differ, nor the part. -/
structure SameCells (s t : State) : Prop where
  mem : t.mem = s.mem
  cores : t.cores = s.cores
  part : t.part = s.part

theorem SameCells.trans {s t u : State} (h : SameCells s t) (g : SameCells t u) : SameCells s u :=
  ⟨g.mem.trans h.mem, g.cores.trans h.cores, g.part.trans h.part⟩

/-- A sector that reads without errors is not written. -/
theorem State.scrubSec_noErrs (b g : Nat) (a : DieAddr) (s : State) (k : Nat) : SameCells s (State.scrubSec b g a [] 0 s k) := by
  obtain ⟨hfixed, hafter⟩ := s.decodeBurst_noErrs b k 0
  have hread : SameCells s (s.decodeBurst b k [] 0).2 := by
    rcases hafter with h | h
    · rw [h]
      exact ⟨rfl, rfl, rfl⟩
    · rw [h, State.logMg_frame]
      exact ⟨rfl, rfl, rfl⟩
  unfold State.scrubSec
  dsimp only
  generalize s.decodeBurst b k [] 0 = r at hfixed hread
  obtain ⟨⟨d, e⟩, u⟩ := r
  cases e with
  | good => exact hread
  | fixed die => exact absurd rfl (hfixed die)
  | poison => exact hread
  | lost => exact hread.trans ⟨rfl, rfl, rfl⟩

theorem State.scrubSecs_noErrs (b g : Nat) (a : DieAddr) (l : List Nat) (s : State) : SameCells s (l.foldl (State.scrubSec b g a [] 0) s) := by
  induction l generalizing s with
  | nil => exact ⟨rfl, rfl, rfl⟩
  | cons k l ih => exact (s.scrubSec_noErrs b g a k).trans (ih _)

/-- The progress of a pass after a block, and at its end the count of passes (R247). -/
def State.scrubPass (s : State) (b : Nat) : State :=
  let blocks := s.part.dramEnd / 512
  let t := s.setFld .MG_SCRUB [b % 2] .MG_SCRUB_PROGRESS ((b / 2 + 1) % blocks * 1024 / blocks)
  if b / 2 + 1 = blocks then
    { (t.countFld .MG_SCRUB [b % 2] .MG_SCRUB_PASSES) with
      dram := { t.dram with scrubHits := t.dram.scrubHits.filter fun h => h.1 / 9 != b % 2 } }
  else t

theorem exec_dramPatrolScrub (he : block.val * 256 < s.part.dramEnd) (hu : s.groupUp (block.val % 2) = true) (errs : BurstErrs)
    (pattern : BitVec 9) : exec (.dramPatrolScrub block errs pattern) s = ok (((List.range 4).foldl
      (State.scrubSec block.val (block.val % 2) (s.dieAddr block.val) errs pattern) s).scrubPass block.val) := by
  show execDramPatrolScrub block errs pattern s = _
  unfold execDramPatrolScrub
  dsimp only
  rw [if_neg (by rw [hu]; simpa using he)]
  generalize hread : List.foldl _ s (List.range 4) = u
  have hsecs : (List.range 4).foldl (State.scrubSec block.val (block.val % 2) (s.dieAddr block.val) errs pattern) s = u := hread
  rw [hsecs]
  rfl

theorem State.scrubPass_sameCells (s : State) (b : Nat) : SameCells s (s.scrubPass b) := by
  unfold State.scrubPass
  dsimp only
  split <;> exact ⟨rfl, rfl, rfl⟩

theorem State.scrubPass_progress (s : State) (b : Nat) : (s.scrubPass b).fld .MG_SCRUB [b % 2] .MG_SCRUB_PROGRESS =
    (b / 2 + 1) % (s.part.dramEnd / 512) * 1024 / (s.part.dramEnd / 512) := by
  have hpos : 0 < s.part.dramEnd / 512 := by cases s.part <;> decide
  generalize hblocks : s.part.dramEnd / 512 = blocks at hpos
  have hset : (s.setFld .MG_SCRUB [b % 2] .MG_SCRUB_PROGRESS ((b / 2 + 1) % blocks * 1024 / blocks)).fld .MG_SCRUB [b % 2] .MG_SCRUB_PROGRESS =
      (b / 2 + 1) % blocks * 1024 / blocks := by
    rw [State.fld, State.setFld, State.reg_setReg, bits_putBits_self _ _ (by decide)]
    refine Nat.mod_eq_of_lt (Nat.div_lt_of_lt_mul ?_)
    exact Nat.mul_lt_mul_of_pos_right (Nat.mod_lt _ hpos) (by decide)
  unfold State.scrubPass
  dsimp only
  rw [hblocks]
  split
  · refine Eq.trans ?_ hset
    refine (congrArg (bits · .MG_SCRUB_PROGRESS) (State.reg_setReg _ .MG_SCRUB [b % 2] _)).trans ?_
    exact bits_putBits_of_disjoint _ _ (.inl (by decide)) (by decide)
  · exact hset

/-- R247: a scrub of a block with no errors keeps memory, and the pass goes on. -/
theorem completes_dramPatrolScrub (he : block.val * 256 < s.part.dramEnd) (hu : s.groupUp (block.val % 2) = true) :
    Completes (.dramPatrolScrub block [] 0) s fun t =>
      let n := s.part.dramEnd / 512
      t.mem = s.mem ∧ t.cores = s.cores ∧ t.fld .MG_SCRUB [block.val % 2] .MG_SCRUB_PROGRESS = (block.val / 2 + 1) % n * 1024 / n := by
  have hsecs := State.scrubSecs_noErrs block.val (block.val % 2) (s.dieAddr block.val) (List.range 4) s
  have hpass := hsecs.trans (State.scrubPass_sameCells _ block.val)
  refine completes_ok (exec_dramPatrolScrub he hu [] 0) ⟨hpass.mem, hpass.cores, ?_⟩
  rw [State.scrubPass_progress, hsecs.part]
end

end Sys2Proof.Machine

/-! PROOFS. O29: the commands of the memory controllers (R233, R235, R239 to R245, R247, R251 to R255). -/

namespace Sys2Proof.Machine

/-- Settles O29: each command is run by the rule about what it does to the sectors, the training sets, the timing values or the queue. -/
theorem memoryControllers : Obligations.MemoryControllers := by
  unfold Obligations.MemoryControllers
  refine ⟨fun s g ch block sec data mask hot busy drift => ?_, fun s sec errs data die w1 w2 who => ?_⟩
  · refine ⟨exec_dramAccessRequest, fun hd he hu => ?_, rfl, completes_dieTempRead s g hot, fun hr => completes_driftTrackingWindow hr busy drift,
      fun rate h2 hr => completes_driftTrackingWindow_rate h2 hr busy drift, fun l hl hc hne => completes_retrainWindow hl hc hne,
      completes_dramPatrolScrub⟩
    have hdram : s.dramUp sec.val := ⟨hd, he, hu⟩
    exact ⟨hdram.completes_whole data, fun hm hb => ⟨hdram.completes_merge data hm hb, hdram.completes_failed data hm hb⟩⟩
  · refine ⟨fun hm hu => ?_, fun w hw hj hi => completes_mramWriteVerify hw hj hi w1 w2, completes_durabilityProbe who⟩
    exact ⟨completes_mramRead hm hu errs, fun hq => completes_mramWriteAccept hm hu hq data, completes_mramPatrolScrub_good hm hu,
      completes_mramPatrolScrub_rewrite hm hu⟩

end Sys2Proof.Machine

/-! PROOFS. The interrupt distributor: what a choice changes and what it offers, the bits of a source, and the messages that arrive
(R262 to R268, R272). -/

namespace Sys2Proof.Machine

/-! ### The choice of the candidates (R265) -/

/-- What the distributor has last offered a core, of the physical or of the virtual sources. -/
def Dist.offered (d : Dist) (p : Nat) (virt : Bool) : Option Offer := SMap.get none (if virt then d.vsent else d.sent) p

/-- The distributor notes what it offers a core. -/
def Dist.setOffered (d : Dist) (p : Nat) (virt : Bool) (o : Option Offer) : Dist :=
  if virt then { d with vsent := d.vsent.set none p o } else { d with sent := d.sent.set none p o }

theorem Dist.offered_setOffered (d : Dist) (p q : Nat) (virt v : Bool) (o : Option Offer) :
    (d.setOffered p virt o).offered q v = if q = p ∧ v = virt then o else d.offered q v := by
  by_cases hq : q = p
  · subst hq
    cases virt <;> cases v <;> simp [Dist.offered, Dist.setOffered]
  · cases virt <;> cases v <;> simp [Dist.offered, Dist.setOffered, hq, SMap.get_set_other _ hq]

/-- A choice for one core and kind tells the core nothing when its candidate stays, and else sends it one message (R265). -/
theorem State.reofferOne_cases (s : State) (p : Nat) (virt : Bool) :
    (s.candidate p virt = s.dist.offered p virt ∧ s.reofferOne p virt = s) ∨
    ∃ m, s.reofferOne p virt = ({ s with dist := s.dist.setOffered p virt (s.candidate p virt) } : State).toCore p m := by
  by_cases h : s.candidate p virt = s.dist.offered p virt
  · exact .inl ⟨h, if_pos h⟩
  · exact .inr ⟨_, if_neg h⟩

/-- Of two states only what the distributor has chosen, and sent to the cores, differs (R265, R273). -/
structure Rechosen (s t : State) : Prop where
  frame : t = { s with dist := t.dist }
  toDist : t.dist.toDist = s.dist.toDist
  resident : t.dist.resident = s.dist.resident

section
variable {s t u : State}

theorem Rechosen.refl (s : State) : Rechosen s s := ⟨rfl, rfl, rfl⟩

theorem Rechosen.trans (h : Rechosen s t) (g : Rechosen t u) : Rechosen s u := by
  refine ⟨?_, g.toDist.trans h.toDist, g.resident.trans h.resident⟩
  have hu := g.frame
  rw [h.frame] at hu
  exact hu

theorem Rechosen.regs (h : Rechosen s t) : t.regs = s.regs := by rw [h.frame]

theorem Rechosen.reofferOne (s : State) (p : Nat) (virt : Bool) : Rechosen s (s.reofferOne p virt) := by
  obtain ⟨-, h⟩ | ⟨m, h⟩ := s.reofferOne_cases p virt <;> rw [h]
  · exact .refl s
  · cases virt <;> exact ⟨rfl, rfl, rfl⟩

/-- The choice for one core: its physical candidate, then its virtual one. -/
def State.reoffer (s : State) (p : Nat) : State := (s.reofferOne p false).reofferOne p true

theorem Rechosen.reoffer (s : State) (p : Nat) : Rechosen s (s.reoffer p) :=
  (Rechosen.reofferOne s p false).trans (.reofferOne _ p true)

theorem Rechosen.foldl_reoffer (l : List Nat) (s : State) : Rechosen s (l.foldl State.reoffer s) := by
  induction l generalizing s with
  | nil => exact .refl s
  | cons p l ih => exact (Rechosen.reoffer s p).trans (ih _)

/-- A choice goes over the cores, and then over the doorbells, which change no offer (R265, R273). -/
theorem State.rechoose_eq (s : State) : s.rechoose = ((List.range 64).foldl State.reoffer s).ringDoorbells := rfl

theorem Rechosen.rechoose (s : State) : Rechosen s s.rechoose := by
  rw [State.rechoose_eq]
  exact (Rechosen.foldl_reoffer (List.range 64) s).trans ⟨rfl, rfl, rfl⟩

theorem Rechosen.reg (h : Rechosen s t) (r : Reg) (idx : List Nat) : t.reg r idx = s.reg r idx := State.reg_of_regs h.regs r idx

theorem Rechosen.residentCore (h : Rechosen s t) (v : Nat) : t.residentCore v = s.residentCore v := by
  unfold State.residentCore
  rw [h.resident, h.frame]
  rfl

theorem Rechosen.routeSrc (h : Rechosen s t) (n : Nat) : t.routeSrc n = s.routeSrc n := by
  simp only [State.routeSrc, State.fld, h.reg, h.residentCore]

/-- The candidate of a core depends on the registers and the residencies alone (R264, R265, R272). -/
theorem Rechosen.candidate (h : Rechosen s t) (p : Nat) (virt : Bool) : t.candidate p virt = s.candidate p virt := by
  simp only [State.candidate, State.pendingSrcs, State.offerable, State.pending?, State.active?, h.reg, h.regs, h.routeSrc]

theorem State.offered_reofferOne (s : State) (p q : Nat) (virt v : Bool) :
    (s.reofferOne p virt).dist.offered q v = if q = p ∧ v = virt then s.candidate q v else s.dist.offered q v := by
  obtain ⟨hc, h⟩ | ⟨m, h⟩ := s.reofferOne_cases p virt <;> rw [h]
  · split
    · next he => rw [he.1, he.2, hc]
    · rfl
  · show (s.dist.setOffered p virt _).offered q v = _
    rw [Dist.offered_setOffered]
    split
    · next he => rw [he.1, he.2]
    · rfl

theorem State.offered_reoffer (s : State) (p q : Nat) (v : Bool) :
    (s.reoffer p).dist.offered q v = if q = p then s.candidate q v else s.dist.offered q v := by
  rw [State.reoffer, State.offered_reofferOne, State.offered_reofferOne, (Rechosen.reofferOne s p false).candidate]
  cases v <;> by_cases hq : q = p <;> simp [hq]

theorem State.offered_foldl_reoffer (l : List Nat) (s : State) (q : Nat) (v : Bool) :
    (l.foldl State.reoffer s).dist.offered q v = if q ∈ l then s.candidate q v else s.dist.offered q v := by
  induction l generalizing s with
  | nil => rfl
  | cons p l ih =>
    rw [List.foldl_cons, ih, (Rechosen.reoffer s p).candidate, State.offered_reoffer]
    by_cases hl : q ∈ l <;> by_cases hq : q = p <;> simp [hl, hq]

/-- After a choice every core has been offered its candidates (R265). -/
theorem State.offered_rechoose (s : State) {q : Nat} (hq : q < 64) (v : Bool) : s.rechoose.dist.offered q v = s.candidate q v := by
  have h := State.offered_foldl_reoffer (List.range 64) s q v
  rw [if_pos (List.mem_range.mpr hq)] at h
  rw [State.rechoose_eq]
  exact h

/-- With GDIS no source is a candidate (R270). -/
theorem State.candidate_of_gdis (h : flag (s.reg .DIST_CTL) .DIST_CTL_GDIS = true) (p : Nat) (virt : Bool) : s.candidate p virt = none :=
  if_pos h

/-! ### What the distributor leaves alone -/

/-- Of two states only the registers and the distributor differ, and it waits for the same messages. -/
structure AtDist (s t : State) : Prop where
  frame : t = { s with regs := t.regs, dist := t.dist }
  toDist : t.dist.toDist = s.dist.toDist

theorem AtDist.refl (s : State) : AtDist s s := ⟨rfl, rfl⟩

theorem AtDist.trans (h : AtDist s t) (g : AtDist t u) : AtDist s u := by
  refine ⟨?_, g.toDist.trans h.toDist⟩
  have hu := g.frame
  rw [h.frame] at hu
  exact hu

theorem AtDist.quiet (h : AtDist s t) : Quiet s t := by
  rw [h.frame]
  exact ⟨rfl, rfl, rfl, rfl, rfl, rfl⟩

theorem Rechosen.atDist (h : Rechosen s t) : AtDist s t := by
  refine ⟨?_, h.toDist⟩
  rw [h.frame]

theorem AtDist.setReg (s : State) (r : Reg) (idx : List Nat) (v : Word) : AtDist s (s.setReg r idx v) := ⟨rfl, rfl⟩

theorem AtDist.setPend (s : State) (n : Nat) (b : Bool) : AtDist s (s.setPend n b) := ⟨rfl, rfl⟩

theorem AtDist.rechoose (h : AtDist s t) : AtDist s t.rechoose := h.trans (Rechosen.rechoose t).atDist

theorem AtDist.followLine (h : AtDist s t) (n : Nat) : AtDist s (t.followLine n) := by
  unfold State.followLine
  split
  · exact h.trans (.setPend t n true)
  · exact h

/-! ### The bits of a source (R262) -/

variable {n : Nat} {b : Bool}

theorem State.reg_setFld (s : State) (r : Reg) (idx : List Nat) (f : Fld) (v : Nat) :
    (s.setFld r idx f v).reg r idx = putBits (s.reg r idx) f v := State.reg_setReg _ _ _ _

theorem srcCfg_at (n : Nat) : Reg.SRC_CFG.at [n] = 0x3002100000 + 16 * n := rfl

theorem srcStat_at (n : Nat) : Reg.SRC_STAT.at [n] = 0x3002100004 + 16 * n := rfl

theorem State.srcCfg_setReg_srcStat (s : State) (n m : Nat) (v : Word) : (s.setReg .SRC_STAT [n] v).reg .SRC_CFG [m] = s.reg .SRC_CFG [m] :=
  State.reg_setReg_other _ _ _ _ _ _ (by rw [srcCfg_at, srcStat_at]; omega)

/-- What is written of the state of a source leaves which sources are level-sensitive. -/
theorem State.levelSrc_setFld_srcStat (s : State) (n : Nat) (f : Fld) (v : Nat) : (s.setFld .SRC_STAT [n] f v).levelSrc n = s.levelSrc n := by
  rw [State.levelSrc, State.setFld, State.srcCfg_setReg_srcStat, State.levelSrc]

theorem testBit_b2n (b : Bool) : (b2n b).testBit 0 = b := by cases b <;> rfl

@[simp] theorem State.pending?_setPend : (s.setPend n b).pending? n = b := by
  rw [State.pending?, State.setPend, State.reg_setFld, flag_putBits_self _ _ (by decide) (by decide), testBit_b2n]

@[simp] theorem State.active?_setPend : (s.setPend n b).active? n = s.active? n := by
  rw [State.active?, State.setPend, State.reg_setFld, flag_putBits_of_disjoint _ _ (by decide) (by decide), State.active?]

@[simp] theorem State.line?_setPend : (s.setPend n b).line? n = s.line? n := by
  rw [State.line?, State.setPend, State.reg_setFld, flag_putBits_of_disjoint _ _ (by decide) (by decide), State.line?]

@[simp] theorem State.levelSrc_setPend : (s.setPend n b).levelSrc n = s.levelSrc n := State.levelSrc_setFld_srcStat _ _ _ _

/-- ACTIVE of a source takes a value. -/
def State.setActive (s : State) (n : Nat) (b : Bool) : State := s.setFld .SRC_STAT [n] .SRC_STAT_ACTIVE (b2n b)

@[simp] theorem State.pending?_setActive : (s.setActive n b).pending? n = s.pending? n := by
  rw [State.pending?, State.setActive, State.reg_setFld, flag_putBits_of_disjoint _ _ (by decide) (by decide), State.pending?]

@[simp] theorem State.active?_setActive : (s.setActive n b).active? n = b := by
  rw [State.active?, State.setActive, State.reg_setFld, flag_putBits_self _ _ (by decide) (by decide), testBit_b2n]

@[simp] theorem State.line?_setActive : (s.setActive n b).line? n = s.line? n := by
  rw [State.line?, State.setActive, State.reg_setFld, flag_putBits_of_disjoint _ _ (by decide) (by decide), State.line?]

@[simp] theorem State.levelSrc_setActive : (s.setActive n b).levelSrc n = s.levelSrc n := State.levelSrc_setFld_srcStat _ _ _ _

/-- LINE of a source takes a value. -/
def State.setLine (s : State) (n : Nat) (b : Bool) : State := s.setFld .SRC_STAT [n] .SRC_STAT_LINE (b2n b)

@[simp] theorem State.pending?_setLine : (s.setLine n b).pending? n = s.pending? n := by
  rw [State.pending?, State.setLine, State.reg_setFld, flag_putBits_of_disjoint _ _ (by decide) (by decide), State.pending?]

@[simp] theorem State.active?_setLine : (s.setLine n b).active? n = s.active? n := by
  rw [State.active?, State.setLine, State.reg_setFld, flag_putBits_of_disjoint _ _ (by decide) (by decide), State.active?]

@[simp] theorem State.line?_setLine : (s.setLine n b).line? n = b := by
  rw [State.line?, State.setLine, State.reg_setFld, flag_putBits_self _ _ (by decide) (by decide), testBit_b2n]

@[simp] theorem State.levelSrc_setLine : (s.setLine n b).levelSrc n = s.levelSrc n := State.levelSrc_setFld_srcStat _ _ _ _

/-! A choice leaves every register, and so the bits of every source. -/

@[simp] theorem State.reg_rechoose (s : State) (r : Reg) (idx : List Nat) : s.rechoose.reg r idx = s.reg r idx :=
  State.reg_of_regs (Rechosen.rechoose s).regs r idx

@[simp] theorem State.pending?_rechoose : s.rechoose.pending? n = s.pending? n := by simp only [State.pending?, State.reg_rechoose]
@[simp] theorem State.active?_rechoose : s.rechoose.active? n = s.active? n := by simp only [State.active?, State.reg_rechoose]
@[simp] theorem State.line?_rechoose : s.rechoose.line? n = s.line? n := by simp only [State.line?, State.reg_rechoose]
@[simp] theorem State.levelSrc_rechoose : s.rechoose.levelSrc n = s.levelSrc n := by simp only [State.levelSrc, State.reg_rechoose]

/-! PENDING of a level-sensitive source that is not active follows its line, and nothing else of the source does. -/

@[simp] theorem State.pending?_followLine : (s.followLine n).pending? n = (s.pending? n || (s.levelSrc n && s.line? n && !s.active? n)) := by
  unfold State.followLine
  split
  · next h => rw [State.pending?_setPend, h, Bool.or_true]
  · next h => rw [Bool.eq_false_of_not_eq_true h, Bool.or_false]

@[simp] theorem State.active?_followLine : (s.followLine n).active? n = s.active? n := by
  unfold State.followLine
  split
  · exact State.active?_setPend
  · rfl

@[simp] theorem State.line?_followLine : (s.followLine n).line? n = s.line? n := by
  unfold State.followLine
  split
  · exact State.line?_setPend
  · rfl

@[simp] theorem State.levelSrc_followLine : (s.followLine n).levelSrc n = s.levelSrc n := by
  unfold State.followLine
  split
  · exact State.levelSrc_setPend
  · rfl

theorem State.srcCfg_followLine (s : State) (n m : Nat) : (s.followLine n).reg .SRC_CFG [m] = s.reg .SRC_CFG [m] := by
  unfold State.followLine
  split
  · exact State.srcCfg_setReg_srcStat s n m _
  · rfl

/-! ### The operations on a source (R262, R263, R267, R268) -/

theorem AtDist.srcSet (s : State) (n : Nat) : AtDist s (s.srcSet n) := by
  unfold State.srcSet
  split
  · exact .refl s
  · exact (AtDist.setPend s n true).rechoose

theorem State.pending?_srcSet : (s.srcSet n).pending? n = (!reservedSrc n || s.pending? n) := by
  unfold State.srcSet
  split
  · next h => rw [h]; rfl
  · next h => simp [h]

theorem AtDist.srcDeact (s : State) (n : Nat) : AtDist s (s.srcDeact n) :=
  ((AtDist.setReg s .SRC_STAT [n] _).followLine n).rechoose

theorem State.active?_srcDeact : (s.srcDeact n).active? n = false := by
  show ((s.setActive n false).followLine n).rechoose.active? n = false
  simp

theorem State.pending?_srcDeact : (s.srcDeact n).pending? n = (s.pending? n || (s.levelSrc n && s.line? n)) := by
  show ((s.setActive n false).followLine n).rechoose.pending? n = _
  simp

theorem AtDist.srcUnpend (s : State) (n : Nat) : AtDist s (s.srcUnpend n) := ((AtDist.setPend s n false).followLine n).rechoose

theorem State.pending?_srcUnpend : (s.srcUnpend n).pending? n = (s.levelSrc n && s.line? n && !s.active? n) := by
  simp [State.srcUnpend]

theorem AtDist.acceptArrives (s : State) (n : Nat) : AtDist s (s.acceptArrives n) :=
  ((AtDist.setReg s .SRC_STAT [n] _).trans (.setPend _ n false)).rechoose

theorem State.active?_acceptArrives : (s.acceptArrives n).active? n = true := by
  show ((s.setActive n true).setPend n false).rechoose.active? n = true
  simp

theorem State.pending?_acceptArrives : (s.acceptArrives n).pending? n = false := by
  simp [State.acceptArrives]

theorem AtDist.srcLine (s : State) (n : Nat) (lv : Bool) : AtDist s (s.srcLine n lv) := by
  have line : AtDist s (s.setLine n lv) := ⟨rfl, rfl⟩
  unfold State.srcLine
  dsimp only
  refine AtDist.rechoose ?_
  split
  · split
    · exact line.followLine n
    · split
      · exact line.trans (.setPend _ n false)
      · exact line
  · split
    · exact line.trans (.setPend _ n true)
    · exact line

/-- The line of a level-sensitive source rises. -/
theorem State.srcLine_level_rises (h : s.levelSrc n = true) : s.srcLine n true = ((s.setLine n true).followLine n).rechoose := by
  have hl : (s.setLine n true).levelSrc n = true := by rw [State.levelSrc_setLine, h]
  unfold State.srcLine
  dsimp only
  exact congrArg State.rechoose ((if_pos hl).trans (if_pos rfl))

/-- The line of a level-sensitive source falls. -/
theorem State.srcLine_level_falls (h : s.levelSrc n = true) (ho : s.line? n = true) :
    s.srcLine n false = ((s.setLine n false).setPend n false).rechoose := by
  have hl : (s.setLine n false).levelSrc n = true := by rw [State.levelSrc_setLine, h]
  unfold State.srcLine
  dsimp only
  exact congrArg State.rechoose ((if_pos hl).trans ((if_neg Bool.false_ne_true).trans (if_pos ho)))

/-- The line of an edge-triggered source rises. -/
theorem State.srcLine_edge_rises (h : s.levelSrc n = false) (ho : s.line? n = false) :
    s.srcLine n true = ((s.setLine n true).setPend n true).rechoose := by
  have hl : (s.setLine n true).levelSrc n = false := by rw [State.levelSrc_setLine, h]
  unfold State.srcLine
  dsimp only
  exact congrArg State.rechoose ((if_neg (ne_true_of_eq_false hl)).trans (if_pos (by rw [ho]; rfl)))

/-- The line of an edge-triggered source falls. -/
theorem State.srcLine_edge_falls (h : s.levelSrc n = false) : s.srcLine n false = (s.setLine n false).rechoose := by
  have hl : (s.setLine n false).levelSrc n = false := by rw [State.levelSrc_setLine, h]
  unfold State.srcLine
  dsimp only
  exact congrArg State.rechoose ((if_neg (ne_true_of_eq_false hl)).trans (if_neg Bool.false_ne_true))

/-! ### The messages that arrive at the distributor (R267, R268, R272) -/

theorem AtDist.eoiArrives (s : State) (virt : Bool) (vmid n : Nat) : AtDist s (s.eoiArrives virt vmid n) := by
  unfold State.eoiArrives
  dsimp only
  split
  · exact .refl s
  · split
    · exact .refl s
    · exact .srcDeact s n

/-- An EOI of a source that exists, a virtual one only of a source of its VMID, ends the active state of it (R268). -/
theorem State.eoiArrives_srcDeact {virt : Bool} {vmid : Nat} (hn : n < srcCount)
    (hv : virt = true → flag (s.reg .SRC_CFG [n]) .SRC_CFG_VIRT = true ∧ s.fld .SRC_CFG [n] .SRC_CFG_TARGET = vmid) :
    s.eoiArrives virt vmid n = s.srcDeact n := by
  have hown : ¬(virt && !(flag (s.reg .SRC_CFG [n]) .SRC_CFG_VIRT && bits (s.reg .SRC_CFG [n]) .SRC_CFG_TARGET == vmid)) = true := by
    cases virt with
    | false => exact Bool.false_ne_true
    | true =>
      obtain ⟨hflag, hfld⟩ := hv rfl
      rw [hflag, show bits (s.reg .SRC_CFG [n]) .SRC_CFG_TARGET = vmid from hfld]
      simp
  exact (if_neg (Nat.not_le.mpr hn)).trans (if_neg hown)

/-- After a decline the distributor has forgotten at most its offer of that source, and has chosen again (R272). -/
theorem Rechosen.declineArrives (s : State) (p n : Nat) : Rechosen s (s.declineArrives p n) := by
  unfold State.declineArrives
  dsimp only
  refine .trans ?_ (.rechoose _)
  split
  · exact ⟨rfl, rfl, rfl⟩
  · exact .refl s
end

end Sys2Proof.Machine

/-! PROOFS. O34: the messages of a core that reach the distributor before an access of it, and the registers of the sources (R262, R263,
R268 to R270). -/

namespace Sys2Proof.Machine

/-! ### The messages of a core arrive (R268) -/

section
variable {s t u : State} {p : Nat} {m : DistMsg}

theorem Quiet.refl (s : State) : Quiet s s := ⟨rfl, rfl, rfl, rfl, rfl, rfl⟩

theorem Quiet.trans (h : Quiet s t) (g : Quiet t u) : Quiet s u :=
  ⟨g.mem.trans h.mem, g.cores.trans h.cores, g.quads.trans h.quads, g.homes.trans h.homes, g.shr.trans h.shr, g.pdOn.trans h.pdOn⟩

theorem Quiet.popToDist (s : State) (p : Nat) (m : DistMsg) : Quiet s (s.popToDist p m) := ⟨rfl, rfl, rfl, rfl, rfl, rfl⟩

theorem AtDist.residencyArrives (s : State) (p : Nat) (v : Option Nat) : AtDist s (s.residencyArrives p v) := by
  refine AtDist.rechoose ?_
  exact ⟨rfl, rfl⟩

theorem AtDist.distTake (s : State) (p : Nat) (m : DistMsg) : AtDist s (s.distTake p m) := by
  cases m with
  | accept virt n => exact .acceptArrives s n
  | decline n => exact (Rechosen.declineArrives s p n).atDist
  | eoi virt vmid n before => exact .eoiArrives s virt vmid n
  | residency v => exact .residencyArrives s p v
  | offer virt o => exact .refl s
  | withdraw virt => exact .refl s

theorem Quiet.distFlush (s : State) (p n : Nat) : Quiet s (s.distFlush p n) := by
  induction n generalizing s with
  | zero => exact .refl s
  | succ n ih =>
    unfold State.distFlush
    split
    · split
      · next m _ => exact ((Quiet.popToDist s p m).trans (AtDist.distTake _ p m).quiet).trans (ih _)
      · exact .refl s
    · exact .refl s

/-- The oldest message of a core to the distributor waits there. -/
theorem Dist.mem_of_nextToDist {d : Dist} (h : d.nextToDist p = some m) : (p, m) ∈ d.toDist := by
  obtain ⟨⟨q, _⟩, hfind, rfl⟩ := Option.map_eq_some_iff.mp h
  obtain rfl : q = p := by simpa using List.find?_some hfind
  exact List.mem_of_find?_eq_some hfind

/-- A core with no message to the distributor has no EOI due there. -/
theorem State.eoiDue_of_no_message (h : s.dist.nextToDist p = none) : s.eoiDue p = false := by
  have hne : ∀ m ∈ s.dist.toDist, (m.1 == p) = false := by
    simpa using List.find?_eq_none.mp (Option.map_eq_none_iff.mp h)
  refine List.any_eq_false.mpr fun m hm => ?_
  rw [hne m hm]
  exact Bool.false_ne_true

/-- When as many messages have arrived as wait at the distributor, no EOI of the core is due any more. -/
theorem State.eoiDue_distFlush {n : Nat} (h : s.dist.toDist.length ≤ n) : (s.distFlush p n).eoiDue p = false := by
  induction n generalizing s with
  | zero =>
    have hnil : s.dist.toDist = [] := List.length_eq_zero_iff.mp (Nat.le_zero.mp h)
    show s.dist.toDist.any _ = false
    rw [hnil]
    rfl
  | succ n ih =>
    unfold State.distFlush
    split
    · split
      · next m hm =>
        refine ih ?_
        rw [(AtDist.distTake _ p m).toDist]
        show (s.dist.toDist.erase (p, m)).length ≤ n
        rw [List.length_erase_of_mem (Dist.mem_of_nextToDist hm)]
        omega
      · next hm => exact State.eoiDue_of_no_message hm
    · next hdue => exact Bool.eq_false_of_not_eq_true hdue

theorem Quiet.eoisFirst (s : State) (by' : Sender) (pa : Nat) : Quiet s (s.eoisFirst by' pa) := by
  unfold State.eoisFirst
  split
  · split
    · exact .distFlush s _ _
    · exact .refl s
  · exact .refl s

/-- An access of a core to the distributor comes after its EOIs that are due (R268). -/
theorem State.eoiDue_eoisFirst (s : State) (c : CoreId) {pa : Nat} (h : inDist pa = true) :
    (s.eoisFirst (.core c) pa).eoiDue c.val = false := by
  rw [State.eoisFirst, if_pos h]
  exact State.eoiDue_distFlush (Nat.le_refl _)

/-- Every access to the distributor comes after the same EOIs. -/
theorem State.eoisFirst_of_inDist (s : State) (by' : Sender) {pa : Nat} (h : inDist pa = true) :
    s.eoisFirst by' pa = s.eoisFirst by' (Reg.DIST_CTL.at []) := by
  cases by' with
  | core c => rw [State.eoisFirst, State.eoisFirst, if_pos h, if_pos (by decide)]
  | fetas => rfl
  | unit => rfl

/-! ### Writes of registers by a sender -/

variable {by' : Sender} {r : Reg} {idx : List Nat}

/-- The distributor has the addresses from 0x30_0200_0000 up to 0x30_0300_0000. -/
theorem inDist_eq_true {pa : Nat} (h : 0x3002000000 ≤ pa) (h' : pa < 0x3003000000) : inDist pa = true := by
  have hd : Reg.DIST_CTL.at [] / 2 ^ 24 = 0x3002 := by decide
  simp only [inDist, hd, beq_iff_eq]
  omega

/-- A write by a sender that reaches a register of the distributor, behind the EOIs before it. -/
theorem State.regW_inDist (hu : u = s.eoisFirst by' (Reg.DIST_CTL.at [])) (hd : inDist (r.at idx) = true)
    (h : u.reaches (u.who by') r idx) (hw : r.spec.wide = false) (v : Nat) :
    s.regW by' r idx v = u.regWrite (u.who by') r idx (BitVec.ofNat 64 (v % 2 ^ 32)) lanes32 := by
  rw [← s.eoisFirst_of_inDist by' hd] at hu
  subst hu
  exact State.busWrite_reaches h hw v

/-- A register with no field that only Fetas writes has one definition for all (R16). -/
theorem Reg.defFor_of_loaded_zero (h : r.loaded = 0) (w : Who) : r.defFor w = r.spec := by
  unfold Reg.defFor
  rw [h]
  split
  · simp
  · rfl

/-- A 32-bit value as a write has it on the bus. -/
theorem written32 (v : BitVec 32) : BitVec.ofNat 64 (v.toNat % 2 ^ 32) &&& lanes32 = v.setWidth 64 := by
  have hl : lanes32.toNat = 2 ^ 32 - 1 := rfl
  refine BitVec.eq_of_toNat_eq ?_
  rw [BitVec.toNat_and, hl, Nat.and_two_pow_sub_one_eq_mod, BitVec.toNat_ofNat, BitVec.toNat_setWidth]
  omega

/-! What the unit does with a write of each register of a source. -/

theorem State.regWrite_srcSet (s : State) (w : Who) (n : Nat) (v lanes : Word) :
    s.regWrite w .SRC_SET [n] v lanes = if (v &&& lanes).getLsbD 0 then s.srcSet n else s := rfl

theorem State.regWrite_srcClr_pending (s : State) (w : Who) (n : Nat) :
    s.regWrite w .SRC_CLR [n] (BitVec.ofNat 64 (1 % 2 ^ 32)) lanes32 = (s.srcUnpend n).srcUnpend n := by
  have h0 : (BitVec.ofNat 64 (1 % 2 ^ 32) &&& lanes32).getLsbD 0 = true := by decide
  have h1 : (BitVec.ofNat 64 (1 % 2 ^ 32) &&& lanes32).getLsbD 1 = false := by decide
  unfold State.regWrite
  dsimp only
  simp only [h0, h1, if_true, Bool.false_eq_true, if_false, List.headD_cons]

theorem State.regWrite_srcClr_active (s : State) (w : Who) (n : Nat) :
    s.regWrite w .SRC_CLR [n] (BitVec.ofNat 64 (2 % 2 ^ 32)) lanes32 = s.srcDeact n := by
  have h0 : (BitVec.ofNat 64 (2 % 2 ^ 32) &&& lanes32).getLsbD 0 = false := by decide
  have h1 : (BitVec.ofNat 64 (2 % 2 ^ 32) &&& lanes32).getLsbD 1 = true := by decide
  unfold State.regWrite
  dsimp only
  simp only [h0, h1, if_true, Bool.false_eq_true, if_false, List.headD_cons]

theorem State.regWrite_srcCfg (s : State) (w : Who) (n : Nat) (v : BitVec 32) :
    s.regWrite w .SRC_CFG [n] (BitVec.ofNat 64 (v.toNat % 2 ^ 32)) lanes32 =
      ((s.setReg .SRC_CFG [n] (Reg.SRC_CFG.spec.written (s.reg .SRC_CFG [n]) (v.setWidth 64) lanes32)).followLine n).rechoose := by
  rw [← written32, ← Reg.defFor_of_loaded_zero rfl w]
  rfl

theorem State.regWrite_distCtl (s : State) (w : Who) (v : BitVec 32) :
    s.regWrite w .DIST_CTL [] (BitVec.ofNat 64 (v.toNat % 2 ^ 32)) lanes32 =
      (s.setReg .DIST_CTL [] (Reg.DIST_CTL.spec.written (s.reg .DIST_CTL) (v.setWidth 64) lanes32)).rechoose := by
  rw [← written32, ← Reg.defFor_of_loaded_zero rfl w]
  rfl

/-! ### Lines, SRC and DIST registers (R262, R263, R268 to R270) -/

variable (w : Fin 1024) (n : Fin 17408) (lv : Bool)

/-- R262: the edges that a unit has raised on a source reach the distributor. -/
theorem completes_wiredSourceLine_pulse (hd : s.pdUp 91 = true) (hp : w.val ∈ s.pulses) (hl : s.levelSrc w.val = false)
    (ho : s.line? w.val = false) : Completes (.wiredSourceLine w lv) s fun t =>
      t.pending? w.val = true ∧ t.pulses = s.pulses.erase w.val ∧ Quiet s t := by
  have e : exec (.wiredSourceLine w lv) s =
      ok ((({ s with pulses := s.pulses.erase w.val } : State).srcLine w.val true).srcLine w.val false) := by
    show execWiredSourceLine w lv s = _
    unfold execWiredSourceLine
    dsimp only
    rw [if_pos (List.contains_iff_mem.mpr hp)]
    congr 1
    exact if_pos hd
  obtain ⟨v, hv⟩ : ∃ v, v = ({ s with pulses := s.pulses.erase w.val } : State) := ⟨_, rfl⟩
  have hsv : Quiet s v := by rw [hv]; exact ⟨rfl, rfl, rfl, rfl, rfl, rfl⟩
  have hpv : v.pulses = s.pulses.erase w.val := by rw [hv]
  have hlv : v.levelSrc w.val = false := by rw [hv]; exact hl
  have hov : v.line? w.val = false := by rw [hv]; exact ho
  have hat : AtDist v ((v.srcLine w.val true).srcLine w.val false) := (AtDist.srcLine v w.val true).trans (.srcLine _ _ false)
  rw [← hv] at e
  refine completes_ok e ⟨?_, ?_, hsv.trans hat.quiet⟩
  · rw [State.srcLine_edge_rises hlv hov, State.srcLine_edge_falls (by simp [hlv])]
    simp
  · rw [hat.frame, hpv]

/-- The level that a unit drives reaches the distributor. -/
theorem exec_wiredSourceLine_level {l : Bool} (hd : s.pdUp 91 = true) (hp : w.val ∉ s.pulses) (hw : s.wire w.val = some l) :
    exec (.wiredSourceLine w lv) s = ok (s.srcLine w.val l) := by
  show execWiredSourceLine w lv s = _
  unfold execWiredSourceLine
  dsimp only
  rw [if_neg (by simpa using hp), if_neg (by simp [hd]), hw]

/-- R262: a level-sensitive source that is not active pends when its line rises. -/
theorem completes_wiredSourceLine_rises (hd : s.pdUp 91 = true) (hp : w.val ∉ s.pulses) (hw : s.wire w.val = some true)
    (hl : s.levelSrc w.val = true) (ha : s.active? w.val = false) : Completes (.wiredSourceLine w lv) s fun t =>
      t.line? w.val = true ∧ t.pending? w.val = true ∧ Quiet s t := by
  refine completes_ok (exec_wiredSourceLine_level w lv hd hp hw) ⟨?_, ?_, (AtDist.srcLine s w.val true).quiet⟩ <;>
    simp [State.srcLine_level_rises hl, hl, ha]

/-- R262: PENDING of a level-sensitive source falls with its line. -/
theorem completes_wiredSourceLine_falls (hd : s.pdUp 91 = true) (hp : w.val ∉ s.pulses) (hw : s.wire w.val = some false)
    (hl : s.levelSrc w.val = true) (ho : s.line? w.val = true) : Completes (.wiredSourceLine w lv) s fun t =>
      t.line? w.val = false ∧ t.pending? w.val = false ∧ Quiet s t := by
  refine completes_ok (exec_wiredSourceLine_level w lv hd hp hw) ⟨?_, ?_, (AtDist.srcLine s w.val false).quiet⟩ <;>
    simp [State.srcLine_level_falls hl ho]

theorem srcRegs_inDist (h : r ∈ [Reg.SRC_CFG, .SRC_SET, .SRC_CLR]) : inDist (r.at [n.val]) = true := by
  have hn := n.isLt
  have hat : 0x3002100000 ≤ r.at [n.val] ∧ r.at [n.val] ≤ 0x300210000c + 16 * n.val := by
    have hc : Reg.SRC_CFG.at [n.val] = 0x3002100000 + 16 * n.val := rfl
    have hs : Reg.SRC_SET.at [n.val] = 0x3002100008 + 16 * n.val := rfl
    have hr : Reg.SRC_CLR.at [n.val] = 0x300210000c + 16 * n.val := rfl
    simp only [List.mem_cons, List.not_mem_nil, or_false] at h
    obtain rfl | rfl | rfl := h <;> omega
  exact inDist_eq_true (by omega) (by omega)

variable (hu : u = s.eoisFirst by' (Reg.DIST_CTL.at []))
include hu

theorem Quiet.after_eois (h : Quiet u t) : Quiet s t := by
  rw [hu] at h
  exact (Quiet.eoisFirst s by' _).trans h

/-- R262, R263: SRC_SET sets PENDING of a source that is not reserved. -/
theorem completes_srcSet (h : u.reaches (u.who by') .SRC_SET [n.val]) : Completes (.srcSet by' n) s fun t =>
    t.pending? n.val = (!reservedSrc n.val || u.pending? n.val) ∧ Quiet s t := by
  have e : exec (.srcSet by' n) s = ok (s.regW by' .SRC_SET [n.val] 1) := rfl
  rw [State.regW_inDist hu (srcRegs_inDist n (by simp)) h rfl, State.regWrite_srcSet, if_pos (by decide)] at e
  exact completes_ok e ⟨State.pending?_srcSet, Quiet.after_eois hu (AtDist.srcSet u n.val).quiet⟩

/-- R262: SRC_CLR clears PENDING, and a level-sensitive source that is not active follows its line. -/
theorem completes_srcClrPending (h : u.reaches (u.who by') .SRC_CLR [n.val]) : Completes (.srcClrPending by' n) s fun t =>
    t.pending? n.val = (u.levelSrc n.val && u.line? n.val && !u.active? n.val) ∧ Quiet s t := by
  have e : exec (.srcClrPending by' n) s = ok (s.regW by' .SRC_CLR [n.val] 1) := rfl
  rw [State.regW_inDist hu (srcRegs_inDist n (by simp)) h rfl, State.regWrite_srcClr_pending] at e
  refine completes_ok e ⟨?_, Quiet.after_eois hu ((AtDist.srcUnpend u n.val).trans (.srcUnpend _ n.val)).quiet⟩
  rw [State.pending?_srcUnpend]
  simp [State.srcUnpend]

/-- R268: SRC_CLR clears ACTIVE, and a level-sensitive source whose line is asserted pends again. -/
theorem completes_srcClrActive (h : u.reaches (u.who by') .SRC_CLR [n.val]) : Completes (.srcClrActive by' n) s fun t =>
    t.active? n.val = false ∧ t.pending? n.val = (u.pending? n.val || (u.levelSrc n.val && u.line? n.val)) ∧ Quiet s t := by
  have e : exec (.srcClrActive by' n) s = ok (s.regW by' .SRC_CLR [n.val] 2) := rfl
  rw [State.regW_inDist hu (srcRegs_inDist n (by simp)) h rfl, State.regWrite_srcClr_active] at e
  exact completes_ok e ⟨State.active?_srcDeact, State.pending?_srcDeact, Quiet.after_eois hu (AtDist.srcDeact u n.val).quiet⟩

/-- R269: a write of SRC_CFG takes effect at once, and the distributor chooses again. -/
theorem completes_srcCfgWrite (v : BitVec 32) (h : u.reaches (u.who by') .SRC_CFG [n.val]) : Completes (.srcCfgWrite by' n v) s fun t =>
    t.reg .SRC_CFG [n.val] = Reg.SRC_CFG.spec.written (u.reg .SRC_CFG [n.val]) (v.setWidth 64) lanes32 ∧ Quiet s t := by
  have e : exec (.srcCfgWrite by' n v) s = ok (s.regW by' .SRC_CFG [n.val] v.toNat) := rfl
  rw [State.regW_inDist hu (srcRegs_inDist n (by simp)) h rfl, State.regWrite_srcCfg] at e
  refine completes_ok e ⟨?_, Quiet.after_eois hu ((AtDist.setReg u .SRC_CFG [n.val] _).followLine n.val).rechoose.quiet⟩
  rw [State.reg_rechoose, State.srcCfg_followLine, State.reg_setReg]

/-- R270: a write of DIST_CTL takes effect at once; with GDIS no core has an offer left outstanding at the distributor. -/
theorem completes_distCtlWrite (v : BitVec 32) (h : u.reaches (u.who by') .DIST_CTL []) : Completes (.distCtlWrite by' v) s fun t =>
    t.reg .DIST_CTL = Reg.DIST_CTL.spec.written (u.reg .DIST_CTL) (v.setWidth 64) lanes32 ∧ Quiet s t ∧
    (flag (t.reg .DIST_CTL) .DIST_CTL_GDIS = true → ∀ p < 64, t.dist.sent.get none p = none ∧ t.dist.vsent.get none p = none) := by
  have e : exec (.distCtlWrite by' v) s = ok (s.regW by' .DIST_CTL [] v.toNat) := rfl
  rw [State.regW_inDist hu (by decide) h rfl, State.regWrite_distCtl] at e
  refine completes_ok e ⟨?_, Quiet.after_eois hu (AtDist.setReg u .DIST_CTL [] _).rechoose.quiet, fun hg p hp => ?_⟩
  · rw [State.reg_rechoose, State.reg_setReg]
  · rw [State.reg_rechoose] at hg
    exact ⟨(State.offered_rechoose _ hp false).trans (State.candidate_of_gdis hg p false),
      (State.offered_rechoose _ hp true).trans (State.candidate_of_gdis hg p true)⟩
end

/-- Settles O34: each command is an operation on its source, or a write of the register and a new choice, behind the EOIs of its core. -/
theorem interruptSources : Obligations.InterruptSources := by
  unfold Obligations.InterruptSources
  intro s by' w n v lv
  refine ⟨completes_wiredSourceLine_pulse w lv, completes_wiredSourceLine_rises w lv, completes_wiredSourceLine_falls w lv,
    fun c pa h => s.eoiDue_eoisFirst c h, fun u hu => ?_⟩
  exact ⟨completes_srcSet n hu, fun h => ⟨completes_srcClrPending n hu h, completes_srcClrActive n hu h⟩, completes_srcCfgWrite n hu v,
    completes_distCtlWrite hu v⟩

end Sys2Proof.Machine

/-! PROOFS. O32: messages between the distributor and the cores, EOIs, and compare timers (R265 to R268, R272, R460). -/

namespace Sys2Proof.Machine

/-! ### What a core does with a message (R265, R272, R275) -/

section
variable {s : State} {c : CoreId} {o : Offer} {p n : Nat} {m : DistMsg}

/-- Of two states only the core c differs, and there at most in whether it waits in WFI (R275). -/
structure Wakes (c : CoreId) (s t : State) : Prop where
  frame : t = { s with cores := t.cores }
  others : ∀ d, d ≠ c → t.core d = s.core d
  core : t.core c = { s.core c with run := (t.core c).run }

theorem Wakes.wakeCheck (s : State) (c : CoreId) : Wakes c s (s.wakeCheck c) := by
  unfold State.wakeCheck
  split
  · exact ⟨rfl, fun _ hd => State.core_setCore_other _ hd _, by rw [State.core_updCore]⟩
  · exact ⟨rfl, fun _ _ => rfl, rfl⟩

theorem SameRegs.refl (k : Core) : SameRegs k k := ⟨rfl, rfl, rfl, rfl⟩

theorem Wakes.sameRegs {t : State} {k : Core} (h : Wakes c s t) (g : SameRegs k (s.core c)) : SameRegs k (t.core c) := by
  rw [h.core]
  exact ⟨g.g, g.f, g.pc, g.spH⟩

/-- A physical offer is held by its core (R265). -/
theorem completes_offer_physical (h : s.dist.nextToCore c = some (.offer false o)) : Completes (.interruptOffer c) s fun t =>
    (t.core c).offer = some o ∧ SameRegs (s.core c) (t.core c) ∧ (∀ d, d ≠ c → t.core d = s.core d) ∧ t.regs = s.regs ∧
    t.mem = s.mem ∧ t.dist.toCore = s.dist.toCore.erase (c.val, .offer false o) := by
  have e : exec (.interruptOffer c) s =
      ok (((s.popToCore c.val (.offer false o)).updCore c fun k => { k with offer := some o }).wakeCheck c) := by
    show execInterruptOffer c s = _
    simp only [execInterruptOffer, h, State.offerArrives, Bool.false_eq_true, if_false]
  have w := Wakes.wakeCheck ((s.popToCore c.val (.offer false o)).updCore c fun k => { k with offer := some o }) c
  have hk := State.core_updCore (s.popToCore c.val (.offer false o)) c fun k => { k with offer := some o }
  refine completes_ok e ⟨?_, w.sameRegs ?_, fun d hd => ?_, ?_, ?_, ?_⟩
  · rw [w.core, hk]
  · rw [hk]
    exact ⟨rfl, rfl, rfl, rfl⟩
  · exact (w.others d hd).trans (State.core_setCore_other _ hd _)
  · rw [w.frame]; rfl
  · rw [w.frame]; rfl
  · rw [w.frame]; rfl

/-- A core keeps the virtual offer that it holds while it is resident for its VMID, and else declines it (R272). -/
theorem State.declineStale_held (h : (s.core c).voffer = some o) :
    SameRegs (s.core c) ((s.declineStale c).core c) ∧ (s.declineStale c).regs = s.regs ∧ (s.declineStale c).mem = s.mem ∧
    if (s.core c).residentFor o.vmid then ((s.declineStale c).core c).voffer = some o ∧ (s.declineStale c).dist.toDist = s.dist.toDist
    else ((s.declineStale c).core c).voffer = none ∧ (s.declineStale c).dist.toDist = s.dist.toDist ++ [(c.val, .decline o.src)] := by
  have hd : s.declineStale c = if (s.core c).residentFor o.vmid then s
      else (s.updCore c fun k => { k with voffer := none }).toDist c (.decline o.src) := by
    rw [State.declineStale, h]
  split at hd
  · next hr =>
    rw [hd, if_pos hr]
    exact ⟨.refl _, rfl, rfl, h, rfl⟩
  · next hr =>
    have hk : ((s.updCore c fun k => { k with voffer := none }).toDist c (.decline o.src)).core c = { s.core c with voffer := none } :=
      State.core_updCore s c fun k => { k with voffer := none }
    rw [hd, if_neg hr, hk]
    exact ⟨⟨rfl, rfl, rfl, rfl⟩, rfl, rfl, rfl, rfl⟩

/-- A virtual offer is held by a core that is resident for its VMID, and declined by another (R272). -/
theorem completes_offer_virtual (h : s.dist.nextToCore c = some (.offer true o)) : Completes (.interruptOffer c) s fun t =>
    SameRegs (s.core c) (t.core c) ∧ t.regs = s.regs ∧ t.mem = s.mem ∧
    if (s.core c).residentFor o.vmid then (t.core c).voffer = some o ∧ t.dist.toDist = s.dist.toDist
    else (t.core c).voffer = none ∧ t.dist.toDist = s.dist.toDist ++ [(c.val, .decline o.src)] := by
  obtain ⟨u, hu⟩ : ∃ u, u = (s.popToCore c.val (.offer true o)).updCore c fun k => { k with voffer := some o } := ⟨_, rfl⟩
  have hk : u.core c = { s.core c with voffer := some o } := by rw [hu, State.core_updCore]; rfl
  have hregs : u.regs = s.regs := by rw [hu]; rfl
  have hmem : u.mem = s.mem := by rw [hu]; rfl
  have hdist : u.dist.toDist = s.dist.toDist := by rw [hu]; rfl
  have e : exec (.interruptOffer c) s = ok ((u.declineStale c).wakeCheck c) := by
    show execInterruptOffer c s = _
    simp only [execInterruptOffer, h, State.offerArrives, if_true, hu]
  have w := Wakes.wakeCheck (u.declineStale c) c
  obtain ⟨hsame, hdregs, hdmem, hd⟩ := State.declineStale_held (s := u) (c := c) (o := o) (by rw [hk])
  rw [hk, hdist] at hd
  rw [hk] at hsame
  refine completes_ok e ⟨w.sameRegs ⟨hsame.g, hsame.f, hsame.pc, hsame.spH⟩, ?_, ?_, ?_⟩
  · rw [w.frame, ← hregs, ← hdregs]
  · rw [w.frame, ← hmem, ← hdmem]
  · rw [w.core, w.frame]
    exact hd

/-- A withdrawal takes back the offer of its kind that the core holds (R265). -/
theorem completes_withdrawal {virt : Bool} (h : s.dist.nextToCore c = some (.withdraw virt)) : Completes (.offerWithdrawal c) s fun t =>
    (if virt then (t.core c).voffer = none ∧ (t.core c).offer = (s.core c).offer
     else (t.core c).offer = none ∧ (t.core c).voffer = (s.core c).voffer) ∧
    SameRegs (s.core c) (t.core c) ∧ t.regs = s.regs ∧ t.mem = s.mem := by
  have e : exec (.offerWithdrawal c) s = ok ((s.popToCore c.val (.withdraw virt)).withdrawArrives c virt) := by
    show execOfferWithdrawal c s = _
    simp only [execOfferWithdrawal, h]
  have hk : ((s.popToCore c.val (.withdraw virt)).withdrawArrives c virt).core c =
      if virt then { s.core c with voffer := none } else { s.core c with offer := none } := State.core_updCore _ _ _
  refine completes_ok e ⟨?_, ?_, rfl, rfl⟩
  · rw [hk]
    cases virt <;> exact ⟨rfl, rfl⟩
  · rw [hk]
    cases virt <;> exact ⟨rfl, rfl, rfl, rfl⟩

/-! ### What the distributor does with a message (R267, R268, R272) -/

/-- What the distributor does with the oldest message of a core once it has taken it changes nothing but the distributor. -/
theorem AtDist.quiet_pop {t : State} (h : AtDist (s.popToDist p m) t) : Quiet s t := (Quiet.popToDist s p m).trans h.quiet

theorem completes_acceptance {virt : Bool} (h : s.dist.nextToDist c = some (.accept virt n)) : Completes (.acceptance c) s fun t =>
    t.active? n = true ∧ t.pending? n = false ∧ Quiet s t := by
  have e : exec (.acceptance c) s = ok ((s.popToDist c.val (.accept virt n)).acceptArrives n) := by
    show execAcceptance c s = _
    simp only [execAcceptance, h]
  exact completes_ok e ⟨State.active?_acceptArrives, State.pending?_acceptArrives, (AtDist.acceptArrives _ n).quiet_pop⟩

theorem completes_decline (h : s.dist.nextToDist c = some (.decline n)) : Completes (.decline c) s fun t =>
    t.regs = s.regs ∧ Quiet s t ∧ t.dist.toDist = s.dist.toDist.erase (c.val, .decline n) := by
  have e : exec (.decline c) s = ok ((s.popToDist c.val (.decline n)).declineArrives c.val n) := by
    show execDecline c s = _
    simp only [execDecline, h]
  have r := Rechosen.declineArrives (s.popToDist c.val (.decline n)) c.val n
  exact completes_ok e ⟨r.regs, r.atDist.quiet_pop, r.toDist⟩

/-- An EOI waits for the Device stores of its core to the distributor before it (R268). -/
theorem exec_eoiMessage_waits {virt : Bool} {v before : Nat} (h : s.dist.nextToDist c = some (.eoi virt v n (before + 1))) :
    exec (.eoiMessage c) s = .next s := by
  show execEoiMessage c s = _
  simp only [execEoiMessage, h]
  rfl

theorem completes_eoiMessage {virt : Bool} {v : Nat} (h : s.dist.nextToDist c = some (.eoi virt v n 0)) (hn : n < srcCount)
    (hv : virt = true → flag (s.reg .SRC_CFG [n]) .SRC_CFG_VIRT = true ∧ s.fld .SRC_CFG [n] .SRC_CFG_TARGET = v) :
    Completes (.eoiMessage c) s fun t => t.active? n = false ∧ Quiet s t ∧
      t.pending? n = (s.pending? n || (s.levelSrc n && s.line? n)) := by
  have e : exec (.eoiMessage c) s = ok ((s.popToDist c.val (.eoi virt v n 0)).srcDeact n) := by
    rw [← State.eoiArrives_srcDeact (s := s.popToDist c.val (.eoi virt v n 0)) hn hv]
    show execEoiMessage c s = _
    simp only [execEoiMessage, h]
  exact completes_ok e ⟨State.active?_srcDeact, (AtDist.srcDeact _ n).quiet_pop, State.pending?_srcDeact⟩

theorem completes_residencyMessage {r : Option Nat} (h : s.dist.nextToDist c = some (.residency r)) :
    Completes (.residencyMessage c) s fun t => t.dist.resident.get none c.val = r ∧ t.regs = s.regs ∧ Quiet s t := by
  have e : exec (.residencyMessage c) s = ok ((s.popToDist c.val (.residency r)).residencyArrives c.val r) := by
    show execResidencyMessage c s = _
    simp only [execResidencyMessage, h]
  refine completes_ok e ⟨?_, (Rechosen.rechoose _).regs, (AtDist.residencyArrives _ c.val r).quiet_pop⟩
  rw [State.residencyArrives, (Rechosen.rechoose _).resident]
  exact SMap.get_set_self _ _ _ _

/-! ### EOIs of a core (R268) -/

/-- The register of the active priorities that an EOI ends one of. -/
def actPri (virt : Bool) : Reg := if virt then .V_ACTPRI else .IRQ_ACTPRI

/-- An EOI ends the highest active priority, and goes to the distributor behind the Device stores of the core to it (R268). -/
theorem State.coreEoi_eq (s : State) (c : CoreId) (virt : Bool) (n : Nat) : s.coreEoi c virt n =
    (s.setCore c ((s.core c).setReg (actPri virt) [] ((s.core c).reg (actPri virt) &&& ~~~(1#64 <<< highBit ((s.core c).reg (actPri virt)))))).toDist c
      (.eoi virt ((s.core c).fld .VMID .VMID_VMID) n (((s.core c).devOut ++ (s.core c).sb).countP fun e => e.toDist)) := by
  have hv : ∀ w, ((s.core c).setReg (actPri virt) [] w).fld .VMID .VMID_VMID = (s.core c).fld .VMID .VMID_VMID := fun w => by
    rw [Core.fld, Core.reg_setReg_other _ _ _ _ _ _ (by cases virt <;> decide), Core.fld]
  unfold actPri at hv ⊢
  unfold State.coreEoi
  dsimp only
  rw [State.core_updCore, hv]
  rfl

/-- A write of IRQ_EOI or VIRQ_EOI: q is the register, which keeps the value w of it. -/
theorem completes_eoi {i : Instr} {q : Reg} {virt : Bool} {w : Word}
    (e : exec i s = ok ((s.setCore c ((s.core c).setReg q [] w)).coreEoi c virt n)) (ha : (actPri virt).at [] ≠ q.at [])
    (hv : Reg.VMID.at [] ≠ q.at []) : let k := s.core c
    Completes i s fun t =>
      (t.core c).reg (actPri virt) = k.reg (actPri virt) &&& ~~~(1#64 <<< highBit (k.reg (actPri virt))) ∧
      t.dist.toDist = s.dist.toDist ++ [(c.val, .eoi virt (k.fld .VMID .VMID_VMID) n ((k.devOut ++ k.sb).countP fun e => e.toDist))] ∧
      t = { s with cores := t.cores, dist := t.dist } ∧ SameRegs k (t.core c) := by
  intro k
  have hact : (k.setReg q [] w).reg (actPri virt) = k.reg (actPri virt) := Core.reg_setReg_other _ _ _ _ _ _ ha
  have hvm : (k.setReg q [] w).fld .VMID .VMID_VMID = k.fld .VMID .VMID_VMID := by
    rw [Core.fld, Core.reg_setReg_other _ _ _ _ _ _ hv, Core.fld]
  rw [State.coreEoi_eq, State.core_setCore, hact, hvm] at e
  generalize hx : (k.setReg q [] w).setReg (actPri virt) [] _ = x at e
  have hk (m : DistMsg) : (((s.setCore c (k.setReg q [] w)).setCore c x).toDist c m).core c = x := State.core_setCore _ c x
  refine completes_ok e ⟨?_, rfl, ?_, ?_⟩
  · rw [hk, ← hx, Core.reg_setReg]
  · dsimp only [State.toDist, State.setCore]
  · rw [hk, ← hx]
    exact ⟨rfl, rfl, rfl, rfl⟩

theorem completes_irqEoi (v : BitVec 64) (hr : (s.core c).ready = true) (hl : (s.core c).level = .h) : let k := s.core c
    Completes (.irqEoi c v) s fun t =>
      (t.core c).reg .IRQ_ACTPRI = k.reg .IRQ_ACTPRI &&& ~~~(1#64 <<< highBit (k.reg .IRQ_ACTPRI)) ∧
      t.dist.toDist = s.dist.toDist ++ [(c.val, .eoi false (k.fld .VMID .VMID_VMID) (v.toNat % 2 ^ 15)
        ((k.devOut ++ k.sb).countP fun e => e.toDist))] ∧
      t = { s with cores := t.cores, dist := t.dist } ∧ SameRegs k (t.core c) := by
  have e : exec (.irqEoi c v) s = ok (s.sysWrite c .IRQ_EOI [] v) := by
    show execIrqEoi c v s = _
    simp [execIrqEoi, hr, hl]
  exact completes_eoi (virt := false) e (by decide) (by decide)

theorem completes_virqEoi (v : BitVec 64) (hr : (s.core c).ready = true) (hl : (s.core c).level ≠ .u) : let k := s.core c
    Completes (.virqEoi c v) s fun t =>
      (t.core c).reg .V_ACTPRI = k.reg .V_ACTPRI &&& ~~~(1#64 <<< highBit (k.reg .V_ACTPRI)) ∧
      t.dist.toDist = s.dist.toDist ++ [(c.val, .eoi true (k.fld .VMID .VMID_VMID) (v.toNat % 2 ^ 15)
        ((k.devOut ++ k.sb).countP fun e => e.toDist))] ∧
      t = { s with cores := t.cores, dist := t.dist } ∧ SameRegs k (t.core c) := by
  have e : exec (.virqEoi c v) s = ok (s.sysWrite c .VIRQ_EOI [] v) := by
    show execVirqEoi c v s = _
    simp [execVirqEoi, hr, hl]
  exact completes_eoi (virt := true) e (by decide) (by decide)

/-! ### Compare timers (R460) -/

/-- Compare n of a core is armed. -/
def Core.armed (k : Core) (n : Fin 2) : Bool := if n = 0 then k.armed0 else k.armed1

/-- PEND of compare n. -/
def ctimPend (n : Fin 2) : Fld := if n = 0 then .CTIM_CTL_PEND_0 else .CTIM_CTL_PEND_1

/-- PEND of compare n takes a value, and the compare is armed or disarmed. -/
def Core.setCtim (k : Core) (n : Fin 2) (pend : Nat) (arm : Bool) : Core :=
  if n = 0 then { k.setFld .CTIM_CTL [] .CTIM_CTL_PEND_0 pend with armed0 := arm }
  else { k.setFld .CTIM_CTL [] .CTIM_CTL_PEND_1 pend with armed1 := arm }

theorem SameRegs.setCtim (k : Core) (n : Fin 2) (pend : Nat) (arm : Bool) : SameRegs k (k.setCtim n pend arm) := by
  unfold Core.setCtim
  split <;> exact ⟨rfl, rfl, rfl, rfl⟩

theorem Core.flag_setFld_self (k : Core) (r : Reg) (idx : List Nat) {f : Fld} (v : Nat) (h : f.lo ≤ f.hi) (h6 : f.hi < 64) :
    flag ((k.setFld r idx f v).reg r idx) f = v.testBit 0 := by
  rw [Core.setFld, Core.reg_setReg, flag_putBits_self _ _ h h6]

/-- What a core shows of compare n after it. -/
theorem Core.setCtim_shows (k : Core) (n : Fin 2) (pend : Nat) (arm : Bool) :
    if n = 0 then (k.setCtim n pend arm).armed0 = arm ∧ flag ((k.setCtim n pend arm).reg .CTIM_CTL) .CTIM_CTL_PEND_0 = pend.testBit 0
    else (k.setCtim n pend arm).armed1 = arm ∧ flag ((k.setCtim n pend arm).reg .CTIM_CTL) .CTIM_CTL_PEND_1 = pend.testBit 0 := by
  unfold Core.setCtim
  split
  · exact ⟨rfl, Core.flag_setFld_self k .CTIM_CTL [] pend (by decide) (by decide)⟩
  · exact ⟨rfl, Core.flag_setFld_self k .CTIM_CTL [] pend (by decide) (by decide)⟩

theorem Core.ctimCmp_setCtim (k : Core) (n : Fin 2) (pend : Nat) (arm : Bool) (m : Fin 2) :
    (k.setCtim n pend arm).reg .CTIM_CMP [m.val] = k.reg .CTIM_CMP [m.val] := by
  have hne : Reg.CTIM_CMP.at [m.val] ≠ Reg.CTIM_CTL.at [] := by revert m; decide
  unfold Core.setCtim
  split
  · exact Core.reg_setReg_other k .CTIM_CTL .CTIM_CMP [] [m.val] _ hne
  · exact Core.reg_setReg_other k .CTIM_CTL .CTIM_CMP [] [m.val] _ hne

/-- A register of plain RW bits takes a whole value that is written to it (R14). -/
theorem RegDef.written_whole {d : RegDef} (hrw : d.rw = BitVec.allOnes 64) (h1c : d.w1c = 0) (h1s : d.w1s = 0) (old v : Word) :
    d.written old v (BitVec.allOnes 64) = v := by
  refine BitVec.eq_of_getLsbD_eq fun i hi => ?_
  have hones : (BitVec.allOnes 64).getLsbD i = true := by rw [BitVec.getLsbD_allOnes, decide_eq_true hi]
  rw [RegDef.getLsbD_written _ _ _ _ hi, hrw, h1c, h1s, hones]
  simp

/-- A compare written at K or H is armed and no longer pending (R460). -/
theorem completes_ctimCmpWrite (n : Fin 2) (v : BitVec 64) (hr : (s.core c).ready = true) (hl : (s.core c).level ≠ .u) :
    Completes (.ctimCmpWrite c n v) s fun t =>
      (t.core c).reg .CTIM_CMP [n.val] = v ∧ t = { s with cores := t.cores } ∧ SameRegs (s.core c) (t.core c) ∧
      (if n = 0 then (t.core c).armed0 = true ∧ flag ((t.core c).reg .CTIM_CTL) .CTIM_CTL_PEND_0 = false
       else (t.core c).armed1 = true ∧ flag ((t.core c).reg .CTIM_CTL) .CTIM_CTL_PEND_1 = false) := by
  have hw : s.sysWrite c .CTIM_CMP [n.val] v =
      (s.setCore c ((s.core c).setReg .CTIM_CMP [n.val] v)).updCore c fun k => k.setCtim n 0 true := by
    rw [State.sysWrite, RegDef.written_whole (by decide) rfl rfl]
    match n with
    | 0 => rfl
    | 1 => rfl
  have e : exec (.ctimCmpWrite c n v) s =
      ok ((s.setCore c ((s.core c).setReg .CTIM_CMP [n.val] v)).updCore c fun k => k.setCtim n 0 true) := by
    rw [← hw]
    show execCtimCmpWrite c n v s = _
    simp [execCtimCmpWrite, hr, hl]
  have hk := State.core_updCore (s.setCore c ((s.core c).setReg .CTIM_CMP [n.val] v)) c fun k => k.setCtim n 0 true
  rw [State.core_setCore] at hk
  refine completes_ok e ⟨?_, rfl, ?_, ?_⟩
  · rw [hk, Core.ctimCmp_setCtim, Core.reg_setReg]
  · rw [hk]
    have h := SameRegs.setCtim ((s.core c).setReg .CTIM_CMP [n.val] v) n 0 true
    exact ⟨h.g, h.f, h.pc, h.spH⟩
  · rw [hk]
    exact Core.setCtim_shows _ n 0 true

/-- An armed compare that device time has reached becomes pending and disarms (R460). -/
theorem completes_ctimCompareFire (n : Fin 2) (hrun : (s.core c).run ≠ .off) (ht : ((s.core c).reg .CTIM_CMP [n.val]).toNat ≤ s.time)
    (ha : (if n = 0 then (s.core c).armed0 else (s.core c).armed1) = true) :
    Completes (.ctimCompareFire c n) s fun t => t = { s with cores := t.cores } ∧ SameRegs (s.core c) (t.core c) ∧
      if n = 0 then (t.core c).armed0 = false ∧ flag ((t.core c).reg .CTIM_CTL) .CTIM_CTL_PEND_0 = true
      else (t.core c).armed1 = false ∧ flag ((t.core c).reg .CTIM_CTL) .CTIM_CTL_PEND_1 = true := by
  have e : exec (.ctimCompareFire c n) s = ok ((s.setCore c ((s.core c).setCtim n 1 false)).wakeCheck c) := by
    show execCtimCompareFire c n s = _
    unfold execCtimCompareFire
    dsimp only
    rw [if_neg (by simp [hrun, ht, ha])]
    rfl
  have w := Wakes.wakeCheck (s.setCore c ((s.core c).setCtim n 1 false)) c
  have hk := State.core_setCore s c ((s.core c).setCtim n 1 false)
  refine completes_ok e ⟨?_, w.sameRegs ?_, ?_⟩
  · conv => lhs; rw [w.frame]
    rfl
  · rw [hk]
    exact .setCtim _ n 1 false
  · rw [w.core, hk]
    exact Core.setCtim_shows _ n 1 false
end

/-- Settles O32: each message is taken by its receiver, and each write of a core's interrupt registers is one lemma above. -/
theorem interruptMessages : Obligations.InterruptMessages := by
  unfold Obligations.InterruptMessages
  refine ⟨fun s c o virt v n r => ?_, fun s c v n => ?_⟩
  · exact ⟨completes_offer_physical, completes_offer_virtual, completes_withdrawal, completes_acceptance, completes_decline,
      fun _ h => exec_eoiMessage_waits h, completes_eoiMessage, completes_residencyMessage⟩
  · exact ⟨completes_irqEoi v, completes_virqEoi v, completes_ctimCmpWrite n v, completes_ctimCompareFire n⟩

end Sys2Proof.Machine

/-! PROOFS. O36: the doorbells and windows of the mailboxes (R341, R343, R352). -/

namespace Sys2Proof.Machine

/-- Fetas answers its mailboxes, and none has rung. -/
def noRings : State := ({ pdOn := [0, 2] } : State).setFld .FSI_STATUS [] .FSI_STATUS_FETAS_UP 1

theorem noRings_reaches : noRings.reaches (noRings.who .fetas) .REQ_RING [0] where
  range := by decide +kernel
  found := by decide +kernel

/-- A ring puts its mailbox last in the order of rings, which Fetas keeps (R352). -/
theorem noRings_ring : (noRings.regW .fetas .REQ_RING [0] 1).fsi.rings = [0] := by decide +kernel

/-- Refutes O36: the statement has an accepted REQ_RING change nothing but registers. The ring also enters the order in which Fetas takes
up what rang (R352), which is no register. That clause lacks the fsi part in what may differ. -/
theorem not_mailboxRegisters : ¬ Obligations.MailboxRegisters := by
  unfold Obligations.MailboxRegisters
  intro h
  obtain ⟨-, -, -, -, -, -, -, hring, -⟩ := h noRings .fetas 0 0 0 0
  obtain ⟨t, ht, -, honly, -⟩ := hring noRings_reaches (by decide +kernel) (by decide +kernel)
  injection ht with ht
  have hfsi : t.fsi = noRings.fsi := by rw [honly.frame]
  rw [← ht] at hfsi
  have hrings := noRings_ring.symm.trans (congrArg Fsi.rings hfsi)
  exact absurd hrings (by decide)

end Sys2Proof.Machine

/-! PROOFS. O37: the registers of the slice queues (R287, R290, R291, R293, R309). -/

namespace Sys2Proof.Machine

/-! ### Writes of registers by a sender -/

/-- A write by a sender that reaches a register outside the distributor. -/
theorem State.regW_reaches {s : State} {by' : Sender} {r : Reg} {idx : List Nat} (hd : 0x3003000000 ≤ r.spec.base)
    (h : s.reaches (s.who by') r idx) (hw : r.spec.wide = false) (v : Nat) :
    s.regW by' r idx v = s.regWrite (s.who by') r idx (BitVec.ofNat 64 (v % 2 ^ 32)) lanes32 := by
  rw [State.regW, State.busW, State.eoisFirst_of_not_inDist s by' (Reg.not_inDist hd idx)]
  exact State.busWrite_reaches h hw v

/-- A 32-bit access has the low half of the lanes. -/
theorem getLsbD_lanes32 (i : Nat) : lanes32.getLsbD i = decide (i < 32) := by
  have hl : lanes32.toNat = 2 ^ 32 - 1 := rfl
  rw [← BitVec.testBit_toNat, hl, Nat.testBit_two_pow_sub_one]

/-- The low half of a word, as a 32-bit write has it on the bus. -/
theorem written_low (w : Word) : BitVec.ofNat 64 (w.toNat % 2 ^ 32) &&& lanes32 = w &&& lanes32 := by
  refine BitVec.eq_of_getLsbD_eq fun i hi => ?_
  rw [BitVec.getLsbD_and, BitVec.getLsbD_and, getLsbD_lanes32, BitVec.getLsbD_ofNat, Nat.testBit_mod_two_pow, BitVec.testBit_toNat]
  simp only [hi, decide_true, Bool.true_and]
  by_cases h : i < 32 <;> simp [h]

/-- A number below 2^32, as a 32-bit write has it on the bus. -/
theorem written_toNat {v : Nat} (h : v < 2 ^ 32) : (BitVec.ofNat 64 (v % 2 ^ 32) &&& lanes32).toNat = v := by
  have hl : lanes32.toNat = 2 ^ 32 - 1 := rfl
  rw [BitVec.toNat_and, hl, Nat.and_two_pow_sub_one_eq_mod, BitVec.toNat_ofNat]
  omega

/-- Of two values put into a field the later stays. -/
theorem putBits_putBits (w : Word) (f : Fld) (x y : Nat) : putBits (putBits w f x) f y = putBits w f y := by
  refine BitVec.eq_of_getLsbD_eq fun i hi => ?_
  rw [getLsbD_putBits _ _ _ hi, getLsbD_putBits _ _ _ hi, getLsbD_putBits _ _ _ hi]
  split <;> rfl

/-! ### Registers of a slice page -/

theorem qCfg_at (n q : Nat) : Reg.Q_CFG.at [n, q] = 0x3100000810 + (0x1000 * n + 0x20 * q) := rfl
theorem qSq_at (n q : Nat) : Reg.Q_SQ.at [n, q] = 0x3100000818 + (0x1000 * n + 0x20 * q) := rfl
theorem qCq_at (n q : Nat) : Reg.Q_CQ.at [n, q] = 0x310000081c + (0x1000 * n + 0x20 * q) := rfl
theorem sliceErrStatus_at (n : Nat) : Reg.SLICE_ERR_STATUS.at [n] = 0x31000001a0 + 0x1000 * n := rfl
theorem sliceErrCount_at (n : Nat) : Reg.SLICE_ERR_COUNT.at [n] = 0x31000001a4 + 0x1000 * n := rfl

/-! ### Vectors and errors of a slice (R294, R309) -/

section
variable {s : State} {n : Nat}

/-- PENDING of a source is in its SRC_STAT alone. -/
theorem State.reg_srcSet_other (s : State) {n : Nat} {r : Reg} {idx : List Nat} (h : r.at idx ≠ Reg.SRC_STAT.at [n]) :
    (s.srcSet n).reg r idx = s.reg r idx := by
  unfold State.srcSet
  split
  · rfl
  · rw [State.reg_rechoose]
    exact State.reg_setReg_other _ _ _ _ _ _ h

theorem Quiet.sliceVec (s : State) (n i : Nat) : Quiet s (s.sliceVec n i) := by
  unfold State.sliceVec
  dsimp only
  split
  · exact (AtDist.srcSet s _).quiet
  · exact .refl s

/-- The vectors of a slice are sources, whose registers lie below the slice pages. -/
theorem State.reg_sliceVec (s : State) (n : Nat) {r : Reg} (idx : List Nat) (h : 0x3100000000 ≤ r.spec.base) :
    (s.sliceVec n 0).reg r idx = s.reg r idx := by
  unfold State.sliceVec
  dsimp only
  split
  · refine State.reg_srcSet_other s fun e => ?_
    have hb : bits (s.reg .SLICE_GRANT_V [n]) .SLICE_GRANT_V_BASE < 2 ^ 14 := Nat.mod_lt _ (by decide)
    have hr := r.base_le_at idx
    rw [e, srcStat_at] at hr
    omega
  · rfl

/-- An error of a slice counted, and offered to its log (R309). -/
def State.sliceLogged (s : State) (n q kind : Nat) : State :=
  (((s.count .slice).countFld .SLICE_ERR_COUNT [n] .SLICE_ERR_COUNT_COUNT).capture .SLICE_ERR_STATUS [n] (q * 2 ^ 16 + kind * 2 ^ 12)).2

/-- An error of a slice is logged, and raises vector 0 when it is captured (R309). -/
theorem State.sliceErr_cases (s : State) (n q kind : Nat) :
    s.sliceErr n q kind = s.sliceLogged n q kind ∨ s.sliceErr n q kind = (s.sliceLogged n q kind).sliceVec n 0 := by
  unfold State.sliceErr State.sliceLogged
  dsimp only
  split
  · next h => rw [h]; exact .inr rfl
  · next h => rw [h]; exact .inl rfl

theorem Quiet.sliceLogged (s : State) (n q kind : Nat) : Quiet s (s.sliceLogged n q kind) := by
  rw [State.sliceLogged, State.capture_eq]
  exact ⟨rfl, rfl, rfl, rfl, rfl, rfl⟩

theorem Quiet.sliceErr (s : State) (n q kind : Nat) : Quiet s (s.sliceErr n q kind) := by
  obtain h | h := s.sliceErr_cases n q kind <;> rw [h]
  · exact .sliceLogged s n q kind
  · exact (Quiet.sliceLogged s n q kind).trans (.sliceVec _ n 0)

/-- Of the registers from the slice pages up, vector 0 changes none that the log does not. -/
theorem State.reg_sliceErr (s : State) (n q kind : Nat) {r : Reg} (idx : List Nat) (h : 0x3100000000 ≤ r.spec.base) :
    (s.sliceErr n q kind).reg r idx = (s.sliceLogged n q kind).reg r idx := by
  obtain he | he := s.sliceErr_cases n q kind <;> rw [he]
  exact State.reg_sliceVec _ n idx h

/-- An error of a slice is written to its log alone. -/
theorem State.reg_sliceErr_other (s : State) (n q kind : Nat) {r : Reg} {idx : List Nat} (hb : 0x3100000000 ≤ r.spec.base)
    (hs : r.at idx ≠ Reg.SLICE_ERR_STATUS.at [n]) (hc : r.at idx ≠ Reg.SLICE_ERR_COUNT.at [n]) :
    (s.sliceErr n q kind).reg r idx = s.reg r idx := by
  rw [State.reg_sliceErr s n q kind idx hb, State.sliceLogged, State.capture_eq]
  exact (State.reg_setReg_other _ _ _ _ _ _ hs).trans (State.reg_setReg_other _ _ _ _ _ _ hc)

/-- An error that meets an empty log is captured with its queue and KIND. -/
theorem State.sliceErr_captures (n : Nat) {q kind : Nat} (hq : q < 64) (hk : kind < 16)
    (hv : flag (s.reg .SLICE_ERR_STATUS [n]) .SLICE_ERR_STATUS_VALID = false) :
    (s.sliceErr n q kind).fld .SLICE_ERR_STATUS [n] .SLICE_ERR_STATUS_KIND = kind ∧
    (s.sliceErr n q kind).fld .SLICE_ERR_STATUS [n] .SLICE_ERR_STATUS_QUEUE = q := by
  have hne : Reg.SLICE_ERR_STATUS.at [n] ≠ Reg.SLICE_ERR_COUNT.at [n] := by rw [sliceErrStatus_at, sliceErrCount_at]; omega
  have hold : ((s.count .slice).countFld .SLICE_ERR_COUNT [n] .SLICE_ERR_COUNT_COUNT).reg .SLICE_ERR_STATUS [n] =
      s.reg .SLICE_ERR_STATUS [n] := State.reg_setReg_other _ _ _ _ _ _ hne
  have hempty : (s.reg .SLICE_ERR_STATUS [n]).getLsbD 0 = false := hv
  have hreg : (s.sliceErr n q kind).reg .SLICE_ERR_STATUS [n] =
      BitVec.ofNat 64 (q * 2 ^ 16 + kind * 2 ^ 12) ||| (s.reg .SLICE_ERR_STATUS [n] &&& 2) ||| 1 := by
    rw [State.reg_sliceErr s n q kind [n] (by decide), State.sliceLogged, State.capture_eq, State.reg_setReg, hold, hempty,
      if_neg Bool.false_ne_true]
  have hn : q * 2 ^ 16 + kind * 2 ^ 12 < 2 ^ 64 := by omega
  rw [State.fld, State.fld, hreg, bits_captured hn _ (by decide), bits_captured hn _ (by decide)]
  constructor
  · show _ / 2 ^ 12 % 2 ^ 4 = _
    omega
  · show _ / 2 ^ 16 % 2 ^ 6 = _
    omega

/-! ### Queues without a descriptor in flight (R290, R293) -/

variable {q : Nat}

/-- A queue with no descriptor in flight completes none. -/
theorem State.pump_idle (h : s.queueJobs n q = []) (fuel : Nat) : s.pump n q fuel = s := by
  have hone : s.completeOne n q = (false, s) := by simp [State.completeOne, h]
  cases fuel with
  | zero => rfl
  | succ fuel => rw [State.pump, hone]

/-- To cancel posts puts no descriptor into a queue and takes none out. -/
theorem State.queueJobs_cancelPosts (h : s.queueJobs n q = []) (m : Nat) (p : Nat → Bool) : (s.cancelPosts m p).queueJobs n q = [] := by
  refine List.filter_eq_nil_iff.mpr fun j hj => ?_
  obtain ⟨k, hk, rfl⟩ := List.mem_map.mp hj
  have hkq := List.filter_eq_nil_iff.mp h k hk
  split <;> exact hkq

/-- A queue that stops with nothing in flight does not drain (R290). -/
theorem State.queueStop_idle (h : s.queueJobs n q = []) : s.queueStop n q =
    ((s.setReg .Q_CFG [n, q] (putBits (putBits (s.reg .Q_CFG [n, q]) .Q_CFG_EN 0) .Q_CFG_DRAINING 1)).cancelPosts n fun x => x == q).setFld
      .Q_CFG [n, q] .Q_CFG_DRAINING 0 := by
  obtain ⟨v, hv⟩ : ∃ v, v = s.setReg .Q_CFG [n, q] (putBits (putBits (s.reg .Q_CFG [n, q]) .Q_CFG_EN 0) .Q_CFG_DRAINING 1) := ⟨_, rfl⟩
  have hidle : (v.cancelPosts n fun x => x == q).queueJobs n q = [] :=
    State.queueJobs_cancelPosts (by rw [hv]; exact h) n _
  have hdrains : flag ((v.cancelPosts n fun x => x == q).reg .Q_CFG [n, q]) .Q_CFG_DRAINING = true := by
    show flag (v.reg .Q_CFG [n, q]) .Q_CFG_DRAINING = true
    rw [hv, State.reg_setReg, flag_putBits_self _ _ (by decide) (by decide)]
    rfl
  unfold State.queueStop
  dsimp only
  rw [← hv, State.pump_idle hidle, State.drainEnd, hdrains, hidle]
  rfl

end

/-! ### Writes of the queue registers (R290, R291, R293) -/

/-- What a write of Q_CFG asks for: its writable fields, with EN 0. -/
def qCfgAsked (old v : Word) : Word := putBits ((old &&& ~~~Reg.Q_CFG.spec.rw) ||| (v &&& Reg.Q_CFG.spec.rw)) .Q_CFG_EN 0

/-- A write with EN 1 asks for the same fields as the value that it is made from. -/
theorem qCfgAsked_setBit (old : Word) (cfg : BitVec 32) :
    qCfgAsked old (BitVec.ofNat 64 (setBit cfg.toNat 31 1 1 % 2 ^ 32) &&& lanes32) = qCfgAsked old (cfg.setWidth 64) := by
  rw [setBit, written_low]
  refine BitVec.eq_of_getLsbD_eq fun i hi => ?_
  simp only [qCfgAsked, getLsbD_putBits _ _ _ hi, BitVec.getLsbD_or, BitVec.getLsbD_and, getLsbD_lanes32, BitVec.ofNat_toNat,
    BitVec.getLsbD_setWidth]
  split
  · rfl
  · next hne =>
    rw [if_neg (show ¬ (31 ≤ i ∧ i - 31 < 31 + 1 - 1 + 1 - 31) from hne)]
    by_cases h32 : i < 32
    · simp [h32]
    · simp [BitVec.getLsbD_of_ge cfg i (by omega)]

/-- A write made with bit 31 set has EN 1. -/
theorem flag_written_setBit (cfg : BitVec 32) : flag (BitVec.ofNat 64 (setBit cfg.toNat 31 1 1 % 2 ^ 32) &&& lanes32) .Q_CFG_EN = true := by
  rw [setBit, written_low, flag, BitVec.getLsbD_and, getLsbD_lanes32, getLsbD_putBits _ _ _ (by decide)]
  rfl

section
variable {s : State} {n q : Nat} {v : Word}

/-- R290: a queue that is neither enabled nor draining, and passes every check, is enabled with its indexes at zero. -/
theorem State.wQCfg_enables (he : flag (s.reg .Q_CFG [n, q]) .Q_CFG_EN = false) (hd : flag (s.reg .Q_CFG [n, q]) .Q_CFG_DRAINING = false)
    (hv : flag v .Q_CFG_EN = true) (hf : s.enableFault n q (qCfgAsked (s.reg .Q_CFG [n, q]) v) = none) :
    s.wQCfg n q v = ((s.setReg .Q_CFG [n, q] (putBits (putBits (putBits (qCfgAsked (s.reg .Q_CFG [n, q]) v) .Q_CFG_EN 1)
      .Q_CFG_ERR 0) .Q_CFG_ERRKIND 0)).setReg .Q_SQ [n, q] 0).setReg .Q_CQ [n, q] 0 := by
  rw [qCfgAsked] at *
  simp only [State.wQCfg, he, hd, hv, Bool.or_false, Bool.not_true, Bool.false_eq_true, if_false, hf]

/-- R290: a write with EN 0 stops an enabled queue. -/
theorem State.wQCfg_stops (he : flag (s.reg .Q_CFG [n, q]) .Q_CFG_EN = true) (hv : flag v .Q_CFG_EN = false) :
    s.wQCfg n q v = s.queueStop n q := by
  simp only [State.wQCfg, he, hv, if_true, Bool.false_eq_true, if_false]

/-- R291: the doorbell of an enabled and granted queue adds to PROD, within the ring. -/
theorem State.wSqDb_adds {add : Nat} (ha : add ≠ 0) (he : flag (s.reg .Q_CFG [n, q]) .Q_CFG_EN = true)
    (hg : q < s.fld .SLICE_GRANT_Q [n] .SLICE_GRANT_Q_COUNT)
    (hr : ((bits (s.reg .Q_SQ [n, q]) .Q_SQ_PROD + add) % 2 ^ 16 + 2 ^ 16 - bits (s.reg .Q_SQ [n, q]) .Q_SQ_HEAD) % 2 ^ 16 ≤
      2 ^ bits (s.reg .Q_CFG [n, q]) .Q_CFG_SIZE) :
    s.wSqDb n q add = s.setReg .Q_SQ [n, q] (putBits (s.reg .Q_SQ [n, q]) .Q_SQ_PROD ((bits (s.reg .Q_SQ [n, q]) .Q_SQ_PROD + add) % 2 ^ 16)) := by
  unfold State.wSqDb
  dsimp only
  rw [if_neg ha, if_neg (by simp [he, hg]), if_neg (Nat.not_lt.mpr hr)]

/-- R287: the doorbell of a queue that is not enabled, or not granted, is an error of the slice. -/
theorem State.wSqDb_refused {add : Nat} (ha : add ≠ 0)
    (h : flag (s.reg .Q_CFG [n, q]) .Q_CFG_EN = false ∨ s.fld .SLICE_GRANT_Q [n] .SLICE_GRANT_Q_COUNT ≤ q) :
    s.wSqDb n q add = s.sliceErr n q 8 := by
  unfold State.wSqDb
  dsimp only
  rw [if_neg ha, if_pos (by simpa using h)]

/-- R293: with nothing in flight the completion head moves within what is held. -/
theorem State.wCqHead_idle {v : Nat} (hj : s.queueJobs n q = []) (hv : v < 2 ^ 16)
    (h : (v + 2 ^ 16 - bits (s.reg .Q_CQ [n, q]) .Q_CQ_HEAD) % 2 ^ 16 ≤
      (bits (s.reg .Q_CQ [n, q]) .Q_CQ_TAIL + 2 ^ 16 - bits (s.reg .Q_CQ [n, q]) .Q_CQ_HEAD) % 2 ^ 16) :
    s.wCqHead n q v = s.setFld .Q_CQ [n, q] .Q_CQ_HEAD v := by
  unfold State.wCqHead
  dsimp only
  rw [Nat.mod_eq_of_lt hv, if_neg (Nat.not_lt.mpr h)]
  exact State.pump_idle (s := s.setFld .Q_CQ [n, q] .Q_CQ_HEAD v) hj _

end

section
variable {s : State} {by' : Sender} {n : Fin 8192} {q : Fin 64}

/-- R290: Q_ENABLE. -/
theorem completes_qEnable (cfg : BitVec 32) (h : s.reaches (s.who by') .Q_CFG [n.val, q.val])
    (he : flag (s.reg .Q_CFG [n.val, q.val]) .Q_CFG_EN = false) (hd : flag (s.reg .Q_CFG [n.val, q.val]) .Q_CFG_DRAINING = false)
    (hf : s.enableFault n.val q.val (qCfgAsked (s.reg .Q_CFG [n.val, q.val]) (cfg.setWidth 64)) = none) :
    Completes (.qEnable by' n q cfg) s fun t => OnlyRegs s t ∧ t.reg .Q_SQ [n.val, q.val] = 0 ∧ t.reg .Q_CQ [n.val, q.val] = 0 ∧
      t.reg .Q_CFG [n.val, q.val] = putBits (putBits (putBits (qCfgAsked (s.reg .Q_CFG [n.val, q.val]) (cfg.setWidth 64)) .Q_CFG_EN 1)
        .Q_CFG_ERR 0) .Q_CFG_ERRKIND 0 := by
  have e : exec (.qEnable by' n q cfg) s = ok (s.wQCfg n.val q.val (BitVec.ofNat 64 (setBit cfg.toNat 31 1 1 % 2 ^ 32) &&& lanes32)) :=
    congrArg ok (State.regW_reaches (by decide) h rfl _)
  rw [← qCfgAsked_setBit] at hf
  rw [State.wQCfg_enables he hd (flag_written_setBit cfg) hf, qCfgAsked_setBit] at e
  refine completes_ok e ⟨⟨rfl⟩, ?_, State.reg_setReg _ _ _ _, ?_⟩
  · rw [State.reg_setReg_other _ _ _ _ _ _ (by rw [qSq_at, qCq_at]; omega), State.reg_setReg]
  · rw [State.reg_setReg_other _ _ _ _ _ _ (by rw [qCfg_at, qCq_at]; omega),
      State.reg_setReg_other _ _ _ _ _ _ (by rw [qCfg_at, qSq_at]; omega), State.reg_setReg]

/-- R290: Q_DISABLE of a queue with nothing in flight. -/
theorem completes_qDisable (h : s.reaches (s.who by') .Q_CFG [n.val, q.val])
    (he : flag (s.reg .Q_CFG [n.val, q.val]) .Q_CFG_EN = true) (hj : s.queueJobs n.val q.val = []) :
    Completes (.qDisable by' n q) s fun t => t.reg .Q_CFG [n.val, q.val] =
      putBits (putBits (s.reg .Q_CFG [n.val, q.val]) .Q_CFG_EN 0) .Q_CFG_DRAINING 0 ∧ Quiet s t := by
  have e : exec (.qDisable by' n q) s = ok (s.wQCfg n.val q.val (BitVec.ofNat 64 (0 % 2 ^ 32) &&& lanes32)) :=
    congrArg ok (State.regW_reaches (by decide) h rfl _)
  rw [State.wQCfg_stops he (by decide), State.queueStop_idle hj] at e
  refine completes_ok e ⟨?_, ⟨rfl, rfl, rfl, rfl, rfl, rfl⟩⟩
  rw [State.reg_setFld]
  show putBits ((s.setReg .Q_CFG [n.val, q.val] _).reg .Q_CFG [n.val, q.val]) .Q_CFG_DRAINING 0 = _
  rw [State.reg_setReg, putBits_putBits]

/-- R291: Q_SQ_DB is the write of the submission doorbell. -/
theorem exec_qSqDb (add : BitVec 12) (h : s.reaches (s.who by') .Q_SQ_DB [n.val, q.val]) :
    exec (.qSqDb by' n q add) s = ok (s.wSqDb n.val q.val add.toNat) := by
  have e : exec (.qSqDb by' n q add) s = ok (s.wSqDb n.val q.val ((BitVec.ofNat 64 (add.toNat % 2 ^ 32) &&& lanes32).toNat % 4096)) :=
    congrArg ok (State.regW_reaches (by decide) h rfl _)
  rwa [written_toNat (by omega), Nat.mod_eq_of_lt add.isLt] at e

/-- R287: Q_SQ_DB to a queue that is not enabled or not granted. -/
theorem completes_qSqDb_refused {add : BitVec 12} (h : s.reaches (s.who by') .Q_SQ_DB [n.val, q.val]) (ha : add ≠ 0)
    (hr : flag (s.reg .Q_CFG [n.val, q.val]) .Q_CFG_EN = false ∨ s.fld .SLICE_GRANT_Q [n.val] .SLICE_GRANT_Q_COUNT ≤ q.val) :
    Completes (.qSqDb by' n q add) s fun t => t.reg .Q_SQ [n.val, q.val] = s.reg .Q_SQ [n.val, q.val] ∧ Quiet s t ∧
      (flag (s.reg .SLICE_ERR_STATUS [n.val]) .SLICE_ERR_STATUS_VALID = false →
        t.fld .SLICE_ERR_STATUS [n.val] .SLICE_ERR_STATUS_KIND = 8 ∧ t.fld .SLICE_ERR_STATUS [n.val] .SLICE_ERR_STATUS_QUEUE = q.val) := by
  have e := exec_qSqDb add h
  rw [State.wSqDb_refused (BitVec.toNat_ne.mp ha) hr] at e
  refine completes_ok e ⟨?_, .sliceErr s _ _ _, State.sliceErr_captures n.val q.isLt (by decide)⟩
  refine State.reg_sliceErr_other s _ _ _ (by decide) ?_ ?_
  · rw [qSq_at, sliceErrStatus_at]; omega
  · rw [qSq_at, sliceErrCount_at]; omega

/-- R293: Q_CQ_HEAD_WRITE to a queue with nothing in flight. -/
theorem completes_qCqHeadWrite {head : BitVec 16} (h : s.reaches (s.who by') .Q_CQ [n.val, q.val]) (hj : s.queueJobs n.val q.val = [])
    (hm : (head.toNat + 2 ^ 16 - bits (s.reg .Q_CQ [n.val, q.val]) .Q_CQ_HEAD) % 2 ^ 16 ≤
      (bits (s.reg .Q_CQ [n.val, q.val]) .Q_CQ_TAIL + 2 ^ 16 - bits (s.reg .Q_CQ [n.val, q.val]) .Q_CQ_HEAD) % 2 ^ 16) :
    Completes (.qCqHeadWrite by' n q head) s fun t =>
      OnReg s t .Q_CQ [n.val, q.val] (putBits (s.reg .Q_CQ [n.val, q.val]) .Q_CQ_HEAD head.toNat) := by
  have e : exec (.qCqHeadWrite by' n q head) s =
      ok (s.wCqHead n.val q.val ((BitVec.ofNat 64 (head.toNat % 2 ^ 32) &&& lanes32).toNat % 65536)) :=
    congrArg ok (State.regW_reaches (by decide) h rfl _)
  rw [written_toNat (by omega), Nat.mod_eq_of_lt head.isLt, State.wCqHead_idle hj head.isLt hm] at e
  exact completes_ok e (.setReg _ _ _ _)

end

/-- Settles O37: each command is the write of its register, whose rule is a lemma above. -/
theorem queueRegisters : Obligations.QueueRegisters := by
  unfold Obligations.QueueRegisters
  intro s by' n q cfg add head
  refine ⟨fun h => ⟨completes_qEnable cfg h, completes_qDisable h⟩, fun h ha he hg hr => ?_,
    fun h => ⟨fun ha => ?_, completes_qSqDb_refused h⟩, completes_qCqHeadWrite⟩
  · exact completes_ok ((exec_qSqDb add h).trans (congrArg ok (State.wSqDb_adds (BitVec.toNat_ne.mp ha) he hg hr))) (.setReg _ _ _ _)
  · rw [exec_qSqDb add h, ha]
    rfl

end Sys2Proof.Machine

/-! PROOFS. O47: the services of the slice engine, each as a run of one descriptor (R289, R292, R295 to R299, R306, R307). -/

namespace Sys2Proof.Machine

/-! ### What a descriptor reads and writes (R296, R306, R307) -/

section
variable {s u : State} {n pa len : Nat} {d : Bytes} {j : Job}

/-- An operation goes on with the input that the engine reads. -/
theorem State.inputs.withIn (h : s.inputs n pa len d u) (hj : j.slice = n) (k : Bytes → State → JobAns) : s.withIn j pa len k = k d u := by
  unfold State.withIn
  obtain ⟨hlen, rfl, rfl⟩ | ⟨hlen, p, hread, hp⟩ := h
  · rw [if_pos hlen]
  · rw [if_neg (by omega), hj, hread]
    show (if p.any id = true then _ else _) = _
    rw [hp]
    rfl

/-- An output that the engine writes whole. -/
theorem State.outputs.putOut {p : List Bool} (h : s.outputs n pa d u p) (hj : j.slice = n) (status : Nat) (result : Word) :
    s.putOut j pa d status result p = some ({ status := status, outLen := d.length, result := result }, u) := by
  unfold State.putOut
  rw [hj, h]

/-- An output that fits its range (R296). -/
theorem State.outputs.putFit {p : List Bool} (h : s.outputs n pa d u p) (hj : j.slice = n) (hfit : d.length ≤ j.dstLen) (result : Word)
    (status : Nat) :
    s.putFit j pa d result status p = some ({ status := status, outLen := d.length, result := result }, u) := by
  unfold State.putFit
  rw [if_neg (by omega), h.putOut hj]

end

/-! ### The run of a descriptor that passes every check (R289, R292, R295) -/

section
variable {s s1 u : State} {n q i svc op : Nat} {j : Job} {rs : List Rng} {pas : List Nat}

/-- The i-th descriptor of a queue is one of the queue's slice. -/
theorem State.jobRuns.slice (h : s.jobRuns s1 n q i svc op j rs pas) : j.slice = n := by
  have hm := List.mem_filter.mp (List.mem_of_getElem? h.job)
  simp only [Bool.and_eq_true, beq_iff_eq] at hm
  exact hm.2.1

/-- A descriptor's end, by the condition under which nothing is cleaned. -/
theorem State.jobEnds_of_iff (u : State) (n q : Nat) (j : Job) (rs : List Rng) (pas : List Nat) (c : Cpl) {wrote : Bool} {P : Prop} [Decidable P]
    (hw : wrote = false ↔ P) :
    (let done (c : Cpl) (s : State) : State := ((s.updJob j.id fun j => { j with result := some c }).pump n q pumpFuel).pumpDurable
     let outs := (rs.zip pas).filter fun p => p.1.w && !(mramSecs p.2 p.1.len).isEmpty
     if outs.isEmpty = true ∨ P then done c u
     else
       let s := outs.foldl (fun s p => s.ioClean (s.slicePid n) p.2 p.1.len) u
       let w := s.probeWaits
       done c (s.updJob j.id fun j => { j with waits := w })) = u.jobEnds n q j rs pas c wrote := by
  unfold State.jobEnds
  dsimp only
  by_cases h : ((rs.zip pas).filter fun p => p.1.w && !(mramSecs p.2 p.1.len).isEmpty).isEmpty = true ∨ P
  · rw [if_pos h, if_pos (by simpa [hw] using h)]
  · rw [if_neg h, if_neg (by simpa [hw] using h)]

/-- A descriptor that passes every check ends as its operation does, its outputs made durable unless nothing is written. -/
theorem State.jobRuns.runJob {rngs : Job → List Rng} {unused : Job → Bool} {fit keyOk : Job → State → Bool}
    {act : Job → List Nat → State → JobAns} {c : Cpl} (h : s.jobRuns s1 n q i svc op j rs pas) (hrs : rngs j = rs) (hunused : unused j = false) (hfit : fit j s = true)
    (hkey : keyOk j s = true) (hact : act j pas s1 = some (c, u)) :
    s.runJob n q i svc op rngs unused fit keyOk act =
      u.jobEnds n q j rs pas c (c.outLen != 0 || (svc == 6 && op == 1 && c.status == 0)) := by
  subst hrs
  obtain ⟨v, hv, rfl⟩ := h.credit
  have hgo : ¬ (j.svc ≠ svc ∨ j.op ≠ op ∨ (!s.pdUp 103) = true ∨ (!s.mayStart j) = true) := by simp [h.kind, h.on, h.start]
  unfold State.runJob
  simp only [h.job, if_neg hgo, hv, h.shape, hunused, hfit, h.ranges, hkey, hact, Bool.or_false, Bool.not_true, Bool.false_eq_true, if_false]
  exact State.jobEnds_of_iff u n q j _ pas c (by simp)

/-- Where only the bytes written ask for durability. -/
theorem State.jobRuns.runJob_outLen {rngs : Job → List Rng} {unused : Job → Bool} {fit keyOk : Job → State → Bool}
    {act : Job → List Nat → State → JobAns} {c : Cpl} (h : s.jobRuns s1 n q i svc op j rs pas) (hsvc : svc ≠ 6) (hrs : rngs j = rs)
    (hunused : unused j = false) (hfit : fit j s = true) (hkey : keyOk j s = true) (hact : act j pas s1 = some (c, u)) :
    s.runJob n q i svc op rngs unused fit keyOk act = u.jobEnds n q j rs pas c (c.outLen != 0) := by
  rw [h.runJob hrs hunused hfit hkey hact, show (svc == 6) = false by simpa using hsvc, Bool.false_and, Bool.false_and, Bool.or_false]

end

theorem Job.plain.unused {j : Job} (h : j.plain) : (j.auxLen != 0 || j.aux != 0 || j.key != 0 || j.param != 0) = false := by
  obtain ⟨hal, ha, hk, hp⟩ := h
  simp [hal, ha, hk, hp]

/-! ### Services without a key (R297 to R299) -/

section
variable {s s1 u w : State} {n : Fin 8192} {q : Fin 64} {i : Fin 4} {j : Job} {a b : Nat} {m d : Bytes} {r : Word}

/-- R298: a digest. -/
theorem exec_digest {e : Instr} {op : Nat} {f : Bytes → Bytes} (he : exec e s = ok (s.hashJob n q i op f)) (hd : some (f m) = some d)
    (h : s.jobRuns s1 n.val q.val i.val 2 op j [j.rSrc, j.wDst] [a, b]) (hp : j.plain) (hon : s.pdUp 104 = true)
    (hin : s1.inputs n.val a j.len m u) (hlen : d.length ≤ j.dstLen) (hout : u.outputs n.val b d w) :
    exec e s = .next (w.jobEnds n.val q.val j [j.rSrc, j.wDst] [a, b] { status := 0, outLen := d.length } (d.length != 0)) := by
  injection hd with hd
  subst hd
  exact he.trans (congrArg ok (h.runJob_outLen (by decide) rfl hp.unused hon rfl
    ((hin.withIn h.slice _).trans (hout.putFit h.slice hlen 0 0))))

/-- R299: a compression. -/
theorem exec_compression {e : Instr} {op : Nat} {dyn : Bool} (he : exec e s = ok (s.compressJob n q i op dyn))
    (hd : some (compressed dyn m) = some d) (h : s.jobRuns s1 n.val q.val i.val 3 op j [j.rSrc, j.wDst] [a, b]) (hp : j.plain)
    (hon : s.pdUp 104 = true) (hin : s1.inputs n.val a j.len m u) (hlen : d.length ≤ j.dstLen) (hout : u.outputs n.val b d w) :
    exec e s = .next (w.jobEnds n.val q.val j [j.rSrc, j.wDst] [a, b]
      { status := 0, outLen := d.length, result := (crc32c m).setWidth 64 } (d.length != 0)) := by
  injection hd with hd
  subst hd
  exact he.trans (congrArg ok (h.runJob_outLen (by decide) rfl hp.unused hon rfl
    ((hin.withIn h.slice _).trans (hout.putFit h.slice hlen _ 0))))

/-- R299: a decompression of a well-formed input. -/
theorem exec_decompress (hd : ((inflate m).map fun x => x.1) = some d)
    (h : s.jobRuns s1 n.val q.val i.val 3 3 j [j.rSrc, j.wDst] [a, b]) (hp : j.plain) (hon : s.pdUp 104 = true)
    (hin : s1.inputs n.val a j.len m u) (hlen : d.length ≤ j.dstLen) (hout : u.outputs n.val b d w) :
    exec (.decompress n q i) s = .next (w.jobEnds n.val q.val j [j.rSrc, j.wDst] [a, b]
      { status := 0, outLen := d.length,
        result := ((inflate m).map fun x => BitVec.ofNat 64 (x.2.1 * 2 ^ 32 + (crc32c x.1).toNat)).getD 0 } (d.length != 0)) := by
  obtain ⟨⟨d', used, rest⟩, hm, rfl⟩ := Option.map_eq_some_iff.mp hd
  refine congrArg ok (h.runJob_outLen (by decide) rfl hp.unused hon rfl ((hin.withIn h.slice _).trans ?_))
  simp only [hm, Option.map_some, Option.getD_some]
  exact hout.putFit h.slice hlen _ 0

/-- R297: CRC. -/
theorem exec_crc (h : s.jobRuns s1 n.val q.val i.val 1 3 j [j.rSrc] [a]) (hp : j.plain) (hdst : j.dst = 0) (hdl : j.dstLen = 0)
    (hin : s1.inputs n.val a j.len m u) : exec (.crc n q i) s =
      .next (u.jobEnds n.val q.val j [j.rSrc] [a] { status := 0, result := (crc32c m).setWidth 64 } false) := by
  obtain ⟨hal, ha, hk, hpar⟩ := hp
  refine congrArg ok (h.runJob_outLen (by decide) rfl (by simp [*]) rfl rfl ?_)
  exact hin.withIn h.slice _

/-- R297: FILL. -/
theorem exec_fill (h : s.jobRuns s1 n.val q.val i.val 1 2 j [j.wDst] [b]) (hlen : j.len = 0) (hsrc : j.src = 0) (hal : j.auxLen = 0)
    (ha : j.aux = 0) (hk : j.key = 0) (hpar : j.param.toNat < 2 ^ 64)
    (hout : s1.outputs n.val b ((List.range j.dstLen).map fun k => BitVec.ofNat 8 (j.param.toNat / 256 ^ (k % 8))) w) :
    exec (.fill n q i) s = .next (w.jobEnds n.val q.val j [j.wDst] [b] { status := 0, outLen := j.dstLen } (j.dstLen != 0)) := by
  have hput := hout.putFit h.slice (by simp) 0 0
  rw [List.length_map, List.length_range] at hput
  exact congrArg ok (h.runJob_outLen (by decide) rfl (by simp [hlen, hsrc, hal, ha, hk]; omega) rfl rfl hput)

/-- R297, R307: COPY, which copies poison with the bytes. -/
theorem exec_copy (h : s.jobRuns s1 n.val q.val i.val 1 1 j [j.rSrc, j.wDst] [a, b]) (hp : j.plain) (hpos : 0 < j.len) {p : List Bool}
    (hread : s1.ioRead a j.len 16 (s1.slicePid n.val) = (.ok m p, u)) (hlen : m.length ≤ j.dstLen) (hout : u.outputs n.val b m w p) :
    exec (.copy n q i) s = .next (if p.any id then
        (w.sliceErr n.val q.val 9).jobEnds n.val q.val j [j.rSrc, j.wDst] [a, b] { status := 3, outLen := m.length } (m.length != 0)
      else w.jobEnds n.val q.val j [j.rSrc, j.wDst] [a, b] { status := 0, outLen := m.length } (m.length != 0)) := by
  by_cases hbad : p.any id = true
  · rw [if_pos hbad]
    refine congrArg ok (h.runJob_outLen (by decide) rfl hp.unused rfl rfl ?_)
    simp only [List.getD_cons_zero, List.getD_cons_succ, if_neg hpos.ne', hread, hbad, if_true, hout.putFit h.slice hlen, Option.map_some]
  · rw [if_neg hbad]
    refine congrArg ok (h.runJob_outLen (by decide) rfl hp.unused rfl rfl ?_)
    simp only [List.getD_cons_zero, List.getD_cons_succ, if_neg hpos.ne', hread, hbad, if_false, hout.putFit h.slice hlen, Option.map_some,
      Bool.false_eq_true]

end

/-! ### Services with a key, and verifications (R298) -/

section
variable {s s1 u v w : State} {n : Fin 8192} {q : Fin 64} {i : Fin 4} {j : Job} {a b x : Nat} {m aad d : Bytes} {k : Bytes}

/-- R298: AES-GCM writes the ciphertext and the tag. -/
theorem exec_aesGcmEncrypt (hk : s.aesKey j = some k) (hkv : v.aesKey j = some k) (hpar : j.param.toNat < 2 ^ 96) (hon : s.pdUp 104 = true)
    (hm : s1.inputs n.val a j.len m u) (haad : u.inputs n.val x j.auxLen aad v)
    (h : s.jobRuns s1 n.val q.val i.val 2 1 j [j.rSrc, j.wDst, j.rAux] [a, b, x])
    (hlen : (gcmEncrypt k (j.paramBytes 0 12) aad m).length ≤ j.dstLen)
    (hout : v.outputs n.val b (gcmEncrypt k (j.paramBytes 0 12) aad m) w) :
    exec (.aesGcmEncrypt n q i) s = .next (w.jobEnds n.val q.val j [j.rSrc, j.wDst, j.rAux] [a, b, x]
      { status := 0, outLen := (gcmEncrypt k (j.paramBytes 0 12) aad m).length, result := 0 }
      ((gcmEncrypt k (j.paramBytes 0 12) aad m).length != 0)) := by
  refine congrArg ok (h.runJob_outLen (by decide) rfl (by simpa using hpar) hon (by rw [hk]; rfl)
    ((hm.withIn h.slice _).trans ((haad.withIn h.slice _).trans ?_)))
  rw [hkv]
  exact hout.putFit h.slice hlen 0 0

/-- R298: AES-GCM writes the plaintext when the tag matches. -/
theorem exec_aesGcmDecrypt (hk : s.aesKey j = some k) (hkv : v.aesKey j = some k) (hpar : j.param.toNat < 2 ^ 96)
    (hon : s.pdUp 104 = true) (hm : s1.inputs n.val a j.len m u) (haad : u.inputs n.val x j.auxLen aad v)
    (h : s.jobRuns s1 n.val q.val i.val 2 2 j [j.rSrc, j.wDst, j.rAux] [a, b, x]) (hmin : 16 ≤ j.len)
    (hd : gcmDecrypt k (j.paramBytes 0 12) aad m = some d) (hlen : d.length ≤ j.dstLen) (hout : v.outputs n.val b d w) :
    exec (.aesGcmDecrypt n q i) s = .next (w.jobEnds n.val q.val j [j.rSrc, j.wDst, j.rAux] [a, b, x]
      { status := 0, outLen := d.length, result := 0 } (d.length != 0)) := by
  refine congrArg ok (h.runJob_outLen (by decide) rfl (by simpa using hpar) hon (by rw [hk]; rfl) ((if_neg (by omega)).trans
    ((hm.withIn h.slice _).trans ((haad.withIn h.slice _).trans ?_))))
  simp only [hkv, Option.getD_some, hd]
  exact hout.putFit h.slice hlen 0 0

/-- R298: AES-GCM writes zeros, with status 6, when the tag does not match. -/
theorem exec_aesGcmDecrypt_refused (hk : s.aesKey j = some k) (hkv : v.aesKey j = some k) (hpar : j.param.toNat < 2 ^ 96)
    (hon : s.pdUp 104 = true) (hm : s1.inputs n.val a j.len m u) (haad : u.inputs n.val x j.auxLen aad v)
    (h : s.jobRuns s1 n.val q.val i.val 2 2 j [j.rSrc, j.wDst, j.rAux] [a, b, x]) (hmin : 16 ≤ j.len)
    (hd : gcmDecrypt k (j.paramBytes 0 12) aad m = none) (hlen : j.len - 16 ≤ j.dstLen) (hout : v.outputs n.val b (zeros (j.len - 16)) w) :
    exec (.aesGcmDecrypt n q i) s = .next (w.jobEnds n.val q.val j [j.rSrc, j.wDst, j.rAux] [a, b, x]
      { status := 6, outLen := (zeros (j.len - 16)).length, result := 0 } ((zeros (j.len - 16)).length != 0)) := by
  refine congrArg ok (h.runJob_outLen (by decide) rfl (by simpa using hpar) hon (by rw [hk]; rfl) ((if_neg (by omega)).trans
    ((hm.withIn h.slice _).trans ((haad.withIn h.slice _).trans ?_))))
  simp only [hkv, Option.getD_some, hd]
  exact hout.putFit h.slice (by rwa [zeros_length]) 0 6

/-- R298: ECDSA writes a signature of a digest of 48 bytes. -/
theorem exec_ecdsaP384Sign {key : Nat} (hal : j.auxLen = 0) (ha : j.aux = 0) (hpar : j.param = 0) (hon : s.pdUp 104 = true)
    (hm : s1.inputs n.val a j.len m u) (hk : s.ecKey j = some key) (hku : u.ecKey j = some key) (hlen : j.len = 48)
    (h : s.jobRuns s1 n.val q.val i.val 2 0x20 j [j.rSrc, j.wDst] [a, b]) (hfit : (ecdsaSign key m).length ≤ j.dstLen)
    (hout : u.outputs n.val b (ecdsaSign key m) w) :
    exec (.ecdsaP384Sign n q i) s = .next (w.jobEnds n.val q.val j [j.rSrc, j.wDst] [a, b]
      { status := 0, outLen := (ecdsaSign key m).length } ((ecdsaSign key m).length != 0)) := by
  rw [hlen] at hm
  refine congrArg ok (h.runJob_outLen (by decide) rfl (by simp [hal, ha, hpar]) hon (by rw [hk]; rfl)
    ((if_neg (not_not_intro hlen)).trans ((hm.withIn h.slice _).trans ?_)))
  rw [hku]
  exact hout.putFit h.slice hfit 0 0

/-- R298: ML-DSA writes a signature that it finds, hedged with 32 free bytes. -/
theorem exec_mlDsa65Sign {rnd y : Bytes} {att : Nat} (hal : j.auxLen = 0) (ha : j.aux = 0) (hpar : j.param = 0) (hon : s.pdUp 104 = true)
    (hm : s1.inputs n.val a j.len m u) (hk : s.mlKey j = some k) (hrnd : u.freshBytes 32 = (rnd, v)) (hkv : v.mlKey j = some k)
    (hsig : mldsaSign k rnd m = some (y, att)) (h : s.jobRuns s1 n.val q.val i.val 2 0x30 j [j.rSrc, j.wDst] [a, b])
    (hfit : y.length ≤ j.dstLen) (hout : v.outputs n.val b y w) :
    exec (.mlDsa65Sign n q i) s = .next (w.jobEnds n.val q.val j [j.rSrc, j.wDst] [a, b]
      { status := 0, outLen := y.length, result := BitVec.ofNat 64 att } (y.length != 0)) := by
  refine congrArg ok (h.runJob_outLen (by decide) rfl (by simp [hal, ha, hpar]) hon (by rw [hk]; rfl) ((hm.withIn h.slice _).trans ?_))
  simp only [hrnd, hkv, Option.getD_some, hsig]
  exact hout.putFit h.slice hfit _ 0

/-- R298: a verification ends with status 0 or 6, and writes nothing. -/
theorem State.verifyJob_ends {sig : Bytes} {op : Nat} {msgLen : Option Nat} (verify : Bytes → Bytes → Bytes → Bool) (hk : j.key = 0)
    (hpar : j.param = 0) (hon : s.pdUp 104 = true) (hm : s1.inputs n.val a j.len m u) (haux : u.inputs n.val x j.auxLen aad v)
    (hsig : v.inputs n.val b j.dstLen sig w)
    (h : s.jobRuns s1 n.val q.val i.val 2 op j [j.rSrc, ⟨j.dst, j.dstLen, true, false⟩, j.rAux] [a, b, x])
    (hmsg : (msgLen.any fun l => j.len != l) = false) :
    s.verifyJob n q i op j.auxLen j.dstLen msgLen verify =
      w.jobEnds n.val q.val j [j.rSrc, ⟨j.dst, j.dstLen, true, false⟩, j.rAux] [a, b, x]
        { status := if verify aad m sig then 0 else 6 } false := by
  refine h.runJob_outLen (by decide) rfl (by simp [hk, hpar]) hon rfl ((if_neg (by simp [hmsg])).trans
    ((hm.withIn h.slice _).trans ((haux.withIn h.slice _).trans (hsig.withIn h.slice _))))

end

/-- Settles O47: each service is a run of its descriptor, which ends as its operation does on the bytes that are read. -/
theorem sliceServices : Obligations.SliceServices := by
  unfold Obligations.SliceServices
  refine ⟨fun s s1 u w n q i j a b m => ⟨?_, exec_crc, exec_fill, fun h hp hpos p => exec_copy h hp hpos⟩,
    fun s s1 u v w n q i j a b x m aad sig => ⟨?_, ?_, ?_⟩⟩
  · intro p hp d hd h hplain hon hin hlen hout
    simp only [List.mem_cons, List.not_mem_nil, or_false] at hp
    obtain rfl | rfl | rfl | rfl | rfl | rfl | rfl | rfl | rfl := hp
    · exact exec_digest (e := .sha256 n q i) rfl hd h hplain hon hin hlen hout
    · exact exec_digest (e := .sha384 n q i) rfl hd h hplain hon hin hlen hout
    · exact exec_digest (e := .sha512 n q i) rfl hd h hplain hon hin hlen hout
    · exact exec_digest (e := .sha3256 n q i) rfl hd h hplain hon hin hlen hout
    · exact exec_digest (e := .sha3384 n q i) rfl hd h hplain hon hin hlen hout
    · exact exec_digest (e := .sha3512 n q i) rfl hd h hplain hon hin hlen hout
    · exact exec_compression (e := .compressFixed n q i) rfl hd h hplain hon hin hlen hout
    · exact exec_compression (e := .compressDynamic n q i) rfl hd h hplain hon hin hlen hout
    · exact exec_decompress hd h hplain hon hin hlen hout
  · intro k hk hkv hpar hon hm haad
    exact ⟨exec_aesGcmEncrypt hk hkv hpar hon hm haad, fun h hmin =>
      ⟨fun d => exec_aesGcmDecrypt hk hkv hpar hon hm haad h hmin, exec_aesGcmDecrypt_refused hk hkv hpar hon hm haad h hmin⟩⟩
  · intro hal ha hpar hon hm
    exact ⟨fun key => exec_ecdsaP384Sign hal ha hpar hon hm, fun k rnd y att => exec_mlDsa65Sign hal ha hpar hon hm⟩
  · intro _ hk hpar hon hm haux hsig
    refine ⟨fun h hal hdl hlen => ?_, fun h hal hdl => ?_⟩
    · have hv := State.verifyJob_ends (msgLen := some 48) ecdsaVerify hk hpar hon hm haux hsig h (by simp [hlen])
      rw [hal, hdl] at hv
      exact congrArg ok hv
    · have hv := State.verifyJob_ends (msgLen := none) mldsaVerify hk hpar hon hm haux hsig h rfl
      rw [hal, hdl] at hv
      exact congrArg ok hv

end Sys2Proof.Machine

/-! PROOFS. O48: the drains of slices (R304, R305). -/

namespace Sys2Proof.Machine

/-- A descriptor of slice 0, fetched and not completed. -/
def slowJob : Job := Job.ofBytes 0 0 0 1 [] [] none

/-- A drain of slice 0, with no unbinding, that waits for that descriptor. -/
def slowDrain : Drain := { slice := 0, jobs := [slowJob.id], queues := [], vecs := [], req := none }

/-- The drain is 10 ms old. -/
def slowDrainState : State := { time := 10000000, slices := { jobs := [slowJob], drains := [slowDrain] } }

/-- The descriptor abandoned is an error of the engine (R305), which Fetas records in its health log. -/
theorem slowDrainState_timeout : ∃ t, exec (.grantDrainTimeout 0) slowDrainState = .next t ∧ t.fsi.seq = 1 := ⟨_, rfl, by decide +kernel⟩

/-- Refutes O48: the statement has a drain without an unbinding leave the fsi part as it is, also one that times out with a descriptor
left. The model counts that descriptor as an error of the engine (R305, R309), and the health log that every such count enters stands in
the fsi part. The clause lacks the hypothesis that no descriptor is left, or the health log in what may differ. -/
theorem not_sliceQueues : ¬ Obligations.SliceQueues := by
  unfold Obligations.SliceQueues
  intro h
  obtain ⟨-, -, -, -, -, -, -, hdrain⟩ := h slowDrainState slowDrainState slowDrainState slowDrainState slowDrainState slowDrainState 0 0 0
    slowJob 0 0 0 0 [] [] [] []
  obtain ⟨-, hlate⟩ := hdrain slowDrain rfl rfl rfl (by simp [slowDrain])
  obtain ⟨t, ht, ⟨-, -, -, -, hfsi, -⟩, -⟩ := hlate (by decide)
  obtain ⟨u, hu, hseq⟩ := slowDrainState_timeout
  obtain rfl : t = u := by rw [ht] at hu; injection hu
  rw [hfsi rfl] at hseq
  exact absurd hseq (by decide)

end Sys2Proof.Machine

/-! PROOFS. What a hardware update leaves of a register and of its fields (R7, R14), and what a 32-bit write has on the bus (R33). -/

namespace Sys2Proof.Machine

section
variable (s : State) (r q : Reg) (i j : List Nat) (v : Nat) {f g : Fld}

theorem State.reg_setFld_other (h : q.at j ≠ r.at i) : (s.setFld r i f v).reg q j = s.reg q j := State.reg_setReg_other _ _ _ _ _ _ h

theorem State.fld_setFld_self (h : f.hi < 64) : (s.setFld r i f v).fld r i f = v % 2 ^ (f.hi + 1 - f.lo) := by
  rw [State.fld, State.reg_setFld, bits_putBits_self _ _ h]

theorem State.fld_setFld_field (h : g.hi < f.lo ∨ f.hi < g.lo) (hg : g.hi < 64) : (s.setFld r i f v).fld r i g = s.fld r i g := by
  rw [State.fld, State.reg_setFld, bits_putBits_of_disjoint _ _ h hg, State.fld]

theorem State.fld_setFld_other (h : q.at j ≠ r.at i) : (s.setFld r i f v).fld q j g = s.fld q j g := by
  rw [State.fld, State.reg_setFld_other _ _ _ _ _ _ h, State.fld]

theorem State.fld_setReg_other (w : Word) (h : q.at j ≠ r.at i) : (s.setReg r i w).fld q j g = s.fld q j g := by
  rw [State.fld, State.reg_setReg_other _ _ _ _ _ _ h, State.fld]

end

/-- A field of one bit, as a number. -/
theorem bits_eq_one_iff (w : Word) {f : Fld} (h : f.hi = f.lo) : bits w f = 1 ↔ flag w f = true := by
  rw [bits, flag, h, Nat.add_sub_cancel_left, ← BitVec.testBit_toNat, Nat.testBit_eq_decide_div_mod_eq, Nat.shiftRight_eq_div_pow,
    decide_eq_true_iff, Nat.pow_one]

/-- A field reads as the value of the word that a mask lets through, when the mask has it whole. -/
theorem bits_masked (old v m : Word) {f : Fld} (h : ∀ i < f.hi + 1 - f.lo, m.getLsbD (f.lo + i) = true) :
    bits ((old &&& ~~~m) ||| (v &&& m)) f = bits v f := by
  refine Nat.eq_of_testBit_eq fun i => ?_
  rw [testBit_bits, testBit_bits]
  by_cases hi : i < f.hi + 1 - f.lo
  · simp [h i hi]
  · simp [hi]

/-! ### Values on the bus -/

/-- A word below 2^32, as a 32-bit write has it on the bus. -/
theorem written_word {w : Word} (h : w.toNat < 2 ^ 32) : BitVec.ofNat 64 (w.toNat % 2 ^ 32) &&& lanes32 = w :=
  BitVec.eq_of_toNat_eq (written_toNat h)

theorem setWidth_toNat_lt (v : BitVec 32) : (v.setWidth 64).toNat < 2 ^ 32 := by
  rw [BitVec.toNat_setWidth]
  exact Nat.lt_of_le_of_lt (Nat.mod_le _ _) v.isLt

/-- A field within the low half leaves a word below 2^32 there. -/
theorem putBits_toNat_lt {w : Word} {f : Fld} (h : w.toNat < 2 ^ 32) (hf : f.hi < 32) (v : Nat) : (putBits w f v).toNat < 2 ^ 32 := by
  refine Nat.lt_pow_two_of_testBit _ fun i hi => ?_
  by_cases h64 : i < 64
  · rw [BitVec.testBit_toNat, getLsbD_putBits _ _ _ h64, if_neg (by omega), ← BitVec.testBit_toNat]
    exact Nat.testBit_lt_two_pow (h.trans_le (Nat.pow_le_pow_right (by decide) hi))
  · rw [BitVec.testBit_toNat, BitVec.getLsbD_of_ge _ _ (by omega)]

/-- A value made with bits set, as a word. -/
theorem setBit_toNat (w : Word) (lo n x : Nat) : setBit w.toNat lo n x = (putBits w ⟨lo + n - 1, lo⟩ x).toNat := by
  rw [setBit, BitVec.ofNat_toNat, BitVec.setWidth_eq]

/-- A 32-bit value made with bits set, as a word. -/
theorem setBit_toNat32 (v : BitVec 32) (lo n x : Nat) : setBit v.toNat lo n x = (putBits (v.setWidth 64) ⟨lo + n - 1, lo⟩ x).toNat := by
  rw [setBit, BitVec.ofNat_toNat]

/-- A 32-bit value with bits of its low half set, as a write has it on the bus. -/
theorem written_setBit (v : BitVec 32) {lo n : Nat} (x : Nat) (h : lo + n - 1 < 32) :
    BitVec.ofNat 64 (setBit v.toNat lo n x % 2 ^ 32) &&& lanes32 = putBits (v.setWidth 64) ⟨lo + n - 1, lo⟩ x := by
  rw [setBit_toNat32, written_word (putBits_toNat_lt (setWidth_toNat_lt v) h x)]

/-- The same with bits set twice. -/
theorem written_setBit_setBit (v : BitVec 32) {lo n lo' n' : Nat} (x x' : Nat) (h : lo + n - 1 < 32) (h' : lo' + n' - 1 < 32) :
    BitVec.ofNat 64 (setBit (setBit v.toNat lo n x) lo' n' x' % 2 ^ 32) &&& lanes32 =
      putBits (putBits (v.setWidth 64) ⟨lo + n - 1, lo⟩ x) ⟨lo' + n' - 1, lo'⟩ x' := by
  rw [setBit_toNat32, setBit_toNat, written_word (putBits_toNat_lt (putBits_toNat_lt (setWidth_toNat_lt v) h x) h' x')]

/-- A byte on the bus. -/
theorem written_byte (x : BitVec 8) : (BitVec.ofNat 64 (x.toNat % 2 ^ 32) &&& lanes32).setWidth 8 = x := by
  refine BitVec.eq_of_toNat_eq ?_
  rw [BitVec.toNat_setWidth, written_toNat (by omega)]
  omega

end Sys2Proof.Machine

/-! PROOFS. O38: the registers of the switch and of the serial units (R313, R323, R329, R335 to R339). -/

namespace Sys2Proof.Machine

/-! ### Registers of the field ports -/

theorem qbvCtl_at (p : Nat) : Reg.QBV_CTL.at [p] = 0x3007001010 + 0x100 * p := rfl
theorem ptpCommitLo_at (k : Nat) : Reg.PTP_COMMIT_LO.at [k] = 0x3007000118 + 0x40 * k := rfl
theorem ptpCommitHi_at (k : Nat) : Reg.PTP_COMMIT_HI.at [k] = 0x300700011c + 0x40 * k := rfl
theorem canCtl_at (k : Nat) : Reg.CAN_CTL.at [k] = 0x3009010000 + 0x4000 * k := rfl
theorem canStat_at (k : Nat) : Reg.CAN_STAT.at [k] = 0x3009010010 + 0x4000 * k := rfl
theorem gpioIn_at (g : Nat) : Reg.GPIO_IN.at [g] = 0x3009020000 + 4 * g := rfl
theorem gpioOut_at (g : Nat) : Reg.GPIO_OUT.at [g] = 0x3009020008 + 4 * g := rfl
theorem gpioIstat_at (g : Nat) : Reg.GPIO_ISTAT.at [g] = 0x3009020030 + 4 * g := rfl

@[simp] theorem State.qbv_setQbv (s : State) (p : Nat) (q : Qbv) : (s.setQbv p q).qbv p = q := SMap.get_set_self _ _ _ _
@[simp] theorem State.can_setCan (s : State) (k : Nat) (x : Can) : (s.setCan k x).can k = x := SMap.get_set_self _ _ _ _

section
variable {s : State} {by' : Sender}

/-! ### The switch (R313, R323, R335) -/

/-- R313: SW_CTL_FLUSH empties the dynamic entries. -/
theorem completes_swCtlFlush (en : Bool) (h : s.reaches (s.who by') .SW_CTL []) :
    Completes (.swCtlFlush by' en) s fun t => t.sw.fdb = [] ∧ t = { s with regs := t.regs, sw := t.sw } := by
  have e : exec (.swCtlFlush by' en) s = ok (s.regWrite (s.who by') .SW_CTL [] (BitVec.ofNat 64 ((2 + b2n en) % 2 ^ 32)) lanes32) :=
    congrArg ok (State.regW_reaches (by decide) h rfl _)
  have hf : (BitVec.ofNat 64 ((2 + b2n en) % 2 ^ 32) &&& lanes32).getLsbD 1 = true := by cases en <;> decide
  refine completes_ok (e.trans (congrArg ok (if_pos hf))) ⟨rfl, rfl⟩

/-- R335: QBV_BASE_HI_WRITE commits a pending list. -/
theorem completes_qbvBaseHiWrite (p : Fin 12) (v : BitVec 32) (h : s.reaches (s.who by') .QBV_BASE_HI [p.val]) :
    Completes (.qbvBaseHiWrite by' p v) s fun t => t.fld .QBV_CTL [p.val] .QBV_CTL_PEND = 1 ∧ (t.qbv p.val).pend.isSome = true ∧
      t = { s with regs := t.regs, sw := t.sw } := by
  refine completes_ok (congrArg ok (State.regW_reaches (by decide) h rfl _)) ⟨State.fld_setFld_self _ _ _ 1 (by decide), ?_, rfl⟩
  exact congrArg (fun q : Qbv => q.pend.isSome) (State.qbv_setQbv _ p.val _)

/-- APPLY of a PTP clock records the time in its commit registers. -/
theorem State.ptpApply_commits (s : State) (k : Nat) :
    (s.ptpApply k).reg .PTP_COMMIT_LO [k] = BitVec.ofNat 64 (s.time % 2 ^ 32) ∧
      (s.ptpApply k).reg .PTP_COMMIT_HI [k] = BitVec.ofNat 64 (s.time / 2 ^ 32 % 2 ^ 32) := by
  unfold State.ptpApply
  dsimp only
  refine ⟨?_, State.reg_setReg _ _ _ _⟩
  rw [State.reg_setReg_other _ _ _ _ _ _ (by rw [ptpCommitLo_at, ptpCommitHi_at]; omega), State.reg_setReg]
  rfl

/-- R323: PTP_APPLY records the time at which it takes effect. -/
theorem completes_ptpApply (k : Fin 4) (v : BitVec 32) (h : s.reaches (s.who by') .PTP_CTL [k.val]) :
    Completes (.ptpApply by' k v) s fun t => t = { s with regs := t.regs, sw := t.sw } ∧
      t.reg .PTP_COMMIT_LO [k.val] = BitVec.ofNat 64 (s.time % 2 ^ 32) ∧
      t.reg .PTP_COMMIT_HI [k.val] = BitVec.ofNat 64 (s.time / 2 ^ 32 % 2 ^ 32) := by
  have e : exec (.ptpApply by' k v) s =
      ok (s.regWrite (s.who by') .PTP_CTL [k.val] (BitVec.ofNat 64 (setBit v.toNat 0 1 1 % 2 ^ 32)) lanes32) :=
    congrArg ok (State.regW_reaches (by decide) h rfl _)
  have ha : (BitVec.ofNat 64 (setBit v.toNat 0 1 1 % 2 ^ 32) &&& lanes32).getLsbD 0 = true := by
    rw [written_setBit v 1 (by decide), getLsbD_putBits _ _ _ (by decide)]
    rfl
  have happly : ∃ w, exec (.ptpApply by' k v) s = ok ((s.setReg .PTP_CTL [k.val] w).ptpApply k.val) :=
    ⟨_, e.trans (congrArg ok (if_pos ha))⟩
  obtain ⟨w, hw⟩ := happly
  exact completes_ok hw ⟨rfl, (s.setReg .PTP_CTL [k.val] w).ptpApply_commits k.val⟩

/-! ### UART, SPI and I²C (R329, R337, R338) -/

/-- R329: a byte written to UART_TXD while the transmitter is active joins its FIFO. -/
theorem completes_uartTxdWrite (u : Fin 6) (x : BitVec 8) (h : s.reaches (s.who by') .UART_TXD [u.val])
    (hl : (s.uart u.val).tx.length < 64) (hp : (s.uart u.val).phase = .active) :
    Completes (.uartTxdWrite by' u x) s fun t => (t.uart u.val).tx = (s.uart u.val).tx ++ [x] ∧ t = { s with low := t.low } := by
  have e : exec (.uartTxdWrite by' u x) s = ok (s.uartPush u.val ((BitVec.ofNat 64 (x.toNat % 2 ^ 32) &&& lanes32).setWidth 8)) :=
    congrArg ok (State.regW_reaches (by decide) h rfl _)
  have hpush : s.uartPush u.val x = s.setUart u.val { s.uart u.val with tx := (s.uart u.val).tx ++ [x], sent := false } := by
    simp only [State.uartPush, Nat.not_le.mpr hl, if_false, State.uartStart, State.uart_setUart, hp, ite_self]
  rw [written_byte, hpush] at e
  exact completes_ok e ⟨congrArg Uart.tx (State.uart_setUart _ _ _), rfl⟩

/-- R337: a byte written to SPI_TXD joins the FIFO. -/
theorem completes_spiTxdWrite (k : Fin 4) (x : BitVec 8) (h : s.reaches (s.who by') .SPI_TXD [k.val])
    (hl : (s.spi k.val).tx.length < 64) :
    Completes (.spiTxdWrite by' k x) s fun t => (t.spi k.val).tx = (s.spi k.val).tx ++ [x] ∧ t = { s with low := t.low } := by
  have e : exec (.spiTxdWrite by' k x) s = ok (s.wSpiTxd k.val ((BitVec.ofNat 64 (x.toNat % 2 ^ 32) &&& lanes32).setWidth 8)) :=
    congrArg ok (State.regW_reaches (by decide) h rfl _)
  rw [written_byte, State.wSpiTxd, if_neg (Nat.not_le.mpr hl)] at e
  exact completes_ok e ⟨congrArg Spi.tx (State.spi_setSpi _ _ _), rfl⟩

/-- R338: a byte written to I2C_TXD joins the FIFO. -/
theorem completes_i2cTxdWrite (k : Fin 4) (x : BitVec 8) (h : s.reaches (s.who by') .I2C_TXD [k.val])
    (hl : (s.i2c k.val).tx.length < 64) :
    Completes (.i2cTxdWrite by' k x) s fun t => (t.i2c k.val).tx = (s.i2c k.val).tx ++ [x] ∧ t = { s with low := t.low } := by
  have e : exec (.i2cTxdWrite by' k x) s = ok (s.wI2cTxd k.val ((BitVec.ofNat 64 (x.toNat % 2 ^ 32) &&& lanes32).setWidth 8)) :=
    congrArg ok (State.regW_reaches (by decide) h rfl _)
  rw [written_byte, State.wI2cTxd, if_neg (Nat.not_le.mpr hl)] at e
  exact completes_ok e ⟨congrArg I2c.tx (State.i2c_setI2c _ _ _), rfl⟩

/-- R337: SPI_XFER_GO of an enabled and idle block starts a transfer. -/
theorem completes_spiXferGo (k : Fin 4) (v : BitVec 32) (h : s.reaches (s.who by') .SPI_XFER [k.val]) (hb : s.spiBusy k.val = false)
    (hen : flag (s.reg .SPI_CFG [k.val]) .SPI_CFG_EN = true) (hpos : 0 < bits (v.setWidth 64) .SPI_XFER_LEN)
    (hmax : bits (v.setWidth 64) .SPI_XFER_LEN ≤ 4096) :
    Completes (.spiXferGo by' k v) s fun t => t.spiBusy k.val = true ∧ (t.spi k.val).left = bits (v.setWidth 64) .SPI_XFER_LEN ∧
      t = { s with regs := t.regs, low := t.low } := by
  have e : exec (.spiXferGo by' k v) s = ok (s.wSpiXfer k.val (BitVec.ofNat 64 (setBit v.toNat 31 1 1 % 2 ^ 32) &&& lanes32)) :=
    congrArg ok (State.regW_reaches (by decide) h rfl _)
  rw [written_setBit v 1 (by decide)] at e
  have hgo : flag (putBits (v.setWidth 64) .SPI_XFER_GO 1) .SPI_XFER_GO = true := flag_putBits_self _ _ (by decide) (by decide)
  have hlen : bits (putBits (v.setWidth 64) .SPI_XFER_GO 1) .SPI_XFER_LEN = bits (v.setWidth 64) .SPI_XFER_LEN :=
    bits_putBits_of_disjoint _ _ (.inl (by decide)) (by decide)
  have hno : ¬ (bits (v.setWidth 64) .SPI_XFER_LEN = 0 ∨ 4096 < bits (v.setWidth 64) .SPI_XFER_LEN) := by omega
  change exec _ s = ok (s.wSpiXfer k.val (putBits (v.setWidth 64) .SPI_XFER_GO 1)) at e
  simp only [State.wSpiXfer, hgo, hb, hlen, hno, hen, decide_false, Bool.not_true, Bool.or_self, Bool.false_eq_true, if_false] at e
  refine completes_ok e ⟨?_, congrArg Spi.left (State.spi_setSpi _ _ _), rfl⟩
  rw [State.spiBusy, State.reg_setFld, flag_putBits_self _ _ (by decide) (by decide)]
  rfl

/-- R338: I2C_CMD_GO of an enabled controller with no command in progress starts one. -/
theorem completes_i2cCmdGo (k : Fin 4) (v : BitVec 32) (h : s.reaches (s.who by') .I2C_CMD [k.val]) (ha : s.i2cActive k.val = false)
    (hen : flag (s.reg .I2C_CFG [k.val]) .I2C_CFG_EN = true) (ht : flag (s.reg .I2C_CFG [k.val]) .I2C_CFG_TARGET = false)
    (hpos : 0 < bits (v.setWidth 64) .I2C_CMD_LEN) (hmax : bits (v.setWidth 64) .I2C_CMD_LEN ≤ 4096) :
    Completes (.i2cCmdGo by' k v) s fun t => t.fld .I2C_STAT [k.val] .I2C_STAT_BUSY = 1 ∧
      (t.i2c k.val).left = bits (v.setWidth 64) .I2C_CMD_LEN ∧ t = { s with regs := t.regs, low := t.low } ∧
      (t.i2c k.val).addr = (bits (v.setWidth 64) .I2C_CMD_ADDR, flag (v.setWidth 64) .I2C_CMD_A10) := by
  have e : exec (.i2cCmdGo by' k v) s = ok (s.wI2cCmd k.val (BitVec.ofNat 64 (setBit v.toNat 31 1 1 % 2 ^ 32) &&& lanes32)) :=
    congrArg ok (State.regW_reaches (by decide) h rfl _)
  rw [written_setBit v 1 (by decide)] at e
  have hgo : flag (putBits (v.setWidth 64) .I2C_CMD_GO 1) .I2C_CMD_GO = true := flag_putBits_self _ _ (by decide) (by decide)
  have hlen : bits (putBits (v.setWidth 64) .I2C_CMD_GO 1) .I2C_CMD_LEN = bits (v.setWidth 64) .I2C_CMD_LEN :=
    bits_putBits_of_disjoint _ _ (.inl (by decide)) (by decide)
  have haddr : bits (putBits (v.setWidth 64) .I2C_CMD_GO 1) .I2C_CMD_ADDR = bits (v.setWidth 64) .I2C_CMD_ADDR :=
    bits_putBits_of_disjoint _ _ (.inl (by decide)) (by decide)
  have ha10 : flag (putBits (v.setWidth 64) .I2C_CMD_GO 1) .I2C_CMD_A10 = flag (v.setWidth 64) .I2C_CMD_A10 :=
    flag_putBits_of_disjoint _ _ (.inl (by decide)) (by decide)
  have hno : ¬ (bits (v.setWidth 64) .I2C_CMD_LEN = 0 ∨ 4096 < bits (v.setWidth 64) .I2C_CMD_LEN) := by omega
  change exec _ s = ok (s.wI2cCmd k.val (putBits (v.setWidth 64) .I2C_CMD_GO 1)) at e
  simp only [State.wI2cCmd, hgo, ha, hlen, hno, hen, ht, haddr, ha10, decide_false, Bool.not_true, Bool.or_self, Bool.false_eq_true,
    if_false] at e
  exact completes_ok e ⟨State.fld_setFld_self _ _ _ 1 (by decide), congrArg I2c.left (State.i2c_setI2c _ _ _), rfl,
    congrArg I2c.addr (State.i2c_setI2c _ _ _)⟩

/-! ### CAN (R336) -/

/-- A write of CAN_CTL that leaves EN at 1: the controller has integrated (log entry 102), and one in bus-off that was off recovers. -/
theorem State.wCanCtl_enabled {v : Word} (hv : flag v .CAN_CTL_EN = true) (k : Nat) : s.wCanCtl k v =
    let t := (s.setReg .CAN_CTL [k] v).setFld .CAN_STAT [k] .CAN_STAT_SYNC 1
    if !flag (s.reg .CAN_CTL [k]) .CAN_CTL_EN && s.canState k == 2 then t.setCan k { t.can k with restart := true } else t := by
  have hs : ((s.setReg .CAN_CTL [k] v).setFld .CAN_STAT [k] .CAN_STAT_SYNC 1).canState k = s.canState k := by
    rw [State.canState, State.fld_setFld_field _ _ _ _ (.inr (by decide)) (by decide),
      State.fld_setReg_other _ _ _ _ _ _ (by rw [canStat_at, canCtl_at]; omega), State.canState]
  simp only [State.wCanCtl, hv, if_true, b2n, Bool.true_and, hs]

/-- R336: CAN_BUSOFF_RESTART. -/
theorem completes_canBusoffRestart (k : Fin 2) (v : BitVec 32) (h : s.reaches (s.who by') .CAN_CTL [k.val]) :
    Completes (.canBusoffRestart by' k v) s fun t => t.fld .CAN_CTL [k.val] .CAN_CTL_EN = 1 ∧
      t.fld .CAN_STAT [k.val] .CAN_STAT_SYNC = 1 ∧ t = { s with regs := t.regs, low := t.low } ∧
      (s.canState k.val = 2 → s.fld .CAN_CTL [k.val] .CAN_CTL_EN = 0 → (t.can k.val).restart = true) := by
  have e : exec (.canBusoffRestart by' k v) s = ok (s.wCanCtl k.val
      (((Reg.CAN_CTL.defFor (s.who by')).written (s.reg .CAN_CTL [k.val]) (BitVec.ofNat 64 (setBit v.toNat 31 1 1 % 2 ^ 32) &&& lanes32)
        lanes32))) :=
    congrArg ok (State.regW_reaches (by decide) h rfl _)
  rw [written_setBit v 1 (by decide), Reg.defFor_of_loaded_zero rfl] at e
  have hen : flag (Reg.CAN_CTL.spec.written (s.reg .CAN_CTL [k.val]) (putBits (v.setWidth 64) .CAN_CTL_EN 1) lanes32) .CAN_CTL_EN = true := by
    rw [flag, RegDef.getLsbD_written _ _ _ _ (by decide), getLsbD_putBits _ _ _ (by decide)]
    rfl
  change exec _ s = ok (s.wCanCtl k.val (Reg.CAN_CTL.spec.written _ (putBits (v.setWidth 64) .CAN_CTL_EN 1) _)) at e
  generalize Reg.CAN_CTL.spec.written _ _ _ = w at hen e
  rw [State.wCanCtl_enabled hen] at e
  have hw : bits w .CAN_CTL_EN = 1 := (bits_eq_one_iff w rfl).mpr hen
  have hctl : ((s.setReg .CAN_CTL [k.val] w).setFld .CAN_STAT [k.val] .CAN_STAT_SYNC 1).fld .CAN_CTL [k.val] .CAN_CTL_EN = 1 := by
    rw [State.fld_setFld_other _ _ _ _ _ _ (by rw [canCtl_at, canStat_at]; omega), State.fld, State.reg_setReg, hw]
  have hsync : ((s.setReg .CAN_CTL [k.val] w).setFld .CAN_STAT [k.val] .CAN_STAT_SYNC 1).fld .CAN_STAT [k.val] .CAN_STAT_SYNC = 1 :=
    State.fld_setFld_self _ _ _ 1 (by decide)
  by_cases hr : (!flag (s.reg .CAN_CTL [k.val]) .CAN_CTL_EN && s.canState k.val == 2) = true
  · exact completes_ok (e.trans (congrArg ok (if_pos hr))) ⟨hctl, hsync, rfl, fun _ _ => congrArg Can.restart (State.can_setCan _ _ _)⟩
  · refine completes_ok (e.trans (congrArg ok (if_neg hr))) ⟨hctl, hsync, rfl, fun h2 h0 => absurd ?_ hr⟩
    have hoff : flag (s.reg .CAN_CTL [k.val]) .CAN_CTL_EN ≠ true := fun hf => by
      have h1 := (bits_eq_one_iff (s.reg .CAN_CTL [k.val]) (f := .CAN_CTL_EN) rfl).mpr hf
      rw [State.fld, h1] at h0
      exact absurd h0 (by decide)
    simp [hoff, h2]

/-- What a write of the control word of a buffer that is not pending leaves of it: a request to send, or a receive buffer freed. -/
theorem State.wCanCtrl_takes {k b : Nat} {v : Word}
    (hp : ¬ (bits (s.reg .CAN_MB_CTRL [k, b]) .CAN_MB_CTRL_MODE = 1 ∧ bits (s.reg .CAN_MB_CTRL [k, b]) .CAN_MB_CTRL_STATE = 1))
    (hv : (bits v .CAN_MB_CTRL_MODE = 1 ∧ bits v .CAN_MB_CTRL_STATE = 1) ∨ (bits v .CAN_MB_CTRL_MODE = 2 ∧ bits v .CAN_MB_CTRL_STATE = 0)) :
    s.wCanCtrl k b v = s.setReg .CAN_MB_CTRL [k, b]
      ((s.reg .CAN_MB_CTRL [k, b] &&& ~~~Reg.CAN_MB_CTRL.spec.rw) ||| (v &&& Reg.CAN_MB_CTRL.spec.rw)) := by
  have hm : bits ((s.reg .CAN_MB_CTRL [k, b] &&& ~~~Reg.CAN_MB_CTRL.spec.rw) ||| (v &&& Reg.CAN_MB_CTRL.spec.rw)) .CAN_MB_CTRL_MODE =
      bits v .CAN_MB_CTRL_MODE := bits_masked _ _ _ (by decide)
  have h3 : bits v .CAN_MB_CTRL_MODE ≠ 3 := by omega
  have hpend : (bits (s.reg .CAN_MB_CTRL [k, b]) .CAN_MB_CTRL_MODE == 1 && bits (s.reg .CAN_MB_CTRL [k, b]) .CAN_MB_CTRL_STATE == 1) = false := by
    simpa using hp
  simp only [State.wCanCtrl, hpend, Bool.false_eq_true, if_false, h3, hm, hv, if_true]

variable {k : Fin 2} {b : Fin 64} {v : BitVec 32}

/-- R336: CAN_TX_REQUEST of a buffer that is not pending makes it pending. -/
theorem completes_canTxRequest (h : s.reaches (s.who by') .CAN_MB_CTRL [k.val, b.val]) (hm : bits (v.setWidth 64) .CAN_MB_CTRL_MODE = 1)
    (hp : s.fld .CAN_MB_CTRL [k.val, b.val] .CAN_MB_CTRL_STATE ≠ 1) :
    Completes (.canTxRequest by' k b v) s fun t => t.fld .CAN_MB_CTRL [k.val, b.val] .CAN_MB_CTRL_STATE = 1 ∧
      t.fld .CAN_MB_CTRL [k.val, b.val] .CAN_MB_CTRL_MODE = 1 ∧ OnlyRegs s t := by
  have e : exec (.canTxRequest by' k b v) s = ok (s.wCanCtrl k.val b.val
      (BitVec.ofNat 64 (setBit (setBit v.toNat 28 2 1) 24 1 0 % 2 ^ 32) &&& lanes32)) :=
    congrArg ok (State.regW_reaches (by decide) h rfl _)
  rw [written_setBit_setBit v 1 0 (by decide) (by decide)] at e
  have hmode : bits (putBits (putBits (v.setWidth 64) .CAN_MB_CTRL_STATE 1) .CAN_MB_CTRL_ABORT 0) .CAN_MB_CTRL_MODE = 1 := by
    rw [bits_putBits_of_disjoint _ _ (.inr (by decide)) (by decide), bits_putBits_of_disjoint _ _ (.inr (by decide)) (by decide), hm]
  have hstate : bits (putBits (putBits (v.setWidth 64) .CAN_MB_CTRL_STATE 1) .CAN_MB_CTRL_ABORT 0) .CAN_MB_CTRL_STATE = 1 := by
    rw [bits_putBits_of_disjoint _ _ (.inr (by decide)) (by decide), bits_putBits_self _ _ (by decide)]
    rfl
  refine completes_ok (e.trans (congrArg ok (State.wCanCtrl_takes (fun x => hp x.2) (.inl ⟨hmode, hstate⟩)))) ⟨?_, ?_, .setReg _ _ _ _⟩
  · rw [State.fld, State.reg_setReg, bits_masked _ _ _ (by decide)]
    exact hstate
  · rw [State.fld, State.reg_setReg, bits_masked _ _ _ (by decide)]
    exact hmode

/-- R336: CAN_RX_BUFFER_FREE of a receive buffer. -/
theorem completes_canRxBufferFree (h : s.reaches (s.who by') .CAN_MB_CTRL [k.val, b.val]) (hm : bits (v.setWidth 64) .CAN_MB_CTRL_MODE = 2)
    (hp : s.fld .CAN_MB_CTRL [k.val, b.val] .CAN_MB_CTRL_MODE = 2) :
    Completes (.canRxBufferFree by' k b v) s fun t => t.fld .CAN_MB_CTRL [k.val, b.val] .CAN_MB_CTRL_STATE = 0 ∧ OnlyRegs s t := by
  have e : exec (.canRxBufferFree by' k b v) s = ok (s.wCanCtrl k.val b.val
      (BitVec.ofNat 64 (setBit (setBit v.toNat 28 2 0) 24 1 0 % 2 ^ 32) &&& lanes32)) :=
    congrArg ok (State.regW_reaches (by decide) h rfl _)
  rw [written_setBit_setBit v 0 0 (by decide) (by decide)] at e
  have hmode : bits (putBits (putBits (v.setWidth 64) .CAN_MB_CTRL_STATE 0) .CAN_MB_CTRL_ABORT 0) .CAN_MB_CTRL_MODE = 2 := by
    rw [bits_putBits_of_disjoint _ _ (.inr (by decide)) (by decide), bits_putBits_of_disjoint _ _ (.inr (by decide)) (by decide), hm]
  have hstate : bits (putBits (putBits (v.setWidth 64) .CAN_MB_CTRL_STATE 0) .CAN_MB_CTRL_ABORT 0) .CAN_MB_CTRL_STATE = 0 := by
    rw [bits_putBits_of_disjoint _ _ (.inr (by decide)) (by decide), bits_putBits_self _ _ (by decide)]
    rfl
  have hno : ¬ (bits (s.reg .CAN_MB_CTRL [k.val, b.val]) .CAN_MB_CTRL_MODE = 1 ∧
      bits (s.reg .CAN_MB_CTRL [k.val, b.val]) .CAN_MB_CTRL_STATE = 1) := fun x => absurd (hp.symm.trans x.1) (by decide)
  refine completes_ok (e.trans (congrArg ok (State.wCanCtrl_takes hno (.inr ⟨hmode, hstate⟩)))) ⟨?_, .setReg _ _ _ _⟩
  rw [State.fld, State.reg_setReg, bits_masked _ _ _ (by decide)]
  exact hstate

/-- R336: CAN_ABORT of a pending buffer: it is aborted at once, or waits for its frame on the bus. -/
theorem completes_canAbort (h : s.reaches (s.who by') .CAN_MB_CTRL [k.val, b.val])
    (hm : s.fld .CAN_MB_CTRL [k.val, b.val] .CAN_MB_CTRL_MODE = 1) (hst : s.fld .CAN_MB_CTRL [k.val, b.val] .CAN_MB_CTRL_STATE = 1) :
    Completes (.canAbort by' k b v) s fun t => t.fld .CAN_MB_CTRL [k.val, b.val] .CAN_MB_CTRL_STATE = 3 ∨ b.val ∈ (t.can k.val).aborting := by
  have e : exec (.canAbort by' k b v) s = ok (s.wCanCtrl k.val b.val
      (BitVec.ofNat 64 (setBit v.toNat 24 1 1 % 2 ^ 32) &&& lanes32)) :=
    congrArg ok (State.regW_reaches (by decide) h rfl _)
  rw [written_setBit v 1 (by decide)] at e
  have hab : flag (putBits (v.setWidth 64) .CAN_MB_CTRL_ABORT 1) .CAN_MB_CTRL_ABORT = true := flag_putBits_self _ _ (by decide) (by decide)
  change exec _ s = ok (s.wCanCtrl k.val b.val (putBits (v.setWidth 64) .CAN_MB_CTRL_ABORT 1)) at e
  have hm' : bits (s.reg .CAN_MB_CTRL [k.val, b.val]) .CAN_MB_CTRL_MODE = 1 := hm
  have hst' : bits (s.reg .CAN_MB_CTRL [k.val, b.val]) .CAN_MB_CTRL_STATE = 1 := hst
  simp only [State.wCanCtrl, hm', hst', hab, beq_self_eq_true, Bool.and_self, if_true, Bool.not_true, Bool.false_or] at e
  refine completes_ok e ?_
  split
  · next hin => exact .inr (List.contains_iff_mem.mp hin)
  · split
    · exact .inl (State.fld_setFld_self _ _ _ 3 (by decide))
    · split
      · exact .inr (by rw [State.can_setCan]; exact List.mem_append_right _ (List.mem_singleton_self _))
      · exact .inl (State.fld_setFld_self _ _ _ 3 (by decide))

/-! ### GPIO (R339) -/

/-- One bank of 32 pins is sampled: GPIO_IN takes the levels, and GPIO_ISTAT the edges that meet their conditions. -/
def State.gpioBank (s : State) (p : BitVec 64) (g : Nat) : State :=
  let old := s.reg .GPIO_IN [g]
  let new : Word := BitVec.ofNat 64 (p.toNat / 2 ^ (32 * g) % 2 ^ 32)
  if old = new then s else
  let set := (List.range 32).foldl (fun (a : Word) i =>
    let m := s.fld .GPIO_ICFG [32 * g + i] .GPIO_ICFG_MODE
    let rise := !old.getLsbD i && new.getLsbD i
    let fall := old.getLsbD i && !new.getLsbD i
    if (rise && (m == 1 || m == 3)) || (fall && (m == 2 || m == 3)) then a ||| BitVec.ofNat 64 (2 ^ i) else a) 0
  (s.setReg .GPIO_IN [g] new).setReg .GPIO_ISTAT [g] (s.reg .GPIO_ISTAT [g] ||| set)

/-- The pins are sampled bank by bank. -/
theorem State.gpioSample_eq (s : State) :
    s.gpioSample = if !s.pdUp 106 then s else (s.gpioBank s.gpioPins 0).gpioBank s.gpioPins 1 := rfl

theorem State.gpioBank_onlyRegs (s : State) (p : BitVec 64) (g : Nat) : OnlyRegs s (s.gpioBank p g) := by
  unfold State.gpioBank
  dsimp only
  split
  · exact ⟨rfl⟩
  · exact ⟨rfl⟩

/-- Sampling a bank writes its GPIO_IN and its GPIO_ISTAT alone. -/
theorem State.reg_gpioBank_other (s : State) (p : BitVec 64) {g : Nat} {r : Reg} {idx : List Nat} (hi : r.at idx ≠ Reg.GPIO_IN.at [g])
    (hs : r.at idx ≠ Reg.GPIO_ISTAT.at [g]) : (s.gpioBank p g).reg r idx = s.reg r idx := by
  unfold State.gpioBank
  dsimp only
  split
  · rfl
  · rw [State.reg_setReg_other _ _ _ _ _ _ hs, State.reg_setReg_other _ _ _ _ _ _ hi]

theorem State.gpioSample_onlyRegs (s : State) : OnlyRegs s s.gpioSample := by
  rw [State.gpioSample_eq]
  split
  · exact ⟨rfl⟩
  · refine ⟨?_⟩
    rw [((s.gpioBank s.gpioPins 0).gpioBank_onlyRegs s.gpioPins 1).frame, (s.gpioBank_onlyRegs s.gpioPins 0).frame]

/-- Sampling the pins leaves what they drive. -/
theorem State.gpioOut_gpioSample (s : State) (g : Fin 2) : s.gpioSample.reg .GPIO_OUT [g.val] = s.reg .GPIO_OUT [g.val] := by
  have hin : ∀ n < 2, Reg.GPIO_OUT.at [g.val] ≠ Reg.GPIO_IN.at [n] := fun n hn => by rw [gpioOut_at, gpioIn_at]; omega
  have hst : ∀ n < 2, Reg.GPIO_OUT.at [g.val] ≠ Reg.GPIO_ISTAT.at [n] := fun n hn => by rw [gpioOut_at, gpioIstat_at]; omega
  rw [State.gpioSample_eq]
  split
  · rfl
  · rw [State.reg_gpioBank_other _ _ (hin 1 (by decide)) (hst 1 (by decide)), State.reg_gpioBank_other _ _ (hin 0 (by decide)) (hst 0 (by decide))]

/-- R339: a write of GPIO_SET or GPIO_CLR changes GPIO_OUT, and the pins are sampled. -/
theorem completes_gpioOut {i : Instr} (k : Fin 2) (w : Word) (e : exec i s = ok (s.setReg .GPIO_OUT [k.val] w).gpioSample) :
    Completes i s fun t => t.reg .GPIO_OUT [k.val] = w ∧ OnlyRegs s t := by
  refine completes_ok e ⟨?_, ⟨?_⟩⟩
  · rw [State.gpioOut_gpioSample, State.reg_setReg]
  · rw [(State.gpioSample_onlyRegs _).frame]
    rfl

theorem completes_gpioSetWrite (h : s.reaches (s.who by') .GPIO_SET [k.val]) : Completes (.gpioSetWrite by' k v) s fun t =>
    t.reg .GPIO_OUT [k.val] = s.reg .GPIO_OUT [k.val] ||| v.setWidth 64 ∧ OnlyRegs s t := by
  refine completes_gpioOut k _ ?_
  rw [← written32]
  exact congrArg ok (State.regW_reaches (by decide) h rfl _)

theorem completes_gpioClrWrite (h : s.reaches (s.who by') .GPIO_CLR [k.val]) : Completes (.gpioClrWrite by' k v) s fun t =>
    t.reg .GPIO_OUT [k.val] = s.reg .GPIO_OUT [k.val] &&& ~~~(v.setWidth 64) ∧ OnlyRegs s t := by
  refine completes_gpioOut k _ ?_
  rw [← written32]
  exact congrArg ok (State.regW_reaches (by decide) h rfl _)

end

/-- Settles O38: each command is the write of its register, whose rule is a lemma above. -/
theorem fieldRegisters : Obligations.FieldRegisters := by
  unfold Obligations.FieldRegisters
  intro s by' p k2 k u b en v x
  exact ⟨completes_swCtlFlush en, completes_qbvBaseHiWrite p v, completes_ptpApply k v, completes_uartTxdWrite u x,
    completes_canBusoffRestart k2 v, fun h => ⟨completes_canTxRequest h, completes_canRxBufferFree h, completes_canAbort h⟩,
    completes_spiXferGo k v, completes_spiTxdWrite k x, completes_i2cCmdGo k v, completes_i2cTxdWrite k x,
    completes_gpioSetWrite, completes_gpioClrWrite⟩

end Sys2Proof.Machine

/-! PROOFS. O43: the switch forwards, drops and sends frames (R311, R313, R314, R316, R317, R322). -/

namespace Sys2Proof.Machine

/-! ### The counters of a port (R311) -/

theorem portCfg_at (p : Nat) : Reg.PORT_CFG.at [p] = 0x3007001000 + 0x100 * p := rfl
theorem portStatus_at (p : Nat) : Reg.PORT_STATUS.at [p] = 0x3007001004 + 0x100 * p := rfl
theorem cntRx_at (p : Nat) : Reg.CNT_RX.at [p] = 0x3007001040 + 0x100 * p := rfl
theorem hsrCfg_at (i : Nat) : Reg.HSR_CFG.at [i] = 0x3007000010 + 4 * i := rfl

section
variable {s t : State} {p : Nat}

theorem State.portCount_eq (r : Reg) (hp : p < 12) : s.portCount r p = s.countFld r [p] ⟨31, 0⟩ := if_pos hp

theorem State.countFld_onlyRegs (s : State) (r : Reg) (i : List Nat) (f : Fld) : OnlyRegs s (s.countFld r i f) := ⟨rfl⟩

/-- A counter of a port that counts one more saturates. -/
theorem State.countFld_counts (s : State) (r : Reg) (i : List Nat) :
    (s.countFld r i ⟨31, 0⟩).fld r i ⟨31, 0⟩ = min (2 ^ 32 - 1) (s.fld r i ⟨31, 0⟩ + 1) := by
  rw [State.countFld, State.fld_setFld_self _ _ _ _ (by decide), satAdd_one]
  exact Nat.mod_eq_of_lt (Nat.lt_of_le_of_lt (Nat.min_le_left _ _) (by decide))

theorem State.fld_countFld_other (s : State) {r q : Reg} {i j : List Nat} {f g : Fld} (h : q.at j ≠ r.at i) :
    (s.countFld r i f).fld q j g = s.fld q j g := State.fld_setFld_other _ _ _ _ _ _ h

/-- A frame that is received and then dropped counts twice, and changes nothing else. -/
theorem counts_after_rx (s : State) {r : Reg} (h : r.at [p] ≠ Reg.CNT_RX.at [p]) :
    let t := (s.countFld .CNT_RX [p] ⟨31, 0⟩).countFld r [p] ⟨31, 0⟩
    OnlyRegs s t ∧ t.fld r [p] ⟨31, 0⟩ = min (2 ^ 32 - 1) (s.fld r [p] ⟨31, 0⟩ + 1) := by
  refine ⟨⟨rfl⟩, ?_⟩
  rw [State.countFld_counts, State.fld_countFld_other s h]

/-! ### What forwarding rests on -/

/-- Of two states the switch forwards frames alike: its own state, the time and the configuration of its ports are the same. -/
structure ForwardsAlike (s t : State) : Prop where
  sw : t.sw = s.sw
  cfg : ∀ p, t.reg .PORT_CFG [p] = s.reg .PORT_CFG [p]
  hsr : ∀ i < 2, t.reg .HSR_CFG [i] = s.reg .HSR_CFG [i]

/-- A frame counted as received. -/
theorem ForwardsAlike.countRx (s : State) (p : Nat) : ForwardsAlike s (s.countFld .CNT_RX [p] ⟨31, 0⟩) where
  sw := rfl
  cfg q := State.reg_setFld_other _ _ _ _ _ _ (by rw [portCfg_at, cntRx_at]; omega)
  hsr i hi := State.reg_setFld_other _ _ _ _ _ _ (by rw [hsrCfg_at, cntRx_at]; omega)

variable (h : ForwardsAlike s t)
include h

theorem ForwardsAlike.vidOf (e : Eth) : t.vidOf e = s.vidOf e := by
  simp only [State.vidOf, State.vidOf.pvid, State.fld, State.vport, h.cfg, h.sw]

theorem ForwardsAlike.classOf (e : Eth) : t.classOf e = s.classOf e := by simp only [State.classOf, State.fld, h.cfg]

theorem ForwardsAlike.member (q vid : Nat) : t.member q vid = s.member q vid := by simp only [State.member, State.vport, h.sw]

theorem ForwardsAlike.fdbAll : t.fdbAll = s.fdbAll := by simp only [State.fdbAll, h.sw]

theorem ForwardsAlike.swQueue (q c : Nat) : t.swQueue q c = s.swQueue q c := by simp only [State.swQueue, h.sw]

theorem ForwardsAlike.fits (q c n : Nat) : t.fits q c n = s.fits q c n := by
  have hr : t.fits q c n = ({ s with sw := t.sw } : State).fits q c n := rfl
  rw [hr, h.sw]

theorem ForwardsAlike.egressForm (e : Eth) (q : Nat) : t.egressForm e q = s.egressForm e q := by
  simp only [State.egressForm, h.vidOf, h.classOf, h.sw]

theorem ForwardsAlike.instOf (q : Nat) : t.instOf q = s.instOf q := by
  unfold State.instOf
  split
  · next hq =>
    have hm : t.fld .HSR_CFG [q / 2] .HSR_CFG_MODE = s.fld .HSR_CFG [q / 2] .HSR_CFG_MODE := by rw [State.fld, h.hsr _ (by omega), State.fld]
    rw [hm]
  · rfl

theorem ForwardsAlike.plainSwitch (hs : s.plainSwitch) : t.plainSwitch where
  inst p hp := (h.instOf p).trans (hs.inst p hp)
  filters := by rw [h.sw, hs.filters]
  recs := by rw [h.sw, hs.recs]
  gens := by rw [h.sw, hs.gens]

end

/-! ### Frames -/

/-- A frame that is read from bytes at a port carries that port. -/
theorem Eth.parse_rx {b : Bytes} {rx stamp : Nat} {e : Eth} (h : Eth.parse b rx stamp = some e) : e.rx = rx := by
  unfold Eth.parse at h
  split at h
  · cases h
  · cases h; rfl

theorem beNat_lt (l : Bytes) : beNat l < 256 ^ l.length := by
  have hf : ∀ (l : Bytes) (n : Nat), l.foldl (fun n b => n * 256 + b.toNat) n < (n + 1) * 256 ^ l.length := by
    intro l
    induction l with
    | nil => intro n; simp
    | cons b l ih =>
      intro n
      refine (ih _).trans_le ?_
      rw [List.length_cons, Nat.pow_succ', ← Nat.mul_assoc]
      have hb := b.isLt
      exact Nat.mul_le_mul_right _ (show n * 256 + b.toNat + 1 ≤ (n + 1) * 256 by omega)
  exact (hf l 0).trans_eq (by rw [Nat.zero_add, Nat.one_mul])

/-- The class of a frame that came in at an external port is one of the eight. -/
theorem State.classOf_lt (s : State) {b : Bytes} {p stamp : Nat} {e : Eth} (h : Eth.parse b p stamp = some e) : s.classOf e < 8 := by
  have htag : ∀ x, e.tag = some x → x.1 < 8 := by
    intro x hx
    unfold Eth.parse at h
    split at h
    · cases h
    · cases h
      have hl : beNat (piece b 14 2) < 256 ^ 2 :=
        (beNat_lt _).trans_le (Nat.pow_le_pow_right (by decide) (List.length_take_le _ _))
      dsimp only at hx
      split at hx
      · cases hx
        dsimp only
        omega
      · cases hx
  unfold State.classOf
  split
  · next q v hq => exact htag _ hq
  · split
    · exact Nat.mod_lt _ (by decide)
    · decide

/-! ### Reception (R311, R313, R314, R316) -/

section
variable {s : State} {p : Fin 12} {frame : List Byte} {e : Eth}

/-- A port that is on has its switch powered. -/
theorem State.pdUp_of_portOn {q : Nat} (h : s.portOn q = true) : s.pdUp 98 = true := by
  simp only [State.portOn, Bool.and_eq_true] at h
  exact h.1.1.1

theorem State.plainSwitch.instOf_none (h : s.plainSwitch) (q : Nat) : s.instOf q = none := by
  by_cases hq : q < 4
  · exact h.inst q hq
  · exact if_neg hq

/-- R311: a frame with a bad FCS, of no more than the length that the port takes. -/
theorem completes_frameReceive_badFcs (hon : s.portOn p.val = true) (hlen : frame.length + 4 ≤ portLimit p.val) :
    Completes (.frameReceive p frame false) s fun t =>
      OnlyRegs s t ∧ t.fld .CNT_DROP_FCS [p.val] ⟨31, 0⟩ = min (2 ^ 32 - 1) (s.fld .CNT_DROP_FCS [p.val] ⟨31, 0⟩ + 1) := by
  have e : exec (.frameReceive p frame false) s = execFrameReceive p frame false s := rfl
  simp only [execFrameReceive, State.pdUp_of_portOn hon, hon, Bool.not_true, Bool.false_eq_true, if_false, Nat.not_lt.mpr hlen, Bool.not_false,
    if_true, State.portCount_eq _ p.isLt] at e
  exact completes_ok e (counts_after_rx s (portCounter_at 3 p.val ▸ by simp))

/-- A good frame enters a switch that forwards only. -/
theorem exec_frameReceive_good (hs : s.plainSwitch) (hon : s.portOn p.val = true) (hlen : frame.length + 4 ≤ portLimit p.val)
    (he : Eth.parse frame p.val s.time = some e) :
    exec (.frameReceive p frame true) s = ok ((s.countFld .CNT_RX [p.val] ⟨31, 0⟩).switchFrame e) := by
  have hi := ((ForwardsAlike.countRx s p.val).plainSwitch hs).instOf_none p.val
  show execFrameReceive p frame true s = _
  simp only [execFrameReceive, State.pdUp_of_portOn hon, hon, Bool.not_true, Bool.false_eq_true, if_false, Nat.not_lt.mpr hlen,
    State.portCount_eq _ p.isLt, show (s.countFld .CNT_RX [p.val] ⟨31, 0⟩).time = s.time from rfl, he, hi]

/-- R314: a frame whose VLAN is none of the port's. -/
theorem State.switchFrame_not_member (hm : s.member e.rx (s.vidOf e) = false) (hrx : e.rx < 12) :
    s.switchFrame e = s.countFld .CNT_DROP_VLAN [e.rx] ⟨31, 0⟩ := by
  simp only [State.switchFrame, hm, Bool.not_false, if_true, State.portCount_eq _ hrx]

/-- R313, R314: a frame of a switch that forwards only, and learns nothing from it, goes out of its egress ports. -/
theorem State.switchFrame_plain (hs : s.plainSwitch) (hm : s.member e.rx (s.vidOf e) = true)
    (hl : flag (s.reg .PORT_CFG [e.rx]) .PORT_CFG_LEARN = false) :
    s.switchFrame e = s.sendOut (s.vidOf e) e (s.egress (s.vidOf e) e) := by
  have hpass : (if e.rx < 12 then s.streamPass e (s.vidOf e) else (some e, s)) = (some e, s) := by
    simp only [State.streamPass, hs.filters, List.find?_nil, ite_self]
  have hrec : s.frerRecover e (s.vidOf e) = (some e, s) := by
    simp only [State.frerRecover, hs.recs, List.zipIdx_nil, List.find?_nil, ite_self]
  have hgen : s.frerGenerate e (s.vidOf e) = (none, s) := by
    simp only [State.frerGenerate, hs.gens, List.zipIdx_nil, List.find?_nil]
  have hlearn : s.learn (s.vidOf e) e = s := by
    simp only [State.learn, hl, Bool.and_false, Bool.not_false, if_true]
  simp only [State.switchFrame, hm, Bool.not_true, Bool.false_eq_true, if_false, hpass, hs.instOf_none, Option.isSome_none, hrec, hgen, hlearn]

/-- A unicast frame whose address is known behind another port of its VLAN leaves there (R313). -/
theorem State.egress_known {f : Fdb} (hu : e.multicast = false)
    (hf : (s.fdbAll.find? fun x => x.vid == s.vidOf e && x.mac == e.dst) = some f) (hp : f.port ≠ e.rx)
    (hm : s.member f.port (s.vidOf e) = true) : s.egress (s.vidOf e) e = [f.port] := by
  simp only [State.egress, hu, Bool.false_eq_true, if_false, hf, hp, hm, if_true]

/-- A frame that leaves by one external port takes the form that its VLAN has there (R314). -/
theorem State.sendOut_single (hs : s.plainSwitch) {q : Nat} (hq : q < 12) :
    s.sendOut (s.vidOf e) e [q] = s.enqueue q (s.classOf e) (s.egressForm e q) := by
  have h16 : decide (16 ≤ q) = false := decide_eq_false (by omega)
  simp only [State.sendOut, List.foldl_cons, List.foldl_nil, h16, Bool.false_or, hs.instOf_none, State.egressForm]

/-- R316: a frame for which there is room joins the queue of its class. -/
theorem State.enqueue_fits {q c : Nat} (hq : q < 16) (hl : e.len ≤ portLimit q) (hf : s.fits q c e.len = true) :
    s.enqueue q c e = s.setQueue q c (s.swQueue q c ++ [e]) := by
  simp only [State.enqueue, Nat.not_lt.mpr hl, if_false, hf, Bool.not_true, Bool.false_eq_true, hq, if_true]

/-- R316: a frame for which there is no room is dropped and counted where it came in. -/
theorem State.enqueue_full {q c : Nat} (hl : e.len ≤ portLimit q) (hf : s.fits q c e.len = false) :
    s.enqueue q c e = s.portCount .CNT_DROP_FULL e.rx := by
  simp only [State.enqueue, Nat.not_lt.mpr hl, if_false, hf, Bool.not_false, if_true]

@[simp] theorem State.swQueue_setQueue (s : State) (q c : Nat) (l : List Eth) : (s.setQueue q c l).swQueue q c = l :=
  SMap.get_set_self _ _ _ _

/-- The queues of the other classes and ports stay. -/
theorem State.swQueue_setQueue_other (s : State) {q c q' c' : Nat} (l : List Eth) (hc : c < 8) (hc' : c' < 8) (h : q' ≠ q ∨ c' ≠ c) :
    (s.setQueue q c l).swQueue q' c' = s.swQueue q' c' :=
  SMap.get_set_other _ (by omega) _ _

/-- R313, R314, R316: where a good unicast frame goes whose address is known behind another port. -/
theorem exec_frameReceive_known {f : Fdb} (hs : s.plainSwitch) (hon : s.portOn p.val = true) (hlen : frame.length + 4 ≤ portLimit p.val)
    (he : Eth.parse frame p.val s.time = some e) (hm : s.member p.val (s.vidOf e) = true)
    (hl : flag (s.reg .PORT_CFG [p.val]) .PORT_CFG_LEARN = false) (hu : e.multicast = false)
    (hf : (s.fdbAll.find? fun x => x.vid == s.vidOf e && x.mac == e.dst) = some f) (hp : f.port ≠ p.val) (hp' : f.port < 12)
    (hmf : s.member f.port (s.vidOf e) = true) :
    exec (.frameReceive p frame true) s =
      ok ((s.countFld .CNT_RX [p.val] ⟨31, 0⟩).enqueue f.port (s.classOf e) (s.egressForm e f.port)) := by
  have h := ForwardsAlike.countRx s p.val
  have hrx := Eth.parse_rx he
  rw [exec_frameReceive_good hs hon hlen he]
  rw [State.switchFrame_plain (h.plainSwitch hs) (by rw [h.vidOf, h.member, hrx, hm]) (by rw [hrx, h.cfg, hl]),
    State.egress_known hu (by rw [h.fdbAll, h.vidOf, hf]) (hrx ▸ hp) (by rw [h.vidOf, h.member, hmf]),
    State.sendOut_single (h.plainSwitch hs) hp', h.classOf, h.egressForm]

/-! ### Transmission (R316, R317, R322) -/

/-- The first class that a search from the highest finds. -/
theorem findSome_classes {α : Type} (g : Nat → Option α) {c : Nat} {x : α} (hc : c < 8) (hx : g c = some x) (hh : ∀ d < 8, c < d → g d = none) :
    (List.range 8).reverse.findSome? g = some x := by
  have hr : (List.range 8).reverse = [7, 6, 5, 4, 3, 2, 1, 0] := rfl
  rw [hr]
  interval_cases c <;> simp [List.findSome?, hx, hh]

/-- A frame that is no PTP message passes through the clock unchanged (R323). -/
theorem Eth.ptp_none (h : e.etherType ∉ [0x88F7, 0x892F, 0xF1C1]) : e.ptp = none := by
  simp only [List.mem_cons, List.not_mem_nil, or_false, not_or] at h
  obtain ⟨h1, h2, h3⟩ := h
  have ht : beNat (piece e.body 0 2) ≠ 0x88F7 := h1
  simp only [Eth.ptp, h2, h3, or_self, if_false, ht, ne_eq, not_false_eq_true, true_or, if_true]

/-- R316, R317, R322: a port with no gates sends the oldest frame of its highest class. -/
theorem completes_frameTransmit {c : Nat} {rest : List Eth} (hon : s.portOn p.val = true) (hc : c < 8)
    (hlink : flag (s.reg .PORT_STATUS [p.val]) .PORT_STATUS_LINK = true) (hq : flag (s.reg .QBV_CTL [p.val]) .QBV_CTL_EN = false)
    (hc' : s.swQueue p.val c = e :: rest) (hh : ∀ d < 8, c < d → s.swQueue p.val d = []) (hp : e.etherType ∉ [0x88F7, 0x892F, 0xF1C1]) :
    Completes (.frameTransmit p) s fun t => t.sw.lastTx = some (p.val, e.bytes) ∧
      t.sw.txStamp.get 0 p.val = s.time ∧ t.swQueue p.val c = rest ∧ t = { s with regs := t.regs, sw := t.sw } ∧
      (∀ d < 8, d ≠ c → t.swQueue p.val d = s.swQueue p.val d) ∧
      t.fld .CNT_TX [p.val] ⟨31, 0⟩ = min (2 ^ 32 - 1) (s.fld .CNT_TX [p.val] ⟨31, 0⟩ + 1) := by
  have hadm : ∀ d, s.gateAdmits p.val d e = true := fun d => by simp only [State.gateAdmits, hq, Bool.not_false, if_true]
  have hfollow : e.followUp p.val s.time = none := by simp only [Eth.followUp, Eth.ptp_none hp]
  have hcorrect : ∀ u : State, u.ptpCorrect p.val e = (e, u) := fun u => by simp only [State.ptpCorrect, Eth.ptp_none hp]
  have h : exec (.frameTransmit p) s = execFrameTransmit p s := rfl
  unfold execFrameTransmit at h
  simp only [hon, hlink, Bool.not_true, Bool.or_self, Bool.false_eq_true, if_false] at h
  rw [findSome_classes _ (x := (c, e, rest)) hc ?highest ?none] at h
  case highest => simp only [hc', hadm, if_true]
  case none => exact fun d hd hcd => by simp only [hh d hd hcd]
  simp only [hfollow, hcorrect, Option.toList_none, List.nil_append, State.portCount_eq _ p.isLt] at h
  refine completes_ok h ⟨rfl, SMap.get_set_self _ _ _ _, ?_, rfl, fun d hd hdc => ?_, ?_⟩
  · exact s.swQueue_setQueue p.val c rest
  · exact s.swQueue_setQueue_other rest hc hd (.inr hdc)
  · exact (s.setQueue p.val c rest).countFld_counts _ _

end

/-- Settles O43: reception by the lemmas on what forwarding rests on, transmission by the search for the highest class. -/
theorem switchForwards : Obligations.SwitchForwards := by
  unfold Obligations.SwitchForwards
  intro s p frame e hs hon
  refine ⟨completes_frameReceive_badFcs hon, fun hlen he => ⟨fun hm => ?_, fun f hm hl hu hf hp hp' hmf hlim => ⟨fun hfit => ?_, fun hfit => ?_⟩⟩,
    fun c rest hc hlink hq hc' hh hpt => completes_frameTransmit hon hc hlink hq hc' hh hpt⟩
  · have h := ForwardsAlike.countRx s p.val
    have hrx := Eth.parse_rx he
    have e' := exec_frameReceive_good hs hon hlen he
    rw [State.switchFrame_not_member (by rw [h.vidOf, h.member, hrx, hm]) (by omega), hrx] at e'
    exact completes_ok e' (counts_after_rx s (portCounter_at 5 p.val ▸ by simp))
  · have e' := exec_frameReceive_known hs hon hlen he hm hl hu hf hp hp' hmf
    rw [State.enqueue_fits (by omega) hlim (by rw [(ForwardsAlike.countRx s p.val).fits, hfit])] at e'
    have hc := s.classOf_lt he
    exact completes_ok e' ⟨rfl, State.swQueue_setQueue _ _ _ _, fun q d hd hne => State.swQueue_setQueue_other _ _ hc hd hne⟩
  · have e' := exec_frameReceive_known hs hon hlen he hm hl hu hf hp hp' hmf
    have hrx : (s.egressForm e f.port).rx = p.val := (Eth.parse_rx he : e.rx = p.val)
    rw [State.enqueue_full hlim (by rw [(ForwardsAlike.countRx s p.val).fits, hfit]), hrx, State.portCount_eq _ p.isLt] at e'
    exact completes_ok e' (counts_after_rx s (portCounter_at 6 p.val ▸ by simp))

end Sys2Proof.Machine

/-! PROOFS. O44: the switch's own events (R312, R313, R317 to R319, R321, R335). -/

namespace Sys2Proof.Machine

/-! ### What an HSR pair sends when its supervision frame is due (R321) -/

/-- A supervision frame of a redundancy mode. -/
def supervision (mode seq time : Nat) : Eth :=
  { dst := 0x01154E000100, src := beNat (toBe Config.nodeMac 6), tag := none, rx := 12, stamp := time,
    body := toBe 0x88FB 2 ++ toBe 1 2 ++ toBe seq 2 ++ [if mode = 1 then 23 else 20, 6] ++ toBe Config.nodeMac 6 ++ zeros 34 }

/-- The copy of a frame that an HSR pair sends by one of its ports. -/
def hsrCopy (lan seq : Nat) (e : Eth) : Eth :=
  { e with body := toBe 0x892F 2 ++ toBe (lan * 4096 + (e.body.length + 4) % 4096) 2 ++ toBe seq 2 ++ e.body }

/-- The pair has taken the next supervision frame into account. -/
def State.supervised (s : State) (i : Nat) : State :=
  s.setRedun i { s.redun i with supSeq := ((s.redun i).supSeq + 1) % 2 ^ 16,
                                supNext := s.time + s.fld .HSR_CFG [i] .HSR_CFG_LIFECHECK * 10 ^ 6 }

/-- The pair has given a frame of its own the next sequence number. -/
def State.numbered (s : State) (i : Nat) (e : Eth) : State :=
  s.setRedun i { s.redun i with seq := ((s.redun i).seq + 1) % 2 ^ 16, own := lastN 1024 ((s.redun i).own ++ [(e.src, (s.redun i).seq)]) }

section
variable {s : State} {i : Fin 2}

theorem supervision_len (mode seq time : Nat) : (supervision mode seq time).len = 64 := by
  simp only [Eth.len, Eth.bytes, supervision, List.length_append, toBe_length, zeros_length, List.length_cons, List.length_nil]

theorem hsrCopy_len (lan seq : Nat) (e : Eth) : (hsrCopy lan seq e).len = e.len + 6 := by
  simp only [Eth.len, Eth.bytes, hsrCopy, List.length_append, toBe_length]
  omega

theorem State.redunSend_hsr (j c : Nat) (e : Eth) :
    s.redunSend j 1 c e = ((s.numbered j e).enqueue (2 * j) c (hsrCopy 0 (s.redun j).seq e)).enqueue (2 * j + 1) c (hsrCopy 1 (s.redun j).seq e) :=
  rfl

theorem State.redun_setRedun (j : Nat) (r : Redun) : (s.setRedun j r).redun j = r := SMap.get_set_self _ _ _ _

theorem State.redun_setQueue (p c j : Nat) (l : List Eth) : (s.setQueue p c l).redun j = s.redun j := rfl

theorem State.nodes_numbered (j : Nat) (e : Eth) : ((s.numbered j e).redun j).nodes = (s.redun j).nodes := by
  rw [State.numbered, State.redun_setRedun]

theorem State.nodes_supervised (j : Nat) : ((s.supervised j).redun j).nodes = (s.redun j).nodes := by
  rw [State.supervised, State.redun_setRedun]

/-- No path falls silent while no node has been heard. -/
theorem State.redunSilent_of_no_nodes {j : Nat} (h : (s.redun j).nodes = []) : s.redunSilent j = s := by
  simp only [State.redunSilent, h, List.any_nil, Bool.false_and, Bool.false_eq_true, if_false, List.foldl_cons, List.foldl_nil]

theorem exec_supervisionFrameSend_hsr (hm : s.fld .HSR_CFG [i.val] .HSR_CFG_MODE = 1) (ht : (s.redun i.val).supNext ≤ s.time) :
    exec (.supervisionFrameSend i) s =
      ok (((s.supervised i.val).redunSend i.val 1 0 (supervision 1 (s.redun i.val).supSeq s.time)).redunSilent i.val) := by
  have hi : s.instOf (2 * i.val) = some (i.val, 1) := by
    have h2 : 2 * i.val / 2 = i.val := by omega
    simp only [State.instOf, show 2 * i.val < 4 by omega, if_true, h2, hm, true_or]
  show execSupervisionFrameSend i s = _
  simp only [execSupervisionFrameSend, hi, Nat.not_lt.mpr ht, if_false]
  rfl

end

/-! ### A memory of frames that the first copy fills -/

/-- A frame with so many bytes of zeros. -/
def zeroFrame (n : Nat) : Eth := { dst := 0, src := 0, tag := none, body := zeros n, rx := 0, stamp := 0 }

theorem zeroFrame_len (n : Nat) : (zeroFrame n).len = n + 16 := by
  simp only [Eth.len, Eth.bytes, zeroFrame, List.length_append, toBe_length, zeros_length, List.length_nil]
  omega

/-- HSR pair 0 sends by ports 0 and 1. One frame stands in the queue of class 0 of port 0, whose entry of the sparse map comes
behind that of a higher key. -/
def crowdedState (e : Eth) : State := { regs := [(Reg.HSR_CFG.at [0], 0x40000000)], sw := { queues := [(16, []), (0, [e])] } }

section
variable {s : State} {e c : Eth}

theorem crowdedState_mode : (crowdedState e).fld .HSR_CFG [0] .HSR_CFG_MODE = 1 := by
  have h : (crowdedState e).reg .HSR_CFG [0] = 0x40000000 := by simp only [State.reg, crowdedState, SMap.find, if_true, Option.getD_some]
  rw [State.fld, h]
  decide

/-- A frame finds room while the whole frame memory has it, where the plan gives no shares. -/
theorem State.fits_of_no_shares {p k n : Nat} (hs : s.sw.tables.shares = []) (hp : s.sw.tables.portShares = []) :
    s.fits p k n = decide (s.memUsed (fun _ => true) + n ≤ frameMem) := by
  have hle (f : Nat → Bool) : s.memUsed f ≤ s.memUsed fun _ => true :=
    List.sum_le_sum fun x _ => by split <;> simp
  have h1 := hle fun x => x == p * 8 + k
  have h2 := hle fun x => x / 8 == p
  simp only [State.fits, State.share, State.portShare, hs, hp, List.find?_nil, Option.map_none, Option.getD_none]
  rw [Bool.eq_iff_iff]
  simp only [Bool.and_eq_true, decide_eq_true_eq]
  omega

theorem State.memUsed_crowded (h : s.sw.queues = (crowdedState e).sw.queues) : s.memUsed (fun _ => true) = e.len := by
  rw [State.memUsed, h]
  simp [crowdedState]

/-- The first copy's queue is put in front of the old entry of its key, which stays: the frame memory in use has both. -/
theorem State.memUsed_crowded_first (h : s.sw.queues = (crowdedState e).sw.queues) :
    (s.setQueue 0 0 (s.swQueue 0 0 ++ [c])).memUsed (fun _ => true) = 2 * e.len + c.len := by
  have hq : s.swQueue 0 0 = [e] := by rw [State.swQueue, h]; rfl
  simp only [State.memUsed, hq, State.setQueue, State.setSw, h, crowdedState, SMap.set]
  simp [SMap.insert]
  omega

/-- The copy for port 1 finds no room. -/
theorem State.redunSend_crowded {f : Eth} (hq : s.sw.queues = (crowdedState e).sw.queues) (hs : s.sw.tables.shares = [])
    (hp : s.sw.tables.portShares = []) (hf : f.len = 64) (hrx : f.rx = 12) (he : e.len + 70 ≤ frameMem) (he' : frameMem < 2 * e.len + 140) :
    s.redunSend 0 1 0 f =
      (s.numbered 0 f).setQueue 0 0 ((s.numbered 0 f).swQueue 0 0 ++ [hsrCopy 0 (s.redun 0).seq f]) := by
  have hlen (lan : Nat) : (hsrCopy lan (s.redun 0).seq f).len = 70 := by rw [hsrCopy_len, hf]
  have hlim (p lan : Nat) : (hsrCopy lan (s.redun 0).seq f).len ≤ portLimit p := by rw [hlen, portLimit]; split <;> omega
  have hu : (s.numbered 0 f).sw.queues = (crowdedState e).sw.queues := hq
  have h0 : (s.numbered 0 f).fits 0 0 (hsrCopy 0 (s.redun 0).seq f).len = true := by
    rw [State.fits_of_no_shares (s := s.numbered 0 f) hs hp, State.memUsed_crowded hu, hlen]
    exact decide_eq_true he
  have h1 : ((s.numbered 0 f).setQueue 0 0 ((s.numbered 0 f).swQueue 0 0 ++ [hsrCopy 0 (s.redun 0).seq f])).fits 1 0
      (hsrCopy 1 (s.redun 0).seq f).len = false := by
    rw [State.fits_of_no_shares (s := (s.numbered 0 f).setQueue 0 0 _) hs hp, State.memUsed_crowded_first hu, hlen, hlen]
    exact decide_eq_false (by omega)
  rw [State.redunSend_hsr, Nat.mul_zero, State.enqueue_fits (by decide) (hlim _ _) h0, State.enqueue_full (hlim _ _) h1]
  exact if_neg (by simp [hsrCopy, hrx])

theorem exec_crowdedState (he : e.len + 70 ≤ frameMem) (he' : frameMem < 2 * e.len + 140) :
    ∃ t, exec (.supervisionFrameSend 0) (crowdedState e) = .next t ∧ t.swQueue 1 0 = [] := by
  have hx := exec_supervisionFrameSend_hsr (s := crowdedState e) (i := 0) crowdedState_mode (Nat.le_refl _)
  refine ⟨_, hx, ?_⟩
  have hsend := State.redunSend_crowded (s := (crowdedState e).supervised 0) (e := e) (f := supervision 1 0 0) rfl rfl rfl
    (supervision_len _ _ _) rfl he he'
  refine (congrArg (fun x => (x.redunSilent 0).swQueue 1 0) hsend).trans ?_
  rw [State.redunSilent_of_no_nodes]
  · exact State.swQueue_setQueue_other _ _ (by decide) (by decide) (.inl (by decide))
  · rw [State.redun_setQueue, State.nodes_numbered, State.nodes_supervised]
    rfl

end

/-- Refutes O44: the statement is about every state, also one whose sparse map of the queues has its keys out of order. The first copy of
a supervision frame is put in front of the old entry of its queue, whose frames still count, and the second finds no room. The clause
lacks the hypothesis that the map is in its canonical form (`SMap.wf`). -/
theorem not_switchEvents : ¬ Obligations.SwitchEvents := by
  unfold Obligations.SwitchEvents
  intro h
  let e := zeroFrame (2 ^ 21)
  have he : e.len = 2 ^ 21 + 16 := zeroFrame_len _
  obtain ⟨-, -, -, -, -, -, hsup, -⟩ := h (crowdedState e) 0 0 0 ⟨[], 0, 0⟩ 0 0 0 0 false false 0
  obtain ⟨-, hdue⟩ := hsup (.inl crowdedState_mode)
  have hfits : (crowdedState e).fits 0 0 200 = true ∧ (crowdedState e).fits 1 0 200 = true := by
    rw [State.fits_of_no_shares rfl rfl, State.fits_of_no_shares rfl rfl, State.memUsed_crowded rfl, he]
    decide
  obtain ⟨t, ht, -, -, -, -, -, -, -, hq⟩ := hdue (Nat.le_refl _) (by simpa using hfits)
  obtain ⟨u, hu, hnone⟩ := exec_crowdedState (e := e) (by rw [he, frameMem]; omega) (by rw [he, frameMem]; omega)
  obtain rfl : t = u := by rw [ht] at hu; injection hu
  obtain ⟨y, hy, -⟩ := hq 1 (by decide)
  rw [hnone] at hy
  simp at hy

end Sys2Proof.Machine

/-! PROOFS. O45: PCI Express in both directions (R324 to R327). -/

namespace Sys2Proof.Machine

section
variable {s u : State} {c : CoreId} {d : DevLoad}

/-! ### The end of a Device load at its core (R126, R130, R213) -/

/-- R213: the load that has its data retires. -/
theorem State.loadDone_ends (v : Nat) (hd : (s.core c).devLoad = some d) (hh : (s.core c).haltReq = false)
    (hs : flag ((s.core c).reg .STATUS) .STATUS_SS = false) :
    GoesOn s (s.loadDone c v) c { (s.core c).putLoad d.kind d.rd v with devLoad := none } (s.core c).pc := by
  have hf := (Effect.first s c fun k => { (k.putLoad d.kind d.rd v) with devLoad := none }).onCore
    (.traceMem c _ false d.ea d.size (BitVec.ofNat 64 v))
  have e := hf.ends (retire_ends _ c (s.core c).pc ((s.core c).pc + 4) true
    (hf.core.haltReq.trans ((Core.putLoad_haltReq _ _ _ _).trans hh)))
  simp only [Bool.true_and] at e
  simp only [State.loadDone, hd, hs]
  exact e

/-- At a boundary where nothing is owed the core goes on. -/
theorem boundary_free (hm : (s.core c).mcheck = false) (ho : (s.core c).owed = none) (hi : (s.core c).irqReady = false)
    (hs : (s.core c).stepDue = false) : s.boundary c = (true, s) := by
  simp [State.boundary, hm, ho, hi, hs]

/-- R126, R130: the load that has none ends with a bus error, behind an acceptable interrupt. -/
theorem State.loadError_eq (hd : (s.core c).devLoad = some d) (hm : (s.core c).mcheck = false) (ho : (s.core c).owed = none)
    (hs : (s.core c).stepDue = false) (hl : (s.core c).long = none) :
    s.loadError c =
      if (s.core c).irqReady then (s.updCore c fun k => { k with devLoad := none }).interrupt c
      else (s.updCore c fun k => { k with devLoad := none }).raise c
        { cause := 0x0D, addr := d.ea, info := accInfo false false false false (lg2 d.size) } (s.core c).pc := by
  have hk : (s.updCore c fun k => { k with devLoad := none }).core c = { s.core c with devLoad := none } := State.core_updCore _ _ _
  have hi : ({ s.core c with devLoad := none } : Core).irqReady = (s.core c).irqReady := rfl
  simp only [State.loadError, hd]
  by_cases hr : (s.core c).irqReady = true
  · rw [boundary_interrupt (by rw [hk]; exact hm) (by rw [hk]; exact hl) (by rw [hk]; exact ho) (by rw [hk, hi]; exact hr), if_pos hr]
  · rw [boundary_free (by rw [hk]; exact hm) (by rw [hk]; exact ho) (by rw [hk, hi]; exact Bool.eq_false_iff.mpr hr) (by rw [hk]; exact hs),
      if_neg hr]
    simp only [hk]

/-! ### Outbound (R325) -/

/-- An older Device store to the same region keeps the later ones back. -/
theorem devOut_free {es : List StoreEntry} {r : Nat} (h : ∀ x ∈ es, s.devRegion x.pa ≠ r) : (es.any fun x => s.devRegion x.pa == r) = false := by
  simpa [List.any_eq_false] using h

theorem posted_sent {α : Type} (l : List α) : (if 64 ≤ l.length then l.drop 1 else l) = if l.length < 64 then l else l.tail := by
  by_cases h : l.length < 64
  · rw [if_neg (by omega), if_pos h]
  · rw [if_pos (by omega), if_neg h, List.drop_one]

theorem exec_pcieOutboundWrite {i : Nat} {e : StoreEntry} (he : (s.core c).devOut[i]? = some e) (hp : inPcie e.pa = true)
    (hf : ∀ x ∈ (s.core c).devOut.take i, s.devRegion x.pa ≠ s.devRegion e.pa) :
    exec (.pcieOutboundWrite c i) s =
      ok ((s.setCore c { s.core c with devOut := (s.core c).devOut.take i ++ (s.core c).devOut.drop (i + 1) }).pciePost (quadStop (quadOf c))
        e.pa e.size e.data e.pid) := by
  show execPcieOutboundWrite c i s = _
  simp only [execPcieOutboundWrite, he, hp, devOut_free hf, Bool.not_true, Bool.or_self, Bool.false_eq_true, if_false]

theorem State.pciePost_sent {stop pa size a : Nat} {data : Word} {pid : BitVec 29} (h : s.pcieAddr pa = some a) :
    s.pciePost stop pa size data pid = { s with pcie := { s.pcie with
      posted := (if s.pcie.posted.length < 64 then s.pcie.posted else s.pcie.posted.tail) ++ [(a, size, data)] } } := by
  simp only [State.pciePost, h, posted_sent]
  rfl

theorem State.pciePost_refused {stop pa size : Nat} {data : Word} {pid : BitVec 29} (h : s.pcieAddr pa = none) :
    s.pciePost stop pa size data pid = s.addrErr stop true s.pcieErrKind pa pid := by
  simp only [State.pciePost, h]

theorem completes_pcieOutboundRead {a : Nat} (hd : (s.core c).devLoad = some d) (hp : inPcie d.pa = true) (ha : s.devAhead c d.pa = false)
    (hr : c.val ∉ s.pcie.reads) (hx : s.pcieAddr d.pa = some a) :
    Completes (.pcieOutboundRead c) s fun t => t = { s with pcie := t.pcie } ∧ t.pcie.posted = [] ∧ c.val ∈ t.pcie.reads := by
  have e : exec (.pcieOutboundRead c) s = execPcieOutboundRead c s := rfl
  have hc : s.pcie.reads.contains c.val = false := by simpa using hr
  simp only [execPcieOutboundRead, hd, hp, ha, hc, hx, Bool.not_true, Bool.or_self, Bool.false_eq_true, if_false] at e
  exact completes_ok e ⟨rfl, rfl, mem_insertRising_self _ _⟩

section
variable {data : BitVec 64} {up : Bool} (hr : c.val ∈ s.pcie.reads)
include hr

theorem exec_readCompletion_data (hd : (s.core c).devLoad = some d) :
    exec (.pcieReadCompletion c { refused := false } data) s =
      ok ((s.setPcie fun p => { p with reads := p.reads.erase c.val }).loadDone c (data.toNat % 256 ^ d.size)) := by
  have hd' : ((s.setPcie fun p => { p with reads := p.reads.erase c.val }).core c).devLoad = some d := hd
  show execPcieReadCompletion c { refused := false } data s = _
  simp [execPcieReadCompletion, hr, hd']

theorem exec_readCompletion_badEcrc : exec (.pcieReadCompletion c { refused := up, tlp := .badEcrc } data) s = ok s.aerNonFatal := by
  show execPcieReadCompletion c { refused := up, tlp := .badEcrc } data s = _
  simp [execPcieReadCompletion, hr]

theorem exec_readCompletion_refused :
    exec (.pcieReadCompletion c { refused := true } data) s = ok ((s.setPcie fun p => { p with reads := p.reads.erase c.val }).loadError c) := by
  show execPcieReadCompletion c { refused := true } data s = _
  simp [execPcieReadCompletion, hr]

theorem exec_readCompletion_poisoned :
    exec (.pcieReadCompletion c { refused := up, tlp := .poisoned } data) s =
      ok ((s.aerNonFatal.setPcie fun p => { p with reads := p.reads.erase c.val }).loadError c) := by
  show execPcieReadCompletion c { refused := up, tlp := .poisoned } data s = _
  simp [execPcieReadCompletion, hr]

theorem exec_completionTimeout :
    exec (.pcieCompletionTimeout c) s = ok ((s.aerNonFatal.setPcie fun p => { p with reads := p.reads.erase c.val }).loadError c) := by
  show execPcieCompletionTimeout c s = _
  simp [execPcieCompletionTimeout, hr]

end

/-! ### The windows of inbound requests (R326, R327) -/

theorem leNat_toLe (v n : Nat) : leNat (toLe v n) = v % 256 ^ n := by
  induction n generalizing v with
  | zero => simp [toLe, leNat, Nat.mod_one]
  | succ n ih =>
    rw [toLe, leNat, ih, BitVec.toNat_ofNat, Nat.pow_succ' (m := 256)]
    exact Nat.mod_mul.symm

variable {l : List Nat} {a n b0 slice : Nat} {w : PcieIn} {write : Bool} {bytes : List Byte} {addr : BitVec 64} {len : Fin 4097} {tlp : Tlp}

/-- A complex that is no endpoint has no BAR0. -/
theorem State.bar0_rootPort (h : s.pcieEnd = false) (a n : Nat) : s.bar0 a n = none := by
  simp only [State.bar0, h, Bool.not_false, if_true]

theorem State.bar0_unset (h : s.pcie.tables.bar0 = none) (a n : Nat) : s.bar0 a n = none := by
  simp only [State.bar0, h, ite_self]

section
variable (hl : l[(a - b0) / 4096]? = some slice) (hoff : a - b0 < 2 ^ 18) (h4 : (a - b0) % 4 = 0)
include hl hoff h4

/-- A word of BAR0 lies in the page of the slice that is named there. -/
theorem barPage_word (x : Nat) (hx : x < 4) : barPage (l.take 64) (a - b0 + x) = some (sliceBase + slice * 4096 + (a - b0 + x) % 4096, slice) := by
  have hd : (a - b0 + x) / 4096 = (a - b0) / 4096 := by omega
  simp only [barPage, hd, List.getElem?_take, if_pos (show (a - b0) / 4096 < 64 by omega), hl, Option.map_some]

omit hl hoff in
theorem pageChunk_word : pageChunk (sliceBase + slice * 4096 + (a - b0) % 4096) 4 = 4 := by
  have h : (sliceBase + slice * 4096 + (a - b0) % 4096) % 4 = 0 := by
    rw [sliceBase]
    omega
  simp only [pageChunk, h, show ¬ 8 ≤ 4 by decide, and_false, if_false, le_refl, and_self, if_true]

theorem State.bar0_word (he : s.pcieEnd = true) (hb : s.pcie.tables.bar0 = some (b0, l)) (ha : b0 ≤ a) :
    s.bar0 a 4 = some (l.take 64, a - b0) := by
  have h1 : a + 4 - 1 - b0 = a - b0 + 3 := by omega
  have h2 : a + 4 ≤ b0 + 2 ^ 18 := by omega
  simp only [State.bar0, he, hb, Bool.not_true, Bool.false_eq_true, if_false, h1, barPage_word hl hoff h4 3 (by decide), ha, h2,
    Option.isSome_some, and_self, if_true]

theorem State.barWrite_word (v : BitVec 32) :
    s.barWrite (l.take 64) 4 (a - b0) (toLe v.toNat 4) =
      s.unitWrite (.far (s.slicePid slice)) (sliceBase + slice * 4096 + (a - b0) % 4096) 4 v.toNat := by
  have hw : leNat (toLe v.toNat 4) = v.toNat := by rw [leNat_toLe]; exact Nat.mod_eq_of_lt v.isLt
  have hlen := toLe_length v.toNat 4
  have hp := barPage_word hl hoff h4 0 (by decide)
  rw [Nat.add_zero] at hp
  have hrest (t : State) : t.barWrite (l.take 64) 3 (a - b0 + 4) [] = t := by
    rw [State.barWrite]
    split <;> rfl
  have hne : (toLe v.toNat 4).isEmpty = false := rfl
  rw [State.barWrite, hp]
  simp only [hne, hlen, pageChunk_word h4, Bool.false_eq_true, if_false]
  rw [List.take_of_length_le hlen.le, List.drop_of_length_le hlen.le, hw, hrest]

theorem State.barRead_word {x : Nat}
    (hx : s.unitRead (.far (s.slicePid slice)) (sliceBase + slice * 4096 + (a - b0) % 4096) 4 = (x, u)) :
    s.barRead (l.take 64) 4 (a - b0) 4 = (toLe x 4, u) := by
  have hp := barPage_word hl hoff h4 0 (by decide)
  rw [Nat.add_zero] at hp
  have hrest (t : State) : t.barRead (l.take 64) 3 (a - b0 + 4) 0 = ([], t) := by
    rw [State.barRead]
    split <;> rfl
  rw [State.barRead, hp]
  simp only [show ¬ 4 = 0 by decide, if_false, pageChunk_word h4, hx, hrest, List.append_nil]

end

/-- The inbound windows of a complex that is no endpoint: the first that takes the request. -/
theorem State.inWindow_rootPort (h : s.pcieEnd = false) (a n : Nat) (write : Bool) :
    s.inWindow a n write = ((s.pcie.inWins.filterMap fun e => e.2).find? fun w =>
      decide (w.base ≤ a) && decide (a + n ≤ w.base + w.size) && if write then w.w else w.r).map fun w => (w, a - w.base) := by
  simp only [State.inWindow, h, Bool.not_false, if_true]

theorem State.inWindow_only (h : s.pcieEnd = false) (hw : s.pcie.inWins.filterMap (fun x => x.2) = [w]) (hb : w.base ≤ a)
    (hn : a + n ≤ w.base + w.size) (hr : (if write then w.w else w.r) = true) : s.inWindow a n write = some (w, a - w.base) := by
  simp only [State.inWindow_rootPort h, hw, List.find?_cons, hb, hn, hr, decide_true, Bool.and_self, Option.map_some]

theorem State.inWindow_none (h : s.pcieEnd = false)
    (hw : ∀ x ∈ s.pcie.inWins, ∀ y, x.2 = some y → a < y.base ∨ y.base + y.size < a + n ∨ y.r = false) : s.inWindow a n false = none := by
  rw [State.inWindow_rootPort h, Option.map_eq_none_iff, List.find?_eq_none]
  intro y hy
  obtain ⟨x, hx, hxy⟩ := List.mem_filterMap.mp hy
  have := hw x hx y hxy
  simp only [Bool.false_eq_true, if_false, Bool.and_eq_true, decide_eq_true_eq, not_and]
  rintro ⟨h1, h2⟩ hr
  obtain h | h | h := this
  · omega
  · omega
  · exact absurd (h.symm.trans hr) (by decide)

theorem State.inWindow_bar2 (h : s.pcieEnd = true) (hb : s.pcie.tables.bar2 = some (b0, slice)) (hw : s.pcie.inWins.get none slice = some w)
    (hb0 : b0 ≤ a) (hn : a + n ≤ b0 + w.size) (hr : w.r = true) : s.inWindow a n false = some (w, a - b0) := by
  simp only [State.inWindow, h, hb, hw, hb0, hn, hr, Bool.not_true, Bool.false_eq_true, if_false, Option.bind_some, and_self, if_true]

/-! ### Inbound requests -/

theorem exec_inbound_badEcrc (hon : s.pcieOn = true) : exec (.pcieInboundRequest write addr len bytes .badEcrc) s = ok s.aerNonFatal := by
  show execPcieInboundRequest write addr len bytes s .badEcrc = _
  simp only [execPcieInboundRequest, hon, Bool.not_true, Bool.false_eq_true, if_false, if_true]

section
variable (hon : s.pcieOn = true) (he : s.pcieEnd = true) (hb : s.pcie.tables.bar0 = some (b0, l)) (hle : b0 ≤ addr.toNat)
  (hoff : addr.toNat - b0 < 2 ^ 18) (h4 : (addr.toNat - b0) % 4 = 0) (hl : l[(addr.toNat - b0) / 4096]? = some slice)
include hon he hb hle hoff h4 hl

theorem exec_inboundWrite_bar0 (v : BitVec 32) :
    exec (.pcieInboundRequest true addr len (toLe v.toNat 4) .good) s =
      ok (s.unitWrite (.far (s.slicePid slice)) (sliceBase + slice * 4096 + (addr.toNat - b0) % 4096) 4 v.toNat) := by
  have h0 := State.bar0_word hl hoff h4 he hb hle
  show execPcieInboundRequest true addr len (toLe v.toNat 4) s .good = _
  simp [execPcieInboundRequest, hon, toLe_length, h0, State.barWrite_word hl hoff h4]

theorem exec_inboundWrite_bar0_poisoned (v : BitVec 32) :
    exec (.pcieInboundRequest true addr len (toLe v.toNat 4) .poisoned) s = ok s.aerNonFatal := by
  have h0 : s.aerNonFatal.bar0 addr.toNat 4 = some (l.take 64, addr.toNat - b0) := State.bar0_word hl hoff h4 he hb hle
  show execPcieInboundRequest true addr len (toLe v.toNat 4) s .poisoned = _
  simp [execPcieInboundRequest, hon, toLe_length, h0]

theorem exec_inboundRead_bar0 {x : Nat} (hn : len.val = 4)
    (hx : s.unitRead (.far (s.slicePid slice)) (sliceBase + slice * 4096 + (addr.toNat - b0) % 4096) 4 = (x, u)) :
    exec (.pcieInboundRequest false addr len [] .good) s = ok { u with answer := BitVec.ofNat 64 (x % 2 ^ 32) } := by
  have h0 := State.bar0_word hl hoff h4 he hb hle
  have hv : leNat ((toLe x 4).take 8) = x % 2 ^ 32 := by
    rw [List.take_of_length_le (by simp [toLe_length]), leNat_toLe, show 256 ^ 4 = 2 ^ 32 by decide]
  show execPcieInboundRequest false addr len [] s .good = _
  simp [execPcieInboundRequest, hon, hn, h0, State.barRead_word hl hoff h4 hx, hv]

end

theorem exec_inboundRead_window {off : Nat} {b : Bytes} {x : List Bool} (hon : s.pcieOn = true) (h0 : s.bar0 addr.toNat len.val = none)
    (hw : s.inWindow addr.toNat len.val false = some (w, off)) (hr : s.ioRead (w.pa + off) len.val 16 w.pid = (.ok b x, u)) :
    exec (.pcieInboundRequest false addr len [] .good) s = ok { u with answer := BitVec.ofNat 64 (leNat (b.take 8)) } := by
  show execPcieInboundRequest false addr len [] s .good = _
  simp only [execPcieInboundRequest, hon, h0, hw, hr, Bool.not_true, Bool.false_and, Bool.false_eq_true, if_false, reduceCtorEq]

theorem exec_inboundRead_refused (hon : s.pcieOn = true) (h0 : s.bar0 addr.toNat len.val = none)
    (hw : s.inWindow addr.toNat len.val false = none) :
    exec (.pcieInboundRequest false addr len [] .good) s = ok (s.pcieRefuse addr.toNat) := by
  show execPcieInboundRequest false addr len [] s .good = _
  simp only [execPcieInboundRequest, hon, h0, hw, Bool.not_true, Bool.false_and, Bool.false_eq_true, if_false, reduceCtorEq]

theorem exec_inboundWrite_window {off : Nat} (hon : s.pcieOn = true) (h0 : s.bar0 addr.toNat bytes.length = none)
    (hw : s.inWindow addr.toNat bytes.length true = some (w, off)) (hr : s.ioWrite (w.pa + off) bytes [] 16 w.pid = (some true, u)) :
    exec (.pcieInboundRequest true addr len bytes .good) s = ok u := by
  show execPcieInboundRequest true addr len bytes s .good = _
  simp [execPcieInboundRequest, hon, h0, hw, hr]

theorem exec_inboundWrite_poisoned {off : Nat} (hon : s.pcieOn = true) (h0 : s.bar0 addr.toNat bytes.length = none)
    (hw : s.inWindow addr.toNat bytes.length true = some (w, off))
    (hr : s.aerNonFatal.ioWrite (w.pa + off) bytes (bytes.map fun _ => true) 16 w.pid = (some true, u)) :
    exec (.pcieInboundRequest true addr len bytes .poisoned) s = ok u := by
  have h0' : s.aerNonFatal.bar0 addr.toNat bytes.length = none := h0
  have hw' : s.aerNonFatal.inWindow addr.toNat bytes.length true = some (w, off) := hw
  show execPcieInboundRequest true addr len bytes s .poisoned = _
  simp only [execPcieInboundRequest, hon, show (Tlp.poisoned == Tlp.poisoned) = true from rfl, h0', hw', hr, Bool.not_true, Bool.and_self,
    Bool.false_eq_true, if_false, if_true, reduceCtorEq]

theorem exec_pcieMsiWrite_granted {v : BitVec 32} (hon : s.pcieOn = true) (hv : v.toNat < s.pcie.msi.2) :
    exec (.pcieMsiWrite v) s = ok (s.srcSet (1024 + s.pcie.msi.1 + v.toNat)) := by
  show execPcieMsiWrite v s = _
  simp only [execPcieMsiWrite, hon, hv, Bool.not_true, Bool.false_eq_true, if_false, if_true]

theorem exec_pcieMsiWrite_other {v : BitVec 32} (hon : s.pcieOn = true) (hv : s.pcie.msi.2 ≤ v.toNat) :
    exec (.pcieMsiWrite v) s = ok { s with pcie := { s.pcie with errLog := s.pcie.errLog ++ [v.toNat] } } := by
  show execPcieMsiWrite v s = _
  simp only [execPcieMsiWrite, hon, Nat.not_lt.mpr hv, Bool.not_true, Bool.false_eq_true, if_false]
  rfl

/-! ### The link (R324, R327) -/

theorem completes_pcieLinkChange {up : Bool} {speed width : Fin 4} (hon : s.pcieOn = true) (hup : flag (s.reg .PCIE_LINK) .PCIE_LINK_UP ≠ up) :
    Completes (.pcieLinkChange up speed width) s fun t =>
      t = { s with regs := t.regs, pulses := s.pulses ++ [68] } ∧ flag (t.reg .PCIE_LINK) .PCIE_LINK_UP = up ∧
      flag (t.reg .PCIE_LINK) .PCIE_LINK_LINK_CHG = true ∧
      t.fld .PCIE_LINK [] .PCIE_LINK_SPEED = (if up then min speed.val (s.fld .PCIE_CTL [] .PCIE_CTL_SPEED) else 0) ∧
      t.fld .PCIE_LINK [] .PCIE_LINK_WIDTH = if up then min width.val (s.fld .PCIE_CTL [] .PCIE_CTL_WIDTH) else 0 := by
  have hu : (flag (s.reg .PCIE_LINK) .PCIE_LINK_UP == up) = false := beq_eq_false_iff_ne.mpr hup
  have hlt (x : Fin 4) (m : Nat) : (if up then min x.val m else 0) % 4 = if up then min x.val m else 0 :=
    Nat.mod_eq_of_lt (by split <;> omega)
  have e : exec (.pcieLinkChange up speed width) s = execPcieLinkChange up speed width s := rfl
  simp only [execPcieLinkChange, hon, hu, Bool.not_true, Bool.or_self, Bool.false_eq_true, if_false] at e
  refine completes_ok e ⟨rfl, ?_⟩
  have hreg (r : Word) : ((s.setReg .PCIE_LINK [] r).pulse 68).reg .PCIE_LINK = r := State.reg_setReg _ _ _ _
  simp only [State.fld, hreg]
  simp (disch := decide) only [flag_putBits_self, flag_putBits_of_disjoint, bits_putBits_self, bits_putBits_of_disjoint, testBit_b2n]
  exact ⟨trivial, rfl, hlt _ _, hlt _ _⟩

/-- Settles O45: what each event does where its transaction meets its window, its completion or its end. -/
theorem pciExpress : Obligations.PciExpress := by
  unfold Obligations.PciExpress
  intro s u c i a b0 slice l e d data addr len bytes w v up speed width
  refine ⟨fun he hp hf => ⟨fun ha => ?_, fun ha => ?_⟩, fun hd hp ha hr hx => ?_, fun hr hd => ⟨fun hh hs => ?_, ?_, fun hm ho hs hl => ?_⟩,
    fun hon he hb hle hoff h4 hl => ⟨?_, ?_, fun hn x hx => ?_⟩, fun hon he h0 h2 hw hb hn hr b x hx => ?_,
    fun hon => ⟨?_, fun he hw hb hn hr hx => ?_, fun he => ⟨fun hw hb hn hr hx => ?_, fun hw hb hn hr b x hx => ?_, fun hw => ?_⟩,
      fun hv => ?_, fun hv => ?_, fun hup => ?_⟩⟩
  · exact (exec_pcieOutboundWrite he hp hf).trans (congrArg ok (State.pciePost_sent ha))
  · exact (exec_pcieOutboundWrite he hp hf).trans (congrArg ok (State.pciePost_refused ha))
  · exact completes_pcieOutboundRead hd hp ha hr hx
  · exact completes_ok (exec_readCompletion_data hr hd) (State.loadDone_ends _ hd hh hs)
  · exact exec_readCompletion_badEcrc hr
  · exact ⟨(exec_readCompletion_refused hr).trans (congrArg ok (State.loadError_eq hd hm ho hs hl)),
      (exec_readCompletion_poisoned hr).trans (congrArg ok (State.loadError_eq hd hm ho hs hl)),
      (exec_completionTimeout hr).trans (congrArg ok (State.loadError_eq hd hm ho hs hl))⟩
  · exact exec_inboundWrite_bar0 hon he hb hle hoff h4 hl v
  · exact exec_inboundWrite_bar0_poisoned hon he hb hle hoff h4 hl v
  · exact exec_inboundRead_bar0 hon he hb hle hoff h4 hl hn hx
  · exact exec_inboundRead_window hon (State.bar0_unset h0 _ _) (State.inWindow_bar2 he h2 hw hb hn hr) hx
  · exact exec_inbound_badEcrc hon
  · exact exec_inboundWrite_poisoned hon (State.bar0_rootPort he _ _) (State.inWindow_only he hw hb hn hr) hx
  · exact exec_inboundWrite_window hon (State.bar0_rootPort he _ _) (State.inWindow_only he hw hb hn hr) hx
  · exact exec_inboundRead_window hon (State.bar0_rootPort he _ _) (State.inWindow_only he hw hb hn hr) hx
  · exact completes_ok (exec_inboundRead_refused hon (State.bar0_rootPort he _ _) (State.inWindow_none he hw))
      (by simp [State.pcieRefuse, State.aerNonFatal, State.pulse, State.setPcie])
  · exact exec_pcieMsiWrite_granted hon hv
  · exact exec_pcieMsiWrite_other hon hv
  · exact completes_pcieLinkChange hon hup

end

end Sys2Proof.Machine

/-! PROOFS. O46: the wires of the UARTs, the SPI and I²C controllers and the GPIO pins (R329 to R331, R333, R337 to R339). -/

namespace Sys2Proof.Machine

/-! ### Flags that an event raises -/

section
variable (w : Word) {f g : Fld} (b : Bool)

/-- A flag raised under a condition. -/
theorem flag_raised (h : f.lo ≤ f.hi) (h6 : f.hi < 64) : flag (if b = true then putBits w f 1 else w) f = (flag w f || b) := by
  cases b
  · simp
  · rw [if_pos rfl, flag_putBits_self _ _ h h6, Bool.or_true]
    rfl

theorem flag_raised_other (h : g.lo < f.lo ∨ f.hi < g.lo) (hg : g.lo < 64) : flag (if b = true then putBits w f 1 else w) g = flag w g := by
  split
  · exact flag_putBits_of_disjoint _ _ h hg
  · rfl

theorem State.reg_raised (s : State) (r : Reg) (i : List Nat) :
    (if b = true then s.setFld r i f 1 else s).reg r i = if b = true then putBits (s.reg r i) f 1 else s.reg r i := by
  split
  · exact State.reg_setFld ..
  · rfl

end

/-! ### What the events of the field serial ports touch -/

/-- Of two states only registers and the field serial ports differ. -/
def OnField (s t : State) : Prop := t = { s with regs := t.regs, low := t.low }

section
variable {s t u : State}

theorem OnField.refl (s : State) : OnField s s := rfl

theorem OnField.trans (h : OnField s t) (g : OnField t u) : OnField s u := by
  unfold OnField at *
  rw [h] at g
  exact g

theorem OnField.setReg (h : OnField s t) (r : Reg) (i : List Nat) (v : Word) : OnField s (t.setReg r i v) := h.trans rfl
theorem OnField.setFld (h : OnField s t) (r : Reg) (i : List Nat) (f : Fld) (v : Nat) : OnField s (t.setFld r i f v) := h.trans rfl
theorem OnField.setLow (h : OnField s t) (f : LowSpeed → LowSpeed) : OnField s (t.setLow f) := h.trans rfl

theorem OnField.ite {P : Prop} [Decidable P] (h : OnField s t) (g : OnField s u) : OnField s (if P then t else u) := by
  split
  · exact h
  · exact g

end

/-! ### UART (R329 to R331) -/

section
variable {s : State} {u : Fin 6}

theorem State.uart_raised (r : Reg) (i : List Nat) (f : Fld) (b : Bool) (n : Nat) :
    (if b = true then s.setFld r i f 1 else s).uart n = s.uart n := by
  split <;> rfl

theorem State.uart_setFld (r : Reg) (i : List Nat) (f : Fld) (v n : Nat) : (s.setFld r i f v).uart n = s.uart n := rfl

/-- R329: a character received enters the FIFO with its error marks, or is lost. -/
theorem completes_uartRxCharacter {data : BitVec 8} {perr ferr : Bool} (hon : s.uartOn u.val = true)
    (hd : flag (s.reg .UART_CFG [u.val]) .UART_CFG_RS485 = false ∨ (s.uart u.val).phase = .idle) :
    let cfg := s.reg .UART_CFG [u.val]
    let d : BitVec 8 := if flag cfg .UART_CFG_BITS7 then data &&& 0x7F else data
    let bad := perr && bits cfg .UART_CFG_PARITY != 0
    Completes (.uartRxCharacter u data perr ferr) s fun t => OnField s t ∧ (t.uart u.val).tx = (s.uart u.val).tx ∧
      flag (t.reg .UART_STAT [u.val]) .UART_STAT_PERR = (flag (s.reg .UART_STAT [u.val]) .UART_STAT_PERR || bad) ∧
      flag (t.reg .UART_STAT [u.val]) .UART_STAT_FERR = (flag (s.reg .UART_STAT [u.val]) .UART_STAT_FERR || ferr) ∧
      if (s.uart u.val).rx.length < 64 then
        (t.uart u.val).rx = (s.uart u.val).rx ++ [d.setWidth 10 ||| (if bad then 0x100 else 0) ||| (if ferr then 0x200 else 0)]
      else (t.uart u.val).rx = (s.uart u.val).rx ∧ flag (t.reg .UART_STAT [u.val]) .UART_STAT_OVR = true := by
  intro cfg d bad
  have hdrive : (s.uart u.val).driving (flag (s.reg .UART_CFG [u.val]) .UART_CFG_RS485) = false := by
    obtain h | h := hd <;> simp [Uart.driving, h]
  let s1 := if bad = true then s.setFld .UART_STAT [u.val] .UART_STAT_PERR 1 else s
  let s2 := if ferr = true then s1.setFld .UART_STAT [u.val] .UART_STAT_FERR 1 else s1
  have hf : OnField s s2 := ((OnField.refl s).setFld _ _ _ _ |>.ite (.refl s)).setFld _ _ _ _ |>.ite ((OnField.refl s).setFld _ _ _ _ |>.ite (.refl s))
  have hp : flag (s2.reg .UART_STAT [u.val]) .UART_STAT_PERR = (flag (s.reg .UART_STAT [u.val]) .UART_STAT_PERR || bad) := by
    rw [State.reg_raised, flag_raised_other _ _ (by decide) (by decide), State.reg_raised, flag_raised _ _ (by decide) (by decide)]
  have he : flag (s2.reg .UART_STAT [u.val]) .UART_STAT_FERR = (flag (s.reg .UART_STAT [u.val]) .UART_STAT_FERR || ferr) := by
    rw [State.reg_raised, flag_raised _ _ (by decide) (by decide), State.reg_raised, flag_raised_other _ _ (by decide) (by decide)]
  have e : exec (.uartRxCharacter u data perr ferr) s = execUartRxCharacter u data perr ferr s := rfl
  simp only [execUartRxCharacter, hon, hdrive, Bool.not_true, Bool.or_self, Bool.false_eq_true, if_false] at e
  by_cases hl : (s.uart u.val).rx.length < 64
  · rw [if_neg (Nat.not_le.mpr hl)] at e
    refine completes_ok e ⟨hf.setLow _, ?_, hp, he, ?_⟩
    · rw [State.uart_setUart]
    · rw [if_pos hl, State.uart_setUart]
  · rw [if_pos (Nat.not_lt.mp hl)] at e
    refine completes_ok e ⟨(hf.setLow _).setFld _ _ _ _, ?_, ?_, ?_, ?_⟩
    · rw [State.uart_setFld, State.uart_setUart]
    · rw [State.reg_setFld, flag_putBits_of_disjoint _ _ (by decide) (by decide)]
      exact hp
    · rw [State.reg_setFld, flag_putBits_of_disjoint _ _ (by decide) (by decide)]
      exact he
    · rw [if_neg hl, State.uart_setFld, State.uart_setUart]
      refine ⟨rfl, ?_⟩
      rw [State.reg_setFld, flag_putBits_self _ _ (by decide) (by decide)]
      rfl

theorem Uart.shift_cons {x : Uart} {b : Byte} {r : List Byte} (h : x.tx = b :: r) :
    x.shift = { x with tx := r, shifting := some b, phase := .active } := by
  simp only [Uart.shift, h]

/-- R330: the transmitter goes on with the next character, or the tail begins. -/
theorem completes_uartTxCharacter {b : Byte} {r : Bytes} (hon : s.uartOn u.val = true) (ha : (s.uart u.val).phase = .active) :
    Completes (.uartTxCharacter u) s fun t => t = { s with low := t.low } ∧ (t.uart u.val).rx = (s.uart u.val).rx ∧
      ((s.uart u.val).tx = b :: r → (t.uart u.val).tx = r ∧ (t.uart u.val).shifting = some b ∧ (t.uart u.val).phase = .active) ∧
      ((s.uart u.val).tx = [] → (t.uart u.val).shifting = none ∧ (t.uart u.val).sent = true ∧
        (t.uart u.val).phase = if flag (s.reg .UART_CFG [u.val]) .UART_CFG_RS485 then .tail else .idle) := by
  have e : exec (.uartTxCharacter u) s = execUartTxCharacter u s := rfl
  simp only [execUartTxCharacter, hon, ha, Bool.not_true, Bool.false_eq_true, if_false, if_true] at e
  cases htx : (s.uart u.val).tx with
  | nil =>
    simp only [htx, List.isEmpty_nil, if_true] at e
    refine completes_ok e ⟨rfl, ?_⟩
    rw [State.uart_setUart]
    exact ⟨rfl, nofun, fun _ => ⟨rfl, rfl, rfl⟩⟩
  | cons a l =>
    simp only [htx, List.isEmpty_cons, Bool.false_eq_true, if_false] at e
    refine completes_ok e ⟨rfl, ?_⟩
    rw [State.uart_setUart, Uart.shift_cons htx]
    refine ⟨rfl, fun h => ?_, nofun⟩
    obtain ⟨rfl, rfl⟩ := List.cons.inj h
    exact ⟨rfl, rfl, rfl⟩

theorem completes_deLeadExpiry {b : Byte} {r : Bytes} (hl : (s.uart u.val).phase = .lead) (htx : (s.uart u.val).tx = b :: r) :
    Completes (.deLeadExpiry u) s fun t => t = { s with low := t.low } ∧ (t.uart u.val).phase = .active ∧
      (t.uart u.val).shifting = some b ∧ (t.uart u.val).tx = r := by
  have e : exec (.deLeadExpiry u) s = execDeLeadExpiry u s := rfl
  simp only [execDeLeadExpiry, hl, if_true] at e
  refine completes_ok e ⟨rfl, ?_⟩
  rw [State.uart_setUart, Uart.shift_cons htx]
  exact ⟨rfl, rfl, rfl⟩

theorem completes_deTailExpiry (hl : (s.uart u.val).phase = .tail) :
    Completes (.deTailExpiry u) s fun t => t = { s with low := t.low } ∧ t.uart u.val = { s.uart u.val with phase := .idle } := by
  have e : exec (.deTailExpiry u) s = execDeTailExpiry u s := rfl
  simp only [execDeTailExpiry, hl, if_true] at e
  exact completes_ok e ⟨rfl, State.uart_setUart _ _ _⟩

theorem completes_uartIdleDetect (hon : s.uartOn u.val = true) (hh : (s.uart u.val).heard = true)
    (hb : bits (s.reg .UART_CFG [u.val]) .UART_CFG_IDLE_BITS ≠ 0) :
    Completes (.uartIdleDetect u) s fun t =>
      t = { s with regs := t.regs, low := t.low, pulses := s.pulses ++ [96 + u.val] } ∧ t.uart u.val = { s.uart u.val with heard := false } ∧
      flag (t.reg .UART_STAT [u.val]) .UART_STAT_IDLE = true := by
  have e : exec (.uartIdleDetect u) s = execUartIdleDetect u s := rfl
  simp only [execUartIdleDetect, hon, hh, beq_false_of_ne hb, Bool.not_true, Bool.or_self, Bool.false_eq_true, if_false] at e
  refine completes_ok e ⟨rfl, State.uart_setUart _ _ _, ?_⟩
  exact (congrArg (flag · .UART_STAT_IDLE) (State.reg_setFld _ _ _ _ _)).trans (flag_putBits_self _ _ (by decide) (by decide))

end

/-! ### SPI (R337) -/

section
variable {s : State} {k : Fin 4} {data : BitVec 8} {b : Byte} {r : Bytes}

theorem completes_spiByte (hp : s.pdUp 106 = true) (hb : s.spiBusy k.val = true) (hl : (s.spi k.val).left ≠ 0) (ht : (s.spi k.val).tx = b :: r)
    (hr : (s.spi k.val).rx.length < 64) :
    Completes (.spiByte k data) s fun t => t = { s with low := t.low } ∧
      t.spi k.val = { s.spi k.val with tx := r, rx := (s.spi k.val).rx ++ [data], left := (s.spi k.val).left - 1 } := by
  have e : exec (.spiByte k data) s = execSpiByte k data s := rfl
  simp only [execSpiByte, hp, hb, ht, beq_false_of_ne hl, decide_eq_false (Nat.not_le.mpr hr), List.isEmpty_cons, Bool.not_true, Bool.or_self,
    Bool.false_eq_true, if_false] at e
  exact completes_ok e ⟨rfl, State.spi_setSpi _ _ _⟩

theorem completes_spiTransferDone (hp : s.pdUp 106 = true) (hb : s.spiBusy k.val = true) (hl : (s.spi k.val).left = 0) :
    Completes (.spiTransferDone k) s fun t => OnField s t ∧ t.spiBusy k.val = false ∧
      flag (t.reg .SPI_STAT [k.val]) .SPI_STAT_DONE = true ∧
      t.spi k.val = { s.spi k.val with cs := if (s.spi k.val).hold then (s.spi k.val).cs else none } := by
  have e : exec (.spiTransferDone k) s = execSpiTransferDone k s := rfl
  have h0 : ((s.spi k.val).left != 0) = false := bne_eq_false_iff_eq.mpr hl
  simp only [execSpiTransferDone, hp, hb, h0, Bool.not_true, Bool.or_self, Bool.false_eq_true, if_false] at e
  refine completes_ok e ⟨rfl, ?_, ?_, State.spi_setSpi _ _ _⟩
  · rw [State.spiBusy, State.reg_setReg, flag_putBits_of_disjoint _ _ (by decide) (by decide), flag_putBits_self _ _ (by decide) (by decide)]
    rfl
  · rw [State.reg_setReg, flag_putBits_self _ _ (by decide) (by decide)]
    rfl

end

/-! ### I²C (R338) -/

section
variable {s : State} {k : Fin 4} {data : BitVec 8} {b : Byte} {r : Bytes} {nack arb : Bool}

section
variable (hp : s.pdUp 106 = true) (he : flag (s.reg .I2C_CFG [k.val]) .I2C_CFG_EN = true)
  (hc : flag (s.reg .I2C_CFG [k.val]) .I2C_CFG_TARGET = false) (ha : s.i2cActive k.val = true)
include hp he hc ha

theorem completes_i2cByte_read (hl : (s.i2c k.val).left ≠ 0) (hr : (s.i2c k.val).read = true) (hroom : (s.i2c k.val).rx.length < 64) :
    Completes (.i2cByte k data) s fun t => t = { s with low := t.low } ∧
      t.i2c k.val = { s.i2c k.val with rx := (s.i2c k.val).rx ++ [data], left := (s.i2c k.val).left - 1 } := by
  have e : exec (.i2cByte k data) s = execI2cByte k data s := rfl
  simp only [execI2cByte, hp, he, hc, ha, beq_false_of_ne hl, Bool.not_true, Bool.or_self, Bool.false_eq_true, if_false] at e
  rw [if_pos hr, if_pos (decide_eq_true hroom)] at e
  exact completes_ok e ⟨rfl, State.i2c_setI2c _ _ _⟩

theorem completes_i2cByte_write (hl : (s.i2c k.val).left ≠ 0) (hr : (s.i2c k.val).read = false) (ht : (s.i2c k.val).tx = b :: r) :
    Completes (.i2cByte k data) s fun t => t = { s with low := t.low } ∧
      t.i2c k.val = { s.i2c k.val with tx := r, left := (s.i2c k.val).left - 1 } := by
  have e : exec (.i2cByte k data) s = execI2cByte k data s := rfl
  simp only [execI2cByte, hp, he, hc, ha, ht, beq_false_of_ne hl, List.isEmpty_cons, Bool.not_true, Bool.or_self, Bool.false_eq_true,
    if_false] at e
  rw [if_neg (by simp [hr])] at e
  exact completes_ok e ⟨rfl, State.i2c_setI2c _ _ _⟩

omit he in
theorem completes_i2cCommandEnd (hend : nack = true ∨ arb = true ∨ (s.i2c k.val).left = 0) :
    Completes (.i2cCommandEnd k nack arb) s fun t => OnField s t ∧
      flag (t.reg .I2C_STAT [k.val]) .I2C_STAT_DONE = true ∧ (t.i2c k.val).left = 0 ∧ t.i2cActive k.val = false ∧
      flag (t.reg .I2C_STAT [k.val]) .I2C_STAT_NACK = (flag (s.reg .I2C_STAT [k.val]) .I2C_STAT_NACK || nack) ∧
      flag (t.reg .I2C_STAT [k.val]) .I2C_STAT_ARB = (flag (s.reg .I2C_STAT [k.val]) .I2C_STAT_ARB || arb) ∧
      flag (t.reg .I2C_STAT [k.val]) .I2C_STAT_BUSY = (!nack && !arb && !(s.i2c k.val).stop) := by
  have e : exec (.i2cCommandEnd k nack arb) s = execI2cCommandEnd k nack arb s := rfl
  have hn : (!nack && !arb && (s.i2c k.val).left != 0) = false := by
    obtain rfl | rfl | h := hend
    · rfl
    · rw [Bool.not_true, Bool.and_false, Bool.false_and]
    · rw [h, bne_self_eq_false, Bool.and_false]
  simp only [execI2cCommandEnd, hp, hc, ha, hn, Bool.and_false, Bool.not_true, Bool.or_self, Bool.false_eq_true, if_false] at e
  have hleft := congrArg (fun x => (x.left, x.held))
    (State.i2c_setI2c s k.val { s.i2c k.val with left := 0, held := !nack && !arb && !(s.i2c k.val).stop })
  obtain ⟨hleft, hheld⟩ := Prod.mk.inj hleft
  refine completes_ok e ⟨rfl, ?_, hleft, ?_, ?_, ?_, ?_⟩
  case refine_2 =>
    rw [State.i2cActive, State.reg_setReg]
    simp (disch := decide) only [flag_raised_other, flag_putBits_self, testBit_b2n]
    exact (congrArg (_ && !·) hheld).trans (Bool.and_not_self _)
  all_goals
    rw [State.reg_setReg]
    simp (disch := decide) only [flag_raised_other, flag_raised, flag_putBits_of_disjoint, flag_putBits_self, testBit_b2n]
  rfl

end

theorem completes_i2cTargetMatch_same {addr : Fin 1024} {a10 read : Bool} (hp : s.pdUp 106 = true)
    (he : flag (s.reg .I2C_CFG [k.val]) .I2C_CFG_EN = true) (hc : flag (s.reg .I2C_CFG [k.val]) .I2C_CFG_TARGET = true) :
    let own := bits (s.reg .I2C_CFG [k.val]) .I2C_CFG_TADDR
    let same := a10 = flag (s.reg .I2C_CFG [k.val]) .I2C_CFG_A10 ∧ (if a10 then addr.val = own % 1024 else addr.val % 128 = own % 128)
    (same → Completes (.i2cTargetMatch k addr a10 read) s fun t => OnField s t ∧ (t.i2c k.val).tgt = some read ∧
      flag (t.reg .I2C_STAT [k.val]) .I2C_STAT_ADDRD = true) ∧
    (¬ same → Completes (.i2cTargetMatch k addr a10 read) s fun t => t = { s with low := t.low } ∧ t.i2c k.val = { s.i2c k.val with tgt := none }) := by
  intro own same
  have e : exec (.i2cTargetMatch k addr a10 read) s = execI2cTargetMatch k addr s a10 read := rfl
  have hown : own < 1024 := Nat.mod_lt _ (by decide)
  have hsame : (a10 = flag (s.reg .I2C_CFG [k.val]) .I2C_CFG_A10 ∧
      (if a10 = true then addr.val else addr.val % 128) = if a10 = true then own else own % 128) ↔ same := by
    refine and_congr_right fun _ => ?_
    cases a10
    · rfl
    · simp only [if_true, Nat.mod_eq_of_lt hown]
  simp only [execI2cTargetMatch, hp, he, hc, Bool.not_true, Bool.or_self, Bool.false_eq_true, if_false] at e
  refine ⟨fun h => ?_, fun h => ?_⟩
  · rw [if_pos (hsame.mpr h)] at e
    refine completes_ok e ⟨rfl, congrArg I2c.tgt (State.i2c_setI2c _ _ _), ?_⟩
    rw [State.reg_setFld, flag_putBits_self _ _ (by decide) (by decide)]
    rfl
  · rw [if_neg (mt hsame.mp h)] at e
    exact completes_ok e ⟨rfl, State.i2c_setI2c _ _ _⟩

theorem completes_i2cCommandEnd_target (hp : s.pdUp 106 = true) (hc : flag (s.reg .I2C_CFG [k.val]) .I2C_CFG_TARGET = true) :
    Completes (.i2cCommandEnd k nack arb) s fun t => t = { s with low := t.low } ∧ t.i2c k.val = { s.i2c k.val with tgt := none } := by
  have e : exec (.i2cCommandEnd k nack arb) s = execI2cCommandEnd k nack arb s := rfl
  simp only [execI2cCommandEnd, hp, hc, Bool.and_self, if_true] at e
  exact completes_ok e ⟨rfl, State.i2c_setI2c _ _ _⟩

end

/-! ### GPIO (R333, R339) -/

/-- The pins whose bit is set one by one. -/
theorem getLsbD_foldl_range_set (p : Nat → Bool) {n j : Nat} (hn : n ≤ 64) :
    ((List.range n).foldl (fun (a : Word) i => if p i = true then a ||| BitVec.ofNat 64 (2 ^ i) else a) 0).getLsbD j = (decide (j < n) && p j) := by
  induction n with
  | zero => simp
  | succ n ih =>
    have hbit : (BitVec.ofNat 64 (2 ^ n)).getLsbD j = decide (n = j) := by
      rw [BitVec.getLsbD_ofNat, Nat.testBit_two_pow]
      by_cases h : n = j
      · subst h
        simp [show n < 64 by omega]
      · simp [h]
    rw [List.range_succ, List.foldl_append, List.foldl_cons, List.foldl_nil]
    by_cases hj : n = j
    · subst hj
      have h0 := ih (by omega)
      rw [decide_eq_false (lt_irrefl n), Bool.false_and] at h0
      rw [decide_eq_true (Nat.lt_succ_self n), Bool.true_and]
      split
      · next h => rw [BitVec.getLsbD_or, hbit, decide_eq_true rfl, Bool.or_true, h]
      · next h => rw [h0, Bool.eq_false_iff.mpr h]
    · have hlt : decide (j < n + 1) = decide (j < n) := by
        rw [decide_eq_decide]
        omega
      split
      · rw [BitVec.getLsbD_or, hbit, ih (by omega), hlt, decide_eq_false hj, Bool.or_false]
      · rw [ih (by omega), hlt]

/-- Whether a change of a pin's level meets its interrupt condition (R339). -/
def edgeMet (mode : Nat) (old new : Bool) : Bool := (!old && new && (mode == 1 || mode == 3)) || (old && !new && (mode == 2 || mode == 3))

theorem edgeMet_same (mode : Nat) (b : Bool) : edgeMet mode b b = false := by cases b <;> rfl

/-- The levels of a bank of 32 pins. -/
def bankLevels (p : BitVec 64) (g : Nat) : Word := BitVec.ofNat 64 (p.toNat / 2 ^ (32 * g) % 2 ^ 32)

theorem getLsbD_bankLevels (p : BitVec 64) (g : Nat) {i : Nat} (hi : i < 32) : (bankLevels p g).getLsbD i = p.getLsbD (32 * g + i) := by
  rw [bankLevels, BitVec.getLsbD_ofNat, Nat.testBit_mod_two_pow, Nat.testBit_div_two_pow, BitVec.testBit_toNat, decide_eq_true hi,
    decide_eq_true (show i < 64 by omega), Bool.true_and, Bool.true_and, Nat.add_comm]

section
variable {s : State} (p : BitVec 64)

theorem State.gpioIn_gpioBank (g : Nat) : (s.gpioBank p g).reg .GPIO_IN [g] = bankLevels p g := by
  unfold State.gpioBank
  dsimp only
  split
  · next h => exact h
  · rw [State.reg_setReg_other _ _ _ _ _ _ (by rw [gpioIn_at, gpioIstat_at]; omega), State.reg_setReg]
    rfl

theorem State.gpioIstat_gpioBank (g : Nat) {i : Nat} (hi : i < 32) :
    ((s.gpioBank p g).reg .GPIO_ISTAT [g]).getLsbD i = ((s.reg .GPIO_ISTAT [g]).getLsbD i ||
      edgeMet (s.fld .GPIO_ICFG [32 * g + i] .GPIO_ICFG_MODE) ((s.reg .GPIO_IN [g]).getLsbD i) ((bankLevels p g).getLsbD i)) := by
  have hnew : BitVec.ofNat 64 (p.toNat / 2 ^ (32 * g) % 2 ^ 32) = bankLevels p g := rfl
  unfold State.gpioBank
  dsimp only
  rw [hnew]
  split
  · next h => rw [h, edgeMet_same, Bool.or_false]
  · rw [State.reg_setReg, BitVec.getLsbD_or]
    have := getLsbD_foldl_range_set (fun i => edgeMet (s.fld .GPIO_ICFG [32 * g + i] .GPIO_ICFG_MODE)
      ((s.reg .GPIO_IN [g]).getLsbD i) ((bankLevels p g).getLsbD i)) (n := 32) (j := i) (by decide)
    rw [decide_eq_true hi, Bool.true_and] at this
    exact congrArg (_ || ·) this

theorem gpioIcfg_at (n : Nat) : Reg.GPIO_ICFG.at [n] = 0x3009020100 + 4 * n := rfl

section
variable {g g' : Nat}

/-- Sampling a bank leaves the other's registers, and every pin's interrupt mode. -/
theorem State.gpioIn_gpioBank_other (h : g' ≠ g) (hg : g < 2) (hg' : g' < 2) : (s.gpioBank p g).reg .GPIO_IN [g'] = s.reg .GPIO_IN [g'] :=
  State.reg_gpioBank_other _ _ (by rw [gpioIn_at, gpioIn_at]; omega) (by rw [gpioIn_at, gpioIstat_at]; omega)

theorem State.gpioIstat_gpioBank_other (h : g' ≠ g) (hg : g < 2) (hg' : g' < 2) :
    (s.gpioBank p g).reg .GPIO_ISTAT [g'] = s.reg .GPIO_ISTAT [g'] :=
  State.reg_gpioBank_other _ _ (by rw [gpioIstat_at, gpioIn_at]; omega) (by rw [gpioIstat_at, gpioIstat_at]; omega)

theorem State.gpioIcfg_gpioBank (hg : g < 2) (n : Nat) (f : Fld) : (s.gpioBank p g).fld .GPIO_ICFG [n] f = s.fld .GPIO_ICFG [n] f := by
  rw [State.fld, State.reg_gpioBank_other _ _ (by rw [gpioIcfg_at, gpioIn_at]; omega) (by rw [gpioIcfg_at, gpioIstat_at]; omega), State.fld]

end

/-- What sampling the pins leaves of a pin's registers. -/
theorem State.gpioSample_pin (hp : s.pdUp 106 = true) (n : Fin 64) :
    (s.gpioSample.reg .GPIO_IN [n.val / 32]).getLsbD (n.val % 32) = s.gpioPins.getLsbD n.val ∧
    (s.gpioSample.reg .GPIO_ISTAT [n.val / 32]).getLsbD (n.val % 32) = ((s.reg .GPIO_ISTAT [n.val / 32]).getLsbD (n.val % 32) ||
      edgeMet (s.fld .GPIO_ICFG [n.val] .GPIO_ICFG_MODE) ((s.reg .GPIO_IN [n.val / 32]).getLsbD (n.val % 32)) (s.gpioPins.getLsbD n.val)) := by
  have hi : n.val % 32 < 32 := Nat.mod_lt _ (by decide)
  have hn : 32 * (n.val / 32) + n.val % 32 = n.val := Nat.div_add_mod _ _
  have hlevel := getLsbD_bankLevels s.gpioPins (n.val / 32) hi
  have hstat (x : State) := x.gpioIstat_gpioBank s.gpioPins (n.val / 32) hi
  simp only [hn] at hlevel hstat
  simp only [hlevel] at hstat
  rw [State.gpioSample_eq, hp, Bool.not_true, if_neg (by decide)]
  have hg : n.val / 32 = 0 ∨ n.val / 32 = 1 := by omega
  obtain hg | hg := hg <;> rw [hg] at hstat hlevel ⊢
  · rw [State.gpioIn_gpioBank_other _ (by decide) (by decide) (by decide), State.gpioIstat_gpioBank_other _ (by decide) (by decide) (by decide),
      State.gpioIn_gpioBank]
    exact ⟨hlevel, hstat s⟩
  · rw [State.gpioIn_gpioBank, hstat, State.gpioIn_gpioBank_other _ (by decide) (by decide) (by decide),
      State.gpioIstat_gpioBank_other _ (by decide) (by decide) (by decide), State.gpioIcfg_gpioBank _ (by decide)]
    exact ⟨hlevel, rfl⟩

/-- A pin's bit in a pair of 32-bit registers. -/
theorem getLsbD_pair {a b : Word} (ha : a.toNat < 2 ^ 32) (n : Fin 64) :
    (BitVec.ofNat 64 (a.toNat + b.toNat * 2 ^ 32)).getLsbD n.val = if n.val < 32 then a.getLsbD n.val else b.getLsbD (n.val - 32) := by
  rw [BitVec.getLsbD_ofNat, decide_eq_true n.isLt, Bool.true_and, Nat.add_comm, Nat.mul_comm, Nat.testBit_two_pow_mul_add _ ha]
  rfl

/-- What a pin drives, or what the board drives it to (R333). -/
theorem State.getLsbD_gpioPins (hh : flag (s.reg .PAD_HOLD) .PAD_HOLD_IO33 = false)
    (hq : ∀ q ∈ [Reg.GPIO_OE, .GPIO_OD, .GPIO_OUT], ∀ i < 2, (s.reg q [i]).toNat < 2 ^ 32) (n : Fin 64) :
    let bit (q : Reg) : Bool := (s.reg q [n.val / 32]).getLsbD (n.val % 32)
    s.gpioPins.getLsbD n.val = if bit .GPIO_OE && !(bit .GPIO_OD && bit .GPIO_OUT) then bit .GPIO_OUT else s.low.ext.getLsbD n.val := by
  intro bit
  have hbit (q : Reg) (hm : q ∈ [Reg.GPIO_OE, .GPIO_OD, .GPIO_OUT]) :
      (BitVec.ofNat 64 ((s.reg q [0]).toNat + (s.reg q [1]).toNat * 2 ^ 32)).getLsbD n.val = bit q := by
    rw [getLsbD_pair (hq q hm 0 (by decide))]
    by_cases h : n.val < 32
    · rw [if_pos h]
      simp only [bit, show n.val / 32 = 0 by omega, show n.val % 32 = n.val by omega]
    · rw [if_neg h]
      simp only [bit, show n.val / 32 = 1 by omega, show n.val % 32 = n.val - 32 by omega]
  have hn : n.val < 64 := n.isLt
  simp only [State.gpioPins, hh, Bool.false_eq_true, if_false, BitVec.getLsbD_or, BitVec.getLsbD_and, BitVec.getLsbD_not, decide_eq_true hn,
    Bool.true_and, hbit .GPIO_OE (by simp), hbit .GPIO_OD (by simp), hbit .GPIO_OUT (by simp)]
  cases bit .GPIO_OE <;> cases bit .GPIO_OD <;> cases bit .GPIO_OUT <;> simp

theorem completes_gpioPinEdge {n : Fin 64} {level : Bool} (hp : s.pdUp 106 = true) (hh : flag (s.reg .PAD_HOLD) .PAD_HOLD_IO33 = false)
    (hq : ∀ q ∈ [Reg.GPIO_OE, .GPIO_OD, .GPIO_OUT], ∀ i < 2, (s.reg q [i]).toNat < 2 ^ 32) :
    let bit (z : State) (q : Reg) : Bool := (z.reg q [n.val / 32]).getLsbD (n.val % 32)
    let now := if bit s .GPIO_OE && !(bit s .GPIO_OD && bit s .GPIO_OUT) then bit s .GPIO_OUT else level
    Completes (.gpioPinEdge n level) s fun t => OnField s t ∧ bit t .GPIO_IN = now ∧
      bit t .GPIO_ISTAT = (bit s .GPIO_ISTAT || edgeMet (s.fld .GPIO_ICFG [n.val] .GPIO_ICFG_MODE) (bit s .GPIO_IN) now) := by
  intro bit now
  let driven := s.setLow fun l =>
    { l with ext := if level then l.ext ||| BitVec.ofNat 64 (2 ^ n.val) else l.ext &&& ~~~ (BitVec.ofNat 64 (2 ^ n.val)) }
  have e : exec (.gpioPinEdge n level) s = ok driven.gpioSample := rfl
  have hext : driven.low.ext.getLsbD n.val = level := by
    have hm : (BitVec.ofNat 64 (2 ^ n.val)).getLsbD n.val = true := by
      rw [BitVec.getLsbD_ofNat, decide_eq_true n.isLt, Nat.testBit_two_pow_self]
      rfl
    show (if level = true then _ else _ : BitVec 64).getLsbD n.val = level
    cases level
    · rw [if_neg (by decide), BitVec.getLsbD_and, BitVec.getLsbD_not, hm, Bool.not_true, Bool.and_false, Bool.and_false]
    · rw [if_pos rfl, BitVec.getLsbD_or, hm, Bool.or_true]
  have hpin : driven.gpioPins.getLsbD n.val = now := by
    have h := State.getLsbD_gpioPins (s := driven) hh hq n
    rw [hext] at h
    exact h
  obtain ⟨hin, hstat⟩ := State.gpioSample_pin (s := driven) hp n
  rw [hpin] at hin hstat
  exact completes_ok e ⟨((OnField.refl s).setLow _).trans (by rw [OnField, (State.gpioSample_onlyRegs driven).frame]), hin, hstat⟩

end

end Sys2Proof.Machine

/-! PROOFS. O46: the CAN controllers (R336), and the settlement. -/

namespace Sys2Proof.Machine

/-! ### Where the registers of a controller and of its buffers lie -/

theorem canIrq_at (k : Nat) : Reg.CAN_IRQ.at [k] = 0x3009010014 + 0x4000 * k := rfl
theorem canMbirq_at (k i : Nat) : Reg.CAN_MBIRQ.at [k, i] = 0x3009010020 + (0x4000 * k + 4 * i) := rfl
theorem canFltId_at (k f : Nat) : Reg.CAN_FLT_ID.at [k, f] = 0x3009010400 + (0x4000 * k + 8 * f) := rfl
theorem canFltMask_at (k f : Nat) : Reg.CAN_FLT_MASK.at [k, f] = 0x3009010404 + (0x4000 * k + 8 * f) := rfl
theorem canMbId_at (k b : Nat) : Reg.CAN_MB_ID.at [k, b] = 0x3009011000 + (0x4000 * k + 0x50 * b) := rfl
theorem canMbCtrl_at (k b : Nat) : Reg.CAN_MB_CTRL.at [k, b] = 0x3009011004 + (0x4000 * k + 0x50 * b) := rfl
theorem canMbData_at (k b w : Nat) : Reg.CAN_MB_DATA.at [k, b, w] = 0x3009011008 + (0x4000 * k + (0x50 * b + 4 * w)) := rfl
theorem canMbTs_at (k b i : Nat) : Reg.CAN_MB_TS.at [k, b, i] = 0x3009011048 + (0x4000 * k + (0x50 * b + 4 * i)) := rfl

/-- The controller's counters and its state, as CAN_STAT has them. -/
def CanCounts (t : State) (k tec rec' : Nat) : Prop :=
  (t.can k).tec = tec ∧ (t.can k).rec' = rec' ∧ t.fld .CAN_STAT [k] .CAN_STAT_TEC = min tec 255 ∧
    t.fld .CAN_STAT [k] .CAN_STAT_REC = min rec' 255 ∧ t.canState k = if 255 < tec then 2 else if 127 < tec ∨ 127 < rec' then 1 else 0

/-- A buffer of the controller has completed. -/
def CanDone (t : State) (k b : Nat) (sof : BitVec 64) : Prop :=
  (t.reg .CAN_MBIRQ [k, b / 32]).getLsbD (b % 32) = true ∧ t.reg .CAN_MB_TS [k, b, 0] = BitVec.ofNat 64 (sof.toNat % 2 ^ 32) ∧
    t.reg .CAN_MB_TS [k, b, 1] = BitVec.ofNat 64 (sof.toNat / 2 ^ 32)

section
variable {s t : State} {k b : Nat}

/-- What keeps the controller and its CAN_STAT keeps the counters. -/
theorem CanCounts.keep {tec rec' : Nat} (h : CanCounts s k tec rec') (hl : t.can k = s.can k)
    (hr : t.reg .CAN_STAT [k] = s.reg .CAN_STAT [k]) : CanCounts t k tec rec' := by
  unfold CanCounts State.canState State.fld at *
  rw [hl, hr]
  exact h

/-! ### The error counters -/

theorem State.canCount_onField (s : State) (k tec rec' : Nat) : OnField s (s.canCount k tec rec') := rfl

theorem State.reg_canCount_other (s : State) (tec rec' : Nat) {q : Reg} {j : List Nat} (h : q.at j ≠ Reg.CAN_STAT.at [k])
    (h' : q.at j ≠ Reg.CAN_IRQ.at [k]) : (s.canCount k tec rec').reg q j = s.reg q j := by
  unfold State.canCount
  dsimp only
  rw [State.reg_setReg_other _ _ _ _ _ _ h', State.reg_setReg_other _ _ _ _ _ _ h]
  rfl

/-- The new state of a controller that is not bus-off. -/
def canLevel (tec rec' : Nat) : Nat := if 255 < tec then 2 else if 127 < tec ∨ 127 < rec' then 1 else 0

theorem State.canStat_canCount (tec rec' : Nat) (h : s.canState k ≠ 2) :
    (s.canCount k tec rec').reg .CAN_STAT [k] =
      putBits (putBits (putBits (s.reg .CAN_STAT [k]) .CAN_STAT_TEC (min tec 255)) .CAN_STAT_REC (min rec' 255)) .CAN_STAT_STATE
        (canLevel tec rec') := by
  unfold State.canCount
  dsimp only
  rw [State.reg_setReg_other _ _ _ _ _ _ (by rw [canStat_at, canIrq_at]; omega), State.reg_setReg]
  simp only [beq_false_of_ne h, Bool.false_or, decide_eq_true_eq, canLevel]

theorem State.can_canCount (tec rec' : Nat) : (s.canCount k tec rec').can k = { s.can k with tec := tec, rec' := rec' } := by
  unfold State.canCount
  exact State.can_setCan _ _ _

theorem State.canCount_counts (tec rec' : Nat) (h : s.canState k ≠ 2) : CanCounts (s.canCount k tec rec') k tec rec' := by
  have hcan := s.can_canCount (k := k) tec rec'
  refine ⟨congrArg Can.tec hcan, congrArg Can.rec' hcan, ?_⟩
  simp only [State.canState, State.fld, State.canStat_canCount tec rec' h]
  simp (disch := decide) only [bits_putBits_self, bits_putBits_of_disjoint]
  refine ⟨Nat.mod_eq_of_lt (by simp [Fld.CAN_STAT_TEC]), Nat.mod_eq_of_lt (by simp [Fld.CAN_STAT_REC]), ?_⟩
  unfold canLevel
  split
  · rfl
  · split <;> rfl

/-- The counters leave the error marks. -/
theorem State.canStat_berr_canCount (tec rec' : Nat) (h : s.canState k ≠ 2) :
    flag ((s.canCount k tec rec').reg .CAN_STAT [k]) .CAN_STAT_BERR = flag (s.reg .CAN_STAT [k]) .CAN_STAT_BERR := by
  rw [State.canStat_canCount tec rec' h]
  simp (disch := decide) only [flag_putBits_of_disjoint]

theorem flag_ite_putBits_other {P : Prop} [Decidable P] (w : Word) {f g : Fld} (v : Nat) (h : g.lo < f.lo ∨ f.hi < g.lo) (hg : g.lo < 64) :
    flag (if P then putBits w f v else w) g = flag w g := by
  split
  · exact flag_putBits_of_disjoint _ _ h hg
  · rfl

theorem State.canIrq_berr_canCount (tec rec' : Nat) :
    flag ((s.canCount k tec rec').reg .CAN_IRQ [k]) .CAN_IRQ_BERR = flag (s.reg .CAN_IRQ [k]) .CAN_IRQ_BERR := by
  unfold State.canCount
  dsimp only
  rw [State.reg_setReg, flag_ite_putBits_other _ _ (by decide) (by decide), flag_ite_putBits_other _ _ (by decide) (by decide),
    State.reg_setReg_other _ _ _ _ _ _ (by rw [canStat_at, canIrq_at]; omega)]
  rfl

/-! ### A buffer that completes -/

theorem State.canComplete_onField (s : State) (k b sof : Nat) : OnField s (s.canComplete k b sof) := rfl

theorem State.reg_canComplete_other (s : State) (sof : Nat) {q : Reg} {j : List Nat} (h : q.at j ≠ Reg.CAN_MBIRQ.at [k, b / 32])
    (h0 : q.at j ≠ Reg.CAN_MB_TS.at [k, b, 0]) (h1 : q.at j ≠ Reg.CAN_MB_TS.at [k, b, 1]) :
    (s.canComplete k b sof).reg q j = s.reg q j := by
  unfold State.canComplete
  dsimp only
  rw [State.reg_setReg_other _ _ _ _ _ _ h1, State.reg_setReg_other _ _ _ _ _ _ h0, State.reg_setReg_other _ _ _ _ _ _ h]

theorem State.canComplete_done (sof : BitVec 64) : CanDone (s.canComplete k b sof.toNat) k b sof := by
  have hbit : (BitVec.ofNat 64 (2 ^ (b % 32))).getLsbD (b % 32) = true := by
    rw [BitVec.getLsbD_ofNat, decide_eq_true (show b % 32 < 64 by omega), Nat.testBit_two_pow_self]
    rfl
  have hhi : sof.toNat / 2 ^ 32 % 2 ^ 32 = sof.toNat / 2 ^ 32 := Nat.mod_eq_of_lt (by omega)
  unfold State.canComplete
  dsimp only
  refine ⟨?_, ?_, ?_⟩
  · rw [State.reg_setReg_other _ _ _ _ _ _ (by rw [canMbirq_at, canMbTs_at]; omega),
      State.reg_setReg_other _ _ _ _ _ _ (by rw [canMbirq_at, canMbTs_at]; omega), State.reg_setReg, BitVec.getLsbD_or, hbit, Bool.or_true]
  · rw [State.reg_setReg_other _ _ _ _ _ _ (by rw [canMbTs_at, canMbTs_at]; omega), State.reg_setReg]
  · rw [State.reg_setReg, hhi]

/-- What keeps MBIRQ and the time stamps keeps a completion. -/
theorem CanDone.keep {sof : BitVec 64} (h : CanDone s k b sof)
    (hr : ∀ q j, q.at j ≠ Reg.CAN_STAT.at [k] → q.at j ≠ Reg.CAN_IRQ.at [k] → t.reg q j = s.reg q j) : CanDone t k b sof := by
  unfold CanDone at *
  rw [hr _ _ (by rw [canMbirq_at, canStat_at]; omega) (by rw [canMbirq_at, canIrq_at]; omega),
    hr _ _ (by rw [canMbTs_at, canStat_at]; omega) (by rw [canMbTs_at, canIrq_at]; omega),
    hr _ _ (by rw [canMbTs_at, canStat_at]; omega) (by rw [canMbTs_at, canIrq_at]; omega)]
  exact h

/-! ### The frame that is sent next -/

/-- One step of the choice: a pending buffer takes the place of one whose frame has a higher arbitration field. -/
def State.canPick (s : State) (k : Nat) (a : Option Nat) (b : Nat) : Option Nat :=
  if s.canPending k b then
    match a with
    | none => some b
    | some x => if canArb (s.reg .CAN_MB_ID [k, b]) < canArb (s.reg .CAN_MB_ID [k, x]) then some b else a
  else a

theorem State.canNext_eq (s : State) (k : Nat) : s.canNext k = (List.range 64).foldl (s.canPick k) none := rfl

section
variable {x : Nat} {a : Option Nat}

theorem State.canPick_idle (h : s.canPending k b = false) : s.canPick k a b = a := by simp only [State.canPick, h, Bool.false_eq_true, if_false]

theorem State.canPick_first (h : s.canPending k b = true) : s.canPick k none b = some b := by simp only [State.canPick, h, if_true]

theorem State.canPick_lower (h : s.canPending k b = true)
    (hx : canArb (s.reg .CAN_MB_ID [k, b]) < canArb (s.reg .CAN_MB_ID [k, x])) : s.canPick k (some x) b = some b := by
  simp only [State.canPick, h, hx, if_true]

theorem State.canPick_higher (hx : canArb (s.reg .CAN_MB_ID [k, x]) < canArb (s.reg .CAN_MB_ID [k, b])) :
    s.canPick k (some x) b = some x := by
  simp only [State.canPick, Nat.lt_asymm hx, if_false, ite_self]

/-- What is chosen so far is pending, and b as soon as it was met. -/
theorem State.foldl_canPick (hb : s.canPending k b = true) {m : Nat}
    (hmin : ∀ c < m, c ≠ b → s.canPending k c = true → canArb (s.reg .CAN_MB_ID [k, b]) < canArb (s.reg .CAN_MB_ID [k, c])) :
    if b < m then (List.range m).foldl (s.canPick k) none = some b
    else ∀ x, (List.range m).foldl (s.canPick k) none = some x → x < m ∧ s.canPending k x = true := by
  induction m with
  | zero => simp
  | succ m ih =>
    have ih := ih fun c hc => hmin c (by omega)
    rw [List.range_succ, List.foldl_append, List.foldl_cons, List.foldl_nil]
    obtain hlt | rfl | hgt := Nat.lt_trichotomy b m
    · rw [if_pos hlt] at ih
      rw [if_pos (by omega), ih]
      by_cases hm : s.canPending k m = true
      · exact State.canPick_higher (hmin m (by omega) (by omega) hm)
      · exact State.canPick_idle (Bool.eq_false_iff.mpr hm)
    · rw [if_neg (lt_irrefl b)] at ih
      rw [if_pos (Nat.lt_succ_self b)]
      cases hf : (List.range b).foldl (s.canPick k) none with
      | none => exact State.canPick_first hb
      | some x =>
        obtain ⟨hx, hpx⟩ := ih x hf
        exact State.canPick_lower hb (hmin x (by omega) (by omega) hpx)
    · rw [if_neg (by omega)] at ih
      rw [if_neg (by omega)]
      intro x hx
      unfold State.canPick at hx
      split at hx
      · next hm =>
        have hxm : x = m ∨ (List.range m).foldl (s.canPick k) none = some x := by
          split at hx
          · exact .inl (Option.some.inj hx).symm
          · split at hx
            · exact .inl (Option.some.inj hx).symm
            · exact .inr hx
        obtain rfl | h := hxm
        · exact ⟨Nat.lt_succ_self _, hm⟩
        · exact ⟨Nat.lt_succ_of_lt (ih x h).1, (ih x h).2⟩
      · exact ⟨Nat.lt_succ_of_lt (ih x hx).1, (ih x hx).2⟩

end

/-- R336: the pending buffer whose frame alone has the lowest arbitration field is the next one. -/
theorem State.canNext_lowest (hb : s.canPending k b = true) (h64 : b < 64)
    (hmin : ∀ c < 64, c ≠ b → s.canPending k c = true → canArb (s.reg .CAN_MB_ID [k, b]) < canArb (s.reg .CAN_MB_ID [k, c])) :
    s.canNext k = some b := by
  have h := State.foldl_canPick hb hmin
  rwa [if_pos h64] at h

/-! ### A frame that is received -/

/-- The data words of a buffer take those of the frame. -/
def State.canData (s : State) (k b : Nat) (data : List Word) (n : Nat) : State :=
  (List.range n).foldl (fun s w => s.setReg .CAN_MB_DATA [k, b, w] (data.getD w 0)) s

theorem State.canData_succ (data : List Word) (n : Nat) :
    s.canData k b data (n + 1) = (s.canData k b data n).setReg .CAN_MB_DATA [k, b, n] (data.getD n 0) := by
  rw [State.canData, List.range_succ, List.foldl_append]
  rfl

theorem State.canData_onField (s : State) (k b : Nat) (data : List Word) (n : Nat) :
    OnField s (s.canData k b data n) ∧ (s.canData k b data n).low = s.low := by
  induction n with
  | zero => exact ⟨rfl, rfl⟩
  | succ n ih =>
    rw [State.canData_succ]
    exact ⟨ih.1.setReg _ _ _, ih.2⟩

theorem State.reg_canData_other (data : List Word) {n : Nat} {q : Reg} {j : List Nat} (h : ∀ w < n, q.at j ≠ Reg.CAN_MB_DATA.at [k, b, w]) :
    (s.canData k b data n).reg q j = s.reg q j := by
  induction n with
  | zero => rfl
  | succ n ih => rw [State.canData_succ, State.reg_setReg_other _ _ _ _ _ _ (h n (Nat.lt_succ_self n)), ih fun w hw => h w (by omega)]

theorem State.reg_canData (data : List Word) {n w : Nat} (hw : w < n) :
    (s.canData k b data n).reg .CAN_MB_DATA [k, b, w] = data.getD w 0 := by
  induction n with
  | zero => omega
  | succ n ih =>
    rw [State.canData_succ]
    by_cases h : w = n
    · subst h
      exact State.reg_setReg _ _ _ _
    · rw [State.reg_setReg_other _ _ _ _ _ _ (by rw [canMbData_at, canMbData_at]; omega), ih (by omega)]

/-- A frame enters a receive buffer. -/
def State.canStore (s : State) (k b : Nat) (idw : Word) (fmt : Nat) (data : List Word) : State :=
  ((s.setReg .CAN_MB_ID [k, b] idw).setReg .CAN_MB_CTRL [k, b] (BitVec.ofNat 64 (2 * 2 ^ 30 + 1 * 2 ^ 28 + fmt))).canData k b data 16

/-- R336: an accepted frame fills the lowest free receive buffer. -/
theorem State.canReceive_stores {idw : Word} {fmt sof : Nat} {data : List Word}
    (ha : s.canAccepts k (flag idw .CAN_MB_ID_IDE) (bits idw .CAN_MB_ID_ID) = true) (h64 : b < 64)
    (hm : s.fld .CAN_MB_CTRL [k, b] .CAN_MB_CTRL_MODE = 2) (hs : s.fld .CAN_MB_CTRL [k, b] .CAN_MB_CTRL_STATE = 0)
    (hlow : ∀ c < b, s.fld .CAN_MB_CTRL [k, c] .CAN_MB_CTRL_MODE ≠ 2 ∨ s.fld .CAN_MB_CTRL [k, c] .CAN_MB_CTRL_STATE ≠ 0) :
    s.canReceive k idw fmt data sof = (s.canStore k b idw fmt data).canComplete k b sof := by
  have hfind : ((List.range 64).find? fun b =>
      s.fld .CAN_MB_CTRL [k, b] .CAN_MB_CTRL_MODE == 2 && s.fld .CAN_MB_CTRL [k, b] .CAN_MB_CTRL_STATE == 0) = some b := by
    rw [List.find?_range_eq_some]
    refine ⟨by simp [hm, hs], List.mem_range.mpr h64, fun c hc => ?_⟩
    simpa [← not_and_or] using hlow c hc
  unfold State.canReceive
  rw [ha, Bool.not_true, if_neg (by decide), hfind]
  rfl

theorem bits_ofNat {n : Nat} (f : Fld) (h : n < 2 ^ 64) : bits (BitVec.ofNat 64 n) f = n / 2 ^ f.lo % 2 ^ (f.hi + 1 - f.lo) := by
  rw [bits, BitVec.toNat_ofNat, Nat.mod_eq_of_lt h, Nat.shiftRight_eq_div_pow]

theorem b2n_le (b : Bool) : b2n b ≤ 1 := by cases b <;> decide

/-- The ID word of a frame (R336). -/
def canIdWord (ide rtr : Bool) (id : BitVec 29) : Word := BitVec.ofNat 64 (b2n ide * 2 ^ 31 + b2n rtr * 2 ^ 30 + id.toNat)

theorem canIdWord_id (ide rtr : Bool) (id : BitVec 29) : bits (canIdWord ide rtr id) .CAN_MB_ID_ID = id.toNat := by
  have hid := id.isLt
  have h1 := b2n_le ide
  have h2 := b2n_le rtr
  exact (bits_ofNat _ (by omega)).trans (show _ / 2 ^ 0 % 2 ^ 29 = _ by omega)

theorem canIdWord_ide (ide rtr : Bool) (id : BitVec 29) : flag (canIdWord ide rtr id) .CAN_MB_ID_IDE = ide := by
  have hid := id.isLt
  have h1 := b2n_le ide
  have h2 := b2n_le rtr
  have hbit : bits (canIdWord ide rtr id) .CAN_MB_ID_IDE = b2n ide :=
    (bits_ofNat _ (by omega)).trans (show _ / 2 ^ 31 % 2 ^ 1 = _ by omega)
  rw [Bool.eq_iff_iff, ← bits_eq_one_iff _ rfl, hbit]
  cases ide <;> decide

/-- The format of a frame at its places in a control word (R336). -/
def canFormat (fdf brs esi : Bool) (dlc : Fin 16) : Nat := b2n fdf * 2 ^ 27 + b2n brs * 2 ^ 26 + b2n esi * 2 ^ 25 + dlc.val * 2 ^ 16

/-- The fields of the control word of a buffer that a frame fills. -/
theorem canFormat_fields (fdf brs esi : Bool) (dlc : Fin 16) :
    let r : Word := BitVec.ofNat 64 (2 * 2 ^ 30 + 1 * 2 ^ 28 + canFormat fdf brs esi dlc)
    bits r .CAN_MB_CTRL_MODE = 2 ∧ bits r .CAN_MB_CTRL_STATE = 1 ∧ bits r .CAN_MB_CTRL_DLC = dlc.val := by
  intro r
  have h1 := b2n_le fdf
  have h2 := b2n_le brs
  have h3 := b2n_le esi
  have hd := dlc.isLt
  have hlt : 2 * 2 ^ 30 + 1 * 2 ^ 28 + canFormat fdf brs esi dlc < 2 ^ 64 := by
    rw [canFormat]
    omega
  refine ⟨(bits_ofNat _ hlt).trans (show _ / 2 ^ 30 % 2 ^ 2 = _ from ?_), (bits_ofNat _ hlt).trans (show _ / 2 ^ 28 % 2 ^ 2 = _ from ?_),
    (bits_ofNat _ hlt).trans (show _ / 2 ^ 16 % 2 ^ 4 = _ from ?_)⟩ <;>
    rw [canFormat] <;> omega

/-- The data words of a frame. -/
def canWords (data : BitVec 512) : List Word := (List.range 16).map fun w => BitVec.ofNat 64 (data.toNat / 2 ^ (32 * w) % 2 ^ 32)

theorem canWords_getD (data : BitVec 512) {w : Nat} (hw : w < 16) :
    (canWords data).getD w 0 = BitVec.ofNat 64 (data.toNat / 2 ^ (32 * w) % 2 ^ 32) := by
  simp [canWords, List.getD, hw]

section
variable {idw : Word} {fmt : Nat} {data : List Word}

theorem State.canStore_onField (s : State) (k b : Nat) (idw : Word) (fmt : Nat) (data : List Word) :
    OnField s (s.canStore k b idw fmt data) ∧ (s.canStore k b idw fmt data).low = s.low := by
  have h := State.canData_onField
    ((s.setReg .CAN_MB_ID [k, b] idw).setReg .CAN_MB_CTRL [k, b] (BitVec.ofNat 64 (2 * 2 ^ 30 + 1 * 2 ^ 28 + fmt))) k b data 16
  exact ⟨(((OnField.refl s).setReg _ _ _).setReg _ _ _).trans h.1, h.2⟩

theorem State.can_canStore (n : Nat) : (s.canStore k b idw fmt data).can n = s.can n := by
  rw [State.can, (State.canStore_onField s k b idw fmt data).2, State.can]

theorem State.can_canComplete (s : State) (sof n : Nat) : (s.canComplete k b sof).can n = s.can n := rfl

theorem State.canMbCtrl_canStore :
    (s.canStore k b idw fmt data).reg .CAN_MB_CTRL [k, b] = BitVec.ofNat 64 (2 * 2 ^ 30 + 1 * 2 ^ 28 + fmt) := by
  rw [State.canStore, State.reg_canData_other _ fun w _ => by rw [canMbCtrl_at, canMbData_at]; omega, State.reg_setReg]

theorem State.canMbId_canStore : (s.canStore k b idw fmt data).reg .CAN_MB_ID [k, b] = idw := by
  rw [State.canStore, State.reg_canData_other _ fun w _ => by rw [canMbId_at, canMbData_at]; omega,
    State.reg_setReg_other _ _ _ _ _ _ (by rw [canMbId_at, canMbCtrl_at]; omega), State.reg_setReg]

theorem State.canMbData_canStore {w : Nat} (hw : w < 16) : (s.canStore k b idw fmt data).reg .CAN_MB_DATA [k, b, w] = data.getD w 0 :=
  State.reg_canData _ hw

theorem State.canStat_canStore : (s.canStore k b idw fmt data).reg .CAN_STAT [k] = s.reg .CAN_STAT [k] := by
  rw [State.canStore, State.reg_canData_other _ fun w _ => by rw [canStat_at, canMbData_at]; omega,
    State.reg_setReg_other _ _ _ _ _ _ (by rw [canStat_at, canMbCtrl_at]; omega),
    State.reg_setReg_other _ _ _ _ _ _ (by rw [canStat_at, canMbId_at]; omega)]

/-- The buffer's completion leaves its frame. -/
theorem State.canMbCtrl_canComplete (s : State) (sof : Nat) : (s.canComplete k b sof).reg .CAN_MB_CTRL [k, b] = s.reg .CAN_MB_CTRL [k, b] :=
  State.reg_canComplete_other _ _ (by rw [canMbCtrl_at, canMbirq_at]; omega) (by rw [canMbCtrl_at, canMbTs_at]; omega)
    (by rw [canMbCtrl_at, canMbTs_at]; omega)

theorem State.canMbId_canComplete (s : State) (sof : Nat) : (s.canComplete k b sof).reg .CAN_MB_ID [k, b] = s.reg .CAN_MB_ID [k, b] :=
  State.reg_canComplete_other _ _ (by rw [canMbId_at, canMbirq_at]; omega) (by rw [canMbId_at, canMbTs_at]; omega)
    (by rw [canMbId_at, canMbTs_at]; omega)

theorem State.canMbData_canComplete (s : State) (sof : Nat) {w : Nat} (hw : w < 16) :
    (s.canComplete k b sof).reg .CAN_MB_DATA [k, b, w] = s.reg .CAN_MB_DATA [k, b, w] :=
  State.reg_canComplete_other _ _ (by rw [canMbData_at, canMbirq_at]; omega) (by rw [canMbData_at, canMbTs_at]; omega)
    (by rw [canMbData_at, canMbTs_at]; omega)

theorem State.canStat_canComplete (s : State) (sof : Nat) : (s.canComplete k b sof).reg .CAN_STAT [k] = s.reg .CAN_STAT [k] :=
  State.reg_canComplete_other _ _ (by rw [canStat_at, canMbirq_at]; omega) (by rw [canStat_at, canMbTs_at]; omega)
    (by rw [canStat_at, canMbTs_at]; omega)

end

theorem State.canAccepts_canCount (tec rec' : Nat) (ide : Bool) (id : Nat) : (s.canCount k tec rec').canAccepts k ide id = s.canAccepts k ide id := by
  have hid (f : Nat) : (s.canCount k tec rec').reg .CAN_FLT_ID [k, f] = s.reg .CAN_FLT_ID [k, f] :=
    State.reg_canCount_other _ _ _ (by rw [canFltId_at, canStat_at]; omega) (by rw [canFltId_at, canIrq_at]; omega)
  have hmask (f : Nat) : (s.canCount k tec rec').reg .CAN_FLT_MASK [k, f] = s.reg .CAN_FLT_MASK [k, f] :=
    State.reg_canCount_other _ _ _ (by rw [canFltMask_at, canStat_at]; omega) (by rw [canFltMask_at, canIrq_at]; omega)
  simp only [State.canAccepts, hid, hmask]

theorem State.canMbCtrl_canCount (tec rec' c : Nat) (f : Fld) : (s.canCount k tec rec').fld .CAN_MB_CTRL [k, c] f = s.fld .CAN_MB_CTRL [k, c] f := by
  rw [State.fld, State.reg_canCount_other _ _ _ (by rw [canMbCtrl_at, canStat_at]; omega) (by rw [canMbCtrl_at, canIrq_at]; omega), State.fld]

end

/-! ### The events -/

section
variable {s : State} {k b sof : Nat}

/-- The frame of a buffer has been sent. -/
def State.canSent (s : State) (k b sof : Nat) : State :=
  ((s.setCan k { s.can k with aborting := (s.can k).aborting.erase b }).setFld .CAN_MB_CTRL [k, b] .CAN_MB_CTRL_STATE 2).canComplete k b sof

theorem State.canSent_onField : OnField s (s.canSent k b sof) :=
  (((OnField.refl s).setLow _).setFld _ _ _ _).trans (State.canComplete_onField _ _ _ _)

/-- A frame that is sent leaves the registers below the message buffers but MBIRQ. -/
theorem State.reg_canSent_other {q : Reg} {j : List Nat} (h : q.at j < 0x3009011004 + 0x4000 * k) (h' : q.at j ≠ Reg.CAN_MBIRQ.at [k, b / 32]) :
    (s.canSent k b sof).reg q j = s.reg q j := by
  rw [State.canSent, State.reg_canComplete_other _ _ h' (by rw [canMbTs_at]; omega) (by rw [canMbTs_at]; omega),
    State.reg_setFld_other _ _ _ _ _ _ (by rw [canMbCtrl_at]; omega)]
  rfl

theorem State.canSent_state : (s.canSent k b sof).fld .CAN_MB_CTRL [k, b] .CAN_MB_CTRL_STATE = 2 := by
  rw [State.canSent, State.fld, State.canMbCtrl_canComplete]
  exact State.fld_setFld_self _ _ _ _ (by decide)

theorem State.canState_canSent : (s.canSent k b sof).canState k = s.canState k := by
  rw [State.canState, State.fld, State.reg_canSent_other (by rw [canStat_at]; omega) (by rw [canStat_at, canMbirq_at]; omega),
    State.canState, State.fld]

end

section
variable {s : State} {k : Fin 2} {b : Fin 64} {sof : BitVec 64}

/-- R336: the frame on the bus, or the pending one with the lowest identifier, is sent. -/
theorem exec_canFrameSent (hon : s.canOn k.val = true) (hs : s.canState k.val ≠ 2) (hl : flag (s.reg .CAN_CTL [k.val]) .CAN_CTL_LISTEN = false)
    (hloop : flag (s.reg .CAN_CTL [k.val]) .CAN_CTL_LOOP = false) (hb : (s.can k.val).aborting.head?.or (s.canNext k.val) = some b.val) :
    exec (.canFrameSent k sof) s = ok ((s.canSent k.val b.val sof.toNat).canCount k.val ((s.can k.val).tec - 1) (s.can k.val).rec') := by
  have hctl : flag ((s.canSent k.val b.val sof.toNat).reg .CAN_CTL [k.val]) .CAN_CTL_LOOP = false := by
    rw [State.reg_canSent_other (by rw [canCtl_at]; omega) (by rw [canCtl_at, canMbirq_at]; omega), hloop]
  have e : exec (.canFrameSent k sof) s = execCanFrameSent k sof s := rfl
  simp only [execCanFrameSent, hon, beq_false_of_ne hs, hl, hb, Bool.not_true, Bool.or_self, Bool.false_eq_true, if_false] at e
  exact e.trans (congrArg (fun x => ok (State.canCount x k.val ((s.can k.val).tec - 1) (s.can k.val).rec')) (if_neg (by
    rw [Bool.not_eq_true]
    exact hctl)))

theorem completes_canFrameSent (hon : s.canOn k.val = true) (hs : s.canState k.val ≠ 2) (hl : flag (s.reg .CAN_CTL [k.val]) .CAN_CTL_LISTEN = false)
    (hloop : flag (s.reg .CAN_CTL [k.val]) .CAN_CTL_LOOP = false) (hb : (s.can k.val).aborting.head?.or (s.canNext k.val) = some b.val) :
    Completes (.canFrameSent k sof) s fun t => OnField s t ∧ CanDone t k.val b.val sof ∧
      CanCounts t k.val ((s.can k.val).tec - 1) (s.can k.val).rec' ∧ t.fld .CAN_MB_CTRL [k.val, b.val] .CAN_MB_CTRL_STATE = 2 := by
  refine completes_ok (exec_canFrameSent hon hs hl hloop hb) ⟨State.canSent_onField.trans (State.canCount_onField _ _ _ _), ?_, ?_, ?_⟩
  · exact (State.canComplete_done sof).keep fun q j h h' => State.reg_canCount_other _ _ _ h h'
  · exact State.canCount_counts _ _ (by rw [State.canState_canSent]; exact hs)
  · rw [State.canMbCtrl_canCount, State.canSent_state]

/-- R336: a frame that a filter accepts fills the lowest free receive buffer. -/
theorem exec_canFrameReceived {ide rtr fdf brs esi : Bool} {id : BitVec 29} {dlc : Fin 16} {data : BitVec 512} (hon : s.canOn k.val = true)
    (hs : s.canState k.val ≠ 2) (hloop : flag (s.reg .CAN_CTL [k.val]) .CAN_CTL_LOOP = false)
    (hfd : fdf = true → flag (s.reg .CAN_CTL [k.val]) .CAN_CTL_FD = true) (ha : s.canAccepts k.val ide id.toNat = true)
    (hrec : (s.can k.val).rec' ≤ 127) (hm : s.fld .CAN_MB_CTRL [k.val, b.val] .CAN_MB_CTRL_MODE = 2)
    (hst : s.fld .CAN_MB_CTRL [k.val, b.val] .CAN_MB_CTRL_STATE = 0)
    (hlow : ∀ c < b.val, s.fld .CAN_MB_CTRL [k.val, c] .CAN_MB_CTRL_MODE ≠ 2 ∨ s.fld .CAN_MB_CTRL [k.val, c] .CAN_MB_CTRL_STATE ≠ 0) :
    exec (.canFrameReceived k ide rtr fdf brs esi id dlc data sof) s =
      ok (((s.canCount k.val (s.can k.val).tec ((s.can k.val).rec' - 1)).canStore k.val b.val (canIdWord ide rtr id) (canFormat fdf brs esi dlc)
        (canWords data)).canComplete k.val b.val sof.toNat) := by
  have hfd' : (fdf && !flag (s.reg .CAN_CTL [k.val]) .CAN_CTL_FD) = false := by
    cases fdf
    · rfl
    · rw [hfd rfl]
      rfl
  have e : exec (.canFrameReceived k ide rtr fdf brs esi id dlc data sof) s = execCanFrameReceived k ide rtr fdf brs esi id dlc data sof s := rfl
  simp only [execCanFrameReceived, hon, beq_false_of_ne hs, hloop, hfd', Nat.not_lt.mpr hrec, Bool.not_true, Bool.or_self, Bool.false_eq_true,
    if_false] at e
  refine e.trans (congrArg ok (State.canReceive_stores ?_ b.isLt ?_ ?_ fun c hc => ?_))
  · rw [State.canAccepts_canCount]
    exact (congrArg₂ (s.canAccepts k.val) (canIdWord_ide ide rtr id) (canIdWord_id ide rtr id)).trans ha
  · rw [State.canMbCtrl_canCount, hm]
  · rw [State.canMbCtrl_canCount, hst]
  · rw [State.canMbCtrl_canCount, State.canMbCtrl_canCount]
    exact hlow c hc

theorem completes_canFrameReceived {ide rtr fdf brs esi : Bool} {id : BitVec 29} {dlc : Fin 16} {data : BitVec 512} (hon : s.canOn k.val = true)
    (hs : s.canState k.val ≠ 2) (hloop : flag (s.reg .CAN_CTL [k.val]) .CAN_CTL_LOOP = false)
    (hfd : fdf = true → flag (s.reg .CAN_CTL [k.val]) .CAN_CTL_FD = true) (ha : s.canAccepts k.val ide id.toNat = true)
    (hrec : (s.can k.val).rec' ≤ 127) (hm : s.fld .CAN_MB_CTRL [k.val, b.val] .CAN_MB_CTRL_MODE = 2)
    (hst : s.fld .CAN_MB_CTRL [k.val, b.val] .CAN_MB_CTRL_STATE = 0)
    (hlow : ∀ c < b.val, s.fld .CAN_MB_CTRL [k.val, c] .CAN_MB_CTRL_MODE ≠ 2 ∨ s.fld .CAN_MB_CTRL [k.val, c] .CAN_MB_CTRL_STATE ≠ 0) :
    Completes (.canFrameReceived k ide rtr fdf brs esi id dlc data sof) s fun t => OnField s t ∧ CanDone t k.val b.val sof ∧
      CanCounts t k.val (s.can k.val).tec ((s.can k.val).rec' - 1) ∧ t.fld .CAN_MB_CTRL [k.val, b.val] .CAN_MB_CTRL_MODE = 2 ∧
      t.fld .CAN_MB_CTRL [k.val, b.val] .CAN_MB_CTRL_STATE = 1 ∧ t.fld .CAN_MB_CTRL [k.val, b.val] .CAN_MB_CTRL_DLC = dlc.val ∧
      t.fld .CAN_MB_ID [k.val, b.val] .CAN_MB_ID_ID = id.toNat ∧
      ∀ w < 16, t.reg .CAN_MB_DATA [k.val, b.val, w] = BitVec.ofNat 64 (data.toNat / 2 ^ (32 * w) % 2 ^ 32) := by
  have hstore := (State.canStore_onField (s.canCount k.val (s.can k.val).tec ((s.can k.val).rec' - 1)) k.val b.val (canIdWord ide rtr id)
    (canFormat fdf brs esi dlc) (canWords data)).1
  obtain ⟨hmode, hstate, hdlc⟩ := canFormat_fields fdf brs esi dlc
  refine completes_ok (exec_canFrameReceived hon hs hloop hfd ha hrec hm hst hlow)
    ⟨((State.canCount_onField _ _ _ _).trans hstore).trans (State.canComplete_onField _ _ _ _), State.canComplete_done sof, ?_,
      ?_, ?_, ?_, ?_, fun w hw => ?_⟩
  · refine (State.canCount_counts _ _ hs).keep ?_ ?_
    · rw [State.can_canComplete, State.can_canStore]
    · rw [State.canStat_canComplete, State.canStat_canStore]
  · rw [State.fld, State.canMbCtrl_canComplete, State.canMbCtrl_canStore, hmode]
  · rw [State.fld, State.canMbCtrl_canComplete, State.canMbCtrl_canStore, hstate]
  · rw [State.fld, State.canMbCtrl_canComplete, State.canMbCtrl_canStore, hdlc]
  · rw [State.fld, State.canMbId_canComplete, State.canMbId_canStore, canIdWord_id]
  · rw [State.canMbData_canComplete _ _ hw, State.canMbData_canStore hw, canWords_getD data hw]

/-- The buffers whose abort waited for the frame on the bus are aborted. -/
def State.canAborted (s : State) (k : Nat) (l : List Nat) : State :=
  l.foldl (fun s b => s.setFld .CAN_MB_CTRL [k, b] .CAN_MB_CTRL_STATE 3) s

theorem State.canAborted_onField (s : State) (k : Nat) (l : List Nat) : OnField s (s.canAborted k l) := by
  induction l generalizing s with
  | nil => rfl
  | cons b l ih => exact (OnField.setFld (.refl s) _ _ _ _).trans (ih _)

theorem State.reg_canAborted_other (s : State) {n : Nat} {l : List Nat} {q : Reg} {j : List Nat} (h : q.at j < 0x3009011004 + 0x4000 * n) :
    (s.canAborted n l).reg q j = s.reg q j := by
  induction l generalizing s with
  | nil => rfl
  | cons b l ih => exact (ih _).trans (State.reg_setFld_other _ _ _ _ _ _ (by rw [canMbCtrl_at]; omega))

/-- An error on the bus is marked. -/
def State.canErred (s : State) (k : Nat) : State := (s.setFld .CAN_STAT [k] .CAN_STAT_BERR 1).setFld .CAN_IRQ [k] .CAN_IRQ_BERR 1

theorem State.canErred_marks (s : State) (n : Nat) : flag ((s.canErred n).reg .CAN_STAT [n]) .CAN_STAT_BERR = true ∧
    flag ((s.canErred n).reg .CAN_IRQ [n]) .CAN_IRQ_BERR = true ∧ (s.canErred n).canState n = s.canState n := by
  have hne : Reg.CAN_STAT.at [n] ≠ Reg.CAN_IRQ.at [n] := by rw [canStat_at, canIrq_at]; omega
  refine ⟨?_, ?_, ?_⟩
  · rw [State.canErred, State.reg_setFld_other _ _ _ _ _ _ hne, State.reg_setFld, flag_putBits_self _ _ (by decide) (by decide)]
    rfl
  · rw [State.canErred, State.reg_setFld, flag_putBits_self _ _ (by decide) (by decide)]
    rfl
  · rw [State.canState, State.canErred, State.fld_setFld_other _ _ _ _ _ _ hne,
      State.fld_setFld_field _ _ _ _ (.inr (by decide)) (by decide), State.canState]

/-- What has the error marks and the state of a controller on which an error is counted. -/
theorem State.canCount_errs {s u : State} {n tec rec' : Nat} (hu : u.reg .CAN_STAT [n] = (s.canErred n).reg .CAN_STAT [n])
    (hu' : u.reg .CAN_IRQ [n] = (s.canErred n).reg .CAN_IRQ [n]) (hs : s.canState n ≠ 2) :
    flag ((u.canCount n tec rec').reg .CAN_STAT [n]) .CAN_STAT_BERR = true ∧
    flag ((u.canCount n tec rec').reg .CAN_IRQ [n]) .CAN_IRQ_BERR = true ∧ CanCounts (u.canCount n tec rec') n tec rec' := by
  obtain ⟨h1, h2, h3⟩ := s.canErred_marks n
  have hst : u.canState n ≠ 2 := by
    rw [State.canState, State.fld, hu]
    exact h3.trans_ne hs
  exact ⟨by rw [State.canStat_berr_canCount _ _ hst, hu, h1], by rw [State.canIrq_berr_canCount, hu', h2], State.canCount_counts _ _ hst⟩

/-- R336: an error counts. -/
theorem completes_canBusError {tx heavy : Bool} (hon : s.canOn k.val = true) (hs : s.canState k.val ≠ 2) :
    Completes (.canBusError k tx heavy) s fun t => OnField s t ∧ flag (t.reg .CAN_STAT [k.val]) .CAN_STAT_BERR = true ∧
      flag (t.reg .CAN_IRQ [k.val]) .CAN_IRQ_BERR = true ∧
      if tx then CanCounts t k.val ((s.can k.val).tec + 8) (s.can k.val).rec'
      else CanCounts t k.val (s.can k.val).tec ((s.can k.val).rec' + if heavy then 8 else 1) := by
  have herr : OnField s (s.canErred k.val) := ((OnField.refl s).setFld _ _ _ _).setFld _ _ _ _
  have e : exec (.canBusError k tx heavy) s = execCanBusError k tx heavy s := rfl
  simp only [execCanBusError, hon, beq_false_of_ne hs, Bool.not_true, Bool.or_self, Bool.false_eq_true, if_false] at e
  cases tx with
  | true =>
    obtain ⟨h1, h2, h3⟩ := State.canCount_errs (s := s) (tec := (s.can k.val).tec + 8) (rec' := (s.can k.val).rec')
      (u := ((s.canErred k.val).canAborted k.val (s.can k.val).aborting).setCan k.val { s.can k.val with aborting := [] })
      (State.reg_canAborted_other _ (by rw [canStat_at]; omega)) (State.reg_canAborted_other _ (by rw [canIrq_at]; omega)) hs
    exact completes_ok e ⟨((herr.trans (State.canAborted_onField _ _ _)).setLow _).trans (State.canCount_onField _ _ _ _), h1, h2, h3⟩
  | false =>
    obtain ⟨h1, h2, h3⟩ := State.canCount_errs (s := s) (u := s.canErred k.val) (tec := (s.can k.val).tec)
      (rec' := (s.can k.val).rec' + if heavy then 8 else 1) rfl rfl hs
    exact completes_ok e ⟨herr.trans (State.canCount_onField _ _ _ _), h1, h2, h3⟩

/-- R336: a recovery ends bus-off. -/
theorem completes_canBusoffRecovery (hon : s.canOn k.val = true) (hs : s.canState k.val = 2)
    (hr : flag (s.reg .CAN_CTL [k.val]) .CAN_CTL_ABOR = true ∨ (s.can k.val).restart = true) :
    Completes (.canBusoffRecovery k) s fun t => OnField s t ∧ CanCounts t k.val 0 0 ∧ (t.can k.val).restart = false := by
  have hr' : (flag (s.reg .CAN_CTL [k.val]) .CAN_CTL_ABOR || (s.can k.val).restart) = true := Bool.or_eq_true_iff.mpr hr
  have e : exec (.canBusoffRecovery k) s = execCanBusoffRecovery k s := rfl
  simp only [execCanBusoffRecovery, hon, hs, hr', bne_self_eq_false, Bool.not_true, Bool.or_self, Bool.false_eq_true, if_false] at e
  refine completes_ok e ⟨((OnField.refl s).setReg _ _ _).setLow _, ?_, congrArg Can.restart (State.can_setCan _ _ _)⟩
  refine ⟨congrArg Can.tec (State.can_setCan _ _ _), congrArg Can.rec' (State.can_setCan _ _ _), ?_⟩
  have hreg (r : Word) (x : Can) : ((s.setReg .CAN_STAT [k.val] r).setCan k.val x).reg .CAN_STAT [k.val] = r := State.reg_setReg _ _ _ _
  simp only [State.canState, State.fld, hreg]
  simp (disch := decide) only [bits_putBits_self, bits_putBits_of_disjoint]
  exact ⟨rfl, rfl, rfl⟩

end

/-- The buffer that a transmission serves. -/
theorem State.canServed {s : State} {k : Nat} {b : Fin 64} (h : (s.can k).aborting.head? = some b.val ∨ ((s.can k).aborting = [] ∧
    s.canPending k b.val = true ∧ ∀ c < 64, c ≠ b.val → s.canPending k c = true →
      canArb (s.reg .CAN_MB_ID [k, b.val]) < canArb (s.reg .CAN_MB_ID [k, c]))) :
    (s.can k).aborting.head?.or (s.canNext k) = some b.val := by
  obtain h | ⟨hnil, hp, hmin⟩ := h
  · rw [h]
    rfl
  · rw [hnil, State.canNext_lowest hp b.isLt hmin]
    rfl

/-- Settles O46: each event of a wire does to its unit what the unit's rules say. -/
theorem serialUnits : Obligations.SerialUnits := by
  unfold Obligations.SerialUnits
  refine ⟨fun s u data perr ferr k n level read nack arb b r => ⟨completes_uartRxCharacter, completes_uartTxCharacter, completes_deLeadExpiry,
    completes_deTailExpiry, completes_uartIdleDetect, ?_, ?_, ?_⟩,
    fun s k b ide rtr fdf brs esi tx heavy id dlc data sof => ⟨fun hon hs => ⟨?_, ?_, ?_⟩, ?_⟩⟩
  · exact fun hp hb => ⟨completes_spiByte hp hb, completes_spiTransferDone hp hb⟩
  · exact fun hp he => ⟨fun hc ha hl => ⟨completes_i2cByte_read hp he hc ha hl, completes_i2cByte_write hp he hc ha hl⟩,
      fun hc ha hend => completes_i2cCommandEnd hp hc ha hend, fun addr a10 hc =>
        have h := completes_i2cTargetMatch_same hp he hc
        ⟨h.1, h.2, completes_i2cCommandEnd_target hp hc⟩⟩
  · intro g bit m now hp hh hq
    obtain ⟨t, ht, hf, hin, hstat⟩ := completes_gpioPinEdge (n := n) (level := level) hp hh hq
    exact ⟨t, ht, hf, hin, hstat.trans (Bool.or_assoc _ _ _).symm⟩
  · exact fun hl hloop hb => completes_canFrameSent hon hs hl hloop (State.canServed hb)
  · exact fun hloop hfd ha hrec hm hst hlow => completes_canFrameReceived hon hs hloop hfd ha hrec hm hst hlow
  · exact completes_canBusError hon hs
  · exact fun hon hs hr => completes_canBusoffRecovery hon hs hr

end Sys2Proof.Machine

/-! PROOFS. How a request of a control mailbox is executed whose checks pass (R345, R347, R351, R353, R355). -/

namespace Sys2Proof.Machine

/-! ### Arguments within their masks (R345) -/

/-- A word has no bit beyond a mask. -/
def fitsMask (x m : Nat) : Prop := x &&& (0xFFFFFFFF ^^^ m) = 0

theorem and_eq_zero_of_parts {x n : Nat} (k : Nat) (hlo : x % 2 ^ k &&& n % 2 ^ k = 0) (hhi : x / 2 ^ k &&& n / 2 ^ k = 0) : x &&& n = 0 := by
  rw [← Nat.div_add_mod (x &&& n) (2 ^ k), Nat.and_div_two_pow, Nat.and_mod_two_pow, hlo, hhi, Nat.mul_zero]

/-- A number below a power of two meets no bit from there on. -/
theorem and_eq_zero_of_lt {x n k : Nat} (hx : x < 2 ^ k) (hn : n % 2 ^ k = 0) : x &&& n = 0 :=
  and_eq_zero_of_parts k (by rw [hn, Nat.and_zero]) (by rw [Nat.div_eq_of_lt hx, Nat.zero_and])

theorem fitsMask_all (x : Nat) : fitsMask x 0xFFFFFFFF := by
  rw [fitsMask, Nat.xor_self, Nat.and_zero]

theorem fitsMask_zero (m : Nat) : fitsMask 0 m := Nat.zero_and _

theorem fitsMask_low {x m k : Nat} (hx : x < 2 ^ k) (hm : (0xFFFFFFFF ^^^ m) % 2 ^ k = 0) : fitsMask x m := and_eq_zero_of_lt hx hm

/-- The arguments of a request lie within the masks of its row. -/
def argsFit : List Nat → List Nat → Prop
  | [], _ => True
  | _ :: _, [] => False
  | x :: xs, m :: ms => fitsMask x m ∧ argsFit xs ms

theorem argsFit_getD {args masks : List Nat} (h : argsFit args masks) (i : Nat) : fitsMask (args.getD i 0) (masks.getD i 0) := by
  induction args generalizing masks i with
  | nil => exact fitsMask_zero _
  | cons x xs ih =>
    cases masks with
    | nil => exact h.elim
    | cons m ms =>
      cases i with
      | zero => exact h.1
      | succ i => exact ih h.2 i

theorem any_id_of_any {pz : List Bool} (h : pz.any (fun x => x) = false) : pz.any id = false := h

/-! ### The request -/

/-- The descriptor bit of a request's first word. -/
def descBit (desc : Option (Nat × Nat)) : Nat := if desc.isSome then 2 ^ 25 else 0

/-- A request of a control mailbox, as its execution sees it. -/
def controlCall (box id code tag : Nat) (args : List Nat) (desc : Option (Nat × Nat)) (pa : Nat) : Call :=
  { id := id, box := box, words := reqWords code tag args desc, vmid := 0, pa := pa }

section
variable {box id code tag : Nat} {args : List Nat} {desc : Option (Nat × Nat)} {pa len addr : Nat}

theorem reqWords_head : (reqWords code tag args desc).headD 0 = code + tag * 2 ^ 16 + descBit desc := by
  cases desc <;> rfl

theorem controlCall_w_zero : (controlCall box id code tag args desc pa).w 0 = code + tag * 2 ^ 16 + descBit desc := by
  cases desc <;> rfl

theorem controlCall_w_arg (hlen : args.length ≤ 10) {i : Nat} (hi : i < 10) :
    (controlCall box id code tag args desc pa).w (i + 1) = args.getD i 0 := by
  have harg (l : List Nat) (n : Nat) (hl : i < args.length + n) : (args ++ (List.replicate n 0 ++ l))[i]?.getD 0 = args[i]?.getD 0 := by
    by_cases h : i < args.length
    · rw [List.getElem?_append_left h]
    · rw [List.getElem?_append_right (by omega), List.getElem?_append_left (by simp; omega), List.getElem?_replicate, if_pos (by omega),
        List.getElem?_eq_none (by omega)]
      rfl
  cases desc with
  | none => simpa [controlCall, Call.w, reqWords, List.getD] using harg [] (15 - args.length) (by omega)
  | some d =>
    have h := harg [d.1, d.2 % 2 ^ 32, d.2 / 2 ^ 32, 0, 0] (10 - args.length) (by omega)
    rw [← List.append_assoc] at h
    exact h

/-- The descriptor's words come after ten arguments. -/
theorem controlCall_w_desc (hlen : args.length ≤ 10) (i : Nat) :
    (controlCall box id code tag args (some (len, addr)) pa).w (11 + i) = [len, addr % 2 ^ 32, addr / 2 ^ 32, 0, 0].getD i 0 := by
  have h : (args ++ List.replicate (10 - args.length) 0).length = 10 := by simp; omega
  rw [Call.w, controlCall, reqWords, show 11 + i = 10 + i + 1 by omega, List.getD_cons_succ, List.getD, List.getElem?_append_right (by omega), h,
    Nat.add_sub_cancel_left]
  rfl

theorem controlCall_w_noDesc (hlen : args.length ≤ 10) (i : Nat) : (controlCall box id code tag args none pa).w (11 + i) = 0 := by
  have h : (args ++ List.replicate (15 - args.length) 0)[10 + i]?.getD 0 = 0 := by
    rw [List.getElem?_append_right (by omega), List.getElem?_replicate]
    split <;> rfl
  simpa [controlCall, Call.w, reqWords, List.getD, show 11 + i = 10 + i + 1 by omega] using h

theorem reqWords_code (hcode : code < 2 ^ 16) : (reqWords code tag args desc).headD 0 % 2 ^ 16 = code := by
  rw [reqWords_head, descBit]
  split <;> omega

/-- The response to a request does not tell whether it had a descriptor. -/
theorem reply_descBit (s : State) (b : Nat) (a : Ans) :
    s.reply b (code + tag * 2 ^ 16 + descBit desc) a = s.reply b (code + tag * 2 ^ 16) a := by
  have h : (code + tag * 2 ^ 16 + descBit desc) % 2 ^ 24 = (code + tag * 2 ^ 16) % 2 ^ 24 := by
    rw [descBit]
    split <;> omega
  simp only [State.reply, Ans.words, h]

section
variable (hcode : code < 2 ^ 16) (htag : tag < 256)
include hcode htag

theorem controlCall_async : (controlCall box id code tag args desc pa).async = false := by
  rw [Call.async, Call.bit, controlCall_w_zero, Nat.testBit_eq_decide_div_mod_eq, decide_eq_false_iff_not, descBit]
  split <;> omega

theorem controlCall_desc : (controlCall box id code tag args desc pa).desc = desc.isSome := by
  rw [Call.desc, Call.bit, controlCall_w_zero, Nat.testBit_eq_decide_div_mod_eq, descBit]
  cases desc
  · exact decide_eq_false (by simp; omega)
  · exact decide_eq_true (by simp; omega)

end

/-! ### The checks (R345, R347, R351, R355) -/

/-- What a request of a control mailbox needs to pass the checks that come before its command's own. -/
structure State.Passes (u : State) (row : CmdRow) (bad : Call → State → Option Nat) (lenOk : Call → Bool) (objs : Call → State → List Obj)
    (c : Call) (args : List Nat) (pa : Nat) : Prop where
  sender : row.client = false ∧ row.h = true
  short : args.length ≤ 10
  fits : argsFit args row.mask
  good : bad c u = none
  desc : u.descCheck row lenOk c = .ok pa
  free : row.code / 256 ≠ 3 ∧ row.code ≠ 0x202 ∧ .shroud ∉ objs c u

section
variable {s u w : State} {row : CmdRow} {bad : Call → State → Option Nat} {lenOk : Call → Bool} {objs : Call → State → List Obj}
  {act : Call → State → CmdAns}

theorem CmdRow.badBits_none (hlen : args.length ≤ 10) (h : argsFit args row.mask) :
    row.badBits (controlCall box id code tag args desc pa) = none := by
  rw [CmdRow.badBits, List.find?_eq_none]
  intro i hi
  obtain ⟨j, hj, rfl⟩ := List.mem_range'.mp hi
  have hfit := argsFit_getD h j
  rw [show 1 + 1 * j = j + 1 by omega, controlCall_w_arg hlen hj, Nat.add_sub_cancel, hfit]
  decide

/-- A request without a descriptor, of a command that needs none. -/
theorem State.descCheck_none (hcode : code < 2 ^ 16) (htag : tag < 256) (hlen : args.length ≤ 10)
    (hd : row.dir = .none ∨ (row.dir = .may ∧ lenOk (controlCall box id code tag args none 0) = true)) :
    u.descCheck row lenOk (controlCall box id code tag args none 0) = .ok 0 := by
  have hfind : ((List.range' 11 3).find? fun i => (controlCall box id code tag args none 0).w i != 0) = none := by
    rw [List.find?_eq_none]
    intro i hi
    obtain ⟨j, hj, rfl⟩ := List.mem_range'.mp hi
    rw [show 11 + 1 * j = 11 + j by omega, controlCall_w_noDesc hlen]
    decide
  unfold State.descCheck
  rw [controlCall_desc hcode htag]
  simp only [Option.isSome_none, Bool.not_false, if_true, hfind, hd]

/-- A request with a descriptor that R347 admits. -/
theorem State.descCheck_some (hcode : code < 2 ^ 16) (htag : tag < 256) (hlen : args.length ≤ 10) (hbox : box < 8) (hok : u.descOk len addr)
    (hd : row.dir ≠ .none) (hl : lenOk (controlCall box id code tag args (some (len, addr)) 0) = true) :
    u.descCheck row lenOk (controlCall box id code tag args (some (len, addr)) 0) = .ok addr := by
  obtain ⟨hpos, hmax, halign, hrange⟩ := hok
  have hclen : (controlCall box id code tag args (some (len, addr)) 0).len = len := controlCall_w_desc hlen 0
  have haddr : (controlCall box id code tag args (some (len, addr)) 0).w2 12 = addr := by
    rw [Call.w2, show 12 = 11 + 1 by rfl, controlCall_w_desc hlen 1, show 11 + 1 + 1 = 11 + 2 by rfl, controlCall_w_desc hlen 2]
    exact Nat.mod_add_div' addr (2 ^ 32)
  have hten : (controlCall box id code tag args (some (len, addr)) 0).tenant = false := decide_eq_false (by simpa [controlCall] using hbox)
  have hpa : u.descPa (controlCall box id code tag args (some (len, addr)) 0) (row.dir != .out) = some addr := by
    simp only [State.descPa, hclen, haddr, hten]
    rw [if_neg (by omega), if_neg (by decide), if_pos hrange]
  unfold State.descCheck
  rw [controlCall_desc hcode htag]
  simp only [Option.isSome_some, Bool.not_true, Bool.false_eq_true, if_false, hl, hd, or_self, hpa]

theorem State.Passes.precheck (h : u.Passes row bad lenOk objs (controlCall box id code tag args desc 0) args pa) (hcode : code < 2 ^ 16)
    (htag : tag < 256) (hbox : box < 8) (hops : u.fsi.ops = []) :
    u.precheck row bad lenOk objs (controlCall box id code tag args desc 0) = .ok (controlCall box id code tag args desc pa) := by
  obtain ⟨⟨hclient, hh⟩, hshort, hfits, hgood, hdesc, hgroup, hmode, hshroud⟩ := h
  have hten : (controlCall box id code tag args desc 0).tenant = false := decide_eq_false (by simpa [controlCall] using hbox)
  have hheld : ((objs (controlCall box id code tag args desc 0) u).any (u.heldObj (controlCall box id code tag args desc 0).id)) = false := by
    rw [List.any_eq_false]
    intro o ho
    have hne : (o == Obj.shroud) = false := beq_false_of_ne fun e => hshroud (e ▸ ho)
    simp [State.heldObj, hops, hne]
  unfold State.precheck
  simp only [hclient, hten, hh, CmdRow.badBits_none hshort hfits, hgood, firstBad, hdesc, hheld,
    controlCall_async hcode htag, decide_eq_false hgroup, beq_false_of_ne hmode, Bool.or_self, Bool.and_false,
    Bool.false_and, Bool.not_true, Bool.false_eq_true, if_false]
  rfl

/-! ### The run (R353) -/

/-- What a command's answer makes of its request, when nothing is deferred. -/
def State.served (u : State) (r : FsiReq) (w0 : Nat) (objs : List Obj) : CmdAns → State
  | .wait => { u with fsi := { u.fsi with ops := u.fsi.ops ++ [{ req := r, deferred := false, objs := objs, parked := true }] } }
  | .done a w => w.reply r.box w0 a
  | .op held res w => { w with fsi := { w.fsi with ops := w.fsi.ops ++ [{ req := r, deferred := false, objs := held, res := res }] } }

/-- R353, R355: a request whose checks pass is executed. -/
theorem State.command_of_asks (h : s.asks u box tag id code args desc) (hbox : box < 8) (hops : s.fsi.ops = []) (hrow : row.code = code)
    (hcode : code < 2 ^ 16) (hp : u.Passes row bad lenOk objs (controlCall box id code tag args desc 0) args pa) :
    s.command row bad lenOk objs act =
      u.served { id := id, box := box, words := reqWords code tag args desc } (code + tag * 2 ^ 16)
        (objs (controlCall box id code tag args desc pa) u) (act (controlCall box id code tag args desc pa) u) := by
  obtain ⟨hup, htag, hnext, htaken⟩ := h
  have hmine : decide ((reqWords code tag args desc).headD 0 % 2 ^ 16 = row.code) = true := by
    rw [reqWords_code hcode, hrow]
    exact decide_eq_true rfl
  have hrot : (if box < 8 then s.fsi.rot else (box - 7) % 8192) = if box < 8 then s.fsi.rot else (box - 8 + 1) % 8192 := by
    rw [if_pos hbox, if_pos hbox]
  have hu := htaken.symm
  rw [hrot] at hu
  have hcall : u.callOf { id := id, box := box, words := reqWords code tag args desc } = controlCall box id code tag args desc 0 := by
    rw [State.callOf, if_pos hbox]
    rfl
  have huops : u.fsi.ops = [] := by rw [htaken]; exact hops
  have hpre := hp.precheck hcode htag hbox huops
  simp only [State.command, hup, hnext, Bool.not_true, Bool.false_eq_true, if_false, Option.filter_some, hmine, if_true, State.runReq, hu, hcall, hpre]
  cases act (controlCall box id code tag args desc pa) u with
  | wait => simp only [State.begin, controlCall_async hcode htag, Bool.and_false, Bool.false_eq_true, if_false, State.served]
  | done a w =>
    simp only [State.finish, controlCall_async hcode htag, Bool.and_false, Bool.false_and, Bool.false_eq_true, if_false, controlCall_w_zero,
      reply_descBit, State.served]
    rfl
  | op held res w => simp only [State.begin, controlCall_async hcode htag, Bool.and_false, Bool.false_eq_true, if_false, State.served]

/-- A command that is done at once answers its request. -/
theorem exec_command_done {i : Instr} {a : Ans} (e : exec i s = ok (s.command row bad lenOk objs act)) (h : s.asks u box tag id code args desc)
    (hbox : box < 8) (hops : s.fsi.ops = []) (hrow : row.code = code) (hcode : code < 2 ^ 16)
    (hp : u.Passes row bad lenOk objs (controlCall box id code tag args desc 0) args pa)
    (ha : act (controlCall box id code tag args desc pa) u = .done a w) : exec i s = ok (w.reply box (code + tag * 2 ^ 16) a) := by
  rw [e, State.command_of_asks h hbox hops hrow hcode hp, ha]
  rfl

/-- A command that goes on is in progress. -/
theorem exec_command_op {i : Instr} {held : List Obj} {res : List Nat} (e : exec i s = ok (s.command row bad lenOk objs act))
    (h : s.asks u box tag id code args desc) (hbox : box < 8) (hops : s.fsi.ops = []) (hrow : row.code = code) (hcode : code < 2 ^ 16)
    (hp : u.Passes row bad lenOk objs (controlCall box id code tag args desc 0) args pa)
    (ha : act (controlCall box id code tag args desc pa) u = .op held res w) :
    exec i s = ok { w with fsi := { w.fsi with ops := w.fsi.ops ++
      [{ req := { id := id, box := box, words := reqWords code tag args desc }, deferred := false, objs := held, res := res }] } } := by
  rw [e, State.command_of_asks h hbox hops hrow hcode hp, ha]
  rfl

/-! ### Descriptors (R347) -/

/-- Fetas has read a descriptor whose bytes are sound. -/
theorem State.readDesc_some (hcode : code < 2 ^ 16) (htag : tag < 256) (hlen : args.length ≤ 10) {b : Bytes} {pz : List Bool}
    {k : Bytes → State → CmdAns} (hr : u.ioRead addr len 18 = (.ok b pz, w)) (hz : pz.any (fun x => x) = false) :
    u.readDesc (controlCall box id code tag args (some (len, addr)) addr) k = k b w := by
  have hclen : (controlCall box id code tag args (some (len, addr)) addr).len = len := controlCall_w_desc hlen 0
  have hpa : (controlCall box id code tag args (some (len, addr)) addr).pa = addr := rfl
  unfold State.readDesc
  rw [controlCall_desc hcode htag]
  simp only [Option.isSome_some, Bool.not_true, Bool.false_eq_true, if_false, hclen, hpa, hr, any_id_of_any hz, Bool.not_false, if_true]

theorem State.readDesc_none (hcode : code < 2 ^ 16) (htag : tag < 256) {k : Bytes → State → CmdAns} :
    u.readDesc (controlCall box id code tag args none pa) k = k [] u := by
  unfold State.readDesc
  rw [controlCall_desc hcode htag]
  rfl

/-- Fetas has written a descriptor. -/
theorem State.writeDesc_done {x : State} {b : Bytes} {k : State → CmdAns} (hw : x.ioWrite addr b [] 18 = (some true, w)) :
    x.writeDesc (controlCall box id code tag args desc addr) b k = k w := by
  unfold State.writeDesc
  rw [show (controlCall box id code tag args desc addr).pa = addr from rfl, hw]

end

end

end Sys2Proof.Machine

/-! PROOFS. O53: the FIRMWARE, TRACE and KEY commands (R340, R368, R370, R371, R486, R487, R504, R505, R507, R508). -/

namespace Sys2Proof.Machine

/-! ### What taking a request leaves -/

section
variable {s u : State} {box tag id code : Nat} {args : List Nat} {desc : Option (Nat × Nat)}

/-- Taking a request leaves all but the queue of requests. -/
theorem State.asks.kept (h : s.asks u box tag id code args desc) : u = { s with fsi := u.fsi } := by rw [h.taken]

theorem State.asks.fe (h : s.asks u box tag id code args desc) : u.fe = s.fe := by rw [h.kept]
theorem State.asks.dram (h : s.asks u box tag id code args desc) : u.dram = s.dram := by rw [h.kept]
theorem State.asks.slices (h : s.asks u box tag id code args desc) : u.slices = s.slices := by rw [h.kept]
theorem State.asks.low (h : s.asks u box tag id code args desc) : u.low = s.low := by rw [h.kept]
theorem State.asks.regs (h : s.asks u box tag id code args desc) : u.regs = s.regs := by rw [h.kept]
theorem State.asks.mem (h : s.asks u box tag id code args desc) : u.mem = s.mem := by rw [h.kept]
theorem State.asks.cores (h : s.asks u box tag id code args desc) : u.cores = s.cores := by rw [h.kept]
theorem State.asks.jtag (h : s.asks u box tag id code args desc) : u.jtag = s.jtag := by rw [h.kept]
theorem State.asks.time (h : s.asks u box tag id code args desc) : u.time = s.time := by rw [h.kept]
theorem State.asks.part (h : s.asks u box tag id code args desc) : u.part = s.part := by rw [h.kept]
theorem State.asks.ready (h : s.asks u box tag id code args desc) : u.fsi.ready = s.fsi.ready := by rw [h.taken]
theorem State.asks.ops (h : s.asks u box tag id code args desc) : u.fsi.ops = s.fsi.ops := by rw [h.taken]

theorem State.asks.descOk {len addr : Nat} (h : s.asks u box tag id code args desc) (hok : s.descOk len addr) : u.descOk len addr := by
  unfold State.descOk at *
  rw [h.part]
  exact hok

end

/-- The words of a response. -/
theorem Ans.words_ok {code tag : Nat} (hcode : code < 2 ^ 16) (htag : tag < 256) (res : List Nat) :
    ({ res := res } : Ans).words (code + tag * 2 ^ 16) false = [code + tag * 2 ^ 16, 0] ++ res := by
  have h : (code + tag * 2 ^ 16) % 2 ^ 24 = code + tag * 2 ^ 16 := Nat.mod_eq_of_lt (by omega)
  simp only [Ans.words, h]
  rfl

theorem State.reply_ready (s : State) {box code tag : Nat} (hcode : code < 2 ^ 16) (htag : tag < 256) (res : List Nat) :
    (s.reply box (code + tag * 2 ^ 16) { res := res }).fsi.ready = s.fsi.ready ++ [(box, [code + tag * 2 ^ 16, 0] ++ res)] :=
  congrArg (fun w => s.fsi.ready ++ [(box, w)]) (Ans.words_ok hcode htag res)

/-! ### Arguments of two fields -/

theorem and_add_mul_eq_zero {a b n i k : Nat} (ha : a < 2 ^ i) (hik : i ≤ k) (hn : n % 2 ^ k % 2 ^ i = 0) (hb : b &&& n / 2 ^ k = 0) :
    (a + b * 2 ^ k) &&& n = 0 := by
  have hak : a < 2 ^ k := ha.trans_le (Nat.pow_le_pow_right (by decide) hik)
  refine and_eq_zero_of_parts k ?_ ?_
  · rw [Nat.add_mul_mod_self_right, Nat.mod_eq_of_lt hak]
    exact and_eq_zero_of_lt ha hn
  · rwa [Nat.add_mul_div_right _ _ (Nat.two_pow_pos k), Nat.div_eq_of_lt hak, Nat.zero_add]

theorem words_of_wide (t : Nat) : t % 2 ^ 32 + t / 2 ^ 32 * 2 ^ 32 = t := Nat.mod_add_div' t (2 ^ 32)

/-! ### The flash (R340) -/

theorem SMap.get_filter {α : Type} (d : α) (p : Nat → Bool) (m : SMap α) (a : Nat) :
    SMap.get d (m.filter fun e => p e.1) a = if p a = true then SMap.get d m a else d := by
  unfold SMap.get
  induction m with
  | nil => simp [SMap.find]
  | cons e m ih =>
    obtain ⟨j, v⟩ := e
    by_cases hp : p j = true
    · rw [List.filter_cons_of_pos (by exact hp), SMap.find, SMap.find]
      by_cases hj : j = a
      · rw [if_pos hj, if_pos hj, if_pos (hj ▸ hp)]
      · rw [if_neg hj, if_neg hj, ih]
    · rw [List.filter_cons_of_neg (by exact hp), ih, SMap.find]
      by_cases hj : j = a
      · rw [if_neg (hj ▸ hp), if_neg (hj ▸ hp)]
      · rw [if_neg hj]

/-- The flash with bytes of a string programmed from an address on (log entry 34). -/
def flashProgram (f : SMap Byte) (a : Nat) (d : List (Byte × Nat)) : SMap Byte :=
  d.foldl (fun (f : SMap Byte) x => f.set 0xFF (a + x.2) (f.get 0xFF (a + x.2) &&& x.1)) f

theorem get_flashProgram (f : SMap Byte) (a j : Nat) (d : Bytes) (x : Nat) :
    (flashProgram f a (d.zipIdx j)).get 0xFF x =
      if a + j ≤ x ∧ x < a + j + d.length then f.get 0xFF x &&& d.getD (x - (a + j)) 0 else f.get 0xFF x := by
  induction d generalizing f j with
  | nil =>
    rw [if_neg (by simp)]
    rfl
  | cons b d ih =>
    have hstep : flashProgram f a ((b :: d).zipIdx j) = flashProgram (f.set 0xFF (a + j) (f.get 0xFF (a + j) &&& b)) a (d.zipIdx (j + 1)) := rfl
    rw [hstep, ih]
    obtain hlt | rfl | hgt := Nat.lt_trichotomy x (a + j)
    · rw [if_neg (by omega), if_neg (by omega), SMap.get_set_other _ (by omega)]
    · rw [if_neg (by omega), if_pos ⟨le_refl _, by simp⟩, SMap.get_set_self, Nat.sub_self]
      rfl
    · have hlen : (b :: d).length = d.length + 1 := rfl
      have hget : (b :: d).getD (x - (a + j)) 0 = d.getD (x - (a + (j + 1))) 0 := by
        rw [show x - (a + j) = x - (a + (j + 1)) + 1 by omega, List.getD_cons_succ]
      rw [SMap.get_set_other _ (by omega), hget, hlen]
      by_cases h : x < a + j + (d.length + 1)
      · rw [if_pos (by omega), if_pos (by omega)]
      · rw [if_neg (by omega), if_neg (by omega)]

/-! ### Free bytes -/

theorem State.freshBytes_spec (s : State) (n : Nat) :
    (s.freshBytes n).1.length = n ∧ (s.freshBytes n).2 = { s with free := (s.freshBytes n).2.free } := by
  induction n with
  | zero => exact ⟨rfl, rfl⟩
  | succ n ih =>
    obtain ⟨hlen, hrest⟩ := ih
    unfold State.freshBytes
    dsimp only
    refine ⟨by rw [List.length_cons, hlen], ?_⟩
    unfold State.fresh
    dsimp only
    rw [hrest]

/-! ### Tokens (R370, R487) -/

/-- One core's part of a change of the tokens. -/
def State.applyToken (s : State) (c : CoreId) : State :=
  if (s.core c).run == .off then s else
  let old := (s.core c).reg .TRC_AUTH
  let s := s.updCore c fun k => k.setReg .TRC_AUTH [] (s.tokenWord c)
  if old != s.tokenWord c && !s.admits c then s.dbgResume c else s

theorem State.applyTokens_eq (s : State) : s.applyTokens = (List.range 64).foldl (fun s i => s.applyToken (Fin.ofNat 64 i)) s := rfl

/-- Of two states only one core differs, and that in no system register. -/
structure WakesOnly (c : CoreId) (s t : State) : Prop where
  frame : t = { s with cores := t.cores }
  others : ∀ d, d ≠ c → t.core d = s.core d
  sys : (t.core c).sys = (s.core c).sys

section
variable {s t u : State} {c : CoreId}

theorem WakesOnly.refl (c : CoreId) (s : State) : WakesOnly c s s := ⟨rfl, fun _ _ => rfl, rfl⟩

theorem WakesOnly.upd (h : WakesOnly c s t) (f : Core → Core) (hf : (f (t.core c)).sys = (t.core c).sys) : WakesOnly c s (t.updCore c f) := by
  refine ⟨?_, fun d hd => (State.core_setCore_other _ hd _).trans (h.others d hd), ?_⟩
  · unfold State.updCore State.setCore
    conv => lhs; rw [h.frame]
    rfl
  · rw [State.core_updCore, hf, h.sys]

theorem WakesOnly.wakeCheck (h : WakesOnly c s t) : WakesOnly c s (t.wakeCheck c) := by
  unfold State.wakeCheck
  split
  · exact h.upd _ rfl
  · exact h

theorem WakesOnly.dbgResume (s : State) (c : CoreId) : WakesOnly c s (s.dbgResume c) := by
  refine (WakesOnly.wakeCheck ((WakesOnly.refl c s).upd _ ?_)).upd _ rfl
  split <;> rfl

/-- What a change of the tokens leaves of a state, and of a core that it has reached. -/
theorem State.applyToken_spec (s : State) (c : CoreId) :
    s.applyToken c = { s with cores := (s.applyToken c).cores } ∧ (∀ d, d ≠ c → (s.applyToken c).core d = s.core d) ∧
    ((s.core c).run ≠ .off → ((s.applyToken c).core c).reg .TRC_AUTH = s.tokenWord c) := by
  unfold State.applyToken
  split
  · next h => exact ⟨rfl, fun _ _ => rfl, fun hr => absurd (eq_of_beq h) hr⟩
  · dsimp only
    have hother (d : CoreId) (hd : d ≠ c) : (s.updCore c fun k => k.setReg .TRC_AUTH [] (s.tokenWord c)).core d = s.core d :=
      State.core_setCore_other _ hd _
    have hreg : ((s.updCore c fun k => k.setReg .TRC_AUTH [] (s.tokenWord c)).core c).reg .TRC_AUTH = s.tokenWord c := by
      rw [State.core_updCore, Core.reg_setReg]
    split
    · have hw := WakesOnly.dbgResume (s.updCore c fun k => k.setReg .TRC_AUTH [] (s.tokenWord c)) c
      refine ⟨hw.frame, fun d hd => (hw.others d hd).trans (hother d hd), fun _ => ?_⟩
      rw [Core.reg, hw.sys]
      exact hreg
    · exact ⟨rfl, hother, fun _ => hreg⟩

/-- R487: TRC_AUTH of every core that is not off follows the live tokens. -/
theorem State.applyTokens_spec (s : State) :
    s.applyTokens = { s with cores := s.applyTokens.cores } ∧
    ∀ c, (s.core c).run ≠ .off → (s.applyTokens.core c).reg .TRC_AUTH = s.tokenWord c := by
  have hfold : ∀ n ≤ 64, ∀ t, t = (List.range n).foldl (fun s i => s.applyToken (Fin.ofNat 64 i)) s →
      t = { s with cores := t.cores } ∧ (∀ c : CoreId, n ≤ c.val → t.core c = s.core c) ∧
      ∀ c : CoreId, c.val < n → (s.core c).run ≠ .off → (t.core c).reg .TRC_AUTH = s.tokenWord c := by
    intro n
    induction n with
    | zero =>
      rintro - t rfl
      exact ⟨rfl, fun _ _ => rfl, fun c hc => absurd hc (Nat.not_lt_zero _)⟩
    | succ n ih =>
      rintro hn t rfl
      rw [List.range_succ, List.foldl_append, List.foldl_cons, List.foldl_nil]
      obtain ⟨hframe, hlater, hearlier⟩ := ih (by omega) _ rfl
      generalize (List.range n).foldl (fun s i => s.applyToken (Fin.ofNat 64 i)) s = x at hframe hlater hearlier
      obtain ⟨hf, ho, hr⟩ := x.applyToken_spec (Fin.ofNat 64 n)
      have hval : (Fin.ofNat 64 n).val = n := Nat.mod_eq_of_lt (by omega)
      have hword (c : CoreId) : x.tokenWord c = s.tokenWord c := by rw [hframe]; rfl
      refine ⟨by rw [hf, hframe], fun c hc => ?_, fun c hc hrun => ?_⟩
      · rw [ho c fun e => by rw [e, hval] at hc; omega, hlater c (by omega)]
      · by_cases he : c = Fin.ofNat 64 n
        · subst he
          rw [hr (by rw [hlater _ (by omega)]; exact hrun), hword]
        · rw [ho c he, hearlier c (by have : c.val ≠ n := fun e => he (Fin.ext (e.trans hval.symm)); omega) hrun]
  rw [State.applyTokens_eq]
  obtain ⟨h1, -, h3⟩ := hfold 64 (le_refl _) _ rfl
  exact ⟨h1, fun c => h3 c c.isLt⟩

/-- What a state is in which TRC_AUTH has come to follow the live tokens. -/
structure FollowsTokens (s t : State) : Prop where
  fe : t.fe = s.fe
  mem : t.mem = s.mem
  regs : t.regs = s.regs
  fsi : t.fsi = s.fsi
  jtag : t.jtag = s.jtag
  auth : ∀ c, (s.core c).run ≠ .off → (t.core c).reg .TRC_AUTH = t.tokenWord c

theorem State.applyTokens_follows (s : State) : FollowsTokens s s.applyTokens := by
  obtain ⟨hframe, hauth⟩ := s.applyTokens_spec
  have hfe : s.applyTokens.fe = s.fe := by rw [hframe]
  refine ⟨hfe, by rw [hframe], by rw [hframe], by rw [hframe], by rw [hframe], fun c h => ?_⟩
  rw [hauth c h, State.tokenWord, State.tokenWord, hfe]

end

/-! ### Key maps (R371) -/

/-- A run of map entries takes one value. -/
def State.mapKeys (s : State) (x n : Nat) (v : Word) : State := (List.range n).foldl (fun s i => s.setReg .DKEY_MAP [x + i] v) s

theorem State.mapKeys_spec (s : State) (x n : Nat) (v : Word) :
    s.mapKeys x n v = { s with regs := (s.mapKeys x n v).regs } ∧ ∀ i < n, (s.mapKeys x n v).reg .DKEY_MAP [x + i] = v := by
  induction n with
  | zero => exact ⟨rfl, fun i hi => absurd hi (Nat.not_lt_zero i)⟩
  | succ n ih =>
    have hstep : s.mapKeys x (n + 1) v = (s.mapKeys x n v).setReg .DKEY_MAP [x + n] v := by
      rw [State.mapKeys, List.range_succ, List.foldl_append]
      rfl
    rw [hstep]
    refine ⟨?_, fun i hi => ?_⟩
    · conv => lhs; rw [ih.1]
      rfl
    · by_cases h : i = n
      · rw [h, State.reg_setReg]
      · rw [State.reg_setReg_other _ _ _ _ _ _ (by rw [dkeyMap_at, dkeyMap_at]; omega), ih.2 i (by omega)]

end Sys2Proof.Machine

/-! PROOFS. O53: the FIRMWARE and TRACE commands (R340, R368, R370, R487, R507, R508). -/

namespace Sys2Proof.Machine

/-- A request of a control mailbox without a descriptor, in progress. -/
def controlOp (box id code tag : Nat) (args : List Nat) (objs : List Obj) : FsiOp :=
  { req := { id := id, box := box, words := reqWords code tag args none }, deferred := false, objs := objs }

theorem State.asks.banks {s u : State} {box tag id code : Nat} {args : List Nat} {desc : Option (Nat × Nat)}
    (h : s.asks u box tag id code args desc) (host : Bool) : u.banks host = s.banks host := by
  rw [State.banks, State.banks, h.fe]

theorem State.asks.tooOld {s u : State} {box tag id code : Nat} {args : List Nat} {desc : Option (Nat × Nat)} {host : Bool} {n : Nat}
    (h : s.asks u box tag id code args desc) (hf : s.deployed = true → s.floor host ≤ n) : (u.deployed && decide (n < u.floor host)) = false := by
  have hd : u.deployed = s.deployed := by rw [State.deployed, h.fe, State.deployed]
  have hfl : u.floor host = s.floor host := by rw [State.floor, h.fe, State.floor]
  rw [hd, hfl]
  cases hs : s.deployed with
  | false => rfl
  | true => rw [decide_eq_false (Nat.not_lt.mpr (hf hs)), Bool.and_false]

/-- The banks of a target wait for a tick. -/
def State.actAt (s : State) (host : Bool) (w : Option (Nat × Nat)) : State :=
  if host then { s with fe := { s.fe with hostAct := w } } else { s with fe := { s.fe with fwAct := w } }

theorem State.actAt_spec (s : State) (host : Bool) (w : Option (Nat × Nat)) :
    s.actAt host w = { s with fe := (s.actAt host w).fe } ∧
    (if host then (s.actAt host w).fe.hostAct else (s.actAt host w).fe.fwAct) = w ∧ (s.actAt host w).banks host = s.banks host := by
  cases host <;> exact ⟨rfl, rfl, rfl⟩

/-- Setting the banks of a target leaves the checks of an image, and what it is checked against. -/
theorem State.verifyImage_setBanks (s : State) (host : Bool) (x : Banks) : (s.setBanks host x).verifyImage = s.verifyImage := by
  cases host <;> rfl

theorem State.cusKeyHash_setBanks (s : State) (host : Bool) (x : Banks) : (s.setBanks host x).cusKeyHash = s.cusKeyHash := by
  cases host <;> rfl

theorem State.deployed_setBanks (s : State) (host : Bool) (x : Banks) : (s.setBanks host x).deployed = s.deployed := by
  cases host <;> rfl

theorem State.floor_setBanks (s : State) (host : Bool) (x : Banks) : (s.setBanks host x).floor host = s.floor host := by
  cases host <;> rfl

theorem State.banks_setBanks (s : State) (host : Bool) (x : Banks) : (s.setBanks host x).banks host = x := by
  cases host <;> rfl

theorem OnHealth.banks {s t : State} (h : OnHealth s t) (host : Bool) : t.banks host = s.banks host := by
  rw [State.banks, State.banks, h.fe]

/-- The bank of an image that verifies (R368, R497). -/
def stagedBank (h : ImgHead) (d : Bytes) : Bank :=
  { valid := true, shipped := false, version := h.version, floor := h.floor,
    hash := BitVec.ofNat 384 (beNat (sha384 (d.take (256 + h.length + sigLen)))) }

/-- An image that verifies is in the inactive bank of its target, and a host image in that bank's bytes too (R368, R493). -/
def State.stage (s : State) (host : Bool) (h : ImgHead) (d : Bytes) : State :=
  let x := s.banks host
  let y := s.setBanks host { x.setBank (!x.useB) { valid := false, shipped := false } with staged := false }
  let y := if host then y.fetasWrite (hostBankPa (!x.useB)) (d.take (256 + h.length + sigLen)) else y
  (y.setBanks host { x.setBank (!x.useB) (stagedBank h d) with staged := true }).healthEval

theorem State.banks_stage (s : State) (host : Bool) (h : ImgHead) (d : Bytes) :
    (s.stage host h d).banks host = { (s.banks host).setBank (!(s.banks host).useB) (stagedBank h d) with staged := true } := by
  unfold State.stage
  exact ((State.healthEval_onHealth _).banks host).trans (State.banks_setBanks _ _ _)

theorem State.bank_stage (s : State) (host : Bool) (h : ImgHead) (d : Bytes) :
    ((s.stage host h d).banks host).bank (!(s.banks host).useB) = stagedBank h d ∧
      ((s.stage host h d).banks host).bank (s.banks host).useB = (s.banks host).bank (s.banks host).useB ∧
      ((s.stage host h d).banks host).useB = (s.banks host).useB ∧ ((s.stage host h d).banks host).staged = true := by
  rw [State.banks_stage, Banks.setBank]
  cases (s.banks host).useB <;> exact ⟨rfl, rfl, rfl, rfl⟩

section
variable {s u v : State} {box tag id : Nat} (hops : s.fsi.ops = []) (hbox : box < 8)

/-! ### FIRMWARE (R340, R368, R507, R508) -/

section
variable {host : Bool} {args : List Nat}

theorem badTarget_none {code : Nat} {desc : Option (Nat × Nat)} {pa : Nat} :
    badTarget (controlCall box id code tag (b2n host :: args) desc pa) u = none := by
  have h : (controlCall box id code tag (b2n host :: args) desc pa).w 1 = b2n host := by cases desc <;> rfl
  rw [badTarget, h]
  cases host <;> rfl

theorem target_host {code : Nat} {desc : Option (Nat × Nat)} {pa : Nat} :
    ((controlCall box id code tag (b2n host :: args) desc pa).w 1 == 1) = host := by
  cases desc <;> cases host <;> rfl

theorem fitsMask_host : fitsMask (b2n host) 3 := by cases host <;> exact rfl

theorem onTarget_free {code : Nat} {desc : Option (Nat × Nat)} {pa : Nat} :
    Obj.shroud ∉ onTarget (controlCall box id code tag args desc pa) u := by simp [onTarget]

end

include hops hbox

/-- R368: an image that verifies is staged. -/
theorem exec_firmwareStage {host : Bool} {len addr : Nat} {b pay : Bytes} {pz : List Bool} {h : ImgHead}
    (ha : s.asks u box tag id 0x901 [b2n host] (some (len, addr))) (hok : s.descOk len addr) (hr : u.ioRead addr len 18 = (.ok b pz, v))
    (hz : pz.any (fun x => x) = false) (hfe : v.fe = s.fe)
    (himg : v.verifyImage (if host then 2 else 1) (if host then s.cusKeyHash else fwKeyHash) b = some (h, pay))
    (hf : s.deployed = true → s.floor host ≤ h.floor) :
    s.answers (v.stage host h b) .firmwareStage box 0x901 tag { res := [b2n (!(s.banks host).useB)] } := by
  have hbanks : v.banks host = s.banks host := by rw [State.banks, hfe, State.banks]
  have hcus : v.cusKeyHash = s.cusKeyHash := by rw [State.cusKeyHash, hfe, State.cusKeyHash]
  have hold : (v.deployed && decide (h.floor < v.floor host)) = false := by
    have hu := ha.tooOld hf
    rw [State.deployed, State.floor, ha.fe] at hu
    rwa [State.deployed, State.floor, hfe]
  refine exec_command_done rfl ha hbox hops rfl (by decide) (pa := addr)
    { sender := ⟨rfl, rfl⟩, short := by simp, fits := ⟨fitsMask_host, trivial⟩, good := badTarget_none,
      desc := State.descCheck_some (by decide) ha.small (by simp) hbox (ha.descOk hok) (by decide) rfl,
      free := ⟨by decide, by decide, onTarget_free⟩ } ?_
  dsimp only
  rw [State.readDesc_some (by decide) ha.small (by simp) hr hz]
  simp only [target_host, State.verifyImage_setBanks, State.cusKeyHash_setBanks, State.deployed_setBanks, State.floor_setBanks, hcus, himg, hold,
    Bool.false_eq_true, if_false]
  rw [← hbanks]
  rfl

theorem exec_firmwareStatus (h : s.asks u box tag id 0x903 [] none) :
    s.answers u .firmwareStatus box 0x903 tag { res := ([s.fe.fw.versionOf false false, s.fe.fw.versionOf false true, s.fe.hostBanks.versionOf true false,
      s.fe.hostBanks.versionOf true true, b2n s.fe.fw.useB + b2n s.fe.hostBanks.useB * 2] ++ (List.range 8).map fun i =>
        leNat (piece (toBe (s.fe.fw.hashOf false s.fe.fw.useB).toNat 48) (4 * i) 4)) } := by
  refine exec_command_done rfl h hbox hops rfl (by decide) (pa := 0)
    { sender := ⟨rfl, rfl⟩, short := by decide, fits := trivial, good := rfl,
      desc := State.descCheck_none (by decide) h.small (by decide) (.inl rfl), free := ⟨by decide, by decide, by simp [noObj]⟩ } ?_
  rw [← h.fe]
  rfl

theorem completes_firmwareActivate {host : Bool} {t : Nat} (h : s.asks u box tag id 0x902 [b2n host, t % 2 ^ 32, t / 2 ^ 32] none) (ht : t < 2 ^ 48)
    (hst : (s.banks host).staged = true) :
    Completes .firmwareActivate s fun z =>
      (if host then z.fe.hostAct else z.fe.fwAct) = some (t, id) ∧
      z.fsi.ops = [controlOp box id 0x902 tag [b2n host, t % 2 ^ 32, t / 2 ^ 32] [.firmware (b2n host)]] ∧
      z.banks host = s.banks host ∧ z.regs = s.regs ∧ z.mem = s.mem ∧ z.cores = s.cores := by
  have hst' : (u.banks host).staged = true := by rw [h.banks, hst]
  have hw : (controlCall box id 0x902 tag [b2n host, t % 2 ^ 32, t / 2 ^ 32] none 0).w2 2 = t := words_of_wide t
  obtain ⟨hframe, hact, hbanks⟩ := u.actAt_spec host (some (t, id))
  have e := exec_command_op (i := .firmwareActivate) (pa := 0) (w := u.actAt host (some (t, id))) (held := [.firmware (b2n host)]) (res := [])
    rfl h hbox hops rfl (by decide)
    { sender := ⟨rfl, rfl⟩, short := by simp, fits := ⟨fitsMask_host, fitsMask_all _, fitsMask_low (k := 16) (by omega) (by decide), trivial⟩,
      good := badTarget_none, desc := State.descCheck_none (by decide) h.small (by simp) (.inl rfl),
      free := ⟨by decide, by decide, onTarget_free⟩ } (by
        dsimp only
        rw [target_host, hst', hw]
        rfl)
  rw [hframe] at e
  refine completes_ok e ⟨hact, ?_, ?_, h.regs, h.mem, h.cores⟩
  · exact congrArg (· ++ [controlOp box id 0x902 tag [b2n host, t % 2 ^ 32, t / 2 ^ 32] [.firmware (b2n host)]]) (h.ops.trans hops)
  · exact hbanks.trans (h.banks host)

/-- R368: the other bank of a target that may run becomes active at once. -/
theorem completes_firmwareRollback {host : Bool} (h : s.asks u box tag id 0x905 [b2n host] none) (hv : (s.banks host).other.valid = true)
    (hf : s.deployed = true → s.floor host ≤ (s.banks host).floorOf host (!(s.banks host).useB)) :
    Completes .firmwareRollback s fun z => (if host then z.fe.hostAct else z.fe.fwAct) = some (0, id) ∧
      z.fsi.ops = [controlOp box id 0x905 tag [b2n host] [.firmware (b2n host)]] ∧ z.regs = s.regs ∧ z.mem = s.mem := by
  obtain ⟨hframe, hact, -⟩ := u.actAt_spec host (some (0, id))
  have hold := h.tooOld hf
  have e := exec_command_op (i := .firmwareRollback) (pa := 0) (w := u.actAt host (some (0, id))) (held := [.firmware (b2n host)]) (res := [])
    rfl h hbox hops rfl (by decide)
    { sender := ⟨rfl, rfl⟩, short := by simp, fits := ⟨fitsMask_host, trivial⟩, good := badTarget_none,
      desc := State.descCheck_none (by decide) h.small (by simp) (.inl rfl), free := ⟨by decide, by decide, onTarget_free⟩ } (by
        dsimp only
        rw [target_host, h.banks, hv, hold]
        rfl)
  rw [hframe] at e
  exact completes_ok e ⟨hact,
    congrArg (· ++ [controlOp box id 0x905 tag [b2n host] [.firmware (b2n host)]]) (h.ops.trans hops), h.regs, h.mem⟩

/-- R340: a range of sectors is erased. -/
theorem completes_firmwareFlash_erase {at' len : Nat} (h : s.asks u box tag id 0x904 [0, at', len] none) (ha : at' % 4096 = 0) (hl : 0 < len)
    (hl4 : len % 4096 = 0) (hsize : at' + len ≤ s.flashSize) :
    Completes .firmwareFlash s fun z => (∀ a, at' ≤ a → a < at' + len → z.flashByte a = 0xFF) ∧
      (∀ a, (a < at' ∨ at' + len ≤ a) → z.flashByte a = s.flashByte a) ∧ z.mem = s.mem ∧ z.regs = s.regs ∧ z.cores = s.cores := by
  have hfs : u.flashSize = s.flashSize := by rw [State.flashSize, State.fld, State.reg_of_regs h.regs, State.flashSize, State.fld]
  have hbit : (controlCall box id 0x904 tag [0, at', len] none 0).bit 1 0 = false := Nat.zero_testBit 0
  have e := exec_command_done (i := .firmwareFlash) (pa := 0) (a := { res := [] })
    (w := { u with low := { u.low with flash := u.low.flash.filter fun e => !(decide (at' ≤ e.1) && decide (e.1 < at' + len)) } })
    rfl h hbox hops rfl (by decide)
    { sender := ⟨rfl, rfl⟩, short := by simp, fits := ⟨fitsMask_zero _, fitsMask_all _, fitsMask_all _, trivial⟩,
      good := by
        rw [hbit]
        show badWhen [(2, decide (at' % 4096 ≠ 0)), (3, decide (len = 0 ∨ len % 4096 ≠ 0))] = none
        rw [decide_eq_false (by omega), decide_eq_false (by omega)]
        rfl
      desc := State.descCheck_none (by decide) h.small (by simp) (.inr ⟨rfl, by
        rw [controlCall_desc (by decide) h.small, hbit]
        rfl⟩),
      free := ⟨by decide, by decide, by simp⟩ } (by
        dsimp only
        rw [State.readDesc_none (by decide) h.small]
        simp only [hbit, Bool.false_eq_true, if_false]
        show (if u.flashSize = 0 then _ else if u.flashSize ≤ at' then _ else if u.flashSize < at' + len then _ else _ : CmdAns) = _
        rw [if_neg (by omega), if_neg (by omega), if_neg (by omega)]
        rfl)
  have hget (a : Nat) := SMap.get_filter (0xFF : Byte) (fun k => !(decide (at' ≤ k) && decide (k < at' + len))) u.low.flash a
  refine completes_ok e ⟨fun a h1 h2 => ?_, fun a h1 => ?_, h.mem, h.regs, h.cores⟩
  · exact (hget a).trans (if_neg (by simp [h1, h2]))
  · refine (hget a).trans ((if_pos ?_).trans ?_)
    · simp only [Bool.not_eq_true', Bool.and_eq_false_iff, decide_eq_false_iff_not]
      omega
    · rw [h.low]
      rfl

/-- R340: bytes are programmed. -/
theorem completes_firmwareFlash_program {at' len addr : Nat} {b : Bytes} {pz : List Bool} (h : s.asks u box tag id 0x904 [1, at'] (some (len, addr)))
    (hok : s.descOk len addr) (hr : u.ioRead addr len 18 = (.ok b pz, v)) (hz : pz.any (fun x => x) = false) (hlow : v.low = s.low)
    (hregs : v.regs = s.regs) (ha : at' % 4096 = 0) (hl : 0 < b.length) (hsize : at' + b.length ≤ s.flashSize) :
    Completes .firmwareFlash s fun z => (∀ i < b.length, z.flashByte (at' + i) = s.flashByte (at' + i) &&& b.getD i 0) ∧
      (∀ a, (a < at' ∨ at' + b.length ≤ a) → z.flashByte a = s.flashByte a) := by
  have hfs : v.flashSize = s.flashSize := by rw [State.flashSize, State.fld, State.reg_of_regs hregs, State.flashSize, State.fld]
  have hbit (pa : Nat) : (controlCall box id 0x904 tag [1, at'] (some (len, addr)) pa).bit 1 0 = true := Nat.testBit_one_zero
  have e := exec_command_done (i := .firmwareFlash) (pa := addr) (a := { res := [] })
    (w := { v with low := { v.low with flash := flashProgram v.low.flash at' (b.zipIdx 0) } })
    rfl h hbox hops rfl (by decide)
    { sender := ⟨rfl, rfl⟩, short := by simp, fits := ⟨fitsMask_low (k := 1) (by decide) (by decide), fitsMask_all _, trivial⟩,
      good := by
        rw [hbit]
        show badWhen [(2, decide (at' % 4096 ≠ 0)), (3, false)] = none
        rw [decide_eq_false (by omega)]
        rfl
      desc := State.descCheck_some (by decide) h.small (by simp) hbox (h.descOk hok) (by decide) (by
        rw [controlCall_desc (by decide) h.small, hbit]
        rfl),
      free := ⟨by decide, by decide, by simp⟩ } (by
        dsimp only
        rw [State.readDesc_some (by decide) h.small (by simp) hr hz]
        simp only [hbit, if_true]
        show (if v.flashSize = 0 then _ else if v.flashSize ≤ at' then _ else if v.flashSize < at' + b.length then _ else _ : CmdAns) = _
        rw [if_neg (by omega), if_neg (by omega), if_neg (by omega)]
        rfl)
  have hget (a : Nat) := get_flashProgram v.low.flash at' 0 b a
  refine completes_ok e ⟨fun i hi => ?_, fun a h1 => ?_⟩
  · refine (hget _).trans ((if_pos (by omega)).trans ?_)
    rw [Nat.add_zero, Nat.add_sub_cancel_left, hlow]
    rfl
  · refine (hget a).trans ((if_neg (by omega)).trans ?_)
    rw [hlow]
    rfl

/-- The token that Fetas issues next to one VMID, without a credential (R370). -/
def State.newToken (s : State) (vmid : Nat) (kk : Bool) (mask : BitVec 64) (ms : Nat) : Token :=
  { num := s.fe.tokenNext, vmid := vmid, k := kk, h := false, sealedOk := false, all := false, mask := mask, ends := s.time + ms * 1000000 }

/-- A token is issued (R370, R487). -/
def State.issued (s : State) (t : Token) : State := { s with fe := { s.fe with tokens := s.fe.tokens ++ [t], tokenNext := s.fe.tokenNext + 1 } }

omit hops hbox in
theorem bit16_pair {vmid : Nat} (kk : Bool) (hv : vmid < 8192) :
    (vmid + b2n kk * 2 ^ 16) % 8192 = vmid ∧ (vmid + b2n kk * 2 ^ 16).testBit 16 = kk ∧ (vmid + b2n kk * 2 ^ 16).testBit 17 = false ∧
      (vmid + b2n kk * 2 ^ 16).testBit 18 = false ∧ (vmid + b2n kk * 2 ^ 16).testBit 19 = false := by
  have hk := b2n_le kk
  have hb (j : Nat) (hj : (vmid + b2n kk * 2 ^ 16) / 2 ^ j % 2 = 0) : (vmid + b2n kk * 2 ^ 16).testBit j = false := by
    rw [Nat.testBit_eq_decide_div_mod_eq, hj]
    rfl
  refine ⟨by omega, ?_, hb 17 (by omega), hb 18 (by omega), hb 19 (by omega)⟩
  rw [Nat.testBit_eq_decide_div_mod_eq, show (vmid + b2n kk * 2 ^ 16) / 2 ^ 16 % 2 = b2n kk by omega]
  cases kk <;> rfl

theorem completes_traceAuthorise {vmid ms : Nat} {kk : Bool} {mask : BitVec 64}
    (h : s.asks u box tag id 0xB01 [vmid + b2n kk * 2 ^ 16, mask.toNat % 2 ^ 32, mask.toNat / 2 ^ 32, ms] none) (hv : vmid < 8192) (hms : 0 < ms)
    (hms' : ms ≤ 86400000) (hroom : s.fe.tokens.length < 16) :
    Completes .traceAuthorise s fun z =>
      z.fe.tokens = s.fe.tokens ++ [s.newToken vmid kk mask ms] ∧ z.mem = s.mem ∧ z.regs = s.regs ∧
      (∀ c : CoreId, (s.core c).run ≠ .off → (z.core c).reg .TRC_AUTH = z.tokenWord c) ∧
      z.fsi.ready = s.fsi.ready ++ [(box, [0xB01 + tag * 2 ^ 16, 0, s.fe.tokenNext])] := by
  obtain ⟨hvm, hb16, hb17, hb18, hb19⟩ := bit16_pair kk hv
  obtain ⟨c, hc⟩ : ∃ c, controlCall box id 0xB01 tag [vmid + b2n kk * 2 ^ 16, mask.toNat % 2 ^ 32, mask.toNat / 2 ^ 32, ms] none 0 = c := ⟨_, rfl⟩
  have hmask : BitVec.ofNat 64 (c.w2 2) = mask := by
    rw [← hc, show (controlCall ..).w2 2 = mask.toNat from words_of_wide _, BitVec.ofNat_toNat, BitVec.setWidth_eq]
  have hw1 : c.w 1 % 8192 = vmid := hc ▸ hvm
  have h16 : c.bit 1 16 = kk := hc ▸ hb16
  have h17 : c.bit 1 17 = false := hc ▸ hb17
  have h18 : c.bit 1 18 = false := hc ▸ hb18
  have h19 : c.bit 1 19 = false := hc ▸ hb19
  have hw4 : c.w 4 = ms := hc ▸ rfl
  have hroom' : ¬ 16 ≤ u.fe.tokens.length := by rw [h.fe]; omega
  have e := exec_command_done (i := .traceAuthorise) (pa := 0) (a := { res := [u.fe.tokenNext] }) (w := (u.issued (u.newToken vmid kk mask ms)).applyTokens)
    rfl h hbox hops rfl (by decide)
    { sender := ⟨rfl, rfl⟩, short := by simp,
      fits := ⟨and_add_mul_eq_zero (i := 13) (by omega) (by decide) (by decide)
        (and_eq_zero_of_lt (k := 4) (by have := b2n_le kk; omega) (by decide)), fitsMask_all _, fitsMask_all _, fitsMask_all _, trivial⟩,
      good := by
        rw [hc, h19, hw4, decide_eq_false (show ¬(ms = 0 ∨ 86400000 < ms) by omega)]
        rfl
      desc := State.descCheck_none (by decide) h.small (by simp) (.inr ⟨rfl, by
        rw [controlCall_desc (by decide) h.small]
        rfl⟩),
      free := ⟨by decide, by decide, by simp [noObj]⟩ } (by
        dsimp only
        rw [State.readDesc_none (by decide) h.small]
        rw [hc, h17, h18, Bool.or_self, Bool.false_and, if_neg (by decide), if_neg hroom', h16, h19, hw1, hmask, hw4]
        rfl)
  have hnew : u.newToken vmid kk mask ms = s.newToken vmid kk mask ms := by rw [State.newToken, h.fe, h.time, State.newToken]
  have hnum : u.fe.tokenNext = s.fe.tokenNext := by rw [h.fe]
  rw [hnew, hnum] at e
  have hx := (u.issued (s.newToken vmid kk mask ms)).applyTokens_follows
  generalize (u.issued (s.newToken vmid kk mask ms)).applyTokens = x at e hx
  refine completes_ok e ⟨?_, hx.mem.trans h.mem, hx.regs.trans h.regs, fun c hrun => hx.auth c ?_, ?_⟩
  · show x.fe.tokens = _
    rw [hx.fe, State.issued, h.fe]
  · rw [State.core, show (u.issued (s.newToken vmid kk mask ms)).cores = s.cores from h.cores]
    exact hrun
  · rw [State.reply_ready _ (by decide) h.small, hx.fsi]
    exact congrArg (· ++ _) h.ready

/-- R370, R487: a token that stands is ended. -/
theorem completes_traceRevoke {n : Nat} (h : s.asks u box tag id 0xB02 [n] none) (hn : ∃ y ∈ s.fe.tokens, y.num = n) :
    Completes .traceRevoke s fun z => (∀ y ∈ z.fe.tokens, y.num ≠ n) ∧ z.mem = s.mem ∧ z.regs = s.regs ∧
      (s.jtag.token = some n → z.jtag.token = none) ∧
      ∀ c : CoreId, (s.core c).run ≠ .off → (z.core c).reg .TRC_AUTH = z.tokenWord c := by
  have hany : (u.fe.tokens.any fun t => t.num == n) = true := by
    obtain ⟨y, hy, hyn⟩ := hn
    rw [h.fe, List.any_eq_true]
    exact ⟨y, hy, beq_iff_eq.mpr hyn⟩
  have e := exec_command_done (i := .traceRevoke) (pa := 0) (a := { res := [] }) (w := u.endToken n) rfl h hbox hops rfl (by decide)
    { sender := ⟨rfl, rfl⟩, short := by simp, fits := ⟨fitsMask_all _, trivial⟩,
      good := by
        show badWhen [(1, !(u.fe.tokens.any fun t => t.num == n))] = none
        rw [hany]
        rfl
      desc := State.descCheck_none (by decide) h.small (by simp) (.inl rfl), free := ⟨by decide, by decide, by simp⟩ } rfl
  let gone : State := { u with
    fe := { u.fe with tokens := u.fe.tokens.filter fun t => t.num != n },
    jtag := if u.jtag.token = some n then { u.jtag with token := none } else u.jtag }
  have hx : FollowsTokens gone (u.endToken n) := State.applyTokens_follows gone
  generalize u.endToken n = x at e hx
  refine completes_ok e ⟨fun y hy => ?_, hx.mem.trans h.mem, hx.regs.trans h.regs, fun ht => ?_, fun c hrun => hx.auth c ?_⟩
  · have hy' : y ∈ x.fe.tokens := hy
    rw [hx.fe] at hy'
    simpa using (List.mem_filter.mp hy').2
  · show x.jtag.token = none
    have hj : gone.jtag = { u.jtag with token := none } := if_pos (by rw [h.jtag, ht])
    rw [hx.jtag, hj]
  · rw [State.core, show gone.cores = s.cores from h.cores]
    exact hrun

/-- R370: the tokens are listed. -/
theorem exec_traceList {len addr : Nat} {b : Bytes} {z : State} (h : s.asks u box tag id 0xB03 [] (some (len, addr))) (hok : s.descOk len addr)
    (hb : u.freshBytes (32 * min s.fe.tokens.length (len / 32)) = (b, v)) (hw : v.ioWrite addr b [] 18 = (some true, z)) :
    s.answers z .traceList box 0xB03 tag { res := [min s.fe.tokens.length (len / 32)] } := by
  have hlen : (controlCall box id 0xB03 tag [] (some (len, addr)) addr).len = len := rfl
  refine exec_command_done rfl h hbox hops rfl (by decide) (pa := addr)
    { sender := ⟨rfl, rfl⟩, short := by decide, fits := trivial, good := rfl,
      desc := State.descCheck_some (by decide) h.small (by decide) hbox (h.descOk hok) (by decide) rfl,
      free := ⟨by decide, by decide, by simp [noObj]⟩ } ?_
  dsimp only
  rw [hlen, h.fe, hb]
  exact State.writeDesc_done hw

end

end Sys2Proof.Machine

/-! PROOFS. O53: the KEY commands (R250, R371, R504, R505), and the settlement. -/

namespace Sys2Proof.Machine

/-- R505: what a wrapped key leaves in its slot. -/
theorem State.loadSlot_wrapped (s : State) (k : Nat) (key : Bytes) :
    (s.loadSlot k (some key)).dram.slotKey.get none k = some (2 ^ 600 + leNat key) ∧ k ∈ (s.loadSlot k (some key)).fe.slots ∧
      (s.loadSlot k (some key)).mem = s.mem := by
  have hs : (s.loadSlot k (some key)).dram.slotKey = s.dram.slotKey.set none k (some (2 ^ 600 + leNat key)) := rfl
  exact ⟨by rw [hs, SMap.get_set_self], mem_insertRising_self _ _, rfl⟩

/-- A response leaves all but the mailboxes. -/
theorem State.reply_frame {s t : State} (h : t = { s with regs := t.regs }) (box w : Nat) (a : Ans) :
    t.reply box w a = { s with regs := (t.reply box w a).regs, fsi := (t.reply box w a).fsi } := by
  generalize t.regs = r at h
  subst h
  rfl

/-- The second argument of KEY_SLICE_KEY: the handle, the kind and whether a key is generated. -/
theorem sliceKeyArg {k kind : Nat} (g : Bool) (hk : k < 16) (hkind : kind ≤ 4) :
    fitsMask (k + kind * 2 ^ 8 + b2n g * 2 ^ 16) 0x10F0F ∧ (k + kind * 2 ^ 8 + b2n g * 2 ^ 16).testBit 16 = g ∧
      (k + kind * 2 ^ 8 + b2n g * 2 ^ 16) % 16 = k ∧ (k + kind * 2 ^ 8 + b2n g * 2 ^ 16) / 2 ^ 8 % 2 ^ 4 = kind := by
  have hg := b2n_le g
  refine ⟨?_, ?_, by omega, by omega⟩
  · have h1 := and_add_mul_eq_zero (a := kind) (b := b2n g) (n := (0xFFFFFFFF ^^^ 0x10F0F) / 2 ^ 8) (i := 3) (k := 8) (by omega) (by decide) (by decide)
      (and_eq_zero_of_lt (k := 1) (by omega) (by decide))
    have h2 := and_add_mul_eq_zero (a := k) (n := 0xFFFFFFFF ^^^ 0x10F0F) (i := 4) (k := 8) hk (by decide) (by decide) h1
    rwa [fitsMask, show k + kind * 2 ^ 8 + b2n g * 2 ^ 16 = k + (kind + b2n g * 2 ^ 8) * 2 ^ 8 by omega]
  · rw [Nat.testBit_eq_decide_div_mod_eq, show (k + kind * 2 ^ 8 + b2n g * 2 ^ 16) / 2 ^ 16 % 2 = b2n g by omega]
    cases g <;> rfl

/-- A slice key is of a kind and of its size (R504). -/
def SliceKey.OfKind (kind : Nat) : SliceKey → Prop
  | .aes q => (kind = 1 ∧ q.length = 16) ∨ (kind = 2 ∧ q.length = 32)
  | .ecdsa q => kind = 3 ∧ 0 < q ∧ q < p384n
  | .mldsa _ => kind = 4

/-- The key of a kind that Fetas makes of its free bytes. -/
def generatedKey (kind : Nat) (b : Bytes) : Option SliceKey :=
  if kind = 3 then some (.ecdsa (beNat b % (p384n - 1) + 1)) else sliceKeyOf kind b

theorem generatedKey_spec {kind : Nat} {b : Bytes} (hpos : 0 < kind) (hkind : kind ≤ 4) (hb : b.length = wrapLen kind) :
    ∃ y, generatedKey kind b = some y ∧ y.OfKind kind := by
  obtain rfl | rfl | rfl | rfl : kind = 1 ∨ kind = 2 ∨ kind = 3 ∨ kind = 4 := by omega
  · exact ⟨.aes b, rfl, .inl ⟨rfl, hb⟩⟩
  · exact ⟨.aes b, rfl, .inr ⟨rfl, hb⟩⟩
  · refine ⟨.ecdsa (beNat b % (p384n - 1) + 1), rfl, rfl, Nat.succ_pos _, ?_⟩
    have hp : 1 < p384n := by decide
    have := Nat.mod_lt (beNat b) (Nat.sub_pos_of_lt hp)
    omega
  · exact ⟨.mldsa (mldsaKeygen b), rfl, rfl⟩

/-- A slice handle holds a key pair with this public half (R504). -/
def State.PublicHalf (s : State) (n k : Nat) (b : Bytes) : Prop :=
  (∃ q, s.slices.keys.get none (n * 16 + k) = some (.ecdsa q) ∧ b = ecdsaPublic q) ∨
  (∃ q, s.slices.keys.get none (n * 16 + k) = some (.mldsa q) ∧ b = mldsaPublic q)

section
variable {s u v : State} {box tag id k n kind slot : Nat} (hops : s.fsi.ops = []) (hbox : box < 8)
include hops hbox

/-- R505: a memory key slot gets a key that Fetas generates. -/
theorem completes_keyMemKey_new (h : s.asks u box tag id 0xC01 [k, 0] none) (hk : k < 8192) :
    Completes .keyMemKey s fun z => z.dram.slotKey.get none k = some s.dram.keyNext ∧ k ∈ z.fe.slots ∧
      z.dram.keyNext = s.dram.keyNext + 1 ∧ z.mem = s.mem ∧ z.regs = s.regs := by
  have hbit : (controlCall box id 0xC01 tag [k, 0] none 0).bit 2 0 = false := Nat.zero_testBit 0
  have e := exec_command_done (i := .keyMemKey) (pa := 0) (a := { res := [] }) (w := u.loadSlot k none) rfl h hbox hops rfl (by decide)
    { sender := ⟨rfl, rfl⟩, short := by simp, fits := ⟨fitsMask_low (k := 13) hk (by decide), fitsMask_zero _, trivial⟩, good := rfl,
      desc := State.descCheck_none (by decide) h.small (by simp) (.inr ⟨rfl, by
        rw [controlCall_desc (by decide) h.small, hbit]
        rfl⟩),
      free := ⟨by decide, by decide, by simp⟩ } (by
        rw [State.readDesc_none (by decide) h.small, hbit]
        rfl)
  refine completes_ok e ⟨?_, mem_insertRising_self _ _, congrArg (fun d => Dram.keyNext d + 1) h.dram, h.mem, h.regs⟩
  exact (SMap.get_set_self _ _ _ _).trans (congrArg (fun d => some (Dram.keyNext d)) h.dram)

/-- R505: a memory key slot gets a key from its wrap. -/
theorem completes_keyMemKey_wrapped {len addr : Nat} {b key : Bytes} {pz : List Bool} (h : s.asks u box tag id 0xC01 [k, 1] (some (len, addr)))
    (hok : s.descOk len addr) (hk : k < 8192) (hr : u.ioRead addr len 18 = (.ok b pz, v)) (hz : pz.any (fun x => x) = false)
    (hkey : v.unwrap 0 b = some key) :
    Completes .keyMemKey s fun z => z.dram.slotKey.get none k = some (2 ^ 600 + leNat key) ∧ k ∈ z.fe.slots ∧ z.mem = v.mem := by
  have hbit (pa : Nat) : (controlCall box id 0xC01 tag [k, 1] (some (len, addr)) pa).bit 2 0 = true := Nat.testBit_one_zero
  have e := exec_command_done (i := .keyMemKey) (pa := addr) (a := { res := [] }) (w := v.loadSlot k (some key)) rfl h hbox hops rfl (by decide)
    { sender := ⟨rfl, rfl⟩, short := by simp,
      fits := ⟨fitsMask_low (k := 13) hk (by decide), fitsMask_low (k := 1) (by decide) (by decide), trivial⟩, good := rfl,
      desc := State.descCheck_some (by decide) h.small (by simp) hbox (h.descOk hok) (by decide) (by
        rw [controlCall_desc (by decide) h.small, hbit]
        rfl),
      free := ⟨by decide, by decide, by simp⟩ } (by
        rw [State.readDesc_some (by decide) h.small (by simp) hr hz, hbit, hkey]
        rfl)
  have hx := v.loadSlot_wrapped k key
  generalize v.loadSlot k (some key) = x at e hx
  exact completes_ok e hx

/-- R371: the keys of a range of DRAM are mapped, once no cache holds its sectors. -/
theorem completes_keyMap {x pages p e d : Nat} (h : s.asks u box tag id 0xC02 [0, p % 2 ^ 32, p / 2 ^ 32, pages, d] none) (hp : p = x * 2 ^ 21)
    (he : e = (x + pages) * 2 ^ 21) (hd : d = slot + 2 ^ 31) (hs : slot < 8192) (hl : slot = 0 ∨ slot ∈ s.fe.slots) (hend : e ≤ s.part.dramEnd)
    (hstart : p < s.part.dramEnd) (hf : u.flushRange p e = (n, v)) :
    Completes .keyMap s fun z => (∀ i < pages, z.reg .DKEY_MAP [x + i] = BitVec.ofNat 64 d) ∧
      z = { v with regs := z.regs, fsi := z.fsi } ∧ z.fsi.ready = v.fsi.ready ++ [(box, [0xC02 + tag * 2 ^ 16, 0, n])] := by
  have hdram : s.part.dramEnd ≤ 2 ^ 36 := by cases s.part <;> decide
  have hfits : fitsMask d 0x80001FFF := by
    have := and_add_mul_eq_zero (a := slot) (b := 1) (n := 0xFFFFFFFF ^^^ 0x80001FFF) (i := 13) (k := 31) hs (by decide) (by decide) (by decide)
    rw [Nat.one_mul] at this
    rwa [hd]
  have htop : d.testBit 31 = true := by
    rw [Nat.testBit_eq_decide_div_mod_eq, show d / 2 ^ 31 % 2 = 1 by omega]
    rfl
  have hslot : d % 8192 = slot := by omega
  have hrange : p + pages * 0x200000 = e := by omega
  have hdiv : p / 0x200000 = x := by omega
  obtain ⟨c, hc⟩ : ∃ c, controlCall box id 0xC02 tag [0, p % 2 ^ 32, p / 2 ^ 32, pages, d] none 0 = c := ⟨_, rfl⟩
  have hpa : c.w2 2 = p := hc ▸ words_of_wide p
  have hb0 : c.bit 1 0 = false := hc ▸ Nat.zero_testBit 0
  have hb31 : c.bit 5 31 = true := hc ▸ htop
  have hw4 : c.w 4 = pages := hc ▸ rfl
  have hw5 : c.w 5 = d := hc ▸ rfl
  have hloaded : (slot != 0 && !u.slotLoaded slot) = false := by
    obtain rfl | hm := hl
    · rfl
    · rw [State.slotLoaded, h.fe, List.contains_iff_mem.mpr hm, Bool.true_or, Bool.not_true, Bool.and_false]
  have he := exec_command_done (i := .keyMap) (pa := 0) (a := { res := [n] }) (w := v.mapKeys x pages (BitVec.ofNat 64 d))
    rfl h hbox hops rfl (by decide)
    { sender := ⟨rfl, rfl⟩, short := by simp,
      fits := ⟨fitsMask_zero _, fitsMask_all _, fitsMask_low (k := 14) (by omega) (by decide), fitsMask_all _, hfits, trivial⟩,
      good := by
        simp only [hc, hb0, hpa, hw4, Bool.false_eq_true, if_false, h.part]
        rw [decide_eq_false (by omega), decide_eq_false (by omega)]
        rfl
      desc := State.descCheck_none (by decide) h.small (by simp) (.inl rfl), free := ⟨by decide, by decide, by simp⟩ } (by
        simp only [hc, hb0, hb31, hpa, hw4, hw5, hslot, hloaded, Bool.true_and, Bool.false_eq_true, if_false]
        rw [hrange, hf]
        dsimp only
        rw [hdiv]
        rfl)
  obtain ⟨hframe, hmap⟩ := v.mapKeys_spec x pages (BitVec.ofNat 64 d)
  generalize v.mapKeys x pages (BitVec.ofNat 64 d) = y at he hframe hmap
  refine completes_ok he ⟨hmap, State.reply_frame hframe _ _ _, ?_⟩
  rw [State.reply_ready _ (by decide) h.small, hframe]
  rfl

/-- R504, R505: a slice key that Fetas generates. -/
theorem completes_keySliceKey_generated {a : Nat} (h : s.asks u box tag id 0xC03 [n, a] none) (ha : a = k + kind * 2 ^ 8 + b2n true * 2 ^ 16) (hn : n < 8192)
    (hk : k < 16) (hpos : 0 < kind) (hkind : kind ≤ 4) :
    Completes .keySliceKey s fun z => (∃ y, z.slices.keys.get none (n * 16 + k) = some y ∧ y.OfKind kind) ∧ z.mem = s.mem ∧ z.regs = s.regs := by
  obtain ⟨hfit, hbit, hlow, hmid⟩ := sliceKeyArg true hk hkind
  rw [← ha] at hfit hbit hlow hmid
  obtain ⟨c, hc⟩ : ∃ c, controlCall box id 0xC03 tag [n, a] none 0 = c := ⟨_, rfl⟩
  have hw1 : c.w 1 = n := hc ▸ rfl
  have hb16 : c.bit 2 16 = true := hc ▸ hbit
  have hw2 : c.w 2 % 16 = k := hc ▸ hlow
  have hf : c.f 2 11 8 = kind := hc ▸ hmid
  obtain ⟨hlen, hrest⟩ := u.freshBytes_spec (wrapLen kind)
  obtain ⟨y, hy, hof⟩ := generatedKey_spec hpos hkind hlen
  have e := exec_command_done (i := .keySliceKey) (pa := 0) (a := { res := [] }) (w := (u.freshBytes (wrapLen kind)).2.setKey n k (some y))
    rfl h hbox hops rfl (by decide)
    { sender := ⟨rfl, rfl⟩, short := by simp, fits := ⟨fitsMask_low (k := 13) hn (by decide), hfit, trivial⟩,
      good := by
        rw [hc, hf, decide_eq_false (by omega)]
        rfl
      desc := State.descCheck_none (by decide) h.small (by simp) (.inr ⟨rfl, by
        rw [controlCall_desc (by decide) h.small, hc, hb16]
        rfl⟩),
      free := ⟨by decide, by decide, by simp⟩ } (by
        rw [State.readDesc_none (by decide) h.small]
        simp only [hc, hf, hb16, hw1, hw2, if_true]
        unfold generatedKey at hy
        split at hy
        · next h3 =>
          rw [if_pos h3, hy]
          rfl
        · next h3 =>
          rw [if_neg h3, hy]
          rfl)
  generalize (u.freshBytes (wrapLen kind)).2 = x at e hrest
  have hmem : x.mem = s.mem := (congrArg State.mem hrest).trans h.mem
  have hregs : x.regs = s.regs := (congrArg State.regs hrest).trans h.regs
  have hset : (x.setKey n k (some y)).slices.keys = x.slices.keys.set none (n * 16 + k) (some y) := rfl
  have hget : (x.setKey n k (some y)).slices.keys.get none (n * 16 + k) = some y := by rw [hset, SMap.get_set_self]
  exact completes_ok e ⟨⟨y, hget, hof⟩, hmem, hregs⟩

/-- R505: a slice key from its wrap. -/
theorem exec_keySliceKey_wrapped {a len addr : Nat} {b key : Bytes} {pz : List Bool} {y : SliceKey}
    (h : s.asks u box tag id 0xC03 [n, a] (some (len, addr))) (ha : a = k + kind * 2 ^ 8 + b2n false * 2 ^ 16)
    (hok : s.descOk len addr) (hn : n < 8192) (hk : k < 16) (hpos : 0 < kind) (hkind : kind ≤ 4)
    (hr : u.ioRead addr len 18 = (.ok b pz, v)) (hz : pz.any (fun x => x) = false) (hkey : v.unwrap kind b = some key)
    (hy : sliceKeyOf kind key = some y) :
    s.answers { v with slices := { v.slices with keys := v.slices.keys.set none (n * 16 + k) (some y) } } .keySliceKey box 0xC03 tag { res := [] } := by
  obtain ⟨hfit, hbit, hlow, hmid⟩ := sliceKeyArg false hk hkind
  rw [← ha] at hfit hbit hlow hmid
  have hbit (pa : Nat) : (controlCall box id 0xC03 tag [n, a] (some (len, addr)) pa).bit 2 16 = false := hbit
  have hf (pa : Nat) : (controlCall box id 0xC03 tag [n, a] (some (len, addr)) pa).f 2 11 8 = kind := hmid
  have hw2 : (controlCall box id 0xC03 tag [n, a] (some (len, addr)) addr).w 2 % 16 = k := hlow
  have hw1 : (controlCall box id 0xC03 tag [n, a] (some (len, addr)) addr).w 1 = n := rfl
  refine exec_command_done rfl h hbox hops rfl (by decide) (pa := addr)
    { sender := ⟨rfl, rfl⟩, short := by simp, fits := ⟨fitsMask_low (k := 13) hn (by decide), hfit, trivial⟩,
      good := by
        rw [hf, decide_eq_false (by omega)]
        rfl
      desc := State.descCheck_some (by decide) h.small (by simp) hbox (h.descOk hok) (by decide) (by
        rw [controlCall_desc (by decide) h.small, hbit]
        rfl),
      free := ⟨by decide, by decide, by simp⟩ } ?_
  rw [State.readDesc_some (by decide) h.small (by simp) hr hz]
  simp only [hbit, hf, hw1, hw2, hkey, Option.bind_some, hy, Bool.false_eq_true, if_false]
  rfl

/-- A slice key is erased. -/
theorem exec_keyErase_slice {a : Nat} (h : s.asks u box tag id 0xC04 [1, a] none) (ha : a = n + k * 2 ^ 16) (hn : n < 8192) (hk : k < 16) :
    s.answers { u with slices := { u.slices with keys := u.slices.keys.set none (n * 16 + k) none } } .keyErase box 0xC04 tag { res := [] } := by
  have hfit : fitsMask a 0xF1FFF := by
    rw [ha]
    exact and_add_mul_eq_zero (i := 13) hn (by decide) (by decide) (and_eq_zero_of_lt (k := 4) hk (by decide))
  have hlow : a % 8192 = n := by omega
  have hhigh : a / 2 ^ 16 % 2 ^ 4 = k := by omega
  obtain ⟨c, hc⟩ : ∃ c, controlCall box id 0xC04 tag [1, a] none 0 = c := ⟨_, rfl⟩
  have hb0 : c.bit 1 0 = true := hc ▸ Nat.testBit_one_zero
  have hw2 : c.w 2 % 8192 = n := hc ▸ hlow
  have hf : c.f 2 19 16 = k := hc ▸ hhigh
  refine exec_command_done rfl h hbox hops rfl (by decide) (pa := 0)
    { sender := ⟨rfl, rfl⟩, short := by simp, fits := ⟨fitsMask_low (k := 1) (by decide) (by decide), hfit, trivial⟩,
      good := by
        rw [hc, hb0]
        rfl
      desc := State.descCheck_none (by decide) h.small (by simp) (.inl rfl),
      free := ⟨by decide, by decide, by rw [hc, hb0, if_pos rfl]; simp⟩ } ?_
  rw [hc, hb0, if_pos rfl, hw2, hf]
  rfl

/-- R505: an erased memory key slot holds a key that nothing else has. -/
theorem completes_keyErase_slot (h : s.asks u box tag id 0xC04 [0, k] none) (hk : k < 8192) :
    Completes .keyErase s fun z => z.dram.slotKey.get none k = some s.dram.keyNext ∧ z.dram.keyNext = s.dram.keyNext + 1 ∧
      z.fe.slots = s.fe.slots.erase k ∧ z.mem = s.mem ∧ z.regs = s.regs := by
  have hbit : (controlCall box id 0xC04 tag [0, k] none 0).bit 1 0 = false := Nat.zero_testBit 0
  have e := exec_command_done (i := .keyErase) (pa := 0) (a := { res := [] }) (w := u.eraseSlot k) rfl h hbox hops rfl (by decide)
    { sender := ⟨rfl, rfl⟩, short := by simp,
      fits := ⟨fitsMask_zero _, and_eq_zero_of_lt (k := 13) hk (by decide), trivial⟩,
      good := by
        rw [hbit]
        show badWhen [(2, !false && decide (8192 ≤ k))] = none
        rw [decide_eq_false (by omega)]
        rfl
      desc := State.descCheck_none (by decide) h.small (by simp) (.inl rfl),
      free := ⟨by decide, by decide, by rw [hbit, if_neg (by decide)]; simp⟩ } (by
        rw [hbit]
        rfl)
  refine completes_ok e ⟨?_, congrArg (fun d => Dram.keyNext d + 1) h.dram, congrArg (fun f => (Fetas.slots f).erase k) h.fe, h.mem, h.regs⟩
  exact (SMap.get_set_self _ _ _ _).trans (congrArg (fun d => some (Dram.keyNext d)) h.dram)

/-- R505: the public half of a key pair is given. -/
theorem exec_keyPublic {len addr : Nat} {b : Bytes} (h : s.asks u box tag id 0xC05 [n, k] (some (len, addr))) (hok : s.descOk len addr)
    (hn : n < 8192) (hk : k < 16) (hpub : s.PublicHalf n k b) (hlen : len = b.length) (hw : u.ioWrite addr b [] 18 = (some true, v)) :
    s.answers v .keyPublic box 0xC05 tag { res := [b.length] } := by
  have hclen : (controlCall box id 0xC05 tag [n, k] (some (len, addr)) addr).len = len := rfl
  have hten : (controlCall box id 0xC05 tag [n, k] (some (len, addr)) addr).tenant = false := decide_eq_false (by simpa [controlCall] using hbox)
  have hw1 : (controlCall box id 0xC05 tag [n, k] (some (len, addr)) addr).w 1 = n := rfl
  have hw2 : (controlCall box id 0xC05 tag [n, k] (some (len, addr)) addr).w 2 = k := rfl
  refine exec_command_done rfl h hbox hops rfl (by decide) (pa := addr)
    { sender := ⟨rfl, rfl⟩, short := by simp,
      fits := ⟨fitsMask_low (k := 13) hn (by decide), fitsMask_low (k := 4) hk (by decide), trivial⟩, good := rfl,
      desc := State.descCheck_some (by decide) h.small (by simp) hbox (h.descOk hok) (by decide) rfl,
      free := ⟨by decide, by decide, by simp [noObj]⟩ } ?_
  have hgive : (if len ≠ b.length then u.badArg 0x10 else
      u.writeDesc (controlCall box id 0xC05 tag [n, k] (some (len, addr)) addr) b fun s => s.yes [b.length]) = .done { res := [b.length] } v := by
    rw [if_neg (not_not.mpr hlen)]
    exact State.writeDesc_done hw
  dsimp only
  rw [hten, Bool.false_and, if_neg (by decide), hw1, hw2, hclen, h.slices]
  obtain ⟨q, hkey, rfl⟩ | ⟨q, hkey, rfl⟩ := hpub
  · rw [hkey]
    exact hgive
  · rw [hkey]
    exact hgive

end

/-- Settles O53: every command of these groups by the run of a request whose checks pass. -/
theorem fsiFirmwareTraceKeys : Obligations.FsiFirmwareTraceKeys := by
  unfold Obligations.FsiFirmwareTraceKeys
  intro s u v box tag id len addr n k x t at' kind ms vmid pages slot b key pz host kk h pay mask hops
    done asks asksDesc gets puts req op
  refine ⟨?stage, ?activate, ?status, ?erase, ?program, ?rollback, ?authorise, ?revoke, ?list, ?memNew, ?memWrapped, ?map, ?sliceNew, ?sliceWrapped,
    ?eraseSlice, ?eraseMem, ?pub⟩
  case stage =>
    rintro ⟨hbox, ha, hok⟩ ⟨hr, hz⟩ hfe himg hf
    have hbanks : v.banks host = s.banks host := by rw [State.banks, hfe, State.banks]
    obtain ⟨hin, hout, huse, hst⟩ := v.bank_stage host h b
    rw [hbanks] at hin hout huse
    refine ⟨_, exec_firmwareStage hops hbox ha hok hr hz hfe himg hf, hst, huse, ?_, ?_, ?_, ?_, hout⟩ <;>
      rw [hin, stagedBank]
  case activate =>
    rintro ⟨hbox, ha⟩ ht hst
    exact completes_firmwareActivate hops hbox ha ht hst
  case status =>
    rintro ⟨hbox, ha⟩
    exact exec_firmwareStatus hops hbox ha
  case erase =>
    rintro ⟨hbox, ha⟩ hat hl hl4 hsize -
    exact completes_firmwareFlash_erase hops hbox ha hat hl hl4 hsize
  case program =>
    rintro ⟨hbox, ha, hok⟩ ⟨hr, hz⟩ hlow hregs hat hl hsize -
    exact completes_firmwareFlash_program hops hbox ha hok hr hz hlow hregs hat hl hsize
  case rollback =>
    rintro ⟨hbox, ha⟩ hv hf
    exact completes_firmwareRollback hops hbox ha hv hf
  case authorise =>
    rintro ⟨hbox, ha⟩ hv hms hms' hroom
    exact completes_traceAuthorise hops hbox ha hv hms hms' hroom
  case revoke =>
    rintro ⟨hbox, ha⟩ - hn
    exact completes_traceRevoke hops hbox ha hn
  case list =>
    rintro ⟨hbox, ha, hok⟩ hb z hw
    exact exec_traceList hops hbox ha hok hb hw
  case memNew =>
    rintro ⟨hbox, ha⟩ hk
    exact completes_keyMemKey_new hops hbox ha hk
  case memWrapped =>
    rintro ⟨hbox, ha, hok⟩ hk ⟨hr, hz⟩ - hkey
    exact completes_keyMemKey_wrapped hops hbox ha hok hk hr hz hkey
  case map =>
    rintro ⟨hbox, ha⟩ hs hl hend hstart hf
    exact completes_keyMap hops hbox ha rfl rfl rfl hs hl hend hstart hf
  case sliceNew =>
    rintro ⟨hbox, ha⟩ hn hk hpos hkind
    exact completes_keySliceKey_generated hops hbox ha rfl hn hk hpos hkind
  case sliceWrapped =>
    rintro ⟨hbox, ha, hok⟩ hn hk hpos hkind ⟨hr, hz⟩ hkey y hy
    exact exec_keySliceKey_wrapped hops hbox ha rfl hok hn hk hpos hkind hr hz hkey hy
  case eraseSlice =>
    rintro ⟨hbox, ha⟩ hn hk
    exact exec_keyErase_slice hops hbox ha rfl hn hk
  case eraseMem =>
    rintro ⟨hbox, ha⟩ hk
    exact completes_keyErase_slot hops hbox ha hk
  case pub =>
    rintro ⟨hbox, ha, hok⟩ hn hk
    refine ⟨fun q hq hlen hw => ?_, fun q hq hlen hw => ?_⟩
    · exact exec_keyPublic hops hbox ha hok hn hk (.inl ⟨q, hq, rfl⟩) hlen hw
    · exact exec_keyPublic hops hbox ha hok hn hk (.inr ⟨q, hq, rfl⟩) hlen hw

end Sys2Proof.Machine
